-- ==== Sys2Proof/Word.lean ====
section
/-! DEFINITION. The word types and their plainest arithmetic: 32-bit registers, bytes, bit fields of a number, and
signed readings of a field. -/

namespace Sys2Proof

/-- A BAR2 register's contents (R636). -/
abbrev Word := BitVec 32

/-- A byte of an addressed store. -/
abbrev Byte := BitVec 8

/-- The `w` bits of `v` from bit `lo` up. -/
def bitsOf (v lo w : Nat) : Nat := v / 2 ^ lo % 2 ^ w

/-- `v` with its `w` bits from bit `lo` up replaced by `x` (taken modulo the width). -/
def bitsPut (v lo w x : Nat) : Nat := v % 2 ^ lo + (x % 2 ^ w) * 2 ^ lo + v / 2 ^ (lo + w) * 2 ^ (lo + w)

/-- The two's complement reading of the `w` bits of `v`. -/
def signedOf (w v : Nat) : Int := if v < 2 ^ (w - 1) then (v : Int) else (v : Int) - 2 ^ w

/-- The two's complement encoding of an integer in `w` bits. -/
def unsignedOf (w : Nat) (i : Int) : Nat := (i % (2 ^ w : Int)).toNat

/-- A truth value as a bit. -/
def bit (b : Bool) : Nat := if b then 1 else 0

/-- Addition that saturates at `m`. -/
def satAdd (m a b : Nat) : Nat := min m (a + b)

/-- Division rounded up. -/
def ceilDiv (a b : Nat) : Nat := (a + b - 1) / b

/-- An integer limited to `lo` to `hi`. -/
def clampInt (lo hi v : Int) : Int := max lo (min hi v)

end Sys2Proof
end

