-- ==== Sys2Proof/Syntax.lean ====
section
/-! DEFINITION. The commands of the block: one constructor per row of the opcode table, with the operands that the row's
rule needs. An operand is what the row's sender supplies (a command's fields, a written value, a frame) or what the
outside world answers (a measured value, a status the NAND returns, a check's outcome). -/

namespace Sys2Proof

/-- The four outside sources of time with the codes of R47's table: holdover is the TCXO alone. -/
inductive Src where
  | holdover | sync | bxl | ptm
  deriving DecidableEq, Repr

/-- Where a command came from: a controller's queue, or the management port (R181, R583). -/
inductive Ref where
  | host (ctrl sq cid : Nat)
  | side
  deriving DecidableEq, Repr

/-- The bits a soft error flips in the two ruling counters before a tick's checks (R36): masks over the count in
1/256 ns and over the line index, 0 for none. -/
structure Upset where
  countA : Nat := 0
  countB : Nat := 0
  lineA : Nat := 0
  lineB : Nat := 0
  deriving DecidableEq, Repr

/-- What the words read from a cell carry (R208, R225): nothing, a corrected single-bit error or an uncorrectable word, with the cell, or a
bank-level failure such as an address failure, with the bank. -/
inductive CellErr where
  | ok
  | ce (cell : Nat)
  | ue (cell : Nat)
  | bank (bank : Nat)
  deriving DecidableEq, Repr

/-- Whether the data of the cells is lost (R208, R225). -/
def CellErr.isLost : CellErr → Bool
  | .ue _ | .bank _ => true
  | .ok | .ce _ => false

/-- The end of a data unit in a lane (R208, R231): whether it passes the lane's check, and what the cells that the lane read or wrote carry. -/
structure UnitEnd where
  pass : Bool := true
  cell : CellErr := .ok
  deriving DecidableEq, Repr

/-- A request for an owner (R210, R213): its minimum, the cells that its work asks for, and whether that is reclaim work. -/
structure Registration where
  min : Nat := 0
  cells : Nat := 0
  reclaim : Bool := false
  deriving DecidableEq, Repr

/-- A Tine's request to the Inkwell (R216, R217, R218). -/
inductive InkAsk where
  | none
  | alloc (owner last n : Nat)
  | hold (head asker owner : Nat)
  | release (head owner : Nat)
  deriving DecidableEq, Repr

/-- A Tine's output (R473, R475): the Tine's running CRC of the stream after it, and the request that it is on the Inkwell's stream. -/
structure TineOut where
  crc : Nat := 0
  ask : InkAsk := .none
  deriving DecidableEq, Repr

/-- The parity errors that a soft error puts into a Quill's stores (R413): none, in a microword or in a nanoword. -/
inductive Par where
  | ok | micro | nano
  deriving DecidableEq, Repr

/-- What a microword's cycle takes from outside (R405, R413): the parity of the word that the cycle fetches, and the byte
that an SREAD returns. -/
structure QIn where
  par : Par := .ok
  sr : Nat := 0
  deriving DecidableEq, Repr

/-- A read's deadline (R175): `us` as the command gives it, 0 for none, and how many ns after the latch the lookup has the
read's units and the admission test runs (R98). -/
structure ReadDue where
  us : Nat := 0
  lag : Nat := 0
  deriving DecidableEq, Repr

/-- The clock that counted a stop of the Ruling (R61): the TCXO, the 32.768 kHz oscillator, or neither. -/
inductive AonClock where
  | tcxo | rtc | none
  deriving DecidableEq, Repr

/-- What a memory read of the Host Port fetches (R128, R132, R134, R156): a segment of a write's data, a PRP list or SGL segment, the
submission queue entry of a slot with the command identifier received, or a shadow head with the value found. -/
inductive MemRead where
  | data (ref : Ref) (lo : Nat)
  | list (ref : Ref)
  | sqe (ctrl sq slot cid : Nat)
  | head (ctrl cq value : Nat)
  deriving DecidableEq, Repr

/-- How a memory read ends (R127 to R132, R134): its data, a submission queue entry with its opcode and data pointers, further pointers
that a list or segment gives, data of which some logical blocks arrived poisoned or failing ECRC, or a failure (translation, Unsupported
Request, Completer Abort). A pointer is an address and a length in bytes; `sgl` says that they come from an SGL, `more` that a list or
segment follows. -/
inductive MemRes where
  | ok
  | entry (opc : Nat) (ptrs : List (Nat × Nat)) (sgl more : Bool)
  | ptrs (l : List (Nat × Nat)) (sgl more : Bool)
  | poison (blocks : List Nat)
  | fail
  deriving DecidableEq, Repr

/-- The errors of AER (R135). -/
inductive AerErr where
  | receiver | badTlp | badDllp | replayRollover | replayTimeout | headerOverflow | correctedInternal | advisory
  | poisoned | completionTimeout | completerAbort | unexpectedCompletion | ecrc | unsupportedRequest | egressBlocked
  | dataLink | flowControl | receiverOverflow | malformed | uncorrectableInternal
  deriving DecidableEq, Repr

/-- An inbound completion of a memory read (R127, R135, R150, R208): how the read ends, the metadata of the 4,096 + 8 blocks that it brings, and what the port has detected since the last one:
errors of its functions' AER capability, and FLIT FEC corrections in thousands. -/
structure MemIn where
  res : MemRes := .ok
  metas : List Nat := []
  errs : List AerErr := []
  fec : Nat := 0
  deriving DecidableEq, Repr

/-- What the host has configured on one function (R116, R123, R135 to R138): Max Read Request Size, the bases of BAR0, BAR2 and BAR4, the
completion timeout, the MSI vectors enabled, the function mask of MSI-X, and AER's masks and changed severities (true: fatal). -/
structure FnCfg where
  fn : Nat
  mrrs : Nat := 512
  bar0 : Option Nat := none
  bar2 : Option Nat := none
  bar4 : Option Nat := none
  ctoUs : Nat := 40000
  ctoOff : Bool := false
  msiVecs : Nat := 32
  fnMask : Bool := false
  aerMask : List AerErr := []
  aerSev : List (AerErr × Bool) := []
  deriving DecidableEq, Repr

/-- What the host has configured when a port's configuration space is used (R122, R137, R139, R143): the VFs enabled on
PF0 and PF1, whether ATS, PTM, MSI-X and MSI are enabled, and the functions whose own settings are not the defaults. -/
structure CfgSpace where
  vfs0 : Nat := 0
  vfs1 : Nat := 0
  ats : Bool := false
  ptm : Bool := false
  msix : Bool := true
  msi : Bool := false
  fns : List FnCfg := []
  deriving DecidableEq, Repr

/-- A mask bit that the host writes (R137, R138): of an MSI-X vector, of MSI-X's function mask, of an MSI vector, or of INTMS and INTMC. -/
inductive MaskBit where
  | msix (vec : Nat)
  | function
  | msi (vec : Nat)
  | intx (vec : Nat)
  deriving DecidableEq, Repr

/-- A write of a mask bit: cleared, or set. -/
structure MaskWrite where
  bit : MaskBit
  set : Bool := false
  deriving DecidableEq, Repr

/-- The data of a host write to BAR2 (R128): its value, or data with EP set or failing ECRC. -/
structure WriteData where
  value : Nat
  poison : Bool := false
  deriving DecidableEq, Repr

/-- A host read of a register (R129): its offset, and whether the register's stored word fails its ECC check. -/
structure BarRead where
  off : Nat
  bad : Bool := false
  deriving DecidableEq, Repr

/-- CC and the admin queues' bases as the host enables a controller (R154): CC.AMS, CC.IOSQES, CC.IOCQES, ASQ and ACQ. -/
structure CcWrite where
  ams : Nat := 0
  iosqes : Nat := 6
  iocqes : Nat := 4
  asq : Nat := 0
  acq : Nat := 0
  deriving DecidableEq, Repr

/-- A Compare (R166): whether the host's data equals what it reads, and whether it is the first of a fused pair. -/
structure Comparison where
  same : Bool := true
  fused : Bool := false
  deriving DecidableEq, Repr

/-- A sweep entry (R567). -/
structure SweepEntry where
  node : Nat  -- NODE bits 13:0
  stale : Bool := false  -- NODE bit 14
  last : Bool := false  -- FLAGS bit 0
  held : Bool := false  -- FLAGS bit 1
  booting : Bool := false  -- FLAGS bit 2
  off : Bool := false  -- FLAGS bit 3: SWEEP_EN was 0
  mode : Nat := 0
  cls : Nat := 0
  guar : Nat := 0
  unc : Nat := 0
  offset : Nat := 0
  hops : Nat := 0xFFFF
  bootSeq : Nat := 0
  digest : Nat := 0  -- DIGEST of the newest Colophon entry
  lc : Nat := 0
  slot : Nat := 0
  version : Nat := 0
  relay : Nat := 0
  reason : Nat := 0
  cuts : List Nat := []
  cutNo : Nat := 0
  deriving DecidableEq, Repr

/-- What a scrub of the map pages in D5 SDRAM finds (R251, R504 IDs 26 to 28): pages whose CRC does not match, pages with an uncorrectable word,
whether a word was corrected, and whether one outside the map could not be. -/
structure ScrubFound where
  bad : List (Nat × Nat) := []
  ueMap : List (Nat × Nat) := []
  ce : Bool := false
  ue : Bool := false
  deriving DecidableEq, Repr

/-- A frame's arrival (R556, R557): the port, UP when `up`, and what its header carries: FLAGS bit 0 BCAST, SRC, DST and HOPS. -/
structure BxlIn where
  up : Bool
  bcast : Bool := false
  src : Nat := 0
  dst : Nat := 0
  hops : Nat := 0
  deriving DecidableEq, Repr

/-- A package's manifest (R572): its fields, and the outcomes of the checks of R573 that depend on bytes outside the model:
its form, its Torvelle signatures under ROOT_HASH, its owner signatures, the body's GCM tag and the plaintext's digest. -/
structure Manifest where
  form : Bool := true  -- R573 step 1: MAGIC, VERSION and the reserved fields
  kind : Nat := 1  -- PKG_TYPE
  ownerSigned : Bool := false
  test : Bool := false
  plain : Bool := false
  version : Nat := 0
  svn : Nat := 0
  setFmt : Nat := 0
  chunks : Nat := 1
  digs : List Nat := []  -- CHUNK_DIG, each named by the content it digests
  signed : Bool := true  -- R573 step 2
  owner : Bool := false  -- R573 step 3
  tag : Bool := true  -- R573 step 6
  digest : Bool := true  -- R573 step 7
  image : Nat := 1  -- the plaintext's name
  deriving DecidableEq, Repr

/-- A chunk of a package (R572): chunk 0 is the manifest, a body chunk is named by its content. -/
inductive PkgChunk where
  | manifest (m : Manifest)
  | body (content : Nat)
  deriving DecidableEq, Repr

/-- Who speaks SPDM to the WY48 (R539, R625): a PF's DOE mailbox or an MCTP endpoint. -/
inductive Party where
  | doe (pf : Nat)
  | mctp (eid : Nat)
  deriving DecidableEq, Repr


/-- The NAND geometry that discovery finds (R243, R366): units, planes and pages of a block, blocks per plane of the
smallest LUN, bits per cell, and the page size with spare in bytes. -/
structure Geom where
  pageKib : Nat := 16
  planes : Nat := 4
  pages : Nat := 3072
  blocks : Nat := 620
  bits : Nat := 3
  full : Nat := 18592
  lunBit : Nat := 21  -- R373: position of the LUN field in the row address
  deriving DecidableEq, Repr

/-- A copy in the Folio that is held twice (R297, R425, R525), or a record there. -/
inductive FolCopy where
  | settings (copyB : Bool)
  | keys (copyB : Bool)
  | identity (copyB : Bool)
  | remap (copyB : Bool)
  | tally (copyB : Bool)
  | root (copyB : Bool)
  | scriptorium (copyB : Bool)
  | shut  -- R456: the newest shutdown record, whose digest fails
  deriving DecidableEq, Repr

/-- What a BOOT finds when it reads and tests what no state foresees (R530): the clock that counted the stop and the ticks
counted, fuse words that read otherwise than burned, copies that are not intact, slots and boot loader copies that do
not verify, built-in self-tests, the NAND array, and what the medium gives back. -/
structure BootEnv where
  clk : AonClock := .none  -- R61, R62
  stopTicks : Nat := 0
  readings : List (Nat × Nat × Nat) := []  -- R527: word, margin-low and margin-high reading
  bad : List FolCopy := []  -- R297, R425, R525
  slotBad : List Nat := []  -- R531
  loaderBad : List Nat := []  -- R525, R531: copies 0 (A) and 1 (B)
  tineA : Bool := true  -- R494
  tineB : Bool := true
  banks : List Nat := []  -- R225: SRAM banks that fail their self-test
  lanes : List Nat := []  -- R233: lanes that fail their known-answer test
  nibs : List Nat := []  -- R368, R388: Nibs that fail bring-up or their decoder's test
  luns : List (Nat × Nat) := []  -- R365, R366: LUNs found and their manufacturer and device IDs
  odd : List Nat := []  -- R366: LUNs found whose geometry is not the reference geometry
  crc : List Nat := []  -- R365: Nibs with a target whose parameter page copies all fail
  extra : List Nat := []  -- R365: Nibs with a target that reports more than 8 LUNs
  geom : Geom := {}
  chanBlocks : List (Nat × Nat) := []  -- R366: Nibs with a LUN of fewer blocks per plane than the reference, and that number
  factoryBad : List (Nat × Nat) := []  -- R334: LUN and block
  d5Gib : Nat := 128  -- R249
  rebuilt : List Nat := []  -- R460: Blotter groups that are rebuilt from their row's parity
  lost : List Nat := []  -- R461: Blotter groups that cannot be rebuilt
  pages : List (Nat × Nat) := []  -- R251: map pages of the checkpoint that cannot be read (namespace, page)
  badUnits : List Nat := []  -- R299: PUAs of units that do not decode with a valid record
  deriving DecidableEq, Repr

/-- A lifecycle token (R542) as the checks see it: its fields, whether its reserved bytes are 0, whether IDENT is this device's,
and whether its signatures verify under the keys that R542 names. -/
structure LcToken where
  dest : Nat := 0  -- TO
  zero : Bool := true  -- bytes 7:1 are 0
  bootSeq : Nat := 0  -- BOOT_SEQ
  ident : Bool := true  -- IDENT
  ownerHash : Nat := 0  -- SHA-384 of OWNER_KEYS
  signed : Bool := true
  deriving DecidableEq, Repr

/-- The operations of the General Cipher Engine (R549). -/
inductive GceOp where
  | gcmEncrypt | gcmDecrypt | cmac | wrap | unwrap | sha | sign | verify | random
  deriving DecidableEq, Repr

/-- An owner token of feature 0xC6 (R577) as the checks see it: its fields, whether its reserved bytes are 0, whether IDENT is this
device's, and whether its signatures verify under the owner keys. -/
structure OwnerToken where
  purpose : Nat := 1  -- PURPOSE
  zero : Bool := true  -- bytes 7:1 are 0
  bootSeq : Nat := 0  -- BOOT_SEQ
  ident : Bool := true  -- IDENT
  signed : Bool := true
  deriving DecidableEq, Repr

/-- The commands and events of the block, one constructor per row of the opcode table. -/
inductive Instr where
  /-- PFAIL_N_FALL (R451): PFAIL_N goes low and the deglitch interval starts. -/
  | pfailNFall
  /-- PFAIL_DEGLITCH_EXPIRE (R451): PFAIL_N has stayed low for the deglitch time, so it is taken as asserted and HOLD-UP is due at the next line. -/
  | pfailDeglitchExpire
  /-- PFAIL_N_RISE (R590): PFAIL_N rises, which starts the PGOOD_MS qualification for a power-up request. -/
  | pfailNRise
  /-- PGOOD_TIMER_EXPIRE (R590): PFAIL_N has stayed high for PGOOD_MS, so a power-up request is raised. -/
  | pgoodTimerExpire
  /-- HOLDUP_ENTRY (R452): At the first line after PFAIL_N is asserted the WY48 enters HOLD-UP, closes commit groups and begins the class 0 dump. -/
  | holdupEntry (clk : AonClock) (ticks : Nat)
  /-- HOLDUP_DUMP_DEADLINE (R455): The dump is still open at PFAIL_N + 0.9 × TB, so no further dump stroke is placed and a KIND 3 record follows. -/
  | holdupDumpDeadline
  /-- HOLDUP_DUMP_COMPLETE (R453): The last dump item has been placed and its strokes have passed, so the shutdown record is written. -/
  | holdupDumpComplete
  /-- POWER_UP_STEP_DONE (R591): A power-up step PUk completes; BOOT begins at the end of PU12. -/
  | powerUpStepDone (k : Nat) (env : BootEnv)
  /-- POWER_DOWN_STEP_DONE (R591): A power-down step PDk completes; OFF is reached at the end of PD12. -/
  | powerDownStepDone (k : Nat)
  /-- MIN_OFF_TIME_EXPIRE (R592): The 10 ms minimum off time after PD12 ends, so a pending power-up request begins PU1. -/
  | minOffTimeExpire
  /-- RAIL_GOOD_TIMEOUT (R661): A rail is not good by the end of its power-up step maximum, so power-down runs from the step's mirror. -/
  | railGoodTimeout
  /-- RAIL_OUT_OF_LIMITS (R662): An enabled rail leaves its limits for 2 µs and is handled as a PFAIL_N assertion. -/
  | railOutOfLimits
  /-- VAUX_33_LOSS (R662): Loss of VAUX_33 resets the always-on island at once, and no shutdown record is written. -/
  | vaux33Loss
  /-- THERMAL_SENSOR_SAMPLE (R605): The Thermal Monitor reads the 32 junction sensors, as it does every 1 ms. -/
  | thermalSensorSample (temps : List Int)
  /-- THROTTLE_LEVEL_FALL (R608): Every reading has stayed 3 °C below the level's thresholds for 1 s, so the level falls by one. -/
  | throttleLevelFall
  /-- RATE_OF_RISE_WINDOW (R609): At the end of each 250 ms window the rise rates are formed, and ROR is set or cleared. -/
  | rateOfRiseWindow
  /-- THERMAL_HOLD_RELEASE (R613): A held power-up request proceeds once the latch is clear and sensor 31 reads below 100 °C. -/
  | thermalHoldRelease
  /-- AVS_ACK_TIMEOUT (R604): An AVSBus change is not acknowledged within TMO_US, so it is retried or AVS_TMO is set. -/
  | avsAckTimeout
  /-- AVS_READBACK_POLL (R604): The periodic 1 ms voltage read-back may set AVS_MISMATCH and cause the setpoint to be requested again. -/
  | avsReadbackPoll (vread : Nat)
  /-- DOZE_ISLAND_DELAY_EXPIRE (R597): An island's requested delay ends, so the Power Controller asks that island again. -/
  | dozeIslandDelayExpire (us : Nat)
  /-- DOZE_ABORT_POINT (R598): The work for the next abort point AP1 to AP6 completes and the wake check is made; at AP6 the mode becomes DOZE. -/
  | dozeAbortPoint
  /-- DOZE_ENTRY_RETRY (R600): 100 ms after a refusal or abandonment, with no command outstanding, DOZE entry starts again. -/
  | dozeEntryRetry
  /-- DOZE_LOOP_WAKE (R601): The DOZE loop period elapses, so the always-on island samples sensors, VSTORE, PERST_N and the sideband, and wakes or sleeps. -/
  | dozeLoopWake (clk : AonClock) (ticks : Nat) (temps : List Int) (vnow : Nat)
  /-- RULING_TICK (R36): The Ruling island advances Count A and Count B, compares them and checks their residues. -/
  | rulingTick (upset : Upset)
  /-- LINE_PULSE (R43): A ruling line pulse reaches every island tap, and each island copy is set to the announced count. -/
  | linePulse
  /-- LINE_ANNOUNCEMENT (R44): An island receives a line's announced count and checks it against the previous one plus the pitch. -/
  | lineAnnouncement (island count : Nat)
  /-- SYNC_IN_EDGE (R49): An accepted SYNC_IN edge is one sample of the source; time of day is applied when armed. -/
  | syncInEdge
  /-- SYNC_IN_LOSS_TIMEOUT (R49): No SYNC_IN edge arrives within the loss interval, so the source is lost and holdover or the next source follows. -/
  | syncInLossTimeout
  /-- RULING_STEP_APPLY (R68): At the step line 64 lines after the decision, S is applied and every island shifts its future times. -/
  | rulingStepApply
  /-- PTM_DIALOG_START (R143): Every RUL_PTM_CFG.PERIOD ms a PTM dialog is started. -/
  | ptmDialogStart
  /-- PTM_RESPONSE (R143): A PTM Response gives the Master Time sample for the Ruling. -/
  | ptmResponse (port : Nat) (master : Int)
  /-- PTM_DIALOG_TIMEOUT (R144): No PTM Response arrives within 1 ms, so the dialog fails and counts toward loss. -/
  | ptmDialogTimeout (port : Nat)
  /-- TOD_ARM (R53): A write of 1 to RUL_SYNC_CFG.TOD_ARM arms the TAI seconds for a later PPS edge. -/
  | todArm
  /-- RUL_NOW_LO_READ (R74): A read of RUL_NOW_LO latches RUL_NOW_HI and RUL_NOW_AUX from the same tick. -/
  | rulNowLoRead
  /-- LO_HI_PAIR_READ (R636): A read of the lower register of a LO/HI pair latches the higher register. -/
  | loHiPairRead (off : BarRead)
  /-- RULING_STEP_AUTHORIZE (R67): Vendor command 0xD8 checks its conditions and may decide a forward step of the ruling count. -/
  | rulingStepAuthorize (ref : Ref) (cdw10 : Nat)
  /-- STROKE_PLACE (R91): The scheduler places waiting strokes on lines that fit charge, LUN, bus and ring, and writes their descriptors. -/
  | strokePlace
  /-- STROKE_AGE_PROMOTE (R79): A class 4 or 5 stroke that has waited STK_AGE.STEP µs is promoted by one class. -/
  | strokeAgePromote (req : Nat)
  /-- DESCRIPTOR_ACCEPT (R370): A Nib accepts a stroke descriptor in SEQ order, or drops a duplicate and sets DUP_DESC. -/
  | descriptorAccept (nib seq : Nat)
  /-- STROKE_DUE_LINE (R371): At its due line the Nib ends, refuses or launches a stroke after the ordered checks. -/
  | strokeDueLine (nib seq : Nat) (ofs : Int) (busHeld : Bool)
  /-- QUILL_CONTEXT_START (R408): A Quill context starts its stroke 64 ns before the due line and runs the prologue. -/
  | quillContextStart (nib seq : Nat) (par : Par)
  /-- STROKE_COMPLETE (R87): The scheduler consumes a stroke's completion descriptor, releases its charge and slot, and acts on the result. -/
  | strokeComplete (nib : Nat)
  /-- STROKE_OVERRUN (R86): A stroke's busy time exceeds its profile's MAX sum, which raises the overrun event. -/
  | strokeOverrun (req : Nat)
  /-- SLOW_WINDOW_END (R103): At the end of each 1 s window the per-LUN busy means and ratios are formed. -/
  | slowWindowEnd
  /-- STATUS_POLL (R377): The Nib polls a busy LUN with Read Status Enhanced at its poll time. -/
  | statusPoll (lun sr : Nat)
  /-- RB_N_RISE (R377): A rise of NFn_RB_N triggers an immediate status poll. -/
  | rbNRise (lun sr : Nat)
  /-- STROKE_TIMEOUT (R385): A stroke not ready by MULT × its MAX sum is timed out and the LUN or target is reset. -/
  | strokeTimeout (nib seq : Nat)
  /-- RESET_WAIT_TIMEOUT (R386): A LUN is not ready within RST_US of a reset. -/
  | resetWaitTimeout (lun : Nat)
  /-- NIB_TEMP_READ (R378): Every NIB_TEMP.PERIOD ms a temperature FEATURE stroke is issued for each present LUN. -/
  | nibTempRead (nib : Nat)
  /-- TEMP_STALE_TIMEOUT (R378): A LUN with no valid reading for 10 s takes the channel's highest band and TEMP_STALE is set. -/
  | tempStaleTimeout (lun : Nat)
  /-- NIB_RETRAIN (R381): Read DQ retraining runs in a reserved 50 µs interval, periodically or on a band change. -/
  | nibRetrain (nib : Nat)
  /-- NIB_CTRL_RETRAIN (R381): A write of 1 to NIB_CTRL.RETRAIN requests retraining in the next reserved interval. -/
  | nibCtrlRetrain (nib : Nat)
  /-- DECODER_KAT (R388): The decoder known-answer test runs every 24 h. -/
  | decoderKat (nib : Nat) (ok : Bool)
  /-- BUS_TRANSFER_DONE (R407): A background DOUT or DIN transfer ends, which sets XDONE. -/
  | busTransferDone (nib seq data : Nat) (cell : CellErr)
  /-- CODEWORD_DECODE_DONE (R325): The LDPC decoder finishes a codeword and reports pass with corrected bits, or a failure. -/
  | codewordDecodeDone (nib seq : Nat) (ok : Bool) (bits unsat : Nat) (mis : Bool) (pband : Nat)
  /-- NEXT (R403): Microword NEXT executes its nanoword and continues at the next address. -/
  | next (nib ctx : Nat) (q : QIn)
  /-- JUMP (R403): Microword JUMP transfers control to TGT. -/
  | jump (nib ctx : Nat) (q : QIn)
  /-- BR (R403): Microword BR branches to TGT when COND is true at fetch. -/
  | br (nib ctx : Nat) (q : QIn)
  /-- BRN (R403): Microword BRN branches to TGT when COND is false at fetch. -/
  | brn (nib ctx : Nat) (q : QIn)
  /-- CALL (R403): Microword CALL pushes the return address and jumps to TGT. -/
  | call (nib ctx : Nat) (q : QIn)
  /-- RET (R403): Microword RET pops the return stack. -/
  | ret (nib ctx : Nat) (q : QIn)
  /-- LOOP (R403): Microword LOOP decrements LC and branches to TGT while LC is non-zero. -/
  | loop (nib ctx : Nat) (q : QIn)
  /-- LDLC (R403): Microword LDLC loads LC with TGT. -/
  | ldlc (nib ctx : Nat) (q : QIn)
  /-- WAIT (R403): Microword WAIT holds its context until COND is true. -/
  | wait (nib ctx : Nat) (q : QIn)
  /-- WAIT_RELEASE (R410): A held WAIT releases in the cycle after its condition becomes true. -/
  | waitRelease (nib ctx : Nat)
  /-- WLINE (R403): Microword WLINE holds its context until the TGT-th line pulse. -/
  | wline (nib ctx : Nat) (q : QIn)
  /-- WLINE_RELEASE (R403): A held WLINE releases at its counted line pulse. -/
  | wlineRelease (nib ctx : Nat)
  /-- TM_EXPIRE (R404): The context timer TM counts down to 0, which makes TEXP true. -/
  | tmExpire (nib ctx : Nat)
  /-- SCRIBE (R411): Microword SCRIBE writes S0 into a Scriptorium microword, seen after the two prefetched words. -/
  | scribe (nib ctx : Nat) (q : QIn)
  /-- DONE (R403): Microword DONE ends the stroke with the nanoword's STAT as its status. -/
  | done (nib ctx : Nat)
  /-- QUILL_SCRUB_READ (R413): In an idle cycle the Quill scrub reads one store word and checks its parity. -/
  | quillScrubRead (nib addr : Nat) (bad : Bool)
  /-- NIB_RESTART_COMPLETE (R415): After the store reload and target resets, the restarted Nib returns to service. -/
  | nibRestartComplete (nib : Nat) (badTargets : List Nat)
  /-- LINK_TRAINING_COMPLETE (R114): A port settles its rate and width; below target it becomes a masked unit. -/
  | linkTrainingComplete (port rate width faulty : Nat) (flit : Bool)
  /-- LINK_RETRAIN_TIMER (R115): Every RETRY_MIN minutes an idle degraded port attempts a retrain to target. -/
  | linkRetrainTimer (port : Nat)
  /-- RETRAIN_LINK (R115): The host sets Retrain Link, and the port retrains. -/
  | retrainLink (port : Nat)
  /-- PERST_ASSERT (R146): PERST0_N or PERST1_N is asserted, which ends the commands of the port's functions and resets config space. -/
  | perstAssert (port : Nat)
  /-- PERST_DEASSERT (R148): PERST_N deasserts, and link training begins within 20 ms. -/
  | perstDeassert (port : Nat) (strap : Bool)
  /-- HOT_RESET (R146): A Hot Reset ends the port's commands and resets config space, keeping sticky bits. -/
  | hotReset (port : Nat)
  /-- LINK_DOWN (R146): The link goes down and the port's commands end. -/
  | linkDown (port : Nat)
  /-- FUNCTION_LEVEL_RESET (R146): An FLR ends the commands of the PF and its VFs, or of one VF. -/
  | functionLevelReset (fn : Nat)
  /-- NVM_SUBSYSTEM_RESET (R146): An NVM Subsystem Reset ends all controllers' commands, and enters BOOT when an activation is pending outside SAFE. -/
  | nvmSubsystemReset (env : BootEnv)
  /-- CONFIG_SPACE_READY (R148): Configuration space becomes ready and stops answering with Request Retry Status. -/
  | configSpaceReady (port : Nat) (cfg : CfgSpace)
  /-- MEMORY_READ_COMPLETION (R127): An inbound completion delivers host memory data and retires an outstanding read. -/
  | memoryReadCompletion (what : MemRead) (res : MemIn)
  /-- COMPLETION_TIMEOUT (R136): An outstanding memory read reaches its completion timeout. -/
  | completionTimeout (what : MemRead)
  /-- INVALIDATE_REQUEST (R140): An ATS Invalidate Request marks the covered cache entries invalid within 64 ns. -/
  | invalidateRequest (port itag fn lo n : Nat) (waits : List (Ref × Nat))
  /-- INVALIDATE_COMPLETION (R140): Once every covered request has completed, the Invalidate Completion is sent behind the posted writes. -/
  | invalidateCompletion (port : Nat)
  /-- TRANSLATION_COMPLETION (R141): A Translation Completion fills the cache, unless it is stale after an invalidate. -/
  | translationCompletion (port fn page xlat issued : Nat)
  /-- L0P_REQUEST (R119): The link partner requests an L0p width change, which is honoured. -/
  | l0pRequest (port width : Nat)
  /-- D3HOT_ENTRY (R120): The host puts a function into D3hot and it stops fetch, DMA and interrupts. -/
  | d3hotEntry (fn : Nat)
  /-- VECTOR_UNMASK (R138): Unmasking a vector sends its pending message once. -/
  | vectorUnmask (fn : Nat) (vec : MaskWrite)
  /-- DOE_DATA_OBJECT (R145): A DOE data object is received and served, or discarded when too large. -/
  | doeDataObject (pf kind len : Nat)
  /-- DOE_ABORT (R145): A DOE Abort returns the mailbox to idle within 1 ms. -/
  | doeAbort (pf : Nat)
  /-- DOORBELL_WRITE (R155): A BAR doorbell write updates a tail or head and makes the SQ active. -/
  | doorbellWrite (ctrl qid : Nat) (isCq : Bool) (value : Nat) (poison : Bool)
  /-- SHADOW_TAIL_POLL (R155): For an active SQ the shadow tail is read at least every 2 µs. -/
  | shadowTailPoll (ctrl qid value : Nat) (heads : List (Nat × Nat))
  /-- SQ_IDLE_TIMEOUT (R155): An SQ with no new entry for 100 µs becomes idle and its EventIdx is written. -/
  | sqIdleTimeout (ctrl qid : Nat)
  /-- SQ_FETCH_GRANT (R161): Arbitration grants one SQ a burst fetch when tags are free. -/
  | sqFetchGrant
  /-- ORDERING_POINT_STAMP (R164): A checked command that changes content gets its ink time once an in-flight record is granted. -/
  | orderingPointStamp
  /-- CONTROLLER_ENABLE (R154): CC.EN going to 1 brings up the Admin queues and sets CSTS.RDY, or leaves it at 0. -/
  | controllerEnable (ctrl asqs acqs : Nat) (ams : CcWrite)
  /-- CONTROLLER_RESET (R201): CC.EN going to 0 ends outstanding commands without completions and returns the queues to the pool. -/
  | controllerReset (ctrl : Nat)
  /-- NORMAL_SHUTDOWN (R202): CC.SHN 01b makes accepted writes dry and, for the last controller, writes the checkpoint and shutdown record. -/
  | normalShutdown (ctrl : Nat)
  /-- ABRUPT_SHUTDOWN (R202): CC.SHN 10b makes accepted writes dry without a checkpoint. -/
  | abruptShutdown (ctrl : Nat)
  /-- CREATE_IO_SQ (R153): Create I/O Submission Queue takes a queue from the pool. -/
  | createIoSq (ref : Ref) (qid qsize cqid prio : Nat) (pc : Bool)
  /-- CREATE_IO_CQ (R153): Create I/O Completion Queue takes a queue from the pool. -/
  | createIoCq (ref : Ref) (qid qsize vector : Nat) (ien pc : Bool)
  /-- DELETE_IO_SQ (R153): Delete I/O Submission Queue returns the queue to the pool. -/
  | deleteIoSq (ref : Ref) (qid : Nat)
  /-- DELETE_IO_CQ (R153): Delete I/O Completion Queue returns the queue to the pool. -/
  | deleteIoCq (ref : Ref) (qid : Nat)
  /-- GET_LOG_PAGE (R189): Get Log Page returns a supported log page. -/
  | getLogPage (ref : Ref) (lid off len : Nat) (rae : Bool)
  /-- GET_LOG_PAGE_HEALTH (R512): Get Log Page 0xC2 with RAE at 0 also clears the sources shown pending. -/
  | getLogPageHealth (ref : Ref) (off len : Nat) (rae : Bool)
  /-- IDENTIFY (R182): Identify returns the controller or namespace data structures. -/
  | identify (ref : Ref) (cns nsid cntid : Nat)
  /-- ABORT (R183): Abort ends the named command only if none of its work has reached the medium. -/
  | abort (ref : Ref) (sqid cid : Nat)
  /-- SET_FEATURES (R191): Set Features changes a feature that has no row of its own. -/
  | setFeatures (ref : Ref) (fid nsid cdw11 : Nat) (save : Bool) (data : Nat)
  /-- GET_FEATURES (R191): Get Features returns a feature value. -/
  | getFeatures (ref : Ref) (fid nsid sel cdw11 : Nat)
  /-- SET_FEATURES_POWER_MGMT (R178): Power Management records a requested power state and may start DOZE entry with its completion withheld. -/
  | setFeaturesPowerMgmt (ref : Ref) (save : Bool) (cdw11 : Nat)
  /-- SET_FEATURES_NUM_QUEUES (R153): Number of Queues grants the lesser of the request and the controller maximum. -/
  | setFeaturesNumQueues (ref : Ref) (save : Bool) (cdw11 : Nat)
  /-- SET_FEATURES_ENVELOPE_CAP (R92): Feature 0xC2 sets the host envelope cap. -/
  | setFeaturesEnvelopeCap (ref : Ref) (save : Bool) (cdw11 : Nat)
  /-- SET_FEATURES_RULING_PRIORITY (R48): Feature 0xC3 sets the Ruling source priority. -/
  | setFeaturesRulingPriority (ref : Ref) (save : Bool) (cdw11 : Nat)
  /-- SET_FEATURES_THERMAL_LIMITS (R610): Feature 0xC5 sets the junction or NAND thresholds. -/
  | setFeaturesThermalLimits (ref : Ref) (save : Bool) (cdw11 : Nat)
  /-- SET_FEATURES_OWNER_UPDATE_LOCK (R577): Feature 0xC6 sets or, with an owner token, clears LOCK or arms FORCE. -/
  | setFeaturesOwnerUpdateLock (ref : Ref) (cdw11 : Nat) (token : Option OwnerToken)
  /-- SET_FEATURES_COMPLETION_POLICY (R167): Feature 0xC0 selects Durable or Protected for a namespace. -/
  | setFeaturesCompletionPolicy (ref : Ref) (nsid : Nat) (save : Bool) (cdw11 : Nat)
  /-- SET_FEATURES_DEADLINE_READS (R175): Feature 0xC1 enables deadline reads and sets MAXLEN. -/
  | setFeaturesDeadlineReads (ref : Ref) (save : Bool) (cdw11 : Nat)
  /-- SET_FEATURES_PATROL_PERIOD (R192): Feature 0xC4 sets the patrol period in days. -/
  | setFeaturesPatrolPeriod (ref : Ref) (save : Bool) (cdw11 : Nat)
  /-- SET_FEATURES_INK_TIME (R193): Feature 0xC7 enables ink time in write completions. -/
  | setFeaturesInkTime (ref : Ref) (save : Bool) (cdw11 : Nat)
  /-- SET_FEATURES_FDP (R262): Feature 0x1D enables or disables Flexible Data Placement when no namespace exists. -/
  | setFeaturesFdp (ref : Ref) (save enable : Bool)
  /-- ASYNC_EVENT_REQUEST (R184): An Asynchronous Event Request is held until an event is posted on it. -/
  | asyncEventRequest (ref : Ref)
  /-- NAMESPACE_MANAGEMENT (R235): Namespace Management creates a namespace, taking a key slot, or deletes one. -/
  | namespaceManagement (ref : Ref) (sel nsid blocks lbaf : Nat) (handles : List Nat)
  /-- NAMESPACE_ATTACHMENT (R181): Namespace Attachment attaches or detaches namespaces. -/
  | namespaceAttachment (ref : Ref) (sel nsid : Nat) (ctrls : List Nat)
  /-- FIRMWARE_IMAGE_DOWNLOAD (R185): Firmware Image Download stages a 64 KiB-aligned piece of a package. -/
  | firmwareImageDownload (ref : Ref) (offset length : Nat) (chunks : List (Nat × PkgChunk))
  /-- FIRMWARE_COMMIT_STORE (R573): Firmware Commit 000b verifies the staged package and stores it in slot 2. -/
  | firmwareCommitStore (ref : Ref) (slot : Nat)
  /-- FIRMWARE_COMMIT_ACTIVATE (R575): Firmware Commit 001b verifies and stores the package, then makes slot 2 pending activation. -/
  | firmwareCommitActivate (ref : Ref) (slot : Nat)
  /-- FIRMWARE_COMMIT_SLOT_ACTIVATE (R575): Firmware Commit 010b makes slot 2 or 3 pending activation. -/
  | firmwareCommitSlotActivate (ref : Ref) (action slot : Nat)
  /-- KEEP_ALIVE (R181): Keep Alive resets the keep-alive timer. -/
  | keepAlive (ref : Ref)
  /-- DIRECTIVE_SEND (R181): Directive Send configures Identify or Data Placement directives. -/
  | directiveSend (ref : Ref) (nsid dtype doper cdw12 : Nat)
  /-- DIRECTIVE_RECEIVE (R181): Directive Receive returns directive parameters. -/
  | directiveReceive (ref : Ref) (nsid dtype doper : Nat)
  /-- DOORBELL_BUFFER_CONFIG (R155): Doorbell Buffer Config switches the controller to shadow doorbells. -/
  | doorbellBufferConfig (ref : Ref) (prp1 prp2 : Nat)
  /-- FORMAT_NVM (R181): Format NVM formats namespaces to a supported LBA format. -/
  | formatNvm (ref : Ref) (nsid lbaf ses : Nat)
  /-- SANITIZE_BLOCK_ERASE (R280): Sanitize block erase releases cuts, re-keys, unmaps and erases every block. -/
  | sanitizeBlockErase (ref : Ref) (ause : Bool)
  /-- SANITIZE_CRYPTO_ERASE (R280): Sanitize crypto erase releases cuts, replaces keys and unmaps every IU. -/
  | sanitizeCryptoErase (ref : Ref) (ause : Bool)
  /-- SANITIZE_EXIT_FAILURE (R279): Sanitize Exit Failure Mode leaves the sanitize failure state. -/
  | sanitizeExitFailure (ref : Ref) (sanact : Nat) (ause : Bool)
  /-- CUT_CREATE (R304): Cut Create checks a timed cut and records it as pending. -/
  | cutCreate (ref : Ref) (nsid cdw10 cdw11 cdw12 : Nat)
  /-- CUT_RELEASE (R313): Cut Release cancels a pending cut or removes a held cut's snapshots. -/
  | cutRelease (ref : Ref) (cdw10 : Nat)
  /-- SCRIPTORIUM_LOAD (R423): Scriptorium Load checks an image, stores the set and loads the named Nibs. -/
  | scriptoriumLoad (ref : Ref) (cdw10 cdw11 cdw12 : Nat) (data : List Nat) (digest : Bool)
  /-- ROLE_DRILL (R491): Role Drill checks its conditions and runs a Tine drill. -/
  | roleDrill (ref : Ref) (params : Nat) (reports : Bool)
  /-- CHAIN_SWEEP_MEASURE (R566): Chain Sweep with OP 0 runs a measurement sweep down the chain. -/
  | chainSweepMeasure (ref : Ref) (cdw10 : Nat)
  /-- CHAIN_SWEEP_RELAY (R570): Chain Sweep with OP 1 relays the staged package down the chain. -/
  | chainSweepRelay (ref : Ref) (cdw11 : Nat)
  /-- LIFECYCLE_TRANSITION (R543): Lifecycle Transition checks a signed token and advances the lifecycle state. -/
  | lifecycleTransition (ref : Ref) (dest len : Nat) (token : LcToken)
  /-- AUTHORITY_ACQUIRE (R188): Authority Acquire from a PF takes the Management Authority lock. -/
  | authorityAcquire (ref : Ref)
  /-- AUTHORITY_RELEASE (R188): Authority Release from a PF frees the Management Authority lock. -/
  | authorityRelease (ref : Ref)
  /-- FLUSH (R174): Flush completes once every earlier write is dry or has ended with an error. -/
  | flush (ref : Ref) (nsid : Nat)
  /-- WRITE (R169): Write stamps, fetches, encrypts and stores data, and completes under its policy. -/
  | write (ref : Ref) (nsid slba nlb : Nat) (fua : Bool) (dtype dspec : Nat) (gate : Option Ref)
  /-- READ (R31): Read returns the latest-ink content, with deadline admission when a deadline is given. -/
  | read (ref : Ref) (nsid slba nlb : Nat) (deadline : ReadDue)
  /-- WRITE_UNCORRECTABLE (R252): Write Uncorrectable marks whole IUs UNCORR or marks the sectors of part IUs. -/
  | writeUncorrectable (ref : Ref) (nsid slba nlb : Nat)
  /-- COMPARE (R166): Compare checks data, and when fused with a Write gates that write. -/
  | compare (ref : Ref) (nsid slba nlb : Nat) (same : Comparison)
  /-- WRITE_ZEROES (R252): Write Zeroes unmaps whole IUs and writes zeros to part IUs. -/
  | writeZeroes (ref : Ref) (nsid slba nlb : Nat)
  /-- DATASET_MANAGEMENT (R274): Dataset Management with Deallocate unmaps its ranges. -/
  | datasetManagement (ref : Ref) (nsid cdw11 : Nat) (ranges : List (Nat × Nat))
  /-- SECURE_DISCARD (R275): A Deallocate with CDW11 bit 8 deallocates and opens a ticket that erases every older copy. -/
  | secureDiscard (ref : Ref) (nsid cdw11 : Nat) (ranges : List (Nat × Nat))
  /-- RESERVATION_REGISTER (R196): Reservation Register adds or removes a registrant. -/
  | reservationRegister (ref : Ref) (nsid rrega : Nat) (iekey : Bool) (cptpl crkey nrkey : Nat)
  /-- RESERVATION_REPORT (R195): Reservation Report returns the reservation state. -/
  | reservationReport (ref : Ref) (nsid : Nat) (eds : Bool)
  /-- RESERVATION_ACQUIRE (R197): Reservation Acquire takes or preempts a reservation in latch order. -/
  | reservationAcquire (ref : Ref) (nsid racqa : Nat) (iekey : Bool) (rtype crkey prkey : Nat)
  /-- RESERVATION_RELEASE (R197): Reservation Release releases or clears a reservation. -/
  | reservationRelease (ref : Ref) (nsid rrela : Nat) (iekey : Bool) (rtype crkey : Nat)
  /-- XTS_UNIT_DONE (R231): An XTS lane finishes a unit's encrypt-verify and releases it, or reports a mismatch. -/
  | xtsUnitDone (ref : Ref) (lba : Nat) (pass : UnitEnd)
  /-- LANE_KAT_DONE (R232): A lane's known-answer test ends, and the lane returns to service or is masked. -/
  | laneKatDone (lane : Nat) (pass : Bool)
  /-- COMMIT_GROUP_TIMEOUT (R447): A commit group open for CG_US µs closes and its page is placed. -/
  | commitGroupTimeout (group : Nat)
  /-- INKWELL_GRANT (R214): A waiting allocation is granted whole once cells and the budgets allow. -/
  | inkwellGrant
  /-- INKWELL_WAIT_PAD (R220): An owner 0 request has waited 1 ms, so write points close open wordlines early. -/
  | inkwellWaitPad
  /-- INKWELL_AUDIT_PASS (R221): An audit pass ends with conservation and age checks, and may set CONSERVE or LEAK. -/
  | inkwellAuditPass (mismatch : Bool)
  /-- OWNER_REGISTER (R213): Firmware registers a dynamic Inkwell owner, or is refused. -/
  | ownerRegister (min : Registration) (drop : Option Nat)
  /-- KEY_SLOT_LOAD (R234): Firmware loads an unwrapped XTS key into a slot. -/
  | keySlotLoad (slot key : Nat) (equalHalves : Bool)
  /-- KEY_SLOT_CLEAR (R236): A cleared slot takes effect once no lane holds a unit under it. -/
  | keySlotClear (slot : Nat)
  /-- MAP_PAGE_SCRUB (R251): The 60 s scrub checks the CRC of each map page held in D5 SDRAM. -/
  | mapPageScrub (found : ScrubFound)
  /-- IDLE_PAD_TIMEOUT (R260): No IU has arrived for IDLE_PAD ms, so the write point pads its open wordline. -/
  | idlePadTimeout (wp : Nat)
  /-- BAND_OPEN (R258): A write point with fewer than WIDTH open bands opens a free band. -/
  | bandOpen (wp : Nat)
  /-- RECLAIM_VICTIM_PICK (R267): Reclaim picks a victim band by score and moves its valid IUs. -/
  | reclaimVictimPick
  /-- BAND_ERASE_START (R270): A closed band with no valid IU is erased within 1 s and becomes free. -/
  | bandEraseStart (band : Nat)
  /-- WEAR_SPREAD_CHECK (R272): Every 60 s the erase spread is formed and, if over threshold, a wear-levelling move starts. -/
  | wearSpreadCheck
  /-- CHECKPOINT_START (R289): A checkpoint starts at a line when its data or time trigger falls due. -/
  | checkpointStart
  /-- CHECKPOINT_SLOW (R292): A checkpoint not complete 10 s after its START sets CKPT_SLOW. -/
  | checkpointSlow
  /-- CUT_HOLD (R309): At the first line at or above T the cut becomes held and its snapshot namespaces are created. -/
  | cutHold (slot : Nat)
  /-- CUT_EVICT (R312): After EVICT_S seconds at Critical, the lowest-generation held cut is released. -/
  | cutEvict
  /-- CSTS_RDY_SET (R5): CSTS.RDY is set on the first ready port, which ends BOOT in RUN, DEGRADED, TRIAL or SAFE. -/
  | cstsRdySet (env : BootEnv)
  /-- UNIT_REBUILD_DONE (R341): The peer reads of a rebuild finish and the unit is rebuilt by XOR, or is LOST. -/
  | unitRebuildDone (id : Nat) (ok : Bool)
  /-- PATROL_WINDOW (R352): Each 1 s window sets the patrol stroke rate, or sets PATROL_LATE. -/
  | patrolWindow
  /-- VSTORE_SAMPLE (R434): The always-on island samples VSTORE_SENSE every 100 µs. -/
  | vstoreSample (code : Nat)
  /-- BUDGET_RECOMPUTE (R439): Every 1 ms the D_DUR and D_PROT budgets and health are recomputed. -/
  | budgetRecompute
  /-- HOLDUP_SELF_TEST (R436): Every TEST_H hours the hold-up self-test starts by bleeding the store. -/
  | holdupSelfTest
  /-- BLOTTER_UNIT_AGE (R450): A Blotter unit unreleased for 1 h forces padding of the wordlines that hold its data. -/
  | blotterUnitAge (group : Nat)
  /-- TINE_COMPARE_MISMATCH (R477): A Tine's lockstep checker finds a mismatch and the Tine resigns. -/
  | tineCompareMismatch (tine : Bool)
  /-- TINE_STATE_ERROR (R477): An uncorrectable state error is read in a Tine and the Tine resigns. -/
  | tineStateError (tine : Bool)
  /-- TINE_OUTPUT_OFFER (R473): The merge unit forwards, holds or discards a Tine output by OSN. -/
  | tineOutputOffer (tine : Bool) (stream osn : Nat) (crc : TineOut)
  /-- MERGE_GAP_TIMEOUT (R474): An output held for 128 ns means an output was lost, so SAFE is entered with media halted. -/
  | mergeGapTimeout (stream : Nat)
  /-- OVERLAP_CLOSE (R480): The resigning Tine's last output has left and its stream is closed. -/
  | overlapClose
  /-- HANDOVER_COMPLETE (R479): The new active owns the timers and events, and HANDOVER is set. -/
  | handoverComplete
  /-- TINE_SELF_TEST_DONE (R483): A resigned Tine's self-test ends, and the Tine is masked or ready to join. -/
  | tineSelfTestDone (tine pass : Bool) (us : Nat)
  /-- RESYNC_START (R485): Once no blocking operation is in progress, a passing Tine starts resynchronising. -/
  | resyncStart
  /-- RESYNC_COMPLETE (R484): The state copy ends and the joining Tine runs 16 cycles behind as standby. -/
  | resyncComplete
  /-- DRILL_DUE (R488): The scheduled drill period elapses and the drill runs or is deferred. -/
  | drillDue (reports : Bool)
  /-- AEN_WAIT_TIMEOUT (R514): An event has waited 1 ms for a request, so AEN_WAIT is set. -/
  | aenWaitTimeout (ctrl group : Nat)
  /-- ALERT_RESPONSE_ADDRESS (R633): An Alert Response Address read acknowledges the SMBus alert. -/
  | alertResponseAddress
  /-- IBI_ACCEPT (R633): The controller accepts the IBI, which acknowledges the I3C alert. -/
  | ibiAccept
  /-- FOLIO_REQUEST_COMPLETE (R522): A Folio program or erase request completes with its status. -/
  | folioRequestComplete (status : Nat)
  /-- FOLIO_SCRUB (R520): Every 24 h the Folio ECC words are read and corrected regions are rewritten. -/
  | folioScrub (words : List (FolCopy × Bool))
  /-- GCE_REQUEST (R550): A General Cipher Engine operation runs under the lock and is checked by a second computation. -/
  | gceRequest (owner : Nat) (op : GceOp) (handle : Nat) (match1 match2 last : Bool)
  /-- GCE_LOCK_TIMEOUT (R548): The GCE lock's holder has issued no request for 100 ms, so the lock is freed and LOCK_TMO is set. -/
  | gceLockTimeout
  /-- ENTROPY_HEALTH_FAIL (R551): An entropy health test fails, refusing GCM encryption and moving signing to the deterministic forms. -/
  | entropyHealthFail
  /-- IDLE (R557): A Brynnyx keep-alive IDLE frame is received. -/
  | idle (port : BxlIn)
  /-- ENUM (R560): An ENUM frame on UP assigns the node ID and is sent on DN. -/
  | enum (port : BxlIn) (id : Nat)
  /-- SYNC (R562): A SYNC frame carrying t1 and the master data is received by the client, which stamps t2. -/
  | sync (port : BxlIn) (t1 master hops src cls unc : Nat)
  /-- DREQ (R562): A DREQ frame is received by the server, which stamps t4 and returns it. -/
  | dreq (port : BxlIn) (t3 : Nat)
  /-- DRESP (R562): A DRESP frame completes a time exchange and gives one offset sample. -/
  | dresp (port : BxlIn) (t4 : Nat)
  /-- CLAIM (R564): A time-master CLAIM frame is relayed and the master is chosen by lowest ID. -/
  | claim (port : BxlIn) (id : Nat)
  /-- CONTENDED (R564): A CONTENDED frame tells a claimant its claim is refused. -/
  | contended (port : BxlIn) (id : Nat)
  /-- NOMASTER (R563): A NOMASTER frame declares Brynnyx lost and is relayed onward. -/
  | nomaster (port : BxlIn)
  /-- CUT (R565): A CUT frame is relayed DN and the cut is checked locally. -/
  | cut (port : BxlIn) (time node number : Nat) (all : Bool)
  /-- SWEEP_REQ (R566): A SWEEP_REQ frame is relayed and the node builds and sends its entry UP. -/
  | sweepReq (port : BxlIn) (issuer : Nat)
  /-- SWEEP_ENT (R566): A SWEEP_ENT frame carries part of an entry toward the issuer. -/
  | sweepEnt (port : BxlIn) (part : Nat) (e : SweepEntry)
  /-- SWEEP_END (R566): A SWEEP_END frame closes a sweep as complete or open. -/
  | sweepEnd (port : BxlIn) (openAfter : Option Nat)
  /-- RELAY_START (R570): A RELAY_START frame opens a relay session with its commit action. -/
  | relayStart (port : BxlIn) (action chunks : Nat)
  /-- CHUNK (R570): CHUNK frames deliver a package chunk, which is verified, forwarded and acknowledged. -/
  | chunk (port : BxlIn) (k : Nat) (c : PkgChunk)
  /-- ACK (R570): An ACK frame accepts or refuses a relayed chunk. -/
  | ack (port : BxlIn) (k : Nat) (pass : Bool)
  /-- RELAY_ABORT (R570): A RELAY_ABORT frame ends the relay session. -/
  | relayAbort (port : BxlIn)
  /-- BXL_BAD_FRAME (R559): A frame with a failing CRC or an unused TYPE is discarded and counted. -/
  | bxlBadFrame (up : Bool)
  /-- BXL_PORT_LOSS (R559): No valid frame arrives for 10 µs, so the port is lost. -/
  | bxlPortLoss (up : Bool)
  /-- BXL_TIME_EXCHANGE_START (R562): Every BXL_TIME.PERIOD ms the server starts an exchange by sending SYNC. -/
  | bxlTimeExchangeStart
  /-- BXL_DRESP_TIMEOUT (R562): An exchange with no DRESP within 1 ms is dropped. -/
  | bxlDrespTimeout
  /-- CLAIM_REPEAT (R564): A claimant repeats its CLAIM every 1 s. -/
  | claimRepeat
  /-- SWEEP_TIMEOUT (R566): Chain Sweep completes 10 s after latch if SWEEP_END has not arrived. -/
  | sweepTimeout
  /-- SWEEP_RETRY (R569): After relink and enumeration, a head repeats an open sweep. -/
  | sweepRetry
  /-- HELD_ENTRY_EXPIRE (R569): An entry held after a break is discarded after 60 s. -/
  | heldEntryExpire
  /-- CHUNK_ACK_TIMEOUT (R570): A chunk not acknowledged within 5 ms is resent, or the relay aborts. -/
  | chunkAckTimeout (k : Nat)
  /-- TRIAL_WATCHDOG_EXPIRE (R580): The 900 s TRIAL watchdog expires and the WY48 falls back to the prior image. -/
  | trialWatchdogExpire (env : BootEnv)
  /-- TRIAL_CONFIRM (R579): The TRIAL self-test suite passes and the image confirms itself. -/
  | trialConfirm (suite : Bool)
  /-- ROTATION_STEP_DONE (R581): A slot rotation step finishes its verified copy and the next step begins. -/
  | rotationStepDone (ok : Bool)
  /-- POWER_ON (R627): Management command Power On is a power-up request. -/
  | powerOn (eid : Nat)
  /-- POWER_OFF (R627): Management command Power Off is an off request with a normal shutdown. -/
  | powerOff (eid : Nat)
  /-- DEVICE_RESET (R627): Management command Device Reset quiesces and begins BOOT with the rails kept up. -/
  | deviceReset (eid : Nat) (env : BootEnv)
  /-- REGISTER_WINDOW_READ (R629): Register Window Read returns 1 to 16 BAR2 dwords to the sideband. -/
  | registerWindowRead (eid off dwords : Nat)
  /-- REGISTER_WINDOW_WRITE (R629): Register Window Write applies 1 to 16 BAR2 dwords under the lock and seal rules. -/
  | registerWindowWrite (eid off : Nat) (values : List Nat) (env : BootEnv)
  /-- MI_AUTHORITY_ACQUIRE (R630): Sideband Authority Acquire takes the lock for the MCTP endpoint. -/
  | miAuthorityAcquire (eid : Nat)
  /-- MI_AUTHORITY_RELEASE (R630): Sideband Authority Release frees the lock. -/
  | miAuthorityRelease (eid : Nat)
  /-- AUTHORITY_LAPSE (R632): An explicit holding with no command for 60 s lapses and the lock becomes free. -/
  | authorityLapse
  /-- READ_NVME_MI_DATA_STRUCTURE (R624): NVMe-MI Read Data Structure returns the requested structure. -/
  | readNvmeMiDataStructure (eid dtyp id : Nat)
  /-- NVM_SUBSYSTEM_HEALTH_STATUS_POLL (R624): NVMe-MI subsystem health poll returns health status. -/
  | nvmSubsystemHealthStatusPoll (eid : Nat)
  /-- CONTROLLER_HEALTH_STATUS_POLL (R624): NVMe-MI controller health poll returns controller health. -/
  | controllerHealthStatusPoll (eid ctrl : Nat)
  /-- CONFIGURATION_GET (R624): NVMe-MI Configuration Get returns a configuration value. -/
  | configurationGet (eid id : Nat)
  /-- CONFIGURATION_SET (R624): NVMe-MI Configuration Set changes a configuration value. -/
  | configurationSet (eid id value : Nat)
  /-- VPD_READ (R624): VPD Read returns the cached fuse-word VPD. -/
  | vpdRead (eid off len : Nat)
  /-- MI_RESET (R624): The NVMe-MI Reset command performs an NVM Subsystem Reset. -/
  | miReset (eid : Nat) (env : BootEnv)
  /-- TUNNELLED_ADMIN_COMMAND (R624): An admin command tunnelled over NVMe-MI runs on PF0. -/
  | tunnelledAdminCommand (eid req resp : Nat) (page : Option Nat)
  /-- SET_ENDPOINT_ID (R623): MCTP Set Endpoint ID assigns the endpoint ID. -/
  | setEndpointId (op eid : Nat)
  /-- GET_ENDPOINT_ID (R623): MCTP Get Endpoint ID returns the endpoint ID. -/
  | getEndpointId
  /-- GET_ENDPOINT_UUID (R623): MCTP Get Endpoint UUID returns the UUID. -/
  | getEndpointUuid
  /-- GET_MCTP_VERSION_SUPPORT (R623): MCTP Get Version Support returns the supported versions. -/
  | getMctpVersionSupport (kind : Nat)
  /-- GET_MESSAGE_TYPE_SUPPORT (R623): MCTP Get Message Type Support returns the accepted message types. -/
  | getMessageTypeSupport
  /-- ENTDAA (R622): I3C ENTDAA assigns a dynamic address and the port enters I3C mode. -/
  | entdaa (addr : Nat)
  /-- SETDASA (R622): I3C SETDASA assigns a dynamic address from the static address. -/
  | setdasa (addr dyn : Nat)
  /-- RSTDAA (R622): I3C RSTDAA returns the port to SMBus mode and clears the endpoint ID. -/
  | rstdaa
  /-- GET_VERSION (R539): SPDM GET_VERSION returns the supported SPDM versions. -/
  | getVersion (party : Party)
  /-- GET_CAPABILITIES (R539): SPDM GET_CAPABILITIES returns the responder capabilities. -/
  | getCapabilities (party : Party)
  /-- NEGOTIATE_ALGORITHMS (R539): SPDM NEGOTIATE_ALGORITHMS selects the algorithms. -/
  | negotiateAlgorithms (party : Party) (offered : Bool)
  /-- GET_DIGESTS (R539): SPDM GET_DIGESTS returns the certificate chain digest. -/
  | getDigests (party : Party)
  /-- GET_CERTIFICATE (R539): SPDM GET_CERTIFICATE returns the slot 0 chain. -/
  | getCertificate (party : Party) (slot off len : Nat)
  /-- CHALLENGE (R539): SPDM CHALLENGE returns an identity-signed response. -/
  | challenge (party : Party) (slot : Nat)
  /-- GET_MEASUREMENTS (R540): SPDM GET_MEASUREMENTS returns the measurement blocks. -/
  | getMeasurements (party : Party) (index : Nat)
  /-- KEY_EXCHANGE (R539): SPDM KEY_EXCHANGE starts a session handshake. -/
  | keyExchange (party : Party) (slot : Nat)
  /-- FINISH (R539): SPDM FINISH completes the session handshake. -/
  | finish (party : Party) (session : Nat) (ok : Bool)
  /-- HEARTBEAT (R539): SPDM HEARTBEAT keeps a session alive. -/
  | heartbeat (party : Party) (session : Nat)
  /-- KEY_UPDATE (R539): SPDM KEY_UPDATE updates the session keys. -/
  | keyUpdate (party : Party) (session op : Nat)
  /-- END_SESSION (R539): SPDM END_SESSION ends a session. -/
  | endSession (party : Party) (session : Nat)
  /-- DEV_SEAL_WRITE (R639): A write of 1 to DEV_SEAL.SEAL seals the RWS registers. -/
  | devSealWrite
  /-- DEV_RESET_WRITE (R643): A write of 1 to DEV_RESET.DEVICE acts as Device Reset from the lock holder, or sets RST_DENIED. -/
  | devResetWrite (pf : Nat) (env : BootEnv)
  /-- REGISTER_WRITE (R639): A BAR2 write to a register with no row of its own applies its access codes and the seal rules. -/
  | registerWrite (pf off len : Nat) (value : WriteData)
  /-- VAUX_33_GOOD (R622): VAUX_33 becomes good, so the always-on island starts, samples the GPIO8 and GPIO9 address straps and the management port begins in SMBus mode. -/
  | vaux33Good (straps : Nat)
  /-- AVS_ACKNOWLEDGE (R604): The regulator's AVSBus response with status Good and a read-back within 20 mV acknowledges a setpoint change, after which a waiting clock increase may proceed. -/
  | avsAcknowledge (vread : Nat)
  /-- FUSE_PROGRAM_COMPLETE (R545): A fuse-word burn ends and its margin read-back decides whether to burn again or go on to the next step of the transition or SVN burn. -/
  | fuseProgramComplete (weak : Nat)
  /-- ENTROPY_HEALTH_PASS (R551): After 1,024 consecutive entropy samples pass, normal operation returns, with GCM encryption allowed again and randomised signing resumed. -/
  | entropyHealthPass
  /-- PTM_DISABLED_BY_HOST (R49): The host disables or enables PTM on the function that owns the PTM requester; disabling makes PTM unqualified at once, and the Ruling may switch to the other port. -/
  | ptmDisabledByHost (port : Nat) (enable : Bool)
  /-- D3HOT_EXIT (R120): The host returns a function from D3hot to D0, after which the function fetches entries, issues DMA and sends interrupts again. -/
  | d3hotExit (fn : Nat)
  deriving DecidableEq, Repr

end Sys2Proof
end

