-- ==== Sys2Proof/WellFormed.lean ====
section
/-! DEFINITION. Which commands are well formed: every operand within the range of the field or the unit that it names.
An ill-formed command is no command of the block: no sender can spell it. -/

namespace Sys2Proof

/-- A field of `w` bits. -/
def fits (w v : Nat) : Bool := v < 2 ^ w

/-- A controller or function (R122, R152): PF0, PF1 and 254 VFs. -/
def okCtrl (c : Nat) : Bool := c < 256

/-- A queue identifier (R153). -/
def okQid (q : Nat) : Bool := fits 16 q

/-- A command's source: a queue entry of a controller, or the management port. -/
def okRef : Ref → Bool
  | .host c q i => okCtrl c && okQid q && fits 16 i
  | .side => true

/-- A PCIe port (R111). -/
def okPort (p : Nat) : Bool := p < 2

/-- A physical function (R122). -/
def okPf (p : Nat) : Bool := p < 2

/-- A Nib (R360). -/
def okNib (n : Nat) : Bool := n < 48

/-- A LUN index (R190): 48 channels of 64. -/
def okLun (l : Nat) : Bool := l < 3072

/-- A Quill context of a Nib (R400). -/
def okCtx (c : Nat) : Bool := c < 8

/-- A descriptor's sequence number (R80). -/
def okSeq (q : Nat) : Bool := fits 16 q

/-- What a cell's words carry (R207): one of the 131,072 cells. -/
def okCell : CellErr → Bool
  | .ok => true
  | .ce c => c < 131072
  | .ue c => c < 131072
  | .bank b => b < 16

/-- The end of a data unit (R207, R231). -/
def okUnitEnd (u : UnitEnd) : Bool := okCell u.cell

/-- An owner ID (R210). -/
def okOwner (o : Nat) : Bool := o < 1024

/-- A request for an owner (R210): a minimum of 17 bits, and a request of at most 512 cells. -/
def okRegistration (r : Registration) : Bool := fits 17 r.min && r.cells ≤ 512

/-- A Tine's request (R210, R214): owners and cells that exist. -/
def okAsk : InkAsk → Bool
  | .none => true
  | .alloc o l n => okOwner o && okOwner l && 1 ≤ n && n ≤ 512
  | .hold h a o => h < 131072 && okOwner a && okOwner o
  | .release h o => h < 131072 && okOwner o

/-- A Tine's output (R475). -/
def okTineOut (t : TineOut) : Bool := fits 32 t.crc && okAsk t.ask

/-- What a microword's cycle takes from outside: an SREAD returns a byte. -/
def okQIn (q : QIn) : Bool := fits 8 q.sr

/-- The bits of the two ruling counters that a soft error can flip (R35, R38): 72 bits of count, 64 of line index. -/
def okUpset (u : Upset) : Bool := fits 72 u.countA && fits 72 u.countB && fits 64 u.lineA && fits 64 u.lineB

/-- The readings of the 32 junction sensors (R605), each a signed byte or two. -/
def okTemps (ts : List Int) : Bool := ts.length == 32 && ts.all (fun t => -32768 ≤ t && t < 32768)

/-- A Brynnyx node ID (R560). -/
def okNode (n : Nat) : Bool := fits 14 n

/-- A sweep entry's fields at their widths (R567). -/
def okEntry (e : SweepEntry) : Bool :=
  okNode e.node && fits 8 e.mode && fits 8 e.cls && fits 16 e.hops && fits 8 e.lc && fits 8 e.slot && fits 8 e.reason

/-- A number of logical blocks: the field is zero based, so 1 to 65,536. -/
def okBlocks (n : Nat) : Bool := 1 ≤ n && n ≤ 65536

/-- A chunk of a package (R572): the manifest and at most 511 body chunks. -/
def okChunkNo (k : Nat) : Bool := k < 512

/-- The chunks of a whole package (R572): the manifest and up to 511 more. -/
def okPackage (n : Nat) : Bool := n ≤ 512

/-- A host memory read's parts. -/
def okMemRead : MemRead → Bool
  | .data r _ => okRef r
  | .list r => okRef r
  | .sqe c q k i => okCtrl c && okQid q && fits 16 k && fits 16 i
  | .head c q v => okCtrl c && okQid q && fits 32 v

/-- A read's deadline and the time to its test (R98, R175). -/
def okDue (d : ReadDue) : Bool := fits 32 d.us && fits 32 d.lag

/-- Pointers of a command (R130): 64-bit addresses and 32-bit lengths. -/
def okPtrs (l : List (Nat × Nat)) : Bool := l.all (fun p => fits 64 p.1 && fits 32 p.2)

/-- What a memory read's completion reports. -/
def okMemRes : MemRes → Bool
  | .ok | .fail => true
  | .entry opc ps _ _ => fits 8 opc && okPtrs ps
  | .ptrs ps _ _ => okPtrs ps
  | .poison bs => bs.all (fits 16)

/-- An inbound completion (R127, R150, R208). -/
def okMemIn (m : MemIn) : Bool := okMemRes m.res && fits 16 m.fec && m.metas.all (fits 64)

/-- A BAR's base, aligned to its size (R123). -/
def okBar (size : Nat) : Option Nat → Bool
  | none => true
  | some b => fits 64 b && b % size == 0

/-- A function's settings (R116, R123, R136, R137): Max Read Request Size 128 to 4,096 B, a completion timeout of 50 µs to 64 s, at most
32 MSI vectors. -/
def okFnCfg (c : FnCfg) : Bool :=
  okCtrl c.fn && [128, 256, 512, 1024, 2048, 4096].contains c.mrrs && okBar (if c.fn < 2 then 65536 else 16384) c.bar0 &&
    okBar 1048576 c.bar2 && okBar (if c.fn < 2 then 65536 else 4096) c.bar4 && 50 ≤ c.ctoUs && c.ctoUs ≤ 64000000 && c.msiVecs ≤ 32

/-- The function numbers that the host may enable (R122): 254 VFs at most on each PF. -/
def okCfg (c : CfgSpace) : Bool := c.vfs0 < 255 && c.vfs1 < 255 && c.fns.all okFnCfg

/-- A mask bit (R137, R138): one of 2,048 MSI-X vectors, of 32 MSI vectors, of INTMS's 32 bits. -/
def okMaskWrite (m : MaskWrite) : Bool :=
  match m.bit with
  | .msix v => fits 11 v
  | .function => true
  | .msi v | .intx v => fits 5 v

/-- A write's data (R124): up to 8 bytes. -/
def okWriteData (d : WriteData) : Bool := fits 64 d.value

/-- A register's offset in BAR2 (R123). -/
def okBarRead (r : BarRead) : Bool := fits 20 r.off

/-- The fields of CC, ASQ and ACQ (R154): page-aligned 64-bit bases. -/
def okCcWrite (c : CcWrite) : Bool :=
  fits 3 c.ams && fits 4 c.iosqes && fits 4 c.iocqes && fits 64 c.asq && c.asq % 4096 == 0 && fits 64 c.acq && c.acq % 4096 == 0

/-- What a BOOT finds (R530): lanes, banks, Nibs, LUNs and slots that exist. -/
def okEnv (e : BootEnv) : Bool :=
  e.banks.all (· < 16) && e.lanes.all (· < 16) && e.nibs.all okNib && e.luns.all (fun l => okLun l.1) &&
    e.odd.all okLun && e.crc.all okNib && e.extra.all okNib && e.slotBad.all (· < 4) && e.loaderBad.all (· < 2) &&
    e.factoryBad.all (fun b => okLun b.1)

/-- A lifecycle token's fields (R542). -/
def okLcToken (k : LcToken) : Bool := fits 8 k.dest && fits 64 k.bootSeq && fits 384 k.ownerHash

/-- An owner token's fields (R577). -/
def okOwnerToken : Option OwnerToken → Bool
  | none => true
  | some k => fits 8 k.purpose && fits 64 k.bootSeq

/-- A list of registers' new contents (R629): dwords, as many as one message can carry; a number other than 1 to 16 is answered by
its meaning. -/
def okDwords (vs : List Nat) : Bool := vs.length < 256 && vs.all (fits 32)

/-- An access to BAR2: 1 to 4,096 bytes, the most that one packet carries; one wider than 8 bytes is answered by its meaning (R124). -/
def okAccess (len : Nat) : Bool := 1 ≤ len && len ≤ 4096

/-- LBA ranges of a Dataset Management (R274): 1 to 256 of a 64-bit start and a 32-bit length. -/
def okRanges (rs : List (Nat × Nat)) : Bool := rs.length ≤ 256 && rs.all (fun r => fits 64 r.1 && fits 32 r.2)

/-- A party that speaks SPDM (R539, R625). -/
def okParty : Party → Bool
  | .doe pf => okPf pf
  | .mctp eid => fits 8 eid

/-- A frame's header (R557): node IDs of 14 bits and 16 bits of HOPS. -/
def okBxlIn (b : BxlIn) : Bool := okNode b.src && okNode b.dst && fits 16 b.hops

/-- What a scrub of the map pages finds (R251): namespaces of 32 bits. -/
def okScrub (f : ScrubFound) : Bool := f.bad.all (fun p => fits 32 p.1) && f.ueMap.all (fun p => fits 32 p.1)

/-- A step of the power-up or the power-down sequence (R591). -/
def okStep (k : Nat) : Bool := 1 ≤ k && k ≤ 12

/-- A tenant of the gate of a fused pair: none, or the compare's source (R166). -/
def okGate : Option Ref → Bool
  | none => true
  | some r => okRef r

/-- Whether a command is well formed. -/
def Instr.wf : Instr → Bool
  | .pfailNFall => true
  | .pfailDeglitchExpire => true
  | .pfailNRise => true
  | .pgoodTimerExpire => true
  | .holdupEntry _ ticks => fits 64 ticks
  | .holdupDumpDeadline => true
  | .holdupDumpComplete => true
  | .powerUpStepDone k env => okStep k && okEnv env
  | .powerDownStepDone k => okStep k
  | .minOffTimeExpire => true
  | .railGoodTimeout => true
  | .railOutOfLimits => true
  | .vaux33Loss => true
  | .thermalSensorSample temps => okTemps temps
  | .throttleLevelFall => true
  | .rateOfRiseWindow => true
  | .thermalHoldRelease => true
  | .avsAckTimeout => true
  | .avsReadbackPoll vread => fits 16 vread
  | .dozeIslandDelayExpire us => fits 32 us
  | .dozeAbortPoint => true
  | .dozeEntryRetry => true
  | .dozeLoopWake _ ticks temps vnow => fits 64 ticks && okTemps temps && fits 12 vnow
  | .rulingTick upset => okUpset upset
  | .linePulse => true
  | .lineAnnouncement island count => fits 8 island && fits 72 count
  | .syncInEdge => true
  | .syncInLossTimeout => true
  | .rulingStepApply => true
  | .ptmDialogStart => true
  | .ptmResponse port _ => okPort port
  | .ptmDialogTimeout port => okPort port
  | .todArm => true
  | .rulNowLoRead => true
  | .loHiPairRead off => okBarRead off
  | .rulingStepAuthorize ref cdw10 => okRef ref && fits 32 cdw10
  | .strokePlace => true
  | .strokeAgePromote req => fits 64 req
  | .descriptorAccept nib seq => okNib nib && okSeq seq
  | .strokeDueLine nib seq _ _ => okNib nib && okSeq seq
  | .quillContextStart nib seq _ => okNib nib && okSeq seq
  | .strokeComplete nib => okNib nib
  | .strokeOverrun req => fits 64 req
  | .slowWindowEnd => true
  | .statusPoll lun sr => okLun lun && fits 8 sr
  | .rbNRise lun sr => okLun lun && fits 8 sr
  | .strokeTimeout nib seq => okNib nib && okSeq seq
  | .resetWaitTimeout lun => okLun lun
  | .nibTempRead nib => okNib nib
  | .tempStaleTimeout lun => okLun lun
  | .nibRetrain nib => okNib nib
  | .nibCtrlRetrain nib => okNib nib
  | .decoderKat nib _ => okNib nib
  | .busTransferDone nib seq data cell => okNib nib && okSeq seq && fits 32 data && okCell cell
  | .codewordDecodeDone nib seq _ bits unsat _ pband => okNib nib && okSeq seq && fits 16 bits && fits 16 unsat && fits 3 pband
  | .next nib ctx q => okNib nib && okCtx ctx && okQIn q
  | .jump nib ctx q => okNib nib && okCtx ctx && okQIn q
  | .br nib ctx q => okNib nib && okCtx ctx && okQIn q
  | .brn nib ctx q => okNib nib && okCtx ctx && okQIn q
  | .call nib ctx q => okNib nib && okCtx ctx && okQIn q
  | .ret nib ctx q => okNib nib && okCtx ctx && okQIn q
  | .loop nib ctx q => okNib nib && okCtx ctx && okQIn q
  | .ldlc nib ctx q => okNib nib && okCtx ctx && okQIn q
  | .wait nib ctx q => okNib nib && okCtx ctx && okQIn q
  | .waitRelease nib ctx => okNib nib && okCtx ctx
  | .wline nib ctx q => okNib nib && okCtx ctx && okQIn q
  | .wlineRelease nib ctx => okNib nib && okCtx ctx
  | .tmExpire nib ctx => okNib nib && okCtx ctx
  | .scribe nib ctx q => okNib nib && okCtx ctx && okQIn q
  | .done nib ctx => okNib nib && okCtx ctx
  | .quillScrubRead nib addr _ => okNib nib && fits 16 addr
  | .nibRestartComplete nib badTargets => okNib nib && (badTargets.all (· < 8))
  | .linkTrainingComplete port rate width faulty _ => okPort port && fits 4 rate && fits 5 width && fits 16 faulty
  | .linkRetrainTimer port => okPort port
  | .retrainLink port => okPort port
  | .perstAssert port => okPort port
  | .perstDeassert port _ => okPort port
  | .hotReset port => okPort port
  | .linkDown port => okPort port
  | .functionLevelReset fn => okCtrl fn
  | .nvmSubsystemReset env => okEnv env
  | .configSpaceReady port cfg => okPort port && okCfg cfg
  | .memoryReadCompletion what res => okMemRead what && okMemIn res
  | .completionTimeout what => okMemRead what
  | .invalidateRequest port itag fn lo n waits => okPort port && fits 5 itag && okCtrl fn && fits 52 lo && fits 52 n && (waits.all (fun w => okRef w.1))
  | .invalidateCompletion port => okPort port
  | .translationCompletion port fn page xlat issued => okPort port && okCtrl fn && fits 52 page && fits 52 xlat && fits 72 issued
  | .l0pRequest port width => okPort port && fits 5 width
  | .d3hotEntry fn => okCtrl fn
  | .vectorUnmask fn vec => okCtrl fn && okMaskWrite vec
  | .doeDataObject pf kind len => okPf pf && fits 16 kind && fits 32 len
  | .doeAbort pf => okPf pf
  | .doorbellWrite ctrl qid _ value _ => okCtrl ctrl && okQid qid && fits 32 value
  | .shadowTailPoll ctrl qid value heads => okCtrl ctrl && okQid qid && fits 32 value && (heads.all (fun h => okQid h.1))
  | .sqIdleTimeout ctrl qid => okCtrl ctrl && okQid qid
  | .sqFetchGrant => true
  | .orderingPointStamp => true
  | .controllerEnable ctrl asqs acqs ams => okCtrl ctrl && fits 12 asqs && fits 12 acqs && okCcWrite ams
  | .controllerReset ctrl => okCtrl ctrl
  | .normalShutdown ctrl => okCtrl ctrl
  | .abruptShutdown ctrl => okCtrl ctrl
  | .createIoSq ref qid qsize cqid prio _ => okRef ref && okQid qid && fits 16 qsize && okQid cqid && fits 2 prio
  | .createIoCq ref qid qsize vector _ _ => okRef ref && okQid qid && fits 16 qsize && fits 16 vector
  | .deleteIoSq ref qid => okRef ref && okQid qid
  | .deleteIoCq ref qid => okRef ref && okQid qid
  | .getLogPage ref lid off len _ => okRef ref && fits 8 lid && fits 64 off && fits 32 len
  | .getLogPageHealth ref off len _ => okRef ref && fits 64 off && fits 32 len
  | .identify ref cns nsid cntid => okRef ref && fits 8 cns && fits 32 nsid && fits 16 cntid
  | .abort ref sqid cid => okRef ref && okQid sqid && fits 16 cid
  | .setFeatures ref fid nsid cdw11 _ data => okRef ref && fits 8 fid && fits 32 nsid && fits 32 cdw11 && fits 128 data
  | .getFeatures ref fid nsid sel cdw11 => okRef ref && fits 8 fid && fits 32 nsid && fits 4 sel && fits 32 cdw11
  | .setFeaturesPowerMgmt ref _ cdw11 => okRef ref && fits 32 cdw11
  | .setFeaturesNumQueues ref _ cdw11 => okRef ref && fits 32 cdw11
  | .setFeaturesEnvelopeCap ref _ cdw11 => okRef ref && fits 32 cdw11
  | .setFeaturesRulingPriority ref _ cdw11 => okRef ref && fits 32 cdw11
  | .setFeaturesThermalLimits ref _ cdw11 => okRef ref && fits 32 cdw11
  | .setFeaturesOwnerUpdateLock ref cdw11 token => okRef ref && fits 32 cdw11 && okOwnerToken token
  | .setFeaturesCompletionPolicy ref nsid _ cdw11 => okRef ref && fits 32 nsid && fits 32 cdw11
  | .setFeaturesDeadlineReads ref _ cdw11 => okRef ref && fits 32 cdw11
  | .setFeaturesPatrolPeriod ref _ cdw11 => okRef ref && fits 32 cdw11
  | .setFeaturesInkTime ref _ cdw11 => okRef ref && fits 32 cdw11
  | .setFeaturesFdp ref _ _ => okRef ref
  | .asyncEventRequest ref => okRef ref
  | .namespaceManagement ref sel nsid blocks lbaf handles => okRef ref && fits 4 sel && fits 32 nsid && fits 64 blocks && fits 6 lbaf && (handles.all (fits 16))
  | .namespaceAttachment ref sel nsid ctrls => okRef ref && fits 4 sel && fits 32 nsid && (ctrls.all okCtrl)
  | .firmwareImageDownload ref offset length chunks => okRef ref && fits 32 offset && fits 32 length && (chunks.all (fun c => okChunkNo c.1))
  | .firmwareCommitStore ref slot => okRef ref && fits 16 slot
  | .firmwareCommitActivate ref slot => okRef ref && fits 16 slot
  | .firmwareCommitSlotActivate ref action slot => okRef ref && fits 3 action && fits 16 slot
  | .keepAlive ref => okRef ref
  | .directiveSend ref nsid dtype doper cdw12 => okRef ref && fits 32 nsid && fits 8 dtype && fits 8 doper && fits 32 cdw12
  | .directiveReceive ref nsid dtype doper => okRef ref && fits 32 nsid && fits 8 dtype && fits 8 doper
  | .doorbellBufferConfig ref prp1 prp2 => okRef ref && fits 64 prp1 && fits 64 prp2
  | .formatNvm ref nsid lbaf ses => okRef ref && fits 32 nsid && fits 6 lbaf && fits 3 ses
  | .sanitizeBlockErase ref _ => okRef ref
  | .sanitizeCryptoErase ref _ => okRef ref
  | .sanitizeExitFailure ref sanact _ => okRef ref && fits 3 sanact
  | .cutCreate ref nsid cdw10 cdw11 cdw12 => okRef ref && fits 32 nsid && fits 32 cdw10 && fits 32 cdw11 && fits 32 cdw12
  | .cutRelease ref cdw10 => okRef ref && fits 32 cdw10
  | .scriptoriumLoad ref cdw10 cdw11 cdw12 data _ => okRef ref && fits 32 cdw10 && fits 32 cdw11 && fits 32 cdw12 && (data.all (fits 8))
  | .roleDrill ref params _ => okRef ref && fits 8 params
  | .chainSweepMeasure ref cdw10 => okRef ref && fits 32 cdw10
  | .chainSweepRelay ref cdw11 => okRef ref && fits 32 cdw11
  | .lifecycleTransition ref dest len token => okRef ref && fits 8 dest && fits 32 len && okLcToken token
  | .authorityAcquire ref => okRef ref
  | .authorityRelease ref => okRef ref
  | .flush ref nsid => okRef ref && fits 32 nsid
  | .write ref nsid slba nlb _ dtype dspec gate => okRef ref && fits 32 nsid && fits 64 slba && okBlocks nlb && fits 8 dtype && fits 16 dspec && okGate gate
  | .read ref nsid slba nlb deadline => okRef ref && fits 32 nsid && fits 64 slba && okBlocks nlb && okDue deadline
  | .writeUncorrectable ref nsid slba nlb => okRef ref && fits 32 nsid && fits 64 slba && okBlocks nlb
  | .compare ref nsid slba nlb _ => okRef ref && fits 32 nsid && fits 64 slba && okBlocks nlb
  | .writeZeroes ref nsid slba nlb => okRef ref && fits 32 nsid && fits 64 slba && okBlocks nlb
  | .datasetManagement ref nsid cdw11 ranges => okRef ref && fits 32 nsid && fits 32 cdw11 && okRanges ranges
  | .secureDiscard ref nsid cdw11 ranges => okRef ref && fits 32 nsid && fits 32 cdw11 && okRanges ranges
  | .reservationRegister ref nsid rrega _ cptpl crkey nrkey => okRef ref && fits 32 nsid && fits 3 rrega && fits 2 cptpl && fits 64 crkey && fits 64 nrkey
  | .reservationReport ref nsid _ => okRef ref && fits 32 nsid
  | .reservationAcquire ref nsid racqa _ rtype crkey prkey => okRef ref && fits 32 nsid && fits 3 racqa && fits 8 rtype && fits 64 crkey && fits 64 prkey
  | .reservationRelease ref nsid rrela _ rtype crkey => okRef ref && fits 32 nsid && fits 3 rrela && fits 8 rtype && fits 64 crkey
  | .xtsUnitDone ref lba pass => okRef ref && fits 64 lba && okUnitEnd pass
  | .laneKatDone lane _ => lane < 16
  | .commitGroupTimeout group => fits 32 group
  | .inkwellGrant => true
  | .inkwellWaitPad => true
  | .inkwellAuditPass _ => true
  | .ownerRegister min drop => okRegistration min && Option.all okOwner drop
  | .keySlotLoad slot key _ => fits 16 slot && fits 64 key
  | .keySlotClear slot => fits 16 slot
  | .mapPageScrub found => okScrub found
  | .idlePadTimeout wp => fits 8 wp
  | .bandOpen wp => fits 8 wp
  | .reclaimVictimPick => true
  | .bandEraseStart band => fits 32 band
  | .wearSpreadCheck => true
  | .checkpointStart => true
  | .checkpointSlow => true
  | .cutHold slot => fits 16 slot
  | .cutEvict => true
  | .cstsRdySet env => okEnv env
  | .unitRebuildDone id _ => fits 64 id
  | .patrolWindow => true
  | .vstoreSample code => fits 12 code
  | .budgetRecompute => true
  | .holdupSelfTest => true
  | .blotterUnitAge group => fits 32 group
  | .tineCompareMismatch _ => true
  | .tineStateError _ => true
  | .tineOutputOffer _ stream osn crc => fits 8 stream && fits 64 osn && okTineOut crc
  | .mergeGapTimeout stream => fits 8 stream
  | .overlapClose => true
  | .handoverComplete => true
  | .tineSelfTestDone _ _ us => fits 32 us
  | .resyncStart => true
  | .resyncComplete => true
  | .drillDue _ => true
  | .aenWaitTimeout ctrl group => okCtrl ctrl && fits 32 group
  | .alertResponseAddress => true
  | .ibiAccept => true
  | .folioRequestComplete status => fits 8 status
  | .folioScrub _ => true
  | .gceRequest owner _ handle _ _ _ => fits 8 owner && fits 8 handle
  | .gceLockTimeout => true
  | .entropyHealthFail => true
  | .idle b => okBxlIn b
  | .enum b id => okBxlIn b && okNode id
  | .sync b t1 master hops src cls unc => okBxlIn b && fits 72 t1 && okNode master && fits 16 hops && fits 8 src && fits 8 cls && fits 32 unc
  | .dreq b t3 => okBxlIn b && fits 72 t3
  | .dresp b t4 => okBxlIn b && fits 72 t4
  | .claim b id => okBxlIn b && okNode id
  | .contended b id => okBxlIn b && okNode id
  | .nomaster b => okBxlIn b
  | .cut b time node number _ => okBxlIn b && fits 64 time && okNode node && fits 32 number
  | .sweepReq b issuer => okBxlIn b && okNode issuer
  | .sweepEnt b part e => okBxlIn b && fits 2 part && okEntry e
  | .sweepEnd b _ => okBxlIn b
  | .relayStart b action chunks => okBxlIn b && fits 3 action && okPackage chunks
  | .chunk b k _ => okBxlIn b && okChunkNo k
  | .ack b k _ => okBxlIn b && okChunkNo k
  | .relayAbort b => okBxlIn b
  | .bxlBadFrame _ => true
  | .bxlPortLoss _ => true
  | .bxlTimeExchangeStart => true
  | .bxlDrespTimeout => true
  | .claimRepeat => true
  | .sweepTimeout => true
  | .sweepRetry => true
  | .heldEntryExpire => true
  | .chunkAckTimeout k => okChunkNo k
  | .trialWatchdogExpire env => okEnv env
  | .trialConfirm _ => true
  | .rotationStepDone _ => true
  | .powerOn eid => fits 8 eid
  | .powerOff eid => fits 8 eid
  | .deviceReset eid env => fits 8 eid && okEnv env
  | .registerWindowRead eid off dwords => fits 8 eid && fits 32 off && fits 8 dwords
  | .registerWindowWrite eid off values env => fits 8 eid && fits 32 off && okDwords values && okEnv env
  | .miAuthorityAcquire eid => fits 8 eid
  | .miAuthorityRelease eid => fits 8 eid
  | .authorityLapse => true
  | .readNvmeMiDataStructure eid dtyp id => fits 8 eid && fits 8 dtyp && fits 32 id
  | .nvmSubsystemHealthStatusPoll eid => fits 8 eid
  | .controllerHealthStatusPoll eid ctrl => fits 8 eid && okCtrl ctrl
  | .configurationGet eid id => fits 8 eid && fits 32 id
  | .configurationSet eid id value => fits 8 eid && fits 32 id && fits 32 value
  | .vpdRead eid off len => fits 8 eid && fits 64 off && fits 32 len
  | .miReset eid env => fits 8 eid && okEnv env
  | .tunnelledAdminCommand eid req resp _ => fits 8 eid && fits 32 req && fits 32 resp
  | .setEndpointId op eid => fits 8 op && fits 8 eid
  | .getEndpointId => true
  | .getEndpointUuid => true
  | .getMctpVersionSupport kind => fits 16 kind
  | .getMessageTypeSupport => true
  | .entdaa addr => fits 7 addr
  | .setdasa addr dyn => fits 7 addr && fits 7 dyn
  | .rstdaa => true
  | .getVersion party => okParty party
  | .getCapabilities party => okParty party
  | .negotiateAlgorithms party _ => okParty party
  | .getDigests party => okParty party
  | .getCertificate party slot off len => okParty party && fits 16 slot && fits 64 off && fits 32 len
  | .challenge party slot => okParty party && fits 16 slot
  | .getMeasurements party index => okParty party && fits 8 index
  | .keyExchange party slot => okParty party && fits 16 slot
  | .finish party session _ => okParty party && fits 32 session
  | .heartbeat party session => okParty party && fits 32 session
  | .keyUpdate party session op => okParty party && fits 32 session && fits 8 op
  | .endSession party session => okParty party && fits 32 session
  | .devSealWrite => true
  | .devResetWrite pf env => okPf pf && okEnv env
  | .registerWrite pf off len value => okPf pf && fits 20 off && okAccess len && okWriteData value
  | .vaux33Good straps => fits 2 straps
  | .avsAcknowledge vread => fits 16 vread
  | .fuseProgramComplete weak => fits 32 weak
  | .entropyHealthPass => true
  | .ptmDisabledByHost port _ => okPort port
  | .d3hotExit fn => okCtrl fn

end Sys2Proof
end

