-- ==== Sys2Proof/Decode.lean ====
section
/-! DEFINITION. The words that spell commands: the opcode table gives its rows no bits, so no word spells one. -/

namespace Sys2Proof

/-- The command that a word spells by the table's bits: none, since no row of the opcode table has any. Log entry 2 (DESIGN CHOICE). -/
def decodeTableWord (_nbits _w : Nat) : Option Instr := none

end Sys2Proof
end

