-- ==== Sys2Proof/Config.lean ====
section
/-! DEFINITION. What one build of the drive fixes, and the free values: constants with no body for the results that the
spec leaves open (each named in the assumption log). A statement about a free value holds for every value of it. -/

namespace Sys2Proof

/-- The frequency term that the proportional-integral servo of R51 forms from the measured offset (1/256 ns), the
term before (1/256 ppb) and the source; the gains are not in the spec. The step clamps it to ±1,500 ppb. Log entry 8 (DESIGN CHOICE). -/
opaque Config.servoFreq : Int → Int → Nat → Int

/-- The phase term of the servo of R51 from the same arguments; the step clamps it to ±1,000 ppb. Log entry 8 (DESIGN CHOICE). -/
opaque Config.servoPhase : Int → Int → Nat → Int

/-- A free value of 32 bits for a result that the spec leaves open, indexed by a counter that the step advances. Log entry 9 (DESIGN CHOICE). -/
opaque Config.freeWord : Nat → Nat

/-- The core voltage setpoint code that goes with a clock division of 2 or 4 (R603, R607): the spec states the RUN and the
DOZE setpoints only. Its user keeps it within the codes 10 to 50. Log entry 11 (DESIGN CHOICE). -/
opaque Config.avsCode : Nat → Nat

/-- The UUID that Get Endpoint UUID returns (R623): the spec gives none. Log entry 12 (DESIGN CHOICE). -/
opaque Config.endpointUuid : Nat

/-- The version list that Get MCTP Version Support returns for a message type (R623): the spec gives none. Log entry 12 (DESIGN CHOICE). -/
opaque Config.mctpVersions : Nat → List Nat

/-- The flags that the SPDM CAPABILITIES response carries (R539): the spec gives none. Log entry 12 (DESIGN CHOICE). -/
opaque Config.spdmFlags : Nat

/-- How many local clock ticks beyond two an island counts in one tick of the Ruling (R45, R46), from the island's number and the count: the
islands' clocks are 1 GHz or faster, and the spec gives no frequency. Log entry 81 (DESIGN CHOICE). -/
opaque Config.localTicks : Nat → Nat → Nat

/-- HOLD_NS of log page 0xC1 while no sample has been valid since BOOT (R76): the spec gives no value. Log entry 81 (DESIGN CHOICE). -/
opaque Config.holdNs : Nat

/-- The header and the prefix of the n-th TLP that an AER capability logs (R135): the spec gives no TLP's contents. Log entry 84 (DESIGN CHOICE). -/
opaque Config.tlpHeader : Nat → Nat
/-- The prefix that goes with it (R135). Log entry 84 (DESIGN CHOICE). -/
opaque Config.tlpPrefix : Nat → Nat

/-- Do Not Retry of a status of the base specification (R194 gives it for the vendor's only), by status code type and code. Log entry 20 (PRESUMED). -/
opaque Config.dnr : Nat → Nat → Bool

/-- What a field of log page 0x02 shows that the spec leaves to the base specification and gives no value for (R189), by its byte
offset and the ruling count at the read. Log entry 18 (PRESUMED). -/
opaque Config.smart : Nat → Nat → Nat

/-- SHA-384 of a list of bytes (FIPS 180-4), as a little-endian number of 48 bytes: the model does not compute it. Log entry 90 (DESIGN CHOICE). -/
opaque Config.sha384 : List Nat → Nat

/-- SHA-384 of a thing that State holds by name and not by its bytes: 0 the ROM, 1 a boot loader, 2 a firmware image, 3 a settings copy,
4 a Scriptorium set; with the numbers that name its content. Log entry 90 (DESIGN CHOICE). -/
opaque Config.contentSha : Nat → List Nat → Nat

/-- The signature of a list of bytes under an identity key (R532): 0 ML-DSA-65, 1 ECDSA P-384. Log entry 90 (DESIGN CHOICE). -/
opaque Config.signature : Nat → List Nat → Nat

/-- The identity public keys (R528, R538): 0 ML-DSA-65, 1 ECDSA P-384. Log entry 90 (DESIGN CHOICE). -/
opaque Config.idKey : Nat → Nat

/-- The 96 random bits that the DRBG gives for an IV (R549), of its request number. Log entry 102 (DESIGN CHOICE). -/
opaque Config.gcmIv : Nat → BitVec 96

end Sys2Proof
end

