-- ==== Sys2Proof/Machine/RegMap.lean ====
section
/-! DEFINITION. The BAR2 register map: one row per register of chapter 19's tables (R636 to R638) with the fields of
the owning chapter's own table (access codes of R14 and R15, the after-seal column of R638, and the write rule of the
field's Meaning column), and a named constant for every field. -/

namespace Sys2Proof.Machine

/-- The access codes of R14 (RSV fields, which read 0 and discard writes under R15, have no descriptor).
`w1cAll` is the W1C field whose least significant bit clears the whole field. -/
inductive Acc where
  | ro | rw | rws | w1c | w1cAll | w1s
  deriving DecidableEq, Repr

/-- What a written value stores in a field: any value; only values within bounds, others ignored; values below a
floor store the floor; above a ceiling store the ceiling; below `lo` ignored and above `hi` stored as `hi`; only the
listed values, others ignored. -/
inductive WriteRule where
  | any
  | within (lo hi : Nat)
  | atLeast (lo : Nat)
  | atMost (hi : Nat)
  | cap (lo hi : Nat)
  | oneOf (vs : List Nat)
  deriving DecidableEq, Repr

/-- One field of a register: its lowest bit, its width, its access, its write rule, and whether it stays writable
after the seal (R639). -/
structure FieldDesc where
  lo : Nat
  w : Nat
  acc : Acc
  rule : WriteRule
  keep : Bool
  deriving DecidableEq, Repr

/-- One register: its offset (within BAR2, or within the Nib window), its reset value (R638) and its fields. -/
structure RegDesc where
  off : Nat
  reset : Nat
  fields : List FieldDesc
  deriving DecidableEq, Repr

/-- A field by its home: the key of its register in the register file, its lowest bit and its width. -/
structure Fld where
  key : Nat
  lo : Nat
  w : Nat
  deriving DecidableEq, Repr

namespace RegRow
/-- RO field. -/
abbrev ro (lo w : Nat) : FieldDesc := ⟨lo, w, .ro, .any, false⟩
/-- RW field. -/
abbrev rw (lo w : Nat) (keep : Bool) : FieldDesc := ⟨lo, w, .rw, .any, keep⟩
/-- RWS field. -/
abbrev rws (lo w : Nat) (keep : Bool) : FieldDesc := ⟨lo, w, .rws, .any, keep⟩
/-- RW field with a write rule. -/
abbrev rwR (lo w : Nat) (keep : Bool) (r : WriteRule) : FieldDesc := ⟨lo, w, .rw, r, keep⟩
/-- RWS field with a write rule. -/
abbrev rwsR (lo w : Nat) (keep : Bool) (r : WriteRule) : FieldDesc := ⟨lo, w, .rws, r, keep⟩
/-- W1C bits, each cleared by its own 1 (R636). -/
abbrev w1c (lo w : Nat) : FieldDesc := ⟨lo, w, .w1c, .any, true⟩
/-- W1C counter, cleared whole by a 1 in its lowest bit. -/
abbrev w1f (lo w : Nat) : FieldDesc := ⟨lo, w, .w1cAll, .any, true⟩
/-- W1S bit. -/
abbrev w1s (lo : Nat) (keep : Bool) : FieldDesc := ⟨lo, 1, .w1s, .any, keep⟩
end RegRow

open RegRow

/-- The DEV_ block's registers (R638 to R642, R638). -/
def devRegs : List RegDesc := [
  ⟨0x0000, 0x00B00048, [ro 0 16, ro 16 8, ro 24 1]⟩,
  ⟨0x0004, 0x00000001, [ro 0 4, ro 4 2, ro 6 1]⟩,
  ⟨0x0008, 0x00000000, [w1s 0 false, ro 1 1, ro 2 1]⟩,
  ⟨0x000C, 0x00000000, [rws 0 1 false]⟩,
  ⟨0x0010, 0x00000000, [w1s 0 true]⟩,
  ⟨0x0014, 0x00000000, [ro 0 3]⟩,
  ⟨0x0018, 0x00000000, [w1c 0 1, w1c 1 1, w1c 2 1, w1c 3 1, w1c 4 1, w1c 5 1]⟩
]

/-- The RUL_ block's registers (R74, R638). -/
def rulRegs : List RegDesc := [
  ⟨0x1000, 0x00000003, [rws 0 1 false, rws 1 1 false]⟩,
  ⟨0x1004, 0xFFFF0003, [ro 0 2, ro 2 2, ro 4 1, ro 5 1, ro 6 1, ro 8 1, ro 9 3, ro 16 16]⟩,
  ⟨0x1008, 0x00000011, [rws 0 4 false, ro 4 4]⟩,
  ⟨0x100C, 0x00000039, [rws 0 2 false, rws 2 2 false, rws 4 2 false]⟩,
  ⟨0x1010, 0x00000000, [ro 0 32]⟩,
  ⟨0x1014, 0x00000000, [ro 0 32]⟩,
  ⟨0x1018, 0xFFFF0003, [ro 0 2, ro 16 16]⟩,
  ⟨0x1020, 0x00000000, [rwsR 0 2 false (.within 0 2), rws 2 1 false, w1s 3 true, ro 4 1]⟩,
  ⟨0x1024, 0x00000000, [rws 0 24 false]⟩,
  ⟨0x1028, 0x00000000, [rw 0 32 true]⟩,
  ⟨0x102C, 0x00000000, [rw 0 16 true]⟩,
  ⟨0x1030, 0x00000015, [rws 0 1 false, rwsR 1 10 false (.within 1 1000)]⟩,
  ⟨0x1038, 0x00000000, [rws 0 32 false]⟩,
  ⟨0x103C, 0x00000000, [rws 0 32 false]⟩,
  ⟨0x1040, 0x00000000, [ro 0 32]⟩,
  ⟨0x1044, 0x00000000, [ro 0 32]⟩,
  ⟨0x1048, 0x00000320, [rwsR 0 2 false (.within 0 2), rws 2 1 false, rwsR 3 8 false (.within 1 255)]⟩,
  ⟨0x104C, 0x00000000, [w1c 0 1, w1c 1 1, w1c 2 1, w1c 3 1, w1c 4 1, w1c 5 1, w1c 6 1]⟩
]

/-- The STK_ block's registers (R109, R638). -/
def stkRegs : List RegDesc := [
  ⟨0x2000, 0x0000000F, [rws 0 1 false, rws 1 1 false, rws 2 1 false, rws 3 1 false]⟩,
  ⟨0x2004, 0x00000000, [ro 0 1, ro 1 1, ro 2 14, ro 16 13]⟩,
  ⟨0x2008, 0x00000FFF, [rws 0 12 false]⟩,
  ⟨0x200C, 0x00000020, [rws 0 12 false]⟩,
  ⟨0x2010, 0x00000FFF, [ro 0 12, ro 16 12]⟩,
  ⟨0x2014, 0x00000FFF, [rw 0 12 false]⟩,
  ⟨0x2018, 0x00000003, [rwsR 0 4 false (.atLeast 2)]⟩,
  ⟨0x201C, 0x00800802, [rws 0 8 false, rws 8 12 false, rws 20 8 false]⟩,
  ⟨0x2020, 0x0081F410, [rws 0 8 false, rws 8 12 false, rws 20 8 false]⟩,
  ⟨0x2024, 0x00000000, [rw 0 8 true, ro 8 8]⟩,
  ⟨0x2028, 0x000207D0, [rws 0 16 false, rws 16 3 false]⟩,
  ⟨0x202C, 0x03401418, [rws 0 8 false, rws 8 8 false, rws 16 8 false, rwsR 24 4 false (.atLeast 1)]⟩,
  ⟨0x2030, 0x13881770, [rws 0 16 false, rws 16 16 false]⟩,
  ⟨0x2034, 0x12C012C0, [rws 0 16 false, rws 16 16 false]⟩,
  ⟨0x2038, 0x17701388, [rws 0 16 false, rws 16 16 false]⟩,
  ⟨0x203C, 0x00FA0100, [rws 0 16 false, rws 16 16 false]⟩,
  ⟨0x2040, 0x004B00C8, [rws 0 16 false, rws 16 16 false]⟩,
  ⟨0x2044, 0x00200121, [rws 0 16 false, rws 16 16 false]⟩,
  ⟨0x2048, 0x00000AC4, [rws 0 16 false]⟩,
  ⟨0x2050, 0x00000000, [w1c 0 1, w1c 1 1, w1c 2 1, w1c 3 1, w1c 4 1, w1c 5 1, w1c 6 1, w1c 7 1]⟩
]

/-- The EVU_ block's registers (R517, R638). -/
def evuRegs : List RegDesc := [
  ⟨0x3000, 0x00000003, [rw 0 1 true, rw 1 1 true]⟩,
  ⟨0x3004, 0x00000000, [ro 0 11, ro 16 10]⟩,
  ⟨0x3008, 0x00000000, [rwR 0 11 true (.within 0 1279)]⟩,
  ⟨0x300C, 0x00000000, [rw 0 11 true, rw 11 1 true, rw 12 1 true, rw 13 1 true, rw 14 1 true, rw 15 1 true, ro 16 1, ro 17 6]⟩,
  ⟨0x3010, 0x00000000, [ro 0 1, ro 1 1, ro 2 1, ro 3 1, ro 4 1, ro 5 1]⟩,
  ⟨0x3014, 0x00000000, [ro 0 8, ro 8 2]⟩,
  ⟨0x3018, 0x00000000, [w1c 0 1, w1c 1 1, w1c 2 1]⟩
]

/-- The INK_ block's registers (R240, R638). -/
def inkRegs : List RegDesc := [
  ⟨0x4000, 0x00000001, [rws 0 1 false]⟩,
  ⟨0x4004, 0x00818000, [ro 0 17, ro 17 11]⟩,
  ⟨0x4008, 0x00198000, [ro 0 17, ro 17 4]⟩,
  ⟨0x400C, 0x0FFFFFFF, [ro 0 16, ro 16 16]⟩,
  ⟨0x4010, 0x00000000, [rw 0 10 true]⟩,
  ⟨0x4014, 0x00000000, [ro 0 2]⟩,
  ⟨0x4018, 0x00000000, [rws 0 17 false]⟩,
  ⟨0x401C, 0x00000000, [rws 0 17 false]⟩,
  ⟨0x4020, 0x00000000, [ro 0 17]⟩,
  ⟨0x4024, 0x00000000, [ro 0 17]⟩,
  ⟨0x4028, 0x00000000, [rws 0 16 false]⟩,
  ⟨0x402C, 0x0000FFFF, [ro 0 16, ro 16 16]⟩,
  ⟨0x4030, 0x00000000, [ro 0 13]⟩,
  ⟨0x4034, 0x00000000, [w1c 0 1, w1c 1 1, w1c 2 1, w1c 3 1, w1c 4 1, w1c 5 1, w1c 6 1, w1c 7 1, w1c 8 1, w1c 9 1, w1c 10 1]⟩
]

/-- The LIG_ block's registers (R359, R638). -/
def ligRegs : List RegDesc := [
  ⟨0x5000, 0x00000007, [rws 0 1 false, rws 1 1 false, rws 2 1 false]⟩,
  ⟨0x5004, 0x00000002, [ro 0 1, ro 1 1, ro 8 9, ro 17 8]⟩,
  ⟨0x5008, 0x00061020, [rwsR 0 7 false (.within 8 64), ro 7 7, rwsR 14 7 false (.atMost 64)]⟩,
  ⟨0x500C, 0x001E1405, [rws 0 2 false, ro 2 2, rwsR 8 6 false (.atLeast 1), rwsR 16 6 false (.atLeast 1)]⟩,
  ⟨0x5010, 0x00000000, [rws 0 4 false, rws 16 16 false]⟩,
  ⟨0x5014, 0x00000000, [rwR 0 3 true (.within 0 5), rwR 4 3 true (.within 0 5)]⟩,
  ⟨0x5018, 0x00000000, [rws 0 32 false]⟩,
  ⟨0x501C, 0x00000000, [rws 0 24 false, rws 24 8 false]⟩,
  ⟨0x5020, 0x001000A0, [rws 0 10 false, rwsR 16 5 false (.atLeast 1)]⟩,
  ⟨0x5024, 0x00000032, [rwsR 0 16 false (.within 1 65535)]⟩,
  ⟨0x5028, 0x00000020, [rwsR 0 12 false (.within 1 4095)]⟩,
  ⟨0x502C, 0x00000000, [ro 0 10, ro 10 22]⟩,
  ⟨0x5030, 0x00000000, [ro 0 20, ro 20 12]⟩,
  ⟨0x5034, 0x00000000, [w1c 0 1, w1c 1 1, w1c 2 1, w1c 3 1, w1c 4 1, w1c 5 1, w1c 6 1, w1c 7 1, w1c 8 1, w1c 9 1, w1c 10 1, w1c 11 1, w1c 12 1, w1c 13 1, w1c 14 1]⟩
]

/-- The MAP_ block's registers (R285 and R320, R638). -/
def mapRegs : List RegDesc := [
  ⟨0x6000, 0x00000003, [rws 0 1 false, rws 1 1 false]⟩,
  ⟨0x6004, 0x00000000, [ro 0 1, ro 1 2, ro 4 9, ro 13 7]⟩,
  ⟨0x6008, 0x0000000A, [rwsR 0 2 false (.within 0 2), ro 2 2]⟩,
  ⟨0x600C, 0x00000000, [ro 0 2, ro 2 2, ro 4 5, ro 9 5, ro 16 12]⟩,
  ⟨0x6010, 0x00402814, [rws 0 10 false, rws 10 10 false, rws 20 10 false]⟩,
  ⟨0x6014, 0x0BB800C8, [rwsR 0 16 false (.within 1 65535), rwsR 16 16 false (.within 1 65535)]⟩,
  ⟨0x6018, 0x0000880A, [rwR 0 8 true (.within 1 255), rwsR 8 6 false (.cap 1 48), rwsR 15 7 false (.within 1 120)]⟩,
  ⟨0x601C, 0x00000000, [ro 0 20]⟩,
  ⟨0x6020, 0x00000000, [ro 0 16]⟩,
  ⟨0x6024, 0x00000000, [w1f 0 32]⟩,
  ⟨0x6028, 0x00000000, [w1c 0 1, w1c 1 1, w1c 2 1, w1c 3 1, w1c 4 1, w1c 5 1, w1c 6 1, w1c 7 1, w1c 8 1, w1c 9 1, w1c 10 1]⟩,
  ⟨0x6040, 0x00003C20, [rwsR 0 8 false (.within 1 255), rwsR 8 8 false (.within 1 255)]⟩,
  ⟨0x6044, 0x00000000, [ro 0 1, ro 1 1, ro 16 16]⟩,
  ⟨0x6050, 0x00000A02, [rws 0 1 false, rws 1 1 false, rwsR 8 8 false (.atLeast 1)]⟩,
  ⟨0x6054, 0x00000000, [rw 0 4 true]⟩,
  ⟨0x6058, 0x00000000, [ro 0 2, ro 2 1, ro 3 2, ro 5 2, ro 16 16]⟩,
  ⟨0x605C, 0x00000000, [ro 0 32]⟩,
  ⟨0x6060, 0x00000000, [ro 0 32]⟩,
  ⟨0x6064, 0x00000000, [ro 0 32]⟩,
  ⟨0x6068, 0x00000000, [w1c 0 1, w1c 1 1, w1c 2 1, w1c 3 1, w1c 4 1, w1c 5 1, w1c 6 1, w1c 7 1]⟩
]

/-- The TINE_ block's registers (R498, R638). -/
def tineRegs : List RegDesc := [
  ⟨0x7000, 0x00000007, [rws 0 1 false, rws 1 1 false, rws 2 1 false]⟩,
  ⟨0x7004, 0x00100000, [ro 0 1, ro 1 1, ro 2 1, ro 4 3, ro 7 3, ro 16 5, ro 24 2]⟩,
  ⟨0x7008, 0x00000018, [rwsR 0 16 false (.within 1 65535), ro 16 16]⟩,
  ⟨0x700C, 0x00000000, [ro 0 3, ro 3 1, ro 4 12, ro 16 8, ro 24 8]⟩,
  ⟨0x7010, 0x00000000, [ro 0 32]⟩,
  ⟨0x7014, 0x00000000, [ro 0 32]⟩,
  ⟨0x7018, 0x00000000, [ro 0 8, ro 8 8, ro 16 8, ro 24 8]⟩,
  ⟨0x701C, 0x00000000, [ro 0 2, ro 2 1, ro 16 16]⟩,
  ⟨0x7020, 0x00000000, [ro 0 16]⟩,
  ⟨0x7024, 0x00000000, [w1c 0 1, w1c 1 1, w1c 2 1, w1c 3 1, w1c 4 1, w1c 5 1, w1c 6 1, w1c 7 1, w1c 8 1, w1c 9 1, w1c 10 1, w1c 11 1, w1c 12 1]⟩
]

/-- The GCE_ block's registers (R555, R638). -/
def gceRegs : List RegDesc := [
  ⟨0x8000, 0x00000000, [ro 0 1, ro 1 1, ro 2 1]⟩,
  ⟨0x8004, 0x00000000, [ro 0 3, ro 4 4]⟩,
  ⟨0x8008, 0x00000000, [ro 0 32]⟩,
  ⟨0x800C, 0x00000000, [w1c 0 1, w1c 1 1, w1c 2 1, w1c 3 1, w1c 4 1]⟩
]

/-- The FOL_ block's registers (R555, R638). -/
def folRegs : List RegDesc := [
  ⟨0x9000, 0x00000001, [rws 0 1 false]⟩,
  ⟨0x9004, 0x031E0000, [ro 0 3, ro 3 2, ro 5 1, ro 16 10]⟩,
  ⟨0x9008, 0x00000000, [ro 0 32]⟩,
  ⟨0x900C, 0x00000000, [ro 0 32]⟩,
  ⟨0x9010, 0x00000000, [rw 0 14 true]⟩,
  ⟨0x9014, 0x00000000, [ro 0 17, ro 17 1]⟩,
  ⟨0x9018, 0x00000000, [rw 0 8 true]⟩,
  ⟨0x901C, 0x00000000, [ro 0 32]⟩,
  ⟨0x9020, 0x00000000, [ro 0 32]⟩,
  ⟨0x9024, 0x00000000, [ro 0 1, ro 1 1]⟩,
  ⟨0x9028, 0x00000000, [w1c 0 1, w1c 1 1, w1c 2 1, w1c 3 1, w1c 4 1, w1c 5 1, w1c 6 1, w1c 7 1, w1c 8 1, w1c 9 1, w1c 10 1, w1c 11 1]⟩
]

/-- The PWR_ block's registers (R618 and R465, R638). -/
def pwrRegs : List RegDesc := [
  ⟨0xA400, 0x030280C8, [rws 0 12 false, rwsR 12 8 false (.within 1 255), rws 20 8 false]⟩,
  ⟨0xA404, 0x180A1E55, [rws 0 8 false, rwsR 8 8 false (.within 1 255), rws 16 8 false, rws 24 8 true]⟩,
  ⟨0xA408, 0x00000000, [ro 0 16, ro 16 12, ro 28 1, ro 29 1]⟩,
  ⟨0xA40C, 0x00000000, [ro 0 12, ro 12 7]⟩,
  ⟨0xA410, 0x032140A3, [rws 0 4 false, rws 4 8 false, rws 12 8 false, rwsR 20 8 false (.within 1 255)]⟩,
  ⟨0xA414, 0x0004140A, [rwsR 0 8 false (.atLeast 1), rws 8 8 false, rwsR 16 8 false (.atLeast 1)]⟩,
  ⟨0xA418, 0x00000001, [ro 0 8, ro 8 8, ro 16 16]⟩,
  ⟨0xA41C, 0x00000000, [ro 0 16, ro 16 3]⟩,
  ⟨0xA420, 0x00084018, [rwsR 0 8 false (.within 1 32), rwsR 8 8 false (.within 1 255), rwsR 16 8 false (.atLeast 1)]⟩,
  ⟨0xA424, 0x00000000, [ro 0 8, ro 8 8, ro 16 8]⟩,
  ⟨0xA428, 0x00000000, [w1c 0 1, w1c 1 1, w1c 2 1, w1c 3 1, w1c 4 1, w1c 5 1, w1c 6 1, w1c 7 1, w1c 8 1, w1c 9 1]⟩,
  ⟨0xA000, 0x00000001, [rws 0 1 false]⟩,
  ⟨0xA004, 0x00000000, [ro 0 3, ro 3 3, ro 6 1, ro 8 5]⟩,
  ⟨0xA008, 0x00000A0A, [rwsR 0 8 false (.atLeast 1), ro 8 8]⟩,
  ⟨0xA00C, 0x00000000, [ro 0 4, ro 4 5, ro 9 3, ro 12 3]⟩,
  ⟨0xA010, 0x00000000, [ro 0 32]⟩,
  ⟨0xA014, 0x00000000, [ro 0 32]⟩,
  ⟨0xA018, 0x0641900A, [rwsR 0 10 false (.within 1 1000), rwsR 10 10 false (.within 1 1000), rwsR 20 8 false (.atLeast 1)]⟩,
  ⟨0xA01C, 0x0000D85F, [rws 0 8 false, rws 8 8 false]⟩,
  ⟨0xA020, 0x00000000, [rws 0 12 false]⟩,
  ⟨0xA024, 0x0008C81E, [rwsR 0 8 false (.within 10 50), rwsR 8 10 false (.within 1 1023), rws 18 2 false]⟩,
  ⟨0xA028, 0x00000000, [ro 0 8, ro 8 8, ro 16 1]⟩,
  ⟨0xA02C, 0x14821B58, [rws 0 16 false, rws 16 16 false]⟩,
  ⟨0xA030, 0x00960DAC, [rws 0 16 false, rws 16 16 false]⟩,
  ⟨0xA034, 0x00000064, [rws 0 16 false]⟩,
  ⟨0xA038, 0x00000000, [w1c 0 1, w1c 1 1, w1c 2 1, w1c 3 1, w1c 4 1, w1c 5 1, w1c 6 1, w1c 7 1]⟩
]

/-- The THM_ block's registers (R619, R638). -/
def thmRegs : List RegDesc := [
  ⟨0xB000, 0x00000003, [rws 0 1 false, rws 1 1 false]⟩,
  ⟨0xB004, 0x02000000, [ro 0 2, ro 2 1, ro 8 8, ro 16 8, ro 24 3]⟩,
  ⟨0xB008, 0x0069645F, [rws 0 24 false]⟩,
  ⟨0xB00C, 0x0055504B, [rws 0 24 false]⟩,
  ⟨0xB010, 0x0000A205, [rwsR 0 8 false (.within 1 255), rwsR 8 4 false (.atLeast 1), rws 12 8 false]⟩,
  ⟨0xB014, 0x00000000, [rw 0 5 true]⟩,
  ⟨0xB018, 0x00000000, [ro 0 8, ro 8 8, ro 16 1]⟩,
  ⟨0xB01C, 0x00000000, [w1c 0 1, w1c 1 1, w1c 2 1, w1c 3 1, w1c 4 1, w1c 5 1]⟩
]

/-- The BXL_ block's registers (R587, R638). -/
def bxlRegs : List RegDesc := [
  ⟨0xC000, 0x0000003C, [rws 0 1 false, rws 1 1 false, rws 2 1 false, rws 3 1 false, rws 4 1 false, rws 5 1 false]⟩,
  ⟨0xC004, 0x00000000, [ro 0 14, ro 14 1, ro 15 1, ro 16 1, ro 17 1, ro 18 1, ro 19 1]⟩,
  ⟨0xC008, 0x00000000, [ro 0 14, ro 14 1, ro 16 14]⟩,
  ⟨0xC00C, 0x00000010, [rwsR 0 10 false (.within 1 1000)]⟩,
  ⟨0xC010, 0x00000000, [rws 0 16 false, rws 16 16 false]⟩,
  ⟨0xC014, 0x00000000, [ro 0 16, ro 16 16]⟩,
  ⟨0xC018, 0x00000003, [rws 0 4 false, ro 8 2, ro 16 14]⟩,
  ⟨0xC01C, 0x00000000, [ro 0 3, ro 4 10, ro 16 8]⟩,
  ⟨0xC020, 0x00000002, [ro 0 1, ro 1 2, ro 3 2, ro 5 2, ro 7 2, ro 16 10, ro 26 6]⟩,
  ⟨0xC024, 0x00000000, [w1f 0 16, w1f 16 16]⟩,
  ⟨0xC028, 0x00000000, [w1c 0 1, w1c 1 1, w1c 2 1, w1c 3 1, w1c 4 1, w1c 5 1, w1c 6 1, w1c 7 1, w1c 8 1, w1c 9 1, w1c 10 1, w1c 11 1, w1c 12 1, w1c 13 1, w1c 14 1, w1c 15 1, w1c 16 1, w1c 17 1]⟩
]

/-- The HP_ block's registers (R150, R638). -/
def hpRegs : List RegDesc := [
  ⟨0xD000, 0x00000000, [ro 0 1, rws 1 1 false, rws 2 1 false]⟩,
  ⟨0xD004, 0x0000007F, [rwsR 0 8 false (.atMost 254)]⟩,
  ⟨0xD008, 0x00000000, [w1c 0 1, w1c 1 1, w1c 2 1, w1c 3 1, w1c 4 1, w1c 5 1, w1c 6 1, w1c 7 1, w1c 8 1, w1c 9 1]⟩
]

/-- The registers of one host port, at 0xD100 + p × 0x100 (R150), offsets within the port. -/
def hpPortRegs : List RegDesc := [
  ⟨0x0000, 0x000001C7, [rwsR 0 3 false (.atLeast 4), rwsR 3 4 false (.oneOf [1, 2, 4, 8]), rws 7 1 false, rws 8 1 false, rw 16 8 true]⟩,
  ⟨0x0004, 0x00000000, [ro 0 1, ro 1 3, ro 4 4, ro 8 1, ro 9 1, ro 16 8]⟩,
  ⟨0x0008, 0x00000000, [w1f 0 16, w1f 16 16]⟩
]

/-- The two words of a stroke profile segment, at 0x2400 + p × 0x40 + k × 8 (R109), offsets within the segment. -/
def profRegs : List RegDesc := [
  ⟨0x0000, 0x00000000, [rws 0 10 false, rws 10 1 false, rws 16 16 false]⟩,
  ⟨0x0004, 0x00000000, [rws 0 16 false]⟩
]

/-- The registers of one Nib window, at 0x0001_0000 + n × 0x1000 (R396, R431), offsets within the window. -/
def nibRegs : List RegDesc := [
  ⟨0x0000, 0x00000000, [w1s 0 true, rws 1 1 false]⟩,
  ⟨0x0004, 0x00000000, [ro 0 3, ro 3 7, ro 10 3, ro 13 1, ro 14 1, ro 16 9]⟩,
  ⟨0x0008, 0x00000E88, [rws 0 1 false, rws 1 3 false, rws 4 1 false, rws 5 5 false, rws 10 1 false, rwsR 11 2 false (.within 0 2)]⟩,
  ⟨0x000C, 0x00000000, [ro 0 6, ro 6 3, ro 10 16]⟩,
  ⟨0x0010, 0x00000000, [ro 0 13, ro 13 13, ro 26 2]⟩,
  ⟨0x0014, 0x00000000, [rwsR 0 2 false (.atMost 2), rws 8 8 false]⟩,
  ⟨0x0020, 0x00000000, [rws 0 8 false, rws 8 8 false, rws 16 8 false, rws 24 8 false]⟩,
  ⟨0x0024, 0x00000000, [rws 0 8 false, rws 8 8 false, rws 16 8 false, rws 24 8 false]⟩,
  ⟨0x0028, 0x00000000, [rws 0 8 false, rws 8 8 false, rws 16 8 false, rws 24 8 false]⟩,
  ⟨0x002C, 0x00000000, [rws 0 8 false, rws 8 8 false, rws 16 8 false, rws 24 8 false]⟩,
  ⟨0x0030, 0x00000000, [rws 0 8 false, rws 8 8 false, rws 16 8 false, rws 24 8 false]⟩,
  ⟨0x0034, 0x00000000, [rws 0 8 false, rws 8 8 false, rws 16 8 false, rws 24 8 false]⟩,
  ⟨0x0040, 0x00000000, [rws 0 32 false]⟩,
  ⟨0x0044, 0x00000000, [rws 0 32 false]⟩,
  ⟨0x0048, 0x00000000, [rws 0 32 false]⟩,
  ⟨0x004C, 0x00000000, [rws 0 32 false]⟩,
  ⟨0x0050, 0x00000000, [rws 0 32 false]⟩,
  ⟨0x0054, 0x00000000, [rws 0 32 false]⟩,
  ⟨0x0060, 0xC0080064, [rwsR 0 10 false (.within 1 1000), rws 10 8 false, rws 18 3 false, rws 24 8 false]⟩,
  ⟨0x0064, 0x00000000, [rws 0 8 false, rws 8 8 false, rws 16 8 false, rws 24 3 false]⟩,
  ⟨0x0068, 0x03E80004, [rwsR 0 4 false (.atLeast 1), rws 16 16 false]⟩,
  ⟨0x006C, 0x00000020, [rwsR 0 8 false (.atLeast 4)]⟩,
  ⟨0x0070, 0x0001003C, [rws 0 16 false, rws 16 1 false]⟩,
  ⟨0x0080, 0x00000000, [rw 0 3 true, rw 3 3 true]⟩,
  ⟨0x0084, 0x00000010, [ro 0 3, ro 3 3, ro 6 1, ro 8 8, ro 16 4, ro 20 4, ro 24 8]⟩,
  ⟨0x0088, 0x00000000, [ro 0 11]⟩,
  ⟨0x0090, 0x00000000, [w1c 0 1, w1c 1 1, w1c 2 1, w1c 3 1, w1c 4 1, w1c 5 1, w1c 6 1, w1c 7 1, w1c 8 1, w1c 9 1, w1c 10 1, w1c 11 1, w1c 12 1, w1c 13 1, w1c 14 1]⟩,
  ⟨0x00A0, 0x00000001, [rws 0 1 false, rws 1 1 false]⟩,
  ⟨0x00A4, 0x00000000, [ro 0 8, ro 8 8, ro 16 2]⟩,
  ⟨0x00A8, 0x00000000, [ro 0 4, ro 4 7, ro 11 13]⟩,
  ⟨0x00AC, 0x00000000, [ro 0 12, ro 12 10, ro 22 7]⟩,
  ⟨0x00B0, 0x00000000, [w1c 0 1, w1c 1 1, w1c 2 1, w1c 3 1, w1c 4 1]⟩
]

/-- The pending view of one group, at 0x3100 + 4g (R517). -/
def evuPendReg : RegDesc := ⟨0x0000, 0, [ro 0 32]⟩

/-- The base of Nib `n`'s window (R396). -/
def nibBase (n : Nat) : Nat := 0x10000 + n * 0x1000

/-- Keys beyond BAR2 hold the banked words that a selector register shows: owner minima, maxima and age limits
(R240), routing words (R513) and read-retry entries (R359). -/
def bankBase : Nat := 0x100000

/-! Named fields, `<REGISTER>_<FIELD>` in the spelling of the owning chapter's table. -/

namespace F

abbrev RUL_CTRL_DISC_EN : Fld := ⟨0x1000, 0, 1⟩
abbrev RUL_CTRL_FIRST_STEP_EN : Fld := ⟨0x1000, 1, 1⟩
abbrev RUL_STATUS_CLASS : Fld := ⟨0x1004, 0, 2⟩
abbrev RUL_STATUS_SOURCE : Fld := ⟨0x1004, 2, 2⟩
abbrev RUL_STATUS_LOCK : Fld := ⟨0x1004, 4, 1⟩
abbrev RUL_STATUS_BACK_FLAG : Fld := ⟨0x1004, 5, 1⟩
abbrev RUL_STATUS_ONE_COUNTER : Fld := ⟨0x1004, 6, 1⟩
abbrev RUL_STATUS_STEP_ACTIVE : Fld := ⟨0x1004, 8, 1⟩
abbrev RUL_STATUS_QUAL : Fld := ⟨0x1004, 9, 3⟩
abbrev RUL_STATUS_UNC : Fld := ⟨0x1004, 16, 16⟩
abbrev RUL_LINE_PITCH_PITCH : Fld := ⟨0x1008, 0, 4⟩
abbrev RUL_LINE_PITCH_ACTIVE : Fld := ⟨0x1008, 4, 4⟩
abbrev RUL_SRC_PRIO_P1 : Fld := ⟨0x100C, 0, 2⟩
abbrev RUL_SRC_PRIO_P2 : Fld := ⟨0x100C, 2, 2⟩
abbrev RUL_SRC_PRIO_P3 : Fld := ⟨0x100C, 4, 2⟩
abbrev RUL_NOW_LO_NS : Fld := ⟨0x1010, 0, 32⟩
abbrev RUL_NOW_HI_NS : Fld := ⟨0x1014, 0, 32⟩
abbrev RUL_NOW_AUX_CLASS : Fld := ⟨0x1018, 0, 2⟩
abbrev RUL_NOW_AUX_UNC : Fld := ⟨0x1018, 16, 16⟩
abbrev RUL_SYNC_CFG_MODE : Fld := ⟨0x1020, 0, 2⟩
abbrev RUL_SYNC_CFG_EDGE : Fld := ⟨0x1020, 2, 1⟩
abbrev RUL_SYNC_CFG_TOD_ARM : Fld := ⟨0x1020, 3, 1⟩
abbrev RUL_SYNC_CFG_TOD_VALID : Fld := ⟨0x1020, 4, 1⟩
abbrev RUL_SYNC_DELAY_DELAY : Fld := ⟨0x1024, 0, 24⟩
abbrev RUL_TOD_SEC_LO_SEC : Fld := ⟨0x1028, 0, 32⟩
abbrev RUL_TOD_SEC_HI_SEC : Fld := ⟨0x102C, 0, 16⟩
abbrev RUL_PTM_CFG_EN : Fld := ⟨0x1030, 0, 1⟩
abbrev RUL_PTM_CFG_PERIOD : Fld := ⟨0x1030, 1, 10⟩
abbrev RUL_PTM_OFFSET_LO_OFS : Fld := ⟨0x1038, 0, 32⟩
abbrev RUL_PTM_OFFSET_HI_OFS : Fld := ⟨0x103C, 0, 32⟩
abbrev RUL_OFFSET_OFS : Fld := ⟨0x1040, 0, 32⟩
abbrev RUL_RATE_RATE : Fld := ⟨0x1044, 0, 32⟩
abbrev RUL_SYNC_OUT_MODE : Fld := ⟨0x1048, 0, 2⟩
abbrev RUL_SYNC_OUT_IN_D : Fld := ⟨0x1048, 2, 1⟩
abbrev RUL_SYNC_OUT_WIDTH : Fld := ⟨0x1048, 3, 8⟩
abbrev RUL_EVT_STATUS_CLASS_CHG : Fld := ⟨0x104C, 0, 1⟩
abbrev RUL_EVT_STATUS_SRC_CHG : Fld := ⟨0x104C, 1, 1⟩
abbrev RUL_EVT_STATUS_SRC_LOST : Fld := ⟨0x104C, 2, 1⟩
abbrev RUL_EVT_STATUS_BACK : Fld := ⟨0x104C, 3, 1⟩
abbrev RUL_EVT_STATUS_STEP : Fld := ⟨0x104C, 4, 1⟩
abbrev RUL_EVT_STATUS_CNT_FAULT : Fld := ⟨0x104C, 5, 1⟩
abbrev RUL_EVT_STATUS_ANN_FAULT : Fld := ⟨0x104C, 6, 1⟩
abbrev STK_CTRL_SUSP_EN : Fld := ⟨0x2000, 0, 1⟩
abbrev STK_CTRL_HOST_SUSP : Fld := ⟨0x2000, 1, 1⟩
abbrev STK_CTRL_CAP_SUSP : Fld := ⟨0x2000, 2, 1⟩
abbrev STK_CTRL_AROUND_EN : Fld := ⟨0x2000, 3, 1⟩
abbrev STK_STATUS_FLOOR_CLAMP : Fld := ⟨0x2004, 0, 1⟩
abbrev STK_STATUS_CAP_OVER : Fld := ⟨0x2004, 1, 1⟩
abbrev STK_STATUS_SLOW_LUNS : Fld := ⟨0x2004, 2, 14⟩
abbrev STK_STATUS_ADMITTED : Fld := ⟨0x2004, 16, 13⟩
abbrev STK_ENV_CAP_CAP : Fld := ⟨0x2008, 0, 12⟩
abbrev STK_ENV_RESV_RESV : Fld := ⟨0x200C, 0, 12⟩
abbrev STK_ENV_EFF_EFF : Fld := ⟨0x2010, 0, 12⟩
abbrev STK_ENV_EFF_FLOOR : Fld := ⟨0x2010, 16, 12⟩
abbrev STK_ENV_THERM_CAP : Fld := ⟨0x2014, 0, 12⟩
abbrev STK_LEAD_LINES : Fld := ⟨0x2018, 0, 4⟩
abbrev STK_SUSP_PGM_MAX_SUSP : Fld := ⟨0x201C, 0, 8⟩
abbrev STK_SUSP_PGM_MIN_RUN : Fld := ⟨0x201C, 8, 12⟩
abbrev STK_SUSP_PGM_READS : Fld := ⟨0x201C, 20, 8⟩
abbrev STK_SUSP_ERS_MAX_SUSP : Fld := ⟨0x2020, 0, 8⟩
abbrev STK_SUSP_ERS_MIN_RUN : Fld := ⟨0x2020, 8, 12⟩
abbrev STK_SUSP_ERS_READS : Fld := ⟨0x2020, 20, 8⟩
abbrev STK_THIN_PER_LINE : Fld := ⟨0x2024, 0, 8⟩
abbrev STK_THIN_THERM : Fld := ⟨0x2024, 8, 8⟩
abbrev STK_AGE_STEP : Fld := ⟨0x2028, 0, 16⟩
abbrev STK_AGE_CEIL : Fld := ⟨0x2028, 16, 3⟩
abbrev STK_SLOW_SLOW_X16 : Fld := ⟨0x202C, 0, 8⟩
abbrev STK_SLOW_CLEAR_X16 : Fld := ⟨0x202C, 8, 8⟩
abbrev STK_SLOW_FAIL_X16 : Fld := ⟨0x202C, 16, 8⟩
abbrev STK_SLOW_EVALS : Fld := ⟨0x202C, 24, 4⟩
abbrev STK_ADM_TR01_TR0 : Fld := ⟨0x2030, 0, 16⟩
abbrev STK_ADM_TR01_TR1 : Fld := ⟨0x2030, 16, 16⟩
abbrev STK_ADM_TR23_TR2 : Fld := ⟨0x2034, 0, 16⟩
abbrev STK_ADM_TR23_TR3 : Fld := ⟨0x2034, 16, 16⟩
abbrev STK_ADM_TR45_TR4 : Fld := ⟨0x2038, 0, 16⟩
abbrev STK_ADM_TR45_TR5 : Fld := ⟨0x2038, 16, 16⟩
abbrev STK_ADM_XFER_BURST : Fld := ⟨0x203C, 0, 16⟩
abbrev STK_ADM_XFER_CW : Fld := ⟨0x203C, 16, 16⟩
abbrev STK_ADM_DEC_HARD : Fld := ⟨0x2040, 0, 16⟩
abbrev STK_ADM_DEC_XOR : Fld := ⟨0x2040, 16, 16⟩
abbrev STK_ADM_OUT_BASE : Fld := ⟨0x2044, 0, 16⟩
abbrev STK_ADM_OUT_PER_KIB : Fld := ⟨0x2044, 16, 16⟩
abbrev STK_ADM_RESCUE_RESCUE : Fld := ⟨0x2048, 0, 16⟩
abbrev STK_EVT_STATUS_DEADLINE_MISS : Fld := ⟨0x2050, 0, 1⟩
abbrev STK_EVT_STATUS_LINE_MISSED : Fld := ⟨0x2050, 1, 1⟩
abbrev STK_EVT_STATUS_LUN_BUSY : Fld := ⟨0x2050, 2, 1⟩
abbrev STK_EVT_STATUS_OVERRUN : Fld := ⟨0x2050, 3, 1⟩
abbrev STK_EVT_STATUS_SLOW_MARK : Fld := ⟨0x2050, 4, 1⟩
abbrev STK_EVT_STATUS_FAIL_MARK : Fld := ⟨0x2050, 5, 1⟩
abbrev STK_EVT_STATUS_CAP_OVER : Fld := ⟨0x2050, 6, 1⟩
abbrev STK_EVT_STATUS_FLOOR_CLAMP : Fld := ⟨0x2050, 7, 1⟩
abbrev STK_PROF_W0_CUR (p k : Nat) : Fld := ⟨0x2400 + p * 0x40 + k * 8, 0, 10⟩
abbrev STK_PROF_W0_BUS (p k : Nat) : Fld := ⟨0x2400 + p * 0x40 + k * 8, 10, 1⟩
abbrev STK_PROF_W0_MIN (p k : Nat) : Fld := ⟨0x2400 + p * 0x40 + k * 8, 16, 16⟩
abbrev STK_PROF_W1_MAX (p k : Nat) : Fld := ⟨0x2404 + p * 0x40 + k * 8, 0, 16⟩
abbrev HP_CFG_DUAL : Fld := ⟨0xD000, 0, 1⟩
abbrev HP_CFG_PF1_EN : Fld := ⟨0xD000, 1, 1⟩
abbrev HP_CFG_PTM_PORT : Fld := ⟨0xD000, 2, 1⟩
abbrev HP_SRIOV_CFG_PF0_VFS : Fld := ⟨0xD004, 0, 8⟩
abbrev HP_EVT_STATUS_SPEED_DEGR : Fld := ⟨0xD008, 0, 1⟩
abbrev HP_EVT_STATUS_WIDTH_DEGR : Fld := ⟨0xD008, 1, 1⟩
abbrev HP_EVT_STATUS_POISON_IN : Fld := ⟨0xD008, 2, 1⟩
abbrev HP_EVT_STATUS_POISON_OUT : Fld := ⟨0xD008, 3, 1⟩
abbrev HP_EVT_STATUS_WALK_BAR : Fld := ⟨0xD008, 4, 1⟩
abbrev HP_EVT_STATUS_WALK_FAIL : Fld := ⟨0xD008, 5, 1⟩
abbrev HP_EVT_STATUS_SQ_FETCH : Fld := ⟨0xD008, 6, 1⟩
abbrev HP_EVT_STATUS_INV_LATE : Fld := ⟨0xD008, 7, 1⟩
abbrev HP_EVT_STATUS_PERST0 : Fld := ⟨0xD008, 8, 1⟩
abbrev HP_EVT_STATUS_PERST1 : Fld := ⟨0xD008, 9, 1⟩
abbrev HP_LINK_CFG_TGT_SPEED (p : Nat) : Fld := ⟨0xD100 + p * 0x100, 0, 3⟩
abbrev HP_LINK_CFG_TGT_WIDTH (p : Nat) : Fld := ⟨0xD100 + p * 0x100, 3, 4⟩
abbrev HP_LINK_CFG_L0P_EN (p : Nat) : Fld := ⟨0xD100 + p * 0x100, 7, 1⟩
abbrev HP_LINK_CFG_L1SS_EN (p : Nat) : Fld := ⟨0xD100 + p * 0x100, 8, 1⟩
abbrev HP_LINK_CFG_RETRY_MIN (p : Nat) : Fld := ⟨0xD100 + p * 0x100, 16, 8⟩
abbrev HP_LINK_STATUS_UP (p : Nat) : Fld := ⟨0xD104 + p * 0x100, 0, 1⟩
abbrev HP_LINK_STATUS_SPEED (p : Nat) : Fld := ⟨0xD104 + p * 0x100, 1, 3⟩
abbrev HP_LINK_STATUS_WIDTH (p : Nat) : Fld := ⟨0xD104 + p * 0x100, 4, 4⟩
abbrev HP_LINK_STATUS_FLIT (p : Nat) : Fld := ⟨0xD104 + p * 0x100, 8, 1⟩
abbrev HP_LINK_STATUS_L0P (p : Nat) : Fld := ⟨0xD104 + p * 0x100, 9, 1⟩
abbrev HP_LINK_STATUS_LANE_FAULT (p : Nat) : Fld := ⟨0xD104 + p * 0x100, 16, 8⟩
abbrev HP_ERR_CNT_CORR (p : Nat) : Fld := ⟨0xD108 + p * 0x100, 0, 16⟩
abbrev HP_ERR_CNT_FEC (p : Nat) : Fld := ⟨0xD108 + p * 0x100, 16, 16⟩
abbrev INK_CTRL_AUDIT_EN : Fld := ⟨0x4000, 0, 1⟩
abbrev INK_STATUS_FREE : Fld := ⟨0x4004, 0, 17⟩
abbrev INK_STATUS_REGISTERED : Fld := ⟨0x4004, 17, 11⟩
abbrev INK_POOL_CELLS : Fld := ⟨0x4008, 0, 17⟩
abbrev INK_POOL_BANKS : Fld := ⟨0x4008, 17, 4⟩
abbrev INK_BANKS_HEALTHY : Fld := ⟨0x400C, 0, 16⟩
abbrev INK_BANKS_INKWELL : Fld := ⟨0x400C, 16, 16⟩
abbrev INK_OWNER_SEL_OWNER : Fld := ⟨0x4010, 0, 10⟩
abbrev INK_OWNER_STATE_STATE : Fld := ⟨0x4014, 0, 2⟩
abbrev INK_OWNER_MIN_MIN (o : Nat) : Fld := ⟨bankBase + o, 0, 17⟩
abbrev INK_OWNER_MAX_MAX (o : Nat) : Fld := ⟨bankBase + 0x400 + o, 0, 17⟩
abbrev INK_OWNER_EFF_EFF_MIN : Fld := ⟨0x4020, 0, 17⟩
abbrev INK_OWNER_HELD_HELD : Fld := ⟨0x4024, 0, 17⟩
abbrev INK_OWNER_AGE_LIMIT (o : Nat) : Fld := ⟨bankBase + 0x800 + o, 0, 16⟩
abbrev INK_LANES_IN_SERVICE : Fld := ⟨0x402C, 0, 16⟩
abbrev INK_LANES_MASKED : Fld := ⟨0x402C, 16, 16⟩
abbrev INK_KEYS_USED : Fld := ⟨0x4030, 0, 13⟩
abbrev INK_EVT_STATUS_OWNER_FULL : Fld := ⟨0x4034, 0, 1⟩
abbrev INK_EVT_STATUS_MIN_REJ : Fld := ⟨0x4034, 1, 1⟩
abbrev INK_EVT_STATUS_LEAK : Fld := ⟨0x4034, 2, 1⟩
abbrev INK_EVT_STATUS_DUP_RELEASE : Fld := ⟨0x4034, 3, 1⟩
abbrev INK_EVT_STATUS_CONSERVE : Fld := ⟨0x4034, 4, 1⟩
abbrev INK_EVT_STATUS_CELL_CE : Fld := ⟨0x4034, 5, 1⟩
abbrev INK_EVT_STATUS_CELL_UE : Fld := ⟨0x4034, 6, 1⟩
abbrev INK_EVT_STATUS_BANK_MASK : Fld := ⟨0x4034, 7, 1⟩
abbrev INK_EVT_STATUS_LANE_MISMATCH : Fld := ⟨0x4034, 8, 1⟩
abbrev INK_EVT_STATUS_LANE_MASK : Fld := ⟨0x4034, 9, 1⟩
abbrev INK_EVT_STATUS_KEY_FULL : Fld := ⟨0x4034, 10, 1⟩
abbrev MAP_CTRL_WL_EN : Fld := ⟨0x6000, 0, 1⟩
abbrev MAP_CTRL_SDISC_EN : Fld := ⟨0x6000, 1, 1⟩
abbrev MAP_STATUS_CACHED : Fld := ⟨0x6004, 0, 1⟩
abbrev MAP_STATUS_LEVEL : Fld := ⟨0x6004, 1, 2⟩
abbrev MAP_STATUS_REGION_GIB : Fld := ⟨0x6004, 4, 9⟩
abbrev MAP_STATUS_TICKETS : Fld := ⟨0x6004, 13, 7⟩
abbrev MAP_CFG_IU : Fld := ⟨0x6008, 0, 2⟩
abbrev MAP_CFG_IU_ACTIVE : Fld := ⟨0x6008, 2, 2⟩
abbrev MAP_GEOM_UNIT_W : Fld := ⟨0x600C, 0, 2⟩
abbrev MAP_GEOM_PLANE_W : Fld := ⟨0x600C, 2, 2⟩
abbrev MAP_GEOM_PAGE_W : Fld := ⟨0x600C, 4, 5⟩
abbrev MAP_GEOM_BLOCK_W : Fld := ⟨0x600C, 9, 5⟩
abbrev MAP_GEOM_BLOCKS : Fld := ⟨0x600C, 16, 12⟩
abbrev MAP_GC_THRESH_START : Fld := ⟨0x6010, 0, 10⟩
abbrev MAP_GC_THRESH_LOW : Fld := ⟨0x6010, 10, 10⟩
abbrev MAP_GC_THRESH_CRIT : Fld := ⟨0x6010, 20, 10⟩
abbrev MAP_WEAR_SPREAD : Fld := ⟨0x6014, 0, 16⟩
abbrev MAP_WEAR_RATED : Fld := ⟨0x6014, 16, 16⟩
abbrev MAP_WP_CFG_IDLE_PAD : Fld := ⟨0x6018, 0, 8⟩
abbrev MAP_WP_CFG_WIDTH : Fld := ⟨0x6018, 8, 6⟩
abbrev MAP_WP_CFG_HANDLES : Fld := ⟨0x6018, 15, 7⟩
abbrev MAP_FREE_FREE : Fld := ⟨0x601C, 0, 20⟩
abbrev MAP_INFLIGHT_USED : Fld := ⟨0x6020, 0, 16⟩
abbrev MAP_UNDEF_PID_COUNT : Fld := ⟨0x6024, 0, 32⟩
abbrev MAP_EVT_STATUS_CRC_ERR : Fld := ⟨0x6028, 0, 1⟩
abbrev MAP_EVT_STATUS_PAGE_REBUILT : Fld := ⟨0x6028, 1, 1⟩
abbrev MAP_EVT_STATUS_LEVEL_PACED : Fld := ⟨0x6028, 2, 1⟩
abbrev MAP_EVT_STATUS_LEVEL_CRIT : Fld := ⟨0x6028, 3, 1⟩
abbrev MAP_EVT_STATUS_SPREAD_OVER : Fld := ⟨0x6028, 4, 1⟩
abbrev MAP_EVT_STATUS_WL_MOVE : Fld := ⟨0x6028, 5, 1⟩
abbrev MAP_EVT_STATUS_UNDEF_PID : Fld := ⟨0x6028, 6, 1⟩
abbrev MAP_EVT_STATUS_FDP_REJ : Fld := ⟨0x6028, 7, 1⟩
abbrev MAP_EVT_STATUS_DISCARD_DONE : Fld := ⟨0x6028, 8, 1⟩
abbrev MAP_EVT_STATUS_GEOM : Fld := ⟨0x6028, 9, 1⟩
abbrev MAP_EVT_STATUS_IU_PEND : Fld := ⟨0x6028, 10, 1⟩
abbrev MAP_CKPT_CFG_GIB : Fld := ⟨0x6040, 0, 8⟩
abbrev MAP_CKPT_CFG_SECS : Fld := ⟨0x6040, 8, 8⟩
abbrev MAP_CKPT_STATUS_RUNNING : Fld := ⟨0x6044, 0, 1⟩
abbrev MAP_CKPT_STATUS_ONE_ROOT : Fld := ⟨0x6044, 1, 1⟩
abbrev MAP_CKPT_STATUS_SEQ : Fld := ⟨0x6044, 16, 16⟩
abbrev MAP_CUT_CFG_BXL_EN : Fld := ⟨0x6050, 0, 1⟩
abbrev MAP_CUT_CFG_EVICT : Fld := ⟨0x6050, 1, 1⟩
abbrev MAP_CUT_CFG_EVICT_S : Fld := ⟨0x6050, 8, 8⟩
abbrev MAP_CUT_SEL_CUT : Fld := ⟨0x6054, 0, 4⟩
abbrev MAP_CUT_INFO_STATE : Fld := ⟨0x6058, 0, 2⟩
abbrev MAP_CUT_INFO_ALL : Fld := ⟨0x6058, 2, 1⟩
abbrev MAP_CUT_INFO_ORIGIN : Fld := ⟨0x6058, 3, 2⟩
abbrev MAP_CUT_INFO_CLASS : Fld := ⟨0x6058, 5, 2⟩
abbrev MAP_CUT_INFO_NSID : Fld := ⟨0x6058, 16, 16⟩
abbrev MAP_CUT_T_LO_T : Fld := ⟨0x605C, 0, 32⟩
abbrev MAP_CUT_T_HI_T : Fld := ⟨0x6060, 0, 32⟩
abbrev MAP_CUT_PIN_MIB : Fld := ⟨0x6064, 0, 32⟩
abbrev MAP_CP_EVT_STATUS_CKPT_SLOW : Fld := ⟨0x6068, 0, 1⟩
abbrev MAP_CP_EVT_STATUS_ROOT_BAD : Fld := ⟨0x6068, 1, 1⟩
abbrev MAP_CP_EVT_STATUS_ROOT_CONFLICT : Fld := ⟨0x6068, 2, 1⟩
abbrev MAP_CP_EVT_STATUS_REPLAY_DONE : Fld := ⟨0x6068, 3, 1⟩
abbrev MAP_CP_EVT_STATUS_CUT_HELD : Fld := ⟨0x6068, 4, 1⟩
abbrev MAP_CP_EVT_STATUS_CUT_REFUSED : Fld := ⟨0x6068, 5, 1⟩
abbrev MAP_CP_EVT_STATUS_CUT_EVICT : Fld := ⟨0x6068, 6, 1⟩
abbrev MAP_CP_EVT_STATUS_CUT_RELEASED : Fld := ⟨0x6068, 7, 1⟩
abbrev LIG_CTRL_EN : Fld := ⟨0x5000, 0, 1⟩
abbrev LIG_CTRL_PATROL_EN : Fld := ⟨0x5000, 1, 1⟩
abbrev LIG_CTRL_DISTURB_EN : Fld := ⟨0x5000, 2, 1⟩
abbrev LIG_STATUS_CHAN_PROT : Fld := ⟨0x5004, 0, 1⟩
abbrev LIG_STATUS_EN_ACTIVE : Fld := ⟨0x5004, 1, 1⟩
abbrev LIG_STATUS_GROUPS : Fld := ⟨0x5004, 8, 9⟩
abbrev LIG_STATUS_ACC_USED : Fld := ⟨0x5004, 17, 8⟩
abbrev LIG_CFG_WIDTH : Fld := ⟨0x5008, 0, 7⟩
abbrev LIG_CFG_WIDTH_ACTIVE : Fld := ⟨0x5008, 7, 7⟩
abbrev LIG_CFG_ACC_RESV : Fld := ⟨0x5008, 14, 7⟩
abbrev LIG_ECC_CFG_RATE : Fld := ⟨0x500C, 0, 2⟩
abbrev LIG_ECC_CFG_RATE_ACTIVE : Fld := ⟨0x500C, 2, 2⟩
abbrev LIG_ECC_CFG_HARD_IT : Fld := ⟨0x500C, 8, 6⟩
abbrev LIG_ECC_CFG_SOFT_IT : Fld := ⟨0x500C, 16, 6⟩
abbrev LIG_RETRY_STEPS : Fld := ⟨0x5010, 0, 4⟩
abbrev LIG_RETRY_ENTRY : Fld := ⟨0x5010, 16, 16⟩
abbrev LIG_RR_SEL_PG : Fld := ⟨0x5014, 0, 3⟩
abbrev LIG_RR_SEL_RD : Fld := ⟨0x5014, 4, 3⟩
abbrev LIG_RR_W0_L0_L3 (pg rd : Nat) : Fld := ⟨bankBase + 0x2000 + pg * 16 + rd * 2, 0, 32⟩
abbrev LIG_RR_W1_L4_L6 (pg rd : Nat) : Fld := ⟨bankBase + 0x2000 + pg * 16 + rd * 2 + 1, 0, 24⟩
abbrev LIG_RR_W1_SLC (pg rd : Nat) : Fld := ⟨bankBase + 0x2000 + pg * 16 + rd * 2 + 1, 24, 8⟩
abbrev LIG_PATROL_REFRESH_BITS : Fld := ⟨0x5020, 0, 10⟩
abbrev LIG_PATROL_CATCHUP : Fld := ⟨0x5020, 16, 5⟩
abbrev LIG_DISTURB_KREADS : Fld := ⟨0x5024, 0, 16⟩
abbrev LIG_RETIRE_BLOCKS : Fld := ⟨0x5028, 0, 12⟩
abbrev LIG_PATROL_POS_PERMILLE : Fld := ⟨0x502C, 0, 10⟩
abbrev LIG_PATROL_POS_PASS : Fld := ⟨0x502C, 10, 22⟩
abbrev LIG_REBUILD_EXPOSED : Fld := ⟨0x5030, 0, 20⟩
abbrev LIG_REBUILD_RETIRED_LUNS : Fld := ⟨0x5030, 20, 12⟩
abbrev LIG_EVT_STATUS_SOFT : Fld := ⟨0x5034, 0, 1⟩
abbrev LIG_EVT_STATUS_RETRY : Fld := ⟨0x5034, 1, 1⟩
abbrev LIG_EVT_STATUS_REBUILT : Fld := ⟨0x5034, 2, 1⟩
abbrev LIG_EVT_STATUS_LOST : Fld := ⟨0x5034, 3, 1⟩
abbrev LIG_EVT_STATUS_MISDIRECT : Fld := ⟨0x5034, 4, 1⟩
abbrev LIG_EVT_STATUS_FINDING : Fld := ⟨0x5034, 5, 1⟩
abbrev LIG_EVT_STATUS_DISTURB_SCAN : Fld := ⟨0x5034, 6, 1⟩
abbrev LIG_EVT_STATUS_PATROL_LATE : Fld := ⟨0x5034, 7, 1⟩
abbrev LIG_EVT_STATUS_BLOCK_RETIRE : Fld := ⟨0x5034, 8, 1⟩
abbrev LIG_EVT_STATUS_LUN_RETIRE : Fld := ⟨0x5034, 9, 1⟩
abbrev LIG_EVT_STATUS_CHAN_MASK : Fld := ⟨0x5034, 10, 1⟩
abbrev LIG_EVT_STATUS_EXPOSED : Fld := ⟨0x5034, 11, 1⟩
abbrev LIG_EVT_STATUS_ACC_UE : Fld := ⟨0x5034, 12, 1⟩
abbrev LIG_EVT_STATUS_RATE_ADJ : Fld := ⟨0x5034, 13, 1⟩
abbrev LIG_EVT_STATUS_CFG_PEND : Fld := ⟨0x5034, 14, 1⟩
abbrev NIB_CTRL_RETRAIN (n : Nat) : Fld := ⟨nibBase n + 0x000, 0, 1⟩
abbrev NIB_CTRL_WP_FORCE (n : Nat) : Fld := ⟨nibBase n + 0x000, 1, 1⟩
abbrev NIB_STATUS_STATE (n : Nat) : Fld := ⟨nibBase n + 0x004, 0, 3⟩
abbrev NIB_STATUS_LUNS (n : Nat) : Fld := ⟨nibBase n + 0x004, 3, 7⟩
abbrev NIB_STATUS_RATE_ACTIVE (n : Nat) : Fld := ⟨nibBase n + 0x004, 10, 3⟩
abbrev NIB_STATUS_PROTO_ACTIVE (n : Nat) : Fld := ⟨nibBase n + 0x004, 13, 1⟩
abbrev NIB_STATUS_CE_MODE_ACTIVE (n : Nat) : Fld := ⟨nibBase n + 0x004, 14, 1⟩
abbrev NIB_STATUS_RING_USED (n : Nat) : Fld := ⟨nibBase n + 0x004, 16, 9⟩
abbrev NIB_IF_CFG_PROTO (n : Nat) : Fld := ⟨nibBase n + 0x008, 0, 1⟩
abbrev NIB_IF_CFG_RATE (n : Nat) : Fld := ⟨nibBase n + 0x008, 1, 3⟩
abbrev NIB_IF_CFG_CE_MODE (n : Nat) : Fld := ⟨nibBase n + 0x008, 4, 1⟩
abbrev NIB_IF_CFG_TCS (n : Nat) : Fld := ⟨nibBase n + 0x008, 5, 5⟩
abbrev NIB_IF_CFG_ODT_EN (n : Nat) : Fld := ⟨nibBase n + 0x008, 10, 1⟩
abbrev NIB_IF_CFG_DRIVE (n : Nat) : Fld := ⟨nibBase n + 0x008, 11, 2⟩
abbrev NIB_GEOM0_PAGE_KIB (n : Nat) : Fld := ⟨nibBase n + 0x00C, 0, 6⟩
abbrev NIB_GEOM0_PLANES (n : Nat) : Fld := ⟨nibBase n + 0x00C, 6, 3⟩
abbrev NIB_GEOM0_PAGE_FULL (n : Nat) : Fld := ⟨nibBase n + 0x00C, 10, 16⟩
abbrev NIB_GEOM1_PAGES (n : Nat) : Fld := ⟨nibBase n + 0x010, 0, 13⟩
abbrev NIB_GEOM1_BLOCKS (n : Nat) : Fld := ⟨nibBase n + 0x010, 13, 13⟩
abbrev NIB_GEOM1_BITS (n : Nat) : Fld := ⟨nibBase n + 0x010, 26, 2⟩
abbrev NIB_PGM_CFG_AT_RISK (n : Nat) : Fld := ⟨nibBase n + 0x014, 0, 2⟩
abbrev NIB_PGM_CFG_PTRIM_FADDR (n : Nat) : Fld := ⟨nibBase n + 0x014, 8, 8⟩
abbrev NIB_TRIM_WDQ (n b : Nat) : Fld := ⟨nibBase n + 0x020 + 4 * b, 0, 8⟩
abbrev NIB_TRIM_RDQS (n b : Nat) : Fld := ⟨nibBase n + 0x020 + 4 * b, 8, 8⟩
abbrev NIB_TRIM_RE_DCC (n b : Nat) : Fld := ⟨nibBase n + 0x020 + 4 * b, 16, 8⟩
abbrev NIB_TRIM_VREF (n b : Nat) : Fld := ⟨nibBase n + 0x020 + 4 * b, 24, 8⟩
abbrev NIB_PTRIM_P1_P4 (n b : Nat) : Fld := ⟨nibBase n + 0x040 + 4 * b, 0, 32⟩
abbrev NIB_TEMP_PERIOD (n : Nat) : Fld := ⟨nibBase n + 0x060, 0, 10⟩
abbrev NIB_TEMP_FADDR (n : Nat) : Fld := ⟨nibBase n + 0x060, 10, 8⟩
abbrev NIB_TEMP_HYST (n : Nat) : Fld := ⟨nibBase n + 0x060, 18, 3⟩
abbrev NIB_TEMP_OFS (n : Nat) : Fld := ⟨nibBase n + 0x060, 24, 8⟩
abbrev NIB_SUSP_CMD_PGM_SUS (n : Nat) : Fld := ⟨nibBase n + 0x064, 0, 8⟩
abbrev NIB_SUSP_CMD_ERS_SUS (n : Nat) : Fld := ⟨nibBase n + 0x064, 8, 8⟩
abbrev NIB_SUSP_CMD_RESUME (n : Nat) : Fld := ⟨nibBase n + 0x064, 16, 8⟩
abbrev NIB_SUSP_CMD_SBIT (n : Nat) : Fld := ⟨nibBase n + 0x064, 24, 3⟩
abbrev NIB_TMO_MULT (n : Nat) : Fld := ⟨nibBase n + 0x068, 0, 4⟩
abbrev NIB_TMO_RST_US (n : Nat) : Fld := ⟨nibBase n + 0x068, 16, 16⟩
abbrev NIB_POLL_INT (n : Nat) : Fld := ⟨nibBase n + 0x06C, 0, 8⟩
abbrev NIB_TRAIN_PERIOD_S (n : Nat) : Fld := ⟨nibBase n + 0x070, 0, 16⟩
abbrev NIB_TRAIN_ON_BAND (n : Nat) : Fld := ⟨nibBase n + 0x070, 16, 1⟩
abbrev NIB_LUN_SEL_TGT (n : Nat) : Fld := ⟨nibBase n + 0x080, 0, 3⟩
abbrev NIB_LUN_SEL_LUN (n : Nat) : Fld := ⟨nibBase n + 0x080, 3, 3⟩
abbrev NIB_LUN_STATE_STATE (n : Nat) : Fld := ⟨nibBase n + 0x084, 0, 3⟩
abbrev NIB_LUN_STATE_RBAND (n : Nat) : Fld := ⟨nibBase n + 0x084, 3, 3⟩
abbrev NIB_LUN_STATE_TEMP_VALID (n : Nat) : Fld := ⟨nibBase n + 0x084, 6, 1⟩
abbrev NIB_LUN_STATE_TEMP (n : Nat) : Fld := ⟨nibBase n + 0x084, 8, 8⟩
abbrev NIB_LUN_STATE_DIE_TYPE (n : Nat) : Fld := ⟨nibBase n + 0x084, 16, 4⟩
abbrev NIB_LUN_STATE_SUSP (n : Nat) : Fld := ⟨nibBase n + 0x084, 20, 4⟩
abbrev NIB_LUN_STATE_TMO_CNT (n : Nat) : Fld := ⟨nibBase n + 0x084, 24, 8⟩
abbrev NIB_ECACHE_USED (n : Nat) : Fld := ⟨nibBase n + 0x088, 0, 11⟩
abbrev NIB_EVT_STATUS_GEOM_MISMATCH (n : Nat) : Fld := ⟨nibBase n + 0x090, 0, 1⟩
abbrev NIB_EVT_STATUS_PARAM_CRC (n : Nat) : Fld := ⟨nibBase n + 0x090, 1, 1⟩
abbrev NIB_EVT_STATUS_EXTRA_LUN (n : Nat) : Fld := ⟨nibBase n + 0x090, 2, 1⟩
abbrev NIB_EVT_STATUS_TRAIN_FAIL (n : Nat) : Fld := ⟨nibBase n + 0x090, 3, 1⟩
abbrev NIB_EVT_STATUS_LAUNCH_LATE (n : Nat) : Fld := ⟨nibBase n + 0x090, 4, 1⟩
abbrev NIB_EVT_STATUS_BUS_CONFLICT (n : Nat) : Fld := ⟨nibBase n + 0x090, 5, 1⟩
abbrev NIB_EVT_STATUS_TIMEOUT (n : Nat) : Fld := ⟨nibBase n + 0x090, 6, 1⟩
abbrev NIB_EVT_STATUS_UNRESPONSIVE (n : Nat) : Fld := ⟨nibBase n + 0x090, 7, 1⟩
abbrev NIB_EVT_STATUS_BUS_FAULT (n : Nat) : Fld := ⟨nibBase n + 0x090, 8, 1⟩
abbrev NIB_EVT_STATUS_TEMP_STALE (n : Nat) : Fld := ⟨nibBase n + 0x090, 9, 1⟩
abbrev NIB_EVT_STATUS_PTRIM_FAIL (n : Nat) : Fld := ⟨nibBase n + 0x090, 10, 1⟩
abbrev NIB_EVT_STATUS_DUP_DESC (n : Nat) : Fld := ⟨nibBase n + 0x090, 11, 1⟩
abbrev NIB_EVT_STATUS_SUSP_LATE (n : Nat) : Fld := ⟨nibBase n + 0x090, 12, 1⟩
abbrev NIB_EVT_STATUS_SRC_ERR (n : Nat) : Fld := ⟨nibBase n + 0x090, 13, 1⟩
abbrev NIB_EVT_STATUS_NIB_MASK (n : Nat) : Fld := ⟨nibBase n + 0x090, 14, 1⟩
abbrev NIB_Q_CTRL_SCRUB_EN (n : Nat) : Fld := ⟨nibBase n + 0x0A0, 0, 1⟩
abbrev NIB_Q_CTRL_SCRIBE_EN (n : Nat) : Fld := ⟨nibBase n + 0x0A0, 1, 1⟩
abbrev NIB_Q_STATUS_CONTEXTS (n : Nat) : Fld := ⟨nibBase n + 0x0A4, 0, 8⟩
abbrev NIB_Q_STATUS_RESTARTS (n : Nat) : Fld := ⟨nibBase n + 0x0A4, 8, 8⟩
abbrev NIB_Q_STATUS_IN_HOUR (n : Nat) : Fld := ⟨nibBase n + 0x0A4, 16, 2⟩
abbrev NIB_Q_MCHK_CAUSE (n : Nat) : Fld := ⟨nibBase n + 0x0A8, 0, 4⟩
abbrev NIB_Q_MCHK_CTX (n : Nat) : Fld := ⟨nibBase n + 0x0A8, 4, 7⟩
abbrev NIB_Q_MCHK_PC (n : Nat) : Fld := ⟨nibBase n + 0x0A8, 11, 13⟩
abbrev NIB_Q_SCR_USIZE (n : Nat) : Fld := ⟨nibBase n + 0x0AC, 0, 12⟩
abbrev NIB_Q_SCR_NSIZE (n : Nat) : Fld := ⟨nibBase n + 0x0AC, 12, 10⟩
abbrev NIB_Q_SCR_ENTRIES (n : Nat) : Fld := ⟨nibBase n + 0x0AC, 22, 7⟩
abbrev NIB_Q_EVT_STATUS_MCHK (n : Nat) : Fld := ⟨nibBase n + 0x0B0, 0, 1⟩
abbrev NIB_Q_EVT_STATUS_RESTART (n : Nat) : Fld := ⟨nibBase n + 0x0B0, 1, 1⟩
abbrev NIB_Q_EVT_STATUS_SCR_LOADED (n : Nat) : Fld := ⟨nibBase n + 0x0B0, 2, 1⟩
abbrev NIB_Q_EVT_STATUS_ENTRY_BAD (n : Nat) : Fld := ⟨nibBase n + 0x0B0, 3, 1⟩
abbrev NIB_Q_EVT_STATUS_SET_CONFLICT (n : Nat) : Fld := ⟨nibBase n + 0x0B0, 4, 1⟩
abbrev PWR_ES_CFG_ICHG : Fld := ⟨0xA400, 0, 12⟩
abbrev PWR_ES_CFG_DIV : Fld := ⟨0xA400, 12, 8⟩
abbrev PWR_ES_CFG_VMIN : Fld := ⟨0xA400, 20, 8⟩
abbrev PWR_ES_CFG2_EFF : Fld := ⟨0xA404, 0, 8⟩
abbrev PWR_ES_CFG2_PHU : Fld := ⟨0xA404, 8, 8⟩
abbrev PWR_ES_CFG2_CMIN : Fld := ⟨0xA404, 16, 8⟩
abbrev PWR_ES_CFG2_TEST_H : Fld := ⟨0xA404, 24, 8⟩
abbrev PWR_ES_MEAS_C_UF : Fld := ⟨0xA408, 0, 16⟩
abbrev PWR_ES_MEAS_VFULL : Fld := ⟨0xA408, 16, 12⟩
abbrev PWR_ES_MEAS_TEST_PASS : Fld := ⟨0xA408, 28, 1⟩
abbrev PWR_ES_MEAS_HEALTHY : Fld := ⟨0xA408, 29, 1⟩
abbrev PWR_ES_NOW_VNOW : Fld := ⟨0xA40C, 0, 12⟩
abbrev PWR_ES_NOW_CHARGE : Fld := ⟨0xA40C, 12, 7⟩
abbrev PWR_HU_CFG_DEGLITCH : Fld := ⟨0xA410, 0, 4⟩
abbrev PWR_HU_CFG_Q : Fld := ⟨0xA410, 4, 8⟩
abbrev PWR_HU_CFG_G : Fld := ⟨0xA410, 12, 8⟩
abbrev PWR_HU_CFG_RATE : Fld := ⟨0xA410, 20, 8⟩
abbrev PWR_HU_BUDGET_DUR_MIB : Fld := ⟨0xA414, 0, 8⟩
abbrev PWR_HU_BUDGET_PROT_MAX : Fld := ⟨0xA414, 8, 8⟩
abbrev PWR_HU_BUDGET_RESV_ROWS : Fld := ⟨0xA414, 16, 8⟩
abbrev PWR_HU_EFF_DUR : Fld := ⟨0xA418, 0, 8⟩
abbrev PWR_HU_EFF_PROT : Fld := ⟨0xA418, 8, 8⟩
abbrev PWR_HU_EFF_TB_US : Fld := ⟨0xA418, 16, 16⟩
abbrev PWR_HU_LAST_HU_US : Fld := ⟨0xA41C, 0, 16⟩
abbrev PWR_HU_LAST_KIND : Fld := ⟨0xA41C, 16, 3⟩
abbrev PWR_BLT_CFG_ROWS : Fld := ⟨0xA420, 0, 8⟩
abbrev PWR_BLT_CFG_OPEN : Fld := ⟨0xA420, 8, 8⟩
abbrev PWR_BLT_CFG_CG_US : Fld := ⟨0xA420, 16, 8⟩
abbrev PWR_BLT_STATUS_ROWS_OPEN : Fld := ⟨0xA424, 0, 8⟩
abbrev PWR_BLT_STATUS_GROUPS_OPEN : Fld := ⟨0xA424, 8, 8⟩
abbrev PWR_BLT_STATUS_SETS_FULL : Fld := ⟨0xA424, 16, 8⟩
abbrev PWR_HU_EVT_STATUS_PFAIL_GLITCH : Fld := ⟨0xA428, 0, 1⟩
abbrev PWR_HU_EVT_STATUS_INCOMPLETE : Fld := ⟨0xA428, 1, 1⟩
abbrev PWR_HU_EVT_STATUS_ES_LOW : Fld := ⟨0xA428, 2, 1⟩
abbrev PWR_HU_EVT_STATUS_ES_FAIL : Fld := ⟨0xA428, 3, 1⟩
abbrev PWR_HU_EVT_STATUS_TEST_FAIL : Fld := ⟨0xA428, 4, 1⟩
abbrev PWR_HU_EVT_STATUS_RATE_LOW : Fld := ⟨0xA428, 5, 1⟩
abbrev PWR_HU_EVT_STATUS_BLT_FULL : Fld := ⟨0xA428, 6, 1⟩
abbrev PWR_HU_EVT_STATUS_BLT_REBUILT : Fld := ⟨0xA428, 7, 1⟩
abbrev PWR_HU_EVT_STATUS_BLT_LOST : Fld := ⟨0xA428, 8, 1⟩
abbrev PWR_HU_EVT_STATUS_BLT_RETIRE : Fld := ⟨0xA428, 9, 1⟩
abbrev TINE_CTRL_DRILL_EN : Fld := ⟨0x7000, 0, 1⟩
abbrev TINE_CTRL_RESYNC_EN : Fld := ⟨0x7000, 1, 1⟩
abbrev TINE_CTRL_DIVERGE_EN : Fld := ⟨0x7000, 2, 1⟩
abbrev TINE_STATUS_ACTIVE : Fld := ⟨0x7004, 0, 1⟩
abbrev TINE_STATUS_PAIRED : Fld := ⟨0x7004, 1, 1⟩
abbrev TINE_STATUS_OVERLAP : Fld := ⟨0x7004, 2, 1⟩
abbrev TINE_STATUS_A_STATE : Fld := ⟨0x7004, 4, 3⟩
abbrev TINE_STATUS_B_STATE : Fld := ⟨0x7004, 7, 3⟩
abbrev TINE_STATUS_LAG : Fld := ⟨0x7004, 16, 5⟩
abbrev TINE_STATUS_CLK_DIV : Fld := ⟨0x7004, 24, 2⟩
abbrev TINE_DRILL_PERIOD_H : Fld := ⟨0x7008, 0, 16⟩
abbrev TINE_DRILL_NEXT_MIN : Fld := ⟨0x7008, 16, 16⟩
abbrev TINE_HO_LAST_CAUSE : Fld := ⟨0x700C, 0, 3⟩
abbrev TINE_HO_LAST_FROM : Fld := ⟨0x700C, 3, 1⟩
abbrev TINE_HO_LAST_DUR : Fld := ⟨0x700C, 4, 12⟩
abbrev TINE_HO_LAST_OVL : Fld := ⟨0x700C, 16, 8⟩
abbrev TINE_HO_LAST_DUPS : Fld := ⟨0x700C, 24, 8⟩
abbrev TINE_HO_STAMP_LO_NS : Fld := ⟨0x7010, 0, 32⟩
abbrev TINE_HO_STAMP_HI_NS : Fld := ⟨0x7014, 0, 32⟩
abbrev TINE_CNT_HANDOVERS : Fld := ⟨0x7018, 0, 8⟩
abbrev TINE_CNT_DRILLS : Fld := ⟨0x7018, 8, 8⟩
abbrev TINE_CNT_RESIGN_A : Fld := ⟨0x7018, 16, 8⟩
abbrev TINE_CNT_RESIGN_B : Fld := ⟨0x7018, 24, 8⟩
abbrev TINE_ST_RESULT : Fld := ⟨0x701C, 0, 2⟩
abbrev TINE_ST_WHICH : Fld := ⟨0x701C, 2, 1⟩
abbrev TINE_ST_DUR_US : Fld := ⟨0x701C, 16, 16⟩
abbrev TINE_RESYNC_STALL_US : Fld := ⟨0x7020, 0, 16⟩
abbrev TINE_EVT_STATUS_RESIGN : Fld := ⟨0x7024, 0, 1⟩
abbrev TINE_EVT_STATUS_HANDOVER : Fld := ⟨0x7024, 1, 1⟩
abbrev TINE_EVT_STATUS_STBY_RESIGN : Fld := ⟨0x7024, 2, 1⟩
abbrev TINE_EVT_STATUS_DIVERGE : Fld := ⟨0x7024, 3, 1⟩
abbrev TINE_EVT_STATUS_SELFTEST_FAIL : Fld := ⟨0x7024, 4, 1⟩
abbrev TINE_EVT_STATUS_MASK : Fld := ⟨0x7024, 5, 1⟩
abbrev TINE_EVT_STATUS_RESYNC : Fld := ⟨0x7024, 6, 1⟩
abbrev TINE_EVT_STATUS_RESYNC_ABORT : Fld := ⟨0x7024, 7, 1⟩
abbrev TINE_EVT_STATUS_DRILL : Fld := ⟨0x7024, 8, 1⟩
abbrev TINE_EVT_STATUS_DRILL_DEFER : Fld := ⟨0x7024, 9, 1⟩
abbrev TINE_EVT_STATUS_DUP : Fld := ⟨0x7024, 10, 1⟩
abbrev TINE_EVT_STATUS_MERGE_GAP : Fld := ⟨0x7024, 11, 1⟩
abbrev TINE_EVT_STATUS_NO_SPARE : Fld := ⟨0x7024, 12, 1⟩
abbrev EVU_CTRL_MSIX_EN : Fld := ⟨0x3000, 0, 1⟩
abbrev EVU_CTRL_AEN_EN : Fld := ⟨0x3000, 1, 1⟩
abbrev EVU_STATUS_PENDING : Fld := ⟨0x3004, 0, 11⟩
abbrev EVU_STATUS_LOG_HEAD : Fld := ⟨0x3004, 16, 10⟩
abbrev EVU_SEL_SRC : Fld := ⟨0x3008, 0, 11⟩
abbrev EVU_ROUTE_VECTOR (src : Nat) : Fld := ⟨bankBase + 0x1000 + src, 0, 11⟩
abbrev EVU_ROUTE_MSIX (src : Nat) : Fld := ⟨bankBase + 0x1000 + src, 11, 1⟩
abbrev EVU_ROUTE_PF (src : Nat) : Fld := ⟨bankBase + 0x1000 + src, 12, 1⟩
abbrev EVU_ROUTE_AEN (src : Nat) : Fld := ⟨bankBase + 0x1000 + src, 13, 1⟩
abbrev EVU_ROUTE_SB_EN (src : Nat) : Fld := ⟨bankBase + 0x1000 + src, 14, 1⟩
abbrev EVU_ROUTE_LOG_EN (src : Nat) : Fld := ⟨bankBase + 0x1000 + src, 15, 1⟩
abbrev EVU_ROUTE_FAULT (src : Nat) : Fld := ⟨bankBase + 0x1000 + src, 16, 1⟩
abbrev EVU_ROUTE_CLASS (src : Nat) : Fld := ⟨bankBase + 0x1000 + src, 17, 6⟩
abbrev EVU_GUAR_COVERED : Fld := ⟨0x3010, 0, 1⟩
abbrev EVU_GUAR_MODE_OK : Fld := ⟨0x3010, 1, 1⟩
abbrev EVU_GUAR_LIG : Fld := ⟨0x3010, 2, 1⟩
abbrev EVU_GUAR_ES : Fld := ⟨0x3010, 3, 1⟩
abbrev EVU_GUAR_PAIRED : Fld := ⟨0x3010, 4, 1⟩
abbrev EVU_GUAR_EXPOSED : Fld := ⟨0x3010, 5, 1⟩
abbrev EVU_SAFE_CAUSE : Fld := ⟨0x3014, 0, 8⟩
abbrev EVU_SAFE_MEDIA : Fld := ⟨0x3014, 8, 2⟩
abbrev EVU_EVT_STATUS_ROUTE_ERR : Fld := ⟨0x3018, 0, 1⟩
abbrev EVU_EVT_STATUS_LOG_WRAP : Fld := ⟨0x3018, 1, 1⟩
abbrev EVU_EVT_STATUS_AEN_WAIT : Fld := ⟨0x3018, 2, 1⟩
abbrev EVU_PEND_BITS (g : Nat) : Fld := ⟨0x3100 + 4 * g, 0, 32⟩
abbrev FOL_CTRL_SCRUB_EN : Fld := ⟨0x9000, 0, 1⟩
abbrev FOL_STATUS_LC : Fld := ⟨0x9004, 0, 3⟩
abbrev FOL_STATUS_BOOT_SLOT : Fld := ⟨0x9004, 3, 2⟩
abbrev FOL_STATUS_LC_BUSY : Fld := ⟨0x9004, 5, 1⟩
abbrev FOL_STATUS_SPARES : Fld := ⟨0x9004, 16, 10⟩
abbrev FOL_BOOT_SEQ_LO_SEQ : Fld := ⟨0x9008, 0, 32⟩
abbrev FOL_BOOT_SEQ_HI_SEQ : Fld := ⟨0x900C, 0, 32⟩
abbrev FOL_ECNT_SEL_SECTOR : Fld := ⟨0x9010, 0, 14⟩
abbrev FOL_ECNT_COUNT : Fld := ⟨0x9014, 0, 17⟩
abbrev FOL_ECNT_REMAPPED : Fld := ⟨0x9014, 17, 1⟩
abbrev FOL_FUSE_SEL_WORD : Fld := ⟨0x9018, 0, 8⟩
abbrev FOL_FUSE_LO_VAL : Fld := ⟨0x901C, 0, 32⟩
abbrev FOL_FUSE_HI_VAL : Fld := ⟨0x9020, 0, 32⟩
abbrev FOL_FUSE_MARGIN_MARGINAL : Fld := ⟨0x9024, 0, 1⟩
abbrev FOL_FUSE_MARGIN_RESOLVED : Fld := ⟨0x9024, 1, 1⟩
abbrev FOL_EVT_STATUS_FUSE_MARGIN : Fld := ⟨0x9028, 0, 1⟩
abbrev FOL_EVT_STATUS_FUSE_UNRES : Fld := ⟨0x9028, 1, 1⟩
abbrev FOL_EVT_STATUS_WORD_CE : Fld := ⟨0x9028, 2, 1⟩
abbrev FOL_EVT_STATUS_WORD_UE : Fld := ⟨0x9028, 3, 1⟩
abbrev FOL_EVT_STATUS_DIGEST_FAIL : Fld := ⟨0x9028, 4, 1⟩
abbrev FOL_EVT_STATUS_NO_SLOT : Fld := ⟨0x9028, 5, 1⟩
abbrev FOL_EVT_STATUS_SLOT_BAD : Fld := ⟨0x9028, 6, 1⟩
abbrev FOL_EVT_STATUS_SECTOR_REMAP : Fld := ⟨0x9028, 7, 1⟩
abbrev FOL_EVT_STATUS_SPARE_OUT : Fld := ⟨0x9028, 8, 1⟩
abbrev FOL_EVT_STATUS_LC_DONE : Fld := ⟨0x9028, 9, 1⟩
abbrev FOL_EVT_STATUS_LC_RESUMED : Fld := ⟨0x9028, 10, 1⟩
abbrev FOL_EVT_STATUS_COPY_CONFLICT : Fld := ⟨0x9028, 11, 1⟩
abbrev GCE_STATUS_BUSY : Fld := ⟨0x8000, 0, 1⟩
abbrev GCE_STATUS_ENTROPY_OK : Fld := ⟨0x8000, 1, 1⟩
abbrev GCE_STATUS_DET : Fld := ⟨0x8000, 2, 1⟩
abbrev GCE_LOCK_OWNER : Fld := ⟨0x8004, 0, 3⟩
abbrev GCE_LOCK_WAIT : Fld := ⟨0x8004, 4, 4⟩
abbrev GCE_DRBG_RESEEDS : Fld := ⟨0x8008, 0, 32⟩
abbrev GCE_EVT_STATUS_MISMATCH : Fld := ⟨0x800C, 0, 1⟩
abbrev GCE_EVT_STATUS_RECOMPUTE_FAIL : Fld := ⟨0x800C, 1, 1⟩
abbrev GCE_EVT_STATUS_ENTROPY_FAIL : Fld := ⟨0x800C, 2, 1⟩
abbrev GCE_EVT_STATUS_LOCK_TMO : Fld := ⟨0x800C, 3, 1⟩
abbrev GCE_EVT_STATUS_IV_LIMIT : Fld := ⟨0x800C, 4, 1⟩
abbrev BXL_CFG_HEAD : Fld := ⟨0xC000, 0, 1⟩
abbrev BXL_CFG_MASTER_EN : Fld := ⟨0xC000, 1, 1⟩
abbrev BXL_CFG_UP_EN : Fld := ⟨0xC000, 2, 1⟩
abbrev BXL_CFG_DN_EN : Fld := ⟨0xC000, 3, 1⟩
abbrev BXL_CFG_RELAY_EN : Fld := ⟨0xC000, 4, 1⟩
abbrev BXL_CFG_SWEEP_EN : Fld := ⟨0xC000, 5, 1⟩
abbrev BXL_STATUS_NODE_ID : Fld := ⟨0xC004, 0, 14⟩
abbrev BXL_STATUS_ID_VALID : Fld := ⟨0xC004, 14, 1⟩
abbrev BXL_STATUS_ID_STALE : Fld := ⟨0xC004, 15, 1⟩
abbrev BXL_STATUS_UP_LINK : Fld := ⟨0xC004, 16, 1⟩
abbrev BXL_STATUS_DN_LINK : Fld := ⟨0xC004, 17, 1⟩
abbrev BXL_STATUS_MASTER : Fld := ⟨0xC004, 18, 1⟩
abbrev BXL_STATUS_CONTENDED : Fld := ⟨0xC004, 19, 1⟩
abbrev BXL_MASTER_ID : Fld := ⟨0xC008, 0, 14⟩
abbrev BXL_MASTER_VALID : Fld := ⟨0xC008, 14, 1⟩
abbrev BXL_MASTER_HOPS : Fld := ⟨0xC008, 16, 14⟩
abbrev BXL_TIME_PERIOD : Fld := ⟨0xC00C, 0, 10⟩
abbrev BXL_ASYM_UP : Fld := ⟨0xC010, 0, 16⟩
abbrev BXL_ASYM_DN : Fld := ⟨0xC010, 16, 16⟩
abbrev BXL_DELAY_UP : Fld := ⟨0xC014, 0, 16⟩
abbrev BXL_DELAY_DN : Fld := ⟨0xC014, 16, 16⟩
abbrev BXL_SWEEP_RETRIES : Fld := ⟨0xC018, 0, 4⟩
abbrev BXL_SWEEP_LAST : Fld := ⟨0xC018, 8, 2⟩
abbrev BXL_SWEEP_OPEN_AFTER : Fld := ⟨0xC018, 16, 14⟩
abbrev BXL_RELAY_STATE : Fld := ⟨0xC01C, 0, 3⟩
abbrev BXL_RELAY_CHUNKS : Fld := ⟨0xC01C, 4, 10⟩
abbrev BXL_RELAY_REASON : Fld := ⟨0xC01C, 16, 8⟩
abbrev BXL_FW_STATUS_TRIAL : Fld := ⟨0xC020, 0, 1⟩
abbrev BXL_FW_STATUS_RUN_SLOT : Fld := ⟨0xC020, 1, 2⟩
abbrev BXL_FW_STATUS_PENDING : Fld := ⟨0xC020, 3, 2⟩
abbrev BXL_FW_STATUS_ROT_STEP : Fld := ⟨0xC020, 5, 2⟩
abbrev BXL_FW_STATUS_LAST_OUT : Fld := ⟨0xC020, 7, 2⟩
abbrev BXL_FW_STATUS_WD_S : Fld := ⟨0xC020, 16, 10⟩
abbrev BXL_FW_STATUS_REFUSE : Fld := ⟨0xC020, 26, 6⟩
abbrev BXL_ERR_CNT_UP_CRC : Fld := ⟨0xC024, 0, 16⟩
abbrev BXL_ERR_CNT_DN_CRC : Fld := ⟨0xC024, 16, 16⟩
abbrev BXL_EVT_STATUS_UP_LOSS : Fld := ⟨0xC028, 0, 1⟩
abbrev BXL_EVT_STATUS_DN_LOSS : Fld := ⟨0xC028, 1, 1⟩
abbrev BXL_EVT_STATUS_ENUM_DONE : Fld := ⟨0xC028, 2, 1⟩
abbrev BXL_EVT_STATUS_ENUM_LIMIT : Fld := ⟨0xC028, 3, 1⟩
abbrev BXL_EVT_STATUS_MASTER_CHG : Fld := ⟨0xC028, 4, 1⟩
abbrev BXL_EVT_STATUS_CONTENDED : Fld := ⟨0xC028, 5, 1⟩
abbrev BXL_EVT_STATUS_SWEEP_DONE : Fld := ⟨0xC028, 6, 1⟩
abbrev BXL_EVT_STATUS_SWEEP_OPEN : Fld := ⟨0xC028, 7, 1⟩
abbrev BXL_EVT_STATUS_CHUNK_BAD : Fld := ⟨0xC028, 8, 1⟩
abbrev BXL_EVT_STATUS_RELAY_ABORT : Fld := ⟨0xC028, 9, 1⟩
abbrev BXL_EVT_STATUS_RELAY_DONE : Fld := ⟨0xC028, 10, 1⟩
abbrev BXL_EVT_STATUS_UPD_REFUSED : Fld := ⟨0xC028, 11, 1⟩
abbrev BXL_EVT_STATUS_TRIAL_START : Fld := ⟨0xC028, 12, 1⟩
abbrev BXL_EVT_STATUS_CONFIRMED : Fld := ⟨0xC028, 13, 1⟩
abbrev BXL_EVT_STATUS_FALLBACK : Fld := ⟨0xC028, 14, 1⟩
abbrev BXL_EVT_STATUS_SET_RESET : Fld := ⟨0xC028, 15, 1⟩
abbrev BXL_EVT_STATUS_ROT_DONE : Fld := ⟨0xC028, 16, 1⟩
abbrev BXL_EVT_STATUS_FTK_INSTALLED : Fld := ⟨0xC028, 17, 1⟩
abbrev PWR_CTRL_DOZE_EN : Fld := ⟨0xA000, 0, 1⟩
abbrev PWR_STATUS_PS : Fld := ⟨0xA004, 0, 3⟩
abbrev PWR_STATUS_AP : Fld := ⟨0xA004, 3, 3⟩
abbrev PWR_STATUS_THERM_LATCH : Fld := ⟨0xA004, 6, 1⟩
abbrev PWR_STATUS_STEP : Fld := ⟨0xA004, 8, 5⟩
abbrev PWR_SEQ_PGOOD_MS : Fld := ⟨0xA008, 0, 8⟩
abbrev PWR_SEQ_MIN_OFF_MS : Fld := ⟨0xA008, 8, 8⟩
abbrev PWR_LAST_WAKE_SOURCE : Fld := ⟨0xA00C, 0, 4⟩
abbrev PWR_LAST_WAKE_STEP : Fld := ⟨0xA00C, 4, 5⟩
abbrev PWR_LAST_WAKE_OUTCOME : Fld := ⟨0xA00C, 9, 3⟩
abbrev PWR_LAST_WAKE_AP : Fld := ⟨0xA00C, 12, 3⟩
abbrev PWR_LAST_WAKE_LO_NS : Fld := ⟨0xA010, 0, 32⟩
abbrev PWR_LAST_WAKE_HI_NS : Fld := ⟨0xA014, 0, 32⟩
abbrev PWR_DOZE_PERIOD_PS3 : Fld := ⟨0xA018, 0, 10⟩
abbrev PWR_DOZE_PERIOD_PS4 : Fld := ⟨0xA018, 10, 10⟩
abbrev PWR_DOZE_MAX_DELAY : Fld := ⟨0xA018, 20, 8⟩
abbrev PWR_WIN_T_T_HIGH : Fld := ⟨0xA01C, 0, 8⟩
abbrev PWR_WIN_T_T_LOW : Fld := ⟨0xA01C, 8, 8⟩
abbrev PWR_WIN_V_V_LOW : Fld := ⟨0xA020, 0, 12⟩
abbrev PWR_AVS_VNOM : Fld := ⟨0xA024, 0, 8⟩
abbrev PWR_AVS_TMO_US : Fld := ⟨0xA024, 8, 10⟩
abbrev PWR_AVS_RETRY : Fld := ⟨0xA024, 18, 2⟩
abbrev PWR_AVS_STATUS_VSET : Fld := ⟨0xA028, 0, 8⟩
abbrev PWR_AVS_STATUS_VREAD : Fld := ⟨0xA028, 8, 8⟩
abbrev PWR_AVS_STATUS_PEND : Fld := ⟨0xA028, 16, 1⟩
abbrev PWR_PSD01_MP0 : Fld := ⟨0xA02C, 0, 16⟩
abbrev PWR_PSD01_MP1 : Fld := ⟨0xA02C, 16, 16⟩
abbrev PWR_PSD23_MP2 : Fld := ⟨0xA030, 0, 16⟩
abbrev PWR_PSD23_MP3 : Fld := ⟨0xA030, 16, 16⟩
abbrev PWR_PSD4_MP4 : Fld := ⟨0xA034, 0, 16⟩
abbrev PWR_EVT_STATUS_SEQ_CROSS : Fld := ⟨0xA038, 0, 1⟩
abbrev PWR_EVT_STATUS_DOZE_ENTER : Fld := ⟨0xA038, 1, 1⟩
abbrev PWR_EVT_STATUS_DOZE_ABORT : Fld := ⟨0xA038, 2, 1⟩
abbrev PWR_EVT_STATUS_DOZE_REFUSED : Fld := ⟨0xA038, 3, 1⟩
abbrev PWR_EVT_STATUS_WAKE : Fld := ⟨0xA038, 4, 1⟩
abbrev PWR_EVT_STATUS_AVS_TMO : Fld := ⟨0xA038, 5, 1⟩
abbrev PWR_EVT_STATUS_AVS_MISMATCH : Fld := ⟨0xA038, 6, 1⟩
abbrev PWR_EVT_STATUS_THERM_HOLD : Fld := ⟨0xA038, 7, 1⟩
abbrev THM_CTRL_THROTTLE_EN : Fld := ⟨0xB000, 0, 1⟩
abbrev THM_CTRL_ROR_EN : Fld := ⟨0xB000, 1, 1⟩
abbrev THM_STATUS_LEVEL : Fld := ⟨0xB004, 0, 2⟩
abbrev THM_STATUS_ROR : Fld := ⟨0xB004, 2, 1⟩
abbrev THM_STATUS_J_MAX : Fld := ⟨0xB004, 8, 8⟩
abbrev THM_STATUS_N_MAX : Fld := ⟨0xB004, 16, 8⟩
abbrev THM_STATUS_BAND_MAX : Fld := ⟨0xB004, 24, 3⟩
abbrev THM_LIMIT_J_J1_J3 : Fld := ⟨0xB008, 0, 24⟩
abbrev THM_LIMIT_N_N1_N3 : Fld := ⟨0xB00C, 0, 24⟩
abbrev THM_ROR_RATE : Fld := ⟨0xB010, 0, 8⟩
abbrev THM_ROR_HOLD_S : Fld := ⟨0xB010, 8, 4⟩
abbrev THM_ROR_ADVANCE : Fld := ⟨0xB010, 12, 8⟩
abbrev THM_SEL_SENSOR : Fld := ⟨0xB014, 0, 5⟩
abbrev THM_SENSOR_TEMP : Fld := ⟨0xB018, 0, 8⟩
abbrev THM_SENSOR_MAX : Fld := ⟨0xB018, 8, 8⟩
abbrev THM_SENSOR_MASKED : Fld := ⟨0xB018, 16, 1⟩
abbrev THM_EVT_STATUS_LEVEL_UP : Fld := ⟨0xB01C, 0, 1⟩
abbrev THM_EVT_STATUS_LEVEL_DOWN : Fld := ⟨0xB01C, 1, 1⟩
abbrev THM_EVT_STATUS_ROR : Fld := ⟨0xB01C, 2, 1⟩
abbrev THM_EVT_STATUS_SHUTDOWN : Fld := ⟨0xB01C, 3, 1⟩
abbrev THM_EVT_STATUS_SENSOR_FAIL : Fld := ⟨0xB01C, 4, 1⟩
abbrev THM_EVT_STATUS_BAND5 : Fld := ⟨0xB01C, 5, 1⟩
abbrev DEV_ID_PART : Fld := ⟨0x0000, 0, 16⟩
abbrev DEV_ID_STEPPING : Fld := ⟨0x0000, 16, 8⟩
abbrev DEV_ID_GRADE : Fld := ⟨0x0000, 24, 1⟩
abbrev DEV_MODE_MODE : Fld := ⟨0x0004, 0, 4⟩
abbrev DEV_MODE_MEDIA : Fld := ⟨0x0004, 4, 2⟩
abbrev DEV_MODE_GUAR : Fld := ⟨0x0004, 6, 1⟩
abbrev DEV_SEAL_SEAL : Fld := ⟨0x0008, 0, 1⟩
abbrev DEV_SEAL_SAVED : Fld := ⟨0x0008, 1, 1⟩
abbrev DEV_SEAL_HELD : Fld := ⟨0x0008, 2, 1⟩
abbrev DEV_CFG_AUTO_SEAL : Fld := ⟨0x000C, 0, 1⟩
abbrev DEV_RESET_DEVICE : Fld := ⟨0x0010, 0, 1⟩
abbrev DEV_CAUSE_CAUSE : Fld := ⟨0x0014, 0, 3⟩
abbrev DEV_EVT_STATUS_D5_CE : Fld := ⟨0x0018, 0, 1⟩
abbrev DEV_EVT_STATUS_D5_UE_MAP : Fld := ⟨0x0018, 1, 1⟩
abbrev DEV_EVT_STATUS_D5_UE : Fld := ⟨0x0018, 2, 1⟩
abbrev DEV_EVT_STATUS_SEALED_WR : Fld := ⟨0x0018, 3, 1⟩
abbrev DEV_EVT_STATUS_RST_DENIED : Fld := ⟨0x0018, 4, 1⟩
abbrev DEV_EVT_STATUS_SAVE_FAIL : Fld := ⟨0x0018, 5, 1⟩

end F

/-- Finds a register's descriptor by offset in one table. -/
def findReg (off : Nat) : List RegDesc → Option RegDesc
  | [] => none
  | r :: rs => if r.off == off then some r else findReg off rs

/-- The descriptor of the register at a 4-byte-aligned BAR2 offset, or none where no table lists one (R637). -/
def regDesc (off : Nat) : Option RegDesc :=
  match off / 0x1000 with
  | 0 => findReg off devRegs
  | 1 => findReg off rulRegs
  | 2 =>
    if 0x2400 ≤ off && off < 0x2800 then findReg ((off - 0x2400) % 8) profRegs else findReg off stkRegs
  | 3 => if 0x3100 ≤ off && off < 0x3100 + 160 && off % 4 == 0 then some evuPendReg else findReg off evuRegs
  | 4 => findReg off inkRegs
  | 5 => findReg off ligRegs
  | 6 => findReg off mapRegs
  | 7 => findReg off tineRegs
  | 8 => findReg off gceRegs
  | 9 => findReg off folRegs
  | 10 => findReg off pwrRegs
  | 11 => findReg off thmRegs
  | 12 => findReg off bxlRegs
  | 13 => if 0xD100 ≤ off && off < 0xD300 then findReg ((off - 0xD100) % 0x100) hpPortRegs else findReg off hpRegs
  | b => if 0x10 ≤ b && b < 0x40 then findReg (off % 0x1000) nibRegs else none

end Sys2Proof.Machine
end

