-- ==== Sys2Proof/Machine/Catalogue.lean ====
section
/-! DEFINITION. The Event Unit's sources (R511) and the fault catalogue (R504): which source a status bit is, which
catalogue class it detects, and the AER message of each class; and from them the reset value of every register,
the banked words included (R517, R210). -/

namespace Sys2Proof.Machine

/-- The AER class of a catalogue row: Corrected Internal Error, Uncorrectable Internal Error, or none. -/
inductive Aer where
  | none | corrected | uncorrectable
  deriving DecidableEq, Repr

/-- The event status registers of groups 0 to 15, in group order (R511). -/
def evtKeys : List Nat :=
  [0x104C, 0x2050, 0xD008, 0x4034, 0x6028, 0x6068, 0x5034, 0x7024, 0xA428, 0xA038, 0xB01C, 0x9028, 0x800C, 0xC028,
   0x0018, 0x3018]

/-- The Event Unit source that mirrors bit `bit` of the status register at `key` (R511): `32 g + bit` for a group
register, `512 + 16 n + bit` for a Nib's NIB_EVT_STATUS, and bit 15 of the Nib's half for NIB_Q_EVT_STATUS. -/
def sourceOf (key bit : Nat) : Option Nat :=
  if 0x10000 ≤ key && key < 0x40000 then
    let n := (key - 0x10000) / 0x1000
    match key % 0x1000 with
    | 0x090 => if bit < 15 then some (512 + 16 * n + bit) else none
    | 0x0B0 => some (512 + 16 * n + 15)
    | _ => none
  else
    match evtKeys.findIdx? (· == key) with
    | some g => some (32 * g + bit)
    | none => none

/-- A Nib window's key reduced to Nib 0's, so that one catalogue row serves all 48. -/
def nibKey0 (key : Nat) : Nat := if 0x10000 ≤ key && key < 0x40000 then 0x10000 + key % 0x1000 else key

/-- Each catalogue source with the class it detects (R504); a source with several IDs is listed with the first, and
the step that posts it names the ID that holds. Every status bit is a source, set whatever its routing (R75, R110, R241, R286, R321,
R397, R432, R466, R499, R588, R620); the IDs are those of R502 to R505 and R507. Log entry 77 (DEDUCED). -/
def catRows : List (Fld × Nat) :=
  [(F.RUL_EVT_STATUS_CNT_FAULT, 1), (F.RUL_EVT_STATUS_ANN_FAULT, 5), (F.RUL_EVT_STATUS_SRC_LOST, 6),
   (F.STK_EVT_STATUS_DEADLINE_MISS, 7), (F.STK_EVT_STATUS_LINE_MISSED, 8), (F.STK_EVT_STATUS_LUN_BUSY, 8),
   (F.NIB_EVT_STATUS_BUS_CONFLICT 0, 8), (F.NIB_EVT_STATUS_LAUNCH_LATE 0, 9), (F.STK_EVT_STATUS_SLOW_MARK, 10),
   (F.NIB_EVT_STATUS_TIMEOUT 0, 11), (F.STK_EVT_STATUS_FAIL_MARK, 12), (F.NIB_EVT_STATUS_UNRESPONSIVE 0, 12),
   (F.LIG_EVT_STATUS_LUN_RETIRE, 12), (F.NIB_EVT_STATUS_TRAIN_FAIL 0, 13), (F.NIB_EVT_STATUS_BUS_FAULT 0, 13),
   (F.NIB_EVT_STATUS_NIB_MASK 0, 13), (F.LIG_EVT_STATUS_CHAN_MASK, 13), (F.NIB_Q_EVT_STATUS_MCHK 0, 14)] ++
  [(F.LIG_EVT_STATUS_SOFT, 15), (F.LIG_EVT_STATUS_RETRY, 15), (F.LIG_EVT_STATUS_REBUILT, 16),
   (F.LIG_EVT_STATUS_MISDIRECT, 16), (F.LIG_EVT_STATUS_LOST, 17), (F.LIG_EVT_STATUS_BLOCK_RETIRE, 18),
   (F.PWR_HU_EVT_STATUS_BLT_RETIRE, 18), (F.LIG_EVT_STATUS_ACC_UE, 19), (F.INK_EVT_STATUS_CELL_CE, 20),
   (F.INK_EVT_STATUS_CELL_UE, 21), (F.INK_EVT_STATUS_BANK_MASK, 22), (F.INK_EVT_STATUS_CONSERVE, 23),
   (F.INK_EVT_STATUS_LANE_MISMATCH, 24), (F.INK_EVT_STATUS_LANE_MASK, 25), (F.DEV_EVT_STATUS_D5_CE, 26),
   (F.DEV_EVT_STATUS_D5_UE_MAP, 27), (F.DEV_EVT_STATUS_D5_UE, 27), (F.MAP_EVT_STATUS_CRC_ERR, 28)] ++
  [(F.MAP_CP_EVT_STATUS_ROOT_BAD, 29), (F.MAP_CP_EVT_STATUS_ROOT_CONFLICT, 30), (F.MAP_CP_EVT_STATUS_CKPT_SLOW, 31),
   (F.MAP_EVT_STATUS_GEOM, 32), (F.LIG_EVT_STATUS_RATE_ADJ, 32), (F.NIB_Q_EVT_STATUS_SET_CONFLICT 0, 33),
   (F.HP_EVT_STATUS_SPEED_DEGR, 34), (F.HP_EVT_STATUS_WIDTH_DEGR, 34), (F.HP_EVT_STATUS_POISON_OUT, 35),
   (F.HP_EVT_STATUS_INV_LATE, 36), (F.PWR_HU_EVT_STATUS_TEST_FAIL, 37), (F.PWR_HU_EVT_STATUS_ES_FAIL, 37),
   (F.PWR_HU_EVT_STATUS_BLT_LOST, 38), (F.TINE_EVT_STATUS_RESIGN, 39), (F.TINE_EVT_STATUS_STBY_RESIGN, 40),
   (F.TINE_EVT_STATUS_DIVERGE, 40)] ++
  [(F.TINE_EVT_STATUS_SELFTEST_FAIL, 41), (F.TINE_EVT_STATUS_MASK, 41), (F.TINE_EVT_STATUS_MERGE_GAP, 42),
   (F.TINE_EVT_STATUS_NO_SPARE, 43), (F.FOL_EVT_STATUS_FUSE_MARGIN, 44), (F.FOL_EVT_STATUS_FUSE_UNRES, 45),
   (F.FOL_EVT_STATUS_WORD_CE, 46), (F.FOL_EVT_STATUS_WORD_UE, 46), (F.FOL_EVT_STATUS_DIGEST_FAIL, 46),
   (F.FOL_EVT_STATUS_NO_SLOT, 47), (F.GCE_EVT_STATUS_MISMATCH, 48), (F.GCE_EVT_STATUS_RECOMPUTE_FAIL, 48),
   (F.PWR_EVT_STATUS_AVS_TMO, 49), (F.THM_EVT_STATUS_SENSOR_FAIL, 50), (F.NIB_EVT_STATUS_TEMP_STALE 0, 50),
   (F.BXL_EVT_STATUS_UP_LOSS, 51), (F.BXL_EVT_STATUS_DN_LOSS, 51)]

/-- The catalogue class of a status bit, or 0 for a source outside the catalogue. -/
def classOf (f : Fld) : Nat :=
  match catRows.find? (fun r => r.1.key == nibKey0 f.key && r.1.lo == f.lo) with
  | some r => r.2
  | none => 0

/-- The AER message of a catalogue class (R504); IDs 27 and 32 depend on the outcome and the poster says which. -/
def classAer (c : Nat) : Aer :=
  if [3, 4, 30, 33, 38, 42, 43, 45, 47].contains c then .uncorrectable
  else if [0, 6, 10, 15, 20, 26, 31, 51].contains c || 51 < c then .none
  else .corrected

/-- The class that EVU_ROUTE.CLASS shows for a source (R517, R677: bit 15 of a Nib half reads 14). -/
def sourceClass (src : Nat) : Nat :=
  let hit (r : Fld × Nat) : Bool :=
    if 512 ≤ src then
      let b := (src - 512) % 16
      if b = 15 then r.1.key == 0x100B0 && r.1.lo == 0 else r.1.key == 0x10090 && r.1.lo == b
    else sourceOf r.1.key r.1.lo == some src && r.1.key < 0x10000
  match catRows.find? hit with
  | some r => r.2
  | none => 0

/-- The reset routing word of a source (R517): catalogue sources have AEN, SB_EN and FAULT 1 and their class;
LOG_EN is 1 for every source. -/
def routeReset (src : Nat) : Nat :=
  let c := sourceClass src
  if c = 0 then 0x8000 else 0x1E000 + c * 2 ^ 17

/-- The fixed owners' minimum, maximum and age limit in units of 10 ms (R210), and the dynamic owners' defaults. -/
def ownerDefaults (o : Nat) : Nat × Nat × Nat :=
  match o with
  | 0 => (16384, 81920, 1000)
  | 1 => (8192, 65536, 100)
  | 2 => (1024, 4096, 1000)
  | 3 => (4096, 16384, 1000)
  | 4 => (8192, 32768, 1000)
  | 5 => (512, 2048, 6000)
  | 6 => (1024, 4096, 1000)
  | 7 => (2048, 8192, 1000)
  | 8 => (1024, 4096, 6000)
  | _ => if 16 ≤ o && o < 64 then (128, 1024, 100) else if 64 ≤ o then (0, 4096, 1000) else (0, 0, 0)

/-- The reset value of a banked word beyond BAR2. -/
def bankReset (k : Nat) : Nat :=
  if k < 0x400 then (ownerDefaults k).1
  else if k < 0x800 then (ownerDefaults (k - 0x400)).2.1
  else if k < 0xC00 then (ownerDefaults (k - 0x800)).2.2
  else if 0x1000 ≤ k && k < 0x1000 + 1280 then routeReset (k - 0x1000)
  else 0

/-- The value every register key holds at the start of BOOT (R638). -/
def regReset (key : Nat) : Word :=
  if bankBase ≤ key then BitVec.ofNat 32 (bankReset (key - bankBase))
  else
    match regDesc key with
    | some d => BitVec.ofNat 32 d.reset
    | none => 0

end Sys2Proof.Machine
end

