-- ==== Sys2Proof/Machine/Sparse.lean ====
section
/-! DEFINITION. Sparse stores in one canonical form: pairs of a key and a value with strictly rising keys, no entry equal
to what an unlisted key reads as. The register file and the microcode windows are such stores. -/

namespace Sys2Proof.Machine

/-- What a sparse store holds at a key: the listed value, or the default of an unlisted key. -/
def sget {α : Type} (d : Nat → α) : List (Nat × α) → Nat → α
  | [], k => d k
  | (k', v) :: m, k => if k' = k then v else sget d m k

/-- Removes what is listed at a key. -/
def sdel {α : Type} : List (Nat × α) → Nat → List (Nat × α)
  | [], _ => []
  | (k', v) :: m, k => if k' = k then sdel m k else (k', v) :: sdel m k

/-- Lists a value at a key, in key order. -/
def sins {α : Type} : List (Nat × α) → Nat → α → List (Nat × α)
  | [], k, v => [(k, v)]
  | (k', v') :: m, k, v =>
    if k < k' then (k, v) :: (k', v') :: m
    else if k = k' then (k, v) :: m
    else (k', v') :: sins m k v

/-- Stores a value: the default removes the entry, any other value is listed. -/
def sset {α : Type} [DecidableEq α] (d : Nat → α) (m : List (Nat × α)) (k : Nat) (v : α) : List (Nat × α) :=
  if v = d k then sdel m k else sins m k v

/-- The canonical form: every key above `lo`, strictly rising, and no listed default. -/
def sortedAbove {α : Type} : Option Nat → List (Nat × α) → Bool
  | _, [] => true
  | none, (k, _) :: m => sortedAbove (some k) m
  | some lo, (k, _) :: m => lo < k && sortedAbove (some k) m

/-- The canonical form of a sparse store. -/
def swf {α : Type} [DecidableEq α] (d : Nat → α) (m : List (Nat × α)) : Bool :=
  sortedAbove none m && m.all (fun e => e.2 != d e.1)

end Sys2Proof.Machine
end

