-- ==== Sys2Proof/Machine/State.lean ====
section
/-! DEFINITION. The machine's state: plain data, one structure per chapter of the spec, every field with the rule that
names it; the reasons a step can stop; and the state right after reset. -/

namespace Sys2Proof.Machine

/-- The eight modes (R4). -/
inductive Mode where
  | off | boot | run | degraded | trial | doze | holdUp | safe
  deriving DecidableEq, Repr

/-- The mode's code in DEV_MODE.MODE (R4). -/
def Mode.code : Mode → Nat
  | .off => 0 | .boot => 1 | .run => 2 | .degraded => 3 | .trial => 4 | .doze => 5 | .holdUp => 6 | .safe => 7

/-- A ruling stamp (R59): integer nanoseconds, the uncertainty in ns and the class code. -/
structure Stamp where
  ns : Nat := 0
  unc : Nat := 65535
  cls : Nat := 3
  deriving DecidableEq, Repr

/-- A health-log entry of log page 0xC2 (R516). -/
structure LogEntry where
  stamp : Stamp
  source : Nat
  cls : Nat
  mode : Nat
  unit : Nat
  count : Nat
  detail : Nat
  deriving DecidableEq, Repr

/-- A message that an Event Unit source's routing sends (R513). -/
inductive EvtMsg where
  | msix (pf vector : Nat)
  | aer (cls : Aer)
  | alert (source : Nat)
  | aen (pfOf : Nat) (group : Nat)
  deriving DecidableEq, Repr

/-- The Event Unit (chapter 14). -/
structure Evu where
  log : List LogEntry := []  -- R512, R516: the health-log ring, newest first, at most 1,024 entries of 32 bytes
  total : Nat := 0  -- R516: entries written since BOOT (LOG_TOTAL; the next ring index is total mod 1,024)
  wasRead : Bool := false  -- R517: log page 0xC2 has been read since the last overwrite (for LOG_WRAP)
  classCnt : List Nat := List.replicate 64 0  -- R516: CLASS_CNT, 64 counts of 32 bits, one per catalogue ID
  aenOut : List (Nat × Nat) := []  -- R514: events posted and not yet cleared, per controller and group
  aenWait : List (Nat × Nat × Nat) := []  -- R514: events waiting for a request: controller, group and the count since which each waits
  waiting : List EvtMsg := []  -- R515: messages held in BOOT until CSTS.RDY
  deferred : List (Nat × Nat × Nat) := []  -- R515: sources that occurred in DOZE and post on wake (key, bit, unit)
  deriving DecidableEq, Repr

/-- Completion statuses, by the names the spec gives them. -/
inductive Status where
  | success
  | invalidOpcode | invalidField | invalidNamespace | lbaRange | namespaceNotReady | cmdSeqError
  | writeProtected | reservationConflict | abortRequested | abortedPreempt | failedFused | missingFused
  | dataTransfer | transientTransport | internalError | capacityExceeded | sglInvalid | prpOffsetInvalid
  | invalidQueueId | invalidQueueSize | abortLimit | aerLimit | invalidFwSlot | invalidFwImage | fwNeedsReset
  | overlappingRange | invalidLogPage | featureNotSaveable | nsIdUnavailable | nsAlreadyAttached | nsNotAttached
  | nsInsufficientCapacity | invalidFormat | sanitizeInProgress | sanitizeFailed | invalidPlacementHandle
  | commandInterrupted | unrecoveredRead | compareFailure | accessDenied | deallocatedBlock | invalidQueueDeletion | invalidVector | completionQueueInvalid
  | controllerListInvalid | abortedSqDeletion | invalidInputSize
  | deadlineNotAdmissible | cutRefused | updateRefused | authorityElsewhere | rulingUnsync | poisonedData
  deriving DecidableEq, Repr

/-- What a stroke is for: the result of its completion goes there. -/
inductive Purpose where
  | fetch (id : Nat)  -- R329: an attempt of a unit's decode ladder
  | tlc (id : Nat)  -- R259, R339: a wordline's program, data or parity
  | blotter (group : Nat)  -- R24, R447: a Blotter page program
  | rowParity (set slot row : Nat)  -- R445: a Blotter row's parity program
  | eraseBand (band : Nat)  -- R270: a band's block on this LUN
  | eraseSlot (set slot : Nat)  -- R449: a Blotter slot's block on this LUN
  | eraseBlock (block : Nat)  -- R280: a block erased by sanitize
  | temp  -- R378: a temperature reading
  | script (kind : Nat)  -- R420: a Scriptorium script that is no retry step
  | status  -- R377: a status stroke
  | suspendOf (req : Nat)  -- R95
  | resumeOf (req : Nat)  -- R96
  deriving DecidableEq, Repr

/-- One ruling counter (R36): the count in 1/256 ns, the line index and the modulo-3 residue held with them. -/
structure Counter where
  count : Nat := 0  -- R35: 64-bit ns with an 8-bit fraction, held in units of 1/256 ns
  line : Nat := 0  -- R38: line pulses issued since BOOT began
  res : Nat := 0  -- R36, R38: modulo-3 residue of count and line index
  deriving DecidableEq, Repr

/-- What qualifies one outside source (R49). -/
structure SrcState where
  qual : Bool := false  -- R49: the source is qualified
  recent : List Int := []  -- R49: the newest valid samples' offsets in 1/256 ns, newest first, at most four
  lastAt : Nat := 0  -- R49, R58: the count at the last valid sample
  off : Int := 0  -- R52: the last measured offset, 1/256 ns
  bad : Nat := 0  -- R49: consecutive edges off their instant, or consecutive failed dialogs
  owed : Bool := false  -- R671: it was qualified when the Ruling stopped, and has neither qualified again nor been declared lost since
  deriving DecidableEq, Repr

/-- A step decided and not yet applied (R68). -/
structure StepPlan where
  size : Nat  -- R68: S in 1/256 ns, a multiple of the pitch
  line : Nat  -- R68: the line index at which it is applied, 64 lines after the decision
  src : Src  -- R69: the source it was measured from
  ref : Option Ref  -- R67: the command that completes at the step line
  deriving DecidableEq, Repr

/-- One island's ruling copy (R44, R45). -/
structure Island where
  fifo : List (Nat × Nat) := []  -- R44: announcements in the handshake FIFO, oldest first: line index and count in 1/256 ns
  taken : List (Nat × Nat) := []  -- R44: announcements taken whose line has not come
  last : Option Nat := none  -- R44: the previous announcement taken
  base : Nat := 0  -- R45: the count that the last pulse set
  ticks : Nat := 0  -- R45: local ticks since the last pulse
  cal : Nat := 0  -- R45: local ticks counted between the two previous pulses, 0 before two were counted
  pulsed : Bool := false  -- R45: a pulse has come since lines started
  copy : Nat := 0  -- R45: the island's ruling copy
  deriving DecidableEq, Repr

/-- The Ruling island (chapter 2). -/
structure Rul where
  a : Counter := {}  -- R36: Count A
  b : Counter := {}  -- R36: Count B
  maskA : Bool := false  -- R37: Count A masked out
  maskB : Bool := false  -- R37: Count B masked out
  failA : Option Nat := none  -- R37: the count at Count A's last residue failure, for the 24 h rule
  failB : Option Nat := none  -- R37: the count at Count B's last residue failure
  running : Bool := true  -- R72: the counters run (false in OFF and DOZE, and after R39)
  acc : Nat := 0  -- R41: the part of the increment below 1/256 ns
  nextLine : Nat := 0  -- R42: the count of the next ruling line
  freq : Int := 0  -- R51: frequency term, 1/256 ppb
  phase : Int := 0  -- R51: phase term, 1/256 ppb
  follow : Src := .holdover  -- R50: the source followed
  phaseSrc : Src := .holdover  -- R47, R52: the source that supplies phase
  validAt : Option Nat := none  -- R76: the count at the last valid sample, none before the first since BOOT
  lock : Bool := false  -- R52: locked to the source that supplies phase
  back : Bool := false  -- R65: BACK_FLAG
  cls : Nat := 3  -- R57: class code in force
  offset : Int := 0  -- R52: last measured offset of the followed source, 1/256 ns, reference minus ruling
  uncBase : Nat := 65535 * 256  -- R58: uncertainty at the last valid sample, 1/256 ns
  uncAt : Nat := 0  -- R58: the count that uncBase belongs to
  growth : Nat := 0  -- R58: growth in force, ns per second
  lockOut : Nat := 0  -- R52: consecutive samples beyond twice the threshold
  lockedAt : Option Nat := none  -- R58: the count at which the present lock began
  settled : Bool := false  -- R58: the frequency term was locked for 1,000 s before the last valid sample
  sync : SrcState := {}  -- R49: SYNC_IN
  bxl : SrcState := {}  -- R49: Brynnyx
  ptm : SrcState := {}  -- R49: PTM
  lastEdge : Option Nat := none  -- R49: the count at the last accepted SYNC_IN edge
  tod : Option (Nat × Nat) := none  -- R53: armed TAI seconds and the count at the arming
  todSec : Option Nat := none  -- R53: seconds of the last edge while time of day runs
  dialog : List Nat := []  -- R49, R143: ports with a PTM dialog open
  dialogAt : Nat := 0  -- R143, R144: the count at the start of the last PTM dialog
  step : Option StepPlan := none  -- R68: the decided step
  lastStep : Stamp := { ns := 0, unc := 0, cls := 0 }  -- R76: stamp before the last step, all 0 if none since BOOT
  stepNs : Nat := 0  -- R76: size of that step, ns
  syncOut : Bool := false  -- R70: level of the SYNC_OUT ball
  syncFall : Nat := 0  -- R70: the count at which the pulse that runs ends
  snapHi : Nat := 0  -- R74: RUL_NOW_HI latched by a read of RUL_NOW_LO
  snapAux : Nat := 0xFFFF0003  -- R74: RUL_NOW_AUX latched by a read of RUL_NOW_LO
  latchHi : List (Nat × Nat) := []  -- R636: upper registers latched by a read of their lower register
  islands : List (Nat × Island) := []  -- R44: the islands' copies, by island number
  resumedAt : Nat := 0  -- R671: the count at the last start or resumption
  hops : Nat := 0  -- R76: Brynnyx hops to the time master
  aonTicks : Nat := 0  -- R61: the 48-bit counter of the always-on island, as the last resumption found it
  stopped : Option Stamp := none  -- R61: count, uncertainty and class kept by the always-on island
  deriving DecidableEq, Repr

/-- The operation kinds of a stroke (R77). -/
inductive StrokeOp where
  | read | readSoft | program | erase | suspend | resume | status | feature | script
  deriving DecidableEq, Repr

/-- One segment of a current profile (R83, R84): current in mA, shortest and longest duration in ns, and whether it holds
the channel bus. -/
structure Seg where
  cur : Nat
  min : Nat
  max : Nat
  bus : Bool
  deriving DecidableEq, Repr

/-- Where a stroke stands: `held` is a request that its producer keeps back at the limit of R106. -/
inductive StrokePhase where
  | held | waiting | placed | launched | suspended
  deriving DecidableEq, Repr

/-- A stroke, from the request to the consumed completion (R77 to R87). -/
structure Stroke where
  req : Nat  -- R78: 64-bit request number
  op : StrokeOp  -- R77
  cls : Nat  -- R77: class now, 0 to 5
  cls0 : Nat  -- R79: class before promotion
  lun : Nat  -- R190: LUN index c × 64 + t × 8 + l
  prof : Nat  -- R80: profile slot 0 to 15
  planes : Nat := 15  -- R80: plane mask
  suspOk : Bool := false  -- R80, R95: SUSP_OK
  around : Bool := false  -- R80: AROUND
  rescue : Bool := false  -- R80: RESCUE
  slc : Bool := false  -- R80: SLC mode
  row : Nat := 0  -- R80: row address
  col : Nat := 0  -- R80: column address
  qentry : Nat := 0  -- R80: Quill entry
  chain : Option Nat := none  -- R80: Inkwell chain
  len : Nat := 0  -- R80: length in 512-byte cells
  deadline : Option Nat := none  -- R80: deadline end in ns, for class 1
  phase : StrokePhase := .waiting
  due : Nat := 0  -- R81: due line, ns
  seq : Nat := 0  -- R80: ring SEQ given at placement
  since : Nat := 0  -- R79: count since which the stroke has waited for placement
  segs : List Seg := []  -- R85, R672: the charge's segments
  launchedAt : Nat := 0  -- R95: count at launch or last resumption
  ran : Nat := 0  -- R672: time run before the suspension, ns
  susp : Nat := 0  -- R95: suspensions so far
  reads : Nat := 0  -- R96: reads placed in this suspension
  overran : Bool := false  -- R86: overran
  accepted : Bool := false  -- R370: the Nib has accepted the descriptor
  ctx : Option Nat := none  -- R400: the Quill context that runs it
  forCap : Bool := false  -- R93, R672: a SUSPEND made to meet a lowered cap
  susCls : Nat := 5  -- R77: class of the SUSPEND that suspended it, which its RESUME takes
  tag : Nat := 0  -- R80: stroke tag, returned in the completion descriptor
  desc : List (Nat × Nat × Nat) := []  -- R80: the descriptor written into the ring: offset, width in bytes and value of each field
  parent : Option Nat := none  -- the operation that a SUSPEND or RESUME is about
  purpose : Purpose
  deriving DecidableEq, Repr

/-- An admitted deadline read (R98 to R102). -/
structure Admitted where
  ref : Ref
  luns : List Nat  -- R98: the LUNs it touches
  tEnd : Nat  -- R98: deadline end, ns
  w : Nat  -- R98: predicted worst case, ns
  cur : Nat  -- R99: rescue allowance, mA, over w to w plus the rescue term
  rescue : Bool := true  -- R99: the allowance is still committed
  lines : List (Nat × Nat × List Seg) := []  -- R98, R99: the lines committed for its strokes that are not placed: LUN, line and segments
  entries : Nat := 0  -- R98: class 0 and 1 entries it holds
  deriving DecidableEq, Repr

/-- A LUN's busy-time statistics and marks (R103, R104, R190). -/
structure LunStat where
  lun : Nat
  cnt : List Nat := [0, 0, 0, 0, 0]  -- R103: strokes in the window, per operation class
  sum : List Nat := [0, 0, 0, 0, 0]  -- R103: busy time in the window, ns, per operation class
  means : List Nat := [0, 0, 0, 0, 0]  -- R190: means of the last window, ns
  ratio : Nat := 0  -- R190: ratio × 16 of the last window, 0 when none
  quot : Nat × Nat := (0, 1)  -- R98, R103: the last ratio formed, as a fraction
  done : Nat := 0  -- R190: strokes completed in the window
  strokes : Nat := 0  -- R190: strokes completed in the last window
  overran : Nat := 0  -- R86: overruns in the window, counted toward slow marking
  slowRun : Nat := 0  -- R104: consecutive windows above SLOW
  clearRun : Nat := 0  -- R104: consecutive windows below CLEAR
  failRun : Nat := 0  -- R104: consecutive windows above FAIL
  slow : Bool := false  -- R104: marked slow
  failed : Bool := false  -- R104: marked failed
  deriving DecidableEq, Repr

/-- The Stroke Scheduler (chapter 3). -/
structure Stk where
  strokes : List Stroke := []  -- R106: pending and placed strokes, in request order
  nextReq : Nat := 0  -- R78: next request number
  ringSeq : List (Nat × Nat) := []  -- R80: next SEQ of each Nib's ring
  acct : Nat := 0  -- R88: first line of the per-line account, ns
  hostCap : Nat := 0  -- R92: host envelope cap, 50 mA units, 0 none
  admitted : List Admitted := []  -- R102: at most 4,096
  stats : List LunStat := []  -- R103
  nAdmitted : Nat := 0  -- R190: deadline reads admitted since BOOT
  nRefused : Nat := 0  -- R190: refused with 0x80
  nMissed : Nat := 0  -- R190: completed late
  nAround : Nat := 0  -- R190: reads served by read-around
  nOverrun : Nat := 0  -- R190: overruns
  windowEnd : Stamp := {}  -- R190: stamp of the last window's end
  rdLat : List Nat := []  -- R190: host read latencies in the window, ns
  wrLat : List Nat := []  -- R190: host write latencies in the window, ns
  pct : List Nat := [0, 0, 0, 0]  -- R190: RD_P50, RD_P9999, WR_P50, WR_P9999 of the last window
  deriving DecidableEq, Repr

/-- Where one IU of a read takes its blocks from (R31, R253). -/
inductive RdSrc where
  | zeros  -- R246: UNMAPPED
  | uncorr  -- R246, R252
  | cells (rec mask : Nat)  -- R253: an in-flight record's sectors
  | media (addr : Nat)  -- R246: MAPPED
  | got  -- the unit has been read into cells
  | page (nsid page : Nat)  -- R250: its map page is being read
  deriving DecidableEq, Repr

/-- One IU of a read. -/
structure RdIu where
  iu : Nat
  need : Nat  -- sectors wanted, bit per sector
  srcs : List RdSrc
  orig : List RdSrc := []  -- R31, R228: where its content as of the latch is found again
  started : Bool := false  -- its strokes have been issued
  poison : Nat := 0  -- R28, R32: sectors that carry the poison mark, bit per sector
  lost : Bool := false  -- R252: a sector reads as Unrecovered Read Error
  deriving DecidableEq, Repr

/-- One 256 KiB segment of a transfer (R219). -/
structure Segment where
  lo : Nat  -- its first logical block
  n : Nat  -- blocks
  chain : Option Nat := none  -- R219: its cells
  twin : Option Nat := none  -- R227
  twinDue : Bool := false  -- R227: its twin waits for cells
  asked : Bool := false  -- R214: its cells are granted or waited for
  fetched : Bool := false  -- R127: the host's data has arrived
  started : Bool := false  -- R219: its strokes or reads have been issued
  deriving DecidableEq, Repr

/-- What an I/O command is. -/
inductive CmdKind where
  | write | read | compare | flush
  | deallocate | writeZeroes | writeUncorr
  deriving DecidableEq, Repr

/-- An I/O command from its latch to its completion (chapter 5). -/
structure Cmd where
  ref : Ref
  kind : CmdKind
  nsid : Nat
  slba : Nat := 0
  n : Nat := 0  -- blocks
  ranges : List (Nat × Nat) := []  -- R274: ranges of a Dataset Management
  latch : Nat := 0  -- R29: count at the latch, 1/256 ns
  ink : Option Nat := none  -- R164: ink time
  fua : Bool := false  -- R171
  wp : Nat := 8  -- R264: write point
  gate : Option Ref := none  -- R166: the compare that gates this write
  same : Bool := true  -- R166: the compare's data agree
  parked : Bool := false  -- R166: a fused compare whose write is not stamped
  ticket : Option Nat := none  -- R275
  segs : List Segment := []  -- R219
  ius : List RdIu := []  -- R31
  left : List Nat := []  -- logical blocks that no lane has finished
  holds : List Nat := []  -- R217: write chains that a read is served from
  placed : Bool := false  -- R183, R198: a stroke of it has been placed
  retry : List Nat := []  -- R232: blocks in their second attempt
  deadline : Option Nat := none  -- R98: deadline end, ns
  poison : List Nat := []  -- R28: sectors of the command that arrived with EP set
  records : List Nat := []  -- R252: in-flight records stamped for it
  zero : Bool := false  -- R252: the written blocks are zeros
  wunc : Bool := false  -- R252: the written blocks carry the write-uncorrectable mark
  wet : Bool := false  -- R173: its map-change record is not dry
  deriving DecidableEq, Repr



/-- A PCIe port (chapter 4). -/
structure Port where
  perst : Bool := true  -- R146: PERST_N is asserted
  training : Bool := false  -- R148: link training runs
  cfg : Bool := false  -- R148: configuration space is ready
  settled : Nat × Nat := (0, 0)  -- R114: rate and width at which the link last settled
  tried : Nat := 0  -- R115: count at the last automatic retrain
  deriving DecidableEq, Repr

/-- An entry of a port's address translation cache (R139). -/
structure Xlat where
  port : Nat
  fn : Nat
  page : Nat  -- R139: 4 KiB page of the untranslated address
  dest : Nat
  used : Nat  -- R139: count at its last use
  deriving DecidableEq, Repr

/-- An Invalidate Request in progress or done (R140, R141). -/
structure Inval where
  port : Nat
  itag : Nat
  fn : Nat
  lo : Nat  -- first page
  n : Nat  -- pages
  at_ : Nat  -- R141: count at its receipt
  waits : List Nat := []  -- R140: numbers of the requests issued with a covered translation and not completed
  step2 : Option Nat := none  -- R140: count at the end of step 2
  sent : Bool := false  -- R140: the Invalidate Completion has left
  deriving DecidableEq, Repr

/-- A memory read request that is outstanding (R117, R140). -/
structure OutReq where
  no : Nat  -- its number, in order of issue
  page : Option Nat  -- R140: the page whose translation it used, none for an untranslated or unknown address
  at_ : Nat  -- R136: the port's count at its issue
  deriving DecidableEq, Repr

/-- A memory access of the Host Port and its requests (R117, R128, R134, R139, R160): those that wait, by 4 KiB page (none where the
model does not hold the address), and those that are outstanding. -/
structure MemAcc where
  port : Nat
  fn : Nat
  what : MemRead
  slots : List Nat := []  -- R160: the queue slots that it fetches
  todo : List (Option Nat) := []
  out : List OutReq := []
  tried : Bool := false  -- R128, R134: it is the second try
  asked : Bool := false  -- R139: the translation of its next request is asked for
  deriving DecidableEq, Repr

/-- A function's AER capability (R135). -/
structure AerCap where
  fn : Nat
  errs : List AerErr := []  -- status bits that are set
  first : Option AerErr := none  -- the error whose header is held
  header : Nat := 0  -- R128, R135: Header Log, four DW
  tlpPrefix : Nat := 0  -- R135: TLP Prefix Log
  deriving DecidableEq, Repr

/-- The host port (chapter 4). -/
structure Hp where
  ports : List Port := [{}, {}]  -- R111
  sampled : Bool := false  -- R111: HP_DUAL_STRAP has been sampled in this BOOT
  vfs : List Nat := [0, 0]  -- R122: VFs that the host has enabled on PF0 and PF1
  ats : List Nat := []  -- R139: controllers with ATS enabled
  atc : List Xlat := []  -- R139: at most 8,192 entries for each port
  invals : List Inval := []  -- R140, R141: Invalidate Requests, oldest first
  d3hot : List Nat := []  -- R120: functions in D3hot
  msix : List Nat := []  -- R137: functions with MSI-X enabled
  msi : List Nat := []  -- R137: functions with MSI enabled
  fns : List FnCfg := []  -- R116, R123, R135 to R138: functions whose settings are not the defaults
  vecOpen : List (Nat × Nat) := []  -- R138: unmasked MSI-X vectors (function, vector)
  msiMask : List (Nat × Nat) := []  -- R137: masked MSI vectors
  intMask : List (Nat × Nat) := []  -- R137: vectors masked by INTMS
  vecPend : List (Nat × Nat) := []  -- R138: pending bits of vectors
  ptm : List Nat := []  -- R55, R143: ports with PTM enabled on the function that owns the requester
  strap : Bool := false  -- R111: level of HP_DUAL_STRAP
  aer : List AerCap := []  -- R128, R135: AER capabilities that have logged an error
  tlps : Nat := 0  -- the model's own: TLP headers logged so far
  reads : List MemAcc := []  -- R117: memory accesses whose requests wait or are outstanding, oldest first
  reqs : Nat := 0  -- R117: memory read requests issued so far
  ptrs : List (Ref × Bool × List (Nat × Nat)) := []  -- R130: data pointers of the commands fetched; whether they come from an SGL
  flr : List Nat := []  -- R146: functions whose configuration space a Function Level Reset has reset
  doe : List Nat := [0, 0]  -- R145: each PF's DOE mailbox, 0 idle, 1 busy, 2 error
  deriving DecidableEq, Repr

/-- A submission queue (R153 to R157). -/
structure Sq where
  ctrl : Nat
  qid : Nat
  size : Nat  -- R154: entries
  prio : Nat := 0  -- R161: QPRIO, 0 Urgent to 3 Low
  cqid : Nat := 0
  head : Nat := 0  -- R159: entries fetched so far, modulo the size
  tail : Nat := 0  -- R157: last valid tail
  active : Bool := false  -- R155: active or idle under shadow doorbells
  lastNew : Nat := 0  -- R155: count at the last fetched entry
  eventIdx : Nat := 0  -- R155: EventIdx last written
  base : Option Nat := none  -- NVMe base: its address, where the host's pointer gives it
  deriving DecidableEq, Repr

/-- A completion queue (R153 to R157). -/
structure Cq where
  ctrl : Nat
  qid : Nat
  size : Nat
  head : Nat := 0  -- R157: last valid head
  tail : Nat := 0  -- R125: next entry written
  phase : Bool := true  -- NVMe base: phase tag of the next entry
  vector : Nat := 0  -- R137: interrupt vector
  ien : Bool := false  -- R137: interrupts enabled
  eventIdx : Nat := 0  -- R156: EventIdx last written
  deriving DecidableEq, Repr

/-- One NVMe controller: controller 0 is PF0's, 1 PF1's, 2 + v VF v's (R152). -/
structure Ctrl where
  id : Nat
  en : Bool := false  -- R201: CC.EN
  rdy : Bool := false  -- R5: CSTS.RDY
  cfs : Bool := false  -- R134: CSTS.CFS
  shst : Nat := 0  -- R202: CSTS.SHST, 0 none, 1 in progress, 2 complete
  shn : Nat := 0  -- R202: CC.SHN last written
  ams : Nat := 0  -- R161: CC.AMS
  iosqes : Nat := 0  -- R154: CC.IOSQES
  iocqes : Nat := 0  -- R154: CC.IOCQES
  asqs : Nat := 0  -- R154: AQA.ASQS, entries
  acqs : Nat := 0  -- R154: AQA.ACQS, entries
  asq : Nat := 0  -- NVMe base: ASQ
  acq : Nat := 0  -- NVMe base: ACQ
  grantSq : Nat := 0  -- R153: I/O submission queues granted, 0 before Number of Queues
  grantCq : Nat := 0  -- R153: I/O completion queues granted
  shadowDb : Bool := false  -- R155: Doorbell Buffer Config executed
  credits : Nat × Nat × Nat := (0, 0, 0)  -- R162: credits left for High, Medium and Low
  lastSq : List (Nat × Nat) := []  -- R161: last queue granted, per class
  hostId : Option Nat := none  -- R195: 128-bit Host Identifier
  ps : Nat := 0  -- R178: power state requested
  rsvLog : List (Nat × Nat) := []  -- R200: notifications on log page 0x80 that have not been read, oldest first (type, namespace)
  rsvNo : Nat := 0  -- R200: Log Page Count of the newest notification
  deriving DecidableEq, Repr

/-- An entry of the Error Information log (R189). -/
structure ErrEntry where
  ctrl : Nat
  no : Nat  -- its Error Count
  ref : Ref
  status : Status
  deriving DecidableEq, Repr

/-- What log pages 0x02 and 0x22 count (R189, R265). -/
structure Counts where
  rdSectors : Nat := 0  -- 512-byte sectors returned to hosts
  wrSectors : Nat := 0  -- 512-byte sectors written by hosts
  rdCmds : Nat := 0
  wrCmds : Nat := 0
  media : Nat := 0  -- reads that ended with an unrecovered error
  progBytes : Nat := 0  -- bytes programmed into the medium
  deriving DecidableEq, Repr

/-- A completion that R156 or R179 holds back. -/
structure HeldCqe where
  ref : Ref
  status : Status
  dw0 : Nat
  deriving DecidableEq, Repr

/-- A registrant of a namespace (R195, R196). -/
structure Registrant where
  host : Nat  -- R195: 128-bit Host Identifier
  key : Nat  -- NVMe base: 64-bit reservation key
  deriving DecidableEq, Repr

/-- A namespace's reservation (R195 to R199). -/
structure Resv where
  regs : List Registrant := []  -- R196: at most 64
  holder : Option Nat := none  -- R197: holding host
  rtype : Nat := 0  -- R196: reservation type 1 to 6, 0 none
  ptpl : Bool := false  -- R199: Persist Through Power Loss
  gen : Nat := 0  -- NVMe base: 32-bit generation
  deriving DecidableEq, Repr

/-- A namespace (R167, R181, R310). -/
structure Ns where
  nsid : Nat
  blocks : Nat  -- size in logical blocks
  lbaf : Nat := 0  -- R181: LBA format, 0 4,096, 1 512, 2 4,096 + 8 bytes
  attached : List Nat := []  -- controllers attached
  handles : List Nat := [0]  -- R262: placement handles of the namespace
  key : Option Nat := none  -- R235: key slot in use
  cut : Option Nat := none  -- R310: the cut whose snapshot this is
  source : Nat := 0  -- R310: the namespace a snapshot shows
  resv : Resv := {}  -- R195
  born : Nat := 0  -- the model's own: count at its creation or last format, below which replay takes nothing for it
  deriving DecidableEq, Repr

/-- The value of a feature, by feature identifier and scope (a controller, a namespace, or 0 for the device). -/
structure Feat where
  fid : Nat
  scope : Nat
  cur : Nat
  deriving DecidableEq, Repr

/-- A read whose completion entry has not left (R29, R30, R190). -/
structure Owed where
  ref : Ref
  latch : Nat  -- R29: the Queue Engine's count at the latch, 1/256 ns
  deadline : Option Nat  -- R29: deadline end, ns
  timed : Bool := true  -- R190: a Read, whose latency counts
  deriving DecidableEq, Repr

/-- A submission queue entry that has been granted a fetch and is not yet executed; it holds a tag (R158 to R160). -/
structure Sqe where
  ctrl : Nat
  sq : Nat
  slot : Nat
  cid : Option Nat := none  -- its command identifier, once it has arrived
  walking : Bool := false  -- R132: a PRP list or SGL segment of its command is being fetched
  deriving DecidableEq, Repr

/-- The Queue Engine (chapter 5). -/
structure Qe where
  ctrls : List Ctrl := []  -- R152: the controllers that are present
  sqs : List Sq := []  -- R153: at most 8,192 I/O submission queues and the admin queues
  cqs : List Cq := []  -- R153: at most 8,192 I/O completion queues and the admin queues
  fetched : List Sqe := []  -- R158: entries fetched and not yet executed, each holding a tag
  tags : List Ref := []  -- R158: executing commands that hold a tag, at most 65,536
  fetchHold : Bool := false  -- R106, R159: the Stroke Scheduler holds the fetch
  rrAdmin : Nat := 0  -- R161: last controller granted for an Admin queue
  rrUrgent : Nat := 0  -- R161: last controller granted for an Urgent queue
  rrWrr : Nat := 0  -- R162: last controller visited in step 3
  full : List HeldCqe := []  -- R156: completions that found their queue full
  owing : List Owed := []  -- R29: reads that have ended and whose completion entry has not left
  withheld : List HeldCqe := []  -- R179: Power Management completions held until DOZE entry settles
  aborts : List Ref := []  -- R183: Abort commands outstanding
  aers : List (Nat × Ref) := []  -- R184: Asynchronous Event Requests outstanding, by the controller that runs them, at most 16 per controller
  feats : List Feat := []  -- R191: current feature values
  savedFeats : List Feat := []  -- R191, R582: saved feature values
  nss : List Ns := []  -- R181: namespaces, at most 4,096
  cmds : List Cmd := []  -- R158: I/O commands in execution, in latch order
  keepAlive : List (Nat × Nat) := []  -- R181: count at the last Keep Alive, per controller
  errLog : List ErrEntry := []  -- R189: log page 0x01, newest first, at most 256 entries for each controller
  counts : Counts := {}  -- R189
  nsLog : List (Nat × Nat) := []  -- R189: log page 0x04, namespaces changed and not yet read (controller, namespace)
  dirs : List (Nat × Nat) := []  -- R181: Data Placement directive enabled (controller, namespace)
  deriving DecidableEq, Repr

/-- A chain of cells with its header (R208, R209). -/
structure Chain where
  head : Nat  -- R209: head cell, the chain's index
  cells : List Nat  -- R207, R208: the cells in NEXT order
  alloc : Nat  -- R209: ALLOC
  last : Nat  -- R209: LAST
  holders : List (Nat × Nat)  -- R209: up to four owners with hold counts 1 to 63
  born : Nat  -- R209: BORN, units of 1,024 ns
  poison : List Nat := []  -- R208: the cells whose POISON is set
  metas : List (Nat × Nat) := []  -- R208: the cells whose META_V is set, with META
  leaked : Bool := false  -- R222: reported past its age limit
  deriving DecidableEq, Repr

/-- Who waits for a grant and what runs once it has cells. -/
inductive GrantFor where
  | hostWrite (ref : Ref) (seg : Nat)  -- R219: a segment of a write
  | hostRead (ref : Ref) (seg : Nat)  -- R219: a segment of a read
  | twin (ref : Ref) (seg : Nat)  -- R227: the twin of a segment
  | row (dump : Bool)  -- R445: the accumulators of a Blotter row
  | copy (ref : Ref) (head : Nat)  -- R216: the copy of a chain that takes no further holder
  | tine (stream osn : Nat)  -- R218: a Tine's request
  | work  -- R210: the work of a dynamic owner
  deriving DecidableEq, Repr

/-- A request for cells that waits (R214, R215). -/
structure CellReq where
  owner : Nat
  n : Nat
  last : Nat  -- R216: LAST of the chain it will get
  order : Nat  -- R215: age order
  since : Nat  -- R220: count at which it began to wait
  what : GrantFor
  deriving DecidableEq, Repr

/-- One XTS lane (R229 to R233). -/
structure Lane where
  inService : Bool := true  -- R240: INK_LANES.IN_SERVICE
  masked : Bool := false  -- R240: INK_LANES.MASKED
  testing : Bool := false  -- R232: its known-answer test runs
  lastBad : Option Nat := none  -- R232: count at its last mismatch
  deriving DecidableEq, Repr

/-- What a key slot holds, by whose key it is (R234, R235); the key itself is read by no interface. -/
structure KeySlot where
  slot : Nat
  key : Nat  -- R234: identifier of the key generation held
  deriving DecidableEq, Repr

/-- One owner's figures that no register holds (R210, R223). -/
structure Owner where
  id : Nat
  dynamic : Bool := false  -- R210: dynamic owner
  held : Nat := 0  -- R221: HELD
  peak : Nat := 0  -- R223: largest HELD since BOOT
  waits : Nat := 0  -- R223: allocations that waited
  leaving : Bool := false  -- R210: firmware has unregistered it, and it still holds cells
  deriving DecidableEq, Repr

/-- One owner's record in an audit pass (R223). -/
structure AuditOwner where
  id : Nat
  dynamic : Bool
  effMin : Nat
  effMax : Nat
  held : Nat
  peak : Nat
  waits : Nat
  deriving DecidableEq, Repr

/-- The result of the last completed audit pass (R221 to R223). -/
structure Audit where
  stamp : Stamp := {}
  pool : Nat := 0
  banks : Nat := 0
  owners : List AuditOwner := []
  dup : Nat := 0
  conserve : Nat := 0
  free : Nat := 0
  shared : Nat := 0
  passes : Nat := 0
  leaks : Nat := 0
  ages : List (Nat × List Nat) := []  -- R222: per owner, cells in the eight buckets
  overran : List (Nat × Nat) := []  -- R223: per owner, chains past the age limit
  deriving DecidableEq, Repr

/-- The fixed owners of R210, registered at BOOT. -/
def fixedOwners : List Owner := (List.range 64).map (fun i => { id := i })

/-- The Inkwell and the lanes (chapter 6). -/
structure Ink where
  chains : List Chain := []  -- R209: the chain table
  owners : List Owner := fixedOwners  -- R210: registered owners
  waiting : List CellReq := []  -- R214: requests not yet granted
  nextOrder : Nat := 0  -- R215: age order of the next request
  osn : List (Nat × Nat × Nat) := []  -- R218: the last 64 requests served, newest first: stream, output sequence number and the chain returned
  holdWait : List (Nat × Nat) := []  -- R216: holds (chain, owner) that wait for a count of 63 to fall
  audit : Audit := {}  -- R223
  dup : Nat := 0  -- R223: DUP_RELEASE count since BOOT
  conserve : Nat := 0  -- R223: conservation mismatches since BOOT
  bankUe : List (Nat × Nat) := []  -- R225: count at each bank's last uncorrectable word
  replaced : List (Nat × Nat) := []  -- R225: masked role bank and the Inkwell bank that replaced it
  lanes : List Lane := List.replicate 16 {}  -- R229
  nextLane : Nat := 0  -- R230: round robin position
  keys : List KeySlot := []  -- R234: slots in use, at most 4,096
  pendingClear : List Nat := []  -- R236: slots to be cleared once no lane holds a unit under them
  deriving DecidableEq, Repr

/-- A map entry (R246). -/
inductive MapEntry where
  | unmapped
  | mapped (addr : Nat)
  | uncorr
  | inFlight (rec : Nat)
  deriving DecidableEq, Repr

/-- What one group of sectors of an IU holds: the write whose ink time it is, its marks, and whether it is zeros
(R246, R252, R287). The ink time stands for the content: two copies with one ink time hold the same bytes. -/
structure Part where
  mask : Nat  -- R252: sectors of 512 B, bit per sector
  ink : Nat  -- R22: ink time of the content, 1/256 ns
  poison : Bool := false  -- R28: poison mark
  metas : List (Nat × Nat) := []  -- R208, R287: META of the 4,096 + 8 blocks in it, by the sector in which each ends
  wunc : Bool := false  -- R252: write-uncorrectable mark
  zero : Bool := false  -- R252: zeros of a partial deallocate
  deriving DecidableEq, Repr

/-- A unit's out-of-band record, field by field (R287); also what accumulators hold of the records folded into them (R338), whose SEQ,
BOS and WP are then 0. -/
structure Oob where
  ink : Nat := 0  -- INK_NS and INK_FRAC, 1/256 ns; X_INK and X_FRAC
  cls : Nat := 0  -- CLASS
  pband : Nat := 0  -- PBAND
  kind : Nat := 0  -- KIND
  unc : Nat := 0  -- UNC
  nsid : Nat := 0  -- NSID
  lba : Nat := 0  -- LBA
  seq : Nat := 0  -- SEQ
  bos : Nat := 0  -- BOS
  src : Nat := 0  -- SRC
  wp : Nat := 0  -- WP
  poison : Nat := 0  -- POISON
  flags : Nat := 0  -- FLAGS
  md : Nat := 0  -- META
  deriving DecidableEq, Repr

/-- What a programmed run of units holds (R256, R287): an IU, a map page, a checkpoint unit, a pad or parity. -/
structure MediaIu where
  addr : Nat  -- R242: PUA of its first 4 KiB unit
  kind : Nat := 0  -- R287: KIND
  nsid : Nat := 0  -- R287: NSID; for a map page its index MPI
  iu : Nat := 0  -- R287: the IU whose first block LBA names
  ink : Nat := 0  -- R287: newest ink time
  cls : Nat := 0  -- R287: accuracy class of the ink time
  unc : Nat := 0  -- R71, R287: uncertainty of the ink time, ns
  pband : Nat := 0  -- R287: program band
  parts : List Part := []
  src : Option Nat := none  -- R287, R288: SRC of a move
  bos : Nat := 0  -- R287: BOS of its band
  wp : Nat := 0  -- R287: write point
  x : Option Oob := none  -- R338: the X_ fields of a KIND 4 unit
  deriving DecidableEq, Repr

/-- What a write point has to place (R257, R259): a host IU, a relocated unit, a map page or a checkpoint unit. -/
structure Item where
  kind : Nat := 0  -- R287: KIND
  nsid : Nat := 0  -- R287: NSID, MPI or CK_SEQ
  iu : Nat := 0
  ink : Nat := 0  -- R288: a move keeps the ink time
  cls : Nat := 0
  unc : Nat := 0  -- R71, R287
  parts : List Part := []
  idx : Option Nat := none  -- R252: the in-flight record it is placed for
  expect : MapEntry := .unmapped  -- R256: the entry that the mover expects
  src : Option Nat := none  -- R288: SRC of a move
  ofBand : Option Nat := none  -- R267: the band that a move leaves
  chain : Option Nat := none  -- R252: Inkwell chain that holds the data
  ck : Bool := false  -- R291: written by the checkpoint in progress
  snap : Option Nat := none  -- R315: first generation of the snapshot page that it holds
  pband : Option Nat := none  -- R288: a move keeps the program band
  x : Option Oob := none  -- R338: the X_ fields of a KIND 4 unit
  deriving DecidableEq, Repr

/-- An in-flight record (R252). -/
structure InFlight where
  idx : Nat  -- R252: record index, 0 to 32,767
  nsid : Nat
  iu : Nat
  ref : Ref  -- the command that owns it
  ink : Nat  -- R252: ink time, 1/256 ns
  cls : Nat := 0  -- R71, R287: accuracy class of the ink time
  unc : Nat := 0  -- R71, R287: uncertainty of the ink time, ns
  parts : List Part  -- R252: present bitmap with marks
  chains : List Nat := []  -- R252: Inkwell chains that hold its sectors (head cells)
  twins : List Nat := []  -- R227: twin chains
  verified : Nat := 0  -- R253: sectors verified into cells, bit per sector
  dryMask : Nat := 0  -- R24, R27: sectors that are dry
  bypass : Nat := 0  -- R27, R168: sectors that go to TLC without the Blotter
  dry : Bool := false  -- R24, R27: every sector is dry
  wp : Nat := 8  -- R252: write point
  prev : MapEntry := .unmapped  -- R252: PREV
  prevCounted : Bool := false  -- R253: PREV's place counts as valid until this record is released
  queued : Bool := false  -- R259: handed to its write point
  merged : Bool := false  -- R255: the missing sectors have been read in
  base : List Part := []  -- R255: the merged sectors
  done : Bool := false  -- R448: the write has completed to the host
  landed : Option Nat := none  -- R24, R26: the place where its TLC wordline has closed, while the write is not dry or can still fail
  deriving DecidableEq, Repr

/-- The states of a band (R244). -/
inductive BandState where
  | free | open | closed | retired
  deriving DecidableEq, Repr

/-- A band (R244, R266 to R272). -/
structure Band where
  ix : Nat  -- R267: band index, group × blocks per plane + block
  group : Nat  -- R244: stripe group
  block : Nat  -- R244: block index
  state : BandState := .free
  members : List Nat := []  -- R334: member LUNs, ascending
  lost : List Nat := []  -- R345: members lost to the band
  bos : Nat := 0  -- R287: band open sequence
  valid : Nat := 0  -- R267: valid IUs
  newest : Nat := 0  -- R267: newest ink time
  closedAt : Nat := 0  -- R352: count at which it closed
  wp : Option Nat := none  -- R258: owning write point
  wl : Nat := 0  -- R259: wordline index in progress
  pos : Nat := 0  -- R259: data member whose wordline is filling
  fill : List Item := []  -- R259: items placed on that member's wordline, not yet programmed
  padded : Bool := false  -- R265: closed by padding
  unprot : List Nat := []  -- R345: wordlines whose parity member was lost
  exposed : Bool := false  -- R347
  moving : Option Nat := none  -- R267: write point of a move in progress
  movesLeft : Nat := 0  -- R267: moves not yet finished
  pickedValid : Nat := 0  -- R268: valid(b) when it was picked
  erasing : List Nat := []  -- R267, R270: LUNs whose erase has not completed
  erasePend : Bool := false  -- R391: erase pending
  refresh : Option Nat := none  -- R353: queued for refresh, at this class
  frontier : Nat := 0  -- R290: frontier at the newest checkpoint's START
  pbands : List ((Nat × Nat) × Nat) := []  -- R327: program-band summary, by LUN and group of 64 wordlines
  deriving DecidableEq, Repr

/-- What one member's wordline of a band holds and where its program stands (R259, R339, R389). -/
structure Wordline where
  id : Nat
  band : Nat
  wl : Nat
  lun : Nat
  parity : Bool := false
  items : List (Nat × Item)  -- PUA and content, in SEQ order (R336)
  passed : Bool := false  -- R375: program pass
  failed : Bool := false  -- R345
  closed : Bool := false  -- R389
  deriving DecidableEq, Repr

/-- An open stripe set: the stripes of one wordline index (R337, R339). -/
structure Stripe where
  band : Nat
  wl : Nat
  wp : Nat
  acc : Nat  -- R337: accumulators held
  units : List (Nat × Oob) := []  -- R337: the units folded in, by PUA, with their records
  full : Bool := false  -- R339: every data page folded
  refold : Nat := 0  -- R340: reads that a refold waits for
  deriving DecidableEq, Repr

/-- A write point (R257 to R260, R268). -/
structure WritePoint where
  ix : Nat  -- R257
  queue : List Item := []  -- R259: what it has to place, in ink-time order
  cur : Nat := 0  -- R259: round robin among its open bands
  lastIu : Nat := 0  -- R260: count at the last IU
  ruBands : Nat := 0  -- R265: bands of its reclaim unit closed so far
  ruPad : Bool := false  -- R265: one of them was closed by padding
  deriving DecidableEq, Repr

/-- A secure-discard ticket (R275 to R278). -/
structure Ticket where
  ticket : Nat
  state : Nat := 1  -- R277
  doneNs : Nat := 0  -- R277
  ink : Nat := 0  -- R276: the command's ink time
  nsid : Nat := 0
  ranges : List (Nat × Nat) := []  -- R276: first IU and number of IUs
  seq : Nat := 0  -- R277: age order
  deriving DecidableEq, Repr

/-- A map page held in D5 SDRAM or on the medium (R247, R251). -/
structure MapPage where
  nsid : Nat  -- R247
  page : Nat  -- R247: IU / 816
  mpi : Nat := 0  -- R247: map page index
  epoch : Nat := 0  -- R247, R307: page epoch
  crcOk : Bool := true  -- R251: the page's CRC matches
  dirty : Bool := false  -- R250: modified since it was last written to the medium
  onMedium : Option Nat := none  -- R251: PUA of its newest copy on the medium
  resident : Bool := true  -- R249: held in D5 SDRAM
  used : Nat := 0  -- R249: count at its last use
  deriving DecidableEq, Repr

/-- A snapshot page: a copy of a map page for a range of cut generations (R307). -/
structure SnapPage where
  nsid : Nat
  page : Nat
  lo : Nat  -- R307: first generation
  hi : Nat  -- R307: last generation
  entries : List (Nat × MapEntry)  -- R307: its mapped entries, by IU
  dirty : Bool := true  -- R315: modified since it was last written to the medium
  onMedium : Option Nat := none  -- R315: PUA of its newest copy on the medium
  deriving DecidableEq, Repr

/-- The sanitize state (R279 to R281). -/
structure Sanitize where
  active : Nat := 0  -- R279: SANACT in progress, 0 none
  failed : Bool := false  -- NVMe base: the last sanitize failed
  ause : Bool := false  -- R279: AUSE of the command
  left : Nat := 0  -- R280: block erases that have not completed
  cdw10 : Nat := 0  -- NVMe base: CDW10 of the last Sanitize that started, for log page 0x81
  deriving DecidableEq, Repr

/-- Who waits for a unit that is read from the medium. -/
inductive User where
  | host (ref : Ref) (iu : Nat)  -- R31: a read
  | merge (rec : Nat)  -- R255
  | move (band wp : Nat)  -- R267, R272, R276, R347, R353
  | map (nsid page : Nat)  -- R250, R251
  | peer (id : Nat)  -- R341: a rebuild that reads its peers
  | refold (band wl : Nat)  -- R340
  | patrol  -- R351
  | scan (lun block : Nat)  -- R355
  | check  -- R342: the unit is moved because a read found it weak
  deriving DecidableEq, Repr

/-- A unit being read from the medium: its decode ladder and its rebuild (R329, R341, R342). -/
structure Fetch where
  id : Nat
  addr : Nat  -- R242
  kind : Nat := 0  -- R326: the KIND that the lookup expects
  nsid : Nat := 0  -- R326
  iu : Nat := 0  -- R326
  cls : Nat  -- R329
  deadline : Option Nat := none
  users : List User
  expect : MapEntry := .unmapped  -- R342: the entry read before the rebuild
  guess : Nat := 2  -- R327: pg
  step : Nat := 0  -- R329: attempt in force
  best : Nat × Nat := (65536, 0)  -- R329: fewest unsatisfied checks so far, and its attempt
  cbits : Nat := 0  -- R374: corrected bits of the accepted attempt
  chain : Option Nat := none  -- R209: cells that receive it
  around : Bool := false  -- R105: read-around was chosen
  nested : Bool := false  -- R341: a peer of a rebuild, never rebuilt itself
  ladder : Bool := true  -- R330: the ladder runs
  rebuild : Bool := false  -- R342: the rebuild runs
  peers : Nat := 0  -- R341: peers not yet read
  peerLost : Bool := false  -- R341: a peer failed
  badPeers : List Nat := []  -- R343: places of the peers that failed
  early : Bool := false  -- R330: its rebuild began before the ladder ended
  deriving DecidableEq, Repr

/-- The Map Engine, the Ligature and their data on the medium (chapters 7 and 9). -/
structure MapSt where
  entries : List ((Nat × Nat) × MapEntry) := []  -- R246: the map, by namespace and IU; an unlisted IU is UNMAPPED
  media : List MediaIu := []  -- R256: what the programmed units of the medium hold
  inflight : List InFlight := []  -- R254: records in use, at most 32,768
  nextRec : Nat := 0  -- R252: next record index to try
  bands : List Band := []  -- R244: the band table
  nextBos : Nat := 1  -- R287: BOS of the next band opened
  wordlines : List Wordline := []  -- R259, R389: wordlines in programming or not yet closed
  nextWl : Nat := 0  -- the model's own number of the next wordline program
  stripes : List Stripe := []  -- R337: open stripes
  erases : List ((Nat × Nat) × Nat) := []  -- R271: 28-bit erase counters by LUN and block
  reads : List ((Nat × Nat) × Nat) := []  -- R355: read counts by LUN and block
  findings : List ((Nat × Nat) × Nat) := []  -- R344: successive erase cycles with a rebuild-level finding, by LUN and block
  pgmFails : List (Nat × Nat) := []  -- R344: blocks with a failed program, to be retired at their band's erase
  badBlocks : List (Nat × Nat) := []  -- R344: retired blocks by LUN and block
  factoryBad : List (Nat × Nat) := []  -- R334: factory bad blocks by LUN and block
  groups : List (List Nat) := []  -- R332: stripe groups
  spares : List Nat := []  -- R332: spare LUNs
  wps : List WritePoint := []  -- R257: write points that hold data
  level : Nat := 0  -- R266: reclaim level: 0 Idle, 1 Background, 2 Paced, 3 Critical
  credit : Nat := 0  -- R268
  pages : List MapPage := []  -- R247: map pages allocated
  snaps : List SnapPage := []  -- R307
  tickets : List Ticket := []  -- R277: at most 64
  nextTicket : Nat := 1  -- R275: next ticket number, never 0
  sanitize : Sanitize := {}  -- R281
  fdp : Bool := false  -- R262: FDP enabled
  fdpEvents : List (Nat × Nat) := []  -- R264, R265: log page 0x23 events (type, namespace or handle)
  wlMoves : Nat := 0  -- R273: wear-levelling bands moved since BOOT
  nErases : Nat := 0  -- R273: erases since BOOT
  wlBand : Option Nat := none  -- R272: the band being moved
  fetches : List Fetch := []  -- R329, R342: units being read
  nextFetch : Nat := 0  -- the model's own number of the next unit read
  patrolAt : Nat := 0  -- R351: count at which the pass began
  patrolLeft : List Nat := []  -- R352: bands still to be visited in this pass, in order
  patrolPos : Nat := 0  -- R351: next page of the first of them
  patrolDone : Nat := 0  -- R352: pages read in this pass
  patrolTotal : Nat := 0  -- R352: pages of this pass
  patrolRate : Nat := 0  -- R352: strokes per second
  patrolDue : Nat := 0  -- R352: strokes that this window may still place
  scans : List (Nat × Nat × Nat × Bool) := []  -- R355: scans by LUN and block, with the reads left and whether one gave a finding
  deferred : List (Nat × Nat × Bool) := []  -- R357: findings made in BOOT, acted on after CSTS.RDY (address, reaction, rebuilt)
  d5Gib : Nat := 128  -- R249: D5 SDRAM capacity, GiB (Reference build A)
  lastInk : Nat := 0  -- R22: the last ink time stamped, 1/256 ns
  deriving DecidableEq, Repr

/-- A checkpoint's content: what its map pages, band table delta, ticket records and root table hold (R290, R291). -/
structure Image where
  seq : Nat := 0  -- R295: CK_SEQ
  start : Stamp := {}  -- R295: START
  startAt : Nat := 0  -- R290: START in 1/256 ns
  floor : Nat := 0  -- R290: FLOOR, 1/256 ns
  bosNext : Nat := 1  -- R295: BOS_NEXT
  iu : Nat := 2  -- R295: MAP_CFG.IU in force
  entries : List ((Nat × Nat) × MapEntry) := []  -- R291: each IN_FLIGHT entry as its PREV
  pages : List MapPage := []
  snaps : List SnapPage := []  -- R315
  bands : List Band := []  -- R290, R291: with their frontiers
  erases : List ((Nat × Nat) × Nat) := []  -- R271
  badBlocks : List (Nat × Nat) := []
  groups : List (List Nat) := []  -- R332
  spares : List Nat := []
  tickets : List Ticket := []  -- R278
  pass : Nat := 0  -- R359: LIG_PATROL_POS.PASS
  units : List Nat := []  -- R293: units that its map pages, directory and root table occupy
  deriving DecidableEq, Repr

/-- A copy of the root record (R295, R296). -/
structure Root where
  image : Image := {}
  hwm : Nat := 0  -- R295: HWM, the ruling count when it was written
  deriving DecidableEq, Repr

/-- One timed cut (R303 to R317). -/
structure CutRec where
  slot : Nat  -- R305: cut ID, 0 to 15
  time : Nat  -- R303: T in ns
  state : Nat := 1  -- R320: 0 free, 1 pending, 2 held, 3 releasing
  gen : Nat := 0  -- R307: generation
  all : Bool := false  -- R303: every namespace of the subsystem
  sources : List Nat := []  -- R303: source namespaces
  snaps : List Nat := []  -- R309: snapshot NSIDs, in source order
  keys : List (Nat × Nat) := []  -- R235: source namespace and the key slot taken for its snapshot
  origin : Nat := 0  -- R320: 0 host, 1 sideband, 2 Brynnyx
  cls : Nat := 3  -- R310: class at T
  unc : Nat := 65535  -- R310: uncertainty at T
  bcast : Bool := false  -- R305: BCAST frames were sent
  deriving DecidableEq, Repr

/-- Checkpoints and cuts (chapter 8). -/
structure Ckpt where
  cuts : List CutRec := []  -- R305, R315: at most 16 cuts
  nextGen : Nat := 1  -- R307: next generation
  running : Option Image := none  -- R289: the checkpoint in progress
  left : Nat := 0  -- R291: its strokes that have not passed
  again : Bool := false  -- R289: a trigger fell due while it ran
  slow : Bool := false  -- R292: reported late
  newest : Option Image := none  -- R293: the newest completed checkpoint
  rootA : Option Root := none  -- R296: root record copy A
  rootB : Option Root := none  -- R296: root record copy B
  writing : Nat := 0  -- R296: 0 none, 1 copy A in progress, 2 copy B in progress
  lastStart : Nat := 0  -- R289: count at the last START
  stamped : Nat := 0  -- R289: bytes of host data stamped since the last START
  nextSeq : Nat := 1  -- R295: next CK_SEQ
  shutting : List Nat := []  -- R202: controllers whose normal shutdown waits for the checkpoint
  critAt : Option Nat := none  -- R312: count since which the level has been Critical
  deriving DecidableEq, Repr

/-- The states of a LUN in NIB_LUN_STATE (R396). -/
inductive LunState where
  | notPresent | idle | busy | suspProgram | suspErase | resetting | unresponsive
  deriving DecidableEq, Repr

/-- A LUN as its Nib keeps it (R396). -/
structure Lun where
  lun : Nat  -- R190: LUN index
  state : LunState := .idle  -- R396
  rband : Nat := 2  -- R379: read band
  tempValid : Bool := false  -- R378
  temp : Int := 0  -- R378: last valid reading, °C
  tempAt : Nat := 0  -- R378: count at that reading
  dieType : Nat := 0  -- R366
  tmoCnt : Nat := 0  -- R396: timeouts since BOOT, saturating at 255
  tmoAt : Option Nat := none  -- R386: count at the last timeout
  unrespAt : Option Nat := none  -- R388: count at which it was declared unresponsive
  pgmBand : Option Nat := none  -- R380: band of its last program
  retired : Bool := false  -- R346
  resetAt : Nat := 0  -- R386: count at the reset that it is waited for
  deriving DecidableEq, Repr

/-- A stroke that a Nib has accepted (R369 to R374). -/
structure Run where
  nib : Nat
  req : Nat
  seq : Nat
  lun : Nat
  accAt : Nat  -- R371: count at its acceptance
  launched : Bool := false
  edge : Nat := 0  -- R374: count at the first bus edge
  ofs : Int := 0  -- R372: LAUNCH_OFS, ns
  rband : Nat := 2  -- R374: RBAND
  sr : Nat := 0  -- R374: NAND_SR
  ready : Bool := false  -- R377
  readyAt : Nat := 0  -- R374: count at ready
  susAt : Option Nat := none  -- R382: count since which it is suspended
  susTime : Nat := 0  -- R382: suspended time
  excl : Bool := false  -- R374: FLAGS bit 3
  reset : Bool := false  -- R374: FLAGS bit 4
  cw : Nat := 0  -- R374: codewords transferred or decoded so far
  cwLeft : Nat := 0  -- R325: codewords that the decoder has not finished
  result : Nat := 0  -- R374: RESULT
  cbits : Nat := 0  -- R374: CBITS
  unsat : Nat := 0  -- R374: UNSAT
  bad : Bool := false  -- R375: a codeword failed
  mis : Bool := false  -- R326: its record is not what the lookup expects
  pband : Nat := 0  -- R331: PBAND of the decoded record
  ceAt : Option Nat := none  -- R372: count at which the Quill asserted its chip enable, where it was not asserted
  vol : Option Nat := none  -- R362: volume address of the Volume Select that it issued
  nandRow : Nat := 0  -- R373: the NAND row address
  trims : Nat := 0  -- R380: the bus timing trims in force at its launch (NIB_TRIM_Bb)
  polledAt : Option Nat := none  -- R377: count at its last poll
  resetWait : Bool := false  -- R386: waits for a reset
  xfer : Bool := false  -- R407: its data transfer has ended
  deriving DecidableEq, Repr

/-- A completion descriptor (R374, R375), with what the decoded record says. -/
structure Comp where
  nib : Nat
  seq : Nat
  req : Nat
  tag : Nat := 0  -- R80, R374: TAG of the descriptor
  status : Nat
  sr : Nat := 0
  rband : Nat := 2
  excl : Bool := false
  reset : Bool := false
  ofs : Int := 0
  busy : Nat := 0  -- ns
  cbits : Nat := 0
  unsat : Nat := 0
  done : Nat := 0
  result : Nat := 0
  launched : Bool := false
  mis : Bool := false
  pband : Nat := 0
  desc : List (Nat × Nat × Nat) := []  -- R374: the 32-byte descriptor: offset, width in bytes and value of each field
  deriving DecidableEq, Repr

/-- A Scriptorium image (R421). -/
structure Scriptorium where
  entries : List (Nat × Nat × Nat) := []  -- R421: ADDR, PROF and KIND of each entry
  micro : List Nat := []  -- R421: microwords from 0x1800
  nano : List Nat := []  -- R421: nanowords from 0x600
  deriving DecidableEq, Repr

/-- A word that a context has fetched (R409, R411). -/
structure Fetched where
  addr : Nat
  micro : Nat
  nano : Nat
  succ : Option Nat  -- R409: its successor, decided at fetch
  deriving DecidableEq, Repr

/-- What a Quill context holds in (R400, R403, R419). -/
inductive Hold where
  | torvelle  -- R408: the built-in sequence of its stroke runs
  | run  -- it has a word ready
  | wait (cond : Nat)  -- R410
  | wline (line : Nat)  -- R403: the line index at which it releases
  | svc (entry : Nat)  -- R419
  deriving DecidableEq, Repr

/-- A Quill context (R400, R401). -/
structure QCtx where
  nib : Nat
  ctx : Nat
  req : Nat
  s : List Nat := [0, 0, 0, 0, 0, 0, 0, 0]  -- R401: S0 to S7
  lc : Nat := 0
  tm : Nat := 0  -- R401: count at which TM is 0; 0 expired
  tmRun : Bool := false  -- R405: TM runs
  st : Nat := 0
  f0 : Bool := false
  f1 : Bool := false
  zero : Bool := false
  carry : Bool := false
  stack : List Nat := []  -- R401: at most 4
  queue : List Fetched := []  -- R411: the word to execute and the two fetched ahead
  hold : Hold := .torvelle
  xbusy : Bool := false  -- R404: its last DOUT or DIN has not ended
  decoding : Nat := 0  -- R404: codewords of its last DIN with DEC not decoded
  dpass : Bool := true  -- R404: every codeword decoded so far has passed
  gate : Bool := false  -- R408: the first bus word has issued
  abort : Bool := false  -- R404
  susReq : Bool := false  -- R404
  slc : Bool := false  -- R404
  ce : Bool := false  -- R405: the descriptor's chip enable is asserted
  deriving DecidableEq, Repr

/-- The copies of the Scriptorium set (R425). -/
structure ScrSet where
  seq : Nat := 0
  images : List Scriptorium := []
  ofNib : List (Nat × Nat) := []  -- R425: image index of each Nib
  deriving DecidableEq, Repr

/-- The Nibs and the Quills (chapters 10 and 11). -/
structure NibSt where
  luns : List Lun := []  -- R396: the LUNs that discovery found
  lastSeq : List (Nat × Nat) := []  -- R370: last SEQ accepted, per Nib
  runs : List Run := []  -- R369: accepted strokes
  comps : List Comp := []  -- R369: completion rings, oldest first
  rbHigh : List (Nat × Bool) := []  -- R377: level of NFn_RB_N
  ce : List (Nat × Nat) := []  -- R372: the chip enable that each Nib keeps asserted
  vol : List ((Nat × Nat) × Nat) := []  -- R362: the target last selected, by Nib and chip enable
  lunBit : Nat := 0  -- R373: the LUN field's position in the row address, from the parameter page
  tempAsked : List (Nat × Nat) := []  -- R378: count at which each Nib last read its temperatures
  noTemp : List Nat := []  -- R378: Nibs that have set TEMP_STALE for want of a feature address
  ecache : List ((Nat × Nat) × Nat) := []  -- R392: cached erase counters by LUN and block
  train : List Nat := []  -- R381: Nibs whose retraining is due
  trained : List (Nat × Nat) := []  -- R381: count at the last retraining
  resv : List (Nat × Nat × Nat) := []  -- R381: reserved bus intervals (Nib, from, to), ns
  ctxs : List QCtx := []  -- R400: contexts that run
  rr : List (Nat × Nat) := []  -- R406: last context issued, per Nib
  busTo : List (Nat × Nat) := []  -- R407: count until which a bus action or a poll holds each Nib's channel bus
  scribed : List ((Nat × Nat) × Nat) := []  -- R412: microwords that SCRIBE has changed, by Nib and address
  golden : List (Nat × Scriptorium) := []  -- R415: the golden copy, per Nib
  setA : Option ScrSet := some {}  -- R425: copy A in Folio
  setB : Option ScrSet := some {}  -- R425: copy B in Folio
  mchkAt : List (Nat × Nat) := []  -- R417: counts of machine checks, per Nib
  paused : List Nat := []  -- R424: Nibs that a load holds
  load : Option (Ref × ScrSet × List Nat) := none  -- R424: a Scriptorium Load in progress: its command, the new set, the Nibs left
  loading : Bool := false  -- R424: that load's Colophon entry is appended, and its Nibs are loaded in turn
  resets : List Nat := []  -- R415: LUNs that a reset is waited for
  window : List Host.Cell := []  -- R422: the SCR window's 262,144 bytes, by offset within it; an unlisted byte reads 0
  deriving DecidableEq, Repr

/-- One unit of a Blotter page (R447, R448). -/
structure BltUnit where
  btype : Nat := 0  -- R448: BTYPE
  idx : Option Nat := none  -- the in-flight record whose sectors it holds (BTYPE 0)
  nsid : Nat := 0  -- R448: NSID, or the band of BTYPE 2 and 3
  iu : Nat := 0  -- R448: the IU of its range
  ink : Nat := 0  -- R448: ink time, 1/256 ns
  cls : Nat := 0  -- R448: accuracy class of the ink time
  unc : Nat := 0  -- R71, R448: uncertainty of the ink time, ns
  parts : List Part := []  -- R448: MASK, POISON and WUNC of its sectors
  lbas : List (Nat × Nat) := []  -- R448: ranges of a map-change record (first IU, IUs)
  op : Nat := 0  -- R448: AUX operation of BTYPE 1
  acc : List (Nat × Oob) := []  -- R448: the slots of BTYPE 3: mask of the members folded in, and record accumulator
  done : Bool := false  -- R448: FLAGS bit 2 DONE
  released : Bool := false  -- R449
  deriving DecidableEq, Repr

/-- Where a Blotter page stands (R445, R447). -/
inductive PagePhase where
  | open | closed | programming | passed | lost
  deriving DecidableEq, Repr

/-- A commit group, which is one Blotter page (R447). -/
structure BltPage where
  group : Nat  -- R448: GROUP
  units : List BltUnit := []
  openedAt : Nat := 0  -- R447, R450: count at its first unit; once it has passed, the count at which it was written
  phase : PagePhase := .open
  row : Option (Nat × Nat × Nat) := none  -- R447: set, slot and row
  pos : Nat := 0  -- R447: data position in the row
  dump : Bool := false  -- R448: FLAGS bit 1 DUMP
  recs : List Nat := []  -- R448: the 48-byte Blotter record of each unit, little-endian
  deriving DecidableEq, Repr

/-- An open or closed row of a set (R444, R445): positions are 0 free, 1 programming, 2 folded, 3 abandoned. -/
structure BltRow where
  set : Nat
  slot : Nat
  row : Nat
  luns : List Nat  -- R444: the LUN of each data position
  plun : Nat  -- R444: the LUN of its parity page
  pos : List Nat  -- R445: state of each data position
  parity : Nat := 0  -- R445: 0 not programmed, 1 programming, 2 passed
  dump : Bool := false  -- R445: opened for the dump
  chain : Option Nat := none  -- R445: cells of its accumulators
  due : Bool := false  -- R445: its parity program has been asked for
  recs : List Nat := []  -- R445, R448: its record accumulator, codeword by codeword: the XOR of the records folded in
  deriving DecidableEq, Repr

/-- A Blotter set (R444). -/
structure BltSet where
  ix : Nat
  luns : List Nat  -- R444: its LUNs in set order
  active : Nat := 0  -- R676: active slot
  next : List Nat := [0, 0]  -- R676: first erased row of each slot
  dirty : List Bool := [false, false]  -- R449: the slot holds programmed rows
  stop : List Bool := [false, false]  -- R449: no new groups enter the slot (a ticket or age)
  erasing : List Bool := [false, false]  -- R449: the slot's erase strokes are placed
  full : Bool := false  -- R446
  deriving DecidableEq, Repr

/-- The shutdown record (R456). -/
structure ShutRec where
  bootSeq : Nat := 0
  stamp : Stamp := {}
  kind : Nat := 0  -- 0 none, 1 normal, 2 HOLD-UP complete, 3 HOLD-UP incomplete, 4 SAFE dump
  ckSeq : Nat := 0
  rootDigest : Nat := 0  -- R456: ROOT_DIGEST
  firstGroup : Nat := 0
  lastGroup : Nat := 0
  lostWet : Nat := 0
  huUs : Nat := 0
  self : Nat := 0  -- R456: SELF
  deriving DecidableEq, Repr

/-- The hold-up self-test's phases (R436). -/
inductive TestPhase where
  | idle | waiting | bleeding | recharging
  deriving DecidableEq, Repr

/-- The energy store, the Blotter and HOLD-UP (chapter 12). -/
structure Blt where
  pages : List BltPage := []  -- R447: commit groups and programmed pages that hold unreleased units
  nextGroup : Nat := 1  -- R448: next GROUP
  sets : List BltSet := []  -- R444
  rows : List BltRow := []  -- R445
  blocks : List (Nat × Nat × Nat) := []  -- R442: Blotter blocks (LUN, slot, block)
  skip : List (Nat × Nat) := []  -- R442: LUN and slot of a retired Blotter block, until the slot's next erase
  delta : Option (Nat × List Band × List ((Nat × Nat) × Nat)) := none  -- R453, R460: the newest map delta dumped: GROUP, band table, erase counters
  waitUnits : List BltUnit := []  -- R464: units that wait for a group
  budgetWait : Nat := 0  -- R441: segments that wait for the budgets
  -- the energy store
  bleed : Bool := false  -- R433: ES_BLEED
  test : TestPhase := .idle  -- R436
  testAt : Nat := 0  -- R436: count at the start of the phase
  tested : Bool := false  -- R440: this BOOT's first self-test has a result
  lastTest : Option Nat := none  -- R436: count at the last self-test's start in this BOOT
  vRef : Nat := 0  -- R434: store voltage at the start of the stability window, 10 mV
  vRefAt : Nat := 0  -- R434: count at the start of that window
  rise : List (Nat × Nat) := []  -- R435: the charge curve (voltage, count), newest first
  recompute : Nat := 0  -- R439: budget computations since BOOT
  -- HOLD-UP
  dumping : Nat := 0  -- R453: 0 no dump, 1 in HOLD-UP, 2 on SAFE entry
  dumpAt : Nat := 0  -- R453: count at the start of the dump
  dumpFirst : Nat := 0  -- R456: FIRST_GROUP
  dumpLast : Nat := 0  -- R456: LAST_GROUP
  dumpStop : Bool := false  -- R455: no further dump stroke is placed
  lostWet : Nat := 0  -- R455
  holdAt : Nat := 0  -- R456: count at PFAIL_N's fall
  deriving DecidableEq, Repr


/-- The states of a Tine (R498). -/
inductive TineState where
  | off | active | standby | resigned | joining | masked | bootTest
  deriving DecidableEq, Repr

/-- A handover in progress (R479, R480). -/
structure Handover where
  from_ : Bool  -- R477: the Tine that resigned, true for B
  cause : Nat  -- R477
  at_ : Nat  -- R479: t_f
  overlap : Bool := true  -- R480
  ovl : Nat := 0  -- R498: TINE_HO_LAST.OVL, ns
  dups : Nat := 0  -- R498: TINE_HO_LAST.DUPS
  deriving DecidableEq, Repr

/-- An output held in a gap (R473). -/
structure TineHeld where
  stream : Nat
  osn : Nat
  ask : InkAsk := .none  -- R218: the request that it is
  at_ : Nat  -- R474: count since which it is held
  deriving DecidableEq, Repr

/-- A Tine's running CRC of a stream at a multiple of 256 (R475). -/
structure TineMark where
  tine : Bool
  stream : Nat
  osn : Nat
  crc : Nat
  deriving DecidableEq, Repr

/-- A Role Drill that waits (R491): its command, its latch, and whether the standby's checker will report. -/
structure RoleDrill where
  ref : Ref
  at_ : Nat
  reports : Bool
  deriving DecidableEq, Repr

/-- A drill between its injection and the end of its resynchronisation (R489). -/
structure Drill where
  cause : Nat  -- R477: 3 or 4
  from_ : Bool  -- the former active
  dur : Nat := 0  -- R491: handover duration, ns
  refs : List Ref := []  -- R492: commands that complete with it
  deriving DecidableEq, Repr

/-- The Tines (chapter 13). -/
structure Tine where
  a : TineState := .off  -- R498: TINE_STATUS.A_STATE
  b : TineState := .off  -- R498: TINE_STATUS.B_STATE
  active : Bool := false  -- R498: TINE_STATUS.ACTIVE, true for B
  ho : Option Handover := none  -- R479
  last : List (Nat × Nat) := []  -- R473: last OSN forwarded, by stream
  held : List TineHeld := []  -- R473
  marks : List TineMark := []  -- R475
  resigns : List (Bool × Nat) := []  -- R483: counts of resignations under cause 1, 2 or R475
  ready : Bool := false  -- R484: the resigned Tine has passed its self-test
  joinAt : Nat := 0  -- R484: count at the start of the resynchronisation
  drill : Option Drill := none  -- R489
  waiting : List RoleDrill := []  -- R491
  drillAt : Nat := 0  -- R488: count from which the drill period runs
  due : Bool := false  -- R488: a scheduled drill is due and deferred
  dead : Bool := false  -- R486, R495: no Tine runs admin work
  deriving DecidableEq, Repr

/-- A DOZE entry (R597 to R600). -/
structure DozeEntry where
  level : Nat  -- R597: power state requested, 3 or 4
  sum : Nat := 0  -- R597: delays so far, ns
  delay : Bool := false  -- R597: an island's delay runs
  idled : List (Nat × Nat) := []  -- R598, R599: SQs that AP4 made idle (controller, queue)
  deriving DecidableEq, Repr

/-- A BOOT that the block has been told to begin and prepares for (R580, R627, R643). -/
structure BootWait where
  cause : Nat  -- R640: DEV_CAUSE.CAUSE of the BOOT to come
  env : BootEnv
  deriving DecidableEq, Repr

/-- The instructions of the test access port (R658). -/
inductive TapInstr where
  | bypass | idcode | samplePreload | extest | debug
  deriving DecidableEq, Repr

/-- The test access port (R658). -/
structure Tap where
  trst : Bool := false  -- level of TRST_N; its pull-down holds an unconnected port in reset
  instr : TapInstr := .idcode  -- the instruction in force; IEEE 1149.1: IDCODE after a reset of the port
  token : Bool := false  -- R541: a Torvelle token opens the debug port
  deriving DecidableEq, Repr

/-- The Power Controller's sequencer, DOZE and AVSBus (chapter 17). -/
structure Pwr where
  rails : List Bool := [true, true, true, true]  -- R589: EN_18, EN_IO, EN_HP, EN_CORE
  vaux : Bool := true  -- R662: VAUX_33 is good
  pfailHigh : Bool := true  -- R451, R590: level of PFAIL_N
  deglitch : Bool := false  -- R451: PFAIL_N is low and its deglitch runs
  asserted : Bool := false  -- R451: PFAIL_N is taken as asserted, and HOLD-UP is due at the next line
  qualify : Bool := false  -- R590: PGOOD_MS runs
  offReq : Option Nat := none  -- R592: latched off request, by its SOURCE
  onReq : Option Nat := none  -- R592: latched power-up request, by its SOURCE
  held : Option Nat := none  -- R613: power-up request held by the thermal latch
  source : Nat := 0  -- R661: SOURCE of the request that began the power-up
  cause : Nat := 0  -- R593: SOURCE of the off request that the power-down carries out
  minOff : Bool := false  -- R592: the minimum off time runs
  thermN : Bool := false  -- R612, R613: THERM_N is asserted
  entry : Option DozeEntry := none  -- R597: DOZE entry in progress
  retry : Bool := false  -- R600: an entry was refused or abandoned and its request stands
  retryAt : Nat := 0  -- R600: count at the refusal or abandonment
  from_ : Mode := .run  -- R596: mode DOZE was entered from
  psBefore : Nat := 0  -- R596: operational state when entry began
  wake : Option Nat := none  -- R598, R601: wake event since the last abort point, by its SOURCE
  periods : Nat := 0  -- R601: loop wakes since DOZE began
  avsWant : Nat := 0  -- R604: setpoint code requested
  avsTries : Nat := 0  -- R604: times it was sent again
  clkDiv : Nat := 1  -- R603, R607: division of the Tine, Map Engine and Queue Engine clocks
  clkWait : Option Nat := none  -- R603: division that waits for the acknowledgement
  bootWait : Option BootWait := none  -- R580, R627: a BOOT that waits for the quiesce
  quiesce : Nat := 0  -- R593, R627: 0 no quiesce, 1 writes become dry, 2 its checkpoint runs, 3 done
  lost : Nat := 0  -- R13: triggers that lost to the transition in progress and have no row from the mode that follows
  linkL1 : Bool := false  -- R598: the link is in L1
  booted : Bool := false  -- R530: the BOOT sequence of this power-up or reset has run
  tap : Tap := {}  -- R658
  deriving DecidableEq, Repr

/-- An entry of log page 0xC5 (R614). -/
structure ThermEvent where
  stamp : Stamp
  kind : Nat
  level : Nat
  sensor : Nat
  temp : Int
  lun : Nat
  deriving DecidableEq, Repr

/-- A thermal shutdown record of Folio Tally (R612). -/
structure ThermRec where
  bootSeq : Nat
  stamp : Stamp
  cause : Nat
  sensor : Nat
  lun : Nat
  temp : Int
  deriving DecidableEq, Repr

/-- A junction sensor (R605). -/
structure Sensor where
  temp : Int := 25  -- R605: last reading, °C
  max : Int := 25  -- R619: highest since BOOT
  min : Int := 25  -- R614: lowest since BOOT
  masked : Bool := false  -- R605
  apart : Option Nat := none  -- R605: count since which it differs from both neighbours
  hot : Bool := false  -- R612: the last sample read 120 °C or above
  deriving DecidableEq, Repr

/-- The Thermal Monitor (chapter 17). -/
structure Thm where
  sensors : List Sensor := List.replicate 32 {}  -- R605
  coolAt : Option Nat := none  -- R608: count since which every reading is 3 °C below the level's thresholds
  levelT : List Nat := [0, 0, 0, 0]  -- R614: time since BOOT at levels 0 to 3, 1/256 ns
  levelAt : Nat := 0  -- R614: count up to which it is summed
  bands : List (Nat × List Nat) := []  -- R614: time since BOOT in read bands 0 to 5, 1/256 ns, by LUN
  bandsAt : Nat := 0  -- R614: count up to which it is summed
  winJ : Int := 25  -- R609: hottest junction at the last window's end
  winN : Int := 25  -- R609: hottest NAND reading at the last window's end
  fast : Nat := 0  -- R609: successive windows with a rate above RATE
  calm : Nat := 0  -- R609: successive windows with both rates below 1 °C/s
  events : List ThermEvent := []  -- R614: at most 64, newest first
  prevShut : Bool := false  -- R614: the previous power-off was a thermal shutdown
  deriving DecidableEq, Repr

/-- What a Folio request writes (R518, R522), and so whose work goes on when it passes. -/
inductive FolJob where
  | root (copyB : Bool)  -- R296: a root record copy
  | cut (slot : Nat)  -- R305, R309: a cut's record in its present state
  | resv (nsid : Nat)  -- R199: a namespace's reservation
  | sanitize  -- R281: the sanitize state
  | keys (copyB : Bool)  -- R529: the namespace key table
  | identity (copyB : Bool)  -- R529: the identity region
  | settings (copyB : Bool)  -- R525, R582: settings and saved features
  | scriptorium (copyB : Bool)  -- R425: the Scriptorium set
  | remap (copyB : Bool)  -- R523: the remap table
  | bootRecord  -- R536: this boot's record
  | event  -- R536: the oldest event entry that waits
  | intent (done : Nat)  -- R545: the lifecycle intent, with DONE erased (0), VERIFIED (1) or 0 (2)
  | owner (lock : Bool)  -- R577: feature 0xC6
  | fleet (copyB : Bool)  -- R574: the identity region, for a new fleet transport key
  | image  -- R573: the committed image into slot 2, read back and its tag checked
  | loader (copyA : Bool)  -- R574: the boot loader, copy B and then copy A
  | slot  -- R575, R578: a slot record
  deriving DecidableEq, Repr

/-- A request in the Folio's descriptor queue (R522). -/
structure FolReq where
  job : FolJob
  erase : Bool := false  -- R520: the sector's erase that comes before its program
  ref : Option Ref := none  -- the command that completes when it passes
  dw0 : Nat := 0
  deriving DecidableEq, Repr

/-- An entry of the Colophon's event log (R532, R535). -/
structure ColEntry where
  kind : Nat  -- R535: TYPE
  stamp : Stamp  -- R59
  a : Nat := 0
  b : Nat := 0
  c : Nat := 0
  eseq : Nat := 0  -- R532: ESEQ
  bootSeq : Nat := 0  -- R532: BOOT_SEQ
  det : Bool := false  -- R532: FLAGS bit 1 DET
  unsigned : Bool := false  -- R537: FLAGS bit 0 UNSIGNED
  margin : Bool := false  -- R532: FLAGS bit 2 MARGIN
  sector : Nat := 0  -- R536: event-log sector of its first sector, once written
  more : List (Nat × Nat × Nat) := []  -- R535: further payload fields: byte, bytes, value
  prev : Nat := 0  -- R532: PREV
  digest : Nat := 0  -- R534: DIGEST
  deriving DecidableEq, Repr

/-- A boot record (R533). -/
structure BootRec where
  bootSeq : Nat
  eseq : Nat
  stamp : Stamp := {}
  lifecycle : Nat := 0
  slot : Nat := 0  -- R533: FW_SLOT
  safe : Bool := false  -- R533: MODE is 0x7
  margin : List Nat := []  -- R533: words that had a marginal bit
  settings : Nat := 0  -- R533: SETTINGS, as the SEQ of the selected copy
  scrSet : Nat := 0  -- R533: SCR_SET, as the SEQ of the selected set
  nibIdx : List Nat := []  -- R533: NIB_IDX
  scrN : Nat := 0  -- R533: SCR_N
  det : Bool := false
  unsigned : Bool := false
  romId : Nat := 0  -- R533: ROM_ID
  bl : Nat := 0  -- R533: BL
  fw : Nat := 0  -- R533: FW
  settingsSha : Nat := 0  -- R533: SETTINGS
  fuses : Nat := 0  -- R533: FUSES
  scrSha : Nat := 0  -- R533: SCR_SET
  meas : List Nat := []  -- R533: MEAS
  prev : Nat := 0  -- R532: PREV
  digest : Nat := 0  -- R534: DIGEST
  deriving DecidableEq, Repr

/-- A copy of the settings (R525, R582): every RWS register and every saved feature. -/
structure SetCopy where
  seq : Nat := 0
  fmt : Nat := 0  -- R582: settings format in force when it was written
  regs : List (Nat × Word) := []
  feats : List Feat := []
  intact : Bool := true  -- R525
  deriving DecidableEq, Repr

/-- A copy of the namespace key table (R528), by namespace; a key is named by its generation. -/
structure KeyTab where
  seq : Nat := 0
  keys : List (Nat × Nat) := []
  intact : Bool := true
  deriving DecidableEq, Repr

/-- A copy of the identity region (R528): which keys it holds wrapped, by their generations. -/
structure Identity where
  seq : Nat := 0
  dsk : Option Nat := none
  mrk : Option Nat := none
  fleet : Option Nat := none  -- R528: fleet transport key
  intact : Bool := true
  deriving DecidableEq, Repr

/-- A copy of a Tally counter (R524): BASE, and the halves of its 56 unary words that are cleared. -/
structure TallyCopy where
  base : Nat := 0
  halves : Nat := 0
  deriving DecidableEq, Repr

/-- A Tally counter, copies A and B (R524). -/
structure Tally where
  a : TallyCopy := {}
  b : TallyCopy := {}
  deriving DecidableEq, Repr

/-- A lifecycle intent record (R544). -/
structure Intent where
  iseq : Nat
  from_ : Nat
  dest : Nat
  stamp : Stamp := {}  -- R544: STAMP
  owner : Nat := 0  -- R544: OWNER_HASH, 384 bits
  done : Nat := 0  -- R544: 0 erased, 1 VERIFIED, 2 zero
  deriving DecidableEq, Repr

/-- A lifecycle transition that runs (R545). -/
structure Trans where
  intent : Intent
  ref : Option Ref  -- R543: the command
  burns : List (Nat × Nat)  -- R545: words and masks still to be burned
  tries : Nat := 0  -- R545: extra burns made of a bit that reads 0 at margin-high
  deriving DecidableEq, Repr

/-- The slot record (R578). -/
structure SlotRec where
  rseq : Nat := 0
  pending : Nat := 0
  tried : Bool := false
  confirmed : Bool := false
  rotStep : Nat := 0
  rotSlot : Nat := 2
  deriving DecidableEq, Repr

/-- The Folio, the fuses and the Colophon (chapter 15). -/
structure Fol where
  reqs : List FolReq := []  -- R522: the descriptor queue, oldest first
  wear : List (Nat × Nat) := []  -- R523, R555: erases by sector
  remap : List (Nat × Nat) := []  -- R523: replaced sectors and their spares
  entries : List ColEntry := []  -- R536: event entries not yet written, oldest first
  events : List ColEntry := []  -- R536: the event log, newest first, at most 1,024
  boots : List BootRec := []  -- R536: the boot log, newest first, at most 4,096
  record : Option BootRec := none  -- R533: this boot's record
  eseq : Nat := 0  -- R532: ESEQ of the newest entry
  digest : Nat := 0  -- R532, R534: DIGEST of the newest entry
  evtPos : Nat := 0  -- R536: next event-log sector
  shutPrev : ShutRec := {}  -- R456: the record before it, in force where the newest one's digest fails
  shut : ShutRec := {}  -- R456: the shutdown record in force
  bootSeq : Nat := 0  -- R532: BOOT_SEQ
  tally : List Tally := [{}, {}, {}, {}]  -- R524: boots, HOLD-UP entries, thermal shutdowns, TRIAL fallbacks
  thermRecs : List ThermRec := []  -- R612: newest first
  cutRecs : List CutRec := []  -- R315: cut records as the Folio holds them
  resvRecs : List (Nat × Resv) := []  -- R199: reservations kept with PTPL
  sanRec : Sanitize := {}  -- R281: sanitize state as the Folio holds it
  setA : SetCopy := {}  -- R525: settings, copy A
  setB : SetCopy := {}  -- R525: settings, copy B
  keyA : KeyTab := {}  -- R525: namespace key table, copy A
  keyB : KeyTab := {}  -- R525: namespace key table, copy B
  idA : Identity := {}  -- R525: identity region, copy A
  idB : Identity := {}  -- R525: identity region, copy B
  ident : Identity := {}  -- R528, R530: the keys that this boot has unwrapped
  keyTab : List (Nat × Nat) := []  -- R528, R530: namespace keys in use, by namespace
  slotRcd : SlotRec := {}  -- R578: the newest slot record that the Folio holds
  nextKey : Nat := 1  -- R528: the model's own number of the next key made
  setNew : List (Nat × Word) := []  -- R641: the RWS values of the last seal, or of the copy selected at BOOT
  scrubAt : Nat := 0  -- R555: count at the last scrub of the ECC words
  fuses : List (Nat × Nat × Nat) := []  -- R526, R527: fuse words, with their readings at margin-low and margin-high
  resolved : List (Nat × Nat) := []  -- R527: words as resolved at this BOOT
  marginal : List Nat := []  -- R527: words that had a marginal bit this boot
  intents : List Intent := []  -- R544: intent records, newest first
  trans : Option Trans := none  -- R545: the transition that runs
  svnBurns : List (Nat × Nat) := []  -- R579: SVN words and masks still to be burned
  svnTries : Nat := 0  -- R579, R545: extra burns made of the first of them
  deriving DecidableEq, Repr

/-- The General Cipher Engine (R548 to R551). -/
structure Gce where
  owner : Nat := 0  -- R548, R555: GCE_LOCK.OWNER, 0 free
  lastReq : Nat := 0  -- R548: count at the holder's last request
  waiting : List (Nat × Nat) := []  -- R548: owners that wait with the count of their arrival, in grant order
  reqs : Nat := 0  -- R549: DRBG requests since the last reseed
  reseeds : Nat := 0  -- R555: GCE_DRBG.RESEEDS
  gcm : List (Nat × Nat) := []  -- R549: GCM encryptions by key handle
  entropyOk : Bool := true  -- R551, R555: GCE_STATUS.ENTROPY_OK
  deriving DecidableEq, Repr

/-- A Brynnyx frame that this node sends (R557, R558). -/
inductive Frame where
  | enum (id : Nat)
  | sync (t1 master hops src cls unc : Nat)
  | dreq (t3 : Nat)
  | dresp (t4 : Nat)
  | claim (id : Nat)
  | contended (id : Nat)
  | noMaster
  | cut (time node number : Nat) (all : Bool)
  | sweepReq (issuer : Nat)
  | sweepEnt (e : SweepEntry) (part : Nat)
  | sweepEnd (openAfter : Option Nat)
  | relayStart (action chunks : Nat)
  | chunk (k : Nat) (c : PkgChunk)
  | ack (k : Nat) (pass : Bool)
  | relayAbort
  | repeated (kind : Nat)  -- R584: a frame passed through with HOPS incremented
  deriving DecidableEq, Repr

/-- A frame's header as it is sent (R557). -/
structure FrameHdr where
  kind : Nat  -- TYPE
  bcast : Bool := false  -- FLAGS bit 0
  dir : Bool := false  -- FLAGS bit 1: travelling UP
  src : Nat := 0
  dst : Nat := 0
  hops : Nat := 0
  seq : Nat := 0
  deriving DecidableEq, Repr

/-- A link port (R556, R559). -/
structure BxlPort where
  good : Nat := 0  -- R559: consecutive valid frames, up to 64
  linked : Bool := false  -- R559
  ever : Bool := false  -- R560: it has been linked
  lastAt : Nat := 0  -- R559: count at the last valid frame
  seqs : List (Nat × Nat) := []  -- R557: frames sent, by TYPE: the next SEQ
  deriving DecidableEq, Repr

/-- A time exchange that the client has begun (R562). -/
structure Exchange where
  up : Bool  -- the port facing the server
  t1 : Nat
  t2 : Nat
  t3 : Nat
  deriving DecidableEq, Repr

/-- A sweep report (R568). -/
structure Report where
  stamp : Stamp
  issuer : Nat
  status : Nat := 3  -- R568: 0 none, 1 complete, 2 open, 3 in progress
  try_ : Nat := 0
  openAfter : Nat := 0
  entries : List SweepEntry := []
  parts : List (Nat × Nat) := []  -- R566: thirds of an entry that have arrived, by node
  ref : Option Ref := none  -- R566: the command that it completes
  at_ : Nat := 0  -- R566: count at the latch
  deriving DecidableEq, Repr

/-- A chunk sent and not yet acknowledged (R570). -/
structure SentChunk where
  k : Nat
  at_ : Nat
  resends : Nat := 0
  deriving DecidableEq, Repr

/-- A package in staging (R572). -/
structure Staging where
  manifest : Option Manifest := none
  body : List (Nat × Nat) := []  -- R572: body chunks, by number, each named by its content
  deriving DecidableEq, Repr

/-- A relay session on the sending side (R570). -/
structure Relay where
  action : Nat  -- R566: commit action that downstream nodes apply
  chunks : Nat  -- chunks of the package, manifest included
  next : Nat := 0  -- next chunk to send
  out : List SentChunk := []  -- R570: at most two
  last : Option Nat := none  -- R570: last chunk acknowledged
  ref : Option Ref := none  -- R570: the issuer's command
  pkg : Staging := {}  -- R570: the chunks that have passed verification here
  deriving DecidableEq, Repr

/-- A firmware slot's image (R528, R573). -/
structure FwSlot where
  image : Nat := 0  -- its content's name, 0 for none
  version : Nat := 0  -- R572: FW_VERSION, eight characters
  svn : Nat := 0  -- R572
  setFmt : Nat := 0  -- R582
  test : Bool := false  -- R531
  owner : Bool := false  -- R531: carries owner counter-signatures that verify
  intact : Bool := true  -- R531: its at-rest tag and signatures verify
  deriving DecidableEq, Repr

/-- A commit that waits for the Folio (R573, R575). -/
structure Commit where
  ref : Option Ref  -- the command, or none for a relayed package
  action : Nat
  manifest : Manifest
  deriving DecidableEq, Repr

/-- The Brynnyx link and the firmware slots (chapter 16). -/
structure Bxl where
  up : BxlPort := {}  -- R556
  dn : BxlPort := {}  -- R556
  id : Nat := 0  -- R560: node ID, 14 bits
  idValid : Bool := false  -- R560
  idStale : Bool := false  -- R561
  limited : Bool := false  -- R560: received ENUM with 16,383; relays nothing further
  master : Option Nat := none  -- R564: the time master's node ID
  isMaster : Bool := false  -- R564
  contended : Bool := false  -- R564
  toward : Option Bool := none  -- R562: port that faces the server, true for UP
  masterSrc : Nat := 255  -- R54, R562: the time master's source code: 0 holdover, 1 SYNC_IN with time of day, 3 PTM, 255 unsynchronised
  masterCls : Nat := 3  -- R563: the time master's class
  masterUnc : Nat := 65535  -- R54: the time master's own uncertainty, ns
  exch : Option Exchange := none  -- R562
  exchAt : Nat := 0  -- R562: count at the last exchange started as server
  claimAt : Nat := 0  -- R564: count at the last CLAIM sent
  cuts : List Nat := []  -- R565: outcomes of the last 16 cut numbers, newest first (the CUTS bytes of a sweep entry)
  cutNo : Nat := 0  -- R565: cut number of the newest outcome
  cutIssued : Nat := 0  -- R565: cuts that this node has broadcast
  report : Option Report := none  -- R568: the last report issued
  retries : Nat := 0  -- R569: retries of the open sweep made
  asked : Option (Nat × Bool) := none  -- R569: the count at the last SWEEP_REQ, and whether its end has passed
  askedBy : Nat := 0  -- R566: the node that issued that sweep
  held : Option (SweepEntry × Nat) := none  -- R569: entry held after a break, and the count
  staging : Staging := {}  -- R185, R570
  relay : Option Relay := none  -- R570: the session this node sends
  recv : Option (Nat × Nat) := none  -- R570: commit action and chunks of the session this node receives
  commits : List Commit := []  -- R573: commits that wait for the Folio, oldest first
  slots : List FwSlot := [{ image := 1 }, {}, {}]  -- R518: firmware slots 1 to 3
  loader : List Nat := [1, 1]  -- R574: boot loader copies A and B, by content
  rcd : SlotRec := {}  -- R578
  runSlot : Nat := 1  -- R578
  wdLeft : Nat := 0  -- R579: watchdog time left, 1/256 ns
  wdAt : Nat := 0  -- R579: count up to which it has run
  trialAt : Nat := 0  -- R579: count at which TRIAL began
  drilled : Bool := false  -- R579: the suite's role drill has run
  lastOut : Nat := 0  -- R587: BXL_FW_STATUS.LAST_OUT
  lock : Bool := false  -- R577: feature 0xC6 LOCK, held in Folio Tally
  force : Bool := false  -- R577: feature 0xC6 FORCE
  heldSets : Bool := false  -- R582: settings changed during TRIAL wait in D5 SDRAM
  deriving DecidableEq, Repr

/-- Who may hold the Management Authority lock (R188, R630). -/
inductive Holder where
  | pf0 | pf1 | mgmt
  deriving DecidableEq, Repr

/-- A message of the management port that the mode does not answer at once (R628): the rows that come over MCTP, with their operands. -/
inductive Request where
  | setEndpointId (op eid : Nat)
  | getEndpointId
  | getEndpointUuid
  | getMctpVersionSupport (kind : Nat)
  | getMessageTypeSupport
  | nvmSubsystemHealthStatusPoll (eid : Nat)
  | controllerHealthStatusPoll (eid ctrl : Nat)
  | readNvmeMiDataStructure (eid dtyp id : Nat)
  | configurationGet (eid id : Nat)
  | configurationSet (eid id value : Nat)
  | vpdRead (eid off len : Nat)
  | tunnelledAdminCommand (eid req resp : Nat) (page : Option Nat)
  | powerOn (eid : Nat)
  | powerOff (eid : Nat)
  | registerWindowRead (eid off dwords : Nat)
  | miAuthorityAcquire (eid : Nat)
  | miAuthorityRelease (eid : Nat)
  | miReset (eid : Nat) (env : BootEnv)
  | deviceReset (eid : Nat) (env : BootEnv)
  | registerWindowWrite (eid off : Nat) (values : List Nat) (env : BootEnv)
  | getVersion (party : Party)
  | getCapabilities (party : Party)
  | negotiateAlgorithms (party : Party) (offered : Bool)
  | getDigests (party : Party)
  | getCertificate (party : Party) (slot off len : Nat)
  | challenge (party : Party) (slot : Nat)
  | getMeasurements (party : Party) (index : Nat)
  | keyExchange (party : Party) (slot : Nat)
  | finish (party : Party) (session : Nat) (ok : Bool)
  | heartbeat (party : Party) (session : Nat)
  | keyUpdate (party : Party) (session op : Nat)
  | endSession (party : Party) (session : Nat)
  deriving DecidableEq, Repr

/-- The management port (chapter 18). -/
structure Mgmt where
  lock : Option Holder := none  -- R188, R630: holder of the Management Authority lock
  lockTemp : Bool := false  -- R67, R187, R626: the lock is held only for the duration of a command
  lockEid : Nat := 0  -- R630: endpoint ID for which the management port holds it
  lockAt : Nat := 0  -- R632: count at the holder's last command
  lockRefs : List Ref := []  -- R631: commands that run under the holding
  lockRel : Bool := false  -- R631: an explicit holding is released once they complete
  alert : Bool := false  -- R633: an alert is asserted and not acknowledged
  straps : Nat := 0  -- R622: GPIO8 and GPIO9 as sampled
  i3c : Bool := false  -- R622: I3C mode
  dyn : Option Nat := none  -- R622: dynamic address
  eid : Nat := 0  -- R623: MCTP endpoint ID, 0 when cleared
  tunnels : Nat := 0  -- R624: command slots that hold a tunnelled command, at most 2
  tunnelEid : Nat := 0  -- R630: endpoint ID of the newest tunnelled command
  held : List (Bool × Request) := []  -- R628: requests received in DOZE that wait for the wake, and whether each takes a command slot
  cfg : List (Nat × Nat) := []  -- R624: configuration values, by identifier
  vpd : Option (List Nat) := none  -- R624: fuse words 98 to 161 as cached at the last BOOT
  kind : Nat := 0  -- R628: last shutdown record kind, in the always-on cache
  bootSeq : Nat := 0  -- R552: BOOT_SEQ in the always-on island
  digest : Nat := 0  -- R552: DIGEST of the newest Colophon entry, in the always-on island
  deriving DecidableEq, Repr

/-- An SPDM connection (R539, R625): how far its negotiation is, and its sessions. -/
structure SpdmConn where
  party : Party
  stage : Nat := 0  -- R539: 1 after GET_VERSION, 2 after GET_CAPABILITIES, 3 after NEGOTIATE_ALGORITHMS
  next : Nat := 1  -- the model's own number of the next session
  sessions : List (Nat × Bool × Nat) := []  -- R539: sessions: number, established, key generation
  deriving DecidableEq, Repr

/-- What the block sends out: the record of a step's messages, newest first. -/
inductive Output where
  | cqe (ref : Ref) (status : Status) (dw0 : Nat)
  | msix (pf vector : Nat)
  | aer (fn severity : Nat)
  | alert (source : Nat)
  | aen (ctrl group : Nat)
  | ptmRequest (port : Nat)
  | translate (port fn page : Nat)
  /-- The Inkwell's answer to a Tine's request (R218): the chain. -/
  | inkAnswer (stream osn head : Nat)
  | hostData (ref : Ref) (blocks : Nat) (poison : Bool)
  | unsupported (fn : Nat)
  | barPoison (off : Nat)
  | intx (pf : Nat)
  | msi (pf vector : Nat)
  | invalidated (port itag : Nat)
  | doe (pf kind : Nat)
  | regRead (off value : Nat)
  | rsvReport (ref : Ref) (resv : Resv)
  | bxl (up : Bool) (hdr : FrameHdr) (f : Frame)
  | tine (stream osn : Nat)
  | data (ref : Ref) (opcode id off len : Nat) (fields : List (Nat × Nat × Nat))
  | mi (status : Nat) (data : List Nat)
  | mctp (kind : Nat) (data : List Nat)
  | spdm (dest : Party) (code : Nat) (data : List Nat)
  | ibi (group : Nat)
  /-- A Voltage write on AVSBus, rail 0 (R603): the setpoint code. -/
  | avs (code : Nat)
  /-- A result that the cipher engine releases to an owner, and the IV that it made for a GCM encryption (R549, R550). -/
  | gce (owner : Nat) (op : GceOp) (iv : Option Nat)
  /-- A Quill's bus action (R405, R407): BUS, its byte or its codewords, and DEC, SOFT and ENC in bits 0 to 2. -/
  | nand (nib bus value flags : Nat)
  deriving DecidableEq, Repr

/-- Why the block stops with a fault. No command of this model does: the spec gives every row an effect, or the row has
none in the state it meets, and an access outside BAR2's registers completes as R124 says (safe). -/
inductive Fault where
  /-- Raised by no command (safe). -/
  | unreachable
  deriving DecidableEq, Repr

/-- Why a command has no meaning yet: it is rejected by its table name (safe: a rejected command changes nothing). -/
inductive Refusal where
  /-- Raised by an arm of `exec` whose command has no meaning yet (safe); no arm does. -/
  | notModelled (mnemonic : String)
  deriving DecidableEq, Repr

/-- The machine's state: everything the spec gives the block, and the queue of waiting commands. -/
structure State where
  mode : Mode := .boot  -- R4: the mode (4 bits in DEV_MODE.MODE)
  regs : List (Nat × Word) := []  -- R636 to R638: the register file, sparse; an unlisted register reads its reset value
  evu : Evu := {}  -- chapter 14
  rul : Rul := {}  -- chapter 2
  stk : Stk := {}  -- chapter 3
  nib : NibSt := {}  -- chapter 10
  hp : Hp := {}  -- chapter 4
  qe : Qe := {}  -- chapter 5
  ink : Ink := {}  -- chapter 6
  map : MapSt := {}  -- chapter 7
  ckpt : Ckpt := {}  -- chapter 8
  blt : Blt := {}  -- chapter 12
  fol : Fol := {}  -- chapter 15
  gce : Gce := {}  -- chapter 15
  tine : Tine := {}  -- chapter 13
  bxl : Bxl := {}  -- chapter 16
  mgmt : Mgmt := {}  -- chapter 18
  spdm : List SpdmConn := []  -- R539, R625: SPDM connections
  pwr : Pwr := {}  -- chapter 17
  thm : Thm := {}  -- chapter 17
  sent : List Output := []  -- the model's own record of what left the block, newest first
  freeCtr : Nat := 0  -- the model's own counter that indexes free values
  pending : List Instr := []  -- the model's own queue of waiting commands, first in, first out
  deriving DecidableEq, Repr

/-- The machine right after reset: the start of BOOT, every register at R638's reset value. Log entry 14 (DESIGN CHOICE). -/
def State.reset : State := {}

end Sys2Proof.Machine
end

