-- ==== Sys2Proof/Machine/Ops.lean ====
section
/-! DEFINITION. The operations that every family shares: the register file, the ruling count as a time, the Event
Unit's post, completions, the entry to SAFE and the settling of the mode. -/

namespace Sys2Proof.Machine

/-- The answer of a command that goes on. -/
abbrev Res := Host.Outcome State Fault Refusal

/-- Changes the records of a list that a test picks. -/
def updWhere {α : Type} (p : α → Bool) (f : α → α) (l : List α) : List α := l.map (fun x => if p x then f x else x)

/-! ## The register file -/

/-- A register's contents as a number. -/
def State.reg (s : State) (key : Nat) : Nat := (sget regReset s.regs key).toNat

/-- Stores a register's contents. -/
def State.setReg (s : State) (key v : Nat) : State :=
  { s with regs := sset regReset s.regs key (BitVec.ofNat 32 v) }

/-- A field's value. -/
def State.fld (s : State) (f : Fld) : Nat := bitsOf (s.reg f.key) f.lo f.w

/-- Stores a field, taken modulo its width. -/
def State.setFld (s : State) (f : Fld) (v : Nat) : State := s.setReg f.key (bitsPut (s.reg f.key) f.lo f.w v)

/-- A one-bit field as a truth value. -/
def State.flag (s : State) (f : Fld) : Bool := s.fld f == 1

/-- Whether a port exists (R111). -/
def State.hasPort (s : State) (p : Nat) : Bool := p = 0 || (p = 1 && s.flag F.HP_CFG_DUAL)

/-- A field's value saturated at its width (counters that saturate). -/
def State.bumpFld (s : State) (f : Fld) : State := s.setFld f (min (2 ^ f.w - 1) (s.fld f + 1))

/-! ## Time -/

/-- 1/256 ns units in a nanosecond, a microsecond, a millisecond and a second. -/
def nsT : Nat := 256
def usT : Nat := 256 * 1000
def msT : Nat := 256 * 1000000
def secT : Nat := 256 * 1000000000
/-- 24 hours in 1/256 ns. -/
def dayT : Nat := 86400 * secT

/-- The denominator of a rate in 1/256 ppb (R41). -/
def rateDen : Nat := 256 * 1000000000

/-- The ruling count in 1/256 ns: the count of the counter in service (R36, R37). Log entry 5 (DEDUCED). -/
def Rul.count (r : Rul) : Nat := if r.maskA then r.b.count else r.a.count

/-- The line index of the counter in service (R38). -/
def Rul.lineIdx (r : Rul) : Nat := if r.maskA then r.b.line else r.a.line

/-- Now, in 1/256 ns. Log entry 5 (DEDUCED). -/
def State.now (s : State) : Nat := s.rul.count

/-- The islands that keep a ruling copy (R19, R44), numbered by the model: Host Port, Queue Engine, Cipher, Inkwell, Stroke Scheduler,
Ligature, Map Engine, and from 8 on the Nibs. Log entry 81 (DESIGN CHOICE). -/
def islHost : Nat := 0
def islQueue : Nat := 1
def islStroke : Nat := 4
def islMap : Nat := 6
def islNib (n : Nat) : Nat := 8 + n
def islandIds : List Nat := List.range 7 ++ (List.range 48).map islNib

/-- The ruling copy of an island (R19 to R21); the Ruling's own count before lines have started. Log entry 81 (DESIGN CHOICE). -/
def State.nowAt (s : State) (i : Nat) : Nat :=
  match s.rul.islands.lookup i with
  | some x => x.copy
  | none => s.now

/-- The line pitch in force, ns (R42). -/
def State.pitchNs (s : State) : Nat := (s.fld F.RUL_LINE_PITCH_ACTIVE + 1) * 16

/-- The uncertainty now, ns, saturating at 65,535 (R57, R58). -/
def State.uncNow (s : State) : Nat :=
  if s.rul.cls = 3 then 65535
  else
    let grown := s.rul.uncBase + s.rul.growth * (s.now - s.rul.uncAt) / 1000000000
    min 65535 (ceilDiv grown 256)

/-- The stamp of this instant (R59). -/
def State.stamp (s : State) : Stamp := ⟨s.now / 256, s.uncNow, s.rul.cls⟩

/-- Lines start (R42, R44): the next one falls at the first multiple of the pitch at or after the count, every island's copy starts at the
count, and the announcements of the first two lines are on their way. Log entry 81 (DESIGN CHOICE). -/
def State.startLines (s : State) : State :=
  let pitch := s.pitchNs * 256
  let next := (s.now + pitch - 1) / pitch * pitch
  let l := s.rul.lineIdx
  let x : Island := { fifo := [(l + 1, next), (l + 2, next + pitch)], base := s.now, copy := s.now }
  { s with rul := { s.rul with nextLine := next, islands := islandIds.map (fun i => (i, x)) } }

/-! ## Messages -/

/-- Records a message that leaves the block. Log entry 74 (DESIGN CHOICE). -/
def State.emit (s : State) (o : Output) : State := { s with sent := o :: s.sent }

/-- The unit number of an entry that names none (R516). -/
def noUnit : Nat := 0xFFFFFFFF

/-! ## Functions and their settings -/

/-- TotalVFs of a PF (R122). -/
def State.totalVfs (s : State) (pf : Nat) : Nat :=
  let pf1 := s.flag F.HP_CFG_DUAL || s.flag F.HP_CFG_PF1_EN
  let v := min 254 (s.fld F.HP_SRIOV_CFG_PF0_VFS)
  match pf with
  | 0 => if pf1 then v else 254
  | 1 => if pf1 then 254 - v else 0
  | _ => 0

/-- The PF of a controller (R152): controller 2 + v is VF v, PF0's VFs first. -/
def State.pfOf (s : State) (c : Nat) : Nat := if c < 2 then c else if c - 2 < s.totalVfs 0 then 0 else 1

/-- The port of a controller (R121). -/
def State.portOf (s : State) (c : Nat) : Nat := if s.flag F.HP_CFG_DUAL then s.pfOf c else 0

/-- First VF Offset of a PF (R122). -/
def State.vfOffset (s : State) (pf : Nat) : Nat :=
  if s.flag F.HP_CFG_DUAL || !s.flag F.HP_CFG_PF1_EN then 1 else if pf = 0 then 2 else 1 + s.totalVfs 0

/-- The function number of a controller on its port (R121, R122). -/
def State.functionNo (s : State) (c : Nat) : Nat :=
  let pf := s.pfOf c
  let own := if pf = 0 || s.flag F.HP_CFG_DUAL then 0 else 1
  if c < 2 then own else own + s.vfOffset pf + (c - 2 - if pf = 0 then 0 else s.totalVfs 0)

/-- The settings that the host has made on a function. -/
def State.fnCfg (s : State) (fn : Nat) : FnCfg := (s.hp.fns.find? (fun c => c.fn == fn)).getD { fn }

/-- Changes the settings of a function. -/
def State.updFn (s : State) (fn : Nat) (f : FnCfg → FnCfg) : State :=
  { s with hp := { s.hp with fns := f (s.fnCfg fn) :: s.hp.fns.filter (fun c => c.fn != fn) } }

/-- The size of a BAR of a PF or a VF (R123); a VF has no BAR2. -/
def barSize (pf : Bool) (bar : Nat) : Nat :=
  match bar with
  | 0 => if pf then 65536 else 16384
  | 2 => if pf then 1048576 else 0
  | _ => if pf then 65536 else 4096

/-- The ranges of a function's BARs: base and size (R123). -/
def fnRanges (c : FnCfg) : List (Nat × Nat) :=
  [(c.bar0, 0), (c.bar2, 2), (c.bar4, 4)].filterMap (fun b => b.1.map (fun a => (a, barSize (c.fn < 2) b.2)))

/-- Whether a range of host addresses touches a BAR of an enabled function of either port (R130). -/
def State.touchesBar (s : State) (addr len : Nat) : Bool :=
  (s.hp.fns.filter (fun c => s.qe.ctrls.any (fun k => k.id == c.fn))).any (fun c =>
    (fnRanges c).any (fun r => addr < r.1 + r.2 && r.1 < addr + len))

/-! ## AER -/

/-- The correctable errors (R135). -/
def errCorrectable : AerErr → Bool
  | .receiver | .badTlp | .badDllp | .replayRollover | .replayTimeout | .headerOverflow | .correctedInternal | .advisory => true
  | _ => false

/-- The default severity of an uncorrectable error (R135): whether it is fatal. -/
def errFatal : AerErr → Bool
  | .dataLink | .flowControl | .receiverOverflow | .malformed | .uncorrectableInternal => true
  | _ => false

/-- The errors that a received TLP causes, whose header is logged (R128, R135). -/
def errHasTlp : AerErr → Bool
  | .poisoned | .completerAbort | .unexpectedCompletion | .ecrc | .unsupportedRequest | .egressBlocked | .malformed | .receiverOverflow
  | .flowControl => true
  | _ => false

/-- The severity of an error under a function's settings: 0 correctable, 1 non-fatal, 2 fatal. -/
def fnSeverity (c : FnCfg) (e : AerErr) : Nat := if errCorrectable e then 0 else if (c.aerSev.lookup e).getD (errFatal e) then 2 else 1

/-- A function's AER capability. -/
def State.aerCap (s : State) (fn : Nat) : AerCap := (s.hp.aer.find? (fun a => a.fn == fn)).getD { fn }

/-- Logs an error in a capability with its TLP's header and prefix (R128, R135): the first header is held, one that finds the log taken is
a Header Log Overflow. -/
def AerCap.log (a : AerCap) (e : AerErr) (n : Nat) : AerCap :=
  let put (l : List AerErr) (x : AerErr) : List AerErr := if l.contains x then l else x :: l
  if !errHasTlp e then { a with errs := put a.errs e }
  else if a.first.isSome then { a with errs := put (put a.errs e) .headerOverflow }
  else { a with errs := put a.errs e, first := some e, header := Config.tlpHeader n, tlpPrefix := Config.tlpPrefix n }

/-- Counts a correctable error of a port (R150), saturating. -/
def State.countCorr (s : State) (port : Nat) : State := s.bumpFld (F.HP_ERR_CNT_CORR port)

/-- One error of a function's AER capability (R135, R150): logged, counted where it is correctable, and signalled unless the host masks it.
A poisoned TLP whose severity is non-fatal is an Advisory Non-Fatal error. Log entry 98 (DEDUCED). -/
def State.aerPost (s : State) (fn : Nat) (e : AerErr) : State :=
  if !s.qe.ctrls.any (fun k => k.id == fn) then s
  else
    let c := s.fnCfg fn
    let advisory := e == .poisoned && fnSeverity c e == 1
    let a := (s.aerCap fn).log e s.hp.tlps
    let a1 := if advisory then a.log .advisory s.hp.tlps else a
    let s1 : State := { s with hp := { s.hp with aer := a1 :: s.hp.aer.filter (fun x => x.fn != fn), tlps := s.hp.tlps + 1 } }
    let s2 := if errCorrectable e || advisory then s1.countCorr (s.portOf fn) else s1
    if c.aerMask.contains e || (advisory && c.aerMask.contains .advisory) then s2 else s2.emit (.aer fn (if advisory then 0 else fnSeverity c e))

/-- A Corrected or Uncorrectable Internal Error of the catalogue (R135): on every enabled PF. -/
def State.aerInternal (s : State) (c : Aer) : State :=
  match c with
  | .none => s
  | .corrected => (s.aerPost 0 .correctedInternal).aerPost 1 .correctedInternal
  | .uncorrectable => (s.aerPost 0 .uncorrectableInternal).aerPost 1 .uncorrectableInternal

/-! ## Interrupts -/

/-- Whether a message of a vector is masked under the method that the host has enabled (R137, R138). -/
def State.vecMasked (s : State) (fn vec : Nat) : Bool :=
  if s.hp.msix.contains fn then (s.fnCfg fn).fnMask || !s.hp.vecOpen.contains (fn, vec)
  else if s.hp.msi.contains fn then s.hp.msiMask.contains (fn, vec)
  else s.hp.intMask.contains (fn, vec)

/-- Delivers an interrupt vector of a function by the first method that the host has enabled (R137): MSI-X, MSI (PFs
only, up to the vectors enabled) or INTx (PFs only, under INTMS). A message whose vector or function is masked, or whose function is in
D3hot, waits in its pending bit (R120, R138). -/
def State.irq (s : State) (fn vec : Nat) : State :=
  let x := s.hp.msix.contains fn
  let m := s.hp.msi.contains fn
  if !x && (2 ≤ fn || (m && (s.fnCfg fn).msiVecs ≤ vec)) then s
  else if s.hp.d3hot.contains fn || s.vecMasked fn vec then
    if s.hp.vecPend.contains (fn, vec) then s else { s with hp := { s.hp with vecPend := (fn, vec) :: s.hp.vecPend } }
  else s.emit (if x then .msix fn vec else if m then .msi fn vec else .intx fn)

/-! ## Memory reads of the host port -/

/-- Requests of a port that are outstanding (R117). -/
def State.portOut (s : State) (p : Nat) : Nat := ((s.hp.reads.filter (fun a => a.port == p)).map (fun a => a.out.length)).sum

/-- Changes one access. -/
def State.updAcc (s : State) (k : Nat) (f : MemAcc → MemAcc) : State := { s with hp := { s.hp with reads := s.hp.reads.modify k f } }

/-- The cached translation of a function's page (R139). -/
def State.xlatOf (s : State) (port fn page : Nat) : Option Xlat :=
  s.hp.atc.find? (fun x => x.port == port && x.fn == fn && x.page == page)

/-- A translation is used (R139). -/
def State.useXlat (s : State) (port fn page : Nat) : State :=
  let l := updWhere (fun x => x.port == port && x.fn == fn && x.page == page) (fun x => { x with used := s.nowAt islHost }) s.hp.atc
  { s with hp := { s.hp with atc := l } }

/-- One request leaves. -/
def State.launchReq (s : State) (k : Nat) (a : MemAcc) (rest : List (Option Nat)) (page : Option Nat) : State :=
  ({ s with hp := { s.hp with reqs := s.hp.reqs + 1 } }).updAcc k (fun _ =>
    { a with todo := rest, asked := false, out := a.out ++ [(⟨s.hp.reqs, page, s.nowAt islHost⟩ : OutReq)] })

/-- Issues the requests of one access in order (R117, R120, R139): none while 4,096 of its port are outstanding or its function is in
D3hot; under ATS one whose page has no translation asks for it and waits. -/
def State.issueAcc (s : State) (k : Nat) : Nat → State
  | 0 => s
  | fuel + 1 =>
    match s.hp.reads[k]? with
    | none => s
    | some a =>
      match a.todo with
      | [] => s
      | p :: rest =>
        let page := if s.hp.ats.contains a.fn then p else none
        if s.hp.d3hot.contains a.fn || 4096 ≤ s.portOut a.port then s
        else
          match page with
          | some g =>
            if (s.xlatOf a.port a.fn g).isNone then
              (if a.asked then s else (s.updAcc k (fun a => { a with asked := true })).emit (.translate a.port a.fn g))
            else ((s.useXlat a.port a.fn g).launchReq k a rest page).issueAcc k fuel
          | none => (s.launchReq k a rest page).issueAcc k fuel

/-- Issues what may be issued, oldest access first. Log entries 75 and 84 (DEDUCED, DESIGN CHOICE). -/
def State.issueReads (s : State) : State :=
  ((List.range s.hp.reads.length).foldl (fun (s : State) k => s.issueAcc k (((s.hp.reads[k]?).map (fun a => a.todo.length)).getD 0)) s)

/-- A new access of a function to host memory. -/
def State.readHost (s : State) (fn : Nat) (what : MemRead) (slots : List Nat) (pages : List (Option Nat)) : State :=
  ({ s with hp := { s.hp with reads := s.hp.reads ++ [({ port := s.portOf fn, fn, what, slots, todo := pages } : MemAcc)] } }).issueReads

/-- Accesses that a test picks issue no further request. -/
def State.stopReads (s : State) (p : MemRead → Bool) : State :=
  let stop (a : MemAcc) : MemAcc := if p a.what then { a with todo := [] } else a
  { s with hp := { s.hp with reads := (s.hp.reads.map stop).filter (fun a => !(a.todo.isEmpty && a.out.isEmpty)) } }

/-- Accesses with nothing left to issue or to await go. -/
def State.sweepReads (s : State) : State := s.stopReads (fun _ => false)

/-- Requests that have ended (R140): step 2 of the invalidations that wait for them. -/
def State.retire (s : State) (nos : List Nat) : State :=
  let one (v : Inval) : Inval :=
    let w := v.waits.filter (fun n => !nos.contains n)
    { v with waits := w, step2 := if w.isEmpty && !v.waits.isEmpty then some s.now else v.step2 }
  { s with hp := { s.hp with invals := s.hp.invals.map one } }

/-- The host address at a byte of a command's data. -/
def addrAt : List (Nat × Nat) → Nat → Option Nat
  | [], _ => none
  | p :: ps, off => if off < p.2 then some (p.1 + off) else addrAt ps (off - p.2)

/-- The requests of a function for `len` bytes from a byte of a command's data on (R116): one for each Max Read Request Size. -/
def State.pagesOf (s : State) (ref : Ref) (fn off len : Nat) : List (Option Nat) :=
  let m := (s.fnCfg fn).mrrs
  let ps := ((s.hp.ptrs.lookup ref).map (fun e => e.2)).getD []
  (List.range (ceilDiv len m)).map (fun j => (addrAt ps (off + j * m)).map (· / 4096))

/-! ## Completions -/

/-- Whether a completion queue has no free entry for the head last read (R156). -/
def Cq.isFull (c : Cq) : Bool := c.size ≤ 1 || (c.tail + 1) % c.size == c.head % c.size

/-- The status code type and status code of a status: type 7h and R194's codes for the vendor's, the base specification's for the
others. Log entry 20 (PRESUMED). -/
def Status.code : Status → Nat × Nat
  | .success => (0, 0x00) | .invalidOpcode => (0, 0x01) | .invalidField => (0, 0x02) | .dataTransfer => (0, 0x04)
  | .internalError => (0, 0x06) | .abortRequested => (0, 0x07) | .abortedSqDeletion => (0, 0x08) | .failedFused => (0, 0x09)
  | .missingFused => (0, 0x0A) | .invalidNamespace => (0, 0x0B) | .cmdSeqError => (0, 0x0C) | .sglInvalid => (0, 0x0D)
  | .prpOffsetInvalid => (0, 0x13) | .abortedPreempt => (0, 0x1B) | .sanitizeFailed => (0, 0x1C) | .sanitizeInProgress => (0, 0x1D)
  | .writeProtected => (0, 0x20) | .commandInterrupted => (0, 0x21) | .transientTransport => (0, 0x22) | .lbaRange => (0, 0x80)
  | .capacityExceeded => (0, 0x81) | .namespaceNotReady => (0, 0x82) | .reservationConflict => (0, 0x18)
  | .completionQueueInvalid => (1, 0x00) | .invalidQueueId => (1, 0x01) | .invalidQueueSize => (1, 0x02) | .abortLimit => (1, 0x03)
  | .aerLimit => (1, 0x05) | .invalidFwSlot => (1, 0x06) | .invalidFwImage => (1, 0x07) | .invalidVector => (1, 0x08)
  | .invalidLogPage => (1, 0x09) | .invalidFormat => (1, 0x0A) | .fwNeedsReset => (1, 0x0B) | .invalidQueueDeletion => (1, 0x0C)
  | .featureNotSaveable => (1, 0x0D) | .overlappingRange => (1, 0x14) | .nsInsufficientCapacity => (1, 0x15)
  | .nsIdUnavailable => (1, 0x16) | .nsAlreadyAttached => (1, 0x18) | .nsNotAttached => (1, 0x1A) | .controllerListInvalid => (1, 0x1C)
  | .invalidPlacementHandle => (0, 0x2A) | .invalidInputSize => (0, 0x32)
  | .unrecoveredRead => (2, 0x81) | .compareFailure => (2, 0x85) | .accessDenied => (2, 0x86) | .deallocatedBlock => (2, 0x87)
  | .deadlineNotAdmissible => (7, 0x80) | .cutRefused => (7, 0x81) | .updateRefused => (7, 0x82) | .authorityElsewhere => (7, 0x83)
  | .rulingUnsync => (7, 0x84) | .poisonedData => (7, 0x85)

/-- Do Not Retry of a status (R194): the table's for the vendor's, 0 for Command Interrupted (R277); where the spec gives none, an open value. -/
def Status.dnr (st : Status) : Bool :=
  match st.code with
  | (7, 0x81) | (7, 0x82) | (7, 0x85) => true
  | (7, _) | (0, 0) | (0, 0x21) => false
  | (t, c) => Config.dnr t c

/-- More of a status (R189, R194): an entry of log page 0x01 tells more of an error that is not the vendor's. Log entry 18 (PRESUMED). -/
def Status.more (st : Status) : Bool := st != .success && st.code.1 != 7

/-- The Status field of a completion entry, from bit 17 of DW3 on (R194): SC, SCT, More and DNR. -/
def Status.field (st : Status) : Nat := st.code.2 + 256 * st.code.1 + 8192 * bit st.more + 16384 * bit st.dnr

/-- Notes an error on log page 0x01 of its controller, which keeps the newest 256 (R189). Log entry 18 (PRESUMED). -/
def State.noteError (s : State) (ref : Ref) (st : Status) : State :=
  match ref with
  | .side => s
  | .host c _ _ =>
    if !st.more then s
    else
      let mine := s.qe.errLog.filter (fun e => e.ctrl == c)
      let e : ErrEntry := { ctrl := c, no := ((mine.map (fun e => e.no)).headD 0) + 1, ref, status := st }
      { s with qe := { s.qe with errLog := e :: mine.take 255 ++ s.qe.errLog.filter (fun e => e.ctrl != c) } }

/-- Writes one completion entry, its interrupt, and frees the tag (R125, R158). -/
def State.writeCqe (s : State) (c : Cq) (ref : Ref) (st : Status) (dw0 : Nat) : State :=
  let t := (c.tail + 1) % c.size
  let c' : Cq := { c with
    tail := t
    phase := if t = 0 then !c.phase else c.phase
    eventIdx := (c.head + c.size - 1) % (max 1 c.size) }
  let s1 : State := { s with
    qe := { s.qe with
      cqs := updWhere (fun x => x.ctrl == c.ctrl && x.qid == c.qid) (fun _ => c') s.qe.cqs
      tags := s.qe.tags.erase ref }
    hp := { s.hp with ptrs := s.hp.ptrs.filter (fun e => e.1 != ref) } }.emit (.cqe ref st dw0)
  let s2 := s1.noteError ref st
  if c.ien then s2.irq c.ctrl c.vector else s2

/-- Whether a read of a completion queue's shadow head is under way (R156). -/
def State.headRead (s : State) (ctrl cq : Nat) : Bool :=
  s.hp.reads.any (fun a => match a.what with | .head c q _ => c == ctrl && q == cq | _ => false)

/-- The completion queue of a submission queue. -/
def State.cqOf (s : State) (ctrl sq : Nat) : Option Cq :=
  let qid := match s.qe.sqs.find? (fun q => q.ctrl == ctrl && q.qid == sq) with
    | some q => q.cqid
    | none => sq
  s.qe.cqs.find? (fun c => c.ctrl == ctrl && c.qid == qid)

/-- Posts a completion (R125). Where the last head read leaves no free entry it waits, and under shadow doorbells the shadow head is read
first (R156). HOLD-UP and OFF post none (R204), and a command of a disabled controller ends without a completion (R201). -/
def State.complete (s : State) (ref : Ref) (st : Status) (dw0 : Nat) : State :=
  match ref with
  | .side => { s with mgmt := { s.mgmt with tunnels := s.mgmt.tunnels - 1 } }.emit (.cqe .side st dw0)
  | .host ctrl sq _ =>
    if s.mode = .holdUp || s.mode = .off then s
    else
      match s.qe.ctrls.find? (fun c => c.id == ctrl && c.en), s.cqOf ctrl sq with
      | some k, some c =>
        if s.hp.d3hot.contains ctrl then { s with qe := { s.qe with full := s.qe.full ++ [⟨ref, st, dw0⟩] } }
        else if c.isFull then
          let s1 : State := { s with qe := { s.qe with full := s.qe.full ++ [⟨ref, st, dw0⟩] } }
          if k.shadowDb && !s.headRead ctrl c.qid then s1.readHost ctrl (.head ctrl c.qid 0) [] [none] else s1
        else s.writeCqe c ref st dw0
      | _, _ => { s with qe := { s.qe with tags := s.qe.tags.erase ref } }

/-- Ends a command at once with a status and DW0. -/
def State.done (s : State) (ref : Ref) (st : Status) (dw0 : Nat := 0) : Res := .next (s.complete ref st dw0)

/-- Asserts a sideband alert, or in I3C mode an In-Band Interrupt with the group number (R501, R633): none is added while one is unacknowledged. Log entry 79 (DEDUCED). -/
def State.sendAlert (s : State) (src : Nat) : State :=
  if s.mgmt.alert then s else { s with mgmt := { s.mgmt with alert := true } }.emit (if s.mgmt.i3c then .ibi (src / 32) else .alert src)

/-- DW0 of an asynchronous event (R514): a group of the Event Unit has type 7 and Log Page Identifier 0xC2; group 64 stands
for the base specification's Namespace Attribute Changed, 65 for Invalid Doorbell Write Value and 66 for Reservation Log
Page Available. -/
def aenDw0 (group : Nat) : Nat :=
  match group with
  | 64 => 2 + 4 * 2 ^ 16
  | 65 => 2 ^ 8 + 2 ^ 16
  | 66 => 6 + 0x80 * 2 ^ 16
  | g => 7 + g * 2 ^ 8 + 0xC2 * 2 ^ 16

/-- Hands an asynchronous event to a controller's oldest outstanding request, which completes, or lets it wait (R514). At
most one event per group and controller is outstanding. -/
def State.aenTo (s : State) (group ctrl : Nat) : State :=
  if s.evu.aenOut.contains (ctrl, group) then s
  else
    match s.qe.aers.find? (fun r => r.1 == ctrl) with
    | some r =>
      ({ s with
        qe := { s.qe with aers := s.qe.aers.erase r }
        evu := { s.evu with
          aenOut := if group < 64 then (ctrl, group) :: s.evu.aenOut else s.evu.aenOut
          aenWait := s.evu.aenWait.filter (fun w => !(w.1 == ctrl && w.2.1 == group)) } }).complete r.2 .success (aenDw0 group)
    | none =>
      if s.evu.aenWait.any (fun w => w.1 == ctrl && w.2.1 == group) then s
      else { s with evu := { s.evu with aenWait := s.evu.aenWait ++ [(ctrl, group, s.now)] } }

/-- Writes an entry of the health-log ring and counts its class (R505, R516). -/
def State.ringEntry (s : State) (src cls unit detail : Nat) : State :=
  let e : LogEntry := ⟨s.stamp, src, if cls = 0 then 0xFF else cls, s.mode.code, unit, 1, detail⟩
  { s with evu := { s.evu with
      log := e :: s.evu.log.take 1023
      total := s.evu.total + 1
      classCnt := s.evu.classCnt.modify cls (· + if cls = 0 then 0 else 1) } }

/-- A further occurrence of a source whose bit is set (R512): it adds 1 to COUNT of the source's newest entry. -/
def State.foldEntry (s : State) (src : Nat) : State :=
  { s with evu := { s.evu with log := s.evu.log.modify (s.evu.log.findIdx (fun e => e.source == src)) (fun e => { e with count := e.count + 1 }) } }

/-- An occurrence of one of the Event Unit's own sources (R511, R512, R517), of group 15: the bit and the entry. Its messages follow in
`State.sendOwn`. -/
def State.ownEntry (s : State) (f : Fld) : State :=
  let src := 480 + f.lo
  let logs := s.flag (F.EVU_ROUTE_LOG_EN src)
  if s.flag f && s.evu.log.any (fun e => e.source == src) then s.foldEntry src
  else if logs then (s.setFld f 1).ringEntry src 0 noUnit (s.setFld f 1 |>.reg f.key)
  else s.setFld f 1

/-- Writes a health-log entry (R512, R516); a ring entry overwritten before any read of log page 0xC2 sets LOG_WRAP. Log entry 61 (DEDUCED). -/
def State.logEntry (s : State) (src cls unit detail : Nat) : State :=
  let wrap := s.evu.log.length == 1024 && !s.evu.wasRead
  let s1 := s.ringEntry src cls unit detail
  if wrap then s1.ownEntry F.EVU_EVT_STATUS_LOG_WRAP else s1

/-- Sends one message of a source's routing (R513). A vector outside the PF's table, or an absent PF, posts nothing
and sets ROUTE_ERR. -/
def State.sendMsg (s : State) : EvtMsg → State
  | .msix pf v =>
    if v < 2048 && (s.qe.ctrls.any (fun c => c.id == pf)) then s.irq pf v
    else s.ownEntry F.EVU_EVT_STATUS_ROUTE_ERR
  | .aer c => s.aerInternal c
  | .alert src => s.sendAlert src
  | .aen _ g => (s.qe.ctrls.filter (fun c => c.en)).foldl (fun s c => s.aenTo g c.id) s

/-- The messages that a post of this source sends (R501, R513). -/
def State.msgsFor (s : State) (src cls : Nat) (aer : Aer) : List EvtMsg :=
  let cat := sourceClass src != 0
  let pf := s.fld (F.EVU_ROUTE_PF src)
  (if cat || s.flag (F.EVU_ROUTE_SB_EN src) then [.alert src] else [])
    ++ (if aer = .none || cls = 0 then [] else [.aer aer])
    ++ (if s.flag F.EVU_CTRL_MSIX_EN && s.flag (F.EVU_ROUTE_MSIX src) then [.msix pf (s.fld (F.EVU_ROUTE_VECTOR src))]
        else [])
    ++ (if s.flag F.EVU_CTRL_AEN_EN && s.flag (F.EVU_ROUTE_AEN src) then [.aen pf (src / 32)] else [])

/-- Whether a message is a sideband alert. -/
def EvtMsg.isAlert (m : EvtMsg) : Bool := match m with | .alert _ => true | _ => false

/-- The sideband alerts among messages. -/
def alertsOf (ms : List EvtMsg) : List EvtMsg := ms.filter EvtMsg.isAlert

/-- Sends a post's messages as the mode allows (R515): in BOOT all but the alert wait for CSTS.RDY, in HOLD-UP only the alert runs. -/
def State.sendAll (s : State) (ms : List EvtMsg) : State :=
  match s.mode with
  | .boot => (alertsOf ms).foldl State.sendMsg { s with evu := { s.evu with waiting := s.evu.waiting ++ ms.filter (fun m => !m.isAlert) } }
  | .holdUp => (alertsOf ms).foldl State.sendMsg s
  | _ => ms.foldl State.sendMsg s

/-- The messages of the Event Unit's own sources that have set since `s0` (R512, R513): LOG_WRAP's first. A message of ROUTE_ERR that cannot be
posted either is one more occurrence of it. -/
def State.sendOwn (s : State) (s0 : State) : State :=
  let went (s : State) (f : Fld) : Bool := s.flag f && !s0.flag f
  let s1 := if went s F.EVU_EVT_STATUS_LOG_WRAP then s.sendAll (s.msgsFor 481 0 .none) else s
  if went s1 F.EVU_EVT_STATUS_ROUTE_ERR then s1.sendAll (s1.msgsFor 480 0 .none) else s1

/-- The record of a trigger that R13 discards: an entry that no source posts. Log entry 78 (DEDUCED). -/
def State.logDiscard (s : State) : State := (s.logEntry 0xFFFF 0 noUnit 0).sendOwn s

/-- Whether a source's status shows set: a Nib's bit 15 stands for all of NIB_Q_EVT_STATUS (R511). -/
def State.sourceSet (s : State) (f : Fld) (src : Nat) : Bool :=
  if 512 ≤ src && (src - 512) % 16 = 15 then s.reg f.key != 0 else s.flag f

/-- A wake event (R594, R598, R601): an entry into DOZE sees it at its next abort point, DOZE ends by it. Its SOURCE is kept; 15
stands for a catalogue source, to which R594 gives no code. Log entries 37 and 72 (DEDUCED, DESIGN CHOICE). -/
def State.wakeEvent (s : State) (src : Nat) : State :=
  if s.mode = .doze || s.pwr.entry.isSome then { s with pwr := { s.pwr with wake := some (s.pwr.wake.getD src) } } else s

/-- Whether a source belongs to the always-on island or is Brynnyx link loss: these can set in DOZE (R515). -/
def alwaysOn (src : Nat) : Bool := src / 32 == 9 || src / 32 == 10 || src == 416 || src == 417

/-- The post of a source whose bit has just been set (R501, R512, R513): the entry and the messages. -/
def State.freshPost (s : State) (f : Fld) (src cls : Nat) (aer : Aer) (unit : Nat) : State :=
  let logs := sourceClass src != 0 || s.flag (F.EVU_ROUTE_LOG_EN src)
  let s1 := if logs then s.logEntry src cls unit (s.reg f.key) else s
  (s1.sendAll (s1.msgsFor src cls aer)).sendOwn s

/-- An occurrence of a source (R501, R512, R513, R677), under a class and an AER message that the poster names.
A post writes the entry and sends the messages; a further occurrence folds into COUNT of the source's newest entry,
or writes a new entry where that one has been overwritten, and posts anew where it shows another class. In DOZE only the always-on sources and
Brynnyx link loss set: one in the catalogue posts and is a wake event, the others post on wake (R601). In OFF the always-on sources set and raise
the alert, and nothing is logged (R515, R633). Log entries 77 and 79 (DEDUCED). -/
def State.postAs (s : State) (f : Fld) (cls : Nat) (aer : Aer) (unit : Nat) : State :=
  match sourceOf f.key f.lo with
  | none => s
  | some src =>
    let held := s.evu.deferred.any (fun d => d.1 == f.key && d.2.1 == f.lo)
    let was := s.sourceSet f src
    if s.mode = .off then
      if (src / 32 == 9 || src / 32 == 10) && !was then (alertsOf ((s.setFld f 1).msgsFor src cls aer)).foldl State.sendMsg (s.setFld f 1)
      else s
    else if s.mode = .doze && (!alwaysOn src || held || (cls = 0 && !was)) then
      let s1 := if alwaysOn src then s.setFld f 1 else s
      { s1 with evu := { s1.evu with deferred := s1.evu.deferred ++ [(f.key, f.lo, unit)] } }
    else
      let s1 := s.setFld f 1
      let logs := sourceClass src != 0 || s.flag (F.EVU_ROUTE_LOG_EN src)
      if !was then
        let s2 := s1.freshPost f src cls aer unit
        if cls = 0 then s2 else s2.wakeEvent 15
      else
        match s1.evu.log.find? (fun e => e.source == src) with
        | some e => if e.cls != (if cls = 0 then 0xFF else cls) then s1.freshPost f src cls aer unit else s1.foldEntry src
        | none => if logs then (s1.logEntry src cls unit (s1.reg f.key)).sendOwn s1 else s1

/-- An occurrence of a source under its own catalogue class (R504). -/
def State.post (s : State) (f : Fld) (unit : Nat) : State :=
  let c := classOf f
  s.postAs f c (classAer c) unit

/-- On wake the sources that set in DOZE post (R515). -/
def State.postDeferred (s : State) (l : List (Nat × Nat × Nat)) : State :=
  let drop (s : State) (d : Nat × Nat × Nat) : State :=
    if (sourceOf d.1 d.2.1).any alwaysOn then s.setFld ⟨d.1, d.2.1, 1⟩ 0 else s
  l.foldl (fun (s : State) d => s.post ⟨d.1, d.2.1, 1⟩ d.2.2) (l.foldl drop s)

/-- Clears a status bit (a W1C write, or a read of log page 0xC2 with RAE at 0, R512). -/
def State.clearBit (s : State) (f : Fld) : State := s.setFld f 0

/-! ## Colophon entries -/

/-- The lifecycle state (R541): the highest burned LC bit of the resolved fuses, BLANK when none is burned. -/
def State.lifecycle (s : State) : Nat :=
  let w := (s.fol.resolved.lookup 0).getD 0
  (List.range 5).foldl (fun m i => if w.testBit i then i + 1 else m) 0

/-- A Tally copy's value (R524). -/
def TallyCopy.value (t : TallyCopy) : Nat := t.base + t.halves

/-- One more (R524): the next half of the unary words is cleared, and with all 112 cleared a fresh record begins whose BASE counts this increment
too. Log entry 94 (DEDUCED). -/
def TallyCopy.bump (t : TallyCopy) : TallyCopy :=
  if t.halves < 112 then { t with halves := t.halves + 1 } else { base := t.value + 1, halves := 0 }

/-- The value of Tally counter `k` (R524, R525): the greater of its copies. -/
def Fol.count (f : Fol) (k : Nat) : Nat := match f.tally[k]? with | some t => max t.a.value t.b.value | none => 0

/-- Counts in Tally counter `k`, copy A and copy B (R524). -/
def Fol.tallied (f : Fol) (k : Nat) : Fol := { f with tally := f.tally.modify k (fun t => { a := t.a.bump, b := t.b.bump }) }

/-- Puts a request into the Folio's descriptor queue (R522). -/
def State.folio (s : State) (r : FolReq) : State := { s with fol := { s.fol with reqs := s.fol.reqs ++ [r] } }

/-- A structure's fields: byte offset, bytes, value. -/
abbrev Fields := List (Nat × Nat × Nat)

/-- A number's bytes, little-endian. -/
def bytesLe (n v : Nat) : List Nat := (List.range n).map (fun k => v / 2 ^ (8 * k) % 256)

/-- The first `n` bytes of a structure; a byte that no field covers is 0. -/
def fieldBytes (n : Nat) (fs : Fields) : List Nat :=
  (List.range n).map (fun i => ((fs.find? (fun f => f.1 ≤ i && i < f.1 + f.2.1)).map (fun f => f.2.2 / 256 ^ (i - f.1) % 256)).getD 0)

/-- A structure at a byte of a page. -/
def fieldsAt (at_ : Nat) (fs : Fields) : Fields := fs.map (fun f => (at_ + f.1, f.2))

/-- The stamp form (R59) at a byte. -/
def stampAt (at_ : Nat) (t : Stamp) : Fields := [(at_, 8, t.ns), (at_ + 8, 2, t.unc), (at_ + 10, 1, t.cls)]

/-- NSEC of an event entry (R535). -/
def ColEntry.secs (e : ColEntry) : Nat := if e.kind = 7 then 2 else 1

/-- PAYLOAD of an event entry (R535), its byte 132 at 0. -/
def ColEntry.payload (e : ColEntry) : Fields :=
  (match e.kind with
   | 4 => [(0, 1, e.a), (1, 1, e.b % 256), (2, 1, e.b / 256 % 256), (4, 4, e.b / 2 ^ 32), (8, 8, e.c)]
   | 5 => [(0, 1, e.a % 256), (1, 1, e.a / 256 % 256), (2, 1, e.a / 65536), (8, 8, e.b)]
   | 6 => [(0, 1, e.a), (1, 1, e.b)] ++ stampAt 8 e.stamp ++ [(20, 8, e.c)]
   | 7 => [(0, 8, e.a)]
   | _ => [(0, 1, e.a)]) ++ e.more

/-- DIGEST of an event entry: SHA-384(PREV ‖ PAYLOAD) (R534). -/
def ColEntry.digestOf (e : ColEntry) : Nat := Config.sha384 (bytesLe 48 e.prev ++ fieldBytes (4096 * e.secs - 3588) e.payload)

/-- An entry of the event log (R532, R534 to R537): it gets its number and its place in the chain and is handed to the Folio, its sector's
erase first. DOZE, HOLD-UP and OFF append none (R552). Log entry 66 (DEDUCED). -/
def State.colophonWith (s : State) (kind a b c : Nat) (more : Fields) : State :=
  if s.mode = .doze || s.mode = .holdUp || s.mode = .off then s
  else
    let e : ColEntry := { kind, stamp := s.stamp, a, b, c, more, eseq := s.fol.eseq + 1, bootSeq := s.fol.bootSeq, prev := s.fol.digest
                          det := !s.gce.entropyOk, unsigned := s.lifecycle == 0, margin := !s.fol.marginal.isEmpty }
    let e : ColEntry := { e with digest := e.digestOf }
    ({ s with fol := { s.fol with entries := s.fol.entries ++ [e], eseq := e.eseq, digest := e.digest } }).folio { job := .event, erase := true }

/-- SHA-384 of the firmware image in a slot, 1 to 3 (R533, R535). -/
def State.imageSha (s : State) (n : Nat) : Nat := Config.contentSha 2 [((s.bxl.slots[n - 1]?).map (fun f => f.image)).getD 0]

/-- An entry of the event log whose payload is in `a`, `b` and `c`; TYPE 2 and 3 carry the image's SHA-384, of slot `a` and of slot `b`
(R535). Log entry 66 (DEDUCED). -/
def State.colophon (s : State) (kind a b c : Nat) : State :=
  s.colophonWith kind a b c (if kind = 2 then [(1, 48, s.imageSha a)] else if kind = 3 then [(1, 48, s.imageSha b)] else [])

/-! ## Features -/

/-- A feature's current value, `d` where none was set. -/
def State.feat (s : State) (fid scope d : Nat) : Nat :=
  match s.qe.feats.find? (fun f => f.fid == fid && f.scope == scope) with | some f => f.cur | none => d

/-- Sets a feature's current value. -/
def State.setFeat (s : State) (fid scope v : Nat) : State :=
  { s with qe := { s.qe with feats := ⟨fid, scope, v⟩ :: s.qe.feats.filter (fun f => !(f.fid == fid && f.scope == scope)) } }

/-- Saves a feature's value (R191, R582). -/
def State.saveFeat (s : State) (fid scope v : Nat) : State :=
  { s with qe := { s.qe with
    savedFeats := ⟨fid, scope, v⟩ :: s.qe.savedFeats.filter (fun f => !(f.fid == fid && f.scope == scope)) } }

/-! ## The Management Authority lock -/

/-- The party that a command's sender is, for the lock (R188, R630); a VF is none of them. Log entry 39 (DEDUCED). -/
def holderOf : Ref → Option Holder
  | .host 0 _ _ => some .pf0
  | .host 1 _ _ => some .pf1
  | .host _ _ _ => none
  | .side => some .mgmt

/-- The DW0 of status 0x83 (R194). -/
def Holder.code : Holder → Nat
  | .pf0 => 1 | .pf1 => 2 | .mgmt => 3

/-- The other party that holds the lock against this sender, if one does. -/
def State.heldAgainst (s : State) (ref : Ref) : Option Holder :=
  match s.mgmt.lock with
  | some h => if holderOf ref = some h && (h != .mgmt || s.mgmt.lockEid == s.mgmt.tunnelEid) then none else some h
  | none => none

/-- Takes the lock for the duration of a command, unless its sender holds it already (R67, R187, R626). -/
def State.lockFor (s : State) (ref : Ref) : State :=
  match s.mgmt.lock with
  | some _ => { s with mgmt := { s.mgmt with lockRefs := ref :: s.mgmt.lockRefs } }
  | none => { s with mgmt := { s.mgmt with
      lock := holderOf ref, lockTemp := true, lockEid := s.mgmt.tunnelEid, lockAt := s.now, lockRefs := [ref], lockRel := false } }

/-- The lock becomes free (R632). -/
def State.freeLock (s : State) : State :=
  { s with mgmt := { s.mgmt with lock := none, lockTemp := false, lockEid := 0, lockRefs := [], lockRel := false } }

/-- A command that ran under the lock ends (R631): the lock goes back when it was held for that command only, or when its
explicit holding was released meanwhile. A command whose holding has lapsed (R632) leaves the lock alone. -/
def State.unlockTemp (s : State) (ref : Ref) : State :=
  if !s.mgmt.lockRefs.contains ref then s
  else
    let rest := s.mgmt.lockRefs.erase ref
    if rest.isEmpty && (s.mgmt.lockTemp || s.mgmt.lockRel) then s.freeLock
    else { s with mgmt := { s.mgmt with lockRefs := rest } }

/-! ## What every command goes through -/

/-- A controller's record. -/
def State.ctrl (s : State) (id : Nat) : Option Ctrl := s.qe.ctrls.find? (fun c => c.id == id)

/-- Changes one controller. -/
def State.updCtrl (s : State) (id : Nat) (f : Ctrl → Ctrl) : State :=
  { s with qe := { s.qe with ctrls := updWhere (fun c => c.id == id) f s.qe.ctrls } }

/-- The controller of a command; the management port has none. -/
def ctrlOf : Ref → Option Nat
  | .host c _ _ => some c
  | .side => none

/-- Whether a command comes from a PF (R181, R187). -/
def fromPf (ref : Ref) : Bool := (holderOf ref).isSome && ref != .side

/-- Whether the Queue Engine fetches and executes (R204, R149): in the modes that serve, unless a quiesce runs (R593, R627). -/
def State.fetches (s : State) : Bool :=
  (s.mode == .run || s.mode == .degraded || s.mode == .trial || s.mode == .safe) && s.pwr.bootWait.isNone &&
    s.fld F.PWR_STATUS_STEP < 13

/-- Whether an entry that a command names has arrived, its lists with it (R132, R158, R159). Log entry 84 (DESIGN CHOICE). -/
def State.arrived (s : State) (c q cid : Nat) : Bool :=
  s.qe.fetched.any (fun e => e.ctrl == c && e.sq == q && e.cid == some cid && !e.walking)

/-- Whether a command can be executed: its entry has been fetched, its controller is enabled and ready, and the mode fetches. The management
port's commands are checked where they arrive. Log entry 43 (DEDUCED). -/
def State.accepts (s : State) (ref : Ref) : Bool :=
  match ref with
  | .side => s.fetches && s.mgmt.tunnels != 0 && !s.tine.dead
  | .host c q i => s.fetches && s.arrived c q i && !s.hp.d3hot.contains c && (q != 0 || !s.tine.dead) &&
      (match s.ctrl c with | some k => k.en && k.rdy | none => false)

/-- The latch (R158, R598): the entry leaves the fetched ones and the command holds its tag; a fetch is seen by a DOZE
entry's next abort point. -/
def State.latch (s : State) (ref : Ref) : State :=
  let s : State := if holderOf ref = s.mgmt.lock && s.mgmt.lock.isSome then { s with mgmt := { s.mgmt with lockAt := s.now } } else s
  match ref with
  | .side => s
  | .host c q i =>
    let rest := match s.qe.fetched.find? (fun e => e.ctrl == c && e.sq == q && e.cid == some i) with
      | some e => s.qe.fetched.erase e
      | none => s.qe.fetched
    { s with
      qe := { s.qe with tags := ref :: s.qe.tags, fetched := rest }
      pwr := { s.pwr with wake := if s.pwr.entry.isSome then some (s.pwr.wake.getD 0xB) else s.pwr.wake } }

/-! ## Modes -/

/-- Whether a port's link is up below its target rate or width (R114). -/
def State.portBelow (s : State) (p : Nat) : Bool :=
  let st := ((s.hp.ports[p]?).map (fun x => x.settled)).getD (0, 0)
  s.flag (F.HP_LINK_STATUS_UP p) && (st.1 < s.fld (F.HP_LINK_CFG_TGT_SPEED p) || st.2 < s.fld (F.HP_LINK_CFG_TGT_WIDTH p))

/-- Whether any unit is masked (R7, R673): a ruling counter, a link below target, a LUN, a Nib, an XTS lane, an SRAM
bank or a junction sensor. -/
def State.unitMasked (s : State) : Bool :=
  s.rul.maskA || s.rul.maskB || s.portBelow 0 || s.portBelow 1 ||
    s.nib.luns.any (fun l => l.retired) || (List.range 48).any (fun n => s.fld (F.NIB_STATUS_STATE n) == 4) ||
    s.ink.lanes.any (fun l => l.masked) || s.fld F.INK_BANKS_HEALTHY != 0xFFFF || s.thm.sensors.any (fun x => x.masked)

/-- Whether the Tines are paired (R482, R484, R498). -/
def Tine.paired (t : Tine) : Bool :=
  t.ho.isNone && ((t.a == .active && t.b == .standby) || (t.a == .standby && t.b == .active))

/-- Whether a Tine counts as masked (R7, R482): the pair is broken by anything but a drill. -/
def Tine.short (t : Tine) : Bool :=
  t.a == .masked || t.b == .masked || (!t.paired && t.drill.isNone && t.ho.all (fun h => h.cause ≤ 2))

/-- Whether any unit is masked, a Tine included (R7, R673). -/
def State.anyMasked (s : State) : Bool := s.unitMasked || s.tine.short

/-- The rank in R12's order of the transition that is in progress, 9 where none is: HOLD-UP, due or entered; a power-down by its cause; a reset into
BOOT or a fallback; DOZE entry or wake. Log entry 87 (DEDUCED). -/
def State.rankNow (s : State) : Nat :=
  if s.pwr.asserted || s.mode = .holdUp then 1
  else if 12 < s.fld F.PWR_STATUS_STEP && s.mode != .off then (if s.pwr.cause = 3 then 1 else if s.pwr.cause = 4 then 2 else 4)
  else
    match s.pwr.bootWait with
    | some w => if w.cause = 3 then 7 else 5
    | none => if s.pwr.entry.isSome || (s.mode = .doze && s.pwr.wake.isSome) then 8 else 9

/-- Whether the masked units ask for a change between RUN and DEGRADED (R7). -/
def State.maskDue (s : State) : Bool := (s.mode == .run && s.anyMasked) || (s.mode == .degraded && !s.anyMasked)

/-- Triggers that lose under R12 and have no row from the mode that follows: they are recorded once the transition that won is complete (R13). Log entry 87 (DEDUCED). -/
def State.lose (s : State) (n : Nat) : State := { s with pwr := { s.pwr with lost := s.pwr.lost + n } }

/-- The transition has completed: each trigger that lost is discarded and recorded (R13). -/
def State.logLost (s : State) : State :=
  (List.range s.pwr.lost).foldl (fun (s : State) _ => s.logDiscard) { s with pwr := { s.pwr with lost := 0 } }

/-- The health-log entries of this instant show the mode after the event (R516). -/
def State.modeAfter (s : State) : State :=
  let fresh := s.evu.log.takeWhile (fun e => e.stamp == s.stamp)
  { s with evu := { s.evu with log := fresh.map (fun e => { e with mode := s.mode.code }) ++ s.evu.log.drop fresh.length } }

/-- RUN and DEGRADED follow the masked units; TRIAL stays TRIAL (R7, R8). While a transition of a higher rank is in progress they wait (R12); an
entry into DOZE, which ranks lower, is abandoned at its next abort point. Log entries 72 and 87 (DEDUCED, DESIGN CHOICE). -/
def State.settle (s : State) : State :=
  if !s.maskDue || s.rankNow ≤ 5 then s
  else if s.pwr.entry.isSome then s.wakeEvent 15
  else { s with mode := if s.anyMasked then .degraded else .run }.modeAfter

/-! ## The Brynnyx link's ports -/

/-- A link port, UP when `up`. -/
def Bxl.port (b : Bxl) (up : Bool) : BxlPort := if up then b.up else b.dn

/-- Changes a link port. -/
def State.updBxl (s : State) (up : Bool) (f : BxlPort → BxlPort) : State :=
  { s with bxl := if up then { s.bxl with up := f s.bxl.up } else { s.bxl with dn := f s.bxl.dn } }

/-- Whether a port is enabled (R587). -/
def State.bxlEnabled (s : State) (up : Bool) : Bool := s.flag (if up then F.BXL_CFG_UP_EN else F.BXL_CFG_DN_EN)

/-- Whether this node is the head (R560). -/
def State.isHead (s : State) : Bool := s.flag F.BXL_CFG_HEAD

/-- This node's ID (R560): the head has 0. -/
def State.nodeId (s : State) : Nat := if s.isHead then 0 else s.bxl.id

/-- Whether this node has an ID (R560). -/
def State.hasId (s : State) : Bool := s.isHead || s.bxl.idValid

/-- TYPE of a frame (R558). -/
def Frame.kind : Frame → Nat
  | .enum .. => 1
  | .sync .. => 2
  | .dreq .. => 3
  | .dresp .. => 4
  | .claim .. => 5
  | .contended .. => 6
  | .noMaster => 7
  | .cut .. => 8
  | .sweepReq .. => 9
  | .sweepEnt .. => 10
  | .sweepEnd .. => 11
  | .relayStart .. => 12
  | .chunk .. => 13
  | .ack .. => 14
  | .relayAbort => 15
  | .repeated k => k

/-- Whether a frame goes to every node in its direction (R557): the requests and notices that each node acts on. Log entry 95 (DEDUCED). -/
def Frame.toAll (f : Frame) : Bool := [5, 7, 8, 9, 12, 15].contains f.kind

/-- DST of a frame that this node sends (R557): the claimant, the issuer of the sweep, or the neighbour. Log entry 95 (DEDUCED). -/
def State.frameDst (s : State) (up : Bool) (f : Frame) : Nat :=
  match f with
  | .contended id => id
  | .sweepEnt .. | .sweepEnd .. => s.bxl.askedBy
  | _ => if f.toAll then 0 else if up then s.nodeId - 1 else s.nodeId + 1

/-- Puts a frame on a port (R557): it takes the port's next SEQ of its TYPE. -/
def State.bxlPut (s : State) (up : Bool) (h : FrameHdr) (f : Frame) : State :=
  let n := ((s.bxl.port up).seqs.lookup h.kind).getD 0
  (s.updBxl up (fun p => { p with seqs := (h.kind, (n + 1) % 2 ^ 32) :: p.seqs.filter (fun e => e.1 != h.kind) })).emit (.bxl up { h with dir := up, seq := n } f)

/-- Whether this node puts frames on a port (R556, R584): nothing is originated in OFF, DOZE or HOLD-UP. -/
def State.bxlDrives (s : State) (up : Bool) : Bool :=
  s.bxlEnabled up && s.mode != .off && s.mode != .doze && s.mode != .holdUp

/-- Sends a frame of this node's own on a port (R557). -/
def State.bxlSend (s : State) (up : Bool) (f : Frame) : State :=
  if s.bxlDrives up then s.bxlPut up { kind := f.kind, bcast := f.toAll, src := s.nodeId, dst := s.frameDst up f } f else s

/-- The header of a frame that is relayed (R557): HOPS is incremented. -/
def relayHdr (i : BxlIn) (kind : Nat) : FrameHdr := { kind, bcast := i.bcast, src := i.src, dst := i.dst, hops := (i.hops + 1) % 65536 }

/-- Relays a frame that came in on a port to the other one (R557, R559); a node at the enumeration limit relays nothing (R560). -/
def State.bxlRelay (s : State) (i : BxlIn) (f : Frame) : State :=
  if s.bxl.limited || !s.bxlDrives (!i.up) then s else s.bxlPut (!i.up) (relayHdr i f.kind) f

end Sys2Proof.Machine
end

