-- ==== Sys2Proof/Machine/StrokeOps.lean ====
section
/-! DEFINITION. The Stroke Scheduler's operations (R77 to R99): profiles and charge, the effective cap, the placement
test, admission's predictions and the suspend rules. -/

namespace Sys2Proof.Machine

/-! ## Profiles and charge -/

/-- The segments of a profile from segment `k` on (R84): the first segment whose MAX is 0 ends it, and MIN above MAX is
used as MAX. Durations in ns. -/
def State.segsFrom (s : State) (p : Nat) : Nat → Nat → List Seg
  | 0, _ => []
  | fuel + 1, k =>
    let mx := s.fld (F.STK_PROF_W1_MAX p k) * 256
    let mn := s.fld (F.STK_PROF_W0_MIN p k) * 256
    if mx = 0 then []
    else ⟨s.fld (F.STK_PROF_W0_CUR p k), mn, max mn mx, s.fld (F.STK_PROF_W0_BUS p k) == 1⟩ :: s.segsFrom p fuel (k + 1)

/-- A profile slot's segments (R83, R84). -/
def State.profile (s : State) (p : Nat) : List Seg := s.segsFrom p 8 0

/-- The accounting windows of segments due at `due` (R85): from the minima before to the maxima up to the segment. -/
def windows : Nat → Nat → List Seg → List (Nat × Nat × Seg)
  | _, _, [] => []
  | lo, hi, g :: gs => (lo, hi + g.max, g) :: windows (lo + g.min) (hi + g.max) gs

/-- The sum of the segments' MAX values. -/
def segsMax (gs : List Seg) : Nat := (gs.map (fun g => g.max)).sum

/-- The windows of a stroke's charge. -/
def Stroke.windows (k : Stroke) : List (Nat × Nat × Seg) := Machine.windows k.due k.due k.segs

/-- The latest end of a stroke's profile. -/
def Stroke.tEnd (k : Stroke) : Nat := k.due + segsMax k.segs

/-- Whether a stroke's charge is committed: placed or running, and not suspended (R672). -/
def Stroke.charged (k : Stroke) : Bool := k.phase == .placed || k.phase == .launched

/-- A stroke's demand in the line at `x` (R85, R86): the largest current among the segments charged to it; an overrun
stroke keeps its last segment's current until it completes. -/
def Stroke.demand (k : Stroke) (pitch x : Nat) : Nat :=
  if k.charged then
    let own := (k.windows.filter (fun w => x < w.2.1 && w.1 < x + pitch)).foldl (fun m w => max m w.2.2.cur) 0
    if k.overran && k.tEnd ≤ x then max own ((k.segs.getLast?.map (fun g => g.cur)).getD 0) else own
  else 0

/-- The lines that the admission test has committed for a read, as strokes (R98). -/
def Admitted.strokes (a : Admitted) : List Stroke :=
  a.lines.map (fun e => { req := 2 ^ 64, op := .read, cls := 1, cls0 := 1, lun := e.1, prof := 1, deadline := some a.tEnd, phase := .placed
                          due := e.2.1, segs := e.2.2, purpose := .temp })

/-- Whether a committed line is a stroke's own (R99): a read's of class 1 on the same LUN with the same deadline end. -/
def Stroke.owns (k o : Stroke) : Bool :=
  k.cls == 1 && (k.op == .read || k.op == .readSoft) && k.lun == o.lun && k.deadline.isSome && k.deadline == o.deadline

/-- The committed lines that a stroke's placement has to leave alone: all but its own. -/
def State.committed (s : State) (k : Stroke) : List Stroke :=
  (s.stk.admitted.flatMap Admitted.strokes).filter (fun o => !k.owns o)

/-- The rescue allowances committed in the line at `x` (R99). -/
def State.allowance (s : State) (x : Nat) : Nat :=
  let r := s.fld F.STK_ADM_RESCUE_RESCUE * 8
  ((s.stk.admitted.filter (fun a => a.rescue && x < a.w + r && a.w < x + s.pitchNs)).map (fun a => a.cur)).sum

/-- The committed charge of a line, mA, with the committed lines `rs` (R85 to R88, R99). -/
def State.chargeOf (s : State) (rs : List Stroke) (x : Nat) : Nat :=
  ((s.stk.strokes ++ rs).map (fun k => k.demand s.pitchNs x)).sum + s.allowance x

/-- The committed charge of a line, mA (R85 to R88, R98, R99). -/
def State.charge (s : State) (x : Nat) : Nat := s.chargeOf (s.stk.admitted.flatMap Admitted.strokes) x

/-- The end of the per-line account (R88). -/
def State.horizon (s : State) : Nat := s.stk.acct + 8192 * s.pitchNs

/-- The base level (R88): every segment whose window reaches past the horizon, at its current. -/
def State.baseLevel (s : State) (rs : List Stroke) : Nat :=
  (((s.stk.strokes ++ rs).filter Stroke.charged).map
    (fun k => ((k.windows.filter (fun w => s.horizon < w.2.1)).map (fun w => w.2.2.cur)).sum)).sum

/-- HORIZON_ADVANCE (R88): the account's first line moves on to the line just issued; the line that enters the horizon is
charged with every segment whose window overlaps it, since the charge is the sum over the placed windows. -/
def State.horizonAdvance (s : State) : State := { s with stk := { s.stk with acct := s.rul.nextLine / 256 } }

/-- The line at or below a time in ns. Log entry 5 (DEDUCED). -/
def lineAt (pitch t : Nat) : Nat := t / pitch * pitch

/-- The first line at or after a time. Log entry 5 (DEDUCED). -/
def lineUp (pitch t : Nat) : Nat := (t + pitch - 1) / pitch * pitch

/-! ## The envelope -/

/-- The floor (R89): the largest single segment current in any loaded profile, in units of 50 mA rounded up. -/
def State.floorCap (s : State) : Nat :=
  ceilDiv ((List.range 16).foldl (fun m p => (s.profile p).foldl (fun m g => max m g.cur) m) 0) 50

/-- The power-state share of the board cap (R89). -/
def State.psShare (s : State) : Nat :=
  let cap := s.fld F.STK_ENV_CAP_CAP
  match s.fld F.PWR_STATUS_PS with
  | 1 => cap * 75 / 100
  | 2 => cap * 50 / 100
  | _ => cap

/-- The effective cap before the clamp, 50 mA units (R89); in HOLD-UP STK_ENV_CAP.CAP alone (R107). -/
def State.rawCap (s : State) : Nat :=
  let cap := s.fld F.STK_ENV_CAP_CAP
  if s.mode = .holdUp then cap
  else
    let host := if s.stk.hostCap = 0 then cap else s.stk.hostCap
    min (min cap host) (min s.psShare (s.fld F.STK_ENV_THERM_CAP))

/-- The class limit in mA (R90). -/
def State.classLimit (s : State) (cls : Nat) : Nat :=
  let eff := s.fld F.STK_ENV_EFF_EFF
  let eff := if s.mode = .holdUp then s.fld F.STK_ENV_CAP_CAP else eff
  50 * (if cls ≤ 1 then eff else max (eff - s.fld F.STK_ENV_RESV_RESV) (s.fld F.STK_ENV_EFF_FLOOR))

/-- Every line at which the committed charge can rise: the lines of the windows' starts (R85). -/
def State.breakLines (s : State) : List Nat :=
  ((s.stk.strokes ++ s.stk.admitted.flatMap Admitted.strokes).filter Stroke.charged).flatMap
      (fun k => k.windows.map (fun w => lineAt s.pitchNs w.1))
    ++ s.stk.admitted.map (fun a => lineAt s.pitchNs a.w)

/-- The largest committed charge of any line from now on, mA. -/
def State.peakCharge (s : State) : Nat :=
  let now := lineAt s.pitchNs ((s.nowAt islStroke) / 256)
  ((now :: s.breakLines).filter (fun x => now ≤ x)).foldl (fun m x => max m (s.charge x)) 0

/-! ## LUNs -/

/-- A LUN's record. -/
def State.lun (s : State) (l : Nat) : Lun := (s.nib.luns.find? (fun x => x.lun == l)).getD { lun := l, state := .notPresent }

/-- The channel of a LUN (R190). -/
def chanOf (lun : Nat) : Nat := lun / 64

/-- Whether a Nib is masked (R388). -/
def State.nibMasked (s : State) (n : Nat) : Bool := s.fld (F.NIB_STATUS_STATE n) == 4

/-- Whether strokes may be placed on a LUN (R107): present, not retired, its channel not masked. -/
def State.lunServes (s : State) (l : Nat) : Bool :=
  (s.nib.luns.any (fun x => x.lun == l && x.state != .notPresent && x.state != .unresponsive && !x.retired))
    && !s.nibMasked (chanOf l)

/-- A LUN's statistics. -/
def State.stat (s : State) (l : Nat) : LunStat := (s.stk.stats.find? (fun x => x.lun == l)).getD { lun := l }

/-- Stores a LUN's statistics. -/
def State.setStat (s : State) (v : LunStat) : State :=
  { s with stk := { s.stk with stats := v :: s.stk.stats.filter (fun x => x.lun != v.lun) } }

/-! ## Placement -/

/-- Whether the spans of R91 allow a stroke of `span` ns on its LUN at line `x`: no other placed stroke's span overlaps;
a SUSPEND may overlap the operation it suspends; a suspended operation holds its LUN against everything but reads of
classes 0 to 2 and its RESUME. -/
def State.lunFree (s : State) (k : Stroke) (x span : Nat) : Bool :=
  (s.stk.strokes ++ s.committed k).all (fun o =>
    o.lun != k.lun || o.req == k.req ||
    match o.phase with
    | .held | .waiting => true
    | .suspended =>
      k.parent == some o.req ||
        ((k.op == .read || k.op == .readSoft) && k.cls ≤ 2 &&
          o.reads < (if o.op == .erase then s.fld F.STK_SUSP_ERS_READS else s.fld F.STK_SUSP_PGM_READS))
    | _ => (k.op == .suspend && k.parent == some o.req) || o.overran == false && (o.tEnd ≤ x || x + span ≤ o.due))

/-- Whether the bus-holding windows of a stroke at `x` overlap none of its channel's, nor a reserved interval (R91,
R381). -/
def State.busFree (s : State) (k : Stroke) (x : Nat) (gs : List Seg) : Bool :=
  let mine := (Machine.windows x x gs).filter (fun w => w.2.2.bus)
  s.nib.resv.all (fun e => e.1 != chanOf k.lun || mine.all (fun m => m.2.1 ≤ e.2.1 || e.2.2 ≤ m.1)) &&
  (s.stk.strokes ++ s.committed k).all (fun o =>
    o.req == k.req || !o.charged || chanOf o.lun != chanOf k.lun ||
      (o.windows.filter (fun w => w.2.2.bus)).all (fun w => mine.all (fun m => m.2.1 ≤ w.1 || w.2.1 ≤ m.1)))

/-- Whether every line of the stroke's charge stays within its class limit, inside and beyond the horizon (R85, R88,
R90, R91). The charge can only exceed the limit where some window starts, so those lines are tested. -/
def State.chargeFits (s : State) (k : Stroke) (x : Nat) (gs : List Seg) (limit : Nat) : Bool :=
  let p := s.pitchNs
  let me : Stroke := { k with due := x, segs := gs, phase := .placed, overran := false }
  let ends := x + segsMax gs
  let cand := (lineAt p x :: me.windows.map (fun w => lineAt p w.1) ++ s.breakLines).filter
    (fun y => lineAt p x ≤ y && y < ends && y < s.horizon)
  let rs := s.committed k
  cand.all (fun y => s.chargeOf rs y + me.demand p y ≤ limit || me.demand p y == 0) &&
    (me.windows.filter (fun w => s.horizon < w.2.1)).all (fun w => s.baseLevel rs + w.2.2.cur ≤ limit)

/-- Whether a stroke has its descriptor in a ring: until its completion, a suspension included. -/
def Stroke.inRing (k : Stroke) : Bool := k.phase != .held && k.phase != .waiting

/-- Descriptors in a Nib's ring. -/
def State.ringUsed (s : State) (n : Nat) : Nat := (s.stk.strokes.filter (fun o => chanOf o.lun == n && o.inRing)).length

/-- Ring room (R106): 256 descriptors, 16 of them held for classes 0 and 1. -/
def State.ringRoom (s : State) (k : Stroke) : Bool :=
  s.ringUsed (chanOf k.lun) < (if k.cls ≤ 1 then 256 else 240)

/-- The limit of strokes launched per line in force (R94), 0 for none. -/
def State.thinLimit (s : State) : Nat :=
  let a := s.fld F.STK_THIN_PER_LINE
  let b := s.fld F.STK_THIN_THERM
  if a = 0 then b else if b = 0 then a else min a b

/-- Whether a line has room under the per-line limit (R94). -/
def State.thinFits (s : State) (x : Nat) : Bool :=
  s.thinLimit = 0 || (s.stk.strokes.filter (fun o => o.charged && o.due == x)).length < s.thinLimit

/-- Whether a stroke programs or erases (R371, R391): PROGRAM, ERASE, or the special erase of KIND 2. -/
def Stroke.writes (k : Stroke) : Bool :=
  k.op == .program || k.op == .erase ||
    (k.op == .script && (match k.purpose with | .eraseBand _ | .eraseSlot _ _ | .eraseBlock _ => true | _ => false))

/-- Whether a bring-up entry is to run on a LUN's target (R420). -/
def State.bringingUp (s : State) (l : Nat) : Bool := s.stk.strokes.any (fun k => k.purpose == .script 3 && k.lun / 8 == l / 8)

/-- Which strokes the scheduler may place: as the mode lets it (R107; the dump of R11 precedes the halt), nothing but resumptions
on a Nib that a Scriptorium Load holds (R424), and no PROGRAM or ERASE on a channel with WP_FORCE (R391). -/
def State.placeAllowed (s : State) (k : Stroke) : Bool :=
  (!s.nib.paused.contains (chanOf k.lun) || k.op == .resume) && !(k.writes && s.flag (F.NIB_CTRL_WP_FORCE (chanOf k.lun))) &&
  match s.mode with
  | .off | .doze => false
  | .holdUp => k.cls == 0 && k.op != .script
  | .safe =>
    if s.blt.dumping == 2 && k.cls == 0 then true
    else if s.fld F.EVU_SAFE_MEDIA = 2 then false
    else
      match k.op with
      | .read | .readSoft => k.cls ≤ 2 || k.cls == 5
      | .script => (match k.purpose with | .fetch _ => k.cls ≤ 2 || k.cls == 5 | _ => false)
      | .status => true
      | .feature => k.cls0 == 4
      | _ => false
  | _ => true

/-- The whole placement test at line `x` (R91); a SUSPEND made under R93 skips the charge (R672). -/
def State.canPlace (s : State) (k : Stroke) (x : Nat) (gs : List Seg) : Bool :=
  s.lunFree k x (segsMax gs) && s.busFree k x gs && s.thinFits x &&
    (k.forCap || s.chargeFits k x gs (s.classLimit k.cls)) && s.ringRoom k

/-- The first line from `x` on, for `fuel` lines, on which a stroke fits (R91). -/
def State.firstLine (s : State) (k : Stroke) (gs : List Seg) : Nat → Nat → Option Nat
  | 0, _ => none
  | fuel + 1, x => if s.canPlace k x gs then some x else s.firstLine k gs fuel (x + s.pitchNs)

/-- The first line a new placement may use: the lead of R81 after now. -/
def State.leadLine (s : State) : Nat :=
  lineUp s.pitchNs (ceilDiv (s.nowAt islStroke) 256) + s.fld F.STK_LEAD_LINES * s.pitchNs

/-- The lines from the first on up to now plus the horizon (R91). -/
def State.lineCountdown (s : State) : Nat :=
  let top := s.nowAt islStroke / 256 + 8192 * s.pitchNs
  if s.leadLine ≤ top then (top - s.leadLine) / s.pitchNs + 1 else 0

/-- The line on which a stroke is placed (R91), if one fits. -/
def State.lineFor (s : State) (k : Stroke) (gs : List Seg) : Option Nat := s.firstLine k gs s.lineCountdown s.leadLine

/-- Next SEQ of a Nib's ring (R80), modulo 2^32. -/
def State.ringSeqOf (s : State) (n : Nat) : Nat := (s.stk.ringSeq.lookup n).getD 0

/-- The code of an operation kind (R77). -/
def StrokeOp.code : StrokeOp → Nat
  | .read => 0 | .readSoft => 1 | .program => 2 | .erase => 3 | .suspend => 4 | .resume => 5 | .status => 6 | .feature => 7 | .script => 8

/-- The 32-byte descriptor of a stroke (R80), little-endian: offset, width and value of each field. -/
def Stroke.descriptor (k : Stroke) : List (Nat × Nat × Nat) :=
  let flags := bit k.suspOk + 2 * bit k.around + 4 * bit k.rescue + 8 * bit k.slc
  [(0, 4, k.seq % 2 ^ 32), (4, 4, k.due % 2 ^ 32), (8, 1, k.op.code + 16 * k.cls), (9, 1, k.lun / 8 % 8 + 8 * (k.lun % 8)),
   (10, 1, k.prof + 16 * k.planes), (11, 1, flags), (12, 4, k.row % 2 ^ 32), (16, 2, k.col % 2 ^ 16), (18, 2, k.qentry % 2 ^ 16),
   (20, 4, (k.chain.getD 0) % 2 ^ 17 + 2 ^ 17 * (k.len % 2 ^ 15)), (24, 4, k.tag),
   (28, 4, if k.cls = 1 then (k.deadline.getD 0) % 2 ^ 32 else 0)]

/-- The committed line that a placed stroke used up (R99). -/
def Admitted.used (a : Admitted) (k : Stroke) : Admitted :=
  if k.cls = 1 && (k.op == .read || k.op == .readSoft) && k.deadline == some a.tEnd then { a with lines := a.lines.filter (fun e => e.1 != k.lun) }
  else a

/-- Writes a placed stroke's descriptor into its ring (R78, R80, R81). -/
def State.commit (s : State) (req x : Nat) (gs : List Seg) : State :=
  match s.stk.strokes.find? (fun o => o.req == req) with
  | none => s
  | some k =>
    let n := chanOf k.lun
    let q := s.ringSeqOf n
    let bump (o : Stroke) : Stroke :=
      if o.lun == k.lun && o.phase == .suspended && (k.op == .read || k.op == .readSoft) then { o with reads := o.reads + 1 } else o
    let put (o : Stroke) : Stroke :=
      let p : Stroke := { o with phase := .placed, due := x, segs := gs, seq := q, tag := req % 2 ^ 32, overran := false, accepted := false }
      { p with desc := p.descriptor }
    let mine (r : Ref) : Bool := match k.purpose with
      | .fetch id => s.map.fetches.any (fun f => f.id == id && f.users.any (fun u => match u with | .host x _ => x == r | _ => false))
      | _ => false
    { s with qe := { s.qe with cmds := updWhere (fun c => mine c.ref) (fun c => { c with placed := true }) s.qe.cmds }, stk := { s.stk with
      strokes := s.stk.strokes.map (fun o => if o.req == req then put o else bump o)
      admitted := s.stk.admitted.map (fun a => a.used k)
      ringSeq := (n, (q + 1) % 2 ^ 32) :: s.stk.ringSeq.filter (fun e => e.1 != n) } }

/-- The class of the read profile, by kind (R83). -/
def profOf (op : StrokeOp) (slc : Bool) (script : Nat) : Nat :=
  match op with
  | .read => if slc then 0 else 1
  | .readSoft => 2
  | .program => if slc then 3 else 4
  | .erase => 5
  | .suspend => 6
  | .resume => 7
  | .status | .feature => 8
  | .script => 9 + script % 7

/-- A Nib's special erase entry (R420): its address and profile slot. -/
def State.eraseEntry (s : State) (n : Nat) : Option (Nat × Nat × Nat) :=
  ((s.nib.golden.lookup n).getD {}).entries.find? (fun e => e.2.2 == 2)

/-- Strokes that the scheduler holds (R106). -/
def State.pendingCount (s : State) : Nat := (s.stk.strokes.filter (fun k => k.phase != .held)).length

/-- Whether the pending strokes leave room for a producer (R106): 131,072 entries, 2,048 held for classes 0 and 1. -/
def State.pendingRoom (s : State) (cls : Nat) : Bool := s.pendingCount < (if cls ≤ 1 then 131072 else 131072 - 2048)

/-- A new stroke reaches the scheduler (R77, R78, R95): SUSP_OK is set on every PROGRAM and ERASE but those of class 0;
where the Nib's image has a special erase, an ERASE is a SCRIPT stroke at that entry, which never carries SUSP_OK (R418,
R420). At the limit its producer holds it, and the Queue Engine fetches no more (R106). -/
def State.newStroke (s : State) (k : Stroke) : State :=
  let r := s.stk.nextReq
  let special := if k.op = .erase then s.eraseEntry (chanOf k.lun) else none
  let room := s.pendingRoom k.cls
  let k' : Stroke := { k with
    req := r, phase := if room then .waiting else .held, since := s.nowAt islStroke
    op := if special.isSome then .script else k.op
    prof := match special with | some e => e.2.1 | none => k.prof
    qentry := match special with | some e => e.1 | none => k.qentry
    suspOk := (k.op == .program || (k.op == .erase && special.isNone)) && k.cls != 0 }
  let s1 : State := if room then s else { s with qe := { s.qe with fetchHold := true } }
  { s1 with stk := { s1.stk with strokes := s1.stk.strokes ++ [k'], nextReq := r + 1 } }

/-- A stroke that its Nib returned unlaunched for a line missed or a busy LUN waits again (R82). -/
def State.waitAgain (s : State) (req : Nat) : State :=
  let again (k : Stroke) : Stroke := { k with phase := .waiting, since := s.nowAt islStroke, accepted := false, segs := [] }
  { s with stk := { s.stk with strokes := updWhere (fun k => k.req == req) again s.stk.strokes } }

/-- The requests that producers hold enter the scheduler in order while it has room (R106). -/
def State.enterHeld (s : State) : State :=
  (s.stk.strokes.filter (fun k => k.phase == .held)).foldl (fun (s : State) k =>
    if s.pendingRoom k.cls then s.waitAgain k.req else s) s

/-- A stroke's template. -/
def mkStroke (op : StrokeOp) (cls lun : Nat) (slc : Bool) (purpose : Purpose) : Stroke :=
  { req := 0, op, cls, cls0 := cls, lun, prof := profOf op slc 0, slc, purpose }

/-- The order of placement (R78): lower class; in class 1 the earlier deadline end; in classes 2 to 5 a slow LUN after
the rest; then the lower request number. -/
def State.before (s : State) (a b : Stroke) : Bool :=
  if a.cls != b.cls then a.cls < b.cls
  else if a.cls = 1 then
    let da := a.deadline.getD 0
    let db := b.deadline.getD 0
    if da != db then da < db else a.req < b.req
  else
    let sa := 2 ≤ a.cls && (s.stat a.lun).slow
    let sb := 2 ≤ b.cls && (s.stat b.lun).slow
    if sa != sb then sb else a.req < b.req

/-- Inserts a stroke into a list kept in placement order. -/
def State.insertOrdered (s : State) (k : Stroke) : List Stroke → List Stroke
  | [] => [k]
  | o :: os => if s.before k o then k :: o :: os else o :: s.insertOrdered k os

/-- The waiting strokes in placement order (R78). -/
def State.ordered (s : State) : List Stroke :=
  (s.stk.strokes.filter (fun k => k.phase == .waiting)).foldl (fun l k => s.insertOrdered k l) []

/-! ## Suspension -/

/-- Whether the Nib's suspend commands and SBIT allow the suspension of an operation (R384). -/
def State.suspUsable (s : State) (o : Stroke) : Bool :=
  let n := chanOf o.lun
  let sbit := s.fld (F.NIB_SUSP_CMD_SBIT n)
  let cmd := if o.op == .erase then s.fld (F.NIB_SUSP_CMD_ERS_SUS n) else s.fld (F.NIB_SUSP_CMD_PGM_SUS n)
  cmd != 0 && sbit != 0 && sbit != 6

/-- Whether a running operation may be suspended by a stroke of a class and kind (R95), on a channel whose suspend
commands and SBIT allow it (R384). -/
def State.maySuspend (s : State) (o : Stroke) (cls : Nat) (isRead : Bool) : Bool :=
  let ers := o.op == .erase
  let minRun := (if ers then s.fld F.STK_SUSP_ERS_MIN_RUN else s.fld F.STK_SUSP_PGM_MIN_RUN) * usT
  let maxS := if ers then s.fld F.STK_SUSP_ERS_MAX_SUSP else s.fld F.STK_SUSP_PGM_MAX_SUSP
  s.suspUsable o && s.flag F.STK_CTRL_SUSP_EN && o.suspOk && o.phase == .launched && minRun ≤ (s.nowAt islStroke) - o.launchedAt && o.susp < maxS &&
    ((cls ≤ 1 && 2 ≤ o.cls && o.cls ≤ 5) || (cls == 2 && isRead && s.flag F.STK_CTRL_HOST_SUSP && 3 ≤ o.cls && o.cls ≤ 5))

/-- Whether a SUSPEND or RESUME for an operation is already on its way. -/
def State.suspending (s : State) (req : Nat) : Bool := s.stk.strokes.any (fun o => o.parent == some req)

/-- Asks for the suspension of a running operation (R77, R95): the SUSPEND takes the class of its cause, or for R93 the operation's. -/
def State.askSuspend (s : State) (o : Stroke) (cls : Nat) (forCap : Bool := false) : State :=
  if s.suspending o.req then s
  else s.newStroke { mkStroke .suspend cls o.lun o.slc (.suspendOf o.req) with parent := some o.req, forCap }

/-- The remaining charge of a suspended operation (R672): the segments from the one that was running, reduced by the
time it had run. Which segment was running the spec does not say how to tell: the segments before it are taken to have lasted their MAX. Log entry 83 (DESIGN CHOICE). -/
def remaining : Nat → List Seg → List Seg
  | _, [] => []
  | ran, g :: gs => if g.max ≤ ran then remaining (ran - g.max) gs else { g with min := g.min - ran, max := g.max - ran } :: gs

/-- Asks for the resumption of a suspended operation (R77, R96, R672), in the class of the stroke that caused its suspension. -/
def State.askResume (s : State) (o : Stroke) : State :=
  if s.suspending o.req then s
  else s.newStroke { mkStroke .resume o.susCls o.lun o.slc (.resumeOf o.req) with parent := some o.req }

/-- RESUME_PLACE (R96): the RESUME of a suspended LUN is due once no class 0 or 1 read waits for it or READS is
reached. -/
def State.resumeDue (s : State) (o : Stroke) : Bool :=
  o.phase == .suspended && s.mode != .holdUp &&
    (!s.stk.strokes.any (fun k => k.lun == o.lun && k.phase == .waiting && k.cls ≤ 1 && (k.op == .read || k.op == .readSoft)) ||
      (if o.op == .erase then s.fld F.STK_SUSP_ERS_READS else s.fld F.STK_SUSP_PGM_READS) ≤ o.reads)

/-- The peak charge without some operations. -/
def State.peakWithout (s : State) (reqs : List Nat) : Nat :=
  ({ s with stk := { s.stk with strokes := s.stk.strokes.filter (fun k => !reqs.contains k.req) } }).peakCharge

/-- CAP_SUSPEND (R93): with the committed charge above the cap, running programs and erases of classes 5, 4 and 3 that
may be suspended are, newest first within a class, until the charge fits. CAP_OVER clears when no line exceeds the cap. -/
def State.capSuspend (s : State) : State :=
  let cap := 50 * s.fld F.STK_ENV_EFF_EFF
  let overran := cap < s.peakCharge
  let s1 := if overran && !s.flag F.STK_STATUS_CAP_OVER then s.post F.STK_EVT_STATUS_CAP_OVER noUnit else s
  let s2 := s1.setFld F.STK_STATUS_CAP_OVER (bit overran)
  if overran && s2.flag F.STK_CTRL_CAP_SUSP then
    let runs (c : Nat) : List Stroke := (s2.stk.strokes.filter (fun o => o.cls == c && s2.maySuspend o 0 false)).reverse
    let picked := (runs 5 ++ runs 4 ++ runs 3).foldl (fun (acc : List Stroke) o =>
      if s2.peakWithout (acc.map (fun x => x.req)) ≤ cap then acc else acc ++ [o]) []
    picked.foldl (fun (s : State) o => s.askSuspend o o.cls true) s2
  else s2

/-- The cap is looked at again at every line while the charge exceeds it (R93). -/
def State.capWatch (s : State) : State := if s.flag F.STK_STATUS_CAP_OVER then s.capSuspend else s

/-- Forms the effective cap again (R89): clamped to the floor, with FLOOR_CLAMP, and then R93. -/
def State.refreshCap (s : State) : State :=
  let raw := s.rawCap
  let fl := s.floorCap
  let clamp := raw < fl
  let s1 := if clamp && !s.flag F.STK_STATUS_FLOOR_CLAMP then s.post F.STK_EVT_STATUS_FLOOR_CLAMP noUnit else s
  (((s1.setFld F.STK_STATUS_FLOOR_CLAMP (bit clamp)).setFld F.STK_ENV_EFF_EFF (max raw fl)).setFld F.STK_ENV_EFF_FLOOR fl).capSuspend

/-! ## Admission (R98) -/

/-- Worst-case tR of a read band in ns, times the slow ratio of a slow LUN rounded up to 1/16 (R98). -/
def State.tR (s : State) (l : Nat) : Nat :=
  let b := (s.lun l).rband
  let t := 8 * (match b with
    | 0 => s.fld F.STK_ADM_TR01_TR0 | 1 => s.fld F.STK_ADM_TR01_TR1 | 2 => s.fld F.STK_ADM_TR23_TR2
    | 3 => s.fld F.STK_ADM_TR23_TR3 | 4 => s.fld F.STK_ADM_TR45_TR4 | _ => s.fld F.STK_ADM_TR45_TR5)
  let q := (s.stat l).quot
  if (s.stat l).slow then ceilDiv (t * ceilDiv (16 * q.1) q.2) 16 else t

def State.admBurst (s : State) : Nat := 8 * s.fld F.STK_ADM_XFER_BURST
def State.admCw (s : State) : Nat := 8 * s.fld F.STK_ADM_XFER_CW
def State.admHard (s : State) : Nat := 8 * s.fld F.STK_ADM_DEC_HARD
def State.admXor (s : State) : Nat := 8 * s.fld F.STK_ADM_DEC_XOR
def State.admRescue (s : State) : Nat := 8 * s.fld F.STK_ADM_RESCUE_RESCUE
/-- The output path of a length in bytes (R98). -/
def State.admOut (s : State) (bytes : Nat) : Nat :=
  8 * s.fld F.STK_ADM_OUT_BASE + 8 * s.fld F.STK_ADM_OUT_PER_KIB * ceilDiv bytes 1024

/-- `lun_ready` of one running or placed stroke at `now`, in ns (R98). -/
def State.readyAfter (s : State) (now : Nat) (o : Stroke) : Nat :=
  let start := if o.phase == .launched then o.launchedAt / 256 else o.due
  match o.op with
  | .read | .readSoft => o.tEnd
  | _ =>
    let ers := o.op == .erase
    let minRun := (if ers then s.fld F.STK_SUSP_ERS_MIN_RUN else s.fld F.STK_SUSP_PGM_MIN_RUN) * 1000
    let maxS := if ers then s.fld F.STK_SUSP_ERS_MAX_SUSP else s.fld F.STK_SUSP_PGM_MAX_SUSP
    if s.suspUsable o && s.flag F.STK_CTRL_SUSP_EN && o.suspOk && o.susp < maxS && 2 ≤ o.cls then
      max now (start + minRun) + segsMax (s.profile 6)
    else o.tEnd

/-- `lun_ready` at `now`, in ns (R97, R98): placed strokes of admitted reads are counted by the loop over the reads ahead, a running one
here. -/
def State.lunReady (s : State) (now l : Nat) : Nat :=
  (s.stk.strokes.filter (fun o => o.lun == l && o.charged && !(o.cls == 1 && o.phase == .placed))).foldl (fun m o => max m (s.readyAfter now o)) now

/-- The line of the direct prediction for a stroke on a LUN of a read with deadline end `tEnd`, tested at `now` in ns (R98). -/
def State.predictLine (s : State) (slc : Bool) (now l tEnd : Nat) : Nat :=
  let p := s.pitchNs
  let t0 := lineUp p (now + (s.fld F.STK_LEAD_LINES + 1) * p)
  let unit := s.tR l + s.admBurst + s.admCw
  let ahead := (s.stk.admitted.filter (fun a => a.luns.contains l && a.tEnd < tEnd)).length
  let t1 := max t0 (s.lunReady now l) + ahead * unit
  let k : Stroke := { mkStroke .read 1 l slc .temp with req := s.stk.nextReq }
  let gs := s.profile (profOf .read slc 0)
  let rec go : Nat → Nat → Nat
    | 0, x => x
    | fuel + 1, x => if s.chargeFits k x gs (s.classLimit 1) then x else go fuel (x + p)
  go 8192 (lineUp p t1)

/-- The direct prediction (R98). -/
def State.predict (s : State) (slc : Bool) (now l tEnd : Nat) : Nat :=
  s.predictLine slc now l tEnd + s.tR l + s.admBurst + s.admCw + s.admHard

/-- The read-around prediction over the stripe's peers (R98). -/
def State.predictAround (s : State) (now : Nat) (peers : List Nat) (tEnd : Nat) : Nat :=
  peers.foldl (fun m l => max m (s.predict false now l tEnd)) 0 + s.admXor

/-- Whether the two predictions send a read around its LUN (R98, R105). -/
def State.goesAround (s : State) (slc : Bool) (now l : Nat) (peers : List Nat) (tEnd : Nat) : Bool :=
  s.flag F.STK_CTRL_AROUND_EN && !peers.isEmpty && s.predictAround now peers tEnd < s.predict slc now l tEnd

/-- The held class 0 and 1 stroke entries that are free (R98, R106): 2,048 less those of the admitted reads. -/
def State.entries01Free (s : State) : Nat := 2048 - (s.stk.admitted.map (fun a => a.entries)).sum



/-- Every time that the scheduler holds moves on with a step of the Ruling (R68), in ns. Log entry 36 (DEDUCED). -/
def Stk.shift (k : Stk) (d : Nat) : Stk :=
  { k with
    strokes := k.strokes.map (fun o =>
      { o with due := o.due + d, since := o.since + d * 256, launchedAt := o.launchedAt + d * 256, deadline := o.deadline.map (· + d) })
    acct := k.acct + d
    admitted := k.admitted.map (fun a => { a with tEnd := a.tEnd + d, w := a.w + d, lines := a.lines.map (fun e => (e.1, e.2.1 + d, e.2.2)) }) }

end Sys2Proof.Machine
end

