-- ==== Sys2Proof/Machine/PowerOps.lean ====
section
/-! DEFINITION. The Power Controller's and the Thermal Monitor's shared operations (R589 to R613): the last-wake record,
requests to the sequencer, the stop and the resumption of the Ruling, core voltage, throttle levels and thermal
shutdown. -/

namespace Sys2Proof.Machine

/-! ## The last-wake record and the sequencer's requests -/

/-- LAST_WAKE_RECORD_WRITE (R594). 15 stands for an Event Unit source, to which R594 gives no code and which writes one of the codes that
R594 gives: a free value. Log entry 72 (DESIGN CHOICE). -/
def State.lastWake (s0 : State) (src outcome ap : Nat) : State :=
  let s : State := if src = 15 then { s0 with freeCtr := s0.freeCtr + 1 } else s0
  let ns := s.now / 256
  let s1 := ((s.setFld F.PWR_LAST_WAKE_SOURCE (if src = 15 then Config.freeWord s0.freeCtr % 12 else src)).setFld F.PWR_LAST_WAKE_STEP (s.fld F.PWR_STATUS_STEP)).setFld F.PWR_LAST_WAKE_OUTCOME outcome
  ((s1.setFld F.PWR_LAST_WAKE_AP ap).setFld F.PWR_LAST_WAKE_LO_NS (ns % 2 ^ 32)).setFld F.PWR_LAST_WAKE_HI_NS (ns / 2 ^ 32)

/-- The reading of a sensor (R605): a masked one reports the higher reading of its two neighbours. -/
def Thm.reading (t : Thm) (i : Nat) : Int :=
  let at_ (k : Nat) : Int := ((t.sensors[k % 32]?).map (fun x => x.temp)).getD 25
  match t.sensors[i]? with
  | some x => if x.masked then max (at_ (i + 31)) (at_ (i + 1)) else x.temp
  | none => 25

/-- Whether a power-up request is held (R613). -/
def State.thermalHold (s : State) : Bool := s.flag F.PWR_STATUS_THERM_LATCH || 100 ≤ s.thm.reading 31

/-- A power-up request (R9, R590, R592, R613): held by the thermal latch; latched in HOLD-UP, during a running step or the
minimum off time; otherwise PU1 begins. Out of OFF with the sequencer idle it changes nothing. Log entry 33 (DEDUCED). -/
def State.powerUpRequest (s : State) (src : Nat) : State :=
  let step := s.fld F.PWR_STATUS_STEP
  let down : Bool := 12 < step || s.mode = .holdUp || (1 ≤ step && s.pwr.offReq.isSome)
  if s.thermalHold && (s.mode = .off || down) then
    (({ s with pwr := { s.pwr with held := some src } }).post F.PWR_EVT_STATUS_THERM_HOLD noUnit).lastWake src 5 0
  else if down then
    (({ s with pwr := { s.pwr with onReq := some src } }).post F.PWR_EVT_STATUS_SEQ_CROSS noUnit).lastWake src 0 0
  else if s.mode != .off || step != 0 then s
  else if s.pwr.minOff then ({ s with pwr := { s.pwr with onReq := some src } }).lastWake src 2 0
  else (({ s with pwr := { s.pwr with source := src } }).lastWake src 0 0).setFld F.PWR_STATUS_STEP 1

/-- An off request (R12, R590, R592): latched while a power-up step runs; otherwise PD1 begins. It loses to PFAIL_N, and Power Off to a thermal
shutdown, which takes over a power-down that runs; it outranks a reset into BOOT, a fallback and an entry into DOZE. Log entries 33 and 87 (DEDUCED). -/
def State.offRequest (s : State) (src : Nat) : State :=
  let step := s.fld F.PWR_STATUS_STEP
  if 1 ≤ step && step ≤ 12 then
    (({ s with pwr := { s.pwr with offReq := some src } }).lastWake src 0 0).post F.PWR_EVT_STATUS_SEQ_CROSS noUnit
  else if s.mode = .off then s
  else if s.rankNow ≤ (if src = 4 then 1 else 3) then s.lose 1
  else if 12 < step then (if src = 4 then ({ s with pwr := { s.pwr with cause := 4 } }).lose 1 else s)
  else
    let s1 := s.lose (bit s.pwr.entry.isSome + bit s.pwr.bootWait.isSome)
    (({ s1 with pwr := { s1.pwr with cause := src, bootWait := none, quiesce := 0 } }).lastWake src 0 0).setFld F.PWR_STATUS_STEP 13

/-! ## The end of an entry into DOZE -/

/-- Posts the completions that an entry withholds (R179): DW0 bits 4:0 report a power state. -/
def State.postWithheld (s : State) (ps : Nat) : State :=
  s.qe.withheld.foldl (fun (s : State) h => s.complete h.ref .success ps) { s with qe := { s.qe with withheld := [] } }

/-- An entry ends without DOZE (R599, R600): the SQs that AP4 made idle are active again, the request stands, and the withheld completion reports the operational state. Log entry 72 (DESIGN CHOICE). -/
def State.dozeEnd (s : State) : State :=
  let idled := (s.pwr.entry.map (fun e => e.idled)).getD []
  let s1 : State := { s with
    pwr := { s.pwr with entry := none, retry := true, retryAt := s.now, wake := none }
    qe := { s.qe with sqs := updWhere (fun q => idled.contains (q.ctrl, q.qid)) (fun q => { q with active := true }) s.qe.sqs } }
  ((s1.setFld F.PWR_STATUS_AP 0).postWithheld (s.fld F.PWR_STATUS_PS)).settle

/-- An entry into DOZE is abandoned before its next abort point (R12, R598, R599). Log entry 72 (DESIGN CHOICE). -/
def State.dozeAbandon (s : State) (src : Nat) : State :=
  (((s.post F.PWR_EVT_STATUS_DOZE_ABORT noUnit).dozeEnd).lastWake src 4 (s.fld F.PWR_STATUS_AP + 1))

/-! ## The Ruling's stop and resumption -/

/-- The stop of the Ruling (R53, R61, R671): its count, class and uncertainty are kept; qualification, lock and time of day end without
any source being declared lost. -/
def State.rulStop (s : State) : State :=
  let q (x : SrcState) : SrcState := { x with qual := false, recent := [], bad := 0, owed := x.owed || x.qual }
  { s with rul := { s.rul with
    running := false, stopped := some s.stamp, lock := false, lockOut := 0, lockedAt := none, phase := 0
    sync := q s.rul.sync, bxl := q s.rul.bxl, ptm := q s.rul.ptm, follow := .holdover, phaseSrc := .holdover, tod := none, todSec := none
    lastEdge := none, dialog := [], dialogAt := 0, syncOut := false, syncFall := 0 } }

/-- What the always-on island counted of a stop (R61), in 1/256 ns: 40 ns for each tick of the TCXO, corrected by the held frequency term, or
30,517.578125 ns for each of the 32.768 kHz oscillator. -/
def aonElapsed (clk : AonClock) (ticks : Nat) (freq : Int) : Nat :=
  match clk with
  | .tcxo => (((ticks * 10240 : Nat) : Int) * ((rateDen : Int) + freq)).toNat / rateDen
  | .rtc => ticks * 7812500
  | .none => 0

/-- The growth of the uncertainty over a stop (R61), in 1/256 ns, rounded up. -/
def growthOf : AonClock → Nat → Nat
  | .tcxo, el => ceilDiv (20 * el) 1000000000
  | .rtc, el => ceilDiv (50000 * el) 1000000000
  | .none, _ => 0

/-- The resumption of the Ruling (R61, R671): the count goes on from the stored count plus the elapsed time, which a 48-bit counter of the
always-on island gives in ticks of `clk`, in class C unless it was D, with the uncertainty grown; lines resume at the first line at or after
the count. With no clock or a saturated counter it is class D. Log entry 34 (DEDUCED). -/
def State.rulResume (s : State) (clk : AonClock) (ticks : Nat) : State :=
  let old := s.rul.stopped.getD s.stamp
  let n := min ticks (2 ^ 48 - 1)
  let el := aonElapsed clk n s.rul.freq
  let lost := clk = .none || n = 2 ^ 48 - 1
  let count := s.rul.count + el
  let set (c : Counter) : Counter := { c with count, res := (count + c.line) % 3 }
  ({ s with rul := { s.rul with
    a := set s.rul.a, b := set s.rul.b, running := true, cls := if lost || old.cls = 3 then 3 else 2
    uncBase := old.unc * 256 + growthOf clk el, uncAt := count, growth := if s.rul.settled then 20 else 500
    stopped := none, lastEdge := none, resumedAt := count, aonTicks := n } }).startLines

/-! ## Core voltage (R603, R604) -/

/-- Requests a setpoint of VDD_CORE. -/
def State.avsRequest (s : State) (code : Nat) : State :=
  (({ s with pwr := { s.pwr with avsWant := code, avsTries := 0 } }).setFld F.PWR_AVS_STATUS_PEND 1).emit (.avs code)

/-- The setpoint of a clock division: VNOM undivided, otherwise a code that the spec does not state. Log entry 11 (DESIGN CHOICE). -/
def State.avsFor (s : State) (div : Nat) : Nat :=
  if div = 1 then s.fld F.PWR_AVS_VNOM else max 10 (min 50 (Config.avsCode div))

/-- AVS_SETPOINT_CHANGE (R603): a slower clock changes before the voltage, a faster one after its acknowledgement. -/
def State.setClock (s : State) (div : Nat) : State :=
  if div = s.pwr.clkDiv then s
  else if s.pwr.clkDiv < div then
    ({ s with pwr := { s.pwr with clkDiv := div, clkWait := none } }).avsRequest (s.avsFor div)
  else ({ s with pwr := { s.pwr with clkWait := some div } }).avsRequest (s.avsFor div)

/-! ## Throttle levels (R607, R608) -/

/-- The hottest unmasked junction sensor. -/
def Thm.hotJ (t : Thm) : Int :=
  t.sensors.foldl (fun (m : Int) x => if x.masked then m else max m x.temp) (-55)

/-- The valid NAND readings (R378): within 10 s. -/
def State.validLuns (s : State) : List Lun := s.nib.luns.filter (fun x => x.tempValid && s.now ≤ x.tempAt + 10 * secT)

/-- The hottest valid NAND reading, if there is one. -/
def State.hotN (s : State) : Option Int :=
  match s.validLuns with
  | [] => none
  | x :: xs => some (xs.foldl (fun (m : Int) y => max m y.temp) x.temp)

/-- A threshold of a level in °C, lowered while ROR holds (R607, R609). -/
def State.threshold (s : State) (f : Fld) (level : Nat) : Int :=
  ((bitsOf (s.fld f) (8 * (level - 1)) 8 : Nat) : Int) - (if s.flag F.THM_STATUS_ROR then (s.fld F.THM_ROR_ADVANCE : Nat) else 0)

/-- Whether a level's threshold is reached. -/
def State.reached (s : State) (level : Nat) : Bool :=
  s.threshold F.THM_LIMIT_J_J1_J3 level ≤ s.thm.hotJ ||
    (match s.hotN with | some t => s.threshold F.THM_LIMIT_N_N1_N3 level ≤ t | none => false)

/-- Whether every reading is at least 3 °C below a level's thresholds (R608). -/
def State.cool (s : State) (level : Nat) : Bool :=
  s.thm.hotJ + 3 ≤ s.threshold F.THM_LIMIT_J_J1_J3 level &&
    (match s.hotN with | some t => t + 3 ≤ s.threshold F.THM_LIMIT_N_N1_N3 level | none => true)

/-- Adds an entry to the ring of log page 0xC5 (R614). -/
def State.thermEvent (s : State) (kind sensor : Nat) (temp : Int) (lun : Nat) : State :=
  { s with thm := { s.thm with events := ⟨s.stamp, kind, s.fld F.THM_STATUS_LEVEL, sensor, temp, lun⟩ :: s.thm.events.take 63 } }

/-- Sums the time spent at the present level and in the read bands up to now (R614). -/
def State.sumTherm (s : State) : State :=
  let l := s.fld F.THM_STATUS_LEVEL
  let dl := s.now - s.thm.levelAt
  let db := s.now - s.thm.bandsAt
  let add (x : Lun) : Nat × List Nat :=
    (x.lun, ((s.thm.bands.lookup x.lun).getD [0, 0, 0, 0, 0, 0]).modify x.rband (· + db))
  { s with thm := { s.thm with
    levelT := s.thm.levelT.modify l (· + dl), levelAt := s.now
    bands := s.nib.luns.map add, bandsAt := s.now } }

/-- Puts a throttle level into force (R607): the thermal cap, rounded down to 50 mA and clamped to the floor, stroke
thinning and clock division. -/
def State.setLevel (s : State) (l : Nat) : State :=
  let cap := s.fld F.STK_ENV_CAP_CAP
  let c := match l with | 0 => 0xFFF | 1 => max s.floorCap (cap * 75 / 100) | 2 => max s.floorCap (cap / 2) | _ => max s.floorCap (cap / 4)
  let thin := match l with | 2 => 96 | 3 => 32 | _ => 0
  let div := match l with | 2 => 2 | 3 => 4 | _ => 1
  ((((s.sumTherm.setFld F.THM_STATUS_LEVEL l).setFld F.STK_ENV_THERM_CAP c).setFld F.STK_THIN_THERM thin).setClock div).refreshCap

/-- THROTTLE_LEVEL_RISE (R607, R608): the highest level whose threshold is reached, if it is above the present one; and
the time since which every reading is cool enough for a fall. With THROTTLE_EN at 0 the level stays at 0. -/
def State.throttle (s : State) (sensor : Nat) (lun : Nat) : State :=
  let cur := s.fld F.THM_STATUS_LEVEL
  let top := if s.reached 3 then 3 else if s.reached 2 then 2 else if s.reached 1 then 1 else 0
  let s1 := if s.flag F.THM_CTRL_THROTTLE_EN && cur < top then
      ((s.setLevel top).post F.THM_EVT_STATUS_LEVEL_UP noUnit).thermEvent 0 sensor (match s.hotN with | some t => max t s.thm.hotJ | none => s.thm.hotJ) lun
    else s
  let now := s1.fld F.THM_STATUS_LEVEL
  let coolAt := if now != 0 && s1.cool now then (match s1.thm.coolAt with | some t => some t | none => some s1.now) else none
  { s1 with thm := { s1.thm with coolAt := if cur < now then none else coolAt } }

/-- THERMAL_SHUTDOWN (R612, R613): THERM_N, the latch, the Tally record and counter, and the power-down. It has a row in
R7 from every mode but OFF, DOZE and HOLD-UP, and acts once. -/
def State.thermalShutdown (s : State) (cause sensor lun : Nat) (temp : Int) : State :=
  if s.mode = .off || s.mode = .doze || s.mode = .holdUp || s.flag F.PWR_STATUS_THERM_LATCH then s
  else if s.pwr.asserted then s.lose 1
  else
    let s1 := s.setFld F.PWR_STATUS_THERM_LATCH 1
    let s2 : State := { s1 with
      pwr := { s1.pwr with thermN := true }
      fol := { s1.fol.tallied 2 with thermRecs := ⟨s.fol.bootSeq, s.stamp, cause, sensor, lun, temp⟩ :: s1.fol.thermRecs } }
    s2.offRequest 4

end Sys2Proof.Machine
end

