-- ==== Sys2Proof/Machine/InkOps.lean ====
section
/-! DEFINITION. The Inkwell's operations (R207 to R228): owners' effective limits, the grant test, allocation, holds,
release and the order in which waiting requests are served. -/

namespace Sys2Proof.Machine

/-- The number of 1 bits among the lowest `n`. -/
def popcount (n v : Nat) : Nat := ((List.range n).filter (fun i => v.testBit i)).length

/-- Whether a bank serves the Inkwell (R240). -/
def State.bankServes (s : State) (b : Nat) : Bool := (s.fld F.INK_BANKS_INKWELL).testBit b

/-- B, the number of banks serving the Inkwell (R211). -/
def State.inkB (s : State) : Nat := popcount 16 (s.fld F.INK_BANKS_INKWELL)

/-- The cells of the pool: 8,192 for each serving bank (R207). -/
def State.poolCells (s : State) : Nat := 8192 * s.inkB

/-- Cells held by chains. -/
def Ink.used (k : Ink) : Nat := (k.chains.map (fun c => c.cells.length)).sum

/-- The free count: the cells of serving banks that no chain holds. -/
def State.inkFree (s : State) : Nat :=
  s.poolCells - ((s.ink.chains.map (fun c => (c.cells.filter (fun i => s.bankServes (i / 8192))).length)).sum)

/-- EFF_MIN of an owner (R211): owners 0 and 1 never fall below 1,024 cells. -/
def State.effMin (s : State) (o : Nat) : Nat :=
  let v := s.fld (F.INK_OWNER_MIN_MIN o) * s.inkB / 12
  if o ≤ 1 then max 1024 v else v

/-- EFF_MAX of an owner (R211). -/
def State.effMax (s : State) (o : Nat) : Nat := max (s.effMin o) (s.fld (F.INK_OWNER_MAX_MAX o) * s.inkB / 12)

/-- An owner's record. -/
def Ink.owner (k : Ink) (o : Nat) : Owner := (k.owners.find? (fun w => w.id == o)).getD { id := o }

/-- HELD of an owner (R221). -/
def State.held (s : State) (o : Nat) : Nat := (s.ink.owner o).held

/-- The shared free count: free cells less every owner's unused reservation (R214). -/
def State.sharedFree (s : State) : Nat :=
  s.inkFree - (s.ink.owners.map (fun w => s.effMin w.id - w.held)).sum

/-- Which owners the mode grants (R238). -/
def State.inkAllows (s : State) (o : Nat) : Bool :=
  match s.mode with
  | .off | .doze => false
  | .holdUp => o == 6
  | .safe => if s.fld F.EVU_SAFE_MEDIA = 2 then o == 6 || o == 8 else o != 0
  | _ => true

/-- The chain of a head cell. -/
def State.chain (s : State) (head : Nat) : Option Chain := s.ink.chains.find? (fun c => c.head == head)

/-- Sectors of a record that are not dry (R21, R24, R27). -/
def InFlight.wetSectors (r : InFlight) : Nat :=
  popcount 32 ((r.parts.foldl (fun m p => m ||| p.mask) 0) &&& (r.dryMask ^^^ (2 ^ 32 - 1)))

/-- Completed wet bytes (R441). -/
def State.wetDone (s : State) : Nat :=
  ((s.map.inflight.filter (fun r => r.done && !r.dry)).map (fun r => 512 * r.wetSectors)).sum

/-- Wet bytes that are not yet completed (R441): the granted segments of writes, less what is already dry. -/
def State.wetOpen (s : State) : Nat :=
  let granted := (s.qe.cmds.map (fun c => (c.segs.filter (fun g => g.chain.isSome)).map (fun g =>
    match g.chain.bind s.chain with | some k => 512 * k.cells.length | none => 0) |>.sum)).sum
  let dry := ((s.map.inflight.filter (fun r => !r.done)).map (fun r => 512 * popcount 32 r.dryMask)).sum
  granted - dry

/-- Whether a segment of `n` cells keeps both wet sums within their budgets (R441). Log entry 67 (DEDUCED). -/
def State.budgetRoom (s : State) (n : Nat) : Bool :=
  s.wetOpen + 512 * n ≤ 1048576 * s.fld F.PWR_HU_EFF_DUR && s.wetDone ≤ 1048576 * s.fld F.PWR_HU_EFF_PROT

/-- A request that R215's queue on the shared pool admits: allowed by the mode, within its owner's EFF_MAX and, for a
write's segment, within the wet budgets (R441). -/
def State.joins (s : State) (r : CellReq) : Bool :=
  s.inkAllows r.owner && s.held r.owner + r.n ≤ s.effMax r.owner &&
    (match r.what with | .hostWrite _ _ => s.budgetRoom r.n | _ => true)

/-- Whether an owner may take `n` cells, whatever waits (R214, R238). -/
def State.grantRoom (s : State) (o n : Nat) : Bool :=
  let own := s.effMin o - s.held o
  s.inkAllows o && s.held o + n ≤ s.effMax o && n ≤ s.inkFree && (n ≤ own || n - own ≤ s.sharedFree)

/-- The grant test (R214) of a request with age order `order`. -/
def State.grantOk (s : State) (o n order : Nat) : Bool :=
  s.grantRoom o n && (n ≤ s.effMin o - s.held o ||
    !s.ink.waiting.any (fun r => r.order < order && s.joins r && s.effMin r.owner - s.held r.owner < r.n))

/-- The lowest free cells, from cell `i` on, `n` of them. Log entry 73 (DESIGN CHOICE). -/
def pickCells (serves : Nat → Bool) (used : List Nat) : Nat → Nat → Nat → List Nat
  | 0, _, _ => []
  | fuel + 1, i, n =>
    if n = 0 then []
    else if serves (i / 8192) && !used.contains i then i :: pickCells serves used fuel (i + 1) (n - 1)
    else pickCells serves used fuel (i + 1) n

/-- The cells that the next chain of `n` takes. -/
def State.freeCells (s : State) (n : Nat) : List Nat :=
  pickCells s.bankServes (s.ink.chains.flatMap (fun c => c.cells)) (s.ink.used + n + 131072) 0 n

/-- Changes an owner's HELD and keeps its PEAK (R221, R223). -/
def Ink.addHeld (k : Ink) (o d : Nat) : Ink :=
  { k with owners := updWhere (fun w => w.id == o) (fun w => { w with held := w.held + d, peak := max w.peak (w.held + d) }) k.owners }

/-- Takes cells for an owner: a chain with ALLOC and LAST as holders with count 1, entered once when they are the same
owner (R216). Answers the chain's head. -/
def State.alloc (s : State) (o last n : Nat) : State × Nat :=
  let cells := s.freeCells n
  let head := cells.headD 0
  let hs := if o = last then [(o, 1)] else [(o, 1), (last, 1)]
  let c : Chain := { head, cells, alloc := o, last, holders := hs, born := s.now / (256 * 1024) % 2 ^ 32 }
  ({ s with ink := ({ s.ink with chains := c :: s.ink.chains }).addHeld o n }, head)

/-- Sets POISON on cells of a chain, by their place in it (R208). -/
def State.poisonCells (s : State) (head : Nat) (at_ : List Nat) : State :=
  { s with ink := { s.ink with
    chains := updWhere (fun x => x.head == head) (fun x => { x with poison := (x.poison ++ at_.filterMap (fun i => x.cells[i]?)).eraseDups }) s.ink.chains } }

/-- Sets META_V and META on a cell of a chain, by its place in it (R208). -/
def State.metaCell (s : State) (head i v : Nat) : State :=
  { s with ink := { s.ink with
    chains := updWhere (fun x => x.head == head) (fun x => match x.cells[i]? with | some c => { x with metas := (c, v) :: x.metas.filter (fun e => e.1 != c) } | none => x) s.ink.chains } }

/-- Removes a request from those that wait. -/
def State.dropWait (s : State) (r : CellReq) : State :=
  { s with ink := { s.ink with waiting := s.ink.waiting.filter (fun x => x.order != r.order) } }

/-- Lets a request wait (R214). -/
def State.waitCells (s : State) (o last n : Nat) (what : GrantFor) : State :=
  { s with ink := { s.ink with
    waiting := s.ink.waiting ++ [⟨o, n, last, s.ink.nextOrder, s.now, what⟩]
    nextOrder := s.ink.nextOrder + 1
    owners := updWhere (fun w => w.id == o) (fun w => { w with waits := w.waits + 1 }) s.ink.owners } }

/-- Enters or raises a hold (R216). -/
def State.putHold (s : State) (head o n : Nat) : State :=
  { s with ink := { s.ink with
    chains := updWhere (fun x => x.head == head) (fun x => { x with holders := (o, n) :: x.holders.filter (fun h => h.1 != o) }) s.ink.chains } }

/-- A chain with the poison and the metadata of another, cell by cell (R216). -/
def Chain.copyOf (c : Chain) (d : Chain) : Chain :=
  let dst (i : Nat) : Nat := c.cells.getD (d.cells.idxOf i) 0
  { c with poison := d.poison.map dst, metas := d.metas.map (fun e => (dst e.1, e.2)) }

/-- The copy of a chain's data in a chain of an owner's own (R216). -/
def State.copyChain (s : State) (d : Chain) (o : Nat) : State × Nat :=
  let (s1, h) := s.alloc o o d.cells.length
  ({ s1 with ink := { s1.ink with chains := updWhere (fun x => x.head == h) (fun x => x.copyOf d) s1.ink.chains } }, h)

/-- A hold that `asker`, which has to hold the chain, adds for `o` (R216), and the chain that `o` holds then. At count 63 it waits until the
count falls. For a fifth distinct holder the data is copied into a chain of `o`'s own, which `late` waits for where it is not granted. Log entry 88 (DESIGN CHOICE). -/
def State.hold (s : State) (head asker o : Nat) (late : GrantFor) : State × Option Nat :=
  match s.chain head with
  | none => (s, none)
  | some c =>
    if (c.holders.lookup asker).isNone then (s, none)
    else
      match c.holders.lookup o with
      | some n =>
        if n < 63 then (s.putHold head o (n + 1), some head)
        else ({ s with ink := { s.ink with holdWait := s.ink.holdWait ++ [(head, o)] } }, some head)
      | none =>
        if c.holders.length < 4 then (s.putHold head o 1, some head)
        else if s.grantOk o c.cells.length s.ink.nextOrder then ((s.copyChain c o).1, some (s.copyChain c o).2)
        else (s.waitCells o o c.cells.length late, none)

/-- Drops one hold (R216, R217). A release without a hold is counted and changes nothing else; a hold that waits takes the place of the one
dropped; the chain is freed when its last holder goes, and an owner that leaves goes with its last cell. -/
def State.release (s : State) (head o : Nat) : State :=
  let dup (s : State) : State :=
    ({ s with ink := { s.ink with dup := s.ink.dup + 1 } }).post F.INK_EVT_STATUS_DUP_RELEASE o
  match s.chain head with
  | none => dup s
  | some c =>
    match c.holders.lookup o with
    | none => dup s
    | some n =>
      let rest := c.holders.filter (fun h => h.1 != o)
      let hs := if n ≤ 1 then rest else (o, n - 1) :: rest
      if s.ink.holdWait.contains (head, o) then { s with ink := { s.ink with holdWait := s.ink.holdWait.erase (head, o) } }
      else if hs.isEmpty then
        let owners := updWhere (fun w => w.id == c.alloc) (fun w => { w with held := w.held - c.cells.length }) s.ink.owners
        { s with ink :=
          { s.ink with
            chains := s.ink.chains.filter (fun x => x.head != head)
            owners := owners.filter (fun w => !(w.leaving && w.held == 0)) } }
      else { s with ink := { s.ink with chains := updWhere (fun x => x.head == head) (fun x => { x with holders := hs }) s.ink.chains } }

/-- Drops every hold that an owner has on a chain. -/
def State.releaseAll (s : State) (head o : Nat) : State :=
  match s.chain head with
  | none => s
  | some c => match c.holders.lookup o with | some n => (List.range n).foldl (fun s _ => s.release head o) s | none => s

/-- The waiting request that is served next (R215): owner 6, then the oldest that fits its owner's unused
reservation, then the head of the shared queue if it fits. Log entry 67 (DEDUCED). -/
def State.nextGrant (s : State) : Option CellReq :=
  let fit (r : CellReq) : Bool := s.grantOk r.owner r.n r.order
  let w := s.ink.waiting
  match w.find? (fun r => r.owner == 6 && s.grantRoom r.owner r.n) with
  | some r => some r
  | none =>
    match w.find? (fun r => s.joins r && r.n ≤ s.effMin r.owner - s.held r.owner && fit r) with
    | some r => some r
    | none => w.find? (fun r => s.joins r && fit r)

/-- The cells that a length of data needs, whole cells of 512 B (R219). -/
def cellsFor (bytes : Nat) : Nat := ceilDiv bytes 512

/-- Wet bytes of writes, completed or not (R436). -/
def State.wetBytes (s : State) : Nat := s.wetDone + s.wetOpen

/-- The Inkwell's answer to a Tine's request, which it keeps for the last 64 (R218). -/
def State.inkServed (s : State) (stream osn head : Nat) : State :=
  ({ s with ink := { s.ink with osn := (stream, osn, head) :: s.ink.osn.take 63 } }).emit (.inkAnswer stream osn head)

end Sys2Proof.Machine
end

