-- ==== Sys2Proof/Machine/Geometry.lean ====
section
/-! DEFINITION. Where things lie on the medium (R242 to R245, R332 to R336): physical unit addresses, the shape of a
wordline and of a band, and the look-ups of bands, blocks and programmed units. -/

namespace Sys2Proof.Machine

/-- The Nib whose geometry is the reference: the first that reports a page size (R366). -/
def State.refNib (s : State) : Nat := ((List.range 48).find? (fun n => s.fld (F.NIB_GEOM0_PAGE_KIB n) != 0)).getD 0

/-- 4 KiB units in a page. -/
def State.geoUnits (s : State) : Nat := max 1 (s.fld (F.NIB_GEOM0_PAGE_KIB s.refNib) / 4)
/-- Planes of a LUN. -/
def State.geoPlanes (s : State) : Nat := max 1 (s.fld (F.NIB_GEOM0_PLANES s.refNib))
/-- Pages of a wordline: the bits per cell. -/
def State.geoBits (s : State) : Nat := s.fld (F.NIB_GEOM1_BITS s.refNib) + 1
/-- Pages of a block. -/
def State.geoPages (s : State) : Nat := s.fld (F.NIB_GEOM1_PAGES s.refNib)
/-- Wordlines of a block. -/
def State.geoWls (s : State) : Nat := s.geoPages / s.geoBits
/-- Blocks per plane in use (R366). -/
def State.geoBlocks (s : State) : Nat := s.fld F.MAP_GEOM_BLOCKS
/-- K of R336: units of one member's wordline. -/
def State.geoK (s : State) : Nat := s.geoBits * s.geoPlanes * s.geoUnits

/-- 4 KiB units in an IU (R245). -/
def State.iuUnits (s : State) : Nat := 2 ^ s.fld F.MAP_CFG_IU_ACTIVE
/-- 512 B sectors in an IU. -/
def State.iuSectors (s : State) : Nat := 8 * s.iuUnits

/-- The PUA of a unit (R242). -/
def State.pua (s : State) (lun block page plane unit : Nat) : Nat :=
  let u := s.fld F.MAP_GEOM_UNIT_W
  let p := s.fld F.MAP_GEOM_PLANE_W
  let g := s.fld F.MAP_GEOM_PAGE_W
  lun * 2 ^ 26 + (((block * 2 ^ g + page) * 2 ^ p + plane) * 2 ^ u + unit)

/-- The LUN of a PUA. -/
def lunOf (a : Nat) : Nat := a / 2 ^ 26
/-- The block of a PUA. -/
def State.blockOf (s : State) (a : Nat) : Nat :=
  a % 2 ^ 26 / 2 ^ (s.fld F.MAP_GEOM_UNIT_W + s.fld F.MAP_GEOM_PLANE_W + s.fld F.MAP_GEOM_PAGE_W)
/-- The page of a PUA. -/
def State.pageOf (s : State) (a : Nat) : Nat :=
  a / 2 ^ (s.fld F.MAP_GEOM_UNIT_W + s.fld F.MAP_GEOM_PLANE_W) % 2 ^ s.fld F.MAP_GEOM_PAGE_W
/-- The wordline of a PUA. -/
def State.wlOf (s : State) (a : Nat) : Nat := s.pageOf a / s.geoBits

/-- The PUA of unit `k` of a member's wordline in the placement order of R336: page, then plane, then unit. -/
def State.puaInWl (s : State) (lun block wl k : Nat) : Nat :=
  let u := s.geoUnits
  let p := s.geoPlanes
  s.pua lun block (wl * s.geoBits + k / (p * u)) (k / u % p) (k % u)

/-- The slot of a unit within its member's wordline. -/
def State.slotInWl (s : State) (a : Nat) : Nat :=
  let u := s.geoUnits
  let p := s.geoPlanes
  let unit := a % 2 ^ s.fld F.MAP_GEOM_UNIT_W
  let plane := a / 2 ^ s.fld F.MAP_GEOM_UNIT_W % 2 ^ s.fld F.MAP_GEOM_PLANE_W
  (s.pageOf a % s.geoBits * p + plane) * u + unit

/-- Whether bands hold a parity member (R333). -/
def State.parityOn (s : State) : Bool := s.flag F.LIG_STATUS_EN_ACTIVE

/-- The parity member of a wordline index (R335). -/
def State.parityOf (s : State) (b : Band) (wl : Nat) : Option Nat :=
  if s.parityOn && !b.members.isEmpty then b.members[(b.block + wl) % b.members.length]? else none

/-- The data members of a wordline index, ascending (R335). -/
def State.dataOf (s : State) (b : Band) (wl : Nat) : List Nat :=
  b.members.filter (fun l => s.parityOf b wl != some l)

/-- The data capacity of a band in IUs. -/
def State.bandCap (s : State) (b : Band) : Nat :=
  (b.members.length - bit s.parityOn) * s.geoWls * (s.geoK / s.iuUnits)

/-- The band that holds a PUA. -/
def State.bandAt (s : State) (a : Nat) : Option Band :=
  s.map.bands.find? (fun b => b.block == s.blockOf a && b.members.contains (lunOf a))

/-- Enters the program band of a member's group of 64 wordlines in the program-band summary (R327). -/
def Band.setPband (b : Band) (lun wl pband : Nat) : Band :=
  { b with pbands := ((lun, wl / 64), pband) :: b.pbands.filter (fun e => e.1 != (lun, wl / 64)) }

/-- Changes one band. -/
def State.updBand (s : State) (ix : Nat) (f : Band → Band) : State :=
  { s with map := { s.map with bands := updWhere (fun b => b.ix == ix) f s.map.bands } }

/-- A band by its index. -/
def State.band (s : State) (ix : Nat) : Option Band := s.map.bands.find? (fun b => b.ix == ix)

/-- Adds to, or takes from, the valid count of the band of a PUA (R256). -/
def State.bumpValid (s : State) (a : Nat) (up : Bool) : State :=
  match s.bandAt a with
  | some b => s.updBand b.ix (fun b => { b with valid := if up then b.valid + 1 else b.valid - 1 })
  | none => s

/-- What a PUA holds, if it is programmed. -/
def State.mediaAt (s : State) (a : Nat) : Option MediaIu := s.map.media.find? (fun m => m.addr == a)

/-- What the programmed IU, page or unit that covers a PUA holds (R287). -/
def State.unitAt (s : State) (a : Nat) : Option MediaIu :=
  let n (m : MediaIu) : Nat := if m.kind = 0 || m.kind = 1 then s.iuUnits else 1
  s.map.media.find? (fun m => lunOf m.addr == lunOf a && s.blockOf m.addr == s.blockOf a && s.wlOf m.addr == s.wlOf a &&
    decide (s.slotInWl m.addr ≤ s.slotInWl a) && decide (s.slotInWl a < s.slotInWl m.addr + n m))

/-- The map entry of an IU (R246). -/
def State.entry (s : State) (nsid iu : Nat) : MapEntry := (s.map.entries.lookup (nsid, iu)).getD .unmapped

/-- Stores a map entry; UNMAPPED is the entry of an unlisted IU. -/
def State.putEntry (s : State) (nsid iu : Nat) (e : MapEntry) : State :=
  let rest := s.map.entries.filter (fun x => x.1 != (nsid, iu))
  { s with map := { s.map with entries := if e = .unmapped then rest else ((nsid, iu), e) :: rest } }

/-- The free bands' count. -/
def State.freeBands (s : State) : Nat := (s.map.bands.filter (fun b => b.state == .free)).length

/-- The in-service bands' count: those not retired. -/
def State.liveBands (s : State) : Nat := (s.map.bands.filter (fun b => b.state != .retired)).length

/-- A threshold of R266 in bands. -/
def State.gcBands (s : State) (f : Fld) : Nat := s.fld f * s.liveBands / 1000

/-- The erase counter of a block (R271). -/
def State.eraseCount (s : State) (lun block : Nat) : Nat := (s.map.erases.lookup (lun, block)).getD 0

/-- Whether any namespace is present, snapshots among them (R245, R324, R332). -/
def State.hasNamespace (s : State) : Bool := !s.qe.nss.isEmpty

/-- Puts a number into an ascending list. -/
def insertNat (n : Nat) : List Nat → List Nat
  | [] => [n]
  | x :: xs => if n ≤ x then n :: x :: xs else x :: insertNat n xs

/-- The members that a new band of a group takes at a block index (R334): its in-service LUNs whose block is neither
factory bad, retired nor a Blotter block, ascending. -/
def State.bandMembers (s : State) (group block : Nat) : List Nat :=
  ((s.map.groups.getD group []).foldr insertNat []).filter (fun l => s.lunServes l && !s.map.badBlocks.contains (l, block) &&
    !s.map.factoryBad.contains (l, block) && !s.blt.blocks.any (fun b => b.1 == l && b.2.2 == block))

/-- A namespace. -/
def State.ns (s : State) (nsid : Nat) : Option Ns := s.qe.nss.find? (fun n => n.nsid == nsid)

/-- 512 B sectors of a namespace's logical block (R181). -/
def Ns.blkSectors (n : Ns) : Nat := if n.lbaf = 1 then 1 else 8

/-- The page size of SLC pages in bytes, from the first discovered Nib (R396), 16 KiB before discovery. -/
def State.pageBytes (s : State) : Nat :=
  match (List.range 48).find? (fun n => s.fld (F.NIB_GEOM0_PAGE_KIB n) != 0) with
  | some n => s.fld (F.NIB_GEOM0_PAGE_KIB n) * 1024
  | none => 16384

/-- Counts bytes programmed into the medium for log page 0x22 (R189). -/
def State.programmed (s : State) (bytes : Nat) : State :=
  { s with qe := { s.qe with counts := { s.qe.counts with progBytes := s.qe.counts.progBytes + bytes } } }

end Sys2Proof.Machine
end

