-- ==== Sys2Proof/Machine/MapOps.lean ====
section
/-! DEFINITION. The Map Engine's operations (R246 to R256, R306 to R311): map pages and their copies for cuts, entry
changes, in-flight records, the conditional update, and the stamp of a command at the Ordering Point. -/

namespace Sys2Proof.Machine

/-! ## Map pages and cut generations -/

/-- The map page of an IU (R247). -/
def pageIx (iu : Nat) : Nat := iu / 816

/-- A map page's record; a page not yet changed is clean, resident and at epoch 0. -/
def State.mapPage (s : State) (nsid page : Nat) : MapPage :=
  (s.map.pages.find? (fun p => p.nsid == nsid && p.page == page)).getD { nsid, page }

/-- Stores a map page's record; a page stored for the first time takes an MPI that no other has (R247). Log entry 73 (DESIGN CHOICE). -/
def State.setMapPage (s : State) (p : MapPage) : State :=
  let fresh := (s.map.pages.map (fun q => q.mpi)).foldl max 0 + 1
  let p : MapPage := if p.mpi = 0 then { p with mpi := fresh } else p
  { s with map := { s.map with pages := p :: s.map.pages.filter (fun q => !(q.nsid == p.nsid && q.page == p.page)) } }

/-- The mapped entries of a page, by IU. -/
def State.pageEntries (s : State) (nsid page : Nat) : List (Nat × MapEntry) :=
  (s.map.entries.filter (fun e => e.1.1 == nsid && pageIx e.1.2 == page)).map (fun e => (e.1.2, e.2))

/-- The step before a change of an entry with ink time `ink` (R307): the page is copied once for every pending or held
generation at or below the ink time that it has no copy for; then it is dirty (R250). -/
def State.touchPage (s : State) (nsid page ink : Nat) : State :=
  let p := s.mapPage nsid page
  let gens := (s.ckpt.cuts.filter (fun c => (c.state == 1 || c.state == 2) && c.time * 256 ≤ ink && p.epoch < c.gen)).map
    (fun c => c.gen)
  let hi := gens.foldl max p.epoch
  let p1 := { p with epoch := hi, dirty := true, used := s.now }
  if gens.isEmpty then s.setMapPage p1
  else
    let snap : SnapPage := { nsid, page, lo := p.epoch + 1, hi, entries := s.pageEntries nsid page }
    ({ s with map := { s.map with snaps := snap :: s.map.snaps } }).setMapPage p1

/-- The generation whose content a snapshot namespace shows. -/
def State.genOf (s : State) (n : Ns) : Option Nat :=
  n.cut.bind (fun c => (s.ckpt.cuts.find? (fun k => k.slot == c)).map (fun k => k.gen))

/-- The entry that a namespace shows for an IU (R307): a snapshot reads the snapshot page whose range holds its
generation, or the live page where there is none. -/
def State.lookup (s : State) (n : Ns) (iu : Nat) : MapEntry :=
  match s.genOf n with
  | none => s.entry n.nsid iu
  | some g =>
    match s.map.snaps.find? (fun p => p.nsid == n.source && p.page == pageIx iu && p.lo ≤ g && g ≤ p.hi) with
    | some p => (p.entries.lookup iu).getD .unmapped
    | none => s.entry n.source iu

/-- Whether a snapshot page maps a PUA (R311). -/
def State.pinned (s : State) (a : Nat) : Bool :=
  s.map.snaps.any (fun p => p.entries.any (fun e => e.2 == .mapped a))

/-- An entry's old place stops being valid (R256), unless a snapshot still maps it (R311). -/
def State.dropEntry (s : State) (e : MapEntry) : State :=
  match e with
  | .mapped a => if s.pinned a then s else s.bumpValid a false
  | _ => s

/-- Changes a live entry for a write or a map change with an ink time (R252, R256, R307). -/
def State.changeEntry (s : State) (nsid iu ink : Nat) (e : MapEntry) : State :=
  let s1 := s.touchPage nsid (pageIx iu) ink
  let old := s1.entry nsid iu
  (s1.putEntry nsid iu e).dropEntry old

/-! ## In-flight records -/

/-- The sectors of a list of parts. -/
def partsMask (ps : List Part) : Nat := ps.foldl (fun m p => m ||| p.mask) 0

/-- The sectors of a part within a mask, with the metadata of the blocks that end there. -/
def Part.within (p : Part) (mask : Nat) : Part :=
  { p with mask := p.mask &&& mask, metas := p.metas.filter (fun e => (p.mask &&& mask).testBit e.1) }

/-- Removes sectors from parts. -/
def cutParts (mask : Nat) (ps : List Part) : List Part :=
  (ps.map (fun p => p.within (p.mask - (p.mask &&& mask)))).filter (fun p => p.mask != 0)

/-- Later parts over earlier ones, sector by sector (R23). -/
def overParts (new old : List Part) : List Part := new ++ cutParts (partsMask new) old

/-- The parts within a mask. -/
def keepParts (mask : Nat) (ps : List Part) : List Part :=
  (ps.map (fun p => p.within mask)).filter (fun p => p.mask != 0)

/-- An in-flight record by its index. -/
def State.recAt (s : State) (i : Nat) : Option InFlight := s.map.inflight.find? (fun r => r.idx == i)

/-- Changes one in-flight record. -/
def State.updRec (s : State) (i : Nat) (f : InFlight → InFlight) : State :=
  { s with map := { s.map with inflight := updWhere (fun r => r.idx == i) f s.map.inflight } }

/-- The lowest record index that is not in use. Log entry 73 (DESIGN CHOICE). -/
def freeRec (used : List Nat) : Nat → Nat → Nat
  | 0, i => i
  | fuel + 1, i => if used.contains i then freeRec used fuel (i + 1) else i

/-- `n` sectors from sector `lo` on, as a mask. -/
def maskOf (lo n : Nat) : Nat := (2 ^ n - 1) * 2 ^ lo

/-- Where the sectors of an IU are found through an entry (R253): in cells through records, on the medium, or nowhere.
The fuel bounds the chain of PREVs. -/
def State.sources (s : State) : Nat → MapEntry → Nat → List RdSrc
  | 0, _, _ => []
  | fuel + 1, e, need =>
    if need = 0 then []
    else
      match e with
      | .unmapped => [.zeros]
      | .uncorr => [.uncorr]
      | .mapped a => [.media a]
      | .inFlight i =>
        match s.recAt i with
        | none => [.zeros]
        | some r =>
          let have_ := need &&& partsMask r.parts
          (if have_ = 0 then [] else [.cells i have_]) ++ s.sources fuel r.prev (need - have_)

/-- The sources of an IU's sectors through an entry. -/
def State.sourcesOf (s : State) (e : MapEntry) (need : Nat) : List RdSrc :=
  s.sources (s.map.inflight.length + 1) e need

/-- What an entry's content is, as parts, where it is in records or known from the medium's records; zeros elsewhere. -/
def State.content (s : State) : Nat → MapEntry → List Part
  | 0, _ => []
  | fuel + 1, e =>
    match e with
    | .mapped a => ((s.mediaAt a).map (fun m => m.parts)).getD []
    | .inFlight i => match s.recAt i with | some r => overParts r.parts (s.content fuel r.prev) | none => []
    | _ => []

/-! ## The conditional update (R256, R308) -/

/-- Replaces an expected entry in the snapshot pages of an IU (R308). -/
def State.updSnaps (s : State) (nsid iu : Nat) (expect new : MapEntry) : State :=
  let fix (p : SnapPage) : SnapPage :=
    if p.nsid == nsid && p.page == pageIx iu then
      { p with entries := p.entries.map (fun e => if e.1 == iu && e.2 == expect then (iu, new) else e)
               dirty := p.dirty || p.entries.any (fun e => e.1 == iu && e.2 == expect) }
    else p
  { s with map := { s.map with snaps := s.map.snaps.map fix } }

/-- The conditional update of R256 with its snapshot side (R308). A record that finds the IU's entry held by a later
record is applied to that record's PREV, and the new place counts as valid until that record is released (R253). -/
def State.mapUpdate (s : State) (nsid iu addr : Nat) (expect : MapEntry) : State :=
  let new := MapEntry.mapped addr
  let e := s.entry nsid iu
  let inSnap := s.map.snaps.any (fun p => p.nsid == nsid && p.page == pageIx iu && p.entries.any (fun x => x.1 == iu && x.2 == expect))
  if e = new then s
  else
    let s1 := s.updSnaps nsid iu expect new
    let live : Bool := e == expect
    let later := s1.map.inflight.find? (fun r => r.nsid == nsid && r.iu == iu && r.prev == expect && expect != .unmapped)
    let s2 := if live then (s1.putEntry nsid iu new).setMapPage { s1.mapPage nsid (pageIx iu) with dirty := true, used := s1.now } else s1
    let s3 := match live, expect, later with
      | false, .inFlight _, some r => s2.updRec r.idx (fun r => { r with prev := new, prevCounted := true })
      | _, _, _ => s2
    let counted := live || inSnap || (match expect, later with | .inFlight _, some _ => true | _, _ => false)
    if counted then
      let s4 := s3.bumpValid addr true
      match expect with
      | .mapped a => s4.bumpValid a false
      | _ => s4
    else s3

/-! ## Cells of a record -/

/-- Drops an owner's hold on every chain that no record for which `still` holds shares. -/
def State.dropChains (s : State) (heads : List Nat) (o : Nat) (still : InFlight → Bool) : State :=
  heads.foldl (fun (s : State) h =>
    if s.map.inflight.any (fun r => (r.chains.contains h || r.twins.contains h) && still r) then s else s.releaseAll h o) s

/-- Whether a record still has Blotter sectors that are not dry. -/
def InFlight.blotterLeft (r : InFlight) : Bool :=
  let m := partsMask r.parts
  let want := m - (m &&& r.bypass)
  want &&& r.dryMask != want

/-- Marks sectors of a record dry (R24, R27); the packer lets its chains go once their Blotter sectors are dry
(R217). -/
def State.markDry (s : State) (i mask : Nat) : State :=
  match s.recAt i with
  | none => s
  | some r =>
    let d := r.dryMask ||| (mask &&& partsMask r.parts)
    let s1 := s.updRec i (fun r => { r with dryMask := d, dry := d == partsMask r.parts })
    (s1.dropChains r.chains 2 InFlight.blotterLeft).dropChains r.twins 2 (fun r => !r.dry)

/-- The reads that wait for a record's sectors, after the record is gone (R31, R253): they have its cells, and find its content again
where it has landed. -/
def RdIu.afterRec (q : RdIu) (i : Nat) (addr : Nat) : RdIu :=
  let mine (x : RdSrc) : Bool := match x with | .cells j _ => j == i | _ => false
  { q with srcs := q.srcs.map (fun x => if mine x then .got else x), orig := q.orig.map (fun x => if mine x then .media addr else x) }

/-- A record that landed at `addr` is released (R26, R253): its Blotter units are released, the Map Engine's hold on its chains goes when no
other record shares them, and a PREV that counted as valid stops counting. -/
def State.releaseRec (s : State) (i addr : Nat) : State :=
  match s.recAt i with
  | none => s
  | some r =>
    let s1 : State := { s with
      map := { s.map with inflight := s.map.inflight.filter (fun x => x.idx != i) }
      qe := { s.qe with cmds := s.qe.cmds.map (fun c => { c with ius := c.ius.map (fun q => q.afterRec i addr) }) }
      blt := { s.blt with pages := s.blt.pages.map (fun p =>
        { p with units := updWhere (fun u => u.idx == some i) (fun u => { u with released := true, idx := none }) p.units }) } }
    let s2 := ((s1.dropChains r.chains 2 InFlight.blotterLeft).dropChains r.twins 2 (fun r => !r.dry)).dropChains r.chains 3 (fun _ => true)
    if r.prevCounted then s2.dropEntry r.prev else s2

/-- Whether the write that owns a record can still end with an error (R165, R166): a block of it is not verified, or its compare has not
ended. -/
def State.writeOpen (s : State) (r : InFlight) : Bool :=
  s.qe.cmds.any (fun c => c.ink == some r.ink && (!c.left.isEmpty || c.gate.isSome))

/-- A record whose TLC wordline has closed takes effect in the map and is released (R24, R26), once it is dry and its write stands. Log entry 82 (DESIGN CHOICE). -/
def State.landRec (s : State) (i : Nat) : State :=
  match s.recAt i with
  | none => s
  | some r =>
    match r.landed with
    | some addr => if r.dry && !s.writeOpen r then (s.mapUpdate r.nsid r.iu addr (.inFlight i)).releaseRec i addr else s
    | none => s

/-- Every record that waited for its write lands. -/
def State.landPending (s : State) : State :=
  ((s.map.inflight.filter (fun r => r.landed.isSome)).map (fun r => r.idx)).foldl State.landRec s

/-- What was placed for a record that commits nothing becomes padding (R165): on wordlines in the making or on the medium and in Blotter
pages. Its index then names nothing. Log entry 82 (DESIGN CHOICE). -/
def State.unplace (s : State) (r : InFlight) : State :=
  let i := r.idx
  let pad (q : Item) : Item := if q.idx = some i then { kind := 1, ink := 0 } else q
  let mine (m : MediaIu) : Bool := m.kind == 0 && m.nsid == r.nsid && m.iu == r.iu && m.ink == r.ink && m.src.isNone
  { s with
    map := { s.map with
      wps := s.map.wps.map (fun w => { w with queue := w.queue.filter (fun q => q.idx != some i) })
      bands := s.map.bands.map (fun b => { b with fill := b.fill.map pad })
      wordlines := s.map.wordlines.map (fun w => { w with items := w.items.map (fun e => (e.1, pad e.2)) })
      media := updWhere mine (fun m => { addr := m.addr, kind := 1, pband := m.pband, bos := m.bos, wp := m.wp : MediaIu }) s.map.media
      fetches := s.map.fetches.map (fun f => { f with users := f.users.filter (fun u => u != .merge i) }) }
    blt := { s.blt with
      pages := s.blt.pages.map (fun p => { p with units := updWhere (fun u => u.idx == some i) (fun _ => { btype := 5 }) p.units })
      waitUnits := s.blt.waitUnits.filter (fun u => u.idx != some i) } }

/-- An IU of a read whose record is gone: the record's sectors are read through its PREV (R253). -/
def State.rdAbort (s : State) (i : Nat) (prev : MapEntry) (q : RdIu) : RdIu :=
  let mine (x : RdSrc) : Bool := match x with | .cells j _ => j == i | _ => false
  let mask (l : List RdSrc) : Nat := l.foldl (fun m x => match x with | .cells j k => if j == i then m ||| k else m | _ => m) 0
  let again (l : List RdSrc) : List RdSrc := l.filter (fun x => !mine x) ++ s.sourcesOf prev (mask l)
  { q with
    srcs := if q.srcs.any mine then again q.srcs else q.srcs
    orig := if q.orig.any mine then again q.orig else q.orig
    started := q.started && !q.srcs.any mine }

/-- A write that ends with an error commits nothing (R165, R253, R308): its record's entry returns to PREV, here and in
the snapshots, a later record's PREV becomes this record's own, and every read that waits for it is served through PREV. -/
def State.abortRec (s : State) (i : Nat) : State :=
  match s.recAt i with
  | none => s
  | some r =>
    let e := MapEntry.inFlight i
    let s1 := s.updSnaps r.nsid r.iu e r.prev
    let live : Bool := s1.entry r.nsid r.iu == e
    let s2 : State := if live then s1.putEntry r.nsid r.iu r.prev else s1
    let s3 : State := match live, r.prev with
      | true, .mapped a => if r.prevCounted || s.pinned a then s2 else s2.bumpValid a true
      | _, _ => s2
    let s4 : State := { s3 with map := { s3.map with
      inflight := (s3.map.inflight.filter (fun x => x.idx != i)).map (fun x => if x.prev == e then { x with prev := r.prev } else x) } }
    let s5 : State := { s4 with qe := { s4.qe with cmds := s4.qe.cmds.map (fun c => { c with ius := c.ius.map (s4.rdAbort i r.prev) }) } }
    (((s5.unplace r).dropChains r.chains 0 (fun _ => true)).dropChains r.chains 2 (fun _ => true)).dropChains r.chains 3 (fun _ => true)

/-! ## The Ordering Point -/

/-- The commands that R164 stamps. -/
def CmdKind.stamps : CmdKind → Bool
  | .write | .deallocate | .writeZeroes | .writeUncorr => true
  | _ => false

/-- The block ranges of a command, as (first block, blocks). -/
def Cmd.blocks (c : Cmd) : List (Nat × Nat) := if c.kind = .deallocate then c.ranges else [(c.slba, c.n)]

/-- The IUs that a range of sectors covers, each with the sectors it covers there. -/
def iuCover (iuS first count : Nat) : List (Nat × Nat) :=
  if count = 0 then []
  else
    (List.range ((first + count - 1) / iuS - first / iuS + 1)).map (fun k =>
      let i := first / iuS + k
      let lo := max first (i * iuS) - i * iuS
      let hi := min (first + count) ((i + 1) * iuS) - i * iuS
      (i, maskOf lo (hi - lo)))

/-- The IUs of a command with the sectors it covers in each. -/
def State.cmdCover (s : State) (c : Cmd) (bs : Nat) : List (Nat × Nat) :=
  c.blocks.flatMap (fun r => iuCover s.iuSectors (r.1 * bs) (r.2 * bs))

/-- The in-flight records that a command needs (R254): one for each IU of a Write, one for each IU that a map change
covers in part (R252). -/
def State.recNeed (s : State) (c : Cmd) (bs : Nat) : Nat :=
  let cover := s.cmdCover c bs
  if c.kind = .write then cover.length else (cover.filter (fun e => e.2 != maskOf 0 s.iuSectors)).length

/-- The bypass part of a write (R27, R168), as a range of sectors: its whole aligned stripe units. -/
def State.bypassRange (s : State) (first count : Nat) : Nat × Nat :=
  let su := 8 * s.geoK
  if su = 0 then (0, 0) else (ceilDiv first su * su, (first + count) / su * su)

/-- Opens an in-flight record for an IU at its stamp (R252). -/
def State.openRec (s : State) (c : Cmd) (ink iu mask bypass : Nat) (parts : List Part) : State × Nat :=
  let i := freeRec (s.map.inflight.map (fun r => r.idx)) (s.map.inflight.length + 1) 0
  let prev := s.entry c.nsid iu
  let r : InFlight := { idx := i, nsid := c.nsid, iu, ref := c.ref, ink, cls := s.rul.cls, unc := s.uncNow, parts, wp := c.wp, prev
                        bypass := mask &&& bypass }
  let s1 := s.changeEntry c.nsid iu ink (.inFlight i)
  ({ s1 with map := { s1.map with inflight := s1.map.inflight ++ [r] } }, i)

/-- The 256 KiB segments of a transfer of `n` blocks of `bs` sectors from a block on (R219). -/
def segmentsOf (slba n bs : Nat) : List Segment :=
  let per := 512 / bs
  (List.range (ceilDiv n per)).map (fun k => { lo := slba + k * per, n := min per (n - k * per) })

/-- One IU of a stamped command: a whole IU of a map change takes its new entry, anything else an in-flight record. -/
def State.stampIu (c : Cmd) (ink full by_lo by_hi iuS : Nat) (acc : State × List Nat) (e : Nat × Nat) : State × List Nat :=
  let (s, is) := acc
  let data : List Part := [{ mask := e.2, ink, zero := c.zero, wunc := c.wunc, poison := c.wunc }]
  if c.kind != .write && e.2 = full then
    (s.changeEntry c.nsid e.1 ink (if c.kind = .writeUncorr then .uncorr else .unmapped), is)
  else
    let by_ := if c.kind = .write && by_lo ≤ e.1 * iuS && (e.1 + 1) * iuS ≤ by_hi then full else 0
    let (s1, i) := s.openRec c ink e.1 e.2 by_ data
    (s1, is ++ [i])

/-- The stamp of one command (R21, R22, R71, R164, R252): its ink time from the Queue Engine's copy, its records and entries, and its segments. A map change
covers IUs whole by their entries and in part by blocks that it writes as zeros or marked. -/
def State.stampCmd (s : State) (c : Cmd) (bs : Nat) : State :=
  let ink := max (s.nowAt islQueue) (s.map.lastInk + 1)
  let iuS := s.iuSectors
  let full := maskOf 0 iuS
  let cover := s.cmdCover c bs
  let by_ := s.bypassRange (c.slba * bs) (c.n * bs)
  let s1 : State := { s with map := { s.map with lastInk := ink } }
  let (s2, recs) := cover.foldl (State.stampIu c ink full by_.1 by_.2 iuS) (s1, [])
  let part := (cover.filter (fun e => c.kind != .write && e.2 != full)).flatMap (fun e =>
    ((List.range (iuS / bs)).filter (fun k => e.2.testBit (k * bs))).map (fun k => (e.1 * iuS) / bs + k))
  let segs := if c.kind = .write then segmentsOf c.slba c.n bs
    else if part.isEmpty then [] else [{ lo := 0, n := part.length, fetched := true }]
  let left := if c.kind = .write then (List.range c.n).map (· + c.slba) else part
  let c' : Cmd := { c with ink := some ink, records := recs, segs, left, wet := c.kind != .write }
  { s2 with
    qe := { s2.qe with cmds := updWhere (fun x => x.ref == c.ref) (fun _ => c') s2.qe.cmds }
    ckpt := { s2.ckpt with stamped := s2.ckpt.stamped + (if c.kind = .write then c.n * bs * 512 else 0) } }

/-- The block size in sectors of a command's namespace. -/
def State.cmdBs (s : State) (c : Cmd) : Nat := ((s.ns c.nsid).map Ns.blkSectors).getD 8

/-- The map pages that a command's stamp changes. -/
def State.cmdPages (s : State) (c : Cmd) (bs : Nat) : List MapPage :=
  (((s.cmdCover c bs).map (fun e => pageIx e.1)).eraseDups).map (s.mapPage c.nsid)

/-- The marks of the parts that a read takes: the poisoned sectors, and whether one is write-uncorrectable (R28, R252). -/
def marksOf (need : Nat) (ps : List Part) : Nat × Bool :=
  let mine := ps.filter (fun p => p.mask &&& need != 0)
  (partsMask (keepParts need (mine.filter (fun p => p.poison && !p.wunc))), mine.any (fun p => p.wunc))

/-- Forms the IUs of a read through its namespace's map (R31, R246, R253), with the marks of what records hold. -/
def State.readIus (s : State) (n : Ns) (first count : Nat) : List RdIu :=
  (iuCover s.iuSectors first count).map (fun e =>
    let en := s.lookup n e.1
    let src := if n.cut.isSome then n.source else n.nsid
    let pg := s.mapPage src (pageIx e.1)
    let srcs := (if pg.resident then [] else [.page src (pageIx e.1)]) ++ s.sourcesOf en e.2
    let held := srcs.flatMap (fun x => match x with
      | .cells i m => (match s.recAt i with | some r => keepParts m r.parts | none => [])
      | _ => [])
    let marks := marksOf e.2 held
    { iu := e.1, need := e.2, srcs, orig := srcs, poison := marks.1, lost := marks.2 || srcs.contains .uncorr })

/-- The read side of READ and COMPARE (R31): each IU's sources as the latch finds them, with a hold of the host-read owner
on the cells of records that it is served from (R217). -/
def State.readCmd (s : State) (n : Ns) (c : Cmd) : State × Cmd :=
  let bs := n.blkSectors
  let ius := s.readIus n (c.slba * bs) (c.n * bs)
  let recs := (ius.flatMap (fun q => q.srcs.filterMap (fun x => match x with | .cells i _ => some i | _ => none))).eraseDups
  let heads := (recs.flatMap (fun i => ((s.recAt i).map (fun r => r.chains)).getD [])).eraseDups
  let held := heads.foldl (fun (a : State × List Nat) h =>
    let (t, x) := a.1.hold h 3 1 (.copy c.ref h)
    (t, a.2 ++ (x.map (fun x => [x])).getD [])) (s, [])
  (held.1, { c with ius, holds := held.2, segs := segmentsOf c.slba c.n bs, left := (List.range c.n).map (· + c.slba) })

/-- Forms a fused compare just before its write is stamped (R166): each block's source is then the content with the latest ink time below the write's. -/
def State.formCompare (s : State) (w : Cmd) : State :=
  match w.gate.bind (fun r => s.qe.cmds.find? (fun c => c.ref == r && c.parked)) with
  | none => s
  | some c =>
    match s.ns c.nsid with
    | none => s
    | some n =>
      let (s1, c') := s.readCmd n { c with parked := false }
      { s1 with qe := { s1.qe with cmds := updWhere (fun x => x.ref == c.ref) (fun _ => c') s1.qe.cmds } }

/-- The Ordering Point (R164, R250, R251, R254): commands are stamped in latch order, each once its in-flight records are
free and the map pages that it changes are held and whole. The fuel is the number of commands that wait. -/
def State.stampReady : Nat → State → State
  | 0, s => s
  | fuel + 1, s =>
    match s.qe.cmds.find? (fun c => c.kind.stamps && c.ink.isNone) with
    | none => s
    | some c =>
      let bs := s.cmdBs c
      if s.map.inflight.length + s.recNeed c bs ≤ 32768 && (s.cmdPages c bs).all (fun p => p.resident && p.crcOk) then
        ((s.formCompare c).stampCmd c bs).stampReady fuel
      else s

/-- Stamps every command that can be stamped. -/
def State.stampAll (s : State) : State := s.stampReady s.qe.cmds.length

/-! ## Out-of-band records and accumulators (R287, R336 to R338) -/

/-- The XOR of two records in the layout of R338: SEQ, BOS and WP are not carried, nor FLAGS above bit 2. -/
def Oob.xor (a b : Oob) : Oob :=
  { ink := a.ink ^^^ b.ink, cls := a.cls ^^^ b.cls, pband := a.pband ^^^ b.pband, kind := a.kind ^^^ b.kind, unc := a.unc ^^^ b.unc
    nsid := a.nsid ^^^ b.nsid, lba := a.lba ^^^ b.lba, src := a.src ^^^ b.src, poison := a.poison ^^^ b.poison
    flags := (a.flags ^^^ b.flags) % 8, md := a.md ^^^ b.md }

/-- The record accumulator of the records folded into one slot (R337). -/
def xorAll (l : List Oob) : Oob := l.foldl Oob.xor {}

/-- The 48 bytes of a record (R287). -/
def Oob.bytes (r : Oob) : List Nat :=
  bytesLe 8 (r.ink / 256) ++ [r.ink % 256, r.cls % 4 + 4 * (r.pband % 8) + 32 * (r.kind % 8)] ++ bytesLe 2 r.unc ++ bytesLe 4 r.nsid ++
    bytesLe 8 r.lba ++ bytesLe 4 r.seq ++ bytesLe 4 r.bos ++ bytesLe 5 r.src ++ [r.wp % 256, r.poison % 256, r.flags % 256] ++ bytesLe 8 r.md

/-- The 48 bytes of a parity unit's record (R338), `pband` its own program band. -/
def Oob.parityBytes (pband : Nat) (x : Oob) : List Nat :=
  bytesLe 8 0 ++ [x.ink % 256, x.cls % 4 + 4 * (pband % 8) + 32 * 4] ++ bytesLe 2 x.unc ++ bytesLe 4 x.nsid ++ bytesLe 8 x.lba ++
    bytesLe 8 (x.ink / 256) ++ bytesLe 5 x.src ++ [x.pband % 8 + 8 * (x.kind % 8), x.poison % 256, x.flags % 8] ++ bytesLe 8 x.md

/-- The record of unit `u` of an item at a slot of data member `d` (R287, R288, R336). The LBA of a unit that holds no logical block is
0. Log entry 6 (DEDUCED). -/
def State.oobOf (s : State) (b : Band) (d slot : Nat) (q : Item) (u : Nat) : Oob :=
  let mask := maskOf (8 * u) 8
  let mine := keepParts mask q.parts
  let marked := mine.filter (fun p => p.poison || p.wunc)
  let md := (mine.flatMap (fun p => p.metas)).lookup (8 * u + 7)
  { ink := q.ink, cls := q.cls, pband := q.pband.getD 0, kind := q.kind, unc := q.unc, nsid := if q.kind = 2 then (s.mapPage q.nsid q.iu).mpi else q.nsid
    lba := if q.kind = 0 then (q.iu * s.iuSectors + 8 * u) / ((s.ns q.nsid).map Ns.blkSectors).getD 8 else 0
    seq := (b.wl * (s.dataOf b b.wl).length + d) * s.geoK + slot, bos := b.bos, src := q.src.getD 0, wp := b.wp.getD 0
    poison := partsMask marked / 2 ^ (8 * u)
    flags := bit q.src.isSome + 2 * bit md.isSome + 4 * bit (mine.any (fun p => p.wunc)), md := md.getD 0 }

/-- The members folded into the slot of a PUA (R337, R341). -/
def Stripe.foldedAt (t : Stripe) (a : Nat) : List Nat :=
  ((t.units.filter (fun e => e.1 % 2 ^ 26 == a % 2 ^ 26)).map (fun e => lunOf e.1)).eraseDups

/-- Whether a member's data of a wordline index still lies in cells: it is being filled, or its wordline has not closed (R26, R389). -/
def State.wlInCells (s : State) (b : Band) (wl lun : Nat) : Bool :=
  s.map.wordlines.any (fun w => w.band == b.ix && w.wl == wl && w.lun == lun) || (b.wl == wl && (s.dataOf b wl)[b.pos]? == some lun)

/-- Whether a member's wordline has closed. -/
def State.wlClosed (s : State) (b : Band) (wl lun : Nat) : Bool :=
  !s.wlInCells b wl lun && s.map.media.any (fun m => lunOf m.addr == lun && s.blockOf m.addr == b.block && s.wlOf m.addr == wl)

/-- The unfold of R454: every folded unit whose wordline has not closed is taken out of its accumulator. -/
def State.unfold (s : State) (t : Stripe) : Stripe :=
  match s.band t.band with
  | some b => { t with units := t.units.filter (fun e => s.wlClosed b t.wl (lunOf e.1)) }
  | none => t

/-- A slot of an accumulator as it is dumped (R448): the mask of the members folded in, and the record accumulator. -/
def State.accSlot (s : State) (t : Stripe) (k : Nat) : Nat × Oob :=
  match s.band t.band with
  | some b =>
    let at_ := s.puaInWl 0 b.block t.wl k % 2 ^ 26
    let here := t.units.filter (fun e => e.1 % 2 ^ 26 == at_)
    (((List.range b.members.length).map (fun m => 2 ^ m * bit (here.any (fun e => some (lunOf e.1) == b.members[m]?)))).sum, xorAll (here.map (fun e => e.2)))
  | none => (0, {})

end Sys2Proof.Machine
end

