-- ==== Sys2Proof/Machine/BlotterOps.lean ====
section
/-! DEFINITION. The Blotter's operations (R442 to R450): commit groups, rows and their parity, the result of a Blotter
page's program, the release of units and the erase of slots; and the dump (R453). -/

namespace Sys2Proof.Machine

/-- The modes in which commit groups open (R462). -/
def State.groupsOpen (s : State) : Bool := s.mode == .run || s.mode == .degraded || s.mode == .trial

/-- Units of a Blotter page. -/
def State.pageUnits (s : State) : Nat := s.pageBytes / 4096

/-- Rows of a slot: its SLC pages (R444). -/
def State.slotRows (s : State) : Nat := s.geoWls * s.geoPlanes

/-- A set by its number. -/
def State.bltSet (s : State) (ix : Nat) : Option BltSet := s.blt.sets.find? (fun t => t.ix == ix)

/-- Changes one set. -/
def State.updSet (s : State) (ix : Nat) (f : BltSet → BltSet) : State :=
  { s with blt := { s.blt with sets := updWhere (fun t => t.ix == ix) f s.blt.sets } }

/-- Whether a set's active slot has a row to give: for the dump any erased row, otherwise only above the reserve of
R446 and while no ticket or age stops the slot (R449). -/
def State.setRoom (s : State) (t : BltSet) (dump : Bool) : Bool :=
  let nx := t.next.getD t.active 0
  if dump then nx < s.slotRows
  else nx + s.fld F.PWR_HU_BUDGET_RESV_ROWS < s.slotRows && !t.stop.getD t.active false

/-- A set that is down to its reserve switches to the other slot when that is erased; otherwise it is full, and
BLT_FULL is set (R446). -/
def State.switchSlots (s : State) : State :=
  s.blt.sets.foldl (fun (s : State) t =>
    if s.setRoom t false then s.updSet t.ix (fun t => { t with full := false })
    else if !t.dirty.getD (1 - t.active) false && !t.erasing.getD (1 - t.active) false then
      s.updSet t.ix (fun t => { t with active := 1 - t.active, full := false })
    else if t.full then s
    else (s.updSet t.ix (fun t => { t with full := true })).post F.PWR_HU_EVT_STATUS_BLT_FULL t.ix) s

/-- The rows that are open: their parity has not passed (R445). -/
def State.openRows (s : State) : List BltRow := s.blt.rows.filter (fun r => r.parity != 2)

/-- The parity LUN of a row: the member at its position, or the next one in set order whose block is not being
replaced (R442, R444). -/
def rowParityLun (luns : List Nat) (row : Nat) (skip : Nat → Bool) : Option Nat :=
  let n := luns.length
  ((List.range n).map (fun k => luns.getD ((row + k) % n) 0)).find? (fun l => !skip l)

/-- The owner of a row's accumulators (R445). -/
def rowOwner (dump : Bool) : Nat := if dump then 6 else 2

/-- The cells of a row's accumulators (R445): a page and 192 B. -/
def State.rowCells (s : State) : Nat := s.pageBytes / 512 + 1

/-- The request for a row's cells that waits. -/
def State.rowWait (s : State) (dump : Bool) : Option CellReq := s.ink.waiting.find? (fun r => r.what == .row dump)

/-- Opens a row in the lowest set that has one to give (R445); its accumulators take a page and 192 B of cells of owner
2, or of owner 6 for the dump. -/
def State.openRow (s : State) (dump : Bool) : Option State :=
  let o := rowOwner dump
  let n := s.rowCells
  if !dump && s.fld F.PWR_BLT_CFG_ROWS ≤ s.openRows.length then none
  else if !s.grantOk o n (((s.rowWait dump).map (fun r => r.order)).getD s.ink.nextOrder) then none
  else
    match s.blt.sets.find? (fun t => s.setRoom t dump && 3 ≤ t.luns.length && (dump || !t.full)) with
    | none => none
    | some t =>
      let row := t.next.getD t.active 0
      let skip (l : Nat) : Bool := s.blt.skip.contains (l, t.active) || !s.lunServes l
      match rowParityLun t.luns row skip with
      | none => none
      | some pl =>
        let luns := t.luns.filter (fun l => l != pl && !skip l)
        let (s1, head) := ((s.rowWait dump).elim s s.dropWait).alloc o o n
        let r : BltRow := { set := t.ix, slot := t.active, row, luns, plun := pl, pos := luns.map (fun _ => 0), dump
                            chain := some head }
        some ({ s1 with blt := { s1.blt with rows := s1.blt.rows ++ [r] } }.updSet t.ix (fun t =>
          { t with next := t.next.set t.active (row + 1), dirty := t.dirty.set t.active true }))

/-- Changes one row. -/
def State.updRow (s : State) (set slot row : Nat) (f : BltRow → BltRow) : State :=
  { s with blt := { s.blt with rows := updWhere (fun r => r.set == set && r.slot == slot && r.row == row) f s.blt.rows } }

/-- Changes one page. -/
def State.updPage (s : State) (g : Nat) (f : BltPage → BltPage) : State :=
  { s with blt := { s.blt with pages := updWhere (fun p => p.group == g) f s.blt.pages } }

/-- The free data positions of the open rows, each with the line on which the scheduler could place its program. -/
def State.freePositions (s : State) (cls : Nat) : List (BltRow × Nat × Nat) :=
  s.openRows.flatMap (fun r =>
    (List.range r.luns.length).filterMap (fun d =>
      let l := r.luns.getD d 0
      if r.pos.getD d 1 = 0 && s.lunServes l && !r.due then
        let k : Stroke := { mkStroke .program cls l true .temp with req := s.stk.nextReq }
        (s.lineFor k (s.profile 3)).map (fun x => (r, d, x))
      else none))

/-- The position that can be placed earliest (R447), the first of them on a tie. -/
def earliest : List (BltRow × Nat × Nat) → Option (BltRow × Nat × Nat)
  | [] => none
  | e :: es => match earliest es with | some f => if f.2.2 < e.2.2 then some f else some e | none => some e

/-- Opens a row, or lets its request for cells wait at its age (R214, R445). -/
def State.askRow (s : State) (dump : Bool) : State :=
  match s.openRow dump with
  | some t => t
  | none =>
    let room := dump || s.openRows.length < s.fld F.PWR_BLT_CFG_ROWS
    if room && (s.rowWait dump).isNone && !s.grantOk (rowOwner dump) s.rowCells s.ink.nextOrder then
      s.waitCells (rowOwner dump) (rowOwner dump) s.rowCells (.row dump)
    else s

/-- The 48-byte Blotter record of a unit of a page programmed in a band of temperature (R448), as a little-endian number. -/
def State.bltRecord (s : State) (p : BltPage) (pband : Nat) (u : BltUnit) : Nat :=
  let k := ((List.range 16).find? (fun k => partsMask u.parts &&& maskOf (8 * k) 8 != 0)).getD 0
  let part (m : Nat) : Nat := m / 2 ^ (8 * k) % 256
  let marked := u.parts.filter (fun q => q.poison || q.wunc)
  let md := (u.parts.flatMap (fun q => q.metas)).lookup (8 * k + 7)
  let timed := u.btype ≤ 1
  let spot := (u.lbas.headD (0, 0))
  let lba := match u.btype with
    | 0 => (u.iu * s.iuSectors + 8 * k) / ((s.ns u.nsid).map Ns.blkSectors).getD 8
    | 2 => u.iu % 2 ^ 16 + 2 ^ 16 * spot.1 + 2 ^ 18 * spot.2
    | 3 => u.iu % 2 ^ 16 + 2 ^ 16 * spot.1
    | _ => 0
  let flags := bit md.isSome + 2 * bit p.dump + 4 * bit u.done + 8 * bit (u.parts.any (fun q => q.wunc))
  let aux := if u.btype = 1 then u.op + 4 * (u.lbas.length - 1) else 0
  let fs : Fields := [(0, 8, if timed then u.ink / 256 else 0), (8, 1, if timed then u.ink % 256 else 0),
    (9, 1, u.cls % 4 + 4 * (pband % 8) + 32 * 5), (10, 2, u.unc), (12, 4, if u.btype ≤ 3 then u.nsid else 0), (16, 8, lba), (24, 4, p.group),
    (28, 1, u.btype), (29, 1, if u.btype = 0 then part (partsMask u.parts) else 0), (30, 1, part (partsMask marked)), (31, 1, flags),
    (32, 8, md.getD 0), (40, 4, aux)]
  (fs.map (fun f => f.2.2 % 256 ^ f.2.1 * 256 ^ f.1)).sum

/-- The records of a page, unit by unit; what was not filled is a pad (R447, R448). -/
def State.pageRecords (s : State) (p : BltPage) (pband : Nat) : List Nat :=
  (p.units ++ List.replicate (s.pageUnits - p.units.length) ({ btype := 5 } : BltUnit)).map (s.bltRecord p pband)

/-- Folds a page's records into its row's record accumulator (R445, R448). -/
def foldRecs (a b : List Nat) : List Nat := (List.range (max a.length b.length)).map (fun i => a.getD i 0 ^^^ b.getD i 0)

/-- Gives a closed page its data position and its program (R447): class 2, or class 0 for the dump. -/
def State.placePage (s : State) (p : BltPage) : State :=
  let cls := if p.dump then 0 else 2
  let s1 := if (s.freePositions cls).isEmpty then s.askRow p.dump else s
  match earliest (s1.freePositions cls) with
  | none => s1
  | some (r, d, _) =>
    let s2 := s1.updRow r.set r.slot r.row (fun r => { r with pos := r.pos.set d 1 })
    let s3 := s2.updPage p.group (fun p => { p with
      phase := .programming, row := some (r.set, r.slot, r.row), pos := d, recs := s.pageRecords p (s.lun (r.luns.getD d 0)).rband })
    s3.newStroke { mkStroke .program cls (r.luns.getD d 0) true (.blotter p.group) with row := r.row, len := s.pageBytes / 512 }

/-- Places every closed page that a row has room for, in group order (R464); of a dump nothing is placed while something before it is not
(R453). -/
def State.placePages (s : State) : State :=
  if s.blt.dumpStop then s
  else
    let waits (s : State) (g : Nat) : Bool := s.blt.pages.any (fun p => p.group == g && p.phase == .closed)
    ((s.blt.pages.filter (fun p => p.phase == .closed)).foldl (fun (acc : State × Bool) p =>
      if acc.2 && p.dump then acc
      else let t := acc.1.placePage p; (t, acc.2 || (p.dump && waits t p.group))) (s, false)).1

/-- Opens the group that a unit joins, or joins an open one; without either the unit waits (R447, R464). A page that is
full closes. -/
def State.joinGroup (s : State) (u : BltUnit) : State :=
  let per := s.pageUnits
  let close (g : Nat) (s : State) : State :=
    s.updPage g (fun p => if per ≤ p.units.length then { p with phase := .closed } else p)
  match s.blt.pages.find? (fun p => p.phase == .open && p.units.length < per) with
  | some p => close p.group (s.updPage p.group (fun p => { p with units := p.units ++ [u] }))
  | none =>
    let open_ := (s.blt.pages.filter (fun p => p.phase == .open)).length
    if s.groupsOpen && open_ < s.fld F.PWR_BLT_CFG_OPEN && s.blt.sets.any (fun t => !t.full) then
      let g := s.blt.nextGroup
      close g { s with blt := { s.blt with
        nextGroup := g + 1
        pages := s.blt.pages ++ [{ group := g, units := [u], openedAt := s.nowAt islStroke }] } }
    else { s with blt := { s.blt with waitUnits := s.blt.waitUnits ++ [u] } }

/-- Lets the waiting units try again and places the closed pages. -/
def State.pumpBlotter (s : State) : State :=
  let w := s.blt.waitUnits
  (w.foldl State.joinGroup ({ s with blt := { s.blt with waitUnits := [] } }).switchSlots).placePages

/-- The Blotter units of a record whose data is verified (R447): one for each 4 KiB range that it covers outside its
bypass part. -/
def State.recUnits (s : State) (r : InFlight) (skipMask : Nat) : List BltUnit :=
  (List.range s.iuUnits).filterMap (fun k =>
    let m := maskOf (8 * k) 8
    let ps := keepParts (m - (m &&& skipMask)) r.parts
    if ps.isEmpty then none
    else some { btype := 0, idx := some r.idx, nsid := r.nsid, iu := r.iu, ink := r.ink, cls := r.cls, unc := r.unc, parts := ps, done := r.done })

/-- Logs the map changes that have been stamped and have no record in the Blotter yet (R173, R448). -/
def State.logChanges (s : State) : State :=
  let logged (ink : Nat) : Bool :=
    s.blt.waitUnits.any (fun u => u.btype == 1 && u.ink == ink)
      || s.blt.pages.any (fun p => p.units.any (fun u => u.btype == 1 && u.ink == ink))
  (s.qe.cmds.filter (fun c => c.wet && !logged (c.ink.getD 0))).foldl (fun (s : State) c =>
    s.joinGroup { btype := 1, nsid := c.nsid, ink := c.ink.getD 0, lbas := c.blocks
                  op := match c.kind with | .deallocate => 0 | .writeZeroes => 1 | _ => 2 }) s

/-- The Ordering Point with the map-change records of what it stamped (R164, R173). -/
def State.orderingPoint (s : State) : State := s.stampAll.logChanges.pumpBlotter

/-- Retires a Blotter block (R442, R445): the highest free block of the LUN replaces it from the slot's next erase. -/
def State.retireBlt (s : State) (lun slot : Nat) : State :=
  let old := s.blt.blocks.filter (fun b => b.1 == lun && b.2.1 == slot)
  let used (k : Nat) : Bool := s.map.badBlocks.contains (lun, k) || s.map.factoryBad.contains (lun, k)
    || s.blt.blocks.any (fun b => b.1 == lun && b.2.2 == k)
    || s.map.bands.any (fun b => b.block == k && b.members.contains lun && b.state != .free)
  let cand := (List.range s.geoBlocks).reverse.find? (fun k => !used k)
  let s1 : State := { s with
    map := { s.map with badBlocks := (old.map (fun b => (lun, b.2.2))) ++ s.map.badBlocks }
    blt := { s.blt with
      skip := (lun, slot) :: s.blt.skip
      blocks := s.blt.blocks.filter (fun b => !(b.1 == lun && b.2.1 == slot)) ++ (cand.map (fun k => (lun, slot, k))).toList } }
  s1.post F.PWR_HU_EVT_STATUS_BLT_RETIRE lun

/-- A row whose every data position has passed or been abandoned gets its parity page (R445). -/
def State.closeRows (s : State) (all : Bool) : State :=
  (s.blt.rows.filter (fun r => r.parity == 0 && !r.due && r.pos.all (fun p => p ≥ 2 || (all && p == 0)))).foldl
    (fun (s : State) r =>
      (s.updRow r.set r.slot r.row (fun r => { r with due := true, parity := 1 })).newStroke
        { mkStroke .program (if r.dump || s.mode == .holdUp then 0 else 2) r.plun true (.rowParity r.set r.slot r.row) with
          row := r.row, len := s.pageBytes / 512, chain := r.chain }) s

/-- A passed unit makes its sectors, or its map change, dry (R24, R173). -/
def State.dryUnit (s : State) (u : BltUnit) : State :=
  match u.btype, u.idx with
  | 0, some i => s.markDry i (partsMask u.parts)
  | 1, _ => { s with qe := { s.qe with cmds := updWhere (fun c => c.ink == some u.ink && c.wet) (fun c => { c with wet := false }) s.qe.cmds } }
  | _, _ => s

/-- The result of a Blotter page's program (R445). `launched` tells a stroke that reached the bus from one that did
not. -/
def State.blotterResult (s : State) (g status : Nat) (launched : Bool) : State :=
  match s.blt.pages.find? (fun p => p.group == g && p.phase == .programming) with
  | none => s
  | some p =>
    let (st, sl, rw) := p.row.getD (0, 0, 0)
    let lun := ((s.blt.rows.find? (fun r => r.set == st && r.slot == sl && r.row == rw)).map (fun r => r.luns.getD p.pos 0)).getD 0
    let again (v : Nat) (s : State) : State :=
      ((s.updRow st sl rw (fun r => { r with pos := r.pos.set p.pos v })).updPage g (fun p => { p with phase := .closed, row := none }))
    if status = 0 then
      let s1 := (s.updRow st sl rw (fun r => { r with pos := r.pos.set p.pos 2, recs := foldRecs r.recs p.recs })).updPage g (fun p =>
        { p with phase := .passed, openedAt := s.nowAt islStroke })
      (p.units.foldl State.dryUnit s1).closeRows false
    else if status = 2 then ((again 3 s).retireBlt lun sl).closeRows false
    else if status = 0x0D || status = 0x0E || !launched then again 0 s
    else (again 3 s).closeRows false

/-- The result of a row's parity program: the row closes and its accumulators' cells are freed; a parity page that did
not pass is programmed again where it was left erased, and otherwise the row closes without it. -/
def State.rowParityResult (s : State) (set slot row status : Nat) (launched : Bool) : State :=
  match s.blt.rows.find? (fun r => r.set == set && r.slot == slot && r.row == row) with
  | none => s
  | some r =>
    let close (s : State) : State :=
      let s1 := s.updRow set slot row (fun r => { r with parity := 2, chain := none })
      match r.chain with | some h => s1.releaseAll h (if r.dump then 6 else 2) | none => s1
    if status = 0 then close s
    else if status = 2 then close (s.retireBlt r.plun slot)
    else if status = 0x0D || status = 0x0E || !launched then
      (s.updRow set slot row (fun r => { r with parity := 0, due := false })).closeRows (s.blt.dumping != 0)
    else close s

/-- Releases the units of every page that a test picks (R449). -/
def State.releaseUnits (s : State) (f : BltUnit → Bool) : State :=
  let one (p : BltPage) : BltPage := { p with units := updWhere f (fun u => { u with released := true }) p.units }
  { s with blt := { s.blt with pages := s.blt.pages.map one } }

/-- Whether a unit may count as released (R449): pads and map deltas at once. -/
def BltUnit.free (u : BltUnit) : Bool := u.released || u.btype ≥ 4

/-- BLOTTER_SLOT_ERASE (R449): a slot whose units are all released is erased by class 4 strokes while the set's other
slot is active. -/
def State.eraseSlots (s : State) : State :=
  s.blt.sets.foldl (fun (s : State) t =>
    let k := 1 - t.active
    let units := s.blt.pages.filter (fun p => match p.row with | some (a, b, _) => a == t.ix && b == k | none => false)
    let rowsOpen := s.blt.rows.any (fun r => r.set == t.ix && r.slot == k && r.parity != 2)
    if t.dirty.getD k false && !t.erasing.getD k false && !rowsOpen && units.all (fun p => p.phase == .passed && p.units.all BltUnit.free) then
      (t.luns.filter s.lunServes).foldl (fun (s : State) l =>
        s.newStroke { mkStroke .erase 4 l true (.eraseSlot t.ix k) with row := 0 })
        (s.updSet t.ix (fun t => { t with erasing := t.erasing.set k true }))
    else s) s

/-- The result of one block's erase of a slot: the counter counts (R271), a failed block is retired, one whose erase
was not made is erased again, and the slot is erased when its last block is. -/
def State.eraseSlotResult (s : State) (set slot lun status : Nat) : State :=
  let blk := ((s.blt.blocks.find? (fun b => b.1 == lun && b.2.1 == slot)).map (fun b => b.2.2)).getD 0
  let s1 : State := if status = 0 then
      { s with map := { s.map with
        erases := ((lun, blk), min 0x0FFFFFFF (s.eraseCount lun blk + 1)) :: s.map.erases.filter (fun e => e.1 != (lun, blk))
        nErases := s.map.nErases + 1 } }
    else if status = 3 then s.retireBlt lun slot
    else if status = 8 then s
    else s.newStroke { mkStroke .erase 4 lun true (.eraseSlot set slot) with row := 0 }
  if s1.stk.strokes.any (fun k => k.purpose == .eraseSlot set slot) then s1
  else
    let s2 : State := { s1 with blt := { s1.blt with
      skip := s1.blt.skip.filter (fun e => !(e.2 == slot && ((s1.bltSet set).map (fun t => t.luns.contains e.1)).getD false))
      pages := s1.blt.pages.filter (fun p => match p.row with | some (a, b, _) => !(a == set && b == slot) | none => true)
      rows := s1.blt.rows.filter (fun r => !(r.set == set && r.slot == slot)) } }
    (s2.updSet set (fun t => { t with
      erasing := t.erasing.set slot false, dirty := t.dirty.set slot false, stop := t.stop.set slot false
      next := t.next.set slot 0 })).pumpBlotter

/-! ## The dump (R452 to R454) -/

/-- Bytes of the map delta (R291, R443): 64 for each changed band and 8 for each changed counter since the newest
completed checkpoint. -/
def State.deltaBytes (s : State) : Nat :=
  let old := s.ckpt.newest.getD {}
  let same (b : Band) : Bool := old.bands.any (fun o => o.ix == b.ix && o.state == b.state && o.valid == b.valid && o.bos == b.bos
    && o.members == b.members && o.wl == b.wl)
  64 * (s.map.bands.filter (fun b => !same b)).length + 8 * (s.map.erases.filter (fun e => !old.erases.contains e)).length

/-- Cuts units into pages of `per`. -/
def chunks {α : Type} (per : Nat) : Nat → List α → List (List α)
  | 0, _ => []
  | fuel + 1, l => if l.isEmpty then [] else l.take per :: chunks per fuel (l.drop per)

/-- The partial parity of a stripe set (R453): for each accumulator 16 BTYPE 2 units and one BTYPE 3 unit, each naming its page and, in
BTYPE 2, its unit. -/
def State.partialParity (s : State) (t : Stripe) : List BltUnit :=
  let bos := ((s.band t.band).map (fun b => b.bos)).getD 0
  let per := max 1 (t.acc / 3)
  let slots := s.geoPlanes * s.geoUnits
  (List.range t.acc).flatMap (fun a =>
    let own := (List.range 16).filter (fun j => decide (a % per * 16 + j < slots))
    (List.range 16).map (fun j => ({ btype := 2, nsid := bos, iu := t.wl, lbas := [(a / per, j)] } : BltUnit)) ++
      [{ btype := 3, nsid := bos, iu := t.wl, lbas := [(a / per, a % per)]
         acc := own.map (fun j => s.accSlot t (a / per * slots + a % per * 16 + j)) }])

/-- Starts the dump (R453), `why` 1 in HOLD-UP or 2 on SAFE entry: writes whose fetch is incomplete commit nothing, and neither do
fused ones whose compare has not ended; the
wet units, completed writes first, then the partial parity of every open stripe, then the map delta, go into pages of
their own in that order. Log entry 82 (DESIGN CHOICE). -/
def State.startDump (s : State) (why : Nat) : State :=
  let cut := s.qe.cmds.filter (fun c => c.ink.isSome && (c.gate.isSome || c.segs.any (fun g => !g.fetched)))
  let s0 := (cut.flatMap (fun c => c.records)).foldl State.abortRec s
  let wet (d : Bool) : List BltUnit :=
    (s0.map.inflight.filter (fun r => !r.dry && r.done == d)).flatMap (fun r => s0.recUnits r r.dryMask)
  let held := s0.blt.pages.filter (fun p => p.phase != .passed)
  let changes := (held.flatMap (fun p => p.units) ++ s0.blt.waitUnits).filter (fun u => u.btype == 1)
  let parity := s0.map.stripes.flatMap (fun t => s0.partialParity (s0.unfold t))
  let delta := (List.range (ceilDiv s0.deltaBytes 4096)).map (fun k => ({ btype := 4, iu := k } : BltUnit))
  let all := wet true ++ wet false ++ changes ++ parity ++ delta
  let per := max 1 s0.pageUnits
  let g0 := s0.blt.nextGroup
  let news := ((chunks per (all.length + 1) all).zipIdx).map (fun e =>
    ({ group := g0 + e.2, units := e.1, openedAt := s0.nowAt islStroke, phase := .closed, dump := true } : BltPage))
  let s1 : State := { s0 with blt := { s0.blt with
    pages := s0.blt.pages.filter (fun p => p.phase == .passed || p.phase == .programming) ++ news
    waitUnits := []
    nextGroup := g0 + news.length
    dumping := why, dumpStop := false, dumpAt := s.now
    dumpFirst := if news.isEmpty then 0 else g0
    dumpLast := if news.isEmpty then 0 else g0 + news.length - 1
    delta := some (g0 + news.length, s0.map.bands, s0.map.erases) } }
  s1.placePages

end Sys2Proof.Machine
end

