-- ==== Sys2Proof/Machine/EnergyStore.lean ====
section
/-! DEFINITION. The energy store (R433 to R441): the store voltage, the measured capacitance, the hold-up self-test, the
hold-up time budget and the wet budgets that follow from it. -/

namespace Sys2Proof.Machine

/-- The store voltage of an ADC code, in 10 mV units (R434). -/
def State.storeV (s : State) (code : Nat) : Nat := code * 180 * s.fld F.PWR_ES_CFG_DIV / 4096

/-- TB in ns (R437): EFF × ½ × C × (V² − VMIN²) ÷ PHU, V limited to VF. -/
def State.tbNs (s : State) (v : Nat) : Nat :=
  let vf := s.fld F.PWR_ES_MEAS_VFULL
  let v := min v vf
  let vm := 25 * s.fld F.PWR_ES_CFG_VMIN
  s.fld F.PWR_ES_CFG2_EFF * s.fld F.PWR_ES_MEAS_C_UF * (v * v - vm * vm) / (2000 * max 1 (s.fld F.PWR_ES_CFG2_PHU))

/-- P, every Ligature accumulator open, and M, the largest map delta, in bytes (R438). -/
def flushP : Nat := 8912896
def flushM : Nat := 1048576

/-- The part of the flush estimate that no wet byte enters, in ns (R438). -/
def State.flushFixed (s : State) : Nat :=
  (s.fld F.PWR_HU_CFG_DEGLITCH + 1) * 250 + s.fld F.PWR_HU_CFG_Q * 1000
    + ceilDiv (flushP + flushM) (max 1 (s.fld F.PWR_HU_CFG_RATE)) + 2 * segsMax (s.profile 3) + s.fld F.PWR_HU_CFG_G * 4000

/-- The flush estimate for wet bytes W, in ns (R438). -/
def State.flushNs (s : State) (w : Nat) : Nat :=
  s.flushFixed + max (ceilDiv w (max 1 (s.fld F.PWR_HU_CFG_RATE))) (ceilDiv (s.poolCells * 512) 512)

/-- A (R439): the largest W, in whole MiB, whose flush fits in 0.6 × TB, if any W fits. -/
def State.flushA (s : State) (v : Nat) : Option Nat :=
  let lim := s.tbNs v * 6 / 10
  if lim < s.flushNs 0 then none
  else some ((lim - s.flushFixed) * s.fld F.PWR_HU_CFG_RATE / 1048576)

/-- The bytes that the dump reserve of R446 holds. -/
def State.reserveBytes (s : State) : Nat :=
  (s.blt.sets.map (fun t => s.fld F.PWR_HU_BUDGET_RESV_ROWS * (t.luns.length - 1) * s.pageBytes)).sum

/-- The two budgets in MiB at a store voltage (R439, R440): D_DUR and D_PROT. -/
def State.budgets (s : State) (v : Nat) (healthy : Bool) : Nat × Nat :=
  match s.flushA v with
  | none => (1, 0)
  | some a =>
    let dur0 := max 1 (min (s.fld F.PWR_HU_BUDGET_DUR_MIB) a)
    let prot0 := min (s.fld F.PWR_HU_BUDGET_PROT_MAX) (a - dur0)
    let room := (s.reserveBytes - (flushP + flushM)) / 1048576
    let prot := min prot0 (room - dur0)
    let dur := if dur0 ≤ room then dur0 else max 1 room
    if !healthy && s.blt.tested then (1, prot) else if s.fld F.PWR_ES_MEAS_C_UF = 0 then (1, 0) else (dur, prot)

/-- Whether the store is healthy (R440): the last self-test of this BOOT passed and some W fits. -/
def State.storeHealthy (s : State) : Bool :=
  s.blt.tested && s.flag F.PWR_ES_MEAS_TEST_PASS && (s.flushA (s.fld F.PWR_ES_NOW_VNOW)).isSome

/-- Whether some namespace is set to Protected (R167). -/
def State.anyProtected (s : State) : Bool := s.qe.feats.any (fun f => f.fid == 0xC0 && f.cur % 2 == 1)

/-- What a fall back from Protected dries (R172): the bypass parts of the data already completed wet go to the Blotter too, ahead of the units that wait; its pages are class 2 programs (R447). -/
def State.dryCompleted (s : State) : State :=
  let wet := s.map.inflight.filter (fun r => r.done && !r.dry && r.bypass != 0)
  let units := wet.flatMap (fun r => s.recUnits { r with parts := keepParts r.bypass r.parts } r.dryMask)
  let s1 : State := { s with
    map := { s.map with inflight := updWhere (fun r => r.done && !r.dry) (fun r => { r with bypass := 0 }) s.map.inflight }
    blt := { s.blt with waitUnits := units ++ s.blt.waitUnits } }
  s1.pumpBlotter

/-- The 1 ms recomputation (R172, R439, R440): the budgets, HEALTHY, ES_FAIL and ES_LOW; where Protected can no longer be kept, what
it completed wet is dried. -/
def State.recompute (s : State) : State :=
  let v := s.fld F.PWR_ES_NOW_VNOW
  let h := s.storeHealthy
  let (dur, prot) := s.budgets v h
  let was := s.flag F.PWR_ES_MEAS_HEALTHY && s.fld F.PWR_HU_EFF_PROT != 0
  let s1 := ((((s.setFld F.PWR_ES_MEAS_HEALTHY (bit h)).setFld F.PWR_HU_EFF_DUR dur).setFld F.PWR_HU_EFF_PROT prot).setFld
    F.PWR_HU_EFF_TB_US (min 0xFFFF (s.tbNs v / 1000)))
  let s2 := { s1 with blt := { s1.blt with recompute := s1.blt.recompute + 1 } }
  let s2 := if was && (!h || prot = 0) then s2.dryCompleted else s2
  if !s2.blt.tested then s2
  else
    let s3 := if !h && !s.flag F.PWR_HU_EVT_STATUS_ES_FAIL then s2.post F.PWR_HU_EVT_STATUS_ES_FAIL noUnit else s2
    if s3.anyProtected && (!h || prot = 0) && !s.flag F.PWR_HU_EVT_STATUS_ES_LOW then
      s3.post F.PWR_HU_EVT_STATUS_ES_LOW noUnit
    else s3

/-- The modes in which the store is monitored (R462); in DOZE at each duty-cycle wake. -/
def State.monitors (s : State) : Bool := s.mode != .off && s.mode != .holdUp

/-- The time of the charge curve's rise from 0.85 × VF to 0.95 × VF in 1/256 ns (R435), from samples newest first. -/
def riseTime (rise : List (Nat × Nat)) (vf : Nat) : Option Nat :=
  let up := rise.reverse
  match up.find? (fun e => vf * 85 ≤ e.1 * 100), up.find? (fun e => vf * 95 ≤ e.1 * 100) with
  | some a, some b => if up.head?.map (fun e => decide (e.1 * 100 < vf * 85)) = some true then some (b.2 - a.2) else none
  | _, _ => none

/-- Takes a measurement of C (R435) when the charge curve passed both marks. -/
def State.measureC (s : State) (vf : Nat) : State :=
  match riseTime s.blt.rise vf with
  | some t => s.setFld F.PWR_ES_MEAS_C_UF (min 0xFFFF (s.fld F.PWR_ES_CFG_ICHG * t / (256000 * max 1 vf)))
  | none => s

/-- SELF_TEST_RESULT (R436): the test ends with its outcome. -/
def State.testResult (s : State) (pass : Bool) : State :=
  let s1 := ({ s with blt := { s.blt with bleed := false, test := .idle, tested := true } }).setFld
    F.PWR_ES_MEAS_TEST_PASS (bit pass)
  (if pass then s1 else s1.post F.PWR_HU_EVT_STATUS_TEST_FAIL noUnit).recompute

/-- A sample taken: the voltage, the charge, the charge curve, and VF with C once the voltage is steady (R434, R435). -/
def State.sampled (s : State) (code : Nat) : State :=
  let v := min 4095 (s.storeV code)
  let now := s.now
  let vf := s.fld F.PWR_ES_MEAS_VFULL
  let s1 := (s.setFld F.PWR_ES_NOW_VNOW v).setFld F.PWR_ES_NOW_CHARGE (if vf = 0 then 0 else min v vf * min v vf * 100 / (vf * vf))
  let b := s1.blt
  let moved := v != b.vRef
  let top := (b.rise.headD (0, 0)).1
  let rise := if b.bleed then [] else if top < v || b.rise.isEmpty then (v, now) :: b.rise else b.rise
  let s2 : State := { s1 with blt := { b with
    vRef := if moved then v else b.vRef
    vRefAt := if moved then now else b.vRefAt
    rise := rise } }
  let steady := !moved && !b.bleed && b.test = .idle && 100 * msT ≤ now - b.vRefAt && vf != v
  if steady then ((s2.setFld F.PWR_ES_MEAS_VFULL v).measureC v).recompute else s2

/-- VSTORE_SAMPLE (R434 to R436): the voltage, VF once it is steady, the charge curve and the self-test's progress. -/
def execVstoreSample (code : Nat) (s : State) : Res :=
  if s.mode = .off then .next s
  else
    let v := min 4095 (s.storeV code)
    let now := s.now
    let s3 := s.sampled code
    let vf := s3.fld F.PWR_ES_MEAS_VFULL
    match s3.blt.test with
    | .idle => .next s3
    | .waiting =>
      let (dur, prot) := s3.budgets (vf * 85 / 100) true
      if s3.wetBytes ≤ (dur + prot) * 1048576 then
        .next { s3 with blt := { s3.blt with bleed := true, test := .bleeding, testAt := now } }
      else .next s3
    | .bleeding =>
      if 2 * secT < now - s3.blt.testAt then .next (s3.testResult false)
      else if v * 100 < vf * 85 then
        .next { s3 with blt := { s3.blt with bleed := false, test := .recharging, testAt := now, rise := [(v, now)] } }
      else .next s3
    | .recharging =>
      if 2 * secT < now - s3.blt.testAt then .next (s3.testResult false)
      else if vf * 95 ≤ v * 100 then
        let s4 := s3.measureC vf
        .next (s4.testResult (10 * s4.fld F.PWR_ES_CFG2_CMIN ≤ s4.fld F.PWR_ES_MEAS_C_UF))
      else .next s3

/-- Whether the self-test is due (R436): the test of this BOOT, and then every TEST_H hours; with TEST_H 0 only the first. -/
def State.testDue (s : State) : Bool :=
  let h := s.fld F.PWR_ES_CFG2_TEST_H
  match s.blt.lastTest with
  | none => true
  | some t => h != 0 && t + h * 3600 * secT ≤ s.now

/-- HOLDUP_SELF_TEST (R436): the test falls due; it starts by waiting until the wet data fits the budgets at 0.85 × VF.
In OFF and HOLD-UP nothing runs (R462). -/
def execHoldupSelfTest (s : State) : Res :=
  if s.monitors && s.blt.test = .idle && s.testDue then .next { s with blt := { s.blt with test := .waiting, testAt := s.now, lastTest := some s.now } }
  else .next s

/-- BUDGET_RECOMPUTE (R439, R440). -/
def execBudgetRecompute (s : State) : Res := if s.monitors then .next s.recompute else .next s

end Sys2Proof.Machine
end

