-- ==== Sys2Proof/Machine/CmdOps.lean ====
section
/-! DEFINITION. How I/O commands end with an error (R100, R165, R166, R193, R204): what they hold goes, and their completion leaves. -/

namespace Sys2Proof.Machine

/-- A command in execution. -/
def State.cmd (s : State) (ref : Ref) : Option Cmd := s.qe.cmds.find? (fun c => c.ref == ref)

/-- Changes one command. -/
def State.updCmd (s : State) (ref : Ref) (f : Cmd → Cmd) : State :=
  { s with qe := { s.qe with cmds := updWhere (fun c => c.ref == ref) f s.qe.cmds } }

/-- Whether a namespace runs as Protected now (R167, R172). -/
def State.protectedNow (s : State) (nsid : Nat) : Bool :=
  s.feat 0xC0 nsid 0 % 2 == 1 && s.flag F.PWR_ES_MEAS_HEALTHY && s.fld F.PWR_HU_EFF_PROT != 0

/-- Removes a command with everything it waits for, its cells and its admission (R147, R165, R201). -/
def State.dropCmd (s : State) (ref : Ref) : State :=
  match s.cmd ref with
  | none => s
  | some c =>
    let s1 : State := { s with
      qe := { s.qe with cmds := s.qe.cmds.filter (fun x => x.ref != ref) }
      ink := { s.ink with waiting := s.ink.waiting.filter (fun w =>
        match w.what with | .hostWrite r _ | .hostRead r _ | .twin r _ | .copy r _ => r != ref | _ => true) }
      stk := { s.stk with admitted := s.stk.admitted.filter (fun a => a.ref != ref) }
      map := { s.map with fetches := s.map.fetches.map (fun f => { f with users := f.users.filter (fun u =>
        match u with | .host r _ => r != ref | _ => true) }) } }
    let rd := c.kind = .read || c.kind = .compare
    let s2 := c.holds.foldl (fun (s : State) h => s.release h 1)
      (s1.stopReads (fun w => match w with | .data r _ => r == ref | _ => false))
    c.segs.foldl (fun (s : State) g =>
      let s3 := match g.chain with | some h => if rd then s.releaseAll h 1 else s | none => s
      match g.twin with | some h => (s3.releaseAll h 0).releaseAll h 2 | none => s3) s2

/-- Whether a controller's completions still leave (R201, R204). -/
def State.posts (s : State) (ref : Ref) : Bool :=
  s.mode != .holdUp && s.mode != .off && s.qe.ctrls.any (fun c => some c.id == ctrlOf ref && c.en)

/-- Notes a read whose completion entry is still to leave (R29). -/
def State.owe (s : State) (c : Cmd) : State :=
  { s with qe := { s.qe with owing := { ref := c.ref, latch := c.latch, deadline := c.deadline, timed := c.kind == .read } :: s.qe.owing } }

/-- A read's completion entry has left, unless it waits in its queue (R21, R29, R30, R100, R190): the Host Port's copy ends its deadline and its
latency; a missed deadline is counted and reported. -/
def State.readLeft (s : State) (ref : Ref) : State :=
  match s.qe.owing.find? (fun o => o.ref == ref) with
  | none => s
  | some o =>
    if s.qe.full.any (fun h => h.ref == ref) then s
    else
      let s1 : State := { s with qe := { s.qe with owing := s.qe.owing.filter (fun o => o.ref != ref) } }
      if !s.posts ref then s1
      else
        let now := s.nowAt islHost
        let s2 : State := if o.timed then { s1 with stk := { s1.stk with rdLat := (now - o.latch) / 256 :: s1.stk.rdLat } } else s1
        if o.deadline.any (fun t => decide (t * 256 < now)) then
          ({ s2 with stk := { s2.stk with nMissed := s2.stk.nMissed + 1 } }).post F.STK_EVT_STATUS_DEADLINE_MISS noUnit
        else s2

/-- Ends the fused compare of a write that ends before its stamp (R166). Log entry 86 (PRESUMED). -/
def State.endCompare (s : State) (gate : Option Ref) : State :=
  match gate.bind (fun r => s.qe.cmds.find? (fun c => c.ref == r && c.parked)) with
  | none => s
  | some c => (((s.dropCmd c.ref).owe c).complete c.ref .failedFused 0).readLeft c.ref

/-- DW0 of a write's completion (R25, R193). -/
def State.inkDw0 (s : State) (ref : Ref) (ink : Nat) : Nat :=
  match ref with
  | .host ctrl _ _ => if s.feat 0xC7 ctrl 0 % 2 = 1 then ink / 256 % 2 ^ 32 else 0
  | .side => 0

/-- Ends a write with an error: it commits nothing (R165). -/
def State.failWrite (s : State) (ref : Ref) (st : Status) : State :=
  match s.cmd ref with
  | none => s
  | some c =>
    let s1 := c.records.foldl State.abortRec s
    let s2 := c.segs.foldl (fun (s : State) g => match g.chain with
      | some h => ((s.releaseAll h 0).releaseAll h 2).releaseAll h 3
      | none => s) s1
    ((s2.dropCmd ref).complete ref st ((c.ink.map (s2.inkDw0 ref)).getD 0)).endCompare c.gate

/-- Ends a read or a compare with an error; a write fused to the compare ends with it (R166). -/
def State.failRead (s : State) (ref : Ref) (st : Status) : State :=
  match s.cmd ref with
  | none => s
  | some c =>
    let s1 := (((s.dropCmd ref).owe c).complete ref st 0).readLeft ref
    match s1.qe.cmds.find? (fun x => x.gate == some ref) with
    | some w => s1.failWrite w.ref .failedFused
    | none => s1

/-- Whether the records of a command are all dry or gone (R169). -/
def State.recsDry (s : State) (c : Cmd) : Bool :=
  !s.map.inflight.any (fun r => some r.ink == c.ink && !r.dry)

/-- Whether a stamped command goes on in SAFE (R165, R169, R170, R204): its data has been fetched whole and its compare has ended, and under
read-only media it waits for no data to be made dry. Log entry 97 (DEDUCED). -/
def State.outlivesSafe (s : State) (c : Cmd) (halted : Bool) : Bool :=
  c.ink.isSome && c.gate.isNone && c.segs.all (fun g => g.fetched) &&
    (halted || c.kind != .write || s.recsDry c || (s.protectedNow c.nsid && !c.fua))

/-- What an entry to SAFE ends of the outstanding I/O (R204): with media halted everything, with Namespace Not Ready; with media read-only what
changes blocks, with Namespace Is Write Protected. Stamped commands that can still complete go on. Log entry 97 (DEDUCED). -/
def State.endIo (s : State) (halted : Bool) : State :=
  s.qe.cmds.foldl (fun (s : State) c =>
    match s.cmd c.ref with
    | none => s
    | some c =>
      if c.kind.stamps then
        (if s.outlivesSafe c halted then s else s.failWrite c.ref (if halted then .namespaceNotReady else .writeProtected))
      else if !halted then s
      else if c.kind = .flush then (s.dropCmd c.ref).complete c.ref .namespaceNotReady 0
      else s.failRead c.ref .namespaceNotReady) s

end Sys2Proof.Machine
end

