-- ==== Sys2Proof/Machine/SafeOps.lean ====
section
/-! DEFINITION. The entry to SAFE (R11 to R13, R202, R204, R508). -/

namespace Sys2Proof.Machine

/-- Sets CSTS.SHST of a controller to complete. -/
def State.shutDone (s : State) (id : Nat) : State :=
  { s with qe := { s.qe with ctrls := updWhere (fun c => c.id == id) (fun c => { c with shst := 2 }) s.qe.ctrls } }

/-- The 144 bytes of a shutdown record but for SELF (R456). -/
def ShutRec.fields (r : ShutRec) : Fields :=
  [(0, 8, r.bootSeq)] ++ stampAt 8 r.stamp ++ [(20, 1, r.kind), (24, 8, r.ckSeq), (32, 48, r.rootDigest), (80, 4, r.firstGroup), (84, 4, r.lastGroup),
   (88, 4, r.lostWet), (92, 4, r.huUs)]

/-- The 784 bytes of a root record (R295). TABLE_DIGEST covers units whose contents the model does not hold as bytes. Log entry 90 (DESIGN CHOICE). -/
def Root.fields (r : Root) : Fields :=
  let im := r.image
  let table := im.units.take 128
  [(0, 8, im.seq)] ++ stampAt 8 im.start ++ [(20, 8, im.floor / 256), (28, 1, im.floor % 256), (29, 1, im.iu), (30, 2, table.length), (32, 8, r.hwm),
   (40, 4, im.bosNext)] ++ table.mapIdx (fun i a => (48 + 5 * i, 5, a)) ++ [(688, 48, Config.contentSha 5 (im.seq :: table))]

/-- ROOT_DIGEST (R456): SHA-384 over a root record's 784 bytes, SELF among them (R295). -/
def Root.digest (r : Root) : Nat :=
  Config.sha384 (fieldBytes 784 (r.fields ++ [(736, 48, Config.sha384 (fieldBytes 736 r.fields))]))

/-- SHUTDOWN_RECORD_WRITE (R456, R62): the record closes this boot with the root record in force. -/
def State.shutRecord (s : State) (kind : Nat) : State :=
  let root := match s.ckpt.rootB, s.ckpt.rootA with | some b, _ => some b | none, a => a
  let hu := if kind = 2 || kind = 3 then min (2 ^ 32 - 1) ((s.now - s.blt.holdAt) / usT) else 0
  let r : ShutRec := {
    bootSeq := s.fol.bootSeq, stamp := s.stamp, kind
    ckSeq := (root.map (fun r => r.image.seq)).getD 0
    rootDigest := (root.map Root.digest).getD 0
    firstGroup := s.blt.dumpFirst, lastGroup := s.blt.dumpLast, lostWet := s.blt.lostWet, huUs := hu }
  let r : ShutRec := { r with self := Config.sha384 (fieldBytes 96 r.fields) }
  { s with fol := { s.fol with shut := r, shutPrev := s.fol.shut }, mgmt := { s.mgmt with kind := kind } }

/-- Whether every write that a controller accepted is dry (R202); SAFE leaves what it does not allow to be made dry once its dump has ended. -/
def State.ctrlDry (s : State) (id : Nat) : Bool :=
  let mine (r : Ref) : Bool := match r with | .host c _ _ => c == id | .side => false
  if s.mode = .safe then s.blt.dumping != 2
  else !s.qe.cmds.any (fun c => mine c.ref && c.kind.stamps) && !s.map.inflight.any (fun r => mine r.ref && !r.dry)

/-- Whether a controller is the last one that is enabled and not shut down (R202). -/
def State.lastUp (s : State) (id : Nat) : Bool := s.qe.ctrls.all (fun o => o.id == id || !o.en || o.shst == 2)

/-- The shutdowns that run end in SAFE (R202, R318): the last controller's normal one writes the shutdown record, and no checkpoint. -/
def State.shutSafe (s : State) : State :=
  (s.qe.ctrls.filter (fun c => c.shst == 1)).foldl (fun (s : State) c =>
    if !s.ctrlDry c.id then s
    else if c.shn = 1 && s.lastUp c.id then (s.shutRecord 1).shutDone c.id else s.shutDone c.id) s

/-- What an entry to SAFE records (R508): the first cause; for a later one a health-log entry, which the fault's own post has just written unless
its source was set; and the more restrictive media state; the outstanding I/O that the media state lets no
longer run ends (R204), and a halt is preceded by the dump of R11. -/
def State.noteSafe (s : State) (cause : Nat) (halted : Bool) : State :=
  let s1 := if s.fld F.EVU_SAFE_CAUSE = 0 then s.setFld F.EVU_SAFE_CAUSE cause
    else if s.evu.log.head?.any (fun e => e.stamp == s.stamp && e.count == 1) then s
    else (s.logEntry 0xFFFF 0 noUnit cause).sendOwn s
  let old := s1.fld F.EVU_SAFE_MEDIA
  let m := max old (if halted then 2 else 1)
  let s2 := if m = old || s1.mode = .boot then s1
    else if m = 2 then (s1.endIo true).startDump 2 else s1.endIo false
  s2.setFld F.EVU_SAFE_MEDIA m

/-- The entry to SAFE for a cause (R7, R12, R13, R508). It loses to PFAIL_N and to a thermal shutdown. A device reset and a Power Off that it
outranks go on from SAFE; an NVM Subsystem Reset, a fallback, an entry into DOZE and a change between RUN and DEGRADED have no row from
there. No checkpoint goes on (R318), and shutdowns end as SAFE lets them (R202). During BOOT the cause is recorded and the mode follows at CSTS.RDY (R5, R7).
In HOLD-UP and OFF the trigger has no row and is discarded, which HOLD-UP logs. Log entries 72, 78 and 87 (DEDUCED, DESIGN CHOICE). -/
def State.enterSafe (s : State) (cause : Nat) (halted : Bool) : State :=
  match s.mode with
  | .run | .degraded | .trial =>
    if s.rankNow < 3 then s.lose 1
    else
      let keep := s.pwr.bootWait.filter (fun w => w.cause = 1 || w.cause = 2)
      let s1 := s.lose (bit s.pwr.entry.isSome + bit s.maskDue + bit (s.pwr.bootWait.isSome && keep.isNone))
      let s2 : State := { s1 with
        mode := .safe
        pwr := { s1.pwr with bootWait := keep, quiesce := 0 }
        ckpt := { s1.ckpt with running := none, left := 0, writing := 0, again := false, shutting := [] } }
      let s3 := (if s2.pwr.entry.isSome then s2.dozeAbandon 15 else s2).modeAfter
      (s3.noteSafe cause halted).shutSafe.logLost
  | .safe | .boot => s.noteSafe cause halted
  | .holdUp => s.logDiscard
  | _ => s

end Sys2Proof.Machine
end

