-- ==== Sys2Proof/Machine/FetchOps.lean ====
section
/-! DEFINITION. Reading a unit from the medium (R105, R326 to R331, R341, R342): the decode ladder, its strokes, and the
peer reads of a rebuild. -/

namespace Sys2Proof.Machine

/-- One attempt of the decode ladder (R329). -/
inductive Attempt where
  | hard (p : Nat)
  | soft (p : Nat)
  | script (k : Nat)
  | softBest
  deriving DecidableEq, Repr

/-- The attempts of R329 in order, for the guess `pg` and `steps` Scriptorium steps. -/
def ladder (pg steps : Nat) : List Attempt :=
  let near := (List.range 6).flatMap (fun d =>
    if d = 0 then [] else (if d ≤ pg then [Attempt.hard (pg - d)] else []) ++ (if pg + d ≤ 5 then [Attempt.hard (pg + d)] else []))
  [.hard pg, .soft pg] ++ near ++ (List.range steps).map Attempt.script ++ [.softBest]

/-- Whether LIG_RETRY.ENTRY is a KIND 1 entry of a Nib's image (R420). -/
def State.retryEntryOk (s : State) (n : Nat) : Bool :=
  (((s.nib.golden.lookup n).getD {}).entries.any (fun e => e.1 == s.fld F.LIG_RETRY_ENTRY && e.2.2 == 1))

/-- The Scriptorium steps of the ladder for a Nib's LUNs (R329, R420): none where the entry is not a KIND 1 entry. -/
def State.retrySteps (s : State) (n : Nat) : Nat := if s.retryEntryOk n then s.fld F.LIG_RETRY_STEPS else 0

/-- The attempt that a unit's read is at, if the ladder has one left. -/
def State.attempt (s : State) (f : Fetch) : Option Attempt := (ladder f.guess (s.retrySteps (chanOf (lunOf f.addr))))[f.step]?

/-- Changes one unit's read. -/
def State.updFetch (s : State) (id : Nat) (g : Fetch → Fetch) : State :=
  { s with map := { s.map with fetches := updWhere (fun f => f.id == id) g s.map.fetches } }

/-- A unit's read by its number. -/
def State.fetchAt (s : State) (id : Nat) : Option Fetch := s.map.fetches.find? (fun f => f.id == id)

/-- Issues the stroke of the attempt in force (R329): the read's class, except the first soft attempt of an admitted
read, which is class 0 (R100). -/
def State.attemptStroke (s : State) (f : Fetch) : State :=
  match s.attempt f with
  | none => s
  | some a =>
    let op : StrokeOp := match a with | .hard _ => .read | .soft _ => .readSoft | .script _ => .script | .softBest => .readSoft
    let cls := if f.deadline.isSome && f.step = 1 then 0 else f.cls
    let slc := f.kind == 5
    let n := chanOf (lunOf f.addr)
    let bad : Bool := f.step == 1 && s.fld F.LIG_RETRY_STEPS != 0 && !s.retryEntryOk n && !s.flag (F.NIB_Q_EVT_STATUS_ENTRY_BAD n)
    let s := if bad then s.post (F.NIB_Q_EVT_STATUS_ENTRY_BAD n) n else s
    let prof := (((s.nib.golden.lookup n).getD {}).entries.find? (fun e => e.1 == s.fld F.LIG_RETRY_ENTRY)).map (fun e => e.2.1)
    s.newStroke { mkStroke op cls (lunOf f.addr) slc (.fetch f.id) with
      row := f.addr % 2 ^ 26, around := f.around || f.nested, rescue := f.deadline.isSome && f.step = 1, deadline := f.deadline
      chain := f.chain, len := 8 * s.iuUnits
      qentry := match a with | .script _ => s.fld F.LIG_RETRY_ENTRY | _ => 0
      prof := match a with | .script _ => prof.getD 9 | _ => profOf op slc 0 }

/-- The program-band summary's entry for a PUA (R327). -/
def State.guessOf (s : State) (a : Nat) : Nat :=
  match s.bandAt a with | some b => (b.pbands.lookup (lunOf a, s.wlOf a / 64)).getD 2 | none => 2

/-- The newest dumped descriptor of the accumulator that holds a PUA's slot (R460 step 5), as its slot's member mask. -/
def State.dumpedMask (s : State) (b : Band) (a : Nat) : Option Nat :=
  let wl := s.wlOf a
  let slots := s.geoPlanes * s.geoUnits
  let k := s.slotInWl a
  let is (u : BltUnit) : Bool := u.btype == 3 && !u.released && u.nsid == b.bos && u.iu == wl && u.lbas == [(k / slots, k % slots / 16)]
  let best := s.blt.pages.foldl (fun (m : Option (Nat × BltUnit)) p =>
    match p.units.find? is with
    | some u => if p.phase == .passed && (match m with | some (g, _) => decide (g < p.group) | none => true) then some (p.group, u) else m
    | none => m) none
  best.bind (fun e => (e.2.acc[k % slots % 16]?).map (fun x => x.1))

/-- The peers of a unit's stripe that its rebuild reads (R341): every other member once the parity is programmed,
otherwise the members folded into the accumulator, the one that was dumped where the band was cut off by a power loss (R460). None where the
band has no parity. -/
def State.peersOf (s : State) (a : Nat) : Option (List Nat) :=
  match s.bandAt a with
  | none => none
  | some b =>
    let wl := s.wlOf a
    let others (ls : List Nat) : List Nat := ls.filter (fun l => l != lunOf a)
    match s.parityOf b wl with
    | none => none
    | some p =>
      match s.map.stripes.find? (fun t => t.band == b.ix && t.wl == wl) with
      | some t => some (others (t.foldedAt a))
      | none =>
        match (if s.wlClosed b wl p then none else s.dumpedMask b a) with
        | some m => some (others ((b.members.zipIdx.filter (fun e => m.testBit e.2)).map (fun e => e.1)))
        | none => if b.unprot.contains wl then none else some (others b.members)

/-- The PUA on another LUN at the same place. -/
def onLun (a l : Nat) : Nat := l * 2 ^ 26 + a % 2 ^ 26

/-- Adds a unit's read. -/
def State.addFetch (s : State) (f : Fetch) : State × Nat :=
  let id := s.map.nextFetch
  ({ s with map := { s.map with nextFetch := id + 1, fetches := s.map.fetches ++ [{ f with id, guess := s.guessOf f.addr }] } }, id)

/-- Starts the rebuild of a unit (R341, R342): its peers are read together, each a stroke of the read's class with the
AROUND flag; a peer whose wordline has not closed is taken from its cells, as a refold takes it; a peer that cannot be read is lost at once, since a rebuild never nests. Log entry 89 (DEDUCED). -/
def State.startRebuild (s : State) (id : Nat) : State :=
  match s.fetchAt id with
  | none => s
  | some f =>
    if f.rebuild then s
    else if f.nested then s.updFetch id (fun f => { f with peerLost := true, rebuild := true, ladder := false })
    else
      match s.peersOf f.addr with
      | none => s.updFetch id (fun f => { f with rebuild := true, peerLost := true })
      | some ls =>
        let wl := s.wlOf f.addr
        let media := ls.filter (fun l => !((s.bandAt f.addr).any (fun b => s.wlInCells b wl l)))
        let able := media.filter s.lunServes
        let bad := (media.filter (fun l => !s.lunServes l)).map (onLun f.addr)
        let s1 := s.updFetch id (fun f => { f with rebuild := true, peers := able.length, peerLost := !bad.isEmpty, badPeers := bad })
        able.foldl (fun (s : State) l =>
          let (s2, k) := s.addFetch { id := 0, addr := onLun f.addr l, kind := 4, cls := f.cls, deadline := f.deadline
                                      users := [.peer id], nested := true }
          match s2.fetchAt k with | some g => s2.attemptStroke g | none => s2) s1

/-- Reads a unit from the medium for a user (R31, R105, R342): a unit whose rebuild already runs is joined; a unit on a
LUN that serves nothing, or on a Nib that a Scriptorium Load holds, is rebuilt (R424); read-around is chosen where it is predicted to finish first and AROUND_EN is 1; and
otherwise the ladder starts. -/
def State.startFetch (s : State) (f : Fetch) : State :=
  let joined := s.map.fetches.find? (fun g => g.addr == f.addr && g.rebuild && !g.nested && g.kind == f.kind)
  match joined with
  | some g => s.updFetch g.id (fun g => { g with users := g.users ++ f.users })
  | none =>
    let l := lunOf f.addr
    let (s1, id) := s.addFetch f
    let tEnd := f.deadline.getD (2 ^ 63)
    let peers := (s.peersOf f.addr).getD []
    let paused := s.nib.paused.contains (chanOf l) && !peers.isEmpty
    if !s.lunServes l || (s.stat l).failed || paused then
      (s1.updFetch id (fun f => { f with ladder := false })).startRebuild id
    else if s.goesAround (f.kind == 5) (s.nowAt islStroke / 256) l peers tEnd then
      let s2 : State := { s1 with stk := { s1.stk with nAround := s1.stk.nAround + 1 } }
      (s2.updFetch id (fun f => { f with ladder := false, around := true })).startRebuild id
    else
      match s1.fetchAt id with | some g => s1.attemptStroke g | none => s1

/-- Counts `n` senses of a block (R355). -/
def State.countSense (s : State) (a n : Nat) : State :=
  let k := (lunOf a, s.blockOf a)
  let c := (s.map.reads.lookup k).getD 0
  { s with map := { s.map with reads := (k, c + n) :: s.map.reads.filter (fun e => e.1 != k) } }

/-- A block's read count (R355). -/
def State.readCount (s : State) (a : Nat) : Nat := (s.map.reads.lookup (lunOf a, s.blockOf a)).getD 0

/-- The valid IUs of a band (R267): live or snapshot entries that map a unit of it, each once, with its namespace. -/
def State.validIn (s : State) (b : Band) : List ((Nat × Nat) × Nat) :=
  let here (a : Nat) : Bool := s.blockOf a == b.block && b.members.contains (lunOf a)
  let live := s.map.entries.filterMap (fun e => match e.2 with | .mapped a => if here a then some (e.1, a) else none | _ => none)
  let snap := s.map.snaps.flatMap (fun p => p.entries.filterMap (fun e =>
    match e.2 with | .mapped a => if here a then some ((p.nsid, e.1), a) else none | _ => none))
  (live ++ snap).foldl (fun l e => if l.any (fun x => x.2 == e.2) then l else l ++ [e]) []

/-- The write point of a reclaim move (R257, R265): handles 1 to 119's reclaim units move to point 7, otherwise the
IU's age decides between points 1 and 2. -/
def State.gcPoint (s : State) (b : Band) (a : Nat) : Nat :=
  let m := s.mediaAt a
  let wp := (m.map (fun m => m.wp)).getD 8
  let ink := (m.map (fun m => m.ink)).getD 0
  let _ := b
  if 9 ≤ wp || wp = 7 then 7 else if s.now < ink + 3600 * secT then 1 else 2

/-- Moves a band's valid IUs out through a write point, or for `none` through the reclaim points (R267, R272, R276,
R347, R353): each is read and then placed. -/
def State.startMoves (s : State) (ix : Nat) (wp : Option Nat) (cls : Nat) : State :=
  match s.band ix with
  | none => s
  | some b =>
    if b.moving.isSome then s
    else
      let vs := s.validIn b
      let s1 := s.updBand ix (fun b => { b with
        moving := if vs.isEmpty then none else some (wp.getD 1), movesLeft := vs.length, pickedValid := b.valid })
      vs.foldl (fun (s : State) v =>
        let w := wp.getD (s.gcPoint b v.2)
        s.startFetch { id := 0, addr := v.2, kind := 0, nsid := v.1.1, iu := v.1.2, cls, users := [.move ix w], expect := .mapped v.2 }) s1

/-- A finding's reaction (R353, R354): FINDING is set, the band is refreshed, and a retention finding brings the bands
that closed before it to the head of the pass. In BOOT it is kept until after CSTS.RDY (R357); in SAFE nothing moves. -/
def State.finding (s : State) (a cls : Nat) : State :=
  if s.mode = .boot then { s with map := { s.map with deferred := s.map.deferred ++ [(a, cls, false)] } }
  else
    let s0 := s.post F.LIG_EVT_STATUS_FINDING (lunOf a)
    let s1 : State := { s0 with map := { s0.map with
      scans := updWhere (fun e => e.1 == lunOf a && e.2.1 == s0.blockOf a) (fun e => (e.1, e.2.1, e.2.2.1, true)) s0.map.scans } }
    match s1.bandAt a with
    | none => s1
    | some b =>
      let disturb := s1.fld F.LIG_DISTURB_KREADS * 1000 ≤ 2 * s1.readCount a
      let older (i : Nat) : Bool := ((s1.band i).map (fun x => decide (x.closedAt < b.closedAt))).getD false
      let now_ := if s1.map.patrolPos = 0 then 0 else 1
      let left := s1.map.patrolLeft.drop now_
      let s2 : State := if disturb then s1
        else { s1 with map := { s1.map with patrolLeft := s1.map.patrolLeft.take now_ ++ left.filter older ++ left.filter (fun i => !older i) } }
      if b.state = .closed && s2.mode != .safe then
        (s2.updBand b.ix (fun b => { b with refresh := some cls })).startMoves b.ix (some 4) cls
      else s2.updBand b.ix (fun b => { b with refresh := some cls })

/-- DISTURB_SCAN (R355): a block whose read count reaches the threshold by its last `n` senses is scanned, every page of it on that LUN. -/
def State.disturbCheck (s : State) (a n : Nat) : State :=
  let l := lunOf a
  let k := s.blockOf a
  if s.flag F.LIG_CTRL_DISTURB_EN && s.fld F.LIG_DISTURB_KREADS * 1000 ≤ s.readCount a && s.readCount a < s.fld F.LIG_DISTURB_KREADS * 1000 + n && s.mode != .safe && s.mode != .boot
      && !s.map.scans.any (fun e => e.1 == l && e.2.1 == k) then
    let pages := s.geoPages * s.geoPlanes
    let s1 := ({ s with map := { s.map with scans := (l, k, pages, false) :: s.map.scans } }).post F.LIG_EVT_STATUS_DISTURB_SCAN l
    (List.range pages).foldl (fun (s : State) p =>
      s.startFetch { id := 0, addr := s.pua l k (p / s.geoPlanes) (p % s.geoPlanes) 0, kind := 6, cls := 4, users := [.scan l k] }) s1
  else s

end Sys2Proof.Machine
end

