-- ==== Sys2Proof/Machine/WritePoints.lean ====
section
/-! DEFINITION. The write points (R255, R257 to R261, R265, R268), the stripes that they fill (R336 to R339), and the
results of TLC programs: closure (R389), the map update, and the loss of a member (R345). -/

namespace Sys2Proof.Machine

/-- A write point's record. -/
def State.wp (s : State) (i : Nat) : WritePoint := (s.map.wps.find? (fun w => w.ix == i)).getD { ix := i }

/-- Stores a write point's record. -/
def State.setWp (s : State) (w : WritePoint) : State :=
  { s with map := { s.map with wps := w :: s.map.wps.filter (fun x => x.ix != w.ix) } }

/-- WIDTH of a write point (R258). -/
def State.wpWidth (s : State) (i : Nat) : Nat :=
  if i ≤ 7 then 48 else if s.map.fdp then s.fld F.MAP_WP_CFG_WIDTH else 48

/-- The open bands of a write point that still take units, by band index. -/
def State.wpBands (s : State) (i : Nat) : List Band :=
  s.map.bands.filter (fun b => b.wp == some i && b.state == .open && b.wl < s.geoWls)

/-- The reclaim level's code from the free count (R266). -/
def State.levelNow (s : State) : Nat :=
  let f := s.freeBands
  if s.gcBands F.MAP_GC_THRESH_START ≤ f then 0
  else if f ≤ s.gcBands F.MAP_GC_THRESH_CRIT then 3
  else if f < s.gcBands F.MAP_GC_THRESH_LOW then 2 else 1

/-- Forms the reclaim level again (R266, R268, R312): the credit starts at 0 when the level falls below LOW and is
discarded when it rises to Background or above. -/
def State.refreshLevel (s : State) : State :=
  let l := s.levelNow
  let s1 := if l = 2 && s.map.level < 2 then s.post F.MAP_EVT_STATUS_LEVEL_PACED noUnit else s
  let s2 := if l = 3 && s.map.level < 3 then s1.post F.MAP_EVT_STATUS_LEVEL_CRIT noUnit else s1
  let keep := 2 ≤ l && 2 ≤ s.map.level
  { s2 with
    map := { s2.map with level := l, credit := if keep then s2.map.credit else 0 }
    ckpt := { s2.ckpt with critAt := if l = 3 then (if s.map.level = 3 then s2.ckpt.critAt else some s.now) else none } }

/-- The class of a write point's programs: host, map and checkpoint programs are class 3, internal moves class 4, and
class 3 while the level is Paced or Critical (R77, R266). -/
def State.wpClass (s : State) (i : Nat) : Nat := if i = 0 || 8 ≤ i then 3 else if 2 ≤ s.map.level then 3 else 4

/-- Puts an item into a write point's queue, in ink-time order (R259). -/
def insertItem (q : Item) : List Item → List Item
  | [] => [q]
  | x :: xs => if q.ink < x.ink then q :: x :: xs else x :: insertItem q xs

/-- Hands an item to its write point. -/
def State.feed (s : State) (i : Nat) (q : Item) : State :=
  let w := s.wp i
  s.setWp { w with queue := insertItem q w.queue, lastIu := s.now }

/-- 4 KiB units of an item. -/
def State.itemUnits (s : State) (q : Item) : Nat := if q.kind = 0 || q.kind = 1 then s.iuUnits else 1

/-- Accumulators that a wordline index takes: three stripes, each ⌈page bytes × planes ÷ 64 KiB⌉ (R337). -/
def State.accNeed (s : State) : Nat := if s.parityOn then 3 * ceilDiv (s.pageBytes * s.geoPlanes) 65536 else 0

/-- Accumulators held. -/
def State.accUsed (s : State) : Nat := (s.map.stripes.map (fun t => t.acc)).sum

/-- Whether a write point may open the stripes of a wordline index (R339). -/
def State.accRoom (s : State) (i : Nat) : Bool :=
  let cap := if 8 ≤ i then 128 - s.fld F.LIG_CFG_ACC_RESV else 128
  s.accUsed + s.accNeed ≤ cap

/-- The merge of an IU whose present bitmap is not full (R255): sectors that lie in records or are unmapped are taken at
once, sectors on the medium are read as class 3 strokes. Answers whether the record is ready to be placed. -/
def State.mergeRec (s : State) (r : InFlight) : State × Bool :=
  let full := maskOf 0 s.iuSectors
  let have_ := partsMask r.parts
  if have_ = full || r.merged then (s, true)
  else if s.map.fetches.any (fun f => f.users.contains (.merge r.idx)) then (s, false)
  else
    let srcs := s.sourcesOf r.prev (full - have_)
    let base := keepParts (full - have_) (s.content (s.map.inflight.length + 1) r.prev)
    let media := srcs.filterMap (fun x => match x with | .media a => some a | _ => none)
    let s1 := s.updRec r.idx (fun r => { r with base, merged := media.isEmpty })
    match media with
    | [] => (s1, true)
    | a :: _ => (s1.startFetch { id := 0, addr := a, kind := 0, nsid := r.nsid, iu := r.iu, cls := 3, users := [.merge r.idx] }, false)

/-- Starts the program of a member's wordline (R259). Its units' addresses follow R336. -/
def State.programWl (s : State) (b : Band) (lun : Nat) (parity : Bool) (items : List Item) (cls : Nat) : State :=
  let id := s.map.nextWl
  let addrs := (items.foldl (fun (acc : Nat × List (Nat × Item)) q =>
    (acc.1 + s.itemUnits q, acc.2 ++ [(s.puaInWl lun b.block b.wl acc.1, q)])) (0, [])).2
  let w : Wordline := { id, band := b.ix, wl := b.wl, lun, parity, items := addrs }
  let s1 : State := { s with map := { s.map with nextWl := id + 1, wordlines := s.map.wordlines ++ [w] } }
  let s2 := if b.wl % 64 = 0 then s1.updBand b.ix (fun b => b.setPband lun b.wl (s.lun lun).rband) else s1
  s2.newStroke { mkStroke .program cls lun false (.tlc id) with
    row := b.block * s.geoWls + b.wl, len := 8 * s.geoK, chain := items.head?.bind (fun q => q.chain) }

/-- Releases the accumulators of a wordline index (R339). -/
def State.dropStripe (s : State) (ix wl : Nat) : State :=
  { s with map := { s.map with stripes := s.map.stripes.filter (fun t => !(t.band == ix && t.wl == wl)) } }

/-- Folds the units of an item that is placed next on a band's current data member into its stripes (R337). -/
def State.foldItem (s : State) (b : Band) (lun : Nat) (q : Item) : State :=
  if !s.parityOn then s
  else
    let used := (b.fill.map s.itemUnits).sum
    let new := (List.range (s.itemUnits q)).map (fun u => (s.puaInWl lun b.block b.wl (used + u), s.oobOf b b.pos (used + u) q u))
    { s with map := { s.map with
      stripes := updWhere (fun t => t.band == b.ix && t.wl == b.wl) (fun t => { t with units := t.units ++ new }) s.map.stripes } }

/-- The units of a parity member's wordline (R338): KIND 4, each with the X_ fields of its slot. -/
def State.parityItems (s : State) (b : Band) (p : Nat) : List Item :=
  match s.map.stripes.find? (fun t => t.band == b.ix && t.wl == b.wl) with
  | some t => (List.range s.geoK).map (fun k => { kind := 4, pband := some (s.lun p).rband, x := some (s.accSlot t k).2 : Item })
  | none => []

/-- Fills a band's current member with an item, and when its wordline is full starts its program, then the parity's
program once every data member of the wordline index is folded, and moves on to the next wordline (R259, R336,
R339). -/
def State.placeItem (s : State) (i : Nat) (b : Band) (q : Item) : State :=
  let cls := s.wpClass i
  let datas := s.dataOf b b.wl
  let lun := datas.getD b.pos 0
  let fresh := !s.map.stripes.any (fun t => t.band == b.ix && t.wl == b.wl)
  let s0 : State := if fresh then
      { s with map := { s.map with stripes := s.map.stripes ++ [{ band := b.ix, wl := b.wl, wp := i, acc := s.accNeed }] } }
    else s
  let q : Item := { q with pband := some (q.pband.getD (s.lun lun).rband) }
  let gone := b.lost.contains lun
  let s0 := if gone then s0 else s0.foldItem b lun q
  let fill := b.fill ++ [q]
  let used := (fill.map s.itemUnits).sum
  let room := s.geoK - used
  let newest := max b.newest q.ink
  if s.iuUnits ≤ room && q.kind != 2 && q.kind != 3 || 1 ≤ room && (q.kind == 2 || q.kind == 3) then
    s0.updBand b.ix (fun b => { b with fill, newest })
  else
    let s2 := if gone then s0 else s0.programWl b lun false fill cls
    let last := datas.length ≤ b.pos + 1
    if !last then s2.updBand b.ix (fun b => { b with fill := [], newest, pos := b.pos + 1 })
    else
      let s3 : State := { s2 with map := { s2.map with
        stripes := updWhere (fun t => t.band == b.ix && t.wl == b.wl) (fun t => { t with full := true }) s2.map.stripes } }
      let s4 := match s3.parityOf b b.wl with
        | some p =>
          if b.lost.contains p then (s3.dropStripe b.ix b.wl).updBand b.ix (fun b => { b with unprot := b.unprot ++ [b.wl] })
          else s3.programWl b p true (s3.parityItems b p) cls
        | none => s3.dropStripe b.ix b.wl
      let w := s4.wp i
      (s4.setWp { w with cur := w.cur + 1 }).updBand b.ix (fun b =>
        { b with fill := [], newest, pos := 0, wl := b.wl + 1 })

/-- The band that a write point fills now: round robin over its open bands (R259), staying with one whose wordline has
begun. -/
def State.wpBand (s : State) (i : Nat) : Option Band :=
  let bs := s.wpBands i
  match bs.find? (fun b => b.pos != 0 || !b.fill.isEmpty) with
  | some b => some b
  | none => bs[(s.wp i).cur % max 1 bs.length]?

/-- Places the item at the head of a write point's queue, if it may be placed now (R255, R259, R261, R268, R339).
Answers whether it moved on. -/
def State.placeHead (s : State) (i : Nat) : State × Bool :=
  let w := s.wp i
  match w.queue, s.wpBand i with
  | q :: qs, some b =>
    let host := 8 ≤ i
    let opens := !s.map.stripes.any (fun t => t.band == b.ix && t.wl == b.wl)
    if host && 2 ≤ s.map.level && s.map.credit = 0 then (s, false)
    else if opens && !s.accRoom i then (s, false)
    else
      let (s1, ready, q1) : State × Bool × Item := match q.idx.bind s.recAt with
        | some r =>
          let (s1, ok) := s.mergeRec r
          (s1, ok, { q with parts := match s1.recAt r.idx with | some r => overParts r.parts r.base | none => q.parts })
        | none => (s, true, q)
      if !ready then (s1, false)
      else
        let s2 := s1.setWp { s1.wp i with queue := qs }
        let s3 : State := if host && 2 ≤ s.map.level then { s2 with map := { s2.map with credit := s2.map.credit - 1 } } else s2
        (s3.placeItem i b q1, true)
  | _, _ => (s, false)

/-- Places from one write point until it has to wait. -/
def State.runWp : Nat → Nat → State → State
  | 0, _, s => s
  | fuel + 1, i, s => let (s1, more) := s.placeHead i; if more then s1.runWp fuel i else s1

/-- Whether write points place in the mode (R283). -/
def State.wpRuns (s : State) : Bool := s.mode == .run || s.mode == .degraded || s.mode == .trial || s.mode == .boot

/-- Runs every write point that holds data, internal points first. -/
def State.runWritePoints (s : State) : State :=
  if !s.wpRuns then s
  else
    ((List.range 128).filter (fun i => s.map.wps.any (fun w => w.ix == i && !w.queue.isEmpty))).foldl
      (fun (s : State) i => s.runWp ((s.wp i).queue.length + 1) i) s

/-- Fills a band's wordline index `wl` with pads on every data member until the write point has left it (R260, R389). The
fuel bounds the pads. -/
def State.padBand : Nat → Nat → Nat → State → State
  | 0, _, _, s => s
  | fuel + 1, ix, wl, s =>
    match s.band ix with
    | none => s
    | some b =>
      if b.wl != wl then s
      else (s.placeItem (b.wp.getD 0) b { kind := 1, ink := 0 }).padBand fuel ix wl

/-- AT_RISK in force: the largest value written (R389). -/
def State.atRisk (s : State) : Nat := (List.range 48).foldl (fun m n => max m (s.fld (F.NIB_PGM_CFG_AT_RISK n))) 0

/-- Pads one band's open wordline, when it has one (R260); a band in which it padded closes as a padded one for R265. -/
def State.padOpen (s : State) (ix : Nat) : State :=
  match s.band ix with
  | none => s
  | some b =>
    if b.pos = 0 && b.fill.isEmpty then s
    else
      let n := s.geoK * b.members.length
      let s1 := s.padBand n ix b.wl
      let more (s : State) : State := match s.band ix with
        | some b => if b.wl < s.geoWls then s.padBand n ix b.wl else s
        | none => s
      let s2 := (List.range s.atRisk).foldl (fun s _ => more s) s1
      s2.updBand ix (fun b => { b with padded := true })

/-- Pads every open wordline of a write point. -/
def State.padWp (s : State) (i : Nat) : State := (s.wpBands i).foldl (fun (s : State) b => s.padOpen b.ix) s

/-! ## Closure (R389) -/

/-- A band closes when it takes no more units and every wordline of it has closed or failed (R244); its reclaim unit is
finished when WIDTH of its bands have (R265); its cached erase counters are dropped (R392). -/
def State.closeBand (s : State) (ix : Nat) : State :=
  match s.band ix with
  | none => s
  | some b =>
    if b.state == .open && s.geoWls ≤ b.wl && !s.map.wordlines.any (fun w => w.band == ix) then
      let s0 : State := { s with nib := { s.nib with ecache := s.nib.ecache.filter (fun e =>
        !(e.1.2 == b.block && b.members.contains e.1.1)) } }
      let s1 := s0.updBand ix (fun b => { b with state := .closed, closedAt := s.now, wp := none, fill := [] })
      match b.wp with
      | some i =>
        if 8 ≤ i then
          let w := s1.wp i
          let n := w.ruBands + 1
          let pad := w.ruPad || b.padded
          if n < s1.wpWidth i then s1.setWp { w with ruBands := n, ruPad := pad }
          else
            let s2 := s1.setWp { w with ruBands := 0, ruPad := false }
            if pad && s2.map.fdp then { s2 with map := { s2.map with fdpEvents := (1, i - 8) :: s2.map.fdpEvents } } else s2
        else s1
      | none => s1
    else s

/-- A move's unit has found its place, or lost it to a later write: the band's moves go on, and the last of them ends the
victim with its credit (R268) or the wear-levelling move (R272). Log entry 105 (DESIGN CHOICE). -/
def State.moveDone (s : State) (ix : Nat) : State :=
  match s.band ix with
  | none => s
  | some b =>
    if b.movesLeft ≤ 1 then
      let s1 := s.updBand ix (fun b => { b with moving := none, movesLeft := 0, refresh := none })
      let s2 : State := if 2 ≤ s1.map.level && (b.moving == some 1 || b.moving == some 2 || b.moving == some 7) then
          { s1 with map := { s1.map with credit := s1.map.credit + (s1.bandCap b - b.pickedValid) } } else s1
      if s2.map.wlBand = some ix then
        ({ s2 with map := { s2.map with wlBand := none, wlMoves := s2.map.wlMoves + 1 } }).post F.MAP_EVT_STATUS_WL_MOVE ix
      else s2
    else s.updBand ix (fun b => { b with movesLeft := b.movesLeft - 1 })

/-- The places of map pages and checkpoint units that a checkpoint references (R293). -/
def Image.refs (im : Image) : List Nat :=
  im.units ++ im.pages.filterMap (fun p => p.onMedium) ++ im.snaps.filterMap (fun p => p.onMedium)

/-- Whether the newest completed checkpoint or the running one references a place (R293). -/
def State.ckHolds (s : State) (a : Nat) : Bool :=
  (match s.ckpt.newest with | some im => im.refs.contains a | none => false) ||
    (match s.ckpt.running with | some im => im.refs.contains a | none => false)

/-- A map page has been written (R250, R251, R291): its newest copy is there, and the old copy counts as invalid unless a
checkpoint references it. A page changed since it was handed over stays dirty. -/
def State.landPage (s : State) (addr : Nat) (q : Item) : State :=
  let drop (s : State) (a : Option Nat) : State := match a with
    | some x => if s.ckHolds x then s else s.bumpValid x false
    | none => s
  let s0 := s.bumpValid addr true
  match q.snap with
  | some lo =>
    let mine (p : SnapPage) : Bool := p.nsid == q.nsid && p.page == q.iu && p.lo == lo
    let old := (s0.map.snaps.find? mine).bind (fun p => p.onMedium)
    let put (p : SnapPage) : SnapPage := { p with onMedium := some addr, dirty := false }
    let s1 : State := { s0 with
      map := { s0.map with snaps := updWhere mine put s0.map.snaps }
      ckpt := { s0.ckpt with running := s0.ckpt.running.map (fun im => if q.ck then { im with snaps := updWhere mine put im.snaps } else im) } }
    drop s1 old
  | none =>
    let p := s0.mapPage q.nsid q.iu
    if q.src.isSome && p.onMedium != q.src then s0.bumpValid addr false else
    let mine (p : MapPage) : Bool := p.nsid == q.nsid && p.page == q.iu
    let s1 := s0.setMapPage { p with onMedium := some addr, dirty := p.dirty && decide (q.ink < p.used) }
    let s2 : State := { s1 with ckpt := { s1.ckpt with running := s1.ckpt.running.map (fun im =>
      if q.ck then { im with pages := updWhere mine (fun p => { p with onMedium := some addr }) im.pages } else im) } }
    drop s2 p.onMedium

/-- A unit of the running checkpoint has landed (R292, R296): after the last one, root record copy A is written. -/
def State.ckLanded (s : State) (q : Item) : State :=
  if !q.ck || s.ckpt.left = 0 then s
  else
    let s1 : State := { s with ckpt := { s.ckpt with left := s.ckpt.left - 1 } }
    if s1.ckpt.left = 0 then ({ s1 with ckpt := { s1.ckpt with writing := 1 } }).folio { job := .root false } else s1

/-- One unit of a closed wordline takes effect in the map (R26, R256). -/
def State.landItem (s : State) (addr : Nat) (q : Item) : State :=
  match q.kind with
  | 0 =>
    match q.idx with
    | some i =>
      match s.recAt i with
      | some r => ((s.updRec i (fun r => { r with landed := some addr })).markDry i r.bypass).landRec i
      | none => s
    | none =>
      let s1 := s.mapUpdate q.nsid q.iu addr q.expect
      let s2 := match q.chain with | some h => s1.releaseAll h 4 | none => s1
      match q.ofBand with | some b => s2.moveDone b | none => s2
  | 2 =>
    (s.landPage addr q).ckLanded q
  | 3 =>
    let s1 : State := { s with ckpt := { s.ckpt with running := s.ckpt.running.map (fun im => { im with units := addr :: im.units }) } }
    (s1.bumpValid addr true).ckLanded q
  | _ => s

/-- Whether a passed wordline may close (R389): each of the next `k` wordlines of its block has passed, or was not begun
and will not be, because its band takes no more units. -/
def State.mayClose (s : State) (w : Wordline) : Bool :=
  w.passed && !w.closed &&
    (match s.band w.band with
     | none => true
     | some b => (List.range s.atRisk).all (fun j =>
        let t := w.wl + j + 1
        match s.map.wordlines.find? (fun x => x.band == w.band && x.lun == w.lun && x.wl == t) with
        | some x => x.passed
        | none => s.geoWls ≤ b.wl || t < b.wl))

/-- WORDLINE_CLOSE (R389, R26, R339): a wordline closes; its units take effect, and a parity wordline frees the
accumulators of its stripes. -/
def State.closeWl (s : State) (w : Wordline) : State :=
  let s1 := w.items.foldl (fun (s : State) e => s.landItem e.1 e.2) s
  let s2 : State := { s1 with map := { s1.map with
    wordlines := s1.map.wordlines.filter (fun x => x.id != w.id)
    stripes := if w.parity then s1.map.stripes.filter (fun t => !(t.band == w.band && t.wl == w.wl)) else s1.map.stripes } }
  s2.closeBand w.band

/-- Closes every wordline of a band that may close, in wordline order. -/
def State.closeWls (s : State) (ix : Nat) : State :=
  (s.map.wordlines.filter (fun w => w.band == ix)).foldl (fun (s : State) w =>
    match s.map.wordlines.find? (fun x => x.id == w.id) with
    | some x => if s.mayClose x then s.closeWl x else s
    | none => s) s

/-- What the medium holds after a wordline's program passes (R287). Log entry 6 (DEDUCED). -/
def State.recordWl (s : State) (w : Wordline) : State :=
  let b := s.band w.band
  let ms := w.items.map (fun e =>
    let q := e.2
    ({ addr := e.1, kind := q.kind, nsid := q.nsid, iu := q.iu, ink := q.ink, cls := q.cls, unc := q.unc, pband := q.pband.getD (s.lun w.lun).rband
       parts := q.parts, src := q.src, x := q.x, bos := (b.map (fun b => b.bos)).getD 0
       wp := (b.bind (fun b => b.wp)).getD 0 } : MediaIu))
  { s with map := { s.map with media := ms ++ s.map.media } }

/-! ## The loss of a member (R345) -/

/-- Whether a band is exposed (R347): it holds valid IUs on a lost member or in an unprotected wordline. -/
def State.isExposed (s : State) (b : Band) : Bool :=
  (!b.lost.isEmpty || !b.unprot.isEmpty) &&
    (s.validIn b).any (fun v => b.lost.contains (lunOf v.2) || b.unprot.contains (s.wlOf v.2))

/-- Marks a band exposed when it is, with the EXPOSED event (R347). -/
def State.checkExposed (s : State) (ix : Nat) : State :=
  match s.band ix with
  | some b =>
    if !b.exposed && s.isExposed b then (s.updBand ix (fun b => { b with exposed := true })).post F.LIG_EVT_STATUS_EXPOSED ix else s
  | none => s

/-- An open band that loses a member is closed (R345): data placed for the member and not programmed is placed again in
the write point's next band; a wordline that had passed and that a begun program of the next
k can still destroy is destroyed with it and is placed again from its Blotter copies (R389); the rest of the wordline index is padded and its parity programmed where the parity
member survives; the remaining wordlines are never programmed. -/
def State.loseMember (s : State) (ix lun : Nat) (failed : Option Nat := none) : State :=
  match s.band ix with
  | none => s
  | some b =>
    if b.lost.contains lun then s
    else
      let i := b.wp.getD 0
      let ours := s.map.wordlines.filter (fun w => w.band == ix && w.lun == lun)
      let begun := ours.filter (fun w => !w.passed && s.stk.strokes.any (fun k => k.purpose == .tlc w.id && k.phase != .waiting && k.phase != .held) || failed == some w.id)
      let gone (w : Wordline) : Bool := !w.passed || (!w.closed && begun.any (fun x => w.wl < x.wl && x.wl ≤ w.wl + s.atRisk))
      let mine := ours.filter gone
      let here := b.state == .open && (s.dataOf b b.wl)[b.pos]? == some lun
      let back := mine.flatMap (fun w => w.items.map (fun e => e.2)) ++ (if here then b.fill else [])
      let unprot := (List.range b.wl).filter (fun w => s.parityOf b w == some lun && mine.any (fun x => x.wl == w && x.parity))
      let s1 : State := { s with
        map := { s.map with
          wordlines := s.map.wordlines.filter (fun w => !(mine.any (fun x => x.id == w.id)))
          media := s.map.media.filter (fun m => !(mine.any (fun x => x.items.any (fun e => e.1 == m.addr))))
          stripes := s.map.stripes.filter (fun t => !(t.band == ix && mine.any (fun x => x.wl == t.wl && x.parity))) }
        stk := { s.stk with strokes := s.stk.strokes.filter (fun k =>
          !(!k.inRing && mine.any (fun w => k.purpose == .tlc w.id))) } }
      let s2 := s1.updBand ix (fun b => { b with lost := b.lost ++ [lun], unprot := b.unprot ++ unprot, fill := if here then [] else b.fill })
      let s3 := (back.filter (fun q => q.kind != 1 && q.kind != 4)).foldl (fun (s : State) q => s.feed i q) s2
      if b.state != .open then s3.checkExposed ix
      else
        let s4 := if b.pos = 0 && b.fill.isEmpty then s3 else s3.padBand (s.geoK * b.members.length) ix b.wl
        let s5 := s4.updBand ix (fun b => { b with wl := s.geoWls, fill := [], pos := 0, padded := true })
        ((s5.closeWls ix).closeBand ix).checkExposed ix

/-- The result of a TLC program (R345, R389): a pass is recorded and may close wordlines; a fail loses the member and
counts the block toward R344; a program that left its page erased is placed again. -/
def State.tlcResult (s : State) (id status : Nat) (launched : Bool) (k : Stroke) : State :=
  match s.map.wordlines.find? (fun w => w.id == id) with
  | none => s
  | some w =>
    let again (s : State) : State := s.newStroke { mkStroke .program k.cls w.lun false (.tlc id) with row := k.row, len := k.len, chain := k.chain }
    let blk := ((s.band w.band).map (fun b => b.block)).getD 0
    if status = 0 then
      let s1 : State := { s with map := { s.map with
        wordlines := updWhere (fun x => x.id == id) (fun x => { x with passed := true }) s.map.wordlines } }
      ((s1.recordWl w).programmed (s1.geoBits * s1.geoPlanes * s1.pageBytes)).closeWls w.band
    else if status = 2 then
      let s1 : State := { s with map := { s.map with pgmFails := (w.lun, blk) :: s.map.pgmFails } }
      s1.loseMember w.band w.lun (some id)
    else if status = 0x08 then s.loseMember w.band w.lun (some id)
    else if status = 0x0D || status = 0x0E || !launched then again s
    else s.loseMember w.band w.lun (if launched then some id else none)

end Sys2Proof.Machine
end

