-- ==== Sys2Proof/Machine/MediaOps.lean ====
section
/-! DEFINITION. Retirement and map-out (R344, R346 to R350) and the erase of a band (R270, R271, R391). -/

namespace Sys2Proof.Machine

/-- The band table loses a LUN (R345, R346): open bands close, other bands lose a member. -/
def State.dropFromBands (s : State) (l : Nat) : State :=
  (s.map.bands.filter (fun b => b.members.contains l && b.state != .retired && b.state != .free)).foldl
    (fun (s : State) b => s.loseMember b.ix l) s

/-- The channels of a group's members. -/
def channels (g : List Nat) : List Nat := g.map chanOf

/-- A group reduced below 3 members whose bands are all erased is dissolved: its surviving LUNs become spares (R350). -/
def State.dissolve (s : State) (gi : Nat) : State :=
  let g := s.map.groups.getD gi []
  if 3 ≤ g.length || s.map.bands.any (fun b => b.group == gi && b.state != .free && b.state != .retired) then s
  else { s with map := { s.map with groups := s.map.groups.set gi [], spares := s.map.spares ++ g } }

/-- A group loses a LUN (R346, R350): a spare on a channel that the group does not use takes its place, otherwise the
group shrinks, and below 3 members it is dissolved: its bands are exposed, and its LUNs become spares once they are erased. -/
def State.shrinkGroups (s : State) (l : Nat) : State :=
  let hit (g : List Nat) : Bool := g.contains l
  match s.map.groups.find? hit with
  | none => { s with map := { s.map with spares := s.map.spares.filter (· != l) } }
  | some g =>
    let rest := g.filter (· != l)
    match s.map.spares.find? (fun x => !(channels rest).contains (chanOf x)) with
    | some x => { s with map := { s.map with
        groups := s.map.groups.map (fun q => if hit q then rest ++ [x] else q)
        spares := s.map.spares.filter (· != x) } }
    | none =>
      if 3 ≤ rest.length then { s with map := { s.map with groups := s.map.groups.map (fun q => if hit q then rest else q) } }
      else
        let gi := s.map.groups.findIdx hit
        let s1 : State := { s with map := { s.map with
          groups := s.map.groups.map (fun q => if hit q then rest else q)
          bands := updWhere (fun b => b.group == gi && b.state != .free && b.state != .retired) (fun b => { b with exposed := true }) s.map.bands } }
        s1.dissolve gi

/-- The data capacity of the in-service bands in IUs (R350). -/
def State.capacityIus (s : State) : Nat :=
  ((s.map.bands.filter (fun b => b.state != .retired)).map (fun b =>
    let n := ((s.map.groups.getD b.group []).filter s.lunServes).length
    (n - bit s.parityOn) * s.geoWls * (s.geoK / s.iuUnits))).sum

/-- What namespaces have allocated and the LOW threshold, in IUs (R350). -/
def State.neededIus (s : State) : Nat :=
  ((s.qe.nss.filter (fun n => n.cut.isNone)).map (fun n => ceilDiv (n.blocks * n.blkSectors) s.iuSectors)).sum
    + s.gcBands F.MAP_GC_THRESH_LOW * (s.capacityIus / max 1 s.liveBands)

/-- Retires a LUN (R346, R349, R350): no stroke is placed on it, its bands and its group lose it, its Blotter sets lose
it, and the mode follows. A group that holds an exposed band, or a capacity that no longer suffices, leads to SAFE with
media read-only. -/
def State.retireLun (s : State) (l : Nat) : State :=
  if (s.lun l).retired || !s.nib.luns.any (fun x => x.lun == l) then s
  else
    let gi := s.map.groups.findIdx (fun g => g.contains l)
    let second := s.map.bands.any (fun b => b.group == gi && b.exposed)
    let s1 : State := { s with nib := { s.nib with luns := updWhere (fun x => x.lun == l) (fun x => { x with retired := true }) s.nib.luns } }
    let s2 := ((s1.dropFromBands l).shrinkGroups l).post F.LIG_EVT_STATUS_LUN_RETIRE l
    let s3 : State := { s2 with blt := { s2.blt with 
      sets := (s2.blt.sets.map (fun t => { t with luns := t.luns.filter (· != l) })).filter (fun t => 3 ≤ t.luns.length) } }
    let s4 := if second || (s3.hasNamespace && s3.capacityIus < s3.neededIus) then s3.enterSafe 8 false else s3
    s4.settle

/-- Retires a block (R344); past LIG_RETIRE.BLOCKS retirements beyond the factory bad blocks its LUN is retired
(R346). -/
def State.retireBlock (s : State) (l k : Nat) : State :=
  if s.map.badBlocks.contains (l, k) then s
  else
    let s1 := ({ s with map := { s.map with badBlocks := (l, k) :: s.map.badBlocks } }).post F.LIG_EVT_STATUS_BLOCK_RETIRE l
    if s1.fld F.LIG_RETIRE_BLOCKS < (s1.map.badBlocks.filter (fun e => e.1 == l)).length then s1.retireLun l else s1

/-- Retires every LUN of a masked Nib's channel (R348). -/
def State.retireChannel (s : State) (n : Nat) : State :=
  let s1 := ((s.nib.luns.filter (fun x => chanOf x.lun == n && x.state != .notPresent)).map (fun x => x.lun)).foldl State.retireLun
    (s.post F.LIG_EVT_STATUS_CHAN_MASK n)
  (if s1.flag F.LIG_STATUS_CHAN_PROT then s1 else s1.enterSafe 8 false).settle

/-- A rebuild-level finding counts toward a block's retirement (R344): in two successive erase cycles it retires it. -/
def State.countRebuild (s : State) (l k : Nat) : State :=
  let n := (s.map.findings.lookup (l, k)).getD 0
  { s with map := { s.map with findings := ((l, k), if n % 2 = 0 then n + 1 else n) :: s.map.findings.filter (fun e => e.1 != (l, k)) } }

/-- At an erase, the finding of the cycle that ends moves on: the count 1 becomes 2 (one cycle with a finding), 3 means
two in a row, and a cycle without one clears it (R344). -/
def State.turnFindings (s : State) (l k : Nat) : State × Bool :=
  let n := (s.map.findings.lookup (l, k)).getD 0
  let rest := s.map.findings.filter (fun e => e.1 != (l, k))
  if n = 3 then ({ s with map := { s.map with findings := rest } }, true)
  else if n = 1 then ({ s with map := { s.map with findings := ((l, k), 2) :: rest } }, false)
  else ({ s with map := { s.map with findings := rest } }, false)

/-- Loads the erase counters of a band's blocks into their Nibs (R392), 1,024 in each. -/
def State.cacheCounts (s : State) (b : Band) (ls : List Nat) : State :=
  let room (l : Nat) : Bool := (s.nib.ecache.filter (fun e => chanOf e.1.1 == chanOf l && e.1 != (l, b.block))).length < 1024
  let load := (ls.filter room).map (fun l => ((l, b.block), s.eraseCount l b.block))
  { s with nib := { s.nib with ecache := load ++ s.nib.ecache.filter (fun e => !load.any (fun x => x.1 == e.1)) } }

/-- Starts the erase of a band (R270, R391): its blocks are erase pending, and class 4 erases go to its members, class 3
while the level is Paced or Critical. -/
def State.startErase (s : State) (ix : Nat) : State :=
  match s.band ix with
  | none => s
  | some b =>
    let ls := b.members.filter s.lunServes
    let s1 := (s.cacheCounts b ls).updBand ix (fun b => { b with erasing := ls, erasePend := true })
    ls.foldl (fun (s : State) l =>
      s.newStroke { mkStroke .erase (if 2 ≤ s.map.level then 3 else 4) l false (.eraseBand ix) with row := b.block }) s1

/-- A block has been erased (R271, R355): its counter counts, saturating at 0x0FFF_FFFF, its read count starts at 0 and
nothing is left on it. -/
def State.blockErased (s : State) (l k count : Nat) : State :=
  { s with map := { s.map with
    erases := ((l, k), count) :: s.map.erases.filter (fun e => e.1 != (l, k))
    reads := s.map.reads.filter (fun e => e.1 != (l, k))
    media := s.map.media.filter (fun m => !(lunOf m.addr == l && s.blockOf m.addr == k))
    nErases := s.map.nErases + 1 } }

/-- A band whose last erase has ended is free (R270). Partial
parity of it in the Blotter is released (R449), and tickets that waited for it go on. -/
def State.bandErased (s : State) (ix : Nat) : State :=
  match s.band ix with
  | none => s
  | some b =>
    let s1 := s.updBand ix (fun b => { b with
      state := .free, members := [], lost := [], unprot := [], exposed := false, erasing := [], erasePend := false, refresh := none
      valid := 0, newest := 0, padded := false, wl := 0, pos := 0, fill := [], pbands := [], frontier := 0, moving := none })
    (s1.releaseUnits (fun u => (u.btype == 2 || u.btype == 3) && u.nsid == b.bos)).dissolve b.group |>.refreshLevel

/-- The result of one block's erase of a band (R344, R392): pass takes the returned count, or the band table's own where
the Nib had none cached; fail retires the block; an erase that ended without a result leaves the block erase pending
and is placed again (R416). -/
def State.eraseResult (s : State) (ix l status result : Nat) : State :=
  match s.band ix with
  | none => s
  | some b =>
    let own := min 0x0FFFFFFF (s.eraseCount l b.block + 1)
    let finish (s : State) : State :=
      let s1 := s.updBand ix (fun b => { b with erasing := b.erasing.filter (· != l) })
      match s1.band ix with | some b => if b.erasing.isEmpty then s1.bandErased ix else s1 | none => s1
    if status = 0 then
      let failed := s.map.pgmFails.contains (l, b.block)
      let s1 := s.blockErased l b.block (if result = 0xFFFFFFFF then own else result)
      let (s2, weak) := s1.turnFindings l b.block
      let s3 : State := { s2 with map := { s2.map with pgmFails := s2.map.pgmFails.filter (· != (l, b.block)) } }
      finish (if failed || weak then s3.retireBlock l b.block else s3)
    else if status = 3 then finish (s.retireBlock l b.block)
    else if status = 8 || !s.lunServes l then finish s
    else s.newStroke { mkStroke .erase (if 2 ≤ s.map.level then 3 else 4) l false (.eraseBand ix) with row := b.block }

end Sys2Proof.Machine
end

