-- ==== Sys2Proof/Machine/Tickets.lean ====
section
/-! DEFINITION. Secure-discard tickets (R275 to R278): what a ticket still has to erase and what it starts. -/

namespace Sys2Proof.Machine

/-- Whether an IU lies in a ticket's ranges. -/
def Ticket.covers (t : Ticket) (nsid iu : Nat) : Bool := t.nsid == nsid && t.ranges.any (fun r => r.1 ≤ iu && iu < r.1 + r.2)

/-- The copies of a ticket's IUs on the medium with ink times below its own (R276). -/
def State.ticketCopies (s : State) (t : Ticket) : List MediaIu :=
  s.map.media.filter (fun m => m.kind == 0 && t.covers m.nsid m.iu && m.ink < t.ink)

/-- The Blotter pages that hold such a copy and have not been erased. -/
def State.ticketPages (s : State) (t : Ticket) : List BltPage :=
  s.blt.pages.filter (fun p => p.units.any (fun u => u.btype == 0 && t.covers u.nsid u.iu && u.ink < t.ink))

/-- One ticket's progress (R276): the bands of its copies are emptied through point 6 and erased, the Blotter slots that
hold copies take no new group and their data's wordlines are padded; copies that only a held cut references make it
wait; with no copy left it is done. -/
def State.ticketStep (s : State) (t : Ticket) : State :=
  let copies := s.ticketCopies t
  let free := copies.filter (fun m => !s.pinned m.addr)
  let pages := s.ticketPages t
  let wet := s.map.inflight.any (fun r => t.covers r.nsid r.iu && r.ink < t.ink)
  let set (s : State) (st done : Nat) : State :=
    { s with map := { s.map with tickets := updWhere (fun x => x.ticket == t.ticket) (fun x => { x with state := st, doneNs := done }) s.map.tickets } }
  if copies.isEmpty && pages.isEmpty && !wet then (set s 3 (s.now / 256)).post F.MAP_EVT_STATUS_DISCARD_DONE noUnit
  else if free.isEmpty && pages.isEmpty && !wet then set s 2 0
  else
    let ixs := (free.filterMap (fun m => (s.bandAt m.addr).map (fun b => b.ix))).eraseDups
    let s1 := ixs.foldl (fun (s : State) ix =>
      match s.band ix with
      | some b =>
        if b.state = .closed && b.moving.isNone && b.erasing.isEmpty then
          (if (s.validIn b).isEmpty then s.startErase ix else s.startMoves ix (some 6) 4)
        else s
      | none => s) (set s 1 0)
    pages.foldl (fun (s : State) p =>
      match p.row with
      | some (st, sl, _) =>
        if ((s.bltSet st).map (fun t => t.stop.getD sl false)).getD true then s
        else
          let wps := (p.units.filterMap (fun u => (u.idx.bind s.recAt).map (fun r => r.wp))).eraseDups
          wps.foldl State.padWp (s.updSet st (fun t => { t with stop := t.stop.set sl true }))
      | none => s) s1

/-- Lets every active ticket whose command has its ink time go on; SAFE, HOLD-UP and DOZE make no progress (R283). -/
def State.ticketPump (s : State) : State :=
  if !s.groupsOpen then s
  else (s.map.tickets.filter (fun t => (t.state == 1 || t.state == 2) && t.ink != 0)).foldl State.ticketStep s

/-- Gives a ticket its command's ink time once that is stamped. -/
def State.ticketInk (s : State) : State :=
  let ink (t : Ticket) : Nat := ((s.qe.cmds.find? (fun c => c.ticket == some t.ticket)).bind (fun c => c.ink)).getD t.ink
  { s with map := { s.map with tickets := s.map.tickets.map (fun t => if t.ink = 0 then { t with ink := ink t } else t) } }

/-- The place of a new ticket (R277): a free record, or the oldest that is done; none when all 64 are in use. -/
def State.ticketRoom (s : State) : Option (List Ticket) :=
  let ts := s.map.tickets.filter (fun t => t.state != 0)
  if ts.length < 64 then some ts
  else
    match (ts.filter (fun t => t.state == 3)).foldl (fun (m : Option Ticket) t => match m with | none => some t | some o => if t.seq < o.seq then some t else some o) none with
    | some o => some (ts.filter (fun t => t.ticket != o.ticket))
    | none => none

end Sys2Proof.Machine
end

