-- ==== Sys2Proof/Machine/CkptOps.lean ====
section
/-! DEFINITION. Map checkpoints (R289 to R296), the shutdown record (R456) and the shutdown of controllers (R202). -/

namespace Sys2Proof.Machine

/-- What a map entry is written as in a checkpoint (R291): an IN_FLIGHT entry as its PREV. The fuel bounds the chain of
PREVs. -/
def State.settled (s : State) : Nat → MapEntry → MapEntry
  | 0, _ => .unmapped
  | fuel + 1, e =>
    match e with
    | .inFlight i => match s.recAt i with | some r => s.settled fuel r.prev | none => .unmapped
    | _ => e

/-- A band's frontier (R290): the lowest wordline index holding a unit whose map update has not been made. -/
def State.frontierOf (s : State) (b : Band) : Nat :=
  ((s.map.wordlines.filter (fun w => w.band == b.ix)).map (fun w => w.wl)).foldl min b.wl

/-- The state that a checkpoint started now describes (R290, R291, R295). -/
def State.ckImage (s : State) : Image :=
  let n := s.map.inflight.length + 1
  { seq := s.ckpt.nextSeq, start := { s.stamp with ns := s.nowAt islMap / 256 }, startAt := s.nowAt islMap
    floor := (s.map.inflight.map (fun r => r.ink)).foldl min (s.nowAt islMap)
    bosNext := s.map.nextBos, iu := s.fld F.MAP_CFG_IU_ACTIVE
    entries := s.map.entries.map (fun e => (e.1, s.settled n e.2))
    pages := s.map.pages, snaps := s.map.snaps
    bands := s.map.bands.map (fun b => if b.state == .open then { b with frontier := s.frontierOf b } else b)
    erases := s.map.erases, badBlocks := s.map.badBlocks, groups := s.map.groups, spares := s.map.spares
    tickets := s.map.tickets.filter (fun t => t.state == 1 || t.state == 2)
    pass := s.fld F.LIG_PATROL_POS_PASS }

/-- The items that a checkpoint writes through write point 0 (R291, R292): dirty pages, live and snapshot; then, as units
of KIND 3, the directory pages that list them, the band table delta, the ticket records and the root table. Log entry 68 (DESIGN CHOICE). -/
def State.ckItems (s : State) (im : Image) : List Item :=
  let live := im.pages.filter (fun p => p.dirty)
  let snaps := im.snaps.filter (fun p => p.dirty)
  let a := live.map (fun p => { kind := 2, nsid := p.nsid, iu := p.page, ink := s.now, ck := true : Item })
  let b := snaps.map (fun p => { kind := 2, nsid := p.nsid, iu := p.page, ink := s.now, ck := true, snap := some p.lo : Item })
  let dirs := ((live.map (fun p => p.mpi / 816)).eraseDups).length
  let roots := max 1 (min 128 (ceilDiv (ceilDiv ((im.pages.map (fun p => p.mpi)).foldl max 0 + 1) 816) 816))
  let n := dirs + ceilDiv s.deltaBytes 4096 + bit (!im.tickets.isEmpty) + roots
  a ++ b ++ (List.range n).map (fun k => { kind := 3, nsid := im.seq % 2 ^ 32, iu := k, ink := s.now, ck := true : Item })

/-- Starts a checkpoint (R289, R290, R291). Log entry 68 (DESIGN CHOICE). -/
def State.startCheckpoint (s : State) : State :=
  let im := s.ckImage
  let items := s.ckItems im
  let s1 : State := { s with
    map := { s.map with bands := im.bands }
    ckpt := { s.ckpt with running := some im, left := items.length, again := false, slow := false, writing := 0
                          lastStart := s.now, stamped := 0 } }
  (items.foldl (fun (s : State) q => s.feed 0 q) s1).runWritePoints

/-! ## Shutdown (R202) -/

/-- The progress of the shutdowns that run (R202, R260, R318): an abrupt one ends once its writes are dry; a normal one too, unless it is
the last controller's, which waits until nothing is in flight and for a checkpoint, and writes the shutdown record. -/
def State.shutStep (s : State) : State :=
  if s.mode = .safe then s.shutSafe
  else (s.qe.ctrls.filter (fun c => c.shst == 1 && !s.ckpt.shutting.contains c.id)).foldl (fun (s : State) c =>
    if !s.ctrlDry c.id then s
    else if c.shn != 1 || !s.lastUp c.id then s.shutDone c.id
    else if !s.map.inflight.isEmpty then s
    else
      let s1 : State := { s with ckpt := { s.ckpt with shutting := c.id :: s.ckpt.shutting } }
      if s1.ckpt.running.isSome then { s1 with ckpt := { s1.ckpt with again := true } } else s1.startCheckpoint) s

/-- CHECKPOINT_COMPLETE (R292 to R294): root record copy B has passed. Places that only the older checkpoint referenced
stop being valid, map-change records below FLOOR stop being replay sources, a trigger that fell due starts the next
checkpoint, and otherwise the shutdowns that waited end. Log entry 23 (DEDUCED). -/
def State.ckComplete (s : State) : State :=
  match s.ckpt.running with
  | none => s
  | some im =>
    let live := s.map.pages.filterMap (fun p => p.onMedium) ++ s.map.snaps.filterMap (fun p => p.onMedium)
    let old := (s.ckpt.newest.map Image.refs).getD []
    let s1 := (old.filter (fun a => !im.refs.contains a && !live.contains a)).foldl (fun (s : State) a => s.bumpValid a false) s
    let s2 : State := { s1 with ckpt := { s1.ckpt with running := none, writing := 0, newest := some im, nextSeq := im.seq + 1 } }
    let s3 := s2.releaseUnits (fun u => u.btype == 1 && u.ink < im.floor)
    if s3.ckpt.again then s3.startCheckpoint
    else
      let s4 : State := if s3.ckpt.shutting.isEmpty then s3 else s3.shutRecord 1
      let s5 := s4.ckpt.shutting.foldl State.shutDone s4
      { s5 with ckpt := { s5.ckpt with shutting := [] } }

end Sys2Proof.Machine
end

