-- ==== Sys2Proof/Machine/IoOps.lean ====
section
/-! DEFINITION. I/O commands between their latch and their completion (R165 to R174, R219, R227, R253): segments and
their cells, verification, the errors that end a write, reads' sources, and the completion of what is finished. -/

namespace Sys2Proof.Machine

/-- The banks of a chain's cells. -/
def State.banksOf (s : State) (head : Nat) : List Nat := ((s.chain head).map (fun c => c.cells.map (· / 8192))).getD []

/-- Takes a chain whose cells avoid some banks (R227). -/
def State.allocAway (s : State) (o last n : Nat) (banks : List Nat) : Option (State × Nat) :=
  let cells := pickCells (fun b => s.bankServes b && !banks.contains b) (s.ink.chains.flatMap (fun c => c.cells))
    (s.ink.used + n + 131072) 0 n
  if cells.length < n then none
  else
    let head := cells.headD 0
    let c : Chain := { head, cells, alloc := o, last, holders := if o = last then [(o, 1)] else [(o, 1), (last, 1)]
                       born := s.now / (256 * 1024) % 2 ^ 32 }
    some ({ s with ink := ({ s.ink with chains := c :: s.ink.chains }).addHeld o n }, head)

/-- The cells of a segment: whole cells of its length (R219). -/
def Segment.cells (g : Segment) (bs : Nat) : Nat := max 1 (g.n * bs)

/-- Changes one segment of a command. -/
def Cmd.updSeg (c : Cmd) (lo : Nat) (f : Segment → Segment) : Cmd := { c with segs := updWhere (fun g => g.lo == lo) f c.segs }

/-- The records of a command that a segment holds sectors of. -/
def State.segRecords (s : State) (c : Cmd) (g : Segment) (bs : Nat) : List Nat :=
  c.records.filter (fun i => match s.recAt i with
    | some r => c.kind != .write ||
        (iuCover s.iuSectors (g.lo * bs) (g.n * bs)).any (fun e => e.1 == r.iu && e.2 &&& partsMask r.parts != 0)
    | none => false)

/-- Whether a chain and, under Protected, its twin can be had now for a segment of a write (R214, R227, R441). -/
def State.writeSegOk (s : State) (n order : Nat) : Bool := s.grantOk 0 n order && s.budgetRoom n

/-- Whether a write's segment is written to a twin too (R227): under Protected, where a bank that its chain does not use serves the Inkwell. -/
def State.wantsTwin (s : State) (c : Cmd) (head : Nat) : Bool :=
  c.kind == .write && s.protectedNow c.nsid && !c.fua && (List.range 16).any (fun b => s.bankServes b && !(s.banksOf head).contains b)

/-- Gives a segment its twin, or lets the twin wait for its cells (R214, R227). -/
def State.giveTwin (s : State) (c : Cmd) (g : Segment) (head bs order : Nat) : State :=
  let n := g.cells bs
  let given := if s.grantOk 0 n order then s.allocAway 0 2 n (s.banksOf head) else none
  match given with
  | some (s1, t) =>
    let s2 := (s1.segRecords c g bs).foldl (fun (s : State) i => s.updRec i (fun r => { r with twins := r.twins ++ [t] })) s1
    s2.updCmd c.ref (fun c => c.updSeg g.lo (fun g => { g with twin := some t, twinDue := false }))
  | none => (s.updCmd c.ref (fun c => c.updSeg g.lo (fun g => { g with twinDue := true }))).waitCells 0 2 n (.twin c.ref g.lo)

/-- Gives a write's segment its cells and, under Protected, its twin, and fetches its data (R117, R216, R219, R227). -/
def State.giveWriteSeg (s : State) (c : Cmd) (g : Segment) (bs : Nat) : State :=
  let n := g.cells bs
  let (s1, head) := s.alloc 0 3 n
  let s2 := (s1.segRecords c g bs).foldl (fun (s : State) i => s.updRec i (fun r => { r with chains := r.chains ++ [head] })) s1
  let s3 := s2.updCmd c.ref (fun c => c.updSeg g.lo (fun g => { g with chain := some head }))
  let s4 := if s3.wantsTwin c head then s3.giveTwin c g head bs s3.ink.nextOrder else s3
  match c.kind, ctrlOf c.ref with
  | .write, some fn => s4.readHost fn (.data c.ref g.lo) [] (s4.pagesOf c.ref fn ((g.lo - c.slba) * bs * 512) (g.n * bs * 512))
  | _, _ => s4

/-- Asks for the cells of a write's segments in order, as far as they are granted (R219). -/
def State.askSegs : Nat → Ref → State → State
  | 0, _, s => s
  | fuel + 1, ref, s =>
    match s.cmd ref with
    | none => s
    | some c =>
      match c.segs.find? (fun g => g.chain.isNone) with
      | none => s
      | some g =>
        if g.asked then s
        else
          let bs := s.cmdBs c
          let s1 := s.updCmd ref (fun c => c.updSeg g.lo (fun g => { g with asked := true }))
          if s.writeSegOk (g.cells bs) s.ink.nextOrder then (s1.giveWriteSeg c g bs).askSegs fuel ref
          else s1.waitCells 0 3 (g.cells bs) (.hostWrite ref g.lo)

/-! ## Reads -/

/-- Whether every sector that an IU of a read wants is at hand (R253). -/
def State.iuReady (s : State) (q : RdIu) : Bool :=
  q.srcs.all (fun x => match x with
    | .zeros | .uncorr | .got => true
    | .cells i m => (match s.recAt i with | some r => m &&& r.verified == m | none => true)
    | .media _ | .page _ _ => false)

/-- Starts the medium reads of one IU of a read that do not run already. -/
def State.startIu (s : State) (c : Cmd) (q : RdIu) (chain : Option Nat) : State :=
  let cls := if c.deadline.isSome then 1 else 2
  let s1 := s.updCmd c.ref (fun c => { c with ius := updWhere (fun x => x.iu == q.iu) (fun x => { x with started := true }) c.ius })
  q.srcs.foldl (fun (s : State) x => match x with
    | .media a =>
      if s.map.fetches.any (fun f => f.addr == a && f.users.contains (.host c.ref q.iu)) then s
      else s.startFetch { id := 0, addr := a, kind := 0, nsid := c.nsid, iu := q.iu, cls, deadline := c.deadline
                          users := [.host c.ref q.iu], expect := .mapped a, chain }
    | .page n p =>
      if s.map.fetches.any (fun f => f.users.contains (.map n p)) then s
      else (match (s.mapPage n p).onMedium with
        | some a => s.startFetch { id := 0, addr := a, kind := 2, nsid := n, iu := p, cls, deadline := c.deadline, users := [.map n p] }
        | none => s)
    | _ => s) s1

/-- The IUs of a read that a segment covers. -/
def State.segIus (s : State) (c : Cmd) (g : Segment) (bs : Nat) : List RdIu :=
  c.ius.filter (fun q => (iuCover s.iuSectors (g.lo * bs) (g.n * bs)).any (fun e => e.1 == q.iu))

/-- Whether an IU needs anything from the medium. -/
def RdIu.fromMedia (q : RdIu) : Bool := q.srcs.any (fun x => match x with | .media _ | .page _ _ => true | _ => false)

/-- Asks for the cells of a read's segments in order, and starts the strokes of each that has them (R219). A segment
that nothing must be read for takes no cells (R31). -/
def State.askReads : Nat → Ref → State → State
  | 0, _, s => s
  | fuel + 1, ref, s =>
    match s.cmd ref with
    | none => s
    | some c =>
      match c.segs.find? (fun g => !g.started) with
      | none => s
      | some g =>
        let bs := s.cmdBs c
        let ius := s.segIus c g bs
        let start (s : State) (h : Option Nat) : State :=
          (ius.filter (fun q => !q.started)).foldl (fun (s : State) q => s.startIu c q h)
            (s.updCmd ref (fun c => c.updSeg g.lo (fun g => { g with started := true, asked := true, chain := h })))
        if !ius.any RdIu.fromMedia then (start s none).askReads fuel ref
        else if g.asked then s
        else if s.grantOk 1 (g.cells bs) s.ink.nextOrder then
          let (s1, h) := s.alloc 1 1 (g.cells bs)
          (start s1 (some h)).askReads fuel ref
        else
          (s.updCmd ref (fun c => c.updSeg g.lo (fun g => { g with asked := true }))).waitCells 1 1 (g.cells bs) (.hostRead ref g.lo)

/-- A read whose IUs took new sources (R253): they are read now; a segment that took no cells asks for them (R219). -/
def State.restartRead (s : State) (ref : Ref) : State :=
  match s.cmd ref with
  | none => s
  | some c =>
    let bs := s.cmdBs c
    let s1 := c.segs.foldl (fun (s : State) g =>
      let ius := (s.segIus c g bs).filter (fun q => !q.started && q.fromMedia)
      if !g.started || ius.isEmpty then s
      else match g.chain with
        | some h => ius.foldl (fun (s : State) q => s.startIu c q (some h)) s
        | none => s.updCmd ref (fun c => c.updSeg g.lo (fun g => { g with started := false, asked := false }))) s
    s1.askReads (c.segs.length + 1) ref

/-- Whether a read has an IU that must be read and does not run. -/
def Cmd.stalled (c : Cmd) : Bool :=
  (c.kind == .read || c.kind == .compare) && c.segs.any (fun g => g.started) && c.ius.any (fun q => !q.started && q.fromMedia)

/-- Starts again every read that took new sources. -/
def State.restartReads (s : State) : State := ((s.qe.cmds.filter Cmd.stalled).map (fun c => c.ref)).foldl State.restartRead s

/-! ## Errors -/

/-! ## Completion -/

/-- A record whose data is verified: its Blotter units join commit groups and its IU its write point's queue (R168,
R255, R259, R447). A fused write waits for its compare (R166). -/
def State.feedRec (s : State) (i : Nat) : State :=
  match s.recAt i with
  | none => s
  | some r =>
    let gated := s.qe.cmds.any (fun c => c.ref == r.ref && c.gate.isSome)
    if gated || r.queued || partsMask r.parts &&& r.verified != partsMask r.parts then s
    else
      let s1 := s.updRec i (fun r => { r with queued := true })
      let s2 := (s.recUnits r r.bypass).foldl State.joinGroup s1
      s2.feed r.wp { kind := 0, nsid := r.nsid, iu := r.iu, ink := r.ink, cls := r.cls, unc := r.unc, parts := r.parts, idx := some i
                     chain := r.chains.head? }

/-- Whether a stamped write that is not a bypass-only completion waits for nothing else (R169 to R171, R173, R174). -/
def State.cmdReady (s : State) (c : Cmd) : Bool :=
  match c.kind with
  | .write =>
    c.ink.isSome && c.left.isEmpty && c.gate.isNone && c.segs.all (fun g => g.chain.isSome && !g.twinDue) &&
      (s.recsDry c ||
        (s.protectedNow c.nsid && !c.fua &&
          s.wetDone + ((s.map.inflight.filter (fun r => some r.ink == c.ink && !r.dry)).map (fun r => 512 * r.wetSectors)).sum
            ≤ 1048576 * s.fld F.PWR_HU_EFF_PROT))
  | .deallocate | .writeZeroes | .writeUncorr => c.ink.isSome && !c.wet && c.left.isEmpty && s.recsDry c
  | .flush =>
    let mine (n : Nat) : Bool := c.nsid == 0xFFFFFFFF || n == c.nsid
    !s.map.inflight.any (fun r => mine r.nsid && r.ink < c.latch && !r.dry) &&
      !s.qe.cmds.any (fun x => mine x.nsid && x.wet && (x.ink.map (fun i => decide (i < c.latch))).getD false)
  | .read | .compare => !c.parked && c.left.isEmpty && !(ctrlOf c.ref).any s.hp.d3hot.contains

/-- The index from SLBA of the first block that is returned with EP set (R194). -/
def State.firstPoison (s : State) (c : Cmd) : Nat :=
  let bs := s.cmdBs c
  let bad (k : Nat) : Bool := (iuCover s.iuSectors ((c.slba + k) * bs) bs).any (fun e =>
    c.ius.any (fun q => q.iu == e.1 && q.poison &&& e.2 != 0))
  ((List.range c.n).find? bad).getD 0

/-- A read's data leaves for host memory (R125, R139): each page's translation is used, or asked for. Log entry 84 (DESIGN CHOICE). -/
def State.postData (s : State) (c : Cmd) (poison : Bool) : State :=
  match c.kind, ctrlOf c.ref with
  | .read, some fn =>
    let pages := if s.hp.ats.contains fn then ((s.pagesOf c.ref fn 0 (c.n * s.cmdBs c * 512)).filterMap id).eraseDups else []
    let port := s.portOf fn
    (pages.foldl (fun (s : State) g =>
      if (s.xlatOf port fn g).isSome then s.useXlat port fn g else s.emit (.translate port fn g)) s).emit (.hostData c.ref c.n poison)
  | _, _ => s

/-- What a read adds to the counts of log page 0x02 (R189): what it returns, and an unrecovered error. -/
def State.countRead (s : State) (c : Cmd) (st : Status) : State :=
  let n := s.qe.counts
  let sent := if c.kind = .read && st != .unrecoveredRead then c.n * s.cmdBs c else 0
  { s with qe := { s.qe with counts := { n with rdSectors := n.rdSectors + sent, rdCmds := n.rdCmds + 1, media := n.media + bit (st == .unrecoveredRead) } } }

/-- Completes a read (R29, R32, R100, R125, R194, R252): its data leaves before its completion. -/
def State.finishRead (s : State) (c : Cmd) : State :=
  let lost := c.ius.any (fun q => q.lost)
  let poison := c.ius.any (fun q => q.poison != 0)
  let st : Status := if lost then .unrecoveredRead else if c.kind = .compare && !c.same then .compareFailure
    else if poison then .poisonedData else .success
  let s := s.countRead c st
  let s1 := (((s.postData c (st == .poisonedData)).dropCmd c.ref).owe c).complete c.ref st (if st = .poisonedData then s.firstPoison c else 0)
  let s3 := (if st = .poisonedData && c.kind = .read then s1.post F.HP_EVT_STATUS_POISON_OUT noUnit else s1).readLeft c.ref
  match s3.qe.cmds.find? (fun x => x.gate == some c.ref) with
  | none => s3
  | some w =>
    if st = .success then w.records.foldl State.feedRec (s3.updCmd w.ref (fun w => { w with gate := none }))
    else s3.failWrite w.ref .failedFused

/-- Completes a write, a map change or a flush; a completed write's wet records carry DONE (R448). -/
def State.finishWrite (s : State) (c : Cmd) : State :=
  let dw0 := match c.kind with
    | .deallocate => c.ticket.getD 0
    | .flush => 0
    | _ => s.inkDw0 c.ref (c.ink.getD 0)
  let n := s.qe.counts
  let wr := bit (c.kind == .write)
  let s1 : State := { s with
    qe := { s.qe with
      cmds := s.qe.cmds.filter (fun x => x.ref != c.ref)
      counts := { n with wrSectors := n.wrSectors + wr * c.n * s.cmdBs c, wrCmds := n.wrCmds + wr } }
    map := { s.map with inflight := updWhere (fun r => some r.ink == c.ink) (fun r => { r with done := true }) s.map.inflight }
    stk := { s.stk with wrLat := if c.kind == .write then (s.now - c.latch) / 256 :: s.stk.wrLat else s.stk.wrLat } }
  s1.complete c.ref .success dw0

/-- Completes every command that waits for nothing more, in latch order, after the records that waited for their write have landed and the
reads that took new sources run again. -/
def State.settleCmds (s : State) : State :=
  let s := s.landPending.restartReads
  (s.qe.cmds.map (fun c => c.ref)).foldl (fun (s : State) ref =>
    match s.cmd ref with
    | some c => if s.cmdReady c then (if c.kind = .read || c.kind = .compare then s.finishRead c else s.finishWrite c) else s
    | none => s) s

/-- The segment that a block belongs to. -/
def Cmd.segOf (c : Cmd) (lba : Nat) : Option Segment :=
  if c.kind = .write || c.kind = .read || c.kind = .compare then c.segs.find? (fun g => g.lo ≤ lba && lba < g.lo + g.n)
  else c.segs.head?

/-- A block of a write has passed its lane's check (R206, R231, R253): its sectors are verified. When its segment is
whole, the packer joins the chain's holders and the host-write owner leaves (R217). -/
def State.verifyBlock (s : State) (c : Cmd) (lba : Nat) : State :=
  let bs := s.cmdBs c
  let s1 := s.updCmd c.ref (fun c => { c with left := c.left.erase lba, retry := c.retry.erase lba })
  let s2 := c.records.foldl (fun (s : State) i =>
    s.updRec i (fun r =>
      let m := ((iuCover s.iuSectors (lba * bs) bs).filter (fun e => e.1 == r.iu)).foldl (fun m e => m ||| e.2) 0
      { r with verified := r.verified ||| (m &&& partsMask r.parts) })) s1
  let s3 := match c.segOf lba with
    | some g =>
      let whole := match s2.cmd c.ref with
        | some c' => !c'.left.any (fun b => c.kind != CmdKind.write || (g.lo ≤ b && b < g.lo + g.n))
        | none => false
      (match whole, g.chain with
       | true, some h =>
          let blotter := (s2.segRecords c g bs).any (fun i => ((s2.recAt i).map InFlight.blotterLeft).getD false)
          let s2 := (if blotter then (s2.hold h 0 2 (.copy c.ref h)).1 else s2).release h 0
          (match g.twin with | some t => s2.release t 0 | none => s2)
       | _, _ => s2)
    | none => s2
  (((s3.segRecords c ((c.segOf lba).getD { lo := 0, n := 0 }) bs).foldl State.feedRec s3).pumpBlotter.runWritePoints).settleCmds

end Sys2Proof.Machine
end

