-- ==== Sys2Proof/Machine/Deliver.lean ====
section
/-! DEFINITION. What a unit's read gives (R28, R32, R251, R255, R326, R329 to R331, R341 to R343, R353): the next
attempt, the rebuild, and the delivery to everyone who waits for the unit. -/

namespace Sys2Proof.Machine

/-- A map page that cannot be rebuilt leads to SAFE with media read-only (R251). -/
def State.pageLost (s : State) (nsid page : Nat) : State :=
  let s1 := s.setMapPage { s.mapPage nsid page with crcOk := false }
  ((s1.postAs F.MAP_EVT_STATUS_CRC_ERR 28 .uncorrectable page).enterSafe 6 false).settle

/-- Ends a unit's read; a rebuild that still ran for it is abandoned with its peer reads (R330). -/
def State.dropFetch (s : State) (id : Nat) : State :=
  { s with map := { s.map with fetches := s.map.fetches.filter (fun f => f.id != id && f.users != [User.peer id]) } }

/-- Map pages allocated (R248, R249): those of every namespace, whole, and the snapshot pages. -/
def State.allocPages (s : State) : Nat :=
  ((s.qe.nss.filter (fun n => n.cut.isNone)).map (fun n => ceilDiv (ceilDiv (n.blocks * n.blkSectors) s.iuSectors) 816)).sum
    + s.map.snaps.length

/-- Map pages that the map region holds: the D5 SDRAM capacity less 16 GiB (R249). -/
def State.regionPages (s : State) : Nat := (s.map.d5Gib - 16) * 262144

/-- MAP_STATUS.CACHED (R249). -/
def State.cached (s : State) : Bool := s.regionPages < s.allocPages

/-- Least recently used replacement in cached mode (R249, R250): the page used longest ago leaves D5 SDRAM, after being
written back through write point 0 if it is dirty; a page that holds an IN_FLIGHT entry stays. -/
def State.evict (s : State) : State :=
  let held := s.map.pages.filter (fun p => p.resident)
  if !s.cached || held.length + s.map.snaps.length ≤ s.regionPages then s
  else
    let busy (p : MapPage) : Bool := (s.pageEntries p.nsid p.page).any (fun e => match e.2 with | .inFlight _ => true | _ => false)
    let free := held.filter (fun p => !busy p && p.crcOk && (p.dirty || p.onMedium.isSome))
    match free.foldl (fun (m : Option MapPage) p => match m with
        | some q => if p.used < q.used then some p else m
        | none => some p) none with
    | none => s
    | some p =>
      if !p.dirty then s.setMapPage { p with resident := false }
      else if (s.wp 0).queue.any (fun q => q.kind == 2 && q.nsid == p.nsid && q.iu == p.page && q.snap.isNone) then s
      else s.feed 0 { kind := 2, nsid := p.nsid, iu := p.page, ink := s.now }

/-- A map page has arrived (R250, R251): a page rebuilt after a CRC mismatch sets PAGE_REBUILT, and the reads that wait
for it go on. -/
def State.pageArrived (s : State) (nsid page : Nat) : State :=
  let old := s.mapPage nsid page
  let s0 := (s.setMapPage { old with resident := true, crcOk := true, used := s.now }).evict
  let s1 := if old.crcOk then s0 else s0.post F.MAP_EVT_STATUS_PAGE_REBUILT page
  let want (q : RdIu) : Bool := q.srcs.contains (.page nsid page)
  s1.qe.cmds.foldl (fun (s : State) c =>
    (c.ius.filter want).foldl (fun (s : State) q =>
      let q' : RdIu := { q with srcs := q.srcs.filter (fun x => x != .page nsid page) }
      let s2 := s.updCmd c.ref (fun c => { c with ius := updWhere (fun x => x.iu == q.iu) (fun _ => q') c.ius })
      if q.started then s2.startIu c q' (((c.segs.find? (fun g => g.chain.isSome)).bind (fun g => g.chain))) else s2) s) s1

/-- The place of a map page in the newest completed checkpoint (R251). -/
def State.ckCopy (s : State) (nsid page : Nat) : Option Nat :=
  s.ckpt.newest.bind (fun im => (im.pages.find? (fun p => p.nsid == nsid && p.page == page)).bind (fun p => p.onMedium))

/-- MAP_PAGE_REBUILD (R251): a map page whose CRC does not match, or with an uncorrectable word (R504 ID 27), is read again from its checkpoint
copy and brought up by replay; with no copy in the checkpoint it starts from UNMAPPED entries. Until then commands that touch it wait. -/
def State.pageBad (s : State) (nsid page : Nat) (src : Fld := F.MAP_EVT_STATUS_CRC_ERR) : State :=
  let s1 := (s.setMapPage { s.mapPage nsid page with crcOk := false, resident := false }).post src page
  match s1.ckCopy nsid page with
  | none => s1.pageArrived nsid page
  | some a => s1.startFetch { id := 0, addr := a, kind := 2, nsid, iu := page, cls := 2, users := [.map nsid page] }

/-- POISON and META of the cells that a read's unit goes into (R208). -/
def State.linkCells (s : State) (ref : Ref) (iu poison : Nat) (parts : List Part) : State :=
  match s.cmd ref with
  | none => s
  | some c =>
    let bs := s.cmdBs c
    c.segs.foldl (fun (s : State) g =>
      match g.chain with
      | none => s
      | some h =>
        let place (k : Nat) : Option Nat :=
          let sec := iu * s.iuSectors + k
          if g.lo * bs ≤ sec && sec < (g.lo + g.n) * bs then some (sec - g.lo * bs) else none
        let s1 := s.poisonCells h (((List.range s.iuSectors).filter (fun k => poison.testBit k)).filterMap place)
        (parts.flatMap (fun p => p.metas)).foldl (fun (s : State) m => match place m.1 with | some i => s.metaCell h i m.2 | none => s) s1) s

/-- Gives one user its unit (`lost`: no correction path succeeded). -/
def State.giveUser (f : Fetch) (lost : Bool) (s : State) (u : User) : State :=
  let m := (s.mediaAt f.addr).getD { addr := f.addr, nsid := f.nsid, iu := f.iu }
  let parts := if lost then m.parts.map (fun p => { p with poison := true }) else m.parts
  match u with
  | .host ref iu =>
    let marks := if lost then maskOf 0 s.iuSectors else (marksOf (maskOf 0 s.iuSectors) parts).1
    let s1 := s.linkCells ref iu marks parts
    s1.updCmd ref (fun c =>
      { c with ius := updWhere (fun q => q.iu == iu) (fun q =>
          let mk := marksOf q.need parts
          { q with srcs := q.srcs.map (fun x => if x == .media f.addr then .got else x)
                   poison := q.poison ||| mk.1 ||| (if lost then q.need else 0), lost := q.lost || mk.2 }) c.ius })
  | .merge i => s.updRec i (fun r =>
      { r with merged := true, base := overParts r.base (keepParts (maskOf 0 s.iuSectors - partsMask r.parts) parts) })
  | .move b wp => s.feed wp { kind := 0, nsid := f.nsid, iu := f.iu, ink := m.ink, cls := m.cls, unc := m.unc, pband := some m.pband, parts
                              expect := .mapped f.addr, src := some f.addr, ofBand := some b }
  | .map n p =>
    if !lost then s.pageArrived n p
    else
      match s.ckCopy n p with
      | some a => if a = f.addr then s.pageLost n p else s.pageBad n p
      | none => s.pageBad n p
  | .peer id => s.updFetch id (fun g => { g with
    peers := g.peers - 1, peerLost := g.peerLost || lost, badPeers := if lost then f.addr :: g.badPeers else g.badPeers })
  | .refold b w => { s with map := { s.map with
      stripes := updWhere (fun t => t.band == b && t.wl == w) (fun t => { t with refold := t.refold - 1 }) s.map.stripes } }
  | .scan l k =>
    let e := ((s.map.scans.find? (fun e => e.1 == l && e.2.1 == k)).map (fun e => e.2.2)).getD (0, false)
    let rest := s.map.scans.filter (fun e => !(e.1 == l && e.2.1 == k))
    if 1 < e.1 then { s with map := { s.map with scans := (l, k, e.1 - 1, e.2) :: rest } }
    else
      { s with map := { s.map with
        scans := rest
        reads := if e.2 then s.map.reads else s.map.reads.filter (fun e => e.1 != (l, k)) } }
  | .patrol | .check => s

/-- Gives a unit to all its users and ends its read. -/
def State.giveAll (s : State) (f : Fetch) (lost : Bool) : State :=
  ((f.users.foldl (State.giveUser f lost) s).dropFetch f.id).runWritePoints.settleCmds

/-- An attempt has decoded the unit (R331, R353): its program band goes into the summary, the events and the finding
follow, and the unit is delivered. -/
def State.fetchOk (s : State) (f : Fetch) (cbits pband : Nat) : State :=
  let first := f.step = 0
  let s1 := if f.step = 1 then s.post F.LIG_EVT_STATUS_SOFT (lunOf f.addr)
    else if 1 < f.step then s.post F.LIG_EVT_STATUS_RETRY (lunOf f.addr) else s
  let s2 := if f.kind = 5 then s1 else (match s1.bandAt f.addr with
    | some b => s1.updBand b.ix (fun b => b.setPband (lunOf f.addr) (s.wlOf f.addr) pband)
    | none => s1)
  let s3 := if f.kind = 5 then s2
    else if !first then s2.finding f.addr 3
    else if s2.fld F.LIG_PATROL_REFRESH_BITS < cbits then s2.finding f.addr 4 else s2
  let s4 : State := if first then
      { s3 with stk := { s3.stk with admitted := s3.stk.admitted.map (fun a =>
        let mine (g : Fetch) : Bool := g.users.any (fun u => match u with | .host r _ => r == a.ref | _ => false)
        if mine f && !s3.map.fetches.any (fun g => g.id != f.id && mine g && g.step == 0) then { a with rescue := false } else a) } }
    else s3
  s4.giveAll f false

/-- The ladder has no attempt left (R329, R342): a peer is lost to its rebuild, any other unit is rebuilt. -/
def State.ladderFail (s : State) (f : Fetch) : State :=
  let s1 := s.updFetch f.id (fun f => { f with ladder := false })
  if f.nested then s1.giveAll f true else s1.startRebuild f.id

/-- The result of one attempt (R326, R329, R330): a pass whose record is not the one expected goes straight to rebuild;
a failed decode goes on to the next attempt, an admitted read's rebuild starting after attempt 2; a stroke that made no
attempt is placed again unless the mode has abandoned the read; 0x08 ends the ladder. -/
def State.fetchResult (s : State) (id status cbits unsat : Nat) (mis : Bool) (pband : Nat) : State :=
  match s.fetchAt id with
  | none => s
  | some f =>
    let n := match s.attempt f with | some (.soft _) | some .softBest => 3 | _ => 1
    let s0 := if (status = 0 || status = 1) && f.kind != 5 then (s.countSense f.addr n).disturbCheck f.addr n else s
    if status = 0 then
      if mis && (f.kind != 6 && !f.nested) then
        ((s0.post F.LIG_EVT_STATUS_MISDIRECT (lunOf f.addr)).updFetch id (fun f => { f with ladder := false })).startRebuild id
      else s0.fetchOk f cbits pband
    else if status = 1 then
      let best := if unsat < f.best.1 then (unsat, f.step) else f.best
      let f' : Fetch := { f with step := f.step + 1, best }
      let s1 := s0.updFetch id (fun _ => f')
      let s2 := if f.deadline.isSome && f.step = 1 && !f.nested then
          (s1.startRebuild id).updFetch id (fun f => { f with early := true }) else s1
      match s2.attempt f', s2.fetchAt id with
      | some _, some g => s2.attemptStroke g
      | _, some g => s2.ladderFail g
      | _, none => s2
    else if status = 8 then s0.ladderFail f
    else if s0.mode = .holdUp || s0.mode = .off || (s0.mode = .safe && s0.fld F.EVU_SAFE_MEDIA = 2) then s0.dropFetch id
    else if !s0.lunServes (lunOf f.addr) then s0.ladderFail f
    else s0.attemptStroke f

/-- Whether a user of a unit is a move (R267). -/
def User.isMove : User → Bool
  | .move _ _ => true
  | _ => false

/-- What a unit's read is of: what the medium holds there, or what its lookup expects. -/
def State.target (s : State) (f : Fetch) : MediaIu :=
  ((s.unitAt f.addr).getD { addr := f.addr, kind := f.kind, nsid := f.nsid, iu := f.iu })

/-- Whether a unit is written again in the mode: not in BOOT, whose rebuilds are acted on after CSTS.RDY, nor in SAFE (R357). -/
def State.writesBack (s : State) : Bool := s.mode != .boot && s.mode != .safe && s.mode != .holdUp && s.mode != .off

/-- A unit that could not be read is written again through write point 4, poisoned, and keeps its ink time; where no attempt gave any
output its record has ink time 0 (R343). Log entry 92 (DEDUCED). -/
def State.writeLost (s : State) (m : MediaIu) (expect : MapEntry) (blank : Bool) : State :=
  let full := maskOf 0 s.iuSectors
  let at_ (ink : Nat) : Nat := if blank then 0 else ink
  let ps := m.parts.map (fun p => { p with poison := true, ink := at_ p.ink })
  let rest := full - (full &&& partsMask ps)
  let parts := ps ++ (if rest = 0 then [] else [{ mask := rest, ink := at_ m.ink, poison := true }])
  s.feed 4 { kind := 0, nsid := m.nsid, iu := m.iu, ink := at_ m.ink, cls := if blank then 0 else m.cls, unc := if blank then 0 else m.unc
             pband := some m.pband, parts, expect, src := some m.addr }

/-- A unit that no path can correct (R343): LOST is set; a unit of host data is returned poisoned and written again with
every POISON bit set, as are the peers that failed; a map page is handled as a CRC mismatch; a lost parity unit exposes its
band. -/
def State.unitLost (s : State) (f : Fetch) : State :=
  let s1 := s.post F.LIG_EVT_STATUS_LOST (lunOf f.addr)
  let m := s.target f
  let moving := f.users.any User.isMove
  let s2 := if m.kind = 0 && s.writesBack && !moving then
      s1.writeLost m (if f.kind = 0 && f.expect != .unmapped then f.expect else .mapped m.addr) (f.best.1 == 65536)
    else if m.kind = 2 && f.kind = 6 then
      (match s1.map.pages.find? (fun p => p.onMedium == some m.addr) with
       | some p => if p.resident then s1.setMapPage { p with dirty := true } else s1.pageBad p.nsid p.page
       | none => s1)
    else if m.kind = 4 then
      (match s1.bandAt f.addr with
       | some b => (s1.updBand b.ix (fun b => { b with unprot := s.wlOf f.addr :: b.unprot })).checkExposed b.ix
       | none => s1)
    else s1
  let s3 := if !s.writesBack then s2 else f.badPeers.foldl (fun (s : State) a =>
    match s.unitAt a with
    | some p => if p.kind = 0 then s.writeLost p (.mapped p.addr) false else s
    | none => s) s2
  s3.giveAll f true

/-- A rebuilt unit is written through write point 5, keeping its ink time, and takes effect only where the entry is still the one read before
the rebuild (R342, R288). -/
def State.writeRebuilt (s : State) (m : MediaIu) (expect : MapEntry) : State :=
  let q : Item := { kind := m.kind, nsid := m.nsid, iu := m.iu, ink := m.ink, cls := m.cls, unc := m.unc, pband := some m.pband, parts := m.parts
                    expect, src := some m.addr }
  if m.kind = 0 then s.feed 5 q
  else if m.kind = 2 then
    match s.map.pages.find? (fun p => p.onMedium == some m.addr) with
    | some p => s.feed 5 { q with nsid := p.nsid, iu := p.page }
    | none => s
  else s

/-- UNIT_REBUILD_DONE (R341 to R343, R353): with every peer read, the XOR gives the unit, or it is LOST. `ok` says that the
rebuilt record passes R326. A rebuilt unit that was not read around is written through write point 5 and is a
finding; a rebuild that fails while the ladder still runs leaves the read to the ladder (R330). -/
def execUnitRebuildDone (id : Nat) (ok : Bool) (s : State) : Res :=
  match s.fetchAt id with
  | none => .next s
  | some f =>
    if !f.rebuild || f.peers != 0 || f.nested then .next s
    else if f.peerLost || !ok then
      if f.ladder then .next (s.updFetch id (fun f => { f with rebuild := false })) else .next (s.unitLost f)
    else
      let s1 := s.post F.LIG_EVT_STATUS_REBUILT (lunOf f.addr)
      let m := s.target f
      let moving := f.users.any User.isMove
      let expect := if f.kind = 0 && f.expect != .unmapped then f.expect else .mapped m.addr
      let s2 := if f.around then s1
        else if s1.mode = .boot then
          { s1.countRebuild (lunOf f.addr) (s.blockOf f.addr) with map.deferred := s1.map.deferred ++ [(m.addr, 3, true)] }
        else
          let s2 := if s1.writesBack && !moving then s1.writeRebuilt m expect else s1
          (s2.countRebuild (lunOf f.addr) (s.blockOf f.addr)).finding f.addr 3
      .next (s2.giveAll f false)

end Sys2Proof.Machine
end

