-- ==== Sys2Proof/Machine/InkBanks.lean ====
section
/-! DEFINITION. SRAM banks and lost cells (R208, R225, R226, R228, R340). -/

namespace Sys2Proof.Machine

/-- A chain with some cells replaced: `to` gives each cell its place. -/
def Chain.moved (c : Chain) (dst : Nat → Nat) : Chain :=
  { c with head := dst c.head, cells := c.cells.map dst, poison := c.poison.map dst, metas := c.metas.map (fun e => (dst e.1, e.2)) }

/-- Names a chain by its new head cell, wherever it is named (R209, R225). -/
def State.rehead (s : State) (old new : Nat) : State :=
  let re (x : Nat) : Nat := if x = old then new else x
  let item (q : Item) : Item := { q with chain := q.chain.map re }
  let seg (g : Segment) : Segment := { g with chain := g.chain.map re, twin := g.twin.map re }
  { s with
    ink := { s.ink with
      osn := s.ink.osn.map (fun e => (e.1, e.2.1, re e.2.2)), holdWait := s.ink.holdWait.map (fun e => (re e.1, e.2))
      waiting := s.ink.waiting.map (fun w => match w.what with | .copy r h => { w with what := .copy r (re h) } | _ => w) }
    map := { s.map with
      inflight := s.map.inflight.map (fun r => { r with chains := r.chains.map re, twins := r.twins.map re })
      fetches := s.map.fetches.map (fun f => { f with chain := f.chain.map re })
      bands := s.map.bands.map (fun b => { b with fill := b.fill.map item })
      wordlines := s.map.wordlines.map (fun w => { w with items := w.items.map (fun e => (e.1, item e.2)) })
      wps := s.map.wps.map (fun w => { w with queue := w.queue.map item }) }
    stk := { s.stk with strokes := s.stk.strokes.map (fun k => { k with chain := k.chain.map re }) }
    blt := { s.blt with rows := s.blt.rows.map (fun r => { r with chain := r.chain.map re }) }
    qe := { s.qe with cmds := s.qe.cmds.map (fun k => { k with holds := k.holds.map re, segs := k.segs.map seg }) } }

/-- Moves one chain off a bank, where the other banks have the cells (R225). -/
def State.moveChain (s : State) (b : Nat) (c : Chain) : State :=
  let out := c.cells.filter (fun i => i / 8192 == b)
  let fresh := pickCells (fun x => s.bankServes x && x != b) (s.ink.chains.flatMap (fun c => c.cells)) (s.ink.used + out.length + 131072) 0 out.length
  if fresh.length < out.length then s
  else
    let dst (i : Nat) : Nat := if i / 8192 == b then fresh.getD (out.idxOf i) i else i
    ({ s with ink := { s.ink with chains := updWhere (fun x => x.head == c.head) (fun x => x.moved dst) s.ink.chains } }).rehead c.head (dst c.head)

/-- Every chain is moved off a bank (R225): its cells there take other free cells, and its header keeps its other
fields. A chain that the other banks have no room for stays, and the audit finds it. Log entry 88 (DESIGN CHOICE). -/
def State.moveOff (s : State) (b : Nat) : State :=
  (s.ink.chains.filter (fun c => c.cells.any (fun i => i / 8192 == b))).foldl (fun (s : State) c => s.moveChain b c) s

/-- ACCUMULATOR_REFOLD (R340): every open stripe is folded again; units still in cells are taken from there, the rest is
read from the medium as class 3 strokes, and the parity waits for them. -/
def State.refold (s : State) : State :=
  let s1 := s.post F.LIG_EVT_STATUS_ACC_UE noUnit
  s1.map.stripes.foldl (fun (s : State) t =>
    match s.band t.band with
    | none => s
    | some b =>
      let reads := (t.units.map (fun e => e.1)).filter (fun a => !s.wlInCells b t.wl (lunOf a))
      let s2 : State := { s with map := { s.map with
        stripes := updWhere (fun x => x.band == t.band && x.wl == t.wl) (fun x => { x with refold := reads.length }) s.map.stripes } }
      reads.foldl (fun (s : State) a => s.startFetch { id := 0, addr := a, kind := 6, cls := 3, users := [.refold t.band t.wl] }) s2) s1

/-- Completed wet writes whose chain is lost take their twin, and the new twin is made in the lost chain's place (R228). Log entry 101 (DEDUCED). -/
def State.useTwins (s : State) (head : Nat) : State :=
  { s with map := { s.map with
    inflight := updWhere (fun r => r.done && r.chains.contains head && !r.twins.isEmpty) (fun r => { r with chains := r.twins, twins := r.chains }) s.map.inflight } }

/-- What happens to the work of a chain whose data is lost (R228): a write that is not completed fetches its data again,
with its ink time unchanged; a completed one takes it from the Blotter copy or from its twin; a read that has not been
sent is read again, as of its latch. -/
def State.cellLost (s : State) (head : Nat) : State :=
  (s.useTwins head).qe.cmds.foldl (fun (s : State) c =>
    match c.segs.find? (fun g => g.chain == some head) with
    | none => s
    | some g =>
      if c.kind = .write then
        let bs := s.cmdBs c
        let again := (List.range g.n).map (· + g.lo)
        let recs := s.segRecords c g bs
        let s1 := recs.foldl (fun (s : State) i => s.updRec i (fun r =>
          if r.done || r.queued then r else { r with verified := 0 })) s
        if recs.any (fun i => ((s.recAt i).map (fun r => r.queued)).getD false) then s1
        else
          let s2 := s1.updCmd c.ref (fun c => { (c.updSeg g.lo (fun g => { g with fetched := false })) with
            left := c.left.filter (fun b => !again.contains b) ++ again })
          match ctrlOf c.ref with
          | some fn =>
            if !g.fetched then s2 else s2.readHost fn (.data c.ref g.lo) [] (s2.pagesOf c.ref fn ((g.lo - c.slba) * bs * 512) (g.n * bs * 512))
          | none => s2
      else if c.kind = .read || c.kind = .compare then
        let bs := s.cmdBs c
        let lostIus := (s.segIus c g bs).filter (fun q => q.srcs.contains .got)
        lostIus.foldl (fun (s : State) q =>
          let q' : RdIu := { q with srcs := q.orig, started := false }
          match s.cmd c.ref with
          | some c' => (s.updCmd c.ref (fun c => { c with ius := updWhere (fun x => x.iu == q.iu) (fun _ => q') c.ius })).startIu c' q' g.chain
          | none => s) s
      else s) (s.useTwins head)

/-- Masks an SRAM bank (R225, R226): an Inkwell bank leaves the pool; a bank in another role, or one that has replaced it, is replaced by the
highest-numbered bank that serves the Inkwell. Fewer than two Inkwell banks lead to SAFE with media halted. -/
def State.maskBank (s : State) (b : Nat) : State :=
  let healthy := s.fld F.INK_BANKS_HEALTHY
  if !healthy.testBit b then s
  else
    let ink := s.fld F.INK_BANKS_INKWELL
    let role := !ink.testBit b
    let s1 := (s.setFld F.INK_BANKS_HEALTHY (healthy - 2 ^ b)).post F.INK_EVT_STATUS_BANK_MASK b
    let out := if role then ((List.range 16).reverse.find? (fun i => ink.testBit i)) else some b
    match out with
    | none => (s1.enterSafe 3 true).settle
    | some x =>
      let s2 := s1.setFld F.INK_BANKS_INKWELL (ink - 2 ^ x)
      let first := ((s2.ink.replaced.find? (fun e => e.2 == b)).map (fun e => e.1)).getD b
      let s3 : State := if role then { s2 with ink := { s2.ink with replaced := (first, x) :: s2.ink.replaced.filter (fun e => e.1 != first) } } else s2
      let accBank (r : Nat) : Bool := 12 ≤ r && r ≤ 13
      let lost := if role then [] else (s3.ink.chains.filter (fun c => c.cells.any (fun i => i / 8192 == b))).map (fun c => c.head)
      let s4 := (lost.foldl State.cellLost s3).moveOff x
      let s5 := if role && accBank first then s4.refold else s4
      (if popcount 16 (s5.fld F.INK_BANKS_INKWELL) < 2 then s5.enterSafe 3 true else s5).settle

/-- An uncorrectable word is read in a cell (R208, R225, R228): CELL_UE, the chain's data is taken again from its source,
and the bank's second one within 24 h masks the bank. -/
def State.cellUe (s : State) (cell : Nat) : State :=
  let b := cell / 8192
  let second := s.ink.bankUe.any (fun e => e.1 == b && s.now < e.2 + dayT)
  let s1 : State := { s with ink := { s.ink with bankUe := (b, s.now) :: s.ink.bankUe.filter (fun e => e.1 != b) } }
  let s2 := s1.post F.INK_EVT_STATUS_CELL_UE b
  let s3 := match s2.ink.chains.find? (fun c => c.cells.contains cell) with
    | some c => s2.cellLost c.head
    | none => s2
  if second then s3.maskBank b else s3

/-- What the cells of a transfer carried (R208, R225): a corrected error is written back, counted and reported, an uncorrectable word takes
R225's and R228's course, a bank-level failure masks its bank. -/
def State.cellErr (s : State) (e : CellErr) : State :=
  match e with
  | .ok => s
  | .ce c => s.post F.INK_EVT_STATUS_CELL_CE (c / 8192)
  | .ue c => s.cellUe c
  | .bank b => s.maskBank b

end Sys2Proof.Machine
end

