-- ==== Sys2Proof/Machine/NibOps.lean ====
section
/-! DEFINITION. A Nib's own operations (R365 to R393, R414 to R417): accepted strokes and their ends, write protection,
resets, unresponsive LUNs, masking, machine checks, and the read bands. -/

namespace Sys2Proof.Machine

/-- An accepted stroke of a Nib by its SEQ. -/
def State.runAt (s : State) (n seq : Nat) : Option Run := s.nib.runs.find? (fun r => r.nib == n && r.seq == seq)

/-- Changes one accepted stroke. -/
def State.updRun (s : State) (n seq : Nat) (f : Run → Run) : State :=
  { s with nib := { s.nib with runs := updWhere (fun r => r.nib == n && r.seq == seq) f s.nib.runs } }

/-- A stroke by its request number. -/
def State.strokeOf (s : State) (req : Nat) : Option Stroke := s.stk.strokes.find? (fun k => k.req == req)

/-- Changes one LUN. -/
def State.updLun (s : State) (l : Nat) (f : Lun → Lun) : State :=
  { s with nib := { s.nib with luns := updWhere (fun x => x.lun == l) f s.nib.luns } }

/-- Changes one stroke. -/
def State.updStroke (s : State) (req : Nat) (f : Stroke → Stroke) : State :=
  { s with stk := { s.stk with strokes := updWhere (fun k => k.req == req) f s.stk.strokes } }

/-- The present LUNs of a channel. -/
def State.lunsOf (s : State) (n : Nat) : List Lun := s.nib.luns.filter (fun x => chanOf x.lun == n && x.state != .notPresent)

/-- Whether NFn_WP_N is driven low (R388, R391, R394). -/
def State.wpLow (s : State) (n : Nat) : Bool :=
  s.flag (F.NIB_CTRL_WP_FORCE n) || s.nibMasked n ||
    match s.mode with
    | .off | .doze => true
    | .safe => s.blt.dumping != 2
    | .holdUp => s.blt.dumping == 0 || s.blt.dumpStop
    | _ => false

/-- The chip enable of a target (R361): with CE_MODE 0 targets 4 to 7 lie on CE1_N. -/
def ceOf (mode t : Nat) : Nat := if mode = 0 then t / 4 else 0

/-- The volume address of a target (R361). -/
def volOf (mode t : Nat) : Nat := if mode = 0 then t % 4 else t

/-- The chip enable that a Nib drives low (R372, R388, R394): none where it is masked, unpowered, in DOZE or halted. -/
def State.ceLow (s : State) (n : Nat) : Option Nat :=
  if s.nibMasked n || s.mode = .off || s.mode = .doze || (s.mode = .safe && s.fld F.EVU_SAFE_MEDIA = 2) then none else s.nib.ce.lookup n

/-- The NAND row address (R373): ROW with the LUN put in at its position. -/
def State.nandRow (s : State) (k : Stroke) : Nat := k.row % 2 ^ s.nib.lunBit + k.lun % 8 * 2 ^ s.nib.lunBit

/-- The BUSY of a run in 1/256 ns at an instant (R374, R382). -/
def Run.busyAt (r : Run) (now : Nat) : Nat :=
  if r.launched then (if r.ready then r.readyAt else now) - r.edge - r.susTime - (match r.susAt with | some t => now - t | none => 0) else 0

/-- The status read of a Blotter page's program reports pass (R21, R24): what the page holds is dry from that instant on. -/
def State.dryAtNib (s : State) (req : Nat) : State :=
  match (s.strokeOf req).map (fun (k : Stroke) => k.purpose) with
  | some (.blotter g) =>
    match s.blt.pages.find? (fun p => p.group == g && p.phase == .programming) with
    | some p => p.units.foldl State.dryUnit s
    | none => s
  | _ => s

/-- The 32-byte completion descriptor (R374), little-endian: offset, width and value of each field; bytes 31:28 are 0. -/
def Comp.descriptor (c : Comp) : List (Nat × Nat × Nat) :=
  [(0, 4, c.seq % 2 ^ 32), (4, 4, c.tag % 2 ^ 32), (8, 1, c.status), (9, 1, c.sr % 256), (10, 1, c.rband % 8 + 8 * bit c.excl + 16 * bit c.reset),
   (11, 1, (c.ofs % 256).toNat), (12, 4, c.busy), (16, 2, min 65535 c.cbits), (18, 2, c.unsat), (20, 4, c.done), (24, 4, c.result % 2 ^ 32), (28, 4, 0)]

/-- A stroke ends at the Nib: its completion descriptor is written (R374, R375) and its context is freed (R400). -/
def State.endRun (s : State) (r : Run) (status result : Nat) : State :=
  let c : Comp := { nib := r.nib, seq := r.seq, req := r.req, tag := ((s.strokeOf r.req).map (fun (k : Stroke) => k.tag)).getD 0, status, sr := r.sr, rband := r.rband, excl := r.excl
                    reset := r.reset, ofs := r.ofs, busy := min (2 ^ 32 - 1) (r.busyAt (s.nowAt (islNib r.nib)) / 256), cbits := r.cbits
                    unsat := min 65535 r.unsat, done := s.nowAt (islNib r.nib) / 256 % 2 ^ 32, result, launched := r.launched, mis := r.mis
                    pband := r.pband }
  let s1 : State := { s with nib := { s.nib with
    runs := s.nib.runs.filter (fun x => !(x.nib == r.nib && x.seq == r.seq))
    ctxs := s.nib.ctxs.filter (fun x => x.req != r.req)
    comps := s.nib.comps ++ [{ c with desc := c.descriptor }] } }
  if status = 0 then s1.dryAtNib r.req else s1

/-- Ends every accepted stroke that a test picks with one status. -/
def State.endRuns (s : State) (p : Run → Bool) (status : Nat) : State :=
  (s.nib.runs.filter p).foldl (fun (s : State) r => s.endRun r status 0) s

/-- Passes control to the abandon routine (R410): the stroke ends with 0x0C. -/
def State.abandon (s : State) (x : QCtx) : State := s.endRuns (fun r => r.nib == x.nib && r.req == x.req) 0x0C

/-- The target of a LUN on its channel. -/
def targetOf (lun : Nat) : Nat := lun / 8 % 8

/-- Whether a Nib speaks the Toggle protocol (R363). -/
def State.toggle (s : State) (n : Nat) : Bool := s.flag (F.NIB_STATUS_PROTO_ACTIVE n)

/-- Resets a LUN under ONFI or its whole target under Toggle (R385): the LUNs reset are waited for, their program trims are due again, and under Toggle every
other stroke that runs on the target ends with 0x0C. -/
def State.resetLun (s : State) (l keepReq : Nat) : State :=
  let n := chanOf l
  let hit (x : Nat) : Bool := x == l || (s.toggle n && chanOf x == n && targetOf x == targetOf l)
  let s1 : State := { s with nib := { s.nib with
    luns := updWhere (fun x => hit x.lun && (x.state == .idle || x.state == .resetting))
      (fun x => { x with state := .resetting, resetAt := s.now, pgmBand := none }) s.nib.luns
    runs := updWhere (fun r => hit r.lun && r.launched) (fun r => { r with reset := true }) s.nib.runs } }
  s1.endRuns (fun r => hit r.lun && r.launched && r.req != keepReq) 0x0C

/-- Masks a Nib (R388): every stroke in its ring ends with 0x0C, its contexts go, its LUNs are retired, and the mode
follows. -/
def State.maskNib (s : State) (n : Nat) : State :=
  if s.nibMasked n then s
  else
    let s1 := (s.post (F.NIB_EVT_STATUS_NIB_MASK n) n).setFld (F.NIB_STATUS_STATE n) 4
    let s2 := s1.endRuns (fun r => r.nib == n) 0x0C
    let s3 : State := { s2 with nib := { s2.nib with ctxs := s2.nib.ctxs.filter (fun x => x.nib != n) } }
    s3.retireChannel n

/-- LUN_UNRESPONSIVE (R386, R388): every accepted stroke on the LUN ends with 0x08 and the LUN is retired; when every
present LUN of the channel has become so within 1 ms, the Nib raises BUS_FAULT and is masked. -/
def State.unresponsive (s : State) (l : Nat) : State :=
  let n := chanOf l
  let s1 := (s.updLun l (fun x => { x with state := .unresponsive, unrespAt := some s.now })).post (F.NIB_EVT_STATUS_UNRESPONSIVE n) l
  let s2 := (s1.endRuns (fun r => r.lun == l) 0x08).retireLun l
  let all := (s2.lunsOf n).all (fun x => match x.unrespAt with | some t => decide (s.now ≤ t + msT) | none => false)
  if all then (s2.post (F.NIB_EVT_STATUS_BUS_FAULT n) n).maskNib n else s2

/-- A Nib's image (R421). -/
def State.imageOf (s : State) (n : Nat) : Scriptorium := (s.nib.golden.lookup n).getD {}

/-- Machine checks of a Nib in the last hour (R417). -/
def State.mchksInHour (s : State) (n : Nat) : Nat :=
  (s.nib.mchkAt.filter (fun e => e.1 == n && s.now ≤ e.2 + 3600 * secT)).length

/-- A Quill's machine check (R414, R415, R417): the cause, context and address are recorded; the Nib restarts, its running
strokes ending with 0x0F, its accepted ones with 0x0C, and its busy LUNs reset; the third check within 1 h masks it. -/
def State.machineCheck (s : State) (n cause ctx pc : Nat) : State :=
  let s1 := (((s.setFld (F.NIB_Q_MCHK_CAUSE n) cause).setFld (F.NIB_Q_MCHK_CTX n) ctx).setFld (F.NIB_Q_MCHK_PC n) pc).bumpFld
    (F.NIB_Q_STATUS_RESTARTS n)
  let s2 : State := { s1 with nib := { s1.nib with mchkAt := (n, s.now) :: s1.nib.mchkAt } }
  let k := s2.mchksInHour n
  let s3 := (s2.setFld (F.NIB_Q_STATUS_IN_HOUR n) (min 3 k)).post (F.NIB_Q_EVT_STATUS_MCHK n) n
  if 3 ≤ k then s3.maskNib n
  else
    let started (r : Run) : Bool := r.launched || s3.nib.ctxs.any (fun x => x.req == r.req)
    let busy := (s3.nib.runs.filter (fun r => r.nib == n && r.launched)).map (fun r => r.lun)
    let s4 := (s3.endRuns (fun r => r.nib == n && started r) 0x0F).endRuns (fun r => r.nib == n) 0x0C
    let hit (x : Nat) : Bool := busy.any (fun l => x == l || (s4.toggle n && chanOf x == n && targetOf x == targetOf l))
    let s5 : State := { s4 with nib := { s4.nib with
      luns := updWhere (fun x => hit x.lun && x.state == .idle) (fun x => { x with state := .resetting, resetAt := s4.now, pgmBand := none }) s4.nib.luns
      ctxs := s4.nib.ctxs.filter (fun x => x.nib != n), ce := s4.nib.ce.filter (fun e => e.1 != n), busTo := s4.nib.busTo.filter (fun e => e.1 != n)
      scribed := s4.nib.scribed.filter (fun e => e.1.1 != n) } }
    s5.setFld (F.NIB_STATUS_STATE n) 5

/-- The band that a NAND case temperature lies in (R606). -/
def tempBand (t : Int) : Nat :=
  if t < 0 then 0 else if t < 25 then 1 else if t < 45 then 2 else if t < 65 then 3 else if t < 85 then 4 else 5

/-- The lower bound of a band (R606). -/
def bandFloor (b : Nat) : Int := match b with | 0 => -1000 | 1 => 0 | 2 => 25 | 3 => 45 | 4 => 65 | _ => 85

/-- A byte as a signed number. -/
def signed8 (v : Nat) : Int := if v % 256 < 128 then (v % 256 : Nat) else ((v % 256 : Nat) : Int) - 256

/-- Marks a Nib's read DQ training as due (R381). -/
def State.trainDue (s : State) (n : Nat) : State :=
  if s.nib.train.contains n then s else { s with nib := { s.nib with train := s.nib.train ++ [n] } }

/-- Sets a LUN's read band (R379, R381): a change asks for retraining when ON_BAND is 1. -/
def State.setBand (s : State) (l b : Nat) : State :=
  let n := chanOf l
  if (s.lun l).rband = b then s
  else
    let s1 := s.updLun l (fun x => { x with rband := b })
    if s1.flag (F.NIB_TRAIN_ON_BAND n) then s1.trainDue n else s1

/-- READ_BAND_CHANGE (R378, R379): a valid reading moves the read band up at once, and down only from HYST °C below the
present band's lower bound; an invalid one is discarded. -/
def State.tempReading (s : State) (l p1 : Nat) : State :=
  let n := chanOf l
  let t : Int := (p1 % 256 : Nat) + signed8 (s.fld (F.NIB_TEMP_OFS n))
  if t < -40 || 125 < t then s
  else
    let x := s.lun l
    let b := tempBand t
    let low : Bool := t ≤ bandFloor x.rband - (s.fld (F.NIB_TEMP_HYST n) : Nat)
    let nb := if x.rband < b then b else if b < x.rband && low then b else x.rband
    (s.updLun l (fun x => { x with temp := t, tempValid := true, tempAt := s.now })).setBand l nb

/-- Whether the mode forbids a stroke at its due line (R371). -/
def State.modeForbids (s : State) (k : Stroke) : Bool :=
  match s.mode with
  | .holdUp => k.cls != 0 || k.op == .script
  | .safe => !s.placeAllowed k
  | .off | .doze => true
  | _ => false

/-- The result of a passed erase (R392): the counter that the Nib has cached, counted on, or 0xFFFF_FFFF. -/
def State.eraseCounter (s : State) (l block : Nat) : Nat × State :=
  match s.nib.ecache.lookup (l, block) with
  | some c =>
    let v := min 0x0FFFFFFF (c + 1)
    (v, { s with nib := { s.nib with ecache := ((l, block), v) :: s.nib.ecache.filter (fun e => e.1 != (l, block)) } })
  | none => (0xFFFFFFFF, s)

/-- The block that an erase's stroke is about. -/
def State.eraseBlockOf (s : State) (k : Stroke) : Nat :=
  match k.purpose with
  | .eraseBand ix => ((s.band ix).map (fun b => b.block)).getD 0
  | .eraseSlot _ sl => ((s.blt.blocks.find? (fun b => b.1 == k.lun && b.2.1 == sl)).map (fun b => b.2.2)).getD 0
  | .eraseBlock b => b
  | _ => 0

/-- A finished erase's completion (R375, R392). -/
def State.endErase (s : State) (r : Run) (k : Stroke) (fail : Bool) : State :=
  if fail then s.endRun r 0x03 0
  else
    let (v, s1) := s.eraseCounter k.lun (s.eraseBlockOf k)
    s1.endRun r 0x00 v

/-- The codewords of a read: one for each 4 KiB of its length (R322). -/
def Stroke.codewords (k : Stroke) : Nat := max 1 (k.len / 8)

/-- Whether the program trims are written before a program (R380). -/
def State.trimsDue (s : State) (k : Stroke) : Bool :=
  let x := s.lun k.lun
  s.fld (F.NIB_PGM_CFG_PTRIM_FADDR (chanOf k.lun)) != 0 && x.pgmBand != some x.rband

/-- A plain stroke's end when its LUN reports ready (R375, R377, R382). -/
def State.readyEnd (s : State) (r : Run) (k : Stroke) : State :=
  let fail := r.sr.testBit 0
  match k.op with
  | .program => s.endRun r (if fail then 0x02 else 0x00) 0
  | .erase => s.endErase r k fail
  | .status => s.endRun r 0x00 0
  | .suspend =>
    let n := r.nib
    if r.sr.testBit (s.fld (F.NIB_SUSP_CMD_SBIT n)) then s.endRun r 0x09 0
    else
      let s1 := s.endRun r 0x0A 0
      match k.parent.bind s.strokeOf with
      | none => s1
      | some o =>
        match s1.nib.runs.find? (fun x => x.req == o.req) with
        | none => s1
        | some x =>
          let x' : Run := { x with sr := r.sr, ready := true, readyAt := s.nowAt (islNib x.nib) }
          if o.op == .erase then s1.endErase x' o fail else s1.endRun x' (if fail then 0x02 else 0x00) 0
  | _ => s

end Sys2Proof.Machine
end

