-- ==== Sys2Proof/Machine/QuillOps.lean ====
section
/-! DEFINITION. How a Quill's context executes words (R398 to R412, R418, R419): fetch two words ahead, the conditions,
the ALU, the checks that raise a machine check, and the return from a service. -/

namespace Sys2Proof.Machine

/-- A context. -/
def State.ctxAt (s : State) (n c : Nat) : Option QCtx := s.nib.ctxs.find? (fun x => x.nib == n && x.ctx == c)

/-- Stores a context. -/
def State.setCtx (s : State) (x : QCtx) : State :=
  { s with nib := { s.nib with ctxs := updWhere (fun y => y.nib == x.nib && y.ctx == x.ctx) (fun _ => x) s.nib.ctxs } }

/-- A microword of the running store (R398, R412, R421): a Scriptorium word is the image's, 0 where it fills none, with
SCRIBE's changes; Torvelle's words are not exposed and no context executes them one by one. -/
def State.micro (s : State) (n a : Nat) : Nat :=
  match s.nib.scribed.lookup (n, a) with
  | some w => w
  | none => if 0x1800 ≤ a then (s.imageOf n).micro.getD (a - 0x1800) 0 else 0

/-- A nanoword of the running store. -/
def State.nano (s : State) (n a : Nat) : Nat := if 0x600 ≤ a then (s.imageOf n).nano.getD (a - 0x600) 0 else 0

/-- The fields of a microword (R402). -/
def mNano (w : Nat) : Nat := bitsOf w 0 11
def mMop (w : Nat) : Nat := bitsOf w 11 4
def mCond (w : Nat) : Nat := bitsOf w 15 4
def mTgt (w : Nat) : Nat := bitsOf w 19 13

/-- Whether an address lies in the Scriptorium region. -/
def inScr (a : Nat) : Bool := 0x1800 ≤ a && a ≤ 0x1FFF

/-- A condition in a context (R404). -/
def State.cond (s : State) (x : QCtx) (c : Nat) : Bool :=
  match c with
  | 0x0 => true
  | 0x1 => x.st.testBit 6
  | 0x2 => x.st.testBit 0
  | 0x3 => x.st.testBit (s.fld (F.NIB_SUSP_CMD_SBIT x.nib))
  | 0x4 => (s.nib.rbHigh.lookup x.nib).getD true
  | 0x5 => x.zero
  | 0x6 => x.carry
  | 0x7 => !x.tmRun
  | 0x8 => !x.xbusy
  | 0x9 => x.decoding == 0
  | 0xA => x.dpass
  | 0xB => x.f0
  | 0xC => x.f1
  | 0xD => x.susReq
  | 0xE => x.abort
  | _ => x.slc

/-- The even-parity bit over the low `n` bits of a word (R399). -/
def evenParity (n w : Nat) : Bool := ((List.range n).filter (fun i => w.testBit i)).length % 2 == 1

/-- The parity bits stored beside a microword and a nanoword (R399): one over 32 bits; one over bits 47:0 and one over bits 95:48. -/
def storedParity (w v : Nat) : Bool × Bool × Bool := (evenParity 32 w, evenParity 48 v, evenParity 48 (v / 2 ^ 48))

/-- The parity bits that a fetch finds: those stored, one of them flipped where `par` names an error. -/
def foundParity (w v : Nat) (par : Par) : Bool × Bool × Bool :=
  let p := storedParity w v
  match par with
  | .ok => p
  | .micro => (!p.1, p.2)
  | .nano => (p.1, !p.2.1, p.2.2)

/-- The cause of the parity check of a fetch (R413, R414): 1 for the microword, 2 for the nanoword. -/
def parityCause (w v : Nat) (par : Par) : Option Nat :=
  let p := foundParity w v par
  if p.1 != evenParity 32 w then some 1
  else if p.2 != (evenParity 48 v, evenParity 48 (v / 2 ^ 48)) then some 2 else none

/-- The fetch of one word (R409, R411, R413): its successor is decided now; a CALL pushes and a RET pops the return stack
now. Answers the cause of a machine check instead: 1 or 2 for a parity error, 5 for the stack. -/
def State.fetchWord (s : State) (x : QCtx) (a : Nat) (par : Par) : Except Nat (QCtx × Fetched) :=
  let w := s.micro x.nib a
  let nx := (a + 1) % 2 ^ 13
  let f (succ : Option Nat) : Fetched := ⟨a, w, s.nano x.nib (mNano w), succ⟩
  match parityCause w (s.nano x.nib (mNano w)) par with
  | some e => .error e
  | none =>
    match mMop w with
    | 0x1 => .ok (x, f (some (mTgt w)))
    | 0x2 => .ok (x, f (some (if s.cond x (mCond w) then mTgt w else nx)))
    | 0x3 => .ok (x, f (some (if s.cond x (mCond w) then nx else mTgt w)))
    | 0x4 =>
      if 4 ≤ x.stack.length then .error 5
      else .ok ({ x with stack := nx :: x.stack }, f (if inScr (mTgt w) then some (mTgt w) else none))
    | 0x5 =>
      match x.stack with
      | [] => .error 5
      | t :: ts => .ok ({ x with stack := ts }, f (some t))
    | 0x6 => .ok (x, f (some (if (x.lc + 8191) % 8192 = 0 then nx else mTgt w)))
    | 0xB => .ok (x, f none)
    | _ => .ok (x, f (some nx))

/-- Fetches behind the queue until it holds three words or no successor in the region is known (R409, R411). -/
def State.fillQueue (s : State) : Nat → QCtx → Option Nat → Par → Except (Nat × Nat) QCtx
  | 0, x, _, _ => .ok x
  | fuel + 1, x, start, par =>
    let next := match x.queue.getLast? with | some f => f.succ | none => start
    match next with
    | none => .ok x
    | some a =>
      if 3 ≤ x.queue.length || !inScr a then .ok x
      else
        match s.fetchWord x a par with
        | .error e => .error (e, a)
        | .ok (y, f) => s.fillQueue fuel { y with queue := y.queue ++ [f] } start .ok

/-- Stores a context whose queue has been filled, or takes the machine check. -/
def State.stored (s : State) (x : QCtx) (r : Except (Nat × Nat) QCtx) : State :=
  match r with
  | .ok y => s.setCtx y
  | .error (e, a) => s.machineCheck x.nib e x.ctx a

/-- A context goes on behind its head word, fetching one more (R409). -/
def State.advance (s : State) (x : QCtx) (par : Par) : State :=
  let last := x.queue.head?.bind (fun f => f.succ)
  let y : QCtx := { x with queue := x.queue.drop 1, hold := .run }
  s.stored x (s.fillQueue 3 y last par)

/-- A service returns to the word after its CALL (R419). It keeps S0 to S3, LC, F0 and F1; what it leaves in S4 to S7, TM, ZERO, CARRY and,
but for SVC_POLL's status byte, ST is free. Log entry 9 (DESIGN CHOICE). -/
def State.serviceReturn (s : State) (x : QCtx) (st : Option Nat) : State :=
  let w (i : Nat) : Nat := Config.freeWord (s.freeCtr + i)
  match x.stack with
  | [] => s.machineCheck x.nib 5 x.ctx ((x.queue.head?.map (fun f => f.addr)).getD 0)
  | t :: ts =>
    let y : QCtx := { x with
      stack := ts, queue := [], hold := .run, s := x.s.take 4 ++ (List.range 4).map (fun i => w i % 2 ^ 32)
      st := st.getD (w 4 % 256), zero := (w 5).testBit 0, carry := (w 6).testBit 0
      tm := s.nowAt (islNib x.nib) + w 7 % 4194241 * nsT, tmRun := (w 8).testBit 0 }
    let s1 : State := { s with freeCtr := s.freeCtr + 9 }
    if inScr t then s1.stored x (s1.fillQueue 3 y (some t) .ok) else s1.machineCheck x.nib 4 x.ctx t

/-- The microwords of the Scriptorium that R414 and R418 refuse, by the cause they raise: reserved codes, SCRIBE and DONE
out of bounds, a nanoword or a successor outside what Scriptorium code may use. -/
def State.badWord (s : State) (x : QCtx) (f : Fetched) : Option Nat :=
  let w := f.micro
  let v := f.nano
  let mop := mMop w
  let bus := bitsOf v 8 3
  let bsrc := bitsOf v 11 3
  let byteOut := 1 ≤ bus && bus ≤ 3
  if mNano w < 0x600 then some 4
  else if 0xC ≤ mop || 11 ≤ bitsOf v 17 4 || (byteOut && 6 ≤ bsrc) || (bus == 7 && 2 ≤ bitsOf v 67 3) then some 3
  else
    match mop with
    | 0x4 => if mTgt w ≤ 3 || inScr (mTgt w) then none else some 4
    | 0x9 => if mTgt w = 0 then some 3 else none
    | 0xA =>
      if 2 ≤ mCond w || !s.flag (F.NIB_Q_CTRL_SCRIBE_EN x.nib) then some 3
      else if inScr (if mCond w = 0 then mTgt w else x.s.getD 1 0 % 2 ^ 13) then none else some 4
    | 0xB => if 3 < bitsOf v 54 4 then some 3 else none
    | _ => match f.succ with | some a => if inScr a then none else some 4 | none => none

/-- The BUS code of a fetched word. -/
def Fetched.bus (f : Fetched) : Nat := bitsOf f.nano 8 3

/-- Whether a context's stroke has launched. -/
def State.launchedFor (s : State) (x : QCtx) : Bool := s.nib.runs.any (fun r => r.nib == x.nib && r.req == x.req && r.launched)

/-- Whether a word waits at the launch gate (R408): it acts on the bus and its stroke has not launched. -/
def State.gated (s : State) (x : QCtx) (f : Fetched) : Bool := 1 ≤ f.bus && f.bus ≤ 6 && !s.launchedFor x

/-- Whether a word stalls until the channel bus is free (R407): while a byte, a poll or a background transfer holds it. -/
def State.busStall (s : State) (x : QCtx) (f : Fetched) : Bool :=
  f.bus != 0 && (decide (s.nowAt (islNib x.nib) < (s.nib.busTo.lookup x.nib).getD 0) || s.nib.ctxs.any (fun y => y.nib == x.nib && y.xbusy))

/-- Whether a context has a word ready (R406): not held, not at the launch gate, not stalled. -/
def State.wordReady (s : State) (x : QCtx) : Bool :=
  match x.queue, x.hold with
  | f :: _, .run => !s.gated x f && !s.busStall x f
  | _, _ => false

/-- The context that issues next on a Nib (R406): one whose launch gate has just opened, otherwise the next in round robin. -/
def State.issues (s : State) (n : Nat) : Option QCtx :=
  let rs := s.nib.ctxs.filter (fun x => x.nib == n && s.wordReady x)
  let opened (x : QCtx) : Bool := !x.gate && x.queue.head?.any (fun f => 1 ≤ f.bus && f.bus ≤ 6)
  let turn (x : QCtx) : Nat := (x.ctx + 127 - (s.nib.rr.lookup n).getD 127) % 128
  match rs.find? opened with
  | some x => some x
  | none => rs.foldl (fun (m : Option QCtx) x => match m with
    | some y => if turn x < turn y then some x else m
    | none => some x) none

/-- The ALU of a nanoword (R405). A shift by 32 or more has a result that the spec does not state: a free value. Log entry 9 (DESIGN CHOICE). -/
def State.alu (s : State) (x : QCtx) (v : Nat) : State × QCtx :=
  let op := bitsOf v 17 4
  let a := x.s.getD (bitsOf v 24 3) 0
  let b := if v.testBit 30 then bitsOf v 32 16 else x.s.getD (bitsOf v 27 3) 0
  let d := bitsOf v 21 3
  let m := 2 ^ 32
  let put (r : Nat) : QCtx := { x with s := x.s.set d (r % m), zero := r % m == 0 }
  match op with
  | 1 => (s, put b)
  | 2 => (s, { put (a + b) with carry := m ≤ a + b })
  | 3 => (s, { put (a + m - b) with carry := a < b })
  | 4 => (s, put (a &&& b))
  | 5 => (s, put (a ||| b))
  | 6 => (s, put (a ^^^ b))
  | 7 => if b < 32 then (s, put (a <<< b)) else ({ s with freeCtr := s.freeCtr + 1 }, put (Config.freeWord s.freeCtr))
  | 8 => if b < 32 then (s, put (a >>> b)) else ({ s with freeCtr := s.freeCtr + 1 }, put (Config.freeWord s.freeCtr))
  | 9 => (s, { x with zero := a == b, carry := a < b })
  | 10 => (s, put x.st)
  | _ => (s, x)

/-- The byte that CMD, ADDR and WBYTE put on the bus (R405). -/
def State.busByte (s : State) (x : QCtx) (v : Nat) : Nat :=
  let asel := bitsOf v 14 3
  let k := s.strokeOf x.req
  match bitsOf v 11 3 with
  | 0 => bitsOf v 0 8
  | 1 => ((k.map (fun k => k.row)).getD 0) / 256 ^ asel % 256
  | 2 => ((k.map (fun k => k.col)).getD 0) / 256 ^ asel % 256
  | 3 => ((k.map s.nandRow).getD 0) / 256 ^ asel % 256
  | 4 => (k.map (fun k => volOf (s.fld (F.NIB_STATUS_CE_MODE_ACTIVE x.nib)) (targetOf k.lun))).getD 0
  | _ => x.s.getD asel 0 % 256

/-- Bus time of a command, address, data or status byte (R407), ns. -/
def State.byteNs (s : State) (n : Nat) : Nat := if 2 ≤ s.fld (F.NIB_STATUS_RATE_ACTIVE n) then 10 else 20

/-- Holds a Nib's channel bus for some ns from now (R407, R419). -/
def State.holdBus (s : State) (n ns : Nat) : State :=
  { s with nib := { s.nib with busTo := (n, s.nowAt (islNib n) + ns * nsT) :: s.nib.busTo.filter (fun e => e.1 != n) } }

/-- The bus action of a nanoword (R405, R407): what it drives, and the bus it holds; CE asserts or releases the descriptor's chip enable. -/
def State.busAct (s : State) (x : QCtx) (v : Nat) : State :=
  let bus := bitsOf v 8 3
  let byte := 1 ≤ bus && bus ≤ 3
  if bus = 0 then s
  else if bus = 7 then
    let t := ((s.strokeOf x.req).map (fun k => targetOf k.lun)).getD 0
    let rest := s.nib.ce.filter (fun e => e.1 != x.nib)
    { s with nib := { s.nib with ce := if bitsOf v 67 3 = 0 then (x.nib, ceOf (s.fld (F.NIB_STATUS_CE_MODE_ACTIVE x.nib)) t) :: rest else rest } }
  else
    let s1 := s.emit (.nand x.nib bus (if byte then s.busByte x v else if bus = 6 then 0 else bitsOf v 58 5 + 1) (bitsOf v 64 3))
    if byte || bus = 6 then s1.holdBus x.nib (s.byteNs x.nib) else s1

/-- NANOWORD_EXECUTE (R405): registers are taken at execution; then the timer, the flags and the bus action. Log entry 76 (DESIGN CHOICE). -/
def State.nanoExec (s : State) (x : QCtx) (v sr : Nat) : State × QCtx :=
  let (s0, x1) := s.alu x v
  let s1 := s0.busAct x v
  let imm := bitsOf v 32 16
  let x2 : QCtx := match bitsOf v 48 2 with
    | 1 => { x1 with tm := s.nowAt (islNib x.nib) + imm * nsT, tmRun := imm != 0 }
    | 2 => { x1 with tm := s.nowAt (islNib x.nib) + imm * 64 * nsT, tmRun := imm != 0 }
    | 3 => { x1 with tm := 0, tmRun := false }
    | _ => x1
  let x3 : QCtx := { x2 with
    f0 := if v.testBit 50 then true else if v.testBit 51 then false else x2.f0
    f1 := if v.testBit 52 then true else if v.testBit 53 then false else x2.f1 }
  let x4 : QCtx := match bitsOf v 8 3 with
    | 4 => { x3 with xbusy := true }
    | 5 => { x3 with xbusy := true, decoding := if v.testBit 64 then x3.decoding + bitsOf v 58 5 + 1 else x3.decoding }
    | 6 => { x3 with st := sr % 256 }
    | 7 => { x3 with ce := bitsOf v 67 3 == 0 }
    | _ => x3
  (s1, if 1 ≤ bitsOf v 8 3 && bitsOf v 8 3 ≤ 6 then { x4 with gate := true } else x4)

/-- Context `c` has issued (R406): the round robin goes on after it. -/
def State.tookTurn (s : State) (n c : Nat) : State :=
  { s with nib := { s.nib with rr := (n, c) :: s.nib.rr.filter (fun e => e.1 != n) } }

/-- The shared part of every microword: a context executes its head word when it has one with this MOP and it is the one that issues (R406);
a word that R414 or R418 refuses raises its machine check; otherwise its nanoword executes and `k` gives the sequencing effect. -/
def State.microword (s : State) (mop n c : Nat) (q : QIn) (k : State → QCtx → Fetched → State) : State :=
  match s.issues n with
  | none => s
  | some x =>
    match x.queue with
    | f :: _ =>
      if x.ctx != c || mMop f.micro != mop then s
      else
        let s := s.tookTurn n c
        match s.badWord x f with
        | some cause => s.machineCheck n cause c f.addr
        | none =>
          let (s1, x1) := s.nanoExec x f.nano q.sr
          k (s1.setCtx x1) x1 f
    | [] => s

/-- The context that a stroke runs in (R400): the odd one for a read while an operation is suspended on the LUN. -/
def State.ctxFor (s : State) (k : Stroke) : Nat :=
  let l := k.lun % 64
  2 * l + bit ((k.op == .read || k.op == .readSoft) &&
    s.stk.strokes.any (fun o => o.lun == k.lun && o.phase == .suspended))

/-- The Quill entry of a Scriptorium stroke (R408, R420): a retry step's, or the special erase's. -/
def State.entryOf (s : State) (k : Stroke) : Nat :=
  if k.qentry != 0 then k.qentry
  else (((s.imageOf (chanOf k.lun)).entries.find? (fun e => e.2.2 == 2)).map (fun e => e.1)).getD 0

/-- The retry step index that S0 starts with (R329, R401). -/
def State.stepIndex (s : State) (k : Stroke) : Nat :=
  match k.purpose with
  | .fetch id => match (s.fetchAt id).bind s.attempt with | some (.script i) => i | _ => 0
  | _ => 0

/-- A context at its stroke's start (R401). Log entry 74 (DESIGN CHOICE). -/
def State.newCtx (s : State) (r : Run) (k : Stroke) : QCtx :=
  { nib := r.nib, ctx := s.ctxFor k, req := k.req
    s := [s.stepIndex k, k.row % 2 ^ 32, k.col % 2 ^ 16 + k.planes % 16 * 2 ^ 16, 0, 0, 0, 0, 0]
    slc := k.slc, ce := true, hold := if k.op = .script then .run else .torvelle }

end Sys2Proof.Machine
end

