-- ==== Sys2Proof/Machine/Nib.lean ====
section
/-! DEFINITION. The Nib's rows (chapter 10): acceptance, the checks at the due line, polls, transfers, decodes, timeouts,
temperature readings, retraining and the decoder's known-answer test. -/

namespace Sys2Proof.Machine

/-- Whether SEQ `a` is later than `b`, modulo 2^32 (R370). -/
def seqLater (a b : Nat) : Bool := a != b && (a + 2 ^ 32 - b) % 2 ^ 32 < 2 ^ 31

/-- DESCRIPTOR_ACCEPT (R369, R370, R388): in SEQ order; a repeated descriptor is dropped with DUP_DESC; a masked Nib
refuses it and the scheduler ends the stroke as abandoned. -/
def execDescriptorAccept (nib seq : Nat) (s : State) : Res :=
  let old := match s.nib.lastSeq.lookup nib with | some l => !seqLater seq l | none => false
  if old then .next (if s.mode = .off then s else s.post (F.NIB_EVT_STATUS_DUP_DESC nib) nib)
  else
    match s.stk.strokes.find? (fun k => chanOf k.lun == nib && k.phase == .placed && !k.accepted && k.seq == seq) with
    | none => .next s
    | some k =>
      let r : Run := { nib, req := k.req, seq, lun := k.lun, accAt := s.nowAt (islNib nib) }
      let s1 := s.updStroke k.req (fun k => { k with accepted := true })
      let s2 : State := { s1 with nib := { s1.nib with
        lastSeq := (nib, seq) :: s1.nib.lastSeq.filter (fun e => e.1 != nib), runs := s1.nib.runs ++ [r] } }
      .next (if s.nibMasked nib then s2.endRun r 0x0C 0 else s2)

/-- Whether an operation keeps a LUN busy: launched, not yet ready, and not suspended. -/
def Run.busy (r : Run) : Bool := r.launched && !r.ready && r.susAt.isNone

/-- Order 2 of R371: the LUN is busy or resetting, or suspended against this kind of stroke. -/
def State.lunBusyFor (s : State) (r : Run) (k : Stroke) : Bool :=
  let others := s.nib.runs.filter (fun x => x.lun == r.lun && x.seq != r.seq)
  let mine (x : Run) : Bool := k.op == .suspend && k.parent == some x.req
  let susp := others.any (fun x => x.susAt.isSome)
  (s.lun r.lun).state == .resetting || others.any (fun x => x.busy && !mine x) ||
    (susp && !(k.op == .read || k.op == .readSoft || k.op == .status || k.op == .resume))

/-- The launch of a stroke (R361, R362, R372, R373, R380, R382, R383): its chip enable, Volume Select where the target is not the one last
selected there, row address and trims; the first bus edge, LAUNCH_OFS and LAUNCH_LATE; a SUSPEND stops its
operation's BUSY, a RESUME lets it go on and completes with its command cycle. -/
def State.launch (s : State) (r : Run) (k : Stroke) (ofs : Int) : State :=
  let n := r.nib
  let edge := (((k.due * 256 : Nat) : Int) + ofs * 256).toNat
  let x := s.lun r.lun
  let mode := s.fld (F.NIB_STATUS_CE_MODE_ACTIVE n)
  let t := targetOf k.lun
  let ce := ceOf mode t
  let r' : Run := { r with
    launched := true, edge, ofs, rband := x.rband, cwLeft := if k.op == .read || k.op == .readSoft then k.codewords else 0
    ceAt := if s.ceLow n = some ce then none else some ((k.due - s.fld (F.NIB_IF_CFG_TCS n)) * 256)
    vol := if s.nib.vol.lookup (n, ce) = some t then none else some (volOf mode t)
    nandRow := s.nandRow k, trims := s.reg (F.NIB_TRIM_WDQ n x.rband).key }
  let s : State := { s with nib := { s.nib with
    ce := (n, ce) :: s.nib.ce.filter (fun e => e.1 != n), vol := ((n, ce), t) :: s.nib.vol.filter (fun e => e.1 != (n, ce)) } }
  let s1 := (s.updRun n r.seq (fun _ => r')).updStroke k.req (fun k => { k with phase := .launched, launchedAt := edge })
  let s2 := if ofs < -5 || 5 < ofs then s1.post (F.NIB_EVT_STATUS_LAUNCH_LATE n) r.lun else s1
  let down : State := { s2 with nib := { s2.nib with rbHigh := (n, false) :: s2.nib.rbHigh.filter (fun e => e.1 != n) } }
  match k.op with
  | .suspend =>
    let op (y : Run) : Bool := some y.req == k.parent
    { s2 with nib := { s2.nib with
      runs := updWhere op (fun y => { y with susAt := some edge, excl := true }) s2.nib.runs
      ctxs := updWhere (fun c => some c.req == k.parent) (fun c => { c with susReq := true }) s2.nib.ctxs } }
  | .resume =>
    let go (y : Run) : Run := { y with susTime := y.susTime + (edge - y.susAt.getD edge), susAt := none }
    let s3 : State := { s2 with nib := { s2.nib with runs := updWhere (fun y => some y.req == k.parent) go s2.nib.runs } }
    s3.endRun { r' with ready := true, readyAt := s.nowAt (islNib r.nib) } 0x0B 0
  | .status | .feature => s2
  | _ => down

/-- STROKE_DUE_LINE (R371): the stroke ends unlaunched where its LUN is gone, the mode forbids it or WP_N is low;
otherwise the ordered checks, and the launch. `busHeld` says that an earlier stroke's bus-holding segment still holds
the channel bus, `ofs` is the first bus edge less the pulse, in ns. Log entry 3 (DESIGN CHOICE). -/
def execStrokeDueLine (nib seq : Nat) (ofs : Int) (busHeld : Bool) (s : State) : Res :=
  match s.runAt nib seq with
  | none => .next s
  | some r =>
    match s.strokeOf r.req with
    | none => .next s
    | some k =>
      let x := s.lun r.lun
      if r.launched || s.nowAt (islNib nib) < k.due * 256 || s.fld (F.NIB_STATUS_STATE nib) != 3 then .next s
      else if x.state = .unresponsive || x.retired then .next (s.endRun r 0x08 0)
      else if s.modeForbids k then .next (s.endRun r 0x0C 0)
      else if k.writes && s.wpLow nib then .next (s.endRun r 0x0C 0)
      else if k.due * 256 < r.accAt then .next (s.endRun r 0x04 0)
      else if s.lunBusyFor r k then .next (s.endRun r 0x05 0)
      else
        let sameDue := s.nib.runs.any (fun y => y.nib == nib && y.seq != seq && seqLater seq y.seq &&
          ((s.strokeOf y.req).map (fun o => o.due == k.due)).getD false)
        if busHeld || sameDue then .next ((s.post (F.NIB_EVT_STATUS_BUS_CONFLICT nib) r.lun).endRun r 0x06 0)
        else .next (s.launch r k ofs)

/-- A LUN reports ready after a reset (R385, R386): the strokes that the reset ended complete, and the bring-up entry of the Nib's image
runs on its target (R420). Log entry 93 (DESIGN CHOICE). -/
def State.resetDone (s : State) (l : Nat) : State :=
  let s1 := s.updLun l (fun x => { x with state := .idle })
  let s2 := (s1.nib.runs.filter (fun r => r.lun == l && r.resetWait)).foldl (fun (s : State) r =>
    match s.strokeOf r.req with
    | some k => s.endRun r (if k.op = .program then 0x02 else if k.writes then 0x03 else 0x07) 0
    | none => s.endRun r 0x07 0) s1
  match (s.imageOf (chanOf l)).entries.find? (fun e => e.2.2 == 3) with
  | some e => if s2.bringingUp l then s2
    else s2.newStroke { mkStroke .script 2 l false (.script 3) with qentry := e.1, prof := e.2.1 }
  | none => s2

/-- A service that waits for the LUN returns when it reports ready (R419); SVC_POLL leaves the status byte in ST. -/
def State.serviceReady (s : State) (req sr : Nat) : State :=
  match s.nib.ctxs.find? (fun x => x.req == req) with
  | some x =>
    match x.hold with
    | .svc 0 => if x.abort then s.abandon x else s.serviceReturn x (some (sr % 256))
    | .svc 2 => if x.abort then s.abandon x else s.serviceReturn x none
    | _ => s
  | none => s

/-- One poll of a LUN with Read Status Enhanced (R377): the status byte `sr`; bit 6 is ready. -/
def State.poll (s : State) (l sr : Nat) : State :=
  let rdy := sr.testBit 6
  if (s.lun l).state = .resetting then (if rdy then s.resetDone l else s)
  else
    match s.nib.runs.find? (fun r => r.lun == l && r.busy) with
    | none => s
    | some r =>
      let r' : Run := { r with sr := sr % 256, polledAt := some (s.nowAt (islNib r.nib)) }
      let s1 := (s.holdBus r.nib 60).updRun r.nib r.seq (fun _ => r')
      match s1.strokeOf r.req with
      | none => s1
      | some k =>
        if !rdy then s1
        else
          let up : Run := { r' with ready := true, readyAt := s.nowAt (islNib r.nib) }
          match k.op with
          | .script => s1.serviceReady r.req sr
          | .program => if r.xfer then s1.readyEnd up k else s1
          | .read | .readSoft | .feature => s1.updRun r.nib r.seq (fun _ => up)
          | _ => s1.readyEnd up k

/-- The first poll of a run (R377): the end of the sum of MIN over its profile's segments before the last; a service of a SCRIPT stroke polls
from its call on (R419). -/
def State.firstPoll (s : State) (r : Run) (k : Stroke) : Nat :=
  if k.op = .script then r.edge else r.edge + ((s.profile k.prof).dropLast.map (fun g => g.min)).sum * nsT

/-- Whether a poll of a LUN, 60 ns of bus (R427's trace), ends before the next bus-holding segment of the channel's other LUNs
(R377). Log entry 106 (DEDUCED). -/
def State.pollRoom (s : State) (l : Nat) : Bool :=
  let x := s.nowAt (islNib (chanOf l)) / nsT
  s.stk.strokes.all (fun o => !o.charged || o.lun == l || chanOf o.lun != chanOf l ||
    (o.windows.filter (fun w => w.2.2.bus)).all (fun w => x + 60 ≤ w.1 || w.2.1 ≤ x))

/-- Whether the Nib polls a LUN now (R377): from its operation's first poll on, once every NIB_POLL.INT; a LUN under reset is waited for. -/
def State.pollDue (s : State) (l : Nat) : Bool :=
  let n := chanOf l
  (s.lun l).state == .resetting ||
    (match s.nib.runs.find? (fun r => r.lun == l && r.busy) with
     | some r => (match s.strokeOf r.req with
        | some k => decide (s.firstPoll r k ≤ s.nowAt (islNib n)) &&
            (match r.polledAt with | some t => decide (t + s.fld (F.NIB_POLL_INT n) * 16 * nsT ≤ s.nowAt (islNib n)) | none => true)
        | none => false)
     | none => false)

/-- STATUS_POLL (R377): at its time the Nib polls a busy LUN. Log entry 7 (DESIGN CHOICE). -/
def execStatusPoll (lun sr : Nat) (s : State) : Res := if s.pollDue lun && s.pollRoom lun then .next (s.poll lun sr) else .next s

/-- RB_N_RISE (R377): NFn_RB_N is high and the Nib polls at once, where the bus has room. Log entry 106 (DEDUCED). -/
def execRbNRise (lun sr : Nat) (s : State) : Res :=
  let n := chanOf lun
  let s1 : State := { s with nib := { s.nib with rbHigh := (n, true) :: s.nib.rbHigh.filter (fun e => e.1 != n) } }
  .next (if s1.pollRoom lun then s1.poll lun sr else s1)

/-- BUS_TRANSFER_DONE (R380, R387, R404, R407): a background transfer ends. For a program, an uncorrectable word in its
data, or a program-trim read-back `data` that differs, means that it is not confirmed; a FEATURE's parameters are
`data`. Log entry 3 (DESIGN CHOICE). -/
def execBusTransferDone (nib seq data : Nat) (cell : CellErr) (s : State) : Res :=
  match s.runAt nib seq with
  | none => .next s
  | some r =>
    match s.strokeOf r.req with
    | none => .next s
    | some k =>
      if !r.launched then .next s
      else
        let s0 := s.cellErr cell
        match k.op with
        | .program =>
          if s.trimsDue k && data % 2 ^ 32 != s.reg (F.NIB_PTRIM_P1_P4 nib r.rband).key then
            .next ((s0.post (F.NIB_EVT_STATUS_PTRIM_FAIL nib) r.lun).endRun r 0x0E 0)
          else if cell.isLost then
            let s1 := (s0.post (F.NIB_EVT_STATUS_SRC_ERR nib) r.lun).resetLun r.lun r.req
            .next (s1.endRun r 0x0D 0)
          else
            .next ((s0.updRun nib seq (fun r => { r with xfer := true })).updLun r.lun (fun x => { x with pgmBand := some r.rband }))
        | .feature =>
          if r.ready then .next (s0.endRun { r with xfer := true } 0x00 (data % 2 ^ 32))
          else .next (s0.updRun nib seq (fun r => { r with xfer := true, result := data % 2 ^ 32 }))
        | .script =>
          .next { s0 with nib := { s0.nib with ctxs := updWhere (fun x => x.req == r.req) (fun x => { x with xbusy := false }) s0.nib.ctxs } }
        | _ => .next (s0.updRun nib seq (fun r => { r with xfer := true }))

/-- A codeword's outcome in a run (R325, R374). -/
def Run.decoded (r : Run) (ok : Bool) (bits unsat : Nat) (mis : Bool) (pband : Nat) : Run :=
  { r with
    cw := r.cw + 1, cwLeft := r.cwLeft - 1
    result := if ok then r.result ||| 2 ^ r.cw else r.result
    cbits := if ok then max r.cbits bits else r.cbits
    unsat := if ok then r.unsat else max r.unsat unsat
    bad := r.bad || !ok, mis := r.mis || mis, pband }

/-- CODEWORD_DECODE_DONE (R325, R374 to R376, R404): the decoder finishes a codeword; the last one completes a read, and
lets SVC_READOUT return. Log entry 7 (DESIGN CHOICE). -/
def execCodewordDecodeDone (nib seq : Nat) (ok : Bool) (bits unsat : Nat) (mis : Bool) (pband : Nat) (s : State) : Res :=
  match s.runAt nib seq with
  | none => .next s
  | some r =>
    match s.strokeOf r.req with
    | none => .next s
    | some k =>
      if k.op = .script then
        match s.nib.ctxs.find? (fun x => x.req == r.req) with
        | none => .next s
        | some x =>
          if x.decoding = 0 then .next s
          else
            let y : QCtx := { x with decoding := x.decoding - 1, dpass := x.dpass && ok }
            let s1 := (s.updRun nib seq (fun r => r.decoded ok bits unsat mis pband)).setCtx y
            if y.decoding = 0 && y.hold = .svc 1 then .next (s1.serviceReturn { y with xbusy := false } none) else .next s1
      else if r.cwLeft = 0 || !r.ready || !r.xfer then .next s
      else
        let r' := r.decoded ok bits unsat mis pband
        let s1 := s.updRun nib seq (fun _ => r')
        if r'.cwLeft = 0 then .next (s1.endRun r' (if r'.bad then 0x01 else 0x00) r'.result) else .next s1

/-- The limit of R385 for a stroke, in 1/256 ns. -/
def State.timeLimit (s : State) (k : Stroke) : Nat :=
  s.fld (F.NIB_TMO_MULT (chanOf k.lun)) * segsMax (s.profile k.prof) * nsT

/-- STROKE_TIMEOUT (R385, R386, R414): a stroke past its limit sets TIMEOUT and its LUN is reset; the second timeout of a
LUN within 1 h makes it unresponsive; a Scriptorium context outside SVC_POLL takes a machine check instead. -/
def execStrokeTimeout (nib seq : Nat) (s : State) : Res :=
  match s.runAt nib seq with
  | none => .next s
  | some r =>
    match s.strokeOf r.req with
    | none => .next s
    | some k =>
      if !r.launched || r.ready || r.resetWait || r.busyAt (s.nowAt (islNib r.nib)) ≤ s.timeLimit k then .next s
      else
        let wdog := s.nib.ctxs.find? (fun x => x.req == r.req && k.op == .script && x.hold != .svc 0)
        let x := s.lun r.lun
        let again := match x.tmoAt with | some t => decide (s.now ≤ t + 3600 * secT) | none => false
        let s1 := (s.post (F.NIB_EVT_STATUS_TIMEOUT nib) r.lun).updLun r.lun (fun x =>
          { x with tmoCnt := min 255 (x.tmoCnt + 1), tmoAt := some s.now })
        match wdog with
        | some c => .next (s1.machineCheck nib 6 c.ctx ((c.queue.head?.map (fun f => f.addr)).getD 0))
        | none =>
          if again then .next (s1.unresponsive r.lun).settle
          else
            let s2 := s1.resetLun r.lun r.req
            .next (s2.updRun nib seq (fun r => { r with resetWait := true, reset := true }))

/-- RESET_WAIT_TIMEOUT (R386): a LUN that is not ready within RST_US of its reset is unresponsive. -/
def execResetWaitTimeout (lun : Nat) (s : State) : Res :=
  let x := s.lun lun
  if x.state = .resetting && x.resetAt + s.fld (F.NIB_TMO_RST_US (chanOf lun)) * usT ≤ s.now then .next (s.unresponsive lun).settle
  else .next s

/-- NIB_TEMP_READ (R378): every PERIOD ms a class 4 FEATURE stroke for each present LUN; without a feature address every LUN is held at
band 2 and TEMP_STALE is set once. -/
def execNibTempRead (nib : Nat) (s : State) : Res :=
  let early := match s.nib.tempAsked.lookup nib with
    | some t => decide (s.nowAt (islNib nib) < t + s.fld (F.NIB_TEMP_PERIOD nib) * msT)
    | none => false
  if s.mode = .off || s.mode = .doze || s.mode = .holdUp || s.nibMasked nib || early then .next s
  else
    let s0 : State := { s with nib := { s.nib with tempAsked := (nib, s.nowAt (islNib nib)) :: s.nib.tempAsked.filter (fun e => e.1 != nib) } }
    if s.fld (F.NIB_TEMP_FADDR nib) = 0 then
      let s1 := (s0.lunsOf nib).foldl (fun (s : State) x => s.setBand x.lun 2) s0
      .next (if s.nib.noTemp.contains nib then s1
        else ({ s1 with nib := { s1.nib with noTemp := nib :: s1.nib.noTemp } }).post (F.NIB_EVT_STATUS_TEMP_STALE nib) nib)
    else
      .next (((s0.lunsOf nib).filter (fun x => s.lunServes x.lun)).foldl (fun (s : State) x =>
        s.newStroke (mkStroke .feature 4 x.lun false .temp)) s0)

/-- TEMP_STALE_TIMEOUT (R378): a LUN with no valid reading for 10 s takes the highest band of the channel's other LUNs; without a feature
address it stays held at band 2. -/
def execTempStaleTimeout (lun : Nat) (s : State) : Res :=
  let n := chanOf lun
  let x := s.lun lun
  if x.state = .notPresent || s.now < x.tempAt + 10 * secT || s.mode = .off || s.mode = .doze ||
      s.fld (F.NIB_TEMP_FADDR n) = 0 then .next s
  else
    let others := (s.lunsOf n).filter (fun y => y.lun != lun)
    let b := others.foldl (fun m y => max m y.rband) 0
    let s1 := s.updLun lun (fun x => { x with tempValid := false })
    .next ((if others.isEmpty then s1 else s1.setBand lun b).post (F.NIB_EVT_STATUS_TEMP_STALE n) lun)

/-- Whether a channel's bus is free of bus-holding windows in an interval (R381). -/
def State.busIdle (s : State) (n lo hi : Nat) : Bool :=
  s.stk.strokes.all (fun o => !o.charged || chanOf o.lun != n ||
    (o.windows.filter (fun w => w.2.2.bus)).all (fun w => hi ≤ w.1 || w.2.1 ≤ lo))

/-- The first line at which 50 µs of a channel's bus are free. -/
def State.firstIdle (s : State) (n : Nat) : Nat → Nat → Nat
  | 0, x => x
  | fuel + 1, x => if s.busIdle n x (x + 50000) then x else s.firstIdle n fuel (x + s.pitchNs)

/-- NIB_RETRAIN (R381): when retraining is due, by its period, a band change or NIB_CTRL.RETRAIN, the scheduler reserves
50 µs of the bus and the retraining ends within them. -/
def execNibRetrain (nib : Nat) (s : State) : Res :=
  let p := s.fld (F.NIB_TRAIN_PERIOD_S nib)
  let last := (s.nib.trained.lookup nib).getD 0
  let due := s.nib.train.contains nib || (p != 0 && last + p * secT ≤ s.now)
  if !due || s.fld (F.NIB_STATUS_STATE nib) != 3 || s.mode = .off || s.mode = .doze || s.mode = .holdUp then .next s
  else
    let x := s.firstIdle nib 8192 s.leadLine
    let s1 : State := { s with nib := { s.nib with
      train := s.nib.train.filter (· != nib)
      trained := (nib, s.now) :: s.nib.trained.filter (fun e => e.1 != nib)
      resv := (nib, x, x + 50000) :: s.nib.resv.filter (fun e => s.now / 256 < e.2.2) } }
    .next (s1.setFld (F.NIB_CTRL_RETRAIN nib) 0)

/-- NIB_CTRL_RETRAIN (R381): a write of 1 asks for retraining in the next reserved interval. -/
def execNibCtrlRetrain (nib : Nat) (s : State) : Res :=
  if s.mode = .off || 48 ≤ nib then .next s else .next ((s.setFld (F.NIB_CTRL_RETRAIN nib) 1).trainDue nib)

/-- DECODER_KAT (R388): a decoder that fails its known-answer test masks its Nib. -/
def execDecoderKat (nib : Nat) (ok : Bool) (s : State) : Res :=
  if ok || s.mode = .off || s.mode = .doze then .next s else .next (s.maskNib nib).settle

end Sys2Proof.Machine
end

