-- ==== Sys2Proof/Machine/StrokeDone.lean ====
section
/-! DEFINITION. The consumption of a completion descriptor and what follows for the stroke's purpose (R82, R87, R95, R96,
R103, R378, R416, R672), and the placement of waiting strokes (R78 to R97). -/

namespace Sys2Proof.Machine

/-- A block erased by sanitize (R280): the last of them frees every band and both slots of every Blotter set, and ends the
operation; erase counters are kept and counted on. A block whose erase fails is retired; one whose erase ends otherwise leaves
the sanitize failed. -/
def State.sanitizeErased (s : State) (l block status : Nat) : State :=
  if !(status = 0 || status = 3 || status = 8) then s.newStroke { mkStroke .erase 4 l false (.eraseBlock block) with row := block }
  else
  let s1 := if status = 0 then s.blockErased l block (min 0x0FFFFFFF (s.eraseCount l block + 1))
    else if status = 3 then s.retireBlock l block else s
  let bad := s1.map.sanitize.failed || !(status = 0 || status = 3)
  let s1 : State := { s1 with map := { s1.map with sanitize := { s1.map.sanitize with failed := bad } } }
  let left := s1.map.sanitize.left - 1
  if left != 0 then { s1 with map := { s1.map with sanitize := { s1.map.sanitize with left } } }
  else
    let free (b : Band) : Band := if b.state = .retired then b else { ix := b.ix, group := b.group, block := b.block }
    State.folio (r := { job := .sanitize, erase := true }) { s1 with
      map := { s1.map with sanitize := { s1.map.sanitize with left := 0, active := 0 }, bands := s1.map.bands.map free, media := [] }
      blt := { s1.blt with
        pages := [], rows := [], waitUnits := []
        sets := s1.blt.sets.map (fun t => { t with active := 0, next := [0, 0], dirty := [false, false], stop := [false, false]
                                                   erasing := [false, false], full := false }) } }

/-- A temperature reading's result (R378, R416, R606, R607, R612): a reading that was not made is placed again; the LUN's band, BAND5, the throttle level, and thermal shutdown
at 95 °C. -/
def State.tempResult (s : State) (k : Stroke) (c : Comp) : State :=
  if (c.status = 6 || c.status = 0x0C || c.status = 0x0F) && s.lunServes k.lun && (s.mode == .run || s.mode == .degraded || s.mode == .trial || s.mode == .safe) then
    s.newStroke (mkStroke .feature 4 k.lun false .temp)
  else if c.status != 0 then s
  else
    let was := (s.lun k.lun).rband
    let s1 := s.sumTherm.tempReading k.lun c.result
    let s2 := if was != 5 && (s1.lun k.lun).rband = 5 then s1.post F.THM_EVT_STATUS_BAND5 k.lun else s1
    let t : Int := (c.result % 256 : Nat) + signed8 (s.fld (F.NIB_TEMP_OFS (chanOf k.lun)))
    let s3 := s2.throttle 0xFF k.lun
    if 95 ≤ t && t ≤ 125 then s3.thermalShutdown 1 0xFF k.lun t else s3

/-- A SUSPEND's result (R95, R382, R672): the operation is suspended, its charge released, and the time it had run is
kept. -/
def State.suspendResult (s : State) (req : Nat) (k : Stroke) (c : Comp) : State :=
  if c.status != 9 then s
  else
    match s.nib.runs.find? (fun r => r.req == req) with
    | none => s
    | some r =>
      s.updStroke req (fun o => { o with
        phase := .suspended, susp := o.susp + 1, susCls := k.cls, reads := 0, ran := (r.susAt.getD s.now - o.launchedAt) / 256 })

/-- A RESUME's result (R96, R672): the operation runs again, charged with what the RESUME carried. -/
def State.resumeResult (s : State) (req : Nat) (k : Stroke) (c : Comp) : State :=
  if c.status != 0x0B then s
  else s.updStroke req (fun o => { o with phase := .launched, due := k.due, segs := k.segs, launchedAt := k.launchedAt, reads := 0, ran := 0 })

/-- The result of a bring-up entry (R420): a STAT other than 0x00 declares the target's LUNs unresponsive; one that did not run is placed
again. Log entry 93 (DESIGN CHOICE). -/
def State.bringUpResult (s : State) (k : Stroke) (c : Comp) : State :=
  if c.status = 0 || c.status = 8 || !s.lunServes k.lun then s
  else if !c.launched || c.status = 0x0C || c.status = 0x0F then s.newStroke k
  else (((s.lunsOf (chanOf k.lun)).filter (fun x => x.lun / 8 == k.lun / 8 && s.lunServes x.lun)).map (fun x => x.lun)).foldl State.unresponsive s

/-- Acts on a completed stroke by its purpose. -/
def State.actOn (s0 : State) (k : Stroke) (c : Comp) : State :=
  let s : State := { s0 with stk := { s0.stk with strokes := s0.stk.strokes.filter (fun o => o.req != k.req) } }
  match k.purpose with
  | .fetch id => s.fetchResult id c.status c.cbits c.unsat c.mis c.pband
  | .tlc id => s.tlcResult id c.status c.launched k
  | .blotter g => s.blotterResult g c.status c.launched
  | .rowParity a b r => s.rowParityResult a b r c.status c.launched
  | .eraseBand b => s.eraseResult b k.lun c.status c.result
  | .eraseSlot a b => s.eraseSlotResult a b k.lun c.status
  | .eraseBlock b => s.sanitizeErased k.lun b c.status
  | .temp => s.tempResult k c
  | .suspendOf r => s.suspendResult r k c
  | .resumeOf r => s.resumeResult r k c
  | .script 3 => s.bringUpResult k c
  | .script _ | .status => s

/-- The operation class of a stroke in R103: TLC read, SLC read, TLC program, SLC program, erase. The spec does not say where soft reads
belong: they count as reads of their class. Log entry 83 (DESIGN CHOICE). -/
def Stroke.opClass (k : Stroke) : Option Nat :=
  match k.op with
  | .read | .readSoft => some (if k.slc then 1 else 0)
  | .program => some (if k.slc then 3 else 2)
  | .erase => some 4
  | .script => if k.writes then some 4 else none
  | _ => none

/-- Counts a stroke and its busy time (R103, R190). -/
def State.countBusy (s : State) (k : Stroke) (c : Comp) : State :=
  let t := s.stat k.lun
  let t1 : LunStat := if c.launched then { t with done := t.done + 1 } else t
  match k.opClass with
  | some i =>
    s.setStat (if c.launched && c.status ≤ 3 then { t1 with cnt := t1.cnt.modify i (· + 1), sum := t1.sum.modify i (· + c.busy) } else t1)
  | none => if c.launched then s.setStat t1 else s

/-- What the engines do once a stroke has ended: closed Blotter pages are placed, slots erased, write points run and
finished commands completed; once a dump is placed and passed, its open rows get their parity (R453). Log entry 70 (DEDUCED). -/
def State.pump (s : State) : State :=
  let s1 := s.pumpBlotter.eraseSlots.runWritePoints.ticketPump
  let dumped := s1.blt.dumping != 0 && !s1.blt.pages.any (fun p => p.phase == .closed || p.phase == .programming)
  (if dumped then s1.closeRows true else s1).settleCmds.shutStep

/-- STROKE_COMPLETE (R82, R87): the oldest completion of the Nib's ring is consumed; the stroke's charge and slot go; one that missed its line
or found its LUN busy is reported and waits again; of any other the result acts. -/
def execStrokeComplete (nib : Nat) (s : State) : Res :=
  match s.nib.comps.find? (fun c => c.nib == nib) with
  | none => .next s
  | some c =>
    let s1 : State := { s with nib := { s.nib with comps := s.nib.comps.filter (fun x => !(x.nib == nib && x.seq == c.seq && x.req == c.req)) } }
    match s1.strokeOf c.req with
    | none => .next s1
    | some k =>
      if c.status = 4 then .next ((s1.post F.STK_EVT_STATUS_LINE_MISSED k.lun).waitAgain k.req).settle
      else if c.status = 5 then .next ((s1.post F.STK_EVT_STATUS_LUN_BUSY k.lun).waitAgain k.req).settle
      else .next (((s1.countBusy k c).actOn k c).pump.settle)

/-- Places one waiting stroke, or asks for the suspension of the operation that keeps its LUN busy (R91, R95, R96). A
RESUME carries the operation's remaining charge after its own segments (R672). A stroke whose LUN no longer serves ends as one
that the Nib returns with 0x08 (R386, R388). -/
def State.placeOne (s : State) (k : Stroke) : State :=
  if !s.lunServes k.lun then
    if s.nib.paused.contains (chanOf k.lun) then s else s.actOn k { nib := chanOf k.lun, seq := 0, req := k.req, status := 0x08 }
  else if !s.placeAllowed k || (k.purpose != .script 3 && k.op != .resume && s.bringingUp k.lun) then s
  else
    let own := s.profile k.prof
    let gs := match k.op, k.parent.bind (fun r => s.stk.strokes.find? (fun o => o.req == r)) with
      | .resume, some o => own ++ remaining o.ran o.segs
      | _, _ => own
    match s.lineFor k gs with
    | some x => s.commit k.req x gs
    | none => s

/-- Requests the suspensions that a waiting stroke may ask for (R95). -/
def State.placeSuspends (s : State) (k : Stroke) : State :=
  let isRead := k.op == .read || k.op == .readSoft
  match s.stk.strokes.find? (fun o => o.lun == k.lun && s.maySuspend o k.cls isRead) with
  | some o => if 2 ≤ k.cls && !isRead then s else s.askSuspend o k.cls
  | none => s

/-- STROKE_PLACE (R78, R79, R81, R90, R91, R94 to R97): in placement order, every waiting stroke that fits is given its
line and its descriptor; RESUMEs that are due are asked for first. The fetch hold of R106 ends once 4,096 entries are
free. Log entry 70 (DEDUCED). -/
def execStrokePlace (s : State) : Res :=
  let s0 := s.enterHeld
  let s1 := (s0.stk.strokes.filter s0.resumeDue).foldl State.askResume s0
  let s2 := (s1.ordered.filter (fun k => k.op != .suspend && k.op != .resume)).foldl State.placeSuspends s1
  let s3 := s2.ordered.foldl State.placeOne s2
  let full := !s3.pendingRoom 2
  let hold := if full then true else if s3.pendingCount + 4096 ≤ 131072 then false else s3.qe.fetchHold
  .next { s3 with qe := { s3.qe with fetchHold := hold } }

end Sys2Proof.Machine
end

