-- ==== Sys2Proof/Machine/QueueOps.lean ====
section
/-! DEFINITION. What every command goes through at its latch (R158, R164, R195 to R197, R204): its sender, its tag, the
mode, the namespace, the range and the reservation. -/

namespace Sys2Proof.Machine

/-! ## Reservations -/

/-- Whether the reservation lets a controller's command through (R196, R197): types 1 and 2 are exclusive to the holder,
3 and 4 to the registrants, 5 and 6 to all registrants; reads pass under the write-exclusive types 1, 3 and 5. -/
def Ns.reserved (n : Ns) (host : Option Nat) (isWrite : Bool) : Bool :=
  let r := n.resv
  if r.rtype = 0 then false
  else
    let registered := match host with | some h => r.regs.any (fun g => g.host == h) | none => false
    let holder := match host with | some h => r.holder == some h | none => false
    let ok := match r.rtype with | 1 | 2 => holder | _ => registered
    let reads := r.rtype = 1 || r.rtype = 3 || r.rtype = 5
    !ok && (isWrite || !reads)

/-- The host of a controller (R195). -/
def State.hostOf (s : State) (ref : Ref) : Option Nat := (ctrlOf ref).bind (fun c => (s.ctrl c).bind (fun k => k.hostId))

/-! ## The checks of an I/O command -/

/-- What an I/O command does to its blocks (R197): it reads or changes them, or settles what was written (a Flush, a Dataset Management
without Deallocate), which a reservation checks as a write; a reservation command is checked by none. -/
inductive Access where
  | reads | changes | settles | reserves
  deriving DecidableEq, Repr

/-- The checks of an I/O command in the order in which the model makes them: SAFE with media halted, a sanitize, the
namespace, its range, write protection, and the reservation (R165, R197, R204, R281, R310). Log entry 40 (DEDUCED). -/
def State.ioCheck (s : State) (ref : Ref) (nsid slba n : Nat) (acc : Access) : Except Status Ns :=
  if s.mode = .safe && s.fld F.EVU_SAFE_MEDIA = 2 then .error .namespaceNotReady
  else if s.map.sanitize.active != 0 then .error .sanitizeInProgress
  else if s.map.sanitize.failed then .error .sanitizeFailed
  else
    match s.ns nsid, ctrlOf ref with
    | some k, some c =>
      if !k.attached.contains c then .error .invalidNamespace
      else if k.blocks < slba + n then .error .lbaRange
      else if acc = .changes && (s.mode = .safe || k.cut.isSome) then .error .writeProtected
      else if acc != .reserves && k.reserved (s.hostOf ref) (acc != .reads) then .error .reservationConflict
      else .ok k
    | _, _ => .error .invalidNamespace

/-- The blocks of 2 MiB (MDTS) for a namespace's format. -/
def Ns.mdtsBlocks (n : Ns) : Nat := 4096 / n.blkSectors

/-! ## The write's way in -/

/-- Asks for the map pages that the oldest unstamped command needs and that D5 SDRAM does not hold (R250). -/
def State.askPages (s : State) : State :=
  match s.qe.cmds.find? (fun c => c.kind.stamps && c.ink.isNone) with
  | none => s
  | some c =>
    (s.cmdPages c (s.cmdBs c)).foldl (fun (s : State) p =>
      if p.resident || s.map.fetches.any (fun f => f.users.contains (.map p.nsid p.page)) then s
      else match p.onMedium with
        | some a => s.startFetch { id := 0, addr := a, kind := 2, nsid := p.nsid, iu := p.page, cls := 2, users := [.map p.nsid p.page] }
        | none => s) s

/-- Everything that a latched or freed command may start: the Ordering Point, segments of stamped commands and of the compares that they formed, tickets, and what is finished. -/
def State.kick (s : State) : State :=
  let s1 := s.orderingPoint.askPages.ticketInk
  let ready := s1.qe.cmds.filter (fun c => (c.kind.stamps && c.ink.isSome || c.kind == .compare && !c.parked) && c.segs.any (fun g => g.chain.isNone && !g.asked && !g.started))
  (ready.foldl (fun (s : State) c => if c.kind == .compare then s.askReads (c.segs.length + 1) c.ref else s.askSegs (c.segs.length + 1) c.ref) s1).settleCmds

/-- The write point of a Write (R257, R264): its directive's handle, handle 0 for an index outside the list, or the
namespace's first handle. Log entry 44 (DEDUCED). -/
def State.placement (s : State) (n : Ns) (dtype dspec : Nat) : State × Nat :=
  if dtype = 2 then
    match n.handles[dspec]? with
    | some h => (s, 8 + h)
    | none =>
      let s1 := (s.setFld F.MAP_UNDEF_PID_COUNT (min (2 ^ 32 - 1) (s.fld F.MAP_UNDEF_PID_COUNT + 1))).post F.MAP_EVT_STATUS_UNDEF_PID n.nsid
      ({ s1 with map := { s1.map with fdpEvents := (0, n.nsid) :: s1.map.fdpEvents } }, 8)
  else (s, 8 + n.handles.headD 0)

/-! ## Deadline admission (R98, R99, R102, R177) -/

/-- The path of a read on one LUN (R98, R105): the peers that it is read around by, or none for a direct read. -/
def State.admitPath (s : State) (now tEnd a : Nat) : Option (List Nat) :=
  let l := lunOf a
  let peers := (s.peersOf a).getD []
  let gone := !s.lunServes l || (s.stat l).failed || s.nib.paused.contains (chanOf l)
  if gone || s.goesAround false now l peers tEnd then some peers else none

/-- One PUA of a read for each LUN that it touches. -/
def Cmd.perLun (c : Cmd) : List Nat :=
  let addrs := c.ius.flatMap (fun q => q.srcs.filterMap (fun x => match x with | .media a => some a | _ => none))
  (addrs.map lunOf).eraseDups.map (fun l => (addrs.find? (fun a => lunOf a == l)).getD 0)

/-- The worst case and the strokes of a read with deadline end `tEnd`, tested at `now` in ns (R98). -/
def State.admitW (s : State) (c : Cmd) (now tEnd : Nat) : Nat × Nat :=
  let bytes := c.n * s.cmdBs c * 512
  let pages := (c.ius.flatMap (fun q => q.srcs.filter (fun x => match x with | .page _ _ => true | _ => false))).length
  if c.perLun.isEmpty && pages = 0 then (now + s.admOut bytes, 0)
  else
    let r := c.perLun.foldl (fun (acc : Nat × Nat) a =>
      match s.admitPath now tEnd a with
      | some peers => (max acc.1 (s.predictAround now peers tEnd), acc.2 + peers.length)
      | none => (max acc.1 (s.predict false now (lunOf a) tEnd), acc.2 + 1)) (0, pages)
    (r.1 + s.admOut bytes, r.2)

/-- The lines that the test commits for a read (R98, R99). -/
def State.admitLines (s : State) (c : Cmd) (now tEnd : Nat) : List (Nat × Nat × List Seg) :=
  c.perLun.flatMap (fun a =>
    ((s.admitPath now tEnd a).getD [lunOf a]).map (fun l => (l, s.predictLine false now l tEnd, s.profile 1)))

/-- The LUNs that a read touches. -/
def Cmd.luns (c : Cmd) : List Nat :=
  (c.ius.flatMap (fun q => q.srcs.filterMap (fun x => match x with | .media a => some (lunOf a) | _ => none))).eraseDups

/-- `delay` of R98: what a new read costs an admitted one that shares a LUN or only a channel with it. -/
def State.admDelay (s : State) (luns : List Nat) (q : Admitted) : Nat :=
  let shared := luns.filter q.luns.contains
  if !shared.isEmpty then
    (shared.foldl (fun m l => max m (s.tR l)) 0) + s.admBurst + s.admCw + s.admRescue
  else if luns.any (fun l => q.luns.any (fun m => chanOf l == chanOf m)) then s.admBurst + 3 * s.admCw
  else 0

/-- The part of R98's test that depends on the deadline. -/
def State.admitOk (s : State) (c : Cmd) (now tEnd : Nat) : Bool :=
  let w := (s.admitW c now tEnd).1
  w + s.admRescue ≤ tEnd &&
    s.stk.admitted.all (fun q => q.tEnd ≤ tEnd || s.admDelay c.luns q = 0 || q.w + s.admDelay c.luns q + s.admRescue ≤ q.tEnd)

/-- DW0 of a refusal that depended on the deadline (R177): the smallest deadline for which the whole test would admit the read. -/
def State.smallestDeadline (s : State) (c : Cmd) (now : Nat) : Nat :=
  let ok (us : Nat) : Bool :=
    let tEnd := c.latch / 256 + us * 1000
    (s.admitW c now tEnd).2 ≤ s.entries01Free && s.admitOk c now tEnd
  match (List.range 65535).find? (fun k => ok (k + 1)) with
  | some k => k + 1
  | none => 0xFFFFFFFF

/-- DEADLINE_ADMISSION (R98, R101, R102, R177): admitted with its lines and its rescue allowance, or refused with DW0. The test runs `lag` ns
after the latch, once the lookup has its units. Log entry 83 (DESIGN CHOICE). -/
def State.admitRead (s : State) (c : Cmd) (us lag : Nat) : Except Nat State :=
  let tEnd := c.latch / 256 + us * 1000
  let now := c.latch / 256 + lag
  let (w, n) := s.admitW c now tEnd
  if 4096 ≤ s.stk.admitted.length || s.entries01Free < n || !s.pendingRoom 1 then .error 0
  else if !s.admitOk c now tEnd then .error (s.smallestDeadline c now)
  else
    let cur := (s.profile 1).foldl (fun m g => max m g.cur) 0
    let a : Admitted := { ref := c.ref, luns := c.luns, tEnd, w, cur, rescue := !c.luns.isEmpty, lines := s.admitLines c now tEnd, entries := n }
    let late (q : Admitted) : Admitted := if q.tEnd ≤ tEnd then q else { q with w := q.w + s.admDelay c.luns q }
    .ok { s with stk := { s.stk with admitted := s.stk.admitted.map late ++ [a], nAdmitted := s.stk.nAdmitted + 1 } }

end Sys2Proof.Machine
end

