-- ==== Sys2Proof/Machine/Cuts.lean ====
section
/-! DEFINITION. Checkpoints' triggers and timed cuts (R289, R292, R303 to R317). -/

namespace Sys2Proof.Machine

/-- CHECKPOINT_START (R289, R318, R443): at a line, GIB GiB of stamped host data, SECS seconds since the last START or 768 KiB of band-table changes start a
checkpoint, or have the next one follow the one that runs. -/
def execCheckpointStart (s : State) : Res :=
  let due := s.fld F.MAP_CKPT_CFG_GIB * 2 ^ 30 ≤ s.ckpt.stamped ||
    s.ckpt.lastStart + s.fld F.MAP_CKPT_CFG_SECS * secT ≤ s.now || 786432 ≤ s.deltaBytes
  let runs := s.mode == .run || s.mode == .degraded || s.mode == .trial
  if !runs || !due then .next s
  else if s.ckpt.running.isSome then .next { s with ckpt := { s.ckpt with again := true } }
  else .next s.startCheckpoint

/-- CHECKPOINT_SLOW (R292): a checkpoint that is not complete 10 s after its START sets CKPT_SLOW. -/
def execCheckpointSlow (s : State) : Res :=
  match s.ckpt.running with
  | none => .next s
  | some _ =>
    if s.ckpt.slow || s.now < s.ckpt.lastStart + 10 * secT then .next s
    else .next (({ s with ckpt := { s.ckpt with slow := true } }).post F.MAP_CP_EVT_STATUS_CKPT_SLOW noUnit)

/-! ## Checks -/

/-- NSIDs that are free, counting those that pending cuts will take (R304). -/
def State.freeNsids (s : State) : Nat :=
  4096 - s.qe.nss.length - ((s.ckpt.cuts.filter (fun c => c.state == 1)).map (fun c => c.sources.length)).sum

/-- The lowest free key slots (R235). -/
def State.freeSlots (s : State) (n : Nat) : List Nat :=
  ((List.range 4096).filter (fun i => !s.ink.keys.any (fun k => k.slot == i))).take n

/-- The source namespaces of a cut (R303), in NSID order (R309). -/
def State.cutSources (s : State) (nsid : Nat) : List Nat :=
  if nsid = 0xFFFFFFFF then ((s.qe.nss.filter (fun n => n.cut.isNone)).map (fun n => n.nsid)).mergeSort (fun a b => a ≤ b) else [nsid]

/-- The outcome of R304's table: accepted, or the status and DW0 of the first condition that applies. -/
def State.cutCheck (s : State) (origin nsid t now : Nat) : Option (Status × Nat) :=
  let no (r : Nat) : Option (Status × Nat) := some (.cutRefused, r)
  let src := s.cutSources nsid
  if origin = 2 && !s.flag F.MAP_CUT_CFG_BXL_EN then no 0x0A
  else if origin = 1 && (s.mgmt.lock == some .pf0 || s.mgmt.lock == some .pf1) then
    some (.authorityElsewhere, ((s.mgmt.lock.map Holder.code).getD 0))
  else if s.rul.cls = 3 then some (.rulingUnsync, 0)
  else if t < now + 1000000 || now + 60000000000 < t then no 1
  else if s.mode = .safe then no 2
  else if s.map.sanitize.active != 0 then no 3
  else if src.any (fun i => ((s.ns i).map (fun n => n.cut.isSome)).getD false) then no 4
  else if s.ckpt.cuts.any (fun c => c.state == 1 && t < c.time) then no 5
  else if 16 ≤ (s.ckpt.cuts.filter (fun c => c.state == 1 || c.state == 2)).length then no 6
  else if s.freeNsids < src.length then no 7
  else if (s.freeSlots src.length).length < src.length then no 8
  else if 2 ≤ s.map.level then no 9
  else none

/-- The lowest free cut ID (R305). -/
def State.freeCut (s : State) : Nat :=
  ((List.range 16).find? (fun i => !s.ckpt.cuts.any (fun c => c.slot == i))).getD 0

/-- An accepted cut (R305, R307, R235): its ID, its generation, shared by cuts of one T, and its key slots; its record goes
to the Folio, and the command completes when that passes. -/
def State.acceptCut (s : State) (origin nsid t : Nat) (bcast : Bool) (ref : Option Ref) : State :=
  let slot := s.freeCut
  let src := s.cutSources nsid
  let slots := s.freeSlots src.length
  let same := s.ckpt.cuts.find? (fun c => c.time == t)
  let gen := match same with | some c => c.gen | none => s.ckpt.nextGen
  let keyOf (i : Nat) : Nat := (((s.ns i).bind (fun n => n.key)).bind (fun k => (s.ink.keys.find? (fun e => e.slot == k)).map (fun e => e.key))).getD 0
  let c : CutRec := { slot, time := t, gen, all := nsid == 0xFFFFFFFF, sources := src, keys := src.zip slots, origin, bcast }
  let s1 : State := { s with
    ckpt := { s.ckpt with cuts := c :: s.ckpt.cuts, nextGen := if same.isSome then s.ckpt.nextGen else s.ckpt.nextGen + 1 }
    ink := { s.ink with keys := (src.zip slots).map (fun p => ⟨p.2, keyOf p.1⟩) ++ s.ink.keys } }
  s1.folio { job := .cut slot, ref, dw0 := slot + 2 ^ 15 * bit bcast }

/-- A refused cut (R305, R235): it leaves no record and sets CUT_REFUSED, and KEY_FULL for want of a key slot. -/
def State.refuseCut (s : State) (reason : Status × Nat) : State :=
  let s1 := s.post F.MAP_CP_EVT_STATUS_CUT_REFUSED noUnit
  if reason = (.cutRefused, 8) then s1.post F.INK_EVT_STATUS_KEY_FULL noUnit else s1

/-- What a sweep entry says of a cut (R565): 0 accepted, 0x83, 0x84, or the reason. -/
def cutByte (r : Option (Status × Nat)) : Nat :=
  match r with
  | none => 0
  | some (.authorityElsewhere, _) => 0x83
  | some (.rulingUnsync, _) => 0x84
  | some (_, n) => n

/-- Records the outcome of a numbered cut for sweep entries (R316, R565). -/
def State.noteCut (s : State) (no : Nat) (r : Option (Status × Nat)) : State :=
  { s with bxl := { s.bxl with cuts := (cutByte r :: s.bxl.cuts).take 16, cutNo := no } }

/-- CUT_CREATE (R303 to R305, R316): with BCAST the cut goes to DN as a frame before it is checked here; the first
condition of R304 that applies decides. A cut from the sideband takes the lock for its checks. -/
def execCutCreate (ref : Ref) (nsid cdw10 cdw11 cdw12 : Nat) (s : State) : Res :=
  if !s.accepts ref then .next s
  else
    let s0 := s.latch ref
    let t := cdw10 % 2 ^ 32 + 2 ^ 32 * (cdw11 % 2 ^ 32)
    let origin := if ref = .side then 1 else 0
    let bcast := cdw12 % 2 == 1
    if (holderOf ref).isNone then s0.done ref .invalidOpcode
    else if 2 ≤ cdw12 then s0.done ref .invalidField
    else if nsid != 0xFFFFFFFF && (s.ns nsid).isNone then s0.done ref .invalidNamespace
    else
      let r := s0.cutCheck origin nsid t (s.nowAt islQueue / 256)
      let no := s.bxl.cutIssued + 1
      let s1 := if bcast then
          (({ s0 with bxl := { s0.bxl with cutIssued := no } }).bxlSend false (.cut t s.nodeId no (nsid == 0xFFFFFFFF))).noteCut no r
        else s0
      match r with
      | some (st, dw0) => .next ((s1.refuseCut (st, dw0)).complete ref st dw0)
      | none => .next ((if origin = 1 then s1.lockFor ref else s1).acceptCut origin nsid t bcast (some ref))

/-! ## Holding -/

/-- The lowest free NSID. -/
def State.freeNsid (s : State) : Nat :=
  ((List.range 4096).find? (fun i => !s.qe.nss.any (fun n => n.nsid == i + 1))).getD 0 + 1

/-- Raises Namespace Attribute Changed (R309, R313): an asynchronous event to every controller that is enabled. Group 64
stands for the base specification's notice group. Log entry 60 (DESIGN CHOICE). -/
def State.nsChanged (s : State) (nsids : List Nat) : State :=
  let on := s.qe.ctrls.filter (fun c => c.en)
  let new := (on.flatMap (fun c => nsids.map (fun n => (c.id, n)))).filter (fun e => !s.qe.nsLog.contains e)
  on.foldl (fun (s : State) c => s.aenTo 64 c.id) { s with qe := { s.qe with nsLog := s.qe.nsLog ++ new } }

/-- A cut becomes held (R309, R310): one snapshot namespace per source, attached as its source is, with the stamp's class and
uncertainty; HELD goes into the cut record. -/
def State.holdCut (s : State) (c : CutRec) : State :=
  let one (acc : State × List Nat) (p : Nat × Nat) : State × List Nat :=
    match acc.1.ns p.1 with
    | none => acc
    | some n =>
      let id := acc.1.freeNsid
      let m : Ns := { nsid := id, blocks := n.blocks, lbaf := n.lbaf, attached := n.attached, handles := n.handles, key := some p.2
                      cut := some c.slot, source := n.nsid }
      ({ acc.1 with qe := { acc.1.qe with nss := acc.1.qe.nss ++ [m] } }, acc.2 ++ [id])
  let (s1, ids) := c.keys.foldl one (s, [])
  let st := s.stamp
  let s2 : State := { s1 with ckpt := { s1.ckpt with
    cuts := updWhere (fun x => x.slot == c.slot) (fun x => { x with state := 2, snaps := ids, cls := st.cls, unc := st.unc }) s1.ckpt.cuts } }
  ((s2.nsChanged ids).post F.MAP_CP_EVT_STATUS_CUT_HELD c.slot).folio { job := .cut c.slot }

/-- CUT_HOLD (R309, R314, R318): at the first line at or above T a pending cut becomes held. In BOOT and DOZE it waits, and
SAFE creates no cut. -/
def execCutHold (slot : Nat) (s : State) : Res :=
  match s.ckpt.cuts.find? (fun c => c.slot == slot && c.state == 1) with
  | none => .next s
  | some c =>
    if (s.mode == .run || s.mode == .degraded || s.mode == .trial) && c.time * 256 ≤ s.nowAt islQueue then .next (s.holdCut c) else .next s

/-! ## Release -/

/-- A snapshot page is freed when no cut's generation lies in its range (R313). -/
def State.dropSnapPages (s : State) : State :=
  let gens := (s.ckpt.cuts.filter (fun c => c.state == 1 || c.state == 2)).map (fun c => c.gen)
  let live (p : SnapPage) : Bool := gens.any (fun g => p.lo ≤ g && g ≤ p.hi)
  let gone := s.map.snaps.filter (fun p => !live p)
  let s1 : State := { s with map := { s.map with snaps := s.map.snaps.filter live } }
  let s2 := (gone.flatMap (fun p => (p.entries.filterMap (fun e => match e.2 with | .mapped a => some ((p.nsid, e.1), a) | _ => none)))).foldl
    (fun (s : State × List Nat) e =>
      if s.2.contains e.2 || s.1.pinned e.2 || s.1.entry e.1.1 e.1.2 == .mapped e.2 then s
      else (s.1.bumpValid e.2 false, e.2 :: s.2)) (s1, [])
  (gone.filterMap (fun p => p.onMedium)).foldl (fun (s : State) a => if s.ckHolds a then s else s.bumpValid a false) s2.1

/-- Ends the outstanding commands of a namespace with Invalid Namespace or Format (R236, R313). -/
def State.endNsCmds (s : State) (nsid : Nat) : State :=
  (s.qe.cmds.filter (fun c => c.nsid == nsid)).foldl (fun (s : State) c =>
    if c.kind = .read || c.kind = .compare then s.failRead c.ref .invalidNamespace
    else if c.kind = .flush then (s.dropCmd c.ref).complete c.ref .invalidNamespace 0
    else s.failWrite c.ref .invalidNamespace) s

/-- Releases or cancels a cut (R313): its snapshot namespaces go with their commands, its key slots are cleared, its
snapshot pages and the IUs that only they pinned are freed, and tickets that waited on it go on. -/
def State.releaseCut (s : State) (slot : Nat) : State :=
  match s.ckpt.cuts.find? (fun c => c.slot == slot) with
  | none => s
  | some c =>
    let s1 := c.snaps.foldl State.endNsCmds s
    let s2 : State := { s1 with
      qe := { s1.qe with nss := s1.qe.nss.filter (fun n => n.cut != some slot) }
      ink := { s1.ink with pendingClear := s1.ink.pendingClear ++ c.keys.map (fun p => p.2) }
      ckpt := { s1.ckpt with cuts := s1.ckpt.cuts.filter (fun x => x.slot != slot) } }
    let s3 := if c.state = 2 then s2.nsChanged c.snaps else s2
    ((s3.dropSnapPages.post F.MAP_CP_EVT_STATUS_CUT_RELEASED slot).folio { job := .cut slot }).ticketPump

/-- Whether a cut pins data: a snapshot names an address that its source's map no longer names (R312). -/
def State.pinsData (s : State) : Bool :=
  s.map.snaps.any (fun p => p.entries.any (fun e => match e.2 with
    | .mapped a => s.entry p.nsid e.1 != .mapped a
    | _ => false))

/-- The held cut with the lowest generation (R312). -/
def State.lowestHeld (s : State) : Option CutRec :=
  (s.ckpt.cuts.filter (fun c => c.state == 2)).foldl (fun (m : Option CutRec) c => match m with
    | some x => if c.gen < x.gen then some c else m
    | none => some c) none

/-- CUT_EVICT (R312): after EVICT_S seconds at Critical while a cut pins data, the held cut with the lowest generation is
released. -/
def execCutEvict (s : State) : Res :=
  let due := match s.ckpt.critAt with | some t => decide (t + s.fld F.MAP_CUT_CFG_EVICT_S * secT ≤ s.now) | none => false
  if !due || !s.pinsData || !s.flag F.MAP_CUT_CFG_EVICT || s.map.level != 3 then .next s
  else
    match s.lowestHeld with
    | none => .next s
    | some c => .next (({ s with ckpt := { s.ckpt with critAt := some s.now } }).releaseCut c.slot |>.post F.MAP_CP_EVT_STATUS_CUT_EVICT c.slot)

/-- CUT_RELEASE (R313): a free ID is refused; a pending cut is cancelled, a held one released. -/
def execCutRelease (ref : Ref) (cdw10 : Nat) (s : State) : Res :=
  if !s.accepts ref then .next s
  else
    let s0 := s.latch ref
    let slot := cdw10 % 16
    if (holderOf ref).isNone then s0.done ref .invalidOpcode
    else if !s.ckpt.cuts.any (fun c => c.slot == slot) then s0.done ref .invalidField
    else .next ((s0.releaseCut slot).complete ref .success 0)

end Sys2Proof.Machine
end

