-- ==== Sys2Proof/Machine/Shift.lean ====
section
/-! DEFINITION. The shift of every ruling time held for an interval in progress when the count steps (R68): deadline ends, due lines and
timers move on by the step, so that no interval is shortened or lengthened. Ink times, stamps and the times that order commands
stay. -/

namespace Sys2Proof.Machine

/-- The sources' and the discipline's timers. -/
def Rul.shift (r : Rul) (d : Nat) : Rul :=
  let src (x : SrcState) : SrcState := { x with lastAt := x.lastAt + d }
  { r with
    sync := src r.sync, bxl := src r.bxl, ptm := src r.ptm, failA := r.failA.map (· + d), failB := r.failB.map (· + d), uncAt := r.uncAt + d
    lockedAt := r.lockedAt.map (· + d), validAt := r.validAt.map (· + d), resumedAt := r.resumedAt + d
    dialogAt := if r.dialogAt = 0 then 0 else r.dialogAt + d, syncFall := if r.syncOut then r.syncFall + d else r.syncFall, lastEdge := r.lastEdge.map (· + d), tod := r.tod.map (fun t => (t.1, t.2 + d)) }

/-- The Nibs' and the Quills' timers; reserved bus intervals are held in ns. -/
def NibSt.shift (x : NibSt) (d : Nat) : NibSt :=
  let run (r : Run) : Run := { r with accAt := r.accAt + d, edge := r.edge + d, readyAt := r.readyAt + d, susAt := r.susAt.map (· + d) }
  let ctx (c : QCtx) : QCtx := { c with tm := if c.tm = 0 then 0 else c.tm + d }
  let lun (l : Lun) : Lun := { l with
    tempAt := l.tempAt + d, tmoAt := l.tmoAt.map (· + d), unrespAt := l.unrespAt.map (· + d), resetAt := l.resetAt + d }
  { x with
    luns := x.luns.map lun, runs := x.runs.map run, ctxs := x.ctxs.map ctx, trained := x.trained.map (fun e => (e.1, e.2 + d))
    resv := x.resv.map (fun e => (e.1, e.2.1 + d / 256, e.2.2 + d / 256)), mchkAt := x.mchkAt.map (fun e => (e.1, e.2 + d)) }

/-- The timers of commands, queues and the host port. -/
def Qe.shift (q : Qe) (d : Nat) : Qe :=
  { q with
    cmds := q.cmds.map (fun c => { c with deadline := c.deadline.map (· + d / 256) })
    sqs := q.sqs.map (fun x => { x with lastNew := x.lastNew + d })
    keepAlive := q.keepAlive.map (fun k => (k.1, k.2 + d)) }

/-- The timers of the host port. -/
def Hp.shift (h : Hp) (d : Nat) : Hp :=
  { h with
    ports := h.ports.map (fun p => { p with tried := p.tried + d })
    reads := h.reads.map (fun a => { a with out := a.out.map (fun q => { q with at_ := q.at_ + d }) })
    invals := h.invals.map (fun i => { i with at_ := i.at_ + d, step2 := i.step2.map (· + d) }) }

/-- The Inkwell's timers. -/
def Ink.shift (k : Ink) (d : Nat) : Ink :=
  { k with
    waiting := k.waiting.map (fun w => { w with since := w.since + d })
    chains := k.chains.map (fun c => { c with born := (c.born + d / (256 * 1024)) % 2 ^ 32 })
    bankUe := k.bankUe.map (fun e => (e.1, e.2 + d))
    lanes := k.lanes.map (fun l => { l with lastBad := l.lastBad.map (· + d) }) }

/-- The timers of write points, patrol and unit reads. -/
def MapSt.shift (m : MapSt) (d : Nat) : MapSt :=
  { m with
    wps := m.wps.map (fun w => { w with lastIu := w.lastIu + d })
    fetches := m.fetches.map (fun f => { f with deadline := f.deadline.map (· + d / 256) })
    patrolAt := m.patrolAt + d }

/-- The timers of commit groups, the energy store and the dump. -/
def Blt.shift (b : Blt) (d : Nat) : Blt :=
  { b with
    pages := b.pages.map (fun p => { p with openedAt := p.openedAt + d })
    testAt := b.testAt + d, lastTest := b.lastTest.map (· + d), vRefAt := b.vRefAt + d, rise := b.rise.map (fun e => (e.1, e.2 + d)), dumpAt := b.dumpAt + d, holdAt := b.holdAt + d }

/-- The Tines' timers. -/
def Tine.shift (t : Tine) (d : Nat) : Tine :=
  { t with
    ho := t.ho.map (fun h => { h with at_ := h.at_ + d })
    held := t.held.map (fun h => { h with at_ := h.at_ + d })
    resigns := t.resigns.map (fun e => (e.1, e.2 + d))
    waiting := t.waiting.map (fun w => { w with at_ := w.at_ + d })
    joinAt := t.joinAt + d, drillAt := t.drillAt + d }

/-- The link's timers, an exchange that runs, chunks that wait for their acknowledgement, and the TRIAL watchdog. -/
def Bxl.shift (b : Bxl) (d : Nat) : Bxl :=
  { b with
    up := { b.up with lastAt := b.up.lastAt + d }, dn := { b.dn with lastAt := b.dn.lastAt + d }
    report := b.report.map (fun r => { r with at_ := r.at_ + d })
    exch := b.exch.map (fun e => { e with t2 := e.t2 + d, t3 := e.t3 + d })
    relay := b.relay.map (fun r => { r with out := r.out.map (fun x => { x with at_ := x.at_ + d }) })
    exchAt := b.exchAt + d, claimAt := b.claimAt + d, asked := b.asked.map (fun a => (a.1 + d, a.2)), held := b.held.map (fun h => (h.1, h.2 + d))
    wdAt := b.wdAt + d }

/-- Every interval in progress keeps its length (R68). Log entry 36 (DEDUCED). -/
def State.shiftTimes (s : State) (d : Nat) : State :=
  { s with
    evu := { s.evu with aenWait := s.evu.aenWait.map (fun a => (a.1, a.2.1, a.2.2 + d)) }
    rul := s.rul.shift d, stk := s.stk.shift (d / 256), nib := s.nib.shift d, hp := s.hp.shift d, qe := s.qe.shift d, ink := s.ink.shift d
    map := s.map.shift d
    ckpt := { s.ckpt with lastStart := s.ckpt.lastStart + d, critAt := s.ckpt.critAt.map (· + d) }
    blt := s.blt.shift d, tine := s.tine.shift d, bxl := s.bxl.shift d
    gce := { s.gce with lastReq := s.gce.lastReq + d, waiting := s.gce.waiting.map (fun w => (w.1, w.2 + d)) }
    pwr := { s.pwr with retryAt := s.pwr.retryAt + d }
    mgmt := { s.mgmt with lockAt := s.mgmt.lockAt + d }
    fol := { s.fol with scrubAt := s.fol.scrubAt + d }
    thm := { s.thm with
      sensors := s.thm.sensors.map (fun x => { x with apart := x.apart.map (· + d) })
      coolAt := s.thm.coolAt.map (· + d), levelAt := s.thm.levelAt + d, bandsAt := s.thm.bandsAt + d } }

end Sys2Proof.Machine
end

