-- ==== Sys2Proof/Machine/Tines.lean ====
section
/-! DEFINITION. The Tines (R467 to R497): the merge rule, resignation and handover, self-test, resynchronisation, and
drills. -/

namespace Sys2Proof.Machine

/-! ## The pair -/

/-- A Tine's state; `true` is Tine B. -/
def Tine.st (t : Tine) (b : Bool) : TineState := if b then t.b else t.a

/-- Changes a Tine's state. -/
def State.setTine (s : State) (b : Bool) (x : TineState) : State :=
  { s with tine := if b then { s.tine with b := x } else { s.tine with a := x } }

/-- The number of a Tine in a post and in the Colophon: 0 A, 1 B. -/
def tineNo (b : Bool) : Nat := bit b

/-- The Colophon's Tine entry (R493, R535): kinds 0 handover, 1 drill, 2 resynchronisation, 3 masking, with the cause, the
Tine, the duration in ns and t_f. Log entry 66 (DEDUCED). -/
def State.tineEntry (s : State) (kind cause : Nat) (b : Bool) (dur tf : Nat) : State :=
  s.colophon 4 kind (cause + 256 * tineNo b + 2 ^ 32 * dur) tf

/-- A fault with no spare Tine (R486, R487): SAFE with media halted, and both Tines are held in reset. Log entry 66 (DEDUCED). -/
def State.noSpare (s : State) (b : Bool) : State :=
  let s1 := s.post F.TINE_EVT_STATUS_NO_SPARE (tineNo b)
  ({ s1 with tine := { s1.tine with a := .masked, b := .masked, ho := none, dead := true, drill := none, waiting := [], ready := false } }).enterSafe 0x0C true

/-- Completes Role Drill commands with Command Sequence Error (R491). -/
def State.failDrills (s : State) (dw0 : Nat) : State :=
  s.tine.waiting.foldl (fun (s : State) w => s.complete w.ref .cmdSeqError dw0) { s with tine := { s.tine with waiting := [] } }

/-- Counts a resignation under cause 1, cause 2 or R475 (R483, R498). Log entry 66 (DEDUCED). -/
def State.countResign (s : State) (b : Bool) : State :=
  ({ s with tine := { s.tine with resigns := (b, s.now) :: s.tine.resigns, ready := false } }).bumpFld
    (if b then F.TINE_CNT_RESIGN_B else F.TINE_CNT_RESIGN_A)

/-- A standby resigns (R478): no handover; it runs a self-test. -/
def State.standbyResign (s : State) (b : Bool) : State :=
  (((s.countResign b).setTine b .resigned).post F.TINE_EVT_STATUS_STBY_RESIGN (tineNo b)).settle

/-- A handover begins (R479). -/
def State.beginHandover (s : State) (b : Bool) (cause : Nat) : State :=
  let s1 := s.setTine b .resigned
  { s1 with tine := { s1.tine with ho := some { from_ := b, cause, at_ := s.now } } }

/-- A Tine resigns under cause 1 or 2 (R477 to R479, R485 to R487, R491, R492). -/
def State.resign (s : State) (b : Bool) (cause : Nat) : State :=
  match s.tine.st b with
  | .standby => if s.tine.ho.isSome then s.noSpare b else (s.failDrills 1).standbyResign b
  | .joining =>
    (((s.countResign b).setTine b .resigned).post F.TINE_EVT_STATUS_RESYNC_ABORT (tineNo b)).settle
  | .active =>
    let s1 := (s.countResign b).post F.TINE_EVT_STATUS_RESIGN (tineNo b)
    if s1.tine.st (!b) != .standby then s1.noSpare b
    else
      let s2 := (s1.failDrills 1).beginHandover b cause
      ({ s2 with tine := { s2.tine with due := false } }).settle
  | _ => s

/-- TINE_COMPARE_MISMATCH (R467, R477). -/
def execTineCompareMismatch (tine : Bool) (s : State) : Res := .next (s.resign tine 1)

/-- TINE_STATE_ERROR (R477). -/
def execTineStateError (tine : Bool) (s : State) : Res := .next (s.resign tine 2)

/-! ## The merge rule -/

/-- A Tine's request to the Inkwell (R214, R216 to R218): a repeated number is answered with the chain of the first time and takes nothing. -/
def State.inkAsk (s : State) (stream osn : Nat) (ask : InkAsk) : State :=
  match ask, s.ink.osn.find? (fun e => e.1 == stream && e.2.1 == osn) with
  | .none, _ => s
  | .release h o, _ => s.release h o
  | _, some e => s.emit (.inkAnswer stream osn e.2.2)
  | .alloc o last n, none =>
    if n = 0 || 512 < n || s.ink.waiting.any (fun r => r.what == .tine stream osn) then s
    else if s.grantOk o n s.ink.nextOrder then
      let (s1, h) := s.alloc o last n
      s1.inkServed stream osn h
    else s.waitCells o last n (.tine stream osn)
  | .hold h a o, none =>
    match s.hold h a o (.tine stream osn) with
    | (s1, some x) => s1.inkServed stream osn x
    | (s1, none) => s1

/-- Forwards an output (R473): the stream's last OSN rises, and a request to the Inkwell is served. -/
def State.forward (s : State) (stream osn : Nat) (ask : InkAsk) : State :=
  (({ s with tine := { s.tine with last := (stream, osn) :: s.tine.last.filter (fun e => e.1 != stream) } }).emit (.tine stream osn)).inkAsk stream osn ask

/-- Forwards the held outputs that follow in order (R473). The fuel is the number of held outputs. -/
def State.forwardHeld : Nat → Nat → State → State
  | 0, _, s => s
  | fuel + 1, stream, s =>
    let next := (s.tine.last.lookup stream).getD 0 + 1
    match s.tine.held.find? (fun h => h.stream == stream && h.osn == next) with
    | some h =>
      (({ s with tine := { s.tine with held := s.tine.held.filter (fun h => !(h.stream == stream && h.osn == next)) } }).forward stream next h.ask).forwardHeld fuel stream
    | none => s

/-- Counts a duplicate (R473). -/
def State.dupOutput (s : State) : State :=
  ({ s with tine := { s.tine with ho := s.tine.ho.map (fun (h : Handover) => { h with dups := min 255 (h.dups + 1) }) } }).post F.TINE_EVT_STATUS_DUP noUnit

/-- CROSS_CHECK_COMPARE (R475): at an OSN that is a multiple of 256 the two Tines' running CRCs are compared. -/
def State.crossCheck (s : State) (b : Bool) (stream osn crc : Nat) : State :=
  if osn % 256 != 0 || !s.flag F.TINE_CTRL_DIVERGE_EN then s
  else
    match s.tine.marks.find? (fun m => m.tine == !b && m.stream == stream && m.osn == osn) with
    | none => { s with tine := { s.tine with marks := ({ tine := b, stream, osn, crc } : TineMark) :: s.tine.marks } }
    | some m =>
      let s1 : State := { s with tine := { s.tine with marks := s.tine.marks.filter (fun x => !(x.stream == stream && x.osn == osn)) } }
      if m.crc = crc then s1
      else
        let sb := if s1.tine.a = .standby then false else true
        (s1.post F.TINE_EVT_STATUS_DIVERGE (tineNo sb)).standbyResign sb

/-- Whether a Tine's outputs leave the merge (R468, R479): the active Tine's; during a handover the resigning Tine's until its
overlap closes, and the successor's. -/
def State.tineDrives (s : State) (tine : Bool) : Bool :=
  match s.tine.ho with
  | none => s.tine.st tine == .active
  | some h => if h.from_ = tine then h.overlap else s.tine.st tine == .standby

/-- TINE_OUTPUT_OFFER (R218, R468, R473, R475): an output with the Tine's running CRC of the stream after it, and its request to the Inkwell. -/
def execTineOutputOffer (tine : Bool) (stream osn : Nat) (crc : TineOut) (s : State) : Res :=
  let st := s.tine.st tine
  let last := (s.tine.last.lookup stream).getD 0
  if st = .standby && s.tine.ho.isNone then .next (s.crossCheck tine stream osn crc.crc)
  else if !s.tineDrives tine then .next s
  else
    let s1 := if s.tine.ho.isNone && s.tine.paired then s.crossCheck tine stream osn crc.crc else s
    if osn ≤ last then .next s1.dupOutput
    else if osn = last + 1 then .next ((s1.forward stream osn crc.ask).forwardHeld (s1.tine.held.length + 1) stream)
    else if s1.tine.held.any (fun h => h.stream == stream && h.osn == osn) then .next s1.dupOutput
    else .next { s1 with tine := { s1.tine with held := { stream, osn, ask := crc.ask, at_ := s.now } :: s1.tine.held } }

/-- MERGE_GAP_TIMEOUT (R474): an output held for 128 ns means that one was lost. Log entry 3 (DESIGN CHOICE). -/
def execMergeGapTimeout (stream : Nat) (s : State) : Res :=
  if s.tine.held.any (fun h => h.stream == stream && h.at_ + 128 * nsT ≤ s.now) then
    .next ((({ s with tine := { s.tine with dead := true } }).post F.TINE_EVT_STATUS_MERGE_GAP stream).enterSafe 0x0B true)
  else .next s

/-! ## Handover -/

/-- OVERLAP_CLOSE (R479, R480): the resigning Tine's stream is closed. -/
def execOverlapClose (s : State) : Res :=
  match s.tine.ho with
  | none => .next s
  | some h =>
    if !h.overlap then .next s
    else .next { s with tine := { s.tine with ho := some { h with overlap := false, ovl := min 64 ((s.now - h.at_) / nsT) } } }

/-- Operations that a resynchronisation and a drill wait for (R485). -/
def State.tineBlocked (s : State) : Bool :=
  s.mode == .holdUp || s.mode == .doze || s.mode == .off || s.pwr.entry.isSome || !s.bxl.commits.isEmpty || s.bxl.rcd.rotStep != 0 ||
    s.fol.trans.isSome || s.nib.load.isSome || s.rul.step.isSome

/-- The Tine that is ready to join (R484). -/
def Tine.joiner (t : Tine) : Bool := if t.a = .resigned then false else true

/-- The resynchronisation begins (R484, R485). -/
def State.startResync (s : State) (b : Bool) : State :=
  let s1 := s.setTine b .joining
  { s1 with tine := { s1.tine with ready := false, joinAt := s.now } }

/-- After a drill's handover the former active joins at once, without a self-test (R489), or waits in state 3 while an
operation of R485 is in progress. Log entry 107 (DEDUCED). -/
def State.rejoin (s : State) (b : Bool) : State :=
  if s.tineBlocked then { s with tine := { s.tine with ready := true } } else s.startResync b

/-- HANDOVER_COMPLETE (R479, R488, R489, R493): the new active owns the timers and events; after a drill the former active
joins at once. Commands on the path, the Host Port and every other unit go on unchanged (R33, R142, R205, R319, R395, R430, R463, R553, R616). -/
def execHandoverComplete (s : State) : Res :=
  match s.tine.ho with
  | none => .next s
  | some h =>
    if h.overlap then .next s
    else
      let dur := (s.now - h.at_) / nsT
      let ns := h.at_ / nsT
      let s1 := s.setTine (!h.from_) .active
      let s2 : State := { s1 with tine := { s1.tine with
        active := !h.from_, ho := none, drillAt := s.now, marks := [], drill := s1.tine.drill.map (fun (d : Drill) => { d with dur }) } }
      let s3 := ((s2.setFld F.TINE_HO_LAST_CAUSE h.cause).setFld F.TINE_HO_LAST_FROM (tineNo h.from_)).setFld F.TINE_HO_LAST_DUR (min 4095 dur)
      let s4 := ((s3.setFld F.TINE_HO_LAST_OVL h.ovl).setFld F.TINE_HO_LAST_DUPS h.dups).setFld F.TINE_HO_STAMP_LO_NS (ns % 2 ^ 32)
      let s5 := ((s4.setFld F.TINE_HO_STAMP_HI_NS (ns / 2 ^ 32)).bumpFld F.TINE_CNT_HANDOVERS).post F.TINE_EVT_STATUS_HANDOVER (tineNo h.from_)
      let s6 := s5.tineEntry 0 h.cause h.from_ dur ns
      .next (if h.cause = 3 || h.cause = 4 then s6.rejoin h.from_ else s6.settle)

/-! ## Self-test and resynchronisation -/

/-- TINE_SELF_TEST_DONE (R483): a failed pass, or a second resignation within 24 h, masks the Tine; otherwise it is ready to
join. -/
def execTineSelfTestDone (tine pass : Bool) (us : Nat) (s : State) : Res :=
  if s.tine.st tine != .resigned || s.tine.ready || s.tine.ho.isSome || s.mode = .boot then .next s
  else
    let s1 := ((s.setFld F.TINE_ST_RESULT (if pass then 1 else 2)).setFld F.TINE_ST_WHICH (tineNo tine)).setFld F.TINE_ST_DUR_US (min 65535 us)
    let s2 := if pass then s1 else s1.post F.TINE_EVT_STATUS_SELFTEST_FAIL (tineNo tine)
    let recent := (s2.tine.resigns.filter (fun r => r.1 == tine && s.now < r.2 + dayT)).length
    if !pass || 2 ≤ recent then
      .next (((s2.setTine tine .masked).post F.TINE_EVT_STATUS_MASK (tineNo tine)).tineEntry 3 0 tine 0 (s.now / nsT)).settle
    else .next { s2 with tine := { s2.tine with ready := true } }

/-- RESYNC_START (R484, R485). Log entry 107 (DEDUCED). -/
def execResyncStart (s : State) : Res :=
  if !s.tine.ready || !(s.flag F.TINE_CTRL_RESYNC_EN || s.tine.drill.isSome) || s.tine.ho.isSome || s.tineBlocked then .next s
  else .next (s.startResync s.tine.joiner)

/-- Ends the resynchronisation that PFAIL_N interrupts (R485): the joining Tine waits again. -/
def State.abortResync (s : State) : State :=
  let stop (s : State) (b : Bool) : State :=
    let s1 := (s.setTine b .resigned).post F.TINE_EVT_STATUS_RESYNC_ABORT (tineNo b)
    { s1 with tine := { s1.tine with ready := true, drill := none } }
  if s.tine.a = .joining then stop s false else if s.tine.b = .joining then stop s true else s

/-! ## Drills -/

/-- A drill begins (R489, R492): the standby's checker reports its injected mismatch or the standby has resigned; the
active then resigns under cause 4 where a Role Drill is outstanding, and under cause 3 otherwise. -/
def State.startDrill (s : State) (reports : Bool) : State :=
  let act := s.tine.active
  if !reports then ((s.failDrills 2).standbyResign (!act))
  else
    let cause := if s.tine.waiting.isEmpty then 3 else 4
    let d : Drill := { cause, from_ := act, refs := s.tine.waiting.map (fun w => w.ref) }
    ({ s with tine := { s.tine with drill := some d, waiting := [], due := false } }).beginHandover act cause

/-- Whether a drill can run at this instant (R488, R491). -/
def State.drillFree (s : State) : Bool :=
  s.tine.paired && !s.tineBlocked && (s.mode == .run || s.mode == .degraded || s.mode == .trial)

/-- The Role Drills that wait (R491): they run once no operation of R485 is in progress, and fail 10 s after their latch. -/
def State.drillPump (s : State) : State :=
  match s.tine.waiting with
  | [] => s
  | w :: _ =>
    if !s.tine.paired then s.failDrills 2
    else if s.mode = .safe then s.failDrills 3
    else if s.drillFree then s.startDrill (s.tine.waiting.all (fun w => w.reports))
    else if w.at_ + 10 * secT ≤ s.now then
      let late := s.tine.waiting.filter (fun w => w.at_ + 10 * secT ≤ s.now)
      let s1 : State := { s with tine := { s.tine with waiting := s.tine.waiting.filter (fun w => s.now < w.at_ + 10 * secT) } }
      late.foldl (fun (s : State) w => s.complete w.ref .cmdSeqError 4) s1
    else s

/-- RESYNC_COMPLETE (R484, R489, R491, R493): the joining Tine is the standby; a drill ends and its commands complete. Log entry 3 (DESIGN CHOICE). -/
def execResyncComplete (s : State) : Res :=
  let b := if s.tine.a = .joining then false else true
  if s.tine.st b != .joining || s.mode = .holdUp || s.mode = .off then .next s
  else
    let stall := (s.now - s.tine.joinAt) / usT
    let s1 := ((s.setTine b .standby).setFld F.TINE_RESYNC_STALL_US (min 65535 stall)).post F.TINE_EVT_STATUS_RESYNC (tineNo b)
    let s2 := s1.tineEntry 2 0 b ((s.now - s.tine.joinAt) / nsT) (s.tine.joinAt / nsT)
    match s.tine.drill with
    | none => .next ({ s2 with tine := { s2.tine with marks := [] } }).settle
    | some d =>
      let s3 : State := { s2 with tine := { s2.tine with drill := none, marks := [] }, bxl := { s2.bxl with drilled := true } }
      let s4 := ((s3.bumpFld F.TINE_CNT_DRILLS).post F.TINE_EVT_STATUS_DRILL (tineNo d.from_)).tineEntry 1 d.cause d.from_ d.dur (s.tine.joinAt / nsT)
      let dw0 := tineNo s4.tine.active + 2 ^ 16 * min 65535 d.dur
      .next (d.refs.foldl (fun (s : State) r => s.complete r .success dw0) s4).settle

/-- DRILL_DUE (R488, R492): the period has elapsed; the drill runs, or it is deferred. `reports` says whether the standby's
checker reports its injected mismatch. -/
def execDrillDue (reports : Bool) (s : State) : Res :=
  if !s.flag F.TINE_CTRL_DRILL_EN || s.tine.drill.isSome || s.mode = .off
      || !(s.tine.due || s.tine.drillAt + s.fld F.TINE_DRILL_PERIOD_H * 3600 * secT ≤ s.now) then .next s
  else if s.drillFree then .next (s.startDrill reports)
  else if s.tine.due then .next s
  else .next (({ s with tine := { s.tine with due := true } }).post F.TINE_EVT_STATUS_DRILL_DEFER noUnit)

/-- ROLE_DRILL (R491, R492): the conditions in order; a command that arrives while a drill runs joins it. -/
def execRoleDrill (ref : Ref) (params : Nat) (reports : Bool) (s : State) : Res :=
  if !s.accepts ref then .next s
  else
    let s0 := s.latch ref
    if (holderOf ref).isNone then s0.done ref .invalidOpcode
    else if params != 0 then s0.done ref .invalidField
    else
      match s0.tine.drill with
      | some d => .next { s0 with tine := { s0.tine with drill := some { d with refs := d.refs ++ [ref] } } }
      | none =>
        if !s0.tine.paired then s0.done ref .cmdSeqError 2
        else if s0.mode = .safe then s0.done ref .cmdSeqError 3
        else
          let w : RoleDrill := { ref, at_ := s.now, reports }
          .next ({ s0 with tine := { s0.tine with waiting := s0.tine.waiting ++ [w] } }).drillPump

end Sys2Proof.Machine
end

