-- ==== Sys2Proof/Machine/Ruling.lean ====
section
/-! DEFINITION. The Ruling island (chapter 2): the two counters, lines and island copies, sources and discipline, steps,
time of day and the snapshot registers. -/

namespace Sys2Proof.Machine

/-! ## Counters -/

/-- The residue that belongs to a counter's contents (R36, R38). -/
def Counter.residue (c : Counter) : Nat := (c.count + c.line) % 3

/-- The residue check (R36). -/
def Counter.ok (c : Counter) : Bool := c.res == c.residue

/-- The total rate adjustment in 1/256 ppb, within ±2,500 ppb (R41, R51). -/
def Rul.rate (r : Rul) : Int := clampInt (-640000) 640000 (r.freq + r.phase)

/-- Advances a counter by an increment, its residue with it. -/
def Counter.advance (c : Counter) (inc : Nat) : Counter :=
  { c with count := c.count + inc, res := (c.res + inc) % 3 }

/-- One line pulse of a counter's line index. -/
def Counter.nextLine (c : Counter) : Counter := { c with line := c.line + 1, res := (c.res + 1) % 3 }

/-- The increment of one 2 ns tick in 1/256 ns and the part kept below it (R36, R41). -/
def Rul.increment (r : Rul) : Nat × Nat :=
  let total := r.acc + (512 * ((rateDen : Int) + r.rate)).toNat
  (total / rateDen, total % rateDen)

/-- A soft error's flips, before the checks. -/
def Rul.upset (r : Rul) (u : Upset) : Rul :=
  { r with
    a := { r.a with count := r.a.count ^^^ u.countA, line := r.a.line ^^^ u.lineA }
    b := { r.b with count := r.b.count ^^^ u.countB, line := r.b.line ^^^ u.lineB } }

/-- No time base is left: SAFE with media halted under cause 0x02 (R39, R40). -/
def State.noCounter (s : State) : State :=
  ({ s.postAs F.RUL_EVT_STATUS_CNT_FAULT 4 .uncorrectable noUnit with rul := { s.rul with running := false } }).enterSafe 2 true

/-- One counter's residue failure (R37): reloaded from the other, masked at the second failure within 24 h. -/
def State.reloadCounter (s : State) (isA : Bool) : State :=
  let good := if isA then s.rul.b else s.rul.a
  let again (last : Option Nat) : Bool := match last with | some t => good.count - t ≤ dayT | none => false
  let r := if isA then
      { s.rul with a := good, maskA := s.rul.maskA || again s.rul.failA, failA := some good.count }
    else { s.rul with b := good, maskB := s.rul.maskB || again s.rul.failB, failB := some good.count }
  ({ s with rul := r }).settle.postAs F.RUL_EVT_STATUS_CNT_FAULT 1 .corrected noUnit

/-- The checks of one tick (R36 to R40). After a conflict that cannot be resolved the spec does not say which count is used: both go on, Count A's is
used, and each later tick that finds them different is a further occurrence. Log entry 81 (DESIGN CHOICE). -/
def State.checkCounters (s : State) : State :=
  if s.rul.maskA then if s.rul.b.ok then s else s.noCounter
  else if s.rul.maskB then if s.rul.a.ok then s else s.noCounter
  else
    match s.rul.a.ok, s.rul.b.ok with
    | false, false => s.noCounter
    | false, true => s.reloadCounter true
    | true, false => s.reloadCounter false
    | true, true =>
      if s.rul.a.count = s.rul.b.count && s.rul.a.line = s.rul.b.line then s
      else if s.rul.b.line < s.rul.a.line then
        ({ s with rul := { s.rul with b := s.rul.a } }).postAs F.RUL_EVT_STATUS_CNT_FAULT 2 .corrected noUnit
      else if s.rul.a.line < s.rul.b.line then
        ({ s with rul := { s.rul with a := s.rul.b } }).postAs F.RUL_EVT_STATUS_CNT_FAULT 2 .corrected noUnit
      else (s.postAs F.RUL_EVT_STATUS_CNT_FAULT 3 .uncorrectable noUnit).enterSafe 1 false

/-- The length of a SYNC_OUT pulse in 1/256 ns, and the interval of rising edges (R70); none with the output off. -/
def State.syncShape (s : State) : Option (Nat × Nat) :=
  match s.fld F.RUL_SYNC_OUT_MODE with
  | 1 => some (s.fld F.RUL_SYNC_OUT_WIDTH * msT, secT)
  | 2 => some (50 * nsT, 100 * nsT)
  | _ => none

/-- SYNC_OUT after the count moved on from `old` by a tick (R70, R72): it rises at a multiple of the interval that the tick reaches, and
falls at the end of its pulse. An edge in an interval that a step skips is not emitted (R68), and a pulse that runs keeps its length. Log entry 81 (DESIGN CHOICE). -/
def State.syncOutAt (s : State) (old : Nat) : State :=
  let low : State := { s with rul := { s.rul with syncOut := false, syncFall := 0 } }
  if s.mode = .off || s.mode = .doze || (s.rul.cls = 3 && !s.flag F.RUL_SYNC_OUT_IN_D) then low
  else
    match s.syncShape with
    | none => low
    | some (len, every) =>
      let edge := s.now / every * every
      if old / every < s.now / every && len != 0 then { s with rul := { s.rul with syncOut := true, syncFall := edge + len } }
      else if s.rul.syncFall ≤ s.now then low
      else s

/-! ## Lines and islands -/

/-- An island at the pulse of line `k` (R44, R45): its copy takes the announced count, never going back, and the local ticks since the
previous pulse calibrate the next interval. -/
def Island.atLine (x : Island) (k : Nat) : Island :=
  match x.taken.lookup k with
  | some c =>
    let c := max x.copy c
    { x with taken := x.taken.filter (fun t => k < t.1), base := c, copy := c, cal := if x.pulsed then x.ticks else 0, ticks := 0, pulsed := true }
  | none => { x with cal := if x.pulsed then x.ticks else 0, ticks := 0, pulsed := true }

/-- An island between pulses (R45, R46): `n` more local ticks, each a calibrated step of the pitch, held at 1/256 ns below the next line;
the copy keeps within 2.5 ns of the Ruling's count `now` and never goes back. Log entry 81 (DESIGN CHOICE). -/
def Island.tick (x : Island) (pitch now n : Nat) : Island :=
  let ticks := x.ticks + n
  let at_ := if x.cal = 0 then now else x.base + pitch * ticks / x.cal
  let near := max (now - 640) (min at_ (now + 640))
  { x with ticks, copy := max x.copy (min near (x.base + pitch - 1)) }

/-- The count that the Ruling announces for the line `ahead` lines past the one now due (R44, R68): a step line's includes the step. -/
def State.lineCount (s : State) (ahead : Nat) : Nat :=
  let k := s.rul.lineIdx + 1 + ahead
  let step := match s.rul.step with
    | some p => if p.line ≤ k then p.size else 0
    | none => 0
  s.rul.nextLine + ahead * (s.pitchNs * 256) + step

/-- LINE_PULSE (R42 to R45, R88): at the count of the next line the line index advances, every island copy is set to its announced
count, the line two ahead is announced, the next line lies one pitch on, the per-line charge account advances one line, and a charge above the
cap is looked at again (R93). Before that count no line falls. -/
def execLinePulse (s : State) : Res :=
  if s.rul.running && s.rul.nextLine ≤ s.now then
    let r := s.rul
    let k := r.lineIdx + 1
    let ann := (k + 2, s.lineCount 2)
    .next ({ s with rul := { r with
      a := if r.maskA then r.a else r.a.nextLine
      b := if r.maskB then r.b else r.b.nextLine
      nextLine := r.nextLine + s.pitchNs * 256
      islands := r.islands.map (fun (e : Nat × Island) => (e.1, { e.2.atLine k with fifo := (e.2.atLine k).fifo ++ [ann] })) } }).horizonAdvance.capWatch
  else .next s

/-- The count that an island expects of the announcement of line `k` (R44): the previous one plus the pitch, and the step on the step
line alone; none for the first. -/
def State.expectedLine (s : State) (x : Island) (k : Nat) : Option Nat :=
  let step := match s.rul.step with
    | some p => if p.line = k then p.size else 0
    | none => 0
  x.last.map (fun c => c + s.pitchNs * 256 + step)

/-- LINE_ANNOUNCEMENT (R44): an island takes the oldest announcement out of its handshake FIFO, as the count that arrives; it is checked
against the previous one plus the pitch, the step line excepted, and taken in either case. -/
def execLineAnnouncement (island count : Nat) (s : State) : Res :=
  match s.rul.islands.lookup island with
  | none => .next s
  | some x =>
    match x.fifo with
    | [] => .next s
    | (k, _) :: rest =>
      let x1 : Island := { x with fifo := rest, taken := x.taken ++ [(k, count)], last := some count }
      let s1 : State := { s with rul := { s.rul with islands := s.rul.islands.map (fun e => if e.1 = island then (island, x1) else e) } }
      .next (if (s.expectedLine x k).all (· == count) then s1 else s1.post F.RUL_EVT_STATUS_ANN_FAULT island)

/-! ## Sources -/

/-- A source's qualification record. -/
def Rul.src (r : Rul) : Src → SrcState
  | .sync => r.sync | .bxl => r.bxl | .ptm => r.ptm | .holdover => {}

/-- Stores a source's qualification record. -/
def Rul.setSrc (r : Rul) (x : Src) (v : SrcState) : Rul :=
  match x with
  | .sync => { r with sync := v } | .bxl => { r with bxl := v } | .ptm => { r with ptm := v } | .holdover => r

/-- The source codes of R47's table. -/
def srcOfCode : Nat → Src
  | 1 => .sync | 2 => .bxl | 3 => .ptm | _ => .holdover

/-- The code of a source. -/
def srcCode : Src → Nat
  | .holdover => 0 | .sync => 1 | .bxl => 2 | .ptm => 3

/-- The lock threshold of a source in 1/256 ns (R49). -/
def srcThreshold : Src → Nat
  | .ptm => 20 * 256
  | _ => 256

/-- The priority list of feature 0xC3 (R48); empty positions drop out. -/
def State.prio (s : State) : List Src :=
  ([s.fld F.RUL_SRC_PRIO_P1, s.fld F.RUL_SRC_PRIO_P2, s.fld F.RUL_SRC_PRIO_P3].map srcOfCode).filter (· != .holdover)

/-- PTM is used when the host has enabled it on the owning function and RUL_PTM_CFG.EN is 1 (R55). -/
def State.ptmUsed (s : State) : Bool := !s.hp.ptm.isEmpty && s.flag F.RUL_PTM_CFG_EN

/-- The highest-priority qualified source (R50); none with discipline off (R56). -/
def State.pickSource (s : State) : Src :=
  if s.flag F.RUL_CTRL_DISC_EN then ((s.prio.find? (fun x => (s.rul.src x).qual)).getD .holdover) else .holdover

/-- The source that supplies phase: SYNC_IN supplies it only while time of day runs (R53's table of sources). -/
def State.pickPhase (s : State) : Src :=
  if s.flag F.RUL_CTRL_DISC_EN then
    ((s.prio.find? (fun x => (s.rul.src x).qual && (x != .sync || s.rul.todSec.isSome))).getD .holdover)
  else .holdover

/-- The class code and the bound in ns that a locked source gives (R54, R57): a Brynnyx node takes its master's class, so a master that
is out of lock gives class C with its own uncertainty. -/
def State.srcClass (s : State) : Src → Nat × Nat
  | .sync => (0, 5)
  | .ptm => (1, 50)
  | .bxl =>
    let extra := ceilDiv (15 * s.rul.hops) 100
    if 2 ≤ s.bxl.masterCls then (2, s.bxl.masterUnc + extra)
    else if s.bxl.masterSrc = 1 then (if s.rul.hops ≤ 32 then 0 else 1, 5 + extra)
    else if s.bxl.masterSrc = 3 then (1, 50 + extra)
    else (2, s.bxl.masterUnc + extra)
  | .holdover => (2, 65535)

/-- Changes the class and reports the change. -/
def State.setClass (s : State) (c : Nat) : State :=
  if s.rul.cls = c then s else ({ s with rul := { s.rul with cls := c } }).post F.RUL_EVT_STATUS_CLASS_CHG noUnit

/-- Enters holdover (R58): the frequency term holds, the phase term is 0, class A or B becomes C, and the uncertainty
grows from its value at the last valid sample. -/
def State.enterHoldover (s : State) : State :=
  let s1 : State := { s with rul := { s.rul with phase := 0, lock := false, lockOut := 0, lockedAt := none,
                                                 growth := if s.rul.settled then 20 else 500 } }
  if s1.rul.cls = 3 then s1 else s1.setClass 2

/-- Chooses the source again (R50, R52): a change never steps the count, and one of the source that supplies phase ends the lock. -/
def State.reselect (s : State) : State :=
  let f := s.pickSource
  let p := s.pickPhase
  let s0 : State := if p = s.rul.phaseSrc then s else { s with rul := { s.rul with phaseSrc := p, lock := false, lockOut := 0, lockedAt := none } }
  let s1 := if f = s.rul.follow then s0 else ({ s0 with rul := { s0.rul with follow := f } }).post F.RUL_EVT_STATUS_SRC_CHG noUnit
  if p = .holdover then (if s.rul.phaseSrc != .holdover || s1.rul.phase != 0 || (s1.rul.growth = 0 && s1.rul.cls != 3) then s1.enterHoldover else s1)
  else if s1.rul.lock then s1
  else
    let off := (s1.rul.src p).off
    let bound := (s1.srcClass p).2
    ({ s1 with rul := { s1.rul with uncBase := bound * 256 + off.natAbs, uncAt := s1.now, growth := 0 } }).setClass 2

/-- Whether the newest four samples lie within four times the threshold (R49). -/
def consistent (thr : Nat) (l : List Int) : Bool :=
  l.length == 4 && (l.foldl max (l.headD 0) - l.foldl min (l.headD 0) ≤ (4 * thr : Int))

/-- Decides a forward step (R66, R68): S is the measured offset rounded down to a multiple of the pitch, applied at the
line 64 lines on. -/
def State.decideStep (s : State) (off : Nat) (src : Src) (ref : Option Ref) : State :=
  let unit := s.pitchNs * 256
  { s with rul := { s.rul with step := some ⟨off / unit * unit, s.rul.lineIdx + 64, src, ref⟩ } }

/-- One valid sample of a source (R49 to R52, R65, R66): it may qualify the source; the sample of the source that
supplies phase drives the servo, the lock, the class and the backward flag, and may decide a first acquisition. Where SYNC_IN supplies
frequency only, the spec does not say whose samples drive the frequency term: its own do, and so do those of the source that supplies phase. Log entry 8 (DESIGN CHOICE). -/
def State.sample (s : State) (x : Src) (off : Int) : State :=
  if !s.flag F.RUL_CTRL_DISC_EN then s
  else
    let q := s.rul.src x
    let recent := (off :: q.recent).take 4
    let qual := q.qual || consistent (srcThreshold x) recent
    let q1 : SrcState := { qual, recent, lastAt := s.now, off, bad := 0, owed := q.owed && !qual }
    let wasD := s.rul.cls == 3
    let s1 := ({ s with rul := { s.rul.setSrc x q1 with validAt := some s.now } }).reselect
    let freq := clampInt (-384000) 384000 (Config.servoFreq off s1.rul.freq (srcCode x))
    if s1.pickPhase = x then
      let thr : Int := (srcThreshold x)
      let m : Int := off.natAbs
      let lockOut := if 2 * thr < m then s1.rul.lockOut + 1 else 0
      let lock := if s1.rul.lock then lockOut < 2 else recent.length == 4 && recent.all (fun o => (o.natAbs : Int) ≤ thr)
      let at' := if lock then (match s1.rul.lockedAt with | some t => some t | none => some s1.now) else none
      let settled := match at' with | some t => 1000 * secT ≤ s1.now - t | none => false
      let bound := (s1.srcClass x).2
      let s2 : State := { s1 with rul := { s1.rul with
        offset := off, freq := freq
        phase := clampInt (-256000) 256000 (Config.servoPhase off s1.rul.phase (srcCode x))
        lockOut, lock, lockedAt := at', settled
        uncBase := bound * 256 + (if lock then 0 else off.natAbs), uncAt := s1.now, growth := 0 } }
      let s3 := s2.setClass (if lock then (s2.srcClass x).1 else 2)
      let s4 :=
        if off < -(10000 * 256 : Int) && !s3.rul.back then
          (({ s3 with rul := { s3.rul with back := true } }).post F.RUL_EVT_STATUS_BACK noUnit).colophon 6 2 (srcCode x) (off.natAbs / 256)
        else if m ≤ thr then { s3 with rul := { s3.rul with back := false } }
        else s3
      if wasD && (msT : Int) < off && s4.flag F.RUL_CTRL_FIRST_STEP_EN && s4.rul.step.isNone && s4.mode != .holdUp then
        s4.decideStep off.toNat x none
      else s4
    else if s1.rul.follow = x then { s1 with rul := { s1.rul with freq := freq } }
    else s1

/-- A sample that fails (R49): those before it and those after it are not consecutive. -/
def Rul.broken (r : Rul) (x : Src) : Rul := r.setSrc x { r.src x with recent := [] }

/-- Declares a source lost (R49, R53, R671): a qualified source is reported lost, and so is one that was qualified when the Ruling stopped
and has not qualified again since; the end of SYNC_IN's qualification ends the arming and time of day. -/
def State.loseSource (s : State) (x : Src) : State :=
  let q := s.rul.src x
  let r1 := s.rul.setSrc x { qual := false, recent := [], lastAt := q.lastAt, off := q.off }
  let r2 := if x = .sync then { r1 with lastEdge := none } else r1
  let r3 := if x = .sync && q.qual then { r2 with tod := none, todSec := none } else r2
  let s1 : State := { s with rul := r3 }
  if q.qual || q.owed then (s1.post F.RUL_EVT_STATUS_SRC_LOST (srcCode x)).reselect else s1

/-- Whether the discipline runs in this mode (R72). Log entry 8 (DESIGN CHOICE). -/
def State.disciplined (s : State) : Bool :=
  s.rul.running && (match s.mode with | .off | .doze | .holdUp => false | _ => true)

/-- SYNC_IN_EDGE (R49, R53): the edge assigns or advances the seconds, and one edge is one sample; an edge more than
1 µs off its instant is no valid sample, and the second in a row is a loss. The spec does not say from what the expected instant of a PPS edge
is measured: it is the last edge plus 1 s, whether or not that edge was on its own instant. Log entry 81 (DESIGN CHOICE). -/
def execSyncInEdge (s : State) : Res :=
  let mode := s.fld F.RUL_SYNC_CFG_MODE
  if !s.disciplined || mode = 0 || mode = 3 then .next s
  else
    let now := s.now
    let period := if mode = 1 then secT else 100 * msT
    let toEdge : Option Int := s.rul.lastEdge.map (fun e => ((e + period : Nat) : Int) - (now : Int))
    let sec := match s.rul.tod with
      | some (v, at') => if mode = 1 && 100 * msT < now - at' then some v else s.rul.todSec.map (· + 1)
      | none => s.rul.todSec.map (· + 1)
    let used := match s.rul.tod with | some (_, at') => mode == 1 && 100 * msT < now - at' | none => false
    let s1 : State := { s with rul := { s.rul with
      lastEdge := some now
      todSec := if mode = 1 then sec else none
      tod := if used then none else s.rul.tod } }
    let offEdge := match toEdge with | some d => mode == 1 && usT < d.natAbs && !used | none => false
    if offEdge then
      let bad := s1.rul.sync.bad + 1
      let s2 : State := { s1 with rul := { s1.rul with sync := { s1.rul.sync with bad := bad, recent := [] } } }
      .next (if 2 ≤ bad then s2.loseSource .sync else s2)
    else
      match s1.rul.todSec with
      | some v => .next (s1.sample .sync (((v * secT + s1.fld F.RUL_SYNC_DELAY_DELAY : Nat) : Int) - now))
      | none =>
        match toEdge with
        | some d => .next (s1.sample .sync d)
        | none => .next s1

/-- SYNC_IN_LOSS_TIMEOUT (R49, R671): no edge within the loss time, 1.1 s of the PPS and 1 µs of the 10 MHz, counted from the last edge
or from the Ruling's start. Before that nothing is declared. -/
def execSyncInLossTimeout (s : State) : Res :=
  let wait := if s.fld F.RUL_SYNC_CFG_MODE = 2 then usT else 1100 * msT
  let since := max (s.rul.lastEdge.getD 0) s.rul.resumedAt
  if s.disciplined && since + wait ≤ s.now then .next (s.loseSource .sync) else .next s

/-- TOD_ARM (R53): the written seconds wait for the first accepted edge more than 100 ms on. -/
def execTodArm (s : State) : Res :=
  .next { s with rul := { s.rul with
    tod := some (s.fld F.RUL_TOD_SEC_LO_SEC + s.fld F.RUL_TOD_SEC_HI_SEC * 2 ^ 32, s.now) } }

/-! ## PTM -/

/-- The 64-bit signed RUL_PTM_OFFSET in ns (R55). -/
def State.ptmOffset (s : State) : Int :=
  signedOf 64 (s.fld F.RUL_PTM_OFFSET_LO_OFS + s.fld F.RUL_PTM_OFFSET_HI_OFS * 2 ^ 32)

/-- The port whose PTM the Ruling uses (R143): HP_CFG.PTM_PORT's, or the other one where PTM is enabled only there. -/
def State.ptmPort (s : State) : Nat :=
  let own := s.fld F.HP_CFG_PTM_PORT
  if s.hp.ptm.contains own then own else 1 - own

/-- PTM_DIALOG_START (R73, R143): RUL_PTM_CFG.PERIOD ms after the last one a dialog opens on the port whose PTM the Ruling uses; a qualified PTM
whose port has been reset is still asked, and its dialogs fail. -/
def execPtmDialogStart (s : State) : Res :=
  let p := s.ptmPort
  let due := s.rul.dialogAt = 0 || s.rul.dialogAt + s.fld F.RUL_PTM_CFG_PERIOD * msT ≤ s.now
  if (s.ptmUsed || (s.rul.ptm.qual && s.flag F.RUL_PTM_CFG_EN)) && s.disciplined && due && !s.rul.dialog.contains p then
    .next ({ s with rul := { s.rul with dialog := p :: s.rul.dialog, dialogAt := s.now } }.emit (.ptmRequest p))
  else .next s

/-- PTM_RESPONSE (R55, R143, R144): within 1 ms of the request, PTM Master Time at this instant, in 1/256 ns, plus RUL_PTM_OFFSET is the
reference. -/
def execPtmResponse (port : Nat) (master : Int) (s : State) : Res :=
  if s.rul.dialog.contains port && s.now ≤ s.rul.dialogAt + msT then
    let s1 : State := { s with rul := { s.rul with dialog := s.rul.dialog.erase port } }
    if s1.ptmUsed && s1.disciplined then .next (s1.sample .ptm (master + 256 * s1.ptmOffset - s1.now)) else .next s1
  else .next s

/-- A PTM dialog fails (R49, R144): it breaks the row of samples, and the third failure in a row is a loss. -/
def State.dialogFails (s : State) (port : Nat) : State :=
  if !s.rul.dialog.contains port then s
  else
    let bad := s.rul.ptm.bad + 1
    let s1 : State := { s with rul := { s.rul with
      dialog := s.rul.dialog.erase port, ptm := { s.rul.ptm with bad := bad, recent := [] } } }
    if 3 ≤ bad then s1.loseSource .ptm else s1

/-- PTM_DIALOG_TIMEOUT (R49, R144): no response came within 1 ms of the request. -/
def execPtmDialogTimeout (port : Nat) (s : State) : Res :=
  if s.now < s.rul.dialogAt + msT then .next s else .next (s.dialogFails port)

/-- PTM_DISABLED_BY_HOST (R49, R55, R143): the host enables or disables PTM on a port's function; disabling it there where
the Ruling uses it makes PTM unqualified at once, and the other port may serve from then on. -/
def execPtmDisabledByHost (port : Nat) (enable : Bool) (s : State) : Res :=
  let others := s.hp.ptm.filter (· != port)
  if enable then
    .next (if s.qe.ctrls.any (fun c => c.id == port) && s.hasPort port then { s with hp := { s.hp with ptm := others ++ [port] } } else s)
  else
    let used := s.hp.ptm.contains port && s.ptmPort == port
    let s1 : State := { s with hp := { s.hp with ptm := others }, rul := { s.rul with dialog := s.rul.dialog.filter (· != port) } }
    .next (if used then s1.loseSource .ptm else s1)

/-! ## Steps -/

/-- RULING_STEP_AUTHORIZE (R67): the conditions in order, the first that applies decides. -/
def execRulingStepAuthorize (ref : Ref) (cdw10 : Nat) (s : State) : Res :=
  if !s.accepts ref then .next s
  else
    let s := s.latch ref
    let lim := bitsOf cdw10 0 16
    let off := s.rul.offset
    match holderOf ref, s.heldAgainst ref with
    | none, _ => s.done ref .invalidOpcode
    | _, some h => s.done ref .authorityElsewhere h.code
    | _, none =>
      if lim = 0 then s.done ref .invalidField
      else if !(s.rul.sync.qual || s.rul.bxl.qual || s.rul.ptm.qual) then s.done ref .rulingUnsync
      else if s.ckpt.cuts.any (fun c => c.state == 1) then s.done ref .cmdSeqError
      else if s.rul.step.isSome then s.done ref .cmdSeqError
      else if off ≤ (msT : Int) then s.done ref .success 0
      else if ((lim * msT : Nat) : Int) < off then
        s.done ref .invalidField (min 0xFFFFFFFF (off.toNat / msT))
      else .next ((s.lockFor ref).decideStep off.toNat s.rul.follow (some ref))

/-- RULING_STEP_APPLY (R68, R69, R72): at the step line the count and every future ruling time held move on by S, the entry
is written and the command completes with the step in µs. -/
def execRulingStepApply (s : State) : Res :=
  match s.rul.step with
  | none => .next s
  | some p =>
    if s.rul.lineIdx < p.line || s.mode = .holdUp then .next s else
    let before := s.stamp
    let s1 := s.colophon 6 (if p.ref = none then 1 else 0) (srcCode p.src) (p.size / 256)
    let move (c : Counter) : Counter := c.advance p.size
    let s2 : State := { s1 with rul := { s1.rul with
      a := move s1.rul.a, b := move s1.rul.b, nextLine := s1.rul.nextLine + p.size, step := none
      offset := s1.rul.offset - p.size, lastStep := before, stepNs := p.size / 256 } }
    let s3 := (s2.shiftTimes p.size).post F.RUL_EVT_STATUS_STEP noUnit
    match p.ref with
    | some ref => .next ((s3.unlockTemp ref).complete ref .success (p.size / usT))
    | none => .next s3

/-- A decided step is given up (R72): the announcements on their way carry it no more. Log entry 81 (DESIGN CHOICE). -/
def State.dropStep (s : State) : State :=
  match s.rul.step with
  | none => s
  | some p =>
    let less (t : Nat × Nat) : Nat × Nat := if p.line ≤ t.1 then (t.1, t.2 - p.size) else t
    let one (x : Island) : Island :=
      let sent := match x.taken.getLast? with | some t => decide (p.line ≤ t.1) | none => false
      { x with fifo := x.fifo.map less, taken := x.taken.map less, last := if sent then x.last.map (· - p.size) else x.last }
    { s with rul := { s.rul with step := none, islands := s.rul.islands.map (fun e => (e.1, one e.2)) } }

/-! ## Snapshot reads -/

/-- RUL_NOW_LO_READ (R74): the read latches RUL_NOW_HI and RUL_NOW_AUX from the same tick. -/
def execRulNowLoRead (s : State) : Res :=
  let ns := s.now / 256
  .next ({ s with rul := { s.rul with
    snapHi := ns / 2 ^ 32 % 2 ^ 32, snapAux := s.rul.cls + s.uncNow * 2 ^ 16 } }.emit (.regRead 0x1010 (ns % 2 ^ 32)))

end Sys2Proof.Machine
end

