-- ==== Sys2Proof/Machine/UpdateOps.lean ====
section
/-! DEFINITION. Firmware packages (R185, R531, R571 to R578): the checks of a commit, its refusals, what it stores and the
slot record. -/

namespace Sys2Proof.Machine

/-! ## Fuses that the checks read -/

/-- A resolved fuse word (R527). -/
def State.fuse (s : State) (w : Nat) : Nat := (s.fol.resolved.lookup w).getD 0

/-- Burned SVN bits (R526). -/
def State.burnedSvn (s : State) : Nat := popcount 64 (s.fuse 54) + popcount 64 (s.fuse 55) + popcount 64 (s.fuse 56)

/-- CTRL.OWNER_SIG_REQ (R526). -/
def State.ownerSigReq (s : State) : Bool := (s.fuse 51).testBit 1

/-- Whether test images are accepted (R531): in BLANK with CTRL bit 2 at 0. -/
def State.testAllowed (s : State) : Bool := s.lifecycle == 0 && !(s.fuse 51).testBit 2

/-- Whether an image in a slot is accepted (R531). -/
def State.slotAccepted (s : State) (f : FwSlot) : Bool :=
  f.image != 0 && f.intact && (!s.ownerSigReq || f.owner) && s.burnedSvn ≤ f.svn && (!f.test || s.testAllowed)

/-- A firmware slot, 1 to 3. -/
def State.slot (s : State) (n : Nat) : FwSlot := (s.bxl.slots[n - 1]?).getD {}

/-! ## The slot record -/

/-- Appends a slot record (R578): it is in force here at once, and in the Folio when its program passes. Log entry 65 (DEDUCED). -/
def State.slotRecord (s : State) (f : SlotRec → SlotRec) (ref : Option Ref) : State :=
  ({ s with bxl := { s.bxl with rcd := { f s.bxl.rcd with rseq := s.bxl.rcd.rseq + 1 } } }).folio { job := .slot, ref }

/-! ## Verification -/

/-- Steps 1 to 4 of R573, which the manifest alone decides. Log entry 7 (DESIGN CHOICE). -/
def State.manifestOk (s : State) (m : Manifest) : Bool :=
  m.form && 1 ≤ m.kind && m.kind ≤ 3 && 1 ≤ m.chunks && m.chunks ≤ 511 && m.digs.length == m.chunks
    && (m.kind != 1 || m.chunks ≤ 191) && (m.kind != 2 || m.chunks ≤ 1) && (m.kind != 3 || m.chunks == 1)
    && m.signed
    && (!s.ownerSigReq || (m.ownerSigned && m.owner))
    && s.burnedSvn ≤ m.svn && (!m.test || s.testAllowed)
    && (!m.plain || (s.lifecycle ≤ 1 && s.fol.ident.fleet.isNone))

/-- Step 5 of R573 for one body chunk. Log entry 6 (DEDUCED). -/
def chunkOk (m : Manifest) (k content : Nat) : Bool := 1 ≤ k && m.digs[k - 1]? == some content

/-- Whether a staging holds a package whole. -/
def Staging.whole (g : Staging) : Bool :=
  match g.manifest with
  | some m => (List.range m.chunks).all (fun k => (g.body.lookup (k + 1)).isSome)
  | none => false

/-- The verification of R573, with the rules of R574 on actions and lifecycle by package type. -/
def State.packageOk (s : State) (action : Nat) (g : Staging) : Bool :=
  match g.manifest with
  | none => false
  | some m =>
    s.manifestOk m
      && (List.range m.chunks).all (fun k => match g.body.lookup (k + 1) with | some c => chunkOk m (k + 1) c | none => false)
      && (m.kind == 3 || m.plain || (s.fol.ident.fleet.isSome && m.tag))
      && m.digest
      && (match m.kind with
          | 2 => action == 1
          | 3 => action == 0 && !m.plain && (s.lifecycle == 2 || s.lifecycle == 3)
          | _ => true)

/-! ## Refusal (R576, R583) -/

/-- Whether a LUN in service is at read band 5. -/
def State.anyBand5 (s : State) : Bool := s.nib.luns.any (fun l => l.state != .notPresent && s.lunServes l.lun && l.rband == 5)

/-- The reason for which R576 refuses a commit, the first that applies. `ref` is none for a relayed package; `boot` says that
the boot loader serves the commit, which applies orders 1 to 3 alone (R583). Log entry 63 (DEDUCED). -/
def State.commitRefusal (s : State) (ref : Option Ref) (boot : Bool) (svn : Nat) : Option Nat :=
  let elsewhere := match ref with | some r => (s.heldAgainst r).isSome | none => s.mgmt.lock.isSome
  if elsewhere then some 7
  else if s.lifecycle = 4 || s.lifecycle = 5 then some 1
  else if s.bxl.lock then some 2
  else if boot then none
  else if (s.mode = .safe && s.fld F.EVU_SAFE_MEDIA = 2) || s.mode = .holdUp then some 9
  else if s.mode = .trial || (s.bxl.rcd.pending != 0 && s.bxl.rcd.tried) || s.bxl.rcd.rotStep != 0 then some 8
  else if s.fld F.PWR_ES_NOW_CHARGE < 95 then some 3
  else if !s.flag F.PWR_ES_MEAS_TEST_PASS then some 4
  else if s.anyBand5 then some 5
  else if !s.tine.paired && !s.bxl.force then some 6
  else if 192 < svn then some 10
  else none

/-- What a refusal leaves (R576). Log entry 62 (DEDUCED). -/
def State.noteRefusal (s : State) (reason : Nat) : State :=
  (s.post F.BXL_EVT_STATUS_UPD_REFUSED noUnit).setFld F.BXL_FW_STATUS_REFUSE reason

/-- Whether the boot loader serves a commit (R583): SAFE under cause 0x0D, action 001b, from the management port. -/
def State.bootServes (s : State) (ref : Option Ref) (action : Nat) : Bool :=
  s.mode == .safe && s.fld F.EVU_SAFE_CAUSE == 0x0D && ref == some .side && action == 1

/-! ## A commit's end -/

/-- The outcome of a relayed package (R571): BXL_RELAY shows it. -/
def State.relayState (s : State) (st reason : Nat) : State :=
  let s1 := (s.setFld F.BXL_RELAY_STATE st).setFld F.BXL_RELAY_REASON reason
  if st = 3 then s1.post F.BXL_EVT_STATUS_RELAY_DONE noUnit else s1

/-- Ends a commit that ran (R571, R573, R575). -/
def State.commitEnd (s : State) (c : Commit) (ok : Bool) : State :=
  match c.ref with
  | some r =>
    (s.unlockTemp r).complete r (if !ok then .invalidFwImage else if c.action = 1 then .fwNeedsReset else .success) 0
  | none =>
    if ok then s.relayState 3 0
    else { (s.relayState 4 0xFF) with bxl := { (s.relayState 4 0xFF).bxl with staging := {} } }

/-- The package under commit. -/
def State.commitNow (s : State) : Option Commit := s.bxl.commits.head?

/-- The commit under way leaves the list. -/
def State.dropCommit (s : State) : State := { s with bxl := { s.bxl with commits := s.bxl.commits.tail } }

/-- Starts what a verified package stores (R573, R574): an image goes into slot 2, a boot loader into copy B and then copy A,
a fleet transport key into the identity region. GCM encryption of an image is refused while the entropy source
fails (R551), and then the commit cannot store it. -/
def State.startCommit (s : State) (c : Commit) : State :=
  let s1 : State := match c.ref with | some r => s.lockFor r | none => s
  if c.manifest.kind = 1 && !s.gce.entropyOk then s1.commitEnd c false
  else
    let s2 : State := { s1 with bxl := { s1.bxl with commits := s1.bxl.commits ++ [c] } }
    match c.manifest.kind with
    | 1 => s2.folio { job := .image, erase := true }
    | 2 => s2.folio { job := .loader false, erase := true }
    | _ => s2.folio { job := .fleet false, erase := true }

/-- A commit with action 000b or 001b (R571, R573, R576, R577): refused, failed or started. Log entry 62 (DEDUCED). -/
def State.commitPackage (s : State) (ref : Option Ref) (action : Nat) : State :=
  let svn := (s.bxl.staging.manifest.map (fun m => m.svn)).getD 0
  let refused := s.commitRefusal ref (s.bootServes ref action) svn
  let s0 : State := { s with bxl := { s.bxl with force := false } }
  match refused with
  | some reason =>
    let s1 := s0.noteRefusal reason
    (match ref with
     | some r => s1.complete r .updateRefused reason
     | none => { (s1.relayState 4 reason) with bxl := { (s1.relayState 4 reason).bxl with staging := {} } })
  | none =>
    match s.bxl.staging.manifest with
    | some m =>
      if s.packageOk action s.bxl.staging then s0.startCommit { ref, action, manifest := m }
      else
        (match ref with
         | some r => s0.complete r .invalidFwImage 0
         | none => { (s0.relayState 4 0xFF) with bxl := { (s0.relayState 4 0xFF).bxl with staging := {} } })
    | none =>
      match ref with
      | some r => s0.complete r .invalidFwImage 0
      | none => s0.relayState 4 0xFF

/-- The slot's image as the package gives it (R573). -/
def slotOf (m : Manifest) : FwSlot :=
  { image := m.image, version := m.version, svn := m.svn, setFmt := m.setFmt, test := m.test, owner := m.ownerSigned && m.owner }

/-- The image in slot 2 has been read back and its tag checked (R573, R575): with action 001b the slot
becomes pending, and a command completes when its slot record has passed. -/
def State.imageStored (s : State) : State :=
  match s.commitNow with
  | none => s
  | some c =>
    let s1 := ({ s with bxl := { s.bxl with slots := s.bxl.slots.set 1 (slotOf c.manifest) } }).dropCommit
    if c.action != 1 then s1.commitEnd c true
    else
      let s2 := s1.slotRecord (fun r => { r with pending := 2, tried := false, confirmed := false }) c.ref
      if c.ref.isSome then s2 else s2.commitEnd c true

/-- A boot loader copy has been written and verified (R574): copy B first, then copy A. -/
def State.loaderStored (s : State) (copyA : Bool) : State :=
  match s.commitNow with
  | none => s
  | some c =>
    let s1 : State := { s with bxl := { s.bxl with loader := s.bxl.loader.set (if copyA then 0 else 1) c.manifest.image } }
    if copyA then s1.dropCommit.commitEnd c true else s1.folio { job := .loader true, erase := true }

/-- An identity region copy with the new fleet transport key has passed (R529, R574). -/
def State.fleetStored (s : State) (copyB : Bool) : State :=
  match s.commitNow with
  | none => s
  | some c =>
    if copyB then
      let s1 : State := { s with fol := { s.fol with idB := { s.fol.idA with intact := true } } }
      (s1.dropCommit.post F.BXL_EVT_STATUS_FTK_INSTALLED noUnit).commitEnd c true
    else
      let key := s.fol.nextKey
      let id : Identity := { s.fol.ident with fleet := some key, seq := s.fol.ident.seq + 1, intact := true }
      ({ s with fol := { s.fol with ident := id, idA := id, nextKey := key + 1 } }).folio { job := .fleet true, erase := true }

end Sys2Proof.Machine
end

