-- ==== Sys2Proof/Machine/Update.lean ====
section
/-! DEFINITION. Firmware commands, TRIAL's confirmation and slot rotation (R185, R186, R575, R578 to R582). -/

namespace Sys2Proof.Machine

/-- Staging after the `k`-th piece of a download that begins at piece `first` (R572): what the piece holds goes in by its
number, piece 0 as the manifest. -/
def stagePiece (chunks : List (Nat × PkgChunk)) (first : Nat) (g : Staging) (k : Nat) : Staging :=
  let n := first + k
  match chunks.lookup n with
  | some (.manifest m) => if n = 0 then { g with manifest := some m } else g
  | some (.body c) => if n = 0 then { g with manifest := none } else { g with body := (n, c) :: g.body.filter (fun e => e.1 != n) }
  | none => g

/-- FIRMWARE_IMAGE_DOWNLOAD (R185, R572): pieces of 64 KiB go into staging; `chunks` is what they hold, by number. -/
def execFirmwareImageDownload (ref : Ref) (offset length : Nat) (chunks : List (Nat × PkgChunk)) (s : State) : Res :=
  if !s.accepts ref then .next s
  else
    let s0 := s.latch ref
    if (holderOf ref).isNone then s0.done ref .invalidOpcode
    else if offset % 65536 != 0 || length % 65536 != 0 || length = 0 || 33554432 < offset + length then s0.done ref .invalidField
    else
      let st := (List.range (length / 65536)).foldl (stagePiece chunks (offset / 65536)) s0.bxl.staging
      State.done { s0 with bxl := { s0.bxl with staging := st } } ref .success

/-- A Firmware Commit of the staged package (R185, R186, R575). Log entry 62 (DEDUCED). -/
def State.firmwareCommit (s : State) (ref : Ref) (action slot : Nat) : Res :=
  if !s.accepts ref then .next s
  else
    let s0 := s.latch ref
    if (holderOf ref).isNone then s0.done ref .invalidOpcode
    else if slot != 2 then State.done { s0 with bxl := { s0.bxl with force := false } } ref .invalidFwSlot
    else .next (s0.commitPackage (some ref) action)

/-- FIRMWARE_COMMIT_STORE (R573, R575): action 000b. -/
def execFirmwareCommitStore (ref : Ref) (slot : Nat) (s : State) : Res := s.firmwareCommit ref 0 slot

/-- FIRMWARE_COMMIT_ACTIVATE (R573, R575): action 001b. -/
def execFirmwareCommitActivate (ref : Ref) (slot : Nat) (s : State) : Res := s.firmwareCommit ref 1 slot

/-- FIRMWARE_COMMIT_SLOT_ACTIVATE (R185, R575 to R577): action 010b makes slot 2 or 3 pending; action 011b, and any other that
the spec does not list, is an invalid field. Log entry 62 (DEDUCED). -/
def execFirmwareCommitSlotActivate (ref : Ref) (action slot : Nat) (s : State) : Res :=
  if !s.accepts ref then .next s
  else
    let s0 := s.latch ref
    if (holderOf ref).isNone then s0.done ref .invalidOpcode
    else
      let s1 : State := { s0 with bxl := { s0.bxl with force := false } }
      if action != 2 then s1.done ref .invalidField
      else if slot != 2 && slot != 3 then s1.done ref .invalidFwSlot
      else
        match s0.commitRefusal (some ref) false 0 with
        | some reason => (s1.noteRefusal reason).done ref .updateRefused reason
        | none =>
          if !s1.slotAccepted (s1.slot slot) then s1.done ref .invalidFwImage
          else .next ((s1.lockFor ref).slotRecord (fun r => { r with pending := slot, tried := false, confirmed := false }) (some ref))

/-- A slot record has passed (R575, R578): the Folio holds it, and the command that waited for it completes. -/
def State.slotStored (s : State) (ref : Option Ref) : State :=
  let s1 : State := { s with fol := { s.fol with slotRcd := s.bxl.rcd } }
  match ref with
  | some r => (s1.unlockTemp r).complete r .fwNeedsReset 0
  | none => s1

/-! ## TRIAL -/

/-- Time left on the confirmation watchdog, 1/256 ns (R579): it does not run in DOZE. -/
def State.wdLeft (s : State) : Nat :=
  if s.mode = .trial then s.bxl.wdLeft - (s.now - s.bxl.wdAt) else s.bxl.wdLeft

/-- The SVN burns that bring the fuses to an image's SVN (R579 step 4): the lowest bits short of it, in each of the three
copies of three words, as words and masks. -/
def State.svnBurnsTo (s : State) (svn : Nat) : List (Nat × Nat) :=
  let need := min 192 svn - s.burnedSvn
  let bits := ((List.range 192).filter (fun i => !(s.fuse (54 + i / 64)).testBit (i % 64))).take need
  (List.range 9).filterMap (fun j =>
    let m := ((bits.filter (fun i => i / 64 == j % 3)).map (fun i => 2 ^ (i % 64))).sum
    if m = 0 then none else some (54 + j, m))

/-- Whether TRIAL's self-test suite can have passed (R579): its checkpoint has completed and, when the Tines are paired, its
role drill has run. -/
def State.suiteReady (s : State) : Bool :=
  s.mode == .trial && (match s.ckpt.newest with | some im => s.bxl.trialAt ≤ im.startAt | none => false)
    && (s.bxl.drilled || !s.tine.paired)

/-- TRIAL_CONFIRM (R579, R582): at the first instant the suite passes the image confirms itself: the TRIAL end entry, the slot
record and the mode, the held settings, the SVN burns, and the rotation. `suite` says that the tests and reads that
the state does not hold passed. Log entry 3 (DESIGN CHOICE). -/
def execTrialConfirm (suite : Bool) (s : State) : Res :=
  if !suite || !s.suiteReady then .next s
  else if s.rankNow ≤ 7 then .next (s.lose 1)
  else
    let s1 := s.colophon 3 0 s.bxl.runSlot 0
    let s2 := s1.slotRecord (fun r => { r with confirmed := true, pending := 0, tried := false, rotStep := 1, rotSlot := s.bxl.runSlot }) none
    let s3 := ({ s2 with mode := if s2.anyMasked then .degraded else .run }).wakeEvent 15
    let s4 := (({ s3 with bxl := { s3.bxl with lastOut := 1 } }).post F.BXL_EVT_STATUS_CONFIRMED noUnit)
    let s5 : State := if s4.bxl.heldSets then
        { s4 with bxl := { s4.bxl with heldSets := false } }.folio { job := .settings false, erase := true }
      else s4
    .next { s5 with fol := { s5.fol with svnBurns := s5.fol.svnBurns ++ s5.svnBurnsTo (s.slot s.bxl.runSlot).svn } }

/-- What a rotation step copies (R581): target and source. -/
def rotCopy (slot step : Nat) : Option (Nat × Nat) :=
  match slot, step with
  | 2, 1 => some (3, 1)
  | 2, 2 => some (1, 2)
  | 3, 1 => some (2, 1)
  | 3, 2 => some (1, 3)
  | 3, 3 => some (3, 2)
  | _, _ => none

/-- The last step of a rotation (R581). -/
def rotLast (slot : Nat) : Nat := if slot = 3 then 3 else 2

/-- A rotation step's copy, verified (R581): the next step begins, or the rotation ends. Log entry 65 (DEDUCED). -/
def State.rotateStep (s : State) : State :=
  let r := s.bxl.rcd
  match rotCopy r.rotSlot r.rotStep with
  | none => s
  | some (dest, from_) =>
    let s1 : State := { s with bxl := { s.bxl with slots := s.bxl.slots.set (dest - 1) (s.slot from_) } }
    let s2 : State := if dest = 1 then { s1 with bxl := { s1.bxl with runSlot := 1 } } else s1
    if r.rotStep < rotLast r.rotSlot then s2.slotRecord (fun r => { r with rotStep := r.rotStep + 1 }) none
    else (s2.slotRecord (fun r => { r with rotStep := 0 }) none).post F.BXL_EVT_STATUS_ROT_DONE noUnit

/-- ROTATION_STEP_DONE (R579, R581): the rotation follows the SVN burns; a step whose target's tag does not verify is made
again. -/
def execRotationStepDone (ok : Bool) (s : State) : Res :=
  if !ok || !s.fol.svnBurns.isEmpty || s.bxl.rcd.rotStep = 0 || s.mode = .off || s.mode = .doze || s.mode = .holdUp then .next s else .next s.rotateStep

end Sys2Proof.Machine
end

