-- ==== Sys2Proof/Machine/BxlOps.lean ====
section
/-! DEFINITION. The Brynnyx link's shared operations (R556 to R571, R584): ports, node IDs, what goes out, the time master,
sweep entries and reports, and the relay's sender. -/

namespace Sys2Proof.Machine

/-! ## Ports and frames -/

/-- A port becomes linked (R559 to R561): a node with an ID sends ENUM when its DN port does. -/
def State.bxlLinked (s : State) (up : Bool) : State :=
  let s1 := s.updBxl up (fun p => { p with linked := true, ever := true })
  if !up && s1.hasId && !s1.bxl.limited then s1.bxlSend false (.enum s1.nodeId) else s1

/-- A frame with a valid CRC arrives (R559, R560, R584): it counts toward linking; in DOZE and HOLD-UP it is repeated with
HOPS incremented. Answers whether the frame is handled here. Log entry 76 (DESIGN CHOICE). -/
def State.bxlFrame (s : State) (i : BxlIn) (kind : Nat) : State × Bool :=
  let up := i.up
  if s.mode = .off || !s.bxlEnabled up then (s, false)
  else
    let p := s.bxl.port up
    let s1 := s.updBxl up (fun p => { p with good := min 64 (p.good + 1), lastAt := s.now })
    let s2 := if !p.linked && 64 ≤ p.good + 1 then s1.bxlLinked up else s1
    if s.mode = .doze || s.mode = .holdUp then
      (if kind != 0 && p.linked && s2.bxlEnabled (!up) then s2.bxlPut (!up) (relayHdr i kind) (.repeated kind) else s2, false)
    else (s2, p.linked && (!s2.bxl.limited || kind = 1))

/-! ## The time master -/

/-- What this node says of its own source as time master (R54, R563): the code of the source that supplies phase, its class and uncertainty. -/
def State.ownSource (s : State) : Nat × Nat × Nat :=
  let src := if s.rul.cls = 3 then 255
    else match s.rul.phaseSrc with
      | .sync => 1
      | .ptm => 3
      | _ => 0
  (src, s.rul.cls, s.uncNow)

/-- Whether this node meets the conditions to claim the time-master role (R564, R584). -/
def State.mayClaim (s : State) : Bool :=
  s.flag F.BXL_CFG_MASTER_EN && s.rul.lock && (s.pickPhase == .sync || s.pickPhase == .ptm) && s.hasId
    && (s.mode == .boot || s.mode == .run || s.mode == .degraded || s.mode == .trial)

/-- Follows another time master, toward a port (R564). -/
def State.follow (s : State) (id : Nat) (up : Bool) : State :=
  let changed := s.bxl.master != some id || s.bxl.isMaster
  let s1 : State := { s with bxl := { s.bxl with master := some id, isMaster := false, toward := some up } }
  if changed then s1.post F.BXL_EVT_STATUS_MASTER_CHG noUnit else s1

/-- The path to the time master is lost (R49, R563): Brynnyx is lost as a source and no master is followed. -/
def State.dropMaster (s : State) : State :=
  { s with bxl := { s.bxl with master := none, toward := none, masterSrc := 255, masterCls := 3, masterUnc := 65535, exch := none } }.loseSource .bxl

/-- Whether a port leads away from the time master (R562): this node serves it. -/
def State.serves (s : State) (up : Bool) : Bool := s.bxl.isMaster || s.bxl.toward == some (!up)

/-- SYNC as this node sends it (R562, R563). -/
def State.syncFrame (s : State) : Frame :=
  if s.bxl.isMaster then
    let o := s.ownSource
    .sync s.now s.nodeId 0 o.1 o.2.1 o.2.2
  else .sync s.now (s.bxl.master.getD 0) s.rul.hops s.bxl.masterSrc s.bxl.masterCls s.bxl.masterUnc

/-- RUL_OFFSET (R74): the last measured offset in whole ns, signed and saturating. -/
def Rul.offsetReg (r : Rul) : Nat := unsignedOf 32 (clampInt (-2147483648) 2147483647 (r.offset / 256))

/-! ## Sweeps -/

/-- EVU_GUAR (R500, R517). -/
def State.guar (s : State) : Nat :=
  let ok := s.mode == .run || s.mode == .degraded || s.mode == .trial
  let lig := s.flag F.LIG_STATUS_EN_ACTIVE
  let es := s.flag F.PWR_ES_MEAS_HEALTHY
  let pair := s.tine.paired
  bit (ok && lig && es && pair) + 2 * bit ok + 4 * bit lig + 8 * bit es + 16 * bit pair + 32 * bit (s.map.bands.any (fun b => b.exposed))

/-- This node's sweep entry (R567). -/
def State.sweepEntry (s : State) : SweepEntry :=
  let stale := s.bxl.idStale && !s.isHead
  let last := !s.bxl.dn.linked
  if !s.flag F.BXL_CFG_SWEEP_EN then { node := s.nodeId, stale, last, off := true }
  else
    { node := s.nodeId, stale, last, booting := s.mode == .boot && s.fol.record.isNone
      mode := s.mode.code, cls := s.rul.cls, guar := s.guar, unc := s.uncNow
      offset := s.rul.offsetReg, hops := if s.rul.follow = .bxl then s.rul.hops else 0xFFFF
      bootSeq := s.fol.bootSeq, digest := s.fol.digest, lc := s.lifecycle, slot := s.bxl.runSlot
      version := (s.slot s.bxl.runSlot).version, relay := s.fld F.BXL_RELAY_STATE, reason := s.fld F.BXL_RELAY_REASON
      cuts := s.bxl.cuts, cutNo := s.bxl.cutNo }

/-- Sends this node's entry as three SWEEP_ENT frames, and SWEEP_END from the last node (R566). -/
def State.sendEntry (s : State) (e : SweepEntry) : State :=
  let s1 := (List.range 3).foldl (fun (s : State) k => s.bxlSend true (.sweepEnt e k)) s
  if e.last then s1.bxlSend true (.sweepEnd none) else s1

/-- Puts an entry into a report in ascending NODE order, in place of an older one of the node (R568). -/
def insertEntry (e : SweepEntry) : List SweepEntry → List SweepEntry
  | [] => [e]
  | x :: xs => if e.node < x.node then e :: x :: xs else if e.node = x.node then e :: xs else x :: insertEntry e xs

/-- Whether a sweep that this node issued runs (R566). -/
def State.sweeping (s : State) : Bool := match s.bxl.report with | some r => r.status == 3 | none => false

/-- The report as log page 0xC6 and the command's data give it (R568): offset, width and value of each field. -/
def Report.fields (r : Report) : List (Nat × Nat × Nat) :=
  [(0, 8, r.stamp.ns), (8, 2, r.stamp.unc), (10, 1, r.stamp.cls), (12, 2, r.issuer), (14, 1, r.status), (15, 1, r.try_),
   (16, 2, r.openAfter), (18, 4, r.entries.length)]

/-- A sweep entry's fields from a byte offset (R567). -/
def sweepFields (at_ : Nat) (e : SweepEntry) : List (Nat × Nat × Nat) :=
  let id := [(at_, 2, e.node + 2 ^ 14 * bit e.stale), (at_ + 2, 1, bit e.last + 2 * bit e.held + 4 * bit e.booting + 8 * bit e.off)]
  if e.off then id
  else id ++ [(at_ + 3, 1, e.mode), (at_ + 4, 1, e.cls), (at_ + 5, 1, e.guar), (at_ + 6, 2, e.unc), (at_ + 8, 4, e.offset),
    (at_ + 12, 2, e.hops), (at_ + 16, 8, e.bootSeq), (at_ + 24, 48, e.digest), (at_ + 72, 1, e.lc), (at_ + 73, 1, e.slot), (at_ + 74, 8, e.version),
    (at_ + 82, 1, e.relay), (at_ + 83, 1, e.reason), (at_ + 100, 4, e.cutNo)]
    ++ ((List.range 16).map (fun k => (at_ + 84 + k, 1, e.cuts.getD k 0)))

/-- Log page 0xC6 (R568): the last report issued, or this node's own held entry. -/
def State.sweepPage (s : State) : List (Nat × Nat × Nat) :=
  match s.bxl.report, s.bxl.held with
  | some r, _ => r.fields ++ ((List.range r.entries.length).zip r.entries).flatMap (fun p => sweepFields (64 + 128 * p.1) p.2)
  | none, some (e, _) => [(12, 2, s.nodeId), (14, 1, 0), (18, 4, 1)] ++ sweepFields 64 e
  | none, none => [(12, 2, s.nodeId), (14, 1, 0), (18, 4, 0)]

/-- Closes the report of the sweep that runs (R566, R568, R569): its command completes with the report as data. -/
def State.closeReport (s : State) (openAfter : Option Nat) : State :=
  match s.bxl.report with
  | none => s
  | some r =>
    if r.status != 3 then s
    else
      let st := if openAfter.isSome then 2 else 1
      let r1 : Report := { r with status := st, openAfter := openAfter.getD 0, parts := [], ref := none }
      let s1 : State := { s with bxl := { s.bxl with report := some r1 } }
      let s2 := s1.post (if st = 1 then F.BXL_EVT_STATUS_SWEEP_DONE else F.BXL_EVT_STATUS_SWEEP_OPEN) noUnit
      match r.ref with
      | some ref => (s2.emit (.data ref 0xD2 0 0 (64 + 128 * r1.entries.length) s2.sweepPage)).complete ref .success (st + 2 ^ 16 * r1.openAfter)
      | none => s2

/-- Issues a sweep (R566, R569): the issuer's own entry is the first; with DN unlinked it is the whole chain. -/
def State.issueSweep (s : State) (ref : Option Ref) (try_ : Nat) : State :=
  let r : Report := { stamp := s.stamp, issuer := s.nodeId, try_, entries := [s.sweepEntry], ref, at_ := s.now }
  let s1 : State := { s with bxl := { s.bxl with report := some r } }
  if s1.bxl.dn.linked then s1.bxlSend false (.sweepReq s1.nodeId) else s1.closeReport none

/-- Holds this node's own entry after a break (R569), when it received SWEEP_REQ within the last 10 s. Log entry 64 (DEDUCED). -/
def State.holdEntry (s : State) : State :=
  match s.bxl.asked with
  | none => s
  | some (t, _) =>
    if t + 10 * secT ≤ s.now then s
    else { s with bxl := { s.bxl with held := some ({ s.sweepEntry with held := true }, s.now), asked := none } }

/-! ## Relay -/

/-- A chunk of a package by number (R570, R572). -/
def Staging.chunk (g : Staging) (k : Nat) : Option PkgChunk :=
  if k = 0 then g.manifest.map PkgChunk.manifest else (g.body.lookup k).map PkgChunk.body

/-- Sends one chunk that waits (R570): no more than two are unacknowledged. Log entry 63 (DEDUCED). -/
def State.relayOne (s : State) : State :=
  match s.bxl.relay with
  | none => s
  | some r =>
    if 2 ≤ r.out.length || r.chunks ≤ r.next then s
    else
      match r.pkg.chunk r.next with
      | none => s
      | some c =>
        let r1 : Relay := { r with next := r.next + 1, out := r.out ++ [{ k := r.next, at_ := s.now }] }
        ({ s with bxl := { s.bxl with relay := some r1 } }).bxlSend false (.chunk r.next c)

/-- Sends what may be sent (R570). -/
def State.relaySend (s : State) : State := s.relayOne.relayOne

/-- Ends the relay on the sending side (R570): the issuer's command completes with the number of the last chunk acknowledged,
which the spec does not state where none was. Log entry 10 (DESIGN CHOICE). -/
def State.relayEnd (s : State) (aborted : Bool) : State :=
  match s.bxl.relay with
  | none => s
  | some r =>
    let s1 : State := { s with bxl := { s.bxl with relay := none } }
    let s2 := if aborted then (s1.bxlSend false .relayAbort).post F.BXL_EVT_STATUS_RELAY_ABORT noUnit else s1
    match r.ref, r.last with
    | some ref, some k => s2.complete ref .success k
    | some ref, none => ({ s2 with freeCtr := s2.freeCtr + 1 }).complete ref .success (Config.freeWord s2.freeCtr)
    | none, _ => s2

/-- Sends a chunk again, or ends the relay after three resends (R570). -/
def State.relayAgain (s : State) (k : Nat) : State :=
  match s.bxl.relay with
  | none => s
  | some r =>
    match r.out.find? (fun c => c.k == k), r.pkg.chunk k with
    | some c, some body =>
      if 3 ≤ c.resends then s.relayEnd true
      else
        let r1 : Relay := { r with out := updWhere (fun x => x.k == k) (fun x => { x with at_ := s.now, resends := x.resends + 1 }) r.out }
        ({ s with bxl := { s.bxl with relay := some r1 } }).bxlSend false (.chunk k body)
    | _, _ => s

end Sys2Proof.Machine
end

