-- ==== Sys2Proof/Machine/Bxl.lean ====
section
/-! DEFINITION. The Brynnyx link's rows (R556 to R571): frames as they arrive on a port, UP when `up`, and the link's
timers. -/

namespace Sys2Proof.Machine

/-! ## Link and enumeration -/

/-- IDLE (R557, R559). Log entry 63 (DEDUCED). -/
def execIdle (port : BxlIn) (s : State) : Res := .next (s.bxlFrame port 0).1

/-- ENUM (R560, R561): it travels DN, so it is taken on UP; the carried ID plus 1 is this node's. -/
def execEnum (port : BxlIn) (id : Nat) (s : State) : Res :=
  match s.bxlFrame port 1 with
  | (s1, false) => .next s1
  | (s1, true) =>
    if !port.up then .next s1
    else if s1.isHead then .next (s1.post F.BXL_EVT_STATUS_ENUM_LIMIT noUnit)
    else if 16383 ≤ id then
      .next (({ s1 with bxl := { s1.bxl with idValid := false, limited := true } }).post F.BXL_EVT_STATUS_ENUM_LIMIT noUnit)
    else
      let s2 : State := { s1 with bxl := { s1.bxl with id := id + 1, idValid := true, idStale := false, limited := false } }
      .next ((s2.post F.BXL_EVT_STATUS_ENUM_DONE noUnit).bxlSend false (.enum (id + 1)))

/-- BXL_BAD_FRAME (R558, R559): counted, saturating, and discarded; a port that is not linked starts its count of valid
frames again. Log entry 76 (DESIGN CHOICE). -/
def execBxlBadFrame (up : Bool) (s : State) : Res :=
  if s.mode = .off || !s.bxlEnabled up then .next s
  else
    let s1 := s.bumpFld (if up then F.BXL_ERR_CNT_UP_CRC else F.BXL_ERR_CNT_DN_CRC)
    .next (s1.updBxl up (fun p => { p with good := if p.linked then p.good else 0 }))

/-- What the loss of a port does to it, to the node ID and to the time master (R559, R561, R563). -/
def State.portDown (s : State) (up : Bool) : State :=
  let s1 := (s.updBxl up (fun p => { p with linked := false, good := 0 })).post
    (if up then F.BXL_EVT_STATUS_UP_LOSS else F.BXL_EVT_STATUS_DN_LOSS) noUnit
  let s2 : State := if up then { s1 with bxl := { s1.bxl with idStale := s1.bxl.idValid } } else s1
  if s2.bxl.toward = some up then s2.dropMaster.bxlSend (!up) .noMaster else s2

/-- BXL_PORT_LOSS (R559, R561, R563, R569): 10 µs without a valid frame. -/
def execBxlPortLoss (up : Bool) (s : State) : Res :=
  let p := s.bxl.port up
  if s.mode = .off || !p.linked || s.now < p.lastAt + 10 * usT then .next s
  else
    let s3 := s.portDown up
    if up then .next s3.holdEntry
    else if s3.sweeping then .next (s3.closeReport (some s3.nodeId))
    else
      match s3.bxl.asked with
      | some (t, false) =>
        let s4 : State := { s3 with bxl := { s3.bxl with asked := some (t, true) } }
        .next (if s.now < t + 10 * secT then s4.bxlSend true (.sweepEnd (some s4.nodeId)) else s4)
      | _ => .next s3

/-! ## Time -/

/-- SYNC (R562, R563): the client stamps t2, takes the master's data and answers DREQ with its t3. Log entry 64 (DEDUCED). -/
def execSync (port : BxlIn) (t1 master hops src cls unc : Nat) (s : State) : Res :=
  match s.bxlFrame port 2 with
  | (s1, false) => .next s1
  | (s1, true) =>
    let take := s1.bxl.toward == some port.up || (s1.bxl.toward.isNone && !s1.bxl.isMaster)
    if !take then .next s1
    else
      let s2 := s1.follow master port.up
      let s3 : State := { s2 with
        bxl := { s2.bxl with masterSrc := src, masterCls := cls, masterUnc := unc, exch := some { up := port.up, t1, t2 := s.now, t3 := s.now } }
        rul := { s2.rul with hops := hops + 1 } }
      .next (s3.bxlSend port.up (.dreq s.now))

/-- DREQ (R562): the server stamps t4 and returns it. -/
def execDreq (port : BxlIn) (_t3 : Nat) (s : State) : Res :=
  match s.bxlFrame port 3 with
  | (s1, false) => .next s1
  | (s1, true) => if s1.serves port.up then .next (s1.bxlSend port.up (.dresp s.now)) else .next s1

/-- Whether Brynnyx is a usable source (R54): the master is synchronised and no more than 300 hops away. -/
def State.bxlUsable (s : State) : Bool := s.bxl.masterSrc != 255 && s.bxl.masterCls != 3 && s.rul.hops ≤ 300

/-- DRESP (R562): the exchange gives an offset and a one-way delay, and is one Brynnyx sample. Log entry 64 (DEDUCED). -/
def execDresp (port : BxlIn) (t4 : Nat) (s : State) : Res :=
  match s.bxlFrame port 4 with
  | (s1, false) => .next s1
  | (s1, true) =>
    match s1.bxl.exch with
    | none => .next s1
    | some e =>
      if e.up != port.up || e.t2 + msT ≤ s.now then .next s1
      else
        let ms : Int := (t4 : Int) - (e.t3 : Int)
        let sm : Int := (e.t2 : Int) - (e.t1 : Int)
        let asym := signedOf 16 (s1.fld (if port.up then F.BXL_ASYM_UP else F.BXL_ASYM_DN))
        let off := (ms - sm) / 2 + asym
        let delay := (clampInt 0 65535 ((sm + ms) / 2 / 16)).toNat
        let s2 := ({ s1 with bxl := { s1.bxl with exch := none } }).setFld (if port.up then F.BXL_DELAY_UP else F.BXL_DELAY_DN) delay
        .next (if !s2.disciplined then s2 else if s2.bxlUsable then s2.sample .bxl off
          else if s2.rul.bxl.qual then (s2.loseSource .bxl).bxlSend (!port.up) .noMaster else s2.loseSource .bxl)

/-- BXL_TIME_EXCHANGE_START (R562): the server starts an exchange with each neighbour further from the master. -/
def execBxlTimeExchangeStart (s : State) : Res :=
  if s.now < s.bxl.exchAt + s.fld F.BXL_TIME_PERIOD * msT || s.mode = .off || s.mode = .doze || s.mode = .holdUp then .next s
  else
    let one (s : State) (up : Bool) : State := if s.serves up && (s.bxl.port up).linked then s.bxlSend up s.syncFrame else s
    .next (one (one { s with bxl := { s.bxl with exchAt := s.now } } true) false)

/-- BXL_DRESP_TIMEOUT (R562). Log entry 3 (DESIGN CHOICE). -/
def execBxlDrespTimeout (s : State) : Res :=
  match s.bxl.exch with
  | some e => .next (if e.t2 + msT ≤ s.now then { s with bxl := { s.bxl with exch := none }, rul := s.rul.broken .bxl } else s)
  | none => .next s

/-- CLAIM (R564): relayed onward; a lower ID is followed, and a higher one than the master's is answered CONTENDED. -/
def execClaim (port : BxlIn) (id : Nat) (s : State) : Res :=
  match s.bxlFrame port 5 with
  | (s0, false) => .next s0
  | (s0, true) =>
    let s1 := s0.bxlRelay port (.claim id)
    let cur := if s1.bxl.isMaster then some s1.nodeId else s1.bxl.master
    match cur with
    | none => .next (s1.follow id port.up)
    | some m =>
      if id < m then .next (s1.follow id port.up)
      else if m < id then .next (s1.bxlSend port.up (.contended id))
      else .next s1

/-- CONTENDED (R564): it goes on toward the claimant, which keeps following the master. -/
def execContended (port : BxlIn) (id : Nat) (s : State) : Res :=
  match s.bxlFrame port 6 with
  | (s1, false) => .next s1
  | (s1, true) =>
    if !s1.hasId || id != s1.nodeId then .next (s1.bxlRelay port (.contended id))
    else
      let b := s1.bxl
      let s2 : State := { s1 with bxl := { b with
        contended := true, isMaster := false, master := if b.isMaster then none else b.master, toward := if b.isMaster then some port.up else b.toward } }
      .next (s2.post F.BXL_EVT_STATUS_CONTENDED noUnit)

/-- NOMASTER (R563, R564, R569): Brynnyx is lost here and the frame is relayed; beyond a break a node holds its sweep entry. -/
def execNomaster (port : BxlIn) (s : State) : Res :=
  match s.bxlFrame port 7 with
  | (s1, false) => .next s1
  | (s1, true) =>
    let s2 := if s1.bxl.isMaster then s1 else s1.dropMaster
    let s3 := s2.bxlRelay port .noMaster
    .next (if port.up then s3.holdEntry else s3)

/-- CLAIM_REPEAT (R564): every 1 s a node that meets the conditions sends CLAIM on both ports, and takes the role unless it
knows a master with a lower ID; a master that no longer meets them sends NOMASTER. Log entry 64 (DEDUCED). -/
def execClaimRepeat (s : State) : Res :=
  if s.bxl.claimAt != 0 && s.now < s.bxl.claimAt + secT then .next s
  else if s.mayClaim then
    let id := s.nodeId
    let s1 := (s.bxlSend true (.claim id)).bxlSend false (.claim id)
    let s2 : State := { s1 with bxl := { s1.bxl with claimAt := s.now } }
    let takes := !s2.bxl.isMaster && s2.bxl.master.all (fun m => decide (id < m))
    if takes then
      .next (({ s2 with bxl := { s2.bxl with isMaster := true, contended := false, master := some id, toward := none, exch := none } }).post
        F.BXL_EVT_STATUS_MASTER_CHG noUnit)
    else .next s2
  else if s.bxl.isMaster then
    let s1 : State := { s with bxl := { s.bxl with isMaster := false, master := none, claimAt := s.now } }
    .next ((s1.bxlSend true .noMaster).bxlSend false .noMaster)
  else .next s

/-! ## Cuts -/

/-- CUT (R305, R316, R565): relayed to DN before it is checked here; its outcome is kept for sweep entries. A frame without
ALL is taken for every namespace: the spec gives it no list. Log entry 64 (DEDUCED). -/
def execCut (port : BxlIn) (time node number : Nat) (all : Bool) (s : State) : Res :=
  match s.bxlFrame port 8 with
  | (s1, false) => .next s1
  | (s1, true) =>
    if !port.up then .next s1
    else
      let s2 := s1.bxlRelay port (.cut time node number all)
      let r := s2.cutCheck 2 0xFFFFFFFF time (s.now / 256)
      let s3 := s2.noteCut number r
      match r with
      | some reason => .next (s3.refuseCut reason)
      | none => .next (s3.acceptCut 2 0xFFFFFFFF time false none)

/-! ## Sweeps -/

/-- SWEEP_REQ (R560, R566, R567): relayed; a node with an ID builds its entry and sends it UP. -/
def execSweepReq (port : BxlIn) (issuer : Nat) (s : State) : Res :=
  match s.bxlFrame port 9 with
  | (s1, false) => .next s1
  | (s1, true) =>
    if !port.up then .next s1
    else
      let s2 := s1.bxlRelay port (.sweepReq issuer)
      if !s2.hasId then .next s2
      else .next ({ s2 with bxl := { s2.bxl with asked := some (s.now, !s2.bxl.dn.linked), askedBy := issuer } }.sendEntry s2.sweepEntry)

/-- SWEEP_ENT (R566, R568): the issuer puts thirds together into entries of its report, every other node relays. -/
def execSweepEnt (port : BxlIn) (part : Nat) (e : SweepEntry) (s : State) : Res :=
  match s.bxlFrame port 10 with
  | (s1, false) => .next s1
  | (s1, true) =>
    if port.up then .next s1
    else if !s1.sweeping then .next (s1.bxlRelay port (.sweepEnt e part))
    else
      match s1.bxl.report with
      | none => .next s1
      | some r =>
        let parts := (e.node, part % 3) :: r.parts.filter (fun p => p != (e.node, part % 3))
        let whole := (List.range 3).all (fun k => parts.contains (e.node, k))
        let r1 : Report := if whole then
            { r with entries := insertEntry e r.entries, parts := parts.filter (fun p => p.1 != e.node) }
          else { r with parts := parts }
        .next { s1 with bxl := { s1.bxl with report := some r1 } }

/-- SWEEP_END (R566, R569): it closes the issuer's report; every other node relays it. -/
def execSweepEnd (port : BxlIn) (openAfter : Option Nat) (s : State) : Res :=
  match s.bxlFrame port 11 with
  | (s1, false) => .next s1
  | (s1, true) =>
    if port.up then .next s1
    else if s1.sweeping then .next (s1.closeReport openAfter)
    else
      let s2 : State := { s1 with bxl := { s1.bxl with asked := s1.bxl.asked.map (fun a => (a.1, true)) } }
      .next (s2.bxlRelay port (.sweepEnd openAfter))

/-- CHAIN_SWEEP_MEASURE (R566): OP 0 issues a sweep; an OP that is neither 0 nor 1 is an invalid field. -/
def execChainSweepMeasure (ref : Ref) (cdw10 : Nat) (s : State) : Res :=
  if !s.accepts ref then .next s
  else
    let s0 := s.latch ref
    if (holderOf ref).isNone then s0.done ref .invalidOpcode
    else if cdw10 % 4 != 0 then s0.done ref .invalidField
    else if s0.sweeping || s0.bxl.relay.any (fun r => r.ref.isSome) then s0.done ref .cmdSeqError
    else .next (({ s0 with bxl := { s0.bxl with retries := 0 } }).issueSweep (some ref) 0)

/-- SWEEP_TIMEOUT (R566): 10 s after the latch the command completes with the sweep open after the last node reached. Log entry 64 (DEDUCED). -/
def execSweepTimeout (s : State) : Res :=
  match s.bxl.report with
  | none => .next s
  | some r =>
    if r.status != 3 || s.now < r.at_ + 10 * secT then .next s
    else .next (s.closeReport (some ((r.entries.map (fun e => e.node)).foldl max s.nodeId)))

/-- SWEEP_RETRY (R569): the head repeats an open sweep after the link relinks, up to RETRIES times. -/
def execSweepRetry (s : State) : Res :=
  match s.bxl.report with
  | none => .next s
  | some r =>
    let live := s.mode == .run || s.mode == .degraded || s.mode == .trial || s.mode == .safe
    if !s.isHead || r.status != 2 || s.fld F.BXL_SWEEP_RETRIES ≤ s.bxl.retries || !s.bxl.dn.linked || !live then .next s
    else .next (({ s with bxl := { s.bxl with retries := s.bxl.retries + 1 } }).issueSweep none (s.bxl.retries + 1))

/-- HELD_ENTRY_EXPIRE (R569). -/
def execHeldEntryExpire (s : State) : Res :=
  match s.bxl.held with
  | some (_, t) => .next (if t + 60 * secT ≤ s.now then { s with bxl := { s.bxl with held := none } } else s)
  | none => .next s

/-! ## Image relay -/

/-- CHAIN_SWEEP_RELAY (R566, R570): the issuer relays the package that its staging holds whole. Log entry 63 (DEDUCED). -/
def execChainSweepRelay (ref : Ref) (cdw11 : Nat) (s : State) : Res :=
  if !s.accepts ref then .next s
  else
    let s0 := s.latch ref
    let action := cdw11 % 8
    if (holderOf ref).isNone then s0.done ref .invalidOpcode
    else if 2 ≤ action then s0.done ref .invalidField
    else if s0.sweeping || s0.bxl.relay.isSome || !s0.bxl.staging.whole then s0.done ref .cmdSeqError
    else
      let n := 1 + (s0.bxl.staging.manifest.map (fun m => m.chunks)).getD 0
      let r : Relay := { action, chunks := n, ref := some ref, pkg := s0.bxl.staging }
      let s1 : State := { s0 with bxl := { s0.bxl with relay := some r } }
      if !s1.bxl.dn.linked then .next (s1.relayEnd false)
      else .next ((s1.bxlSend false (.relayStart action n)).relaySend)

/-- RELAY_START (R570): a session opens; with RELAY_EN at 0 nothing is staged and nothing goes on. -/
def execRelayStart (port : BxlIn) (action chunks : Nat) (s : State) : Res :=
  match s.bxlFrame port 12 with
  | (s1, false) => .next s1
  | (s1, true) =>
    if !port.up then .next s1
    else if !s1.flag F.BXL_CFG_RELAY_EN then .next { s1 with bxl := { s1.bxl with recv := none } }
    else
      let on := s1.bxl.dn.linked
      let r : Relay := { action, chunks }
      let s2 : State := { s1 with bxl := { s1.bxl with recv := some (action, chunks), staging := {}, relay := if on then some r else none } }
      let s3 := ((s2.setFld F.BXL_RELAY_STATE 1).setFld F.BXL_RELAY_CHUNKS 0).setFld F.BXL_RELAY_REASON 0
      .next (if on then s3.bxlRelay port (.relayStart action chunks) else s3)

/-- A chunk that has passed verification (R570): it is staged, forwarded and acknowledged; the last one completes the package,
whose commit action then applies (R571). -/
def State.chunkPassed (s : State) (action chunks k : Nat) (c : PkgChunk) : State :=
  let had := (s.bxl.staging.chunk k).isSome
  let put (g : Staging) : Staging := match c with
    | .manifest m => { g with manifest := some m }
    | .body x => { g with body := (k, x) :: g.body.filter (fun e => e.1 != k) }
  let s1 : State := { s with bxl := { s.bxl with
    staging := put s.bxl.staging
    relay := s.bxl.relay.map (fun (r : Relay) => { r with pkg := put r.pkg }) } }
  let s2 := if had then s1 else s1.setFld F.BXL_RELAY_CHUNKS (s1.fld F.BXL_RELAY_CHUNKS + 1)
  let s3 := s2.relaySend.bxlSend true (.ack k true)
  if had || s3.fld F.BXL_RELAY_CHUNKS < chunks then s3
  else ({ (s3.setFld F.BXL_RELAY_STATE 2) with bxl := { s3.bxl with recv := none } }).commitPackage none action

/-- Whether a chunk passes verification (R570): chunk 0 under steps 1 to 4 of R573, every later one against its CHUNK_DIG. -/
def State.chunkPasses (s : State) (chunks k : Nat) (c : PkgChunk) : Bool :=
  match c with
  | .manifest m => k == 0 && s.manifestOk m && chunks == m.chunks + 1
  | .body x => (match s.bxl.staging.manifest with | some m => k != 0 && chunkOk m k x | none => false)

/-- CHUNK (R570, R586): a chunk, whole, of the session that this node receives: chunk 0 is verified under steps 1 to 4 of
R573, every later one against its CHUNK_DIG. Log entry 63 (DEDUCED). -/
def execChunk (port : BxlIn) (k : Nat) (c : PkgChunk) (s : State) : Res :=
  match s.bxlFrame port 13 with
  | (s1, false) => .next s1
  | (s1, true) =>
    if !port.up then .next s1
    else if !s1.flag F.BXL_CFG_RELAY_EN then .next (if k = 0 then s1.bxlSend true (.ack 0 false) else s1)
    else
      match s1.bxl.recv with
      | none => .next (if (s1.bxl.staging.chunk k).isSome then s1.bxlSend true (.ack k true) else s1)
      | some (action, chunks) =>
        if s1.chunkPasses chunks k c then .next (s1.chunkPassed action chunks k c)
        else .next ((s1.post F.BXL_EVT_STATUS_CHUNK_BAD noUnit).bxlSend true (.ack k false))

/-- ACK (R570): an accepted chunk makes room for the next; a refused one is sent again. -/
def execAck (port : BxlIn) (k : Nat) (pass : Bool) (s : State) : Res :=
  match s.bxlFrame port 14 with
  | (s1, false) => .next s1
  | (s1, true) =>
    match s1.bxl.relay with
    | none => .next s1
    | some r =>
      if port.up || !r.out.any (fun c => c.k == k) then .next s1
      else if !pass then .next (s1.relayAgain k)
      else
        let r1 : Relay := { r with out := r.out.filter (fun c => c.k != k), last := some (max k (r.last.getD 0)) }
        let s2 : State := { s1 with bxl := { s1.bxl with relay := some r1 } }
        if r1.out.isEmpty && r1.chunks ≤ r1.next then .next (s2.relayEnd false) else .next s2.relaySend

/-- RELAY_ABORT (R570): it ends the session at a node that has not completed the package, and goes on. -/
def execRelayAbort (port : BxlIn) (s : State) : Res :=
  match s.bxlFrame port 15 with
  | (s1, false) => .next s1
  | (s1, true) =>
    if !port.up then .next s1
    else
      let s2 := s1.bxlRelay port .relayAbort
      if s2.bxl.recv.isNone then .next s2
      else
        let s3 : State := { s2 with bxl := { s2.bxl with recv := none, staging := {}, relay := none } }
        .next ((s3.setFld F.BXL_RELAY_STATE 5).post F.BXL_EVT_STATUS_RELAY_ABORT noUnit)

/-- CHUNK_ACK_TIMEOUT (R570): a chunk not acknowledged within 5 ms. -/
def execChunkAckTimeout (k : Nat) (s : State) : Res :=
  match s.bxl.relay with
  | none => .next s
  | some r =>
    if r.out.any (fun c => c.k == k && c.at_ + 5 * msT ≤ s.now) then .next (s.relayAgain k) else .next s

end Sys2Proof.Machine
end

