-- ==== Sys2Proof/Machine/Cipher.lean ====
section
/-! DEFINITION. The inline lanes, the Inkwell's grants and audit, its owners and the key slots (R210 to R236). -/

namespace Sys2Proof.Machine

/-! ## Lanes -/

/-- The lane that the next data unit goes to: round robin over the lanes in service (R230). Log entry 73 (DESIGN CHOICE). -/
def State.pickLane (s : State) : Option Nat :=
  ((List.range 16).map (fun i => (s.ink.nextLane + i) % 16)).find? (fun i => (s.ink.lanes.getD i {}).inService)

/-- Changes one lane. -/
def State.updLane (s : State) (l : Nat) (f : Lane → Lane) : State :=
  { s with ink := { s.ink with lanes := s.ink.lanes.modify l f } }

/-- With no lane in service the block enters SAFE with media halted (R233). Log entry 67 (DEDUCED). -/
def State.checkLanes (s : State) : State :=
  (if s.ink.lanes.any (fun l => l.inService) then s else s.enterSafe 4 true).settle

/-- Masks a lane (R232). -/
def State.maskLane (s : State) (l : Nat) : State :=
  ((s.updLane l (fun x => { x with inService := false, masked := true, testing := false })).post F.INK_EVT_STATUS_LANE_MASK l).checkLanes

/-- A unit fails its lane's comparison (R231, R232): the lane leaves service for its known-answer test, and is masked at
its second mismatch within 24 h. -/
def State.laneMismatch (s : State) (l : Nat) : State :=
  let again := match (s.ink.lanes.getD l {}).lastBad with | some t => decide (s.now < t + dayT) | none => false
  let s1 := (s.updLane l (fun x => { x with inService := false, testing := true, lastBad := some s.now })).post
    F.INK_EVT_STATUS_LANE_MISMATCH l
  if again then s1.maskLane l else s1.checkLanes

/-- Whether a lane can have a block of a command now (R206, R219, R253): for a write its segment has its cells and its
data; for a read every IU of the block is at hand. -/
def State.unitReady (s : State) (c : Cmd) (lba : Nat) : Bool :=
  c.left.contains lba &&
    (if c.kind = .read || c.kind = .compare then
      let bs := s.cmdBs c
      (iuCover s.iuSectors (lba * bs) bs).all (fun e => c.ius.all (fun q => q.iu != e.1 || (q.started && s.iuReady q)))
    else
      c.ink.isSome && (match c.segOf lba with | some g => g.fetched && g.chain.isSome && !g.twinDue | none => false))

/-- XTS_UNIT_DONE (R206, R208, R230 to R232): a lane ends a data unit. A unit whose cells held an uncorrectable word, or whose bank failed, is lost
with them (R225, R228). A unit that passes is released, to cells for a write and to the host for a read; one that fails is processed again
on the next lane, and a second failure ends the command with Internal Error. -/
def execXtsUnitDone (ref : Ref) (lba : Nat) (pass : UnitEnd) (s : State) : Res :=
  match s.cmd ref, s.pickLane with
  | some c, some l =>
    if !s.fetches || !s.unitReady c lba then .next s
    else
      let s0 : State := { s with ink := { s.ink with nextLane := (l + 1) % 16 } }
      let rd := c.kind = .read || c.kind = .compare
      let s1 := s0.cellErr pass.cell
      if pass.cell.isLost then .next s1.settleCmds
      else if pass.pass then
        if rd then
          .next (s1.updCmd ref (fun c => { c with left := c.left.erase lba, retry := c.retry.erase lba })).settleCmds
        else .next (s1.verifyBlock c lba)
      else
        let s2 := s1.laneMismatch l
        if !c.retry.contains lba then .next (s2.updCmd ref (fun c => { c with retry := lba :: c.retry }))
        else if rd then .next (s2.failRead ref .internalError)
        else .next (s2.failWrite ref .internalError)
  | _, _ => .next s

/-- LANE_KAT_DONE (R232, R233): a lane's known-answer test ends; it returns to service or is masked. -/
def execLaneKatDone (lane : Nat) (pass : Bool) (s : State) : Res :=
  if !(s.ink.lanes.getD lane {}).testing then .next s
  else if pass then .next (s.updLane lane (fun x => { x with inService := true, testing := false }))
  else .next (s.maskLane lane)

/-! ## Grants -/

/-- INKWELL_GRANT (R214, R215, R219, R441): the request that is next is granted whole; the work that waited for it goes
on. -/
def execInkwellGrant (s : State) : Res :=
  match s.nextGrant with
  | none => .next s
  | some r =>
    let s1 := s.dropWait r
    match r.what with
    | .hostWrite ref lo =>
      match s1.cmd ref with
      | none => .next s1
      | some c =>
        match c.segs.find? (fun g => g.lo == lo) with
        | none => .next s1
        | some g => .next (((s1.giveWriteSeg c g (s1.cmdBs c)).askSegs (c.segs.length + 1) ref).settleCmds)
    | .twin ref lo =>
      match s1.cmd ref with
      | none => .next s1
      | some c =>
        match c.segs.find? (fun g => g.lo == lo && g.twinDue) with
        | none => .next s1
        | some g => .next ((s1.giveTwin c g (g.chain.getD 0) (s1.cmdBs c) r.order).settleCmds)
    | .row _ =>
      let s2 := s.placePages
      .next (if s2.ink.waiting.any (fun x => x.order == r.order) then s2.dropWait r else s2)
    | .copy ref head =>
      match s1.cmd ref, s1.chain head with
      | some _, some d =>
        let (s2, h) := s1.copyChain d r.owner
        .next (s2.updCmd ref (fun c => { c with holds := h :: c.holds }))
      | _, _ => .next s1
    | .tine stream osn =>
      let (s2, h) := s1.alloc r.owner r.last r.n
      .next (s2.inkServed stream osn h)
    | .hostRead ref lo =>
      match s1.cmd ref with
      | none => .next s1
      | some c =>
        match c.segs.find? (fun g => g.lo == lo) with
        | none => .next s1
        | some g =>
          let bs := s1.cmdBs c
          let (s2, h) := s1.alloc 1 1 r.n
          let s3 := s2.updCmd ref (fun c => c.updSeg lo (fun g => { g with started := true, chain := some h }))
          let s4 := ((s3.segIus c g bs).filter (fun q => !q.started)).foldl (fun (s : State) q => s.startIu c q (some h)) s3
          .next (s4.askReads (c.segs.length + 1) ref).settleCmds
    | .work => .next (s1.alloc r.owner r.last r.n).1

/-- INKWELL_WAIT_PAD (R220, R260): while an owner 0 request has waited 1 ms, open wordlines that hold owner 0's data are
padded. -/
def execInkwellWaitPad (s : State) : Res :=
  if !s.wpRuns || !s.ink.waiting.any (fun r => r.owner == 0 && r.since + msT ≤ s.now) then .next s
  else
    let ofHost (q : Item) : Bool := q.idx.isSome
    let holds (b : Band) : Bool := b.state == .open &&
      (b.fill.any ofHost || s.map.wordlines.any (fun w => w.band == b.ix && w.wl == b.wl && w.items.any (fun e => ofHost e.2)))
    .next ((s.map.bands.filter holds).foldl (fun (s : State) b => s.padOpen b.ix) s).pump

/-! ## The audit -/

/-- Age of a chain in ns, from its BORN field of 32 bits (R209, R222). -/
def State.chainAge (s : State) (c : Chain) : Nat := (s.now / (256 * 1024) % 2 ^ 32 + 2 ^ 32 - c.born) % 2 ^ 32 * 1024

/-- The bucket of an age (R222). -/
def ageBucket (ns : Nat) : Nat :=
  ([100000, 1000000, 10000000, 100000000, 1000000000, 10000000000, 100000000000].filter (fun b => b ≤ ns)).length

/-- Whether a chain is past its ALLOC owner's age limit, which counts 10 ms units and is off at 0 (R222, R240). -/
def State.pastAge (s : State) (c : Chain) : Bool :=
  let lim := s.fld (F.INK_OWNER_AGE_LIMIT c.alloc)
  lim != 0 && decide (lim * 10000000 < s.chainAge c)

/-- INKWELL_AUDIT_PASS (R221 to R223): the pass recounts every owner's cells, and checks that with the free cells they are the pool; a difference sets CONSERVE, a chain past its
age limit sets LEAK once, and the results are those of log page 0xC4. `mismatch` says that a fault has put the counts
and the headers apart. -/
def execInkwellAuditPass (mismatch : Bool) (s : State) : Res :=
  if !s.flag F.INK_CTRL_AUDIT_EN || s.mode = .off || s.mode = .doze then .next s
  else
    let count (o : Nat) : Nat := ((s.ink.chains.filter (fun c => c.alloc == o)).map (fun c => c.cells.length)).sum
    let bad := mismatch || s.ink.owners.any (fun w => w.held != count w.id) ||
      (s.ink.owners.map (fun w => w.held)).sum + s.inkFree != s.poolCells
    let s1 : State := if bad then
        ({ s with ink := { s.ink with conserve := s.ink.conserve + 1 } }).post F.INK_EVT_STATUS_CONSERVE noUnit
      else s
    let old := s1.ink.chains.filter s1.pastAge
    let s2 := (old.filter (fun c => !c.leaked)).foldl (fun (s : State) c =>
      ({ s with ink := { s.ink with chains := updWhere (fun x => x.head == c.head) (fun x => { x with leaked := true }) s.ink.chains } }).post
        F.INK_EVT_STATUS_LEAK c.alloc) s1
    let ages (o : Nat) : List Nat := (List.range 8).map (fun b =>
      ((s.ink.chains.filter (fun c => c.alloc == o && ageBucket (s.chainAge c) == b)).map (fun c => c.cells.length)).sum)
    let busy := (s.ink.chains.map (fun c => c.alloc)).eraseDups
    let rec_ (w : Owner) : AuditOwner :=
      { id := w.id, dynamic := w.dynamic, effMin := s.effMin w.id, effMax := s.effMax w.id, held := w.held, peak := w.peak, waits := w.waits }
    let a : Audit := {
      pool := s.poolCells, banks := s.fld F.INK_BANKS_INKWELL, owners := s.ink.owners.map rec_, dup := s.ink.dup, conserve := s1.ink.conserve
      stamp := s.stamp, free := s.inkFree, shared := s.sharedFree, passes := s.ink.audit.passes + 1, leaks := old.length
      ages := busy.map (fun o => (o, ages o))
      overran := busy.map (fun o => (o, (old.filter (fun c => c.alloc == o)).length)) }
    .next { s2 with ink := { s2.ink with audit := a } }

/-! ## Owners -/

/-- The sum of every registered owner's minimum (R212). -/
def State.sumMin (s : State) : Nat := (s.ink.owners.map (fun w => s.fld (F.INK_OWNER_MIN_MIN w.id))).sum

/-- The lowest ID that no registered owner has (R210). -/
def State.freeOwner (s : State) : Option Nat :=
  (List.range 1024).find? (fun i => !s.ink.owners.any (fun w => w.id == i))

/-- The work of an owner asks for its cells (R210, R213, R214). -/
def State.askWork (s : State) (o n : Nat) : State :=
  if n = 0 then s
  else if s.grantOk o n s.ink.nextOrder then (s.alloc o o n).1
  else s.waitCells o o n .work

/-- The work of a dynamic owner ends (R210, R217): it releases its chains and its requests go; firmware unregisters it, which takes effect once
it holds no cell. Work that ran under owner 4 or 8 (R213) releases the oldest chain of that owner. Log entry 88 (DESIGN CHOICE). -/
def State.endWork (s : State) (o : Nat) : State :=
  let mine := s.ink.chains.filter (fun c => c.alloc == o && c.last == o)
  if s.ink.owners.any (fun w => w.id == o && w.dynamic) then
    let s1 : State := { s with ink := { s.ink with
      waiting := s.ink.waiting.filter (fun r => !(r.owner == o && r.what == .work))
      owners := updWhere (fun w => w.id == o) (fun w => { w with leaving := true }) s.ink.owners } }
    let s2 := mine.foldl (fun (s : State) c => s.releaseAll c.head o) s1
    { s2 with ink := { s2.ink with owners := s2.ink.owners.filter (fun w => !(w.leaving && w.held == 0)) } }
  else if o = 4 || o = 8 then (match mine.getLast? with | some c => s.releaseAll c.head o | none => s)
  else s

/-- OWNER_REGISTER (R210, R212, R213): the lowest free dynamic ID is registered with its minimum, MAX 4,096 and the age limit of 10 s, and its work
asks for its cells. MAX is the minimum where that is above 4,096, which the spec does not state. A registration is refused when
every ID is in use, and ignored when the sum of minima would pass 73,728; its work then runs under owner 8, or 4 for reclaim. `drop` names the
owner whose work ends. Log entry 88 (DESIGN CHOICE). -/
def execOwnerRegister (min : Registration) (drop : Option Nat) (s : State) : Res :=
  let under := if min.reclaim then 4 else 8
  match drop with
  | some o => .next (s.endWork o)
  | none =>
    match s.freeOwner with
    | none => .next ((s.post F.INK_EVT_STATUS_OWNER_FULL noUnit).askWork under min.cells)
    | some i =>
      if 73728 < s.sumMin + min.min then .next ((s.post F.INK_EVT_STATUS_MIN_REJ i).askWork under min.cells)
      else
        let s1 : State := { s with ink := { s.ink with owners := s.ink.owners ++ [{ id := i, dynamic := true }] } }
        .next ((((s1.setFld (F.INK_OWNER_MIN_MIN i) min.min).setFld (F.INK_OWNER_MAX_MAX i) (max min.min 4096)).setFld
          (F.INK_OWNER_AGE_LIMIT i) 1000).askWork i min.cells)

/-! ## Key slots -/

/-- KEY_SLOT_LOAD (R234): firmware loads a key into a slot; a key with equal halves is refused and the slot stays empty. -/
def execKeySlotLoad (slot key : Nat) (equalHalves : Bool) (s : State) : Res :=
  if 4096 ≤ slot || s.mode = .off || s.mode = .holdUp then .next s
  else
    let rest := s.ink.keys.filter (fun k => k.slot != slot)
    .next { s with ink := { s.ink with
      keys := if equalHalves then rest else ⟨slot, key⟩ :: rest } }

/-- KEY_SLOT_CLEAR (R236): a slot that is to be cleared is cleared once no lane holds a unit under it. -/
def execKeySlotClear (slot : Nat) (s : State) : Res :=
  let inLane := s.qe.cmds.any (fun c => !c.retry.isEmpty && ((s.ns c.nsid).bind (fun n => n.key)) == some slot)
  if !s.ink.pendingClear.contains slot || inLane then .next s
  else .next { s with ink := { s.ink with
    keys := s.ink.keys.filter (fun k => k.slot != slot)
    pendingClear := s.ink.pendingClear.filter (· != slot) } }

end Sys2Proof.Machine
end

