-- ==== Sys2Proof/Machine/Tap.lean ====
section
/-! DEFINITION. The test access port (R658): which instruction each lifecycle state accepts, the load of an instruction, and the reset of
the port. No row of the opcode table drives its balls; a change of the lifecycle acts on the instruction in force: log entry 91. -/

namespace Sys2Proof.Machine

/-- CTRL bit 0 of the resolved fuses (R526): the debug port is closed. -/
def State.debugClosed (s : State) : Bool := ((s.fol.resolved.lookup 51).getD 0).testBit 0

/-- Whether the port accepts an instruction (R541, R658): BYPASS and IDCODE always, SAMPLE/PRELOAD and EXTEST in BLANK and FACTORY, and a
debug instruction in FACTORY with a Torvelle token while the fuses have not closed the debug port. Log entry 91 (DEDUCED). -/
def State.tapAccepts (s : State) : TapInstr → Bool
  | .bypass | .idcode => true
  | .samplePreload | .extest => decide (s.lifecycle ≤ 1)
  | .debug => s.lifecycle == 1 && s.pwr.tap.token && !s.debugClosed

/-- Loads an instruction (R658): a port held in reset loads none, and one that is not accepted selects BYPASS. Log entry 99 (PRESUMED). -/
def State.tapLoad (s : State) (i : TapInstr) : State :=
  if !s.pwr.tap.trst then s
  else { s with pwr := { s.pwr with tap := { s.pwr.tap with instr := if s.tapAccepts i then i else .bypass } } }

/-- TRST_N changes (R658): low, or unconnected, holds the port in reset. Log entry 99 (PRESUMED). -/
def State.tapReset (s : State) (high : Bool) : State :=
  { s with pwr := { s.pwr with tap := if high then { s.pwr.tap with trst := true } else {} } }

/-- The lifecycle state has changed: an instruction that it does not accept gives way to BYPASS (R658). Log entry 91 (DEDUCED). -/
def State.tapCheck (s : State) : State :=
  if s.tapAccepts s.pwr.tap.instr then s else { s with pwr := { s.pwr with tap := { s.pwr.tap with instr := .bypass } } }

end Sys2Proof.Machine
end

