-- ==== Sys2Proof/Machine/Lifecycle.lean ====
section
/-! DEFINITION. Fuses, their resolution (R526, R527), and lifecycle transitions (R541 to R547). -/

namespace Sys2Proof.Machine

/-! ## Fuses -/

/-- How a field's marginal bits read (R526). -/
inductive MarginRule where
  | one | zero | none
  deriving DecidableEq, Repr

/-- A fuse field (R526): its first word, words in a copy, copies, and how marginal bits read. -/
structure FuseField where
  first : Nat
  words : Nat
  copies : Nat
  rule : MarginRule
  deriving DecidableEq, Repr

/-- The fields of R526's table that are burned. -/
def fuseFields : List FuseField :=
  [⟨0, 1, 3, .one⟩, ⟨3, 6, 3, .none⟩, ⟨21, 6, 3, .none⟩, ⟨39, 4, 3, .none⟩, ⟨51, 1, 3, .one⟩, ⟨54, 3, 3, .one⟩,
   ⟨66, 32, 1, .zero⟩, ⟨98, 64, 1, .zero⟩]

/-- A word's readings at margin-low and margin-high (R527). -/
def State.margins (s : State) (w : Nat) : Nat × Nat := (s.fol.fuses.lookup w).getD (0, 0)

/-- The value of one copy of a field, none where it counts for no value (R527). -/
def State.copyValue (s : State) (f : FuseField) (c : Nat) : Option (List Nat) :=
  let rs := (List.range f.words).map (fun i => s.margins (f.first + c * f.words + i))
  if rs.all (fun r => r.1 == r.2) then some (rs.map (fun r => r.1))
  else
    match f.rule with
    | .one => some (rs.map (fun r => r.1))
    | .zero => some (rs.map (fun r => r.2))
    | .none => none

/-- A field resolved (R527): none where no value is held by two copies. -/
def State.resolveField (s : State) (f : FuseField) : Option (List Nat) :=
  let vs := (List.range f.copies).map (s.copyValue f)
  if f.copies = 1 then vs.headD none
  else ((vs.find? (fun v => v.isSome && 2 ≤ (vs.filter (fun w => w == v)).length)).getD none)

/-- The field of a fuse word, as the table of R526 lists it. -/
def fuseFieldOf (w : Nat) : Option FuseField := fuseFields.find? (fun f => f.first ≤ w && w < f.first + f.words * f.copies)

/-- The resolved value of a fuse word (R555): 0 for the UDS. -/
def State.fuseShown (s : State) (w : Nat) : Nat :=
  match fuseFieldOf w with
  | some f => if f.first = 3 then 0 else s.fuse (f.first + (w - f.first) % f.words)
  | none => 0

/-- Stores a field's resolved words, by the words of its first copy. -/
def State.putField (s : State) (f : FuseField) (v : List Nat) : State :=
  let new := (List.range f.words).map (fun i => (f.first + i, v.getD i 0))
  State.tapCheck { s with fol := { s.fol with resolved := new ++ s.fol.resolved.filter (fun e => !(f.first ≤ e.1 && e.1 < f.first + f.words)) } }

/-- Resolves a field again after a burn in this boot. -/
def State.resolveAgain (s : State) (first : Nat) : State :=
  match fuseFields.find? (fun f => f.first == first) with
  | some f => match s.resolveField f with | some v => s.putField f v | none => s
  | none => s

/-- Burns bits of a word (R526, R545): they read 1 at margin-low, and at margin-high all but the weak ones. -/
def State.burn (s : State) (w mask weak : Nat) : State :=
  let r := s.margins w
  { s with fol := { s.fol with fuses := (w, r.1 ||| mask, r.2 ||| (mask - (mask &&& weak))) :: s.fol.fuses.filter (fun e => e.1 != w) } }

/-! ## Transitions -/

/-- The transitions of R542. -/
def lcPermitted (from_ dest : Nat) : Bool :=
  (from_ ≤ 2 && dest == from_ + 1) || (from_ == 3 && dest == 4) || (from_ ≤ 4 && dest == 5)

/-- The length of a token for a target state (R542). -/
def lcTokenLength (dest : Nat) : Nat := 64 + (if dest = 3 then 2049 else 0) + 3309 + 96

/-- The words and masks that a transition burns (R545): OWNER_HASH in copies 0 to 2 when TO is 3, then the TO bit in the LC
copies. -/
def lcBurns (dest owner : Nat) : List (Nat × Nat) :=
  let hash := (List.range 18).filterMap (fun i =>
    let m := owner / 2 ^ (64 * (i % 6)) % 2 ^ 64
    if m = 0 then none else some (21 + i, m))
  (if dest = 3 then hash else []) ++ (List.range 3).map (fun c => (c, 2 ^ (dest - 1)))

/-- The first condition of R543 that applies, as status and DW0; none where the transition runs. Log entry 54 (DEDUCED). -/
def State.lcCheck (s : State) (ref : Ref) (dest len : Nat) (t : LcToken) : Option (Status × Nat) :=
  match s.heldAgainst ref with
  | some h => some (.authorityElsewhere, h.code)
  | none =>
    if s.fol.trans.isSome || (s.fol.intents.head?.any (fun i => i.done != 2)) then some (.cmdSeqError, 0)
    else if s.mode = .holdUp || (s.mode = .safe && dest != 5) then some (.cmdSeqError, 0)
    else if !lcPermitted s.lifecycle dest || t.dest != dest then some (.invalidField, 1)
    else if len != lcTokenLength dest || !t.zero then some (.invalidField, 2)
    else if t.bootSeq != s.fol.bootSeq || !t.ident then some (.invalidField, 3)
    else if !t.signed then some (.invalidField, 4)
    else if !s.storeHealthy then some (.cmdSeqError, 5)
    else none

/-- LIFECYCLE_TRANSITION (R542 to R545): the checks in order; a transition that runs writes its intent record first. `to` is
CDW10's field and `len` CDW11. -/
def execLifecycleTransition (ref : Ref) (dest len : Nat) (token : LcToken) (s : State) : Res :=
  if !s.accepts ref then .next s
  else
    let s0 := s.latch ref
    let dest := dest % 8
    if (holderOf ref).isNone then s0.done ref .invalidOpcode
    else
      match s0.lcCheck ref dest len token with
      | some (st, dw0) => s0.done ref st dw0
      | none =>
        let it : Intent := {
          iseq := ((s0.fol.intents.head?.map (fun i => i.iseq)).getD 0) + 1, from_ := s0.lifecycle, dest, stamp := s0.stamp
          owner := if dest = 3 then token.ownerHash else 0 }
        let tr : Trans := { intent := it, ref := some ref, burns := lcBurns dest it.owner }
        let s1 := s0.lockFor ref
        .next (({ s1 with fol := { s1.fol with trans := some tr } }).folio { job := .intent 0 })

/-- What the transition does to the keys (R528, R541, R545 step 6): FACTORY makes the DSK, PROVISIONED the MRK, RETIRED erases the
identity region and the key table and clears every key slot. -/
def State.lcKeys (s : State) (dest : Nat) : State :=
  let key := s.fol.nextKey
  match dest with
  | 1 => { s with fol := { s.fol with nextKey := key + 1, ident := { s.fol.ident with dsk := some key } } }
  | 2 => { s with fol := { s.fol with nextKey := key + 1, ident := { s.fol.ident with mrk := some key } } }
  | 5 => { s with
      fol := { s.fol with ident := { seq := s.fol.ident.seq }, keyTab := [] }
      ink := { s.ink with pendingClear := s.ink.pendingClear ++ (s.ink.keys.map (fun k => k.slot)).filter (fun k => !s.ink.pendingClear.contains k) } }
  | _ => s

/-- The intent's DONE has been programmed, or the record itself (R544, R545): what comes next. -/
def State.lcIntent (s : State) (done : Nat) : State :=
  match s.fol.trans with
  | none => s
  | some t =>
    let it : Intent := { t.intent with done }
    let s1 : State := { s with fol := { s.fol with
      intents := if done = 0 then it :: s.fol.intents else it :: s.fol.intents.tail
      trans := some { t with intent := it } } }
    match done with
    | 0 => s1
    | 1 =>
      let s2 := s1.lcKeys it.dest
      if it.dest = 1 || it.dest = 2 || it.dest = 5 then s2.folio { job := .identity false, erase := true } else s2.folio { job := .intent 2 }
    | _ =>
      let s2 := (({ s1 with fol := { s1.fol with trans := none } }).colophon 5 (it.from_ + 256 * it.dest) it.iseq 0).post
        F.FOL_EVT_STATUS_LC_DONE noUnit
      match t.ref with
      | some r => (s2.unlockTemp r).complete r .success 0
      | none => s2

/-- A pair of copies that a transition rewrites has passed (R545): RETIRED goes on from the identity region to the key table, and
DONE is programmed to 0 after the last. -/
def State.lcPair (s : State) (keys : Bool) : State :=
  match s.fol.trans with
  | none => s
  | some t =>
    if t.intent.done != 1 then s
    else if t.intent.dest = 5 && !keys then s.folio { job := .keys false, erase := true }
    else if t.intent.dest = 5 || !keys then s.folio { job := .intent 2 }
    else s

/-- Every burn of a transition reads 1 at both margins (R545 steps 4 and 5). -/
def State.lcBurned (s : State) : State := ((s.resolveAgain 0).resolveAgain 21).folio { job := .intent 1 }

/-- A burn of a transition has been read back (R545 step 4): a weak bit is burned again up to three times; then the transition stays
open and its command ends with Internal Error. -/
def State.lcBurn (s : State) (t : Trans) (w mask weak : Nat) (rest : List (Nat × Nat)) : State :=
  let s1 := s.burn w mask weak
  if mask &&& weak = 0 then
    let s2 : State := { s1 with fol := { s1.fol with trans := some { t with burns := rest, tries := 0 } } }
    if rest.isEmpty then s2.lcBurned else s2
  else if t.tries < 3 then
    { s1 with fol := { s1.fol with trans := some { t with burns := (w, mask &&& weak) :: rest, tries := t.tries + 1 } } }
  else
    let s2 : State := { s1 with fol := { s1.fol with trans := none } }
    match t.ref with
    | some r => (s2.unlockTemp r).complete r .internalError 0
    | none => s2

/-- FUSE_PROGRAM_COMPLETE (R545, R579): the burn in progress ends and is read at both margins; `weak` holds the bits of it that
read 0 at margin-high. A transition's burns start once its intent record has been written; SVN burns follow TRIAL's
confirmation, and one that stays weak is left to the next BOOT. -/
def execFuseProgramComplete (weak : Nat) (s : State) : Res :=
  if s.mode = .off || s.mode = .doze || s.mode = .holdUp then .next s
  else
    let written (t : Trans) : Bool := s.fol.intents.head?.any (fun i => i.iseq == t.intent.iseq)
    match s.fol.trans with
    | some t =>
      match t.burns with
      | (w, m) :: rest => if written t then .next (s.lcBurn t w m weak rest) else .next s
      | [] => .next s
    | none =>
      match s.fol.svnBurns with
      | [] => .next s
      | (w, m) :: rest =>
        let s1 := s.burn w m weak
        if m &&& weak != 0 && s.fol.svnTries < 3 then
          .next { s1 with fol := { s1.fol with svnBurns := (w, m &&& weak) :: rest, svnTries := s.fol.svnTries + 1 } }
        else
          let s2 : State := { s1 with fol := { s1.fol with svnBurns := rest, svnTries := 0 } }
          .next (if rest.isEmpty then s2.resolveAgain 54 else s2)

end Sys2Proof.Machine
end

