-- ==== Sys2Proof/Machine/RegOps.lean ====
section
/-! DEFINITION. Whole registers of the register file: the descriptor of a key, banked words included, the RWS fields and the
settings that they make up (R525, R638, R641), and a register's reset. -/

namespace Sys2Proof.Machine

/-- The BAR2 offset of the register that shows a banked word. -/
def bankOffset (k : Nat) : Nat :=
  if k < 0x400 then 0x4018
  else if k < 0x800 then 0x401C
  else if k < 0xC00 then 0x4028
  else if k < 0x2000 then 0x300C
  else if k % 2 = 0 then 0x5018 else 0x501C

/-- The descriptor of a key of the register file. -/
def descOf (key : Nat) : Option RegDesc := regDesc (if bankBase ≤ key then bankOffset (key - bankBase) else key)

/-- The bits of a field in its register. -/
def FieldDesc.mask (f : FieldDesc) : Nat := (2 ^ f.w - 1) * 2 ^ f.lo

/-- The bits of a register that its RWS fields occupy. -/
def rwsMask (key : Nat) : Nat :=
  match descOf key with
  | some d => ((d.fields.filter (fun f => f.acc == .rws)).map FieldDesc.mask).sum
  | none => 0

/-- The RWS values in force (R641): for each register that differs from its reset value, its RWS fields. -/
def State.rwsValues (s : State) : List (Nat × Word) :=
  s.regs.filterMap (fun e =>
    let m := rwsMask e.1
    let v := (regReset e.1).toNat &&& (2 ^ 32 - 1 - m) ||| (e.2.toNat &&& m)
    if BitVec.ofNat 32 v = regReset e.1 then none else some (e.1, BitVec.ofNat 32 v))

/-- Loads the RWS fields of a register from settings; a register that they do not list takes its reset value there
(R638). -/
def State.loadRws (s : State) (regs : List (Nat × Word)) (key : Nat) : State :=
  let m := rwsMask key
  let v := (sget regReset regs key).toNat
  s.setReg key (s.reg key &&& (2 ^ 32 - 1 - m) ||| (v &&& m))

/-- Step 7 of R530: every RWS field takes its value from the selected settings copy (R638, R644). -/
def State.loadSettings (s : State) (regs : List (Nat × Word)) : State :=
  let keys := (s.regs.map (fun e => e.1) ++ regs.map (fun e => e.1)).eraseDups
  keys.foldl (fun (s : State) k => s.loadRws regs k) s

/-- The registers that satisfy a test take their reset values (R644). -/
def State.resetKeys (s : State) (p : Nat → Bool) : State := { s with regs := s.regs.filter (fun e => !p e.1) }

/-- The always-on block registers (R644). -/
def aonKey (k : Nat) : Bool := 0xA000 ≤ k && k < 0xC000

end Sys2Proof.Machine
end

