-- ==== Sys2Proof/Machine/Sanitize.lean ====
section
/-! DEFINITION. What empties a namespace and what a sanitize does (R236, R279 to R281, R529). -/

namespace Sys2Proof.Machine

/-- Releases every hold on a chain. -/
def State.dropChain (s : State) (h : Nat) : State :=
  match s.chain h with
  | some c => c.holders.foldl (fun (s : State) o => s.releaseAll h o.1) s
  | none => s

/-- Unmaps a namespace whole (R236, R280): what is in flight for it commits nothing, and every mapped IU becomes UNMAPPED. -/
def State.unmapNs (s : State) (nsid : Nat) : State :=
  let s1 := ((s.map.inflight.filter (fun r => r.nsid == nsid)).map (fun r => r.idx)).foldl State.abortRec s
  ((s1.map.entries.filter (fun e => e.1.1 == nsid)).map (fun e => e.1.2)).foldl
    (fun (s : State) iu => s.changeEntry nsid iu s.now .unmapped) s1

/-- A new key in a namespace's slot (R234, R236, R280): what was stored under the old one is no longer read. -/
def State.rekeyNs (s : State) (n : Ns) : State :=
  match n.key with
  | none => s
  | some k =>
    let key := s.fol.nextKey
    { s with
      ink := { s.ink with keys := updWhere (fun e => e.slot == k) (fun e => { e with key }) s.ink.keys }
      fol := { s.fol with nextKey := key + 1, keyTab := (n.nsid, key) :: s.fol.keyTab.filter (fun e => e.1 != n.nsid) } }

/-- Work of the medium that a sanitize ends: strokes not yet placed, units being read, open wordlines and stripes. -/
def State.dropMedia (s : State) : State :=
  let keeps (k : Stroke) : Bool := k.inRing || (match k.purpose with
    | .temp | .status | .script _ | .suspendOf _ | .resumeOf _ => true
    | _ => false)
  let s1 := (s.map.fetches.filterMap (fun f => f.chain)).foldl State.dropChain s
  { s1 with
    stk := { s1.stk with strokes := s1.stk.strokes.filter keeps }
    map := { s1.map with fetches := [], wordlines := [], stripes := [], wps := [], scans := [] } }

/-- The operation of a sanitize (R280), begun once its state is in the Folio and again from its first step at a BOOT that finds
it there (R281). -/
def State.runSanitize (s : State) : State :=
  let held := (s.ckpt.cuts.filter (fun c => c.state == 2)).map (fun c => c.slot)
  let s1 := held.foldl State.releaseCut s
  let s2 := (s1.qe.cmds.map (fun c => c.ref)).foldl (fun (s : State) r =>
    match s.cmd r with
    | some c => if c.kind = .read || c.kind = .compare then s.failRead r .sanitizeInProgress else s.failWrite r .sanitizeInProgress
    | none => s) s1
  let s3 := { s2 with map := { s2.map with tickets := [] } }.dropMedia
  let s4 := (s3.qe.nss.map (fun n => n.nsid)).foldl State.unmapNs (s3.qe.nss.foldl State.rekeyNs s3)
  let reborn : List Ns := s4.qe.nss.map (fun n => { n with born := s4.now })
  let s5 : State := { s4 with qe := { s4.qe with nss := reborn }, map := { s4.map with entries := [], inflight := [] } }.folio { job := .keys false, erase := true }
  if s5.map.sanitize.active = 2 then
    let blocks := (s5.nib.luns.filter (fun l => s5.lunServes l.lun)).flatMap (fun l =>
      ((List.range s5.geoBlocks).filter (fun b => !s5.map.badBlocks.contains (l.lun, b) && !s5.map.factoryBad.contains (l.lun, b))).map
        (fun b => (l.lun, b)))
    let s6 : State := { s5 with map := { s5.map with sanitize := { s5.map.sanitize with left := blocks.length } } }
    if blocks.isEmpty then { s6 with map := { s6.map with sanitize := { s6.map.sanitize with active := 0 } } }.folio
      { job := .sanitize, erase := true }
    else blocks.foldl (fun (s : State) e => s.newStroke { mkStroke .erase 4 e.1 false (.eraseBlock e.2) with row := e.2 }) s6
  else
    let key := s5.fol.nextKey
    let shut (b : Band) : Band := if b.state == .open then { b with state := .closed, wp := none, fill := [], valid := 0 } else { b with valid := 0 }
    { s5 with
      map := { s5.map with bands := s5.map.bands.map shut, sanitize := { s5.map.sanitize with left := 2 } }
      fol := { s5.fol with nextKey := key + 1, ident := { s5.fol.ident with mrk := s5.fol.ident.mrk.map (fun _ => key) } } }.folio
      { job := .identity false, erase := true }

/-- A pair of copies that a crypto erase rewrites has passed (R280, R529); with the last it ends. -/
def State.cryptoStep (s : State) : State :=
  if s.map.sanitize.active != 4 || s.map.sanitize.left = 0 then s
  else
    let left := s.map.sanitize.left - 1
    let s1 : State := { s with map := { s.map with sanitize := { s.map.sanitize with left, active := if left = 0 then 0 else 4 } } }
    if left = 0 then s1.folio { job := .sanitize, erase := true } else s1

end Sys2Proof.Machine
end

