-- ==== Sys2Proof/Machine/Quill.lean ====
section
/-! DEFINITION. The Quill's rows (chapter 11): a context's start, the eleven sequencing micro-operations of Scriptorium
code with the releases of WAIT and WLINE, the timer, the scrub and the end of a Nib restart. A row acts when its context
stands at a word of its kind, and has no effect otherwise. -/

namespace Sys2Proof.Machine

/-- QUILL_CONTEXT_START (R400, R401, R408): at the later of 64 ns before the due line and the acceptance the stroke takes
its context; a Scriptorium stroke fetches its entry's first words. SUSPEND and RESUME run in no context. -/
def execQuillContextStart (nib seq : Nat) (par : Par) (s : State) : Res :=
  match s.runAt nib seq with
  | none => .next s
  | some r =>
    match s.strokeOf r.req with
    | none => .next s
    | some k =>
      if k.op = .suspend || k.op = .resume || s.nowAt (islNib r.nib) + 64 * nsT < k.due * 256 || s.nib.ctxs.any (fun x => x.req == r.req)
          || s.fld (F.NIB_STATUS_STATE nib) != 3 then .next s
      else
        let x := s.newCtx r k
        let s1 : State := { s with nib := { s.nib with ctxs := s.nib.ctxs ++ [x] } }
        let s2 := s1.updStroke k.req (fun k => { k with ctx := some x.ctx })
        if k.op = .script then .next (s2.stored x (s2.fillQueue 3 x (some (s2.entryOf k)) par)) else .next s2

/-- NEXT (R403, R409). -/
def execNext (nib ctx : Nat) (q : QIn) (s : State) : Res :=
  .next (s.microword 0x0 nib ctx q (fun s x _ => s.advance x q.par))

/-- JUMP (R403): its successor is TGT. -/
def execJump (nib ctx : Nat) (q : QIn) (s : State) : Res :=
  .next (s.microword 0x1 nib ctx q (fun s x _ => s.advance x q.par))

/-- BR (R403, R409): its successor was decided at fetch. -/
def execBr (nib ctx : Nat) (q : QIn) (s : State) : Res :=
  .next (s.microword 0x2 nib ctx q (fun s x _ => s.advance x q.par))

/-- BRN (R403, R409). -/
def execBrn (nib ctx : Nat) (q : QIn) (s : State) : Res :=
  .next (s.microword 0x3 nib ctx q (fun s x _ => s.advance x q.par))

/-- CALL (R403, R418, R419): into the Scriptorium it goes on at TGT; to a service the context holds until the service's
action has ended, which for SVC_VOLSEL is its own bus cycles. -/
def execCall (nib ctx : Nat) (q : QIn) (s : State) : Res :=
  .next (s.microword 0x4 nib ctx q (fun s x f =>
    let t := mTgt f.micro
    if inScr t then s.advance x q.par
    else
      match t with
      | 0 => s.setCtx { x with queue := [f], hold := .svc 0 }
      | 1 =>
        let n := ((s.strokeOf x.req).map Stroke.codewords).getD 1
        s.setCtx { x with queue := [f], hold := .svc 1, xbusy := true, decoding := n }
      | 2 => s.setCtx { x with queue := [f], hold := .svc 2 }
      | _ => s.serviceReturn x none))

/-- RET (R403): it pops the return stack. -/
def execRet (nib ctx : Nat) (q : QIn) (s : State) : Res :=
  .next (s.microword 0x5 nib ctx q (fun s x _ => s.advance x q.par))

/-- LOOP (R403, R409): LC is decremented now; where it goes was decided at fetch. -/
def execLoop (nib ctx : Nat) (q : QIn) (s : State) : Res :=
  .next (s.microword 0x6 nib ctx q (fun s x _ => s.advance { x with lc := (x.lc + 8191) % 8192 } q.par))

/-- LDLC (R403). -/
def execLdlc (nib ctx : Nat) (q : QIn) (s : State) : Res :=
  .next (s.microword 0x7 nib ctx q (fun s x f => s.advance { x with lc := mTgt f.micro } q.par))

/-- WAIT (R403, R410): the context holds. -/
def execWait (nib ctx : Nat) (q : QIn) (s : State) : Res :=
  .next (s.microword 0x8 nib ctx q (fun s x f => s.setCtx { x with hold := .wait (mCond f.micro) }))

/-- WAIT_RELEASE (R410): the held context goes on once its condition is true; an ABORT passes control to the abandon
routine. -/
def execWaitRelease (nib ctx : Nat) (s : State) : Res :=
  match s.ctxAt nib ctx with
  | none => .next s
  | some x =>
    match x.hold with
    | .wait c => if x.abort then .next (s.abandon x) else if s.cond x c then .next (s.advance x .ok) else .next s
    | _ => .next s

/-- WLINE (R403): the context holds until the TGT-th line pulse from now. -/
def execWline (nib ctx : Nat) (q : QIn) (s : State) : Res :=
  .next (s.microword 0x9 nib ctx q (fun s x f => s.setCtx { x with hold := .wline (s.rul.lineIdx + mTgt f.micro) }))

/-- WLINE_RELEASE (R403, R410). -/
def execWlineRelease (nib ctx : Nat) (s : State) : Res :=
  match s.ctxAt nib ctx with
  | none => .next s
  | some x =>
    match x.hold with
    | .wline t => if x.abort then .next (s.abandon x) else if t ≤ s.rul.lineIdx then .next (s.advance x .ok) else .next s
    | _ => .next s

/-- TM_EXPIRE (R401, R404): TM reaches 0, so TEXP is true. -/
def execTmExpire (nib ctx : Nat) (s : State) : Res :=
  match s.ctxAt nib ctx with
  | none => .next s
  | some x => if x.tmRun && x.tm ≤ s.nowAt (islNib nib) then .next (s.setCtx { x with tm := 0, tmRun := false }) else .next s

/-- SCRIBE (R403, R411, R412): S0 becomes the microword at TGT or at S1; words already fetched keep their contents, and
the next fetch sees the new one. -/
def execScribe (nib ctx : Nat) (q : QIn) (s : State) : Res :=
  .next (s.microword 0xA nib ctx q (fun s x f =>
    let a := if mCond f.micro = 0 then mTgt f.micro else x.s.getD 1 0 % 2 ^ 13
    let s1 : State := { s with nib := { s.nib with
      scribed := ((nib, a), x.s.getD 0 0) :: s.nib.scribed.filter (fun e => e.1 != (nib, a)) } }
    s1.advance x q.par))

/-- DONE (R403, R420): the stroke ends with the nanoword's STAT; a special erase stands for its ERASE. -/
def execDone (nib ctx : Nat) (s : State) : Res :=
  .next (s.microword 0xB nib ctx {} (fun s x f =>
    let st := bitsOf f.nano 54 4
    match s.nib.runs.find? (fun r => r.nib == x.nib && r.req == x.req), s.strokeOf x.req with
    | some r, some k =>
      if k.writes && (st = 0 || st = 3) then s.endErase { r with ready := true, readyAt := s.nowAt (islNib r.nib) } k (st == 3)
      else s.endRun { r with ready := true, readyAt := s.nowAt (islNib r.nib) } st r.result
    | some r, none => s.endRun r st r.result
    | _, _ => s))

/-- QUILL_SCRUB_READ (R413): a parity error found by the scrub is a machine check. -/
def execQuillScrubRead (nib addr : Nat) (bad : Bool) (s : State) : Res :=
  if s.mode = .off || s.mode = .doze || !s.flag (F.NIB_Q_CTRL_SCRUB_EN nib) || !bad || s.nibMasked nib then .next s
  else .next (s.machineCheck nib 7 0 addr)

/-- NIB_RESTART_COMPLETE (R415, R420, R386): the reloaded Nib is back in service; a target whose bring-up did not pass, and
a LUN that has not come back, are unresponsive. -/
def execNibRestartComplete (nib : Nat) (badTargets : List Nat) (s : State) : Res :=
  if s.fld (F.NIB_STATUS_STATE nib) != 5 then .next s
  else
    let s1 : State := { s with nib := { s.nib with
      luns := updWhere (fun x => chanOf x.lun == nib && x.state == .resetting) (fun x => { x with state := .idle }) s.nib.luns } }
    let s2 := (s1.setFld (F.NIB_STATUS_STATE nib) 3).post (F.NIB_Q_EVT_STATUS_RESTART nib) nib
    let bad := ((s2.lunsOf nib).filter (fun x => badTargets.contains (targetOf x.lun) && x.state == .idle)).map (fun x => x.lun)
    .next (bad.foldl State.unresponsive s2).settle

end Sys2Proof.Machine
end

