-- ==== Sys2Proof/Machine/Scriptorium.lean ====
section
/-! DEFINITION. The SCR window, Scriptorium images and their loading (R420 to R426). -/

namespace Sys2Proof.Machine

/-! ## The SCR window (R422) -/

/-- What a byte of the window that nothing has written reads as: 0 (DESIGN CHOICE: the spec gives the window no reset contents). Log entry 15 (DESIGN CHOICE). -/
def windowReset (_ : Nat) : Byte := 0

/-- A byte of the SCR window. Log entry 15 (DESIGN CHOICE). -/
def windowByte (m : List Host.Cell) (a : Nat) : Byte := sget windowReset m a

/-- Writes a byte of the SCR window. Log entry 15 (DESIGN CHOICE). -/
def windowPut (m : List Host.Cell) (a : Nat) (v : Byte) : List Host.Cell := sset windowReset m a v

/-- The canonical form of the window's bytes: addresses strictly rising, none listed at what an unlisted one reads as. Log entry 15 (DESIGN CHOICE). -/
def Memory.wf (m : List Host.Cell) : Bool := swf windowReset m

/-! ## Images (R421) -/

/-- `n` little-endian bytes of an image from byte `at_` up. -/
def leBytes (data : List Nat) (at_ n : Nat) : Nat :=
  (List.range n).foldr (fun i acc => acc * 256 + (data[at_ + i]?).getD 0 % 256) 0

/-- The header's counts: USIZE, NSIZE and ENTRIES. -/
def imgUsize (d : List Nat) : Nat := leBytes d 8 2
def imgNsize (d : List Nat) : Nat := leBytes d 10 2
def imgEntries (d : List Nat) : Nat := leBytes d 12 2

/-- The length that R421 gives an image with these counts. -/
def imgLength (d : List Nat) : Nat := 64 + 8 * imgEntries d + 4 * imgUsize d + 12 * imgNsize d

/-- The image that the bytes hold. -/
def imgOf (d : List Nat) : Scriptorium :=
  let e := imgEntries d
  let u := imgUsize d
  { entries := (List.range e).map (fun i => (leBytes d (64 + 8 * i) 2, leBytes d (66 + 8 * i) 1, leBytes d (67 + 8 * i) 1))
    micro := (List.range u).map (fun i => leBytes d (64 + 8 * e + 4 * i) 4)
    nano := (List.range (imgNsize d)).map (fun i => leBytes d (64 + 8 * e + 4 * u + 12 * i) 12) }

/-- Whether a reserved field of an image's header or entry table is not 0 (R421). -/
def imgReserved (d : List Nat) : Bool :=
  leBytes d 6 2 != 0 || leBytes d 14 2 != 0 || (List.range (imgEntries d)).any (fun i => leBytes d (68 + 8 * i) 4 != 0)

/-- Whether a nanoword carries a reserved encoding (R405, R414). -/
def badNano (v : Nat) : Bool :=
  let bus := bitsOf v 8 3
  11 ≤ bitsOf v 17 4 || (1 ≤ bus && bus ≤ 3 && 6 ≤ bitsOf v 11 3) || (bus == 7 && 2 ≤ bitsOf v 67 3) ||
    bitsOf v 31 1 != 0 || bitsOf v 63 1 != 0 || bitsOf v 70 26 != 0

/-- Whether a microword of an image breaks R418 or R414 with its static fields (R423 row 11). -/
def badMicro (img : Scriptorium) (w : Nat) : Bool :=
  let mop := mMop w
  let out := !inScr (mTgt w)
  if mNano w < 0x600 || 0xC ≤ mop then true
  else
    match mop with
    | 0x1 | 0x2 | 0x3 | 0x6 => out
    | 0x4 => out && 3 < mTgt w
    | 0x9 => mTgt w = 0
    | 0xA => 2 ≤ mCond w || (mCond w = 0 && out)
    | 0xB => 3 < bitsOf (img.nano.getD (mNano w - 0x600) 0) 54 4
    | _ => false

/-- The index of the first word that R423 row 11 refuses: the microwords count first, then the nanowords. -/
def badWordIndex (img : Scriptorium) : Option Nat :=
  match img.micro.findIdx? (badMicro img) with
  | some i => some i
  | none => (img.nano.findIdx? badNano).map (· + img.micro.length)

/-- Rows 5 to 11 of R423 for an image of `len` bytes: DW0 of the refusal. Log entry 40 (DEDUCED). -/
def imgCheck (mask cdw12 len : Nat) (sealed : Bool) (d : List Nat) (digest : Bool) : Option Nat :=
  let img := imgOf d
  let kinds (k : Nat) : Nat := (img.entries.filter (fun e => e.2.2 == k)).length
  if mask = 0 || 2 ^ 17 ≤ cdw12 % 2 ^ 32 || (cdw12.testBit 16 && sealed) then some 0
  else if 14912 < len || len < 64 || len != imgLength d then some 1
  else if leBytes d 0 4 != 0x51534331 || leBytes d 4 2 != 1 || imgReserved d then some 2
  else if 2048 < imgUsize d || 512 < imgNsize d || 64 < imgEntries d || 1 < kinds 2 || 1 < kinds 3 then some 3
  else if !digest then some 4
  else if img.entries.any (fun e => !inScr e.1 || e.2.1 < 9 || 15 < e.2.1 || e.2.2 < 1 || 3 < e.2.2) then some 5
  else (badWordIndex img).map (fun i => 6 + 0x10000 * i)

/-! ## The load (R422 to R425) -/

/-- The Scriptorium set in force. -/
def State.scrSet (s : State) : ScrSet :=
  match s.nib.setA, s.nib.setB with
  | some a, some b => if a.seq < b.seq then b else a
  | some a, none => a
  | none, some b => b
  | none, none => {}

/-- A set with a new image for some Nibs (R425). -/
def ScrSet.withImage (t : ScrSet) (img : Scriptorium) (nibs : List Nat) : ScrSet :=
  let i := (t.images.findIdx? (· == img)).getD t.images.length
  { seq := t.seq + 1
    images := if t.images.contains img then t.images else t.images ++ [img]
    ofNib := nibs.map (fun n => (n, i)) ++ t.ofNib.filter (fun e => !nibs.contains e.1) }

/-- The image that a set gives a Nib; a Nib that it does not name runs an empty one. -/
def ScrSet.imageFor (t : ScrSet) (n : Nat) : Scriptorium := ((t.ofNib.lookup n).bind (fun i => t.images[i]?)).getD {}

/-- SCRIPTORIUM_LOAD (R422, R423): the checks in their order; an accepted load writes the new set to the Folio first. -/
def execScriptoriumLoad (ref : Ref) (cdw10 cdw11 cdw12 : Nat) (data : List Nat) (digest : Bool) (s : State) : Res :=
  if !s.accepts ref then .next s
  else
    let s0 := s.latch ref
    let len := 4 * cdw10
    let mask := cdw11 % 2 ^ 32 + 2 ^ 32 * (cdw12 % 2 ^ 16)
    let d := if cdw12.testBit 16 then (List.range (min len 14912)).map (fun a => (windowByte s0.nib.window a).toNat) else data
    if (holderOf ref).isNone then s0.done ref .invalidOpcode
    else
      match s0.heldAgainst ref with
      | some h => s0.done ref .authorityElsewhere h.code
      | none =>
        if s0.nib.load.isSome then s0.done ref .cmdSeqError
        else if s0.lifecycle = 4 || s0.lifecycle = 5 then s0.done ref .updateRefused 1
        else if s0.bxl.lock then s0.done ref .updateRefused 2
        else if s0.mode = .safe || s0.mode = .holdUp then s0.done ref .cmdSeqError
        else
          match imgCheck mask cdw12 len (s0.flag F.DEV_SEAL_SEAL) d digest with
          | some dw0 => s0.done ref .invalidField dw0
          | none =>
            let nibs := (List.range 48).filter (fun n => mask.testBit n)
            let set := s0.scrSet.withImage (imgOf d) nibs
            let s1 := s0.lockFor ref
            .next (({ s1 with nib := { s1.nib with load := some (ref, set, nibs) } }).folio { job := .scriptorium false, erase := true })

/-- Writes a Nib's image into its store and golden copy (R424, R426): SCRIBE's changes are lost with the old store. -/
def State.putImage (s : State) (n : Nat) (img : Scriptorium) : State :=
  let s1 : State := { s with nib := { s.nib with
    golden := (n, img) :: s.nib.golden.filter (fun e => e.1 != n)
    scribed := s.nib.scribed.filter (fun e => e.1.1 != n) } }
  ((s1.setFld (F.NIB_Q_SCR_USIZE n) img.micro.length).setFld (F.NIB_Q_SCR_NSIZE n) img.nano.length).setFld
    (F.NIB_Q_SCR_ENTRIES n) img.entries.length

/-- One step of a running load (R424): the first Nib left is paused and its suspended operations are resumed; once its ring is
empty it takes its image and returns to service. A masked Nib is passed over, and after the last Nib the command
completes. -/
def State.loadStep (s : State) : State :=
  match if s.nib.loading then s.nib.load else none with
  | none => s
  | some (ref, set, nibs) =>
    match nibs with
    | [] =>
      let s1 : State := { s with nib := { s.nib with load := none, loading := false, paused := [] } }
      (s1.unlockTemp ref).complete ref .success (set.seq % 2 ^ 32)
    | n :: rest =>
      if s.nibMasked n then { s with nib := { s.nib with load := some (ref, set, rest), paused := [] } }
      else if !s.nib.paused.contains n then
        let s1 : State := { s with nib := { s.nib with paused := [n] } }
        (s1.stk.strokes.filter (fun k => chanOf k.lun == n && k.phase == .suspended)).foldl State.askResume s1
      else if s.nib.runs.any (fun r => r.nib == n) || s.nib.comps.any (fun c => c.nib == n) ||
          s.stk.strokes.any (fun k => chanOf k.lun == n && k.inRing) then s
      else
        let s1 := (s.putImage n (set.imageFor n)).post (F.NIB_Q_EVT_STATUS_SCR_LOADED n) n
        { s1 with nib := { s1.nib with load := some (ref, set, rest), paused := [] } }

/-- The measurement of an image (R426): SHA-384 over the writable microwords and nanowords, unfilled words as 0. -/
def Scriptorium.measure (g : Scriptorium) : Nat :=
  Config.sha384 ((List.range 2048).flatMap (fun i => bytesLe 4 (g.micro.getD i 0)) ++ (List.range 512).flatMap (fun i => bytesLe 12 (g.nano.getD i 0)))

/-- The digest of a Scriptorium set (R425). -/
def ScrSet.sha (t : ScrSet) : Nat :=
  Config.contentSha 4 (t.seq :: t.images.flatMap (fun g => g.entries.flatMap (fun e => [e.1, e.2.1, e.2.2]) ++ g.micro ++ g.nano) ++
    t.ofNib.flatMap (fun e => [e.1, e.2]))

/-- The measurements of the Nibs under a set, 0 for a masked Nib (R533, R534). -/
def State.measures (s : State) (t : ScrSet) : List (Option Nat) :=
  (List.range 48).map (fun n => if s.nibMasked n then none else some (t.imageFor n).measure)

/-- NIB_IDX (R533): the index of each Nib's measurement among the distinct ones, 0xFF for a masked Nib. -/
def nibIdx (m : List (Option Nat)) : List Nat :=
  let distinct := (m.filterMap (fun x => x)).eraseDups
  m.map (fun x => match x with | some v => distinct.findIdx (· == v) | none => 0xFF)

/-- The set is in both copies (R424, R425): the Colophon entry with the new measurements is appended. -/
def State.scrStored (s : State) : State :=
  match s.nib.load with
  | some (_, set, _) =>
    let m := s.measures set
    s.colophonWith 7 set.seq 0 0 ([(8, 48, set.sha)] ++ (nibIdx m).mapIdx (fun n v => (56 + n, 1, v)) ++
      m.mapIdx (fun n v => (104 + 48 * n, 48, v.getD 0)))
  | none => s

end Sys2Proof.Machine
end

