-- ==== Sys2Proof/Machine/Folio.lean ====
section
/-! DEFINITION. The Folio: its sectors, their replacement (R518 to R523), what the pass of each request brings about
(R199, R281, R296, R305, R425, R525, R529, R536, R545, R573 to R578, R641), and the scrub (R520, R525). -/

namespace Sys2Proof.Machine

/-- The first sector that a job writes (R518); where in its region a datum lies is the model's choice. -/
def State.folSector (s : State) (j : FolJob) : Nat :=
  match j with
  | .root b => 15328 + bit b
  | .cut slot => 15330 + slot
  | .intent _ => 15346
  | .owner _ => 15347
  | .slot => 15348
  | .resv _ => 15296
  | .sanitize => 15297
  | .keys b => 14464 + 128 * bit b
  | .identity b => 14400 + 32 * bit b
  | .fleet b => 14400 + 32 * bit b
  | .settings b => 15232 + 32 * bit b
  | .scriptorium b => 14720 + 256 * bit b
  | .remap b => 16382 + bit b
  | .bootRecord => 9280 + s.fol.bootSeq % 4096
  | .event => 13376 + s.fol.evtPos
  | .image => 3136
  | .loader a => if a then 0 else 32

/-- The sector that serves in a sector's place (R523). -/
def State.folPhys (s : State) (sector : Nat) : Nat := (s.fol.remap.lookup sector).getD sector

/-- Erases of a sector (R523, R555). -/
def State.folWear (s : State) (sector : Nat) : Nat := (s.fol.wear.lookup (s.folPhys sector)).getD 0

/-- Replaces a sector by the lowest unused spare (R523), and says whether there was one. -/
def State.folReplace (s : State) (sector : Nat) : State × Bool :=
  let used := s.fol.remap.length
  if 798 ≤ used then (s.post F.FOL_EVT_STATUS_SPARE_OUT sector, false)
  else
    ((({ s with fol := { s.fol with remap := (sector, 15584 + used) :: s.fol.remap } }).folio { job := .remap false, erase := true }).post
      F.FOL_EVT_STATUS_SECTOR_REMAP sector, true)

/-- Counts an erase; at 100,000 the sector is replaced (R523). -/
def State.folErased (s : State) (sector : Nat) : State :=
  let p := s.folPhys sector
  let n := s.folWear sector + 1
  let s1 : State := { s with fol := { s.fol with wear := (p, n) :: s.fol.wear.filter (fun e => e.1 != p) } }
  if 100000 ≤ n then (s1.folReplace sector).1 else s1

/-- Completes the command that waits for a request. -/
def State.folEnd (s : State) (r : FolReq) (st : Status) : State :=
  match r.ref with
  | some ref => s.complete ref st (if st = .success then r.dw0 else 0)
  | none => s

/-- Puts a value at a key of a list that holds one for each key. -/
def putKey {β : Type} (k : Nat) (v : Option β) (l : List (Nat × β)) : List (Nat × β) :=
  let rest := l.filter (fun e => e.1 != k)
  match v with | some x => (k, x) :: rest | none => rest

/-- What a job writes is in the Folio, and the work that waited for it goes on. Of a datum in two copies copy B follows copy A
and carries the command (R296, R425, R525, R529). -/
def State.folPassed (s : State) (r : FolReq) : State :=
  match r.job with
  | .root false =>
    match s.ckpt.running with
    | none => s
    | some im => ({ s with ckpt := { s.ckpt with rootA := some { image := im, hwm := s.now / 256 }, writing := 2 } }).folio { job := .root true }
  | .root true =>
    match s.ckpt.running with
    | none => s
    | some im =>
      let a := match s.ckpt.rootA with | some a => if a.image.seq = im.seq then a.hwm else s.now / 256 | none => s.now / 256
      ({ s with ckpt := { s.ckpt with rootB := some { image := im, hwm := a } } }).ckComplete
  | .cut slot =>
    let recs := s.fol.cutRecs.filter (fun c => c.slot != slot)
    let here := s.ckpt.cuts.filter (fun c => c.slot == slot)
    let s1 : State := { s with fol := { s.fol with cutRecs := here ++ recs } }
    let low := ((here.flatMap (fun c => c.snaps)).min?).getD 0
    (if r.ref = some .side then s1.unlockTemp .side else s1).folEnd { r with dw0 := r.dw0 + 2 ^ 16 * low } .success
  | .resv nsid =>
    let v := (s.ns nsid).bind (fun n => if n.resv.ptpl then some n.resv else none)
    ({ s with fol := { s.fol with resvRecs := putKey nsid v s.fol.resvRecs } }).folEnd r .success
  | .sanitize =>
    let s1 := ({ s with fol := { s.fol with sanRec := s.map.sanitize } }).folEnd r .success
    if r.ref.isSome && s.map.sanitize.active != 0 then s1.runSanitize else s1
  | .keys false =>
    let t : KeyTab := { seq := max s.fol.keyA.seq s.fol.keyB.seq + 1, keys := s.fol.keyTab }
    ({ s with fol := { s.fol with keyA := t } }).folio { r with job := .keys true, erase := true }
  | .keys true => ((({ s with fol := { s.fol with keyB := { s.fol.keyA with intact := true } } }).folEnd r .success).cryptoStep).lcPair true
  | .identity false =>
    let id : Identity := { s.fol.ident with seq := max s.fol.idA.seq s.fol.idB.seq + 1, intact := true }
    ({ s with fol := { s.fol with idA := id, ident := id } }).folio { r with job := .identity true, erase := true }
  | .identity true => ((({ s with fol := { s.fol with idB := { s.fol.idA with intact := true } } }).folEnd r .success).cryptoStep).lcPair false
  | .settings false =>
    let c : SetCopy := { seq := max s.fol.setA.seq s.fol.setB.seq + 1, fmt := (s.slot s.bxl.runSlot).setFmt, regs := s.fol.setNew, feats := s.qe.savedFeats }
    ({ s with fol := { s.fol with setA := c } }).folio { r with job := .settings true, erase := true }
  | .settings true =>
    let s1 : State := { s with fol := { s.fol with setB := s.fol.setA } }
    (if s.flag F.DEV_SEAL_SEAL then (s1.setFld F.DEV_SEAL_SAVED 1).setFld F.DEV_SEAL_HELD 0 else s1).folEnd r .success
  | .scriptorium false =>
    match s.nib.load with
    | some (_, set, _) => ({ s with nib := { s.nib with setA := some set } }).folio { job := .scriptorium true, erase := true }
    | none => s
  | .scriptorium true => ({ s with nib := { s.nib with setB := s.nib.setA } }).scrStored
  | .remap false => s.folio { job := .remap true, erase := true }
  | .remap true => s
  | .bootRecord =>
    match s.fol.record with
    | some b =>
      { s with fol := { s.fol with boots := (b :: s.fol.boots).take 4096 }, mgmt := { s.mgmt with bootSeq := b.bootSeq, digest := b.digest } }
    | none => s
  | .event =>
    match s.fol.entries with
    | [] => s
    | e :: rest =>
      let n := if e.kind = 7 then 2 else 1
      let e : ColEntry := { e with sector := s.fol.evtPos }
      let overran (x : ColEntry) : Bool := (List.range n).any (fun i =>
        (s.fol.evtPos + i) % 1024 == x.sector || (x.kind == 7 && (s.fol.evtPos + i) % 1024 == (x.sector + 1) % 1024))
      { s with
        fol := { s.fol with entries := rest, events := e :: s.fol.events.filter (fun x => !overran x), evtPos := (s.fol.evtPos + n) % 1024 }
        mgmt := { s.mgmt with bootSeq := e.bootSeq, digest := e.digest }
        nib := { s.nib with loading := s.nib.loading || (e.kind == 7 && s.nib.load.isSome) } }
  | .intent d => s.lcIntent d
  | .owner lock => ({ s with bxl := { s.bxl with lock } }).folEnd r .success
  | .fleet b => s.fleetStored b
  | .image => s.imageStored
  | .loader a => s.loaderStored a
  | .slot => s.slotStored r.ref

/-- A job whose sector cannot be replaced (R523): a datum in two copies goes on with the other; a datum held once is not kept, and
the command that waits for it ends with Internal Error. Log entry 55 (DEDUCED). -/
def State.folGivenUp (s : State) (r : FolReq) : State :=
  match r.job with
  | .root false => ({ s with ckpt := { s.ckpt with rootA := none, writing := 2 } }).folio { job := .root true }
  | .root true => ({ s with ckpt := { s.ckpt with rootB := none } }).ckComplete
  | .keys false => ({ s with fol := { s.fol with keyA := { s.fol.keyA with intact := false, seq := max s.fol.keyA.seq s.fol.keyB.seq + 1, keys := s.fol.keyTab } } }).folio
      { r with job := .keys true, erase := true }
  | .keys true => ((({ s with fol := { s.fol with keyB := { s.fol.keyB with intact := false } } }).folEnd r .success).cryptoStep).lcPair true
  | .identity false =>
    ({ s with fol := { s.fol with idA := { s.fol.ident with intact := false, seq := max s.fol.idA.seq s.fol.idB.seq + 1 } } }).folio
      { r with job := .identity true, erase := true }
  | .identity true => ((({ s with fol := { s.fol with idB := { s.fol.idB with intact := false } } }).folEnd r .success).cryptoStep).lcPair false
  | .scriptorium false =>
    ({ s with nib := { s.nib with setA := none } }).folio { job := .scriptorium true, erase := true }
  | .scriptorium true => ({ s with nib := { s.nib with setB := none } }).scrStored
  | .bootRecord => s
  | .remap false => s.folio { job := .remap true, erase := true }
  | .remap true => s
  | .slot => (match r.ref with | some x => s.unlockTemp x | none => s).folEnd r .internalError
  | .image | .loader _ | .fleet _ => match s.commitNow with | some c => s.dropCommit.commitEnd c false | none => s
  | .intent _ =>
    match s.fol.trans with
    | some t =>
      let s1 : State := { s with fol := { s.fol with trans := none } }
      (match t.ref with | some ref => (s1.unlockTemp ref).complete ref .internalError 0 | none => s1)
    | none => s
  | .sanitize =>
    (if r.ref.isSome then { s with map := { s.map with sanitize := { s.map.sanitize with active := 0 } } } else s).folEnd r .internalError
  | _ => s.folEnd r .internalError

/-- A failed erase or program of a job (R523, R536, R641): the sector is replaced and the job made again there; an event entry goes to
the next position; a settings copy sets SAVE_FAIL, is no longer intact, and is not written again. Log entry 55 (DEDUCED). -/
def State.folFailed (s : State) (r : FolReq) : State :=
  let sector := s.folSector r.job
  let (s1, ok) := match r.job with | .remap _ => (s, false) | _ => s.folReplace sector
  let again (s : State) : State := { s with fol := { s.fol with reqs := { r with erase := true } :: s.fol.reqs } }
  match r.job with
  | .event => again { s1 with fol := { s1.fol with evtPos := (s1.fol.evtPos + 1) % 1024 } }
  | .settings b =>
    let s2 : State := if b then { s1 with fol := { s1.fol with setB := { s1.fol.setB with intact := false } } }
      else { s1 with fol := { s1.fol with setA := { s1.fol.setA with intact := false } } }
    (s2.post F.DEV_EVT_STATUS_SAVE_FAIL noUnit).folEnd r .internalError
  | _ => if ok then again s1 else s1.folGivenUp r

/-- FOLIO_REQUEST_COMPLETE (R522, R523): the request at the head of the queue completes with a status. An erase that passes is followed by
its program; statuses 0x03 and 0x04 programmed nothing, so the sector is erased and programmed. In HOLD-UP only the current
request ends (R552). -/
def execFolioRequestComplete (status : Nat) (s : State) : Res :=
  match s.fol.reqs with
  | [] => .next s
  | r :: rest =>
    if s.mode = .off || 4 < status then .next s
    else
      let s0 : State := { s with fol := { s.fol with reqs := rest } }
      let s1 : State :=
        if status = 0 then
          if r.erase then
            let two : Bool := match r.job with | .event => s0.fol.entries.head?.any (fun e => decide (e.secs = 2)) | _ => false
            let s1 := s0.folErased (s0.folSector r.job)
            let s1 := if two then s1.folErased (13376 + (s0.fol.evtPos + 1) % 1024) else s1
            { s1 with fol := { s1.fol with reqs := { r with erase := false } :: s1.fol.reqs } }
          else s0.folPassed r
        else if status ≤ 2 then s0.folFailed r
        else { s0 with fol := { s0.fol with reqs := { r with erase := true } :: rest } }
      .next (if s.mode = .holdUp then { s1 with fol := { s1.fol with reqs := [] } } else s1)

/-! ## The scrub -/

/-- A copy is no longer intact (R520, R525). -/
def State.copyBad (s : State) : FolCopy → State
  | .settings b => if b then { s with fol := { s.fol with setB := { s.fol.setB with intact := false } } }
    else { s with fol := { s.fol with setA := { s.fol.setA with intact := false } } }
  | .keys b => if b then { s with fol := { s.fol with keyB := { s.fol.keyB with intact := false } } }
    else { s with fol := { s.fol with keyA := { s.fol.keyA with intact := false } } }
  | .identity b => if b then { s with fol := { s.fol with idB := { s.fol.idB with intact := false } } }
    else { s with fol := { s.fol with idA := { s.fol.idA with intact := false } } }
  | .scriptorium b => { s with nib := if b then { s.nib with setB := none } else { s.nib with setA := none } }
  | .root b => { s with ckpt := if b then { s.ckpt with rootB := none } else { s.ckpt with rootA := none } }
  | .shut => { s with fol := { s.fol with shut := s.fol.shutPrev } }
  | .remap _ | .tally _ => s

/-- A region is rewritten from its other copy (R525, R555). -/
def State.copyFromOther (s : State) : FolCopy → State
  | .settings b => { s with fol := if b then { s.fol with setB := s.fol.setA } else { s.fol with setA := s.fol.setB } }
  | .keys b => { s with fol := if b then { s.fol with keyB := s.fol.keyA } else { s.fol with keyA := s.fol.keyB } }
  | .identity b => { s with fol := if b then { s.fol with idB := s.fol.idA } else { s.fol with idA := s.fol.idB } }
  | .scriptorium b => { s with nib := if b then { s.nib with setB := s.nib.setA } else { s.nib with setA := s.nib.setB } }
  | .root b => { s with ckpt := if b then { s.ckpt with rootB := s.ckpt.rootA } else { s.ckpt with rootA := s.ckpt.rootB } }
  | .remap _ | .tally _ | .shut => s

/-- FOLIO_SCRUB (R520, R555): with SCRUB_EN every ECC word is read once in 24 h. `words` names the copies in which a word was corrected
(false) or could not be (true): a corrected word has its region rewritten from the other copy, an uncorrectable one leaves the
datum to its other copy. Log entry 55 (DEDUCED). -/
def execFolioScrub (words : List (FolCopy × Bool)) (s : State) : Res :=
  if !s.flag F.FOL_CTRL_SCRUB_EN || s.mode = .off || s.mode = .doze || s.mode = .holdUp || s.now < s.fol.scrubAt + dayT then .next s
  else
    .next (words.foldl (fun (s : State) e =>
      if e.2 then (s.copyBad e.1).post F.FOL_EVT_STATUS_WORD_UE noUnit
      else (s.copyFromOther e.1).post F.FOL_EVT_STATUS_WORD_CE noUnit) { s with fol := { s.fol with scrubAt := s.now } })

end Sys2Proof.Machine
end

