-- ==== Sys2Proof/Machine/Gce.lean ====
section
/-! DEFINITION. The General Cipher Engine: its lock, its DRBG, its second computation and its entropy source (R548 to R551). -/

namespace Sys2Proof.Machine

/-- Puts an owner among those that wait: in arrival order, the lower number first among those that arrive together (R548). -/
def gceWait (o at_ : Nat) : List (Nat × Nat) → List (Nat × Nat)
  | [] => [(o, at_)]
  | e :: l => if at_ < e.2 || (at_ = e.2 && o < e.1) then (o, at_) :: e :: l else e :: gceWait o at_ l

/-- The lock goes to the owner that waits longest, or becomes free (R548). Log entry 56 (DEDUCED). -/
def State.gceNext (s : State) : State :=
  match s.gce.waiting with
  | [] => { s with gce := { s.gce with owner := 0 } }
  | (o, _) :: rest => { s with gce := { s.gce with owner := o, waiting := rest, lastReq := s.now } }

/-- A DRBG request (R549): the 65,536th since the last reseed reseeds it. -/
def State.drbg (s : State) : State :=
  if s.gce.reqs + 1 < 65536 then { s with gce := { s.gce with reqs := s.gce.reqs + 1 } }
  else { s with gce := { s.gce with reqs := 0, reseeds := satAdd (2 ^ 32 - 1) s.gce.reseeds 1 } }

/-- Whether an operation draws from the DRBG (R549, R551): IVs, keys, and the randomness of signatures unless they are
deterministic. -/
def gceRandom (op : GceOp) (entropyOk : Bool) : Bool :=
  match op with
  | .gcmEncrypt | .random => true
  | .sign => entropyOk
  | _ => false

/-- GCM encryptions made under a key handle (R549). -/
def Gce.gcmOf (g : Gce) (h : Nat) : Nat := (g.gcm.lookup h).getD 0

/-- An operation of the holder (R549 to R551): a GCM encryption is refused at the invocation limit or while the entropy source fails. The output is
released once a second computation matches; a first mismatch withholds it and computes again, a second one enters SAFE under cause 0x0F. -/
def State.gceRun (s : State) (op : GceOp) (h : Nat) (match1 match2 : Bool) : State :=
  if op = .gcmEncrypt && !s.gce.entropyOk then s
  else if op = .gcmEncrypt && 2 ^ 32 - 1 ≤ s.gce.gcmOf h then s.post F.GCE_EVT_STATUS_IV_LIMIT noUnit
  else
    let iv := if op = .gcmEncrypt then some (Config.gcmIv (65536 * s.gce.reseeds + s.gce.reqs)).toNat else none
    let s1 := if gceRandom op s.gce.entropyOk then s.drbg else s
    let s2 : State := if op = .gcmEncrypt then
        { s1 with gce := { s1.gce with gcm := (h, s1.gce.gcmOf h + 1) :: s1.gce.gcm.filter (fun e => e.1 != h) } }
      else s1
    let out (s : State) : State := s.emit (.gce s.gce.owner op iv)
    if match1 then out s2
    else
      let s3 := s2.post F.GCE_EVT_STATUS_MISMATCH noUnit
      if match2 then out s3 else (s3.post F.GCE_EVT_STATUS_RECOMPUTE_FAIL noUnit).enterSafe 0x0F false

/-- GCE_REQUEST (R548 to R550): a request of an owner, 1 to 4. At a lock that another holds it waits, and is presented again
once the lock is granted; otherwise it takes the lock and runs. `match1` and `match2` are the outcomes of the two
second computations, `last` says that the owner releases the lock after it. Log entry 56 (DEDUCED). -/
def execGceRequest (owner : Nat) (op : GceOp) (handle : Nat) (match1 match2 last : Bool) (s : State) : Res :=
  if owner = 0 || 4 < owner || s.mode = .off || s.mode = .doze then .next s
  else if s.gce.owner != 0 && s.gce.owner != owner then
    if s.gce.waiting.any (fun e => e.1 == owner) then .next s
    else .next { s with gce := { s.gce with waiting := gceWait owner s.now s.gce.waiting } }
  else
    let s1 : State := { s with gce := { s.gce with owner, lastReq := s.now } }
    let s2 := s1.gceRun op handle match1 match2
    .next (if last then s2.gceNext else s2)

/-- GCE_LOCK_TIMEOUT (R548): 100 ms without a request of the holder free the lock. -/
def execGceLockTimeout (s : State) : Res :=
  if s.gce.owner = 0 || s.now < s.gce.lastReq + 100 * msT then .next s
  else .next (s.gceNext.post F.GCE_EVT_STATUS_LOCK_TMO noUnit)

/-- ENTROPY_HEALTH_FAIL (R551). -/
def execEntropyHealthFail (s : State) : Res :=
  if s.mode = .off || s.mode = .doze then .next s
  else .next (({ s with gce := { s.gce with entropyOk := false } }).post F.GCE_EVT_STATUS_ENTROPY_FAIL noUnit)

/-- ENTROPY_HEALTH_PASS (R551): 1,024 consecutive samples have passed. -/
def execEntropyHealthPass (s : State) : Res :=
  if s.mode = .off || s.mode = .doze then .next s else .next { s with gce := { s.gce with entropyOk := true } }

end Sys2Proof.Machine
end

