-- ==== Sys2Proof/Machine/IoCmds.lean ====
section
/-! DEFINITION. The I/O commands (R31, R164 to R174, R175 to R177, R252, R274, R275): Flush, Write, Read, Compare, and the
map changes. -/

namespace Sys2Proof.Machine

/-- Ends a latched command with a status. -/
def State.refuse (s : State) (ref : Ref) (st : Status) : Res := .next ((s.latch ref).complete ref st 0)

/-- Adds a command in execution and starts what it may. -/
def State.enter (s : State) (c : Cmd) : State := ({ s with qe := { s.qe with cmds := s.qe.cmds ++ [c] } }).kick

/-- FLUSH (R174): it completes once every earlier write of the namespace is dry or has ended. Broadcast it is checked against every
namespace attached to its controller (R197). -/
def execFlush (ref : Ref) (nsid : Nat) (s : State) : Res :=
  if !s.accepts ref then .next s
  else
    let mine := if nsid = 0xFFFFFFFF then (s.qe.nss.filter (fun n => n.attached.any (fun c => some c == ctrlOf ref))).map (fun n => n.nsid) else [nsid]
    let fails := mine.filterMap (fun n => match s.ioCheck ref n 0 0 .settles with | .error e => some e | .ok _ => none)
    let halted : List Status := if s.mode = .safe && s.fld F.EVU_SAFE_MEDIA = 2 then [.namespaceNotReady] else []
    match halted ++ fails with
    | e :: _ => s.refuse ref e
    | [] => .next ((s.latch ref).enter { ref, kind := .flush, nsid, latch := s.nowAt islQueue })

/-- WRITE (R164, R165, R168 to R171, R219, R264): the checks, the placement, the stamp at the Ordering Point when its records are free, and its segments' cells. A fused write waits for the compare that `gate` names; where that compare has ended, or the write is refused, both end (R166). Log entry 86 (PRESUMED). -/
def execWrite (ref : Ref) (nsid slba nlb : Nat) (fua : Bool) (dtype dspec : Nat) (gate : Option Ref) (s : State) : Res :=
  let turnedAway (e : Status) : Res := (s.endCompare gate).refuse ref e
  if !s.accepts ref then .next s
  else
    match s.ioCheck ref nsid slba nlb .changes with
    | .error e => turnedAway e
    | .ok n =>
      if n.mdtsBlocks < nlb then turnedAway .invalidField
      else if gate.any (fun r => !s.qe.cmds.any (fun c => c.ref == r && c.parked)) then turnedAway .failedFused
      else
        let (s1, wp) := (s.latch ref).placement n dtype dspec
        .next (s1.enter { ref, kind := .write, nsid, slba, n := nlb, latch := s.nowAt islQueue, fua, wp, gate })

/-- READ (R31, R98, R175 to R177, R204): a deadline is admitted or refused with 0x80; an admitted read and one without a
deadline ask for their cells. -/
def execRead (ref : Ref) (nsid slba nlb : Nat) (deadline : ReadDue) (s : State) : Res :=
  if !s.accepts ref then .next s
  else
    match s.ioCheck ref nsid slba nlb .reads with
    | .error e => s.refuse ref e
    | .ok n =>
      let f := s.feat 0xC1 ((ctrlOf ref).getD 0) 0x200
      let refuse80 (dw0 : Nat) : Res :=
        .next (({ (s.latch ref) with stk := { s.stk with nRefused := s.stk.nRefused + 1 } }).complete ref .deadlineNotAdmissible dw0)
      if n.mdtsBlocks < nlb then s.refuse ref .invalidField
      else if deadline.us != 0 && s.mode = .safe then refuse80 0
      else if deadline.us != 0 && f % 2 = 0 then s.refuse ref .invalidField
      else if deadline.us != 0 && 8 * bitsOf f 4 8 < nlb * n.blkSectors then refuse80 0
      else
        let (s1, c) := (s.latch ref).readCmd n { ref, kind := .read, nsid, slba, n := nlb, latch := s.nowAt islQueue }
        let go (s : State) (c : Cmd) : Res :=
          let s2 : State := { s with qe := { s.qe with cmds := s.qe.cmds ++ [c] } }
          .next (s2.askReads (c.segs.length + 1) ref).settleCmds
        if deadline.us = 0 then go s1 c
        else
          match s.admitRead c deadline.us deadline.lag with
          | .error dw0 => refuse80 dw0
          | .ok s2 => go { s1 with stk := s2.stk } { c with deadline := some (c.latch / 256 + deadline.us * 1000) }

/-- COMPARE (R166): it reads as a Read does, a fused one when its write is stamped; `same` says whether the host's data equals what it reads. -/
def execCompare (ref : Ref) (nsid slba nlb : Nat) (same : Comparison) (s : State) : Res :=
  if !s.accepts ref then .next s
  else
    match s.ioCheck ref nsid slba nlb .reads with
    | .error e => s.refuse ref e
    | .ok n =>
      if n.mdtsBlocks < nlb then s.refuse ref .invalidField
      else
        let c0 : Cmd := { ref, kind := .compare, nsid, slba, n := nlb, latch := s.nowAt islQueue, same := same.same, parked := same.fused }
        let (s1, c) := if same.fused then (s.latch ref, c0) else (s.latch ref).readCmd n c0
        let s2 : State := { s1 with qe := { s1.qe with cmds := s1.qe.cmds ++ [c] } }
        .next (s2.askReads (c.segs.length + 1) ref).settleCmds

/-- WRITE_UNCORRECTABLE (R164, R173, R252). -/
def execWriteUncorrectable (ref : Ref) (nsid slba nlb : Nat) (s : State) : Res :=
  if !s.accepts ref then .next s
  else
    match s.ioCheck ref nsid slba nlb .changes with
    | .error e => s.refuse ref e
    | .ok n =>
      .next ((s.latch ref).enter { ref, kind := .writeUncorr, nsid, slba, n := nlb, latch := s.nowAt islQueue, wunc := true, wp := 8 + n.handles.headD 0 })

/-- WRITE_ZEROES (R164, R173, R252, R274). -/
def execWriteZeroes (ref : Ref) (nsid slba nlb : Nat) (s : State) : Res :=
  if !s.accepts ref then .next s
  else
    match s.ioCheck ref nsid slba nlb .changes with
    | .error e => s.refuse ref e
    | .ok n =>
      .next ((s.latch ref).enter { ref, kind := .writeZeroes, nsid, slba, n := nlb, latch := s.nowAt islQueue, zero := true, wp := 8 + n.handles.headD 0 })

/-- The shared checks of a Dataset Management: SD without Deallocate, and every range (R165, R275). -/
def State.dsmCheck (s : State) (ref : Ref) (nsid cdw11 : Nat) (ranges : List (Nat × Nat)) : Except Status Ns :=
  match s.ioCheck ref nsid 0 0 (if cdw11.testBit 2 then .changes else .settles) with
  | .error e => .error e
  | .ok n =>
    if cdw11.testBit 8 && (!cdw11.testBit 2 || !s.flag F.MAP_CTRL_SDISC_EN) then .error .invalidField
    else if ranges.any (fun r => n.blocks < r.1 + r.2) then .error .lbaRange else .ok n

/-- DATASET_MANAGEMENT (R164, R173, R274, R275): Deallocate unmaps its ranges; without it nothing changes. DW0 is 0. -/
def execDatasetManagement (ref : Ref) (nsid cdw11 : Nat) (ranges : List (Nat × Nat)) (s : State) : Res :=
  if !s.accepts ref then .next s
  else
    match s.dsmCheck ref nsid (if cdw11.testBit 8 && cdw11.testBit 2 then cdw11 - 256 else cdw11) ranges with
    | .error e => s.refuse ref e
    | .ok n =>
      if !cdw11.testBit 2 then s.refuse ref .success
      else .next ((s.latch ref).enter { ref, kind := .deallocate, nsid, ranges, latch := s.nowAt islQueue, zero := true, wp := 8 + n.handles.headD 0 })

/-- The IUs that a range of logical blocks covers whole or in part (R275), as the first and their number: `us` sectors in an
IU, `bs` in a block. -/
def discardRange (us bs : Nat) (r : Nat × Nat) : Option (Nat × Nat) :=
  let cov := iuCover us (r.1 * bs) (r.2 * bs)
  cov.head?.map (fun e => (e.1, cov.length))

/-- SECURE_DISCARD (R275 to R277): a Deallocate with CDW11 bit 8 deallocates its ranges and opens a ticket for every older
copy of their IUs; with no record free it deallocates nothing. -/
def execSecureDiscard (ref : Ref) (nsid cdw11 : Nat) (ranges : List (Nat × Nat)) (s : State) : Res :=
  if !s.accepts ref then .next s
  else
    match s.dsmCheck ref nsid (cdw11 ||| 256) ranges with
    | .error e => s.refuse ref e
    | .ok n =>
      match s.ticketRoom with
      | none => s.refuse ref .commandInterrupted
      | some rest =>
        let bs := n.blkSectors
        let k := s.map.nextTicket
        let t : Ticket := { ticket := k, nsid, ranges := ranges.filterMap (discardRange s.iuSectors bs), seq := k }
        let s1 := s.latch ref
        let s2 : State := { s1 with map := { s1.map with tickets := rest ++ [t], nextTicket := max 1 ((k + 1) % 2 ^ 32) } }
        .next ((s2.enter { ref, kind := .deallocate, nsid, ranges, latch := s.nowAt islQueue, zero := true, ticket := some k, wp := 8 + n.handles.headD 0 }).ticketPump)

/-- ORDERING_POINT_STAMP (R164, R254): commands whose records are free get their ink times in latch order. -/
def execOrderingPointStamp (s : State) : Res := .next s.kick

end Sys2Proof.Machine
end

