-- ==== Sys2Proof/Machine/HostOps.lean ====
section
/-! DEFINITION. What the host port's resets end (R108, R120 to R122, R146, R147, R153, R201, R239, R284, R358, R632): the
functions of a port, their commands, their queues and their configuration. -/

namespace Sys2Proof.Machine

/-! ## Functions and ports -/

/-- The controllers of a PF and its VFs that are present. -/
def State.ofPf (s : State) (pf : Nat) : List Nat := (s.qe.ctrls.filter (fun c => s.pfOf c.id == pf)).map (fun c => c.id)

/-- The controllers of a port that are present. -/
def State.ofPort (s : State) (p : Nat) : List Nat := (s.qe.ctrls.filter (fun c => s.portOf c.id == p)).map (fun c => c.id)

/-- Whether a reference is one of these controllers' commands. -/
def refIn (cs : List Nat) (r : Ref) : Bool := match r with | .host c _ _ => cs.contains c | .side => false

/-! ## BAR0 and BAR4 -/

/-- The doorbells that a function's BAR0 holds (R123): 7,680 queue identifiers of a PF, 1,536 of a VF. -/
def doorbells (fn : Nat) : Nat := (barSize (fn < 2) 0 - 0x1000) / 8

/-- The doorbell at an offset of BAR0 (R123, CAP.DSTRD = 0): its queue identifier, and whether it is a completion queue's head. -/
def doorbellAt (fn off : Nat) : Option (Nat × Bool) :=
  if off < 0x1000 || off % 4 != 0 || doorbells fn ≤ (off - 0x1000) / 8 then none
  else some ((off - 0x1000) / 8, (off - 0x1000) / 4 % 2 == 1)

/-- Where BAR4 holds the MSI-X table entry of a vector, and the PBA (R123). -/
def msixEntryAt (vec : Nat) : Nat := 16 * vec
def pbaAt (fn : Nat) : Nat := barSize (fn < 2) 4 / 2

/-- CAP (R154): MQES, CQR, AMS, TO, DSTRD 0, NSSRS, CSS, MPSMIN 0, MPSMAX; CMBS and PMRS 0. -/
def capValue : Nat := 0xFFFF + 2 ^ 16 + 2 ^ 17 + 0x28 * 2 ^ 24 + 2 ^ 36 + 2 ^ 37 + 4 * 2 ^ 52

/-- The dword of a function's NVMe registers at an offset of BAR0 (R123, R133, R154): CAP, VS, INTMS and INTMC, CC, CSTS, AQA, ASQ and ACQ;
CMBLOC, CMBSZ, PMRCAP and every other offset read 0. Log entry 85 (PRESUMED). -/
def State.bar0Read (s : State) (fn off : Nat) : Nat :=
  match s.qe.ctrls.find? (fun c => c.id == fn) with
  | none => 0
  | some k =>
    match off with
    | 0x00 => capValue % 2 ^ 32
    | 0x04 => capValue / 2 ^ 32
    | 0x08 => 0x00020100
    | 0x0C | 0x10 => ((List.range 32).map (fun v => 2 ^ v * bit (s.hp.intMask.contains (fn, v)))).sum
    | 0x14 => bit k.en + 2 ^ 11 * k.ams + 2 ^ 14 * k.shn + 2 ^ 16 * k.iosqes + 2 ^ 20 * k.iocqes
    | 0x1C => bit k.rdy + 2 * bit k.cfs + 4 * k.shst
    | 0x24 => k.asqs + 2 ^ 16 * k.acqs
    | 0x28 => k.asq % 2 ^ 32
    | 0x2C => k.asq / 2 ^ 32
    | 0x30 => k.acq % 2 ^ 32
    | 0x34 => k.acq / 2 ^ 32
    | _ => 0

/-! ## Power states -/

/-! ## Ending commands -/

/-- Whether a write's data has been fetched whole, so that it proceeds after a reset (R147). Log entry 82 (DESIGN CHOICE). -/
def Cmd.proceeds (c : Cmd) : Bool :=
  c.kind.stamps && c.ink.isSome && c.gate.isNone && c.segs.all (fun g => g.fetched)

/-- A write goes on without a sender, whose completion is discarded (R147). Log entry 57 (DEDUCED). -/
def State.orphan (s : State) (ref : Ref) : State :=
  let used := s.qe.cmds.filterMap (fun c => match c.ref with | .host 65535 _ n => some n | _ => none)
  let r : Ref := .host 65535 0 (used.foldl max 0 + 1)
  { s with
    qe := { s.qe with cmds := updWhere (fun c => c.ref == ref) (fun c => { c with ref := r }) s.qe.cmds }
    ink := { s.ink with waiting := s.ink.waiting.map (fun w => match w.what with
      | .hostWrite x lo => if x = ref then { w with what := .hostWrite r lo } else w
      | .twin x lo => if x = ref then { w with what := .twin r lo } else w
      | _ => w) }
    map := { s.map with inflight := updWhere (fun x => x.ref == ref) (fun x => { x with ref := r }) s.map.inflight } }

/-- A unit's read that nobody waits for any more is abandoned, unless its rebuild writes (R342, R358). -/
def State.dropUnused (s : State) : State :=
  let keep (f : Fetch) : Bool := !f.users.isEmpty || (f.rebuild && !f.around && f.kind == 0)
  let kept := s.map.fetches.filter keep
  let ids := kept.map (fun f => f.id)
  let peer (f : Fetch) : Bool := f.users.all (fun u => match u with | .peer id => ids.contains id | _ => true)
  { s with map := { s.map with fetches := kept.filter peer } }

/-- A reference that no completion answers. Log entry 57 (DEDUCED). -/
def deadRef : Ref := .host 65535 0 0

/-- The shallowest power state requested by any enabled controller (R178). -/
def State.psWanted (s : State) : Nat := ((s.qe.ctrls.filter (fun c => c.en)).map (fun c => c.ps)).foldl min 4

/-- Whether an island refuses leave (R597). -/
def State.dozeRefused (s : State) : Bool :=
  !s.flag F.PWR_CTRL_DOZE_EN || !s.tine.paired || !s.bxl.commits.isEmpty || s.bxl.rcd.rotStep != 0 ||
    s.fol.trans.isSome || s.nib.load.isSome || s.rul.step.isSome || s.blt.test != .idle || s.sweeping || s.bxl.relay.isSome ||
    s.bxl.recv.isSome || s.map.tickets.any (fun t => t.state == 1) || s.map.sanitize.active != 0 || s.rankNow ≤ 7

/-- Whether an island asks for a delay (R597): a checkpoint runs, or a Nib restarts. -/
def State.dozeDelayed (s : State) : Bool :=
  s.ckpt.running.isSome || (List.range 48).any (fun n => s.fld (F.NIB_STATUS_STATE n) == 5)

/-- DOZE_REFUSE (R597, R600). -/
def State.dozeRefuse (s : State) : State := (s.post F.PWR_EVT_STATUS_DOZE_REFUSED noUnit).dozeEnd

/-- The Power Controller asks every island (R597): a refusal ends the entry; a delay is waited for. -/
def State.dozeAsk (s : State) : State :=
  match s.pwr.entry with
  | none => s
  | some e => if s.dozeRefused then s.dozeRefuse else { s with pwr := { s.pwr with entry := some { e with delay := s.dozeDelayed } } }

/-- Whether entry may begin (R7, R178, R597): the shallowest requested state is PS3 or PS4 and the mode enters DOZE. -/
def State.dozeWanted (s : State) : Bool :=
  (s.mode == .run || s.mode == .degraded || s.mode == .trial) && s.pwr.entry.isNone && s.fetches && s.qe.ctrls.any (fun c => c.en) && 3 ≤ s.psWanted

/-- Entry begins (R597). -/
def State.dozeStart (s : State) : State :=
  let s1 : State := { s with pwr := { s.pwr with
    entry := some { level := s.psWanted }, retry := false, wake := none, from_ := s.mode } }
  (s1.setFld F.PWR_STATUS_AP 0).dozeAsk

/-- The power state in force follows the requests (R178, R179, R597): PS0 to PS2 apply at once; PS3 and PS4 are reached only through
DOZE, whose entry begins when they become the shallowest request. A refused or abandoned request stands for its retry. With no
controller enabled nothing is requested and PS0 is in force. Log entry 34 (DEDUCED). -/
def State.psEval (s : State) : State :=
  let w := if s.qe.ctrls.any (fun c => c.en) then s.psWanted else 0
  if w ≤ 2 then ({ s with pwr := { s.pwr with retry := false } }.setFld F.PWR_STATUS_PS w).refreshCap
  else if s.dozeWanted && !s.pwr.retry then s.dozeStart
  else s

/-- The controllers of the vendor commands that have begun to change state and are ended by a reset (R201): those that wait for the Folio, a
lifecycle transition, a Scriptorium Load, a commit, a relay, a sweep, a decided Ruling step and a running drill. -/
def State.begunRefs (s : State) (cs : List Nat) : List Nat :=
  let refs : List (Option Ref) := s.fol.reqs.map (fun q => q.ref) ++ [s.fol.trans.bind (fun t => t.ref), s.nib.load.map (fun l => l.1)]
    ++ s.bxl.commits.map (fun c => c.ref) ++ [s.bxl.relay.bind (fun r => r.ref), s.bxl.report.bind (fun r => r.ref), s.rul.step.bind (fun p => p.ref)]
    ++ ((s.tine.drill.map (fun d => d.refs)).getD []).map some
  refs.filterMap (fun r => r.bind (fun r => if refIn cs r then ctrlOf r else none))

/-- What goes on for commands of these controllers goes on, and completes to nobody (R201); a drill that has not begun is dropped. -/
def State.forgetRefs (s : State) (cs : List Nat) : State :=
  let gone (r : Option Ref) : Option Ref := r.map (fun x => if refIn cs x then deadRef else x)
  { s with
    fol := { s.fol with reqs := s.fol.reqs.map (fun q => { q with ref := gone q.ref })
                        trans := s.fol.trans.map (fun t => { t with ref := gone t.ref }) }
    rul := { s.rul with step := s.rul.step.map (fun p => { p with ref := gone p.ref }) }
    bxl := { s.bxl with commits := s.bxl.commits.map (fun c => { c with ref := gone c.ref })
                        relay := s.bxl.relay.map (fun r => { r with ref := gone r.ref })
                        report := s.bxl.report.map (fun r => { r with ref := gone r.ref }) }
    tine := { s.tine with drill := s.tine.drill.map (fun d => { d with refs := d.refs.filter (fun r => !refIn cs r) })
                          waiting := s.tine.waiting.filter (fun w => !refIn cs w.ref) }
    nib := { s.nib with load := s.nib.load.map (fun l => if refIn cs l.1 then (deadRef, l.2) else l) } }

/-- Ends every command of these controllers without a completion (R146, R147, R201, R239): fetched writes proceed, others
commit nothing, reads are abandoned; a command that has begun to change state completes its change, which is recorded in
log page 0xC2. The controllers are disabled by then. -/
def State.endCmds (s : State) (cs : List Nat) : State :=
  let mine := s.qe.cmds.filter (fun c => refIn cs c.ref)
  let s1 := mine.foldl (fun (s : State) c =>
    if c.proceeds then s.orphan c.ref
    else if c.kind.stamps then s.failWrite c.ref .success
    else if c.kind = .flush then s.dropCmd c.ref
    else s.failRead c.ref .success) s
  let s2 := (s1.forgetRefs cs)
  ((s1.begunRefs cs).foldl (fun (s : State) c => (s.logEntry 0xFFFF 0 c 0).sendOwn s) s2).dropUnused

/-- Whether a feature is controller-scoped (R191 and the base specification): 0x1E, 0x82 and 0xC0 belong to a namespace, 0xC2 to 0xC6 to
the device. -/
def ctrlScoped (fid : Nat) : Bool := fid != 0x1E && fid != 0x82 && fid != 0xC0 && !(0xC2 ≤ fid && fid ≤ 0xC6)

/-- The queues and the rest of what a disabled controller held (R153, R183, R184, R191, R514): queues return to the pool,
tags are freed, features go back to their saved values, waiting completions and requests are dropped; an event whose
request had not been answered is posted on the next request. A reset of a controller leaves everything else as it is (R73, R319, R395,
R430, R463, R553, R585); a withheld completion makes a DOZE entry in progress end at its next abort point (R616). Log entry 58 (DEDUCED). -/
def State.clearCtrl (s : State) (c : Nat) : State :=
  let one (r : Ref) : Bool := refIn [c] r
  let dozing := s.qe.withheld.any (fun h => one h.ref)
  let s1 := if dozing then s.wakeEvent 6 else s
  let saved := s1.qe.savedFeats.filter (fun f => f.scope == c && ctrlScoped f.fid)
  let global (f : Feat) : Bool := f.scope != c || !ctrlScoped f.fid
  let lost := (s1.qe.full.filter (fun h => one h.ref && h.dw0 % 8 == 7 && h.dw0 / 2 ^ 16 == 0xC2)).map (fun h => bitsOf h.dw0 8 8)
  { s1 with
    qe := { s1.qe with
      sqs := s1.qe.sqs.filter (fun q => q.ctrl != c)
      cqs := s1.qe.cqs.filter (fun q => q.ctrl != c)
      fetched := s1.qe.fetched.filter (fun e => e.ctrl != c)
      tags := s1.qe.tags.filter (fun r => !one r)
      full := s1.qe.full.filter (fun h => !one h.ref)
      withheld := s1.qe.withheld.filter (fun h => !one h.ref)
      aborts := s1.qe.aborts.filter (fun r => !one r)
      aers := s1.qe.aers.filter (fun a => a.1 != c)
      keepAlive := s1.qe.keepAlive.filter (fun k => k.1 != c)
      feats := s1.qe.feats.filter global ++ saved }
    evu := { s1.evu with
      aenOut := s1.evu.aenOut.filter (fun a => !(a.1 == c && lost.contains a.2))
      aenWait := s1.evu.aenWait ++ (lost.filter (fun g => !s1.evu.aenWait.any (fun w => w.1 == c && w.2.1 == g))).map (fun g => (c, g, s.now)) }
    hp := { (s1.stopReads (fun w => match w with | .sqe x _ _ _ => x == c | .head x _ _ => x == c | .list r | .data r _ => one r)).hp with
      ptrs := s1.hp.ptrs.filter (fun e => !one e.1) }
    mgmt := if s1.mgmt.lock = holderOf (.host c 0 0) && s1.mgmt.lock.isSome then s1.freeLock.mgmt else s1.mgmt }

/-- Ends controllers (R146, R147, R201): they are disabled first, so that nothing of theirs completes. Log entry 80 (DEDUCED). -/
def State.endCtrls (s : State) (cs : List Nat) : State :=
  let s1 : State := { s with qe := { s.qe with ctrls := updWhere (fun c => cs.contains c.id) (fun c => { c with en := false, rdy := false }) s.qe.ctrls } }
  let s2 := cs.foldl State.clearCtrl (s1.endCmds cs)
  { s2 with qe := { s2.qe with ctrls := updWhere (fun c => cs.contains c.id) (fun c => ({ id := c.id } : Ctrl)) s2.qe.ctrls } }.psEval

/-- The accesses of these functions go (R146); no completion of theirs is awaited. -/
def State.dropReads (s : State) (cs : List Nat) : State :=
  let nos := (s.hp.reads.filter (fun a => cs.contains a.fn)).flatMap (fun a => a.out.map (fun r => r.no))
  ({ s with hp := { s.hp with reads := s.hp.reads.filter (fun a => !cs.contains a.fn) } }).retire nos

/-- What a reset leaves of a function's settings (R146): AER's masks and severities where sticky bits are kept. -/
def keptCfg (sticky : Bool) (c : FnCfg) : FnCfg := if sticky then { fn := c.fn, aerMask := c.aerMask, aerSev := c.aerSev } else { fn := c.fn }

/-- Configuration space of these functions is reset (R122, R137 to R139, R143, R146): BARs, ATS, PTM, interrupts, D3hot and what the cache
holds for them; VFs go with their PF's. AER's status, header log, masks and severities are the sticky bits. Log entry 100 (PRESUMED). -/
def State.resetCfg (s0 : State) (cs : List Nat) (sticky : Bool) : State :=
  let s := s0.dropReads cs
  let out (c : Nat) : Bool := !cs.contains c
  let ptmOut (p : Nat) : Bool := !(cs.contains p && (p = 0 || s.flag F.HP_CFG_DUAL))
  { s with
    qe := { s.qe with ctrls := s.qe.ctrls.filter (fun c => c.id < 2 || !(cs.contains c.id && cs.contains (s.pfOf c.id))) }
    hp := { s.hp with
      vfs := (List.range 2).map (fun p => if cs.contains p then 0 else s.hp.vfs.getD p 0)
      ats := s.hp.ats.filter out
      atc := s.hp.atc.filter (fun x => out x.fn)
      d3hot := s.hp.d3hot.filter out
      msix := s.hp.msix.filter out
      msi := s.hp.msi.filter out
      fns := s.hp.fns.filter (fun c => out c.fn) ++ (s.hp.fns.filter (fun c => !out c.fn)).map (keptCfg sticky)
      aer := if sticky then s.hp.aer else s.hp.aer.filter (fun a => out a.fn)
      ptm := s.hp.ptm.filter ptmOut
      vecOpen := s.hp.vecOpen.filter (fun v => out v.1)
      msiMask := s.hp.msiMask.filter (fun v => out v.1)
      intMask := s.hp.intMask.filter (fun v => out v.1)
      vecPend := s.hp.vecPend.filter (fun v => out v.1)
      doe := (List.range 2).map (fun p => if cs.contains p then 0 else s.hp.doe.getD p 0) } }

/-- Changes one port. -/
def State.updPort (s : State) (p : Nat) (f : Port → Port) : State :=
  { s with hp := { s.hp with ports := s.hp.ports.modify p f } }

/-- A port's link and configuration space go (R73, R146): its functions' commands end, LINK_STATUS is cleared and PTM is not
enabled; the discipline is as it was, and an open dialog fails when its time is up. -/
def State.portGone (s : State) (p : Nat) (sticky : Bool) : State :=
  let cs := s.ofPort p
  let s1 := ((s.endCtrls cs).resetCfg cs sticky).updPort p (fun x => { x with training := false, cfg := false, settled := (0, 0) })
  let s2 := s1.setReg (F.HP_LINK_STATUS_UP p).key 0
  ({ s2 with
    hp := { s2.hp with ptm := s2.hp.ptm.filter (· != p), flr := s2.hp.flr.filter (fun f => !cs.contains f) }
    qe := { s2.qe with ctrls := s2.qe.ctrls.filter (fun c => !cs.contains c.id) } }).settle

/-- A port begins link training (R148). -/
def State.train (s : State) (p : Nat) : State := s.updPort p (fun x => { x with training := !x.perst })

/-- Whether a command of a port's functions is outstanding. -/
def State.portBusy (s : State) (p : Nat) : Bool :=
  s.qe.tags.any (fun r => match r with | .host c _ _ => s.portOf c == p | .side => false)

end Sys2Proof.Machine
end

