-- ==== Sys2Proof/Machine/HostPort.lean ====
section
/-! DEFINITION. The rows of the host port (chapter 4): links, resets of ports and functions, memory reads, ATS, interrupts
and DOE. -/

namespace Sys2Proof.Machine

/-! ## Links -/

/-- The widths that a port may settle at (R112). -/
def widthOf (dual : Bool) (w : Nat) : Nat :=
  let top := if dual then 4 else 8
  if 8 ≤ w && 8 ≤ top then 8 else if 4 ≤ w then 4 else if 2 ≤ w then 2 else 1

/-- LINK_TRAINING_COMPLETE (R112 to R115, R151): the port settles at a rate up to TGT_SPEED, in FLIT mode at 64 and
128 GT/s. Below target it is a masked unit; at target it is restored. Log entry 84 (DESIGN CHOICE). -/
def execLinkTrainingComplete (port rate width faulty : Nat) (flit : Bool) (s : State) : Res :=
  if !s.hasPort port || !((s.hp.ports[port]?).map (fun p => p.training)).getD false || s.mode = .off || s.mode = .holdUp then .next s
  else
    let r := max 1 (min rate (s.fld (F.HP_LINK_CFG_TGT_SPEED port)))
    let w := widthOf (s.flag F.HP_CFG_DUAL) width
    let s1 := s.updPort port (fun p => { p with training := false, settled := (r, w) })
    let s2 := ((s1.setReg (F.HP_LINK_STATUS_UP port).key 0).setFld (F.HP_LINK_STATUS_UP port) 1).setFld (F.HP_LINK_STATUS_SPEED port) r
    let s3 := ((s2.setFld (F.HP_LINK_STATUS_WIDTH port) w).setFld (F.HP_LINK_STATUS_FLIT port) (bit (flit || 6 ≤ r))).setFld (F.HP_LINK_STATUS_LANE_FAULT port) faulty
    let s4 := if r < s.fld (F.HP_LINK_CFG_TGT_SPEED port) then s3.post F.HP_EVT_STATUS_SPEED_DEGR port else s3
    let s5 := if w < s.fld (F.HP_LINK_CFG_TGT_WIDTH port) then s4.post F.HP_EVT_STATUS_WIDTH_DEGR port else s4
    .next s5.settle

/-- LINK_RETRAIN_TIMER (R115): with RETRY_MIN not 0, a degraded port with no command outstanding retrains each RETRY_MIN
minutes. -/
def execLinkRetrainTimer (port : Nat) (s : State) : Res :=
  let m := s.fld (F.HP_LINK_CFG_RETRY_MIN port)
  match s.hp.ports[port]? with
  | none => .next s
  | some p =>
    if s.hasPort port && m != 0 && s.portBelow port && !s.portBusy port && p.tried + m * 60 * secT ≤ s.now then
      .next ((s.updPort port (fun p => { p with tried := s.now })).train port)
    else .next s

/-- RETRAIN_LINK (R115): always honoured. -/
def execRetrainLink (port : Nat) (s : State) : Res :=
  if s.hasPort port && s.flag (F.HP_LINK_STATUS_UP port) then .next ((s.wakeEvent 6).train port) else .next s

/-- L0P_REQUEST (R118, R119): the partner's width change is honoured in FLIT mode. -/
def execL0pRequest (port width : Nat) (s : State) : Res :=
  match s.hp.ports[port]? with
  | none => .next s
  | some p =>
    if s.hasPort port && s.flag (F.HP_LINK_STATUS_FLIT port) && s.flag (F.HP_LINK_STATUS_UP port) then
      let w := min p.settled.2 (widthOf (s.flag F.HP_CFG_DUAL) width)
      .next ((s.setFld (F.HP_LINK_STATUS_WIDTH port) w).setFld (F.HP_LINK_STATUS_L0P port) (bit (w < p.settled.2)))
    else .next s

/-! ## Resets -/

/-- PERST_ASSERT (R146, R149): ignored in OFF and, for PERST1_N, in single-port mode; a wake event of DOZE. Log entry 84 (DESIGN CHOICE). -/
def execPerstAssert (port : Nat) (s : State) : Res :=
  match s.hp.ports[port]? with
  | none => .next s
  | some p =>
    if s.mode = .off || p.perst then .next (s.updPort port (fun x => { x with perst := true }))
    else if !s.hasPort port then .next (s.updPort port (fun x => { x with perst := true }))
    else
      let s1 := (s.wakeEvent 7).updPort port (fun x => { x with perst := true })
      let s2 := s1.portGone port false
      .next (s2.post (if port = 0 then F.HP_EVT_STATUS_PERST0 else F.HP_EVT_STATUS_PERST1) port)

/-- HP_DUAL_STRAP is sampled at the release of the first PERST0_N in BOOT (R111): the ports and their target widths
follow. -/
def State.sampleStrap (s : State) : State :=
  let d := bit s.hp.strap
  let w := if s.hp.strap then 4 else 8
  let fit (s : State) (p : Nat) : State :=
    if s.hp.strap && s.fld (F.HP_LINK_CFG_TGT_WIDTH p) = 8 then s.setFld (F.HP_LINK_CFG_TGT_WIDTH p) w else s
  fit (fit (({ s with hp := { s.hp with sampled := true } }).setFld F.HP_CFG_DUAL d) 0) 1

/-- Every port whose PERST_N is high begins to train (R148). -/
def State.trainPorts (s : State) : State :=
  (List.range 2).foldl (fun (s : State) p =>
    if s.hasPort p && !s.flag (F.HP_LINK_STATUS_UP p) then s.train p else s) s

/-- PERST_DEASSERT (R111, R148): `strap` is the level of HP_DUAL_STRAP then. Training begins in every mode except OFF and
HOLD-UP. -/
def execPerstDeassert (port : Nat) (strap : Bool) (s : State) : Res :=
  let s0 := (s.updPort port (fun x => { x with perst := false }))
  let s1 : State := if s.hp.sampled then s0 else { s0 with hp := { s0.hp with strap := strap } }
  if s.mode = .off || s.mode = .holdUp then .next s1
  else
    let s2 := if port = 0 && s.mode = .boot && !s.hp.sampled then s1.sampleStrap else s1
    .next ((if s2.hasPort port then s2.wakeEvent 7 else s2) |>.trainPorts)

/-- HOT_RESET (R146). -/
def execHotReset (port : Nat) (s : State) : Res :=
  if s.hasPort port && s.flag (F.HP_LINK_STATUS_UP port) then .next (((s.wakeEvent 6).portGone port true).train port) else .next s

/-- LINK_DOWN (R144, R146): the port trains again. -/
def execLinkDown (port : Nat) (s : State) : Res :=
  if s.hasPort port && s.flag (F.HP_LINK_STATUS_UP port) then .next ((s.portGone port true).train port) else .next s

/-- FUNCTION_LEVEL_RESET (R146, R147): of a PF with its VFs, or of one VF; the host configures them again. -/
def execFunctionLevelReset (fn : Nat) (s : State) : Res :=
  if !s.qe.ctrls.any (fun c => c.id == fn) || s.mode = .off then .next s
  else
    let cs := if fn < 2 then s.ofPf fn else [fn]
    let s1 := ((s.wakeEvent 6).endCtrls cs).resetCfg cs true
    .next { s1 with hp := { s1.hp with flr := cs ++ s1.hp.flr.filter (fun f => !cs.contains f) } }

/-- The functions of a port that the host configures now (R121, R122, R146): all of them once the port trains, and those that a Function
Level Reset has reset afterwards. -/
def State.configurable (s : State) (port : Nat) (cfg : CfgSpace) : List Nat :=
  let pfs := if s.flag F.HP_CFG_DUAL then [port] else if s.flag F.HP_CFG_PF1_EN then [0, 1] else [0]
  let again := ((s.hp.ports[port]?).map (fun p => p.cfg)).getD false
  let base (pf : Nat) : Nat := 2 + (if pf = 0 then 0 else s.totalVfs 0)
  let vfs (pf : Nat) : List Nat := (List.range (min (s.totalVfs pf) (if pf = 0 then cfg.vfs0 else cfg.vfs1))).map (· + base pf)
  if again then
    (pfs.filter s.hp.flr.contains).flatMap (fun pf => pf :: vfs pf) ++
      s.hp.flr.filter (fun f => 2 ≤ f && pfs.contains (s.pfOf f) && !s.hp.flr.contains (s.pfOf f))
  else pfs.flatMap (fun pf => pf :: vfs pf)

/-- CONFIG_SPACE_READY (R121 to R123, R136 to R139, R143, R146, R148): the port's functions answer configuration requests, and the host
configures them. Log entry 59 (DEDUCED). -/
def execConfigSpaceReady (port : Nat) (cfg : CfgSpace) (s : State) : Res :=
  if !s.hasPort port || !s.flag (F.HP_LINK_STATUS_UP port) || ((s.hp.ports[port]?).map (fun p => p.training)).getD true then .next s
  else
    let ids := s.configurable port cfg
    let pfs := ids.filter (· < 2)
    let n (pf : Nat) : Nat := if pfs.contains pf then min (s.totalVfs pf) (if pf = 0 then cfg.vfs0 else cfg.vfs1) else s.hp.vfs.getD pf 0
    let fresh := ids.filter (fun i => !s.qe.ctrls.any (fun c => c.id == i))
    let out (i : Nat) : Bool := !ids.contains i
    let owner := if s.flag F.HP_CFG_DUAL then port else 0
    .next { s with
      qe := { s.qe with ctrls := s.qe.ctrls ++ fresh.map (fun i => ({ id := i } : Ctrl)) }
      hp := { s.hp with
        ports := s.hp.ports.modify port (fun p => { p with cfg := true })
        vfs := [n 0, n 1]
        flr := s.hp.flr.filter out
        fns := cfg.fns.filter (fun c => ids.contains c.fn) ++ s.hp.fns.filter (fun c => out c.fn)
        ats := s.hp.ats.filter out ++ (if cfg.ats then ids else [])
        msix := s.hp.msix.filter out ++ (if cfg.msix then ids else [])
        msi := s.hp.msi.filter out ++ (if cfg.msi then pfs else [])
        ptm := if ids.contains owner then s.hp.ptm.filter (· != port) ++ (if cfg.ptm then [port] else []) else s.hp.ptm } }

/-! ## Memory reads -/

/-- The admin opcodes of R181 with whether they are marked PF, and the I/O opcodes. -/
def adminOps : List (Nat × Bool) :=
  [(0x00, false), (0x01, false), (0x02, false), (0x04, false), (0x05, false), (0x06, false), (0x08, false), (0x09, false),
   (0x0A, false), (0x0C, false), (0x0D, true), (0x10, true), (0x11, true), (0x15, true), (0x18, false), (0x19, false), (0x1A, false),
   (0x7C, false), (0x80, true), (0x84, true), (0xC0, true), (0xC4, true), (0xC9, true), (0xCC, true), (0xD2, true), (0xD5, true),
   (0xD8, true), (0xDC, true)]

/-- The I/O opcodes of R181. -/
def ioOps : List Nat := [0x00, 0x01, 0x02, 0x04, 0x05, 0x08, 0x09, 0x0D, 0x0E, 0x11, 0x15]

/-- Whether the WY48 executes an opcode of a controller's queue (R181). -/
def opcodeKnown (ctrl q opc : Nat) : Bool :=
  if q = 0 then adminOps.any (fun o => o.1 == opc && (!o.2 || ctrl < 2)) else ioOps.contains opc

/-- Marks the sectors of a write's blocks as poisoned (R28, R128, R208), for the reads too that wait for its data. -/
def State.poisonBlocks (s : State) (c : Cmd) (blocks : List Nat) : State :=
  let bs := s.cmdBs c
  let bad (iu : Nat) : Nat := blocks.foldl (fun m b =>
    ((iuCover s.iuSectors (b * bs) bs).filter (fun e => e.1 == iu)).foldl (fun m e => m ||| e.2) m) 0
  let full := maskOf 0 s.iuSectors
  let s1 := c.records.foldl (fun (s : State) i => s.updRec i (fun r =>
    let m := bad r.iu
    { r with parts := keepParts (full - (full &&& m)) r.parts ++ (keepParts m r.parts).map (fun p => { p with poison := true }) })) s
  let more (q : RdIu) (m : Nat) (x : RdSrc) : Nat := match x with
    | .cells i k => if c.records.contains i then m ||| (k &&& bad q.iu) else m
    | _ => m
  let mark (q : RdIu) : RdIu := { q with poison := q.srcs.foldl (more q) q.poison }
  let s1 : State := { s1 with qe := { s1.qe with cmds := s1.qe.cmds.map (fun k => { k with ius := k.ius.map mark }) } }
  c.segs.foldl (fun (s : State) g =>
    let cells := (blocks.filter (fun b => g.lo ≤ b && b < g.lo + g.n)).flatMap (fun b => (List.range bs).map (fun k => (b - g.lo) * bs + k))
    (g.chain.toList ++ g.twin.toList).foldl (fun (s : State) h => s.poisonCells h cells) s) s1

/-- The metadata of the 4,096 + 8 blocks of a segment goes with its data (R208, R287): into the link entry of the cell in which each block ends, and
into the records. -/
def State.metaBlocks (s : State) (c : Cmd) (lo : Nat) (metas : List Nat) : State :=
  match c.segs.find? (fun g => g.lo == lo), s.ns c.nsid with
  | some g, some n =>
    if n.lbaf != 2 then s
    else
      (metas.take g.n).zipIdx.foldl (fun (s : State) e =>
        let s1 := (g.chain.toList ++ g.twin.toList).foldl (fun (s : State) h => s.metaCell h (8 * e.2 + 7) (e.1 % 2 ^ 64)) s
        let sec := 8 * (g.lo + e.2) + 7
        c.records.foldl (fun (s : State) i => s.updRec i (fun r =>
          if r.iu = sec / s.iuSectors then
            { r with parts := r.parts.map (fun p =>
              if p.mask.testBit (sec % s.iuSectors) then { p with metas := (sec % s.iuSectors, e.1 % 2 ^ 64) :: p.metas.filter (fun m => m.1 != sec % s.iuSectors) } else p) }
          else r)) s1) s
  | _, _ => s

/-- A command ends because of a data fetch (R131, R132). -/
def State.failCmd (s : State) (ref : Ref) (st : Status) : State :=
  match s.cmd ref with
  | none => s
  | some c => if c.kind.stamps then s.failWrite ref st else s.failRead ref st

/-- An entry that has been fetched ends without being executed. -/
def State.endEntry (s : State) (ref : Ref) (st : Status) : State := (s.latch ref).complete ref st 0

/-- Changes the fetched entry of a command. -/
def State.updEntry (s : State) (ref : Ref) (f : Sqe → Sqe) : State :=
  match ref with
  | .host c q i => { s with qe := { s.qe with fetched := updWhere (fun e => e.ctrl == c && e.sq == q && e.cid == some i) f s.qe.fetched } }
  | .side => s

/-- Whether a command's entry has been fetched and not executed. -/
def State.hasEntry (s : State) (ref : Ref) : Bool :=
  match ref with
  | .host c q i => s.qe.fetched.any (fun e => e.ctrl == c && e.sq == q && e.cid == some i)
  | .side => false

/-- The address that an access uses (R130, R139): translated where ATS applies and the translation is held. -/
def State.busAddr (s : State) (fn addr : Nat) : Nat :=
  match (if s.hp.ats.contains fn then s.xlatOf (s.portOf fn) fn (addr / 4096) else none) with
  | some x => x.dest * 4096 + addr % 4096
  | none => addr

/-- The status of an address that R130 forbids (R131). -/
def barStatus (sgl : Bool) : Status := if sgl then .sglInvalid else .prpOffsetInvalid

/-- Pointers of a fetched command (R130 to R132): one that touches a BAR of the WY48 ends the command; a list or segment that follows is
fetched; with the last of them the command can be executed. Log entry 84 (DESIGN CHOICE). -/
def State.takePtrs (s : State) (ref : Ref) (l : List (Nat × Nat)) (sgl more : Bool) : State :=
  let fn := (ctrlOf ref).getD 0
  if l.any (fun p => s.touchesBar (s.busAddr fn p.1) p.2) then (s.post F.HP_EVT_STATUS_WALK_BAR fn).endEntry ref (barStatus sgl)
  else
    let old := ((s.hp.ptrs.lookup ref).map (fun e => e.2)).getD []
    let s1 := (({ s with hp := { s.hp with ptrs := (ref, sgl, old ++ l) :: s.hp.ptrs.filter (fun e => e.1 != ref) } }).updEntry ref
      (fun e => { e with walking := more }))
    if more then s1.readHost fn (.list ref) [] [none] else s1

/-- Data that arrives poisoned or failing ECRC (R128). UNIT of a Host Port source's entry names the controller. Log entry 84 (DESIGN CHOICE). -/
def State.poisonIn (s : State) (fn : Nat) : State := (s.post F.HP_EVT_STATUS_POISON_IN fn).aerPost fn .poisoned

/-- An entry arrives (R132, R158, R181): with an opcode that R181 does not list the command ends with Invalid Command Opcode. -/
def State.arrive (s : State) (c q slot cid : Nat) (opc : Option Nat) (l : List (Nat × Nat)) (sgl more : Bool) : State :=
  let put (e : Sqe) : Sqe := { e with cid := some cid }
  let s1 : State := { s with
    qe := { s.qe with fetched := updWhere (fun e => e.ctrl == c && e.sq == q && e.slot == slot && e.cid.isNone) put s.qe.fetched }
    hp := { s.hp with ptrs := s.hp.ptrs.filter (fun e => e.1 != .host c q cid) } }
  if opc.any (fun o => !opcodeKnown c q o) then s1.endEntry (.host c q cid) .invalidOpcode
  else s1.takePtrs (.host c q cid) l sgl more

/-- The page of a queue slot (R139, R160). -/
def State.sqPage (s : State) (c q slot : Nat) : Option Nat :=
  ((s.qe.sqs.find? (fun x => x.ctrl == c && x.qid == q)).bind (fun x => x.base)).map (fun b => b / 4096 + slot / 64)

/-- A submission queue fetch that failed (R134): tried once more; the second failure sets CSTS.CFS. Its entries are not executed. UNIT of
SQ_FETCH's entry names the controller. Log entry 84 (DESIGN CHOICE). -/
def State.sqFetchFail (s : State) (a : MemAcc) (c q : Nat) : State :=
  if a.tried then
    let gone (e : Sqe) : Bool := e.ctrl == c && e.sq == q && e.cid.isNone && a.slots.contains e.slot
    let s1 : State := { s with qe := { s.qe with fetched := s.qe.fetched.filter (fun e => !gone e) } }
    (s1.updCtrl c (fun k => { k with cfs := true })).post F.HP_EVT_STATUS_SQ_FETCH c
  else
    let again : MemAcc := { a with tried := true, todo := [s.sqPage c q (a.slots.headD 0)], out := [] }
    { s with hp := { s.hp with reads := s.hp.reads ++ [again] } }

/-- A submission queue entry's read brings it, or fails (R128, R134, R158). A poisoned fetch and one that fails share one second try: how
that one ends decides. Log entry 84 (DESIGN CHOICE). -/
def State.sqeRead (s : State) (k : Nat) (a : MemAcc) (c q slot cid : Nat) (res : MemRes) : State :=
  let rest := a.slots.erase slot
  let left := s.updAcc k (fun a => { a with slots := rest })
  let s1 := if rest.isEmpty then (left.updAcc k (fun a => { a with out := [] })).retire (a.out.map (fun r => r.no)) else left
  match res with
  | .ok => s1.arrive c q slot cid none [] false false
  | .entry opc l sgl more => s1.arrive c q slot cid (some opc) l sgl more
  | .ptrs l sgl more => s1.arrive c q slot cid none l sgl more
  | .poison _ =>
    let s2 := s1.poisonIn c
    if a.tried then
      let put (e : Sqe) : Sqe := { e with cid := some cid }
      let s3 : State := { s2 with qe := { s2.qe with
        fetched := updWhere (fun e => e.ctrl == c && e.sq == q && e.slot == slot && e.cid.isNone) put s2.qe.fetched } }
      s3.endEntry (.host c q cid) .dataTransfer
    else
      let again : MemAcc := { a with slots := [slot], tried := true, todo := [s.sqPage c q slot], out := [] }
      { s2 with hp := { s2.hp with reads := s2.hp.reads ++ [again] } }
  | .fail => ((s.updAcc k (fun a => { a with out := [], slots := [] })).retire (a.out.map (fun r => r.no))).sqFetchFail a c q

/-- A list or segment arrives (R131, R132). -/
def State.listRead (s : State) (ref : Ref) (res : MemRes) : State :=
  let fn := (ctrlOf ref).getD 0
  if !s.hasEntry ref then s
  else
    match res with
    | .ok | .entry _ _ _ _ => s.takePtrs ref [] false false
    | .ptrs l sgl more => s.takePtrs ref l sgl more
    | .poison _ => ((s.poisonIn fn).post F.HP_EVT_STATUS_WALK_FAIL fn).endEntry ref .dataTransfer
    | .fail => (s.post F.HP_EVT_STATUS_WALK_FAIL fn).endEntry ref .dataTransfer

/-- A request for a segment's data ends (R127, R128, R132); `last` says that it was the segment's last. -/
def State.dataRead (s : State) (ref : Ref) (lo : Nat) (last : Bool) (res : MemRes) (metas : List Nat) : State :=
  let fn := (ctrlOf ref).getD 0
  match s.cmd ref with
  | none => s
  | some c =>
    if !c.segs.any (fun g => g.lo == lo && !g.fetched && g.chain.isSome) then s
    else
      let got (s0 : State) : State :=
        let s := s0.metaBlocks c lo metas
        if last then s.updCmd ref (fun c => c.updSeg lo (fun g => { g with fetched := true })) else s
      match res with
      | .ok | .entry _ _ _ _ | .ptrs _ _ _ => got s
      | .poison bs =>
        let mine := bs.filter (fun b => c.segs.any (fun g => g.lo == lo && g.lo ≤ b && b < g.lo + g.n))
        got ((s.poisonBlocks c mine).poisonIn fn)
      | .fail => (s.post F.HP_EVT_STATUS_WALK_FAIL fn).failCmd ref .dataTransfer

/-- Posts the completions that wait in one queue as far as it has entries for them (R156). -/
def State.flushHeld (s : State) (c cq : Nat) : State :=
  let of (h : HeldCqe) : Bool := match h.ref with | .host x q _ => x == c && ((s.cqOf x q).map (fun k => k.qid)) == some cq | .side => false
  (s.qe.full.filter of).foldl (fun (s : State) h =>
    match s.qe.cqs.find? (fun k => k.ctrl == c && k.qid == cq) with
    | some k => if k.isFull then { s with qe := { s.qe with full := s.qe.full ++ [h] } } else (s.writeCqe k h.ref h.status h.dw0).readLeft h.ref
    | none => s) { s with qe := { s.qe with full := s.qe.full.filter (fun h => !of h) } }

/-- The asynchronous event Invalid Doorbell Write Value (R157); group 65 stands for the base specification's error group. Log entry 60 (DESIGN CHOICE). -/
def State.badDoorbell (s : State) (c : Nat) : State := s.aenTo 65 c

/-- A shadow head as it was read (R156, R157): the completions that wait go as far as they fit; where the queue stays full its EventIdx is
that head. A head outside its queue is ignored and reported. Log entry 59 (DEDUCED). -/
def State.headGot (s : State) (c cq value : Nat) : State :=
  match s.qe.cqs.find? (fun k => k.ctrl == c && k.qid == cq) with
  | none => s
  | some k =>
    let upd (f : Cq → Cq) (s : State) : State :=
      { s with qe := { s.qe with cqs := updWhere (fun x => x.ctrl == c && x.qid == cq) f s.qe.cqs } }
    let s1 := if k.size ≤ value then s.badDoorbell c else (upd (fun k => { k with head := value }) s).flushHeld c cq
    upd (fun k => if k.isFull then { k with eventIdx := k.head } else k) s1

/-- Whether an access answers a read. -/
def MemAcc.serves (a : MemAcc) (what : MemRead) : Bool :=
  !a.out.isEmpty && (match a.what, what with
    | .sqe c q _ _, .sqe x y slot _ => c == x && q == y && a.slots.contains slot
    | .head c q _, .head x y _ => c == x && q == y
    | a, w => a == w)

/-- The oldest request of an access has ended (R117, R140). -/
def State.popReq (s : State) (k : Nat) (a : MemAcc) : State :=
  (s.updAcc k (fun a => { a with out := a.out.drop 1 })).retire ((a.out.take 1).map (fun r => r.no))

/-- What a memory read brings (R117, R127, R128, R131, R132, R134, R156); requests that wait are issued in its place. Log entry 84 (DESIGN CHOICE). -/
def State.memRead (s : State) (what : MemRead) (res : MemRes) (metas : List Nat) : State :=
  match s.hp.reads.findIdx? (fun a => a.serves what) with
  | none => s
  | some k =>
    match s.hp.reads[k]? with
    | none => s
    | some a =>
      let s1 := match what with
        | .data ref lo => (s.popReq k a).dataRead ref lo (a.todo.isEmpty && a.out.length == 1) res metas
        | .list ref => (s.popReq k a).listRead ref res
        | .sqe c q slot cid => s.sqeRead k a c q slot cid res
        | .head c q v => (match res with
          | .ok => ((s.popReq k a).sweepReads).headGot c q v
          | .poison _ => (s.popReq k a).poisonIn c
          | _ => s.popReq k a)
      (s1.sweepReads).issueReads

/-- The function of a memory read. -/
def fnOfRead : MemRead → Nat
  | .data r _ | .list r => (ctrlOf r).getD 0
  | .sqe c _ _ _ | .head c _ _ => c

/-- What a port has detected since its last inbound completion (R135, R150): AER errors, and FEC corrections, saturating. -/
def State.linkNews (s : State) (fn : Nat) (m : MemIn) : State :=
  let f := F.HP_ERR_CNT_FEC (s.portOf fn)
  let s1 := m.errs.foldl (fun (s : State) e => s.aerPost fn e) s
  if m.fec = 0 then s1 else s1.setFld f (min 0xFFFF (s1.fld f + m.fec))

/-- MEMORY_READ_COMPLETION (R127, R128, R131, R132, R134). Log entry 59 (DEDUCED). -/
def execMemoryReadCompletion (what : MemRead) (res : MemIn) (s : State) : Res :=
  if s.mode = .off || s.mode = .holdUp then .next s
  else .next (((s.wakeEvent 6).linkNews (fnOfRead what) res).memRead what res.res res.metas)

/-- Whether a function's completion timeout has passed for a read's oldest request (R136). -/
def State.readLate (s : State) (what : MemRead) : Bool :=
  match s.hp.reads.find? (fun a => a.serves what) with
  | some a =>
    let c := s.fnCfg a.fn
    !c.ctoOff && (a.out.head?).any (fun r => decide (r.at_ + c.ctoUs * usT ≤ s.nowAt islHost))
  | none => false

/-- COMPLETION_TIMEOUT (R132, R134, R136): not before the function's timeout, 40 ms unless the host sets another, nor where it is
disabled. -/
def execCompletionTimeout (what : MemRead) (s : State) : Res :=
  if s.mode = .off || s.mode = .holdUp || !s.readLate what then .next s
  else .next ((s.aerPost (fnOfRead what) .completionTimeout).memRead what .fail [])

/-! ## ATS -/

/-- The numbers of a function's outstanding requests that used a translation of a range (R140), or that `named` names. -/
def State.covered (s : State) (port fn lo n : Nat) (named : List (Ref × Nat)) : List Nat :=
  (s.hp.reads.filter (fun a => a.port == port && a.fn == fn)).flatMap (fun a =>
    let whole := match a.what with | .data r l => named.contains (r, l) | _ => false
    (a.out.filter (fun r => whole || r.page.any (fun g => lo ≤ g && g < lo + n))).map (fun r => r.no))

/-- INVALIDATE_REQUEST (R140, R141): the covered entries of the cache are invalid; the requests already issued with a covered translation
are awaited, those of the reads in `waits` among them. -/
def execInvalidateRequest (port itag fn lo n : Nat) (waits : List (Ref × Nat)) (s : State) : Res :=
  if !s.hasPort port || s.mode = .off || s.mode = .holdUp then .next s
  else
    let s1 := s.wakeEvent 6
    let hit (x : Xlat) : Bool := x.port == port && x.fn == fn && lo ≤ x.page && x.page < lo + n
    let nos := s1.covered port fn lo n waits
    let v : Inval := { port, itag, fn, lo, n, at_ := s.now, waits := nos, step2 := if nos.isEmpty then some s.now else none }
    .next { s1 with hp := { s1.hp with atc := s1.hp.atc.filter (fun x => !hit x), invals := s1.hp.invals ++ [v] } }

/-- The invalidations of a port that are in progress (R139, R141): of each function the 32 oldest that have not been answered; the others
wait behind them in arrival order. Log entry 98 (DEDUCED). -/
def State.invalsOpen (s : State) (port : Nat) : List Inval :=
  let mine := s.hp.invals.filter (fun v => v.port == port && !v.sent)
  mine.filter (fun v => (mine.filter (fun w => w.fn == v.fn)).take 32 |>.contains v)

/-- INVALIDATE_COMPLETION (R140): the oldest invalidation in progress whose reads have all ended answers; later than 100 µs after
step 2 it sets INV_LATE, whose entry's UNIT is the port. Log entry 84 (DESIGN CHOICE). -/
def execInvalidateCompletion (port : Nat) (s : State) : Res :=
  if s.mode = .off then .next s
  else
    match (s.invalsOpen port).find? (fun v => v.step2.isSome) with
    | none => .next s
    | some v =>
      let s1 := ({ s with hp := { s.hp with invals := s.hp.invals.modify (s.hp.invals.findIdx (· == v)) (fun v => { v with sent := true }) } }).emit
        (.invalidated port v.itag)
      if v.step2.getD 0 + 100 * usT < s.now then .next (s1.post F.HP_EVT_STATUS_INV_LATE port) else .next s1

/-- Whether the next request of an access waits for a page's translation (R139). -/
def MemAcc.waitsFor (a : MemAcc) (port fn page : Nat) : Bool :=
  a.port == port && a.fn == fn && a.asked && a.todo.head? == some (some page)

/-- An access whose translated address R130 forbids issues nothing more: a write's command ends, a queue fetch has failed. -/
def State.refuseAcc (s : State) (a : MemAcc) : State :=
  let s1 := (s.post F.HP_EVT_STATUS_WALK_BAR a.fn).stopReads (· == a.what)
  match a.what with
  | .data ref _ => s1.failCmd ref (barStatus (((s.hp.ptrs.lookup ref).map (fun e => e.1)).getD false))
  | .list ref => s1.endEntry ref (barStatus (((s.hp.ptrs.lookup ref).map (fun e => e.1)).getD false))
  | .sqe c q _ _ => s1.sqFetchFail { a with tried := true } c q
  | .head _ _ _ => s1

/-- The cache takes a translation (R139): a full cache replaces its least recently used entry. -/
def State.fillAtc (s : State) (port fn page xlat : Nat) : State :=
  let others := s.hp.atc.filter (fun x => !(x.port == port && x.fn == fn && x.page == page))
  let mine := others.filter (fun x => x.port == port)
  let old := mine.foldl (fun (m : Option Xlat) x => match m with
    | some y => if x.used < y.used then some x else m
    | none => some x) none
  let kept := match old with | some x => if 8192 ≤ mine.length then others.erase x else others | none => others
  { s with hp := { s.hp with atc := { port, fn, page, dest := xlat, used := s.nowAt islHost } :: kept } }

/-- TRANSLATION_COMPLETION (R130, R139, R141): the answer to a request issued at count `issued` fills the cache and the accesses that wait
for it go on, unless an Invalidate Request received since then covers it: then the translation is requested again. -/
def execTranslationCompletion (port fn page xlat issued : Nat) (s : State) : Res :=
  let stale := s.hp.invals.any (fun v => v.port == port && v.fn == fn && v.lo ≤ page && page < v.lo + v.n && issued < v.at_)
  if s.mode = .off || !s.hp.ats.contains fn then .next s
  else if stale then .next ((s.wakeEvent 6).emit (.translate port fn page))
  else
    let s1 := (s.wakeEvent 6).fillAtc port fn page xlat
    let mine := s1.hp.reads.filter (fun a => a.waitsFor port fn page)
    let s2 := if s1.touchesBar (xlat * 4096) 4096 then mine.foldl State.refuseAcc s1
      else { s1 with hp := { s1.hp with reads := updWhere (fun a => a.waitsFor port fn page) (fun a => { a with asked := false }) s1.hp.reads } }
    .next s2.issueReads

/-! ## D3hot and interrupts -/

/-- D3HOT_ENTRY (R120). -/
def execD3hotEntry (fn : Nat) (s : State) : Res :=
  if !s.qe.ctrls.any (fun c => c.id == fn) || s.hp.d3hot.contains fn || s.mode = .off then .next s
  else .next { (s.wakeEvent 6) with hp := { (s.wakeEvent 6).hp with d3hot := fn :: s.hp.d3hot } }

/-- Sends a function's pending messages that are not masked any more, each once (R138). -/
def State.sendPending (s : State) (fn : Nat) : State :=
  let due := s.hp.vecPend.filter (fun v => v.1 == fn && !s.vecMasked fn v.2 && !s.hp.d3hot.contains fn)
  due.foldl (fun (s : State) v => s.irq fn v.2) { s with hp := { s.hp with vecPend := s.hp.vecPend.filter (fun v => !due.contains v) } }

/-- Posts again the completions that were held for a controller (R156). -/
def State.drainFull (s : State) (c : Nat) : State :=
  let mine := s.qe.full.filter (fun h => refIn [c] h.ref)
  mine.foldl (fun (s : State) h => (s.complete h.ref h.status h.dw0).readLeft h.ref)
    { s with qe := { s.qe with full := s.qe.full.filter (fun h => !refIn [c] h.ref) } }

/-- D3HOT_EXIT (R120, R138): the function works again; its accesses go on, its held completions and pending messages go out, and reads that
have waited return their data. -/
def execD3hotExit (fn : Nat) (s : State) : Res :=
  if !s.hp.d3hot.contains fn then .next s
  else
    let s1 : State := { (s.wakeEvent 6) with hp := { (s.wakeEvent 6).hp with d3hot := s.hp.d3hot.filter (· != fn) } }
    .next ((((s1.issueReads).drainFull fn).sendPending fn).settleCmds)

/-- A mask bit takes a value (R137, R138). -/
def State.setMask (s : State) (fn : Nat) (m : MaskWrite) : State :=
  let put (l : List (Nat × Nat)) (v : Nat) (on : Bool) : List (Nat × Nat) := (if on then [(fn, v)] else []) ++ l.filter (· != (fn, v))
  match m.bit with
  | .msix v => { s with hp := { s.hp with vecOpen := put s.hp.vecOpen v (!m.set) } }
  | .function => s.updFn fn (fun c => { c with fnMask := m.set })
  | .msi v => { s with hp := { s.hp with msiMask := put s.hp.msiMask v m.set } }
  | .intx v => { s with hp := { s.hp with intMask := put s.hp.intMask v m.set } }

/-- The mask bits that a function has (R137): 2,048 or 64 MSI-X vectors, and on a PF 32 of MSI and of INTMS. -/
def maskBitOf (fn : Nat) : MaskBit → Bool
  | .msix v => v < (if fn < 2 then 2048 else 64)
  | .function => true
  | .msi v | .intx v => fn < 2 && v < 32

/-- VECTOR_UNMASK (R137, R138, R149): the host clears a mask bit, and what waits behind it is sent once; or sets it. Log entry 58 (DEDUCED). -/
def execVectorUnmask (fn : Nat) (vec : MaskWrite) (s : State) : Res :=
  if !s.qe.ctrls.any (fun c => c.id == fn) || !maskBitOf fn vec.bit || s.mode = .off || s.mode = .holdUp then .next s
  else .next (((s.wakeEvent 6).setMask fn vec).sendPending fn)

/-! ## DOE -/

/-- Sets a PF's DOE mailbox. -/
def State.setDoe (s : State) (pf v : Nat) : State := { s with hp := { s.hp with doe := s.hp.doe.set pf v } }

/-- DOE_DATA_OBJECT (R145): kinds 0 Discovery, 1 CMA/SPDM, 2 Secured CMA/SPDM; Discovery is answered, an SPDM object leaves
the mailbox busy until its request is answered, an object above 64 KiB is discarded with DOE Error. The spec does not say what an object of
another type does: it changes nothing and sets no DOE Error. Log entry 84 (DESIGN CHOICE). -/
def execDoeDataObject (pf kind len : Nat) (s : State) : Res :=
  if !s.qe.ctrls.any (fun c => c.id == pf) || 2 ≤ pf || s.hp.doe.getD pf 0 != 0 || s.mode = .off then .next s
  else if 65536 < len then .next ((s.wakeEvent 6).setDoe pf 2)
  else if kind = 0 then .next ((s.wakeEvent 6).emit (.doe pf 0))
  else if kind ≤ 2 then .next ((s.wakeEvent 6).setDoe pf 1)
  else .next (s.wakeEvent 6)

/-- DOE_ABORT (R145): the mailbox is idle. -/
def execDoeAbort (pf : Nat) (s : State) : Res := if pf < 2 then .next ((s.wakeEvent 6).setDoe pf 0) else .next s

end Sys2Proof.Machine
end

