-- ==== Sys2Proof/Machine/HoldUp.lean ====
section
/-! DEFINITION. HOLD-UP and the Blotter's rows (R34, R447, R449 to R457): PFAIL_N, the dump and the shutdown record. -/

namespace Sys2Proof.Machine

/-- PFAIL_N_FALL (R451): the deglitch interval starts; a qualification of a high level ends. -/
def execPfailNFall (s : State) : Res :=
  if !s.pwr.vaux || !s.pwr.pfailHigh then .next s
  else .next { s with pwr := { s.pwr with pfailHigh := false, deglitch := true }, blt := { s.blt with holdAt := s.now } }

/-- PFAIL_DEGLITCH_EXPIRE (R451, R590, R592): PFAIL_N is asserted: HOLD-UP is due at the next line, or a running power-up
is turned around; a power-down that runs already is not reversed any more (R9). -/
def execPfailDeglitchExpire (s : State) : Res :=
  let early := s.rul.running && s.now < s.blt.holdAt + (s.fld F.PWR_HU_CFG_DEGLITCH + 1) * 250 * nsT
  if !s.pwr.deglitch || s.pwr.pfailHigh || early then .next s
  else
    let s1 : State := { s with pwr := { s.pwr with deglitch := false, qualify := false } }
    if s.mode = .off then .next (s1.offRequest 3)
    else if 19 < s.fld F.PWR_STATUS_STEP then .next { s1 with pwr := { s1.pwr with cause := 3, onReq := none } }
    else .next (({ s1 with pwr := { s1.pwr with asserted := true, onReq := if 12 < s.fld F.PWR_STATUS_STEP then none else s.pwr.onReq } }).lastWake 3 0 0)

/-- PFAIL_N_RISE (R451, R590, R613): a pulse shorter than the deglitch sets PFAIL_GLITCH and changes nothing else;
otherwise the qualification of a power-up request starts, and the power cycle clears the thermal latch. -/
def execPfailNRise (s : State) : Res :=
  if !s.pwr.vaux || s.pwr.pfailHigh then .next s
  else if s.pwr.deglitch then
    .next (({ s with pwr := { s.pwr with pfailHigh := true, deglitch := false } }).post F.PWR_HU_EVT_STATUS_PFAIL_GLITCH noUnit)
  else .next (({ s with pwr := { s.pwr with pfailHigh := true, qualify := true, thermN := false } }).setFld F.PWR_STATUS_THERM_LATCH 0)

/-- PGOOD_TIMER_EXPIRE (R590): a power-up request is raised. -/
def execPgoodTimerExpire (s : State) : Res :=
  if s.pwr.qualify && s.pwr.pfailHigh then .next (({ s with pwr := { s.pwr with qualify := false } }).powerUpRequest 1)
  else .next s

/-- Holdover from an entry to HOLD-UP on (R72), in class C unless it was D: no source is followed. -/
def State.forceHoldover (s : State) : State :=
  let s1 := if s.rul.follow = .holdover then s
    else ({ s with rul := { s.rul with follow := .holdover } }).post F.RUL_EVT_STATUS_SRC_CHG noUnit
  ({ s1 with rul := { s1.rul with phaseSrc := .holdover } }).enterHoldover

/-- What every entry to HOLD-UP does (R34, R72, R107, R394, R452, R524): reads in flight and waiting strokes that are not
class 0 end, the Ruling holds over in class C, and the entry is counted. -/
def State.enterHoldUp (s : State) : State :=
  let reads (r : Run) : Bool := match s.strokeOf r.req with
    | some k => k.op == .read || k.op == .readSoft || (k.op == .script && !k.writes)
    | none => false
  let held (x : QCtx) : Bool := match x.hold with | .wait _ | .wline _ | .svc _ => true | _ => false
  let s0 := s.abortResync.endRuns reads 0x0C
  let s1 := (s0.nib.ctxs.filter held).foldl State.abandon s0
  let s2 := s1.dropStep.forceHoldover
  { s2 with
    mode := .holdUp
    pwr := { s2.pwr with asserted := false, entry := none, retry := false, wake := none, bootWait := none, quiesce := 0, onReq := none }
    stk := { s2.stk with strokes := s2.stk.strokes.filter (fun k => (k.inRing || k.cls == 0)) }
    nib := { s2.nib with ctxs := s2.nib.ctxs.map (fun x => { x with abort := true }) }
    fol := s2.fol.tallied 1 }

/-- The transitions in progress that PFAIL_N outranks and that have no row from HOLD-UP (R12, R13): an entry into DOZE or a wake, a change between
RUN and DEGRADED that waits, a reset into BOOT, a power-down. Log entries 78 and 87 (DEDUCED). -/
def State.losers (s : State) : Nat :=
  bit s.pwr.entry.isSome + bit (s.mode == .doze && s.pwr.wake.isSome) + bit s.maskDue + bit s.pwr.bootWait.isSome + bit (decide (12 < s.fld F.PWR_STATUS_STEP))

/-- HOLDUP_ENTRY (R7, R10, R452, R453, R457): at the first line after the assertion the dump begins; from BOOT only open
Blotter rows are closed; from SAFE with media halted the dump has run. What loses to PFAIL_N is logged (R13). From DOZE the Ruling first resumes with the
elapsed time that `clk` counted in `ticks` (R61). Log entries 3 and 78 (DEDUCED, DESIGN CHOICE). -/
def execHoldupEntry (clk : AonClock) (ticks : Nat) (s : State) : Res :=
  if !s.pwr.asserted || s.mode = .off || s.mode = .holdUp || 19 < s.fld F.PWR_STATUS_STEP then .next s
  else
    let s0 := if s.mode = .doze then s.rulResume clk ticks else s
    let halted := s.mode = .safe && s.fld F.EVU_SAFE_MEDIA = 2
    let s1 := ((s0.setFld F.PWR_STATUS_STEP 0).enterHoldUp.lose s.losers).logLost
    if s.mode = .boot || halted then .next (({ s1 with blt := { s1.blt with dumping := 1, dumpStop := false } }).closeRows true)
    else .next (s1.startDump 1)

/-- HOLDUP_DUMP_DEADLINE (R455): at PFAIL_N + 0.9 × TB no further dump stroke is placed. -/
def execHoldupDumpDeadline (s : State) : Res :=
  if s.mode != .holdUp || s.blt.dumping != 1 || s.blt.dumpStop || s.now < s.blt.holdAt + 900 * nsT * s.fld F.PWR_HU_EFF_TB_US then .next s
  else
    .next { s with blt := { s.blt with
      dumpStop := true
      pages := s.blt.pages.map (fun p => if p.phase == .closed then { p with phase := .lost } else p) } }

/-- The dump's rate (R438, R465): its data pages and their parity, over the time since it began; below RATE, in GB/s or bytes per
ns, RATE_LOW is set. Log entry 71 (DEDUCED). -/
def State.dumpRate (s : State) : State :=
  let pages := if s.blt.dumpLast = 0 then 0 else s.blt.dumpLast + 1 - s.blt.dumpFirst
  let bytes := (pages + (s.blt.rows.filter (fun r => r.dump)).length) * s.pageBytes
  if pages != 0 && bytes < s.fld F.PWR_HU_CFG_RATE * ((s.now - s.blt.dumpAt) / nsT) then s.post F.PWR_HU_EVT_STATUS_RATE_LOW noUnit else s

/-- LOST_WET (R455, R456): the DONE units of a stopped dump whose page has not passed. -/
def State.countLost (s : State) : State :=
  if !s.blt.dumpStop then s
  else
    let left := s.blt.pages.filter (fun p => p.phase == .closed || p.phase == .lost)
    { s with blt := { s.blt with lostWet := (left.map (fun p => (p.units.filter (fun u => u.btype == 0 && u.done)).length)).sum } }

/-- HOLDUP_DUMP_COMPLETE (R453, R455 to R457): with every dump stroke ended the shutdown record is written; HOLD-UP then
powers down with WP_N low, a SAFE dump does not. -/
def execHoldupDumpComplete (s : State) : Res :=
  if s.blt.dumping = 0 then .next s
  else
    let open_ := s.blt.pages.any (fun p => p.phase == .programming || (p.phase == .closed && !s.blt.dumpStop))
    if open_ then .next s
    else
      let s1 := s.closeRows true
      if s1.blt.rows.any (fun r => r.parity != 2) && !s1.blt.dumpStop then .next s1
      else
        let safe : Bool := s.blt.dumping == 2
        let s1 := s1.countLost
        let s2 := s1.dumpRate.shutRecord (if safe then 4 else if s.blt.dumpStop then 3 else 2)
        let s3 : State := { s2 with blt := { s2.blt with dumping := 0 } }
        if safe then .next s3.shutSafe else .next (({ s3 with pwr := { s3.pwr with cause := 3 } }).setFld F.PWR_STATUS_STEP 13)

/-- COMMIT_GROUP_TIMEOUT (R21, R447): a commit group closes CG_US of the Stroke Scheduler's time after its first unit. -/
def execCommitGroupTimeout (group : Nat) (s : State) : Res :=
  match s.blt.pages.find? (fun p => p.group == group && p.phase == .open) with
  | none => .next s
  | some p =>
    if s.nowAt islStroke < p.openedAt + s.fld F.PWR_BLT_CFG_CG_US * usT || !s.groupsOpen then .next s
    else .next (s.updPage group (fun p => { p with phase := .closed })).pumpBlotter

/-- BLOTTER_UNIT_AGE (R450): a BTYPE 0 unit still unreleased 1 h after its group was written has the wordlines that hold
its data padded, and no new group enters its slot. -/
def execBlotterUnitAge (group : Nat) (s : State) : Res :=
  match s.blt.pages.find? (fun p => p.group == group && p.phase == .passed) with
  | none => .next s
  | some p =>
    let old := p.units.filter (fun u => u.btype == 0 && !u.released)
    if s.now < p.openedAt + 3600 * secT || old.isEmpty || !s.groupsOpen then .next s
    else
      let wps := (old.filterMap (fun u => (u.idx.bind s.recAt).map (fun r => r.wp))).eraseDups
      let s1 := match p.row with
        | some (st, sl, _) => s.updSet st (fun t => { t with stop := t.stop.set sl true })
        | none => s
      .next (wps.foldl State.padWp s1.runWritePoints).pump

end Sys2Proof.Machine
end

