-- ==== Sys2Proof/Machine/Power.lean ====
section
/-! DEFINITION. The Power Controller's and the Thermal Monitor's rows (chapter 17, R660 to R662): rails, VAUX_33, junction
sensors, throttling and AVSBus. -/

namespace Sys2Proof.Machine

/-- MIN_OFF_TIME_EXPIRE (R592): a power-up request that waits begins PU1. -/
def execMinOffTimeExpire (s : State) : Res :=
  if !s.pwr.minOff then .next s
  else
    let s1 : State := { s with pwr := { s.pwr with minOff := false, onReq := none } }
    match s.pwr.onReq with
    | some src => .next (if s1.thermalHold then s1.powerUpRequest src
        else ({ s1 with pwr := { s1.pwr with source := src } }).setFld F.PWR_STATUS_STEP 1)
    | none => .next s1

/-- RAIL_GOOD_TIMEOUT (R661): the power-up ends at its step and the power-down runs from the mirror; nothing further is
tried until the next power-up request. -/
def execRailGoodTimeout (s : State) : Res :=
  let k := s.fld F.PWR_STATUS_STEP
  if k = 1 || k = 2 || k = 3 || k = 5 then
    .next (((({ s with pwr := { s.pwr with cause := 3, offReq := none, onReq := none } }).lastWake s.pwr.source 3 0)).setFld F.PWR_STATUS_STEP (25 - k))
  else .next s

/-- RAIL_OUT_OF_LIMITS (R662): an enabled rail that leaves its limits is handled as a PFAIL_N assertion. -/
def execRailOutOfLimits (s : State) : Res :=
  if !s.pwr.vaux || !(s.pwr.rails.any id) then .next s
  else if s.mode = .off then .next (s.offRequest 3)
  else if 19 < s.fld F.PWR_STATUS_STEP || s.mode = .holdUp then .next { s with pwr := { s.pwr with cause := 3, onReq := none } }
  else .next ((({ s with pwr := { s.pwr with asserted := true } }).lastWake 3 0 0))

/-- THERMAL_SENSOR_SAMPLE's check of one sensor (R605): masked outside −55 to 150 °C, or after 10 s more than 15 °C away
from both neighbours. -/
def State.sensorSample (s : State) (i : Nat) (temps : List Int) : State :=
  match s.thm.sensors[i]?, temps[i]? with
  | some x, some t =>
    let nb (k : Nat) : Int := temps.getD (k % 32) t
    let apart := 15 < (t - nb (i + 31)).natAbs && 15 < (t - nb (i + 1)).natAbs
    let since := if apart then (match x.apart with | some c => some c | none => some s.now) else none
    let out := t < -55 || 150 < t
    let late := match since with | some c => decide (c + 10 * secT ≤ s.now) | none => false
    let mask := x.masked || out || late
    let y : Sensor := { x with temp := t, max := max x.max t, min := min x.min t, masked := mask, apart := since, hot := 120 ≤ t && !mask }
    let s1 : State := { s with thm := { s.thm with sensors := s.thm.sensors.set i y } }
    let s2 := if mask && !x.masked then (s1.post F.THM_EVT_STATUS_SENSOR_FAIL i).thermEvent 3 i t 0xFFFF else s1
    if x.hot && y.hot then s2.thermalShutdown 0 i 0xFFFF t else s2
  | _, _ => s

/-- THERMAL_SENSOR_SAMPLE (R605, R607, R612): in OFF only sensor 31 is read; in HOLD-UP and DOZE no thermal action is
taken here (R602, R615). Log entry 7 (DESIGN CHOICE). -/
def execThermalSensorSample (temps : List Int) (s : State) : Res :=
  if !s.pwr.vaux || temps.length != 32 then .next s
  else
    match s.mode with
    | .off =>
      .next { s with thm := { s.thm with sensors := s.thm.sensors.modify 31 (fun x => { x with temp := temps.getD 31 25 }) } }
    | .holdUp | .doze => .next s
    | _ =>
      let s1 := (List.range 32).foldl (fun (s : State) i => s.sensorSample i temps) s
      let hot := ((List.range 32).find? (fun i => ((s1.thm.sensors[i]?).map (fun x => !x.masked && x.temp == s1.thm.hotJ)).getD false)).getD 0xFF
      .next (s1.throttle hot 0xFFFF).settle

/-- THROTTLE_LEVEL_FALL (R608). -/
def execThrottleLevelFall (s : State) : Res :=
  let l := s.fld F.THM_STATUS_LEVEL
  match s.thm.coolAt with
  | some t =>
    if l = 0 || s.now < t + secT || s.mode = .doze || s.mode = .holdUp || s.mode = .off then .next s
    else
      let s1 := ((s.setLevel (l - 1)).post F.THM_EVT_STATUS_LEVEL_DOWN noUnit).thermEvent 0 0xFF s.thm.hotJ 0xFFFF
      .next { s1 with thm := { s1.thm with coolAt := if 1 < l && s1.cool (l - 1) then some s.now else none } }
  | none => .next s

/-- RATE_OF_RISE_WINDOW (R609): the rise over 250 ms, times four, is the rate in °C/s; ROR sets after HOLD_S seconds of
windows above RATE and clears after 40 windows below 1 °C/s. -/
def execRateOfRiseWindow (s : State) : Res :=
  if s.mode = .off || s.mode = .doze || s.mode = .holdUp then .next s
  else
    let j := s.thm.hotJ
    let n := (s.hotN).getD s.thm.winN
    let rj := (j - s.thm.winJ) * 4
    let rn := (n - s.thm.winN) * 4
    let rate : Int := (s.fld F.THM_ROR_RATE : Nat)
    let fast := if rate < rj || rate < rn then s.thm.fast + 1 else 0
    let calm := if rj < 1 && rn < 1 then s.thm.calm + 1 else 0
    let s1 : State := { s with thm := { s.thm with winJ := j, winN := n, fast, calm } }
    if s1.flag F.THM_CTRL_ROR_EN && !s1.flag F.THM_STATUS_ROR && 4 * max 1 (s.fld F.THM_ROR_HOLD_S) ≤ fast then
      .next ((((s1.setFld F.THM_STATUS_ROR 1).post F.THM_EVT_STATUS_ROR noUnit).thermEvent 1 0xFF j 0xFFFF).throttle 0xFF 0xFFFF)
    else if s1.flag F.THM_STATUS_ROR && 40 ≤ calm then .next (s1.setFld F.THM_STATUS_ROR 0)
    else .next s1

/-- THERMAL_HOLD_RELEASE (R613): a held power-up request proceeds once the latch is clear and sensor 31 reads below
100 °C. -/
def execThermalHoldRelease (s : State) : Res :=
  match s.pwr.held with
  | some src => if s.thermalHold then .next s else .next (({ s with pwr := { s.pwr with held := none } }).powerUpRequest src)
  | none => .next s

/-- AVS_ACK_TIMEOUT (R604): the change is sent again up to RETRY times; after the last retry AVS_TMO is set and the clocks
stay at the division that the last acknowledged voltage supports. -/
def execAvsAckTimeout (s : State) : Res :=
  if !s.flag F.PWR_AVS_STATUS_PEND then .next s
  else if s.pwr.avsTries < s.fld F.PWR_AVS_RETRY then .next ({ s with pwr := { s.pwr with avsTries := s.pwr.avsTries + 1 } }.emit (.avs s.pwr.avsWant))
  else .next ((({ s with pwr := { s.pwr with clkWait := none } }).setFld F.PWR_AVS_STATUS_PEND 0).post F.PWR_EVT_STATUS_AVS_TMO noUnit)

/-- Whether a read-back lies within 20 mV, four codes, of a setpoint. -/
def avsNear (v c : Nat) : Bool := v ≤ c + 4 && c ≤ v + 4

/-- AVS_READBACK_POLL (R604): a read-back off the setpoint sets AVS_MISMATCH and the setpoint is requested again. -/
def execAvsReadbackPoll (vread : Nat) (s : State) : Res :=
  if s.mode = .off || s.mode = .holdUp || 256 ≤ vread then .next s
  else
    let s1 := s.setFld F.PWR_AVS_STATUS_VREAD vread
    let set := s.fld F.PWR_AVS_STATUS_VSET
    if s.flag F.PWR_AVS_STATUS_PEND || avsNear vread set then .next s1
    else .next ((s1.post F.PWR_EVT_STATUS_AVS_MISMATCH noUnit).avsRequest set)

/-- AVS_ACKNOWLEDGE (R603, R604): a response Good with a read-back within 20 mV acknowledges the change, and a waiting
clock increase takes place. -/
def execAvsAcknowledge (vread : Nat) (s : State) : Res :=
  if !s.flag F.PWR_AVS_STATUS_PEND || !avsNear vread s.pwr.avsWant then .next s
  else
    let s1 := ((s.setFld F.PWR_AVS_STATUS_VSET s.pwr.avsWant).setFld F.PWR_AVS_STATUS_VREAD vread).setFld F.PWR_AVS_STATUS_PEND 0
    .next { s1 with pwr := { s1.pwr with clkDiv := s1.pwr.clkWait.getD s1.pwr.clkDiv, clkWait := none } }

end Sys2Proof.Machine
end

