-- ==== Sys2Proof/Machine/Regs.lean ====
section
/-! DEFINITION. The BAR2 register file as the host and the register window see it (R14, R15, R124, R636 to R643): what a read
returns, and what a write does under the access codes, the write rules and the seal. -/

namespace Sys2Proof.Machine

/-! ## Reads -/

/-- The key of the register that an offset shows: a register of its own, or the banked word that a selector picks (R240, R359,
R517). -/
def State.viewKey (s : State) (off : Nat) : Nat :=
  let o := s.fld F.INK_OWNER_SEL_OWNER
  let rr := 2 * (s.fld F.LIG_RR_SEL_PG * 8 + s.fld F.LIG_RR_SEL_RD)
  match off with
  | 0x300C => bankBase + 0x1000 + s.fld F.EVU_SEL_SRC
  | 0x4018 => bankBase + o
  | 0x401C => bankBase + 0x400 + o
  | 0x4028 => bankBase + 0x800 + o
  | 0x5018 => bankBase + 0x2000 + rr
  | 0x501C => bankBase + 0x2000 + rr + 1
  | _ => off

/-- Puts a field into a register's contents. -/
def putF (f : Fld) (x v : Nat) : Nat := bitsPut v f.lo f.w x

/-- The bits of one Event Unit group (R511, R517): the status register of a block, or the registers of two Nibs. -/
def State.evuBits (s : State) (g : Nat) : Nat :=
  if g < 16 then s.reg (evtKeys.getD g 0)
  else
    let half (n : Nat) : Nat := if 48 ≤ n then 0 else s.reg (nibBase n + 0x90) % 2 ^ 15 + 2 ^ 15 * bit (s.reg (nibBase n + 0xB0) != 0)
    half (2 * (g - 16)) + 2 ^ 16 * half (2 * (g - 16) + 1)

/-- Sources set (R517). -/
def State.evuPending (s : State) : Nat := ((List.range 40).map (fun g => popcount 32 (s.evuBits g))).sum

/-- The code of a Tine's state (R498). -/
def TineState.code : TineState → Nat
  | .off => 0 | .active => 1 | .standby => 2 | .resigned => 3 | .joining => 4 | .masked => 5 | .bootTest => 6

/-- The code of a LUN's state (R396). -/
def Lun.code (l : Lun) : Nat :=
  if l.retired then 7
  else
    match l.state with
    | .notPresent => 0 | .idle => 1 | .busy => 2 | .suspProgram => 3 | .suspErase => 4 | .resetting => 5 | .unresponsive => 6

/-- The lower registers of the LO/HI pairs (R636). -/
def pairLos : List Nat := [0x1010, 0x1028, 0x1038, 0x605C, 0x7010, 0x9008, 0x901C, 0xA010]

/-- Whether the field of a fuse word took its value from the copy rule (R555): a copy reads otherwise than the others, or had
a marginal bit. -/
def State.fuseByRule (s : State) (w : Nat) : Bool :=
  match fuseFieldOf w with
  | some f =>
    let words := (List.range (f.words * f.copies)).map (fun i => f.first + i)
    let vs := (List.range f.copies).map (fun c => (List.range f.words).map (fun i => s.margins (f.first + c * f.words + i)))
    (s.resolveField f).isSome && (words.any s.fol.marginal.contains || vs.any (fun v => v != vs.headD []))
  | none => false

/-- Minutes until the next drill falls due (R498), rounded up. Log entry 48 (DEDUCED). -/
def State.drillMinutes (s : State) : Nat :=
  if !s.flag F.TINE_CTRL_DRILL_EN || s.tine.due then 0
  else min 65535 (ceilDiv (s.tine.drillAt + s.fld F.TINE_DRILL_PERIOD_H * 3600 * secT - s.now) (60 * secT))

/-- MAP_CUT_PIN (R311): the IUs that the cut's snapshot pages map and no live entry does, in MiB rounded up. -/
def State.cutPin (s : State) (c : CutRec) : Nat :=
  let own := s.map.snaps.filter (fun p => c.sources.contains p.nsid && p.lo ≤ c.gen && c.gen ≤ p.hi)
  let addrs := (own.flatMap (fun p => p.entries.filterMap (fun e => match e.2 with | .mapped a => some a | _ => none))).eraseDups
  let live := addrs.filter (fun a => !s.map.entries.any (fun e => e.2 == .mapped a))
  ceilDiv (live.length * s.iuUnits * 4096) (2 ^ 20)

/-- The read-only fields of the DEV_, RUL_ and STK_ blocks that no stored word holds. Log entry 48 (DEDUCED). -/
def State.showCore (s : State) (off v : Nat) : Nat :=
  let r := s.rul
  match off with
  | 0x0000 => putF F.DEV_ID_GRADE (s.fuse 66 % 2) v
  | 0x0004 =>
    putF F.DEV_MODE_MODE s.mode.code
      (putF F.DEV_MODE_MEDIA (if s.mode = .safe then s.fld F.EVU_SAFE_MEDIA else 0) (putF F.DEV_MODE_GUAR (s.guar % 2) v))
  | 0x1004 =>
    let q := bit r.sync.qual + 2 * bit r.bxl.qual + 4 * bit r.ptm.qual
    putF F.RUL_STATUS_CLASS r.cls (putF F.RUL_STATUS_SOURCE (srcCode r.follow) (putF F.RUL_STATUS_LOCK (bit r.lock)
      (putF F.RUL_STATUS_BACK_FLAG (bit r.back) (putF F.RUL_STATUS_ONE_COUNTER (bit (r.maskA || r.maskB))
        (putF F.RUL_STATUS_STEP_ACTIVE (bit r.step.isSome) (putF F.RUL_STATUS_QUAL q (putF F.RUL_STATUS_UNC s.uncNow v)))))))
  | 0x1010 => s.now / 256 % 2 ^ 32
  | 0x1014 => r.snapHi
  | 0x1018 => r.snapAux
  | 0x1020 => putF F.RUL_SYNC_CFG_TOD_ARM (bit r.tod.isSome) (putF F.RUL_SYNC_CFG_TOD_VALID (bit r.todSec.isSome) v)
  | 0x1040 => r.offsetReg
  | 0x1044 => unsignedOf 32 r.rate
  | 0x2004 =>
    putF F.STK_STATUS_SLOW_LUNS (s.stk.stats.filter (fun t => t.slow)).length (putF F.STK_STATUS_ADMITTED s.stk.admitted.length v)
  | 0x3004 => putF F.EVU_STATUS_PENDING s.evuPending (putF F.EVU_STATUS_LOG_HEAD (s.evu.total % 1024) v)
  | 0x3010 => s.guar
  | _ => if 0x3100 ≤ off && off < 0x31A0 then s.evuBits ((off - 0x3100) / 4) else v

/-- The same of the INK_, LIG_ and MAP_ blocks. -/
def State.showMedia (s : State) (off v : Nat) : Nat :=
  let o := s.fld F.INK_OWNER_SEL_OWNER
  let lanes (p : Lane → Bool) : Nat := (s.ink.lanes.mapIdx (fun i l => 2 ^ i * bit (p l))).sum
  let cut := s.ckpt.cuts.find? (fun c => c.slot == s.fld F.MAP_CUT_SEL_CUT)
  match off with
  | 0x4004 => putF F.INK_STATUS_FREE s.inkFree (putF F.INK_STATUS_REGISTERED s.ink.owners.length v)
  | 0x4008 => putF F.INK_POOL_CELLS s.poolCells (putF F.INK_POOL_BANKS s.inkB v)
  | 0x4014 =>
    match s.ink.owners.find? (fun w => w.id == o) with
    | some w => if w.dynamic then 2 else 1
    | none => 0
  | 0x4020 => if s.ink.owners.any (fun w => w.id == o) then s.effMin o else 0
  | 0x4024 => s.held o
  | 0x402C => lanes (fun l => l.inService) + 2 ^ 16 * lanes (fun l => l.masked)
  | 0x4030 => s.ink.keys.length
  | 0x5004 => putF F.LIG_STATUS_GROUPS s.map.groups.length (putF F.LIG_STATUS_ACC_USED s.accUsed v)
  | 0x502C => putF F.LIG_PATROL_POS_PERMILLE (s.map.patrolDone * 1000 / max 1 s.map.patrolTotal) v
  | 0x5030 =>
    (s.map.bands.filter (fun b => b.exposed)).length % 2 ^ 20 + 2 ^ 20 * (s.nib.luns.filter (fun l => l.retired)).length
  | 0x6004 =>
    let t := (s.map.tickets.filter (fun t => t.state == 1 || t.state == 2)).length
    putF F.MAP_STATUS_CACHED (bit s.cached) (putF F.MAP_STATUS_LEVEL s.map.level
      (putF F.MAP_STATUS_REGION_GIB (s.map.d5Gib - 16) (putF F.MAP_STATUS_TICKETS t v)))
  | 0x601C => s.freeBands
  | 0x6020 => s.map.inflight.length
  | 0x6044 =>
    putF F.MAP_CKPT_STATUS_RUNNING (bit s.ckpt.running.isSome)
      (putF F.MAP_CKPT_STATUS_SEQ ((s.ckpt.newest.map (fun i => i.seq)).getD 0) v)
  | 0x6058 =>
    match cut with
    | some c =>
      let n := if c.state = 2 then c.snaps.foldl min (c.snaps.headD 0) else 0
      putF F.MAP_CUT_INFO_STATE c.state (putF F.MAP_CUT_INFO_ALL (bit c.all) (putF F.MAP_CUT_INFO_ORIGIN c.origin
        (putF F.MAP_CUT_INFO_CLASS (if c.state = 2 then c.cls else 0) (putF F.MAP_CUT_INFO_NSID n 0))))
    | none => 0
  | 0x605C => (cut.map (fun c => c.time % 2 ^ 32)).getD 0
  | 0x6060 => (cut.map (fun c => c.time / 2 ^ 32)).getD 0
  | 0x6064 => (cut.map s.cutPin).getD 0
  | _ => v

/-- The same of the TINE_, GCE_, FOL_, PWR_ and THM_ blocks. -/
def State.showControl (s : State) (off v : Nat) : Nat :=
  let t := s.tine
  let w := s.fld F.FOL_FUSE_SEL_WORD
  let e := s.fld F.FOL_ECNT_SEL_SECTOR
  let i := s.fld F.THM_SEL_SENSOR
  match off with
  | 0x7004 =>
    let d := if s.pwr.clkDiv = 2 then 1 else if s.pwr.clkDiv = 4 then 2 else 0
    putF F.TINE_STATUS_ACTIVE (bit t.active) (putF F.TINE_STATUS_PAIRED (bit t.paired)
      (putF F.TINE_STATUS_OVERLAP (bit (t.ho.any (fun h => h.overlap))) (putF F.TINE_STATUS_A_STATE t.a.code
        (putF F.TINE_STATUS_B_STATE t.b.code (putF F.TINE_STATUS_CLK_DIV d v)))))
  | 0x7008 => putF F.TINE_DRILL_NEXT_MIN s.drillMinutes v
  | 0x8000 => 2 * bit s.gce.entropyOk + 4 * bit (!s.gce.entropyOk)
  | 0x8004 => s.gce.owner + (s.gce.waiting.map (fun x => 2 ^ (x.1 + 3))).sum
  | 0x8008 => min (2 ^ 32 - 1) s.gce.reseeds
  | 0x9004 =>
    putF F.FOL_STATUS_LC s.lifecycle (putF F.FOL_STATUS_BOOT_SLOT s.bxl.runSlot
      (putF F.FOL_STATUS_LC_BUSY (bit s.fol.trans.isSome) (putF F.FOL_STATUS_SPARES (798 - s.fol.remap.length) v)))
  | 0x9008 => s.fol.bootSeq % 2 ^ 32
  | 0x900C => s.fol.bootSeq / 2 ^ 32
  | 0x9014 => ((s.fol.wear.lookup e).getD 0) % 2 ^ 17 + 2 ^ 17 * bit (s.fol.remap.any (fun x => x.1 == e))
  | 0x901C => s.fuseShown w % 2 ^ 32
  | 0x9020 => s.fuseShown w / 2 ^ 32
  | 0x9024 => bit (s.fol.marginal.contains w) + 2 * bit (s.fuseByRule w)
  | 0xA41C => min 65535 s.fol.shut.huUs + 2 ^ 16 * s.fol.shut.kind
  | 0xA424 =>
    let g := (s.blt.pages.filter (fun p => p.phase == .open)).length
    s.openRows.length % 256 + 2 ^ 8 * (g % 256) + 2 ^ 16 * ((s.blt.sets.filter (fun x => x.full)).length % 256)
  | 0xB004 =>
    putF F.THM_STATUS_J_MAX (unsignedOf 8 s.thm.hotJ) (putF F.THM_STATUS_N_MAX (unsignedOf 8 (s.hotN.getD 0))
      (putF F.THM_STATUS_BAND_MAX (match s.nib.luns with
        | [] => 2
        | l :: ls => ls.foldl (fun m x => max m x.rband) l.rband) v))
  | 0xB018 =>
    match s.thm.sensors[i]? with
    | some x => unsignedOf 8 (s.thm.reading i) + 2 ^ 8 * unsignedOf 8 x.max + 2 ^ 16 * bit x.masked
    | none => 0
  | _ => v

/-- The same of the BXL_ and HP_ blocks. -/
def State.showLinks (s : State) (off v : Nat) : Nat :=
  let b := s.bxl
  match off with
  | 0xC004 =>
    b.id % 2 ^ 14 + 2 ^ 14 * bit b.idValid + 2 ^ 15 * bit b.idStale + 2 ^ 16 * bit b.up.linked + 2 ^ 17 * bit b.dn.linked
      + 2 ^ 18 * bit b.isMaster + 2 ^ 19 * bit b.contended
  | 0xC008 => (b.master.getD 0) % 2 ^ 14 + 2 ^ 14 * bit b.master.isSome + 2 ^ 16 * min (2 ^ 14 - 1) s.rul.hops
  | 0xC018 =>
    match b.report with
    | some r => putF F.BXL_SWEEP_LAST r.status (putF F.BXL_SWEEP_OPEN_AFTER r.openAfter v)
    | none => v
  | 0xC020 =>
    putF F.BXL_FW_STATUS_TRIAL (bit (s.mode == .trial)) (putF F.BXL_FW_STATUS_RUN_SLOT b.runSlot
      (putF F.BXL_FW_STATUS_PENDING b.rcd.pending (putF F.BXL_FW_STATUS_ROT_STEP b.rcd.rotStep
        (putF F.BXL_FW_STATUS_LAST_OUT b.lastOut (putF F.BXL_FW_STATUS_WD_S (s.wdLeft / secT) v)))))
  | _ => if 0xD200 ≤ off && off < 0xD300 && !s.flag F.HP_CFG_DUAL then 0 else v

/-- The same of a Nib's window (R396, R431). -/
def State.showNib (s : State) (n off v : Nat) : Nat :=
  match off with
  | 0x04 => putF (F.NIB_STATUS_LUNS 0) (s.lunsOf n).length (putF (F.NIB_STATUS_RING_USED 0) (s.ringUsed n) v)
  | 0x84 =>
    let l := n * 64 + s.fld (F.NIB_LUN_SEL_TGT n) * 8 + s.fld (F.NIB_LUN_SEL_LUN n)
    match s.nib.luns.find? (fun x => x.lun == l) with
    | some x =>
      let ok := x.tempValid && s.now ≤ x.tempAt + 10 * secT
      let k := (s.stk.strokes.find? (fun k => k.lun == l && (k.phase == .launched || k.phase == .suspended) && k.parent.isNone)).map (fun k => k.susp)
      x.code + 2 ^ 3 * x.rband + 2 ^ 6 * bit ok + 2 ^ 8 * unsignedOf 8 x.temp + 2 ^ 16 * (x.dieType % 16)
        + 2 ^ 20 * min 15 (k.getD 0) + 2 ^ 24 * min 255 x.tmoCnt
    | none => v
  | 0x88 => (s.nib.ecache.filter (fun e => chanOf e.1.1 == n)).length
  | 0xA4 =>
    putF (F.NIB_Q_STATUS_CONTEXTS 0) (s.nib.ctxs.filter (fun x => x.nib == n)).length
      (putF (F.NIB_Q_STATUS_IN_HOUR 0) (s.mchksInHour n) v)
  | _ => v

/-- What a read of a 4-byte-aligned BAR2 offset returns (R636): reserved offsets read 0 (R124, R637), the SCR window its bytes
(R422), a W1S bit with no state of its own 0. -/
def State.regRead (s : State) (off : Nat) : Nat :=
  if 0x40000 ≤ off && off < 0x80000 then
    ((List.range 4).map (fun i => (windowByte s.nib.window (off - 0x40000 + i)).toNat * 2 ^ (8 * i))).sum
  else
    match regDesc off with
    | none => 0
    | some _ =>
      let v := s.reg (s.viewKey off)
      if 0x10000 ≤ off then s.showNib ((off - 0x10000) / 0x1000) (off % 0x1000) v
      else
        match off / 0x1000 with
        | 4 | 5 | 6 => s.showMedia off v
        | 7 | 8 | 9 | 10 | 11 => s.showControl off v
        | 12 | 13 => s.showLinks off v
        | _ => s.showCore off v

/-- A read with its side effects (R636): the lower register of a pair latches the higher one, which the next read of the
higher one returns. Log entry 47 (DEDUCED). -/
def State.regReadStep (s : State) (off : Nat) : State × Nat :=
  if off = 0x1010 then
    let ns := s.now / 256
    ({ s with rul := { s.rul with snapHi := ns / 2 ^ 32 % 2 ^ 32, snapAux := s.rul.cls + s.uncNow * 2 ^ 16 } }, ns % 2 ^ 32)
  else if pairLos.contains off then
    let hi := off + 4
    ({ s with rul := { s.rul with latchHi := (hi, s.regRead hi) :: s.rul.latchHi.filter (fun e => e.1 != hi) } }, s.regRead off)
  else
    match s.rul.latchHi.lookup off with
    | some v => ({ s with rul := { s.rul with latchHi := s.rul.latchHi.filter (fun e => e.1 != off) } }, v)
    | none => (s, s.regRead off)

/-! ## Writes -/

/-- What a field stores of a written value under its write rule; none where the write is ignored. -/
def WriteRule.apply (r : WriteRule) (v : Nat) : Option Nat :=
  match r with
  | .any => some v
  | .within lo hi => if lo ≤ v && v ≤ hi then some v else none
  | .atLeast lo => some (max lo v)
  | .atMost hi => some (min hi v)
  | .cap lo hi => if v < lo then none else some (min hi v)
  | .oneOf vs => if vs.contains v then some v else none

/-- The mask of a register's enabled bytes (R636). -/
def byteMask (be : Nat) : Nat := ((List.range 4).map (fun i => if be.testBit i then 0xFF * 2 ^ (8 * i) else 0)).sum

/-- What a field stores, with the rules that look at more than the field (R48, R150, R212, R263): none where the write is
ignored. -/
def State.fieldRule (s : State) (off : Nat) (f : FieldDesc) (v : Nat) : Option Nat :=
  let o := s.fld F.INK_OWNER_SEL_OWNER
  if off = 0x6018 && f.lo = F.MAP_WP_CFG_HANDLES.lo then
    if v = s.fld F.MAP_WP_CFG_HANDLES || (1 ≤ v && v ≤ 120 && !s.hasNamespace) then some v else none
  else if off = 0x4018 then
    let old := s.fld (F.INK_OWNER_MIN_MIN o)
    let reg := s.ink.owners.any (fun w => w.id == o)
    if s.fld (F.INK_OWNER_MAX_MAX o) < v || (reg && 73728 < s.sumMin - old + v) then none else some v
  else if off = 0x401C then some (max v (s.fld (F.INK_OWNER_MIN_MIN o)))
  else if (off = 0xD100 || off = 0xD200) && f.lo = 3 && v = 8 && s.flag F.HP_CFG_DUAL then none
  else f.rule.apply v

/-- What a refused field raises (R212, R263). -/
def State.fieldRefused (s : State) (off : Nat) (f : FieldDesc) : State :=
  if off = 0x6018 && f.lo = F.MAP_WP_CFG_HANDLES.lo then s.post F.MAP_EVT_STATUS_FDP_REJ noUnit
  else if off = 0x4018 then s.post F.INK_EVT_STATUS_MIN_REJ (s.fld F.INK_OWNER_SEL_OWNER)
  else s

/-- Whether a register ignores a written value as a whole: a source named twice in RUL_SRC_PRIO (R48), thresholds out of order
in MAP_GC_THRESH (R266). Log entry 48 (DEDUCED). -/
def wholeRefused (off v : Nat) : Bool :=
  if off = 0x100C then
    let a := bitsOf v 0 2
    let b := bitsOf v 2 2
    let c := bitsOf v 4 2
    (a != 0 && (a == b || a == c)) || (b != 0 && b == c)
  else if off = 0x6010 then !(bitsOf v 10 10 < bitsOf v 0 10 && bitsOf v 20 10 < bitsOf v 10 10 && bitsOf v 20 10 != 0)
  else false

/-- What follows from a register's new contents: level 0 without throttling (R608), holdover without discipline (R56), PTM out of use (R49, R55), the cap (R89), and the changes that wait for a BOOT (R245, R324, R332). Log entry 103 (DEDUCED). -/
def State.afterWrite (s : State) (off : Nat) : State :=
  match off with
  | 0x1000 => if s.flag F.RUL_CTRL_DISC_EN then s else s.reselect
  | 0x1030 => if s.flag F.RUL_PTM_CFG_EN then s else { s with rul := { s.rul with dialog := [] } }.loseSource .ptm
  | 0xB000 => if s.flag F.THM_CTRL_THROTTLE_EN || s.fld F.THM_STATUS_LEVEL = 0 then s else s.setLevel 0
  | 0x2008 | 0x200C | 0x2014 | 0xA02C | 0xA030 | 0xA034 => s.refreshCap
  | 0x5008 => if s.fld F.LIG_CFG_WIDTH = s.fld F.LIG_CFG_WIDTH_ACTIVE then s else s.post F.LIG_EVT_STATUS_CFG_PEND noUnit
  | 0x500C => if s.fld F.LIG_ECC_CFG_RATE = s.fld F.LIG_ECC_CFG_RATE_ACTIVE then s else s.post F.LIG_EVT_STATUS_CFG_PEND noUnit
  | 0x6008 => if s.fld F.MAP_CFG_IU = s.fld F.MAP_CFG_IU_ACTIVE then s else s.post F.MAP_EVT_STATUS_IU_PEND noUnit
  | off => if 0x2400 ≤ off && off < 0x2800 then s.refreshCap else s

/-- The seal (R639, R641): SEAL is set and the RWS values in force go to the settings copies, copy A before copy B; in TRIAL they
are held until the confirmation (R582). -/
def State.sealSet (s : State) : State :=
  if s.flag F.DEV_SEAL_SEAL then s
  else
    let s1 := (s.setFld F.DEV_SEAL_SEAL 1).setFld F.DEV_SEAL_SAVED 0
    let s2 : State := { s1 with fol := { s1.fol with setNew := s1.rwsValues } }
    if s.mode = .trial then ({ s2 with bxl := { s2.bxl with heldSets := true } }).setFld F.DEV_SEAL_HELD 1
    else s2.folio { job := .settings false, erase := true }

/-- One field of a register write (R636, R639): the state, and whether the seal refused a change. -/
def State.fieldWrite (off key be v : Nat) (acc : State × Bool) (f : FieldDesc) : State × Bool :=
  let s := acc.1
  let m := byteMask be
  let fld : Fld := ⟨key, f.lo, f.w⟩
  let old := s.reg key
  let new := bitsOf (old &&& (2 ^ 32 - 1 - m) ||| (v &&& m)) f.lo f.w
  let set := bitsOf (v &&& m) f.lo f.w
  match f.acc with
  | .ro => acc
  | .w1c => if set = 1 then (s.setFld fld 0, acc.2) else acc
  | .w1cAll => if set % 2 = 1 then (s.setFld fld 0, acc.2) else acc
  | .w1s =>
    if set = 0 then acc
    else
      match off with
      | 0x0008 => (s.sealSet, acc.2)
      | 0x1020 => ({ s with rul := { s.rul with
          tod := some (s.fld F.RUL_TOD_SEC_LO_SEC + s.fld F.RUL_TOD_SEC_HI_SEC * 2 ^ 32, s.now) } }, acc.2)
      | 0x0010 => acc
      | _ => ((s.setFld fld 1).trainDue ((off - 0x10000) / 0x1000), acc.2)
  | .rw | .rws =>
    if bitsOf m f.lo f.w = 0 then acc
    else if s.flag F.DEV_SEAL_SEAL && !f.keep then (s, acc.2 || new != s.fld fld)
    else
      match s.fieldRule off f new with
      | some x => (s.setFld fld x, acc.2)
      | none => (s.fieldRefused off f, acc.2)

/-- A write of a register's enabled bytes (R636 to R640). A write to a reserved offset is discarded (R124, R637). -/
def State.regWrite (s : State) (off be v : Nat) : State :=
  match regDesc off with
  | none => s
  | some d =>
    let key := s.viewKey off
    let m := byteMask be
    if wholeRefused off (s.reg key &&& (2 ^ 32 - 1 - m) ||| (v &&& m)) && !s.flag F.DEV_SEAL_SEAL then s
    else
      let r := d.fields.foldl (State.fieldWrite off key be v) (s, false)
      (if r.2 then r.1.post F.DEV_EVT_STATUS_SEALED_WR noUnit else r.1).afterWrite off

/-- A write of bytes to the SCR window (R422): discarded after the seal. -/
def State.scrWrite (s : State) (off n v : Nat) : State :=
  if s.flag F.DEV_SEAL_SEAL then s
  else
    let w := (List.range n).foldl (fun m i => windowPut m (off - 0x40000 + i) (BitVec.ofNat 8 (v / 2 ^ (8 * i)))) s.nib.window
    { s with nib := { s.nib with window := w } }

/-- A host access of `len` bytes to BAR2 (R124, R636): 1 to 4 bytes of one register, or an aligned 8 bytes of two, the lower
first. Any other access is an Unsupported Request, which AER logs, and changes nothing. Log entry 49 (DEDUCED). -/
def State.barWrite (s : State) (pf off len v : Nat) : State :=
  if off + len ≤ 0x80000 && 0x40000 ≤ off && len ≤ 8 then s.scrWrite off len v
  else if len = 8 && off % 8 = 0 then (s.regWrite off 15 (v % 2 ^ 32)).regWrite (off + 4) 15 (v / 2 ^ 32)
  else if 1 ≤ len && off % 4 + len ≤ 4 then s.regWrite (off / 4 * 4) ((2 ^ len - 1) * 2 ^ (off % 4)) (v * 2 ^ (8 * (off % 4)) % 2 ^ 32)
  else (s.emit (.unsupported pf)).aerPost pf .unsupportedRequest

/-! ## The commands -/

/-- Whether BAR2 of a PF can be reached: it is present, its port's configuration space is used, and rails are up (R123,
R148). -/
def State.barReached (s : State) (pf : Nat) : Bool :=
  s.mode != .off && s.mode != .holdUp && s.hasPort (s.portOf pf) && (pf = 0 || (pf = 1 && (s.flag F.HP_CFG_DUAL || s.flag F.HP_CFG_PF1_EN)))
    && ((s.hp.ports[s.portOf pf]?).map (fun x => x.cfg)).getD false

/-- REGISTER_WRITE (R128, R636, R639): a write to BAR2 of a PF; a poisoned one is discarded. In DOZE, and during an entry, an inbound access
is a wake event (R594); it is answered after the wake. Log entries 37 and 49 (DEDUCED). -/
def execRegisterWrite (pf off len : Nat) (value : WriteData) (s : State) : Res :=
  if !s.barReached pf then .next s
  else if value.poison then .next ((s.wakeEvent 6).poisonIn pf)
  else .next ((s.wakeEvent 6).barWrite pf off len value.value)

/-- DEV_SEAL_WRITE (R639 to R641): a write of 1 to DEV_SEAL.SEAL. -/
def execDevSealWrite (s : State) : Res := if s.mode = .off || s.mode = .holdUp then .next s else .next (s.wakeEvent 6).sealSet

/-- LO_HI_PAIR_READ (R129, R636): a read of the lower register of a pair returns it and latches the higher one; where the register's stored
word fails its ECC check the completion carries EP, and POISON_OUT reports the fault. Log entry 47 (DEDUCED). -/
def execLoHiPairRead (off : BarRead) (s : State) : Res :=
  if s.mode = .off || !pairLos.contains off.off then .next s
  else if off.bad then .next (((s.wakeEvent 6).emit (.barPoison off.off)).postAs F.HP_EVT_STATUS_POISON_OUT 35 .corrected noUnit)
  else
    let r := (s.wakeEvent 6).regReadStep off.off
    .next (r.1.emit (.regRead off.off r.2))

end Sys2Proof.Machine
end

