-- ==== Sys2Proof/Machine/LogPages.lean ====
section
/-! DEFINITION. The log pages (R76, R189, R190, R223, R273, R279, R509, R516, R538, R568, R587, R611, R614) and Get Log Page.
A page is given as its fields, each a byte offset, a length in bytes and a value; a byte of a supported page that no field
covers reads 0, and so does what the base specification alone defines. -/

namespace Sys2Proof.Machine

/-- A value that saturates in 32 bits. -/
def sat32 (v : Nat) : Nat := min (2 ^ 32 - 1) v

/-- A bit mask over a range. -/
def maskOver (n : Nat) (p : Nat → Bool) : Nat := ((List.range n).map (fun i => 2 ^ i * bit (p i))).sum

/-- STATE of a LUN in pages 0xC3 and 0xC7 (R190). -/
def State.lunState (s : State) (l : Nat) : Nat :=
  if !s.nib.luns.any (fun x => x.lun == l) then 4
  else if (s.lun l).retired || s.nibMasked (chanOf l) then 3
  else if (s.stat l).failed then 2 else if (s.stat l).slow then 1 else 0

/-! ## The vendor pages -/

/-- An entry's signatures, 0 when UNSIGNED, and SELF (R532), its length `len` bytes. -/
def signEntry (len : Nat) (unsigned : Bool) (fs : Fields) : Fields :=
  let body := fieldBytes (len - 3456) fs
  let signed := if unsigned then fs else fs ++ [(len - 3456, 3309, Config.signature 0 body), (len - 144, 96, Config.signature 1 body)]
  signed ++ [(len - 48, 48, Config.sha384 (fieldBytes (len - 48) signed))]

/-- An event entry (R532, R535). -/
def ColEntry.fields (e : ColEntry) : Fields :=
  signEntry (4096 * e.secs) e.unsigned ([(0, 4, 0x4C4F4843), (4, 1, 1), (5, 1, e.secs), (6, 1, e.kind),
    (7, 1, bit e.unsigned + 2 * bit e.det + 4 * bit e.margin), (8, 8, e.eseq), (16, 8, e.bootSeq)] ++ stampAt 24 e.stamp ++
    [(36, 48, e.prev), (84, 48, e.digest)] ++ fieldsAt 132 e.payload)

/-- Log page 0xC0's entry at a byte (R538). -/
def colFields (at_ : Nat) (e : ColEntry) : Fields := fieldsAt at_ e.fields

/-- A boot record (R532, R533). -/
def BootRec.fields (b : BootRec) : Fields :=
  signEntry 4096 b.unsigned ([(0, 4, 0x4C4F4843), (4, 1, 1), (5, 1, 1), (6, 1, 1),
    (7, 1, bit b.unsigned + 2 * bit b.det + 4 * bit (!b.margin.isEmpty) + 8 * bit (2 < b.scrN)),
    (8, 8, b.eseq), (16, 8, b.bootSeq)] ++ stampAt 24 b.stamp ++ [(36, 48, b.prev), (84, 48, b.digest)] ++
    [(132, 1, b.lifecycle), (133, 1, b.slot), (134, 1, b.scrN), (135, 1, if b.safe then 7 else 1),
     (136, 48, b.romId), (184, 48, b.bl), (232, 48, b.fw), (280, 48, b.settingsSha), (328, 48, b.fuses),
     (376, 32, (b.margin.map (fun w => 2 ^ w)).sum), (408, 48, b.scrSha)] ++
    (List.range 48).map (fun n => (456 + n, 1, b.nibIdx.getD n 0xFF)) ++ b.meas.mapIdx (fun i v => (504 + 48 * i, 48, v)))

/-- Log page 0xC0's boot record at a byte (R538). -/
def bootFields (at_ : Nat) (b : BootRec) : Fields := fieldsAt at_ b.fields

/-- Log page 0xC0, Colophon (R538); sectors not written read 0xFF. -/
def State.page0xC0 (s : State) : Fields :=
  let newest := (s.fol.boots.map (fun b => (b.eseq, b.digest)) ++ s.fol.events.map (fun e => (e.eseq, e.digest))).foldl
    (fun (m : Nat × Nat) e => if m.1 < e.1 then e else m) (0, 0)
  let blank (at_ : Nat) : Nat × Nat × Nat := (at_, 4096, 2 ^ 32768 - 1)
  let used (k : Nat) : Bool := s.fol.events.any (fun e => decide (e.sector ≤ k) && decide (k < e.sector + e.secs))
  [(0, 8, s.fol.bootSeq), (8, 8, newest.1), (16, 4, s.fol.boots.length), (20, 4, (s.fol.events.map (fun e => e.sector)).headD 0),
   (24, 48, newest.2), (72, 1952, Config.idKey 0), (2024, 97, Config.idKey 1)] ++
  (List.range 4).map (fun i => (2128 + 8 * i, 8, s.fol.count i)) ++
  (s.fol.boots.mapIdx (fun k b => bootFields (4096 + 4096 * k) b)).flatten ++
  ((List.range 4096).filter (fun k => s.fol.boots.length ≤ k)).map (fun k => blank (4096 + 4096 * k)) ++
  s.fol.events.flatMap (fun e => colFields (16781312 + 4096 * e.sector) e) ++
  ((List.range 1024).filter (fun k => !used k)).map (fun k => blank (16781312 + 4096 * k))

/-- Log page 0xC1, Ruling Status (R76). HOLD_NS is free while no sample has been valid since BOOT. Log entry 81 (DESIGN CHOICE). -/
def State.page0xC1 (s : State) : Fields :=
  let r := s.rul
  let q := bit r.sync.qual + 2 * bit r.bxl.qual + 4 * bit r.ptm.qual
  stampAt 0 s.stamp ++
  [(12, 1, srcCode r.follow), (13, 1, bit r.lock + 2 * bit r.back + 4 * bit (r.maskA || r.maskB) + 8 * q), (14, 2, s.pitchNs),
   (16, 4, r.offsetReg), (20, 4, unsignedOf 32 r.rate), (24, 2, if r.follow = .bxl then r.hops else 0xFFFF),
   (28, 8, (r.validAt.map (fun t => (s.now - t) / 256)).getD Config.holdNs % 2 ^ 64)] ++ stampAt 36 r.lastStep ++ [(48, 8, r.stepNs)]

/-- Log page 0xC2's header, up to the class counts (R516). -/
def State.healthHeader (s : State) : Fields :=
  let below (p : Nat) : Nat :=
    let st := ((s.hp.ports[p]?).map (fun x => x.settled)).getD (0, 0)
    if s.flag (F.HP_LINK_STATUS_UP p) then bit (st.1 < s.fld (F.HP_LINK_CFG_TGT_SPEED p)) + 2 * bit (st.2 < s.fld (F.HP_LINK_CFG_TGT_WIDTH p)) else 0
  stampAt 0 s.stamp ++
  [(12, 1, s.mode.code), (13, 1, s.guar), (14, 1, s.fld F.EVU_SAFE_CAUSE), (15, 1, s.fld F.EVU_SAFE_MEDIA),
   (16, 4, s.evu.total % 1024), (20, 8, s.evu.total), (28, 6, maskOver 48 s.nibMasked),
   (34, 2, 0xFFFF - s.fld F.INK_BANKS_HEALTHY), (36, 2, (s.ink.lanes.mapIdx (fun i l => 2 ^ i * bit l.masked)).sum),
   (38, 2, (s.nib.luns.filter (fun l => l.retired)).length), (40, 1, below 0 + 4 * below 1), (41, 1, bit (s.rul.maskA || s.rul.maskB)),
   (44, 4, (s.map.bands.filter (fun b => b.exposed)).length), (48, 1, bit s.tine.active + 2 * bit s.tine.paired),
   (49, 1, s.tine.a.code), (50, 1, s.tine.b.code), (51, 1, s.fld F.TINE_HO_LAST_CAUSE), (52, 4, s.fld F.TINE_CNT_HANDOVERS),
   (56, 8, s.fld F.TINE_HO_STAMP_LO_NS + 2 ^ 32 * s.fld F.TINE_HO_STAMP_HI_NS)]

/-- A health-log entry at a byte (R516). -/
def logFields (at_ : Nat) (e : LogEntry) : Fields :=
  stampAt at_ e.stamp ++ [(at_ + 12, 2, e.source), (at_ + 14, 1, e.cls), (at_ + 15, 1, e.mode), (at_ + 16, 4, e.unit),
    (at_ + 20, 4, e.count), (at_ + 24, 8, e.detail)]

/-- Log page 0xC2 (R516). -/
def State.page0xC2 (s : State) : Fields :=
  s.healthHeader ++ (List.range 40).map (fun g => (64 + 4 * g, 4, s.evuBits g)) ++
  s.evu.classCnt.mapIdx (fun i c => (256 + 4 * i, 4, c)) ++
  (s.evu.log.mapIdx (fun j e => logFields (512 + 32 * ((s.evu.total + 1023 - j) % 1024)) e)).flatten

/-- What a block is, in the counters of log page 0xC3 (R273). -/
def State.blockState (s : State) (l k : Nat) : Nat :=
  if !s.nib.luns.any (fun x => x.lun == l) then 6
  else if s.map.factoryBad.contains (l, k) then 5
  else if s.map.badBlocks.contains (l, k) || (s.lun l).retired then 4
  else if s.blt.blocks.any (fun b => b.1 == l && b.2.2 == k) then 3
  else
    match s.map.bands.find? (fun b => b.block == k && b.members.contains l) with
    | some b => match b.state with | .closed => 0 | .free => 1 | .open => 2 | .retired => 4
    | none => 1

/-- MIN, MAX and MEAN of the erase counts of a LUN's in-service blocks (R273). -/
def countStats (l : List Nat) : Nat × Nat × Nat :=
  match l with
  | [] => (0, 0, 0)
  | x :: xs => (xs.foldl min x, xs.foldl max x, l.sum / l.length)

/-- The erase counts of a LUN's in-service blocks. -/
def State.lunCounts (s : State) (l : Nat) : List Nat :=
  if s.lunState l = 4 || s.lunState l = 3 then []
  else ((List.range s.geoBlocks).filter (fun k => s.blockState l k < 4)).map (s.eraseCount l)

/-- Log page 0xC3, Erase Counters (R273). -/
def State.page0xC3 (s : State) : Fields :=
  let n := s.geoBlocks
  let luns := List.range 3072
  let all := countStats (luns.flatMap s.lunCounts)
  let lunRec (l : Nat) : Fields :=
    let c := countStats (s.lunCounts l)
    let at_ := 1152 + 16 * l
    [(at_, 4, c.1), (at_ + 4, 4, c.2.1), (at_ + 8, 4, c.2.2), (at_ + 12, 2, (s.map.badBlocks.filter (fun e => e.1 == l)).length),
     (at_ + 14, 1, s.lunState l)]
  stampAt 0 s.stamp ++
  [(12, 4, n), (16, 4, s.fld F.MAP_WEAR_RATED), (20, 4, all.1), (24, 4, all.2.1), (28, 4, all.2.2), (32, 8, s.map.wlMoves),
   (40, 8, s.map.nErases)] ++
  (s.map.tickets.mapIdx (fun i (t : Ticket) => [(128 + 16 * i, 4, t.ticket), (132 + 16 * i, 1, t.state), (136 + 16 * i, 8, t.doneNs)])).flatten ++
  luns.flatMap lunRec ++
  luns.flatMap (fun l => (List.range n).map (fun k =>
    (50304 + 4 * (l * n + k), 4, s.eraseCount l k % 2 ^ 28 + 2 ^ 28 * s.blockState l k)))

/-- Log page 0xC4, Inkwell Leak Audit (R223): the last completed pass. -/
def State.page0xC4 (s : State) : Fields :=
  let a := s.ink.audit
  let one (k : Nat) : Fields :=
    let at_ := 64 + 64 * k
    match a.owners.find? (fun w => w.id == k) with
    | none => [(at_, 2, k)]
    | some w =>
      [(at_, 2, k), (at_ + 2, 1, if w.dynamic then 2 else 1), (at_ + 4, 4, w.effMin), (at_ + 8, 4, w.effMax), (at_ + 12, 4, w.held),
       (at_ + 16, 4, w.peak), (at_ + 20, 4, w.waits), (at_ + 56, 4, (a.overran.lookup k).getD 0)] ++
      ((a.ages.lookup k).getD []).mapIdx (fun i c => (at_ + 24 + 4 * i, 4, c))
  stampAt 0 a.stamp ++
  [(12, 4, a.pool), (16, 4, a.free), (20, 4, a.shared), (24, 2, a.banks), (26, 2, a.owners.length),
   (28, 8, a.passes), (36, 4, a.leaks), (40, 4, sat32 a.dup), (44, 4, sat32 a.conserve)] ++
  (List.range 1024).flatMap one

/-- Log page 0xC5, Thermal History (R614). -/
def State.page0xC5 (s0 : State) : Fields :=
  let s := s0.sumTherm
  let sec (t : Nat) : Nat := sat32 (t / secT)
  let lun (l : Nat) : Fields := ((s.thm.bands.lookup l).getD []).mapIdx (fun b t => (320 + 24 * l + 4 * b, 4, sec t))
  let sensor (i : Nat) (x : Sensor) : Fields :=
    [(64 + 8 * i, 1, unsignedOf 8 x.temp), (65 + 8 * i, 1, unsignedOf 8 x.max), (66 + 8 * i, 1, unsignedOf 8 x.min), (67 + 8 * i, 1, bit x.masked)]
  let event (i : Nat) (e : ThermEvent) : Fields :=
    let at_ := 74048 + 32 * i
    stampAt at_ e.stamp ++ [(at_ + 12, 1, e.kind), (at_ + 13, 1, e.level), (at_ + 14, 1, e.sensor), (at_ + 15, 1, unsignedOf 8 e.temp), (at_ + 16, 2, e.lun)]
  stampAt 0 s.stamp ++
  [(12, 1, s.fld F.THM_STATUS_LEVEL), (13, 1, bit (s.flag F.THM_STATUS_ROR) + 2 * bit s.thm.prevShut), (16, 8, s.fol.count 2)] ++
  s.thm.levelT.mapIdx (fun i t => (24 + 4 * i, 4, sec t)) ++ (s.thm.sensors.mapIdx sensor).flatten ++
  (List.range 3072).flatMap lun ++ (s.thm.events.mapIdx event).flatten

/-- Log page 0xC7, Stroke and Latency Statistics (R190). -/
def State.page0xC7 (s : State) : Fields :=
  let k := s.stk
  let one (l : Nat) : Fields :=
    let at_ := 96 + 32 * l
    let t := s.stat l
    let st := s.lunState l
    if st = 4 then [(at_ + 22, 1, 4)]
    else t.means.mapIdx (fun i m => (at_ + 4 * i, 4, sat32 m)) ++
      [(at_ + 20, 2, t.ratio), (at_ + 22, 1, st), (at_ + 23, 1, (s.lun l).rband), (at_ + 24, 4, t.strokes)]
  stampAt 0 k.windowEnd ++
  [(12, 4, 3072), (16, 8, k.nAdmitted), (24, 8, k.nRefused), (32, 8, k.nMissed), (40, 8, k.nAround), (48, 8, k.nOverrun)] ++
  k.pct.mapIdx (fun i p => (56 + 4 * i, 4, p)) ++ (List.range 3072).flatMap one

/-! ## The base specification's pages, as far as the spec states their fields -/

/-- Composite temperature in K, and the sensors 1 and 2 (R611). Log entry 18 (PRESUMED). -/
def State.smartTemps (s : State) : Nat × Nat × Nat :=
  let j := (s.thm.hotJ + 273).toNat
  match s.hotN with
  | some n => ((n + 273).toNat, j, (n + 273).toNat)
  | none => (j, j, 0)

/-- Feature 0x04's threshold of a selector (0 composite, 1 and 2 the sensors; R611): over 358 K for the composite, 65,535 K for a
sensor, and under 0 K, until set. Log entry 18 (PRESUMED). -/
def State.tempThreshold (s : State) (c sel : Nat) (under : Bool) : Nat :=
  let all := s.feat 4 c (358 + 2 ^ 32 * 0xFFFF + 2 ^ 64 * 0xFFFF)
  bitsOf all (32 * sel + if under then 16 else 0) 16

/-- SMART / Health Critical Warning for a controller (R509): bit 1 a temperature at a threshold, bit 2 degraded, bit 3 media
read-only or halted. -/
def State.critical (s : State) (c : Nat) : Nat :=
  let t := s.smartTemps
  let out (sel v : Nat) : Bool := v != 0 && (s.tempThreshold c sel false ≤ v || v ≤ s.tempThreshold c sel true)
  2 * bit (out 0 t.1 || out 1 t.2.1 || out 2 t.2.2) + 4 * bit (s.mode == .degraded || s.mode == .safe) +
    8 * bit (s.mode == .safe && s.fld F.EVU_SAFE_MEDIA != 0)

/-- Percentage Used (R271): the mean erase count over in-service blocks against RATED, at most 255. -/
def State.pctUsed (s : State) : Nat :=
  min 255 ((countStats ((List.range 3072).flatMap s.lunCounts)).2.2 * 100 / max 1 (s.fld F.MAP_WEAR_RATED))

/-- Log page 0x02 (R189, R509, R611): the warnings, the temperatures, the counts of data, commands, media errors and error entries; the
base specification's other fields are open values. Log entry 18 (PRESUMED). -/
def State.page0x02 (s : State) (c : Nat) : Fields :=
  let t := s.smartTemps
  let n := s.qe.counts
  let free (off w : Nat) : Nat × Nat × Nat := (off, w, Config.smart off s.now)
  let errs := ((s.qe.errLog.find? (fun e => e.ctrl == c)).map (fun e => e.no)).getD 0
  [(0, 1, s.critical c), (1, 2, t.1), free 3 1, free 4 1, (5, 1, s.pctUsed), free 6 1, (32, 16, ceilDiv n.rdSectors 1000), (48, 16, ceilDiv n.wrSectors 1000),
   (64, 16, n.rdCmds), (80, 16, n.wrCmds), free 96 16, free 112 16, free 128 16, free 144 16, (160, 16, n.media), (176, 16, errs),
   free 192 4, free 196 4, (200, 2, t.2.1), (202, 2, t.2.2)]

/-- Log page 0x01 (R189): a controller's errors, newest first: count, SQID, CID, Status, and no parameter named. Log entry 18 (PRESUMED). -/
def State.page0x01 (s : State) (c : Nat) : Fields :=
  ((s.qe.errLog.filter (fun e => e.ctrl == c)).mapIdx (fun i e =>
    let id := match e.ref with | .host _ sq cid => (sq, cid) | .side => (0, 0)
    ([(64 * i, 8, e.no), (64 * i + 8, 2, id.1), (64 * i + 10, 2, id.2), (64 * i + 12, 2, 2 * e.status.field), (64 * i + 14, 2, 0xFFFF)] : Fields))).flatten

/-- Log page 0x80 (R189, R200): the oldest notification that has not been read. Log entry 18 (PRESUMED). -/
def State.page0x80 (s : State) (c : Nat) : Fields :=
  match s.ctrl c with
  | none => []
  | some k =>
    match k.rsvLog with
    | [] => [(0, 8, k.rsvNo), (8, 1, 0), (9, 1, 0), (12, 4, 0)]
    | e :: more => [(0, 8, k.rsvNo - more.length), (8, 1, e.1), (9, 1, min 255 more.length), (12, 4, e.2)]

/-- Log page 0x03 (R587): AFI, and FRS1 to FRS3. Log entry 18 (PRESUMED). -/
def State.page0x03 (s : State) : Fields :=
  [(0, 1, s.bxl.runSlot + 16 * s.bxl.rcd.pending)] ++ (List.range 3).map (fun i => (8 + 8 * i, 8, (s.slot (i + 1)).version))

/-- Log page 0x05 (R181): CSUPP of each supported command. Log entry 18 (PRESUMED). -/
def page0x05 (pf : Bool) : Fields :=
  (adminOps.filter (fun o => pf || !o.2)).map (fun o => (4 * o.1, 1, 1)) ++ ioOps.map (fun o => (1024 + 4 * o, 1, 1))

/-- RUNS (R262): WIDTH times the data capacity of one band. -/
def State.runs (s : State) : Nat :=
  let b : Band := { ix := 0, group := 0, block := 0, members := s.map.groups.headD [] }
  s.fld F.MAP_WP_CFG_WIDTH * s.bandCap b * s.iuUnits * 4096

/-- Log pages 0x20 to 0x23 (R262, R264, R265). Log entry 18 (PRESUMED). -/
def State.pageFdp (s : State) (lid : Nat) : Fields :=
  let h := s.fld F.MAP_WP_CFG_HANDLES
  match lid with
  | 0x20 => [(0, 2, 0), (4, 4, 80 + 4 * h), (16, 2, 64 + 4 * h), (20, 4, 1), (24, 2, h), (32, 8, s.runs)] ++ (List.range h).map (fun i => (80 + 4 * i, 1, 1))
  | 0x21 => [(0, 2, h)] ++ (List.range h).map (fun i => (8 + 8 * i, 1, bit (s.qe.nss.any (fun n => n.handles.contains i))))
  | 0x22 => [(0, 16, 512 * s.qe.counts.wrSectors), (16, 16, s.qe.counts.progBytes), (32, 16, s.map.nErases * s.geoPages * s.geoPlanes * s.pageBytes)]
  | 0x23 => [(0, 4, s.map.fdpEvents.length)] ++ (s.map.fdpEvents.mapIdx (fun i e =>
      [(64 + 64 * i, 1, if e.1 = 0 then 3 else 0), (76 + 64 * i, 4, e.2)])).flatten
  | _ => []

/-- Log page 0x81 (R279): status, CDW10 and the estimated times. Log entry 18 (PRESUMED). -/
def State.page0x81 (s : State) : Fields :=
  let z := s.map.sanitize
  let st := if z.failed then 3 else if z.active != 0 then 2 else if z.cdw10 != 0 then 1 else 0
  [(2, 2, st), (4, 4, z.cdw10), (12, 4, 30), (16, 4, 2)]

/-- The page of an identifier for a controller, none where it is not supported (R189). Log entry 18 (PRESUMED). -/
def State.logPage (s : State) (lid c : Nat) (pf : Bool) : Option Fields :=
  match lid with
  | 0x01 => some (s.page0x01 c)
  | 0x02 => some (s.page0x02 c)
  | 0x03 => some s.page0x03
  | 0x04 => some (((s.qe.nsLog.filter (fun e => e.1 == c)).map (fun e => e.2)).mapIdx (fun i n => (4 * i, 4, n)))
  | 0x05 => some (page0x05 pf)
  | 0x20 | 0x21 | 0x22 | 0x23 => some (s.pageFdp lid)
  | 0x80 => some (s.page0x80 c)
  | 0x81 => some s.page0x81
  | 0xC0 => some s.page0xC0
  | 0xC1 => some s.page0xC1
  | 0xC2 => some s.page0xC2
  | 0xC3 => some s.page0xC3
  | 0xC4 => some s.page0xC4
  | 0xC5 => some s.page0xC5
  | 0xC6 => some s.sweepPage
  | 0xC7 => some s.page0xC7
  | _ => none

/-- The size of a vendor page in bytes (R76, R190, R223, R273, R516, R538, R568, R614); 0 where the base specification sizes it. -/
def State.logSize (s : State) (lid : Nat) : Nat :=
  match lid with
  | 0xC0 => 20975616
  | 0xC1 => 64
  | 0xC2 => 33280
  | 0xC3 => 50304 + 12288 * s.geoBlocks
  | 0xC4 => 65600
  | 0xC5 => 76096
  | 0xC6 => 64 + 128 * (match s.bxl.report, s.bxl.held with | some r, _ => r.entries.length | none, some _ => 1 | none, none => 0)
  | 0xC7 => 98400
  | _ => 0

/-! ## Reading a page -/

/-- The sources that a part of PENDING shows set (R512): status bits of the groups, and for bit 15 of a Nib half all of
NIB_Q_EVT_STATUS. Log entry 19 (DEDUCED). -/
def State.clearShown (s : State) (off len : Nat) : State :=
  let shown (g b : Nat) : Bool := off ≤ 64 + 4 * g + b / 8 && 64 + 4 * g + b / 8 < off + len
  let drop (s : State) (key g lo n : Nat) : State :=
    s.setReg key (s.reg key &&& (2 ^ 32 - 1 - maskOver n (fun b => shown g (lo + b))))
  let s1 := (List.range 16).foldl (fun (s : State) g => drop s (evtKeys.getD g 0) g 0 32) s
  (List.range 48).foldl (fun (s : State) n =>
    let g := 16 + n / 2
    let lo := 16 * (n % 2)
    let s1 := drop s (nibBase n + 0x90) g lo 15
    if shown g (lo + 15) then s1.setReg (nibBase n + 0xB0) 0 else s1) s1

/-- A read of log page 0xC2 (R512, R514): with RAE at 0 it clears the sources shown set and lets the next event of each group
through to this controller. -/
def State.healthRead (s : State) (c : Option Nat) (off len : Nat) (rae : Bool) : State :=
  let s1 : State := { s with evu := { s.evu with wasRead := true } }
  if rae then s1
  else
    let s2 := s1.clearShown off len
    match c with
    | some c => { s2 with evu := { s2.evu with aenOut := s2.evu.aenOut.filter (fun e => e.1 != c) } }
    | none => s2

/-- The effects of reading the other pages with RAE at 0: a reservation notification is taken (R200), the changed namespaces
are read (R189). Log entry 19 (DEDUCED). -/
def State.pageRead (s : State) (lid : Nat) (c : Option Nat) (off len : Nat) (rae : Bool) : State :=
  match lid, c with
  | 0xC2, _ => s.healthRead c off len rae
  | 0x80, some c => s.updCtrl c (fun k => { k with rsvLog := k.rsvLog.tail })
  | 0x04, some c => if rae then s else { s with qe := { s.qe with nsLog := s.qe.nsLog.filter (fun e => e.1 != c) } }
  | _, _ => s

/-- Get Log Page (R181, R189): offsets in 4-byte units, within the page. -/
def State.getLogPage (s : State) (ref : Ref) (lid off len : Nat) (rae : Bool) : State :=
  let c := ctrlOf ref
  match s.logPage lid (c.getD 0) (holderOf ref).isSome with
  | none => s.complete ref .invalidLogPage 0
  | some f =>
    if off % 4 != 0 || (s.logSize lid != 0 && s.logSize lid < off) then s.complete ref .invalidField 0
    else ((s.emit (.data ref 2 lid off len f)).pageRead lid c off len rae).complete ref .success 0

/-- GET_LOG_PAGE (R189): the page's fields are returned as data. -/
def execGetLogPage (ref : Ref) (lid off len : Nat) (rae : Bool) (s : State) : Res :=
  if !s.accepts ref then .next s else .next ((s.latch ref).getLogPage ref lid off len rae)

/-- GET_LOG_PAGE_HEALTH (R512): log page 0xC2; with RAE at 0 the sources that it shows set are cleared. -/
def execGetLogPageHealth (ref : Ref) (off len : Nat) (rae : Bool) (s : State) : Res :=
  if !s.accepts ref then .next s else .next ((s.latch ref).getLogPage ref 0xC2 off len rae)

end Sys2Proof.Machine
end

