-- ==== Sys2Proof/Machine/Doze.lean ====
section
/-! DEFINITION. DOZE: its entry through the abort points, its loop and the wake (R178, R179, R596 to R602). -/

namespace Sys2Proof.Machine

/-! ## Entry -/

/-- DOZE_ISLAND_DELAY_EXPIRE (R597): the delay of `us` µs that an island asked for ends and it is asked again; delays beyond MAX_DELAY
count as a refusal. -/
def execDozeIslandDelayExpire (us : Nat) (s : State) : Res :=
  match s.pwr.entry with
  | none => .next s
  | some e =>
    if !e.delay then .next s
    else
      let sum := e.sum + us * 1000
      let s1 : State := { s with pwr := { s.pwr with entry := some { e with sum, delay := false } } }
      if s.fld F.PWR_DOZE_MAX_DELAY * 1000000 < sum then .next s1.dozeRefuse else .next s1.dozeAsk

/-- The commands that DOZE waits for (R598, R600): every outstanding one but those whose completion an entry withholds and the
Asynchronous Event Requests, which end only with an event. Log entry 34 (DEDUCED). -/
def State.commandsOpen (s : State) : Bool :=
  !s.qe.tags.all (fun r => s.qe.withheld.any (fun h => h.ref == r) || s.qe.aers.any (fun a => a.2 == r))

/-- Whether the work before abort point `n` is complete (R598). -/
def State.dozeReady (s : State) (n : Nat) : Bool :=
  match n with
  | 2 => !s.commandsOpen && s.map.wordlines.isEmpty && s.map.wps.all (fun w => w.queue.isEmpty) && s.map.bands.all (fun b => b.moving.isNone)
  | 3 => s.wetBytes == 0 && s.blt.rows.all (fun r => r.parity == 2) && s.blt.pages.all (fun p => p.phase == .passed || p.phase == .lost) &&
      s.map.stripes.isEmpty
  | 4 => s.stk.strokes.isEmpty && s.fol.reqs.isEmpty
  | _ => true

/-- The work that follows abort point `n` (R260, R598): padding after AP1, closing Blotter rows after AP2, the queues' idling at
AP4. -/
def State.dozeWork (s : State) (n : Nat) : State :=
  match n with
  | 1 => (((List.range 128).filter (fun i => s.map.wps.any (fun w => w.ix == i) || !(s.wpBands i).isEmpty)).foldl State.padWp s).pump
  | 2 => (s.closeRows true).pump
  | 4 =>
    let on := (s.qe.sqs.filter (fun q => q.active)).map (fun q => (q.ctrl, q.qid))
    { s with
      qe := { s.qe with sqs := s.qe.sqs.map (fun q => { q with active := false, eventIdx := q.tail }) }
      pwr := { s.pwr with entry := s.pwr.entry.map (fun e => { e with idled := on }) } }
  | _ => s

/-- AP6 (R61, R179, R598): the withheld completion reports the state reached, the Ruling stops and the mode becomes DOZE. -/
def State.dozeEnter (s : State) (level : Nat) : State :=
  let s1 := (((s.setFld F.PWR_STATUS_AP 6).setFld F.PWR_STATUS_PS level).post F.PWR_EVT_STATUS_DOZE_ENTER noUnit).postWithheld level
  let s2 := (if s1.rul.follow = .holdover then s1.avsRequest 10 else (s1.avsRequest 10).post F.RUL_EVT_STATUS_SRC_CHG noUnit).rulStop
  { s2 with mode := .doze, pwr := { s2.pwr with entry := none, wake := none, periods := 0, linkL1 := true, psBefore := s.fld F.PWR_STATUS_PS, from_ := s.mode } }

/-- DOZE_ABORT_POINT (R598, R599): with the work of the next point complete, a wake event or a fetched command since the last point
abandons the entry there; otherwise the point is passed. -/
def execDozeAbortPoint (s : State) : Res :=
  match s.pwr.entry with
  | none => .next s
  | some e =>
    let n := s.fld F.PWR_STATUS_AP + 1
    if e.delay || !s.dozeReady n then .next s
    else
      match s.pwr.wake with
      | some src => .next (s.dozeAbandon src)
      | none => if n = 6 then .next (s.dozeEnter e.level) else .next ((s.setFld F.PWR_STATUS_AP n).dozeWork n)

/-- DOZE_ENTRY_RETRY (R600): 100 ms after a refusal or an abandonment, with no command outstanding and no refusing condition, entry
starts again; it posts no second completion. -/
def execDozeEntryRetry (s : State) : Res :=
  if !s.pwr.retry || s.now < s.pwr.retryAt + 100 * msT || !s.dozeWanted || s.commandsOpen || s.dozeRefused then .next s
  else .next s.dozeStart

/-! ## The loop and the wake -/

/-- DOZE_WAKE (R42, R394, R515, R552, R596, R602): VDD_CORE returns to its RUN setpoint, the Ruling resumes with the elapsed time, the
Nibs retrain, lockstep and fetch resume in the mode DOZE was entered from, and the operational state is in force. Sources that set
in DOZE post now. Log entry 34 (DEDUCED). -/
def State.dozeWake (s : State) (src : Nat) (clk : AonClock) (ticks : Nat) : State :=
  let s1 := ((s.setFld F.RUL_LINE_PITCH_ACTIVE (s.fld F.RUL_LINE_PITCH_PITCH)).avsRequest (s.fld F.PWR_AVS_VNOM)).rulResume clk ticks
  let s2 := (if s1.rul.cls = s.rul.cls then s1 else s1.post F.RUL_EVT_STATUS_CLASS_CHG noUnit).lastWake src 0 0
  let s3 := ((List.range 48).filter (fun n => s2.fld (F.NIB_STATUS_STATE n) == 3)).foldl State.trainDue s2
  let s4 : State := { s3 with
    mode := s3.pwr.from_
    pwr := { s3.pwr with wake := none, linkL1 := false }
    gce := { s3.gce with reqs := 0, reseeds := satAdd (2 ^ 32 - 1) s3.gce.reseeds 1 }
    evu := { s3.evu with deferred := [] }
    qe := { s3.qe with ctrls := s3.qe.ctrls.map (fun c => if 3 ≤ c.ps then { c with ps := s3.pwr.psBefore } else c) } }
  let s5 := (s4.setFld F.PWR_STATUS_AP 0).setFld F.PWR_STATUS_PS s3.pwr.psBefore
  (((s5.postDeferred s3.evu.deferred).post F.PWR_EVT_STATUS_WAKE noUnit).refreshCap).settle

/-- A sensor after the always-on island's reading of it (R601): the reading, and the highest and lowest seen. -/
def notedSensor (temps : List Int) (i : Nat) (x : Sensor) : Sensor :=
  match temps[i]? with
  | some t => { x with temp := t, max := max x.max t, min := min x.min t }
  | none => x

end Sys2Proof.Machine
end

