-- ==== Sys2Proof/Machine/Reservations.lean ====
section
/-! DEFINITION. The reservation commands (R195 to R200). -/

namespace Sys2Proof.Machine

/-- Changes one namespace. -/
def State.updNs (s : State) (nsid : Nat) (f : Ns → Ns) : State :=
  { s with qe := { s.qe with nss := updWhere (fun n => n.nsid == nsid) f s.qe.nss } }

/-- Notes a reservation change of a type (1 Registration Preempted, 2 Reservation Released, 3 Reservation Preempted) on log page 0x80 of
every controller of the hosts affected (R200). The type's bit of feature 0x82 masks the event Reservation Log Page Available. Log entry 18 (PRESUMED). -/
def State.rsvNotify (s : State) (nsid type : Nat) (hosts : List Nat) : State :=
  let hit (c : Ctrl) : Bool := (match c.hostId with | some h => hosts.contains h | none => false)
  let s1 : State := { s with qe := { s.qe with
    ctrls := updWhere hit (fun c => { c with rsvLog := c.rsvLog ++ [(type, nsid)], rsvNo := c.rsvNo + 1 }) s.qe.ctrls } }
  if (s.feat 0x82 nsid 0).testBit type then s1 else (s1.qe.ctrls.filter (fun c => c.en && hit c)).foldl (fun (s : State) c => s.aenTo 66 c.id) s1

/-- The checks that every reservation command shares: those of an I/O command, and the Host Identifier (R195). -/
def State.rsvCheck (s : State) (ref : Ref) (nsid : Nat) : Except Status (Ns × Nat) :=
  match s.ioCheck ref nsid 0 0 .reserves with
  | .error e => .error e
  | .ok n => match s.hostOf ref with | some h => .ok (n, h) | none => .error .cmdSeqError

/-- The key under which a host is registered. -/
def Resv.keyOf (r : Resv) (h : Nat) : Option Nat := (r.regs.find? (fun g => g.host == h)).map (fun g => g.key)

/-- Ends a reservation command (R199): a change of a state that Persist Through Power Loss keeps is in the Folio before the
command completes. -/
def State.rsvEnd (s : State) (ref : Ref) (nsid : Nat) (was now : Resv) : State :=
  if now != was && (was.ptpl || now.ptpl) then s.folio { job := .resv nsid, erase := true, ref := some ref }
  else s.complete ref .success 0

/-- Whether the reservation is of an All Registrants type. -/
def Resv.allRegs (r : Resv) : Bool := r.rtype = 5 || r.rtype = 6

/-- Removes a registrant: a reservation that it alone holds is released. -/
def Resv.unregister (r : Resv) (h : Nat) : Resv :=
  let regs := r.regs.filter (fun g => g.host != h)
  let gone := if r.allRegs then regs.isEmpty else r.holder == some h
  { r with regs, gen := (r.gen + 1) % 2 ^ 32, holder := if gone then none else r.holder, rtype := if gone then 0 else r.rtype }

/-- RESERVATION_REGISTER (R196, R199, R200): RREGA 0 registers, 1 unregisters, 2 replaces a key; CPTPL 2 and 3 set Persist
Through Power Loss. A 65th registrant is refused with Invalid Field. -/
def execReservationRegister (ref : Ref) (nsid rrega : Nat) (iekey : Bool) (cptpl crkey nrkey : Nat) (s : State) : Res :=
  if !s.accepts ref then .next s
  else
    match s.rsvCheck ref nsid with
    | .error e => s.refuse ref e
    | .ok (n, h) =>
      let r := n.resv
      let mine := r.keyOf h
      let ptpl := if cptpl = 2 then false else if cptpl = 3 then true else r.ptpl
      let keyOk := iekey || mine == some crkey
      let put (v : Resv) (hosts : List Nat) : Res :=
        .next ((((s.latch ref).updNs nsid (fun n => { n with resv := { v with ptpl } })).rsvNotify nsid 2 hosts).rsvEnd ref nsid r { v with ptpl })
      match rrega with
      | 0 =>
        match mine with
        | some k => if k = nrkey then put r [] else s.refuse ref .reservationConflict
        | none =>
          if 64 ≤ r.regs.length then s.refuse ref .invalidField
          else put { r with regs := r.regs ++ [⟨h, nrkey⟩], gen := (r.gen + 1) % 2 ^ 32 } []
      | 1 =>
        if mine.isNone || !keyOk then s.refuse ref .reservationConflict
        else
          let v := r.unregister h
          put v (if v.rtype = r.rtype then [] else (v.regs.map (fun g => g.host)))
      | 2 =>
        if !keyOk || (mine.isNone && !iekey) then s.refuse ref .reservationConflict
        else if mine.isNone then
          if 64 ≤ r.regs.length then s.refuse ref .invalidField
          else put { r with regs := r.regs ++ [⟨h, nrkey⟩], gen := (r.gen + 1) % 2 ^ 32 } []
        else put { r with regs := updWhere (fun g => g.host == h) (fun g => { g with key := nrkey }) r.regs, gen := (r.gen + 1) % 2 ^ 32 } []
      | _ => s.refuse ref .invalidField

/-- RESERVATION_REPORT (R195): the reservation state returns to the host. -/
def execReservationReport (ref : Ref) (nsid : Nat) (eds : Bool) (s : State) : Res :=
  if !s.accepts ref then .next s
  else
    match s.rsvCheck ref nsid with
    | .error e => s.refuse ref e
    | .ok (n, _) =>
      let _ := eds
      .next ((((s.latch ref).emit (.rsvReport ref n.resv))).complete ref .success 0)

/-- Whether a read has had a stroke placed (R183, R198): one of its own, or of a unit's read that it shares. -/
def State.strokePlaced (s : State) (ref : Ref) : Bool :=
  s.qe.cmds.any (fun c => c.ref == ref && c.placed) ||
  s.stk.strokes.any (fun k => k.inRing && (match k.purpose with
    | .fetch id => ((s.fetchAt id).map (fun f => f.users.any (fun u => match u with | .host r _ => r == ref | _ => false))).getD false
    | _ => false))

/-- PREEMPT_AND_ABORT (R198): the preempted hosts' reads that have no stroke placed end, and a write fused to one with it (R166). -/
def State.preemptAbort (s : State) (nsid : Nat) (hosts : List Nat) : State :=
  let mine (c : Cmd) : Bool := c.nsid == nsid && (c.kind == .read || c.kind == .compare) &&
    (match s.hostOf c.ref with | some h => hosts.contains h | none => false) && !s.strokePlaced c.ref
  (s.qe.cmds.filter mine).foldl (fun (s : State) c => s.failRead c.ref .abortedPreempt) s

/-- RESERVATION_ACQUIRE (R197, R198, R200): RACQA 0 acquires, 1 preempts, 2 preempts and aborts. -/
def execReservationAcquire (ref : Ref) (nsid racqa : Nat) (iekey : Bool) (rtype crkey prkey : Nat) (s : State) : Res :=
  if !s.accepts ref then .next s
  else
    match s.rsvCheck ref nsid with
    | .error e => s.refuse ref e
    | .ok (n, h) =>
      let r := n.resv
      if iekey || rtype = 0 || 6 < rtype || 2 < racqa then s.refuse ref .invalidField
      else if r.keyOf h != some crkey then s.refuse ref .reservationConflict
      else
        let put (v : Resv) (hosts : List Nat) (ab : Bool) : Res :=
          let s1 := ((s.latch ref).updNs nsid (fun n => { n with resv := v })).rsvNotify nsid 1 hosts
          let s2 := if ab then s1.preemptAbort nsid hosts else s1
          .next (s2.rsvEnd ref nsid r v)
        if racqa = 0 then
          if r.rtype = 0 then put { r with rtype, holder := some h } [] false
          else if (r.holder == some h || r.allRegs) && r.rtype = rtype then put r [] false
          else s.refuse ref .reservationConflict
        else
          let victims := (r.regs.filter (fun g => g.key == prkey && g.host != h)).map (fun g => g.host)
          let takes := r.rtype != 0 && ((r.allRegs && prkey = 0) || (!r.allRegs && (r.holder.bind r.keyOf) == some prkey))
          let others := if r.allRegs && prkey = 0 then (r.regs.filter (fun g => g.host != h)).map (fun g => g.host) else victims
          if !takes && victims.isEmpty && !(r.holder == some h && r.keyOf h == some prkey) then s.refuse ref .reservationConflict
          else
            let regs := r.regs.filter (fun g => !others.contains g.host)
            let v : Resv := if takes then { r with regs, rtype, holder := some h, gen := (r.gen + 1) % 2 ^ 32 }
              else { r with regs, gen := (r.gen + 1) % 2 ^ 32 }
            put v others (racqa = 2)

/-- RESERVATION_RELEASE (R197, R200): RRELA 0 releases, 1 clears. -/
def execReservationRelease (ref : Ref) (nsid rrela : Nat) (iekey : Bool) (rtype crkey : Nat) (s : State) : Res :=
  if !s.accepts ref then .next s
  else
    match s.rsvCheck ref nsid with
    | .error e => s.refuse ref e
    | .ok (n, h) =>
      let r := n.resv
      let others := (r.regs.filter (fun g => g.host != h)).map (fun g => g.host)
      let put (v : Resv) (hosts : List Nat) : Res :=
        .next ((((s.latch ref).updNs nsid (fun n => { n with resv := v })).rsvNotify nsid (if rrela = 1 then 3 else 2) hosts).rsvEnd ref nsid r v)
      if iekey || 1 < rrela then s.refuse ref .invalidField
      else if r.keyOf h != some crkey then s.refuse ref .reservationConflict
      else if rrela = 1 then put { r with regs := [], rtype := 0, holder := none, gen := (r.gen + 1) % 2 ^ 32 } others
      else if r.rtype != 0 && (r.holder == some h || r.allRegs) then
        if rtype != r.rtype then s.refuse ref .invalidField else put { r with rtype := 0, holder := none } others
      else put r []

end Sys2Proof.Machine
end

