-- ==== Sys2Proof/Machine/Features.lean ====
section
/-! DEFINITION. Set Features and Get Features (R48, R92, R153, R167, R172, R175, R178 to R180, R191 to R193, R195, R199, R262, R577,
R582, R610). -/

namespace Sys2Proof.Machine

/-! ## Shared parts -/

/-- A command that has been fetched starts its work; one that cannot have been fetched changes nothing. -/
def State.begin (s : State) (ref : Ref) (k : State → State) : Res := if !s.accepts ref then .next s else .next (k (s.latch ref))

/-- The controller that a command runs on (R624): a tunnelled one runs on PF0's. -/
def ctrlIx (ref : Ref) : Nat := (ctrlOf ref).getD 0

/-- Whether a command comes from a VF. -/
def fromVf (ref : Ref) : Bool := (holderOf ref).isNone

/-- Ends a Set Features (R191, R525, R582): a saved value goes to the settings copies before the command completes; in TRIAL it is held
until the confirmation. -/
def State.featEnd (s : State) (ref : Ref) (saves : List Feat) : State :=
  if saves.isEmpty then s.complete ref .success 0
  else
    let s1 := saves.foldl (fun (s : State) f => s.saveFeat f.fid f.scope f.cur) s
    if s.mode = .trial then ({ s1 with bxl := { s1.bxl with heldSets := true } }).complete ref .success 0
    else s1.folio { job := .settings false, erase := true, ref := some ref }

/-- Sets one saveable feature. -/
def State.featSet (s : State) (ref : Ref) (save : Bool) (fid scope v : Nat) : State :=
  (s.setFeat fid scope v).featEnd ref (if save then [⟨fid, scope, v⟩] else [])

/-- The checks of a vendor feature's Set (R191): PFs only. Log entry 42 (PRESUMED). -/
def State.vendorSet (s : State) (ref : Ref) (k : State → State) : State :=
  if fromVf ref then s.complete ref .invalidField 0 else k s

/-- A feature that is not saveable is refused with Save set. Log entry 50 (DESIGN CHOICE). -/
def State.unsaved (s : State) (ref : Ref) (save : Bool) (k : State → State) : State :=
  if save then s.complete ref .featureNotSaveable 0 else k s

/-! ## The features -/

/-- Power Management (0x02; R178 to R180, R597). -/
def State.setPower (s : State) (ref : Ref) (cdw11 : Nat) : State :=
  let ps := cdw11 % 32
  let c := ctrlIx ref
  if 4 < ps then s.complete ref .invalidField 0
  else if s.qe.withheld.any (fun h => ctrlIx h.ref == c) then s.complete ref .cmdSeqError 0
  else
    let s1 := s.updCtrl c (fun k => { k with ps })
    if 3 ≤ ps && s1.dozeWanted then { s1 with qe := { s1.qe with withheld := s1.qe.withheld ++ [(⟨ref, .success, 0⟩ : HeldCqe)] } }.dozeStart
    else
      let s2 := s1.psEval
      s2.complete ref .success (s2.fld F.PWR_STATUS_PS)

/-- Number of Queues (0x07; R153): the lesser of the request and the controller's maximum; DW0 is the grant, 0's based. Log entry 50 (DESIGN CHOICE). -/
def State.setQueues (s : State) (ref : Ref) (cdw11 : Nat) : State :=
  let c := ctrlIx ref
  let sq := bitsOf cdw11 0 16
  let cq := bitsOf cdw11 16 16
  let most := if c < 2 then 7679 else 1535
  if sq = 65535 || cq = 65535 then s.complete ref .invalidField 0
  else if s.qe.sqs.any (fun q => q.ctrl == c && q.qid != 0) || s.qe.cqs.any (fun q => q.ctrl == c && q.qid != 0) then
    s.complete ref .cmdSeqError 0
  else
    let gs := min (sq + 1) most
    let gc := min (cq + 1) most
    (s.updCtrl c (fun k => { k with grantSq := gs, grantCq := gc })).complete ref .success (gs - 1 + 2 ^ 16 * (gc - 1))

/-- Flexible Data Placement (0x1D; R262). -/
def State.setFdp (s : State) (ref : Ref) (enable : Bool) : State :=
  if s.hasNamespace then s.complete ref .cmdSeqError 0
  else ({ s with map := { s.map with fdp := enable } }).complete ref .success 0

/-- Completion Policy (0xC0; R167, R172): for one namespace, or for every one attached to the controller. -/
def State.setPolicy (s : State) (ref : Ref) (nsid : Nat) (save : Bool) (cdw11 : Nat) : State :=
  s.vendorSet ref (fun s =>
    let mine := s.qe.nss.filter (fun n => (nsid == 0xFFFFFFFF || n.nsid == nsid) && n.attached.contains (ctrlIx ref))
    if mine.isEmpty && nsid != 0xFFFFFFFF then s.complete ref .invalidNamespace 0
    else
      let fs : List Feat := mine.map (fun n => ⟨0xC0, n.nsid, cdw11 % 2⟩)
      (fs.foldl (fun (s : State) f => s.setFeat f.fid f.scope f.cur) s).featEnd ref (if save then fs else []))

/-- Deadline Reads (0xC1; R175): MAXLEN 0 leaves the field. -/
def State.setDeadline (s : State) (ref : Ref) (save : Bool) (cdw11 : Nat) : State :=
  s.vendorSet ref (fun s =>
    let m := bitsOf cdw11 4 8
    let len := if m = 0 then bitsOf (s.feat 0xC1 (ctrlIx ref) 0x200) 4 8 else m
    s.featSet ref save 0xC1 (ctrlIx ref) (cdw11 % 2 + 16 * len))

/-- Envelope Cap (0xC2; R92). -/
def State.setCap (s : State) (ref : Ref) (save : Bool) (cdw11 : Nat) : State :=
  s.vendorSet ref (fun s =>
    let v := cdw11 % 2 ^ 12
    ({ s with stk := { s.stk with hostCap := v } }).refreshCap.featSet ref save 0xC2 0 v)

/-- Ruling Source Priority (0xC3; R48), mirrored in RUL_SRC_PRIO. -/
def State.setPrio (s : State) (ref : Ref) (save : Bool) (cdw11 : Nat) : State :=
  s.vendorSet ref (fun s =>
    let v := cdw11 % 2 ^ 6
    if wholeRefused 0x100C v then s.complete ref .invalidField 0
    else (((s.setFld F.RUL_SRC_PRIO_P1 (bitsOf v 0 2)).setFld F.RUL_SRC_PRIO_P2 (bitsOf v 2 2)).setFld F.RUL_SRC_PRIO_P3 (bitsOf v 4 2)).featSet
      ref save 0xC3 0 v)

/-- Patrol Period (0xC4; R192). -/
def State.setPatrol (s : State) (ref : Ref) (save : Bool) (cdw11 : Nat) : State :=
  s.vendorSet ref (fun s =>
    let d := cdw11 % 2 ^ 9
    if d = 0 || 365 < d then s.complete ref .invalidField 0 else s.featSet ref save 0xC4 0 d)

/-- Whether thermal thresholds are refused (R610): not strictly rising, or the third above 115 °C (junction) or 90 °C (NAND case). -/
def limitsRefused (nand : Bool) (v : Nat) : Bool :=
  let t1 := bitsOf v 0 8
  let t2 := bitsOf v 8 8
  let t3 := bitsOf v 16 8
  !(t1 < t2 && t2 < t3) || (if nand then 90 else 115) < t3

/-- Thermal Limits (0xC5; R610), mirrored in THM_LIMIT_J and THM_LIMIT_N. -/
def State.setLimits (s : State) (ref : Ref) (save : Bool) (cdw11 : Nat) : State :=
  s.vendorSet ref (fun s =>
    let nand := cdw11.testBit 31
    let v := cdw11 % 2 ^ 24
    if limitsRefused nand v then s.complete ref .invalidField 0
    else (s.setFld (if nand then F.THM_LIMIT_N_N1_N3 else F.THM_LIMIT_J_J1_J3) v).featSet ref save 0xC5 (bit nand) v)

/-- Whether an owner token serves a purpose (R577). Log entry 51 (DEDUCED). -/
def State.ownerTokenOk (s : State) (t : Option OwnerToken) (purpose : Nat) : Bool :=
  match t with
  | some t => t.purpose == purpose && t.zero && t.bootSeq == s.fol.bootSeq && t.ident && t.signed
  | none => false

/-- Owner Update Lock (0xC6; R577): settable in OWNED only; clearing LOCK and arming FORCE need their tokens. LOCK is in the Folio before
the command completes. Log entry 51 (DEDUCED). -/
def State.setOwnerLock (s : State) (ref : Ref) (cdw11 : Nat) (token : Option OwnerToken) : State :=
  s.vendorSet ref (fun s =>
    let lock := cdw11.testBit 0
    let force := cdw11.testBit 1
    if s.lifecycle != 3 then s.complete ref .cmdSeqError 0
    else if (force && !s.ownerTokenOk token 2) || (!lock && (s.bxl.lock || !force) && !s.ownerTokenOk token 1) then s.complete ref .invalidField 0
    else
      let s1 : State := { s with bxl := { s.bxl with force } }
      if lock = s.bxl.lock then s1.complete ref .success 0
      else s1.folio { job := .owner lock, erase := true, ref := some ref })

/-- Ink Time in Completion (0xC7; R193). -/
def State.setInk (s : State) (ref : Ref) (save : Bool) (cdw11 : Nat) : State :=
  s.vendorSet ref (fun s => s.featSet ref save 0xC7 (ctrlIx ref) (cdw11 % 2))

/-- Temperature Threshold (0x04; R611): for the composite and sensors 1 and 2, or all of them. Log entry 53 (DEDUCED). -/
def State.setTemp (s : State) (ref : Ref) (cdw11 : Nat) : State :=
  let sel := bitsOf cdw11 16 4
  let th := bitsOf cdw11 20 2
  if (2 < sel && sel != 15) || 1 < th then s.complete ref .invalidField 0
  else
    let c := ctrlIx ref
    let old := s.feat 4 c (358 + 2 ^ 32 * 0xFFFF + 2 ^ 64 * 0xFFFF)
    let put (v i : Nat) : Nat := bitsPut v (32 * i + 16 * th) 16 (bitsOf cdw11 0 16)
    (s.setFeat 4 c (if sel = 15 then [0, 1, 2].foldl put old else put old sel)).complete ref .success 0

/-- Host Identifier (0x81; R195): 128 bits only; 0 leaves it unset. -/
def State.setHostId (s : State) (ref : Ref) (cdw11 data : Nat) : State :=
  if !cdw11.testBit 0 then s.complete ref .invalidField 0
  else (s.updCtrl (ctrlIx ref) (fun k => { k with hostId := if data = 0 then none else some (data % 2 ^ 128) })).complete ref .success 0

/-- Reservation Persistence (0x83; R199): the change is in the Folio before the command completes. -/
def State.setPersist (s : State) (ref : Ref) (nsid cdw11 : Nat) : State :=
  let mine := s.qe.nss.filter (fun n => (nsid == 0xFFFFFFFF || n.nsid == nsid) && n.attached.contains (ctrlIx ref) && n.resv.ptpl != cdw11.testBit 0)
  if nsid != 0xFFFFFFFF && !s.qe.nss.any (fun n => n.nsid == nsid && n.attached.contains (ctrlIx ref)) then s.complete ref .invalidNamespace 0
  else
    let s1 := mine.foldl (fun (s : State) n => s.updNs n.nsid (fun n => { n with resv := { n.resv with ptpl := cdw11.testBit 0 } })) s
    match mine.reverse with
    | [] => s1.complete ref .success 0
    | n :: rest => (rest.reverse.foldl (fun (s : State) n => s.folio { job := .resv n.nsid, erase := true }) s1).folio { job := .resv n.nsid, erase := true, ref := some ref }

/-- A feature of a namespace (0x1E, 0x82): for one namespace, or for every one attached. -/
def State.setNsFeat (s : State) (ref : Ref) (fid nsid cdw11 : Nat) : State :=
  let mine := s.qe.nss.filter (fun n => (nsid == 0xFFFFFFFF || n.nsid == nsid) && n.attached.contains (ctrlIx ref))
  if mine.isEmpty && nsid != 0xFFFFFFFF then s.complete ref .invalidNamespace 0
  else (mine.foldl (fun (s : State) n => s.setFeat fid n.nsid cdw11) s).complete ref .success 0

/-! ## Set Features -/

/-- SET_FEATURES (R181, R191): the features with no row of their own are the base specification's 0x01, 0x05, 0x08 to 0x0B, 0x0F
(controller), 0x1E and 0x82 (namespace), 0x04, 0x81 and 0x83; 0x06 (R174), 0x0C (R595) and every other identifier complete
with Invalid Field in Command. A feature that has a row of its own does what that row says. -/
def execSetFeatures (ref : Ref) (fid nsid cdw11 : Nat) (save : Bool) (data : Nat) (s : State) : Res :=
  s.begin ref (fun s =>
    match fid with
    | 0x01 | 0x05 | 0x08 | 0x09 | 0x0A | 0x0B | 0x0F =>
      s.unsaved ref save (fun s => (s.setFeat fid (ctrlIx ref) cdw11).complete ref .success 0)
    | 0x02 => s.unsaved ref save (fun s => s.setPower ref cdw11)
    | 0x04 => s.unsaved ref save (fun s => s.setTemp ref cdw11)
    | 0x07 => s.unsaved ref save (fun s => s.setQueues ref cdw11)
    | 0x1D => s.unsaved ref save (fun s => s.setFdp ref (cdw11.testBit 0))
    | 0x1E | 0x82 => s.unsaved ref save (fun s => s.setNsFeat ref fid nsid cdw11)
    | 0x81 => s.unsaved ref save (fun s => s.setHostId ref cdw11 data)
    | 0x83 => s.unsaved ref save (fun s => s.setPersist ref nsid cdw11)
    | 0xC0 => s.setPolicy ref nsid save cdw11
    | 0xC1 => s.setDeadline ref save cdw11
    | 0xC2 => s.setCap ref save cdw11
    | 0xC3 => s.setPrio ref save cdw11
    | 0xC4 => s.setPatrol ref save cdw11
    | 0xC5 => s.setLimits ref save cdw11
    | 0xC6 => s.setOwnerLock ref cdw11 none
    | 0xC7 => s.setInk ref save cdw11
    | _ => s.complete ref .invalidField 0)

/-- SET_FEATURES_POWER_MGMT (R178 to R180). -/
def execSetFeaturesPowerMgmt (ref : Ref) (save : Bool) (cdw11 : Nat) (s : State) : Res :=
  s.begin ref (fun s => s.unsaved ref save (fun s => s.setPower ref cdw11))

/-- SET_FEATURES_NUM_QUEUES (R153). -/
def execSetFeaturesNumQueues (ref : Ref) (save : Bool) (cdw11 : Nat) (s : State) : Res :=
  s.begin ref (fun s => s.unsaved ref save (fun s => s.setQueues ref cdw11))

/-- SET_FEATURES_ENVELOPE_CAP (R92). -/
def execSetFeaturesEnvelopeCap (ref : Ref) (save : Bool) (cdw11 : Nat) (s : State) : Res := s.begin ref (fun s => s.setCap ref save cdw11)

/-- SET_FEATURES_RULING_PRIORITY (R48). -/
def execSetFeaturesRulingPriority (ref : Ref) (save : Bool) (cdw11 : Nat) (s : State) : Res := s.begin ref (fun s => s.setPrio ref save cdw11)

/-- SET_FEATURES_THERMAL_LIMITS (R610). -/
def execSetFeaturesThermalLimits (ref : Ref) (save : Bool) (cdw11 : Nat) (s : State) : Res := s.begin ref (fun s => s.setLimits ref save cdw11)

/-- SET_FEATURES_OWNER_UPDATE_LOCK (R577). -/
def execSetFeaturesOwnerUpdateLock (ref : Ref) (cdw11 : Nat) (token : Option OwnerToken) (s : State) : Res :=
  s.begin ref (fun s => s.setOwnerLock ref cdw11 token)

/-- SET_FEATURES_COMPLETION_POLICY (R167). -/
def execSetFeaturesCompletionPolicy (ref : Ref) (nsid : Nat) (save : Bool) (cdw11 : Nat) (s : State) : Res :=
  s.begin ref (fun s => s.setPolicy ref nsid save cdw11)

/-- SET_FEATURES_DEADLINE_READS (R175). -/
def execSetFeaturesDeadlineReads (ref : Ref) (save : Bool) (cdw11 : Nat) (s : State) : Res := s.begin ref (fun s => s.setDeadline ref save cdw11)

/-- SET_FEATURES_PATROL_PERIOD (R192). -/
def execSetFeaturesPatrolPeriod (ref : Ref) (save : Bool) (cdw11 : Nat) (s : State) : Res := s.begin ref (fun s => s.setPatrol ref save cdw11)

/-- SET_FEATURES_INK_TIME (R193). -/
def execSetFeaturesInkTime (ref : Ref) (save : Bool) (cdw11 : Nat) (s : State) : Res := s.begin ref (fun s => s.setInk ref save cdw11)

/-- SET_FEATURES_FDP (R262). -/
def execSetFeaturesFdp (ref : Ref) (save enable : Bool) (s : State) : Res :=
  s.begin ref (fun s => s.unsaved ref save (fun s => s.setFdp ref enable))

/-! ## Get Features -/

/-- The scope of a feature for a command: its controller, its namespace, the device, or the threshold set. -/
def featScope (fid nsid cdw11 : Nat) (ref : Ref) : Nat :=
  if fid = 0xC5 then bit (cdw11.testBit 31)
  else if 0xC2 ≤ fid && fid ≤ 0xC4 then 0
  else if ctrlScoped fid then ctrlIx ref else nsid

/-- The default of a stored feature (R48, R167, R175, R191 to R193, R610). -/
def featDefault (fid scope : Nat) : Nat :=
  match fid with
  | 0x04 => 358 + 2 ^ 32 * 0xFFFF + 2 ^ 64 * 0xFFFF
  | 0xC1 => 0x200
  | 0xC3 => 0x39
  | 0xC4 => 7
  | 0xC5 => if scope = 0 then 0x69645F else 0x55504B
  | _ => 0

/-- Whether a feature is saveable (R191). Log entry 50 (DESIGN CHOICE). -/
def featSaveable (fid : Nat) : Bool := [0xC0, 0xC1, 0xC2, 0xC3, 0xC4, 0xC5, 0xC7].contains fid

/-- The identifiers that Get Features knows. Log entry 50 (DESIGN CHOICE). -/
def featKnown (fid : Nat) : Bool :=
  [0x01, 0x02, 0x04, 0x05, 0x07, 0x08, 0x09, 0x0A, 0x0B, 0x0F, 0x1D, 0x1E, 0x81, 0x82, 0x83, 0xC0, 0xC1, 0xC2, 0xC3, 0xC4, 0xC5, 0xC6, 0xC7].contains fid

/-- MIN_US (R98, R175): the smallest deadline admitted with idle media at the highest read band in force, for 4 KiB. Log entry 52 (DEDUCED). -/
def State.minUs (s : State) : Nat :=
  let l := ((s.nib.luns.find? (fun x => s.nib.luns.all (fun y => y.rband ≤ x.rband))).map (fun x => x.lun)).getD 0
  ceilDiv ((s.fld F.STK_LEAD_LINES + 1) * s.pitchNs + s.tR l + s.admBurst + s.admCw + s.admHard + s.admOut 4096 + s.admRescue) 1000

/-- The current value that Get Features returns in DW0. -/
def State.featShown (s : State) (fid nsid cdw11 : Nat) (ref : Ref) : Nat :=
  let c := ctrlIx ref
  let k := (s.ctrl c).getD { id := c }
  let v := s.feat fid (featScope fid nsid cdw11 ref) (featDefault fid (featScope fid nsid cdw11 ref))
  match fid with
  | 0x02 => s.fld F.PWR_STATUS_PS
  | 0x04 => s.tempThreshold c (bitsOf cdw11 16 4) (cdw11.testBit 20)
  | 0x07 => k.grantSq - 1 + 2 ^ 16 * (k.grantCq - 1)
  | 0x1D => bit s.map.fdp
  | 0x83 => bit ((s.ns nsid).any (fun n => n.resv.ptpl))
  | 0xC0 => v % 2 + 2 * bit (s.protectedNow nsid)
  | 0xC1 => v % 2 ^ 12 + 2 ^ 16 * s.minUs
  | 0xC2 => s.stk.hostCap + 2 ^ 12 * s.fld F.STK_ENV_EFF_EFF
  | 0xC3 => s.reg 0x100C
  | 0xC5 => s.fld (if cdw11.testBit 31 then F.THM_LIMIT_N_N1_N3 else F.THM_LIMIT_J_J1_J3) + 2 ^ 31 * bit (cdw11.testBit 31)
  | 0xC6 => bit s.bxl.lock + 2 * bit s.bxl.force
  | _ => v

/-- Get Features (R181, R191): SEL 0 the current value, 1 the default, 2 the saved value, 3 the capabilities. -/
def State.getFeature (s : State) (ref : Ref) (fid nsid sel cdw11 : Nat) : State :=
  let scope := featScope fid nsid cdw11 ref
  let nsWide := fid = 0x82 || fid = 0x83 || fid = 0xC0 || fid = 0x1E
  if !featKnown fid || 3 < sel then s.complete ref .invalidField 0
  else if nsWide && !s.qe.nss.any (fun n => n.nsid == nsid && n.attached.contains (ctrlIx ref)) then s.complete ref .invalidNamespace 0
  else
    match sel with
    | 0 =>
      if fid = 0x81 then
        let h := ((s.ctrl (ctrlIx ref)).bind (fun k => k.hostId)).getD 0
        (s.emit (.data ref 0x0A fid 0 16 [(0, 16, h)])).complete ref .success 0
      else s.complete ref .success (s.featShown fid nsid cdw11 ref)
    | 1 => s.complete ref .success (featDefault fid scope)
    | 2 =>
      match s.qe.savedFeats.find? (fun f => f.fid == fid && f.scope == scope) with
      | some f => s.complete ref .success f.cur
      | none => s.complete ref .success (featDefault fid scope)
    | _ => s.complete ref .success (bit (featSaveable fid) + 2 * bit nsWide + 4)

/-- GET_FEATURES (R181, R191). -/
def execGetFeatures (ref : Ref) (fid nsid sel cdw11 : Nat) (s : State) : Res := s.begin ref (fun s => s.getFeature ref fid nsid sel cdw11)

end Sys2Proof.Machine
end

