-- ==== Sys2Proof/Machine/Admin.lean ====
section
/-! DEFINITION. The admin commands of the Queue Engine that have no data path: queues, Identify, Abort, asynchronous events, Keep Alive,
directives, shadow doorbells and the Management Authority lock (R152 to R155, R181 to R184, R188, R310, R595, R630 to R632). -/

namespace Sys2Proof.Machine

/-! ## Queues -/

/-- The number of I/O queues of a kind in use, of the pool of 8,192 (R152, R153). -/
def poolUsed (qids : List Nat) : Nat := (qids.filter (fun q => q != 0)).length

/-- Whether an I/O queue identifier is refused (R153): 0, one that exists, one beyond the grant, or an empty pool. -/
def qidRefused (qid grant : Nat) (existing pool : List Nat) : Bool :=
  qid = 0 || grant < qid || existing.contains qid || 8192 ≤ poolUsed pool

/-- The interrupt vectors of a function (R137). -/
def State.vectors (s : State) (c : Nat) : Nat :=
  if s.hp.msix.contains c then (if c < 2 then 2048 else 64) else if s.hp.msi.contains c then (s.fnCfg c).msiVecs else 1

/-- Create I/O Completion Queue (R153, R154); `qsize` is 0's based. Log entries 16 and 40 (DEDUCED, PRESUMED). -/
def State.createCq (s : State) (ref : Ref) (qid qsize vector : Nat) (ien pc : Bool) : State :=
  let c := ctrlIx ref
  let k := (s.ctrl c).getD { id := c }
  let mine := (s.qe.cqs.filter (fun q => q.ctrl == c)).map (fun q => q.qid)
  if !pc then s.complete ref .invalidField 0
  else if qidRefused qid k.grantCq mine (s.qe.cqs.map (fun q => q.qid)) then s.complete ref .invalidQueueId 0
  else if qsize = 0 || 65536 ≤ qsize || k.iocqes != 4 then s.complete ref .invalidQueueSize 0
  else if ien && s.vectors c ≤ vector then s.complete ref .invalidVector 0
  else
    let q : Cq := { ctrl := c, qid, size := qsize + 1, vector, ien }
    ({ s with qe := { s.qe with cqs := s.qe.cqs ++ [q] } }).complete ref .success 0

/-- Create I/O Submission Queue (R153, R154, R161); `qsize` is 0's based. Log entries 16 and 40 (DEDUCED, PRESUMED). -/
def State.createSq (s : State) (ref : Ref) (qid qsize cqid prio : Nat) (pc : Bool) : State :=
  let c := ctrlIx ref
  let k := (s.ctrl c).getD { id := c }
  let mine := (s.qe.sqs.filter (fun q => q.ctrl == c)).map (fun q => q.qid)
  if !pc then s.complete ref .invalidField 0
  else if qidRefused qid k.grantSq mine (s.qe.sqs.map (fun q => q.qid)) then s.complete ref .invalidQueueId 0
  else if qsize = 0 || 65536 ≤ qsize || k.iosqes != 6 then s.complete ref .invalidQueueSize 0
  else if cqid = 0 || !s.qe.cqs.any (fun q => q.ctrl == c && q.qid == cqid) then s.complete ref .completionQueueInvalid 0
  else
    let base := ((s.hp.ptrs.lookup ref).bind (fun e => e.2.head?)).map (fun p => p.1)
    let q : Sq := { ctrl := c, qid, size := qsize + 1, prio := prio % 4, cqid, base }
    ({ s with qe := { s.qe with sqs := s.qe.sqs ++ [q] } }).complete ref .success 0

/-- Ends one command of a deleted submission queue: a write whose data has been fetched proceeds without a completion, the others end
with Command Aborted due to SQ Deletion. Log entry 16 (PRESUMED). -/
def State.abortSqCmd (s : State) (c : Cmd) : State :=
  if c.proceeds then s.orphan c.ref
  else if c.kind.stamps then s.failWrite c.ref .abortedSqDeletion
  else if c.kind = .flush then (s.dropCmd c.ref).complete c.ref .abortedSqDeletion 0
  else s.failRead c.ref .abortedSqDeletion

/-- Whether a command came from a submission queue of a controller. -/
def onQueue (c qid : Nat) : Ref → Bool
  | .host x q _ => x == c && q == qid
  | .side => false

/-- Delete I/O Submission Queue (R153): the queue returns to the pool at once. -/
def State.deleteSq (s : State) (ref : Ref) (qid : Nat) : State :=
  let c := ctrlIx ref
  if qid = 0 || !s.qe.sqs.any (fun q => q.ctrl == c && q.qid == qid) then s.complete ref .invalidQueueId 0
  else
    let s1 := (s.qe.cmds.filter (fun k => onQueue c qid k.ref)).foldl State.abortSqCmd s
    let s2 : State := { s1 with qe := { s1.qe with
      sqs := s1.qe.sqs.filter (fun q => !(q.ctrl == c && q.qid == qid))
      fetched := s1.qe.fetched.filter (fun e => !(e.ctrl == c && e.sq == qid))
      full := s1.qe.full.filter (fun h => !onQueue c qid h.ref)
      tags := s1.qe.tags.filter (fun r => !onQueue c qid r) } }
    s2.complete ref .success 0

/-- Delete I/O Completion Queue (R153): refused while a submission queue uses it. -/
def State.deleteCq (s : State) (ref : Ref) (qid : Nat) : State :=
  let c := ctrlIx ref
  if qid = 0 || !s.qe.cqs.any (fun q => q.ctrl == c && q.qid == qid) then s.complete ref .invalidQueueId 0
  else if s.qe.sqs.any (fun q => q.ctrl == c && q.cqid == qid && q.qid != 0) then s.complete ref .invalidQueueDeletion 0
  else ({ s with qe := { s.qe with cqs := s.qe.cqs.filter (fun q => !(q.ctrl == c && q.qid == qid)) } }).complete ref .success 0

/-- CREATE_IO_CQ (R153, R154). -/
def execCreateIoCq (ref : Ref) (qid qsize vector : Nat) (ien pc : Bool) (s : State) : Res :=
  s.begin ref (fun s => s.createCq ref qid qsize vector ien pc)

/-- CREATE_IO_SQ (R153, R154). -/
def execCreateIoSq (ref : Ref) (qid qsize cqid prio : Nat) (pc : Bool) (s : State) : Res :=
  s.begin ref (fun s => s.createSq ref qid qsize cqid prio pc)

/-- DELETE_IO_SQ (R153). -/
def execDeleteIoSq (ref : Ref) (qid : Nat) (s : State) : Res := s.begin ref (fun s => s.deleteSq ref qid)

/-- DELETE_IO_CQ (R153). -/
def execDeleteIoCq (ref : Ref) (qid : Nat) (s : State) : Res := s.begin ref (fun s => s.deleteCq ref qid)

/-- DOORBELL_BUFFER_CONFIG (R155): from its completion on the controller's doorbells are shadowed. -/
def execDoorbellBufferConfig (ref : Ref) (prp1 prp2 : Nat) (s : State) : Res :=
  s.begin ref (fun s =>
    if prp1 % 4096 != 0 || prp2 % 4096 != 0 then s.complete ref .invalidField 0
    else (s.updCtrl (ctrlIx ref) (fun k => { k with shadowDb := true })).complete ref .success 0)

/-! ## Identify -/

/-- A power state descriptor (R595). Log entry 20 (PRESUMED). -/
def State.psd (s : State) (k : Nat) : Fields :=
  let mp := match k with
    | 0 => s.fld F.PWR_PSD01_MP0 | 1 => s.fld F.PWR_PSD01_MP1 | 2 => s.fld F.PWR_PSD23_MP2 | 3 => s.fld F.PWR_PSD23_MP3
    | _ => s.fld F.PWR_PSD4_MP4
  let b := 2048 + 32 * k
  [(b, 2, mp), (b + 3, 1, if 3 ≤ k then 2 else 0), (b + 4, 4, if k = 3 then 5000 else if k = 4 then 10000 else 0),
   (b + 8, 4, if k = 3 then 1000 else if k = 4 then 10000 else 0)]

/-- Identify Controller (R182, R185, R275, R279, R458, R595, R611). Log entry 20 (PRESUMED). -/
def State.identController (s : State) (c : Nat) : Fields :=
  [(64, 8, (s.slot s.bxl.runSlot).version), (76, 1, bit (s.flag F.HP_CFG_DUAL) + 2 + 4 * bit (2 ≤ c)), (77, 1, 9), (78, 2, c),
   (80, 4, 0x00020100), (84, 4, 4000000), (88, 4, 3000000), (92, 4, 0x100), (96, 4, 2 ^ 19 + 1), (111, 1, 1), (256, 2, 0x012E), (258, 1, 3), (259, 1, 15), (260, 1, 0x06),
   (261, 1, 6), (262, 1, 255), (263, 1, 4), (265, 1, 0), (266, 2, 358), (268, 2, 368), (319, 1, 0x10), (320, 2, 1), (328, 4, 3), (512, 1, 0x66), (513, 1, 0x44),
   (514, 2, 0), (516, 4, 4096), (520, 2, 0x003F), (522, 2, 1), (525, 1, 0), (528, 2, 0), (536, 4, 1), (540, 4, 4096), (3072, 1, 1)]
    ++ (List.range 5).flatMap s.psd

/-- Logical blocks in use (R311): the IUs that the namespace, or the snapshot, maps. -/
def State.nuse (s : State) (n : Ns) : Nat :=
  let per := s.iuSectors / n.blkSectors
  let used := (List.range (ceilDiv (n.blocks * n.blkSectors) s.iuSectors)).filter (fun i => match s.lookup n i with
    | .unmapped => false | _ => true)
  min n.blocks (used.length * per)

/-- The LBA formats (R181). Log entry 20 (PRESUMED). -/
def lbaFormats : Fields :=
  [(25, 1, 2), (128, 2, 0), (130, 1, 12), (132, 2, 0), (134, 1, 9), (136, 2, 8), (138, 1, 12)]

/-- Identify Namespace (R181, R196, R274, R310, R311). Log entry 20 (PRESUMED). -/
def State.identNamespace (s : State) (n : Ns) : Fields :=
  let snap : Fields := match n.cut with
    | none => []
    | some k =>
      let c := s.ckpt.cuts.find? (fun c => c.slot == k)
      let t : Stamp := match c with | some c => ⟨c.time, c.unc, c.cls⟩ | none => {}
      [(3072, 1, 1), (3073, 1, k), (3076, 4, n.source)] ++ stampAt 3080 t
  [(0, 8, n.blocks), (8, 8, n.blocks), (16, 8, s.nuse n), (26, 1, n.lbaf), (30, 1, 1), (31, 1, 0x7F), (33, 1, 0x09), (99, 1, bit n.cut.isSome)]
    ++ lbaFormats ++ snap

/-- A list of 4-byte namespace identifiers above one, at most 1,024. Log entry 20 (PRESUMED). -/
def nsList (ids : List Nat) (above : Nat) : Fields :=
  (((ids.filter (fun i => above < i)).mergeSort (· ≤ ·)).take 1024).mapIdx (fun i n => (4 * i, 4, n))

/-- A controller list: its count, then 2-byte controller identifiers from one on, at most 2,047. Log entry 20 (PRESUMED). -/
def ctrlList (ids : List Nat) (from_ : Nat) : Fields :=
  let l := ((ids.filter (fun i => from_ ≤ i)).mergeSort (· ≤ ·)).take 2047
  (0, 2, l.length) :: l.mapIdx (fun i n => (2 + 2 * i, 2, n))

/-- The data structure of a CNS value (R181), or the status that refuses it. -/
def State.identify (s : State) (c cns nsid cntid : Nat) : Except Status Fields :=
  let known := 1 ≤ nsid && nsid ≤ 4096
  let one (active : Bool) : Except Status Fields :=
    if nsid = 0xFFFFFFFF then .ok lbaFormats
    else if !known then .error .invalidNamespace
    else match s.ns nsid with
      | some n => .ok (if !active || n.attached.contains c then s.identNamespace n else [])
      | none => .ok []
  match cns with
  | 0x00 => one true
  | 0x01 => .ok (s.identController c)
  | 0x02 => if 0xFFFFFFFE ≤ nsid then .error .invalidNamespace
    else .ok (nsList ((s.qe.nss.filter (fun n => n.attached.contains c)).map (fun n => n.nsid)) nsid)
  | 0x03 => if (s.ns nsid).any (fun n => n.attached.contains c) then .ok [(0, 1, 4), (1, 1, 1), (4, 1, 0)] else .error .invalidNamespace
  | 0x05 => if known then .ok [] else .error .invalidNamespace
  | 0x06 => .ok []
  | 0x10 => if 0xFFFFFFFE ≤ nsid then .error .invalidNamespace else .ok (nsList (s.qe.nss.map (fun n => n.nsid)) nsid)
  | 0x11 => one false
  | 0x12 => match s.ns nsid with
    | some n => .ok (ctrlList n.attached cntid)
    | none => .error .invalidNamespace
  | 0x13 => .ok (ctrlList (s.qe.ctrls.map (fun k => k.id)) cntid)
  | _ => .error .invalidField

/-- IDENTIFY (R181, R182). -/
def execIdentify (ref : Ref) (cns nsid cntid : Nat) (s : State) : Res :=
  s.begin ref (fun s =>
    match s.identify (ctrlIx ref) cns nsid cntid with
    | .ok d => (s.emit (.data ref 6 cns 0 4096 d)).complete ref .success 0
    | .error e => s.complete ref e 0)

/-! ## Abort and asynchronous events -/

/-- Whether none of a command's work has reached the medium (R183): a read without a placed stroke, a write without ink time, or a
Flush. -/
def State.abortable (s : State) (c : Cmd) : Bool :=
  if c.kind.stamps then c.ink.isNone else !s.strokePlaced c.ref

/-- Ends a command that an Abort names. -/
def State.abortCmd (s : State) (c : Cmd) : State :=
  if c.kind.stamps then s.failWrite c.ref .abortRequested
  else if c.kind = .flush then (s.dropCmd c.ref).complete c.ref .abortRequested 0
  else s.failRead c.ref .abortRequested

/-- Abort (R183): the fifth outstanding one is refused; DW0 bit 0 is 0 when the named command ends with it. Log entry 46 (DEDUCED). -/
def State.abort (s : State) (ref : Ref) (sqid cid : Nat) : State :=
  let c := ctrlIx ref
  let live := s.qe.aborts.filter (fun r => s.qe.tags.contains r)
  if 4 ≤ (live.filter (fun r => ctrlIx r == c)).length then s.complete ref .abortLimit 0
  else
    let s1 : State := { s with qe := { s.qe with aborts := ref :: live } }
    let named : Ref := .host c sqid cid
    match s1.qe.cmds.find? (fun k => k.ref == named) with
    | some k => if s1.abortable k then (s1.abortCmd k).complete ref .success 0 else s1.complete ref .success 1
    | none =>
      if s1.qe.aers.contains (c, named) then
        (({ s1 with qe := { s1.qe with aers := s1.qe.aers.erase (c, named) } }).complete named .abortRequested 0).complete ref .success 0
      else s1.complete ref .success 1

/-- ABORT (R183). -/
def execAbort (ref : Ref) (sqid cid : Nat) (s : State) : Res := s.begin ref (fun s => s.abort ref sqid cid)

/-- An Asynchronous Event Request (R184, R514): the seventeenth is refused; an event that waits is posted on it at once. -/
def State.asyncEvent (s : State) (ref : Ref) : State :=
  let c := ctrlIx ref
  if 16 ≤ (s.qe.aers.filter (fun r => r.1 == c)).length then s.complete ref .aerLimit 0
  else
    let s1 : State := { s with qe := { s.qe with aers := s.qe.aers ++ [(c, ref)] } }
    match s1.evu.aenWait.find? (fun w => w.1 == c && !s1.evu.aenOut.contains (c, w.2.1)) with
    | some w => ({ s1 with evu := { s1.evu with aenWait := s1.evu.aenWait.erase w } }).aenTo w.2.1 c
    | none => s1

/-- ASYNC_EVENT_REQUEST (R184, R514). -/
def execAsyncEventRequest (ref : Ref) (s : State) : Res := s.begin ref (fun s => s.asyncEvent ref)

/-- KEEP_ALIVE (R181): the controller's timer starts anew. -/
def execKeepAlive (ref : Ref) (s : State) : Res :=
  s.begin ref (fun s =>
    let c := ctrlIx ref
    ({ s with qe := { s.qe with keepAlive := (c, s.now) :: s.qe.keepAlive.filter (fun e => e.1 != c) } }).complete ref .success 0)

/-! ## Directives -/

/-- Directive Send (R181, R264): the Identify directive's Enable Directive, for the Data Placement directive. Log entry 44 (DEDUCED). -/
def State.directiveSend (s : State) (ref : Ref) (nsid dtype doper cdw12 : Nat) : State :=
  let c := ctrlIx ref
  let on := cdw12.testBit 0
  if !(s.ns nsid).any (fun n => n.attached.contains c) then s.complete ref .invalidNamespace 0
  else if dtype != 0 || doper != 1 || bitsOf cdw12 8 8 != 2 || (on && !s.map.fdp) then s.complete ref .invalidField 0
  else
    let rest := s.qe.dirs.filter (fun d => !(d.1 == c && d.2 == nsid))
    ({ s with qe := { s.qe with dirs := if on then (c, nsid) :: rest else rest } }).complete ref .success 0

/-- DIRECTIVE_SEND (R181). -/
def execDirectiveSend (ref : Ref) (nsid dtype doper cdw12 : Nat) (s : State) : Res :=
  s.begin ref (fun s => s.directiveSend ref nsid dtype doper cdw12)

/-- Directive Receive (R181): the Identify directive's Return Parameters, which lists the directives supported and enabled. Log entry 44 (DEDUCED). -/
def State.directiveReceive (s : State) (ref : Ref) (nsid dtype doper : Nat) : State :=
  let c := ctrlIx ref
  if !(s.ns nsid).any (fun n => n.attached.contains c) then s.complete ref .invalidNamespace 0
  else if dtype != 0 || doper != 1 then s.complete ref .invalidField 0
  else
    let on := 1 + 4 * bit (s.qe.dirs.contains (c, nsid))
    (s.emit (.data ref 0x1A 0 0 4096 [(0, 32, 1 + 4 * bit s.map.fdp), (32, 32, on)])).complete ref .success 0

/-- DIRECTIVE_RECEIVE (R181). -/
def execDirectiveReceive (ref : Ref) (nsid dtype doper : Nat) (s : State) : Res :=
  s.begin ref (fun s => s.directiveReceive ref nsid dtype doper)

/-! ## The Management Authority lock -/

/-- An explicit acquire by a party (R188, R630): the holder keeps it, and a holding that lasted for a command only becomes explicit. Log entry 38 (DEDUCED). -/
def State.takeLock (s : State) (h : Holder) (eid : Nat) : State :=
  match s.mgmt.lock with
  | some _ => { s with mgmt := { s.mgmt with lockTemp := false, lockRel := false, lockAt := s.now } }
  | none => { s with mgmt := { s.mgmt with lock := some h, lockTemp := false, lockEid := eid, lockAt := s.now, lockRefs := [], lockRel := false } }

/-- An explicit release by the holder (R631): during a command that runs under the holding it takes effect when that command completes. Log entry 38 (DEDUCED). -/
def State.giveLock (s : State) : State :=
  if s.mgmt.lockRefs.isEmpty then s.freeLock else { s with mgmt := { s.mgmt with lockRel := true } }

/-- AUTHORITY_ACQUIRE (R188, R194, R630). -/
def execAuthorityAcquire (ref : Ref) (s : State) : Res :=
  s.begin ref (fun s =>
    match holderOf ref with
    | none => s.complete ref .invalidOpcode 0
    | some h =>
      match s.heldAgainst ref with
      | some other => s.complete ref .authorityElsewhere other.code
      | none => (s.takeLock h s.mgmt.tunnelEid).complete ref .success 0)

/-- AUTHORITY_RELEASE (R188, R631). -/
def execAuthorityRelease (ref : Ref) (s : State) : Res :=
  s.begin ref (fun s =>
    match holderOf ref with
    | none => s.complete ref .invalidOpcode 0
    | some h =>
      if s.mgmt.lock != some h || (s.heldAgainst ref).isSome then s.complete ref .cmdSeqError 0
      else s.giveLock.complete ref .success 0)

end Sys2Proof.Machine
end

