-- ==== Sys2Proof/Machine/Alerts.lean ====
section
/-! DEFINITION. The acknowledgement of alerts and events that wait (R514, R633). -/

namespace Sys2Proof.Machine

/-- AEN_WAIT_TIMEOUT (R514): an event that has waited 1 ms for a request sets AEN_WAIT once. -/
def execAenWaitTimeout (ctrl group : Nat) (s : State) : Res :=
  if s.evu.aenWait.any (fun w => w.1 == ctrl && w.2.1 == group && w.2.2 + msT ≤ s.now) && s.mode != .off then .next (s.post F.EVU_EVT_STATUS_AEN_WAIT ctrl) else .next s

/-- ALERT_RESPONSE_ADDRESS (R621, R633): in SMBus mode the WY48 answers with its own address, which acknowledges the
alert. -/
def execAlertResponseAddress (s : State) : Res :=
  if s.mgmt.alert && !s.mgmt.i3c && s.pwr.vaux then
    .next ({ s with mgmt := { s.mgmt with alert := false } }.emit (.mctp 0xAA [0x1D + s.mgmt.straps]))
  else .next s

/-- IBI_ACCEPT (R633): in I3C mode the accepted interrupt acknowledges the alert. -/
def execIbiAccept (s : State) : Res :=
  if s.mgmt.alert && s.mgmt.i3c && s.pwr.vaux then .next { s with mgmt := { s.mgmt with alert := false } } else .next s

end Sys2Proof.Machine
end

