-- ==== Sys2Proof/Machine/MapCmds.lean ====
section
/-! DEFINITION. The Map Engine's own events (R251, R258, R260, R266 to R268, R270, R272): the page scrub, padding, band
opening, reclaim, erases and wear levelling. -/

namespace Sys2Proof.Machine

/-- Whether placement, reclaim and wear levelling run in the mode (R283). -/
def State.mapRuns (s : State) : Bool := s.mode == .run || s.mode == .degraded || s.mode == .trial

/-- MAP_PAGE_SCRUB (R251, R504): every page held in D5 SDRAM is read and has its CRC checked. An uncorrectable word outside the map leads to SAFE
with media read-only under cause 0x06. -/
def execMapPageScrub (found : ScrubFound) (s : State) : Res :=
  if !(s.mapRuns || (s.mode == .safe && s.fld F.EVU_SAFE_MEDIA != 2)) then .next s
  else
    let held (s : State) (b : Nat × Nat) : Bool := (s.mapPage b.1 b.2).resident && (s.mapPage b.1 b.2).crcOk
    let s1 := if found.ce then s.post F.DEV_EVT_STATUS_D5_CE noUnit else s
    let s2 := (found.bad.filter (held s)).foldl (fun (s : State) b => s.pageBad b.1 b.2) s1
    let s3 := (found.ueMap.filter (held s2)).foldl (fun (s : State) b => s.pageBad b.1 b.2 F.DEV_EVT_STATUS_D5_UE_MAP) s2
    let s4 := if found.ue then ((s3.postAs F.DEV_EVT_STATUS_D5_UE 27 .uncorrectable noUnit).enterSafe 6 false).settle else s3
    .next s4.settleCmds

/-- IDLE_PAD_TIMEOUT (R260): a write point that no IU has reached for IDLE_PAD ms pads its open wordline. -/
def execIdlePadTimeout (wp : Nat) (s : State) : Res :=
  if !s.mapRuns || s.now < (s.wp wp).lastIu + s.fld F.MAP_WP_CFG_IDLE_PAD * msT then .next s
  else .next (s.padWp wp).pump

/-- The erase count of a band, as the sum over its blocks. -/
def State.bandErases (s : State) (b : Band) : Nat :=
  ((s.map.groups.getD b.group []).map (fun l => s.eraseCount l b.block)).sum

/-- The first element of a list with the best measure. -/
def bestBy {α : Type} (better : α → α → Bool) (l : List α) : Option α :=
  l.foldl (fun m x => match m with
    | none => some x
    | some y => if better x y then some x else some y) none

/-- The free band that a write point opens (R258): the lowest mean erase count, for point 3 the highest, among the groups
in which it has no open band. -/
def State.pickFree (s : State) (i : Nat) : Option Band :=
  let mine := (s.map.bands.filter (fun b => b.state == .open && b.wp == some i)).map (fun b => b.group)
  let free := s.map.bands.filter (fun b => b.state == .free && !mine.contains b.group)
  let mean (b : Band) : Nat × Nat := (s.bandErases b, max 1 ((s.map.groups.getD b.group []).length))
  let less (x y : Band) : Bool := decide ((mean x).1 * (mean y).2 < (mean y).1 * (mean x).2)
  bestBy (fun x y => if i = 3 then less y x else less x y) free

/-- BAND_OPEN (R258, R261, R287, R334): a write point with fewer than WIDTH open bands opens one; a host write point only
while the free count exceeds the critical threshold. A band that would have fewer than 3 members is retired instead. -/
def execBandOpen (wp : Nat) (s : State) : Res :=
  let openN := (s.map.bands.filter (fun b => b.state == .open && b.wp == some wp)).length
  if 128 ≤ wp || !s.wpRuns || s.wpWidth wp ≤ openN || (8 ≤ wp && s.freeBands ≤ s.gcBands F.MAP_GC_THRESH_CRIT) then .next s
  else
    match s.pickFree wp with
    | none => .next s
    | some b =>
      if (s.bandMembers b.group b.block).length < 3 then
        .next (s.updBand b.ix (fun b => { b with state := .retired })).refreshLevel
      else
      let s1 := (s.cacheCounts b (s.bandMembers b.group b.block)).updBand b.ix (fun b => { b with
        state := .open, wp := some wp, members := s.bandMembers b.group b.block, bos := s.map.nextBos
        lost := [], unprot := [], wl := 0, pos := 0, fill := [], pbands := [], padded := false, newest := 0, valid := 0 })
      let s2 : State := { s1 with map := { s1.map with nextBos := s1.map.nextBos + 1 } }
      .next s2.refreshLevel.runWritePoints

/-! ## Reclaim -/

/-- Whether a closed band has no open stripe, no move in progress, no pending erase (R267) and no unit that still has to take effect. -/
def State.isCandidate (s : State) (b : Band) : Bool :=
  b.state == .closed && b.moving.isNone && b.erasing.isEmpty && !b.erasePend && !s.map.stripes.any (fun t => t.band == b.ix)
    && !s.map.inflight.any (fun r => r.landed.any (fun a => s.blockOf a == b.block && b.members.contains (lunOf a)))

/-- Whether one candidate scores above another (R267): greedy from Paced on, otherwise (1 − u) × age ÷ (1 + u), compared
without division. -/
def State.scoresAbove (s : State) (x y : Band) : Bool :=
  let cx := max 1 (s.bandCap x)
  let cy := max 1 (s.bandCap y)
  if 2 ≤ s.map.level then decide ((cy - y.valid) * cx < (cx - x.valid) * cy)
  else
    let age (b : Band) : Nat := max secT (s.now - b.newest)
    decide ((cy - y.valid) * age y * (cx + x.valid) < (cx - x.valid) * age x * (cy + y.valid))

/-- Victims that reclaim may move at once (R266): none while Idle, one per 48 open host bands in Background, up to 48
from Paced on. -/
def State.victimLimit (s : State) : Nat :=
  match s.map.level with
  | 0 => 0
  | 1 => max 1 ((s.map.bands.filter (fun b => b.state == .open && (b.wp.map (fun i => decide (8 ≤ i))).getD false)).length / 48)
  | _ => 48

/-- RECLAIM_VICTIM_PICK (R266, R267, R347, R353): exposed bands go first, fewest valid IUs first, through write point 5,
then bands queued for refresh; of the others the candidate with the highest score is moved, the lowest index on a tie.
One with no valid IU is erased at once. Log entry 105 (DESIGN CHOICE). -/
def execReclaimVictimPick (s : State) : Res :=
  if !s.mapRuns || s.pwr.entry.isSome then .next s
  else
    match bestBy s.scoresAbove (s.map.bands.filter (fun b => s.isCandidate b && b.valid == 0)) with
    | some b => .next (s.startErase b.ix)
    | none =>
      let cand := s.map.bands.filter s.isCandidate
      match bestBy (fun x y => decide (x.valid < y.valid)) (cand.filter (fun b => b.exposed)), cand.find? (fun b => b.refresh.isSome) with
      | some b, _ => .next (s.startMoves b.ix (some 5) 4)
      | none, some b => .next (s.startMoves b.ix (some 4) (b.refresh.getD 4))
      | none, none =>
      let busy := (s.map.bands.filter (fun b => b.moving == some 1)).length
      if s.victimLimit ≤ busy then .next s
      else
        match bestBy s.scoresAbove cand with
        | none => .next s
        | some b => .next (s.startMoves b.ix none (if 2 ≤ s.map.level then 3 else 4))

/-- BAND_ERASE_START (R270): a band that is not open and holds no valid IU is erased. -/
def execBandEraseStart (band : Nat) (s : State) : Res :=
  match s.band band with
  | none => .next s
  | some b => if s.mapRuns && s.isCandidate b && b.valid == 0 then .next (s.startErase band) else .next s

/-! ## Wear levelling -/

/-- The erase counts of the in-service blocks that are no Blotter blocks (R272). -/
def State.serviceCounts (s : State) : List Nat :=
  (s.map.bands.filter (fun b => b.state != .retired)).flatMap (fun b =>
    (s.bandMembers b.group b.block).map (fun l => s.eraseCount l b.block))

/-- WEAR_SPREAD_CHECK (R272): a spread above SPREAD sets SPREAD_OVER and moves the closed band with the lowest mean erase
count, the oldest newest ink time on a tie, one band at a time. -/
def execWearSpreadCheck (s : State) : Res :=
  let cs := s.serviceCounts
  let hi := cs.foldl max 0
  let lo := cs.foldl min hi
  if !s.mapRuns || s.pwr.entry.isSome || !s.flag F.MAP_CTRL_WL_EN || hi - lo ≤ s.fld F.MAP_WEAR_SPREAD then .next s
  else
    let s1 := s.post F.MAP_EVT_STATUS_SPREAD_OVER noUnit
    if s1.map.wlBand.isSome then .next s1
    else
      let n (b : Band) : Nat := max 1 ((s.map.groups.getD b.group []).length)
      let better (x y : Band) : Bool :=
        let a := s.bandErases x * n y
        let b := s.bandErases y * n x
        decide (a < b) || (a == b && decide (x.newest < y.newest))
      match bestBy better (s1.map.bands.filter s1.isCandidate) with
      | none => .next s1
      | some b =>
        let s2 := ({ s1 with map := { s1.map with wlBand := some b.ix } }).startMoves b.ix (some 3) 4
        if (s1.validIn b).isEmpty then .next (s2.moveDone b.ix) else .next s2

end Sys2Proof.Machine
end

