-- ==== Sys2Proof/Machine/Mgmt.lean ====
section
/-! DEFINITION. The management port (chapter 18): the bus and its MCTP endpoint, the NVMe-MI commands, the register window and the sideband
side of the Management Authority lock. -/

namespace Sys2Proof.Machine

/-! ## The bus and MCTP control (R621 to R623, R635) -/

/-- VAUX_33_GOOD (R622): the always-on island starts in OFF, samples the address straps and begins in SMBus mode. Log entry 80 (DEDUCED). -/
def execVaux33Good (straps : Nat) (s : State) : Res :=
  if s.pwr.vaux then .next s
  else .next { s with pwr := { s.pwr with vaux := true }, mgmt := { s.mgmt with straps := straps % 4 } }

/-- The port's static address (R622). -/
def State.staticAddr (s : State) : Nat := 0x1D + s.mgmt.straps

/-- The port takes a dynamic address and enters I3C mode (R622). -/
def State.setDyn (s : State) (addr : Nat) : State := { s with mgmt := { s.mgmt with i3c := true, dyn := some addr } }

/-- ENTDAA (R622). -/
def execEntdaa (addr : Nat) (s : State) : Res := if s.pwr.vaux && addr < 128 then .next (s.setDyn addr) else .next s

/-- SETDASA (R622): to the port's own static address only. -/
def execSetdasa (addr dyn : Nat) (s : State) : Res :=
  if s.pwr.vaux && addr = s.staticAddr && dyn < 128 then .next (s.setDyn dyn) else .next s

/-- RSTDAA (R622, R623): back to SMBus mode, and the endpoint ID is cleared. -/
def execRstdaa (s : State) : Res :=
  if s.pwr.vaux then .next { s with mgmt := { s.mgmt with i3c := false, dyn := none, eid := 0 } } else .next s

/-- A message that waits for the wake from DOZE (R628); `slot` says whether it takes an NVMe-MI command slot. Log entry 37 (DEDUCED). -/
def State.holdMsg (s : State) (slot : Bool) (i : Request) : State :=
  let s1 := s.wakeEvent 8
  { s1 with mgmt := { s1.mgmt with held := s1.mgmt.held ++ [(slot, i)] } }

/-- An MCTP message (R628): `i` received in DOZE is a wake event, and is answered after the wake. Log entries 37 and 76 (DEDUCED, DESIGN
CHOICE). Log entries 37 and 76 (DEDUCED, DESIGN CHOICE). -/
def State.mctp (s : State) (i : Request) (k : State → State) : Res :=
  if !s.pwr.vaux then .next s
  else if s.mode = .doze then .next (s.holdMsg false i)
  else .next (k (s.wakeEvent 8))

/-- SET_ENDPOINT_ID (R623): operations 0 and 1 assign the ID; 0 and 0xFF are no endpoint's IDs. -/
def execSetEndpointId (op eid : Nat) (s : State) : Res :=
  s.mctp (.setEndpointId op eid) (fun s =>
    if 1 < op || eid = 0 || 255 ≤ eid then s.emit (.mctp 1 [2])
    else ({ s with mgmt := { s.mgmt with eid } }).emit (.mctp 1 [0, 0, eid, 0]))

/-- GET_ENDPOINT_ID (R623). -/
def execGetEndpointId (s : State) : Res := s.mctp .getEndpointId (fun s => s.emit (.mctp 2 [0, s.mgmt.eid]))

/-- GET_ENDPOINT_UUID (R623). Log entry 12 (DESIGN CHOICE). -/
def execGetEndpointUuid (s : State) : Res := s.mctp .getEndpointUuid (fun s => s.emit (.mctp 3 [0, Config.endpointUuid]))

/-- The MCTP message types that the endpoint accepts (R623). -/
def mctpTypes : List Nat := [0x00, 0x04, 0x05, 0x06]

/-- GET_MCTP_VERSION_SUPPORT (R623): for the base (0xFF) and the accepted types. Log entry 12 (DESIGN CHOICE). -/
def execGetMctpVersionSupport (kind : Nat) (s : State) : Res :=
  s.mctp (.getMctpVersionSupport kind) (fun s => if kind = 0xFF || mctpTypes.contains kind then s.emit (.mctp 4 (0 :: Config.mctpVersions kind)) else s.emit (.mctp 4 [0x80]))

/-- GET_MESSAGE_TYPE_SUPPORT (R623). -/
def execGetMessageTypeSupport (s : State) : Res := s.mctp .getMessageTypeSupport (fun s => s.emit (.mctp 5 (0 :: mctpTypes.length :: mctpTypes)))

/-! ## What every MI command goes through -/

/-- The kinds of request that the modes serve (R628). -/
inductive Service where
  | poll | info | vpd | powerOn | powerOff | lock | window | full
  deriving DecidableEq, Repr

/-- Whether the mode serves a request (R628). Log entries 38 and 80 (DEDUCED). -/
def State.miServes (s : State) (x : Service) : Bool :=
  match s.mode, x with
  | .holdUp, x => x == .poll
  | .off, .full => false
  | .off, .powerOff => false
  | .boot, .full => false
  | .off, .vpd => s.mgmt.vpd.isSome
  | _, _ => true

/-- The holder's last command (R632). -/
def State.miTouch (s : State) (eid : Nat) : State :=
  if s.mgmt.lock = some .mgmt && s.mgmt.lockEid = eid then { s with mgmt := { s.mgmt with lockAt := s.now } } else s

/-- The NVMe-MI command slots in use (R624): by tunnelled commands that run, and by requests that wait for the wake. -/
def State.slotsUsed (s : State) : Nat := s.mgmt.tunnels + (s.mgmt.held.filter (fun e => e.1)).length

/-- An MI request (R627, R628, R634): what the mode does not serve completes with 0xE0. In DOZE it waits in a command slot for the wake;
with both in use it is discarded. Log entries 17 and 37 (DEDUCED, PRESUMED). -/
def State.mi (s : State) (i : Request) (eid : Nat) (x : Service) (k : State → State) : Res :=
  if s.pwr.vaux && s.mode = .doze then .next (if 2 ≤ s.slotsUsed then s.wakeEvent 8 else s.holdMsg true i)
  else s.mctp i (fun s =>
    if s.miServes x then k (s.miTouch eid) else s.emit (.mi 0xE0 [s.mode.code]))

/-- Who holds the lock against an endpoint (R630). Log entry 38 (DEDUCED). -/
def State.sideHeld (s : State) (eid : Nat) : Option Holder :=
  match s.mgmt.lock with
  | some h => if h = .mgmt && s.mgmt.lockEid = eid then none else some h
  | none => none

/-- A command that takes the lock for its own duration (R626, R629). Log entry 38 (DEDUCED). -/
def State.underLock (s : State) (eid : Nat) (k : State → State) : State :=
  match s.sideHeld eid with
  | some h => s.emit (.mi 0xE1 [h.code])
  | none => k s

/-! ## NVMe-MI (R624) -/

/-- A temperature as one byte, two's complement. -/
def tempByte (t : Int) : Nat := (t % 256).toNat

/-- What the always-on island caches for the health polls (R628): mode, sensor 31, the last shutdown record's kind and the last-wake
record. -/
def State.aonCache (s : State) : List Nat :=
  [s.mode.code, tempByte (s.thm.reading 31), s.mgmt.kind, s.reg F.PWR_LAST_WAKE_SOURCE.key, s.reg F.PWR_LAST_WAKE_LO_NS.key, s.reg F.PWR_LAST_WAKE_HI_NS.key]

/-- Whether health is read from the cache only (R628). -/
def State.fromCache (s : State) : Bool := s.mode == .off || s.mode == .boot || s.mode == .holdUp

/-- NVM_SUBSYSTEM_HEALTH_STATUS_POLL (R624, R628): the cache, and where the core serves the critical warnings and the composite
temperature. -/
def execNvmSubsystemHealthStatusPoll (eid : Nat) (s : State) : Res :=
  s.mi (.nvmSubsystemHealthStatusPoll eid) eid .poll (fun s => s.emit (.mi 0 (s.aonCache ++ (if s.fromCache then [] else [s.critical 0, s.smartTemps.1]))))

/-- CONTROLLER_HEALTH_STATUS_POLL (R624, R628): CSTS, critical warnings and composite temperature of one controller. -/
def execControllerHealthStatusPoll (eid ctrl : Nat) (s : State) : Res :=
  s.mi (.controllerHealthStatusPoll eid ctrl) eid .poll (fun s =>
    if s.fromCache then s.emit (.mi 0 s.aonCache)
    else match s.ctrl ctrl with
      | some k => s.emit (.mi 0 (s.aonCache ++ [ctrl, bit k.rdy + 2 * bit k.cfs + 4 * k.shst, s.critical ctrl, s.smartTemps.1]))
      | none => s.emit (.mi 4 []))

/-- READ_NVME_MI_DATA_STRUCTURE (R624): 0 the subsystem, 1 a port, 2 the controllers, 3 a controller, 4 the optional commands. Log entry 17 (PRESUMED). -/
def execReadNvmeMiDataStructure (eid dtyp id : Nat) (s : State) : Res :=
  s.mi (.readNvmeMiDataStructure eid dtyp id) eid .info (fun s =>
    match dtyp with
    | 0 => s.emit (.mi 0 [bit (s.flag F.HP_CFG_DUAL) + 1, 2])
    | 1 => if id < 2 + bit (s.flag F.HP_CFG_DUAL) then s.emit (.mi 0 [id, 64]) else s.emit (.mi 4 [])
    | 2 => s.emit (.mi 0 (s.qe.ctrls.map (fun k => k.id)))
    | 3 => match s.ctrl id with
      | some k => s.emit (.mi 0 [k.id, s.portOf k.id])
      | none => s.emit (.mi 4 [])
    | 4 => s.emit (.mi 0 [0xC0, 0xC1, 0xC2, 0xC3, 0xC4, 0xC5])
    | _ => s.emit (.mi 4 []))

/-- The configuration values of NVMe-MI with their defaults: 1 the SMBus frequency, 3 the transmission unit (R623). -/
def State.miCfg (s : State) (id : Nat) : Nat := (s.mgmt.cfg.lookup id).getD (if id = 3 then 64 else if id = 1 then 1 else 0)

/-- CONFIGURATION_GET (R624): SMBus frequency, health status change and MCTP transmission unit. -/
def execConfigurationGet (eid id : Nat) (s : State) : Res :=
  s.mi (.configurationGet eid id) eid .full (fun s => if 1 ≤ id && id ≤ 3 then s.emit (.mi 0 [s.miCfg id]) else s.emit (.mi 4 []))

/-- CONFIGURATION_SET (R621, R623, R624): 100 kHz, 400 kHz or 1 MHz, and a transmission unit of 64 B. Log entry 17 (PRESUMED). -/
def execConfigurationSet (eid id value : Nat) (s : State) : Res :=
  s.mi (.configurationSet eid id value) eid .full (fun s =>
    let ok := (id = 1 && 1 ≤ value && value ≤ 3) || id = 2 || (id = 3 && value = 64)
    if ok then ({ s with mgmt := { s.mgmt with cfg := (id, value) :: s.mgmt.cfg.filter (fun e => e.1 != id) } }).emit (.mi 0 [])
    else s.emit (.mi 4 []))

/-- VPD_READ (R624): the 512 B of fuse words 98 to 161 as cached at the last BOOT. -/
def execVpdRead (eid off len : Nat) (s : State) : Res :=
  s.mi (.vpdRead eid off len) eid .vpd (fun s =>
    let w := s.mgmt.vpd.getD []
    if 512 < off + len then s.emit (.mi 4 [])
    else s.emit (.mi 0 ((List.range len).map (fun i => w.getD ((off + i) / 8) 0 / 2 ^ (8 * ((off + i) % 8)) % 256))))

/-- TUNNELLED_ADMIN_COMMAND (R624, R628, R634): the command takes one of two slots and then runs on PF0 as the row of its own; a third
is discarded. OFF and BOOT answer only a Get Log Page (`page`) of 0xC2's header and of 0xC0's BOOT_SEQ and DIGEST. Log entry 39 (DEDUCED). -/
def execTunnelledAdminCommand (eid req resp : Nat) (page : Option Nat) (s : State) : Res :=
  if s.mode = .off || s.mode = .boot then
    s.mctp (.tunnelledAdminCommand eid req resp page) (fun s =>
      match page with
      | some 0xC2 => s.emit (.data .side 2 0xC2 0 64 s.healthHeader)
      | some 0xC0 => s.emit (.data .side 2 0xC0 0 72 [(0, 8, s.mgmt.bootSeq), (24, 48, s.mgmt.digest)])
      | _ => s.emit (.mi 0xE0 [s.mode.code]))
  else
    s.mi (.tunnelledAdminCommand eid req resp page) eid .full (fun s =>
      if 2 ≤ s.mgmt.tunnels then s
      else if 4096 < req || 4096 < resp then s.emit (.mi 6 [])
      else { s with mgmt := { s.mgmt with tunnels := s.mgmt.tunnels + 1, tunnelEid := eid } })

/-! ## Vendor management commands (R626, R627) -/

/-- POWER_ON (R590, R627): outside OFF it succeeds and changes nothing. Log entries 38 and 80 (DEDUCED). -/
def execPowerOn (eid : Nat) (s : State) : Res :=
  s.mi (.powerOn eid) eid .powerOn (fun s => s.underLock eid (fun s => ((if s.mode = .off then ({ s with pwr := { s.pwr with thermN := false } }.setFld F.PWR_STATUS_THERM_LATCH 0).powerUpRequest 2 else s).emit (.mi 0 []))))

/-- POWER_OFF (R590, R592, R627). -/
def execPowerOff (eid : Nat) (s : State) : Res :=
  s.mi (.powerOff eid) eid .powerOff (fun s => s.underLock eid (fun s => (s.offRequest 5).emit (.mi 0 [])))

/-! ## The register window (R629) -/

/-- Whether a run of dwords lies in the window. -/
def windowOk (off dwords : Nat) : Bool := off % 4 == 0 && 1 ≤ dwords && dwords ≤ 16 && off + 4 * dwords ≤ 0x80000

/-- Whether the mode serves these offsets (R628): in OFF and BOOT only PWR_ and THM_. -/
def State.windowServes (s : State) (off dwords : Nat) : Bool :=
  !(s.mode == .off || s.mode == .boot) || (0xA000 ≤ off && off + 4 * dwords ≤ 0xC000)

/-- REGISTER_WINDOW_READ (R628, R629): never refused for the lock. -/
def execRegisterWindowRead (eid off dwords : Nat) (s : State) : Res :=
  s.mi (.registerWindowRead eid off dwords) eid .window (fun s =>
    if !windowOk off dwords then s.emit (.mi 4 [])
    else if !s.windowServes off dwords then s.emit (.mi 0xE0 [s.mode.code])
    else
      let read (acc : State × List Nat) (i : Nat) : State × List Nat := let r := acc.1.regReadStep (off + 4 * i); (r.1, acc.2 ++ [r.2])
      let r := (List.range dwords).foldl read (s, [])
      r.1.emit (.mi 0 r.2))

/-- One dword of a window write. -/
def State.windowWrite (s : State) (off v : Nat) : State := if 0x40000 ≤ off then s.scrWrite off 4 v else s.regWrite off 15 v

/-! ## The lock (R630 to R632) -/

/-- MI_AUTHORITY_ACQUIRE (R630). -/
def execMiAuthorityAcquire (eid : Nat) (s : State) : Res :=
  s.mi (.miAuthorityAcquire eid) eid .lock (fun s =>
    match s.sideHeld eid with
    | some h => s.emit (.mi 0xE1 [h.code])
    | none => (s.takeLock .mgmt eid).emit (.mi 0 []))

/-- MI_AUTHORITY_RELEASE (R630, R631). -/
def execMiAuthorityRelease (eid : Nat) (s : State) : Res :=
  s.mi (.miAuthorityRelease eid) eid .lock (fun s =>
    if s.mgmt.lock != some .mgmt || (s.sideHeld eid).isSome then s.emit (.mi 4 []) else s.giveLock.emit (.mi 0 []))

/-- AUTHORITY_LAPSE (R632): an explicit holding whose holder has issued no command for 60 s; commands that run under it go on. -/
def execAuthorityLapse (s : State) : Res :=
  if s.mgmt.lock.isSome && !s.mgmt.lockTemp && s.mgmt.lockAt + 60 * secT ≤ s.now then .next s.freeLock else .next s

end Sys2Proof.Machine
end

