-- ==== Sys2Proof/Machine/Namespaces.lean ====
section
/-! DEFINITION. Namespace Management and Attachment, Format NVM and Sanitize (R181, R203, R234 to R236, R262, R263, R279 to R281, R310,
R313, R529). -/

namespace Sys2Proof.Machine

/-! ## What PF commands share -/

/-- A command that only a PF and the management port may send (R181). Log entry 42 (PRESUMED). -/
def State.pfOnly (s : State) (ref : Ref) (k : State → State) : Res :=
  s.begin ref (fun s => if fromVf ref then s.complete ref .invalidOpcode 0 else k s)

/-- A command that a running sanitize stops (R281, base specification). Log entry 41 (PRESUMED). -/
def State.notSanitizing (s : State) (ref : Ref) (k : State → State) : State :=
  if s.map.sanitize.active != 0 then s.complete ref .sanitizeInProgress 0 else k s

/-! ## Namespaces -/

/-- Namespace Management create (R203, R235, R263): the lowest free NSID and the lowest empty key slot; it completes once the key table
that holds its key is in the Folio (R529). Log entry 6 (DEDUCED). -/
def State.nsCreate (s : State) (ref : Ref) (blocks lbaf : Nat) (handles : List Nat) : State :=
  let n : Ns := { nsid := s.freeNsid, blocks, lbaf, handles := if handles.isEmpty then [0] else handles, born := s.now }
  if s.lifecycle = 5 then s.complete ref .cmdSeqError 0
  else if 2 < lbaf then s.complete ref .invalidFormat 0
  else if blocks = 0 || handles.any (fun h => s.fld F.MAP_WP_CFG_HANDLES ≤ h) then s.complete ref .invalidField 0
  else if s.freeNsids = 0 then s.complete ref .nsIdUnavailable 0
  else
    match s.freeSlots 1 with
    | [] => (s.post F.INK_EVT_STATUS_KEY_FULL noUnit).complete ref .nsIdUnavailable 0
    | slot :: _ =>
      if s.capacityIus < s.neededIus + ceilDiv (blocks * n.blkSectors) s.iuSectors then s.complete ref .nsInsufficientCapacity 0
      else
        let key := s.fol.nextKey
        let k : KeySlot := ⟨slot, key⟩
        let s1 : State := { s with
          qe := { s.qe with nss := s.qe.nss ++ [{ n with key := some slot }] }
          ink := { s.ink with keys := k :: s.ink.keys }
          fol := { s.fol with nextKey := key + 1, keyTab := (n.nsid, key) :: s.fol.keyTab.filter (fun e => e.1 != n.nsid) } }
        s1.folio { job := .keys false, erase := true, ref := some ref, dw0 := n.nsid }

/-- Deletes one namespace (R236): its commands end with Invalid Namespace or Format, its IUs are unmapped and its key slot is cleared. -/
def State.nsDelete (s : State) (n : Ns) : State :=
  let s1 := (s.endNsCmds n.nsid).unmapNs n.nsid
  let mine (f : Feat) : Bool := f.scope == n.nsid && (f.fid == 0xC0 || f.fid == 0x82 || f.fid == 0x1E)
  { s1 with
    qe := { s1.qe with
      nss := s1.qe.nss.filter (fun m => m.nsid != n.nsid)
      feats := s1.qe.feats.filter (fun f => !mine f)
      savedFeats := s1.qe.savedFeats.filter (fun f => !mine f)
      dirs := s1.qe.dirs.filter (fun d => d.2 != n.nsid) }
    ink := { s1.ink with pendingClear := s1.ink.pendingClear ++ n.key.toList }
    map := { s1.map with pages := s1.map.pages.filter (fun p => p.nsid != n.nsid) }
    fol := { s1.fol with
      keyTab := s1.fol.keyTab.filter (fun e => e.1 != n.nsid)
      resvRecs := s1.fol.resvRecs.filter (fun e => e.1 != n.nsid) } }

/-- Namespace Management delete (R236, R313): of a snapshot namespace it releases the cut; NSID 0xFFFFFFFF names every namespace. -/
def State.nsDeleteCmd (s : State) (ref : Ref) (nsid : Nat) : State :=
  let all := s.qe.nss.filter (fun n => nsid == 0xFFFFFFFF || n.nsid == nsid)
  let cuts := (all.filterMap (fun n => n.cut)).eraseDups
  let live := all.filter (fun n => n.cut.isNone)
  if all.isEmpty && nsid != 0xFFFFFFFF then s.complete ref .invalidNamespace 0
  else
    let s1 := live.foldl State.nsDelete (cuts.foldl State.releaseCut s)
    if live.isEmpty then s1.complete ref .success 0
    else (s1.nsChanged (live.map (fun n => n.nsid))).folio { job := .keys false, erase := true, ref := some ref }

/-- NAMESPACE_MANAGEMENT (R181, R235, R236): SEL 0 creates, 1 deletes. -/
def execNamespaceManagement (ref : Ref) (sel nsid blocks lbaf : Nat) (handles : List Nat) (s : State) : Res :=
  s.pfOnly ref (fun s => s.notSanitizing ref (fun s =>
    match sel with
    | 0 => s.nsCreate ref blocks lbaf handles
    | 1 => s.nsDeleteCmd ref nsid
    | _ => s.complete ref .invalidField 0))

/-- Namespace Attachment (R181): every named controller must exist, and hold none of the attachments to be made or all of those to be
undone. -/
def State.attach (s : State) (ref : Ref) (on : Bool) (nsid : Nat) (ctrls : List Nat) : State :=
  match s.ns nsid with
  | none => s.complete ref .invalidNamespace 0
  | some n =>
    if ctrls.isEmpty || ctrls.any (fun c => (s.ctrl c).isNone) then s.complete ref .controllerListInvalid 0
    else if on && ctrls.any n.attached.contains then s.complete ref .nsAlreadyAttached 0
    else if !on && ctrls.any (fun c => !n.attached.contains c) then s.complete ref .nsNotAttached 0
    else
      let s1 := s.updNs nsid (fun n => { n with attached := if on then n.attached ++ ctrls.eraseDups else n.attached.filter (fun c => !ctrls.contains c) })
      let new := (ctrls.map (fun c => (c, nsid))).filter (fun e => !s1.qe.nsLog.contains e)
      let s2 : State := { s1 with qe := { s1.qe with nsLog := s1.qe.nsLog ++ new.eraseDups } }
      (ctrls.foldl (fun (s : State) c => if (s.ctrl c).any (fun k => k.en) then s.aenTo 64 c else s) s2).complete ref .success 0

/-- NAMESPACE_ATTACHMENT (R181): SEL 0 attaches, 1 detaches. -/
def execNamespaceAttachment (ref : Ref) (sel nsid : Nat) (ctrls : List Nat) (s : State) : Res :=
  s.pfOnly ref (fun s => s.notSanitizing ref (fun s =>
    if 1 < sel then s.complete ref .invalidField 0 else s.attach ref (sel == 0) nsid ctrls))

/-! ## Format NVM -/

/-- Formats one namespace (R181): its IUs are unmapped, its size in bytes is kept, and a secure erase replaces its key. Log entries 16 and 41 (PRESUMED). -/
def State.formatNs (s : State) (lbaf ses : Nat) (n : Ns) : State :=
  let s1 := s.unmapNs n.nsid
  let put (m : Ns) : Ns := { m with lbaf, blocks := m.blocks * m.blkSectors / ({ m with lbaf } : Ns).blkSectors, born := s.now }
  let s2 := s1.updNs n.nsid put
  if ses = 0 then s2 else s2.rekeyNs n

/-- FORMAT_NVM (R181, R234, R310): LBA formats 0 to 2; the snapshots of a cut are read-only; SES 1 and 2 replace the key. Log entry 41 (PRESUMED). -/
def State.format (s : State) (ref : Ref) (nsid lbaf ses : Nat) : State :=
  let ns := s.qe.nss.filter (fun n => (nsid == 0xFFFFFFFF && n.cut.isNone) || n.nsid == nsid)
  if 2 < lbaf then s.complete ref .invalidFormat 0
  else if 2 < ses then s.complete ref .invalidField 0
  else if ns.isEmpty && nsid != 0xFFFFFFFF then s.complete ref .invalidNamespace 0
  else if ns.any (fun n => n.cut.isSome) then s.complete ref .writeProtected 0
  else if s.qe.cmds.any (fun c => ns.any (fun n => n.nsid == c.nsid)) then s.complete ref .cmdSeqError 0
  else
    let s1 := ns.foldl (fun (s : State) n => s.formatNs lbaf ses n) s
    if ses = 0 || ns.isEmpty then s1.complete ref .success 0
    else s1.folio { job := .keys false, erase := true, ref := some ref }

/-- FORMAT_NVM (R181). -/
def execFormatNvm (ref : Ref) (nsid lbaf ses : Nat) (s : State) : Res :=
  s.pfOnly ref (fun s => s.notSanitizing ref (fun s => s.format ref nsid lbaf ses))

/-! ## Sanitize -/

/-- Begins a sanitize operation (R279 to R281): its state is in the Folio before the command completes, and its steps follow. Log entry 41 (PRESUMED). -/
def State.startSanitize (s : State) (ref : Ref) (sanact : Nat) (ause : Bool) : State :=
  let z := s.map.sanitize
  if z.failed && !z.ause && ause then s.complete ref .sanitizeFailed 0
  else
    let z1 : Sanitize := { active := sanact, failed := false, ause, left := 0, cdw10 := sanact + 8 * bit ause }
    ({ s with map := { s.map with sanitize := z1 } }).folio { job := .sanitize, erase := true, ref := some ref }

/-- Sanitize with any SANACT (R279): 010b, 100b and 001b are supported. -/
def State.sanitizeCmd (s : State) (ref : Ref) (sanact : Nat) (ause : Bool) : State :=
  s.notSanitizing ref (fun s =>
    match sanact with
    | 1 =>
      let z := s.map.sanitize
      if !z.failed then s.complete ref .success 0
      else if !z.ause then s.complete ref .sanitizeFailed 0
      else ({ s with map := { s.map with sanitize := { z with failed := false } } }).folio { job := .sanitize, erase := true, ref := some ref }
    | 2 => s.startSanitize ref 2 ause
    | 4 => s.startSanitize ref 4 ause
    | _ => s.complete ref .invalidField 0)

/-- SANITIZE_BLOCK_ERASE (R279, R280). -/
def execSanitizeBlockErase (ref : Ref) (ause : Bool) (s : State) : Res := s.pfOnly ref (fun s => s.sanitizeCmd ref 2 ause)

/-- SANITIZE_CRYPTO_ERASE (R279, R280). -/
def execSanitizeCryptoErase (ref : Ref) (ause : Bool) (s : State) : Res := s.pfOnly ref (fun s => s.sanitizeCmd ref 4 ause)

/-- SANITIZE_EXIT_FAILURE (R279): SANACT 001b; any other SANACT acts as that one, and an unsupported one is refused. -/
def execSanitizeExitFailure (ref : Ref) (sanact : Nat) (ause : Bool) (s : State) : Res := s.pfOnly ref (fun s => s.sanitizeCmd ref sanact ause)

end Sys2Proof.Machine
end

