-- ==== Sys2Proof/Machine/Patrol.lean ====
section
/-! DEFINITION. Patrol (R192, R351, R352). -/

namespace Sys2Proof.Machine

/-- The patrol period in 1/256 ns: feature 0xC4 in days (R192). -/
def State.patrolPeriod (s : State) : Nat := s.feat 0xC4 0 7 * dayT

/-- The members of a band that patrol can read. -/
def Band.readable (b : Band) : List Nat := b.members.filter (fun l => !b.lost.contains l)

/-- Pages of a band that a pass reads: every page of every plane of every member (R351). -/
def State.patrolPages (s : State) (b : Band) : Nat := b.readable.length * s.geoPages * s.geoPlanes

/-- Whether a band belongs to the pass in progress: closed before it began and not erased since (R352). -/
def State.inPass (s : State) (ix : Nat) : Bool :=
  match s.band ix with | some b => b.state == .closed && decide (b.closedAt ≤ s.map.patrolAt) | none => false

/-- Pages left in the pass. -/
def State.patrolRest (s : State) : Nat :=
  ((s.map.patrolLeft.filter s.inPass).map (fun ix => ((s.band ix).map s.patrolPages).getD 0)).sum - s.map.patrolPos

/-- Puts a band into ascending order of its closing count (R352). -/
def insertBand (b : Band) : List Band → List Band
  | [] => [b]
  | x :: xs => if b.closedAt < x.closedAt then b :: x :: xs else x :: insertBand b xs

/-- Begins a pass over the bands that are closed now (R351, R352). -/
def State.startPass (s : State) : State :=
  let bs := (s.map.bands.filter (fun b => b.state == .closed)).foldr insertBand []
  let s1 : State := { s with map := { s.map with
    patrolAt := s.now, patrolLeft := bs.map (fun b => b.ix), patrolPos := 0, patrolDone := 0, patrolTotal := (bs.map s.patrolPages).sum } }
  s1.setFld F.LIG_PATROL_POS_PASS (s.fld F.LIG_PATROL_POS_PASS + 1)

/-- Reads the next `n` pages of the pass, each by one class 5 READ stroke of one codeword (R351). The fuel bounds the pages
and the bands that are skipped. -/
def State.patrolRead : Nat → Nat → State → State
  | 0, _, s => s
  | _ + 1, 0, s => s
  | fuel + 1, n + 1, s =>
    match s.map.patrolLeft with
    | [] => s
    | ix :: rest =>
      match s.band ix with
      | none => State.patrolRead fuel (n + 1) { s with map := { s.map with patrolLeft := rest, patrolPos := 0 } }
      | some b =>
        let p := s.map.patrolPos
        if !s.inPass ix || s.patrolPages b ≤ p then
          State.patrolRead fuel (n + 1) { s with map := { s.map with patrolLeft := rest, patrolPos := 0 } }
        else
          let per := s.geoPages * s.geoPlanes
          let l := b.readable.getD (p / per) 0
          let q := p % per
          let u := s.fld F.LIG_PATROL_POS_PASS % 2 ^ s.fld F.MAP_GEOM_UNIT_W
          let s1 : State := { s with map := { s.map with patrolPos := p + 1, patrolDone := s.map.patrolDone + 1 } }
          let f : Fetch := { id := 0, addr := s.pua l b.block (q / s.geoPlanes) (q % s.geoPlanes) u, kind := 6, cls := 5, users := [.patrol] }
          State.patrolRead fuel n (s1.startFetch f)

/-- PATROL_WINDOW (R351, R352): a pass that has been read waits for its period's end, then the next begins; the window's
rate is the pages left over the seconds left, or, past the period's end, CATCHUP times the pass's mean rate with
PATROL_LATE set; and the window's strokes are asked for. -/
def execPatrolWindow (s : State) : Res :=
  if !s.mapRuns || s.pwr.entry.isSome || !s.flag F.LIG_CTRL_PATROL_EN then .next s
  else
    let endAt (s : State) : Nat := s.map.patrolAt + s.patrolPeriod
    let s1 := if s.patrolRest = 0 && (s.map.patrolTotal = 0 || endAt s ≤ s.now) then s.startPass else s
    let left := s1.patrolRest
    let late := left != 0 && endAt s1 ≤ s1.now
    let mean := ceilDiv s1.map.patrolTotal (max 1 (s1.patrolPeriod / secT))
    let rate := if late then s1.fld F.LIG_PATROL_CATCHUP * mean else ceilDiv left (max 1 ((endAt s1 - s1.now) / secT))
    let s2 := if late then s1.post F.LIG_EVT_STATUS_PATROL_LATE noUnit else s1
    let s3 : State := { s2 with map := { s2.map with patrolRate := rate } }
    .next (State.patrolRead (min rate left + s3.map.patrolLeft.length) (min rate left) s3)

end Sys2Proof.Machine
end

