-- ==== Sys2Proof/Machine/Reset.lean ====
section
/-! DEFINITION. What the loss of the core's power or its reset leaves (R390, R391, R445, R613, R644, R674): operations on
the medium that it interrupts, and the state that does not outlive it. -/

namespace Sys2Proof.Machine

/-- Forgets what a LUN's block holds, from wordline `lo` up to wordline `hi`. -/
def State.forgetWls (s : State) (lun block lo hi : Nat) : State :=
  { s with map := { s.map with media := s.map.media.filter (fun m =>
    !(lunOf m.addr == lun && s.blockOf m.addr == block && lo ≤ s.wlOf m.addr && s.wlOf m.addr ≤ hi)) } }

/-- A finished program whose completion nobody has consumed is on the medium all the same. -/
def State.keepFinished (s : State) (c : Comp) : State :=
  match (s.strokeOf c.req).map (fun (k : Stroke) => k.purpose) with
  | some (.tlc id) =>
    if c.status = 0 then
      match s.map.wordlines.find? (fun w => w.id == id) with
      | some w => s.recordWl w
      | none => s
    else s
  | some (.blotter g) => if c.status = 0 then s.updPage g (fun p => { p with phase := .passed }) else s
  | _ => s

/-- One operation that the interruption meets (R390): a running or suspended TLC program past its confirm cycle destroys its
wordline and the `k` before it, an erase its block's content. A Blotter page that was being programmed is destroyed with its
page, which is not in the passed state. -/
def State.cutRun (s : State) (r : Run) : State :=
  if !r.launched then s
  else
    match (s.strokeOf r.req).map (fun (k : Stroke) => (k.op, k.purpose)) with
    | some (.program, .tlc id) =>
      match s.map.wordlines.find? (fun w => w.id == id) with
      | some w =>
        if r.xfer then s.forgetWls w.lun (((s.band w.band).map (fun b => b.block)).getD 0) (w.wl - s.atRisk) w.wl else s
      | none => s
    | some (_, .eraseBand ix) =>
      match s.band ix with
      | some b => s.forgetWls r.lun b.block 0 s.geoWls
      | none => s
    | some (_, .eraseBlock b) => s.forgetWls r.lun b 0 s.geoWls
    | _ => s

/-- What an interruption leaves of the operations on the medium (R390). -/
def State.interrupt (s : State) : State := s.nib.runs.foldl State.cutRun (s.nib.comps.foldl State.keepFinished s)

/-- Whether a band's open wordline index had been begun and not closed, or wordlines of it had not closed (R674). Log entry 26 (DEDUCED). -/
def State.bandCut (s : State) (b : Band) : Bool :=
  b.state == .open && (b.pos != 0 || !b.fill.isEmpty || s.map.wordlines.any (fun w => w.band == b.ix) || s.map.stripes.any (fun t => t.band == b.ix))

/-- A band as the next BOOT finds it (R391, R674): an open one with an open stripe is closed and exposed, one whose erase had begun
is erase pending, and moves of the last boot are over. -/
def State.bandKept (s : State) (b : Band) : Band :=
  let b1 : Band := { b with moving := none, movesLeft := 0, erasing := [], refresh := none, fill := [], pos := 0 }
  if s.bandCut b then { b1 with state := .closed, closedAt := s.now, wp := none, wl := s.geoWls, padded := true, exposed := true } else b1

/-- A Blotter row as the next BOOT finds it (R445): positions that had not passed are never folded, and the row is closed. -/
def rowKept (r : BltRow) : BltRow := { r with pos := r.pos.map (fun p => if p = 2 then 2 else 3), parity := 2, chain := none, due := false }

/-- The core without power or in reset (R591, R613, R644): the medium, the Folio and the always-on island keep what they hold;
commands, queues, cells, strokes, open groups and stripes, Nib and Quill contexts, link sessions and every count of this boot
are gone, and so is an entry that no log holds yet (R532: ESEQ goes on from the newest that one holds), and so is a holding of the lock by a PF or by a command (R632). The core's registers take their reset values when BOOT
begins. Log entries 15 and 21 (DEDUCED, DESIGN CHOICE). -/
def State.coreReset (s0 : State) : State :=
  let s := s0.interrupt
  let kept := s.blt.pages.filter (fun p => p.phase == .passed)
  let map : MapSt := { s.map with
    bands := s.map.bands.map s.bandKept
    inflight := [], wordlines := [], stripes := [], wps := [], fetches := [], scans := [], patrolLeft := [], patrolPos := 0, patrolDone := 0
    patrolTotal := 0, patrolRate := 0, patrolDue := 0, deferred := [], level := 0, credit := 0, fdpEvents := [], wlMoves := 0, nErases := 0
    wlBand := none }
  let blt : Blt := {
    pages := kept.map (fun p => { p with units := p.units.map (fun u => { u with idx := none }) })
    nextGroup := s.blt.nextGroup, sets := s.blt.sets.map (fun t => { t with erasing := [false, false], stop := [false, false], full := false })
    rows := s.blt.rows.map rowKept, blocks := s.blt.blocks, skip := s.blt.skip, delta := s.blt.delta
    dumpFirst := s.blt.dumpFirst, dumpAt := s.blt.dumpAt, dumpLast := s.blt.dumpLast, lostWet := s.blt.lostWet, holdAt := s.blt.holdAt }
  let nib : NibSt := { luns := s.nib.luns, setA := s.nib.setA, setB := s.nib.setB }
  let qe : Qe := { nss := s.qe.nss, savedFeats := s.qe.savedFeats, errLog := s.qe.errLog, counts := s.qe.counts }
  let hp : Hp := { ports := s.hp.ports.map (fun p => { perst := p.perst }), strap := s.hp.strap }
  let bxl : Bxl := { slots := s.bxl.slots, loader := s.bxl.loader, rcd := s.bxl.rcd, runSlot := s.bxl.runSlot, lock := s.bxl.lock, lastOut := s.bxl.lastOut }
  let last := (s.fol.events.map (fun e => (e.eseq, e.digest)) ++ s.fol.boots.map (fun b => (b.eseq, b.digest))).foldl
    (fun (m : Nat × Nat) e => if m.1 < e.1 then e else m) (0, 0)
  { s with
    map, blt, nib, qe, hp, bxl
    stk := {}, ink := { keys := s.ink.keys }, tine := {}, gce := {}, spdm := []
    ckpt := { s.ckpt with running := none, left := 0, again := false, slow := false, writing := 0, shutting := [], critAt := none, stamped := 0 }
    fol := { s.fol with reqs := [], entries := [], trans := none, record := none, eseq := last.1, digest := last.2 }
    mgmt := if s.mgmt.lockTemp || s.mgmt.lock = some .pf0 || s.mgmt.lock = some .pf1 then { s.freeLock.mgmt with tunnels := 0 }
      else { s.mgmt with tunnels := 0, lockRefs := [] }
    pwr := { s.pwr with entry := none, retry := false, wake := none, bootWait := none, quiesce := 0, clkDiv := 1, clkWait := none, linkL1 := false
                        asserted := false } }

/-- VAUX_33_LOSS (R613, R662): the always-on island resets at once, the rails fall and no shutdown record is written. -/
def execVaux33Loss (s : State) : Res :=
  let s1 := s.coreReset.resetKeys aonKey
  .next { s1 with
    mode := .off
    pwr := { rails := [false, false, false, false], vaux := false, pfailHigh := false }
    thm := {}
    mgmt := {}
    rul := { s1.rul with running := false, stopped := none } }

end Sys2Proof.Machine
end

