-- ==== Sys2Proof/Machine/Recover.lean ====
section
/-! DEFINITION. Recovery at BOOT (R297 to R302, R460, R461, R674 to R676): the root record, the map that its checkpoint holds,
the Blotter, and replay. -/

namespace Sys2Proof.Machine

/-! ## Choosing between two copies (R525) -/

/-- Which of two copies is used, `true` for B: the intact one, then the higher sequence; equal sequences decide only for the same
content. None where nothing decides. -/
def pickCopy (okA okB : Bool) (seqA seqB : Nat) (same : Bool) : Option Bool :=
  match okA, okB with
  | false, false => none
  | true, false => some false
  | false, true => some true
  | true, true => if seqA < seqB then some true else if seqB < seqA then some false else if same then some false else none

/-! ## The root record (R297, R675) -/

/-- What the choice of the root record answers. -/
inductive RootPick where
  | first  -- R675: a drive that has never completed a checkpoint
  | use (r : Root)
  | conflict (r : Option Root)  -- R297 rules 5 and 6
  deriving DecidableEq, Repr

/-- The choice between the copies that are intact (R297): the higher CK_SEQ; at equal CK_SEQ the one that the shutdown record
digests; otherwise copy A, whose sector index is lower, serves reads. Log entry 23 (DEDUCED). -/
def State.pickRoot (s : State) (erased : Bool) : RootPick :=
  let sh := s.fol.shut
  match s.ckpt.rootA, s.ckpt.rootB with
  | none, none => if erased && sh.kind = 0 then .first else .conflict none
  | some a, none => .use a
  | none, some b => .use b
  | some a, some b =>
    if a = b then .use a
    else if a.image.seq < b.image.seq then .use b
    else if b.image.seq < a.image.seq then .use a
    else
      let names (r : Root) : Bool := sh.kind != 0 && sh.ckSeq == r.image.seq && sh.rootDigest == r.digest
      if names a && !names b then .use a else if names b && !names a then .use b else .conflict (some a)

/-- The map as a checkpoint holds it (R291, R298): its entries, pages and snapshot pages, all clean. Log entry 23 (DEDUCED). -/
def State.loadImage (s : State) (im : Image) : State :=
  { s with map := { s.map with
    entries := im.entries
    pages := im.pages.map (fun p => { p with dirty := false, crcOk := true, resident := true, used := s.now })
    snaps := (im.snaps.filter (fun p => s.ckpt.cuts.any (fun c => p.lo ≤ c.gen && c.gen ≤ p.hi))).map (fun p => { p with dirty := false }) } }

/-! ## The replay set (R298, R299) -/

/-- A member of the replay set. -/
inductive RepItem where
  | unit (u : BltUnit)
  | change (u : BltUnit)
  | tlc (m : MediaIu)
  deriving DecidableEq, Repr

/-- The order of replay (R298): ink time, Blotter before TLC, BOS, SEQ. -/
def State.repKey (s : State) : RepItem → List Nat
  | .unit u => [u.ink, 0, 0, 0, 0, 0]
  | .change u => [u.ink, 0, 0, 0, 0, 0]
  | .tlc m => [m.ink, 1, m.bos, s.wlOf m.addr, lunOf m.addr, s.slotInWl m.addr]

/-- Whether a list of numbers comes before another, number by number. -/
def listBefore : List Nat → List Nat → Bool
  | [], _ => false
  | _ :: _, [] => false
  | a :: as, b :: bs => a < b || (a == b && listBefore as bs)

/-- Puts an item into its place. -/
def State.insertRep (s : State) (x : RepItem) : List RepItem → List RepItem
  | [] => [x]
  | y :: ys => if listBefore (s.repKey y) (s.repKey x) then y :: s.insertRep x ys else x :: y :: ys

/-- Whether a namespace takes a write of this ink time: it exists, is no snapshot, and was there then. Log entries 6 and 74 (DEDUCED, DESIGN CHOICE). -/
def State.takes (s : State) (nsid ink : Nat) : Bool :=
  match s.ns nsid with
  | some n => n.cut.isNone && n.born ≤ ink
  | none => false

/-- Whether a TLC unit belongs to the set (R298): its band was opened after START, or its wordline lies at or above the band's
frontier. Log entry 24 (DEDUCED). -/
def State.inReplay (s : State) (im : Image) (m : MediaIu) : Bool :=
  im.bosNext ≤ m.bos || im.bands.any (fun b => b.state == .open && b.bos == m.bos && b.frontier ≤ s.wlOf m.addr)

/-- Whether a unit's wordline is whole on its LUN (R299): none of its units fails to decode with a valid record. -/
def State.wlWhole (s : State) (bad : List Nat) (m : MediaIu) : Bool :=
  !bad.any (fun a => lunOf a == lunOf m.addr && s.blockOf a == s.blockOf m.addr && s.wlOf a == s.wlOf m.addr)

/-- The replay set in its order (R298, R299). Log entry 24 (DEDUCED). -/
def State.replaySet (s : State) (im : Image) (bad : List Nat) : List RepItem :=
  let units := (s.blt.pages.filter (fun p => p.phase == .passed)).flatMap (fun p => p.units)
  let live (u : BltUnit) : Bool := im.floor ≤ u.ink && s.takes u.nsid u.ink
  let hosts := (units.filter (fun u => u.btype == 0 && live u)).map RepItem.unit
  let changes := (units.filter (fun u => u.btype == 1 && live u)).map RepItem.change
  let tlc := (s.map.media.filter (fun m => m.kind == 0 && s.inReplay im m && s.wlWhole bad m && s.takes m.nsid m.ink)).map RepItem.tlc
  (hosts ++ changes ++ tlc).foldl (fun acc x => s.insertRep x acc) []

/-! ## Replay (R298, R300 to R302) -/

/-- The ink time of the move in the set that left a PUA, or 0. -/
def moveInk (set : List RepItem) (a : Nat) : Nat :=
  match set.find? (fun x => match x with | .tlc m => m.src == some a | _ => false) with
  | some (.tlc m) => m.ink
  | _ => 0

/-- replay_ink of an IU that replay has not set yet (R300): the record at its PUA, rebuilt where it does not decode; the move that
left it where the unit is erased or lost. Log entry 22 (DESIGN CHOICE). -/
def State.replayInk (s : State) (set : List RepItem) (bad : List Nat) (nsid iu : Nat) : Nat :=
  match s.entry nsid iu with
  | .mapped a =>
    match s.mediaAt a with
    | none => moveInk set a
    | some m =>
      if !bad.contains a then m.ink
      else
        match s.peersOf a with
        | some ls => if ls.any (fun l => bad.contains (onLun a l)) then moveInk set a else m.ink
        | none => moveInk set a
  | _ => 0

/-- A Blotter unit becomes, or joins, the IN_FLIGHT entry of its IU (R301). Units of one write share a record; a later write's
record holds the entry before it as its PREV. Its data is safe in the Blotter, so every sector of it is dry. -/
def State.replayUnit (s : State) (u : BltUnit) : State :=
  let e := s.entry u.nsid u.iu
  let mine := match e with | .inFlight i => (s.recAt i).bind (fun r => if r.ink = u.ink then some i else none) | _ => none
  match mine with
  | some i => s.updRec i (fun r =>
      let ps := overParts u.parts r.parts
      { r with parts := ps, verified := partsMask ps, dryMask := partsMask ps, bypass := partsMask ps })
  | none =>
    let i := freeRec (s.map.inflight.map (fun r => r.idx)) (s.map.inflight.length + 1) 0
    let m := partsMask u.parts
    let r : InFlight := { idx := i, nsid := u.nsid, iu := u.iu, ref := deadRef, ink := u.ink, cls := u.cls, unc := u.unc, parts := u.parts, prev := e
                          verified := m, dryMask := m, bypass := m, dry := true, done := true }
    let s1 := s.changeEntry u.nsid u.iu u.ink (.inFlight i)
    { s1 with map := { s1.map with inflight := s1.map.inflight ++ [r] } }

/-- A TLC unit takes effect: over the record of the same write it is that record's place, otherwise it is the entry. -/
def State.replayTlc (s : State) (m : MediaIu) : State :=
  let plain := s.changeEntry m.nsid m.iu m.ink (.mapped m.addr)
  match s.entry m.nsid m.iu with
  | .inFlight i =>
    match s.recAt i with
    | some r => if r.ink = m.ink then s.mapUpdate m.nsid m.iu m.addr (.inFlight i) else plain
    | none => plain
  | .mapped a => if a = m.addr then s else plain
  | _ => plain

/-- The IUs that a map-change record covers whole (R252, R302); it covers the others by the blocks that were written for it. -/
def State.changeIus (s : State) (u : BltUnit) : List Nat :=
  match s.ns u.nsid with
  | some n =>
    let iuS := s.iuSectors
    (u.lbas.flatMap (fun r => iuCover iuS (r.1 * n.blkSectors) (r.2 * n.blkSectors))).filterMap (fun e =>
      if e.2 = maskOf 0 iuS then some e.1 else none)
  | none => []

/-- What replay carries along: the state, and replay_ink of the IUs that it has set. -/
abbrev Replay := State × List ((Nat × Nat) × Nat)

/-- One decision of replay (R298, R300): a move applies where its source is still mapped, anything else where it is no older than
what the IU holds. A move at or above FLOOR whose write the set holds nowhere else, its source being erased, stands for that write
(R302). Log entry 24 (DEDUCED). -/
def replayOne (floor : Nat) (set : List RepItem) (bad : List Nat) (acc : Replay) (x : RepItem) : Replay :=
  let s := acc.1
  let ink (nsid iu : Nat) : Nat := (acc.2.lookup (nsid, iu)).getD (s.replayInk set bad nsid iu)
  let put (nsid iu t : Nat) (l : List ((Nat × Nat) × Nat)) : List ((Nat × Nat) × Nat) :=
    ((nsid, iu), t) :: l.filter (fun e => e.1 != (nsid, iu))
  match x with
  | .unit u => if u.ink < ink u.nsid u.iu then acc else (s.replayUnit u, put u.nsid u.iu u.ink acc.2)
  | .change u =>
    (s.changeIus u).foldl (fun (a : Replay) iu =>
      if u.ink < (a.2.lookup (u.nsid, iu)).getD (a.1.replayInk set bad u.nsid iu) then a
      else (a.1.changeEntry u.nsid iu u.ink (if u.op = 2 then .uncorr else .unmapped), put u.nsid iu u.ink a.2)) acc
  | .tlc m =>
    match m.src with
    | some p =>
      let s1 := (s.touchPage m.nsid (pageIx m.iu) m.ink).mapUpdate m.nsid m.iu m.addr (.mapped p)
      if m.ink < floor || s1.entry m.nsid m.iu = .mapped m.addr || m.ink < ink m.nsid m.iu then (s1, acc.2)
      else (s1.replayTlc m, put m.nsid m.iu m.ink acc.2)
    | none => if m.ink < ink m.nsid m.iu then acc else (s.replayTlc m, put m.nsid m.iu m.ink acc.2)

/-- The records that entries, snapshot pages and other records' PREVs lead to. -/
def State.reached_ (s : State) : Nat → List Nat → List Nat
  | 0, l => l
  | fuel + 1, l =>
    let prevs := (l.filterMap s.recAt).filterMap (fun r => match r.prev with | .inFlight j => some j | _ => none)
    s.reached_ fuel (l ++ prevs.filter (fun j => !l.contains j)).eraseDups

/-- Records that nothing leads to are left out, and the Blotter's units know which record they belong to (R26, R449): a unit that no
record needs is released, and so is parity of a band that is open no more. -/
def State.tieUnits (s : State) (floor : Nat) : State :=
  let ofEntry (e : MapEntry) : Option Nat := match e with | .inFlight i => some i | _ => none
  let roots := (s.map.entries.filterMap (fun e => ofEntry e.2) ++ s.map.snaps.flatMap (fun p => p.entries.filterMap (fun e => ofEntry e.2))).eraseDups
  let kept := s.reached_ s.map.inflight.length roots
  let recs := s.map.inflight.filter (fun r => kept.contains r.idx)
  let tie (u : BltUnit) : BltUnit :=
    match u.btype with
    | 0 =>
      let i := (recs.find? (fun r => r.nsid == u.nsid && r.iu == u.iu && r.ink == u.ink)).map (fun r => r.idx)
      { u with idx := i, released := i.isNone }
    | 1 => { u with released := decide (u.ink < floor) }
    | 2 | 3 => { u with released := !s.map.bands.any (fun b => b.bos == u.nsid && b.state != .free) }
    | _ => u
  { s with
    map := { s.map with inflight := recs }
    blt := { s.blt with pages := s.blt.pages.map (fun p => { p with units := p.units.map tie }) } }

/-- The valid counts of all bands, formed anew from what refers to the medium (R256, R293, R311). -/
def State.recount (s : State) : State :=
  let ofEntry (e : MapEntry) : Option Nat := match e with | .mapped a => some a | _ => none
  let held := ((s.ckpt.newest.map Image.refs).getD [])
  let all := (s.map.entries.filterMap (fun e => ofEntry e.2) ++ s.map.snaps.flatMap (fun p => p.entries.filterMap (fun e => ofEntry e.2))
    ++ s.map.inflight.filterMap (fun r => if r.prevCounted then ofEntry r.prev else none)
    ++ s.map.pages.filterMap (fun p => p.onMedium) ++ s.map.snaps.filterMap (fun p => p.onMedium) ++ held).eraseDups
  { s with map := { s.map with bands := s.map.bands.map (fun b =>
    { b with valid := (all.filter (fun a => s.blockOf a == b.block && b.members.contains (lunOf a))).length }) } }

/-- The count lies above every ink time on the medium (R64): otherwise it moves to the next line at or above 1 µs past the
highest. Log entry 24 (DEDUCED). -/
def State.aboveInks (s : State) : State :=
  let units := s.blt.pages.flatMap (fun p => p.units.map (fun u => u.ink))
  let top := (s.map.media.map (fun m => m.ink) ++ units).foldl max 0
  let s1 : State := { s with map := { s.map with lastInk := max s.map.lastInk top } }
  if top < s.now then s1
  else
    let pitch := s.pitchNs * 256
    let count := (top + usT + pitch - 1) / pitch * pitch
    let set (c : Counter) : Counter := { c with count, res := (count + c.line) % 3 }
    ({ s1 with rul := { s1.rul with a := set s1.rul.a, b := set s1.rul.b } }).startLines

/-- Replay (R298, R301): the map of the chosen checkpoint and everything that survives above it. Log entry 22 (DESIGN CHOICE). -/
def State.replay (s : State) (im : Image) (bad : List Nat) : State :=
  let s1 := s.loadImage im
  let set := s1.replaySet im bad
  ((set.foldl (replayOne im.floor set bad) (s1, [])).1.tieUnits im.floor).recount

/-! ## Blotter recovery (R460, R461, R676) -/

/-- The LUN of a programmed Blotter page. -/
def State.pageLun (s : State) (p : BltPage) : Option Nat :=
  p.row.bind (fun w => (s.blt.rows.find? (fun r => r.set == w.1 && r.slot == w.2.1 && r.row == w.2.2)).bind (fun r => r.luns[p.pos]?))

/-- Whether the shutdown record in force closes the previous boot (R460 step 1); `prev` is that boot's number. Log entry 26 (DEDUCED). -/
def State.closedBy (s : State) (prev : Nat) : Bool := s.fol.shut.kind != 0 && s.fol.shut.bootSeq == prev

/-- Whether a page that cannot be rebuilt is taken as an interrupted program (R461): the power-off had no record, and it is the last
programmed page of its block on its LUN. -/
def State.cutPage (s : State) (prev : Nat) (p : BltPage) : Bool :=
  !s.closedBy prev && s.blt.pages.all (fun q => q.group == p.group || q.phase != .passed || s.pageLun q != s.pageLun p ||
    (match q.row, p.row with
     | some a, some b => a.1 != b.1 || a.2.1 != b.2.1 || a.2.2 ≤ b.2.2
     | _, _ => true))

/-- Steps 1 and 3 of R460, with R461: pages rebuilt from their rows, pages lost, and a dump that left completed writes behind. -/
def State.readBlotter (s : State) (prev : Nat) (rebuilt lost : List Nat) : State :=
  let passed := s.blt.pages.filter (fun p => p.phase == .passed)
  let gone := passed.filter (fun p => lost.contains p.group)
  let s1 := if passed.any (fun p => rebuilt.contains p.group) then s.post F.PWR_HU_EVT_STATUS_BLT_REBUILT noUnit else s
  let s2 : State := { s1 with blt := { s1.blt with pages := s1.blt.pages.filter (fun p => !lost.contains p.group) } }
  let s3 := if s.fol.shut.kind = 3 then s2.post F.PWR_HU_EVT_STATUS_INCOMPLETE noUnit else s2
  let broken := gone.any (fun p => !s.cutPage prev p)
  let short := s.closedBy prev && s.fol.shut.kind = 3 && s.fol.shut.lostWet != 0
  if broken || short then (s3.post F.PWR_HU_EVT_STATUS_BLT_LOST noUnit).enterSafe 0x0A true else s3

/-- Step 5 of R460, with R674: the bands that partial parity names are exposed. Log entry 26 (DEDUCED). -/
def State.exposeBands (s : State) : State :=
  let named := (s.blt.pages.flatMap (fun p => p.units)).filterMap (fun u => if u.btype = 2 || u.btype = 3 then some u.nsid else none)
  (s.map.bands.filter (fun b => b.state == .closed && b.exposed && named.contains b.bos)).foldl
    (fun (s : State) b => s.post F.LIG_EVT_STATUS_EXPOSED b.ix) s

/-- The active slot of each set (R676): the one with the set's newest GROUP, slot 0 where neither holds a programmed row. -/
def State.pickSlots (s : State) : State :=
  let newest (set slot : Nat) : Nat := (s.blt.pages.filter (fun p => match p.row with | some w => w.1 == set && w.2.1 == slot | none => false)).foldl
    (fun m p => max m (p.group + 1)) 0
  { s with blt := { s.blt with sets := s.blt.sets.map (fun t =>
    let a := newest t.ix 0
    let b := newest t.ix 1
    { t with active := if b = 0 && a = 0 then (if t.dirty.getD 1 false && !t.dirty.getD 0 false then 1 else 0) else if a < b then 1 else 0 }) } }

end Sys2Proof.Machine
end

