-- ==== Sys2Proof/Machine/BootRom.lean ====
section
/-! DEFINITION. The first part of BOOT (R61 to R63, R525 to R531, R547, R578 to R582, R673): the count, the fuses, a transition left
open, the copies of each datum, the firmware slot and the settings. -/

namespace Sys2Proof.Machine

/-! ## The count -/

/-- The high-water mark of the newest valid root record (R63): of the copies that are found intact, the one with the higher sequence number. -/
def State.rootMark (s : State) (bad : List FolCopy) : Nat :=
  let a := if bad.contains (.root false) then none else s.ckpt.rootA
  let b := if bad.contains (.root true) then none else s.ckpt.rootB
  match a, b with
  | some x, some y => if y.image.seq ≤ x.image.seq then x.hwm else y.hwm
  | some x, none => x.hwm
  | none, some y => y.hwm
  | none, none => 0

/-- The count at which BOOT starts when nothing counted the stop (R63): 1 µs past the greatest of the shutdown record's count, the
newest valid root record's high-water mark and the last Colophon entry's stamp. Log entry 25 (DEDUCED). -/
def State.bootFloor (s : State) (bad : List FolCopy) : Nat :=
  let entry := (s.fol.events.head?.map (fun e => e.stamp.ns)).getD 0
  let boot := (s.fol.boots.head?.map (fun b => b.stamp.ns)).getD 0
  max (if bad.contains .shut then s.fol.shutPrev else s.fol.shut).stamp.ns (max (s.rootMark bad) (max entry boot)) * 256 + usT

/-- The Ruling at the start of BOOT (R61 to R63, R671, R673): both counters start unmasked, with every source unqualified. Log entry 25 (DEDUCED). -/
def State.bootCount (s : State) (env : BootEnv) : State :=
  let s1 := if s.rul.running then s.rulStop else s
  let s2 : State :=
    if s1.rul.stopped.isNone || env.clk = .none then
      let c : Counter := { count := s1.bootFloor env.bad }
      { s1 with rul := { a := c, b := c, cls := 3 } }
    else s1.rulResume env.clk env.stopTicks
  let count := s2.rul.count
  let c : Counter := { count, res := count % 3 }
  let r : Rul := { a := c, b := c, cls := s2.rul.cls, uncBase := s2.rul.uncBase, uncAt := s2.rul.uncAt, growth := s2.rul.growth
                   resumedAt := count, aonTicks := s2.rul.aonTicks
                   sync := { owed := s2.rul.sync.owed }, bxl := { owed := s2.rul.bxl.owed }, ptm := { owed := s2.rul.ptm.owed } }
  ({ s2 with rul := r }).startLines



/-! ## Fuses and a transition left open -/

/-- The fuse words as they read at both references (R527): `env.readings` names those that do not read as burned. -/
def State.readFuses (s : State) (env : BootEnv) : State :=
  let new := (env.readings.filter (fun r => r.1 < 256)).map (fun r => (r.1, (r.2.1 ||| r.2.2) % 2 ^ 64, r.2.2 % 2 ^ 64))
  { s with fol := { s.fol with fuses := new ++ s.fol.fuses.filter (fun e => !new.any (fun n => n.1 == e.1)) } }

/-- The newest intent record when its transition is not done (R547). -/
def State.openIntent (s : State) : Option Intent := s.fol.intents.head?.bind (fun i => if i.done = 2 then none else some i)

/-- Lifecycle recovery before the fuses are resolved (R547): with DONE erased every burn is made or made again and verified, and DONE
becomes VERIFIED. Log entry 31 (DEDUCED). -/
def State.lcRecover (s : State) : State :=
  match s.openIntent with
  | some it =>
    if it.done = 0 then
      let s1 := (lcBurns it.dest it.owner).foldl (fun (s : State) b => s.burn b.1 b.2 0) s
      { s1 with fol := { s1.fol with intents := { it with done := 1 } :: s1.fol.intents.tail } }
    else s
  | none => s

/-- The fuse fields are resolved, and every word with a marginal bit is noted (R527); a field without a value leads to SAFE. -/
def State.resolveFuses (s : State) : State :=
  let marg := (List.range 256).filter (fun w => (s.margins w).1 != (s.margins w).2)
  let s1 := marg.foldl (fun (s : State) w => s.post F.FOL_EVT_STATUS_FUSE_MARGIN w)
    { s with fol := { s.fol with marginal := marg, resolved := [] } }
  fuseFields.foldl (fun (s : State) f =>
    match s.resolveField f with
    | some v => s.putField f v
    | none => (s.post F.FOL_EVT_STATUS_FUSE_UNRES f.first).enterSafe 0x0E true) s1

/-- The rest of a transition left open (R547, from step 6 of R545), once the identity region and the key table are selected: the keys,
unless they were already made, DONE at 0 and LC_RESUMED. The copies that it changes are written in both places. Log entry 31 (DEDUCED). -/
def State.lcFinish (s : State) (it : Intent) : State :=
  let made := (it.dest = 1 && s.fol.ident.dsk.isSome) || (it.dest = 2 && s.fol.ident.mrk.isSome)
  let s1 := if made then s else s.lcKeys it.dest
  let id : Identity := { s1.fol.ident with seq := s.fol.idA.seq + 1 }
  let kt : KeyTab := { seq := s.fol.keyA.seq + 1, keys := s1.fol.keyTab }
  let s2 : State := if !made && (it.dest = 1 || it.dest = 2 || it.dest = 5) then { s1 with fol := { s1.fol with ident := id, idA := id, idB := id } } else s1
  let s3 : State := if it.dest = 5 then { s2 with fol := { s2.fol with keyA := kt, keyB := kt } } else s2
  { s3 with fol := { s3.fol with intents := { it with done := 2 } :: s3.fol.intents.tail } }.post F.FOL_EVT_STATUS_LC_RESUMED noUnit

/-! ## Copies (R525) -/

/-- The copies that are found not intact. A map root record's sets ROOT_BAD (R297); the others' are seen where they are chosen. -/
def State.markBad (s : State) (bad : List FolCopy) : State :=
  bad.foldl (fun (s : State) c =>
    let had := match c with | .root b => (if b then s.ckpt.rootB else s.ckpt.rootA).isSome | _ => false
    let s1 := s.copyBad c
    if had then s1.post F.MAP_CP_EVT_STATUS_ROOT_BAD noUnit else s1) s

/-- A copy that is ignored sets DIGEST_FAIL (R521, R525). -/
def State.copyIgnored (s : State) (intact : Bool) : State := if intact then s else s.post F.FOL_EVT_STATUS_DIGEST_FAIL noUnit

/-- A datum that cannot be resolved (R525). Log entry 28 (DEDUCED). -/
def State.copyConflict (s : State) : State := (s.post F.FOL_EVT_STATUS_COPY_CONFLICT noUnit).enterSafe 0x10 false

/-- The remap table and the Tally counters (step 3 of R530): the boots counter and BOOT_SEQ count. -/
def State.useTally (s : State) (bad : List FolCopy) : State :=
  let one (x : Bool → FolCopy) (s : State) : State :=
    let s1 := (s.copyIgnored (!bad.contains (x false))).copyIgnored (!bad.contains (x true))
    if bad.contains (x false) && bad.contains (x true) then s1.copyConflict else s1
  let s1 := one FolCopy.tally (one FolCopy.remap s)
  let choose (t : Tally) : Tally :=
    match pickCopy (!bad.contains (.tally false)) (!bad.contains (.tally true)) t.a.value t.b.value true with
    | some b => if b then { a := t.b, b := t.b } else { a := t.a, b := t.a }
    | none => t
  let f : Fol := { s1.fol with bootSeq := s1.fol.bootSeq + 1, tally := s1.fol.tally.map choose }
  { s1 with fol := f.tallied 0 }

/-- The identity region and the key table (step 5 of R530): the chosen copy, which the other is rewritten from. Log entry 28 (DEDUCED). -/
def State.useKeys (s : State) : State :=
  let f := s.fol
  let s1 := (((s.copyIgnored f.idA.intact).copyIgnored f.idB.intact).copyIgnored f.keyA.intact).copyIgnored f.keyB.intact
  let s2 := match pickCopy f.idA.intact f.idB.intact f.idA.seq f.idB.seq (f.idA = f.idB) with
    | some b =>
      let c := if b then f.idB else f.idA
      { s1 with fol := { s1.fol with idA := c, idB := c, ident := c } }
    | none => { s1 with fol := { s1.fol with ident := {} } }.copyConflict
  match pickCopy f.keyA.intact f.keyB.intact f.keyA.seq f.keyB.seq (f.keyA = f.keyB) with
  | some b =>
    let c := if b then f.keyB else f.keyA
    { s2 with fol := { s2.fol with keyA := c, keyB := c, keyTab := c.keys } }
  | none => { s2 with fol := { s2.fol with keyTab := [] } }.copyConflict

/-- SETTINGS: the digest of a settings copy (R533). -/
def SetCopy.sha (c : SetCopy) : Nat :=
  Config.contentSha 3 (c.seq :: c.fmt :: c.regs.flatMap (fun e => [e.1, e.2.toNat]) ++ c.feats.flatMap (fun f => [f.fid, f.scope, f.cur]))

/-- The settings (step 7 of R530): the chosen copy, none where none decides. Of two copies with one sequence number the one whose digest the newest
boot record holds is used (R525). Log entry 28 (DEDUCED). -/
def State.useSettings (s : State) : State × Option SetCopy :=
  let f := s.fol
  let s1 := (s.copyIgnored f.setA.intact).copyIgnored f.setB.intact
  let named (c : SetCopy) : Bool := f.boots.head?.any (fun r => r.settingsSha == c.sha)
  let pick := (pickCopy f.setA.intact f.setB.intact f.setA.seq f.setB.seq (f.setA = f.setB)).or
    (if f.setA.intact && f.setB.intact && named f.setA != named f.setB then some (named f.setB) else none)
  match pick with
  | some b =>
    let c := if b then f.setB else f.setA
    ({ s1 with fol := { s1.fol with setA := c, setB := c } }, some c)
  | none => (s1.copyConflict, none)

/-! ## The firmware slot (R531, R578) -/

/-- Whether a slot's image is accepted at this BOOT. -/
def State.slotServes (s : State) (env : BootEnv) (n : Nat) : Bool := s.slotAccepted (s.slot n) && !env.slotBad.contains n

/-- The first slot of an order that is accepted, with SLOT_BAD for each before it. -/
def State.tryslots (s : State) (env : BootEnv) : List Nat → State × Option Nat
  | [] => (s, none)
  | n :: rest => if s.slotServes env n then (s, some n) else (s.post F.FOL_EVT_STATUS_SLOT_BAD n).tryslots env rest

/-- The slot that BOOT runs, after a rotation left open is completed (R578, R581). A candidate that has not been tried is tried; one
that has leads to the reset fallback of R580. -/
def State.chooseSlot (s : State) (env : BootEnv) : State × Option Nat :=
  let s1 : State := { s with bxl := { s.bxl with rcd := s.fol.slotRcd, force := false } }
  let s2 := s1.rotateStep.rotateStep.rotateStep
  let r := s2.bxl.rcd
  if r.pending != 0 && !r.tried then (s2.slotRecord (fun r => { r with tried := true }) none).tryslots env [r.pending, 1, 3, 2]
  else if r.pending != 0 then
    let s3 := (s2.slotRecord (fun r => { r with pending := 0, tried := false }) none).post F.BXL_EVT_STATUS_FALLBACK noUnit
    { s3 with bxl := { s3.bxl with lastOut := 3 }, fol := s3.fol.tallied 3 }.tryslots env [1, 3, 2]
  else s2.tryslots env [1, 3, 2]

/-- No boot loader copy or no slot is accepted (R531). -/
def State.noSlot (s : State) : State := (s.post F.FOL_EVT_STATUS_NO_SLOT noUnit).enterSafe 0x0D true

/-! ## Settings (R582, R638, R644) -/

/-- What a saved device-wide feature puts into force (R92, R191, R610). -/
def State.applyFeat (s : State) (f : Feat) : State :=
  match f.fid with
  | 0xC2 => ({ s with stk := { s.stk with hostCap := f.cur } }).refreshCap
  | 0xC3 => ((s.setFld F.RUL_SRC_PRIO_P1 (f.cur % 4)).setFld F.RUL_SRC_PRIO_P2 (f.cur / 4 % 4)).setFld F.RUL_SRC_PRIO_P3 (f.cur / 16 % 4)
  | 0xC5 => s.setFld (if f.scope = 0 then F.THM_LIMIT_J_J1_J3 else F.THM_LIMIT_N_N1_N3) (f.cur % 2 ^ 24)
  | _ => s

/-- Every RWS field and every saved feature take the settings' values; settings of another format than the running image's give way to
the reset values (R582). -/
def State.applySettings (s : State) (c : Option SetCopy) : State :=
  let fmt := (s.slot s.bxl.runSlot).setFmt
  let old := c.any (fun x => x.fmt != fmt)
  let s1 := if old then s.post F.BXL_EVT_STATUS_SET_RESET noUnit else s
  let v : SetCopy := if old then {} else c.getD {}
  let s2 := s1.loadSettings v.regs
  let s3 : State := { s2 with
    fol := { s2.fol with setNew := v.regs }
    qe := { s2.qe with savedFeats := v.feats, feats := v.feats } }
  let s4 := v.feats.foldl State.applyFeat s3
  (s4.setFld F.RUL_LINE_PITCH_ACTIVE (s4.fld F.RUL_LINE_PITCH_PITCH)).startLines

end Sys2Proof.Machine
end

