-- ==== Sys2Proof/Machine/BootMedia.lean ====
section
/-! DEFINITION. What BOOT finds on the channels and what it forms (R225, R233, R243, R245, R324, R332, R333, R365 to R368, R442, R444,
R494): banks, lanes, Tines, LUNs, the geometry, stripe groups, bands and Blotter sets. -/

namespace Sys2Proof.Machine

/-! ## Tests of the units (R225, R233, R494, R673) -/

/-- Both Tines' self-tests (R494): A is active if it passes, otherwise B; the other joins as standby before CSTS.RDY, or is masked.
With neither the WY48 stays in BOOT. Log entry 31 (DEDUCED). -/
def State.bootTines (s : State) (env : BootEnv) : State :=
  let st (ok active : Bool) : TineState := if !ok then .masked else if active then .active else .joining
  let mask (b ok : Bool) (s : State) : State :=
    if ok then s else (s.post F.TINE_EVT_STATUS_SELFTEST_FAIL (tineNo b)).post F.TINE_EVT_STATUS_MASK (tineNo b)
  let last := (s.setFld F.TINE_ST_RESULT (if env.tineB then 1 else 2)).setFld F.TINE_ST_WHICH 1
  let s1 := mask true env.tineB (mask false env.tineA last)
  { s1 with tine := {
      a := st env.tineA true, b := st env.tineB (!env.tineA), active := !env.tineA, joinAt := s.now
      dead := !env.tineA && !env.tineB } }

/-- The Colophon entries of the Tines that BOOT masks (R493). -/
def State.tineMaskEntries (s : State) : State :=
  let one (b : Bool) (s : State) : State := if s.tine.st b = .masked then s.tineEntry 3 0 b 0 s.stamp.ns else s
  one true (one false s)

/-- The banks and lanes that fail their tests are masked (R225, R233). -/
def State.bootUnits (s : State) (env : BootEnv) : State :=
  env.lanes.foldl State.maskLane ((env.banks.foldl State.maskBank s).checkLanes)

/-! ## Discovery (R365 to R368) -/

/-- Puts a LUN that was found into its place in index order. -/
def insertLun (x : Nat × Nat) : List (Nat × Nat) → List (Nat × Nat)
  | [] => [x]
  | y :: ys => if x.1 = y.1 then y :: ys else if x.1 < y.1 then x :: y :: ys else y :: insertLun x ys

/-- Whether a Nib has a present LUN. -/
def State.nibInUse (s : State) (n : Nat) : Bool := s.nib.luns.any (fun l => chanOf l.lun == n && l.state != .notPresent)

/-- The LUNs that discovery takes as present (R366): those found with the reference geometry, of the first 16 die types. -/
def presentLuns (env : BootEnv) : List (Nat × Nat) :=
  let fit := ((env.luns.filter (fun x => x.1 < 3072)).foldl (fun l x => insertLun x l) []).filter (fun x => !env.odd.contains x.1)
  let types := (fit.map (fun x => x.2)).eraseDups
  (fit.map (fun x => (x.1, types.findIdx (· == x.2)))).filter (fun x => x.2 < 16)

/-- The LUNs that discovery finds (R365, R366): those of the reference geometry, with at most 16 die types in order of first appearance.
A retired LUN stays retired; one that was in service and is not found is kept to be declared unresponsive. -/
def State.discover (s : State) (env : BootEnv) : State :=
  let found := (env.luns.filter (fun x => x.1 < 3072)).foldl (fun l x => insertLun x l) []
  let use := presentLuns env
  let wasRetired (l : Nat) : Bool := s.nib.luns.any (fun x => x.lun == l && x.retired)
  let new : List Lun := use.map (fun x => { lun := x.1, dieType := x.2, retired := wasRetired x.1 })
  let lostLuns := s.nib.luns.filter (fun x => !use.any (fun u => u.1 == x.lun) && (x.retired || (s.hasNamespace && x.state != .notPresent)))
  let kept : List Lun := lostLuns.map (fun x => { lun := x.lun, dieType := x.dieType, retired := x.retired, state := if x.retired then .notPresent else .idle })
  let s1 : State := { s with nib := { s.nib with luns := new ++ kept } }
  let s2 := (found.filter (fun x => env.odd.contains x.1)).foldl (fun (s : State) x => s.post (F.NIB_EVT_STATUS_GEOM_MISMATCH (chanOf x.1)) x.1) s1
  let s3 := env.crc.foldl (fun (s : State) n => if n < 48 then s.post (F.NIB_EVT_STATUS_PARAM_CRC n) n else s) s2
  env.extra.foldl (fun (s : State) n => if n < 48 then s.post (F.NIB_EVT_STATUS_EXTRA_LUN n) n else s) s3

/-- The bits that hold every value below `n`. -/
def bitsFor (n : Nat) : Nat := ((List.range 17).find? (fun w => n ≤ 2 ^ w)).getD 17

/-- The geometry of the array (R243, R366): each Nib's own registers and the widths of the PUA's fields; more than 26 bits lead to SAFE. -/
def State.setGeometry (s : State) (env : BootEnv) : State :=
  let g := env.geom
  let blocks (n : Nat) : Nat := (env.chanBlocks.lookup n).getD g.blocks
  let least := ((List.range 48).filter s.nibInUse).foldl (fun m n => min m (blocks n)) g.blocks
  let nib (s : State) (n : Nat) : State :=
    let s1 := ((s.setFld (F.NIB_GEOM0_PAGE_KIB n) g.pageKib).setFld (F.NIB_GEOM0_PLANES n) g.planes).setFld (F.NIB_GEOM0_PAGE_FULL n) g.full
    let s2 := ((s1.setFld (F.NIB_GEOM1_PAGES n) g.pages).setFld (F.NIB_GEOM1_BLOCKS n) (blocks n)).setFld (F.NIB_GEOM1_BITS n) (g.bits - 1)
    let s3 := (s2.setFld (F.NIB_STATUS_STATE n) 3).setFld (F.NIB_STATUS_RATE_ACTIVE n) (s.fld (F.NIB_IF_CFG_RATE n))
    (s3.setFld (F.NIB_STATUS_PROTO_ACTIVE n) (s.fld (F.NIB_IF_CFG_PROTO n))).setFld (F.NIB_STATUS_CE_MODE_ACTIVE n) (s.fld (F.NIB_IF_CFG_CE_MODE n))
  let s1 := ((List.range 48).filter s.nibInUse).foldl nib s
  let u := bitsFor (max 1 (g.pageKib / 4))
  let p := bitsFor g.planes
  let w := bitsFor g.pages
  let b := bitsFor least
  let s2 := ((s1.setFld F.MAP_GEOM_UNIT_W u).setFld F.MAP_GEOM_PLANE_W p).setFld F.MAP_GEOM_PAGE_W w
  let s3 := (s2.setFld F.MAP_GEOM_BLOCK_W b).setFld F.MAP_GEOM_BLOCKS least
  let s4 : State := { s3 with nib := { s3.nib with lunBit := g.lunBit } }
  if 26 < u + p + w + b || 3 < u || 2 < p then (s4.post F.MAP_EVT_STATUS_GEOM noUnit).enterSafe 5 true else s4

/-- Nibs that fail bring-up are masked (R368, R388), and a LUN that was in service and has not been found is unresponsive (R367, R386). -/
def State.bringUp (s : State) (env : BootEnv) : State :=
  let s1 := (env.nibs.filter (fun n => n < 48 && s.nibInUse n)).foldl (fun (s : State) n =>
    (s.post (F.NIB_EVT_STATUS_TRAIN_FAIL n) n).maskNib n) s
  (s1.nib.luns.filter (fun x => !x.retired && x.state == .idle && !(presentLuns env).any (fun e => e.1 == x.lun))).foldl
    (fun (s : State) x => s.unresponsive x.lun) s1

/-! ## What only a drive without namespaces takes over (R245, R324, R332, R333) -/

/-- The bytes of a codeword at a rate code (R322). -/
def codeword (code : Nat) : Nat := match code with | 0 => 4520 | 1 => 4648 | 2 => 4776 | _ => 4904

/-- The values in force of IU, RATE, WIDTH and EN: taken over with no namespace present, and otherwise those of the previous boot, with
IU_PEND and CFG_PEND for a change that waits. `old` are the previous ones, in that order. Log entry 30 (DEDUCED). -/
def State.takeOver (s : State) (old : List Nat) : State :=
  let fresh := !s.hasNamespace
  let pick (f : Fld) (i : Nat) : Nat := if fresh then s.fld f else old.getD i (s.fld f)
  let iu := pick F.MAP_CFG_IU 0
  let rate := pick F.LIG_ECC_CFG_RATE 1
  let width := pick F.LIG_CFG_WIDTH 2
  let en := pick F.LIG_CTRL_EN 3
  let s1 := ((s.setFld F.MAP_CFG_IU_ACTIVE iu).setFld F.LIG_ECC_CFG_RATE_ACTIVE rate).setFld F.LIG_CFG_WIDTH_ACTIVE width
  let s2 := s1.setFld F.LIG_STATUS_EN_ACTIVE en
  let s3 := if iu != s2.fld F.MAP_CFG_IU then s2.post F.MAP_EVT_STATUS_IU_PEND noUnit else s2
  if rate != s3.fld F.LIG_ECC_CFG_RATE || width != s3.fld F.LIG_CFG_WIDTH || en != s3.fld F.LIG_CTRL_EN then
    s3.post F.LIG_EVT_STATUS_CFG_PEND noUnit else s3

/-- The rate must fit the page with its spare (R324): otherwise the highest code below it that does, and with none SAFE. -/
def State.fitRate (s : State) (full : Nat) : State :=
  let r := s.fld F.LIG_ECC_CFG_RATE_ACTIVE
  let fits (c : Nat) : Bool := codeword c * 2 ^ s.fld F.MAP_GEOM_UNIT_W ≤ full
  if fits r then s
  else
    match (List.range r).reverse.find? fits with
    | some c => (s.setFld F.LIG_ECC_CFG_RATE_ACTIVE c).post F.LIG_EVT_STATUS_RATE_ADJ noUnit
    | none => (s.post F.LIG_EVT_STATUS_RATE_ADJ noUnit).enterSafe 5 true

/-! ## Formation (R332, R442, R444) -/

/-- Fills one group of `w` entries with distinct channels from a list; entries set aside head what is left. None where the list does
not fill it. -/
def fillGroup (w : Nat) : List Nat → List Nat → List Nat → Option (List Nat × List Nat)
  | g, aside, [] => if g.length = w then some (g, aside) else none
  | g, aside, x :: xs =>
    if g.length = w then some (g, aside ++ x :: xs)
    else if (channels g).contains (chanOf x) then fillGroup w g (aside ++ [x]) xs
    else fillGroup w (g ++ [x]) aside xs

/-- Fills groups until no full one can be formed: the groups, and the entries left over. -/
def fillGroups (w : Nat) : Nat → List Nat → List (List Nat) × List Nat
  | 0, l => ([], l)
  | fuel + 1, l =>
    match if w = 0 then none else fillGroup w [] [] l with
    | some (g, rest) => let r := fillGroups w fuel rest; (g :: r.1, r.2)
    | none => ([], l)

/-- The LUNs that formation lists (R332): present and not retired, by target and LUN, then by channel. -/
def State.formList (s : State) : List Nat :=
  let all := (s.nib.luns.filter (fun l => s.lunServes l.lun)).map (fun l => l.lun)
  ((all.map (fun l => (l % 64 * 48 + l / 64, l))).foldl (fun acc x => insertLun x acc) []).map (fun x => x.2)

/-- Reserves two blocks on each listed LUN for the Blotter (R442): the highest that are neither factory bad nor retired, the higher one
as slot 0. A LUN that has its blocks keeps them. Log entry 32 (DEDUCED). -/
def State.reserveBlotter (s : State) (l : Nat) : State :=
  if s.blt.blocks.any (fun b => b.1 == l) then s
  else
    let good := (List.range s.geoBlocks).reverse.filter (fun k => !s.map.badBlocks.contains (l, k) && !s.map.factoryBad.contains (l, k))
    { s with blt := { s.blt with blocks := s.blt.blocks ++ (good.take 2).zipIdx.map (fun e => (l, e.2, e.1)) } }

/-- The Blotter sets of a list (R444). A set that the previous boot had goes on; any other has both slots to be erased where its LUNs
hold Blotter pages. Log entry 30 (DEDUCED). -/
def State.formSets (s : State) (list : List Nat) : State :=
  let sets := (fillGroups 16 (list.length + 1) list).1
  let used (l : Nat) : Bool := s.blt.rows.any (fun r => r.luns.contains l || r.plun == l) || s.blt.sets.any (fun t => t.luns.contains l && t.dirty.contains true)
  let one (e : List Nat × Nat) : BltSet :=
    match s.blt.sets.find? (fun t => t.ix == e.2 && t.luns == e.1) with
    | some t => t
    | none => if e.1.any used then { ix := e.2, luns := e.1, next := [s.slotRows, s.slotRows], dirty := [true, true] } else { ix := e.2, luns := e.1 }
  let new := sets.zipIdx.map one
  let same (w : Nat × Nat × Nat) : Bool := new.any (fun t => t.ix == w.1 && s.blt.sets.any (fun o => o.ix == t.ix && o.luns == t.luns))
  { s with blt := { s.blt with
    sets := new
    rows := s.blt.rows.filter (fun r => same (r.set, r.slot, r.row))
    pages := s.blt.pages.filter (fun p => match p.row with | some w => same w | none => false) } }

/-- The bands of the groups (R244, R267). A band whose group is as it was goes on; any other is free, or closed with nothing valid where
its blocks hold something. Log entry 30 (DEDUCED). -/
def State.formBands (s : State) (oldGroups : List (List Nat)) : State :=
  let one (g k : Nat) : Band :=
    let ix := g * s.geoBlocks + k
    let ls := s.map.groups.getD g []
    match if oldGroups.getD g [] = ls then s.map.bands.find? (fun b => b.ix == ix && b.group == g && b.block == k) else none with
    | some b => b
    | none =>
      if s.map.media.any (fun m => s.blockOf m.addr == k && ls.contains (lunOf m.addr)) then
        { ix, group := g, block := k, state := .closed, members := s.bandMembers g k, closedAt := s.now, wl := s.geoWls, padded := true }
      else { ix, group := g, block := k }
  { s with map := { s.map with bands := (List.range s.map.groups.length).flatMap (fun g => (List.range s.geoBlocks).map (one g)) } }

/-- CHAN_PROT (R332): no group holds two LUNs on one channel. Log entry 30 (DEDUCED). -/
def State.setProt (s : State) : State :=
  s.setFld F.LIG_STATUS_CHAN_PROT (bit (s.map.groups.all (fun g => (channels g).eraseDups.length == g.length)))

/-- The formation of stripe groups at a BOOT that finds no namespace (R332, R442, R444). Log entry 30 (DEDUCED). -/
def State.form (s : State) : State :=
  let list := s.formList
  let r := fillGroups (s.fld F.LIG_CFG_WIDTH_ACTIVE) (list.length + 1) list
  let s1 : State := { s with map := { s.map with groups := r.1, spares := r.2 } }
  let s2 := (list.foldl State.reserveBlotter s1).formSets list
  s2.formBands s.map.groups

end Sys2Proof.Machine
end

