-- ==== Sys2Proof/Machine/Boot.lean ====
section
/-! DEFINITION. BOOT as a whole (R297 to R302, R425, R426, R460, R494, R530, R533, R644): the Scriptorium set, the boot record, the
recovery of the map and the Blotter, and the sequence. -/

namespace Sys2Proof.Machine

/-! ## Steps 8 and 9 -/

/-- The Scriptorium set's digest in the newest Colophon entry that records one: a boot record or a load's event entry (R425, R533, R535). Log entry 28 (DEDUCED). -/
def State.recordedSet (s : State) : Option Nat :=
  let loads := (s.fol.events.filter (fun e => e.kind == 7)).filterMap (fun e =>
    (e.more.find? (fun x => x.1 == 8 && x.2.1 == 48)).map (fun x => (e.eseq, x.2.2)))
  match loads.head?, s.fol.boots.head? with
  | some e, some b => some (if b.eseq < e.1 then e.2 else b.scrSha)
  | some e, none => some e.2
  | none, some b => some b.scrSha
  | none, none => none

/-- The Scriptorium set is selected and loaded into every Nib (R425, R426). Log entry 28 (DEDUCED). -/
def State.useScriptorium (s : State) : State :=
  let pick := match s.nib.setA, s.nib.setB with
    | some a, some b =>
      let named (t : ScrSet) : Bool := s.recordedSet == some t.sha
      ((pickCopy true true a.seq b.seq (a = b)).or (if named a != named b then some (named b) else none)).map (fun x => if x then b else a)
    | some a, none => some a
    | none, b => b
  let load (t : ScrSet) (s : State) : State := (List.range 48).foldl (fun (s : State) n => s.putImage n (t.imageFor n)) s
  match pick with
  | some t => load t { s with nib := { s.nib with setA := some t, setB := some t } }
  | none =>
    ((List.range 48).filter s.nibInUse).foldl (fun (s : State) n => s.post (F.NIB_Q_EVT_STATUS_SET_CONFLICT n) n) (load {} s)
      |>.enterSafe 9 false

/-- DIGEST of a boot record (R534): the chain over its items. -/
def bootDigest (items : List (List Nat)) : Nat := items.foldl (fun h x => Config.sha384 (bytesLe 48 h ++ x)) 0

/-- FUSES: SHA-384 over the 256 resolved words, with UDS read as 0 (R533). -/
def State.fuseSha (s : State) : Nat := Config.sha384 ((List.range 256).flatMap (fun w => bytesLe 8 (s.fuseShown w)))

/-- A boot record's place in the chain (R534), from the measurements of the Nibs. -/
def BootRec.chained (r : BootRec) (m : List (Option Nat)) : BootRec :=
  let sha (v : Nat) : List Nat := bytesLe 48 v
  { r with digest := bootDigest ([sha r.romId, sha r.bl, sha r.fw] ++ m.map (fun v => sha (v.getD 0)) ++
      [sha r.settingsSha, sha r.fuses, bytesLe 32 ((r.margin.map (fun w => 2 ^ w)).sum), [r.lifecycle], sha r.prev]) }

/-- The boot record (R533, R534, R536): built with what the steps before it found, and handed to the Folio. Log entries 21 and 29 (DEDUCED). -/
def State.bootRecord (s : State) : State :=
  let set := s.scrSet
  let m := s.measures set
  let distinct := (m.filterMap (fun i => i)).eraseDups
  let r : BootRec := {
    bootSeq := s.fol.bootSeq, eseq := s.fol.eseq + 1, stamp := s.stamp, lifecycle := s.lifecycle, slot := s.bxl.runSlot
    safe := s.fld F.EVU_SAFE_CAUSE != 0, margin := s.fol.marginal, settings := s.fol.setA.seq, scrSet := set.seq
    nibIdx := nibIdx m, scrN := distinct.length, det := !s.gce.entropyOk, unsigned := s.lifecycle == 0
    romId := Config.contentSha 0 [], bl := Config.contentSha 1 [s.bxl.loader.getD 0 0], fw := s.imageSha s.bxl.runSlot
    settingsSha := s.fol.setA.sha, fuses := s.fuseSha, scrSha := set.sha, meas := distinct.take 2, prev := s.fol.digest }
  let r := r.chained m
  ({ s with fol := { s.fol with record := some r, eseq := r.eseq, digest := r.digest } }).folio { job := .bootRecord, erase := true }

/-! ## Recovery -/

/-- The key slots are loaded again (R234, R235): of every namespace, of every snapshot, and of the cuts that wait. -/
def State.loadKeys (s : State) : State :=
  let was (slot : Nat) : Nat := ((s.ink.keys.find? (fun k => k.slot == slot)).map (fun k => k.key)).getD 0
  let ofNs (n : Ns) : Option KeySlot := n.key.map (fun k => ⟨k, if n.cut.isSome then was k else (s.fol.keyTab.lookup n.nsid).getD 0⟩)
  let ofCut (c : CutRec) : List KeySlot := if c.state = 1 then c.keys.map (fun p => ⟨p.2, (s.fol.keyTab.lookup p.1).getD 0⟩) else []
  { s with ink := { s.ink with keys := s.qe.nss.filterMap ofNs ++ s.ckpt.cuts.flatMap ofCut } }

/-- Cuts, reservations and the sanitize state as the Folio holds them (R199, R281, R315). -/
def State.loadTally (s : State) : State :=
  let nss := s.qe.nss.map (fun n => { n with resv := (s.fol.resvRecs.lookup n.nsid).getD {} })
  { s with
    ckpt := { s.ckpt with cuts := s.fol.cutRecs.filter (fun c => c.state != 0) }
    qe := { s.qe with nss := nss }
    map := { s.map with sanitize := s.fol.sanRec } }

/-- The chosen root record's map with everything that survives above it (R298): replay, the bands that the power-off cut, and the map
pages that cannot be read (R251). -/
def State.recoverFrom (s : State) (im : Image) (env : BootEnv) : State :=
  let s1 := (s.exposeBands.replay im env.badUnits).setFld F.LIG_PATROL_POS_PASS im.pass
  let gone := env.pages.filter (fun p => im.pages.any (fun q => q.nsid == p.1 && q.page == p.2))
  gone.foldl (fun (s : State) p => s.pageLost p.1 p.2) s1

/-- Recovery (R297, R460, R675): the Blotter is read, the root record is chosen, the other copy is written from it, and replay runs.
`prev` is the previous boot's number; `blank` says that both root copies were fully erased. Log entry 23 (DEDUCED). -/
def State.recover (s : State) (env : BootEnv) (prev : Nat) (blank : Bool) : State :=
  let s1 := (s.readBlotter prev env.rebuilt env.lost).loadTally.loadKeys
  let conflict (s : State) (halted : Bool) : State := (s.post F.MAP_CP_EVT_STATUS_ROOT_CONFLICT noUnit).enterSafe 7 halted
  let s2 := match s1.pickRoot blank with
    | .first => { s1 with map := { s1.map with entries := [], pages := [], snaps := [] }, ckpt := { s1.ckpt with newest := none, nextSeq := 1 } }
    | .use r =>
      let s2 : State := { s1 with ckpt := { s1.ckpt with rootA := some r, rootB := some r, newest := some r.image, nextSeq := r.image.seq + 1 } }
      s2.recoverFrom r.image env
    | .conflict (some r) => (conflict { s1 with ckpt := { s1.ckpt with newest := some r.image } } false).recoverFrom r.image env
    | .conflict none => conflict { s1 with map := { s1.map with entries := [] } } true
  s2.aboveInks.pickSlots

/-- The work that recovery leaves (R271, R281, R391, R464, R579): IUs that the Blotter still holds go to their write points, bands
that were erase pending are erased, a sanitize runs again, SVN burns that are short are repeated, and the closing checkpoint starts. -/
def State.afterRecovery (s : State) : State :=
  if s.fld F.EVU_SAFE_CAUSE != 0 then s
  else
    let s1 := (s.map.inflight.map (fun r => r.idx)).foldl State.feedRec s
    let s2 := ((s1.map.bands.filter (fun b => b.erasePend)).map (fun b => b.ix)).foldl State.startErase s1
    let s3 := if s2.map.sanitize.active != 0 then s2.runSanitize else s2
    let svn := (s3.slot s3.bxl.runSlot).svn
    let s4 : State := if s3.bxl.rcd.confirmed && s3.burnedSvn < svn then { s3 with fol := { s3.fol with svnBurns := s3.svnBurnsTo svn } } else s3
    (s4.post F.MAP_CP_EVT_STATUS_REPLAY_DONE noUnit).startCheckpoint

/-! ## The sequence -/

/-- The registers at the start of BOOT (R644, R671): the core domain takes its reset values; the port straps are sampled where PERST0_N
is high already, and the ports train. -/
def State.bootRegs (s : State) (cause : Nat) : State :=
  let s1 := (s.resetKeys (fun k => !aonKey k)).setFld F.DEV_CAUSE_CAUSE cause
  let s2 := (s1.setFld F.PWR_STATUS_PS 0).setFld F.PWR_STATUS_AP 0
  let high := !((s2.hp.ports[0]?).map (fun p => p.perst)).getD true
  if high then s2.sampleStrap.trainPorts else s2

/-- Steps 5 to 9 of R530 and the recovery of the medium, with a firmware slot accepted. `old` are the values in force before. Log entries 7 and 27 (DEDUCED, DESIGN CHOICE). -/
def State.bootDrive (s : State) (env : BootEnv) (slot prev : Nat) (old : List Nat) (fell : Option Nat) (blank : Bool) : State :=
  let it := s.openIntent
  let s1 := ({ s with bxl := { s.bxl with runSlot := slot } }).useKeys
  let s2 := match it with | some i => s1.lcFinish i | none => s1
  let (s3, set) := s2.useSettings
  let s4 := s3.applySettings set
  let s5 := if s4.hp.sampled then s4.sampleStrap else s4
  let vpd := (List.range 64).map (fun i => s5.fuse (98 + i))
  let s6 := ({ s5 with map := { s5.map with factoryBad := env.factoryBad, d5Gib := env.d5Gib }, mgmt := { s5.mgmt with vpd := some vpd } })
  let s7 := ((((s6.bootUnits env).discover env).setGeometry env).takeOver old).fitRate env.geom.full
  let s8 := (s7.setProt).bringUp env
  let s9 := if s8.hasNamespace then s8 else s8.form.setProt
  let s10 := s9.useScriptorium.bootRecord.tineMaskEntries
  let s11 := match fell with | some n => s10.colophon 3 2 n 0 | none => s10
  let s12 := match it with | some i => s11.colophon 5 (i.from_ + 256 * i.dest + 65536) i.iseq 0 | none => s11
  ((s12.recover env prev blank).refreshLevel.refreshCap).afterRecovery

/-- The thermal shutdowns of Tally that the ring of log page 0xC5 does not hold yet, oldest first (R614). Log entry 96 (DEDUCED). -/
def State.copyTherm (s : State) : State :=
  let new := (s.fol.thermRecs.take 64).filter (fun r => !s.thm.events.any (fun e => e.kind == 2 && e.stamp == r.stamp))
  let one (r : ThermRec) : ThermEvent := ⟨r.stamp, 2, s.fld F.THM_STATUS_LEVEL, r.sensor, r.temp, r.lun⟩
  { s with thm := { s.thm with events := (new.map one ++ s.thm.events).take 64 } }

/-- BOOT (R494, R530): with no Tine that passes nothing runs; without a boot loader or a slot the boot ends in SAFE with nothing of the
medium read. Log entries 27 and 31 (DEDUCED). -/
def State.bootRun (s : State) (env : BootEnv) (old : List Nat) : State :=
  let s1 := s.bootTines env
  if s1.tine.dead then s1
  else
    let prev := s1.fol.bootSeq
    let blank := s1.ckpt.rootA.isNone && s1.ckpt.rootB.isNone
    let s2 := ((((s1.readFuses env).lcRecover).resolveFuses).markBad env.bad).useTally env.bad
    let fell := if s2.fol.slotRcd.pending != 0 && s2.fol.slotRcd.tried then some s2.fol.slotRcd.pending else none
    let s3 := if s2.thm.prevShut && s2.fld F.DEV_CAUSE_CAUSE = 0 then s2.copyTherm.post F.THM_EVT_STATUS_SHUTDOWN noUnit else s2.copyTherm
    if env.loaderBad.contains 0 && env.loaderBad.contains 1 then s3.noSlot
    else
      let (s4, slot) := s3.chooseSlot env
      match slot with
      | none => s4.noSlot
      | some n =>
        if s4.fld F.EVU_SAFE_MEDIA = 2 then { s4 with bxl := { s4.bxl with runSlot := n } }
        else s4.bootDrive env n prev old fell blank

/-- The start of BOOT from any mode (R7, R62, R644): the core is reset, the count starts, the registers take their reset values and the
sequence of R530 runs. Log entry 27 (DEDUCED). -/
def State.enterBoot (s : State) (cause : Nat) (env : BootEnv) : State :=
  let old := [s.fld F.MAP_CFG_IU_ACTIVE, s.fld F.LIG_ECC_CFG_RATE_ACTIVE, s.fld F.LIG_CFG_WIDTH_ACTIVE, s.fld F.LIG_STATUS_EN_ACTIVE]
  let s1 := (s.coreReset.bootRegs cause).bootCount env
  let cool (x : Sensor) : Sensor := { x with max := x.temp, min := x.temp }
  let s2 : State := { s1 with
    mode := .boot
    evu := {}
    pwr := { s1.pwr with booted := true }
    thm := { s1.thm with sensors := s1.thm.sensors.map cool, levelT := [0, 0, 0, 0], levelAt := s1.now, bands := [], bandsAt := s1.now } }
  let level := s2.fld F.THM_STATUS_LEVEL
  (if level = 0 then s2.logLost else s2.logLost.setLevel level).bootRun env old

end Sys2Proof.Machine
end

