-- ==== Sys2Proof/Machine/PowerSeq.lean ====
section
/-! DEFINITION. The power sequencer, the quiesce before a power-down or a reset into BOOT, and the rows that begin or end a BOOT (R5,
R7, R146, R575, R580, R589 to R593, R626, R627, R629, R643, R644). -/

namespace Sys2Proof.Machine

/-! ## The quiesce (R202, R457, R593, R627) -/

/-- Whether the core is being quiesced: PD1 runs, or a BOOT waits. Log entry 35 (DEDUCED). -/
def State.quiescing (s : State) : Bool :=
  (s.pwr.bootWait.isSome && s.fld F.PWR_STATUS_STEP = 0) || s.fld F.PWR_STATUS_STEP == 13

/-- Whether no accepted write is left that is not dry. -/
def State.allDry (s : State) : Bool := !s.qe.cmds.any (fun c => c.kind.stamps) && s.map.inflight.all (fun r => r.dry)

/-- The quiesce ends: with the shutdown record (R456), once the Folio has nothing queued. -/
def State.quiesceEnd (s : State) (record : Bool) : State :=
  if !s.fol.reqs.isEmpty then s
  else
    let s1 := if record then s.shutRecord 1 else s
    { s1 with pwr := { s1.pwr with quiesce := 3 } }

/-- The quiesce begins: a DOZE entry ends, and the open wordlines are padded. Log entry 35 (DEDUCED). -/
def State.quiesceBegin (s : State) : State :=
  let s1 := if s.pwr.entry.isSome then s.dozeEnd else s
  let s2 := if s1.wpRuns then ((s1.map.wps.map (fun w => w.ix)).foldl State.padWp s1).pump else s1
  { s2 with pwr := { s2.pwr with quiesce := 1 } }

/-- A step of the quiesce. From BOOT the open Blotter rows are closed; in SAFE the dump of
R11 has to end, which read-only SAFE makes now where a write is not dry; a thermal shutdown and an
NVM Subsystem Reset wait until every write is dry; the others wait until nothing is in flight and for a checkpoint. Log entry 35 (DEDUCED). -/
def State.quiesceStep (s : State) : State :=
  let cause := match s.pwr.bootWait with | some w => w.cause | none => 0
  match s.pwr.quiesce with
  | 0 => s.quiesceBegin
  | 1 =>
    match s.mode with
    | .safe =>
      if s.blt.dumping != 0 then s
      else if s.fld F.EVU_SAFE_MEDIA != 2 && !s.allDry then ({ s with pwr := { s.pwr with quiesce := 2 } }).startDump 2
      else s.quiesceEnd true
    | .boot =>
      let s1 := s.closeRows true
      if s1.openRows.isEmpty || s1.fld F.EVU_SAFE_MEDIA = 2 then s1.quiesceEnd true else s1
    | _ =>
      if cause = 4 then (if s.allDry then s.quiesceEnd false else s)
      else if s.pwr.bootWait.isNone && s.pwr.cause = 4 then (if s.allDry then s.quiesceEnd true else s)
      else if s.qe.cmds.any (fun c => c.kind.stamps) || !s.map.inflight.isEmpty then s
      else
        let s1 : State := { s with pwr := { s.pwr with quiesce := 2 } }
        if s1.ckpt.running.isSome then { s1 with ckpt := { s1.ckpt with again := true } } else s1.startCheckpoint
  | 2 =>
    if s.mode = .safe then (if s.blt.dumping = 0 then s.quiesceEnd true else s)
    else if s.ckpt.running.isNone then s.quiesceEnd true else s
  | _ => s

/-- The progress of a quiesce; where a BOOT waits for it, BOOT begins at its end. HOLD-UP, DOZE and OFF make none. -/
def State.quiescePump (s : State) : State :=
  if !s.quiescing || s.mode = .holdUp || s.mode = .off || s.mode = .doze then s
  else
    let s1 := s.quiesceStep
    match s1.pwr.bootWait with
    | some w => if s1.pwr.quiesce = 3 then s1.enterBoot w.cause w.env else s1
    | none => s1

/-- A reset into BOOT with the rails kept up (R12, R13, R627): it waits for the quiesce. It loses to PFAIL_N, a power-down and a reset that waits
already, and outranks a fallback and an entry into DOZE. Log entry 87 (DEDUCED). -/
def State.deviceReset (s : State) (cause : Nat) (env : BootEnv) : State :=
  if s.mode = .off then s
  else if s.mode = .holdUp then s.logDiscard
  else if s.rankNow ≤ (if cause = 3 then 7 else 5) then s.lose 1
  else
    let s1 := s.lose (bit s.pwr.entry.isSome + bit s.pwr.bootWait.isSome)
    ({ s1 with pwr := { s1.pwr with bootWait := some { cause, env }, quiesce := 0 } }).quiescePump

/-! ## The sequencer -/

/-- Sets a rail enable. -/
def State.rail (s : State) (i : Nat) (on : Bool) : State := { s with pwr := { s.pwr with rails := s.pwr.rails.set i on } }

/-- The entry to OFF (R7, R13, R632, R635): every holding of the lock ends, tunnelled commands get no response, and what lost to the power-down is
recorded. Log entry 33 (DEDUCED). -/
def State.enterOff (s : State) : State :=
  let s1 := (s.lose (bit s.maskDue)).freeLock
  ({ s1 with
    mode := .off
    mgmt := { s1.mgmt with tunnels := 0, held := [] }
    thm := { s1.thm with prevShut := s1.pwr.cause == 4 }
    pwr := { s1.pwr with bootWait := none, quiesce := 0, entry := none, wake := none, tap := {} } }).logLost

/-- What a power-up step leaves done (R591). -/
def State.puDone (s : State) (k : Nat) : State :=
  match k with
  | 1 => s.rail 0 true
  | 2 => s.rail 1 true
  | 3 => s.rail 2 true
  | 4 => (s.setFld F.PWR_AVS_STATUS_VSET (s.fld F.PWR_AVS_VNOM)).setFld F.PWR_AVS_STATUS_PEND 0
  | 5 => s.rail 3 true
  | _ => s

/-- POWER_UP_STEP_DONE (R591, R592): step PUk has ended. At its boundary a latched off request runs the power-down from the mirror;
after PU12 BOOT begins, and `env` is what it finds. -/
def execPowerUpStepDone (k : Nat) (env : BootEnv) (s : State) : Res :=
  if !s.pwr.vaux || k = 0 || 12 < k || s.fld F.PWR_STATUS_STEP != k then .next s
  else
    let s1 := s.puDone k
    match s1.pwr.offReq with
    | some src =>
      let s2 : State := { s1 with pwr := { s1.pwr with offReq := none, cause := src } }
      .next ((s2.lastWake src 3 0).setFld F.PWR_STATUS_STEP (25 - k))
    | none => if k = 12 then .next ((s1.setFld F.PWR_STATUS_STEP 0).enterBoot 0 env) else .next (s1.setFld F.PWR_STATUS_STEP (k + 1))

/-- What a power-down step leaves done (R591): PD1 resets the core, PD2 takes the links down, PD7 stops the Ruling, and the rails go. Log entry 33 (DEDUCED). -/
def State.pdDone (s : State) (j : Nat) : State :=
  match j with
  | 1 => s.coreReset
  | 2 => (s.portGone 0 false).portGone 1 false
  | 7 => if s.rul.running then s.rulStop else s
  | 8 => s.rail 3 false
  | 10 => s.rail 2 false
  | 11 => s.rail 1 false
  | 12 => s.rail 0 false
  | _ => s

/-- POWER_DOWN_STEP_DONE (R591 to R593): step PDj has ended, PD1 only once its quiesce has, PD5 with the Folio's queue drained. At the boundary a latched power-up request
reverses the power-down up to PD7, unless it began in HOLD-UP; later it waits for OFF and the minimum off time. -/
def execPowerDownStepDone (j : Nat) (s : State) : Res :=
  if !s.pwr.vaux || j = 0 || 12 < j || s.fld F.PWR_STATUS_STEP != 12 + j then .next s
  else if j = 1 && s.mode != .off && s.mode != .holdUp && s.pwr.quiesce != 3 then .next s
  else if j = 5 && s.mode != .off && !s.fol.reqs.isEmpty then .next s
  else
    let s1 := s.pdDone j
    let turns := j ≤ 7 && s1.mode != .holdUp && !(s1.pwr.cause = 3 && s1.mode != .off)
    match s1.pwr.onReq, turns with
    | some src, true =>
      let s2 := s1.enterOff
      let s3 : State := { s2 with pwr := { s2.pwr with onReq := none, source := src } }
      .next ((s3.lastWake src 1 0).setFld F.PWR_STATUS_STEP (13 - j))
    | on, _ =>
      if j < 12 then .next (s1.setFld F.PWR_STATUS_STEP (13 + j))
      else
        let s2 := s1.enterOff
        let s3 := ({ s2 with pwr := { s2.pwr with minOff := true } }).setFld F.PWR_STATUS_STEP 0
        .next (match on with | some src => s3.lastWake src 2 0 | none => s3)

/-! ## Resets -/

/-- An NVM Subsystem Reset (R146, R510, R575, R580): every controller of both ports ends and the links retrain; outside SAFE with an
activation pending BOOT follows, once the writes that proceed are dry (R147). Log entry 35 (DEDUCED). -/
def State.nvmReset (s : State) (env : BootEnv) : State :=
  if s.mode = .off || s.mode = .holdUp then s
  else
    let s1 := (s.wakeEvent 6).endCtrls (s.qe.ctrls.map (fun c => c.id))
    let s2 := (List.range 2).foldl (fun (s : State) p => if s.hasPort p then (s.setReg (F.HP_LINK_STATUS_UP p).key 0).train p else s) s1
    if s2.bxl.rcd.pending != 0 && (s2.mode == .run || s2.mode == .degraded || s2.mode == .trial) then s2.deviceReset 4 env else s2

/-- NVM_SUBSYSTEM_RESET (R146, R575). -/
def execNvmSubsystemReset (env : BootEnv) (s : State) : Res := .next (s.nvmReset env)

/-- MI_RESET (R624): the NVMe-MI Reset command performs an NVM Subsystem Reset. -/
def execMiReset (eid : Nat) (env : BootEnv) (s : State) : Res := s.mi (.miReset eid env) eid .full (fun s => (s.nvmReset env).emit (.mi 0 []))

/-- DEVICE_RESET (R626, R627): answered when the action has begun. -/
def execDeviceReset (eid : Nat) (env : BootEnv) (s : State) : Res :=
  s.mi (.deviceReset eid env) eid .full (fun s => s.underLock eid (fun s => (s.deviceReset 2 env).emit (.mi 0 [])))

/-- DEV_RESET_WRITE (R643): a write of 1 to DEV_RESET.DEVICE by a PF. -/
def execDevResetWrite (pf : Nat) (env : BootEnv) (s : State) : Res :=
  if !s.barReached pf then .next s
  else
    let s1 := s.wakeEvent 6
    let mine := s1.mgmt.lock.isSome && s1.mgmt.lock = holderOf (.host pf 0 0)
    .next (if mine then s1.deviceReset 1 env else s1.post F.DEV_EVT_STATUS_RST_DENIED noUnit)

/-- REGISTER_WINDOW_WRITE (R629, R643): each dword in order; refused whole where one lies outside the window, and applied nowhere while a
PF holds the lock. A write of 1 to DEV_RESET.DEVICE acts as Device Reset. -/
def execRegisterWindowWrite (eid off : Nat) (values : List Nat) (env : BootEnv) (s : State) : Res :=
  s.mi (.registerWindowWrite eid off values env) eid .window (fun s =>
    if !windowOk off values.length then s.emit (.mi 4 [])
    else if !s.windowServes off values.length then s.emit (.mi 0xE0 [s.mode.code])
    else s.underLock eid (fun s =>
      let one (s : State) (e : Nat × Nat) : State :=
        let a := off + 4 * e.2
        if a = F.DEV_RESET_DEVICE.key then (if e.1.testBit 0 then s.deviceReset 2 env else s) else s.windowWrite a e.1
      (values.zipIdx.foldl one s).emit (.mi 0 [])))

/-- TRIAL_WATCHDOG_EXPIRE (R580): 900 s of TRIAL have passed and no operation of R485 is in progress: the fallback's entry and record,
and BOOT once the WY48 is quiet. Log entry 69 (DEDUCED). -/
def execTrialWatchdogExpire (env : BootEnv) (s : State) : Res :=
  if s.mode != .trial || s.wdLeft != 0 || s.tineBlocked then .next s
  else if s.rankNow ≤ 7 then .next (s.lose 1)
  else
    let s1 := s.colophon 3 1 s.bxl.runSlot 0
    let s2 := (s1.slotRecord (fun r => { r with pending := 0, tried := false }) none).post F.BXL_EVT_STATUS_FALLBACK noUnit
    let s3 : State := { s2 with bxl := { s2.bxl with lastOut := 2 }, fol := s2.fol.tallied 3 }
    .next (s3.deviceReset 3 env)

/-! ## The end of BOOT -/

/-- The controllers that can become ready: enabled, with their admin queues. Log entry 29 (DEDUCED). -/
def State.ready (s : State) (c : Ctrl) : Bool :=
  c.en && s.qe.sqs.any (fun q => q.ctrl == c.id && q.qid == 0) && s.qe.cqs.any (fun q => q.ctrl == c.id && q.qid == 0)

/-- Whether everything that comes before CSTS.RDY has ended (R298, R425, R494, R530): the boot record, the closing checkpoint, the
standby's resynchronisation, and some controller to become ready. Log entry 29 (DEDUCED). -/
def State.bootDone (s : State) : Bool :=
  s.pwr.booted && s.fld F.PWR_STATUS_STEP = 0 && !s.tine.dead && s.tine.a != .joining && s.tine.b != .joining && !s.fol.reqs.any (fun r => r.job == .bootRecord)
    && (s.ckpt.running.isNone || s.fld F.EVU_SAFE_CAUSE != 0) && s.qe.ctrls.any s.ready

/-- The mode that BOOT ends in (R7). Log entry 29 (DEDUCED). -/
def State.bootMode (s : State) : Mode :=
  if s.fld F.EVU_SAFE_CAUSE != 0 then .safe
  else if s.bxl.rcd.pending != 0 && s.bxl.rcd.tried && s.bxl.runSlot = s.bxl.rcd.pending then .trial
  else if s.anyMasked then .degraded else .run

/-- TRIAL begins (R535, R578, R579). Log entry 69 (DEDUCED). -/
def State.trialStart (s : State) : State :=
  let s1 := (s.post F.BXL_EVT_STATUS_TRIAL_START noUnit).colophon 2 s.bxl.runSlot (s.slot s.bxl.runSlot).image 0
  { s1 with bxl := { s1.bxl with wdLeft := 900 * secT, wdAt := s.now, trialAt := s.now, drilled := false } }

/-- A finding made in BOOT is acted on (R357): a rebuilt unit is first written through write point 5 (R342). -/
def State.deferredFinding (s : State) (f : Nat × Nat × Bool) : State :=
  let s1 := if f.2.2 then (match s.mediaAt f.1 with | some m => s.writeRebuilt m (.mapped m.addr) | none => s) else s
  s1.finding f.1 f.2.1

/-- The instant of CSTS.RDY (R5, R315, R515, R579, R641): cuts whose time has passed are held, the mode begins, the messages of BOOT are
sent, and AUTO_SEAL seals. Log entry 29 (DEDUCED). -/
def State.bootEnds (s : State) : State :=
  let late := (s.ckpt.cuts.filter (fun c => c.state == 1 && c.time * 256 ≤ s.now))
  let s1 := late.foldl (fun (s : State) c => s.holdCut c) s
  let s2 : State := { s1 with
    mode := s1.bootMode
    qe := { s1.qe with ctrls := updWhere s1.ready (fun c => { c with rdy := true }) s1.qe.ctrls }
    tine := { s1.tine with drillAt := s1.now }
    evu := { s1.evu with waiting := [] }
    map := { s1.map with deferred := [] } }
  let s3 := (s1.evu.waiting.foldl State.sendMsg s2).sendOwn s2
  let s4 := if s3.mode = .trial then s3.trialStart else s3
  let s5 := if s4.flag F.DEV_CFG_AUTO_SEAL then s4.sealSet else s4
  (((s1.map.deferred.foldl State.deferredFinding s5).psEval).pumpBlotter).pump

/-- CSTS_RDY_SET (R5, R530): from the state at power-on the boot sequence runs first, with what `env` says that it finds; afterwards
CSTS.RDY is set once BOOT's work is done. Log entry 27 (DEDUCED). -/
def execCstsRdySet (env : BootEnv) (s : State) : Res :=
  if s.mode != .boot then .next s
  else if !s.pwr.booted then .next (s.enterBoot 0 env)
  else if !s.bootDone then .next s
  else .next s.bootEnds

end Sys2Proof.Machine
end

