-- ==== Sys2Proof/Machine/Queues.lean ====
section
/-! DEFINITION. Doorbells, arbitration, fetch and the controllers' enable, reset and shutdown (R152 to R163, R201, R202). -/

namespace Sys2Proof.Machine

/-! ## Doorbells -/

/-- A submission queue. -/
def State.sq (s : State) (c q : Nat) : Option Sq := s.qe.sqs.find? (fun x => x.ctrl == c && x.qid == q)

/-- A completion queue. -/
def State.cq (s : State) (c q : Nat) : Option Cq := s.qe.cqs.find? (fun x => x.ctrl == c && x.qid == q)

/-- Changes one submission queue. -/
def State.updSq (s : State) (c q : Nat) (f : Sq → Sq) : State :=
  { s with qe := { s.qe with sqs := updWhere (fun x => x.ctrl == c && x.qid == q) f s.qe.sqs } }

/-- Changes one completion queue. -/
def State.updCq (s : State) (c q : Nat) (f : Cq → Cq) : State :=
  { s with qe := { s.qe with cqs := updWhere (fun x => x.ctrl == c && x.qid == q) f s.qe.cqs } }

/-- DOORBELL_WRITE (R128, R149, R155 to R157): a tail is used at once and makes its queue active; a head lets completions
that found the queue full go. A poisoned write is discarded. In DOZE it is a wake event. -/
def execDoorbellWrite (ctrl qid : Nat) (isCq : Bool) (value : Nat) (poison : Bool) (s : State) : Res :=
  if s.mode = .off || s.mode = .holdUp || !s.qe.ctrls.any (fun c => c.id == ctrl) || doorbells ctrl ≤ qid then .next s
  else if poison then .next ((s.wakeEvent 6).poisonIn ctrl)
  else
    let s1 := s.wakeEvent 6
    if isCq then
      match s1.cq ctrl qid with
      | none => .next s1
      | some q =>
        if q.size ≤ value then .next (s1.badDoorbell ctrl)
        else .next ((s1.updCq ctrl qid (fun q => { q with head := value })).drainFull ctrl)
    else
      match s1.sq ctrl qid with
      | none => .next s1
      | some q =>
        if q.size ≤ value then .next (s1.badDoorbell ctrl)
        else .next (s1.updSq ctrl qid (fun q => { q with tail := value, active := true, lastNew := s.now }))

/-- SHADOW_TAIL_POLL (R120, R155 to R157): the shadow tail of an active queue as the poll reads it; with it come the shadow heads whose
reads are under way. Log entry 59 (DEDUCED). -/
def execShadowTailPoll (ctrl qid value : Nat) (heads : List (Nat × Nat)) (s : State) : Res :=
  match s.ctrl ctrl, s.sq ctrl qid with
  | some k, some q =>
    if !k.shadowDb || !q.active || !s.fetches || s.hp.d3hot.contains ctrl then .next s
    else
      let s1 := heads.foldl (fun (s : State) h => s.memRead (.head ctrl h.1 h.2) .ok []) s
      if q.size ≤ value then .next (s1.badDoorbell ctrl)
      else .next (s1.updSq ctrl qid (fun q => { q with tail := value }))
  | _, _ => .next s

/-- SQ_IDLE_TIMEOUT (R155): 100 µs without a new entry make a queue idle; its EventIdx is the tail last read. -/
def execSqIdleTimeout (ctrl qid : Nat) (s : State) : Res :=
  match s.ctrl ctrl, s.sq ctrl qid with
  | some k, some q =>
    if k.shadowDb && q.active && q.lastNew + 100 * usT ≤ s.now then
      .next (s.updSq ctrl qid (fun q => { q with active := false, eventIdx := q.tail }))
    else .next s
  | _, _ => .next s

/-! ## Arbitration (R158 to R163) -/

/-- The first number after `last` in round robin order among those listed. -/
def nextAfter (last : Nat) (l : List Nat) : Option Nat :=
  let up := l.filter (fun x => last < x)
  match up.foldl (fun (m : Option Nat) x => some (min x (m.getD x))) none with
  | some x => some x
  | none => l.foldl (fun (m : Option Nat) x => some (min x (m.getD x))) none

/-- Whether a controller may be fetched from (R120, R134). -/
def State.ctrlFetches (s : State) (k : Ctrl) : Bool := k.en && k.rdy && !k.cfs && !s.hp.d3hot.contains k.id

/-- Tags that are free for an entry's kind (R158). Log entry 73 (DESIGN CHOICE). -/
def State.freeTags (s : State) (admin : Bool) : Nat :=
  let isAdmin (r : Ref) : Bool := match r with | .host _ q _ => q == 0 | .side => false
  let all := s.qe.tags.length + s.qe.fetched.length
  let io := (s.qe.tags.filter (fun r => !isAdmin r)).length + (s.qe.fetched.filter (fun e => e.sq != 0)).length
  if admin then 65536 - all else min (65536 - all) (65472 - io)

/-- The class of a submission queue (R161 to R163): 0 Urgent, 1 High, 2 Medium, 3 Low, 4 the one class of round robin. Log entry 60 (DESIGN CHOICE). -/
def sqClass (k : Ctrl) (q : Sq) : Nat := if k.ams = 1 then q.prio else 4

/-- The ready I/O queues of a controller in a class. -/
def State.readyIn (s : State) (k : Ctrl) (cls : Nat) : List Nat :=
  if !s.ctrlFetches k || s.freeTags false = 0 then []
  else (s.qe.sqs.filter (fun q => q.ctrl == k.id && q.qid != 0 && q.head != q.tail && sqClass k q == cls)).map (fun q => q.qid)

/-- A controller's ready classes of step 3. -/
def State.wrrClasses (s : State) (k : Ctrl) : List Nat := [1, 2, 3, 4].filter (fun c => !(s.readyIn k c).isEmpty)

/-- The credits left for a class. -/
def Ctrl.credit (k : Ctrl) (cls : Nat) : Nat :=
  match cls with | 1 => k.credits.1 | 2 => k.credits.2.1 | 3 => k.credits.2.2 | _ => 1

/-- Spends one credit of a class (R162). -/
def Ctrl.spend (k : Ctrl) (cls : Nat) : Ctrl :=
  match cls with
  | 1 => { k with credits := (k.credits.1 - 1, k.credits.2) }
  | 2 => { k with credits := (k.credits.1, k.credits.2.1 - 1, k.credits.2.2) }
  | 3 => { k with credits := (k.credits.1, k.credits.2.1, k.credits.2.2 - 1) }
  | _ => k

/-- The credits as a controller's feature 0x01 loads them (R162). -/
def State.reload (s : State) (k : Ctrl) : Ctrl :=
  let f := s.feat 1 k.id 0
  { k with credits := (bitsOf f 24 8 + 1, bitsOf f 16 8 + 1, bitsOf f 8 8 + 1) }

/-- The next queue of a controller in a class, in round robin. -/
def State.nextSq (s : State) (k : Ctrl) (cls : Nat) : Option Nat := nextAfter ((k.lastSq.lookup cls).getD 0) (s.readyIn k cls)

/-- The reads of one grant (R160): one, split at 4 KiB. -/
def slotRuns (slots : List Nat) : List (List Nat) :=
  ((slots.map (· / 64)).eraseDups).map (fun g => slots.filter (fun k => k / 64 == g))

/-- Fetches from a queue (R117, R158, R160): up to 2^AB entries, limited by tags, by the entries present and by the end of the
queue; each holds its tag from now on. -/
def State.fetchFrom (s : State) (q : Sq) : State :=
  let ab := s.feat 1 q.ctrl 0 % 8
  let burst := if ab = 7 then 64 else 2 ^ ab
  let present := (q.tail + q.size - q.head) % q.size
  let n := min (min burst present) (min (q.size - q.head) (s.freeTags (q.qid == 0)))
  let slots := (List.range n).map (fun k => q.head + k)
  let es := slots.map (fun k => ({ ctrl := q.ctrl, sq := q.qid, slot := k } : Sqe))
  let s0 : State := { s with qe := { s.qe with fetched := s.qe.fetched ++ es } }
  let s1 := (slotRuns slots).foldl (fun (s : State) r => s.readHost q.ctrl (.sqe q.ctrl q.qid 0 0) r [s.sqPage q.ctrl q.qid (r.headD 0)]) s0
  (s1.updSq q.ctrl q.qid (fun q => { q with head := (q.head + n) % q.size, active := true, lastNew := s.now })).wakeEvent 0xB

/-- The grant of step 3 (R162). -/
def State.grantWrr (s : State) : State :=
  let ks := s.qe.ctrls.filter (fun k => !(s.wrrClasses k).isEmpty)
  match nextAfter s.qe.rrWrr (ks.map (fun k => k.id)) with
  | none => s
  | some id =>
    match s.ctrl id with
    | none => s
    | some k0 =>
      let cs := s.wrrClasses k0
      let k := if cs.any (fun c => k0.credit c != 0) then k0 else s.reload k0
      match cs.find? (fun c => k.credit c != 0) with
      | none => s
      | some c =>
        match (s.nextSq k c).bind (s.sq id) with
        | none => s
        | some q =>
          let k1 : Ctrl := { (k.spend c) with lastSq := (c, q.qid) :: k.lastSq.filter (fun e => e.1 != c) }
          ({ (s.updCtrl id (fun _ => k1)) with qe := { (s.updCtrl id (fun _ => k1)).qe with rrWrr := id } }).fetchFrom q

/-- SQ_FETCH_GRANT (R106, R159 to R163): an Admin queue first, then an Urgent one, then weighted round robin. -/
def execSqFetchGrant (s : State) : Res :=
  if !s.fetches || s.qe.fetchHold then .next s
  else
    let admins := (s.qe.sqs.filter (fun q => q.qid == 0 && q.head != q.tail && ((s.ctrl q.ctrl).map s.ctrlFetches).getD false)).map (fun q => q.ctrl)
    match (if s.freeTags true = 0 then none else nextAfter s.qe.rrAdmin admins) with
    | some c =>
      (match s.sq c 0 with
       | some q => .next ({ s with qe := { s.qe with rrAdmin := c } }.fetchFrom q)
       | none => .next s)
    | none =>
      let urgents := (s.qe.ctrls.filter (fun k => !(s.readyIn k 0).isEmpty)).map (fun k => k.id)
      match nextAfter s.qe.rrUrgent urgents with
      | some c =>
        (match s.ctrl c with
         | none => .next s
         | some k =>
           match (s.nextSq k 0).bind (s.sq c) with
           | none => .next s
           | some q =>
             let s1 := s.updCtrl c (fun k => { k with lastSq := (0, q.qid) :: k.lastSq.filter (fun e => e.1 != 0) })
             .next ({ s1 with qe := { s1.qe with rrUrgent := c } }.fetchFrom q))
      | none => .next s.grantWrr

/-! ## Controllers -/

/-- CONTROLLER_ENABLE (R5, R152, R154, R163): the Admin queues come up; AQA's sizes are 0's based, and one outside 2 to 4,096 entries leaves
CSTS.RDY at 0; in BOOT it is set when BOOT ends. -/
def execControllerEnable (ctrl asqs acqs : Nat) (ams : CcWrite) (s : State) : Res :=
  match s.ctrl ctrl with
  | none => .next s
  | some k =>
    if k.en || s.mode = .off || s.mode = .holdUp then .next s
    else
      let ok := 1 ≤ asqs && asqs < 4096 && 1 ≤ acqs && acqs < 4096
      let s0 := s.wakeEvent 6
      let c : Ctrl := { id := ctrl, en := true, rdy := ok && s.mode != .boot, ams := if ams.ams = 1 then 1 else 0, iosqes := ams.iosqes,
                        iocqes := ams.iocqes, asqs, acqs, asq := ams.asq, acq := ams.acq }
      let s1 := s0.updCtrl ctrl (fun _ => c)
      let s2 : State := if ok then { s1 with qe := { s1.qe with
          sqs := s1.qe.sqs ++ [{ ctrl, qid := 0, size := asqs + 1, base := some ams.asq }]
          cqs := s1.qe.cqs ++ [{ ctrl, qid := 0, size := acqs + 1, ien := true }] } }
        else s1
      .next s2.psEval

/-- CONTROLLER_RESET (R147, R153, R201): CC.EN goes to 0. Log entry 61 (DEDUCED). -/
def execControllerReset (ctrl : Nat) (s : State) : Res :=
  match s.ctrl ctrl with
  | none => .next s
  | some k => if k.en && s.mode != .off && s.mode != .holdUp then .next ((s.wakeEvent 6).endCtrls [ctrl]) else .next s

/-- A shutdown request (R202). Log entry 68 (DESIGN CHOICE). -/
def State.shutdown (s : State) (ctrl shn : Nat) : State :=
  match s.ctrl ctrl with
  | none => s
  | some k =>
    if !k.en || k.shst != 0 || s.mode = .off || s.mode = .holdUp then s
    else
      let s1 := (s.wakeEvent 6).updCtrl ctrl (fun k => { k with shst := 1, shn := shn })
      let padded := if shn = 1 && s.wpRuns then ((s1.map.wps.map (fun w => w.ix)).foldl State.padWp s1).pump else s1
      padded.shutStep

/-- NORMAL_SHUTDOWN (R202, R260). -/
def execNormalShutdown (ctrl : Nat) (s : State) : Res := .next (s.shutdown ctrl 1)

/-- ABRUPT_SHUTDOWN (R202). -/
def execAbruptShutdown (ctrl : Nat) (s : State) : Res := .next (s.shutdown ctrl 2)

end Sys2Proof.Machine
end

