-- ==== Sys2Proof/Machine/Spdm.lean ====
section
/-! DEFINITION. The SPDM responder (R145, R539, R540, R625): a connection for each party, its negotiation and its sessions. A response names its
SPDM code; signatures, keys and digests are not computed, what they cover is named by the state. -/

namespace Sys2Proof.Machine

/-- The connection of a party. -/
def State.conn (s : State) (p : Party) : SpdmConn := (s.spdm.find? (fun c => c.party == p)).getD { party := p }

/-- Stores a connection. -/
def State.setConn (s : State) (c : SpdmConn) : State := { s with spdm := c :: s.spdm.filter (fun x => x.party != c.party) }

/-- Whether this boot's record is signed (R530, R628), from which on SPDM is served in BOOT. -/
def State.recordSigned (s : State) : Bool := s.pwr.booted && s.fol.record.isSome

/-- Sends a response; a DOE mailbox is idle again once its object has been answered (R145). Log entry 17 (PRESUMED). -/
def State.spdmSend (s : State) (p : Party) (code : Nat) (data : List Nat) : State :=
  match p with
  | .doe pf => (s.setDoe pf 0).emit (.spdm p code data)
  | .mctp _ => s.emit (.spdm p code data)

/-- Whether an SPDM request is served (R145, R552, R625, R628): over DOE for an object that the mailbox holds, over MCTP where the mode
serves it. -/
def State.spdmServes (s : State) (p : Party) : Bool :=
  s.mode != .off && s.mode != .holdUp && s.mode != .doze && s.recordSigned &&
    (match p with
    | .doe pf => s.hp.doe.getD pf 0 == 1
    | .mctp _ => s.pwr.vaux)

/-- The state in which a request runs: a message over MCTP is a wake event (R628). -/
def State.spdmTold (s : State) (p : Party) : State :=
  match p with
  | .doe _ => s
  | .mctp _ => s.wakeEvent 8

/-- An SPDM request `i` (R145, R628): one that is not served has no effect over DOE and the answer 0xE0 over MCTP, where DOZE lets it wait
for the wake. -/
def State.spdmReq (s : State) (i : Request) (p : Party) (k : State → State) : Res :=
  if s.spdmServes p then .next (k (s.spdmTold p))
  else
    match p with
    | .doe _ => .next s
    | .mctp _ => s.mctp i (fun s => s.emit (.mi 0xE0 [s.mode.code]))

/-- The error response: 0x01 InvalidRequest, 0x02 InvalidSession, 0x04 UnexpectedRequest, 0x06 DecryptError. Log entry 17 (PRESUMED). -/
def State.spdmError (s : State) (p : Party) (code : Nat) : State := s.spdmSend p 0x7F [code]

/-- A request that needs a stage of the negotiation. -/
def State.atStage (s : State) (p : Party) (stage : Nat) (k : State → State) : State :=
  if (s.conn p).stage < stage then s.spdmError p 4 else k s

/-- Whether slot 0 holds the certificate chain, which Torvelle issues at the transition to FACTORY (R528). Log entry 45 (DEDUCED). -/
def State.certified (s : State) : Bool := s.lifecycle != 0

/-- GET_VERSION (R539): SPDM 1.2 and 1.3; the connection starts anew. -/
def execGetVersion (party : Party) (s : State) : Res :=
  s.spdmReq (.getVersion party) party (fun s => (s.setConn { party, stage := 1 }).spdmSend party 0x04 [0x12, 0x13])

/-- GET_CAPABILITIES (R539). Log entry 12 (DESIGN CHOICE). -/
def execGetCapabilities (party : Party) (s : State) : Res :=
  s.spdmReq (.getCapabilities party) party (fun s => s.atStage party 1 (fun s =>
    (s.setConn { s.conn party with stage := max 2 (s.conn party).stage }).spdmSend party 0x61 [Config.spdmFlags]))

/-- NEGOTIATE_ALGORITHMS (R539): ECDSA P-384, SHA-384, secp384r1 and AES-256-GCM, where the requester offers them. -/
def execNegotiateAlgorithms (party : Party) (offered : Bool) (s : State) : Res :=
  s.spdmReq (.negotiateAlgorithms party offered) party (fun s => s.atStage party 2 (fun s =>
    if !offered then s.spdmError party 1
    else (s.setConn { s.conn party with stage := 3 }).spdmSend party 0x63 [0x80, 0x02, 0x10, 0x02]))

/-- GET_DIGESTS (R539): one certificate slot, slot 0. -/
def execGetDigests (party : Party) (s : State) : Res :=
  s.spdmReq (.getDigests party) party (fun s => s.atStage party 3 (fun s => s.spdmSend party 0x01 [bit s.certified]))

/-- GET_CERTIFICATE (R539): the chain of slot 0. Log entry 45 (DEDUCED). -/
def execGetCertificate (party : Party) (slot off len : Nat) (s : State) : Res :=
  s.spdmReq (.getCertificate party slot off len) party (fun s => s.atStage party 3 (fun s =>
    if slot != 0 || !s.certified then s.spdmError party 1 else s.spdmSend party 0x02 [slot, off, len]))

/-- CHALLENGE (R539): signed with the ECDSA identity key. -/
def execChallenge (party : Party) (slot : Nat) (s : State) : Res :=
  s.spdmReq (.challenge party slot) party (fun s => s.atStage party 3 (fun s =>
    if slot != 0 || !s.certified then s.spdmError party 1 else s.spdmSend party 0x03 [slot, s.fol.bootSeq]))

/-- A measurement block in DMTF form (R540): index, type (bit 7: the value is no digest), and the value's bytes. Log entry 17 (PRESUMED). -/
def dmtfBlock (index type : Nat) (value : List Nat) : List Nat :=
  [index, 1] ++ bytesLe 2 (value.length + 3) ++ [type] ++ bytesLe 2 value.length ++ value

/-- The measurement blocks (R540): the digests of this boot's record, the measurement of the Scriptorium now in a Nib, and the 4,096 bytes of the
record. Types: 0 immutable ROM, 1 mutable firmware, 2 hardware configuration, 3 firmware configuration, 4 manifest. -/
def State.measurement (s : State) (index : Nat) : Option (List Nat) :=
  match s.fol.record with
  | none => none
  | some b =>
    if index = 1 then some (dmtfBlock 1 0 (bytesLe 48 b.romId))
    else if index = 2 then some (dmtfBlock 2 1 (bytesLe 48 b.bl))
    else if index = 3 then some (dmtfBlock 3 1 (bytesLe 48 b.fw))
    else if index = 4 then some (dmtfBlock 4 3 (bytesLe 48 b.settingsSha))
    else if index = 5 then some (dmtfBlock 5 0x82 (bytesLe 48 b.fuses ++ bytesLe 32 ((b.margin.map (fun w => 2 ^ w)).sum)))
    else if index = 6 then some (dmtfBlock 6 0x82 [b.lifecycle])
    else if 16 ≤ index && index < 64 then some (dmtfBlock index 1 (bytesLe 48 (s.imageOf (index - 16)).measure))
    else if index = 0xFD then some (dmtfBlock 0xFD 0x84 (fieldBytes 4096 b.fields))
    else none

/-- The indices of R540. -/
def measurementIndices : List Nat := [1, 2, 3, 4, 5, 6] ++ (List.range 48).map (fun n => 16 + n) ++ [0xFD]

/-- GET_MEASUREMENTS (R540): 0 asks for their number, 0xFF for all, any other index for one. -/
def execGetMeasurements (party : Party) (index : Nat) (s : State) : Res :=
  s.spdmReq (.getMeasurements party index) party (fun s => s.atStage party 3 (fun s =>
    if index = 0 then s.spdmSend party 0x60 [measurementIndices.length]
    else if index = 0xFF then s.spdmSend party 0x60 (measurementIndices.length :: measurementIndices.flatMap (fun i => (s.measurement i).getD []))
    else match s.measurement index with
      | some d => s.spdmSend party 0x60 (1 :: d)
      | none => s.spdmError party 1))

/-- KEY_EXCHANGE (R539): a session begins its handshake. -/
def execKeyExchange (party : Party) (slot : Nat) (s : State) : Res :=
  s.spdmReq (.keyExchange party slot) party (fun s => s.atStage party 3 (fun s =>
    if slot != 0 || !s.certified then s.spdmError party 1
    else
      let c := s.conn party
      (s.setConn { c with next := c.next + 1, sessions := (c.next, false, 0) :: c.sessions }).spdmSend party 0x64 [c.next]))

/-- A request within a session, established or in its handshake. -/
def State.inSession (s : State) (p : Party) (n : Nat) (up : Bool) (k : State → Nat → State) : State :=
  match (s.conn p).sessions.find? (fun e => e.1 == n && e.2.1 == up) with
  | some e => k s e.2.2
  | none => s.spdmError p 2

/-- Replaces a session, or ends it. -/
def State.putSession (s : State) (p : Party) (n : Nat) (v : Option (Bool × Nat)) : State :=
  let c := s.conn p
  let rest := c.sessions.filter (fun e => e.1 != n)
  s.setConn { c with sessions := match v with | some x => (n, x.1, x.2) :: rest | none => rest }

/-- FINISH (R539): the requester's proof completes the handshake, or ends it. -/
def execFinish (party : Party) (session : Nat) (ok : Bool) (s : State) : Res :=
  s.spdmReq (.finish party session ok) party (fun s => s.inSession party session false (fun s g =>
    if ok then (s.putSession party session (some (true, g))).spdmSend party 0x65 [session]
    else (s.putSession party session none).spdmError party 6))

/-- HEARTBEAT (R539). -/
def execHeartbeat (party : Party) (session : Nat) (s : State) : Res :=
  s.spdmReq (.heartbeat party session) party (fun s => s.inSession party session true (fun s _ => s.spdmSend party 0x68 [session]))

/-- KEY_UPDATE (R539): operations 1 and 2 make new keys, 3 verifies them. -/
def execKeyUpdate (party : Party) (session op : Nat) (s : State) : Res :=
  s.spdmReq (.keyUpdate party session op) party (fun s => s.inSession party session true (fun s g =>
    if op = 1 || op = 2 then (s.putSession party session (some (true, g + 1))).spdmSend party 0x69 [session, op]
    else if op = 3 then s.spdmSend party 0x69 [session, op]
    else s.spdmError party 1))

/-- END_SESSION (R539). -/
def execEndSession (party : Party) (session : Nat) (s : State) : Res :=
  s.spdmReq (.endSession party session) party (fun s => s.inSession party session true (fun s _ => (s.putSession party session none).spdmSend party 0x6C [session]))

end Sys2Proof.Machine
end

