-- ==== Sys2Proof/Machine/Strokes.lean ====
section
/-! DEFINITION. The Stroke Scheduler's rows (chapter 3): promotion, overrun, the 1 s window and the host
envelope cap. -/

namespace Sys2Proof.Machine

/-- STROKE_AGE_PROMOTE (R79): a class 4 or 5 stroke that has waited STEP µs, and again each further STEP, is promoted by
one class, never above CEIL. Log entry 71 (DEDUCED). -/
def execStrokeAgePromote (req : Nat) (s : State) : Res :=
  let ceil := s.fld F.STK_AGE_CEIL
  let step := s.fld F.STK_AGE_STEP * usT
  let up (k : Stroke) : Stroke :=
    if k.req == req && k.phase == .waiting && 4 ≤ k.cls0 && ceil < k.cls && k.since + step ≤ s.now then
      { k with cls := k.cls - 1, since := k.since + step }
    else k
  .next { s with stk := { s.stk with strokes := s.stk.strokes.map up } }

/-- The busy time of a stroke so far, in ns (R103): of its run, or of a completion that nobody has consumed. -/
def State.busyOf (s : State) (k : Stroke) : Nat :=
  match s.nib.runs.find? (fun r => r.req == k.req), s.nib.comps.find? (fun c => c.req == k.req) with
  | some r, _ => r.busyAt (s.nowAt (islNib r.nib)) / 256
  | none, some c => c.busy
  | none, none => 0

/-- STROKE_OVERRUN (R86): the stroke's busy time exceeds its profile: its last segment stays charged until it completes,
and the overrun counts toward slow marking. A suspend that is
not in effect by then also sets SUSP_LATE (R383). Before that time nothing happens. -/
def execStrokeOverrun (req : Nat) (s : State) : Res :=
  match s.stk.strokes.find? (fun k => k.req == req && k.phase == .launched && !k.overran && segsMax k.segs < s.busyOf k) with
  | none => .next s
  | some k =>
    let st := s.stat k.lun
    let s0 := if k.op = .suspend then s.post (F.NIB_EVT_STATUS_SUSP_LATE (chanOf k.lun)) k.lun else s
    let s1 := (s0.setStat { st with overran := st.overran + 1 })
    .next (({ s1 with stk := { s1.stk with
      nOverrun := s1.stk.nOverrun + 1
      strokes := updWhere (fun o => o.req == req) (fun o => { o with overran := true }) s1.stk.strokes } }).post
        F.STK_EVT_STATUS_OVERRUN k.lun)

/-! ## The 1 s window -/

/-- Twice the median of a list, 0 for none: the sum of the two middle values for an even count. -/
def median2 (l : List Nat) : Nat :=
  let m := l.mergeSort (· ≤ ·)
  let n := m.length
  if n = 0 then 0 else if n % 2 = 1 then 2 * m.getD (n / 2) 0 else m.getD (n / 2 - 1) 0 + m.getD (n / 2) 0

/-- The value at a percentile in ten-thousandths of a list of latencies. -/
def percentile (l : List Nat) (p : Nat) : Nat :=
  let m := l.mergeSort (· ≤ ·)
  if m.isEmpty then 0 else m.getD (min (m.length - 1) (m.length * p / 10000)) 0

/-- The mean of operation class `c` in the window, where at least 64 strokes formed it (R103). -/
def LunStat.mean (t : LunStat) (c : Nat) : Option Nat :=
  if 64 ≤ t.cnt.getD c 0 then some (t.sum.getD c 0 / t.cnt.getD c 1) else none

/-- The larger of two fractions. -/
def maxQuot (a b : Nat × Nat) : Nat × Nat := if a.1 * b.2 < b.1 * a.2 then b else a

/-- The ratio of a LUN as a fraction (R103): the largest of its five quotients against the median of the in-service LUNs of its
die type, each formed only where at least 16 peers qualify. -/
def State.ratioOf (s : State) (t : LunStat) : Option (Nat × Nat) :=
  let peers := s.stk.stats.filter (fun p => s.lunServes p.lun && (s.lun p.lun).dieType == (s.lun t.lun).dieType)
  let q (c : Nat) : Option (Nat × Nat) :=
    match t.mean c with
    | none => none
    | some m =>
      let ms := peers.filterMap (fun p => p.mean c)
      if 17 ≤ ms.length && median2 ms != 0 then some (2 * m, median2 ms) else none
  (List.range 5).foldl (fun (r : Option (Nat × Nat)) c => match r, q c with
    | some a, some b => some (maxQuot a b) | none, b => b | a, none => a) none

/-- Marks a LUN from its ratio (R86, R103, R104). A window in which a stroke overran counts as one above the slow ratio: the spec says that
overruns count toward slow marking and not how. Log entry 83 (DESIGN CHOICE). -/
def State.markLun (s : State) (t : LunStat) (ratio : Option (Nat × Nat)) : State :=
  let n := s.fld F.STK_SLOW_EVALS
  let reset : LunStat := { t with
    means := (List.range 5).map (fun c => t.sum.getD c 0 / max 1 (t.cnt.getD c 0))
    strokes := t.done, done := 0, overran := 0, cnt := [0, 0, 0, 0, 0], sum := [0, 0, 0, 0, 0]
    ratio := (ratio.map (fun q => q.1 * 16 / q.2)).getD 0, quot := ratio.getD t.quot }
  match ratio with
  | none => s.setStat { reset with slowRun := 0, clearRun := 0, failRun := 0 }
  | some r =>
    let above (x16 : Nat) : Bool := x16 * r.2 < r.1 * 16
    let slowRun := if above (s.fld F.STK_SLOW_SLOW_X16) || t.overran != 0 then t.slowRun + 1 else 0
    let clearRun := if t.slow && t.overran = 0 && r.1 * 16 < s.fld F.STK_SLOW_CLEAR_X16 * r.2 then t.clearRun + 1 else 0
    let failRun := if above (s.fld F.STK_SLOW_FAIL_X16) then t.failRun + 1 else 0
    let slow := if n ≤ slowRun then true else if 10 ≤ clearRun then false else t.slow
    let failed := t.failed || n ≤ failRun
    let s1 := s.setStat { reset with slowRun, clearRun, failRun, slow, failed }
    let s2 := if slow && !t.slow then s1.post F.STK_EVT_STATUS_SLOW_MARK t.lun else s1
    if failed && !t.failed then (s2.retireLun t.lun).post F.STK_EVT_STATUS_FAIL_MARK t.lun else s2

/-- SLOW_WINDOW_END (R103, R104, R190): the means and ratios of the window are formed and the marks follow; a LUN out of service has none. -/
def execSlowWindowEnd (s : State) : Res :=
  let ts := s.stk.stats.filter (fun t => s.lunServes t.lun)
  let rs := ts.map (fun t => (t, s.ratioOf t))
  let gone (t : LunStat) : LunStat :=
    if s.lunServes t.lun then t
    else { t with cnt := [0, 0, 0, 0, 0], sum := [0, 0, 0, 0, 0], means := [0, 0, 0, 0, 0], ratio := 0, done := 0, strokes := 0, overran := 0 }
  let s0 : State := { s with stk := { s.stk with stats := s.stk.stats.map gone } }
  let s1 := rs.foldl (fun s e => s.markLun e.1 e.2) s0
  .next { s1 with stk := { s1.stk with
    windowEnd := s.stamp
    pct := [percentile s.stk.rdLat 5000, percentile s.stk.rdLat 9999, percentile s.stk.wrLat 5000, percentile s.stk.wrLat 9999]
    rdLat := [], wrLat := [] } }

end Sys2Proof.Machine
end

