-- ==== Sys2Proof/Machine/Tick.lean ====
section
/-! DEFINITION. The tick of the Ruling (R35 to R41), with which the work that waits for no event goes on. -/

namespace Sys2Proof.Machine

/-- What goes on from tick to tick: drills that wait (R491), a Scriptorium Load (R424), and a quiesce (R593, R627). -/
def State.background (s : State) : State := s.drillPump.loadStep.quiescePump

/-- Every island's local clock ticks on (R19, R45, R46): at 1 GHz or faster it ticks at least twice in a tick of 2 ns. How often is a free
value. Log entry 81 (DESIGN CHOICE). -/
def State.islandTicks (s : State) : State :=
  let pitch := s.pitchNs * 256
  { s with rul := { s.rul with islands := s.rul.islands.map (fun e => (e.1, e.2.tick pitch s.now (2 + Config.localTicks e.1 s.now))) } }

/-- RULING_TICK (R36 to R41, R70): the checks, then both counters advance by the same increment, and every island's copy by its
own clock's ticks. -/
def execRulingTick (upset : Upset) (s : State) : Res :=
  if s.rul.running then
    let s1 := ({ s with rul := s.rul.upset upset }).checkCounters
    if s1.rul.running then
      let (inc, acc) := s1.rul.increment
      let s2 : State := { s1 with rul := { s1.rul with
        a := s1.rul.a.advance inc
        b := s1.rul.b.advance inc
        acc := acc } }
      .next ((s2.syncOutAt s1.now).islandTicks.background)
    else .next s1
  else .next s

end Sys2Proof.Machine
end

