-- ==== Sys2Proof/Machine/Wake.lean ====
section
/-! DEFINITION. The DOZE loop, and the service after the wake of the requests that the management port received in DOZE (R601, R628). -/

namespace Sys2Proof.Machine

/-- The effect of a request that waited: the meaning of its own row, in the mode after the wake (R628). -/
def heldRun (i : Request) (s : State) : Res :=
  match i with
  | .setEndpointId op eid => execSetEndpointId op eid s
  | .getEndpointId => execGetEndpointId s
  | .getEndpointUuid => execGetEndpointUuid s
  | .getMctpVersionSupport kind => execGetMctpVersionSupport kind s
  | .getMessageTypeSupport => execGetMessageTypeSupport s
  | .nvmSubsystemHealthStatusPoll eid => execNvmSubsystemHealthStatusPoll eid s
  | .controllerHealthStatusPoll eid ctrl => execControllerHealthStatusPoll eid ctrl s
  | .readNvmeMiDataStructure eid dtyp id => execReadNvmeMiDataStructure eid dtyp id s
  | .configurationGet eid id => execConfigurationGet eid id s
  | .configurationSet eid id value => execConfigurationSet eid id value s
  | .vpdRead eid off len => execVpdRead eid off len s
  | .tunnelledAdminCommand eid req resp page => execTunnelledAdminCommand eid req resp page s
  | .powerOn eid => execPowerOn eid s
  | .powerOff eid => execPowerOff eid s
  | .registerWindowRead eid off dwords => execRegisterWindowRead eid off dwords s
  | .miAuthorityAcquire eid => execMiAuthorityAcquire eid s
  | .miAuthorityRelease eid => execMiAuthorityRelease eid s
  | .miReset eid env => execMiReset eid env s
  | .deviceReset eid env => execDeviceReset eid env s
  | .registerWindowWrite eid off values env => execRegisterWindowWrite eid off values env s
  | .getVersion party => execGetVersion party s
  | .getCapabilities party => execGetCapabilities party s
  | .negotiateAlgorithms party offered => execNegotiateAlgorithms party offered s
  | .getDigests party => execGetDigests party s
  | .getCertificate party slot off len => execGetCertificate party slot off len s
  | .challenge party slot => execChallenge party slot s
  | .getMeasurements party index => execGetMeasurements party index s
  | .keyExchange party slot => execKeyExchange party slot s
  | .finish party session ok => execFinish party session ok s
  | .heartbeat party session => execHeartbeat party session s
  | .keyUpdate party session op => execKeyUpdate party session op s
  | .endSession party session => execEndSession party session s

/-- Serves what waited for the wake, in the order of arrival (R628). Log entry 37 (DEDUCED). -/
def State.serveHeld (s : State) : State :=
  s.mgmt.held.foldl (fun (s : State) e => match heldRun e.2 s with | .next t => t | _ => s) { s with mgmt := { s.mgmt with held := [] } }

/-- The samples of one turn of the loop (R601). -/
def State.noteSample (s : State) (temps : List Int) (vnow : Nat) : State :=
  ({ s with thm := { s.thm with sensors := s.thm.sensors.mapIdx (notedSensor temps) } }).setFld F.PWR_ES_NOW_VNOW (min 4095 vnow)

/-- The SOURCE of a wake by a sample outside its window (R594, R601): the temperature is tested before the voltage. -/
def State.outOfWindow (s : State) : Option Nat :=
  let t := s.thm.hotJ
  let lo := s.fld F.PWR_WIN_V_V_LOW
  if signed8 (s.fld F.PWR_WIN_T_T_HIGH) ≤ t || t ≤ signed8 (s.fld F.PWR_WIN_T_T_LOW) then some 9
  else if lo != 0 && s.fld F.PWR_ES_NOW_VNOW < lo then some 0xA
  else none

/-- DOZE_LOOP_WAKE (R601): the always-on island ends its sleep, after the period or at an immediate event. It samples the junction
sensors and VNOW; an event, a reading outside its window or, after them, sideband activity wakes the WY48, otherwise it
sleeps again. What waited at the management port is served after the wake (R628). `clk` and `ticks`
are what counted the stop, and what its counter reads. -/
def execDozeLoopWake (clk : AonClock) (ticks : Nat) (temps : List Int) (vnow : Nat) (s : State) : Res :=
  if s.mode != .doze || s.pwr.asserted then .next s
  else
    let s0 : State := { s with pwr := { s.pwr with periods := s.pwr.periods + 1 } }
    match s.pwr.wake, (s0.noteSample temps vnow).outOfWindow with
    | some 8, some src => .next ((s0.noteSample temps vnow).dozeWake src clk ticks).serveHeld
    | some src, _ => .next (s0.dozeWake src clk ticks).serveHeld
    | none, some src => .next ((s0.noteSample temps vnow).dozeWake src clk ticks).serveHeld
    | none, none => .next (s0.noteSample temps vnow)

end Sys2Proof.Machine
end

