-- ==== Sys2Proof/Machine/Dispatch.lean ====
section
/-! DEFINITION. The dispatch: one arm per command, each one direct call of that command's meaning. -/

namespace Sys2Proof.Machine

def exec (i : Instr) (s : State) : Host.Outcome State Fault Refusal :=
  match i with
  | .pfailNFall => Sys2Proof.Machine.execPfailNFall s
  | .pfailDeglitchExpire => Sys2Proof.Machine.execPfailDeglitchExpire s
  | .pfailNRise => Sys2Proof.Machine.execPfailNRise s
  | .pgoodTimerExpire => Sys2Proof.Machine.execPgoodTimerExpire s
  | .holdupEntry clk ticks => Sys2Proof.Machine.execHoldupEntry clk ticks s
  | .holdupDumpDeadline => Sys2Proof.Machine.execHoldupDumpDeadline s
  | .holdupDumpComplete => Sys2Proof.Machine.execHoldupDumpComplete s
  | .powerUpStepDone k env => Sys2Proof.Machine.execPowerUpStepDone k env s
  | .powerDownStepDone k => Sys2Proof.Machine.execPowerDownStepDone k s
  | .minOffTimeExpire => Sys2Proof.Machine.execMinOffTimeExpire s
  | .railGoodTimeout => Sys2Proof.Machine.execRailGoodTimeout s
  | .railOutOfLimits => Sys2Proof.Machine.execRailOutOfLimits s
  | .vaux33Loss => Sys2Proof.Machine.execVaux33Loss s
  | .thermalSensorSample temps => Sys2Proof.Machine.execThermalSensorSample temps s
  | .throttleLevelFall => Sys2Proof.Machine.execThrottleLevelFall s
  | .rateOfRiseWindow => Sys2Proof.Machine.execRateOfRiseWindow s
  | .thermalHoldRelease => Sys2Proof.Machine.execThermalHoldRelease s
  | .avsAckTimeout => Sys2Proof.Machine.execAvsAckTimeout s
  | .avsReadbackPoll vread => Sys2Proof.Machine.execAvsReadbackPoll vread s
  | .dozeIslandDelayExpire us => Sys2Proof.Machine.execDozeIslandDelayExpire us s
  | .dozeAbortPoint => Sys2Proof.Machine.execDozeAbortPoint s
  | .dozeEntryRetry => Sys2Proof.Machine.execDozeEntryRetry s
  | .dozeLoopWake clk ticks temps vnow => Sys2Proof.Machine.execDozeLoopWake clk ticks temps vnow s
  | .rulingTick upset => Sys2Proof.Machine.execRulingTick upset s
  | .linePulse => Sys2Proof.Machine.execLinePulse s
  | .lineAnnouncement island count => Sys2Proof.Machine.execLineAnnouncement island count s
  | .syncInEdge => Sys2Proof.Machine.execSyncInEdge s
  | .syncInLossTimeout => Sys2Proof.Machine.execSyncInLossTimeout s
  | .rulingStepApply => Sys2Proof.Machine.execRulingStepApply s
  | .ptmDialogStart => Sys2Proof.Machine.execPtmDialogStart s
  | .ptmResponse port master => Sys2Proof.Machine.execPtmResponse port master s
  | .ptmDialogTimeout port => Sys2Proof.Machine.execPtmDialogTimeout port s
  | .todArm => Sys2Proof.Machine.execTodArm s
  | .rulNowLoRead => Sys2Proof.Machine.execRulNowLoRead s
  | .loHiPairRead off => Sys2Proof.Machine.execLoHiPairRead off s
  | .rulingStepAuthorize ref cdw10 => Sys2Proof.Machine.execRulingStepAuthorize ref cdw10 s
  | .strokePlace => Sys2Proof.Machine.execStrokePlace s
  | .strokeAgePromote req => Sys2Proof.Machine.execStrokeAgePromote req s
  | .descriptorAccept nib seq => Sys2Proof.Machine.execDescriptorAccept nib seq s
  | .strokeDueLine nib seq ofs busHeld => Sys2Proof.Machine.execStrokeDueLine nib seq ofs busHeld s
  | .quillContextStart nib seq par => Sys2Proof.Machine.execQuillContextStart nib seq par s
  | .strokeComplete nib => Sys2Proof.Machine.execStrokeComplete nib s
  | .strokeOverrun req => Sys2Proof.Machine.execStrokeOverrun req s
  | .slowWindowEnd => Sys2Proof.Machine.execSlowWindowEnd s
  | .statusPoll lun sr => Sys2Proof.Machine.execStatusPoll lun sr s
  | .rbNRise lun sr => Sys2Proof.Machine.execRbNRise lun sr s
  | .strokeTimeout nib seq => Sys2Proof.Machine.execStrokeTimeout nib seq s
  | .resetWaitTimeout lun => Sys2Proof.Machine.execResetWaitTimeout lun s
  | .nibTempRead nib => Sys2Proof.Machine.execNibTempRead nib s
  | .tempStaleTimeout lun => Sys2Proof.Machine.execTempStaleTimeout lun s
  | .nibRetrain nib => Sys2Proof.Machine.execNibRetrain nib s
  | .nibCtrlRetrain nib => Sys2Proof.Machine.execNibCtrlRetrain nib s
  | .decoderKat nib ok => Sys2Proof.Machine.execDecoderKat nib ok s
  | .busTransferDone nib seq data cell => Sys2Proof.Machine.execBusTransferDone nib seq data cell s
  | .codewordDecodeDone nib seq ok bits unsat mis pband => Sys2Proof.Machine.execCodewordDecodeDone nib seq ok bits unsat mis pband s
  | .next nib ctx q => Sys2Proof.Machine.execNext nib ctx q s
  | .jump nib ctx q => Sys2Proof.Machine.execJump nib ctx q s
  | .br nib ctx q => Sys2Proof.Machine.execBr nib ctx q s
  | .brn nib ctx q => Sys2Proof.Machine.execBrn nib ctx q s
  | .call nib ctx q => Sys2Proof.Machine.execCall nib ctx q s
  | .ret nib ctx q => Sys2Proof.Machine.execRet nib ctx q s
  | .loop nib ctx q => Sys2Proof.Machine.execLoop nib ctx q s
  | .ldlc nib ctx q => Sys2Proof.Machine.execLdlc nib ctx q s
  | .wait nib ctx q => Sys2Proof.Machine.execWait nib ctx q s
  | .waitRelease nib ctx => Sys2Proof.Machine.execWaitRelease nib ctx s
  | .wline nib ctx q => Sys2Proof.Machine.execWline nib ctx q s
  | .wlineRelease nib ctx => Sys2Proof.Machine.execWlineRelease nib ctx s
  | .tmExpire nib ctx => Sys2Proof.Machine.execTmExpire nib ctx s
  | .scribe nib ctx q => Sys2Proof.Machine.execScribe nib ctx q s
  | .done nib ctx => Sys2Proof.Machine.execDone nib ctx s
  | .quillScrubRead nib addr bad => Sys2Proof.Machine.execQuillScrubRead nib addr bad s
  | .nibRestartComplete nib badTargets => Sys2Proof.Machine.execNibRestartComplete nib badTargets s
  | .linkTrainingComplete port rate width faulty flit => Sys2Proof.Machine.execLinkTrainingComplete port rate width faulty flit s
  | .linkRetrainTimer port => Sys2Proof.Machine.execLinkRetrainTimer port s
  | .retrainLink port => Sys2Proof.Machine.execRetrainLink port s
  | .perstAssert port => Sys2Proof.Machine.execPerstAssert port s
  | .perstDeassert port strap => Sys2Proof.Machine.execPerstDeassert port strap s
  | .hotReset port => Sys2Proof.Machine.execHotReset port s
  | .linkDown port => Sys2Proof.Machine.execLinkDown port s
  | .functionLevelReset fn => Sys2Proof.Machine.execFunctionLevelReset fn s
  | .nvmSubsystemReset env => Sys2Proof.Machine.execNvmSubsystemReset env s
  | .configSpaceReady port cfg => Sys2Proof.Machine.execConfigSpaceReady port cfg s
  | .memoryReadCompletion what res => Sys2Proof.Machine.execMemoryReadCompletion what res s
  | .completionTimeout what => Sys2Proof.Machine.execCompletionTimeout what s
  | .invalidateRequest port itag fn lo n waits => Sys2Proof.Machine.execInvalidateRequest port itag fn lo n waits s
  | .invalidateCompletion port => Sys2Proof.Machine.execInvalidateCompletion port s
  | .translationCompletion port fn page xlat issued => Sys2Proof.Machine.execTranslationCompletion port fn page xlat issued s
  | .l0pRequest port width => Sys2Proof.Machine.execL0pRequest port width s
  | .d3hotEntry fn => Sys2Proof.Machine.execD3hotEntry fn s
  | .vectorUnmask fn vec => Sys2Proof.Machine.execVectorUnmask fn vec s
  | .doeDataObject pf kind len => Sys2Proof.Machine.execDoeDataObject pf kind len s
  | .doeAbort pf => Sys2Proof.Machine.execDoeAbort pf s
  | .doorbellWrite ctrl qid isCq value poison => Sys2Proof.Machine.execDoorbellWrite ctrl qid isCq value poison s
  | .shadowTailPoll ctrl qid value heads => Sys2Proof.Machine.execShadowTailPoll ctrl qid value heads s
  | .sqIdleTimeout ctrl qid => Sys2Proof.Machine.execSqIdleTimeout ctrl qid s
  | .sqFetchGrant => Sys2Proof.Machine.execSqFetchGrant s
  | .orderingPointStamp => Sys2Proof.Machine.execOrderingPointStamp s
  | .controllerEnable ctrl asqs acqs ams => Sys2Proof.Machine.execControllerEnable ctrl asqs acqs ams s
  | .controllerReset ctrl => Sys2Proof.Machine.execControllerReset ctrl s
  | .normalShutdown ctrl => Sys2Proof.Machine.execNormalShutdown ctrl s
  | .abruptShutdown ctrl => Sys2Proof.Machine.execAbruptShutdown ctrl s
  | .createIoSq ref qid qsize cqid prio pc => Sys2Proof.Machine.execCreateIoSq ref qid qsize cqid prio pc s
  | .createIoCq ref qid qsize vector ien pc => Sys2Proof.Machine.execCreateIoCq ref qid qsize vector ien pc s
  | .deleteIoSq ref qid => Sys2Proof.Machine.execDeleteIoSq ref qid s
  | .deleteIoCq ref qid => Sys2Proof.Machine.execDeleteIoCq ref qid s
  | .getLogPage ref lid off len rae => Sys2Proof.Machine.execGetLogPage ref lid off len rae s
  | .getLogPageHealth ref off len rae => Sys2Proof.Machine.execGetLogPageHealth ref off len rae s
  | .identify ref cns nsid cntid => Sys2Proof.Machine.execIdentify ref cns nsid cntid s
  | .abort ref sqid cid => Sys2Proof.Machine.execAbort ref sqid cid s
  | .setFeatures ref fid nsid cdw11 save data => Sys2Proof.Machine.execSetFeatures ref fid nsid cdw11 save data s
  | .getFeatures ref fid nsid sel cdw11 => Sys2Proof.Machine.execGetFeatures ref fid nsid sel cdw11 s
  | .setFeaturesPowerMgmt ref save cdw11 => Sys2Proof.Machine.execSetFeaturesPowerMgmt ref save cdw11 s
  | .setFeaturesNumQueues ref save cdw11 => Sys2Proof.Machine.execSetFeaturesNumQueues ref save cdw11 s
  | .setFeaturesEnvelopeCap ref save cdw11 => Sys2Proof.Machine.execSetFeaturesEnvelopeCap ref save cdw11 s
  | .setFeaturesRulingPriority ref save cdw11 => Sys2Proof.Machine.execSetFeaturesRulingPriority ref save cdw11 s
  | .setFeaturesThermalLimits ref save cdw11 => Sys2Proof.Machine.execSetFeaturesThermalLimits ref save cdw11 s
  | .setFeaturesOwnerUpdateLock ref cdw11 token => Sys2Proof.Machine.execSetFeaturesOwnerUpdateLock ref cdw11 token s
  | .setFeaturesCompletionPolicy ref nsid save cdw11 => Sys2Proof.Machine.execSetFeaturesCompletionPolicy ref nsid save cdw11 s
  | .setFeaturesDeadlineReads ref save cdw11 => Sys2Proof.Machine.execSetFeaturesDeadlineReads ref save cdw11 s
  | .setFeaturesPatrolPeriod ref save cdw11 => Sys2Proof.Machine.execSetFeaturesPatrolPeriod ref save cdw11 s
  | .setFeaturesInkTime ref save cdw11 => Sys2Proof.Machine.execSetFeaturesInkTime ref save cdw11 s
  | .setFeaturesFdp ref save enable => Sys2Proof.Machine.execSetFeaturesFdp ref save enable s
  | .asyncEventRequest ref => Sys2Proof.Machine.execAsyncEventRequest ref s
  | .namespaceManagement ref sel nsid blocks lbaf handles => Sys2Proof.Machine.execNamespaceManagement ref sel nsid blocks lbaf handles s
  | .namespaceAttachment ref sel nsid ctrls => Sys2Proof.Machine.execNamespaceAttachment ref sel nsid ctrls s
  | .firmwareImageDownload ref offset length chunks => Sys2Proof.Machine.execFirmwareImageDownload ref offset length chunks s
  | .firmwareCommitStore ref slot => Sys2Proof.Machine.execFirmwareCommitStore ref slot s
  | .firmwareCommitActivate ref slot => Sys2Proof.Machine.execFirmwareCommitActivate ref slot s
  | .firmwareCommitSlotActivate ref action slot => Sys2Proof.Machine.execFirmwareCommitSlotActivate ref action slot s
  | .keepAlive ref => Sys2Proof.Machine.execKeepAlive ref s
  | .directiveSend ref nsid dtype doper cdw12 => Sys2Proof.Machine.execDirectiveSend ref nsid dtype doper cdw12 s
  | .directiveReceive ref nsid dtype doper => Sys2Proof.Machine.execDirectiveReceive ref nsid dtype doper s
  | .doorbellBufferConfig ref prp1 prp2 => Sys2Proof.Machine.execDoorbellBufferConfig ref prp1 prp2 s
  | .formatNvm ref nsid lbaf ses => Sys2Proof.Machine.execFormatNvm ref nsid lbaf ses s
  | .sanitizeBlockErase ref ause => Sys2Proof.Machine.execSanitizeBlockErase ref ause s
  | .sanitizeCryptoErase ref ause => Sys2Proof.Machine.execSanitizeCryptoErase ref ause s
  | .sanitizeExitFailure ref sanact ause => Sys2Proof.Machine.execSanitizeExitFailure ref sanact ause s
  | .cutCreate ref nsid cdw10 cdw11 cdw12 => Sys2Proof.Machine.execCutCreate ref nsid cdw10 cdw11 cdw12 s
  | .cutRelease ref cdw10 => Sys2Proof.Machine.execCutRelease ref cdw10 s
  | .scriptoriumLoad ref cdw10 cdw11 cdw12 data digest => Sys2Proof.Machine.execScriptoriumLoad ref cdw10 cdw11 cdw12 data digest s
  | .roleDrill ref params reports => Sys2Proof.Machine.execRoleDrill ref params reports s
  | .chainSweepMeasure ref cdw10 => Sys2Proof.Machine.execChainSweepMeasure ref cdw10 s
  | .chainSweepRelay ref cdw11 => Sys2Proof.Machine.execChainSweepRelay ref cdw11 s
  | .lifecycleTransition ref dest len token => Sys2Proof.Machine.execLifecycleTransition ref dest len token s
  | .authorityAcquire ref => Sys2Proof.Machine.execAuthorityAcquire ref s
  | .authorityRelease ref => Sys2Proof.Machine.execAuthorityRelease ref s
  | .flush ref nsid => Sys2Proof.Machine.execFlush ref nsid s
  | .write ref nsid slba nlb fua dtype dspec gate => Sys2Proof.Machine.execWrite ref nsid slba nlb fua dtype dspec gate s
  | .read ref nsid slba nlb deadline => Sys2Proof.Machine.execRead ref nsid slba nlb deadline s
  | .writeUncorrectable ref nsid slba nlb => Sys2Proof.Machine.execWriteUncorrectable ref nsid slba nlb s
  | .compare ref nsid slba nlb same => Sys2Proof.Machine.execCompare ref nsid slba nlb same s
  | .writeZeroes ref nsid slba nlb => Sys2Proof.Machine.execWriteZeroes ref nsid slba nlb s
  | .datasetManagement ref nsid cdw11 ranges => Sys2Proof.Machine.execDatasetManagement ref nsid cdw11 ranges s
  | .secureDiscard ref nsid cdw11 ranges => Sys2Proof.Machine.execSecureDiscard ref nsid cdw11 ranges s
  | .reservationRegister ref nsid rrega iekey cptpl crkey nrkey => Sys2Proof.Machine.execReservationRegister ref nsid rrega iekey cptpl crkey nrkey s
  | .reservationReport ref nsid eds => Sys2Proof.Machine.execReservationReport ref nsid eds s
  | .reservationAcquire ref nsid racqa iekey rtype crkey prkey => Sys2Proof.Machine.execReservationAcquire ref nsid racqa iekey rtype crkey prkey s
  | .reservationRelease ref nsid rrela iekey rtype crkey => Sys2Proof.Machine.execReservationRelease ref nsid rrela iekey rtype crkey s
  | .xtsUnitDone ref lba pass => Sys2Proof.Machine.execXtsUnitDone ref lba pass s
  | .laneKatDone lane pass => Sys2Proof.Machine.execLaneKatDone lane pass s
  | .commitGroupTimeout group => Sys2Proof.Machine.execCommitGroupTimeout group s
  | .inkwellGrant => Sys2Proof.Machine.execInkwellGrant s
  | .inkwellWaitPad => Sys2Proof.Machine.execInkwellWaitPad s
  | .inkwellAuditPass mismatch => Sys2Proof.Machine.execInkwellAuditPass mismatch s
  | .ownerRegister min drop => Sys2Proof.Machine.execOwnerRegister min drop s
  | .keySlotLoad slot key equalHalves => Sys2Proof.Machine.execKeySlotLoad slot key equalHalves s
  | .keySlotClear slot => Sys2Proof.Machine.execKeySlotClear slot s
  | .mapPageScrub found => Sys2Proof.Machine.execMapPageScrub found s
  | .idlePadTimeout wp => Sys2Proof.Machine.execIdlePadTimeout wp s
  | .bandOpen wp => Sys2Proof.Machine.execBandOpen wp s
  | .reclaimVictimPick => Sys2Proof.Machine.execReclaimVictimPick s
  | .bandEraseStart band => Sys2Proof.Machine.execBandEraseStart band s
  | .wearSpreadCheck => Sys2Proof.Machine.execWearSpreadCheck s
  | .checkpointStart => Sys2Proof.Machine.execCheckpointStart s
  | .checkpointSlow => Sys2Proof.Machine.execCheckpointSlow s
  | .cutHold slot => Sys2Proof.Machine.execCutHold slot s
  | .cutEvict => Sys2Proof.Machine.execCutEvict s
  | .cstsRdySet env => Sys2Proof.Machine.execCstsRdySet env s
  | .unitRebuildDone id ok => Sys2Proof.Machine.execUnitRebuildDone id ok s
  | .patrolWindow => Sys2Proof.Machine.execPatrolWindow s
  | .vstoreSample code => Sys2Proof.Machine.execVstoreSample code s
  | .budgetRecompute => Sys2Proof.Machine.execBudgetRecompute s
  | .holdupSelfTest => Sys2Proof.Machine.execHoldupSelfTest s
  | .blotterUnitAge group => Sys2Proof.Machine.execBlotterUnitAge group s
  | .tineCompareMismatch tine => Sys2Proof.Machine.execTineCompareMismatch tine s
  | .tineStateError tine => Sys2Proof.Machine.execTineStateError tine s
  | .tineOutputOffer tine stream osn crc => Sys2Proof.Machine.execTineOutputOffer tine stream osn crc s
  | .mergeGapTimeout stream => Sys2Proof.Machine.execMergeGapTimeout stream s
  | .overlapClose => Sys2Proof.Machine.execOverlapClose s
  | .handoverComplete => Sys2Proof.Machine.execHandoverComplete s
  | .tineSelfTestDone tine pass us => Sys2Proof.Machine.execTineSelfTestDone tine pass us s
  | .resyncStart => Sys2Proof.Machine.execResyncStart s
  | .resyncComplete => Sys2Proof.Machine.execResyncComplete s
  | .drillDue reports => Sys2Proof.Machine.execDrillDue reports s
  | .aenWaitTimeout ctrl group => Sys2Proof.Machine.execAenWaitTimeout ctrl group s
  | .alertResponseAddress => Sys2Proof.Machine.execAlertResponseAddress s
  | .ibiAccept => Sys2Proof.Machine.execIbiAccept s
  | .folioRequestComplete status => Sys2Proof.Machine.execFolioRequestComplete status s
  | .folioScrub words => Sys2Proof.Machine.execFolioScrub words s
  | .gceRequest owner op handle match1 match2 last => Sys2Proof.Machine.execGceRequest owner op handle match1 match2 last s
  | .gceLockTimeout => Sys2Proof.Machine.execGceLockTimeout s
  | .entropyHealthFail => Sys2Proof.Machine.execEntropyHealthFail s
  | .idle port => Sys2Proof.Machine.execIdle port s
  | .enum port id => Sys2Proof.Machine.execEnum port id s
  | .sync port t1 master hops src cls unc => Sys2Proof.Machine.execSync port t1 master hops src cls unc s
  | .dreq port t3 => Sys2Proof.Machine.execDreq port t3 s
  | .dresp port t4 => Sys2Proof.Machine.execDresp port t4 s
  | .claim port id => Sys2Proof.Machine.execClaim port id s
  | .contended port id => Sys2Proof.Machine.execContended port id s
  | .nomaster port => Sys2Proof.Machine.execNomaster port s
  | .cut port time node number all => Sys2Proof.Machine.execCut port time node number all s
  | .sweepReq port issuer => Sys2Proof.Machine.execSweepReq port issuer s
  | .sweepEnt port part e => Sys2Proof.Machine.execSweepEnt port part e s
  | .sweepEnd port openAfter => Sys2Proof.Machine.execSweepEnd port openAfter s
  | .relayStart port action chunks => Sys2Proof.Machine.execRelayStart port action chunks s
  | .chunk port k c => Sys2Proof.Machine.execChunk port k c s
  | .ack port k pass => Sys2Proof.Machine.execAck port k pass s
  | .relayAbort port => Sys2Proof.Machine.execRelayAbort port s
  | .bxlBadFrame up => Sys2Proof.Machine.execBxlBadFrame up s
  | .bxlPortLoss up => Sys2Proof.Machine.execBxlPortLoss up s
  | .bxlTimeExchangeStart => Sys2Proof.Machine.execBxlTimeExchangeStart s
  | .bxlDrespTimeout => Sys2Proof.Machine.execBxlDrespTimeout s
  | .claimRepeat => Sys2Proof.Machine.execClaimRepeat s
  | .sweepTimeout => Sys2Proof.Machine.execSweepTimeout s
  | .sweepRetry => Sys2Proof.Machine.execSweepRetry s
  | .heldEntryExpire => Sys2Proof.Machine.execHeldEntryExpire s
  | .chunkAckTimeout k => Sys2Proof.Machine.execChunkAckTimeout k s
  | .trialWatchdogExpire env => Sys2Proof.Machine.execTrialWatchdogExpire env s
  | .trialConfirm suite => Sys2Proof.Machine.execTrialConfirm suite s
  | .rotationStepDone ok => Sys2Proof.Machine.execRotationStepDone ok s
  | .powerOn eid => Sys2Proof.Machine.execPowerOn eid s
  | .powerOff eid => Sys2Proof.Machine.execPowerOff eid s
  | .deviceReset eid env => Sys2Proof.Machine.execDeviceReset eid env s
  | .registerWindowRead eid off dwords => Sys2Proof.Machine.execRegisterWindowRead eid off dwords s
  | .registerWindowWrite eid off values env => Sys2Proof.Machine.execRegisterWindowWrite eid off values env s
  | .miAuthorityAcquire eid => Sys2Proof.Machine.execMiAuthorityAcquire eid s
  | .miAuthorityRelease eid => Sys2Proof.Machine.execMiAuthorityRelease eid s
  | .authorityLapse => Sys2Proof.Machine.execAuthorityLapse s
  | .readNvmeMiDataStructure eid dtyp id => Sys2Proof.Machine.execReadNvmeMiDataStructure eid dtyp id s
  | .nvmSubsystemHealthStatusPoll eid => Sys2Proof.Machine.execNvmSubsystemHealthStatusPoll eid s
  | .controllerHealthStatusPoll eid ctrl => Sys2Proof.Machine.execControllerHealthStatusPoll eid ctrl s
  | .configurationGet eid id => Sys2Proof.Machine.execConfigurationGet eid id s
  | .configurationSet eid id value => Sys2Proof.Machine.execConfigurationSet eid id value s
  | .vpdRead eid off len => Sys2Proof.Machine.execVpdRead eid off len s
  | .miReset eid env => Sys2Proof.Machine.execMiReset eid env s
  | .tunnelledAdminCommand eid req resp page => Sys2Proof.Machine.execTunnelledAdminCommand eid req resp page s
  | .setEndpointId op eid => Sys2Proof.Machine.execSetEndpointId op eid s
  | .getEndpointId => Sys2Proof.Machine.execGetEndpointId s
  | .getEndpointUuid => Sys2Proof.Machine.execGetEndpointUuid s
  | .getMctpVersionSupport kind => Sys2Proof.Machine.execGetMctpVersionSupport kind s
  | .getMessageTypeSupport => Sys2Proof.Machine.execGetMessageTypeSupport s
  | .entdaa addr => Sys2Proof.Machine.execEntdaa addr s
  | .setdasa addr dyn => Sys2Proof.Machine.execSetdasa addr dyn s
  | .rstdaa => Sys2Proof.Machine.execRstdaa s
  | .getVersion party => Sys2Proof.Machine.execGetVersion party s
  | .getCapabilities party => Sys2Proof.Machine.execGetCapabilities party s
  | .negotiateAlgorithms party offered => Sys2Proof.Machine.execNegotiateAlgorithms party offered s
  | .getDigests party => Sys2Proof.Machine.execGetDigests party s
  | .getCertificate party slot off len => Sys2Proof.Machine.execGetCertificate party slot off len s
  | .challenge party slot => Sys2Proof.Machine.execChallenge party slot s
  | .getMeasurements party index => Sys2Proof.Machine.execGetMeasurements party index s
  | .keyExchange party slot => Sys2Proof.Machine.execKeyExchange party slot s
  | .finish party session ok => Sys2Proof.Machine.execFinish party session ok s
  | .heartbeat party session => Sys2Proof.Machine.execHeartbeat party session s
  | .keyUpdate party session op => Sys2Proof.Machine.execKeyUpdate party session op s
  | .endSession party session => Sys2Proof.Machine.execEndSession party session s
  | .devSealWrite => Sys2Proof.Machine.execDevSealWrite s
  | .devResetWrite pf env => Sys2Proof.Machine.execDevResetWrite pf env s
  | .registerWrite pf off len value => Sys2Proof.Machine.execRegisterWrite pf off len value s
  | .vaux33Good straps => Sys2Proof.Machine.execVaux33Good straps s
  | .avsAcknowledge vread => Sys2Proof.Machine.execAvsAcknowledge vread s
  | .fuseProgramComplete weak => Sys2Proof.Machine.execFuseProgramComplete weak s
  | .entropyHealthPass => Sys2Proof.Machine.execEntropyHealthPass s
  | .ptmDisabledByHost port enable => Sys2Proof.Machine.execPtmDisabledByHost port enable s
  | .d3hotExit fn => Sys2Proof.Machine.execD3hotExit fn s

end Sys2Proof.Machine
end

