-- ==== Sys2Proof/Safety.lean ====
section
/-! DEFINITION. What a good state and a good step are: the stores keep their one canonical form and the block its fixed
units, and a step goes on. -/

namespace Sys2Proof.Machine

/-- The register file and the SCR window are in their one canonical form: keys strictly rising, none listed at the value that
an unlisted key reads as. Equal contents are then equal data. -/
def State.canon (s : State) : Bool := swf regReset s.regs && Memory.wf s.nib.window

/-- What holds of the block whatever commands have come: canonical stores, a health-log ring of at most 1,024 entries with
its 64 class counts (R516), two ports (R111), 16 XTS lanes (R229) and 32 junction sensors (R605). -/
def State.inv (s : State) : Bool :=
  s.canon && s.evu.log.length ≤ 1024 && s.evu.classCnt.length == 64 && s.hp.ports.length == 2 &&
    s.ink.lanes.length == 16 && s.thm.sensors.length == 32

/-- A run does not stop here: the step answers a next state. -/
def State.goesOn (s : State) : Prop := ∃ t : State, step s = .next t

end Sys2Proof.Machine
end

