-- ==== Sys2Proof/Certificates/Slice0/Obligations.lean ====
section
/-! DEFINITION. The statements for the provers: what each command does, family by family, and what holds of every step. -/

section

open Sys2Proof Sys2Proof.Machine

/-- A fall of PFAIL_N starts the deglitch; a pulse shorter than it is reported; a level taken as low asks for the power-down in OFF, only records its cause late in a power-down, and otherwise makes HOLD-UP due; a level that rises clears the thermal latch and, when it stays high, raises a power-up request; a rail out of its limits counts as a fall of PFAIL_N; a thermal hold that ends lets the waiting request go on; a loss of VAUX_33 resets the island and the core, and its return samples the straps. Nothing else changes. Where the spec leaves a point open, it rests on the model's choices of log entries 5, 15, 21, 33, 72, 80 and 87. -/
def Obligations.PfailAndRequests : Prop :=
  (∀ (s : State),
    s.pwr.vaux = true →
    s.pwr.pfailHigh = true →
    exec .pfailNFall s =
      .next { s with pwr := { s.pwr with pfailHigh := false, deglitch := true }, blt := { s.blt with holdAt := s.now } }) ∧
  (∀ (s : State),
    s.pwr.deglitch = true →
    s.pwr.pfailHigh = false →
    (s.rul.running && s.now < s.blt.holdAt + (s.fld F.PWR_HU_CFG_DEGLITCH + 1) * 250 * nsT) = false →
    exec .pfailDeglitchExpire s =
      .next (let s1 : State := { s with pwr := { s.pwr with deglitch := false, qualify := false } }
        if s.mode = .off then s1.offRequest 3
        else if 19 < s.fld F.PWR_STATUS_STEP then { s1 with pwr := { s1.pwr with cause := 3, onReq := none } }
        else ({ s1 with pwr := { s1.pwr with asserted := true, onReq := if 12 < s.fld F.PWR_STATUS_STEP then none else s.pwr.onReq } }).lastWake 3 0 0)) ∧
  (∀ (s : State),
    s.pwr.vaux = true →
    s.pwr.pfailHigh = false →
    s.pwr.deglitch = true →
    exec .pfailNRise s =
      .next (({ s with pwr := { s.pwr with pfailHigh := true, deglitch := false } }).post F.PWR_HU_EVT_STATUS_PFAIL_GLITCH noUnit)) ∧
  (∀ (s : State),
    s.pwr.vaux = true →
    s.pwr.pfailHigh = false →
    s.pwr.deglitch = false →
    exec .pfailNRise s =
      .next (({ s with pwr := { s.pwr with pfailHigh := true, qualify := true, thermN := false } }).setFld F.PWR_STATUS_THERM_LATCH 0)) ∧
  (∀ (s : State),
    s.pwr.qualify = true →
    s.pwr.pfailHigh = true →
    exec .pgoodTimerExpire s = .next (({ s with pwr := { s.pwr with qualify := false } }).powerUpRequest 1)) ∧
  (∀ (s : State) (src : Nat),
    s.pwr.held = some src →
    s.thermalHold = false →
    exec .thermalHoldRelease s = .next (({ s with pwr := { s.pwr with held := none } }).powerUpRequest src)) ∧
  (∀ (s : State),
    s.pwr.vaux = true →
    s.pwr.rails.any id = true →
    s.mode ≠ .off →
    s.mode ≠ .holdUp →
    s.fld F.PWR_STATUS_STEP ≤ 19 →
    exec .railOutOfLimits s = .next (({ s with pwr := { s.pwr with asserted := true } }).lastWake 3 0 0)) ∧
  (∀ (s : State),
    s.pwr.vaux = true →
    s.pwr.rails.any id = true →
    s.mode = .off →
    exec .railOutOfLimits s = .next (s.offRequest 3)) ∧
  (∀ (s : State),
    exec .vaux33Loss s =
      .next { s.coreReset.resetKeys aonKey with
        mode := .off
        pwr := { rails := [false, false, false, false], vaux := false, pfailHigh := false }
        thm := {}
        mgmt := {}
        rul := { (s.coreReset.resetKeys aonKey).rul with running := false, stopped := none } }) ∧
  (∀ (s : State) (straps : Nat),
    s.pwr.vaux = false →
    straps < 4 →
    exec (.vaux33Good straps) s =
      .next { s with pwr := { s.pwr with vaux := true }, mgmt := { s.mgmt with straps := straps } })

/-- A step that ends hands over to the next one; PU12 begins BOOT and PD12 reaches OFF; a latched request turns the sequence at the mirror step; a rail that is not good in time runs the power-down from the mirror of its step; the minimum off time starts a waiting power-up. Where the spec leaves a point open, it rests on the model's choices of log entries 27, 33 and 72. -/
def Obligations.PowerSequencerSteps : Prop :=
  (∀ (s : State) (k : Nat) (env : BootEnv),
    s.pwr.vaux = true →
    1 ≤ k →
    k < 12 →
    s.fld F.PWR_STATUS_STEP = k →
    (s.puDone k).pwr.offReq = none →
    exec (.powerUpStepDone k env) s = .next ((s.puDone k).setFld F.PWR_STATUS_STEP (k + 1))) ∧
  (∀ (s : State) (env : BootEnv),
    s.pwr.vaux = true →
    s.fld F.PWR_STATUS_STEP = 12 →
    (s.puDone 12).pwr.offReq = none →
    exec (.powerUpStepDone 12 env) s = .next (((s.puDone 12).setFld F.PWR_STATUS_STEP 0).enterBoot 0 env)) ∧
  (∀ (s : State) (k src : Nat) (env : BootEnv),
    s.pwr.vaux = true →
    1 ≤ k →
    k ≤ 12 →
    s.fld F.PWR_STATUS_STEP = k →
    (s.puDone k).pwr.offReq = some src →
    exec (.powerUpStepDone k env) s =
      .next ((({ s.puDone k with pwr := { (s.puDone k).pwr with offReq := none, cause := src } }).lastWake src 3 0).setFld F.PWR_STATUS_STEP (25 - k))) ∧
  (∀ (s : State) (j : Nat),
    s.pwr.vaux = true →
    1 ≤ j →
    j < 12 →
    s.fld F.PWR_STATUS_STEP = 12 + j →
    j ≠ 1 ∨ s.mode = .off ∨ s.mode = .holdUp ∨ s.pwr.quiesce = 3 →
    j ≠ 5 ∨ s.mode = .off ∨ s.fol.reqs.isEmpty = true →
    (s.pdDone j).pwr.onReq = none →
    exec (.powerDownStepDone j) s = .next ((s.pdDone j).setFld F.PWR_STATUS_STEP (13 + j))) ∧
  (∀ (s : State),
    s.pwr.vaux = true →
    s.fld F.PWR_STATUS_STEP = 24 →
    (s.pdDone 12).pwr.onReq = none →
    exec (.powerDownStepDone 12) s =
      .next (({ (s.pdDone 12).enterOff with pwr := { (s.pdDone 12).enterOff.pwr with minOff := true } }).setFld F.PWR_STATUS_STEP 0)) ∧
  (∀ (s : State) (src : Nat),
    s.pwr.minOff = true →
    s.pwr.onReq = some src →
    s.thermalHold = false →
    exec .minOffTimeExpire s =
      .next (({ s with pwr := { s.pwr with minOff := false, onReq := none, source := src } }).setFld F.PWR_STATUS_STEP 1)) ∧
  (∀ (s : State),
    s.pwr.minOff = true →
    s.pwr.onReq = none →
    exec .minOffTimeExpire s = .next { s with pwr := { s.pwr with minOff := false } }) ∧
  (∀ (s : State) (k : Nat),
    s.fld F.PWR_STATUS_STEP = k →
    k = 1 ∨ k = 2 ∨ k = 3 ∨ k = 5 →
    exec .railGoodTimeout s =
      .next ((({ s with pwr := { s.pwr with cause := 3, offReq := none, onReq := none } }).lastWake s.pwr.source 3 0).setFld F.PWR_STATUS_STEP (25 - k)))

/-- A change not acknowledged in time is sent again up to RETRY times, after which AVS_TMO is set; an acknowledgement puts the setpoint and a waiting clock change in force; a read-back off the setpoint is reported and the setpoint requested again. Nothing else changes. Where the spec leaves a point open, it rests on the model's choices of log entry 11. -/
def Obligations.CoreVoltage : Prop :=
  (∀ (s : State),
    s.flag F.PWR_AVS_STATUS_PEND = true →
    s.pwr.avsTries < s.fld F.PWR_AVS_RETRY →
    exec .avsAckTimeout s =
      .next ({ s with pwr := { s.pwr with avsTries := s.pwr.avsTries + 1 } }.emit (.avs s.pwr.avsWant))) ∧
  (∀ (s : State),
    s.flag F.PWR_AVS_STATUS_PEND = true →
    s.fld F.PWR_AVS_RETRY ≤ s.pwr.avsTries →
    exec .avsAckTimeout s =
      .next ((({ s with pwr := { s.pwr with clkWait := none } }).setFld F.PWR_AVS_STATUS_PEND 0).post F.PWR_EVT_STATUS_AVS_TMO noUnit)) ∧
  (∀ (s : State) (vread : Nat),
    s.mode ≠ .off →
    s.mode ≠ .holdUp →
    vread < 256 →
    s.flag F.PWR_AVS_STATUS_PEND = false →
    avsNear vread (s.fld F.PWR_AVS_STATUS_VSET) = false →
    exec (.avsReadbackPoll vread) s =
      .next (((s.setFld F.PWR_AVS_STATUS_VREAD vread).post F.PWR_EVT_STATUS_AVS_MISMATCH noUnit).avsRequest (s.fld F.PWR_AVS_STATUS_VSET))) ∧
  (∀ (s : State) (vread : Nat),
    s.mode ≠ .off →
    s.mode ≠ .holdUp →
    vread < 256 →
    s.flag F.PWR_AVS_STATUS_PEND = true ∨ avsNear vread (s.fld F.PWR_AVS_STATUS_VSET) = true →
    exec (.avsReadbackPoll vread) s = .next (s.setFld F.PWR_AVS_STATUS_VREAD vread)) ∧
  (∀ (s : State) (vread : Nat),
    s.flag F.PWR_AVS_STATUS_PEND = true →
    avsNear vread s.pwr.avsWant = true →
    exec (.avsAcknowledge vread) s =
      .next { ((s.setFld F.PWR_AVS_STATUS_VSET s.pwr.avsWant).setFld F.PWR_AVS_STATUS_VREAD vread).setFld F.PWR_AVS_STATUS_PEND 0 with
        pwr := { s.pwr with clkDiv := s.pwr.clkWait.getD s.pwr.clkDiv, clkWait := none } })

/-- At the line after the assertion HOLD-UP is entered and the class 0 dump starts; at 0.9 of the hold-up time no further dump stroke is placed and what was not placed is counted lost; with every dump stroke ended the shutdown record is written and the power-down begins; an aged commit group closes. Where the spec leaves a point open, it rests on the model's choices of log entries 3, 5, 34, 70, 71, 78, 81, 82 and 87. -/
def Obligations.HoldUpSequence : Prop :=
  (∀ (s : State) (clk : AonClock) (ns : Nat),
    s.pwr.asserted = true →
    s.mode = .run ∨ s.mode = .degraded ∨ s.mode = .trial →
    s.fld F.PWR_STATUS_STEP ≤ 19 →
    exec (.holdupEntry clk ns) s =
      .next ((((s.setFld F.PWR_STATUS_STEP 0).enterHoldUp.lose s.losers).logLost).startDump 1)) ∧
  (∀ (s : State) (clk : AonClock) (ns : Nat),
    s.pwr.asserted = true →
    s.mode = .doze →
    s.fld F.PWR_STATUS_STEP ≤ 19 →
    exec (.holdupEntry clk ns) s =
      .next (((((s.rulResume clk ns).setFld F.PWR_STATUS_STEP 0).enterHoldUp.lose s.losers).logLost).startDump 1)) ∧
  (∀ (s : State),
    s.mode = .holdUp →
    s.blt.dumping = 1 →
    s.blt.dumpStop = false →
    s.blt.holdAt + 900 * nsT * s.fld F.PWR_HU_EFF_TB_US ≤ s.now →
    exec .holdupDumpDeadline s =
      .next { s with blt := { s.blt with
        dumpStop := true
        pages := s.blt.pages.map (fun p => if p.phase == .closed then { p with phase := .lost } else p) } }) ∧
  (∀ (s : State),
    s.blt.dumping = 1 →
    s.blt.dumpStop = false →
    (s.blt.pages.any (fun p => p.phase == .programming || (p.phase == .closed && !s.blt.dumpStop)) = false) →
    (s.closeRows true).blt.rows.any (fun r => r.parity != 2) = false →
    exec .holdupDumpComplete s =
      .next (({ ((s.closeRows true).countLost.dumpRate.shutRecord 2) with
        blt := { ((s.closeRows true).countLost.dumpRate.shutRecord 2).blt with dumping := 0 }
        pwr := { ((s.closeRows true).countLost.dumpRate.shutRecord 2).pwr with cause := 3 } }).setFld F.PWR_STATUS_STEP 13)) ∧
  (∀ (s : State),
    s.blt.dumping = 2 →
    (s.blt.pages.any (fun p => p.phase == .programming || (p.phase == .closed && !s.blt.dumpStop)) = false) →
    ((s.closeRows true).blt.rows.any (fun r => r.parity != 2) && !(s.closeRows true).blt.dumpStop) = false →
    exec .holdupDumpComplete s =
      .next ({ ((s.closeRows true).countLost.dumpRate.shutRecord 4) with
        blt := { ((s.closeRows true).countLost.dumpRate.shutRecord 4).blt with dumping := 0 } }).shutSafe) ∧
  (∀ (s : State) (group : Nat) (p : BltPage),
    (s.blt.pages.find? (fun p => p.group == group && p.phase == .open) = some p) →
    p.openedAt + s.fld F.PWR_BLT_CFG_CG_US * usT ≤ s.nowAt islStroke →
    s.groupsOpen = true →
    exec (.commitGroupTimeout group) s = .next ((s.updPage group (fun p => { p with phase := .closed })).pumpBlotter)) ∧
  (∀ (s : State) (group : Nat) (p : BltPage),
    (s.blt.pages.find? (fun p => p.group == group && p.phase == .passed) = some p) →
    p.openedAt + 3600 * secT ≤ s.now →
    p.row = none →
    (p.units.any (fun u => u.btype == 0 && !u.released) = true) →
    s.groupsOpen = true →
    exec (.blotterUnitAge group) s =
      .next (((((p.units.filter (fun u => u.btype == 0 && !u.released)).filterMap
        (fun u => (u.idx.bind s.recAt).map (fun r => r.wp))).eraseDups).foldl State.padWp s.runWritePoints).pump)) ∧
  (∀ (s : State) (group : Nat) (p : BltPage) (set slot row : Nat),
    (s.blt.pages.find? (fun p => p.group == group && p.phase == .passed) = some p) →
    p.openedAt + 3600 * secT ≤ s.now →
    p.row = some (set, slot, row) →
    (p.units.any (fun u => u.btype == 0 && !u.released) = true) →
    s.groupsOpen = true →
    exec (.blotterUnitAge group) s =
      .next (((((p.units.filter (fun u => u.btype == 0 && !u.released)).filterMap
        (fun u => (u.idx.bind s.recAt).map (fun r => r.wp))).eraseDups).foldl State.padWp
          (s.updSet set (fun t => { t with stop := t.stop.set slot true })).runWritePoints).pump))

/-- In OFF only sensor 31 is sampled; in HOLD-UP and DOZE a sample has no thermal action; otherwise the 32 sensors are sampled and the throttle level follows. The level falls by one a second after the readings are low enough, and is reported. A rise faster than RATE for HOLD_S seconds sets ROR and throttles; 40 calm windows clear it. Nothing else changes. Where the spec leaves a point open, it rests on the model's choices of log entries 5, 7, 72 and 87. -/
def Obligations.ThermalCommands : Prop :=
  (∀ (s : State) (temps : List Int),
    s.pwr.vaux = true →
    temps.length = 32 →
    s.mode = .off →
    exec (.thermalSensorSample temps) s =
      .next { s with thm := { s.thm with sensors := s.thm.sensors.modify 31 (fun x => { x with temp := temps.getD 31 25 }) } }) ∧
  (∀ (s : State) (temps : List Int),
    s.mode = .holdUp ∨ s.mode = .doze →
    exec (.thermalSensorSample temps) s = .next s) ∧
  (∀ (s : State) (temps : List Int),
    s.pwr.vaux = true →
    temps.length = 32 →
    s.mode = .boot ∨ s.mode = .run ∨ s.mode = .degraded ∨ s.mode = .trial ∨ s.mode = .safe →
    exec (.thermalSensorSample temps) s =
      .next ((let t := (List.range 32).foldl (fun (s : State) i => s.sensorSample i temps) s
        t.throttle (((List.range 32).find? (fun i => ((t.thm.sensors[i]?).map (fun x => !x.masked && x.temp == t.thm.hotJ)).getD false)).getD 0xFF) 0xFFFF).settle)) ∧
  (∀ (s : State) (t : Nat),
    s.thm.coolAt = some t →
    (s.fld F.THM_STATUS_LEVEL = 0 || s.now < t + secT || s.mode = .doze || s.mode = .holdUp || s.mode = .off) = false →
    exec .throttleLevelFall s =
      .next (let t := ((s.setLevel (s.fld F.THM_STATUS_LEVEL - 1)).post F.THM_EVT_STATUS_LEVEL_DOWN noUnit).thermEvent 0 0xFF s.thm.hotJ 0xFFFF
        { t with thm := { t.thm with coolAt := if 1 < s.fld F.THM_STATUS_LEVEL && t.cool (s.fld F.THM_STATUS_LEVEL - 1) then some s.now else none } })) ∧
  (∀ (s : State),
    (s.mode = .off || s.mode = .doze || s.mode = .holdUp) = false →
    exec .rateOfRiseWindow s =
      .next (let rj := (s.thm.hotJ - s.thm.winJ) * 4
        let rn := ((s.hotN).getD s.thm.winN - s.thm.winN) * 4
        let rate : Int := (s.fld F.THM_ROR_RATE : Nat)
        let fast := if rate < rj || rate < rn then s.thm.fast + 1 else 0
        let calm := if rj < 1 && rn < 1 then s.thm.calm + 1 else 0
        let t : State := { s with thm := { s.thm with winJ := s.thm.hotJ, winN := (s.hotN).getD s.thm.winN, fast := fast, calm := calm } }
        if t.flag F.THM_CTRL_ROR_EN && !t.flag F.THM_STATUS_ROR && 4 * max 1 (t.fld F.THM_ROR_HOLD_S) ≤ fast then
          (((t.setFld F.THM_STATUS_ROR 1).post F.THM_EVT_STATUS_ROR noUnit).thermEvent 1 0xFF s.thm.hotJ 0xFFFF).throttle 0xFF 0xFFFF
        else if t.flag F.THM_STATUS_ROR && 40 ≤ calm then t.setFld F.THM_STATUS_ROR 0
        else t))

/-- The end of a delay adds it to the sum and asks the islands again: with no refusal the entry goes on and waits for the next delay that is asked for, with a refusal, or when the delays together pass MAX_DELAY, DOZE_REFUSED is reported and the entry ends; at a point whose work is complete a wake event since the last point abandons the entry with a wake record, point 6 enters DOZE, any other point is passed and starts the next work; 100 ms after an entry ended without DOZE, with the request standing, no command outstanding and no refusal, an entry at the requested level starts and asks the islands; the always-on loop wakes the WY48 at an event or, after its samples, at a reading outside its window, and otherwise keeps the samples and sleeps again; after a wake the requests that waited at the management port are served. Where the spec leaves a point open, it rests on the model's choices of log entries 5, 34, 37, 72 and 87. -/
def Obligations.DozeEntryAndWake : Prop :=
  (∀ (s : State) (us : Nat) (e : DozeEntry),
    s.pwr.entry = some e →
    e.delay = true →
    e.sum + us * 1000 ≤ s.fld F.PWR_DOZE_MAX_DELAY * 1000000 →
    ({ s with pwr := { s.pwr with entry := some { e with sum := e.sum + us * 1000, delay := false } } } : State).dozeRefused = false →
    exec (.dozeIslandDelayExpire us) s =
      .next { s with pwr := { s.pwr with entry := some { e with sum := e.sum + us * 1000, delay := ({ s with pwr := { s.pwr with entry := some { e with sum := e.sum + us * 1000, delay := false } } } : State).dozeDelayed } } }) ∧
  (∀ (s : State) (us : Nat) (e : DozeEntry),
    s.pwr.entry = some e →
    e.delay = true →
    s.fld F.PWR_DOZE_MAX_DELAY * 1000000 < e.sum + us * 1000 ∨ ({ s with pwr := { s.pwr with entry := some { e with sum := e.sum + us * 1000, delay := false } } } : State).dozeRefused = true →
    exec (.dozeIslandDelayExpire us) s = .next ((({ s with pwr := { s.pwr with entry := some { e with sum := e.sum + us * 1000, delay := false } } } : State).post F.PWR_EVT_STATUS_DOZE_REFUSED noUnit).dozeEnd)) ∧
  (∀ (s : State) (e : DozeEntry) (src : Nat),
    s.pwr.entry = some e →
    e.delay = false →
    s.dozeReady (s.fld F.PWR_STATUS_AP + 1) = true →
    s.pwr.wake = some src →
    exec .dozeAbortPoint s =
      .next ((((s.post F.PWR_EVT_STATUS_DOZE_ABORT noUnit).dozeEnd).lastWake src 4 (s.fld F.PWR_STATUS_AP + 1)))) ∧
  (∀ (s : State) (e : DozeEntry),
    s.pwr.entry = some e →
    e.delay = false →
    s.dozeReady (s.fld F.PWR_STATUS_AP + 1) = true →
    s.pwr.wake = none →
    exec .dozeAbortPoint s =
      .next (if s.fld F.PWR_STATUS_AP + 1 = 6 then s.dozeEnter e.level
        else (s.setFld F.PWR_STATUS_AP (s.fld F.PWR_STATUS_AP + 1)).dozeWork (s.fld F.PWR_STATUS_AP + 1))) ∧
  (∀ (s : State),
    s.pwr.retry = true →
    s.pwr.retryAt + 100 * msT ≤ s.now →
    s.dozeWanted = true →
    s.commandsOpen = false →
    s.dozeRefused = false →
    exec .dozeEntryRetry s = .next ((({ s with pwr := { s.pwr with entry := some { level := s.psWanted }, retry := false, wake := none, from_ := s.mode } } : State)).setFld F.PWR_STATUS_AP 0).dozeAsk) ∧
  (∀ (s : State) (clk : AonClock) (ticks : Nat) (temps : List Int) (vnow src : Nat),
    s.mode = .doze →
    s.pwr.asserted = false →
    s.pwr.wake = some src →
    src ≠ 8 →
    exec (.dozeLoopWake clk ticks temps vnow) s = .next (({ s with pwr := { s.pwr with periods := s.pwr.periods + 1 } } : State).dozeWake src clk ticks).serveHeld) ∧
  (∀ (s : State) (clk : AonClock) (ticks : Nat) (temps : List Int) (vnow src : Nat),
    s.mode = .doze →
    s.pwr.asserted = false →
    s.pwr.wake = none ∨ s.pwr.wake = some 8 →
    (({ s with pwr := { s.pwr with periods := s.pwr.periods + 1 } } : State).noteSample temps vnow).outOfWindow = some src →
    exec (.dozeLoopWake clk ticks temps vnow) s =
      .next ((({ s with pwr := { s.pwr with periods := s.pwr.periods + 1 } } : State).noteSample temps vnow).dozeWake src clk ticks).serveHeld) ∧
  (∀ (s : State) (clk : AonClock) (ticks : Nat) (temps : List Int) (vnow : Nat),
    s.mode = .doze →
    s.pwr.asserted = false →
    s.pwr.wake = some 8 →
    (({ s with pwr := { s.pwr with periods := s.pwr.periods + 1 } } : State).noteSample temps vnow).outOfWindow = none →
    exec (.dozeLoopWake clk ticks temps vnow) s = .next (({ s with pwr := { s.pwr with periods := s.pwr.periods + 1 } } : State).dozeWake 8 clk ticks).serveHeld) ∧
  (∀ (s : State) (clk : AonClock) (ticks : Nat) (temps : List Int) (vnow : Nat),
    s.mode = .doze →
    s.pwr.asserted = false →
    s.pwr.wake = none →
    (({ s with pwr := { s.pwr with periods := s.pwr.periods + 1 } } : State).noteSample temps vnow).outOfWindow = none →
    exec (.dozeLoopWake clk ticks temps vnow) s = .next (({ s with pwr := { s.pwr with periods := s.pwr.periods + 1 } } : State).noteSample temps vnow))

/-- At a tick the counters are checked and, while the Ruling runs, both advance by the same increment and every island copy by its own ticks; a line pulse comes at the count of the next line: the index advances, each island takes its announced count, the line two ahead is announced to it and the next line lies one pitch on; an island takes the oldest announcement out of its FIFO as the count that arrives, and one that is not what its line should have is reported and taken all the same. A stopped Ruling does nothing at a tick or a pulse. Where the spec leaves a point open, it rests on the model's choices of log entries 5 and 81. -/
def Obligations.RulingTicks : Prop :=
  (∀ (s : State) (u : Upset),
    s.rul.running = true →
    (({ s with rul := s.rul.upset u }).checkCounters).rul.running = true →
    exec (.rulingTick u) s =
      .next (let t := ({ s with rul := s.rul.upset u }).checkCounters
        let v : State := { t with rul := { t.rul with
          a := t.rul.a.advance t.rul.increment.1, b := t.rul.b.advance t.rul.increment.1, acc := t.rul.increment.2 } }
        ((v.syncOutAt t.now).islandTicks).background)) ∧
  (∀ (s : State) (u : Upset),
    s.rul.running = true →
    (({ s with rul := s.rul.upset u }).checkCounters).rul.running = false →
    exec (.rulingTick u) s = .next ({ s with rul := s.rul.upset u }).checkCounters) ∧
  (∀ (s : State),
    s.rul.running = true →
    s.rul.nextLine ≤ s.now →
    exec .linePulse s =
      .next (({ s with rul := { s.rul with
        a := if s.rul.maskA then s.rul.a else s.rul.a.nextLine
        b := if s.rul.maskB then s.rul.b else s.rul.b.nextLine
        nextLine := s.rul.nextLine + s.pitchNs * 256
        islands := s.rul.islands.map (fun (e : Nat × Island) => (e.1,
          { e.2.atLine (s.rul.lineIdx + 1) with
            fifo := (e.2.atLine (s.rul.lineIdx + 1)).fifo ++ [(s.rul.lineIdx + 1 + 2, s.lineCount 2)] })) } }).horizonAdvance.capWatch)) ∧
  (∀ (s : State),
    s.now < s.rul.nextLine →
    exec .linePulse s = .next s) ∧
  (∀ (s : State) (island count k sent : Nat) (x : Island) (rest : List (Nat × Nat)),
    s.rul.islands.lookup island = some x →
    x.fifo = (k, sent) :: rest →
    (s.expectedLine x k).all (· == count) = true →
    exec (.lineAnnouncement island count) s = .next ({ s with rul := { s.rul with islands := s.rul.islands.map (fun e => if e.1 = island then (island, { x with fifo := rest, taken := x.taken ++ [(k, count)], last := some count }) else e) } } : State)) ∧
  (∀ (s : State) (island count k sent : Nat) (x : Island) (rest : List (Nat × Nat)),
    s.rul.islands.lookup island = some x →
    x.fifo = (k, sent) :: rest →
    (s.expectedLine x k).all (· == count) = false →
    exec (.lineAnnouncement island count) s = .next (({ s with rul := { s.rul with islands := s.rul.islands.map (fun e => if e.1 = island then (island, { x with fifo := rest, taken := x.taken ++ [(k, count)], last := some count }) else e) } } : State).post F.RUL_EVT_STATUS_ANN_FAULT island)) ∧
  (∀ (s : State) (island count : Nat) (x : Island),
    s.rul.islands.lookup island = some x →
    x.fifo = [] →
    exec (.lineAnnouncement island count) s = .next s) ∧
  (∀ (s : State) (u : Upset),
    s.rul.running = false →
    exec (.rulingTick u) s = .next s ∧ exec .linePulse s = .next s)

/-- A PPS edge assigns the armed seconds, once TOD_ARM is more than 100 ms old, or advances the seconds it has; with seconds it is one sample of the phase, without them one sample of the interval from the last edge, and the first edge alone is only noted; an edge more than 1 µs off the second after the last one is no sample, and two of these in a row are a loss; a 10 MHz sample stands for 100 ms of edges; a PTM response within 1 ms of its request is one sample at its instant; a lost edge or the third failed PTM dialog is a loss; TOD_ARM arms the written seconds. Where the spec leaves a point open, it rests on the model's choices of log entries 5, 8, 81 and 103. -/
def Obligations.RulingSources : Prop :=
  (∀ (s : State) (v at' : Nat),
    s.disciplined = true →
    s.fld F.RUL_SYNC_CFG_MODE = 1 →
    s.rul.tod = some (v, at') →
    100 * msT < s.now - at' →
    exec .syncInEdge s =
      .next (let t : State := { s with rul := { s.rul with lastEdge := some s.now, todSec := some v, tod := none } }
        t.sample .sync (((v * secT + t.fld F.RUL_SYNC_DELAY_DELAY : Nat) : Int) - s.now))) ∧
  (∀ (s : State) (e : Nat),
    s.disciplined = true →
    s.fld F.RUL_SYNC_CFG_MODE = 1 →
    (s.rul.tod.all (fun e => decide (s.now - e.2 ≤ 100 * msT)) = true) →
    s.rul.lastEdge = some e →
    usT < (((e + secT : Nat) : Int) - (s.now : Int)).natAbs →
    exec .syncInEdge s =
      .next (let t : State := { s with rul := { s.rul with
          lastEdge := some s.now, todSec := s.rul.todSec.map (· + 1), sync := { s.rul.sync with bad := s.rul.sync.bad + 1, recent := [] } } }
        if 2 ≤ s.rul.sync.bad + 1 then t.loseSource .sync else t)) ∧
  (∀ (s : State) (v : Nat),
    s.disciplined = true →
    s.fld F.RUL_SYNC_CFG_MODE = 1 →
    (s.rul.tod.all (fun e => decide (s.now - e.2 ≤ 100 * msT)) = true) →
    (s.rul.lastEdge.all (fun e => decide ((((e + secT : Nat) : Int) - (s.now : Int)).natAbs ≤ usT)) = true) →
    s.rul.todSec = some v →
    exec .syncInEdge s =
      .next (let t : State := { s with rul := { s.rul with lastEdge := some s.now, todSec := some (v + 1) } }
        t.sample .sync ((((v + 1) * secT + t.fld F.RUL_SYNC_DELAY_DELAY : Nat) : Int) - s.now))) ∧
  (∀ (s : State) (e : Nat),
    s.disciplined = true →
    s.fld F.RUL_SYNC_CFG_MODE = 1 →
    (s.rul.tod.all (fun e => decide (s.now - e.2 ≤ 100 * msT)) = true) →
    s.rul.lastEdge = some e →
    (((e + secT : Nat) : Int) - (s.now : Int)).natAbs ≤ usT →
    s.rul.todSec = none →
    exec .syncInEdge s =
      .next (({ s with rul := { s.rul with lastEdge := some s.now, todSec := none } }).sample .sync (((e + secT : Nat) : Int) - (s.now : Int)))) ∧
  (∀ (s : State),
    s.disciplined = true →
    s.fld F.RUL_SYNC_CFG_MODE = 1 →
    (s.rul.tod.all (fun e => decide (s.now - e.2 ≤ 100 * msT)) = true) →
    s.rul.lastEdge = none →
    s.rul.todSec = none →
    exec .syncInEdge s = .next { s with rul := { s.rul with lastEdge := some s.now } }) ∧
  (∀ (s : State),
    s.disciplined = true →
    s.fld F.RUL_SYNC_CFG_MODE = 2 →
    s.rul.lastEdge = none →
    exec .syncInEdge s =
      .next { s with rul := { s.rul with lastEdge := some s.now, todSec := none } }) ∧
  (∀ (s : State) (e : Nat),
    s.disciplined = true →
    s.fld F.RUL_SYNC_CFG_MODE = 2 →
    s.rul.lastEdge = some e →
    exec .syncInEdge s =
      .next (({ s with rul := { s.rul with lastEdge := some s.now, todSec := none } }).sample .sync
        (((e + 100 * msT : Nat) : Int) - (s.now : Int)))) ∧
  (∀ (s : State),
    s.disciplined = true →
    (max (s.rul.lastEdge.getD 0) s.rul.resumedAt + (if s.fld F.RUL_SYNC_CFG_MODE = 2 then usT else 1100 * msT) ≤ s.now) →
    exec .syncInLossTimeout s = .next (s.loseSource .sync)) ∧
  (∀ (s : State),
    s.ptmUsed = true →
    s.disciplined = true →
    (s.rul.dialogAt = 0 || s.rul.dialogAt + s.fld F.RUL_PTM_CFG_PERIOD * msT ≤ s.now) = true →
    s.rul.dialog.contains s.ptmPort = false →
    exec .ptmDialogStart s =
      .next (({ s with rul := { s.rul with dialog := s.ptmPort :: s.rul.dialog, dialogAt := s.now } }).emit (.ptmRequest s.ptmPort))) ∧
  (∀ (s : State) (port : Nat) (master : Int),
    s.rul.dialog.contains port = true →
    s.now ≤ s.rul.dialogAt + msT →
    s.ptmUsed = true →
    s.disciplined = true →
    exec (.ptmResponse port master) s =
      .next (let t : State := { s with rul := { s.rul with dialog := s.rul.dialog.erase port } }
        t.sample .ptm (master + 256 * t.ptmOffset - s.now))) ∧
  (∀ (s : State) (port : Nat),
    s.rul.dialogAt + msT ≤ s.now →
    s.rul.dialog.contains port = true →
    exec (.ptmDialogTimeout port) s =
      .next (let t : State := { s with rul := { s.rul with
          dialog := s.rul.dialog.erase port, ptm := { s.rul.ptm with bad := s.rul.ptm.bad + 1, recent := [] } } }
        if 3 ≤ s.rul.ptm.bad + 1 then t.loseSource .ptm else t)) ∧
  (∀ (s : State),
    exec .todArm s =
      .next { s with rul := { s.rul with tod := some (s.fld F.RUL_TOD_SEC_LO_SEC + s.fld F.RUL_TOD_SEC_HI_SEC * 2 ^ 32, s.now) } })

/-- At the step line the count, the next line and every ruling time held move on by S and the step is recorded and reported; Ruling Step Authorize completes at once when the offset is small, is refused for its listed reasons, and otherwise decides the step; a read of RUL_NOW_LO or of the low register of a pair latches the high one, and a register whose stored word fails its check is answered poisoned and reported. Where the spec leaves a point open, it rests on the model's choices of log entries 5, 20, 36, 37, 39, 43, 47, 66, 72, 77 and 79. -/
def Obligations.RulingStepsAndReads : Prop :=
  (∀ (s : State) (p : StepPlan) (ref : Ref),
    s.rul.step = some p →
    p.line ≤ s.rul.lineIdx →
    s.mode ≠ .holdUp →
    p.ref = some ref →
    exec .rulingStepApply s =
      .next (let t := s.colophon 6 0 (srcCode p.src) (p.size / 256)
        let v : State := { t with rul := { t.rul with
          a := t.rul.a.advance p.size, b := t.rul.b.advance p.size, nextLine := t.rul.nextLine + p.size, step := none
          offset := t.rul.offset - p.size, lastStep := s.stamp, stepNs := p.size / 256 } }
        let x := (v.shiftTimes p.size).post F.RUL_EVT_STATUS_STEP noUnit
        (x.unlockTemp ref).complete ref .success (p.size / usT))) ∧
  (∀ (s : State) (p : StepPlan),
    s.rul.step = some p →
    p.line ≤ s.rul.lineIdx →
    s.mode ≠ .holdUp →
    p.ref = none →
    exec .rulingStepApply s =
      .next (let t := s.colophon 6 1 (srcCode p.src) (p.size / 256)
        let v : State := { t with rul := { t.rul with
          a := t.rul.a.advance p.size, b := t.rul.b.advance p.size, nextLine := t.rul.nextLine + p.size, step := none
          offset := t.rul.offset - p.size, lastStep := s.stamp, stepNs := p.size / 256 } }
        let x := (v.shiftTimes p.size).post F.RUL_EVT_STATUS_STEP noUnit
        x)) ∧
  (∀ (s : State),
    exec .rulNowLoRead s =
      .next (({ s with rul := { s.rul with
        snapHi := s.now / 256 / 2 ^ 32 % 2 ^ 32, snapAux := s.rul.cls + s.uncNow * 2 ^ 16 } }).emit (.regRead 0x1010 (s.now / 256 % 2 ^ 32)))) ∧
  (∀ (s : State) (off : BarRead),
    s.mode ≠ .off →
    pairLos.contains off.off = true →
    off.bad = false →
    exec (.loHiPairRead off) s =
      .next (((s.wakeEvent 6).regReadStep off.off).1.emit (.regRead off.off ((s.wakeEvent 6).regReadStep off.off).2))) ∧
  (∀ (s : State) (off : BarRead),
    s.mode ≠ .off →
    pairLos.contains off.off = true →
    off.bad = true →
    exec (.loHiPairRead off) s =
      .next (((s.wakeEvent 6).emit (.barPoison off.off)).postAs F.HP_EVT_STATUS_POISON_OUT 35 .corrected noUnit)) ∧
  (∀ (s : State) (ref : Ref) (cdw10 : Nat),
    s.accepts ref = true →
    holderOf ref ≠ none →
    (s.latch ref).heldAgainst ref = none →
    0 < bitsOf cdw10 0 16 →
    ((s.latch ref).rul.sync.qual || (s.latch ref).rul.bxl.qual || (s.latch ref).rul.ptm.qual) = true →
    (s.latch ref).ckpt.cuts.any (fun c => c.state == 1) = false →
    (s.latch ref).rul.step.isSome = false →
    (msT : Int) < (s.latch ref).rul.offset →
    (s.latch ref).rul.offset ≤ ((bitsOf cdw10 0 16 * msT : Nat) : Int) →
    exec (.rulingStepAuthorize ref cdw10) s =
      .next (((s.latch ref).lockFor ref).decideStep (s.latch ref).rul.offset.toNat (s.latch ref).rul.follow (some ref))) ∧
  (∀ (s : State) (ref : Ref) (cdw10 : Nat),
    s.accepts ref = true →
    holderOf ref ≠ none →
    (s.latch ref).heldAgainst ref = none →
    0 < bitsOf cdw10 0 16 →
    ((s.latch ref).rul.sync.qual || (s.latch ref).rul.bxl.qual || (s.latch ref).rul.ptm.qual) = true →
    (s.latch ref).ckpt.cuts.any (fun c => c.state == 1) = false →
    (s.latch ref).rul.step.isSome = false →
    (s.latch ref).rul.offset ≤ (msT : Int) →
    exec (.rulingStepAuthorize ref cdw10) s = (s.latch ref).done ref .success 0) ∧
  (∀ (s : State) (ref : Ref) (cdw10 : Nat) (h : Holder),
    s.accepts ref = true →
    holderOf ref ≠ none →
    (s.latch ref).heldAgainst ref = some h →
    exec (.rulingStepAuthorize ref cdw10) s = (s.latch ref).done ref .authorityElsewhere h.code)

/-- Placement asks for the RESUMEs that are due, places SUSPENDs and strokes in placement order and ends the fetch hold once 4,096 entries are free; a waiting class 4 or 5 stroke is promoted by one class but not above CEIL; a completion is consumed with its reports; an overrun is counted and reported; a window ends with the marks, the stamp and the percentiles. Nothing else changes. Where the spec leaves a point open, it rests on the model's choices of log entries 5, 70, 71, 72, 83 and 87. -/
def Obligations.StrokeScheduling : Prop :=
  (∀ (s : State),
    exec .strokePlace s =
      .next (let h := s.enterHeld
        let t := (h.stk.strokes.filter h.resumeDue).foldl State.askResume h
        let u := (t.ordered.filter (fun k => k.op != .suspend && k.op != .resume)).foldl State.placeSuspends t
        let v := u.ordered.foldl State.placeOne u
        { v with qe := { v.qe with fetchHold :=
            if (!v.pendingRoom 2) then true else if v.pendingCount + 4096 ≤ 131072 then false else v.qe.fetchHold } })) ∧
  (∀ (s : State) (req : Nat),
    exec (.strokeAgePromote req) s =
      .next { s with stk := { s.stk with strokes := s.stk.strokes.map (fun k =>
        if k.req == req && k.phase == .waiting && 4 ≤ k.cls0 && s.fld F.STK_AGE_CEIL < k.cls && k.since + s.fld F.STK_AGE_STEP * usT ≤ s.now
        then { k with cls := k.cls - 1, since := k.since + s.fld F.STK_AGE_STEP * usT } else k) } }) ∧
  (∀ (s : State) (nib : Nat) (c : Comp) (k : Stroke),
    (s.nib.comps.find? (fun c => c.nib == nib) = some c) →
    s.strokeOf c.req = some k →
    exec (.strokeComplete nib) s =
      .next (let t : State := { s with nib := { s.nib with
          comps := s.nib.comps.filter (fun x => !(x.nib == nib && x.seq == c.seq && x.req == c.req)) } }
        if c.status = 4 then ((t.post F.STK_EVT_STATUS_LINE_MISSED k.lun).waitAgain k.req).settle
        else if c.status = 5 then ((t.post F.STK_EVT_STATUS_LUN_BUSY k.lun).waitAgain k.req).settle
        else ((t.countBusy k c).actOn k c).pump.settle)) ∧
  (∀ (s : State) (nib : Nat) (c : Comp),
    (s.nib.comps.find? (fun c => c.nib == nib) = some c) →
    s.strokeOf c.req = none →
    exec (.strokeComplete nib) s =
      .next { s with nib := { s.nib with comps := s.nib.comps.filter (fun x => !(x.nib == nib && x.seq == c.seq && x.req == c.req)) } }) ∧
  (∀ (s : State) (req : Nat) (k : Stroke),
    (s.stk.strokes.find? (fun k => k.req == req && k.phase == .launched && !k.overran && segsMax k.segs < s.busyOf k) = some k) →
    exec (.strokeOverrun req) s =
      .next (let u := if k.op = .suspend then s.post (F.NIB_EVT_STATUS_SUSP_LATE (chanOf k.lun)) k.lun else s
        let t := u.setStat { s.stat k.lun with overran := (s.stat k.lun).overran + 1 }
        ({ t with stk := { t.stk with
          nOverrun := t.stk.nOverrun + 1
          strokes := updWhere (fun o => o.req == req) (fun o => { o with overran := true }) t.stk.strokes } }).post F.STK_EVT_STATUS_OVERRUN k.lun)) ∧
  (∀ (s : State),
    exec .slowWindowEnd s =
      .next (let gone (t : LunStat) : LunStat :=
          if s.lunServes t.lun then t
          else { t with cnt := [0, 0, 0, 0, 0], sum := [0, 0, 0, 0, 0], means := [0, 0, 0, 0, 0], ratio := 0, done := 0, strokes := 0, overran := 0 }
        let t := (((s.stk.stats.filter (fun t => s.lunServes t.lun)).map (fun t => (t, s.ratioOf t))).foldl
          (fun (s : State) e => s.markLun e.1 e.2) { s with stk := { s.stk with stats := s.stk.stats.map gone } })
        { t with stk := { t.stk with
          windowEnd := s.stamp
          pct := [percentile s.stk.rdLat 5000, percentile s.stk.rdLat 9999, percentile s.stk.wrLat 5000, percentile s.stk.wrLat 9999]
          rdLat := [], wrLat := [] } }))

/-- A repeated descriptor is dropped with DUP_DESC; an accepted one becomes a run, or ends with status 0x0C on a masked Nib; at the due line the stroke ends unlaunched with the status of the first failing check, a bus conflict being reported, and otherwise launches. Where the spec leaves a point open, it rests on the model's choices of log entries 3 and 81. -/
def Obligations.NibDescriptors : Prop :=
  (∀ (s : State) (nib seq l : Nat),
    s.nib.lastSeq.lookup nib = some l →
    seqLater seq l = false →
    exec (.descriptorAccept nib seq) s = .next (if s.mode = .off then s else s.post (F.NIB_EVT_STATUS_DUP_DESC nib) nib)) ∧
  (∀ (s : State) (nib seq : Nat) (k : Stroke),
    (s.nib.lastSeq.lookup nib).all (fun l => seqLater seq l) = true →
    (s.stk.strokes.find? (fun k => chanOf k.lun == nib && k.phase == .placed && !k.accepted && k.seq == seq) = some k) →
    exec (.descriptorAccept nib seq) s =
      .next (let t := s.updStroke k.req (fun k => { k with accepted := true })
        let r : Run := { nib := nib, req := k.req, seq := seq, lun := k.lun, accAt := s.nowAt (islNib nib) }
        let u : State := { t with nib := { t.nib with
          lastSeq := (nib, seq) :: t.nib.lastSeq.filter (fun e => e.1 != nib), runs := t.nib.runs ++ [r] } }
        if s.nibMasked nib then u.endRun r 0x0C 0 else u)) ∧
  (∀ (s : State) (nib seq : Nat) (ofs : Int) (busHeld : Bool) (r : Run) (k : Stroke),
    s.runAt nib seq = some r →
    s.strokeOf r.req = some k →
    (r.launched || s.nowAt (islNib nib) < k.due * 256 || s.fld (F.NIB_STATUS_STATE nib) != 3) = false →
    ((s.lun r.lun).state = .unresponsive || (s.lun r.lun).retired) = true →
    exec (.strokeDueLine nib seq ofs busHeld) s = .next (s.endRun r 0x08 0)) ∧
  (∀ (s : State) (nib seq : Nat) (ofs : Int) (busHeld : Bool) (r : Run) (k : Stroke),
    s.runAt nib seq = some r →
    s.strokeOf r.req = some k →
    (r.launched || s.nowAt (islNib nib) < k.due * 256 || s.fld (F.NIB_STATUS_STATE nib) != 3) = false →
    ((s.lun r.lun).state = .unresponsive || (s.lun r.lun).retired) = false →
    s.modeForbids k = true →
    exec (.strokeDueLine nib seq ofs busHeld) s = .next (s.endRun r 0x0C 0)) ∧
  (∀ (s : State) (nib seq : Nat) (ofs : Int) (busHeld : Bool) (r : Run) (k : Stroke),
    s.runAt nib seq = some r →
    s.strokeOf r.req = some k →
    (r.launched || s.nowAt (islNib nib) < k.due * 256 || s.fld (F.NIB_STATUS_STATE nib) != 3) = false →
    ((s.lun r.lun).state = .unresponsive || (s.lun r.lun).retired) = false →
    s.modeForbids k = false →
    (k.writes && s.wpLow nib) = true →
    exec (.strokeDueLine nib seq ofs busHeld) s = .next (s.endRun r 0x0C 0)) ∧
  (∀ (s : State) (nib seq : Nat) (ofs : Int) (busHeld : Bool) (r : Run) (k : Stroke),
    s.runAt nib seq = some r →
    s.strokeOf r.req = some k →
    (r.launched || s.nowAt (islNib nib) < k.due * 256 || s.fld (F.NIB_STATUS_STATE nib) != 3) = false →
    ((s.lun r.lun).state = .unresponsive || (s.lun r.lun).retired) = false →
    s.modeForbids k = false →
    (k.writes && s.wpLow nib) = false →
    (k.due * 256 < r.accAt) = True →
    exec (.strokeDueLine nib seq ofs busHeld) s = .next (s.endRun r 0x04 0)) ∧
  (∀ (s : State) (nib seq : Nat) (ofs : Int) (busHeld : Bool) (r : Run) (k : Stroke),
    s.runAt nib seq = some r →
    s.strokeOf r.req = some k →
    (r.launched || s.nowAt (islNib nib) < k.due * 256 || s.fld (F.NIB_STATUS_STATE nib) != 3) = false →
    ((s.lun r.lun).state = .unresponsive || (s.lun r.lun).retired) = false →
    s.modeForbids k = false →
    (k.writes && s.wpLow nib) = false →
    (k.due * 256 < r.accAt) = False →
    s.lunBusyFor r k = true →
    exec (.strokeDueLine nib seq ofs busHeld) s = .next (s.endRun r 0x05 0)) ∧
  (∀ (s : State) (nib seq : Nat) (ofs : Int) (busHeld : Bool) (r : Run) (k : Stroke),
    s.runAt nib seq = some r →
    s.strokeOf r.req = some k →
    (r.launched || s.nowAt (islNib nib) < k.due * 256 || s.fld (F.NIB_STATUS_STATE nib) != 3) = false →
    ((s.lun r.lun).state = .unresponsive || (s.lun r.lun).retired) = false →
    s.modeForbids k = false →
    (k.writes && s.wpLow nib) = false →
    (k.due * 256 < r.accAt) = False →
    s.lunBusyFor r k = false →
    (busHeld || s.nib.runs.any (fun y => y.nib == nib && y.seq != seq && seqLater seq y.seq && ((s.strokeOf y.req).map (fun o => o.due == k.due)).getD false)) = true →
    exec (.strokeDueLine nib seq ofs busHeld) s = .next ((s.post (F.NIB_EVT_STATUS_BUS_CONFLICT nib) r.lun).endRun r 0x06 0)) ∧
  (∀ (s : State) (nib seq : Nat) (ofs : Int) (busHeld : Bool) (r : Run) (k : Stroke),
    s.runAt nib seq = some r →
    s.strokeOf r.req = some k →
    (r.launched || s.nowAt (islNib nib) < k.due * 256 || s.fld (F.NIB_STATUS_STATE nib) != 3) = false →
    ((s.lun r.lun).state = .unresponsive || (s.lun r.lun).retired) = false →
    s.modeForbids k = false →
    (k.writes && s.wpLow nib) = false →
    (k.due * 256 < r.accAt) = False →
    s.lunBusyFor r k = false →
    (busHeld || s.nib.runs.any (fun y => y.nib == nib && y.seq != seq && seqLater seq y.seq && ((s.strokeOf y.req).map (fun o => o.due == k.due)).getD false)) = false →
    exec (.strokeDueLine nib seq ofs busHeld) s = .next (s.launch r k ofs))

/-- A status poll and RB_N take the status byte; a stroke past its limit resets its LUN and sets TIMEOUT, a second one within the hour makes it unresponsive, a Scriptorium context takes a machine check instead; a LUN not ready after its reset is unresponsive; a transfer or a decoded codeword completes its stroke as its results say. Nothing else changes. Where the spec leaves a point open, it rests on the model's choices of log entries 3, 5, 7, 9, 29, 72, 81, 87, 88 and 106. -/
def Obligations.NibRuns : Prop :=
  (∀ (s : State) (lun sr : Nat),
    s.pollDue lun = true →
    s.pollRoom lun = true →
    exec (.statusPoll lun sr) s = .next (s.poll lun sr)) ∧
  (∀ (s : State) (lun sr : Nat),
    (s.pollDue lun && s.pollRoom lun) = false →
    exec (.statusPoll lun sr) s = .next s) ∧
  (∀ (s : State) (lun sr : Nat),
    exec (.rbNRise lun sr) s =
      .next (let s1 : State := { s with nib := { s.nib with rbHigh := (chanOf lun, true) :: s.nib.rbHigh.filter (fun e => e.1 != chanOf lun) } }
        if s1.pollRoom lun then s1.poll lun sr else s1)) ∧
  (∀ (s : State) (nib seq : Nat) (r : Run) (k : Stroke) (c : QCtx),
    s.runAt nib seq = some r →
    s.strokeOf r.req = some k →
    (!r.launched || r.ready || r.resetWait || r.busyAt (s.nowAt (islNib r.nib)) ≤ s.timeLimit k) = false →
    (s.nib.ctxs.find? (fun x => x.req == r.req && k.op == .script && x.hold != .svc 0) = some c) →
    exec (.strokeTimeout nib seq) s =
      .next (((s.post (F.NIB_EVT_STATUS_TIMEOUT nib) r.lun).updLun r.lun (fun x => { x with tmoCnt := min 255 (x.tmoCnt + 1), tmoAt := some s.now })).machineCheck nib 6 c.ctx ((c.queue.head?.map (fun f => f.addr)).getD 0))) ∧
  (∀ (s : State) (nib seq : Nat) (r : Run) (k : Stroke) (t : Nat),
    s.runAt nib seq = some r →
    s.strokeOf r.req = some k →
    (!r.launched || r.ready || r.resetWait || r.busyAt (s.nowAt (islNib r.nib)) ≤ s.timeLimit k) = false →
    (s.nib.ctxs.find? (fun x => x.req == r.req && k.op == .script && x.hold != .svc 0) = none) →
    (s.lun r.lun).tmoAt = some t →
    s.now ≤ t + 3600 * secT →
    exec (.strokeTimeout nib seq) s = .next (((s.post (F.NIB_EVT_STATUS_TIMEOUT nib) r.lun).updLun r.lun (fun x => { x with tmoCnt := min 255 (x.tmoCnt + 1), tmoAt := some s.now })).unresponsive r.lun).settle) ∧
  (∀ (s : State) (nib seq : Nat) (r : Run) (k : Stroke),
    s.runAt nib seq = some r →
    s.strokeOf r.req = some k →
    (!r.launched || r.ready || r.resetWait || r.busyAt (s.nowAt (islNib r.nib)) ≤ s.timeLimit k) = false →
    (s.nib.ctxs.find? (fun x => x.req == r.req && k.op == .script && x.hold != .svc 0) = none) →
    (s.lun r.lun).tmoAt = none →
    exec (.strokeTimeout nib seq) s =
      .next ((((s.post (F.NIB_EVT_STATUS_TIMEOUT nib) r.lun).updLun r.lun (fun x => { x with tmoCnt := min 255 (x.tmoCnt + 1), tmoAt := some s.now })).resetLun r.lun r.req).updRun nib seq (fun r => { r with resetWait := true, reset := true }))) ∧
  (∀ (s : State) (nib seq : Nat) (r : Run) (k : Stroke) (t : Nat),
    s.runAt nib seq = some r →
    s.strokeOf r.req = some k →
    (!r.launched || r.ready || r.resetWait || r.busyAt (s.nowAt (islNib r.nib)) ≤ s.timeLimit k) = false →
    (s.nib.ctxs.find? (fun x => x.req == r.req && k.op == .script && x.hold != .svc 0) = none) →
    (s.lun r.lun).tmoAt = some t →
    t + 3600 * secT < s.now →
    exec (.strokeTimeout nib seq) s =
      .next ((((s.post (F.NIB_EVT_STATUS_TIMEOUT nib) r.lun).updLun r.lun (fun x => { x with tmoCnt := min 255 (x.tmoCnt + 1), tmoAt := some s.now })).resetLun r.lun r.req).updRun nib seq (fun r => { r with resetWait := true, reset := true }))) ∧
  (∀ (s : State) (lun : Nat),
    (s.lun lun).state = .resetting →
    (s.lun lun).resetAt + s.fld (F.NIB_TMO_RST_US (chanOf lun)) * usT ≤ s.now →
    exec (.resetWaitTimeout lun) s = .next (s.unresponsive lun).settle) ∧
  (∀ (s : State) (nib seq data : Nat) (cell : CellErr) (r : Run) (k : Stroke),
    s.runAt nib seq = some r →
    s.strokeOf r.req = some k →
    r.launched = true →
    k.op = .program →
    (s.trimsDue k && data % 2 ^ 32 != s.reg (F.NIB_PTRIM_P1_P4 nib r.rband).key) = true →
    exec (.busTransferDone nib seq data cell) s = 
      .next (((s.cellErr cell).post (F.NIB_EVT_STATUS_PTRIM_FAIL nib) r.lun).endRun r 0x0E 0)) ∧
  (∀ (s : State) (nib seq data c : Nat) (r : Run) (k : Stroke),
    s.runAt nib seq = some r →
    s.strokeOf r.req = some k →
    r.launched = true →
    k.op = .program →
    (s.trimsDue k && data % 2 ^ 32 != s.reg (F.NIB_PTRIM_P1_P4 nib r.rband).key) = false →
    exec (.busTransferDone nib seq data (.ue c)) s =
      .next ((((s.cellErr (.ue c)).post (F.NIB_EVT_STATUS_SRC_ERR nib) r.lun).resetLun r.lun r.req).endRun r 0x0D 0)) ∧
  (∀ (s : State) (nib seq data : Nat) (cell : CellErr) (r : Run) (k : Stroke),
    s.runAt nib seq = some r →
    s.strokeOf r.req = some k →
    r.launched = true →
    k.op = .program →
    (s.trimsDue k && data % 2 ^ 32 != s.reg (F.NIB_PTRIM_P1_P4 nib r.rband).key) = false →
    cell.isLost = false →
    exec (.busTransferDone nib seq data cell) s = 
      .next (((s.cellErr cell).updRun nib seq (fun r => { r with xfer := true })).updLun r.lun (fun x => { x with pgmBand := some r.rband }))) ∧
  (∀ (s : State) (nib seq data : Nat) (cell : CellErr) (r : Run) (k : Stroke),
    s.runAt nib seq = some r →
    s.strokeOf r.req = some k →
    r.launched = true →
    k.op = .feature →
    exec (.busTransferDone nib seq data cell) s = 
      .next (if r.ready then (s.cellErr cell).endRun { r with xfer := true } 0x00 (data % 2 ^ 32)
        else (s.cellErr cell).updRun nib seq (fun r => { r with xfer := true, result := data % 2 ^ 32 }))) ∧
  (∀ (s : State) (nib seq data : Nat) (cell : CellErr) (r : Run) (k : Stroke),
    s.runAt nib seq = some r →
    s.strokeOf r.req = some k →
    r.launched = true →
    k.op = .script →
    exec (.busTransferDone nib seq data cell) s = 
      .next { s.cellErr cell with nib := { (s.cellErr cell).nib with
        ctxs := updWhere (fun x => x.req == r.req) (fun x => { x with xbusy := false }) (s.cellErr cell).nib.ctxs } }) ∧
  (∀ (s : State) (nib seq data : Nat) (cell : CellErr) (r : Run) (k : Stroke),
    s.runAt nib seq = some r →
    s.strokeOf r.req = some k →
    r.launched = true →
    k.op = .read ∨ k.op = .readSoft →
    exec (.busTransferDone nib seq data cell) s = 
      .next ((s.cellErr cell).updRun nib seq (fun r => { r with xfer := true }))) ∧
  (∀ (s : State) (nib seq : Nat) (ok : Bool) (bits unsat : Nat) (mis : Bool) (pband : Nat) (r : Run) (k : Stroke),
    s.runAt nib seq = some r →
    s.strokeOf r.req = some k →
    k.op ≠ .script →
    (r.cwLeft = 0 || !r.ready || !r.xfer) = false →
    exec (.codewordDecodeDone nib seq ok bits unsat mis pband) s =
      .next (let r' := r.decoded ok bits unsat mis pband
        if r'.cwLeft = 0 then (s.updRun nib seq (fun _ => r')).endRun r' (if r'.bad then 0x01 else 0x00) r'.result
        else s.updRun nib seq (fun _ => r'))) ∧
  (∀ (s : State) (nib seq : Nat) (ok : Bool) (bits unsat : Nat) (mis : Bool) (pband : Nat) (r : Run) (k : Stroke) (x : QCtx),
    s.runAt nib seq = some r →
    s.strokeOf r.req = some k →
    k.op = .script →
    (s.nib.ctxs.find? (fun x => x.req == r.req) = some x) →
    0 < x.decoding →
    exec (.codewordDecodeDone nib seq ok bits unsat mis pband) s =
      .next (let y : QCtx := { x with decoding := x.decoding - 1, dpass := x.dpass && ok }
        let t := (s.updRun nib seq (fun r => r.decoded ok bits unsat mis pband)).setCtx y
        if y.decoding = 0 && y.hold = .svc 1 then t.serviceReturn { y with xbusy := false } none else t))

/-- A temperature read asks each serving LUN, or with no feature address holds every LUN at band 2 and sets TEMP_STALE once; ten seconds without a reading takes the highest band of the others; a due retraining reserves 50 µs of the bus; a failing decoder masks its Nib; a restarted Nib is back in service and its bad targets are unresponsive. Where the spec leaves a point open, it rests on the model's choices of log entries 5, 72, 81 and 87. -/
def Obligations.NibUpkeep : Prop :=
  (∀ (s : State) (nib : Nat),
    (s.mode = .off || s.mode = .doze || s.mode = .holdUp || s.nibMasked nib) = false →
    (match s.nib.tempAsked.lookup nib with | some t => decide (s.nowAt (islNib nib) < t + s.fld (F.NIB_TEMP_PERIOD nib) * msT) | none => false) = false →
    s.fld (F.NIB_TEMP_FADDR nib) = 0 →
    exec (.nibTempRead nib) s =
      .next (let u : State := { s with nib := { s.nib with tempAsked := (nib, s.nowAt (islNib nib)) :: s.nib.tempAsked.filter (fun e => e.1 != nib) } }
        let t := (u.lunsOf nib).foldl (fun (s : State) x => s.setBand x.lun 2) u
        if s.nib.noTemp.contains nib then t
        else ({ t with nib := { t.nib with noTemp := nib :: t.nib.noTemp } } : State).post (F.NIB_EVT_STATUS_TEMP_STALE nib) nib)) ∧
  (∀ (s : State) (nib : Nat),
    (s.mode = .off || s.mode = .doze || s.mode = .holdUp || s.nibMasked nib) = false →
    (match s.nib.tempAsked.lookup nib with | some t => decide (s.nowAt (islNib nib) < t + s.fld (F.NIB_TEMP_PERIOD nib) * msT) | none => false) = false →
    s.fld (F.NIB_TEMP_FADDR nib) ≠ 0 →
    exec (.nibTempRead nib) s =
      .next (let u : State := { s with nib := { s.nib with tempAsked := (nib, s.nowAt (islNib nib)) :: s.nib.tempAsked.filter (fun e => e.1 != nib) } }
        ((u.lunsOf nib).filter (fun x => s.lunServes x.lun)).foldl (fun (s : State) x =>
          s.newStroke (mkStroke .feature 4 x.lun false .temp)) u)) ∧
  (∀ (s : State) (lun : Nat),
    ((s.lun lun).state = .notPresent || s.now < (s.lun lun).tempAt + 10 * secT || s.mode = .off || s.mode = .doze || s.fld (F.NIB_TEMP_FADDR (chanOf lun)) = 0) = false →
    exec (.tempStaleTimeout lun) s =
      .next (let others := (s.lunsOf (chanOf lun)).filter (fun y => y.lun != lun)
        let t := s.updLun lun (fun x => { x with tempValid := false })
        (if others.isEmpty then t else t.setBand lun (others.foldl (fun m y => max m y.rband) 0)).post
          (F.NIB_EVT_STATUS_TEMP_STALE (chanOf lun)) lun)) ∧
  (∀ (s : State) (nib : Nat),
    (s.nib.train.contains nib || (s.fld (F.NIB_TRAIN_PERIOD_S nib) != 0 && ((s.nib.trained.lookup nib).getD 0) + s.fld (F.NIB_TRAIN_PERIOD_S nib) * secT ≤ s.now)) = true →
    (s.fld (F.NIB_STATUS_STATE nib) != 3 || s.mode = .off || s.mode = .doze || s.mode = .holdUp) = false →
    exec (.nibRetrain nib) s =
      .next (let x := s.firstIdle nib 8192 s.leadLine
        let t : State := { s with nib := { s.nib with
          train := s.nib.train.filter (· != nib)
          trained := (nib, s.now) :: s.nib.trained.filter (fun e => e.1 != nib)
          resv := (nib, x, x + 50000) :: s.nib.resv.filter (fun e => s.now / 256 < e.2.2) } }
        t.setFld (F.NIB_CTRL_RETRAIN nib) 0)) ∧
  (∀ (s : State) (nib : Nat),
    s.mode ≠ .off →
    nib < 48 →
    exec (.nibCtrlRetrain nib) s = .next ((s.setFld (F.NIB_CTRL_RETRAIN nib) 1).trainDue nib)) ∧
  (∀ (s : State) (nib : Nat),
    s.mode ≠ .off →
    s.mode ≠ .doze →
    exec (.decoderKat nib false) s = .next (s.maskNib nib).settle) ∧
  (∀ (s : State) (nib : Nat),
    exec (.decoderKat nib true) s = .next s) ∧
  (∀ (s : State) (nib addr : Nat) (bad : Bool),
    (s.mode = .off || s.mode = .doze || !s.flag (F.NIB_Q_CTRL_SCRUB_EN nib) || s.nibMasked nib) = false →
    exec (.quillScrubRead nib addr bad) s = .next (if bad then s.machineCheck nib 7 0 addr else s)) ∧
  (∀ (s : State) (nib : Nat) (badTargets : List Nat),
    s.fld (F.NIB_STATUS_STATE nib) = 5 →
    exec (.nibRestartComplete nib badTargets) s =
      .next (let t : State := { s with nib := { s.nib with
          luns := updWhere (fun x => chanOf x.lun == nib && x.state == .resetting) (fun x => { x with state := .idle }) s.nib.luns } }
        let u := (t.setFld (F.NIB_STATUS_STATE nib) 3).post (F.NIB_Q_EVT_STATUS_RESTART nib) nib
        ((((u.lunsOf nib).filter (fun x => badTargets.contains (targetOf x.lun) && x.state == .idle)).map (fun x => x.lun)).foldl
          State.unresponsive u).settle))

/-- The context that issues on a Nib, of those with a word ready, executes the nanoword of its head microword and then its sequencing: NEXT, JUMP, BR, BRN, RET and a CALL into the Scriptorium go on behind the word; LOOP counts LC down, LDLC loads it, WAIT and WLINE hold the context, a service CALL holds for its service, SCRIBE writes the word at TGT or S1, and DONE ends the stroke with the nanoword's STAT. A word that is refused raises its machine check instead. Where the spec leaves a point open, it rests on the model's choices of log entries 9, 46, 76, 81 and 88. -/
def Obligations.QuillWords : Prop :=
  (∀ (s : State) (nib ctx : Nat) (q : QIn) (x : QCtx) (f : Fetched) (rest : List Fetched),
    s.issues nib = some x →
    x.queue = f :: rest →
    x.ctx = ctx →
    mMop f.micro = 0 →
    (s.tookTurn nib ctx).badWord x f = none →
    exec (.next nib ctx q) s =
      .next (let x1 := ((s.tookTurn nib ctx).nanoExec x f.nano q.sr).2
        let s1 := ((s.tookTurn nib ctx).nanoExec x f.nano q.sr).1.setCtx x1
        s1.advance x1 q.par)) ∧
  (∀ (s : State) (nib ctx : Nat) (q : QIn) (x : QCtx) (f : Fetched) (rest : List Fetched),
    s.issues nib = some x →
    x.queue = f :: rest →
    x.ctx = ctx →
    mMop f.micro = 1 →
    (s.tookTurn nib ctx).badWord x f = none →
    exec (.jump nib ctx q) s =
      .next (let x1 := ((s.tookTurn nib ctx).nanoExec x f.nano q.sr).2
        let s1 := ((s.tookTurn nib ctx).nanoExec x f.nano q.sr).1.setCtx x1
        s1.advance x1 q.par)) ∧
  (∀ (s : State) (nib ctx : Nat) (q : QIn) (x : QCtx) (f : Fetched) (rest : List Fetched),
    s.issues nib = some x →
    x.queue = f :: rest →
    x.ctx = ctx →
    mMop f.micro = 2 →
    (s.tookTurn nib ctx).badWord x f = none →
    exec (.br nib ctx q) s =
      .next (let x1 := ((s.tookTurn nib ctx).nanoExec x f.nano q.sr).2
        let s1 := ((s.tookTurn nib ctx).nanoExec x f.nano q.sr).1.setCtx x1
        s1.advance x1 q.par)) ∧
  (∀ (s : State) (nib ctx : Nat) (q : QIn) (x : QCtx) (f : Fetched) (rest : List Fetched),
    s.issues nib = some x →
    x.queue = f :: rest →
    x.ctx = ctx →
    mMop f.micro = 3 →
    (s.tookTurn nib ctx).badWord x f = none →
    exec (.brn nib ctx q) s =
      .next (let x1 := ((s.tookTurn nib ctx).nanoExec x f.nano q.sr).2
        let s1 := ((s.tookTurn nib ctx).nanoExec x f.nano q.sr).1.setCtx x1
        s1.advance x1 q.par)) ∧
  (∀ (s : State) (nib ctx : Nat) (q : QIn) (x : QCtx) (f : Fetched) (rest : List Fetched),
    s.issues nib = some x →
    x.queue = f :: rest →
    x.ctx = ctx →
    mMop f.micro = 5 →
    (s.tookTurn nib ctx).badWord x f = none →
    exec (.ret nib ctx q) s =
      .next (let x1 := ((s.tookTurn nib ctx).nanoExec x f.nano q.sr).2
        let s1 := ((s.tookTurn nib ctx).nanoExec x f.nano q.sr).1.setCtx x1
        s1.advance x1 q.par)) ∧
  (∀ (s : State) (nib ctx : Nat) (q : QIn) (x : QCtx) (f : Fetched) (rest : List Fetched),
    s.issues nib = some x →
    x.queue = f :: rest →
    x.ctx = ctx →
    mMop f.micro = 6 →
    (s.tookTurn nib ctx).badWord x f = none →
    exec (.loop nib ctx q) s =
      .next (let x1 := ((s.tookTurn nib ctx).nanoExec x f.nano q.sr).2
        let s1 := ((s.tookTurn nib ctx).nanoExec x f.nano q.sr).1.setCtx x1
        s1.advance { x1 with lc := (x1.lc + 8191) % 8192 } q.par)) ∧
  (∀ (s : State) (nib ctx : Nat) (q : QIn) (x : QCtx) (f : Fetched) (rest : List Fetched),
    s.issues nib = some x →
    x.queue = f :: rest →
    x.ctx = ctx →
    mMop f.micro = 7 →
    (s.tookTurn nib ctx).badWord x f = none →
    exec (.ldlc nib ctx q) s =
      .next (let x1 := ((s.tookTurn nib ctx).nanoExec x f.nano q.sr).2
        let s1 := ((s.tookTurn nib ctx).nanoExec x f.nano q.sr).1.setCtx x1
        s1.advance { x1 with lc := mTgt f.micro } q.par)) ∧
  (∀ (s : State) (nib ctx : Nat) (q : QIn) (x : QCtx) (f : Fetched) (rest : List Fetched),
    s.issues nib = some x →
    x.queue = f :: rest →
    x.ctx = ctx →
    mMop f.micro = 8 →
    (s.tookTurn nib ctx).badWord x f = none →
    exec (.wait nib ctx q) s =
      .next (let x1 := ((s.tookTurn nib ctx).nanoExec x f.nano q.sr).2
        let s1 := ((s.tookTurn nib ctx).nanoExec x f.nano q.sr).1.setCtx x1
        s1.setCtx { x1 with hold := .wait (mCond f.micro) })) ∧
  (∀ (s : State) (nib ctx : Nat) (q : QIn) (x : QCtx) (f : Fetched) (rest : List Fetched),
    s.issues nib = some x →
    x.queue = f :: rest →
    x.ctx = ctx →
    mMop f.micro = 9 →
    (s.tookTurn nib ctx).badWord x f = none →
    exec (.wline nib ctx q) s =
      .next (let x1 := ((s.tookTurn nib ctx).nanoExec x f.nano q.sr).2
        let s1 := ((s.tookTurn nib ctx).nanoExec x f.nano q.sr).1.setCtx x1
        s1.setCtx { x1 with hold := .wline (s1.rul.lineIdx + mTgt f.micro) })) ∧
  (∀ (s : State) (nib ctx : Nat) (q : QIn) (x : QCtx) (f : Fetched) (rest : List Fetched),
    s.issues nib = some x →
    x.queue = f :: rest →
    x.ctx = ctx →
    mMop f.micro = 4 →
    (s.tookTurn nib ctx).badWord x f = none →
    inScr (mTgt f.micro) = true →
    exec (.call nib ctx q) s =
      .next (let x1 := ((s.tookTurn nib ctx).nanoExec x f.nano q.sr).2
        let s1 := ((s.tookTurn nib ctx).nanoExec x f.nano q.sr).1.setCtx x1
        s1.advance x1 q.par)) ∧
  (∀ (s : State) (nib ctx : Nat) (q : QIn) (x : QCtx) (f : Fetched) (rest : List Fetched),
    s.issues nib = some x →
    x.queue = f :: rest →
    x.ctx = ctx →
    mMop f.micro = 4 →
    (s.tookTurn nib ctx).badWord x f = none →
    inScr (mTgt f.micro) = false →
    mTgt f.micro = 0 →
    exec (.call nib ctx q) s =
      .next (let x1 := ((s.tookTurn nib ctx).nanoExec x f.nano q.sr).2
        let s1 := ((s.tookTurn nib ctx).nanoExec x f.nano q.sr).1.setCtx x1
        s1.setCtx { x1 with queue := [f], hold := .svc 0 })) ∧
  (∀ (s : State) (nib ctx : Nat) (q : QIn) (x : QCtx) (f : Fetched) (rest : List Fetched),
    s.issues nib = some x →
    x.queue = f :: rest →
    x.ctx = ctx →
    mMop f.micro = 4 →
    (s.tookTurn nib ctx).badWord x f = none →
    inScr (mTgt f.micro) = false →
    mTgt f.micro = 1 →
    exec (.call nib ctx q) s =
      .next (let x1 := ((s.tookTurn nib ctx).nanoExec x f.nano q.sr).2
        let s1 := ((s.tookTurn nib ctx).nanoExec x f.nano q.sr).1.setCtx x1
        s1.setCtx { x1 with queue := [f], hold := .svc 1, xbusy := true, decoding := ((s1.strokeOf x1.req).map Stroke.codewords).getD 1 })) ∧
  (∀ (s : State) (nib ctx : Nat) (q : QIn) (x : QCtx) (f : Fetched) (rest : List Fetched),
    s.issues nib = some x →
    x.queue = f :: rest →
    x.ctx = ctx →
    mMop f.micro = 4 →
    (s.tookTurn nib ctx).badWord x f = none →
    inScr (mTgt f.micro) = false →
    mTgt f.micro = 2 →
    exec (.call nib ctx q) s =
      .next (let x1 := ((s.tookTurn nib ctx).nanoExec x f.nano q.sr).2
        let s1 := ((s.tookTurn nib ctx).nanoExec x f.nano q.sr).1.setCtx x1
        s1.setCtx { x1 with queue := [f], hold := .svc 2 })) ∧
  (∀ (s : State) (nib ctx : Nat) (q : QIn) (x : QCtx) (f : Fetched) (rest : List Fetched),
    s.issues nib = some x →
    x.queue = f :: rest →
    x.ctx = ctx →
    mMop f.micro = 4 →
    (s.tookTurn nib ctx).badWord x f = none →
    inScr (mTgt f.micro) = false →
    2 < mTgt f.micro →
    exec (.call nib ctx q) s =
      .next (let x1 := ((s.tookTurn nib ctx).nanoExec x f.nano q.sr).2
        let s1 := ((s.tookTurn nib ctx).nanoExec x f.nano q.sr).1.setCtx x1
        s1.serviceReturn x1 none)) ∧
  (∀ (s : State) (nib ctx : Nat) (q : QIn) (x : QCtx) (f : Fetched) (rest : List Fetched),
    s.issues nib = some x →
    x.queue = f :: rest →
    x.ctx = ctx →
    mMop f.micro = 10 →
    (s.tookTurn nib ctx).badWord x f = none →
    exec (.scribe nib ctx q) s =
      .next (let x1 := ((s.tookTurn nib ctx).nanoExec x f.nano q.sr).2
        let s1 := ((s.tookTurn nib ctx).nanoExec x f.nano q.sr).1.setCtx x1
        ({ s1 with nib := { s1.nib with
        scribed := ((nib, if mCond f.micro = 0 then mTgt f.micro else x1.s.getD 1 0 % 2 ^ 13), x1.s.getD 0 0) ::
          s1.nib.scribed.filter (fun e => e.1 != (nib, if mCond f.micro = 0 then mTgt f.micro else x1.s.getD 1 0 % 2 ^ 13)) } }).advance x1 q.par)) ∧
  (∀ (s : State) (nib ctx : Nat) (x : QCtx) (f : Fetched) (rest : List Fetched) (r : Run) (k : Stroke),
    s.issues nib = some x →
    x.queue = f :: rest →
    x.ctx = ctx →
    mMop f.micro = 11 →
    (s.tookTurn nib ctx).badWord x f = none →
    (((s.tookTurn nib ctx).nanoExec x f.nano 0).1.setCtx ((s.tookTurn nib ctx).nanoExec x f.nano 0).2).nib.runs.find? (fun r => r.nib == ((s.tookTurn nib ctx).nanoExec x f.nano 0).2.nib && r.req == ((s.tookTurn nib ctx).nanoExec x f.nano 0).2.req) = some r →
    (((s.tookTurn nib ctx).nanoExec x f.nano 0).1.setCtx ((s.tookTurn nib ctx).nanoExec x f.nano 0).2).strokeOf ((s.tookTurn nib ctx).nanoExec x f.nano 0).2.req = some k →
    exec (.done nib ctx) s =
      .next (let s1 := ((s.tookTurn nib ctx).nanoExec x f.nano 0).1.setCtx ((s.tookTurn nib ctx).nanoExec x f.nano 0).2
        if k.writes && (bitsOf f.nano 54 4 = 0 || bitsOf f.nano 54 4 = 3)
        then s1.endErase { r with ready := true, readyAt := s1.nowAt (islNib r.nib) } k (bitsOf f.nano 54 4 == 3)
        else s1.endRun { r with ready := true, readyAt := s1.nowAt (islNib r.nib) } (bitsOf f.nano 54 4) r.result)) ∧
  (∀ (s : State) (nib ctx cause : Nat) (q : QIn) (x : QCtx) (f : Fetched) (rest : List Fetched),
    s.issues nib = some x →
    x.queue = f :: rest →
    x.ctx = ctx →
    (s.tookTurn nib ctx).badWord x f = some cause →
    (mMop f.micro = 0 → exec (.next nib ctx q) s = .next ((s.tookTurn nib ctx).machineCheck nib cause ctx f.addr)) ∧
      (mMop f.micro = 1 → exec (.jump nib ctx q) s = .next ((s.tookTurn nib ctx).machineCheck nib cause ctx f.addr)) ∧
      (mMop f.micro = 2 → exec (.br nib ctx q) s = .next ((s.tookTurn nib ctx).machineCheck nib cause ctx f.addr)) ∧
      (mMop f.micro = 3 → exec (.brn nib ctx q) s = .next ((s.tookTurn nib ctx).machineCheck nib cause ctx f.addr)) ∧
      (mMop f.micro = 4 → exec (.call nib ctx q) s = .next ((s.tookTurn nib ctx).machineCheck nib cause ctx f.addr)) ∧
      (mMop f.micro = 5 → exec (.ret nib ctx q) s = .next ((s.tookTurn nib ctx).machineCheck nib cause ctx f.addr)) ∧
      (mMop f.micro = 6 → exec (.loop nib ctx q) s = .next ((s.tookTurn nib ctx).machineCheck nib cause ctx f.addr)) ∧
      (mMop f.micro = 7 → exec (.ldlc nib ctx q) s = .next ((s.tookTurn nib ctx).machineCheck nib cause ctx f.addr)) ∧
      (mMop f.micro = 8 → exec (.wait nib ctx q) s = .next ((s.tookTurn nib ctx).machineCheck nib cause ctx f.addr)) ∧
      (mMop f.micro = 9 → exec (.wline nib ctx q) s = .next ((s.tookTurn nib ctx).machineCheck nib cause ctx f.addr)) ∧
      (mMop f.micro = 10 → exec (.scribe nib ctx q) s = .next ((s.tookTurn nib ctx).machineCheck nib cause ctx f.addr)) ∧
      (mMop f.micro = 11 → exec (.done nib ctx) s = .next ((s.tookTurn nib ctx).machineCheck nib cause ctx f.addr))) ∧
  (∀ (s : State) (nib ctx c : Nat) (x : QCtx),
    s.ctxAt nib ctx = some x →
    x.hold = .wait c →
    x.abort = true →
    exec (.waitRelease nib ctx) s = .next (s.abandon x)) ∧
  (∀ (s : State) (nib ctx c : Nat) (x : QCtx),
    s.ctxAt nib ctx = some x →
    x.hold = .wait c →
    x.abort = false →
    s.cond x c = true →
    exec (.waitRelease nib ctx) s = .next (s.advance x .ok)) ∧
  (∀ (s : State) (nib ctx c : Nat) (x : QCtx),
    s.ctxAt nib ctx = some x →
    x.hold = .wline c →
    x.abort = true →
    exec (.wlineRelease nib ctx) s = .next (s.abandon x)) ∧
  (∀ (s : State) (nib ctx c : Nat) (x : QCtx),
    s.ctxAt nib ctx = some x →
    x.hold = .wline c →
    x.abort = false →
    c ≤ s.rul.lineIdx →
    exec (.wlineRelease nib ctx) s = .next (s.advance x .ok)) ∧
  (∀ (s : State) (nib ctx : Nat) (x : QCtx),
    s.ctxAt nib ctx = some x →
    x.tmRun = true →
    x.tm ≤ s.nowAt (islNib nib) →
    exec (.tmExpire nib ctx) s = .next (s.setCtx { x with tm := 0, tmRun := false })) ∧
  (∀ (s : State) (nib seq : Nat) (par : Par) (r : Run) (k : Stroke),
    s.runAt nib seq = some r →
    s.strokeOf r.req = some k →
    (k.op = .suspend || k.op = .resume || s.nowAt (islNib r.nib) + 64 * nsT < k.due * 256 || s.nib.ctxs.any (fun x => x.req == r.req) || s.fld (F.NIB_STATUS_STATE nib) != 3) = false →
    exec (.quillContextStart nib seq par) s =
      .next (let x := s.newCtx r k
        let t := ({ s with nib := { s.nib with ctxs := s.nib.ctxs ++ [x] } }).updStroke k.req (fun k => { k with ctx := some x.ctx })
        if k.op = .script then t.stored x (t.fillQueue 3 x (some (t.entryOf k)) par) else t))

/-- Training settles a port at a rate and width up to its targets, and reports where it falls short; a degraded idle port retrains each RETRY_MIN; PERST_N, a hot reset and a link loss take the port away; a function-level reset ends its controllers; an NVM Subsystem Reset is one of all; the configured functions have controllers. A port that is not there changes nothing. Where the spec leaves a point open, it rests on the model's choices of log entries 5, 35, 37, 59, 72, 80, 84, 87 and 100. -/
def Obligations.LinkAndResets : Prop :=
  (∀ (s : State) (port rate width faulty : Nat) (flit : Bool),
    (!s.hasPort port || !((s.hp.ports[port]?).map (fun p => p.training)).getD false || s.mode = .off || s.mode = .holdUp) = false →
    exec (.linkTrainingComplete port rate width faulty flit) s =
      .next (let r := max 1 (min rate (s.fld (F.HP_LINK_CFG_TGT_SPEED port)))
        let w := widthOf (s.flag F.HP_CFG_DUAL) width
        let a := s.updPort port (fun p => { p with training := false, settled := (r, w) })
        let b := ((a.setReg (F.HP_LINK_STATUS_UP port).key 0).setFld (F.HP_LINK_STATUS_UP port) 1).setFld (F.HP_LINK_STATUS_SPEED port) r
        let c := ((b.setFld (F.HP_LINK_STATUS_WIDTH port) w).setFld (F.HP_LINK_STATUS_FLIT port) (bit (flit || 6 ≤ r))).setFld (F.HP_LINK_STATUS_LANE_FAULT port) faulty
        let d := if r < s.fld (F.HP_LINK_CFG_TGT_SPEED port) then c.post F.HP_EVT_STATUS_SPEED_DEGR port else c
        (if w < s.fld (F.HP_LINK_CFG_TGT_WIDTH port) then d.post F.HP_EVT_STATUS_WIDTH_DEGR port else d).settle)) ∧
  (∀ (s : State) (port : Nat) (p : Port),
    s.hp.ports[port]? = some p →
    s.hasPort port = true →
    s.fld (F.HP_LINK_CFG_RETRY_MIN port) ≠ 0 →
    s.portBelow port = true →
    s.portBusy port = false →
    p.tried + s.fld (F.HP_LINK_CFG_RETRY_MIN port) * 60 * secT ≤ s.now →
    exec (.linkRetrainTimer port) s =
      .next ((s.updPort port (fun p => { p with tried := s.now })).train port)) ∧
  (∀ (s : State) (port : Nat),
    s.hasPort port = true →
    s.flag (F.HP_LINK_STATUS_UP port) = true →
    exec (.retrainLink port) s = .next ((s.wakeEvent 6).train port)) ∧
  (∀ (s : State) (port : Nat),
    s.hasPort port = true →
    s.flag (F.HP_LINK_STATUS_UP port) = true →
    exec (.hotReset port) s = .next (((s.wakeEvent 6).portGone port true).train port) ∧ exec (.linkDown port) s = .next ((s.portGone port true).train port)) ∧
  (∀ (s : State) (port : Nat) (p : Port),
    s.hp.ports[port]? = some p →
    p.perst = false →
    s.mode ≠ .off →
    s.hasPort port = true →
    exec (.perstAssert port) s =
      .next ((((s.wakeEvent 7).updPort port (fun x => { x with perst := true })).portGone port false).post
        (if port = 0 then F.HP_EVT_STATUS_PERST0 else F.HP_EVT_STATUS_PERST1) port)) ∧
  (∀ (s : State) (port : Nat) (p : Port),
    s.hp.ports[port]? = some p →
    s.mode = .off ∨ s.hasPort port = false →
    exec (.perstAssert port) s = .next (s.updPort port (fun x => { x with perst := true }))) ∧
  (∀ (s : State) (port : Nat) (strap : Bool),
    s.mode = .off ∨ s.mode = .holdUp →
    s.hp.sampled = true →
    exec (.perstDeassert port strap) s = .next (s.updPort port (fun x => { x with perst := false }))) ∧
  (∀ (s : State) (port : Nat) (strap : Bool),
    (s.mode = .off || s.mode = .holdUp) = false →
    s.hp.sampled = true →
    exec (.perstDeassert port strap) s =
      .next (let t := s.updPort port (fun x => { x with perst := false })
        (if t.hasPort port then t.wakeEvent 7 else t).trainPorts)) ∧
  (∀ (s : State) (strap : Bool),
    s.mode = .boot →
    s.hp.sampled = false →
    exec (.perstDeassert 0 strap) s =
      .next (let a := s.updPort 0 (fun x => { x with perst := false })
        let b : State := { a with hp := { a.hp with strap := strap } }
        let t := b.sampleStrap
        (if t.hasPort 0 then t.wakeEvent 7 else t).trainPorts)) ∧
  (∀ (s : State) (fn : Nat),
    (s.qe.ctrls.any (fun c => c.id == fn) = true) →
    s.mode ≠ .off →
    exec (.functionLevelReset fn) s =
      .next (let cs := if fn < 2 then s.ofPf fn else [fn]
        let t := ((s.wakeEvent 6).endCtrls cs).resetCfg cs true
        { t with hp := { t.hp with flr := cs ++ t.hp.flr.filter (fun f => !cs.contains f) } })) ∧
  (∀ (s : State) (env : BootEnv),
    exec (.nvmSubsystemReset env) s = .next (s.nvmReset env)) ∧
  (∀ (s : State) (port : Nat) (cfg : CfgSpace),
    (!s.hasPort port || !s.flag (F.HP_LINK_STATUS_UP port) || ((s.hp.ports[port]?).map (fun p => p.training)).getD true) = false →
    exec (.configSpaceReady port cfg) s =
      .next (let ids := s.configurable port cfg
        let pfs := ids.filter (· < 2)
        let n (pf : Nat) : Nat := if pfs.contains pf then min (s.totalVfs pf) (if pf = 0 then cfg.vfs0 else cfg.vfs1) else s.hp.vfs.getD pf 0
        let out (i : Nat) : Bool := !ids.contains i
        { s with
          qe := { s.qe with ctrls := s.qe.ctrls ++ (ids.filter (fun i => !s.qe.ctrls.any (fun c => c.id == i))).map (fun i => ({ id := i } : Ctrl)) }
          hp := { s.hp with
            ports := s.hp.ports.modify port (fun p => { p with cfg := true })
            vfs := [n 0, n 1]
            flr := s.hp.flr.filter out
            fns := cfg.fns.filter (fun c => ids.contains c.fn) ++ s.hp.fns.filter (fun c => out c.fn)
            ats := s.hp.ats.filter out ++ (if cfg.ats then ids else [])
            msix := s.hp.msix.filter out ++ (if cfg.msix then ids else [])
            msi := s.hp.msi.filter out ++ (if cfg.msi then pfs else [])
            ptm := if ids.contains (if s.flag F.HP_CFG_DUAL then port else 0) then s.hp.ptm.filter (· != port) ++ (if cfg.ptm then [port] else []) else s.hp.ptm } }))

/-- A memory read's answer goes to the access that waits for it, with what the port has detected, and one that is late fails after being logged; an Invalidate Request drops the covered translations and is answered, oldest first, once its reads have ended; a translation fills the cache and lets the accesses that wait for it go on, but is asked for again where an invalidation covers it, and refuses the accesses where it leads to the WY48's own BARs; L0p sets the width in use; D3hot holds a function until it leaves; a mask bit that the host writes is kept, and what is pending behind a cleared one is sent; DOE objects are answered, left busy, or discarded. Everything else is unchanged. Where the spec leaves a point open, it rests on the model's choices of log entries 5, 37, 58, 59, 72, 75, 84 and 98. -/
def Obligations.HostTransfers : Prop :=
  (∀ (s : State) (what : MemRead) (res : MemIn),
    s.mode ≠ .off →
    s.mode ≠ .holdUp →
    exec (.memoryReadCompletion what res) s =
      .next (((s.wakeEvent 6).linkNews (fnOfRead what) res).memRead what res.res res.metas)) ∧
  (∀ (s : State) (what : MemRead),
    s.mode ≠ .off →
    s.mode ≠ .holdUp →
    s.readLate what = true →
    exec (.completionTimeout what) s =
      .next ((s.aerPost (fnOfRead what) .completionTimeout).memRead what .fail [])) ∧
  (∀ (s : State) (port itag fn lo n : Nat) (waits : List (Ref × Nat)),
    (!s.hasPort port || s.mode = .off || s.mode = .holdUp) = false →
    exec (.invalidateRequest port itag fn lo n waits) s =
      .next (let t := s.wakeEvent 6
        let w := t.covered port fn lo n waits
        let v : Inval := { port := port, itag := itag, fn := fn, lo := lo, n := n, at_ := s.now, waits := w, step2 := if w.isEmpty then some s.now else none }
        { t with hp := { t.hp with
          atc := t.hp.atc.filter (fun x => !(x.port == port && x.fn == fn && lo ≤ x.page && x.page < lo + n)), invals := t.hp.invals ++ [v] } })) ∧
  (∀ (s : State) (port : Nat) (v : Inval),
    s.mode ≠ .off →
    (s.invalsOpen port).find? (fun v => v.step2.isSome) = some v →
    exec (.invalidateCompletion port) s =
      .next (let t := ({ s with hp := { s.hp with
          invals := s.hp.invals.modify (s.hp.invals.findIdx (· == v)) (fun v => { v with sent := true }) } }).emit (.invalidated port v.itag)
        if v.step2.getD 0 + 100 * usT < s.now then t.post F.HP_EVT_STATUS_INV_LATE port else t)) ∧
  (∀ (s : State) (port fn page xlat issued : Nat),
    s.mode ≠ .off →
    s.hp.ats.contains fn = true →
    (s.hp.invals.any (fun v => v.port == port && v.fn == fn && v.lo ≤ page && page < v.lo + v.n && issued < v.at_) = false) →
    exec (.translationCompletion port fn page xlat issued) s =
      .next (let t := (s.wakeEvent 6).fillAtc port fn page xlat
        if t.touchesBar (xlat * 4096) 4096 then ((t.hp.reads.filter (fun a => a.waitsFor port fn page)).foldl State.refuseAcc t).issueReads
        else ({ t with hp := { t.hp with
          reads := updWhere (fun a => a.waitsFor port fn page) (fun a => { a with asked := false }) t.hp.reads } }).issueReads)) ∧
  (∀ (s : State) (port fn page xlat issued : Nat),
    s.mode ≠ .off →
    s.hp.ats.contains fn = true →
    (s.hp.invals.any (fun v => v.port == port && v.fn == fn && v.lo ≤ page && page < v.lo + v.n && issued < v.at_) = true) →
    exec (.translationCompletion port fn page xlat issued) s = .next ((s.wakeEvent 6).emit (.translate port fn page))) ∧
  (∀ (s : State) (port width : Nat) (p : Port),
    s.hp.ports[port]? = some p →
    (s.hasPort port && s.flag (F.HP_LINK_STATUS_FLIT port) && s.flag (F.HP_LINK_STATUS_UP port)) = true →
    exec (.l0pRequest port width) s =
      .next ((s.setFld (F.HP_LINK_STATUS_WIDTH port) (min p.settled.2 (widthOf (s.flag F.HP_CFG_DUAL) width))).setFld (F.HP_LINK_STATUS_L0P port)
        (bit (min p.settled.2 (widthOf (s.flag F.HP_CFG_DUAL) width) < p.settled.2)))) ∧
  (∀ (s : State) (fn : Nat),
    (s.qe.ctrls.any (fun c => c.id == fn) = true) →
    s.hp.d3hot.contains fn = false →
    s.mode ≠ .off →
    exec (.d3hotEntry fn) s = .next { (s.wakeEvent 6) with hp := { (s.wakeEvent 6).hp with d3hot := fn :: s.hp.d3hot } }) ∧
  (∀ (s : State) (fn : Nat),
    s.hp.d3hot.contains fn = true →
    exec (.d3hotExit fn) s =
      .next ((((({ (s.wakeEvent 6) with hp := { (s.wakeEvent 6).hp with d3hot := s.hp.d3hot.filter (· != fn) } } : State).issueReads).drainFull fn).sendPending fn).settleCmds)) ∧
  (∀ (s : State) (fn : Nat) (vec : MaskWrite),
    (s.qe.ctrls.any (fun c => c.id == fn) = true) →
    maskBitOf fn vec.bit = true →
    s.mode ≠ .off →
    s.mode ≠ .holdUp →
    exec (.vectorUnmask fn vec) s = .next (((s.wakeEvent 6).setMask fn vec).sendPending fn)) ∧
  (∀ (s : State) (pf kind len : Nat),
    (s.qe.ctrls.any (fun c => c.id == pf) = true) →
    pf < 2 →
    s.hp.doe.getD pf 0 = 0 →
    s.mode ≠ .off →
    65536 < len →
    exec (.doeDataObject pf kind len) s = .next ((s.wakeEvent 6).setDoe pf 2)) ∧
  (∀ (s : State) (pf kind len : Nat),
    (s.qe.ctrls.any (fun c => c.id == pf) = true) →
    pf < 2 →
    s.hp.doe.getD pf 0 = 0 →
    s.mode ≠ .off →
    len ≤ 65536 →
    kind = 0 →
    exec (.doeDataObject pf kind len) s = .next ((s.wakeEvent 6).emit (.doe pf 0))) ∧
  (∀ (s : State) (pf kind len : Nat),
    (s.qe.ctrls.any (fun c => c.id == pf) = true) →
    pf < 2 →
    s.hp.doe.getD pf 0 = 0 →
    s.mode ≠ .off →
    len ≤ 65536 →
    kind = 1 ∨ kind = 2 →
    exec (.doeDataObject pf kind len) s = .next ((s.wakeEvent 6).setDoe pf 1)) ∧
  (∀ (s : State) (pf : Nat),
    pf < 2 →
    exec (.doeAbort pf) s = .next ((s.wakeEvent 6).setDoe pf 0)) ∧
  (∀ (s : State) (pf kind len : Nat),
    (s.qe.ctrls.any (fun c => c.id == pf) = true) →
    pf < 2 →
    s.hp.doe.getD pf 0 = 0 →
    s.mode ≠ .off →
    len ≤ 65536 →
    2 < kind →
    exec (.doeDataObject pf kind len) s = .next (s.wakeEvent 6)) ∧
  (∀ (s : State) (port : Nat),
    s.hasPort port = true →
    (s.qe.ctrls.any (fun c => c.id == port) = true) →
    exec (.ptmDisabledByHost port true) s = .next { s with hp := { s.hp with ptm := s.hp.ptm.filter (· != port) ++ [port] } }) ∧
  (∀ (s : State) (port : Nat),
    exec (.ptmDisabledByHost port false) s =
      .next (let t : State := { s with hp := { s.hp with ptm := s.hp.ptm.filter (· != port) }, rul := { s.rul with dialog := s.rul.dialog.filter (· != port) } }
        if s.hp.ptm.contains port && s.ptmPort == port then t.loseSource .ptm else t))

/-- A doorbell write moves a tail, or a head after which held completions go, and an invalid value of either is an asynchronous event; a poisoned write is discarded and reported; a shadow poll takes the heads read with it and a valid tail; 100 µs without an entry make a queue idle; a grant serves an Admin queue first, then an Urgent one, then weighted round robin, by fetching from it; the Ordering Point is asked. Where the spec leaves a point open, it rests on the model's choices of log entries 5, 37, 59, 60, 72, 73 and 84. -/
def Obligations.DoorbellsAndArbitration : Prop :=
  (∀ (s : State) (ctrl qid value : Nat) (isCq : Bool),
    (s.mode = .off || s.mode = .holdUp || !s.qe.ctrls.any (fun c => c.id == ctrl) || doorbells ctrl ≤ qid) = false →
    exec (.doorbellWrite ctrl qid isCq value true) s =
      .next ((s.wakeEvent 6).poisonIn ctrl)) ∧
  (∀ (s : State) (ctrl qid value : Nat) (q : Cq),
    (s.mode = .off || s.mode = .holdUp || !s.qe.ctrls.any (fun c => c.id == ctrl) || doorbells ctrl ≤ qid) = false →
    (s.wakeEvent 6).cq ctrl qid = some q →
    value < q.size →
    exec (.doorbellWrite ctrl qid true value false) s =
      .next (((s.wakeEvent 6).updCq ctrl qid (fun q => { q with head := value })).drainFull ctrl)) ∧
  (∀ (s : State) (ctrl qid value : Nat) (q : Cq),
    (s.mode = .off || s.mode = .holdUp || !s.qe.ctrls.any (fun c => c.id == ctrl) || doorbells ctrl ≤ qid) = false →
    (s.wakeEvent 6).cq ctrl qid = some q →
    q.size ≤ value →
    exec (.doorbellWrite ctrl qid true value false) s = .next ((s.wakeEvent 6).aenTo 65 ctrl)) ∧
  (∀ (s : State) (ctrl qid value : Nat) (q : Sq),
    (s.mode = .off || s.mode = .holdUp || !s.qe.ctrls.any (fun c => c.id == ctrl) || doorbells ctrl ≤ qid) = false →
    (s.wakeEvent 6).sq ctrl qid = some q →
    value < q.size →
    exec (.doorbellWrite ctrl qid false value false) s =
      .next ((s.wakeEvent 6).updSq ctrl qid (fun q => { q with tail := value, active := true, lastNew := s.now }))) ∧
  (∀ (s : State) (ctrl qid value : Nat) (q : Sq),
    (s.mode = .off || s.mode = .holdUp || !s.qe.ctrls.any (fun c => c.id == ctrl) || doorbells ctrl ≤ qid) = false →
    (s.wakeEvent 6).sq ctrl qid = some q →
    q.size ≤ value →
    exec (.doorbellWrite ctrl qid false value false) s = .next ((s.wakeEvent 6).aenTo 65 ctrl)) ∧
  (∀ (s : State) (ctrl qid value : Nat) (heads : List (Nat × Nat)) (k : Ctrl) (q : Sq),
    s.ctrl ctrl = some k →
    s.sq ctrl qid = some q →
    k.shadowDb = true →
    q.active = true →
    s.fetches = true →
    s.hp.d3hot.contains ctrl = false →
    value < q.size →
    exec (.shadowTailPoll ctrl qid value heads) s =
      .next ((heads.foldl (fun (s : State) h => s.memRead (.head ctrl h.1 h.2) .ok []) s).updSq ctrl qid
        (fun q => { q with tail := value }))) ∧
  (∀ (s : State) (ctrl qid value : Nat) (heads : List (Nat × Nat)) (k : Ctrl) (q : Sq),
    s.ctrl ctrl = some k →
    s.sq ctrl qid = some q →
    k.shadowDb = true →
    q.active = true →
    s.fetches = true →
    s.hp.d3hot.contains ctrl = false →
    q.size ≤ value →
    exec (.shadowTailPoll ctrl qid value heads) s =
      .next ((heads.foldl (fun (s : State) h => s.memRead (.head ctrl h.1 h.2) .ok []) s).aenTo 65 ctrl)) ∧
  (∀ (s : State) (ctrl qid : Nat) (k : Ctrl) (q : Sq),
    s.ctrl ctrl = some k →
    s.sq ctrl qid = some q →
    k.shadowDb = true →
    q.active = true →
    q.lastNew + 100 * usT ≤ s.now →
    exec (.sqIdleTimeout ctrl qid) s =
      .next (s.updSq ctrl qid (fun q => { q with active := false, eventIdx := q.tail }))) ∧
  (∀ (s : State) (c : Nat) (q : Sq),
    s.fetches = true →
    s.qe.fetchHold = false →
    s.freeTags true ≠ 0 →
    (nextAfter s.qe.rrAdmin ((s.qe.sqs.filter (fun q => q.qid == 0 && q.head != q.tail && ((s.ctrl q.ctrl).map s.ctrlFetches).getD false)).map (fun q => q.ctrl)) = some c) →
    s.sq c 0 = some q →
    exec .sqFetchGrant s = .next (({ s with qe := { s.qe with rrAdmin := c } }).fetchFrom q)) ∧
  (∀ (s : State) (c : Nat) (k : Ctrl) (q : Sq),
    s.fetches = true →
    s.qe.fetchHold = false →
    (s.freeTags true = 0 ∨ nextAfter s.qe.rrAdmin ((s.qe.sqs.filter (fun q => q.qid == 0 && q.head != q.tail && ((s.ctrl q.ctrl).map s.ctrlFetches).getD false)).map (fun q => q.ctrl)) = none) →
    (nextAfter s.qe.rrUrgent ((s.qe.ctrls.filter (fun k => !(s.readyIn k 0).isEmpty)).map (fun k => k.id)) = some c) →
    s.ctrl c = some k →
    (s.nextSq k 0).bind (s.sq c) = some q →
    exec .sqFetchGrant s =
      .next (let t := s.updCtrl c (fun k => { k with lastSq := (0, q.qid) :: k.lastSq.filter (fun e => e.1 != 0) })
        ({ t with qe := { t.qe with rrUrgent := c } }).fetchFrom q)) ∧
  (∀ (s : State),
    s.fetches = true →
    s.qe.fetchHold = false →
    (s.freeTags true = 0 ∨ nextAfter s.qe.rrAdmin ((s.qe.sqs.filter (fun q => q.qid == 0 && q.head != q.tail && ((s.ctrl q.ctrl).map s.ctrlFetches).getD false)).map (fun q => q.ctrl)) = none) →
    (nextAfter s.qe.rrUrgent ((s.qe.ctrls.filter (fun k => !(s.readyIn k 0).isEmpty)).map (fun k => k.id)) = none) →
    exec .sqFetchGrant s = .next s.grantWrr) ∧
  (∀ (s : State),
    exec .orderingPointStamp s = .next s.kick)

/-- Enabling a controller brings up its Admin queues and CSTS.RDY, or with an Admin queue size outside 2 to 4,096 leaves RDY at 0; the sizes of AQA count from 0; clearing CC.EN ends it; a shutdown request is noted, pads the write points for a normal one, and goes as far as it can. Creating and deleting queues checks contiguity, identifier, size with the entry size of CC, vector or completion queue, and use in order, and then adds or removes the queue. Where the spec leaves a point open, it rests on the model's choices of log entries 16, 34, 37, 40, 43, 61, 70, 72 and 80. -/
def Obligations.ControllersAndQueues : Prop :=
  (∀ (s : State) (ctrl asqs acqs : Nat) (ams : CcWrite) (k : Ctrl),
    s.ctrl ctrl = some k →
    k.en = false →
    s.mode ≠ .off →
    s.mode ≠ .holdUp →
    (1 ≤ asqs && asqs < 4096 && 1 ≤ acqs && acqs < 4096) = true →
    exec (.controllerEnable ctrl asqs acqs ams) s =
      .next (let t := (s.wakeEvent 6).updCtrl ctrl (fun _ => { id := ctrl, en := true, rdy := s.mode != .boot, ams := if ams.ams = 1 then 1 else 0, iosqes := ams.iosqes, iocqes := ams.iocqes, asqs := asqs, acqs := acqs, asq := ams.asq, acq := ams.acq })
        ({ t with qe := { t.qe with
          sqs := t.qe.sqs ++ [({ ctrl := ctrl, qid := 0, size := asqs + 1, base := some ams.asq } : Sq)]
          cqs := t.qe.cqs ++ [({ ctrl := ctrl, qid := 0, size := acqs + 1, ien := true } : Cq)] } }).psEval)) ∧
  (∀ (s : State) (ctrl asqs acqs : Nat) (ams : CcWrite) (k : Ctrl),
    s.ctrl ctrl = some k →
    k.en = false →
    s.mode ≠ .off →
    s.mode ≠ .holdUp →
    (1 ≤ asqs && asqs < 4096 && 1 ≤ acqs && acqs < 4096) = false →
    exec (.controllerEnable ctrl asqs acqs ams) s =
      .next ((s.wakeEvent 6).updCtrl ctrl (fun _ => { id := ctrl, en := true, rdy := false, ams := if ams.ams = 1 then 1 else 0, iosqes := ams.iosqes, iocqes := ams.iocqes, asqs := asqs, acqs := acqs, asq := ams.asq, acq := ams.acq })).psEval) ∧
  (∀ (s : State) (ctrl : Nat) (k : Ctrl),
    s.ctrl ctrl = some k →
    k.en = true →
    s.mode ≠ .off →
    s.mode ≠ .holdUp →
    exec (.controllerReset ctrl) s = .next ((s.wakeEvent 6).endCtrls [ctrl])) ∧
  (∀ (s : State) (ctrl : Nat) (k : Ctrl),
    s.ctrl ctrl = some k →
    k.en = true →
    k.shst = 0 →
    s.mode ≠ .off →
    s.mode ≠ .holdUp →
    exec (.normalShutdown ctrl) s =
      .next (let t := (s.wakeEvent 6).updCtrl ctrl (fun k => { k with shst := 1, shn := 1 })
        (if s.wpRuns then ((t.map.wps.map (fun w => w.ix)).foldl State.padWp t).pump else t).shutStep)) ∧
  (∀ (s : State) (ctrl : Nat) (k : Ctrl),
    s.ctrl ctrl = some k →
    k.en = true →
    k.shst = 0 →
    s.mode ≠ .off →
    s.mode ≠ .holdUp →
    exec (.abruptShutdown ctrl) s =
      .next ((s.wakeEvent 6).updCtrl ctrl (fun k => { k with shst := 1, shn := 2 })).shutStep) ∧
  (∀ (s : State) (ref : Ref) (qid qsize cqid prio : Nat) (pc : Bool),
    s.accepts ref = true →
    pc = false →
    exec (.createIoSq ref qid qsize cqid prio pc) s =
      .next ((s.latch ref).complete ref .invalidField 0)) ∧
  (∀ (s : State) (ref : Ref) (qid qsize cqid prio : Nat),
    s.accepts ref = true →
    (qidRefused qid (((s.latch ref).ctrl (ctrlIx ref)).getD { id := ctrlIx ref }).grantSq (((s.latch ref).qe.sqs.filter (fun q => q.ctrl == ctrlIx ref)).map (fun q => q.qid)) ((s.latch ref).qe.sqs.map (fun q => q.qid)) = true) →
    exec (.createIoSq ref qid qsize cqid prio true) s =
      .next ((s.latch ref).complete ref .invalidQueueId 0)) ∧
  (∀ (s : State) (ref : Ref) (qid qsize cqid prio : Nat),
    s.accepts ref = true →
    (qidRefused qid (((s.latch ref).ctrl (ctrlIx ref)).getD { id := ctrlIx ref }).grantSq (((s.latch ref).qe.sqs.filter (fun q => q.ctrl == ctrlIx ref)).map (fun q => q.qid)) ((s.latch ref).qe.sqs.map (fun q => q.qid)) = false) →
    (qsize = 0 || 65536 ≤ qsize || (((s.latch ref).ctrl (ctrlIx ref)).getD { id := ctrlIx ref }).iosqes != 6) = true →
    exec (.createIoSq ref qid qsize cqid prio true) s =
      .next ((s.latch ref).complete ref .invalidQueueSize 0)) ∧
  (∀ (s : State) (ref : Ref) (qid qsize cqid prio : Nat),
    s.accepts ref = true →
    (qidRefused qid (((s.latch ref).ctrl (ctrlIx ref)).getD { id := ctrlIx ref }).grantSq (((s.latch ref).qe.sqs.filter (fun q => q.ctrl == ctrlIx ref)).map (fun q => q.qid)) ((s.latch ref).qe.sqs.map (fun q => q.qid)) = false) →
    (qsize = 0 || 65536 ≤ qsize || (((s.latch ref).ctrl (ctrlIx ref)).getD { id := ctrlIx ref }).iosqes != 6) = false →
    (cqid = 0 || !(s.latch ref).qe.cqs.any (fun q => q.ctrl == ctrlIx ref && q.qid == cqid)) = true →
    exec (.createIoSq ref qid qsize cqid prio true) s =
      .next ((s.latch ref).complete ref .completionQueueInvalid 0)) ∧
  (∀ (s : State) (ref : Ref) (qid qsize cqid prio : Nat),
    s.accepts ref = true →
    (qidRefused qid (((s.latch ref).ctrl (ctrlIx ref)).getD { id := ctrlIx ref }).grantSq (((s.latch ref).qe.sqs.filter (fun q => q.ctrl == ctrlIx ref)).map (fun q => q.qid)) ((s.latch ref).qe.sqs.map (fun q => q.qid)) = false) →
    (qsize = 0 || 65536 ≤ qsize || (((s.latch ref).ctrl (ctrlIx ref)).getD { id := ctrlIx ref }).iosqes != 6) = false →
    (cqid = 0 || !(s.latch ref).qe.cqs.any (fun q => q.ctrl == ctrlIx ref && q.qid == cqid)) = false →
    exec (.createIoSq ref qid qsize cqid prio true) s =
      .next (({ (s.latch ref) with qe := { (s.latch ref).qe with sqs := (s.latch ref).qe.sqs ++ [({ ctrl := ctrlIx ref, qid := qid, size := qsize + 1, prio := prio % 4, cqid := cqid, base := (((s.latch ref).hp.ptrs.lookup ref).bind (fun e => e.2.head?)).map Prod.fst } : Sq)] } }).complete ref .success 0)) ∧
  (∀ (s : State) (ref : Ref) (qid qsize vector : Nat) (ien : Bool) (pc : Bool),
    s.accepts ref = true →
    pc = false →
    exec (.createIoCq ref qid qsize vector ien pc) s =
      .next ((s.latch ref).complete ref .invalidField 0)) ∧
  (∀ (s : State) (ref : Ref) (qid qsize vector : Nat) (ien : Bool),
    s.accepts ref = true →
    (qidRefused qid (((s.latch ref).ctrl (ctrlIx ref)).getD { id := ctrlIx ref }).grantCq (((s.latch ref).qe.cqs.filter (fun q => q.ctrl == ctrlIx ref)).map (fun q => q.qid)) ((s.latch ref).qe.cqs.map (fun q => q.qid)) = true) →
    exec (.createIoCq ref qid qsize vector ien true) s =
      .next ((s.latch ref).complete ref .invalidQueueId 0)) ∧
  (∀ (s : State) (ref : Ref) (qid qsize vector : Nat) (ien : Bool),
    s.accepts ref = true →
    (qidRefused qid (((s.latch ref).ctrl (ctrlIx ref)).getD { id := ctrlIx ref }).grantCq (((s.latch ref).qe.cqs.filter (fun q => q.ctrl == ctrlIx ref)).map (fun q => q.qid)) ((s.latch ref).qe.cqs.map (fun q => q.qid)) = false) →
    (qsize = 0 || 65536 ≤ qsize || (((s.latch ref).ctrl (ctrlIx ref)).getD { id := ctrlIx ref }).iocqes != 4) = true →
    exec (.createIoCq ref qid qsize vector ien true) s =
      .next ((s.latch ref).complete ref .invalidQueueSize 0)) ∧
  (∀ (s : State) (ref : Ref) (qid qsize vector : Nat) (ien : Bool),
    s.accepts ref = true →
    (qidRefused qid (((s.latch ref).ctrl (ctrlIx ref)).getD { id := ctrlIx ref }).grantCq (((s.latch ref).qe.cqs.filter (fun q => q.ctrl == ctrlIx ref)).map (fun q => q.qid)) ((s.latch ref).qe.cqs.map (fun q => q.qid)) = false) →
    (qsize = 0 || 65536 ≤ qsize || (((s.latch ref).ctrl (ctrlIx ref)).getD { id := ctrlIx ref }).iocqes != 4) = false →
    (ien && (s.latch ref).vectors (ctrlIx ref) ≤ vector) = true →
    exec (.createIoCq ref qid qsize vector ien true) s =
      .next ((s.latch ref).complete ref .invalidVector 0)) ∧
  (∀ (s : State) (ref : Ref) (qid qsize vector : Nat) (ien : Bool),
    s.accepts ref = true →
    (qidRefused qid (((s.latch ref).ctrl (ctrlIx ref)).getD { id := ctrlIx ref }).grantCq (((s.latch ref).qe.cqs.filter (fun q => q.ctrl == ctrlIx ref)).map (fun q => q.qid)) ((s.latch ref).qe.cqs.map (fun q => q.qid)) = false) →
    (qsize = 0 || 65536 ≤ qsize || (((s.latch ref).ctrl (ctrlIx ref)).getD { id := ctrlIx ref }).iocqes != 4) = false →
    (ien && (s.latch ref).vectors (ctrlIx ref) ≤ vector) = false →
    exec (.createIoCq ref qid qsize vector ien true) s =
      .next (({ (s.latch ref) with qe := { (s.latch ref).qe with cqs := (s.latch ref).qe.cqs ++ [({ ctrl := ctrlIx ref, qid := qid, size := qsize + 1, vector := vector, ien := ien } : Cq)] } }).complete ref .success 0)) ∧
  (∀ (s : State) (ref : Ref) (qid : Nat),
    s.accepts ref = true →
    (qid = 0 || !(s.latch ref).qe.sqs.any (fun q => q.ctrl == ctrlIx ref && q.qid == qid)) = true →
    exec (.deleteIoSq ref qid) s =
      .next ((s.latch ref).complete ref .invalidQueueId 0)) ∧
  (∀ (s : State) (ref : Ref) (qid : Nat),
    s.accepts ref = true →
    (qid = 0 || !(s.latch ref).qe.sqs.any (fun q => q.ctrl == ctrlIx ref && q.qid == qid)) = false →
    exec (.deleteIoSq ref qid) s =
      .next (let t := ((s.latch ref).qe.cmds.filter (fun k => onQueue (ctrlIx ref) qid k.ref)).foldl State.abortSqCmd (s.latch ref)
        ({ t with qe := { t.qe with
          sqs := t.qe.sqs.filter (fun q => !(q.ctrl == ctrlIx ref && q.qid == qid))
          fetched := t.qe.fetched.filter (fun e => !(e.ctrl == ctrlIx ref && e.sq == qid))
          full := t.qe.full.filter (fun h => !onQueue (ctrlIx ref) qid h.ref)
          tags := t.qe.tags.filter (fun r => !onQueue (ctrlIx ref) qid r) } }).complete ref .success 0)) ∧
  (∀ (s : State) (ref : Ref) (qid : Nat),
    s.accepts ref = true →
    (qid = 0 || !(s.latch ref).qe.cqs.any (fun q => q.ctrl == ctrlIx ref && q.qid == qid)) = true →
    exec (.deleteIoCq ref qid) s =
      .next ((s.latch ref).complete ref .invalidQueueId 0)) ∧
  (∀ (s : State) (ref : Ref) (qid : Nat),
    s.accepts ref = true →
    (qid = 0 || !(s.latch ref).qe.cqs.any (fun q => q.ctrl == ctrlIx ref && q.qid == qid)) = false →
    (s.latch ref).qe.sqs.any (fun q => q.ctrl == ctrlIx ref && q.cqid == qid && q.qid != 0) = true →
    exec (.deleteIoCq ref qid) s =
      .next ((s.latch ref).complete ref .invalidQueueDeletion 0)) ∧
  (∀ (s : State) (ref : Ref) (qid : Nat),
    s.accepts ref = true →
    (qid = 0 || !(s.latch ref).qe.cqs.any (fun q => q.ctrl == ctrlIx ref && q.qid == qid)) = false →
    (s.latch ref).qe.sqs.any (fun q => q.ctrl == ctrlIx ref && q.cqid == qid && q.qid != 0) = false →
    exec (.deleteIoCq ref qid) s =
      .next (({ (s.latch ref) with qe := { (s.latch ref).qe with cqs := (s.latch ref).qe.cqs.filter (fun q => !(q.ctrl == ctrlIx ref && q.qid == qid)) } }).complete ref .success 0))

/-- A log page is returned with the effects of reading it, an unknown page or a bad offset is refused; Identify returns the structure of its CNS or the status that refuses it; Abort ends a command none of whose work has reached the medium, an outstanding Asynchronous Event Request, or nothing, and the fifth outstanding one is refused; the seventeenth Asynchronous Event Request is refused and a waiting event answers one at once. Where the spec leaves a point open, it rests on the model's choices of log entries 18, 19, 20, 39, 43 and 46. -/
def Obligations.LogPagesIdentifyAbort : Prop :=
  (∀ (s : State) (ref : Ref) (lid off len : Nat) (rae : Bool),
    s.accepts ref = true →
    (s.latch ref).logPage lid ((ctrlOf ref).getD 0) (holderOf ref).isSome = none →
    exec (.getLogPage ref lid off len rae) s =
      .next ((s.latch ref).complete ref .invalidLogPage 0)) ∧
  (∀ (s : State) (ref : Ref) (lid off len : Nat) (rae : Bool) (f : Fields),
    s.accepts ref = true →
    (s.latch ref).logPage lid ((ctrlOf ref).getD 0) (holderOf ref).isSome = some f →
    (off % 4 != 0 || ((s.latch ref).logSize lid != 0 && (s.latch ref).logSize lid < off)) = true →
    exec (.getLogPage ref lid off len rae) s =
      .next ((s.latch ref).complete ref .invalidField 0)) ∧
  (∀ (s : State) (ref : Ref) (lid off len : Nat) (rae : Bool) (f : Fields),
    s.accepts ref = true →
    (s.latch ref).logPage lid ((ctrlOf ref).getD 0) (holderOf ref).isSome = some f →
    (off % 4 != 0 || ((s.latch ref).logSize lid != 0 && (s.latch ref).logSize lid < off)) = false →
    exec (.getLogPage ref lid off len rae) s =
      .next ((((s.latch ref).emit (.data ref 2 lid off len f)).pageRead lid (ctrlOf ref) off len rae).complete ref .success 0)) ∧
  (∀ (s : State) (ref : Ref) (off len : Nat) (rae : Bool) (f : Fields),
    s.accepts ref = true →
    (s.latch ref).logPage 0xC2 ((ctrlOf ref).getD 0) (holderOf ref).isSome = some f →
    (off % 4 != 0 || ((s.latch ref).logSize 0xC2 != 0 && (s.latch ref).logSize 0xC2 < off)) = true →
    exec (.getLogPageHealth ref off len rae) s =
      .next ((s.latch ref).complete ref .invalidField 0)) ∧
  (∀ (s : State) (ref : Ref) (off len : Nat) (rae : Bool) (f : Fields),
    s.accepts ref = true →
    (s.latch ref).logPage 0xC2 ((ctrlOf ref).getD 0) (holderOf ref).isSome = some f →
    (off % 4 != 0 || ((s.latch ref).logSize 0xC2 != 0 && (s.latch ref).logSize 0xC2 < off)) = false →
    exec (.getLogPageHealth ref off len rae) s =
      .next ((((s.latch ref).emit (.data ref 2 0xC2 off len f)).pageRead 0xC2 (ctrlOf ref) off len rae).complete ref .success 0)) ∧
  (∀ (s : State) (ref : Ref) (cns nsid cntid : Nat) (d : Fields),
    s.accepts ref = true →
    (s.latch ref).identify (ctrlIx ref) cns nsid cntid = .ok d →
    exec (.identify ref cns nsid cntid) s =
      .next (((s.latch ref).emit (.data ref 6 cns 0 4096 d)).complete ref .success 0)) ∧
  (∀ (s : State) (ref : Ref) (cns nsid cntid : Nat) (e : Status),
    s.accepts ref = true →
    (s.latch ref).identify (ctrlIx ref) cns nsid cntid = .error e →
    exec (.identify ref cns nsid cntid) s =
      .next ((s.latch ref).complete ref e 0)) ∧
  (∀ (s : State) (ref : Ref) (sqid cid : Nat),
    s.accepts ref = true →
    (4 ≤ (((s.latch ref).qe.aborts.filter (fun r => (s.latch ref).qe.tags.contains r)).filter (fun r => ctrlIx r == ctrlIx ref)).length) →
    exec (.abort ref sqid cid) s =
      .next ((s.latch ref).complete ref .abortLimit 0)) ∧
  (∀ (s : State) (ref : Ref) (sqid cid : Nat) (k : Cmd),
    s.accepts ref = true →
    (((s.latch ref).qe.aborts.filter (fun r => (s.latch ref).qe.tags.contains r)).filter (fun r => ctrlIx r == ctrlIx ref)).length < 4 →
    (s.latch ref).qe.cmds.find? (fun k => k.ref == .host (ctrlIx ref) sqid cid) = some k →
    exec (.abort ref sqid cid) s =
      .next (let t : State := { (s.latch ref) with qe := { (s.latch ref).qe with aborts := ref :: (s.latch ref).qe.aborts.filter (fun r => (s.latch ref).qe.tags.contains r) } }
        if t.abortable k then (t.abortCmd k).complete ref .success 0 else t.complete ref .success 1)) ∧
  (∀ (s : State) (ref : Ref) (sqid cid : Nat),
    s.accepts ref = true →
    (((s.latch ref).qe.aborts.filter (fun r => (s.latch ref).qe.tags.contains r)).filter (fun r => ctrlIx r == ctrlIx ref)).length < 4 →
    (s.latch ref).qe.cmds.find? (fun k => k.ref == .host (ctrlIx ref) sqid cid) = none →
    (s.latch ref).qe.aers.contains (ctrlIx ref, .host (ctrlIx ref) sqid cid) = true →
    exec (.abort ref sqid cid) s =
      .next (let t : State := { (s.latch ref) with qe := { (s.latch ref).qe with aborts := ref :: (s.latch ref).qe.aborts.filter (fun r => (s.latch ref).qe.tags.contains r) } }
        (({ t with qe := { t.qe with aers := t.qe.aers.erase (ctrlIx ref, .host (ctrlIx ref) sqid cid) } }).complete (.host (ctrlIx ref) sqid cid) .abortRequested 0).complete ref .success 0)) ∧
  (∀ (s : State) (ref : Ref) (sqid cid : Nat),
    s.accepts ref = true →
    (((s.latch ref).qe.aborts.filter (fun r => (s.latch ref).qe.tags.contains r)).filter (fun r => ctrlIx r == ctrlIx ref)).length < 4 →
    (s.latch ref).qe.cmds.find? (fun k => k.ref == .host (ctrlIx ref) sqid cid) = none →
    (s.latch ref).qe.aers.contains (ctrlIx ref, .host (ctrlIx ref) sqid cid) = false →
    exec (.abort ref sqid cid) s =
      .next (({ (s.latch ref) with qe := { (s.latch ref).qe with aborts := ref :: (s.latch ref).qe.aborts.filter (fun r => (s.latch ref).qe.tags.contains r) } } : State).complete ref .success 1)) ∧
  (∀ (s : State) (ref : Ref) ,
    s.accepts ref = true →
    (16 ≤ ((s.latch ref).qe.aers.filter (fun r => r.1 == ctrlIx ref)).length) →
    exec (.asyncEventRequest ref) s =
      .next ((s.latch ref).complete ref .aerLimit 0)) ∧
  (∀ (s : State) (ref : Ref) ,
    s.accepts ref = true →
    ((s.latch ref).qe.aers.filter (fun r => r.1 == ctrlIx ref)).length < 16 →
    (s.latch ref).evu.aenWait.find? (fun w => w.1 == ctrlIx ref && !(s.latch ref).evu.aenOut.contains (ctrlIx ref, w.2.1)) = none →
    exec (.asyncEventRequest ref) s =
      .next (({ (s.latch ref) with qe := { (s.latch ref).qe with aers := (s.latch ref).qe.aers ++ [(ctrlIx ref, ref)] } } : State))) ∧
  (∀ (s : State) (ref : Ref) (w : Nat × Nat × Nat),
    s.accepts ref = true →
    ((s.latch ref).qe.aers.filter (fun r => r.1 == ctrlIx ref)).length < 16 →
    (s.latch ref).evu.aenWait.find? (fun w => w.1 == ctrlIx ref && !(s.latch ref).evu.aenOut.contains (ctrlIx ref, w.2.1)) = some w →
    exec (.asyncEventRequest ref) s =
      .next (({ ({ (s.latch ref) with qe := { (s.latch ref).qe with aers := (s.latch ref).qe.aers ++ [(ctrlIx ref, ref)] } } : State) with evu := { (s.latch ref).evu with aenWait := (s.latch ref).evu.aenWait.erase w } } : State).aenTo w.2.1 (ctrlIx ref)))

/-- A base feature is not saveable; otherwise its value is taken and the command completes: the arbitration and similar settings as written, the power state (DOZE entry withholding the completion), the temperature thresholds, the granted queues, flexible data placement with no namespace, the Host Identifier of 128 bits. A refused value changes nothing but the completion. Where the spec leaves a point open, it rests on the model's choices of log entries 34, 43, 50 and 53. -/
def Obligations.FeaturesPlain : Prop :=
  (∀ (s : State) (ref : Ref) (fid nsid cdw11 data : Nat),
    s.accepts ref = true →
    fid = 0x01 ∨ fid = 0x05 ∨ fid = 0x08 ∨ fid = 0x09 ∨ fid = 0x0A ∨ fid = 0x0B ∨ fid = 0x0F →
    exec (.setFeatures ref fid nsid cdw11 false data) s =
      .next (((s.latch ref).setFeat fid (ctrlIx ref) cdw11).complete ref .success 0)) ∧
  (∀ (s : State) (ref : Ref) (fid nsid cdw11 data : Nat),
    s.accepts ref = true →
    fid = 0x01 ∨ fid = 0x02 ∨ fid = 0x04 ∨ fid = 0x05 ∨ fid = 0x07 ∨ fid = 0x08 ∨ fid = 0x09 ∨ fid = 0x0A ∨ fid = 0x0B ∨ fid = 0x0F ∨ fid = 0x1D ∨ fid = 0x1E ∨ fid = 0x81 ∨ fid = 0x82 ∨ fid = 0x83 →
    exec (.setFeatures ref fid nsid cdw11 true data) s =
      .next ((s.latch ref).complete ref .featureNotSaveable 0)) ∧
  (∀ (s : State) (ref : Ref) (nsid cdw11 data : Nat),
    s.accepts ref = true →
    cdw11.testBit 0 = false →
    exec (.setFeatures ref 0x81 nsid cdw11 false data) s =
      .next ((s.latch ref).complete ref .invalidField 0)) ∧
  (∀ (s : State) (ref : Ref) (nsid cdw11 data : Nat),
    s.accepts ref = true →
    cdw11.testBit 0 = true →
    exec (.setFeatures ref 0x81 nsid cdw11 false data) s =
      .next (((s.latch ref).updCtrl (ctrlIx ref) (fun k => { k with hostId := if data = 0 then none else some (data % 2 ^ 128) })).complete ref .success 0)) ∧
  (∀ (s : State) (ref : Ref) (nsid cdw11 data : Nat),
    s.accepts ref = true →
    ((2 < bitsOf cdw11 16 4 && bitsOf cdw11 16 4 != 15) || 1 < bitsOf cdw11 20 2) = true →
    exec (.setFeatures ref 0x04 nsid cdw11 false data) s =
      .next ((s.latch ref).complete ref .invalidField 0)) ∧
  (∀ (s : State) (ref : Ref) (nsid cdw11 data : Nat),
    s.accepts ref = true →
    ((2 < bitsOf cdw11 16 4 && bitsOf cdw11 16 4 != 15) || 1 < bitsOf cdw11 20 2) = false →
    exec (.setFeatures ref 0x04 nsid cdw11 false data) s =
      .next (let old := (s.latch ref).feat 4 (ctrlIx ref) (358 + 2 ^ 32 * 0xFFFF + 2 ^ 64 * 0xFFFF)
        let put := fun (v i : Nat) => bitsPut v (32 * i + 16 * bitsOf cdw11 20 2) 16 (bitsOf cdw11 0 16)
        ((s.latch ref).setFeat 4 (ctrlIx ref) (if bitsOf cdw11 16 4 = 15 then [0, 1, 2].foldl put old else put old (bitsOf cdw11 16 4))).complete ref .success 0)) ∧
  (∀ (s : State) (ref : Ref) (fid nsid cdw11 data : Nat) (save : Bool),
    s.accepts ref = true →
    fid = 0x06 ∨ fid = 0x0C ∨ (fid < 0x81 ∧ 0x1E < fid) →
    exec (.setFeatures ref fid nsid cdw11 save data) s =
      .next ((s.latch ref).complete ref .invalidField 0)) ∧
  (∀ (s : State) (ref : Ref) (cdw11 : Nat) (save : Bool),
    s.accepts ref = true →
    save = true →
    exec (.setFeaturesPowerMgmt ref save cdw11) s =
      .next ((s.latch ref).complete ref .featureNotSaveable 0)) ∧
  (∀ (s : State) (ref : Ref) (cdw11 : Nat),
    s.accepts ref = true →
    4 < cdw11 % 32 →
    exec (.setFeaturesPowerMgmt ref false cdw11) s =
      .next ((s.latch ref).complete ref .invalidField 0)) ∧
  (∀ (s : State) (ref : Ref) (cdw11 : Nat),
    s.accepts ref = true →
    cdw11 % 32 ≤ 4 →
    (s.latch ref).qe.withheld.any (fun h => ctrlIx h.ref == ctrlIx ref) = true →
    exec (.setFeaturesPowerMgmt ref false cdw11) s =
      .next ((s.latch ref).complete ref .cmdSeqError 0)) ∧
  (∀ (s : State) (ref : Ref) (cdw11 : Nat),
    s.accepts ref = true →
    cdw11 % 32 ≤ 4 →
    (s.latch ref).qe.withheld.any (fun h => ctrlIx h.ref == ctrlIx ref) = false →
    exec (.setFeaturesPowerMgmt ref false cdw11) s =
      .next (let t := (s.latch ref).updCtrl (ctrlIx ref) (fun k => { k with ps := cdw11 % 32 })
        if 3 ≤ cdw11 % 32 && t.dozeWanted
        then ({ t with qe := { t.qe with withheld := t.qe.withheld ++ [(⟨ref, .success, 0⟩ : HeldCqe)] } }).dozeStart
        else t.psEval.complete ref .success (t.psEval.fld F.PWR_STATUS_PS))) ∧
  (∀ (s : State) (ref : Ref) (cdw11 : Nat) (save : Bool),
    s.accepts ref = true →
    save = true →
    exec (.setFeaturesNumQueues ref save cdw11) s =
      .next ((s.latch ref).complete ref .featureNotSaveable 0)) ∧
  (∀ (s : State) (ref : Ref) (cdw11 : Nat),
    s.accepts ref = true →
    bitsOf cdw11 0 16 = 65535 ∨ bitsOf cdw11 16 16 = 65535 →
    exec (.setFeaturesNumQueues ref false cdw11) s =
      .next ((s.latch ref).complete ref .invalidField 0)) ∧
  (∀ (s : State) (ref : Ref) (cdw11 : Nat),
    s.accepts ref = true →
    bitsOf cdw11 0 16 ≠ 65535 →
    bitsOf cdw11 16 16 ≠ 65535 →
    ((s.latch ref).qe.sqs.any (fun q => q.ctrl == ctrlIx ref && q.qid != 0) || (s.latch ref).qe.cqs.any (fun q => q.ctrl == ctrlIx ref && q.qid != 0)) = true →
    exec (.setFeaturesNumQueues ref false cdw11) s =
      .next ((s.latch ref).complete ref .cmdSeqError 0)) ∧
  (∀ (s : State) (ref : Ref) (cdw11 : Nat),
    s.accepts ref = true →
    bitsOf cdw11 0 16 ≠ 65535 →
    bitsOf cdw11 16 16 ≠ 65535 →
    ((s.latch ref).qe.sqs.any (fun q => q.ctrl == ctrlIx ref && q.qid != 0) || (s.latch ref).qe.cqs.any (fun q => q.ctrl == ctrlIx ref && q.qid != 0)) = false →
    exec (.setFeaturesNumQueues ref false cdw11) s =
      .next (let gs := min (bitsOf cdw11 0 16 + 1) (if ctrlIx ref < 2 then 7679 else 1535)
        let gc := min (bitsOf cdw11 16 16 + 1) (if ctrlIx ref < 2 then 7679 else 1535)
        ((s.latch ref).updCtrl (ctrlIx ref) (fun k => { k with grantSq := gs, grantCq := gc })).complete ref .success (gs - 1 + 2 ^ 16 * (gc - 1)))) ∧
  (∀ (s : State) (ref : Ref) (save enable : Bool),
    s.accepts ref = true →
    save = true →
    exec (.setFeaturesFdp ref save enable) s =
      .next ((s.latch ref).complete ref .featureNotSaveable 0)) ∧
  (∀ (s : State) (ref : Ref) (enable : Bool),
    s.accepts ref = true →
    (s.latch ref).hasNamespace = true →
    exec (.setFeaturesFdp ref false enable) s =
      .next ((s.latch ref).complete ref .cmdSeqError 0)) ∧
  (∀ (s : State) (ref : Ref) (enable : Bool),
    s.accepts ref = true →
    (s.latch ref).hasNamespace = false →
    exec (.setFeaturesFdp ref false enable) s =
      .next (({ (s.latch ref) with map := { (s.latch ref).map with fdp := enable } }).complete ref .success 0))

/-- A VF sets no vendor feature. The Completion Policy of the attached namespaces, the deadline, the envelope cap, the source priority, the patrol period, the thermal limits and the ink-time reporting are taken, saved values going to the settings copies before the command completes; the Owner Update Lock asks its tokens; refused values change nothing. Get Features answers the current, default or saved value or the capabilities. Where the spec leaves a point open, it rests on the model's choices of log entries 42, 43, 48, 50, 51 and 52. -/
def Obligations.FeaturesVendor : Prop :=
  (∀ (s : State) (ref : Ref) (nsid cdw11 : Nat) (save : Bool),
    s.accepts ref = true →
    fromVf ref = true →
    exec (.setFeaturesCompletionPolicy ref nsid save cdw11) s =
      .next ((s.latch ref).complete ref .invalidField 0)) ∧
  (∀ (s : State) (ref : Ref) (cdw11 : Nat) (save : Bool),
    s.accepts ref = true →
    fromVf ref = true →
    exec (.setFeaturesDeadlineReads ref save cdw11) s =
      .next ((s.latch ref).complete ref .invalidField 0)) ∧
  (∀ (s : State) (ref : Ref) (cdw11 : Nat) (save : Bool),
    s.accepts ref = true →
    fromVf ref = true →
    exec (.setFeaturesEnvelopeCap ref save cdw11) s =
      .next ((s.latch ref).complete ref .invalidField 0)) ∧
  (∀ (s : State) (ref : Ref) (cdw11 : Nat) (save : Bool),
    s.accepts ref = true →
    fromVf ref = true →
    exec (.setFeaturesRulingPriority ref save cdw11) s =
      .next ((s.latch ref).complete ref .invalidField 0)) ∧
  (∀ (s : State) (ref : Ref) (cdw11 : Nat) (save : Bool),
    s.accepts ref = true →
    fromVf ref = true →
    exec (.setFeaturesThermalLimits ref save cdw11) s =
      .next ((s.latch ref).complete ref .invalidField 0)) ∧
  (∀ (s : State) (ref : Ref) (cdw11 : Nat) (save : Bool),
    s.accepts ref = true →
    fromVf ref = true →
    exec (.setFeaturesPatrolPeriod ref save cdw11) s =
      .next ((s.latch ref).complete ref .invalidField 0)) ∧
  (∀ (s : State) (ref : Ref) (cdw11 : Nat) (save : Bool),
    s.accepts ref = true →
    fromVf ref = true →
    exec (.setFeaturesInkTime ref save cdw11) s =
      .next ((s.latch ref).complete ref .invalidField 0)) ∧
  (∀ (s : State) (ref : Ref) (cdw11 : Nat) (token : Option OwnerToken),
    s.accepts ref = true →
    fromVf ref = true →
    exec (.setFeaturesOwnerUpdateLock ref cdw11 token) s =
      .next ((s.latch ref).complete ref .invalidField 0)) ∧
  (∀ (s : State) (ref : Ref) (nsid cdw11 : Nat) (save : Bool),
    s.accepts ref = true →
    fromVf ref = false →
    (((s.latch ref).qe.nss.filter (fun n => (nsid == 0xFFFFFFFF || n.nsid == nsid) && n.attached.contains (ctrlIx ref))).isEmpty && nsid != 0xFFFFFFFF) = true →
    exec (.setFeaturesCompletionPolicy ref nsid save cdw11) s =
      .next ((s.latch ref).complete ref .invalidNamespace 0)) ∧
  (∀ (s : State) (ref : Ref) (nsid cdw11 : Nat) (save : Bool),
    s.accepts ref = true →
    fromVf ref = false →
    (((s.latch ref).qe.nss.filter (fun n => (nsid == 0xFFFFFFFF || n.nsid == nsid) && n.attached.contains (ctrlIx ref))).isEmpty && nsid != 0xFFFFFFFF) = false →
    exec (.setFeaturesCompletionPolicy ref nsid save cdw11) s =
      .next (let fs : List Feat := ((s.latch ref).qe.nss.filter (fun n => (nsid == 0xFFFFFFFF || n.nsid == nsid) && n.attached.contains (ctrlIx ref))).map (fun n => ⟨0xC0, n.nsid, cdw11 % 2⟩)
        (fs.foldl (fun (s : State) f => s.setFeat f.fid f.scope f.cur) (s.latch ref)).featEnd ref (if save then fs else []))) ∧
  (∀ (s : State) (ref : Ref) (cdw11 : Nat) (save : Bool),
    s.accepts ref = true →
    fromVf ref = false →
    exec (.setFeaturesDeadlineReads ref save cdw11) s =
      .next ((s.latch ref).featSet ref save 0xC1 (ctrlIx ref) (cdw11 % 2 + 16 * (if bitsOf cdw11 4 8 = 0 then bitsOf ((s.latch ref).feat 0xC1 (ctrlIx ref) 0x200) 4 8 else bitsOf cdw11 4 8)))) ∧
  (∀ (s : State) (ref : Ref) (cdw11 : Nat) (save : Bool),
    s.accepts ref = true →
    fromVf ref = false →
    exec (.setFeaturesEnvelopeCap ref save cdw11) s =
      .next ((({ (s.latch ref) with stk := { (s.latch ref).stk with hostCap := cdw11 % 2 ^ 12 } }).refreshCap).featSet ref save 0xC2 0 (cdw11 % 2 ^ 12))) ∧
  (∀ (s : State) (ref : Ref) (cdw11 : Nat) (save : Bool),
    s.accepts ref = true →
    fromVf ref = false →
    wholeRefused 0x100C (cdw11 % 2 ^ 6) = true →
    exec (.setFeaturesRulingPriority ref save cdw11) s =
      .next ((s.latch ref).complete ref .invalidField 0)) ∧
  (∀ (s : State) (ref : Ref) (cdw11 : Nat) (save : Bool),
    s.accepts ref = true →
    fromVf ref = false →
    wholeRefused 0x100C (cdw11 % 2 ^ 6) = false →
    exec (.setFeaturesRulingPriority ref save cdw11) s =
      .next (((((s.latch ref).setFld F.RUL_SRC_PRIO_P1 (bitsOf (cdw11 % 2 ^ 6) 0 2)).setFld F.RUL_SRC_PRIO_P2 (bitsOf (cdw11 % 2 ^ 6) 2 2)).setFld F.RUL_SRC_PRIO_P3 (bitsOf (cdw11 % 2 ^ 6) 4 2)).featSet ref save 0xC3 0 (cdw11 % 2 ^ 6))) ∧
  (∀ (s : State) (ref : Ref) (cdw11 : Nat) (save : Bool),
    s.accepts ref = true →
    fromVf ref = false →
    cdw11 % 2 ^ 9 = 0 ∨ 365 < cdw11 % 2 ^ 9 →
    exec (.setFeaturesPatrolPeriod ref save cdw11) s =
      .next ((s.latch ref).complete ref .invalidField 0)) ∧
  (∀ (s : State) (ref : Ref) (cdw11 : Nat) (save : Bool),
    s.accepts ref = true →
    fromVf ref = false →
    1 ≤ cdw11 % 2 ^ 9 →
    cdw11 % 2 ^ 9 ≤ 365 →
    exec (.setFeaturesPatrolPeriod ref save cdw11) s =
      .next ((s.latch ref).featSet ref save 0xC4 0 (cdw11 % 2 ^ 9))) ∧
  (∀ (s : State) (ref : Ref) (cdw11 : Nat) (save : Bool),
    s.accepts ref = true →
    fromVf ref = false →
    limitsRefused (cdw11.testBit 31) (cdw11 % 2 ^ 24) = true →
    exec (.setFeaturesThermalLimits ref save cdw11) s =
      .next ((s.latch ref).complete ref .invalidField 0)) ∧
  (∀ (s : State) (ref : Ref) (cdw11 : Nat) (save : Bool),
    s.accepts ref = true →
    fromVf ref = false →
    limitsRefused (cdw11.testBit 31) (cdw11 % 2 ^ 24) = false →
    exec (.setFeaturesThermalLimits ref save cdw11) s =
      .next (((s.latch ref).setFld (if cdw11.testBit 31 then F.THM_LIMIT_N_N1_N3 else F.THM_LIMIT_J_J1_J3) (cdw11 % 2 ^ 24)).featSet ref save 0xC5 (bit (cdw11.testBit 31)) (cdw11 % 2 ^ 24))) ∧
  (∀ (s : State) (ref : Ref) (cdw11 : Nat) (save : Bool),
    s.accepts ref = true →
    fromVf ref = false →
    exec (.setFeaturesInkTime ref save cdw11) s =
      .next ((s.latch ref).featSet ref save 0xC7 (ctrlIx ref) (cdw11 % 2))) ∧
  (∀ (s : State) (ref : Ref) (cdw11 : Nat) (token : Option OwnerToken),
    s.accepts ref = true →
    fromVf ref = false →
    (s.latch ref).lifecycle ≠ 3 →
    exec (.setFeaturesOwnerUpdateLock ref cdw11 token) s =
      .next ((s.latch ref).complete ref .cmdSeqError 0)) ∧
  (∀ (s : State) (ref : Ref) (cdw11 : Nat) (token : Option OwnerToken),
    s.accepts ref = true →
    fromVf ref = false →
    (s.latch ref).lifecycle = 3 →
    ((cdw11.testBit 1 && !(s.latch ref).ownerTokenOk token 2) || (!cdw11.testBit 0 && ((s.latch ref).bxl.lock || !cdw11.testBit 1) && !(s.latch ref).ownerTokenOk token 1)) = true →
    exec (.setFeaturesOwnerUpdateLock ref cdw11 token) s =
      .next ((s.latch ref).complete ref .invalidField 0)) ∧
  (∀ (s : State) (ref : Ref) (cdw11 : Nat) (token : Option OwnerToken),
    s.accepts ref = true →
    fromVf ref = false →
    (s.latch ref).lifecycle = 3 →
    ((cdw11.testBit 1 && !(s.latch ref).ownerTokenOk token 2) || (!cdw11.testBit 0 && ((s.latch ref).bxl.lock || !cdw11.testBit 1) && !(s.latch ref).ownerTokenOk token 1)) = false →
    cdw11.testBit 0 = (s.latch ref).bxl.lock →
    exec (.setFeaturesOwnerUpdateLock ref cdw11 token) s =
      .next (({ (s.latch ref) with bxl := { (s.latch ref).bxl with force := cdw11.testBit 1 } }).complete ref .success 0)) ∧
  (∀ (s : State) (ref : Ref) (cdw11 : Nat) (token : Option OwnerToken),
    s.accepts ref = true →
    fromVf ref = false →
    (s.latch ref).lifecycle = 3 →
    ((cdw11.testBit 1 && !(s.latch ref).ownerTokenOk token 2) || (!cdw11.testBit 0 && ((s.latch ref).bxl.lock || !cdw11.testBit 1) && !(s.latch ref).ownerTokenOk token 1)) = false →
    cdw11.testBit 0 ≠ (s.latch ref).bxl.lock →
    exec (.setFeaturesOwnerUpdateLock ref cdw11 token) s =
      .next (({ (s.latch ref) with bxl := { (s.latch ref).bxl with force := cdw11.testBit 1 } }).folio { job := .owner (cdw11.testBit 0), erase := true, ref := some ref })) ∧
  (∀ (s : State) (ref : Ref) (fid nsid cdw11 : Nat) (sel : Nat),
    s.accepts ref = true →
    (!featKnown fid || 3 < sel) = true →
    exec (.getFeatures ref fid nsid sel cdw11) s =
      .next ((s.latch ref).complete ref .invalidField 0)) ∧
  (∀ (s : State) (ref : Ref) (fid nsid cdw11 : Nat) (sel : Nat),
    s.accepts ref = true →
    (!featKnown fid || 3 < sel) = false →
    ((fid = 0x82 || fid = 0x83 || fid = 0xC0 || fid = 0x1E) && !(s.latch ref).qe.nss.any (fun n => n.nsid == nsid && n.attached.contains (ctrlIx ref))) = true →
    exec (.getFeatures ref fid nsid sel cdw11) s =
      .next ((s.latch ref).complete ref .invalidNamespace 0)) ∧
  (∀ (s : State) (ref : Ref) (fid nsid cdw11 : Nat),
    s.accepts ref = true →
    featKnown fid = true →
    ((fid = 0x82 || fid = 0x83 || fid = 0xC0 || fid = 0x1E) && !(s.latch ref).qe.nss.any (fun n => n.nsid == nsid && n.attached.contains (ctrlIx ref))) = false →
    fid ≠ 0x81 →
    exec (.getFeatures ref fid nsid 0 cdw11) s =
      .next ((s.latch ref).complete ref .success ((s.latch ref).featShown fid nsid cdw11 ref))) ∧
  (∀ (s : State) (ref : Ref) (nsid cdw11 : Nat),
    s.accepts ref = true →
    exec (.getFeatures ref 0x81 nsid 0 cdw11) s =
      .next (((s.latch ref).emit (.data ref 0x0A 0x81 0 16 [(0, 16, (((s.latch ref).ctrl (ctrlIx ref)).bind (fun k => k.hostId)).getD 0)])).complete ref .success 0)) ∧
  (∀ (s : State) (ref : Ref) (fid nsid cdw11 : Nat),
    s.accepts ref = true →
    featKnown fid = true →
    ((fid = 0x82 || fid = 0x83 || fid = 0xC0 || fid = 0x1E) && !(s.latch ref).qe.nss.any (fun n => n.nsid == nsid && n.attached.contains (ctrlIx ref))) = false →
    exec (.getFeatures ref fid nsid 1 cdw11) s =
      .next ((s.latch ref).complete ref .success (featDefault fid (featScope fid nsid cdw11 ref)))) ∧
  (∀ (s : State) (ref : Ref) (fid nsid cdw11 : Nat) (f : Feat),
    s.accepts ref = true →
    featKnown fid = true →
    ((fid = 0x82 || fid = 0x83 || fid = 0xC0 || fid = 0x1E) && !(s.latch ref).qe.nss.any (fun n => n.nsid == nsid && n.attached.contains (ctrlIx ref))) = false →
    (s.latch ref).qe.savedFeats.find? (fun f => f.fid == fid && f.scope == featScope fid nsid cdw11 ref) = some f →
    exec (.getFeatures ref fid nsid 2 cdw11) s =
      .next ((s.latch ref).complete ref .success f.cur)) ∧
  (∀ (s : State) (ref : Ref) (fid nsid cdw11 : Nat),
    s.accepts ref = true →
    featKnown fid = true →
    ((fid = 0x82 || fid = 0x83 || fid = 0xC0 || fid = 0x1E) && !(s.latch ref).qe.nss.any (fun n => n.nsid == nsid && n.attached.contains (ctrlIx ref))) = false →
    (s.latch ref).qe.savedFeats.find? (fun f => f.fid == fid && f.scope == featScope fid nsid cdw11 ref) = none →
    exec (.getFeatures ref fid nsid 2 cdw11) s =
      .next ((s.latch ref).complete ref .success (featDefault fid (featScope fid nsid cdw11 ref)))) ∧
  (∀ (s : State) (ref : Ref) (fid nsid cdw11 : Nat),
    s.accepts ref = true →
    featKnown fid = true →
    ((fid = 0x82 || fid = 0x83 || fid = 0xC0 || fid = 0x1E) && !(s.latch ref).qe.nss.any (fun n => n.nsid == nsid && n.attached.contains (ctrlIx ref))) = false →
    exec (.getFeatures ref fid nsid 3 cdw11) s =
      .next ((s.latch ref).complete ref .success (bit (featSaveable fid) + 2 * bit (fid = 0x82 || fid = 0x83 || fid = 0xC0 || fid = 0x1E) + 4)))

/-- Only a PF and the management port may send them, and a running sanitize stops them. A created namespace takes the lowest free NSID and key slot; a deletion releases cuts and deletes the live ones; attachment changes the attached controllers and tells them; Format reformats, and with SES 1 or 2 replaces the keys; a sanitize starts, and Exit Failure Mode leaves the failed state. The first condition that refuses decides. Where the spec leaves a point open, it rests on the model's choices of log entries 5, 16, 41, 42, 43 and 60. -/
def Obligations.NamespacesAndFormat : Prop :=
  (∀ (s : State) (ref : Ref) (sel nsid blocks lbaf : Nat) (handles : List Nat),
    s.accepts ref = true →
    fromVf ref = true →
    exec (.namespaceManagement ref sel nsid blocks lbaf handles) s =
      .next ((s.latch ref).complete ref .invalidOpcode 0)) ∧
  (∀ (s : State) (ref : Ref) (sel nsid blocks lbaf : Nat) (handles : List Nat),
    s.accepts ref = true →
    fromVf ref = false →
    (s.latch ref).map.sanitize.active ≠ 0 →
    exec (.namespaceManagement ref sel nsid blocks lbaf handles) s =
      .next ((s.latch ref).complete ref .sanitizeInProgress 0)) ∧
  (∀ (s : State) (ref : Ref) (sel nsid : Nat) (ctrls : List Nat),
    s.accepts ref = true →
    fromVf ref = true →
    exec (.namespaceAttachment ref sel nsid ctrls) s =
      .next ((s.latch ref).complete ref .invalidOpcode 0)) ∧
  (∀ (s : State) (ref : Ref) (sel nsid : Nat) (ctrls : List Nat),
    s.accepts ref = true →
    fromVf ref = false →
    (s.latch ref).map.sanitize.active ≠ 0 →
    exec (.namespaceAttachment ref sel nsid ctrls) s =
      .next ((s.latch ref).complete ref .sanitizeInProgress 0)) ∧
  (∀ (s : State) (ref : Ref) (nsid lbaf ses : Nat),
    s.accepts ref = true →
    fromVf ref = true →
    exec (.formatNvm ref nsid lbaf ses) s =
      .next ((s.latch ref).complete ref .invalidOpcode 0)) ∧
  (∀ (s : State) (ref : Ref) (nsid lbaf ses : Nat),
    s.accepts ref = true →
    fromVf ref = false →
    (s.latch ref).map.sanitize.active ≠ 0 →
    exec (.formatNvm ref nsid lbaf ses) s =
      .next ((s.latch ref).complete ref .sanitizeInProgress 0)) ∧
  (∀ (s : State) (ref : Ref) (ause : Bool),
    s.accepts ref = true →
    fromVf ref = true →
    exec (.sanitizeBlockErase ref ause) s =
      .next ((s.latch ref).complete ref .invalidOpcode 0)) ∧
  (∀ (s : State) (ref : Ref) (ause : Bool),
    s.accepts ref = true →
    fromVf ref = false →
    (s.latch ref).map.sanitize.active ≠ 0 →
    exec (.sanitizeBlockErase ref ause) s =
      .next ((s.latch ref).complete ref .sanitizeInProgress 0)) ∧
  (∀ (s : State) (ref : Ref) (ause : Bool),
    s.accepts ref = true →
    fromVf ref = true →
    exec (.sanitizeCryptoErase ref ause) s =
      .next ((s.latch ref).complete ref .invalidOpcode 0)) ∧
  (∀ (s : State) (ref : Ref) (ause : Bool),
    s.accepts ref = true →
    fromVf ref = false →
    (s.latch ref).map.sanitize.active ≠ 0 →
    exec (.sanitizeCryptoErase ref ause) s =
      .next ((s.latch ref).complete ref .sanitizeInProgress 0)) ∧
  (∀ (s : State) (ref : Ref) (sanact : Nat) (ause : Bool),
    s.accepts ref = true →
    fromVf ref = true →
    exec (.sanitizeExitFailure ref sanact ause) s =
      .next ((s.latch ref).complete ref .invalidOpcode 0)) ∧
  (∀ (s : State) (ref : Ref) (sanact : Nat) (ause : Bool),
    s.accepts ref = true →
    fromVf ref = false →
    (s.latch ref).map.sanitize.active ≠ 0 →
    exec (.sanitizeExitFailure ref sanact ause) s =
      .next ((s.latch ref).complete ref .sanitizeInProgress 0)) ∧
  (∀ (s : State) (ref : Ref) (nsid blocks lbaf : Nat) (handles : List Nat),
    s.accepts ref = true →
    fromVf ref = false →
    (s.latch ref).map.sanitize.active = 0 →
    (s.latch ref).lifecycle = 5 →
    exec (.namespaceManagement ref 0 nsid blocks lbaf handles) s =
      .next ((s.latch ref).complete ref .cmdSeqError 0)) ∧
  (∀ (s : State) (ref : Ref) (nsid blocks lbaf : Nat) (handles : List Nat),
    s.accepts ref = true →
    fromVf ref = false →
    (s.latch ref).map.sanitize.active = 0 →
    (s.latch ref).lifecycle ≠ 5 →
    2 < lbaf →
    exec (.namespaceManagement ref 0 nsid blocks lbaf handles) s =
      .next ((s.latch ref).complete ref .invalidFormat 0)) ∧
  (∀ (s : State) (ref : Ref) (nsid blocks lbaf : Nat) (handles : List Nat),
    s.accepts ref = true →
    fromVf ref = false →
    (s.latch ref).map.sanitize.active = 0 →
    (s.latch ref).lifecycle ≠ 5 →
    lbaf ≤ 2 →
    (blocks = 0 || handles.any (fun h => (s.latch ref).fld F.MAP_WP_CFG_HANDLES ≤ h)) = true →
    exec (.namespaceManagement ref 0 nsid blocks lbaf handles) s =
      .next ((s.latch ref).complete ref .invalidField 0)) ∧
  (∀ (s : State) (ref : Ref) (nsid blocks lbaf : Nat) (handles : List Nat),
    s.accepts ref = true →
    fromVf ref = false →
    (s.latch ref).map.sanitize.active = 0 →
    (s.latch ref).lifecycle ≠ 5 →
    lbaf ≤ 2 →
    (blocks = 0 || handles.any (fun h => (s.latch ref).fld F.MAP_WP_CFG_HANDLES ≤ h)) = false →
    (s.latch ref).freeNsids = 0 →
    exec (.namespaceManagement ref 0 nsid blocks lbaf handles) s =
      .next ((s.latch ref).complete ref .nsIdUnavailable 0)) ∧
  (∀ (s : State) (ref : Ref) (nsid blocks lbaf : Nat) (handles : List Nat),
    s.accepts ref = true →
    fromVf ref = false →
    (s.latch ref).map.sanitize.active = 0 →
    (s.latch ref).lifecycle ≠ 5 →
    lbaf ≤ 2 →
    (blocks = 0 || handles.any (fun h => (s.latch ref).fld F.MAP_WP_CFG_HANDLES ≤ h)) = false →
    (s.latch ref).freeNsids ≠ 0 →
    (s.latch ref).freeSlots 1 = [] →
    exec (.namespaceManagement ref 0 nsid blocks lbaf handles) s =
      .next (((s.latch ref).post F.INK_EVT_STATUS_KEY_FULL noUnit).complete ref .nsIdUnavailable 0)) ∧
  (∀ (s : State) (ref : Ref) (nsid blocks lbaf : Nat) (handles : List Nat) (slot : Nat) (more : List Nat),
    s.accepts ref = true →
    fromVf ref = false →
    (s.latch ref).map.sanitize.active = 0 →
    (s.latch ref).lifecycle ≠ 5 →
    lbaf ≤ 2 →
    (blocks = 0 || handles.any (fun h => (s.latch ref).fld F.MAP_WP_CFG_HANDLES ≤ h)) = false →
    (s.latch ref).freeNsids ≠ 0 →
    (s.latch ref).freeSlots 1 = slot :: more →
    (s.latch ref).capacityIus < (s.latch ref).neededIus + ceilDiv (blocks * Ns.blkSectors ({ nsid := (s.latch ref).freeNsid, blocks := blocks, lbaf := lbaf, handles := if handles.isEmpty then [0] else handles, born := (s.latch ref).now } : Ns)) (s.latch ref).iuSectors →
    exec (.namespaceManagement ref 0 nsid blocks lbaf handles) s =
      .next ((s.latch ref).complete ref .nsInsufficientCapacity 0)) ∧
  (∀ (s : State) (ref : Ref) (nsid blocks lbaf : Nat) (handles : List Nat) (slot : Nat) (more : List Nat),
    s.accepts ref = true →
    fromVf ref = false →
    (s.latch ref).map.sanitize.active = 0 →
    (s.latch ref).lifecycle ≠ 5 →
    lbaf ≤ 2 →
    (blocks = 0 || handles.any (fun h => (s.latch ref).fld F.MAP_WP_CFG_HANDLES ≤ h)) = false →
    (s.latch ref).freeNsids ≠ 0 →
    (s.latch ref).freeSlots 1 = slot :: more →
    (s.latch ref).neededIus + ceilDiv (blocks * Ns.blkSectors ({ nsid := (s.latch ref).freeNsid, blocks := blocks, lbaf := lbaf, handles := if handles.isEmpty then [0] else handles, born := (s.latch ref).now } : Ns)) (s.latch ref).iuSectors ≤ (s.latch ref).capacityIus →
    exec (.namespaceManagement ref 0 nsid blocks lbaf handles) s =
      .next (({ (s.latch ref) with
          qe := { (s.latch ref).qe with nss := (s.latch ref).qe.nss ++ [{ ({ nsid := (s.latch ref).freeNsid, blocks := blocks, lbaf := lbaf, handles := if handles.isEmpty then [0] else handles, born := (s.latch ref).now } : Ns) with key := some slot }] }
          ink := { (s.latch ref).ink with keys := (⟨slot, (s.latch ref).fol.nextKey⟩ : KeySlot) :: (s.latch ref).ink.keys }
          fol := { (s.latch ref).fol with nextKey := (s.latch ref).fol.nextKey + 1, keyTab := ((s.latch ref).freeNsid, (s.latch ref).fol.nextKey) :: (s.latch ref).fol.keyTab.filter (fun e => e.1 != (s.latch ref).freeNsid) } } : State).folio
            { job := .keys false, erase := true, ref := some ref, dw0 := (s.latch ref).freeNsid })) ∧
  (∀ (s : State) (ref : Ref) (nsid blocks lbaf : Nat) (handles : List Nat),
    s.accepts ref = true →
    fromVf ref = false →
    (s.latch ref).map.sanitize.active = 0 →
    (((s.latch ref).qe.nss.filter (fun n => nsid == 0xFFFFFFFF || n.nsid == nsid)).isEmpty && nsid != 0xFFFFFFFF) = true →
    exec (.namespaceManagement ref 1 nsid blocks lbaf handles) s =
      .next ((s.latch ref).complete ref .invalidNamespace 0)) ∧
  (∀ (s : State) (ref : Ref) (nsid blocks lbaf : Nat) (handles : List Nat),
    s.accepts ref = true →
    fromVf ref = false →
    (s.latch ref).map.sanitize.active = 0 →
    (((s.latch ref).qe.nss.filter (fun n => nsid == 0xFFFFFFFF || n.nsid == nsid)).isEmpty && nsid != 0xFFFFFFFF) = false →
    exec (.namespaceManagement ref 1 nsid blocks lbaf handles) s =
      .next (let live := ((s.latch ref).qe.nss.filter (fun n => nsid == 0xFFFFFFFF || n.nsid == nsid)).filter (fun n => n.cut.isNone)
        let t := live.foldl State.nsDelete (((((s.latch ref).qe.nss.filter (fun n => nsid == 0xFFFFFFFF || n.nsid == nsid)).filterMap (fun n => n.cut)).eraseDups).foldl State.releaseCut (s.latch ref))
        if live.isEmpty then t.complete ref .success 0
        else (t.nsChanged (live.map (fun n => n.nsid))).folio { job := .keys false, erase := true, ref := some ref })) ∧
  (∀ (s : State) (ref : Ref) (sel nsid : Nat) (ctrls : List Nat),
    s.accepts ref = true →
    fromVf ref = false →
    (s.latch ref).map.sanitize.active = 0 →
    1 < sel →
    exec (.namespaceAttachment ref sel nsid ctrls) s =
      .next ((s.latch ref).complete ref .invalidField 0)) ∧
  (∀ (s : State) (ref : Ref) (sel nsid : Nat) (ctrls : List Nat),
    s.accepts ref = true →
    fromVf ref = false →
    (s.latch ref).map.sanitize.active = 0 →
    sel ≤ 1 →
    (s.latch ref).ns nsid = none →
    exec (.namespaceAttachment ref sel nsid ctrls) s =
      .next ((s.latch ref).complete ref .invalidNamespace 0)) ∧
  (∀ (s : State) (ref : Ref) (sel nsid : Nat) (ctrls : List Nat) (n : Ns),
    s.accepts ref = true →
    fromVf ref = false →
    (s.latch ref).map.sanitize.active = 0 →
    sel ≤ 1 →
    (s.latch ref).ns nsid = some n →
    (ctrls.isEmpty || ctrls.any (fun c => ((s.latch ref).ctrl c).isNone)) = true →
    exec (.namespaceAttachment ref sel nsid ctrls) s =
      .next ((s.latch ref).complete ref .controllerListInvalid 0)) ∧
  (∀ (s : State) (ref : Ref) (sel nsid : Nat) (ctrls : List Nat) (n : Ns),
    s.accepts ref = true →
    fromVf ref = false →
    (s.latch ref).map.sanitize.active = 0 →
    sel ≤ 1 →
    (s.latch ref).ns nsid = some n →
    (ctrls.isEmpty || ctrls.any (fun c => ((s.latch ref).ctrl c).isNone)) = false →
    (sel == 0 && ctrls.any n.attached.contains) = true →
    exec (.namespaceAttachment ref sel nsid ctrls) s =
      .next ((s.latch ref).complete ref .nsAlreadyAttached 0)) ∧
  (∀ (s : State) (ref : Ref) (sel nsid : Nat) (ctrls : List Nat) (n : Ns),
    s.accepts ref = true →
    fromVf ref = false →
    (s.latch ref).map.sanitize.active = 0 →
    sel ≤ 1 →
    (s.latch ref).ns nsid = some n →
    (ctrls.isEmpty || ctrls.any (fun c => ((s.latch ref).ctrl c).isNone)) = false →
    (sel == 0 && ctrls.any n.attached.contains) = false →
    (!(sel == 0) && ctrls.any (fun c => !n.attached.contains c)) = true →
    exec (.namespaceAttachment ref sel nsid ctrls) s =
      .next ((s.latch ref).complete ref .nsNotAttached 0)) ∧
  (∀ (s : State) (ref : Ref) (sel nsid : Nat) (ctrls : List Nat) (n : Ns),
    s.accepts ref = true →
    fromVf ref = false →
    (s.latch ref).map.sanitize.active = 0 →
    sel ≤ 1 →
    (s.latch ref).ns nsid = some n →
    (ctrls.isEmpty || ctrls.any (fun c => ((s.latch ref).ctrl c).isNone)) = false →
    (sel == 0 && ctrls.any n.attached.contains) = false →
    (!(sel == 0) && ctrls.any (fun c => !n.attached.contains c)) = false →
    exec (.namespaceAttachment ref sel nsid ctrls) s =
      .next (let t := (s.latch ref).updNs nsid (fun n => { n with attached := if sel == 0 then n.attached ++ ctrls.eraseDups else n.attached.filter (fun c => !ctrls.contains c) })
        let new := (ctrls.map (fun c => (c, nsid))).filter (fun e => !t.qe.nsLog.contains e)
        (ctrls.foldl (fun (s : State) c => if (s.ctrl c).any (fun k => k.en) then s.aenTo 64 c else s)
          ({ t with qe := { t.qe with nsLog := t.qe.nsLog ++ new.eraseDups } } : State)).complete ref .success 0)) ∧
  (∀ (s : State) (ref : Ref) (nsid lbaf ses : Nat),
    s.accepts ref = true →
    fromVf ref = false →
    (s.latch ref).map.sanitize.active = 0 →
    2 < lbaf →
    exec (.formatNvm ref nsid lbaf ses) s =
      .next ((s.latch ref).complete ref .invalidFormat 0)) ∧
  (∀ (s : State) (ref : Ref) (nsid lbaf ses : Nat),
    s.accepts ref = true →
    fromVf ref = false →
    (s.latch ref).map.sanitize.active = 0 →
    lbaf ≤ 2 →
    2 < ses →
    exec (.formatNvm ref nsid lbaf ses) s =
      .next ((s.latch ref).complete ref .invalidField 0)) ∧
  (∀ (s : State) (ref : Ref) (nsid lbaf ses : Nat),
    s.accepts ref = true →
    fromVf ref = false →
    (s.latch ref).map.sanitize.active = 0 →
    lbaf ≤ 2 →
    ses ≤ 2 →
    (((s.latch ref).qe.nss.filter (fun n => (nsid == 0xFFFFFFFF && n.cut.isNone) || n.nsid == nsid)).isEmpty && nsid != 0xFFFFFFFF) = true →
    exec (.formatNvm ref nsid lbaf ses) s =
      .next ((s.latch ref).complete ref .invalidNamespace 0)) ∧
  (∀ (s : State) (ref : Ref) (nsid lbaf ses : Nat),
    s.accepts ref = true →
    fromVf ref = false →
    (s.latch ref).map.sanitize.active = 0 →
    lbaf ≤ 2 →
    ses ≤ 2 →
    (((s.latch ref).qe.nss.filter (fun n => (nsid == 0xFFFFFFFF && n.cut.isNone) || n.nsid == nsid)).isEmpty && nsid != 0xFFFFFFFF) = false →
    ((s.latch ref).qe.nss.filter (fun n => (nsid == 0xFFFFFFFF && n.cut.isNone) || n.nsid == nsid)).any (fun n => n.cut.isSome) = true →
    exec (.formatNvm ref nsid lbaf ses) s =
      .next ((s.latch ref).complete ref .writeProtected 0)) ∧
  (∀ (s : State) (ref : Ref) (nsid lbaf ses : Nat),
    s.accepts ref = true →
    fromVf ref = false →
    (s.latch ref).map.sanitize.active = 0 →
    lbaf ≤ 2 →
    ses ≤ 2 →
    (((s.latch ref).qe.nss.filter (fun n => (nsid == 0xFFFFFFFF && n.cut.isNone) || n.nsid == nsid)).isEmpty && nsid != 0xFFFFFFFF) = false →
    ((s.latch ref).qe.nss.filter (fun n => (nsid == 0xFFFFFFFF && n.cut.isNone) || n.nsid == nsid)).any (fun n => n.cut.isSome) = false →
    (s.latch ref).qe.cmds.any (fun c => ((s.latch ref).qe.nss.filter (fun n => (nsid == 0xFFFFFFFF && n.cut.isNone) || n.nsid == nsid)).any (fun n => n.nsid == c.nsid)) = true →
    exec (.formatNvm ref nsid lbaf ses) s =
      .next ((s.latch ref).complete ref .cmdSeqError 0)) ∧
  (∀ (s : State) (ref : Ref) (nsid lbaf ses : Nat),
    s.accepts ref = true →
    fromVf ref = false →
    (s.latch ref).map.sanitize.active = 0 →
    lbaf ≤ 2 →
    ses ≤ 2 →
    (((s.latch ref).qe.nss.filter (fun n => (nsid == 0xFFFFFFFF && n.cut.isNone) || n.nsid == nsid)).isEmpty && nsid != 0xFFFFFFFF) = false →
    ((s.latch ref).qe.nss.filter (fun n => (nsid == 0xFFFFFFFF && n.cut.isNone) || n.nsid == nsid)).any (fun n => n.cut.isSome) = false →
    (s.latch ref).qe.cmds.any (fun c => ((s.latch ref).qe.nss.filter (fun n => (nsid == 0xFFFFFFFF && n.cut.isNone) || n.nsid == nsid)).any (fun n => n.nsid == c.nsid)) = false →
    exec (.formatNvm ref nsid lbaf ses) s =
      .next (let t := ((s.latch ref).qe.nss.filter (fun n => (nsid == 0xFFFFFFFF && n.cut.isNone) || n.nsid == nsid)).foldl (fun (s : State) n => s.formatNs lbaf ses n) (s.latch ref)
        if ses = 0 || ((s.latch ref).qe.nss.filter (fun n => (nsid == 0xFFFFFFFF && n.cut.isNone) || n.nsid == nsid)).isEmpty then t.complete ref .success 0
        else t.folio { job := .keys false, erase := true, ref := some ref })) ∧
  (∀ (s : State) (ref : Ref) (ause : Bool),
    s.accepts ref = true →
    fromVf ref = false →
    (s.latch ref).map.sanitize.active = 0 →
    exec (.sanitizeBlockErase ref ause) s =
      .next ((s.latch ref).startSanitize ref 2 ause)) ∧
  (∀ (s : State) (ref : Ref) (ause : Bool),
    s.accepts ref = true →
    fromVf ref = false →
    (s.latch ref).map.sanitize.active = 0 →
    exec (.sanitizeCryptoErase ref ause) s =
      .next ((s.latch ref).startSanitize ref 4 ause)) ∧
  (∀ (s : State) (ref : Ref) (ause : Bool),
    s.accepts ref = true →
    fromVf ref = false →
    (s.latch ref).map.sanitize.active = 0 →
    (s.latch ref).map.sanitize.failed = false →
    exec (.sanitizeExitFailure ref 1 ause) s =
      .next ((s.latch ref).complete ref .success 0)) ∧
  (∀ (s : State) (ref : Ref) (ause : Bool),
    s.accepts ref = true →
    fromVf ref = false →
    (s.latch ref).map.sanitize.active = 0 →
    (s.latch ref).map.sanitize.failed = true →
    (s.latch ref).map.sanitize.ause = false →
    exec (.sanitizeExitFailure ref 1 ause) s =
      .next ((s.latch ref).complete ref .sanitizeFailed 0)) ∧
  (∀ (s : State) (ref : Ref) (ause : Bool),
    s.accepts ref = true →
    fromVf ref = false →
    (s.latch ref).map.sanitize.active = 0 →
    (s.latch ref).map.sanitize.failed = true →
    (s.latch ref).map.sanitize.ause = true →
    exec (.sanitizeExitFailure ref 1 ause) s =
      .next (({ (s.latch ref) with map := { (s.latch ref).map with sanitize := { (s.latch ref).map.sanitize with failed := false } } }).folio { job := .sanitize, erase := true, ref := some ref })) ∧
  (∀ (s : State) (ref : Ref) (sanact : Nat) (ause : Bool),
    s.accepts ref = true →
    fromVf ref = false →
    (s.latch ref).map.sanitize.active = 0 →
    sanact = 0 ∨ sanact = 3 ∨ 5 ≤ sanact →
    exec (.sanitizeExitFailure ref sanact ause) s =
      .next ((s.latch ref).complete ref .invalidField 0))

/-- Keep Alive starts the controller's timer anew; the Identify directive enables or shows the Data Placement directive of an attached namespace; Doorbell Buffer Config shadows the controller's doorbells from its completion on. Where the spec leaves a point open, it rests on the model's choices of log entries 5, 43 and 44. -/
def Obligations.AdminSmall : Prop :=
  (∀ (s : State) (ref : Ref) ,
    s.accepts ref = true →
    exec (.keepAlive ref) s =
      .next (({ (s.latch ref) with qe := { (s.latch ref).qe with keepAlive := (ctrlIx ref, (s.latch ref).now) :: (s.latch ref).qe.keepAlive.filter (fun e => e.1 != ctrlIx ref) } }).complete ref .success 0)) ∧
  (∀ (s : State) (ref : Ref) (nsid dtype doper cdw12 : Nat),
    s.accepts ref = true →
    ((s.latch ref).ns nsid).any (fun n => n.attached.contains (ctrlIx ref)) = false →
    exec (.directiveSend ref nsid dtype doper cdw12) s =
      .next ((s.latch ref).complete ref .invalidNamespace 0)) ∧
  (∀ (s : State) (ref : Ref) (nsid dtype doper cdw12 : Nat),
    s.accepts ref = true →
    ((s.latch ref).ns nsid).any (fun n => n.attached.contains (ctrlIx ref)) = true →
    (dtype != 0 || doper != 1 || bitsOf cdw12 8 8 != 2 || (cdw12.testBit 0 && !(s.latch ref).map.fdp)) = true →
    exec (.directiveSend ref nsid dtype doper cdw12) s =
      .next ((s.latch ref).complete ref .invalidField 0)) ∧
  (∀ (s : State) (ref : Ref) (nsid dtype doper cdw12 : Nat),
    s.accepts ref = true →
    ((s.latch ref).ns nsid).any (fun n => n.attached.contains (ctrlIx ref)) = true →
    (dtype != 0 || doper != 1 || bitsOf cdw12 8 8 != 2 || (cdw12.testBit 0 && !(s.latch ref).map.fdp)) = false →
    exec (.directiveSend ref nsid dtype doper cdw12) s =
      .next (let rest := (s.latch ref).qe.dirs.filter (fun d => !(d.1 == ctrlIx ref && d.2 == nsid))
        ({ (s.latch ref) with qe := { (s.latch ref).qe with dirs := if cdw12.testBit 0 then (ctrlIx ref, nsid) :: rest else rest } }).complete ref .success 0)) ∧
  (∀ (s : State) (ref : Ref) (nsid dtype doper : Nat),
    s.accepts ref = true →
    ((s.latch ref).ns nsid).any (fun n => n.attached.contains (ctrlIx ref)) = false →
    exec (.directiveReceive ref nsid dtype doper) s =
      .next ((s.latch ref).complete ref .invalidNamespace 0)) ∧
  (∀ (s : State) (ref : Ref) (nsid dtype doper : Nat),
    s.accepts ref = true →
    ((s.latch ref).ns nsid).any (fun n => n.attached.contains (ctrlIx ref)) = true →
    (dtype != 0 || doper != 1) = true →
    exec (.directiveReceive ref nsid dtype doper) s =
      .next ((s.latch ref).complete ref .invalidField 0)) ∧
  (∀ (s : State) (ref : Ref) (nsid dtype doper : Nat),
    s.accepts ref = true →
    ((s.latch ref).ns nsid).any (fun n => n.attached.contains (ctrlIx ref)) = true →
    (dtype != 0 || doper != 1) = false →
    exec (.directiveReceive ref nsid dtype doper) s =
      .next (((s.latch ref).emit (.data ref 0x1A 0 0 4096 [(0, 32, 1 + 4 * bit (s.latch ref).map.fdp), (32, 32, 1 + 4 * bit ((s.latch ref).qe.dirs.contains (ctrlIx ref, nsid)))])).complete ref .success 0)) ∧
  (∀ (s : State) (ref : Ref) (prp1 prp2 : Nat),
    s.accepts ref = true →
    (prp1 % 4096 != 0 || prp2 % 4096 != 0) = true →
    exec (.doorbellBufferConfig ref prp1 prp2) s =
      .next ((s.latch ref).complete ref .invalidField 0)) ∧
  (∀ (s : State) (ref : Ref) (prp1 prp2 : Nat),
    s.accepts ref = true →
    (prp1 % 4096 != 0 || prp2 % 4096 != 0) = false →
    exec (.doorbellBufferConfig ref prp1 prp2) s =
      .next (((s.latch ref).updCtrl (ctrlIx ref) (fun k => { k with shadowDb := true })).complete ref .success 0))

/-- Only a PF or the management port may send them. A download of whole 64 KiB pieces within the staging goes into it; a commit names slot 2 (000b, 001b) or slot 2 or 3 (010b), and is refused with Update Refused and its reason, fails for an image that does not verify, or starts; slot activation writes the slot record. Where the spec leaves a point open, it rests on the model's choices of log entries 16, 39, 42, 43, 62, 63 and 65. -/
def Obligations.FirmwareCommands : Prop :=
  (∀ (s : State) (ref : Ref) (offset length : Nat) (chunks : List (Nat × PkgChunk)),
    s.accepts ref = true →
    (holderOf ref).isNone = true →
    exec (.firmwareImageDownload ref offset length chunks) s =
      .next ((s.latch ref).complete ref .invalidOpcode 0)) ∧
  (∀ (s : State) (ref : Ref) (offset length : Nat) (chunks : List (Nat × PkgChunk)),
    s.accepts ref = true →
    (holderOf ref).isNone = false →
    (offset % 65536 != 0 || length % 65536 != 0 || length = 0 || 33554432 < offset + length) = true →
    exec (.firmwareImageDownload ref offset length chunks) s =
      .next ((s.latch ref).complete ref .invalidField 0)) ∧
  (∀ (s : State) (ref : Ref) (offset length : Nat) (chunks : List (Nat × PkgChunk)),
    s.accepts ref = true →
    (holderOf ref).isNone = false →
    (offset % 65536 != 0 || length % 65536 != 0 || length = 0 || 33554432 < offset + length) = false →
    exec (.firmwareImageDownload ref offset length chunks) s =
      .next (({ (s.latch ref) with bxl := { (s.latch ref).bxl with
          staging := (List.range (length / 65536)).foldl (stagePiece chunks (offset / 65536)) (s.latch ref).bxl.staging } }).complete ref .success 0)) ∧
  (∀ (s : State) (ref : Ref) (slot : Nat),
    s.accepts ref = true →
    (holderOf ref).isNone = true →
    exec (.firmwareCommitStore ref slot) s =
      .next ((s.latch ref).complete ref .invalidOpcode 0)) ∧
  (∀ (s : State) (ref : Ref) (slot : Nat),
    s.accepts ref = true →
    (holderOf ref).isNone = false →
    slot ≠ 2 →
    exec (.firmwareCommitStore ref slot) s =
      .next (({ (s.latch ref) with bxl := { (s.latch ref).bxl with force := false } } : State).complete ref .invalidFwSlot 0)) ∧
  (∀ (s : State) (ref : Ref) (reason : Nat),
    s.accepts ref = true →
    (holderOf ref).isNone = false →
    (s.latch ref).commitRefusal (some ref) ((s.latch ref).bootServes (some ref) 0) (((s.latch ref).bxl.staging.manifest.map (fun m => m.svn)).getD 0) = some reason →
    exec (.firmwareCommitStore ref 2) s =
      .next ((({ (s.latch ref) with bxl := { (s.latch ref).bxl with force := false } } : State).noteRefusal reason).complete ref .updateRefused reason)) ∧
  (∀ (s : State) (ref : Ref) (m : Manifest),
    s.accepts ref = true →
    (holderOf ref).isNone = false →
    (s.latch ref).commitRefusal (some ref) ((s.latch ref).bootServes (some ref) 0) m.svn = none →
    (s.latch ref).bxl.staging.manifest = some m →
    (s.latch ref).packageOk 0 (s.latch ref).bxl.staging = true →
    exec (.firmwareCommitStore ref 2) s =
      .next (({ (s.latch ref) with bxl := { (s.latch ref).bxl with force := false } } : State).startCommit { ref := some ref, action := 0, manifest := m })) ∧
  (∀ (s : State) (ref : Ref) (m : Manifest),
    s.accepts ref = true →
    (holderOf ref).isNone = false →
    (s.latch ref).commitRefusal (some ref) ((s.latch ref).bootServes (some ref) 0) m.svn = none →
    (s.latch ref).bxl.staging.manifest = some m →
    (s.latch ref).packageOk 0 (s.latch ref).bxl.staging = false →
    exec (.firmwareCommitStore ref 2) s =
      .next (({ (s.latch ref) with bxl := { (s.latch ref).bxl with force := false } } : State).complete ref .invalidFwImage 0)) ∧
  (∀ (s : State) (ref : Ref) ,
    s.accepts ref = true →
    (holderOf ref).isNone = false →
    (s.latch ref).commitRefusal (some ref) ((s.latch ref).bootServes (some ref) 0) 0 = none →
    (s.latch ref).bxl.staging.manifest = none →
    exec (.firmwareCommitStore ref 2) s =
      .next (({ (s.latch ref) with bxl := { (s.latch ref).bxl with force := false } } : State).complete ref .invalidFwImage 0)) ∧
  (∀ (s : State) (ref : Ref) (slot : Nat),
    s.accepts ref = true →
    (holderOf ref).isNone = true →
    exec (.firmwareCommitActivate ref slot) s =
      .next ((s.latch ref).complete ref .invalidOpcode 0)) ∧
  (∀ (s : State) (ref : Ref) (slot : Nat),
    s.accepts ref = true →
    (holderOf ref).isNone = false →
    slot ≠ 2 →
    exec (.firmwareCommitActivate ref slot) s =
      .next (({ (s.latch ref) with bxl := { (s.latch ref).bxl with force := false } } : State).complete ref .invalidFwSlot 0)) ∧
  (∀ (s : State) (ref : Ref) (reason : Nat),
    s.accepts ref = true →
    (holderOf ref).isNone = false →
    (s.latch ref).commitRefusal (some ref) ((s.latch ref).bootServes (some ref) 1) (((s.latch ref).bxl.staging.manifest.map (fun m => m.svn)).getD 0) = some reason →
    exec (.firmwareCommitActivate ref 2) s =
      .next ((({ (s.latch ref) with bxl := { (s.latch ref).bxl with force := false } } : State).noteRefusal reason).complete ref .updateRefused reason)) ∧
  (∀ (s : State) (ref : Ref) (m : Manifest),
    s.accepts ref = true →
    (holderOf ref).isNone = false →
    (s.latch ref).commitRefusal (some ref) ((s.latch ref).bootServes (some ref) 1) m.svn = none →
    (s.latch ref).bxl.staging.manifest = some m →
    (s.latch ref).packageOk 1 (s.latch ref).bxl.staging = true →
    exec (.firmwareCommitActivate ref 2) s =
      .next (({ (s.latch ref) with bxl := { (s.latch ref).bxl with force := false } } : State).startCommit { ref := some ref, action := 1, manifest := m })) ∧
  (∀ (s : State) (ref : Ref) (m : Manifest),
    s.accepts ref = true →
    (holderOf ref).isNone = false →
    (s.latch ref).commitRefusal (some ref) ((s.latch ref).bootServes (some ref) 1) m.svn = none →
    (s.latch ref).bxl.staging.manifest = some m →
    (s.latch ref).packageOk 1 (s.latch ref).bxl.staging = false →
    exec (.firmwareCommitActivate ref 2) s =
      .next (({ (s.latch ref) with bxl := { (s.latch ref).bxl with force := false } } : State).complete ref .invalidFwImage 0)) ∧
  (∀ (s : State) (ref : Ref) ,
    s.accepts ref = true →
    (holderOf ref).isNone = false →
    (s.latch ref).commitRefusal (some ref) ((s.latch ref).bootServes (some ref) 1) 0 = none →
    (s.latch ref).bxl.staging.manifest = none →
    exec (.firmwareCommitActivate ref 2) s =
      .next (({ (s.latch ref) with bxl := { (s.latch ref).bxl with force := false } } : State).complete ref .invalidFwImage 0)) ∧
  (∀ (s : State) (ref : Ref) (action slot : Nat),
    s.accepts ref = true →
    (holderOf ref).isNone = true →
    exec (.firmwareCommitSlotActivate ref action slot) s =
      .next ((s.latch ref).complete ref .invalidOpcode 0)) ∧
  (∀ (s : State) (ref : Ref) (action slot : Nat),
    s.accepts ref = true →
    (holderOf ref).isNone = false →
    action ≠ 2 →
    exec (.firmwareCommitSlotActivate ref action slot) s =
      .next (({ (s.latch ref) with bxl := { (s.latch ref).bxl with force := false } } : State).complete ref .invalidField 0)) ∧
  (∀ (s : State) (ref : Ref) (slot : Nat),
    s.accepts ref = true →
    (holderOf ref).isNone = false →
    slot ≠ 2 →
    slot ≠ 3 →
    exec (.firmwareCommitSlotActivate ref 2 slot) s =
      .next (({ (s.latch ref) with bxl := { (s.latch ref).bxl with force := false } } : State).complete ref .invalidFwSlot 0)) ∧
  (∀ (s : State) (ref : Ref) (slot reason : Nat),
    s.accepts ref = true →
    (holderOf ref).isNone = false →
    slot = 2 ∨ slot = 3 →
    (s.latch ref).commitRefusal (some ref) false 0 = some reason →
    exec (.firmwareCommitSlotActivate ref 2 slot) s =
      .next ((({ (s.latch ref) with bxl := { (s.latch ref).bxl with force := false } } : State).noteRefusal reason).complete ref .updateRefused reason)) ∧
  (∀ (s : State) (ref : Ref) (slot : Nat),
    s.accepts ref = true →
    (holderOf ref).isNone = false →
    slot = 2 ∨ slot = 3 →
    (s.latch ref).commitRefusal (some ref) false 0 = none →
    ({ (s.latch ref) with bxl := { (s.latch ref).bxl with force := false } } : State).slotAccepted (({ (s.latch ref) with bxl := { (s.latch ref).bxl with force := false } } : State).slot slot) = false →
    exec (.firmwareCommitSlotActivate ref 2 slot) s =
      .next (({ (s.latch ref) with bxl := { (s.latch ref).bxl with force := false } } : State).complete ref .invalidFwImage 0)) ∧
  (∀ (s : State) (ref : Ref) (slot : Nat),
    s.accepts ref = true →
    (holderOf ref).isNone = false →
    slot = 2 ∨ slot = 3 →
    (s.latch ref).commitRefusal (some ref) false 0 = none →
    ({ (s.latch ref) with bxl := { (s.latch ref).bxl with force := false } } : State).slotAccepted (({ (s.latch ref) with bxl := { (s.latch ref).bxl with force := false } } : State).slot slot) = true →
    exec (.firmwareCommitSlotActivate ref 2 slot) s =
      .next ((({ (s.latch ref) with bxl := { (s.latch ref).bxl with force := false } } : State).lockFor ref).slotRecord (fun r => { r with pending := slot, tried := false, confirmed := false }) (some ref)))

/-- A cut is checked by R304's table, goes to the chain first with BCAST, and is accepted, or refused with its status and DW0; releasing a cut ID that is not free releases it; a Scriptorium Load passes the checks in order and writes the new set to the Folio; a Role Drill joins the one that runs, waits for its turn, or is refused. Where the spec leaves a point open, it rests on the model's choices of log entries 5, 15, 20, 39, 40, 42, 43, 81 and 93. -/
def Obligations.CutsAndScriptorium : Prop :=
  (∀ (s : State) (ref : Ref) (nsid cdw10 cdw11 cdw12 : Nat),
    s.accepts ref = true →
    (holderOf ref).isNone = true →
    exec (.cutCreate ref nsid cdw10 cdw11 cdw12) s =
      .next ((s.latch ref).complete ref .invalidOpcode 0)) ∧
  (∀ (s : State) (ref : Ref) (nsid cdw10 cdw11 cdw12 : Nat),
    s.accepts ref = true →
    (holderOf ref).isNone = false →
    2 ≤ cdw12 →
    exec (.cutCreate ref nsid cdw10 cdw11 cdw12) s =
      .next ((s.latch ref).complete ref .invalidField 0)) ∧
  (∀ (s : State) (ref : Ref) (nsid cdw10 cdw11 cdw12 : Nat),
    s.accepts ref = true →
    (holderOf ref).isNone = false →
    cdw12 < 2 →
    (nsid != 0xFFFFFFFF && (s.ns nsid).isNone) = true →
    exec (.cutCreate ref nsid cdw10 cdw11 cdw12) s =
      .next ((s.latch ref).complete ref .invalidNamespace 0)) ∧
  (∀ (s : State) (ref : Ref) (nsid cdw10 cdw11 cdw12 : Nat) (st : Status) (dw0 : Nat),
    s.accepts ref = true →
    (holderOf ref).isNone = false →
    cdw12 < 2 →
    (nsid != 0xFFFFFFFF && (s.ns nsid).isNone) = false →
    (s.latch ref).cutCheck (if ref = .side then 1 else 0) nsid (cdw10 % 2 ^ 32 + 2 ^ 32 * (cdw11 % 2 ^ 32)) (s.nowAt islQueue / 256) = some (st, dw0) →
    exec (.cutCreate ref nsid cdw10 cdw11 cdw12) s =
      .next (let no := s.bxl.cutIssued + 1
        let t := if cdw12 % 2 == 1 then
            ((({ (s.latch ref) with bxl := { (s.latch ref).bxl with cutIssued := no } } : State).bxlSend false (.cut (cdw10 % 2 ^ 32 + 2 ^ 32 * (cdw11 % 2 ^ 32)) s.nodeId no (nsid == 0xFFFFFFFF))).noteCut no (some (st, dw0)))
          else (s.latch ref)
        (t.refuseCut (st, dw0)).complete ref st dw0)) ∧
  (∀ (s : State) (ref : Ref) (nsid cdw10 cdw11 cdw12 : Nat),
    s.accepts ref = true →
    (holderOf ref).isNone = false →
    cdw12 < 2 →
    (nsid != 0xFFFFFFFF && (s.ns nsid).isNone) = false →
    (s.latch ref).cutCheck (if ref = .side then 1 else 0) nsid (cdw10 % 2 ^ 32 + 2 ^ 32 * (cdw11 % 2 ^ 32)) (s.nowAt islQueue / 256) = none →
    exec (.cutCreate ref nsid cdw10 cdw11 cdw12) s =
      .next (let no := s.bxl.cutIssued + 1
        let t := if cdw12 % 2 == 1 then
            ((({ (s.latch ref) with bxl := { (s.latch ref).bxl with cutIssued := no } } : State).bxlSend false (.cut (cdw10 % 2 ^ 32 + 2 ^ 32 * (cdw11 % 2 ^ 32)) s.nodeId no (nsid == 0xFFFFFFFF))).noteCut no none)
          else (s.latch ref)
        (if (if ref = .side then 1 else 0) = 1 then t.lockFor ref else t).acceptCut (if ref = .side then 1 else 0) nsid (cdw10 % 2 ^ 32 + 2 ^ 32 * (cdw11 % 2 ^ 32)) (cdw12 % 2 == 1) (some ref))) ∧
  (∀ (s : State) (ref : Ref) (cdw10 : Nat),
    s.accepts ref = true →
    (holderOf ref).isNone = true →
    exec (.cutRelease ref cdw10) s =
      .next ((s.latch ref).complete ref .invalidOpcode 0)) ∧
  (∀ (s : State) (ref : Ref) (cdw10 : Nat),
    s.accepts ref = true →
    (holderOf ref).isNone = false →
    (s.ckpt.cuts.any (fun c => c.slot == cdw10 % 16) = false) →
    exec (.cutRelease ref cdw10) s =
      .next ((s.latch ref).complete ref .invalidField 0)) ∧
  (∀ (s : State) (ref : Ref) (cdw10 : Nat),
    s.accepts ref = true →
    (holderOf ref).isNone = false →
    (s.ckpt.cuts.any (fun c => c.slot == cdw10 % 16) = true) →
    exec (.cutRelease ref cdw10) s =
      .next (((s.latch ref).releaseCut (cdw10 % 16)).complete ref .success 0)) ∧
  (∀ (s : State) (ref : Ref) (cdw10 cdw11 cdw12 : Nat) (data : List Nat) (digest : Bool),
    s.accepts ref = true →
    (holderOf ref).isNone = true →
    exec (.scriptoriumLoad ref cdw10 cdw11 cdw12 data digest) s =
      .next ((s.latch ref).complete ref .invalidOpcode 0)) ∧
  (∀ (s : State) (ref : Ref) (cdw10 cdw11 cdw12 : Nat) (data : List Nat) (digest : Bool) (h : Holder),
    s.accepts ref = true →
    (holderOf ref).isNone = false →
    (s.latch ref).heldAgainst ref = some h →
    exec (.scriptoriumLoad ref cdw10 cdw11 cdw12 data digest) s =
      .next ((s.latch ref).complete ref .authorityElsewhere h.code)) ∧
  (∀ (s : State) (ref : Ref) (cdw10 cdw11 cdw12 : Nat) (data : List Nat) (digest : Bool),
    s.accepts ref = true →
    (holderOf ref).isNone = false →
    (s.latch ref).heldAgainst ref = none →
    (s.latch ref).nib.load.isSome = true →
    exec (.scriptoriumLoad ref cdw10 cdw11 cdw12 data digest) s =
      .next ((s.latch ref).complete ref .cmdSeqError 0)) ∧
  (∀ (s : State) (ref : Ref) (cdw10 cdw11 cdw12 : Nat) (data : List Nat) (digest : Bool),
    s.accepts ref = true →
    (holderOf ref).isNone = false →
    (s.latch ref).heldAgainst ref = none →
    (s.latch ref).nib.load.isSome = false →
    ((s.latch ref).lifecycle = 4 || (s.latch ref).lifecycle = 5) = false →
    (s.latch ref).bxl.lock = false →
    ((s.latch ref).mode = .safe || (s.latch ref).mode = .holdUp) = true →
    exec (.scriptoriumLoad ref cdw10 cdw11 cdw12 data digest) s =
      .next ((s.latch ref).complete ref .cmdSeqError 0)) ∧
  (∀ (s : State) (ref : Ref) (cdw10 cdw11 cdw12 : Nat) (data : List Nat) (digest : Bool),
    s.accepts ref = true →
    (holderOf ref).isNone = false →
    (s.latch ref).heldAgainst ref = none →
    (s.latch ref).nib.load.isSome = false →
    ((s.latch ref).lifecycle = 4 || (s.latch ref).lifecycle = 5) = true →
    exec (.scriptoriumLoad ref cdw10 cdw11 cdw12 data digest) s =
      .next ((s.latch ref).complete ref .updateRefused 1)) ∧
  (∀ (s : State) (ref : Ref) (cdw10 cdw11 cdw12 : Nat) (data : List Nat) (digest : Bool),
    s.accepts ref = true →
    (holderOf ref).isNone = false →
    (s.latch ref).heldAgainst ref = none →
    (s.latch ref).nib.load.isSome = false →
    ((s.latch ref).lifecycle = 4 || (s.latch ref).lifecycle = 5) = false →
    (s.latch ref).bxl.lock = true →
    exec (.scriptoriumLoad ref cdw10 cdw11 cdw12 data digest) s =
      .next ((s.latch ref).complete ref .updateRefused 2)) ∧
  (∀ (s : State) (ref : Ref) (cdw10 cdw11 cdw12 : Nat) (data : List Nat) (digest : Bool) (dw0 : Nat),
    s.accepts ref = true →
    (holderOf ref).isNone = false →
    (s.latch ref).heldAgainst ref = none →
    (s.latch ref).nib.load.isSome = false →
    ((s.latch ref).lifecycle = 4 || (s.latch ref).lifecycle = 5) = false →
    (s.latch ref).bxl.lock = false →
    ((s.latch ref).mode = .safe || (s.latch ref).mode = .holdUp) = false →
    (imgCheck (cdw11 % 2 ^ 32 + 2 ^ 32 * (cdw12 % 2 ^ 16)) cdw12 (4 * cdw10) ((s.latch ref).flag F.DEV_SEAL_SEAL) (if cdw12.testBit 16 then (List.range (min (4 * cdw10) 14912)).map (fun a => (windowByte (s.latch ref).nib.window a).toNat) else data) digest = some dw0) →
    exec (.scriptoriumLoad ref cdw10 cdw11 cdw12 data digest) s =
      .next ((s.latch ref).complete ref .invalidField dw0)) ∧
  (∀ (s : State) (ref : Ref) (cdw10 cdw11 cdw12 : Nat) (data : List Nat) (digest : Bool),
    s.accepts ref = true →
    (holderOf ref).isNone = false →
    (s.latch ref).heldAgainst ref = none →
    (s.latch ref).nib.load.isSome = false →
    ((s.latch ref).lifecycle = 4 || (s.latch ref).lifecycle = 5) = false →
    (s.latch ref).bxl.lock = false →
    ((s.latch ref).mode = .safe || (s.latch ref).mode = .holdUp) = false →
    (imgCheck (cdw11 % 2 ^ 32 + 2 ^ 32 * (cdw12 % 2 ^ 16)) cdw12 (4 * cdw10) ((s.latch ref).flag F.DEV_SEAL_SEAL) (if cdw12.testBit 16 then (List.range (min (4 * cdw10) 14912)).map (fun a => (windowByte (s.latch ref).nib.window a).toNat) else data) digest = none) →
    exec (.scriptoriumLoad ref cdw10 cdw11 cdw12 data digest) s =
      .next (let nibs := (List.range 48).filter (fun n => (cdw11 % 2 ^ 32 + 2 ^ 32 * (cdw12 % 2 ^ 16)).testBit n)
        let t := (s.latch ref).lockFor ref
        ({ t with nib := { t.nib with load := some (ref, (s.latch ref).scrSet.withImage (imgOf (if cdw12.testBit 16 then (List.range (min (4 * cdw10) 14912)).map (fun a => (windowByte (s.latch ref).nib.window a).toNat) else data)) nibs, nibs) } } : State).folio { job := .scriptorium false, erase := true })) ∧
  (∀ (s : State) (ref : Ref) (params : Nat) (reports : Bool),
    s.accepts ref = true →
    (holderOf ref).isNone = true →
    exec (.roleDrill ref params reports) s =
      .next ((s.latch ref).complete ref .invalidOpcode 0)) ∧
  (∀ (s : State) (ref : Ref) (params : Nat) (reports : Bool),
    s.accepts ref = true →
    (holderOf ref).isNone = false →
    params ≠ 0 →
    exec (.roleDrill ref params reports) s =
      .next ((s.latch ref).complete ref .invalidField 0)) ∧
  (∀ (s : State) (ref : Ref) (reports : Bool) (d : Drill),
    s.accepts ref = true →
    (holderOf ref).isNone = false →
    (s.latch ref).tine.drill = some d →
    exec (.roleDrill ref 0 reports) s =
      .next ({ (s.latch ref) with tine := { (s.latch ref).tine with drill := some { d with refs := d.refs ++ [ref] } } })) ∧
  (∀ (s : State) (ref : Ref) (reports : Bool),
    s.accepts ref = true →
    (holderOf ref).isNone = false →
    (s.latch ref).tine.drill = none →
    (s.latch ref).tine.paired = false →
    exec (.roleDrill ref 0 reports) s =
      .next ((s.latch ref).complete ref .cmdSeqError 2)) ∧
  (∀ (s : State) (ref : Ref) (reports : Bool),
    s.accepts ref = true →
    (holderOf ref).isNone = false →
    (s.latch ref).tine.drill = none →
    (s.latch ref).tine.paired = true →
    (s.latch ref).mode = .safe →
    exec (.roleDrill ref 0 reports) s =
      .next ((s.latch ref).complete ref .cmdSeqError 3)) ∧
  (∀ (s : State) (ref : Ref) (reports : Bool),
    s.accepts ref = true →
    (holderOf ref).isNone = false →
    (s.latch ref).tine.drill = none →
    (s.latch ref).tine.paired = true →
    (s.latch ref).mode ≠ .safe →
    exec (.roleDrill ref 0 reports) s =
      .next (({ (s.latch ref) with tine := { (s.latch ref).tine with waiting := (s.latch ref).tine.waiting ++ [({ ref := ref, at_ := s.now, reports := reports } : RoleDrill)] } } : State).drillPump))

/-- A sweep is issued, or relays the package that staging holds whole, unless one runs; a lifecycle transition passes R543's checks in order and writes its intent record first; the lock is acquired unless another party holds it, and released by its holder. Where the spec leaves a point open, it rests on the model's choices of log entries 10, 20, 38, 39, 43, 54 and 63. -/
def Obligations.ChainLifecycleAuthority : Prop :=
  (∀ (s : State) (ref : Ref) (cdw10 : Nat),
    s.accepts ref = true →
    (holderOf ref).isNone = true →
    exec (.chainSweepMeasure ref cdw10) s =
      .next ((s.latch ref).complete ref .invalidOpcode 0)) ∧
  (∀ (s : State) (ref : Ref) (cdw10 : Nat),
    s.accepts ref = true →
    (holderOf ref).isNone = false →
    cdw10 % 4 ≠ 0 →
    exec (.chainSweepMeasure ref cdw10) s =
      .next ((s.latch ref).complete ref .invalidField 0)) ∧
  (∀ (s : State) (ref : Ref) (cdw10 : Nat),
    s.accepts ref = true →
    (holderOf ref).isNone = false →
    cdw10 % 4 = 0 →
    ((s.latch ref).sweeping || ((s.latch ref).bxl.relay.any (fun r => r.ref.isSome))) = true →
    exec (.chainSweepMeasure ref cdw10) s =
      .next ((s.latch ref).complete ref .cmdSeqError 0)) ∧
  (∀ (s : State) (ref : Ref) (cdw10 : Nat),
    s.accepts ref = true →
    (holderOf ref).isNone = false →
    cdw10 % 4 = 0 →
    ((s.latch ref).sweeping || ((s.latch ref).bxl.relay.any (fun r => r.ref.isSome))) = false →
    exec (.chainSweepMeasure ref cdw10) s =
      .next (({ (s.latch ref) with bxl := { (s.latch ref).bxl with retries := 0 } }).issueSweep (some ref) 0)) ∧
  (∀ (s : State) (ref : Ref) (cdw11 : Nat),
    s.accepts ref = true →
    (holderOf ref).isNone = true →
    exec (.chainSweepRelay ref cdw11) s =
      .next ((s.latch ref).complete ref .invalidOpcode 0)) ∧
  (∀ (s : State) (ref : Ref) (cdw11 : Nat),
    s.accepts ref = true →
    (holderOf ref).isNone = false →
    2 ≤ cdw11 % 8 →
    exec (.chainSweepRelay ref cdw11) s =
      .next ((s.latch ref).complete ref .invalidField 0)) ∧
  (∀ (s : State) (ref : Ref) (cdw11 : Nat),
    s.accepts ref = true →
    (holderOf ref).isNone = false →
    cdw11 % 8 < 2 →
    ((s.latch ref).sweeping || (s.latch ref).bxl.relay.isSome || !(s.latch ref).bxl.staging.whole) = true →
    exec (.chainSweepRelay ref cdw11) s =
      .next ((s.latch ref).complete ref .cmdSeqError 0)) ∧
  (∀ (s : State) (ref : Ref) (cdw11 : Nat),
    s.accepts ref = true →
    (holderOf ref).isNone = false →
    cdw11 % 8 < 2 →
    ((s.latch ref).sweeping || (s.latch ref).bxl.relay.isSome || !(s.latch ref).bxl.staging.whole) = false →
    exec (.chainSweepRelay ref cdw11) s =
      .next (let t : State := { (s.latch ref) with bxl := { (s.latch ref).bxl with relay := some { action := cdw11 % 8, chunks := (1 + ((s.latch ref).bxl.staging.manifest.map (fun m => m.chunks)).getD 0), ref := some ref, pkg := (s.latch ref).bxl.staging } } }
        if !t.bxl.dn.linked then t.relayEnd false
        else (t.bxlSend false (.relayStart (cdw11 % 8) (1 + ((s.latch ref).bxl.staging.manifest.map (fun m => m.chunks)).getD 0))).relaySend)) ∧
  (∀ (s : State) (ref : Ref) (dest len : Nat) (token : LcToken),
    s.accepts ref = true →
    (holderOf ref).isNone = true →
    exec (.lifecycleTransition ref dest len token) s =
      .next ((s.latch ref).complete ref .invalidOpcode 0)) ∧
  (∀ (s : State) (ref : Ref) (dest len : Nat) (token : LcToken) (st : Status) (dw0 : Nat),
    s.accepts ref = true →
    (holderOf ref).isNone = false →
    (s.latch ref).lcCheck ref (dest % 8) len token = some (st, dw0) →
    exec (.lifecycleTransition ref dest len token) s =
      .next ((s.latch ref).complete ref st dw0)) ∧
  (∀ (s : State) (ref : Ref) (dest len : Nat) (token : LcToken),
    s.accepts ref = true →
    (holderOf ref).isNone = false →
    (s.latch ref).lcCheck ref (dest % 8) len token = none →
    exec (.lifecycleTransition ref dest len token) s =
      .next (let it : Intent := { iseq := (((s.latch ref).fol.intents.head?.map (fun i => i.iseq)).getD 0) + 1, from_ := (s.latch ref).lifecycle, dest := dest % 8, stamp := (s.latch ref).stamp, owner := if dest % 8 = 3 then token.ownerHash else 0 }
        let t := (s.latch ref).lockFor ref
        ({ t with fol := { t.fol with trans := some { intent := it, ref := some ref, burns := lcBurns (dest % 8) it.owner } } } : State).folio { job := .intent 0 })) ∧
  (∀ (s : State) (ref : Ref) ,
    s.accepts ref = true →
    holderOf ref = none →
    exec (.authorityAcquire ref) s =
      .next ((s.latch ref).complete ref .invalidOpcode 0)) ∧
  (∀ (s : State) (ref : Ref) ,
    s.accepts ref = true →
    holderOf ref = none →
    exec (.authorityRelease ref) s =
      .next ((s.latch ref).complete ref .invalidOpcode 0)) ∧
  (∀ (s : State) (ref : Ref) (h o : Holder),
    s.accepts ref = true →
    holderOf ref = some h →
    (s.latch ref).heldAgainst ref = some o →
    exec (.authorityAcquire ref) s =
      .next ((s.latch ref).complete ref .authorityElsewhere o.code)) ∧
  (∀ (s : State) (ref : Ref) (h : Holder),
    s.accepts ref = true →
    holderOf ref = some h →
    (s.latch ref).heldAgainst ref = none →
    exec (.authorityAcquire ref) s =
      .next (((s.latch ref).takeLock h (s.latch ref).mgmt.tunnelEid).complete ref .success 0)) ∧
  (∀ (s : State) (ref : Ref) (h : Holder),
    s.accepts ref = true →
    holderOf ref = some h →
    ((s.latch ref).mgmt.lock != some h || ((s.latch ref).heldAgainst ref).isSome) = true →
    exec (.authorityRelease ref) s =
      .next ((s.latch ref).complete ref .cmdSeqError 0)) ∧
  (∀ (s : State) (ref : Ref) (h : Holder),
    s.accepts ref = true →
    holderOf ref = some h →
    ((s.latch ref).mgmt.lock != some h || ((s.latch ref).heldAgainst ref).isSome) = false →
    exec (.authorityRelease ref) s =
      .next ((s.latch ref).giveLock.complete ref .success 0))

/-- A command that the checks of an I/O command refuse completes with their status and changes nothing else; otherwise it takes its tag, enters execution with its range, its latch count from the Queue Engine island, its flags and write point, and asks the Ordering Point; a fused write that is refused, or whose compare is not waiting, ends and its compare with it; a Flush of every namespace is checked against each one attached; a Secure Discard also opens a ticket for its IUs, and with no ticket record free deallocates nothing. Where the spec leaves a point open, it rests on the model's choices of log entries 40, 43, 44, 81, 82, 86 and 97. -/
def Obligations.WritesAndChanges : Prop :=
  (∀ (s : State) (ref : Ref) (nsid slba nlb : Nat) (e : Status),
    s.accepts ref = true →
    s.ioCheck ref nsid slba nlb .changes = .error e →
    exec (.writeUncorrectable ref nsid slba nlb) s =
      .next ((s.latch ref).complete ref e 0)) ∧
  (∀ (s : State) (ref : Ref) (nsid slba nlb : Nat) (e : Status),
    s.accepts ref = true →
    s.ioCheck ref nsid slba nlb .changes = .error e →
    exec (.writeZeroes ref nsid slba nlb) s =
      .next ((s.latch ref).complete ref e 0)) ∧
  (∀ (s : State) (ref : Ref) (nsid slba nlb : Nat) (fua : Bool) (dtype dspec : Nat) (gate : Option Ref) (e : Status),
    s.accepts ref = true →
    s.ioCheck ref nsid slba nlb .changes = .error e →
    exec (.write ref nsid slba nlb fua dtype dspec gate) s =
      .next (((s.endCompare gate).latch ref).complete ref e 0)) ∧
  (∀ (s : State) (ref : Ref) (nsid slba nlb : Nat) (fua : Bool) (dtype dspec : Nat) (gate : Option Ref) (n : Ns),
    s.accepts ref = true →
    s.ioCheck ref nsid slba nlb .changes = .ok n →
    n.mdtsBlocks < nlb →
    exec (.write ref nsid slba nlb fua dtype dspec gate) s =
      .next (((s.endCompare gate).latch ref).complete ref .invalidField 0)) ∧
  (∀ (s : State) (ref : Ref) (nsid slba nlb : Nat) (fua : Bool) (dtype dspec : Nat) (gate : Option Ref) (n : Ns),
    s.accepts ref = true →
    s.ioCheck ref nsid slba nlb .changes = .ok n →
    nlb ≤ n.mdtsBlocks →
    (gate.any (fun r => !s.qe.cmds.any (fun c => c.ref == r && c.parked)) = true) →
    exec (.write ref nsid slba nlb fua dtype dspec gate) s =
      .next (((s.endCompare gate).latch ref).complete ref .failedFused 0)) ∧
  (∀ (s : State) (ref : Ref) (nsid slba nlb : Nat) (fua : Bool) (dtype dspec : Nat) (gate : Option Ref) (n : Ns),
    s.accepts ref = true →
    s.ioCheck ref nsid slba nlb .changes = .ok n →
    nlb ≤ n.mdtsBlocks →
    (gate.any (fun r => !s.qe.cmds.any (fun c => c.ref == r && c.parked)) = false) →
    exec (.write ref nsid slba nlb fua dtype dspec gate) s =
      .next (((s.latch ref).placement n dtype dspec).1.enter { ref := ref, kind := .write, nsid := nsid, slba := slba, n := nlb, latch := s.nowAt islQueue, fua := fua, wp := ((s.latch ref).placement n dtype dspec).2, gate := gate })) ∧
  (∀ (s : State) (ref : Ref) (nsid slba nlb : Nat) (n : Ns),
    s.accepts ref = true →
    s.ioCheck ref nsid slba nlb .changes = .ok n →
    exec (.writeUncorrectable ref nsid slba nlb) s =
      .next ((s.latch ref).enter { ref := ref, kind := .writeUncorr, nsid := nsid, slba := slba, n := nlb, latch := s.nowAt islQueue, wunc := true, wp := 8 + n.handles.headD 0 })) ∧
  (∀ (s : State) (ref : Ref) (nsid slba nlb : Nat) (n : Ns),
    s.accepts ref = true →
    s.ioCheck ref nsid slba nlb .changes = .ok n →
    exec (.writeZeroes ref nsid slba nlb) s =
      .next ((s.latch ref).enter { ref := ref, kind := .writeZeroes, nsid := nsid, slba := slba, n := nlb, latch := s.nowAt islQueue, zero := true, wp := 8 + n.handles.headD 0 })) ∧
  (∀ (s : State) (ref : Ref) (nsid : Nat),
    s.accepts ref = true →
    s.mode = .safe →
    s.fld F.EVU_SAFE_MEDIA = 2 →
    exec (.flush ref nsid) s =
      .next ((s.latch ref).complete ref .namespaceNotReady 0)) ∧
  (∀ (s : State) (ref : Ref) (nsid : Nat) (e : Status) (more : List Status),
    s.accepts ref = true →
    (s.mode = .safe && s.fld F.EVU_SAFE_MEDIA = 2) = false →
    (if nsid = 0xFFFFFFFF then (s.qe.nss.filter (fun n => n.attached.any (fun c => some c == ctrlOf ref))).map (fun n => n.nsid) else [nsid]).filterMap (fun n => match s.ioCheck ref n 0 0 .settles with | .error e => some e | .ok _ => none) = e :: more →
    exec (.flush ref nsid) s =
      .next ((s.latch ref).complete ref e 0)) ∧
  (∀ (s : State) (ref : Ref) (nsid : Nat),
    s.accepts ref = true →
    (s.mode = .safe && s.fld F.EVU_SAFE_MEDIA = 2) = false →
    (if nsid = 0xFFFFFFFF then (s.qe.nss.filter (fun n => n.attached.any (fun c => some c == ctrlOf ref))).map (fun n => n.nsid) else [nsid]).filterMap (fun n => match s.ioCheck ref n 0 0 .settles with | .error e => some e | .ok _ => none) = [] →
    exec (.flush ref nsid) s =
      .next ((s.latch ref).enter { ref := ref, kind := .flush, nsid := nsid, latch := s.nowAt islQueue })) ∧
  (∀ (s : State) (ref : Ref) (nsid cdw11 : Nat) (ranges : List (Nat × Nat)) (e : Status),
    s.accepts ref = true →
    (s.dsmCheck ref nsid (if cdw11.testBit 8 && cdw11.testBit 2 then cdw11 - 256 else cdw11) ranges = .error e) →
    exec (.datasetManagement ref nsid cdw11 ranges) s =
      .next ((s.latch ref).complete ref e 0)) ∧
  (∀ (s : State) (ref : Ref) (nsid cdw11 : Nat) (ranges : List (Nat × Nat)) (n : Ns),
    s.accepts ref = true →
    (s.dsmCheck ref nsid (if cdw11.testBit 8 && cdw11.testBit 2 then cdw11 - 256 else cdw11) ranges = .ok n) →
    cdw11.testBit 2 = false →
    exec (.datasetManagement ref nsid cdw11 ranges) s =
      .next ((s.latch ref).complete ref .success 0)) ∧
  (∀ (s : State) (ref : Ref) (nsid cdw11 : Nat) (ranges : List (Nat × Nat)) (n : Ns),
    s.accepts ref = true →
    (s.dsmCheck ref nsid (if cdw11.testBit 8 && cdw11.testBit 2 then cdw11 - 256 else cdw11) ranges = .ok n) →
    cdw11.testBit 2 = true →
    exec (.datasetManagement ref nsid cdw11 ranges) s =
      .next ((s.latch ref).enter { ref := ref, kind := .deallocate, nsid := nsid, ranges := ranges, latch := s.nowAt islQueue, zero := true, wp := 8 + n.handles.headD 0 })) ∧
  (∀ (s : State) (ref : Ref) (nsid cdw11 : Nat) (ranges : List (Nat × Nat)) (e : Status),
    s.accepts ref = true →
    s.dsmCheck ref nsid (cdw11 ||| 256) ranges = .error e →
    exec (.secureDiscard ref nsid cdw11 ranges) s =
      .next ((s.latch ref).complete ref e 0)) ∧
  (∀ (s : State) (ref : Ref) (nsid cdw11 : Nat) (ranges : List (Nat × Nat)) (n : Ns),
    s.accepts ref = true →
    s.dsmCheck ref nsid (cdw11 ||| 256) ranges = .ok n →
    s.ticketRoom = none →
    exec (.secureDiscard ref nsid cdw11 ranges) s =
      .next ((s.latch ref).complete ref .commandInterrupted 0)) ∧
  (∀ (s : State) (ref : Ref) (nsid cdw11 : Nat) (ranges : List (Nat × Nat)) (n : Ns) (rest : List Ticket),
    s.accepts ref = true →
    s.dsmCheck ref nsid (cdw11 ||| 256) ranges = .ok n →
    s.ticketRoom = some rest →
    exec (.secureDiscard ref nsid cdw11 ranges) s =
      .next (let t : Ticket := { ticket := s.map.nextTicket, nsid := nsid, ranges := ranges.filterMap (discardRange s.iuSectors n.blkSectors), seq := s.map.nextTicket }
        let v : State := { (s.latch ref) with map := { (s.latch ref).map with tickets := rest ++ [t], nextTicket := max 1 ((s.map.nextTicket + 1) % 2 ^ 32) } }
        (v.enter { ref := ref, kind := .deallocate, nsid := nsid, ranges := ranges, latch := s.nowAt islQueue, zero := true, ticket := some s.map.nextTicket, wp := 8 + n.handles.headD 0 }).ticketPump))

/-- A read that the checks refuse completes with their status; one longer than the limit, or outside SAFE with a deadline that is not enabled, is an invalid field; a deadline read in SAFE or longer than MAXLEN, or that is not admitted, completes with 0x80 and is counted; a fused compare waits for the stamp of its write before it reads; otherwise the read holds its sources, enters execution and asks for its cells, an admitted one with its deadline end. Where the spec leaves a point open, it rests on the model's choices of log entries 40, 43, 81 and 83. -/
def Obligations.ReadsAndCompares : Prop :=
  (∀ (s : State) (ref : Ref) (nsid slba nlb : Nat) (deadline : ReadDue) (e : Status),
    s.accepts ref = true →
    s.ioCheck ref nsid slba nlb .reads = .error e →
    exec (.read ref nsid slba nlb deadline) s =
      .next ((s.latch ref).complete ref e 0)) ∧
  (∀ (s : State) (ref : Ref) (nsid slba nlb : Nat) (deadline : ReadDue) (n : Ns),
    s.accepts ref = true →
    s.ioCheck ref nsid slba nlb .reads = .ok n →
    n.mdtsBlocks < nlb →
    exec (.read ref nsid slba nlb deadline) s =
      .next ((s.latch ref).complete ref .invalidField 0)) ∧
  (∀ (s : State) (ref : Ref) (nsid slba nlb : Nat) (deadline : ReadDue) (n : Ns),
    s.accepts ref = true →
    s.ioCheck ref nsid slba nlb .reads = .ok n →
    nlb ≤ n.mdtsBlocks →
    (deadline.us != 0 && s.mode = .safe) = true →
    exec (.read ref nsid slba nlb deadline) s =
      .next (({ (s.latch ref) with stk := { s.stk with nRefused := s.stk.nRefused + 1 } } : State).complete ref .deadlineNotAdmissible 0)) ∧
  (∀ (s : State) (ref : Ref) (nsid slba nlb : Nat) (deadline : ReadDue) (n : Ns),
    s.accepts ref = true →
    s.ioCheck ref nsid slba nlb .reads = .ok n →
    nlb ≤ n.mdtsBlocks →
    (deadline.us != 0 && s.mode = .safe) = false →
    (deadline.us != 0 && s.feat 0xC1 ((ctrlOf ref).getD 0) 0x200 % 2 = 0) = true →
    exec (.read ref nsid slba nlb deadline) s =
      .next ((s.latch ref).complete ref .invalidField 0)) ∧
  (∀ (s : State) (ref : Ref) (nsid slba nlb : Nat) (deadline : ReadDue) (n : Ns),
    s.accepts ref = true →
    s.ioCheck ref nsid slba nlb .reads = .ok n →
    nlb ≤ n.mdtsBlocks →
    (deadline.us != 0 && s.mode = .safe) = false →
    (deadline.us != 0 && s.feat 0xC1 ((ctrlOf ref).getD 0) 0x200 % 2 = 0) = false →
    (deadline.us != 0 && 8 * bitsOf (s.feat 0xC1 ((ctrlOf ref).getD 0) 0x200) 4 8 < nlb * n.blkSectors) = true →
    exec (.read ref nsid slba nlb deadline) s =
      .next (({ (s.latch ref) with stk := { s.stk with nRefused := s.stk.nRefused + 1 } } : State).complete ref .deadlineNotAdmissible 0)) ∧
  (∀ (s : State) (ref : Ref) (nsid slba nlb : Nat) (deadline : ReadDue) (n : Ns),
    s.accepts ref = true →
    s.ioCheck ref nsid slba nlb .reads = .ok n →
    nlb ≤ n.mdtsBlocks →
    deadline.us = 0 →
    exec (.read ref nsid slba nlb deadline) s =
      .next (let p := (s.latch ref).readCmd n { ref := ref, kind := .read, nsid := nsid, slba := slba, n := nlb, latch := s.nowAt islQueue }
        let t : State := { p.1 with qe := { (p.1).qe with cmds := (p.1).qe.cmds ++ [p.2] } }
        (t.askReads ((p.2).segs.length + 1) ref).settleCmds)) ∧
  (∀ (s : State) (ref : Ref) (nsid slba nlb : Nat) (deadline : ReadDue) (n : Ns) (dw0 : Nat),
    s.accepts ref = true →
    s.ioCheck ref nsid slba nlb .reads = .ok n →
    nlb ≤ n.mdtsBlocks →
    (deadline.us != 0 && s.mode = .safe) = false →
    (deadline.us != 0 && s.feat 0xC1 ((ctrlOf ref).getD 0) 0x200 % 2 = 0) = false →
    (deadline.us != 0 && 8 * bitsOf (s.feat 0xC1 ((ctrlOf ref).getD 0) 0x200) 4 8 < nlb * n.blkSectors) = false →
    deadline.us ≠ 0 →
    s.admitRead ((s.latch ref).readCmd n { ref := ref, kind := .read, nsid := nsid, slba := slba, n := nlb, latch := s.nowAt islQueue }).2 deadline.us deadline.lag = .error dw0 →
    exec (.read ref nsid slba nlb deadline) s =
      .next (({ (s.latch ref) with stk := { s.stk with nRefused := s.stk.nRefused + 1 } } : State).complete ref .deadlineNotAdmissible dw0)) ∧
  (∀ (s : State) (ref : Ref) (nsid slba nlb : Nat) (deadline : ReadDue) (n : Ns) (a : State),
    s.accepts ref = true →
    s.ioCheck ref nsid slba nlb .reads = .ok n →
    nlb ≤ n.mdtsBlocks →
    (deadline.us != 0 && s.mode = .safe) = false →
    (deadline.us != 0 && s.feat 0xC1 ((ctrlOf ref).getD 0) 0x200 % 2 = 0) = false →
    (deadline.us != 0 && 8 * bitsOf (s.feat 0xC1 ((ctrlOf ref).getD 0) 0x200) 4 8 < nlb * n.blkSectors) = false →
    deadline.us ≠ 0 →
    s.admitRead ((s.latch ref).readCmd n { ref := ref, kind := .read, nsid := nsid, slba := slba, n := nlb, latch := s.nowAt islQueue }).2 deadline.us deadline.lag = .ok a →
    exec (.read ref nsid slba nlb deadline) s =
      .next (let p := (s.latch ref).readCmd n { ref := ref, kind := .read, nsid := nsid, slba := slba, n := nlb, latch := s.nowAt islQueue }
        let q : State := { p.1 with stk := a.stk }
        let c : Cmd := { p.2 with deadline := some (p.2.latch / 256 + deadline.us * 1000) }
        let t : State := { q with qe := { (q).qe with cmds := (q).qe.cmds ++ [c] } }
        (t.askReads ((c).segs.length + 1) ref).settleCmds)) ∧
  (∀ (s : State) (ref : Ref) (nsid slba nlb : Nat) (same : Comparison) (e : Status),
    s.accepts ref = true →
    s.ioCheck ref nsid slba nlb .reads = .error e →
    exec (.compare ref nsid slba nlb same) s =
      .next ((s.latch ref).complete ref e 0)) ∧
  (∀ (s : State) (ref : Ref) (nsid slba nlb : Nat) (same : Comparison) (n : Ns),
    s.accepts ref = true →
    s.ioCheck ref nsid slba nlb .reads = .ok n →
    n.mdtsBlocks < nlb →
    exec (.compare ref nsid slba nlb same) s =
      .next ((s.latch ref).complete ref .invalidField 0)) ∧
  (∀ (s : State) (ref : Ref) (nsid slba nlb : Nat) (same : Comparison) (n : Ns),
    s.accepts ref = true →
    s.ioCheck ref nsid slba nlb .reads = .ok n →
    nlb ≤ n.mdtsBlocks →
    same.fused = false →
    exec (.compare ref nsid slba nlb same) s =
      .next (let p := (s.latch ref).readCmd n { ref := ref, kind := .compare, nsid := nsid, slba := slba, n := nlb, latch := s.nowAt islQueue, same := same.same, parked := false }
        let t : State := { p.1 with qe := { (p.1).qe with cmds := (p.1).qe.cmds ++ [p.2] } }
        (t.askReads ((p.2).segs.length + 1) ref).settleCmds)) ∧
  (∀ (s : State) (ref : Ref) (nsid slba nlb : Nat) (same : Comparison) (n : Ns),
    s.accepts ref = true →
    s.ioCheck ref nsid slba nlb .reads = .ok n →
    nlb ≤ n.mdtsBlocks →
    same.fused = true →
    exec (.compare ref nsid slba nlb same) s =
      .next (let c : Cmd := { ref := ref, kind := .compare, nsid := nsid, slba := slba, n := nlb, latch := s.nowAt islQueue, same := same.same, parked := true }
        let t : State := { (s.latch ref) with qe := { ((s.latch ref)).qe with cmds := ((s.latch ref)).qe.cmds ++ [c] } }
        (t.askReads ((c).segs.length + 1) ref).settleCmds))

/-- The checks of an I/O command and the Host Identifier come first. Registering adds a registrant, unregistering removes it and may end its reservation, replacing changes the key; Acquire takes a free reservation or preempts the registrants with PRKEY; Release ends the reservation its holder names, or clears everything; each tells the hosts affected and, with Persist Through Power Loss, is in the Folio before it completes. A key that does not match is a reservation conflict. Where the spec leaves a point open, it rests on the model's choices of log entries 18, 40 and 43. -/
def Obligations.ReservationCommands : Prop :=
  (∀ (s : State) (ref : Ref) (nsid rrega : Nat) (iekey : Bool) (cptpl crkey nrkey : Nat) (e : Status),
    s.accepts ref = true →
    s.rsvCheck ref nsid = .error e →
    exec (.reservationRegister ref nsid rrega iekey cptpl crkey nrkey) s =
      .next ((s.latch ref).complete ref e 0)) ∧
  (∀ (s : State) (ref : Ref) (nsid : Nat) (eds : Bool) (e : Status),
    s.accepts ref = true →
    s.rsvCheck ref nsid = .error e →
    exec (.reservationReport ref nsid eds) s =
      .next ((s.latch ref).complete ref e 0)) ∧
  (∀ (s : State) (ref : Ref) (nsid racqa : Nat) (iekey : Bool) (rtype crkey prkey : Nat) (e : Status),
    s.accepts ref = true →
    s.rsvCheck ref nsid = .error e →
    exec (.reservationAcquire ref nsid racqa iekey rtype crkey prkey) s =
      .next ((s.latch ref).complete ref e 0)) ∧
  (∀ (s : State) (ref : Ref) (nsid rrela : Nat) (iekey : Bool) (rtype crkey : Nat) (e : Status),
    s.accepts ref = true →
    s.rsvCheck ref nsid = .error e →
    exec (.reservationRelease ref nsid rrela iekey rtype crkey) s =
      .next ((s.latch ref).complete ref e 0)) ∧
  (∀ (s : State) (ref : Ref) (nsid : Nat) (eds : Bool) (n : Ns) (h : Nat),
    s.accepts ref = true →
    s.rsvCheck ref nsid = .ok (n, h) →
    exec (.reservationReport ref nsid eds) s =
      .next (((s.latch ref).emit (.rsvReport ref n.resv)).complete ref .success 0)) ∧
  (∀ (s : State) (ref : Ref) (nsid : Nat) (iekey : Bool) (cptpl crkey nrkey : Nat) (n : Ns) (h : Nat),
    s.accepts ref = true →
    s.rsvCheck ref nsid = .ok (n, h) →
    n.resv.keyOf h = some nrkey →
    exec (.reservationRegister ref nsid 0 iekey cptpl crkey nrkey) s =
      .next (let v : Resv := { n.resv with ptpl := (if cptpl = 2 then false else if cptpl = 3 then true else n.resv.ptpl) }
        (((s.latch ref).updNs nsid (fun n => { n with resv := v })).rsvNotify nsid 2 []).rsvEnd ref nsid n.resv v)) ∧
  (∀ (s : State) (ref : Ref) (nsid : Nat) (iekey : Bool) (cptpl crkey nrkey : Nat) (n : Ns) (h : Nat),
    s.accepts ref = true →
    s.rsvCheck ref nsid = .ok (n, h) →
    (n.resv.keyOf h).any (fun k => k != nrkey) = true →
    exec (.reservationRegister ref nsid 0 iekey cptpl crkey nrkey) s =
      .next ((s.latch ref).complete ref .reservationConflict 0)) ∧
  (∀ (s : State) (ref : Ref) (nsid : Nat) (iekey : Bool) (cptpl crkey nrkey : Nat) (n : Ns) (h : Nat),
    s.accepts ref = true →
    s.rsvCheck ref nsid = .ok (n, h) →
    n.resv.keyOf h = none →
    64 ≤ n.resv.regs.length →
    exec (.reservationRegister ref nsid 0 iekey cptpl crkey nrkey) s =
      .next ((s.latch ref).complete ref .invalidField 0)) ∧
  (∀ (s : State) (ref : Ref) (nsid : Nat) (iekey : Bool) (cptpl crkey nrkey : Nat) (n : Ns) (h : Nat),
    s.accepts ref = true →
    s.rsvCheck ref nsid = .ok (n, h) →
    n.resv.keyOf h = none →
    n.resv.regs.length < 64 →
    exec (.reservationRegister ref nsid 0 iekey cptpl crkey nrkey) s =
      .next (let v : Resv := { n.resv with regs := n.resv.regs ++ [⟨h, nrkey⟩], gen := (n.resv.gen + 1) % 2 ^ 32, ptpl := (if cptpl = 2 then false else if cptpl = 3 then true else n.resv.ptpl) }
        (((s.latch ref).updNs nsid (fun n => { n with resv := v })).rsvNotify nsid 2 []).rsvEnd ref nsid n.resv v)) ∧
  (∀ (s : State) (ref : Ref) (nsid : Nat) (iekey : Bool) (cptpl crkey nrkey : Nat) (n : Ns) (h : Nat),
    s.accepts ref = true →
    s.rsvCheck ref nsid = .ok (n, h) →
    ((n.resv.keyOf h).isNone || !(iekey || n.resv.keyOf h == some crkey)) = true →
    exec (.reservationRegister ref nsid 1 iekey cptpl crkey nrkey) s =
      .next ((s.latch ref).complete ref .reservationConflict 0)) ∧
  (∀ (s : State) (ref : Ref) (nsid : Nat) (iekey : Bool) (cptpl crkey nrkey : Nat) (n : Ns) (h : Nat),
    s.accepts ref = true →
    s.rsvCheck ref nsid = .ok (n, h) →
    ((n.resv.keyOf h).isNone || !(iekey || n.resv.keyOf h == some crkey)) = false →
    exec (.reservationRegister ref nsid 1 iekey cptpl crkey nrkey) s =
      .next (let v : Resv := { n.resv.unregister h with ptpl := (if cptpl = 2 then false else if cptpl = 3 then true else n.resv.ptpl) }
        (((s.latch ref).updNs nsid (fun n => { n with resv := v })).rsvNotify nsid 2 (if (n.resv.unregister h).rtype = n.resv.rtype then [] else ((n.resv.unregister h).regs.map (fun g => g.host)))).rsvEnd ref nsid n.resv v)) ∧
  (∀ (s : State) (ref : Ref) (nsid : Nat) (iekey : Bool) (cptpl crkey nrkey : Nat) (n : Ns) (h : Nat),
    s.accepts ref = true →
    s.rsvCheck ref nsid = .ok (n, h) →
    (!(iekey || n.resv.keyOf h == some crkey) || ((n.resv.keyOf h).isNone && !iekey)) = true →
    exec (.reservationRegister ref nsid 2 iekey cptpl crkey nrkey) s =
      .next ((s.latch ref).complete ref .reservationConflict 0)) ∧
  (∀ (s : State) (ref : Ref) (nsid : Nat) (iekey : Bool) (cptpl crkey nrkey : Nat) (n : Ns) (h : Nat),
    s.accepts ref = true →
    s.rsvCheck ref nsid = .ok (n, h) →
    (!(iekey || n.resv.keyOf h == some crkey) || ((n.resv.keyOf h).isNone && !iekey)) = false →
    (n.resv.keyOf h).isNone = true →
    64 ≤ n.resv.regs.length →
    exec (.reservationRegister ref nsid 2 iekey cptpl crkey nrkey) s =
      .next ((s.latch ref).complete ref .invalidField 0)) ∧
  (∀ (s : State) (ref : Ref) (nsid : Nat) (iekey : Bool) (cptpl crkey nrkey : Nat) (n : Ns) (h : Nat),
    s.accepts ref = true →
    s.rsvCheck ref nsid = .ok (n, h) →
    (!(iekey || n.resv.keyOf h == some crkey) || ((n.resv.keyOf h).isNone && !iekey)) = false →
    (n.resv.keyOf h).isNone = true →
    n.resv.regs.length < 64 →
    exec (.reservationRegister ref nsid 2 iekey cptpl crkey nrkey) s =
      .next (let v : Resv := { n.resv with regs := n.resv.regs ++ [⟨h, nrkey⟩], gen := (n.resv.gen + 1) % 2 ^ 32, ptpl := (if cptpl = 2 then false else if cptpl = 3 then true else n.resv.ptpl) }
        (((s.latch ref).updNs nsid (fun n => { n with resv := v })).rsvNotify nsid 2 []).rsvEnd ref nsid n.resv v)) ∧
  (∀ (s : State) (ref : Ref) (nsid : Nat) (iekey : Bool) (cptpl crkey nrkey : Nat) (n : Ns) (h : Nat),
    s.accepts ref = true →
    s.rsvCheck ref nsid = .ok (n, h) →
    (!(iekey || n.resv.keyOf h == some crkey) || ((n.resv.keyOf h).isNone && !iekey)) = false →
    (n.resv.keyOf h).isNone = false →
    exec (.reservationRegister ref nsid 2 iekey cptpl crkey nrkey) s =
      .next (let v : Resv := { n.resv with regs := updWhere (fun g => g.host == h) (fun g => { g with key := nrkey }) n.resv.regs, gen := (n.resv.gen + 1) % 2 ^ 32, ptpl := (if cptpl = 2 then false else if cptpl = 3 then true else n.resv.ptpl) }
        (((s.latch ref).updNs nsid (fun n => { n with resv := v })).rsvNotify nsid 2 []).rsvEnd ref nsid n.resv v)) ∧
  (∀ (s : State) (ref : Ref) (nsid rrega : Nat) (iekey : Bool) (cptpl crkey nrkey : Nat) (n : Ns) (h : Nat),
    s.accepts ref = true →
    s.rsvCheck ref nsid = .ok (n, h) →
    2 < rrega →
    exec (.reservationRegister ref nsid rrega iekey cptpl crkey nrkey) s =
      .next ((s.latch ref).complete ref .invalidField 0)) ∧
  (∀ (s : State) (ref : Ref) (nsid racqa : Nat) (iekey : Bool) (rtype crkey prkey : Nat) (n : Ns) (h : Nat),
    s.accepts ref = true →
    s.rsvCheck ref nsid = .ok (n, h) →
    (iekey || rtype = 0 || 6 < rtype || 2 < racqa) = true →
    exec (.reservationAcquire ref nsid racqa iekey rtype crkey prkey) s =
      .next ((s.latch ref).complete ref .invalidField 0)) ∧
  (∀ (s : State) (ref : Ref) (nsid racqa : Nat) (iekey : Bool) (rtype crkey prkey : Nat) (n : Ns) (h : Nat),
    s.accepts ref = true →
    s.rsvCheck ref nsid = .ok (n, h) →
    (iekey || rtype = 0 || 6 < rtype || 2 < racqa) = false →
    n.resv.keyOf h ≠ some crkey →
    exec (.reservationAcquire ref nsid racqa iekey rtype crkey prkey) s =
      .next ((s.latch ref).complete ref .reservationConflict 0)) ∧
  (∀ (s : State) (ref : Ref) (nsid racqa : Nat) (iekey : Bool) (rtype crkey prkey : Nat) (n : Ns) (h : Nat),
    s.accepts ref = true →
    s.rsvCheck ref nsid = .ok (n, h) →
    (iekey || rtype = 0 || 6 < rtype || 2 < racqa) = false →
    n.resv.keyOf h = some crkey →
    racqa = 0 →
    n.resv.rtype = 0 →
    exec (.reservationAcquire ref nsid racqa iekey rtype crkey prkey) s =
      .next (let v : Resv := { n.resv with rtype := rtype, holder := some h }
        (((s.latch ref).updNs nsid (fun n => { n with resv := v })).rsvNotify nsid 1 []).rsvEnd ref nsid n.resv v)) ∧
  (∀ (s : State) (ref : Ref) (nsid racqa : Nat) (iekey : Bool) (rtype crkey prkey : Nat) (n : Ns) (h : Nat),
    s.accepts ref = true →
    s.rsvCheck ref nsid = .ok (n, h) →
    (iekey || rtype = 0 || 6 < rtype || 2 < racqa) = false →
    n.resv.keyOf h = some crkey →
    racqa = 0 →
    n.resv.rtype ≠ 0 →
    ((n.resv.holder == some h || n.resv.allRegs) && n.resv.rtype = rtype) = true →
    exec (.reservationAcquire ref nsid racqa iekey rtype crkey prkey) s =
      .next ((((s.latch ref).updNs nsid (fun k => { k with resv := n.resv })).rsvNotify nsid 1 []).rsvEnd ref nsid n.resv n.resv)) ∧
  (∀ (s : State) (ref : Ref) (nsid racqa : Nat) (iekey : Bool) (rtype crkey prkey : Nat) (n : Ns) (h : Nat),
    s.accepts ref = true →
    s.rsvCheck ref nsid = .ok (n, h) →
    (iekey || rtype = 0 || 6 < rtype || 2 < racqa) = false →
    n.resv.keyOf h = some crkey →
    racqa = 0 →
    n.resv.rtype ≠ 0 →
    ((n.resv.holder == some h || n.resv.allRegs) && n.resv.rtype = rtype) = false →
    exec (.reservationAcquire ref nsid racqa iekey rtype crkey prkey) s =
      .next ((s.latch ref).complete ref .reservationConflict 0)) ∧
  (∀ (s : State) (ref : Ref) (nsid racqa : Nat) (iekey : Bool) (rtype crkey prkey : Nat) (n : Ns) (h : Nat),
    s.accepts ref = true →
    s.rsvCheck ref nsid = .ok (n, h) →
    (iekey || rtype = 0 || 6 < rtype || 2 < racqa) = false →
    n.resv.keyOf h = some crkey →
    racqa ≠ 0 →
    (!(n.resv.rtype != 0 && ((n.resv.allRegs && prkey = 0) || (!n.resv.allRegs && (n.resv.holder.bind n.resv.keyOf) == some prkey))) && ((n.resv.regs.filter (fun g => g.key == prkey && g.host != h)).map (fun g => g.host)).isEmpty && !(n.resv.holder == some h && n.resv.keyOf h == some prkey)) = true →
    exec (.reservationAcquire ref nsid racqa iekey rtype crkey prkey) s =
      .next ((s.latch ref).complete ref .reservationConflict 0)) ∧
  (∀ (s : State) (ref : Ref) (nsid racqa : Nat) (iekey : Bool) (rtype crkey prkey : Nat) (n : Ns) (h : Nat),
    s.accepts ref = true →
    s.rsvCheck ref nsid = .ok (n, h) →
    (iekey || rtype = 0 || 6 < rtype || 2 < racqa) = false →
    n.resv.keyOf h = some crkey →
    racqa ≠ 0 →
    (!(n.resv.rtype != 0 && ((n.resv.allRegs && prkey = 0) || (!n.resv.allRegs && (n.resv.holder.bind n.resv.keyOf) == some prkey))) && ((n.resv.regs.filter (fun g => g.key == prkey && g.host != h)).map (fun g => g.host)).isEmpty && !(n.resv.holder == some h && n.resv.keyOf h == some prkey)) = false →
    exec (.reservationAcquire ref nsid racqa iekey rtype crkey prkey) s =
      .next (let others := (if n.resv.allRegs && prkey = 0 then (n.resv.regs.filter (fun g => g.host != h)).map (fun g => g.host) else ((n.resv.regs.filter (fun g => g.key == prkey && g.host != h)).map (fun g => g.host)))
        let regs := n.resv.regs.filter (fun g => !others.contains g.host)
        let v : Resv := if (n.resv.rtype != 0 && ((n.resv.allRegs && prkey = 0) || (!n.resv.allRegs && (n.resv.holder.bind n.resv.keyOf) == some prkey))) then { n.resv with regs := regs, rtype := rtype, holder := some h, gen := (n.resv.gen + 1) % 2 ^ 32 }
          else { n.resv with regs := regs, gen := (n.resv.gen + 1) % 2 ^ 32 }
        let t := ((s.latch ref).updNs nsid (fun n => { n with resv := v })).rsvNotify nsid 1 others
        (if decide (racqa = 2) then t.preemptAbort nsid others else t).rsvEnd ref nsid n.resv v)) ∧
  (∀ (s : State) (ref : Ref) (nsid rrela : Nat) (iekey : Bool) (rtype crkey : Nat) (n : Ns) (h : Nat),
    s.accepts ref = true →
    s.rsvCheck ref nsid = .ok (n, h) →
    (iekey || 1 < rrela) = true →
    exec (.reservationRelease ref nsid rrela iekey rtype crkey) s =
      .next ((s.latch ref).complete ref .invalidField 0)) ∧
  (∀ (s : State) (ref : Ref) (nsid rrela : Nat) (iekey : Bool) (rtype crkey : Nat) (n : Ns) (h : Nat),
    s.accepts ref = true →
    s.rsvCheck ref nsid = .ok (n, h) →
    (iekey || 1 < rrela) = false →
    n.resv.keyOf h ≠ some crkey →
    exec (.reservationRelease ref nsid rrela iekey rtype crkey) s =
      .next ((s.latch ref).complete ref .reservationConflict 0)) ∧
  (∀ (s : State) (ref : Ref) (nsid rrela : Nat) (iekey : Bool) (rtype crkey : Nat) (n : Ns) (h : Nat),
    s.accepts ref = true →
    s.rsvCheck ref nsid = .ok (n, h) →
    (iekey || 1 < rrela) = false →
    n.resv.keyOf h = some crkey →
    rrela = 1 →
    exec (.reservationRelease ref nsid rrela iekey rtype crkey) s =
      .next (let v : Resv := { n.resv with regs := [], rtype := 0, holder := none, gen := (n.resv.gen + 1) % 2 ^ 32 }
        (((s.latch ref).updNs nsid (fun n => { n with resv := v })).rsvNotify nsid 3 ((n.resv.regs.filter (fun g => g.host != h)).map (fun g => g.host))).rsvEnd ref nsid n.resv v)) ∧
  (∀ (s : State) (ref : Ref) (nsid rrela : Nat) (iekey : Bool) (rtype crkey : Nat) (n : Ns) (h : Nat),
    s.accepts ref = true →
    s.rsvCheck ref nsid = .ok (n, h) →
    (iekey || 1 < rrela) = false →
    n.resv.keyOf h = some crkey →
    rrela = 0 →
    (n.resv.rtype != 0 && (n.resv.holder == some h || n.resv.allRegs)) = true →
    rtype ≠ n.resv.rtype →
    exec (.reservationRelease ref nsid rrela iekey rtype crkey) s =
      .next ((s.latch ref).complete ref .invalidField 0)) ∧
  (∀ (s : State) (ref : Ref) (nsid rrela : Nat) (iekey : Bool) (rtype crkey : Nat) (n : Ns) (h : Nat),
    s.accepts ref = true →
    s.rsvCheck ref nsid = .ok (n, h) →
    (iekey || 1 < rrela) = false →
    n.resv.keyOf h = some crkey →
    rrela = 0 →
    (n.resv.rtype != 0 && (n.resv.holder == some h || n.resv.allRegs)) = true →
    rtype = n.resv.rtype →
    exec (.reservationRelease ref nsid rrela iekey rtype crkey) s =
      .next (let v : Resv := { n.resv with rtype := 0, holder := none }
        (((s.latch ref).updNs nsid (fun n => { n with resv := v })).rsvNotify nsid 2 ((n.resv.regs.filter (fun g => g.host != h)).map (fun g => g.host))).rsvEnd ref nsid n.resv v)) ∧
  (∀ (s : State) (ref : Ref) (nsid rrela : Nat) (iekey : Bool) (rtype crkey : Nat) (n : Ns) (h : Nat),
    s.accepts ref = true →
    s.rsvCheck ref nsid = .ok (n, h) →
    (iekey || 1 < rrela) = false →
    n.resv.keyOf h = some crkey →
    rrela = 0 →
    (n.resv.rtype != 0 && (n.resv.holder == some h || n.resv.allRegs)) = false →
    exec (.reservationRelease ref nsid rrela iekey rtype crkey) s =
      .next ((((s.latch ref).updNs nsid (fun k => { k with resv := n.resv })).rsvNotify nsid 2 []).rsvEnd ref nsid n.resv n.resv))

/-- A unit whose cells are lost goes no further, and a data unit that passes its lane is released, to the cells for a write and to the host for a read; one that fails is processed again on the next lane, and a second failure ends the command; a lane under its known-answer test comes back or is masked; a key with equal halves is not loaded, and a slot waiting to be cleared is cleared once no lane holds a unit under it. Where the spec leaves a point open, it rests on the model's choices of log entries 67 and 73. -/
def Obligations.CipherUnits : Prop :=
  (∀ (s : State) (ref : Ref) (lba : Nat) (u : UnitEnd) (c : Cmd) (l : Nat),
    s.cmd ref = some c →
    s.pickLane = some l →
    (!s.fetches || !s.unitReady c lba) = false →
    u.cell.isLost = true →
    exec (.xtsUnitDone ref lba u) s =
      .next (let s1 := ({ s with ink := { s.ink with nextLane := (l + 1) % 16 } } : State).cellErr u.cell
        s1.settleCmds)) ∧
  (∀ (s : State) (ref : Ref) (lba : Nat) (u : UnitEnd) (c : Cmd) (l : Nat),
    s.cmd ref = some c →
    s.pickLane = some l →
    (!s.fetches || !s.unitReady c lba) = false →
    u.cell.isLost = false →
    u.pass = true →
    (c.kind = .read || c.kind = .compare) = true →
    exec (.xtsUnitDone ref lba u) s =
      .next (let s1 := ({ s with ink := { s.ink with nextLane := (l + 1) % 16 } } : State).cellErr u.cell
        (s1.updCmd ref (fun c => { c with left := c.left.erase lba, retry := c.retry.erase lba })).settleCmds)) ∧
  (∀ (s : State) (ref : Ref) (lba : Nat) (u : UnitEnd) (c : Cmd) (l : Nat),
    s.cmd ref = some c →
    s.pickLane = some l →
    (!s.fetches || !s.unitReady c lba) = false →
    u.cell.isLost = false →
    u.pass = true →
    (c.kind = .read || c.kind = .compare) = false →
    exec (.xtsUnitDone ref lba u) s =
      .next (let s1 := ({ s with ink := { s.ink with nextLane := (l + 1) % 16 } } : State).cellErr u.cell
        s1.verifyBlock c lba)) ∧
  (∀ (s : State) (ref : Ref) (lba : Nat) (u : UnitEnd) (c : Cmd) (l : Nat),
    s.cmd ref = some c →
    s.pickLane = some l →
    (!s.fetches || !s.unitReady c lba) = false →
    u.cell.isLost = false →
    u.pass = false →
    c.retry.contains lba = false →
    exec (.xtsUnitDone ref lba u) s =
      .next (let s1 := ({ s with ink := { s.ink with nextLane := (l + 1) % 16 } } : State).cellErr u.cell
        (s1.laneMismatch l).updCmd ref (fun c => { c with retry := lba :: c.retry }))) ∧
  (∀ (s : State) (ref : Ref) (lba : Nat) (u : UnitEnd) (c : Cmd) (l : Nat),
    s.cmd ref = some c →
    s.pickLane = some l →
    (!s.fetches || !s.unitReady c lba) = false →
    u.cell.isLost = false →
    u.pass = false →
    c.retry.contains lba = true →
    (c.kind = .read || c.kind = .compare) = true →
    exec (.xtsUnitDone ref lba u) s =
      .next (let s1 := ({ s with ink := { s.ink with nextLane := (l + 1) % 16 } } : State).cellErr u.cell
        (s1.laneMismatch l).failRead ref .internalError)) ∧
  (∀ (s : State) (ref : Ref) (lba : Nat) (u : UnitEnd) (c : Cmd) (l : Nat),
    s.cmd ref = some c →
    s.pickLane = some l →
    (!s.fetches || !s.unitReady c lba) = false →
    u.cell.isLost = false →
    u.pass = false →
    c.retry.contains lba = true →
    (c.kind = .read || c.kind = .compare) = false →
    exec (.xtsUnitDone ref lba u) s =
      .next (let s1 := ({ s with ink := { s.ink with nextLane := (l + 1) % 16 } } : State).cellErr u.cell
        (s1.laneMismatch l).failWrite ref .internalError)) ∧
  (∀ (s : State) (lane : Nat),
    (s.ink.lanes.getD lane {}).testing = true →
    exec (.laneKatDone lane true) s = .next (s.updLane lane (fun x => { x with inService := true, testing := false }))) ∧
  (∀ (s : State) (lane : Nat),
    (s.ink.lanes.getD lane {}).testing = true →
    exec (.laneKatDone lane false) s = .next (s.maskLane lane)) ∧
  (∀ (s : State) (slot key : Nat),
    slot < 4096 →
    s.mode ≠ .off →
    s.mode ≠ .holdUp →
    exec (.keySlotLoad slot key false) s =
      .next { s with ink := { s.ink with keys := ⟨slot, key⟩ :: s.ink.keys.filter (fun k => k.slot != slot) } }) ∧
  (∀ (s : State) (slot key : Nat),
    slot < 4096 →
    s.mode ≠ .off →
    s.mode ≠ .holdUp →
    exec (.keySlotLoad slot key true) s =
      .next { s with ink := { s.ink with keys := s.ink.keys.filter (fun k => k.slot != slot) } }) ∧
  (∀ (s : State) (slot : Nat),
    s.ink.pendingClear.contains slot = true →
    (s.qe.cmds.any (fun c => !c.retry.isEmpty && ((s.ns c.nsid).bind (fun n => n.key)) == some slot) = false) →
    exec (.keySlotClear slot) s =
      .next { s with ink := { s.ink with keys := s.ink.keys.filter (fun k => k.slot != slot), pendingClear := s.ink.pendingClear.filter (· != slot) } })

/-- The request that is next is granted whole and what waited for it goes on: a segment of a write or a read, a twin, the accumulators of a Blotter row, a copy of a chain, a request of a Tine, or the work of an owner; a host request that has waited 1 ms pads the open wordlines that hold host data; the audit recounts, reports and publishes its results; an owner is registered with its limits, refused when no ID is free or the minima do not fit, its work asking for its cells under it, or refused under owner 4 or 8; and its work ends. Where the spec leaves a point open, it rests on the model's choices of log entries 5, 67, 70, 73 and 88. -/
def Obligations.InkwellCommands : Prop :=
  (∀ (s : State) (r : CellReq),
    s.nextGrant = some r →
    r.what = .work →
    exec .inkwellGrant s = .next (((s.dropWait r).alloc r.owner r.last r.n).1)) ∧
  (∀ (s : State) (r : CellReq) (stream osn : Nat),
    s.nextGrant = some r →
    r.what = .tine stream osn →
    exec .inkwellGrant s =
      .next (let a := (s.dropWait r).alloc r.owner r.last r.n
        a.1.inkServed stream osn a.2)) ∧
  (∀ (s : State) (r : CellReq) (dump : Bool),
    s.nextGrant = some r →
    r.what = .row dump →
    exec .inkwellGrant s =
      .next (let t := s.placePages
        if t.ink.waiting.any (fun x => x.order == r.order) then t.dropWait r else t)) ∧
  (∀ (s : State) (r : CellReq) (ref : Ref) (head : Nat) (c : Cmd) (d : Chain),
    s.nextGrant = some r →
    r.what = .copy ref head →
    (s.dropWait r).cmd ref = some c →
    (s.dropWait r).chain head = some d →
    exec .inkwellGrant s =
      .next (let a := (s.dropWait r).copyChain d r.owner
        a.1.updCmd ref (fun c => { c with holds := a.2 :: c.holds }))) ∧
  (∀ (s : State) (r : CellReq) (ref : Ref) (lo : Nat) (c : Cmd) (g : Segment),
    s.nextGrant = some r →
    r.what = .twin ref lo →
    (s.dropWait r).cmd ref = some c →
    (c.segs.find? (fun g => g.lo == lo && g.twinDue) = some g) →
    exec .inkwellGrant s =
      .next (((s.dropWait r).giveTwin c g (g.chain.getD 0) ((s.dropWait r).cmdBs c) r.order).settleCmds)) ∧
  (∀ (s : State) (r : CellReq) (ref : Ref) (lo : Nat) (c : Cmd) (g : Segment),
    s.nextGrant = some r →
    r.what = .hostWrite ref lo →
    (s.dropWait r).cmd ref = some c →
    (c.segs.find? (fun g => g.lo == lo) = some g) →
    exec .inkwellGrant s =
      .next (((((s.dropWait r).giveWriteSeg c g ((s.dropWait r).cmdBs c)).askSegs (c.segs.length + 1) ref).settleCmds))) ∧
  (∀ (s : State) (r : CellReq) (ref : Ref) (lo : Nat) (c : Cmd) (g : Segment),
    s.nextGrant = some r →
    r.what = .hostRead ref lo →
    (s.dropWait r).cmd ref = some c →
    (c.segs.find? (fun g => g.lo == lo) = some g) →
    exec .inkwellGrant s =
      .next (let s1 := s.dropWait r
        let s2 := (s1.alloc 1 1 r.n).1
        let h := (s1.alloc 1 1 r.n).2
        let s3 := s2.updCmd ref (fun c => c.updSeg lo (fun g => { g with started := true, chain := some h }))
        let s4 := ((s3.segIus c g (s1.cmdBs c)).filter (fun q => !q.started)).foldl (fun (s : State) q => s.startIu c q (some h)) s3
        (s4.askReads (c.segs.length + 1) ref).settleCmds)) ∧
  (∀ (s : State),
    s.wpRuns = true →
    (s.ink.waiting.any (fun r => r.owner == 0 && r.since + msT ≤ s.now) = true) →
    exec .inkwellWaitPad s =
      .next (let holds (b : Band) : Bool := b.state == .open &&
          (b.fill.any (fun q => q.idx.isSome) || s.map.wordlines.any (fun w => w.band == b.ix && w.wl == b.wl && w.items.any (fun e => e.2.idx.isSome)))
        ((s.map.bands.filter holds).foldl (fun (s : State) b => s.padOpen b.ix) s).pump)) ∧
  (∀ (s : State) (mismatch : Bool),
    s.flag F.INK_CTRL_AUDIT_EN = true →
    s.mode ≠ .off →
    s.mode ≠ .doze →
    exec (.inkwellAuditPass mismatch) s =
      .next (let count (o : Nat) : Nat := ((s.ink.chains.filter (fun c => c.alloc == o)).map (fun c => c.cells.length)).sum
        let bad := mismatch || s.ink.owners.any (fun w => w.held != count w.id) ||
          (s.ink.owners.map (fun w => w.held)).sum + s.inkFree != s.poolCells
        let s1 : State := if bad then
            ({ s with ink := { s.ink with conserve := s.ink.conserve + 1 } }).post F.INK_EVT_STATUS_CONSERVE noUnit
          else s
        let old := s1.ink.chains.filter s1.pastAge
        let s2 := (old.filter (fun c => !c.leaked)).foldl (fun (s : State) c =>
          ({ s with ink := { s.ink with chains := updWhere (fun x => x.head == c.head) (fun x => { x with leaked := true }) s.ink.chains } }).post
            F.INK_EVT_STATUS_LEAK c.alloc) s1
        let busy := (s.ink.chains.map (fun c => c.alloc)).eraseDups
        { s2 with ink := { s2.ink with audit := {
            pool := s.poolCells, banks := s.fld F.INK_BANKS_INKWELL, dup := s.ink.dup, conserve := s1.ink.conserve
            owners := s.ink.owners.map (fun w => { id := w.id, dynamic := w.dynamic, effMin := s.effMin w.id, effMax := s.effMax w.id, held := w.held, peak := w.peak, waits := w.waits })
            stamp := s.stamp, free := s.inkFree, shared := s.sharedFree, passes := s.ink.audit.passes + 1, leaks := old.length
            ages := busy.map (fun o => (o, (List.range 8).map (fun b =>
              ((s.ink.chains.filter (fun c => c.alloc == o && ageBucket (s.chainAge c) == b)).map (fun c => c.cells.length)).sum)))
            overran := busy.map (fun o => (o, (old.filter (fun c => c.alloc == o)).length)) } } })) ∧
  (∀ (s : State) (r : Registration) (o : Nat),
    exec (.ownerRegister r (some o)) s = .next (s.endWork o)) ∧
  (∀ (s : State) (r : Registration),
    s.freeOwner = none →
    exec (.ownerRegister r none) s =
      .next ((s.post F.INK_EVT_STATUS_OWNER_FULL noUnit).askWork (if r.reclaim then 4 else 8) r.cells)) ∧
  (∀ (s : State) (r : Registration) (i : Nat),
    s.freeOwner = some i →
    73728 < s.sumMin + r.min →
    exec (.ownerRegister r none) s =
      .next ((s.post F.INK_EVT_STATUS_MIN_REJ i).askWork (if r.reclaim then 4 else 8) r.cells)) ∧
  (∀ (s : State) (r : Registration) (i : Nat),
    s.freeOwner = some i →
    s.sumMin + r.min ≤ 73728 →
    exec (.ownerRegister r none) s =
      .next (let s1 : State := { s with ink := { s.ink with owners := s.ink.owners ++ [{ id := i, dynamic := true }] } }
        (((s1.setFld (F.INK_OWNER_MIN_MIN i) r.min).setFld (F.INK_OWNER_MAX_MAX i) (max r.min 4096)).setFld (F.INK_OWNER_AGE_LIMIT i) 1000).askWork i r.cells))

/-- A write point below its width opens the free band that is picked, or retires one whose blocks leave fewer than three members; an empty candidate is erased, and an exposed band, a band queued for refresh or the best victim is moved; a wear spread above the limit moves one band; every map page found bad is taken for bad, and an uncorrectable word outside the map leads to SAFE; an idle write point is padded. Where the spec leaves a point open, it rests on the model's choices of log entries 3, 5, 70, 72, 77, 78, 79, 82, 87, 92 and 105. -/
def Obligations.BandUpkeep : Prop :=
  (∀ (s : State) (found : ScrubFound),
    (s.mapRuns || (s.mode == .safe && s.fld F.EVU_SAFE_MEDIA != 2)) = true →
    exec (.mapPageScrub found) s =
      .next (let held (s : State) (b : Nat × Nat) : Bool := (s.mapPage b.1 b.2).resident && (s.mapPage b.1 b.2).crcOk
        let s1 := if found.ce then s.post F.DEV_EVT_STATUS_D5_CE noUnit else s
        let s2 := (found.bad.filter (held s)).foldl (fun (s : State) b => s.pageBad b.1 b.2) s1
        let s3 := (found.ueMap.filter (held s2)).foldl (fun (s : State) b => s.pageBad b.1 b.2 F.DEV_EVT_STATUS_D5_UE_MAP) s2
        (if found.ue then ((s3.postAs F.DEV_EVT_STATUS_D5_UE 27 .uncorrectable noUnit).enterSafe 6 false).settle else s3).settleCmds)) ∧
  (∀ (s : State) (wp : Nat),
    s.mapRuns = true →
    (s.wp wp).lastIu + s.fld F.MAP_WP_CFG_IDLE_PAD * msT ≤ s.now →
    exec (.idlePadTimeout wp) s = .next ((s.padWp wp).pump)) ∧
  (∀ (s : State) (wp : Nat) (b : Band),
    wp < 128 →
    s.wpRuns = true →
    ((s.map.bands.filter (fun b => b.state == .open && b.wp == some wp)).length) < s.wpWidth wp →
    (8 ≤ wp && s.freeBands ≤ s.gcBands F.MAP_GC_THRESH_CRIT) = false →
    s.pickFree wp = some b →
    3 ≤ (s.bandMembers b.group b.block).length →
    exec (.bandOpen wp) s =
      .next (let s1 := (s.cacheCounts b (s.bandMembers b.group b.block)).updBand b.ix (fun b => { b with
          state := .open, wp := some wp, members := s.bandMembers b.group b.block, bos := s.map.nextBos
          lost := [], unprot := [], wl := 0, pos := 0, fill := [], pbands := [], padded := false, newest := 0, valid := 0 })
        ({ s1 with map := { s1.map with nextBos := s1.map.nextBos + 1 } } : State).refreshLevel.runWritePoints)) ∧
  (∀ (s : State) (wp : Nat) (b : Band),
    wp < 128 →
    s.wpRuns = true →
    ((s.map.bands.filter (fun b => b.state == .open && b.wp == some wp)).length) < s.wpWidth wp →
    (8 ≤ wp && s.freeBands ≤ s.gcBands F.MAP_GC_THRESH_CRIT) = false →
    s.pickFree wp = some b →
    (s.bandMembers b.group b.block).length < 3 →
    exec (.bandOpen wp) s = .next ((s.updBand b.ix (fun b => { b with state := .retired })).refreshLevel)) ∧
  (∀ (s : State) (b : Band),
    s.mapRuns = true →
    s.pwr.entry.isSome = false →
    (bestBy s.scoresAbove (s.map.bands.filter (fun b => s.isCandidate b && b.valid == 0)) = some b) →
    exec .reclaimVictimPick s = .next (s.startErase b.ix)) ∧
  (∀ (s : State) (b : Band),
    s.mapRuns = true →
    s.pwr.entry.isSome = false →
    (bestBy s.scoresAbove (s.map.bands.filter (fun b => s.isCandidate b && b.valid == 0)) = none) →
    (bestBy (fun x y => decide (x.valid < y.valid)) ((s.map.bands.filter s.isCandidate).filter (fun b => b.exposed)) = some b) →
    exec .reclaimVictimPick s = .next (s.startMoves b.ix (some 5) 4)) ∧
  (∀ (s : State) (b : Band),
    s.mapRuns = true →
    s.pwr.entry.isSome = false →
    (bestBy s.scoresAbove (s.map.bands.filter (fun b => s.isCandidate b && b.valid == 0)) = none) →
    (bestBy (fun x y => decide (x.valid < y.valid)) ((s.map.bands.filter s.isCandidate).filter (fun b => b.exposed)) = none) →
    (s.map.bands.filter s.isCandidate).find? (fun b => b.refresh.isSome) = some b →
    exec .reclaimVictimPick s = .next (s.startMoves b.ix (some 4) (b.refresh.getD 4))) ∧
  (∀ (s : State) (b : Band),
    s.mapRuns = true →
    s.pwr.entry.isSome = false →
    (bestBy s.scoresAbove (s.map.bands.filter (fun b => s.isCandidate b && b.valid == 0)) = none) →
    (bestBy (fun x y => decide (x.valid < y.valid)) ((s.map.bands.filter s.isCandidate).filter (fun b => b.exposed)) = none) →
    (s.map.bands.filter s.isCandidate).find? (fun b => b.refresh.isSome) = none →
    (s.map.bands.filter (fun b => b.moving == some 1)).length < s.victimLimit →
    bestBy s.scoresAbove (s.map.bands.filter s.isCandidate) = some b →
    exec .reclaimVictimPick s = .next (s.startMoves b.ix none (if 2 ≤ s.map.level then 3 else 4))) ∧
  (∀ (s : State) (band : Nat) (b : Band),
    s.band band = some b →
    (s.mapRuns && s.isCandidate b && b.valid == 0) = true →
    exec (.bandEraseStart band) s = .next (s.startErase band)) ∧
  (∀ (s : State),
    s.mapRuns = true →
    s.pwr.entry.isSome = false →
    s.flag F.MAP_CTRL_WL_EN = true →
    s.fld F.MAP_WEAR_SPREAD < (s.serviceCounts.foldl max 0) - (s.serviceCounts.foldl min (s.serviceCounts.foldl max 0)) →
    (s.post F.MAP_EVT_STATUS_SPREAD_OVER noUnit).map.wlBand.isSome = true →
    exec .wearSpreadCheck s = .next (s.post F.MAP_EVT_STATUS_SPREAD_OVER noUnit)) ∧
  (∀ (s : State),
    s.mapRuns = true →
    s.pwr.entry.isSome = false →
    s.flag F.MAP_CTRL_WL_EN = true →
    s.fld F.MAP_WEAR_SPREAD < (s.serviceCounts.foldl max 0) - (s.serviceCounts.foldl min (s.serviceCounts.foldl max 0)) →
    (s.post F.MAP_EVT_STATUS_SPREAD_OVER noUnit).map.wlBand.isSome = false →
    exec .wearSpreadCheck s =
      .next (let n (b : Band) : Nat := max 1 ((s.map.groups.getD b.group []).length)
        let better (x y : Band) : Bool :=
          decide (s.bandErases x * n y < s.bandErases y * n x) ||
            (s.bandErases x * n y == s.bandErases y * n x && decide (x.newest < y.newest))
        let s1 := (s.post F.MAP_EVT_STATUS_SPREAD_OVER noUnit)
        ((bestBy better (s1.map.bands.filter s1.isCandidate)).map (fun b =>
          let s2 := ({ s1 with map := { s1.map with wlBand := some b.ix } } : State).startMoves b.ix (some 3) 4
          if (s1.validIn b).isEmpty then s2.moveDone b.ix else s2)).getD s1))

/-- A checkpoint that is due starts, or follows the one that runs, also after 768 KiB of band-table changes; one not complete after 10 s is reported once; a pending cut is held at the first line at or above its time; after EVICT_S seconds at Critical the held cut of the lowest generation goes; the first CSTS.RDY runs the boot sequence, and the next ends BOOT once its work is done. Where the spec leaves a point open, it rests on the model's choices of log entries 5, 27, 29, 68 and 81. -/
def Obligations.CheckpointsAndCuts : Prop :=
  (∀ (s : State),
    (s.mode == .run || s.mode == .degraded || s.mode == .trial) = true →
    (s.fld F.MAP_CKPT_CFG_GIB * 2 ^ 30 ≤ s.ckpt.stamped || s.ckpt.lastStart + s.fld F.MAP_CKPT_CFG_SECS * secT ≤ s.now || 786432 ≤ s.deltaBytes) = true →
    s.ckpt.running.isSome = true →
    exec .checkpointStart s = .next { s with ckpt := { s.ckpt with again := true } }) ∧
  (∀ (s : State),
    (s.mode == .run || s.mode == .degraded || s.mode == .trial) = true →
    (s.fld F.MAP_CKPT_CFG_GIB * 2 ^ 30 ≤ s.ckpt.stamped || s.ckpt.lastStart + s.fld F.MAP_CKPT_CFG_SECS * secT ≤ s.now || 786432 ≤ s.deltaBytes) = true →
    s.ckpt.running.isSome = false →
    exec .checkpointStart s = .next s.startCheckpoint) ∧
  (∀ (s : State) (c : Image),
    s.ckpt.running = some c →
    s.ckpt.slow = false →
    s.ckpt.lastStart + 10 * secT ≤ s.now →
    exec .checkpointSlow s = .next (({ s with ckpt := { s.ckpt with slow := true } }).post F.MAP_CP_EVT_STATUS_CKPT_SLOW noUnit)) ∧
  (∀ (s : State) (slot : Nat) (c : CutRec),
    (s.ckpt.cuts.find? (fun c => c.slot == slot && c.state == 1) = some c) →
    ((s.mode == .run || s.mode == .degraded || s.mode == .trial) && c.time * 256 ≤ s.nowAt islQueue) = true →
    exec (.cutHold slot) s = .next (s.holdCut c)) ∧
  (∀ (s : State) (t : Nat) (c : CutRec),
    s.ckpt.critAt = some t →
    t + s.fld F.MAP_CUT_CFG_EVICT_S * secT ≤ s.now →
    s.pinsData = true →
    s.flag F.MAP_CUT_CFG_EVICT = true →
    s.map.level = 3 →
    s.lowestHeld = some c →
    exec .cutEvict s =
      .next ((({ s with ckpt := { s.ckpt with critAt := some s.now } } : State).releaseCut c.slot).post F.MAP_CP_EVT_STATUS_CUT_EVICT c.slot)) ∧
  (∀ (s : State) (env : BootEnv),
    s.mode = .boot →
    s.pwr.booted = false →
    exec (.cstsRdySet env) s = .next (s.enterBoot 0 env)) ∧
  (∀ (s : State) (env : BootEnv),
    s.mode = .boot →
    s.pwr.booted = true →
    s.bootDone = true →
    exec (.cstsRdySet env) s = .next s.bootEnds)

/-- A rebuild whose peers all answered and whose record passes gives the unit to everyone that waits, and is written elsewhere, or in BOOT put off, and counted unless it was read around; one that fails loses the unit, or ends as a ladder step; the patrol window sets its rate and reads; a sample of the store gives its voltage and charge, and moves its self-test; the budgets are recomputed and the self-test falls due where the monitors run. Where the spec leaves a point open, it rests on the model's choices of log entries 5 and 7. -/
def Obligations.RebuildsAndPatrol : Prop :=
  (∀ (s : State) (id : Nat) (f : Fetch) (ok : Bool),
    s.fetchAt id = some f →
    f.rebuild = true →
    f.peers = 0 →
    f.nested = false →
    (f.peerLost || !ok) = true →
    f.ladder = false →
    exec (.unitRebuildDone id ok) s = .next (s.unitLost f)) ∧
  (∀ (s : State) (id : Nat) (f : Fetch) (ok : Bool),
    s.fetchAt id = some f →
    f.rebuild = true →
    f.peers = 0 →
    f.nested = false →
    (f.peerLost || !ok) = true →
    f.ladder = true →
    exec (.unitRebuildDone id ok) s = .next (s.updFetch id (fun f => { f with rebuild := false }))) ∧
  (∀ (s : State) (id : Nat) (f : Fetch),
    s.fetchAt id = some f →
    f.rebuild = true →
    f.peers = 0 →
    f.nested = false →
    f.peerLost = false →
    f.around = true →
    exec (.unitRebuildDone id true) s = .next ((s.post F.LIG_EVT_STATUS_REBUILT (lunOf f.addr)).giveAll f false)) ∧
  (∀ (s : State) (id : Nat) (f : Fetch),
    s.fetchAt id = some f →
    f.rebuild = true →
    f.peers = 0 →
    f.nested = false →
    f.peerLost = false →
    f.around = false →
    exec (.unitRebuildDone id true) s =
      .next (let s1 := (s.post F.LIG_EVT_STATUS_REBUILT (lunOf f.addr))
        let s2 : State := if s1.mode = .boot then
            { s1.countRebuild (lunOf f.addr) (s.blockOf f.addr) with map.deferred := s1.map.deferred ++ [((s.target f).addr, 3, true)] }
          else
            ((if s1.writesBack && !(f.users.any User.isMove) then s1.writeRebuilt (s.target f) (if f.kind = 0 && f.expect != .unmapped then f.expect else .mapped (s.target f).addr) else s1).countRebuild
              (lunOf f.addr) (s.blockOf f.addr)).finding f.addr 3
        s2.giveAll f false)) ∧
  (∀ (s : State),
    s.mapRuns = true →
    s.pwr.entry.isSome = false →
    s.flag F.LIG_CTRL_PATROL_EN = true →
    exec .patrolWindow s =
      .next (let s1 := if s.patrolRest = 0 && (s.map.patrolTotal = 0 || s.map.patrolAt + s.patrolPeriod ≤ s.now) then s.startPass else s
        let left := s1.patrolRest
        let late := left != 0 && (s1.map.patrolAt + s1.patrolPeriod) ≤ s1.now
        let rate := if late then s1.fld F.LIG_PATROL_CATCHUP * ceilDiv s1.map.patrolTotal (max 1 (s1.patrolPeriod / secT))
          else ceilDiv left (max 1 (((s1.map.patrolAt + s1.patrolPeriod) - s1.now) / secT))
        let s2 := if late then s1.post F.LIG_EVT_STATUS_PATROL_LATE noUnit else s1
        let s3 : State := { s2 with map := { s2.map with patrolRate := rate } }
        State.patrolRead (min rate left + s3.map.patrolLeft.length) (min rate left) s3)) ∧
  (∀ (s : State) (code : Nat),
    s.mode ≠ .off →
    (s.sampled code).blt.test = .idle →
    exec (.vstoreSample code) s =
      .next (s.sampled code)) ∧
  (∀ (s : State) (code : Nat),
    s.mode ≠ .off →
    (s.sampled code).blt.test = .waiting →
    exec (.vstoreSample code) s =
      .next (if (s.sampled code).wetBytes ≤ (((s.sampled code).budgets ((s.sampled code).fld F.PWR_ES_MEAS_VFULL * 85 / 100) true).1 + ((s.sampled code).budgets ((s.sampled code).fld F.PWR_ES_MEAS_VFULL * 85 / 100) true).2) * 1048576 then { (s.sampled code) with blt := { (s.sampled code).blt with bleed := true, test := .bleeding, testAt := s.now } } else (s.sampled code))) ∧
  (∀ (s : State) (code : Nat),
    s.mode ≠ .off →
    (s.sampled code).blt.test = .bleeding →
    exec (.vstoreSample code) s =
      .next (if 2 * secT < s.now - (s.sampled code).blt.testAt then (s.sampled code).testResult false
        else if (min 4095 (s.storeV code)) * 100 < (s.sampled code).fld F.PWR_ES_MEAS_VFULL * 85 then { (s.sampled code) with blt := { (s.sampled code).blt with bleed := false, test := .recharging, testAt := s.now, rise := [((min 4095 (s.storeV code)), s.now)] } } else (s.sampled code))) ∧
  (∀ (s : State) (code : Nat),
    s.mode ≠ .off →
    (s.sampled code).blt.test = .recharging →
    exec (.vstoreSample code) s =
      .next (if 2 * secT < s.now - (s.sampled code).blt.testAt then (s.sampled code).testResult false
        else if (s.sampled code).fld F.PWR_ES_MEAS_VFULL * 95 ≤ (min 4095 (s.storeV code)) * 100 then
          let t := (s.sampled code).measureC ((s.sampled code).fld F.PWR_ES_MEAS_VFULL)
          t.testResult (10 * t.fld F.PWR_ES_CFG2_CMIN ≤ t.fld F.PWR_ES_MEAS_C_UF)
        else (s.sampled code))) ∧
  (∀ (s : State),
    s.monitors = true →
    exec .budgetRecompute s = .next s.recompute) ∧
  (∀ (s : State),
    s.monitors = true →
    s.blt.test = .idle →
    s.testDue = true →
    exec .holdupSelfTest s = .next { s with blt := { s.blt with test := .waiting, testAt := s.now, lastTest := some s.now } })

/-- A Tine whose outputs differ or whose state is bad resigns; an output is checked, dropped as a duplicate, forwarded in OSN order or held; an output held for 128 ns stops the device in SAFE; a handover closes its overlap and completes with its record; a Tine that passes its test becomes ready and joins, one that fails, or resigns twice in 24 h, is masked; a drill that is due starts or is deferred. Where the spec leaves a point open, it rests on the model's choices of log entries 3, 5, 7, 29, 66, 72, 78, 87 and 107. -/
def Obligations.TineCommands : Prop :=
  (∀ (s : State) (tine : Bool),
    exec (.tineCompareMismatch tine) s = .next (s.resign tine 1)) ∧
  (∀ (s : State) (tine : Bool),
    exec (.tineStateError tine) s = .next (s.resign tine 2)) ∧
  (∀ (s : State) (tine : Bool) (stream osn : Nat) (o : TineOut),
    (s.tine.st tine = .standby && s.tine.ho.isNone) = true →
    exec (.tineOutputOffer tine stream osn o) s =
      .next (s.crossCheck tine stream osn o.crc)) ∧
  (∀ (s : State) (tine : Bool) (stream osn : Nat) (o : TineOut),
    s.tineDrives tine = true →
    (s.tine.st tine = .standby && s.tine.ho.isNone) = false →
    osn ≤ ((s.tine.last.lookup stream).getD 0) →
    exec (.tineOutputOffer tine stream osn o) s =
      .next ((if s.tine.ho.isNone && s.tine.paired then s.crossCheck tine stream osn o.crc else s).dupOutput)) ∧
  (∀ (s : State) (tine : Bool) (stream osn : Nat) (o : TineOut),
    s.tineDrives tine = true →
    (s.tine.st tine = .standby && s.tine.ho.isNone) = false →
    osn = ((s.tine.last.lookup stream).getD 0) + 1 →
    exec (.tineOutputOffer tine stream osn o) s =
      .next (((if s.tine.ho.isNone && s.tine.paired then s.crossCheck tine stream osn o.crc else s).forward stream osn o.ask).forwardHeld ((if s.tine.ho.isNone && s.tine.paired then s.crossCheck tine stream osn o.crc else s).tine.held.length + 1) stream)) ∧
  (∀ (s : State) (tine : Bool) (stream osn : Nat) (o : TineOut),
    s.tineDrives tine = true →
    (s.tine.st tine = .standby && s.tine.ho.isNone) = false →
    ((s.tine.last.lookup stream).getD 0) + 1 < osn →
    (if s.tine.ho.isNone && s.tine.paired then s.crossCheck tine stream osn o.crc else s).tine.held.any (fun h => h.stream == stream && h.osn == osn) = true →
    exec (.tineOutputOffer tine stream osn o) s =
      .next ((if s.tine.ho.isNone && s.tine.paired then s.crossCheck tine stream osn o.crc else s).dupOutput)) ∧
  (∀ (s : State) (tine : Bool) (stream osn : Nat) (o : TineOut),
    s.tineDrives tine = true →
    (s.tine.st tine = .standby && s.tine.ho.isNone) = false →
    ((s.tine.last.lookup stream).getD 0) + 1 < osn →
    (if s.tine.ho.isNone && s.tine.paired then s.crossCheck tine stream osn o.crc else s).tine.held.any (fun h => h.stream == stream && h.osn == osn) = false →
    exec (.tineOutputOffer tine stream osn o) s =
      .next ({ (if s.tine.ho.isNone && s.tine.paired then s.crossCheck tine stream osn o.crc else s) with tine := { (if s.tine.ho.isNone && s.tine.paired then s.crossCheck tine stream osn o.crc else s).tine with held := { stream := stream, osn := osn, ask := o.ask, at_ := s.now } :: (if s.tine.ho.isNone && s.tine.paired then s.crossCheck tine stream osn o.crc else s).tine.held } })) ∧
  (∀ (s : State) (stream : Nat),
    (s.tine.held.any (fun h => h.stream == stream && h.at_ + 128 * nsT ≤ s.now) = true) →
    exec (.mergeGapTimeout stream) s =
      .next ((({ s with tine := { s.tine with dead := true } }).post F.TINE_EVT_STATUS_MERGE_GAP stream).enterSafe 0x0B true)) ∧
  (∀ (s : State) (h : Handover),
    s.tine.ho = some h →
    h.overlap = true →
    exec .overlapClose s =
      .next { s with tine := { s.tine with ho := some { h with overlap := false, ovl := min 64 ((s.now - h.at_) / nsT) } } }) ∧
  (∀ (s : State) (h : Handover),
    s.tine.ho = some h →
    h.overlap = false →
    exec .handoverComplete s =
      .next (let dur := (s.now - h.at_) / nsT
        let ns := h.at_ / nsT
        let s1 := s.setTine (!h.from_) .active
        let s2 : State := { s1 with tine := { s1.tine with
          active := !h.from_, ho := none, drillAt := s.now, marks := [], drill := s1.tine.drill.map (fun (d : Drill) => { d with dur }) } }
        let s3 := ((s2.setFld F.TINE_HO_LAST_CAUSE h.cause).setFld F.TINE_HO_LAST_FROM (tineNo h.from_)).setFld F.TINE_HO_LAST_DUR (min 4095 dur)
        let s4 := ((s3.setFld F.TINE_HO_LAST_OVL h.ovl).setFld F.TINE_HO_LAST_DUPS h.dups).setFld F.TINE_HO_STAMP_LO_NS (ns % 2 ^ 32)
        let s5 := ((s4.setFld F.TINE_HO_STAMP_HI_NS (ns / 2 ^ 32)).bumpFld F.TINE_CNT_HANDOVERS).post F.TINE_EVT_STATUS_HANDOVER (tineNo h.from_)
        let s6 := s5.tineEntry 0 h.cause h.from_ dur ns
        if h.cause = 3 || h.cause = 4 then s6.rejoin h.from_ else s6.settle)) ∧
  (∀ (s : State) (tine pass : Bool) (us : Nat),
    s.tine.st tine = .resigned →
    s.tine.ready = false →
    s.tine.ho.isSome = false →
    s.mode ≠ .boot →
    exec (.tineSelfTestDone tine pass us) s =
      .next (let s1 := ((s.setFld F.TINE_ST_RESULT (if pass then 1 else 2)).setFld F.TINE_ST_WHICH (tineNo tine)).setFld F.TINE_ST_DUR_US (min 65535 us)
        let s2 := if pass then s1 else s1.post F.TINE_EVT_STATUS_SELFTEST_FAIL (tineNo tine)
        if !pass || 2 ≤ (s2.tine.resigns.filter (fun r => r.1 == tine && s.now < r.2 + dayT)).length then
          (((s2.setTine tine .masked).post F.TINE_EVT_STATUS_MASK (tineNo tine)).tineEntry 3 0 tine 0 (s.now / nsT)).settle
        else { s2 with tine := { s2.tine with ready := true } })) ∧
  (∀ (s : State),
    s.tine.ready = true →
    s.flag F.TINE_CTRL_RESYNC_EN = true →
    s.tine.ho.isSome = false →
    s.tineBlocked = false →
    exec .resyncStart s = .next (s.startResync s.tine.joiner)) ∧
  (∀ (s : State) (b : Bool),
    (if s.tine.a = .joining then false else true) = b →
    s.tine.st b = .joining →
    s.mode ≠ .holdUp →
    s.mode ≠ .off →
    s.tine.drill = none →
    exec .resyncComplete s =
      .next (let stall := (s.now - s.tine.joinAt) / usT
        let s1 := ((s.setTine b .standby).setFld F.TINE_RESYNC_STALL_US (min 65535 stall)).post F.TINE_EVT_STATUS_RESYNC (tineNo b)
        let s2 := s1.tineEntry 2 0 b ((s.now - s.tine.joinAt) / nsT) (s.tine.joinAt / nsT)
        ({ s2 with tine := { s2.tine with marks := [] } } : State).settle)) ∧
  (∀ (s : State) (b : Bool) (d : Drill),
    (if s.tine.a = .joining then false else true) = b →
    s.tine.st b = .joining →
    s.mode ≠ .holdUp →
    s.mode ≠ .off →
    s.tine.drill = some d →
    exec .resyncComplete s =
      .next (let stall := (s.now - s.tine.joinAt) / usT
        let s1 := ((s.setTine b .standby).setFld F.TINE_RESYNC_STALL_US (min 65535 stall)).post F.TINE_EVT_STATUS_RESYNC (tineNo b)
        let s2 := s1.tineEntry 2 0 b ((s.now - s.tine.joinAt) / nsT) (s.tine.joinAt / nsT)
        let s3 : State := { s2 with tine := { s2.tine with drill := none, marks := [] }, bxl := { s2.bxl with drilled := true } }
        let s4 := ((s3.bumpFld F.TINE_CNT_DRILLS).post F.TINE_EVT_STATUS_DRILL (tineNo d.from_)).tineEntry 1 d.cause d.from_ d.dur (s.tine.joinAt / nsT)
        (d.refs.foldl (fun (s : State) r => s.complete r .success (tineNo s4.tine.active + 2 ^ 16 * min 65535 d.dur)) s4).settle)) ∧
  (∀ (s : State) (reports : Bool),
    s.flag F.TINE_CTRL_DRILL_EN = true →
    s.tine.drill.isSome = false →
    s.mode ≠ .off →
    (s.tine.due || s.tine.drillAt + s.fld F.TINE_DRILL_PERIOD_H * 3600 * secT ≤ s.now) = true →
    s.drillFree = true →
    exec (.drillDue reports) s = .next (s.startDrill reports)) ∧
  (∀ (s : State) (reports : Bool),
    s.flag F.TINE_CTRL_DRILL_EN = true →
    s.tine.drill.isSome = false →
    s.mode ≠ .off →
    (s.tine.due || s.tine.drillAt + s.fld F.TINE_DRILL_PERIOD_H * 3600 * secT ≤ s.now) = true →
    s.drillFree = false →
    s.tine.due = false →
    exec (.drillDue reports) s =
      .next (({ s with tine := { s.tine with due := true } }).post F.TINE_EVT_STATUS_DRILL_DEFER noUnit))

/-- An event that has waited 1 ms for a request is reported; the alert response address and an accepted in-band interrupt acknowledge the alert; the Folio request at the head of the queue ends with its status; a scrub rewrites corrected copies and marks the uncorrectable ones; an engine request waits for the lock or runs under it, and an idle holder loses it; the entropy source fails and recovers; a burn ends and is read back. Where the spec leaves a point open, it rests on the model's choices of log entries 5, 37, 55, 56 and 76. -/
def Obligations.AlertsFolioAndGce : Prop :=
  (∀ (s : State) (ctrl group : Nat),
    (s.evu.aenWait.any (fun w => w.1 == ctrl && w.2.1 == group && w.2.2 + msT ≤ s.now) && s.mode != .off) = true →
    exec (.aenWaitTimeout ctrl group) s = .next (s.post F.EVU_EVT_STATUS_AEN_WAIT ctrl)) ∧
  (∀ (s : State),
    (s.mgmt.alert && !s.mgmt.i3c && s.pwr.vaux) = true →
    exec .alertResponseAddress s =
      .next (({ s with mgmt := { s.mgmt with alert := false } } : State).emit (.mctp 0xAA [0x1D + s.mgmt.straps]))) ∧
  (∀ (s : State),
    (s.mgmt.alert && s.mgmt.i3c && s.pwr.vaux) = true →
    exec .ibiAccept s = .next { s with mgmt := { s.mgmt with alert := false } }) ∧
  (∀ (s : State) (r : FolReq) (rest : List FolReq),
    s.fol.reqs = r :: rest →
    s.mode ≠ .off →
    s.mode ≠ .holdUp →
    r.erase = true →
    exec (.folioRequestComplete 0) s =
      .next (let s1 : State := (let two : Bool := (match r.job with | .event => ({ s with fol := { s.fol with reqs := rest } } : State).fol.entries.head?.any (fun e => decide (e.secs = 2)) | _ => false)
          let t := ({ s with fol := { s.fol with reqs := rest } } : State).folErased (({ s with fol := { s.fol with reqs := rest } } : State).folSector r.job)
          let u := if two then t.folErased (13376 + (({ s with fol := { s.fol with reqs := rest } } : State).fol.evtPos + 1) % 1024) else t
          { u with fol := { u.fol with reqs := { r with erase := false } :: u.fol.reqs } })
        s1)) ∧
  (∀ (s : State) (r : FolReq) (rest : List FolReq),
    s.fol.reqs = r :: rest →
    s.mode = .holdUp →
    r.erase = true →
    exec (.folioRequestComplete 0) s =
      .next (let s1 : State := (let two : Bool := (match r.job with | .event => ({ s with fol := { s.fol with reqs := rest } } : State).fol.entries.head?.any (fun e => decide (e.secs = 2)) | _ => false)
          let t := ({ s with fol := { s.fol with reqs := rest } } : State).folErased (({ s with fol := { s.fol with reqs := rest } } : State).folSector r.job)
          let u := if two then t.folErased (13376 + (({ s with fol := { s.fol with reqs := rest } } : State).fol.evtPos + 1) % 1024) else t
          { u with fol := { u.fol with reqs := { r with erase := false } :: u.fol.reqs } })
        { s1 with fol := { s1.fol with reqs := [] } })) ∧
  (∀ (s : State) (r : FolReq) (rest : List FolReq),
    s.fol.reqs = r :: rest →
    s.mode ≠ .off →
    s.mode ≠ .holdUp →
    r.erase = false →
    exec (.folioRequestComplete 0) s =
      .next (let s1 : State := ({ s with fol := { s.fol with reqs := rest } } : State).folPassed r
        s1)) ∧
  (∀ (s : State) (r : FolReq) (rest : List FolReq),
    s.fol.reqs = r :: rest →
    s.mode = .holdUp →
    r.erase = false →
    exec (.folioRequestComplete 0) s =
      .next (let s1 : State := ({ s with fol := { s.fol with reqs := rest } } : State).folPassed r
        { s1 with fol := { s1.fol with reqs := [] } })) ∧
  (∀ (s : State) (r : FolReq) (rest : List FolReq) (status : Nat),
    s.fol.reqs = r :: rest →
    s.mode ≠ .off →
    s.mode ≠ .holdUp →
    1 ≤ status →
    status ≤ 2 →
    exec (.folioRequestComplete status) s =
      .next (let s1 : State := ({ s with fol := { s.fol with reqs := rest } } : State).folFailed r
        s1)) ∧
  (∀ (s : State) (r : FolReq) (rest : List FolReq) (status : Nat),
    s.fol.reqs = r :: rest →
    s.mode = .holdUp →
    1 ≤ status →
    status ≤ 2 →
    exec (.folioRequestComplete status) s =
      .next (let s1 : State := ({ s with fol := { s.fol with reqs := rest } } : State).folFailed r
        { s1 with fol := { s1.fol with reqs := [] } })) ∧
  (∀ (s : State) (r : FolReq) (rest : List FolReq) (status : Nat),
    s.fol.reqs = r :: rest →
    s.mode ≠ .off →
    s.mode ≠ .holdUp →
    3 ≤ status →
    status ≤ 4 →
    exec (.folioRequestComplete status) s =
      .next (let s1 : State := { ({ s with fol := { s.fol with reqs := rest } } : State) with fol := { ({ s with fol := { s.fol with reqs := rest } } : State).fol with reqs := { r with erase := true } :: rest } }
        s1)) ∧
  (∀ (s : State) (r : FolReq) (rest : List FolReq) (status : Nat),
    s.fol.reqs = r :: rest →
    s.mode = .holdUp →
    3 ≤ status →
    status ≤ 4 →
    exec (.folioRequestComplete status) s =
      .next (let s1 : State := { ({ s with fol := { s.fol with reqs := rest } } : State) with fol := { ({ s with fol := { s.fol with reqs := rest } } : State).fol with reqs := { r with erase := true } :: rest } }
        { s1 with fol := { s1.fol with reqs := [] } })) ∧
  (∀ (s : State) (words : List (FolCopy × Bool)),
    s.flag F.FOL_CTRL_SCRUB_EN = true →
    s.mode ≠ .off →
    s.mode ≠ .doze →
    s.mode ≠ .holdUp →
    s.fol.scrubAt + dayT ≤ s.now →
    exec (.folioScrub words) s =
      .next (words.foldl (fun (s : State) e =>
        if e.2 then (s.copyBad e.1).post F.FOL_EVT_STATUS_WORD_UE noUnit
        else (s.copyFromOther e.1).post F.FOL_EVT_STATUS_WORD_CE noUnit) { s with fol := { s.fol with scrubAt := s.now } })) ∧
  (∀ (s : State) (owner : Nat) (op : GceOp) (handle : Nat) (m1 m2 last : Bool),
    owner ≠ 0 →
    owner ≤ 4 →
    s.mode ≠ .off →
    s.mode ≠ .doze →
    (s.gce.owner != 0 && s.gce.owner != owner) = true →
    (s.gce.waiting.any (fun e => e.1 == owner) = true) →
    exec (.gceRequest owner op handle m1 m2 last) s =
      .next (s)) ∧
  (∀ (s : State) (owner : Nat) (op : GceOp) (handle : Nat) (m1 m2 last : Bool),
    owner ≠ 0 →
    owner ≤ 4 →
    s.mode ≠ .off →
    s.mode ≠ .doze →
    (s.gce.owner != 0 && s.gce.owner != owner) = true →
    (s.gce.waiting.any (fun e => e.1 == owner) = false) →
    exec (.gceRequest owner op handle m1 m2 last) s =
      .next ({ s with gce := { s.gce with waiting := gceWait owner s.now s.gce.waiting } })) ∧
  (∀ (s : State) (owner : Nat) (op : GceOp) (handle : Nat) (m1 m2 last : Bool),
    owner ≠ 0 →
    owner ≤ 4 →
    s.mode ≠ .off →
    s.mode ≠ .doze →
    (s.gce.owner != 0 && s.gce.owner != owner) = false →
    exec (.gceRequest owner op handle m1 m2 last) s =
      .next (let t := ({ s with gce := { s.gce with owner := owner, lastReq := s.now } } : State).gceRun op handle m1 m2
        if last then t.gceNext else t)) ∧
  (∀ (s : State),
    s.gce.owner ≠ 0 →
    s.gce.lastReq + 100 * msT ≤ s.now →
    exec .gceLockTimeout s = .next (s.gceNext.post F.GCE_EVT_STATUS_LOCK_TMO noUnit)) ∧
  (∀ (s : State),
    s.mode ≠ .off →
    s.mode ≠ .doze →
    exec .entropyHealthFail s = .next (({ s with gce := { s.gce with entropyOk := false } }).post F.GCE_EVT_STATUS_ENTROPY_FAIL noUnit)) ∧
  (∀ (s : State),
    s.mode ≠ .off →
    s.mode ≠ .doze →
    exec .entropyHealthPass s = .next { s with gce := { s.gce with entropyOk := true } }) ∧
  (∀ (s : State) (weak w m : Nat) (t : Trans) (rest : List (Nat × Nat)),
    s.mode ≠ .off →
    s.mode ≠ .doze →
    s.mode ≠ .holdUp →
    s.fol.trans = some t →
    t.burns = (w, m) :: rest →
    (s.fol.intents.head?.any (fun i => i.iseq == t.intent.iseq) = true) →
    exec (.fuseProgramComplete weak) s = .next (s.lcBurn t w m weak rest)) ∧
  (∀ (s : State) (weak w m : Nat) (rest : List (Nat × Nat)),
    s.mode ≠ .off →
    s.mode ≠ .doze →
    s.mode ≠ .holdUp →
    s.fol.trans = none →
    s.fol.svnBurns = (w, m) :: rest →
    (m &&& weak != 0 && s.fol.svnTries < 3) = true →
    exec (.fuseProgramComplete weak) s =
      .next { (s.burn w m weak) with fol := { (s.burn w m weak).fol with svnBurns := (w, m &&& weak) :: rest, svnTries := s.fol.svnTries + 1 } }) ∧
  (∀ (s : State) (weak w m : Nat) (rest : List (Nat × Nat)),
    s.mode ≠ .off →
    s.mode ≠ .doze →
    s.mode ≠ .holdUp →
    s.fol.trans = none →
    s.fol.svnBurns = (w, m) :: rest →
    (m &&& weak != 0 && s.fol.svnTries < 3) = false →
    exec (.fuseProgramComplete weak) s =
      .next (let t : State := { (s.burn w m weak) with fol := { (s.burn w m weak).fol with svnBurns := rest, svnTries := 0 } }
        if rest.isEmpty then t.resolveAgain 54 else t))

/-- A frame that this node handles, and only such a frame, has its effect: ENUM gives the next ID and goes on, SYNC, DREQ and DRESP make a time exchange whose offset is a sample, CLAIM, CONTENDED and NOMASTER settle the master. A frame that is not handled here changes no more than its arrival does. Where the spec leaves a point open, it rests on the model's choices of log entries 5, 8, 63, 64 and 76. -/
def Obligations.BrynnyxTime : Prop :=
  (∀ (s : State) (port : BxlIn),
    exec (.idle port) s = .next (s.bxlFrame port 0).1) ∧
  (∀ (s : State) (port : BxlIn) (id : Nat),
    (s.bxlFrame port 1).2 = false →
    exec (.enum port id) s = .next (s.bxlFrame port 1).1) ∧
  (∀ (s : State) (port : BxlIn) (t1 master hops src cls unc : Nat),
    (s.bxlFrame port 2).2 = false →
    exec (.sync port t1 master hops src cls unc) s = .next (s.bxlFrame port 2).1) ∧
  (∀ (s : State) (port : BxlIn) (t3 : Nat),
    (s.bxlFrame port 3).2 = false →
    exec (.dreq port t3) s = .next (s.bxlFrame port 3).1) ∧
  (∀ (s : State) (port : BxlIn) (t4 : Nat),
    (s.bxlFrame port 4).2 = false →
    exec (.dresp port t4) s = .next (s.bxlFrame port 4).1) ∧
  (∀ (s : State) (port : BxlIn) (id : Nat),
    (s.bxlFrame port 5).2 = false →
    exec (.claim port id) s = .next (s.bxlFrame port 5).1) ∧
  (∀ (s : State) (port : BxlIn) (id : Nat),
    (s.bxlFrame port 6).2 = false →
    exec (.contended port id) s = .next (s.bxlFrame port 6).1) ∧
  (∀ (s : State) (port : BxlIn),
    (s.bxlFrame port 7).2 = false →
    exec (.nomaster port) s = .next (s.bxlFrame port 7).1) ∧
  (∀ (s : State) (port : BxlIn) (id : Nat),
    (s.bxlFrame port 1).2 = true →
    port.up = false →
    exec (.enum port id) s =
      .next ((s.bxlFrame port 1).1)) ∧
  (∀ (s : State) (port : BxlIn) (id : Nat),
    (s.bxlFrame port 1).2 = true →
    port.up = true →
    (s.bxlFrame port 1).1.isHead = true →
    exec (.enum port id) s =
      .next ((s.bxlFrame port 1).1.post F.BXL_EVT_STATUS_ENUM_LIMIT noUnit)) ∧
  (∀ (s : State) (port : BxlIn) (id : Nat),
    (s.bxlFrame port 1).2 = true →
    port.up = true →
    (s.bxlFrame port 1).1.isHead = false →
    16383 ≤ id →
    exec (.enum port id) s =
      .next (({ (s.bxlFrame port 1).1 with bxl := { (s.bxlFrame port 1).1.bxl with idValid := false, limited := true } } : State).post F.BXL_EVT_STATUS_ENUM_LIMIT noUnit)) ∧
  (∀ (s : State) (port : BxlIn) (id : Nat),
    (s.bxlFrame port 1).2 = true →
    port.up = true →
    (s.bxlFrame port 1).1.isHead = false →
    id < 16383 →
    exec (.enum port id) s =
      .next ((({ (s.bxlFrame port 1).1 with bxl := { (s.bxlFrame port 1).1.bxl with id := id + 1, idValid := true, idStale := false, limited := false } } : State).post F.BXL_EVT_STATUS_ENUM_DONE noUnit).bxlSend false (.enum (id + 1)))) ∧
  (∀ (s : State) (port : BxlIn) (t1 master hops src cls unc : Nat),
    (s.bxlFrame port 2).2 = true →
    ((s.bxlFrame port 2).1.bxl.toward == some port.up || ((s.bxlFrame port 2).1.bxl.toward.isNone && !(s.bxlFrame port 2).1.bxl.isMaster)) = false →
    exec (.sync port t1 master hops src cls unc) s =
      .next ((s.bxlFrame port 2).1)) ∧
  (∀ (s : State) (port : BxlIn) (t1 master hops src cls unc : Nat),
    (s.bxlFrame port 2).2 = true →
    ((s.bxlFrame port 2).1.bxl.toward == some port.up || ((s.bxlFrame port 2).1.bxl.toward.isNone && !(s.bxlFrame port 2).1.bxl.isMaster)) = true →
    exec (.sync port t1 master hops src cls unc) s =
      .next (let t := (s.bxlFrame port 2).1.follow master port.up
        ({ t with
          bxl := { t.bxl with masterSrc := src, masterCls := cls, masterUnc := unc, exch := some { up := port.up, t1 := t1, t2 := s.now, t3 := s.now } }
          rul := { t.rul with hops := hops + 1 } } : State).bxlSend port.up (.dreq s.now))) ∧
  (∀ (s : State) (port : BxlIn) (t3 : Nat),
    (s.bxlFrame port 3).2 = true →
    (s.bxlFrame port 3).1.serves port.up = true →
    exec (.dreq port t3) s =
      .next ((s.bxlFrame port 3).1.bxlSend port.up (.dresp s.now))) ∧
  (∀ (s : State) (port : BxlIn) (t3 : Nat),
    (s.bxlFrame port 3).2 = true →
    (s.bxlFrame port 3).1.serves port.up = false →
    exec (.dreq port t3) s =
      .next ((s.bxlFrame port 3).1)) ∧
  (∀ (s : State) (port : BxlIn) (t4 : Nat),
    (s.bxlFrame port 4).2 = true →
    (s.bxlFrame port 4).1.bxl.exch = none →
    exec (.dresp port t4) s =
      .next ((s.bxlFrame port 4).1)) ∧
  (∀ (s : State) (port : BxlIn) (t4 : Nat) (e : Exchange),
    (s.bxlFrame port 4).2 = true →
    (s.bxlFrame port 4).1.bxl.exch = some e →
    (e.up != port.up || e.t2 + msT ≤ s.now) = true →
    exec (.dresp port t4) s =
      .next ((s.bxlFrame port 4).1)) ∧
  (∀ (s : State) (port : BxlIn) (t4 : Nat) (e : Exchange),
    (s.bxlFrame port 4).2 = true →
    (s.bxlFrame port 4).1.bxl.exch = some e →
    (e.up != port.up || e.t2 + msT ≤ s.now) = false →
    exec (.dresp port t4) s =
      .next (let ms : Int := (t4 : Int) - (e.t3 : Int)
        let sm : Int := (e.t2 : Int) - (e.t1 : Int)
        let off := (ms - sm) / 2 + signedOf 16 ((s.bxlFrame port 4).1.fld (if port.up then F.BXL_ASYM_UP else F.BXL_ASYM_DN))
        let delay := (clampInt 0 65535 ((sm + ms) / 2 / 16)).toNat
        let t := ({ (s.bxlFrame port 4).1 with bxl := { (s.bxlFrame port 4).1.bxl with exch := none } } : State).setFld (if port.up then F.BXL_DELAY_UP else F.BXL_DELAY_DN) delay
        if !t.disciplined then t else if t.bxlUsable then t.sample .bxl off
        else if t.rul.bxl.qual then (t.loseSource .bxl).bxlSend (!port.up) .noMaster else t.loseSource .bxl)) ∧
  (∀ (s : State) (port : BxlIn) (id : Nat),
    (s.bxlFrame port 5).2 = true →
    (if ((s.bxlFrame port 5).1.bxlRelay port (.claim id)).bxl.isMaster then some ((s.bxlFrame port 5).1.bxlRelay port (.claim id)).nodeId else ((s.bxlFrame port 5).1.bxlRelay port (.claim id)).bxl.master) = none →
    exec (.claim port id) s =
      .next (((s.bxlFrame port 5).1.bxlRelay port (.claim id)).follow id port.up)) ∧
  (∀ (s : State) (port : BxlIn) (id : Nat) (m : Nat),
    (s.bxlFrame port 5).2 = true →
    (if ((s.bxlFrame port 5).1.bxlRelay port (.claim id)).bxl.isMaster then some ((s.bxlFrame port 5).1.bxlRelay port (.claim id)).nodeId else ((s.bxlFrame port 5).1.bxlRelay port (.claim id)).bxl.master) = some m →
    id < m →
    exec (.claim port id) s =
      .next (((s.bxlFrame port 5).1.bxlRelay port (.claim id)).follow id port.up)) ∧
  (∀ (s : State) (port : BxlIn) (id : Nat) (m : Nat),
    (s.bxlFrame port 5).2 = true →
    (if ((s.bxlFrame port 5).1.bxlRelay port (.claim id)).bxl.isMaster then some ((s.bxlFrame port 5).1.bxlRelay port (.claim id)).nodeId else ((s.bxlFrame port 5).1.bxlRelay port (.claim id)).bxl.master) = some m →
    m < id →
    exec (.claim port id) s =
      .next (((s.bxlFrame port 5).1.bxlRelay port (.claim id)).bxlSend port.up (.contended id))) ∧
  (∀ (s : State) (port : BxlIn) (id : Nat) (m : Nat),
    (s.bxlFrame port 5).2 = true →
    (if ((s.bxlFrame port 5).1.bxlRelay port (.claim id)).bxl.isMaster then some ((s.bxlFrame port 5).1.bxlRelay port (.claim id)).nodeId else ((s.bxlFrame port 5).1.bxlRelay port (.claim id)).bxl.master) = some m →
    id = m →
    exec (.claim port id) s =
      .next (((s.bxlFrame port 5).1.bxlRelay port (.claim id)))) ∧
  (∀ (s : State) (port : BxlIn) (id : Nat),
    (s.bxlFrame port 6).2 = true →
    (!(s.bxlFrame port 6).1.hasId || id != (s.bxlFrame port 6).1.nodeId) = true →
    exec (.contended port id) s =
      .next ((s.bxlFrame port 6).1.bxlRelay port (.contended id))) ∧
  (∀ (s : State) (port : BxlIn) (id : Nat),
    (s.bxlFrame port 6).2 = true →
    (!(s.bxlFrame port 6).1.hasId || id != (s.bxlFrame port 6).1.nodeId) = false →
    exec (.contended port id) s =
      .next (({ (s.bxlFrame port 6).1 with bxl := { (s.bxlFrame port 6).1.bxl with
          contended := true, isMaster := false, master := if (s.bxlFrame port 6).1.bxl.isMaster then none else (s.bxlFrame port 6).1.bxl.master, toward := if (s.bxlFrame port 6).1.bxl.isMaster then some port.up else (s.bxlFrame port 6).1.bxl.toward } } : State).post F.BXL_EVT_STATUS_CONTENDED noUnit)) ∧
  (∀ (s : State) (port : BxlIn),
    (s.bxlFrame port 7).2 = true →
    exec (.nomaster port) s =
      .next (let t := if (s.bxlFrame port 7).1.bxl.isMaster then (s.bxlFrame port 7).1 else (s.bxlFrame port 7).1.dropMaster
        if port.up then (t.bxlRelay port .noMaster).holdEntry else t.bxlRelay port .noMaster))

/-- A CUT goes on to DN, is checked here and noted; a sweep request is answered with this node's entry, entries and the end travel UP, and the issuer puts them together; a relay session opens, its chunks are verified, kept, acknowledged and sent on, and an abort ends it where the package is not complete. Where the spec leaves a point open, it rests on the model's choices of log entries 5, 10, 63, 64 and 76. -/
def Obligations.BrynnyxSweepsAndRelay : Prop :=
  (∀ (s : State) (port : BxlIn) (time node number : Nat) (all : Bool),
    (s.bxlFrame port 8).2 = false →
    exec (.cut port time node number all) s = .next (s.bxlFrame port 8).1) ∧
  (∀ (s : State) (port : BxlIn) (issuer : Nat),
    (s.bxlFrame port 9).2 = false →
    exec (.sweepReq port issuer) s = .next (s.bxlFrame port 9).1) ∧
  (∀ (s : State) (port : BxlIn) (part : Nat) (e : SweepEntry),
    (s.bxlFrame port 10).2 = false →
    exec (.sweepEnt port part e) s = .next (s.bxlFrame port 10).1) ∧
  (∀ (s : State) (port : BxlIn) (openAfter : Option Nat),
    (s.bxlFrame port 11).2 = false →
    exec (.sweepEnd port openAfter) s = .next (s.bxlFrame port 11).1) ∧
  (∀ (s : State) (port : BxlIn) (action chunks : Nat),
    (s.bxlFrame port 12).2 = false →
    exec (.relayStart port action chunks) s = .next (s.bxlFrame port 12).1) ∧
  (∀ (s : State) (port : BxlIn) (k : Nat) (c : PkgChunk),
    (s.bxlFrame port 13).2 = false →
    exec (.chunk port k c) s = .next (s.bxlFrame port 13).1) ∧
  (∀ (s : State) (port : BxlIn) (k : Nat) (pass : Bool),
    (s.bxlFrame port 14).2 = false →
    exec (.ack port k pass) s = .next (s.bxlFrame port 14).1) ∧
  (∀ (s : State) (port : BxlIn),
    (s.bxlFrame port 15).2 = false →
    exec (.relayAbort port) s = .next (s.bxlFrame port 15).1) ∧
  (∀ (s : State) (port : BxlIn) (time node number : Nat) (all : Bool),
    (s.bxlFrame port 8).2 = true →
    port.up = false →
    exec (.cut port time node number all) s =
      .next ((s.bxlFrame port 8).1)) ∧
  (∀ (s : State) (port : BxlIn) (issuer : Nat),
    (s.bxlFrame port 9).2 = true →
    port.up = false →
    exec (.sweepReq port issuer) s =
      .next ((s.bxlFrame port 9).1)) ∧
  (∀ (s : State) (port : BxlIn) (action chunks : Nat),
    (s.bxlFrame port 12).2 = true →
    port.up = false →
    exec (.relayStart port action chunks) s =
      .next ((s.bxlFrame port 12).1)) ∧
  (∀ (s : State) (port : BxlIn) (k : Nat) (c : PkgChunk),
    (s.bxlFrame port 13).2 = true →
    port.up = false →
    exec (.chunk port k c) s =
      .next ((s.bxlFrame port 13).1)) ∧
  (∀ (s : State) (port : BxlIn),
    (s.bxlFrame port 15).2 = true →
    port.up = false →
    exec (.relayAbort port) s =
      .next ((s.bxlFrame port 15).1)) ∧
  (∀ (s : State) (port : BxlIn) (time node number : Nat) (all : Bool) (st : Status) (dw0 : Nat),
    (s.bxlFrame port 8).2 = true →
    port.up = true →
    ((s.bxlFrame port 8).1.bxlRelay port (.cut time node number all)).cutCheck 2 0xFFFFFFFF time (s.now / 256) = some (st, dw0) →
    exec (.cut port time node number all) s =
      .next ((((s.bxlFrame port 8).1.bxlRelay port (.cut time node number all)).noteCut number (some (st, dw0))).refuseCut (st, dw0))) ∧
  (∀ (s : State) (port : BxlIn) (time node number : Nat) (all : Bool),
    (s.bxlFrame port 8).2 = true →
    port.up = true →
    ((s.bxlFrame port 8).1.bxlRelay port (.cut time node number all)).cutCheck 2 0xFFFFFFFF time (s.now / 256) = none →
    exec (.cut port time node number all) s =
      .next ((((s.bxlFrame port 8).1.bxlRelay port (.cut time node number all)).noteCut number none).acceptCut 2 0xFFFFFFFF time false none)) ∧
  (∀ (s : State) (port : BxlIn) (issuer : Nat),
    (s.bxlFrame port 9).2 = true →
    port.up = true →
    ((s.bxlFrame port 9).1.bxlRelay port (.sweepReq issuer)).hasId = false →
    exec (.sweepReq port issuer) s =
      .next (((s.bxlFrame port 9).1.bxlRelay port (.sweepReq issuer)))) ∧
  (∀ (s : State) (port : BxlIn) (issuer : Nat),
    (s.bxlFrame port 9).2 = true →
    port.up = true →
    ((s.bxlFrame port 9).1.bxlRelay port (.sweepReq issuer)).hasId = true →
    exec (.sweepReq port issuer) s =
      .next (({ ((s.bxlFrame port 9).1.bxlRelay port (.sweepReq issuer)) with bxl := { ((s.bxlFrame port 9).1.bxlRelay port (.sweepReq issuer)).bxl with asked := some (s.now, !((s.bxlFrame port 9).1.bxlRelay port (.sweepReq issuer)).bxl.dn.linked), askedBy := issuer } } : State).sendEntry ((s.bxlFrame port 9).1.bxlRelay port (.sweepReq issuer)).sweepEntry)) ∧
  (∀ (s : State) (port : BxlIn) (part : Nat) (e : SweepEntry),
    (s.bxlFrame port 10).2 = true →
    port.up = true →
    exec (.sweepEnt port part e) s =
      .next ((s.bxlFrame port 10).1)) ∧
  (∀ (s : State) (port : BxlIn) (part : Nat) (e : SweepEntry),
    (s.bxlFrame port 10).2 = true →
    port.up = false →
    (s.bxlFrame port 10).1.sweeping = false →
    exec (.sweepEnt port part e) s =
      .next ((s.bxlFrame port 10).1.bxlRelay port (.sweepEnt e part))) ∧
  (∀ (s : State) (port : BxlIn) (part : Nat) (e : SweepEntry) (r : Report),
    (s.bxlFrame port 10).2 = true →
    port.up = false →
    (s.bxlFrame port 10).1.sweeping = true →
    (s.bxlFrame port 10).1.bxl.report = some r →
    exec (.sweepEnt port part e) s =
      .next (let parts := (e.node, part % 3) :: r.parts.filter (fun p => p != (e.node, part % 3))
        let r1 : Report := if (List.range 3).all (fun k => parts.contains (e.node, k)) then
            { r with entries := insertEntry e r.entries, parts := parts.filter (fun p => p.1 != e.node) }
          else { r with parts := parts }
        ({ (s.bxlFrame port 10).1 with bxl := { (s.bxlFrame port 10).1.bxl with report := some r1 } } : State))) ∧
  (∀ (s : State) (port : BxlIn) (openAfter : Option Nat),
    (s.bxlFrame port 11).2 = true →
    port.up = true →
    exec (.sweepEnd port openAfter) s =
      .next ((s.bxlFrame port 11).1)) ∧
  (∀ (s : State) (port : BxlIn) (openAfter : Option Nat),
    (s.bxlFrame port 11).2 = true →
    port.up = false →
    (s.bxlFrame port 11).1.sweeping = true →
    exec (.sweepEnd port openAfter) s =
      .next ((s.bxlFrame port 11).1.closeReport openAfter)) ∧
  (∀ (s : State) (port : BxlIn) (openAfter : Option Nat),
    (s.bxlFrame port 11).2 = true →
    port.up = false →
    (s.bxlFrame port 11).1.sweeping = false →
    exec (.sweepEnd port openAfter) s =
      .next (({ (s.bxlFrame port 11).1 with bxl := { (s.bxlFrame port 11).1.bxl with asked := (s.bxlFrame port 11).1.bxl.asked.map (fun a => (a.1, true)) } } : State).bxlRelay port (.sweepEnd openAfter))) ∧
  (∀ (s : State) (port : BxlIn) (action chunks : Nat),
    (s.bxlFrame port 12).2 = true →
    port.up = true →
    (s.bxlFrame port 12).1.flag F.BXL_CFG_RELAY_EN = false →
    exec (.relayStart port action chunks) s =
      .next (({ (s.bxlFrame port 12).1 with bxl := { (s.bxlFrame port 12).1.bxl with recv := none } } : State))) ∧
  (∀ (s : State) (port : BxlIn) (action chunks : Nat),
    (s.bxlFrame port 12).2 = true →
    port.up = true →
    (s.bxlFrame port 12).1.flag F.BXL_CFG_RELAY_EN = true →
    exec (.relayStart port action chunks) s =
      .next (let on := (s.bxlFrame port 12).1.bxl.dn.linked
        let t : State := { (s.bxlFrame port 12).1 with bxl := { (s.bxlFrame port 12).1.bxl with recv := some (action, chunks), staging := {}, relay := if on then some { action := action, chunks := chunks } else none } }
        let u := ((t.setFld F.BXL_RELAY_STATE 1).setFld F.BXL_RELAY_CHUNKS 0).setFld F.BXL_RELAY_REASON 0
        if on then u.bxlRelay port (.relayStart action chunks) else u)) ∧
  (∀ (s : State) (port : BxlIn) (k : Nat) (c : PkgChunk),
    (s.bxlFrame port 13).2 = true →
    port.up = true →
    (s.bxlFrame port 13).1.flag F.BXL_CFG_RELAY_EN = false →
    exec (.chunk port k c) s =
      .next (if k = 0 then (s.bxlFrame port 13).1.bxlSend true (.ack 0 false) else (s.bxlFrame port 13).1)) ∧
  (∀ (s : State) (port : BxlIn) (k : Nat) (c : PkgChunk),
    (s.bxlFrame port 13).2 = true →
    port.up = true →
    (s.bxlFrame port 13).1.flag F.BXL_CFG_RELAY_EN = true →
    (s.bxlFrame port 13).1.bxl.recv = none →
    exec (.chunk port k c) s =
      .next (if ((s.bxlFrame port 13).1.bxl.staging.chunk k).isSome then (s.bxlFrame port 13).1.bxlSend true (.ack k true) else (s.bxlFrame port 13).1)) ∧
  (∀ (s : State) (port : BxlIn) (k : Nat) (c : PkgChunk) (action chunks : Nat),
    (s.bxlFrame port 13).2 = true →
    port.up = true →
    (s.bxlFrame port 13).1.flag F.BXL_CFG_RELAY_EN = true →
    (s.bxlFrame port 13).1.bxl.recv = some (action, chunks) →
    (s.bxlFrame port 13).1.chunkPasses chunks k c = true →
    exec (.chunk port k c) s =
      .next ((s.bxlFrame port 13).1.chunkPassed action chunks k c)) ∧
  (∀ (s : State) (port : BxlIn) (k : Nat) (c : PkgChunk) (action chunks : Nat),
    (s.bxlFrame port 13).2 = true →
    port.up = true →
    (s.bxlFrame port 13).1.flag F.BXL_CFG_RELAY_EN = true →
    (s.bxlFrame port 13).1.bxl.recv = some (action, chunks) →
    (s.bxlFrame port 13).1.chunkPasses chunks k c = false →
    exec (.chunk port k c) s =
      .next (((s.bxlFrame port 13).1.post F.BXL_EVT_STATUS_CHUNK_BAD noUnit).bxlSend true (.ack k false))) ∧
  (∀ (s : State) (port : BxlIn) (k : Nat) (pass : Bool),
    (s.bxlFrame port 14).2 = true →
    (s.bxlFrame port 14).1.bxl.relay = none →
    exec (.ack port k pass) s =
      .next ((s.bxlFrame port 14).1)) ∧
  (∀ (s : State) (port : BxlIn) (k : Nat) (pass : Bool) (r : Relay),
    (s.bxlFrame port 14).2 = true →
    (s.bxlFrame port 14).1.bxl.relay = some r →
    (port.up || !r.out.any (fun c => c.k == k)) = true →
    exec (.ack port k pass) s =
      .next ((s.bxlFrame port 14).1)) ∧
  (∀ (s : State) (port : BxlIn) (k : Nat) (r : Relay),
    (s.bxlFrame port 14).2 = true →
    (s.bxlFrame port 14).1.bxl.relay = some r →
    (port.up || !r.out.any (fun c => c.k == k)) = false →
    exec (.ack port k false) s =
      .next ((s.bxlFrame port 14).1.relayAgain k)) ∧
  (∀ (s : State) (port : BxlIn) (k : Nat) (r : Relay),
    (s.bxlFrame port 14).2 = true →
    (s.bxlFrame port 14).1.bxl.relay = some r →
    (port.up || !r.out.any (fun c => c.k == k)) = false →
    exec (.ack port k true) s =
      .next (let r1 : Relay := { r with out := r.out.filter (fun c => c.k != k), last := some (max k (r.last.getD 0)) }
        let t : State := { (s.bxlFrame port 14).1 with bxl := { (s.bxlFrame port 14).1.bxl with relay := some r1 } }
        if r1.out.isEmpty && r1.chunks ≤ r1.next then t.relayEnd false else t.relaySend)) ∧
  (∀ (s : State) (port : BxlIn),
    (s.bxlFrame port 15).2 = true →
    port.up = true →
    ((s.bxlFrame port 15).1.bxlRelay port .relayAbort).bxl.recv.isNone = true →
    exec (.relayAbort port) s =
      .next (((s.bxlFrame port 15).1.bxlRelay port .relayAbort))) ∧
  (∀ (s : State) (port : BxlIn),
    (s.bxlFrame port 15).2 = true →
    port.up = true →
    ((s.bxlFrame port 15).1.bxlRelay port .relayAbort).bxl.recv.isNone = false →
    exec (.relayAbort port) s =
      .next ((({ ((s.bxlFrame port 15).1.bxlRelay port .relayAbort) with bxl := { ((s.bxlFrame port 15).1.bxlRelay port .relayAbort).bxl with recv := none, staging := {}, relay := none } } : State).setFld F.BXL_RELAY_STATE 5).post F.BXL_EVT_STATUS_RELAY_ABORT noUnit))

/-- A bad frame is counted; a port 10 µs without a valid frame is lost, with what that does to the ID, the master, a sweep and a held entry; time exchanges, claims, sweeps, held entries and chunk acknowledgements keep their times; the trial confirms itself once the suite has passed, falls back when its watchdog ends, each unless a transition of a higher rank is in progress, to which it loses, and the rotation goes a step on. Where the spec leaves a point open, it rests on the model's choices of log entries 3, 5, 10, 37, 64, 65, 66, 69, 72, 76 and 87. -/
def Obligations.BrynnyxTimers : Prop :=
  (∀ (s : State) (up : Bool),
    s.mode ≠ .off →
    s.bxlEnabled up = true →
    exec (.bxlBadFrame up) s =
      .next ((s.bumpFld (if up then F.BXL_ERR_CNT_UP_CRC else F.BXL_ERR_CNT_DN_CRC)).updBxl up (fun p => { p with good := if p.linked then p.good else 0 }))) ∧
  (∀ (s : State),
    s.mode ≠ .off →
    (s.bxl.port true).linked = true →
    (s.bxl.port true).lastAt + 10 * usT ≤ s.now →
    exec (.bxlPortLoss true) s = .next (s.portDown true).holdEntry) ∧
  (∀ (s : State),
    s.mode ≠ .off →
    (s.bxl.port false).linked = true →
    (s.bxl.port false).lastAt + 10 * usT ≤ s.now →
    (s.portDown false).sweeping = true →
    exec (.bxlPortLoss false) s = .next ((s.portDown false).closeReport (some (s.portDown false).nodeId))) ∧
  (∀ (s : State) (t : Nat),
    s.mode ≠ .off →
    (s.bxl.port false).linked = true →
    (s.bxl.port false).lastAt + 10 * usT ≤ s.now →
    (s.portDown false).sweeping = false →
    (s.portDown false).bxl.asked = some (t, false) →
    exec (.bxlPortLoss false) s =
      .next (let u : State := { (s.portDown false) with bxl := { (s.portDown false).bxl with asked := some (t, true) } }
        if s.now < t + 10 * secT then u.bxlSend true (.sweepEnd (some u.nodeId)) else u)) ∧
  (∀ (s : State),
    s.mode ≠ .off →
    (s.bxl.port false).linked = true →
    (s.bxl.port false).lastAt + 10 * usT ≤ s.now →
    (s.portDown false).sweeping = false →
    (s.portDown false).bxl.asked.all (fun a => a.2) = true →
    exec (.bxlPortLoss false) s = .next (s.portDown false)) ∧
  (∀ (s : State),
    s.bxl.exchAt + s.fld F.BXL_TIME_PERIOD * msT ≤ s.now →
    s.mode ≠ .off →
    s.mode ≠ .doze →
    s.mode ≠ .holdUp →
    exec .bxlTimeExchangeStart s =
      .next (let one (s : State) (up : Bool) : State := if s.serves up && (s.bxl.port up).linked then s.bxlSend up s.syncFrame else s
        one (one { s with bxl := { s.bxl with exchAt := s.now } } true) false)) ∧
  (∀ (s : State) (e : Exchange),
    s.bxl.exch = some e →
    e.t2 + msT ≤ s.now →
    exec .bxlDrespTimeout s = .next { s with bxl := { s.bxl with exch := none }, rul := s.rul.broken .bxl }) ∧
  (∀ (s : State),
    (s.bxl.claimAt != 0 && s.now < s.bxl.claimAt + secT) = false →
    s.mayClaim = true →
    exec .claimRepeat s =
      .next (let id := s.nodeId
        let t := (s.bxlSend true (.claim id)).bxlSend false (.claim id)
        let u : State := { t with bxl := { t.bxl with claimAt := s.now } }
        if !u.bxl.isMaster && u.bxl.master.all (fun m => decide (id < m)) then
          ({ u with bxl := { u.bxl with isMaster := true, contended := false, master := some id, toward := none, exch := none } } : State).post F.BXL_EVT_STATUS_MASTER_CHG noUnit
        else u)) ∧
  (∀ (s : State),
    (s.bxl.claimAt != 0 && s.now < s.bxl.claimAt + secT) = false →
    s.mayClaim = false →
    s.bxl.isMaster = true →
    exec .claimRepeat s =
      .next ((({ s with bxl := { s.bxl with isMaster := false, master := none, claimAt := s.now } } : State).bxlSend true .noMaster).bxlSend false .noMaster)) ∧
  (∀ (s : State) (r : Report),
    s.bxl.report = some r →
    r.status = 3 →
    r.at_ + 10 * secT ≤ s.now →
    exec .sweepTimeout s = .next (s.closeReport (some ((r.entries.map (fun e => e.node)).foldl max s.nodeId)))) ∧
  (∀ (s : State) (r : Report),
    s.bxl.report = some r →
    s.isHead = true →
    r.status = 2 →
    s.bxl.retries < s.fld F.BXL_SWEEP_RETRIES →
    s.bxl.dn.linked = true →
    (s.mode == .run || s.mode == .degraded || s.mode == .trial || s.mode == .safe) = true →
    exec .sweepRetry s =
      .next (({ s with bxl := { s.bxl with retries := s.bxl.retries + 1 } } : State).issueSweep none (s.bxl.retries + 1))) ∧
  (∀ (s : State) (e : SweepEntry) (t : Nat),
    s.bxl.held = some (e, t) →
    t + 60 * secT ≤ s.now →
    exec .heldEntryExpire s = .next { s with bxl := { s.bxl with held := none } }) ∧
  (∀ (s : State) (k : Nat) (r : Relay),
    s.bxl.relay = some r →
    (r.out.any (fun c => c.k == k && c.at_ + 5 * msT ≤ s.now) = true) →
    exec (.chunkAckTimeout k) s = .next (s.relayAgain k)) ∧
  (∀ (s : State) (env : BootEnv),
    s.mode = .trial →
    s.wdLeft = 0 →
    s.tineBlocked = false →
    7 < s.rankNow →
    exec (.trialWatchdogExpire env) s =
      .next (let s1 := s.colophon 3 1 s.bxl.runSlot 0
        let s2 := (s1.slotRecord (fun r => { r with pending := 0, tried := false }) none).post F.BXL_EVT_STATUS_FALLBACK noUnit
        let s3 : State := { s2 with bxl := { s2.bxl with lastOut := 2 }, fol := s2.fol.tallied 3 }
        s3.deviceReset 3 env)) ∧
  (∀ (s : State) (env : BootEnv),
    s.mode = .trial →
    s.wdLeft = 0 →
    s.tineBlocked = false →
    s.rankNow ≤ 7 →
    exec (.trialWatchdogExpire env) s = .next (s.lose 1)) ∧
  (∀ (s : State),
    s.suiteReady = true →
    7 < s.rankNow →
    exec (.trialConfirm true) s =
      .next (let s1 := s.colophon 3 0 s.bxl.runSlot 0
        let s2 := s1.slotRecord (fun r => { r with confirmed := true, pending := 0, tried := false, rotStep := 1, rotSlot := s.bxl.runSlot }) none
        let s3 := ({ s2 with mode := if s2.anyMasked then .degraded else .run } : State).wakeEvent 15
        let s4 := (({ s3 with bxl := { s3.bxl with lastOut := 1 } } : State).post F.BXL_EVT_STATUS_CONFIRMED noUnit)
        let s5 : State := if s4.bxl.heldSets then
            ({ s4 with bxl := { s4.bxl with heldSets := false } } : State).folio { job := .settings false, erase := true }
          else s4
        ({ s5 with fol := { s5.fol with svnBurns := s5.fol.svnBurns ++ s5.svnBurnsTo (s.slot s.bxl.runSlot).svn } } : State))) ∧
  (∀ (s : State),
    s.suiteReady = true →
    s.rankNow ≤ 7 →
    exec (.trialConfirm true) s = .next (s.lose 1)) ∧
  (∀ (s : State),
    s.fol.svnBurns = [] →
    s.bxl.rcd.rotStep ≠ 0 →
    s.mode ≠ .off →
    s.mode ≠ .doze →
    s.mode ≠ .holdUp →
    exec (.rotationStepDone true) s = .next s.rotateStep)

/-- With VAUX_33 good, a management request in DOZE is a wake event and waits for the wake, an NVMe-MI one in a command slot and without a free slot not at all, and one that the mode does not serve completes with 0xE0 and the mode, whatever it is. Where the spec leaves a point open, it rests on the model's choices of log entries 12, 17, 20, 37, 38, 39, 72, 80 and 87. -/
def Obligations.ManagementGate : Prop :=
  (∀ (s : State) (eid : Nat),
    s.pwr.vaux = true →
    s.mode ≠ .doze →
    (s.wakeEvent 8).miServes .powerOn = false →
    exec (.powerOn eid) s = .next ((s.wakeEvent 8).emit (.mi 0xE0 [(s.wakeEvent 8).mode.code]))) ∧
  (∀ (s : State) (eid : Nat),
    s.pwr.vaux = true →
    s.mode ≠ .doze →
    (s.wakeEvent 8).miServes .powerOff = false →
    exec (.powerOff eid) s = .next ((s.wakeEvent 8).emit (.mi 0xE0 [(s.wakeEvent 8).mode.code]))) ∧
  (∀ (s : State) (eid : Nat) (env : BootEnv),
    s.pwr.vaux = true →
    s.mode ≠ .doze →
    (s.wakeEvent 8).miServes .full = false →
    exec (.deviceReset eid env) s = .next ((s.wakeEvent 8).emit (.mi 0xE0 [(s.wakeEvent 8).mode.code]))) ∧
  (∀ (s : State) (eid off dwords : Nat),
    s.pwr.vaux = true →
    s.mode ≠ .doze →
    (s.wakeEvent 8).miServes .window = false →
    exec (.registerWindowRead eid off dwords) s = .next ((s.wakeEvent 8).emit (.mi 0xE0 [(s.wakeEvent 8).mode.code]))) ∧
  (∀ (s : State) (eid off : Nat) (values : List Nat) (env : BootEnv),
    s.pwr.vaux = true →
    s.mode ≠ .doze →
    (s.wakeEvent 8).miServes .window = false →
    exec (.registerWindowWrite eid off values env) s = .next ((s.wakeEvent 8).emit (.mi 0xE0 [(s.wakeEvent 8).mode.code]))) ∧
  (∀ (s : State) (eid : Nat),
    s.pwr.vaux = true →
    s.mode ≠ .doze →
    (s.wakeEvent 8).miServes .lock = false →
    exec (.miAuthorityAcquire eid) s = .next ((s.wakeEvent 8).emit (.mi 0xE0 [(s.wakeEvent 8).mode.code]))) ∧
  (∀ (s : State) (eid : Nat),
    s.pwr.vaux = true →
    s.mode ≠ .doze →
    (s.wakeEvent 8).miServes .lock = false →
    exec (.miAuthorityRelease eid) s = .next ((s.wakeEvent 8).emit (.mi 0xE0 [(s.wakeEvent 8).mode.code]))) ∧
  (∀ (s : State) (eid dtyp id : Nat),
    s.pwr.vaux = true →
    s.mode ≠ .doze →
    (s.wakeEvent 8).miServes .info = false →
    exec (.readNvmeMiDataStructure eid dtyp id) s = .next ((s.wakeEvent 8).emit (.mi 0xE0 [(s.wakeEvent 8).mode.code]))) ∧
  (∀ (s : State) (eid id : Nat),
    s.pwr.vaux = true →
    s.mode ≠ .doze →
    (s.wakeEvent 8).miServes .full = false →
    exec (.configurationGet eid id) s = .next ((s.wakeEvent 8).emit (.mi 0xE0 [(s.wakeEvent 8).mode.code]))) ∧
  (∀ (s : State) (eid id value : Nat),
    s.pwr.vaux = true →
    s.mode ≠ .doze →
    (s.wakeEvent 8).miServes .full = false →
    exec (.configurationSet eid id value) s = .next ((s.wakeEvent 8).emit (.mi 0xE0 [(s.wakeEvent 8).mode.code]))) ∧
  (∀ (s : State) (eid off len : Nat),
    s.pwr.vaux = true →
    s.mode ≠ .doze →
    (s.wakeEvent 8).miServes .vpd = false →
    exec (.vpdRead eid off len) s = .next ((s.wakeEvent 8).emit (.mi 0xE0 [(s.wakeEvent 8).mode.code]))) ∧
  (∀ (s : State) (eid : Nat) (env : BootEnv),
    s.pwr.vaux = true →
    s.mode ≠ .doze →
    (s.wakeEvent 8).miServes .full = false →
    exec (.miReset eid env) s = .next ((s.wakeEvent 8).emit (.mi 0xE0 [(s.wakeEvent 8).mode.code]))) ∧
  (∀ (s : State) (eid : Nat),
    s.pwr.vaux = true →
    s.mode = .doze →
    exec (.powerOn eid) s = .next (if 2 ≤ s.slotsUsed then (s.wakeEvent 8) else s.holdMsg true (.powerOn eid))) ∧
  (∀ (s : State) (eid : Nat),
    s.pwr.vaux = true →
    s.mode = .doze →
    exec (.powerOff eid) s = .next (if 2 ≤ s.slotsUsed then (s.wakeEvent 8) else s.holdMsg true (.powerOff eid))) ∧
  (∀ (s : State) (eid : Nat) (env : BootEnv),
    s.pwr.vaux = true →
    s.mode = .doze →
    exec (.deviceReset eid env) s = .next (if 2 ≤ s.slotsUsed then (s.wakeEvent 8) else s.holdMsg true (.deviceReset eid env))) ∧
  (∀ (s : State) (eid off dwords : Nat),
    s.pwr.vaux = true →
    s.mode = .doze →
    exec (.registerWindowRead eid off dwords) s = .next (if 2 ≤ s.slotsUsed then (s.wakeEvent 8) else s.holdMsg true (.registerWindowRead eid off dwords))) ∧
  (∀ (s : State) (eid off : Nat) (values : List Nat) (env : BootEnv),
    s.pwr.vaux = true →
    s.mode = .doze →
    exec (.registerWindowWrite eid off values env) s = .next (if 2 ≤ s.slotsUsed then (s.wakeEvent 8) else s.holdMsg true (.registerWindowWrite eid off values env))) ∧
  (∀ (s : State) (eid : Nat),
    s.pwr.vaux = true →
    s.mode = .doze →
    exec (.miAuthorityAcquire eid) s = .next (if 2 ≤ s.slotsUsed then (s.wakeEvent 8) else s.holdMsg true (.miAuthorityAcquire eid))) ∧
  (∀ (s : State) (eid : Nat),
    s.pwr.vaux = true →
    s.mode = .doze →
    exec (.miAuthorityRelease eid) s = .next (if 2 ≤ s.slotsUsed then (s.wakeEvent 8) else s.holdMsg true (.miAuthorityRelease eid))) ∧
  (∀ (s : State) (eid dtyp id : Nat),
    s.pwr.vaux = true →
    s.mode = .doze →
    exec (.readNvmeMiDataStructure eid dtyp id) s = .next (if 2 ≤ s.slotsUsed then (s.wakeEvent 8) else s.holdMsg true (.readNvmeMiDataStructure eid dtyp id))) ∧
  (∀ (s : State) (eid : Nat),
    s.pwr.vaux = true →
    s.mode = .doze →
    exec (.nvmSubsystemHealthStatusPoll eid) s = .next (if 2 ≤ s.slotsUsed then (s.wakeEvent 8) else s.holdMsg true (.nvmSubsystemHealthStatusPoll eid))) ∧
  (∀ (s : State) (eid ctrl : Nat),
    s.pwr.vaux = true →
    s.mode = .doze →
    exec (.controllerHealthStatusPoll eid ctrl) s = .next (if 2 ≤ s.slotsUsed then (s.wakeEvent 8) else s.holdMsg true (.controllerHealthStatusPoll eid ctrl))) ∧
  (∀ (s : State) (eid id : Nat),
    s.pwr.vaux = true →
    s.mode = .doze →
    exec (.configurationGet eid id) s = .next (if 2 ≤ s.slotsUsed then (s.wakeEvent 8) else s.holdMsg true (.configurationGet eid id))) ∧
  (∀ (s : State) (eid id value : Nat),
    s.pwr.vaux = true →
    s.mode = .doze →
    exec (.configurationSet eid id value) s = .next (if 2 ≤ s.slotsUsed then (s.wakeEvent 8) else s.holdMsg true (.configurationSet eid id value))) ∧
  (∀ (s : State) (eid off len : Nat),
    s.pwr.vaux = true →
    s.mode = .doze →
    exec (.vpdRead eid off len) s = .next (if 2 ≤ s.slotsUsed then (s.wakeEvent 8) else s.holdMsg true (.vpdRead eid off len))) ∧
  (∀ (s : State) (eid : Nat) (env : BootEnv),
    s.pwr.vaux = true →
    s.mode = .doze →
    exec (.miReset eid env) s = .next (if 2 ≤ s.slotsUsed then (s.wakeEvent 8) else s.holdMsg true (.miReset eid env))) ∧
  (∀ (s : State) (op eid : Nat),
    s.pwr.vaux = true →
    s.mode = .doze →
    exec (.setEndpointId op eid) s = .next (s.holdMsg false (.setEndpointId op eid))) ∧
  (∀ (s : State),
    s.pwr.vaux = true →
    s.mode = .doze →
    exec .getEndpointId s = .next (s.holdMsg false .getEndpointId)) ∧
  (∀ (s : State),
    s.pwr.vaux = true →
    s.mode = .doze →
    exec .getEndpointUuid s = .next (s.holdMsg false .getEndpointUuid)) ∧
  (∀ (s : State) (kind : Nat),
    s.pwr.vaux = true →
    s.mode = .doze →
    exec (.getMctpVersionSupport kind) s = .next (s.holdMsg false (.getMctpVersionSupport kind))) ∧
  (∀ (s : State),
    s.pwr.vaux = true →
    s.mode = .doze →
    exec .getMessageTypeSupport s = .next (s.holdMsg false .getMessageTypeSupport)) ∧
  (∀ (s : State) (eid req resp : Nat) (page : Option Nat),
    s.pwr.vaux = true →
    s.mode = .doze →
    exec (.tunnelledAdminCommand eid req resp page) s = .next (if 2 ≤ s.slotsUsed then (s.wakeEvent 8) else s.holdMsg true (.tunnelledAdminCommand eid req resp page)))

/-- Each command that the mode serves has its effect and its answer; while a PF or another endpoint holds the lock, those that need it answer 0xE1 and the holder; a window access outside the window or beyond what the mode serves is refused whole; acquiring takes a free lock, releasing gives back an own one, and a holding unused for 60 s lapses. Where the spec leaves a point open, it rests on the model's choices of log entries 5, 17, 20, 33, 35, 37, 38, 47, 72, 80 and 87. -/
def Obligations.ManagementPower : Prop :=
  (∀ (s : State) (eid : Nat) (h : Holder),
    s.pwr.vaux = true →
    s.mode ≠ .doze →
    (s.wakeEvent 8).miServes .powerOn = true →
    ((s.wakeEvent 8).miTouch eid).sideHeld eid = some h →
    exec (.powerOn eid) s =
      .next (((s.wakeEvent 8).miTouch eid).emit (.mi 0xE1 [h.code]))) ∧
  (∀ (s : State) (eid : Nat) (h : Holder),
    s.pwr.vaux = true →
    s.mode ≠ .doze →
    (s.wakeEvent 8).miServes .powerOff = true →
    ((s.wakeEvent 8).miTouch eid).sideHeld eid = some h →
    exec (.powerOff eid) s =
      .next (((s.wakeEvent 8).miTouch eid).emit (.mi 0xE1 [h.code]))) ∧
  (∀ (s : State) (eid : Nat) (env : BootEnv) (h : Holder),
    s.pwr.vaux = true →
    s.mode ≠ .doze →
    (s.wakeEvent 8).miServes .full = true →
    ((s.wakeEvent 8).miTouch eid).sideHeld eid = some h →
    exec (.deviceReset eid env) s =
      .next (((s.wakeEvent 8).miTouch eid).emit (.mi 0xE1 [h.code]))) ∧
  (∀ (s : State) (eid : Nat),
    s.pwr.vaux = true →
    s.mode ≠ .doze →
    (s.wakeEvent 8).miServes .powerOn = true →
    ((s.wakeEvent 8).miTouch eid).sideHeld eid = none →
    ((s.wakeEvent 8).miTouch eid).mode = .off →
    exec (.powerOn eid) s =
      .next (((({ ((s.wakeEvent 8).miTouch eid) with pwr := { ((s.wakeEvent 8).miTouch eid).pwr with thermN := false } } : State).setFld F.PWR_STATUS_THERM_LATCH 0).powerUpRequest 2).emit (.mi 0 []))) ∧
  (∀ (s : State) (eid : Nat),
    s.pwr.vaux = true →
    s.mode ≠ .doze →
    (s.wakeEvent 8).miServes .powerOn = true →
    ((s.wakeEvent 8).miTouch eid).sideHeld eid = none →
    ((s.wakeEvent 8).miTouch eid).mode ≠ .off →
    exec (.powerOn eid) s =
      .next (((s.wakeEvent 8).miTouch eid).emit (.mi 0 []))) ∧
  (∀ (s : State) (eid : Nat),
    s.pwr.vaux = true →
    s.mode ≠ .doze →
    (s.wakeEvent 8).miServes .powerOff = true →
    ((s.wakeEvent 8).miTouch eid).sideHeld eid = none →
    exec (.powerOff eid) s =
      .next ((((s.wakeEvent 8).miTouch eid).offRequest 5).emit (.mi 0 []))) ∧
  (∀ (s : State) (eid : Nat) (env : BootEnv),
    s.pwr.vaux = true →
    s.mode ≠ .doze →
    (s.wakeEvent 8).miServes .full = true →
    ((s.wakeEvent 8).miTouch eid).sideHeld eid = none →
    exec (.deviceReset eid env) s =
      .next ((((s.wakeEvent 8).miTouch eid).deviceReset 2 env).emit (.mi 0 []))) ∧
  (∀ (s : State) (eid : Nat) (env : BootEnv),
    s.pwr.vaux = true →
    s.mode ≠ .doze →
    (s.wakeEvent 8).miServes .full = true →
    exec (.miReset eid env) s =
      .next ((((s.wakeEvent 8).miTouch eid).nvmReset env).emit (.mi 0 []))) ∧
  (∀ (s : State) (eid off dwords : Nat),
    s.pwr.vaux = true →
    s.mode ≠ .doze →
    (s.wakeEvent 8).miServes .window = true →
    windowOk off dwords = false →
    exec (.registerWindowRead eid off dwords) s =
      .next (((s.wakeEvent 8).miTouch eid).emit (.mi 4 []))) ∧
  (∀ (s : State) (eid off dwords : Nat),
    s.pwr.vaux = true →
    s.mode ≠ .doze →
    (s.wakeEvent 8).miServes .window = true →
    windowOk off dwords = true →
    ((s.wakeEvent 8).miTouch eid).windowServes off dwords = false →
    exec (.registerWindowRead eid off dwords) s =
      .next (((s.wakeEvent 8).miTouch eid).emit (.mi 0xE0 [((s.wakeEvent 8).miTouch eid).mode.code]))) ∧
  (∀ (s : State) (eid off dwords : Nat),
    s.pwr.vaux = true →
    s.mode ≠ .doze →
    (s.wakeEvent 8).miServes .window = true →
    windowOk off dwords = true →
    ((s.wakeEvent 8).miTouch eid).windowServes off dwords = true →
    exec (.registerWindowRead eid off dwords) s =
      .next (let read (acc : State × List Nat) (i : Nat) : State × List Nat :=
          ((acc.1.regReadStep (off + 4 * i)).1, acc.2 ++ [(acc.1.regReadStep (off + 4 * i)).2])
        ((List.range dwords).foldl read (((s.wakeEvent 8).miTouch eid), [])).1.emit (.mi 0 ((List.range dwords).foldl read (((s.wakeEvent 8).miTouch eid), [])).2))) ∧
  (∀ (s : State) (eid off : Nat) (values : List Nat) (env : BootEnv),
    s.pwr.vaux = true →
    s.mode ≠ .doze →
    (s.wakeEvent 8).miServes .window = true →
    windowOk off values.length = false →
    exec (.registerWindowWrite eid off values env) s =
      .next (((s.wakeEvent 8).miTouch eid).emit (.mi 4 []))) ∧
  (∀ (s : State) (eid off : Nat) (values : List Nat) (env : BootEnv),
    s.pwr.vaux = true →
    s.mode ≠ .doze →
    (s.wakeEvent 8).miServes .window = true →
    windowOk off values.length = true →
    ((s.wakeEvent 8).miTouch eid).windowServes off values.length = false →
    exec (.registerWindowWrite eid off values env) s =
      .next (((s.wakeEvent 8).miTouch eid).emit (.mi 0xE0 [((s.wakeEvent 8).miTouch eid).mode.code]))) ∧
  (∀ (s : State) (eid off : Nat) (values : List Nat) (env : BootEnv) (h : Holder),
    s.pwr.vaux = true →
    s.mode ≠ .doze →
    (s.wakeEvent 8).miServes .window = true →
    windowOk off values.length = true →
    ((s.wakeEvent 8).miTouch eid).windowServes off values.length = true →
    ((s.wakeEvent 8).miTouch eid).sideHeld eid = some h →
    exec (.registerWindowWrite eid off values env) s =
      .next (((s.wakeEvent 8).miTouch eid).emit (.mi 0xE1 [h.code]))) ∧
  (∀ (s : State) (eid off : Nat) (values : List Nat) (env : BootEnv),
    s.pwr.vaux = true →
    s.mode ≠ .doze →
    (s.wakeEvent 8).miServes .window = true →
    windowOk off values.length = true →
    ((s.wakeEvent 8).miTouch eid).windowServes off values.length = true →
    ((s.wakeEvent 8).miTouch eid).sideHeld eid = none →
    exec (.registerWindowWrite eid off values env) s =
      .next (let one (s : State) (e : Nat × Nat) : State :=
          if off + 4 * e.2 = F.DEV_RESET_DEVICE.key then (if e.1.testBit 0 then s.deviceReset 2 env else s) else s.windowWrite (off + 4 * e.2) e.1
        (values.zipIdx.foldl one ((s.wakeEvent 8).miTouch eid)).emit (.mi 0 []))) ∧
  (∀ (s : State) (eid : Nat) (h : Holder),
    s.pwr.vaux = true →
    s.mode ≠ .doze →
    (s.wakeEvent 8).miServes .lock = true →
    ((s.wakeEvent 8).miTouch eid).sideHeld eid = some h →
    exec (.miAuthorityAcquire eid) s =
      .next (((s.wakeEvent 8).miTouch eid).emit (.mi 0xE1 [h.code]))) ∧
  (∀ (s : State) (eid : Nat),
    s.pwr.vaux = true →
    s.mode ≠ .doze →
    (s.wakeEvent 8).miServes .lock = true →
    ((s.wakeEvent 8).miTouch eid).sideHeld eid = none →
    exec (.miAuthorityAcquire eid) s =
      .next ((((s.wakeEvent 8).miTouch eid).takeLock .mgmt eid).emit (.mi 0 []))) ∧
  (∀ (s : State) (eid : Nat),
    s.pwr.vaux = true →
    s.mode ≠ .doze →
    (s.wakeEvent 8).miServes .lock = true →
    (((s.wakeEvent 8).miTouch eid).mgmt.lock != some .mgmt || (((s.wakeEvent 8).miTouch eid).sideHeld eid).isSome) = true →
    exec (.miAuthorityRelease eid) s =
      .next (((s.wakeEvent 8).miTouch eid).emit (.mi 4 []))) ∧
  (∀ (s : State) (eid : Nat),
    s.pwr.vaux = true →
    s.mode ≠ .doze →
    (s.wakeEvent 8).miServes .lock = true →
    (((s.wakeEvent 8).miTouch eid).mgmt.lock != some .mgmt || (((s.wakeEvent 8).miTouch eid).sideHeld eid).isSome) = false →
    exec (.miAuthorityRelease eid) s =
      .next (((s.wakeEvent 8).miTouch eid).giveLock.emit (.mi 0 []))) ∧
  (∀ (s : State),
    (s.mgmt.lock.isSome && !s.mgmt.lockTemp && s.mgmt.lockAt + 60 * secT ≤ s.now) = true →
    exec .authorityLapse s = .next s.freeLock)

/-- The data structures, health polls, configuration, VPD and MCTP control messages answer what the spec lists and 4 where it lists nothing; a configuration that is allowed is kept; a tunnelled command takes one of two slots, and in OFF and BOOT only the two log page headers are answered; the I3C commands set and clear the dynamic address. Where the spec leaves a point open, it rests on the model's choices of log entries 12, 17, 18, 20, 37, 38, 39, 72, 76 and 80. -/
def Obligations.ManagementReads : Prop :=
  (∀ (s : State) (eid id : Nat),
    s.pwr.vaux = true →
    s.mode ≠ .doze →
    (s.wakeEvent 8).miServes .info = true →
    exec (.readNvmeMiDataStructure eid 0 id) s =
      .next (((s.wakeEvent 8).miTouch eid).emit (.mi 0 [bit (((s.wakeEvent 8).miTouch eid).flag F.HP_CFG_DUAL) + 1, 2]))) ∧
  (∀ (s : State) (eid id : Nat),
    s.pwr.vaux = true →
    s.mode ≠ .doze →
    (s.wakeEvent 8).miServes .info = true →
    id < 2 + bit (((s.wakeEvent 8).miTouch eid).flag F.HP_CFG_DUAL) →
    exec (.readNvmeMiDataStructure eid 1 id) s =
      .next (((s.wakeEvent 8).miTouch eid).emit (.mi 0 [id, 64]))) ∧
  (∀ (s : State) (eid id : Nat),
    s.pwr.vaux = true →
    s.mode ≠ .doze →
    (s.wakeEvent 8).miServes .info = true →
    2 + bit (((s.wakeEvent 8).miTouch eid).flag F.HP_CFG_DUAL) ≤ id →
    exec (.readNvmeMiDataStructure eid 1 id) s =
      .next (((s.wakeEvent 8).miTouch eid).emit (.mi 4 []))) ∧
  (∀ (s : State) (eid id : Nat),
    s.pwr.vaux = true →
    s.mode ≠ .doze →
    (s.wakeEvent 8).miServes .info = true →
    exec (.readNvmeMiDataStructure eid 2 id) s =
      .next (((s.wakeEvent 8).miTouch eid).emit (.mi 0 (((s.wakeEvent 8).miTouch eid).qe.ctrls.map (fun k => k.id))))) ∧
  (∀ (s : State) (eid id : Nat) (k : Ctrl),
    s.pwr.vaux = true →
    s.mode ≠ .doze →
    (s.wakeEvent 8).miServes .info = true →
    ((s.wakeEvent 8).miTouch eid).ctrl id = some k →
    exec (.readNvmeMiDataStructure eid 3 id) s =
      .next (((s.wakeEvent 8).miTouch eid).emit (.mi 0 [k.id, ((s.wakeEvent 8).miTouch eid).portOf k.id]))) ∧
  (∀ (s : State) (eid id : Nat),
    s.pwr.vaux = true →
    s.mode ≠ .doze →
    (s.wakeEvent 8).miServes .info = true →
    ((s.wakeEvent 8).miTouch eid).ctrl id = none →
    exec (.readNvmeMiDataStructure eid 3 id) s =
      .next (((s.wakeEvent 8).miTouch eid).emit (.mi 4 []))) ∧
  (∀ (s : State) (eid id : Nat),
    s.pwr.vaux = true →
    s.mode ≠ .doze →
    (s.wakeEvent 8).miServes .info = true →
    exec (.readNvmeMiDataStructure eid 4 id) s =
      .next (((s.wakeEvent 8).miTouch eid).emit (.mi 0 [0xC0, 0xC1, 0xC2, 0xC3, 0xC4, 0xC5]))) ∧
  (∀ (s : State) (eid dtyp id : Nat),
    s.pwr.vaux = true →
    s.mode ≠ .doze →
    (s.wakeEvent 8).miServes .info = true →
    4 < dtyp →
    exec (.readNvmeMiDataStructure eid dtyp id) s =
      .next (((s.wakeEvent 8).miTouch eid).emit (.mi 4 []))) ∧
  (∀ (s : State) (eid : Nat),
    s.pwr.vaux = true →
    s.mode ≠ .doze →
    (s.wakeEvent 8).miServes .poll = true →
    exec (.nvmSubsystemHealthStatusPoll eid) s =
      .next (((s.wakeEvent 8).miTouch eid).emit (.mi 0 (((s.wakeEvent 8).miTouch eid).aonCache ++ (if ((s.wakeEvent 8).miTouch eid).fromCache then [] else [((s.wakeEvent 8).miTouch eid).critical 0, ((s.wakeEvent 8).miTouch eid).smartTemps.1]))))) ∧
  (∀ (s : State) (eid ctrl : Nat),
    s.pwr.vaux = true →
    s.mode ≠ .doze →
    (s.wakeEvent 8).miServes .poll = true →
    ((s.wakeEvent 8).miTouch eid).fromCache = true →
    exec (.controllerHealthStatusPoll eid ctrl) s =
      .next (((s.wakeEvent 8).miTouch eid).emit (.mi 0 ((s.wakeEvent 8).miTouch eid).aonCache))) ∧
  (∀ (s : State) (eid ctrl : Nat) (k : Ctrl),
    s.pwr.vaux = true →
    s.mode ≠ .doze →
    (s.wakeEvent 8).miServes .poll = true →
    ((s.wakeEvent 8).miTouch eid).fromCache = false →
    ((s.wakeEvent 8).miTouch eid).ctrl ctrl = some k →
    exec (.controllerHealthStatusPoll eid ctrl) s =
      .next (((s.wakeEvent 8).miTouch eid).emit (.mi 0 (((s.wakeEvent 8).miTouch eid).aonCache ++ [ctrl, bit k.rdy + 2 * bit k.cfs + 4 * k.shst, ((s.wakeEvent 8).miTouch eid).critical ctrl, ((s.wakeEvent 8).miTouch eid).smartTemps.1])))) ∧
  (∀ (s : State) (eid ctrl : Nat),
    s.pwr.vaux = true →
    s.mode ≠ .doze →
    (s.wakeEvent 8).miServes .poll = true →
    ((s.wakeEvent 8).miTouch eid).fromCache = false →
    ((s.wakeEvent 8).miTouch eid).ctrl ctrl = none →
    exec (.controllerHealthStatusPoll eid ctrl) s =
      .next (((s.wakeEvent 8).miTouch eid).emit (.mi 4 []))) ∧
  (∀ (s : State) (eid id : Nat),
    s.pwr.vaux = true →
    s.mode ≠ .doze →
    (s.wakeEvent 8).miServes .full = true →
    (1 ≤ id && id ≤ 3) = true →
    exec (.configurationGet eid id) s =
      .next (((s.wakeEvent 8).miTouch eid).emit (.mi 0 [((s.wakeEvent 8).miTouch eid).miCfg id]))) ∧
  (∀ (s : State) (eid id : Nat),
    s.pwr.vaux = true →
    s.mode ≠ .doze →
    (s.wakeEvent 8).miServes .full = true →
    (1 ≤ id && id ≤ 3) = false →
    exec (.configurationGet eid id) s =
      .next (((s.wakeEvent 8).miTouch eid).emit (.mi 4 []))) ∧
  (∀ (s : State) (eid id value : Nat),
    s.pwr.vaux = true →
    s.mode ≠ .doze →
    (s.wakeEvent 8).miServes .full = true →
    ((id = 1 && 1 ≤ value && value ≤ 3) || id = 2 || (id = 3 && value = 64)) = true →
    exec (.configurationSet eid id value) s =
      .next (({ ((s.wakeEvent 8).miTouch eid) with mgmt := { ((s.wakeEvent 8).miTouch eid).mgmt with cfg := (id, value) :: ((s.wakeEvent 8).miTouch eid).mgmt.cfg.filter (fun e => e.1 != id) } } : State).emit (.mi 0 []))) ∧
  (∀ (s : State) (eid id value : Nat),
    s.pwr.vaux = true →
    s.mode ≠ .doze →
    (s.wakeEvent 8).miServes .full = true →
    ((id = 1 && 1 ≤ value && value ≤ 3) || id = 2 || (id = 3 && value = 64)) = false →
    exec (.configurationSet eid id value) s =
      .next (((s.wakeEvent 8).miTouch eid).emit (.mi 4 []))) ∧
  (∀ (s : State) (eid off len : Nat),
    s.pwr.vaux = true →
    s.mode ≠ .doze →
    (s.wakeEvent 8).miServes .vpd = true →
    512 < off + len →
    exec (.vpdRead eid off len) s =
      .next (((s.wakeEvent 8).miTouch eid).emit (.mi 4 []))) ∧
  (∀ (s : State) (eid off len : Nat),
    s.pwr.vaux = true →
    s.mode ≠ .doze →
    (s.wakeEvent 8).miServes .vpd = true →
    off + len ≤ 512 →
    exec (.vpdRead eid off len) s =
      .next (((s.wakeEvent 8).miTouch eid).emit (.mi 0 ((List.range len).map (fun i => (((s.wakeEvent 8).miTouch eid).mgmt.vpd.getD []).getD ((off + i) / 8) 0 / 2 ^ (8 * ((off + i) % 8)) % 256))))) ∧
  (∀ (s : State) (eid req resp : Nat),
    s.pwr.vaux = true →
    (s.mode = .off || s.mode = .boot) = true →
    exec (.tunnelledAdminCommand eid req resp (some 0xC2)) s = .next ((s.wakeEvent 8).emit (.data .side 2 0xC2 0 64 (s.wakeEvent 8).healthHeader))) ∧
  (∀ (s : State) (eid req resp : Nat),
    s.pwr.vaux = true →
    (s.mode = .off || s.mode = .boot) = true →
    exec (.tunnelledAdminCommand eid req resp (some 0xC0)) s = .next ((s.wakeEvent 8).emit (.data .side 2 0xC0 0 72 [(0, 8, (s.wakeEvent 8).mgmt.bootSeq), (24, 48, (s.wakeEvent 8).mgmt.digest)]))) ∧
  (∀ (s : State) (eid req resp : Nat) (page : Option Nat),
    s.pwr.vaux = true →
    (s.mode = .off || s.mode = .boot) = true →
    page ≠ some 0xC2 →
    page ≠ some 0xC0 →
    exec (.tunnelledAdminCommand eid req resp page) s = .next ((s.wakeEvent 8).emit (.mi 0xE0 [(s.wakeEvent 8).mode.code]))) ∧
  (∀ (s : State) (eid req resp : Nat) (page : Option Nat),
    s.pwr.vaux = true →
    s.mode ≠ .doze →
    (s.mode = .off || s.mode = .boot) = false →
    (s.wakeEvent 8).miServes .full = false →
    exec (.tunnelledAdminCommand eid req resp page) s =
      .next ((s.wakeEvent 8).emit (.mi 0xE0 [(s.wakeEvent 8).mode.code]))) ∧
  (∀ (s : State) (eid req resp : Nat) (page : Option Nat),
    s.pwr.vaux = true →
    s.mode ≠ .doze →
    (s.mode = .off || s.mode = .boot) = false →
    (s.wakeEvent 8).miServes .full = true →
    2 ≤ ((s.wakeEvent 8).miTouch eid).mgmt.tunnels →
    exec (.tunnelledAdminCommand eid req resp page) s =
      .next (((s.wakeEvent 8).miTouch eid))) ∧
  (∀ (s : State) (eid req resp : Nat) (page : Option Nat),
    s.pwr.vaux = true →
    s.mode ≠ .doze →
    (s.mode = .off || s.mode = .boot) = false →
    (s.wakeEvent 8).miServes .full = true →
    ((s.wakeEvent 8).miTouch eid).mgmt.tunnels < 2 →
    (4096 < req || 4096 < resp) = true →
    exec (.tunnelledAdminCommand eid req resp page) s =
      .next (((s.wakeEvent 8).miTouch eid).emit (.mi 6 []))) ∧
  (∀ (s : State) (eid req resp : Nat) (page : Option Nat),
    s.pwr.vaux = true →
    s.mode ≠ .doze →
    (s.mode = .off || s.mode = .boot) = false →
    (s.wakeEvent 8).miServes .full = true →
    ((s.wakeEvent 8).miTouch eid).mgmt.tunnels < 2 →
    (4096 < req || 4096 < resp) = false →
    exec (.tunnelledAdminCommand eid req resp page) s =
      .next ({ ((s.wakeEvent 8).miTouch eid) with mgmt := { ((s.wakeEvent 8).miTouch eid).mgmt with tunnels := ((s.wakeEvent 8).miTouch eid).mgmt.tunnels + 1, tunnelEid := eid } })) ∧
  (∀ (s : State) (op eid : Nat),
    s.pwr.vaux = true →
    s.mode ≠ .doze →
    (1 < op || eid = 0 || 255 ≤ eid) = true →
    exec (.setEndpointId op eid) s =
      .next ((s.wakeEvent 8).emit (.mctp 1 [2]))) ∧
  (∀ (s : State) (op eid : Nat),
    s.pwr.vaux = true →
    s.mode ≠ .doze →
    (1 < op || eid = 0 || 255 ≤ eid) = false →
    exec (.setEndpointId op eid) s =
      .next (({ (s.wakeEvent 8) with mgmt := { (s.wakeEvent 8).mgmt with eid := eid } } : State).emit (.mctp 1 [0, 0, eid, 0]))) ∧
  (∀ (s : State),
    s.pwr.vaux = true →
    s.mode ≠ .doze →
    exec (.getEndpointId) s =
      .next ((s.wakeEvent 8).emit (.mctp 2 [0, (s.wakeEvent 8).mgmt.eid]))) ∧
  (∀ (s : State),
    s.pwr.vaux = true →
    s.mode ≠ .doze →
    exec (.getEndpointUuid) s =
      .next ((s.wakeEvent 8).emit (.mctp 3 [0, Config.endpointUuid]))) ∧
  (∀ (s : State) (kind : Nat),
    s.pwr.vaux = true →
    s.mode ≠ .doze →
    (kind = 0xFF || mctpTypes.contains kind) = true →
    exec (.getMctpVersionSupport kind) s =
      .next ((s.wakeEvent 8).emit (.mctp 4 (0 :: Config.mctpVersions kind)))) ∧
  (∀ (s : State) (kind : Nat),
    s.pwr.vaux = true →
    s.mode ≠ .doze →
    (kind = 0xFF || mctpTypes.contains kind) = false →
    exec (.getMctpVersionSupport kind) s =
      .next ((s.wakeEvent 8).emit (.mctp 4 [0x80]))) ∧
  (∀ (s : State),
    s.pwr.vaux = true →
    s.mode ≠ .doze →
    exec (.getMessageTypeSupport) s =
      .next ((s.wakeEvent 8).emit (.mctp 5 (0 :: mctpTypes.length :: mctpTypes)))) ∧
  (∀ (s : State) (addr : Nat),
    (s.pwr.vaux && addr < 128) = true →
    exec (.entdaa addr) s = .next (s.setDyn addr)) ∧
  (∀ (s : State) (addr dyn : Nat),
    (s.pwr.vaux && addr = s.staticAddr && dyn < 128) = true →
    exec (.setdasa addr dyn) s = .next (s.setDyn dyn)) ∧
  (∀ (s : State),
    s.pwr.vaux = true →
    exec .rstdaa s = .next { s with mgmt := { s.mgmt with i3c := false, dyn := none, eid := 0 } })

/-- A request that is served runs once the negotiation has reached its stage, and is otherwise answered with an error; the answers carry what the spec lists, and slot 0 is the only certificate slot. Where the spec leaves a point open, it rests on the model's choices of log entries 12, 17 and 45. -/
def Obligations.SpdmNegotiation : Prop :=
  (∀ (s : State) (p : Party),
    s.spdmServes p = true →
    exec (.getVersion p) s =
      .next (((s.spdmTold p).setConn { party := p, stage := 1 }).spdmSend p 0x04 [0x12, 0x13])) ∧
  (∀ (s : State) (p : Party),
    s.spdmServes p = true →
    ((s.spdmTold p).conn p).stage < 1 →
    exec (.getCapabilities p) s =
      .next ((s.spdmTold p).spdmError p 4)) ∧
  (∀ (s : State) (p : Party) (offered : Bool),
    s.spdmServes p = true →
    ((s.spdmTold p).conn p).stage < 2 →
    exec (.negotiateAlgorithms p offered) s =
      .next ((s.spdmTold p).spdmError p 4)) ∧
  (∀ (s : State) (p : Party),
    s.spdmServes p = true →
    ((s.spdmTold p).conn p).stage < 3 →
    exec (.getDigests p) s =
      .next ((s.spdmTold p).spdmError p 4)) ∧
  (∀ (s : State) (p : Party) (slot off len : Nat),
    s.spdmServes p = true →
    ((s.spdmTold p).conn p).stage < 3 →
    exec (.getCertificate p slot off len) s =
      .next ((s.spdmTold p).spdmError p 4)) ∧
  (∀ (s : State) (p : Party) (slot : Nat),
    s.spdmServes p = true →
    ((s.spdmTold p).conn p).stage < 3 →
    exec (.challenge p slot) s =
      .next ((s.spdmTold p).spdmError p 4)) ∧
  (∀ (s : State) (p : Party) (index : Nat),
    s.spdmServes p = true →
    ((s.spdmTold p).conn p).stage < 3 →
    exec (.getMeasurements p index) s =
      .next ((s.spdmTold p).spdmError p 4)) ∧
  (∀ (s : State) (p : Party),
    s.spdmServes p = true →
    1 ≤ ((s.spdmTold p).conn p).stage →
    exec (.getCapabilities p) s =
      .next (((s.spdmTold p).setConn { (s.spdmTold p).conn p with stage := max 2 ((s.spdmTold p).conn p).stage }).spdmSend p 0x61 [Config.spdmFlags])) ∧
  (∀ (s : State) (p : Party),
    s.spdmServes p = true →
    2 ≤ ((s.spdmTold p).conn p).stage →
    exec (.negotiateAlgorithms p true) s =
      .next (((s.spdmTold p).setConn { (s.spdmTold p).conn p with stage := 3 }).spdmSend p 0x63 [0x80, 0x02, 0x10, 0x02])) ∧
  (∀ (s : State) (p : Party),
    s.spdmServes p = true →
    2 ≤ ((s.spdmTold p).conn p).stage →
    exec (.negotiateAlgorithms p false) s =
      .next ((s.spdmTold p).spdmError p 1)) ∧
  (∀ (s : State) (p : Party),
    s.spdmServes p = true →
    3 ≤ ((s.spdmTold p).conn p).stage →
    exec (.getDigests p) s =
      .next ((s.spdmTold p).spdmSend p 0x01 [bit (s.spdmTold p).certified])) ∧
  (∀ (s : State) (p : Party) (slot off len : Nat),
    s.spdmServes p = true →
    3 ≤ ((s.spdmTold p).conn p).stage →
    (slot != 0 || !(s.spdmTold p).certified) = true →
    exec (.getCertificate p slot off len) s =
      .next ((s.spdmTold p).spdmError p 1)) ∧
  (∀ (s : State) (p : Party) (slot off len : Nat),
    s.spdmServes p = true →
    3 ≤ ((s.spdmTold p).conn p).stage →
    (slot != 0 || !(s.spdmTold p).certified) = false →
    exec (.getCertificate p slot off len) s =
      .next ((s.spdmTold p).spdmSend p 0x02 [slot, off, len])) ∧
  (∀ (s : State) (p : Party) (slot : Nat),
    s.spdmServes p = true →
    3 ≤ ((s.spdmTold p).conn p).stage →
    (slot != 0 || !(s.spdmTold p).certified) = true →
    exec (.challenge p slot) s =
      .next ((s.spdmTold p).spdmError p 1)) ∧
  (∀ (s : State) (p : Party) (slot : Nat),
    s.spdmServes p = true →
    3 ≤ ((s.spdmTold p).conn p).stage →
    (slot != 0 || !(s.spdmTold p).certified) = false →
    exec (.challenge p slot) s =
      .next ((s.spdmTold p).spdmSend p 0x03 [slot, (s.spdmTold p).fol.bootSeq])) ∧
  (∀ (s : State) (p : Party),
    s.spdmServes p = true →
    3 ≤ ((s.spdmTold p).conn p).stage →
    exec (.getMeasurements p 0) s =
      .next ((s.spdmTold p).spdmSend p 0x60 [measurementIndices.length])) ∧
  (∀ (s : State) (p : Party),
    s.spdmServes p = true →
    3 ≤ ((s.spdmTold p).conn p).stage →
    exec (.getMeasurements p 0xFF) s =
      .next ((s.spdmTold p).spdmSend p 0x60 (measurementIndices.length :: measurementIndices.flatMap (fun i => ((s.spdmTold p).measurement i).getD [])))) ∧
  (∀ (s : State) (p : Party) (index : Nat) (d : List Nat),
    s.spdmServes p = true →
    3 ≤ ((s.spdmTold p).conn p).stage →
    index ≠ 0 →
    index ≠ 0xFF →
    (s.spdmTold p).measurement index = some d →
    exec (.getMeasurements p index) s =
      .next ((s.spdmTold p).spdmSend p 0x60 (1 :: d))) ∧
  (∀ (s : State) (p : Party) (index : Nat),
    s.spdmServes p = true →
    3 ≤ ((s.spdmTold p).conn p).stage →
    index ≠ 0 →
    index ≠ 0xFF →
    (s.spdmTold p).measurement index = none →
    exec (.getMeasurements p index) s =
      .next ((s.spdmTold p).spdmError p 1))

/-- A key exchange begins a session, FINISH establishes or ends it, HEARTBEAT and KEY_UPDATE act on an established session, END_SESSION ends it; a request for a session that is not there is answered with an error; a request that is not served has no effect over DOE. Where the spec leaves a point open, it rests on the model's choices of log entries 12, 17 and 45. -/
def Obligations.SpdmSessions : Prop :=
  (∀ (s : State) (p : Party) (slot : Nat),
    s.spdmServes p = true →
    ((s.spdmTold p).conn p).stage < 3 →
    exec (.keyExchange p slot) s =
      .next ((s.spdmTold p).spdmError p 4)) ∧
  (∀ (s : State) (p : Party) (slot : Nat),
    s.spdmServes p = true →
    3 ≤ ((s.spdmTold p).conn p).stage →
    (slot != 0 || !(s.spdmTold p).certified) = true →
    exec (.keyExchange p slot) s =
      .next ((s.spdmTold p).spdmError p 1)) ∧
  (∀ (s : State) (p : Party) (slot : Nat),
    s.spdmServes p = true →
    3 ≤ ((s.spdmTold p).conn p).stage →
    (slot != 0 || !(s.spdmTold p).certified) = false →
    exec (.keyExchange p slot) s =
      .next (let c := (s.spdmTold p).conn p
        ((s.spdmTold p).setConn { c with next := c.next + 1, sessions := (c.next, false, 0) :: c.sessions }).spdmSend p 0x64 [c.next])) ∧
  (∀ (s : State) (p : Party) (session : Nat) (ok : Bool),
    s.spdmServes p = true →
    ((s.spdmTold p).conn p).sessions.find? (fun e => e.1 == session && e.2.1 == false) = none →
    exec (.finish p session ok) s =
      .next ((s.spdmTold p).spdmError p 2)) ∧
  (∀ (s : State) (p : Party) (session : Nat),
    s.spdmServes p = true →
    ((s.spdmTold p).conn p).sessions.find? (fun e => e.1 == session && e.2.1 == true) = none →
    exec (.heartbeat p session) s =
      .next ((s.spdmTold p).spdmError p 2)) ∧
  (∀ (s : State) (p : Party) (session : Nat) (op : Nat),
    s.spdmServes p = true →
    ((s.spdmTold p).conn p).sessions.find? (fun e => e.1 == session && e.2.1 == true) = none →
    exec (.keyUpdate p session op) s =
      .next ((s.spdmTold p).spdmError p 2)) ∧
  (∀ (s : State) (p : Party) (session : Nat),
    s.spdmServes p = true →
    ((s.spdmTold p).conn p).sessions.find? (fun e => e.1 == session && e.2.1 == true) = none →
    exec (.endSession p session) s =
      .next ((s.spdmTold p).spdmError p 2)) ∧
  (∀ (s : State) (p : Party) (session : Nat) (g : Nat),
    s.spdmServes p = true →
    ((s.spdmTold p).conn p).sessions.find? (fun e => e.1 == session && e.2.1 == false) = some (session, false, g) →
    exec (.finish p session true) s =
      .next (((s.spdmTold p).putSession p session (some (true, g))).spdmSend p 0x65 [session])) ∧
  (∀ (s : State) (p : Party) (session : Nat) (g : Nat),
    s.spdmServes p = true →
    ((s.spdmTold p).conn p).sessions.find? (fun e => e.1 == session && e.2.1 == false) = some (session, false, g) →
    exec (.finish p session false) s =
      .next (((s.spdmTold p).putSession p session none).spdmError p 6)) ∧
  (∀ (s : State) (p : Party) (session : Nat) (g : Nat),
    s.spdmServes p = true →
    ((s.spdmTold p).conn p).sessions.find? (fun e => e.1 == session && e.2.1 == true) = some (session, true, g) →
    exec (.heartbeat p session) s =
      .next ((s.spdmTold p).spdmSend p 0x68 [session])) ∧
  (∀ (s : State) (p : Party) (session : Nat) (op : Nat) (g : Nat),
    s.spdmServes p = true →
    ((s.spdmTold p).conn p).sessions.find? (fun e => e.1 == session && e.2.1 == true) = some (session, true, g) →
    op = 1 ∨ op = 2 →
    exec (.keyUpdate p session op) s =
      .next (((s.spdmTold p).putSession p session (some (true, g + 1))).spdmSend p 0x69 [session, op])) ∧
  (∀ (s : State) (p : Party) (session : Nat) (g : Nat),
    s.spdmServes p = true →
    ((s.spdmTold p).conn p).sessions.find? (fun e => e.1 == session && e.2.1 == true) = some (session, true, g) →
    exec (.keyUpdate p session 3) s =
      .next ((s.spdmTold p).spdmSend p 0x69 [session, 3])) ∧
  (∀ (s : State) (p : Party) (session : Nat) (op : Nat) (g : Nat),
    s.spdmServes p = true →
    ((s.spdmTold p).conn p).sessions.find? (fun e => e.1 == session && e.2.1 == true) = some (session, true, g) →
    op ≠ 1 →
    op ≠ 2 →
    op ≠ 3 →
    exec (.keyUpdate p session op) s =
      .next ((s.spdmTold p).spdmError p 1)) ∧
  (∀ (s : State) (p : Party) (session : Nat) (g : Nat),
    s.spdmServes p = true →
    ((s.spdmTold p).conn p).sessions.find? (fun e => e.1 == session && e.2.1 == true) = some (session, true, g) →
    exec (.endSession p session) s =
      .next (((s.spdmTold p).putSession p session none).spdmSend p 0x6C [session])) ∧
  (∀ (s : State) (pf : Nat),
    s.spdmServes (.doe pf) = false →
    exec (.getVersion (.doe pf)) s = .next s) ∧
  (∀ (s : State) (pf : Nat),
    s.spdmServes (.doe pf) = false →
    exec (.getCapabilities (.doe pf)) s = .next s) ∧
  (∀ (s : State) (pf : Nat) (offered : Bool),
    s.spdmServes (.doe pf) = false →
    exec (.negotiateAlgorithms (.doe pf) offered) s = .next s) ∧
  (∀ (s : State) (pf : Nat),
    s.spdmServes (.doe pf) = false →
    exec (.getDigests (.doe pf)) s = .next s) ∧
  (∀ (s : State) (pf : Nat) (slot off len : Nat),
    s.spdmServes (.doe pf) = false →
    exec (.getCertificate (.doe pf) slot off len) s = .next s) ∧
  (∀ (s : State) (pf : Nat) (slot : Nat),
    s.spdmServes (.doe pf) = false →
    exec (.challenge (.doe pf) slot) s = .next s) ∧
  (∀ (s : State) (pf : Nat) (index : Nat),
    s.spdmServes (.doe pf) = false →
    exec (.getMeasurements (.doe pf) index) s = .next s) ∧
  (∀ (s : State) (pf : Nat) (slot : Nat),
    s.spdmServes (.doe pf) = false →
    exec (.keyExchange (.doe pf) slot) s = .next s) ∧
  (∀ (s : State) (pf : Nat) (session : Nat) (ok : Bool),
    s.spdmServes (.doe pf) = false →
    exec (.finish (.doe pf) session ok) s = .next s) ∧
  (∀ (s : State) (pf : Nat) (session : Nat),
    s.spdmServes (.doe pf) = false →
    exec (.heartbeat (.doe pf) session) s = .next s) ∧
  (∀ (s : State) (pf : Nat) (session op : Nat),
    s.spdmServes (.doe pf) = false →
    exec (.keyUpdate (.doe pf) session op) s = .next s) ∧
  (∀ (s : State) (pf : Nat) (session : Nat),
    s.spdmServes (.doe pf) = false →
    exec (.endSession (.doe pf) session) s = .next s)

/-- A register write reaches its register where BAR2 can be reached, and has no effect elsewhere; a poisoned one is discarded and reported; a write of 1 to SEAL seals, a write of 1 to DEV_RESET.DEVICE by the lock's holder resets the device, and by anyone else is reported and has no other effect. Where the spec leaves a point open, it rests on the model's choices of log entries 37, 39, 49, 72, 84 and 87. -/
def Obligations.RegisterCommands : Prop :=
  (∀ (s : State) (pf off len : Nat) (d : WriteData),
    s.barReached pf = true →
    d.poison = false →
    exec (.registerWrite pf off len d) s = .next ((s.wakeEvent 6).barWrite pf off len d.value)) ∧
  (∀ (s : State) (pf off len : Nat) (d : WriteData),
    s.barReached pf = true →
    d.poison = true →
    exec (.registerWrite pf off len d) s = .next ((s.wakeEvent 6).poisonIn pf)) ∧
  (∀ (s : State) (pf off len : Nat) (d : WriteData),
    s.barReached pf = false →
    exec (.registerWrite pf off len d) s = .next s) ∧
  (∀ (s : State),
    s.mode ≠ .off →
    s.mode ≠ .holdUp →
    exec .devSealWrite s = .next (s.wakeEvent 6).sealSet) ∧
  (∀ (s : State) (pf : Nat) (env : BootEnv),
    s.barReached pf = true →
    ((s.wakeEvent 6).mgmt.lock.isSome && (s.wakeEvent 6).mgmt.lock = holderOf (.host pf 0 0)) = true →
    exec (.devResetWrite pf env) s = .next ((s.wakeEvent 6).deviceReset 1 env)) ∧
  (∀ (s : State) (pf : Nat) (env : BootEnv),
    s.barReached pf = true →
    ((s.wakeEvent 6).mgmt.lock.isSome && (s.wakeEvent 6).mgmt.lock = holderOf (.host pf 0 0)) = false →
    exec (.devResetWrite pf env) s = .next ((s.wakeEvent 6).post F.DEV_EVT_STATUS_RST_DENIED noUnit)) ∧
  (∀ (s : State) (pf : Nat) (env : BootEnv),
    s.barReached pf = false →
    exec (.devResetWrite pf env) s = .next s)

/-- For every state, command and queue, the step of the state whose queue has the command in front is exec of the command on the state with the queue's rest; with an empty queue the block idles (DESIGN CHOICE, log entry 1). -/
def Obligations.StepRunsTheFrontCommand : Prop :=
  (∀ (s : State) (c : Instr) (q : List Instr),
    step (s.withPending (c :: q)) = exec c (s.withPending q)) ∧
  (∀ (s : State),
    s.pending = [] →
    step s = .next s)

/-- After reset the block is at the start of BOOT with an empty queue, every register holds its reset value (the DEV_, STK_ and power registers named here as the register tables give them), the memory of the Scriptorium window is empty, and the invariant holds. Where the spec leaves a point open, it rests on the model's choices of log entries 13, 14 and 15. -/
def Obligations.ResetState : Prop :=
  (State.reset.inv = true) ∧
  (State.reset.mode = .boot ∧ State.reset.pending = [] ∧ State.reset.nib.window = [] ∧ State.reset.regs = []) ∧
  (∀ (key : Nat),
    State.reset.reg key = (regReset key).toNat) ∧
  (State.reset.regRead 0x0000 = 0x00B00048 ∧ State.reset.regRead 0x0004 = 1 ∧ State.reset.regRead 0x2028 = 0x000207D0)

/-- Storing a field inside a 32-bit register makes it read the value modulo its width; a field of the same register that shares no bit with it, every other register and every other part of the state keep their values. -/
def Obligations.RegisterFields : Prop :=
  (∀ (s : State) (f : Fld) (v : Nat),
    f.lo + f.w ≤ 32 →
    (s.setFld f v).fld f = v % 2 ^ f.w) ∧
  (∀ (s : State) (f g : Fld) (v : Nat),
    f.lo + f.w ≤ 32 →
    g.key = f.key →
    f.lo + f.w ≤ g.lo ∨ g.lo + g.w ≤ f.lo →
    (s.setFld f v).fld g = s.fld g) ∧
  (∀ (s : State) (f : Fld) (v k : Nat),
    k ≠ f.key →
    (s.setFld f v).reg k = s.reg k) ∧
  (∀ (s : State) (f : Fld) (v : Nat),
    s.setFld f v = { s with regs := (s.setFld f v).regs })

/-- A write of the enabled bytes changes RW fields unsealed; sealed, a register whose fields do not stay writable keeps its value, and SEALED_WR is set exactly where a field would have changed; W1C bits clear bit by bit where a 1 is written; a read-only register keeps its value; an aligned 8-byte access is two writes, the lower offset first, and an access that crosses a register boundary writes no register: it is an Unsupported Request, which the function logs. Where the spec leaves a point open, it rests on the model's choices of log entry 49. -/
def Obligations.HostRegisterWrites : Prop :=
  (∀ (s : State) (v : Nat),
    s.flag F.DEV_SEAL_SEAL = false →
    s.regWrite 0x2028 15 v =
      (s.setFld F.STK_AGE_STEP (v % 2 ^ 32 % 2 ^ 16)).setFld F.STK_AGE_CEIL (v % 2 ^ 32 / 2 ^ 16 % 2 ^ 3)) ∧
  (∀ (s : State) (v : Nat),
    s.flag F.DEV_SEAL_SEAL = true →
    (v % 2 ^ 32 % 2 ^ 16 != s.fld F.STK_AGE_STEP || v % 2 ^ 32 / 2 ^ 16 % 2 ^ 3 != s.fld F.STK_AGE_CEIL) = true →
    s.regWrite 0x2028 15 v = s.post F.DEV_EVT_STATUS_SEALED_WR noUnit) ∧
  (∀ (s : State) (v : Nat),
    s.flag F.DEV_SEAL_SEAL = true →
    (v % 2 ^ 32 % 2 ^ 16 != s.fld F.STK_AGE_STEP || v % 2 ^ 32 / 2 ^ 16 % 2 ^ 3 != s.fld F.STK_AGE_CEIL) = false →
    s.regWrite 0x2028 15 v = s) ∧
  (∀ (s : State) (v : Nat),
    s.regWrite 0x0018 15 v =
      [F.DEV_EVT_STATUS_D5_CE, F.DEV_EVT_STATUS_D5_UE_MAP, F.DEV_EVT_STATUS_D5_UE, F.DEV_EVT_STATUS_SEALED_WR,
        F.DEV_EVT_STATUS_RST_DENIED, F.DEV_EVT_STATUS_SAVE_FAIL].foldl (fun (s : State) f => if v.testBit f.lo then s.setFld f 0 else s) s) ∧
  (∀ (s : State) (be v : Nat),
    s.regWrite 0x0000 be v = s ∧ s.regWrite 0x0014 be v = s) ∧
  (∀ (s : State) (pf off v : Nat),
    off % 8 = 0 →
    off < 0x3FFF8 →
    s.barWrite pf off 8 v = (s.regWrite off 15 (v % 2 ^ 32)).regWrite (off + 4) 15 (v / 2 ^ 32)) ∧
  (∀ (s : State) (pf off len v : Nat),
    off + len < 0x40000 →
    len ≠ 8 ∨ off % 8 ≠ 0 →
    4 < off % 4 + len →
    s.barWrite pf off len v = (s.emit (.unsupported pf)).aerPost pf .unsupportedRequest)

/-- A write to an offset that no table lists changes nothing and a read of it returns 0, inside a block and in the two ranges 0x0000_E000 to 0x0000_FFFF and 0x0008_0000 to 0x000F_FFFF. -/
def Obligations.ReservedOffsets : Prop :=
  (∀ (s : State) (off be v : Nat),
    regDesc off = none →
    off < 0x40000 ∨ 0x80000 ≤ off →
    s.regWrite off be v = s ∧ s.regRead off = 0) ∧
  (∀ (off : Nat),
    (0xE000 ≤ off ∧ off ≤ 0xFFFF) ∨ (0x80000 ≤ off ∧ off ≤ 0xFFFFF) →
    regDesc off = none) ∧
  (∀ (s : State) (pf off len v : Nat),
    s.barReached pf = true →
    1 ≤ len →
    off % 4 + len ≤ 4 →
    regDesc (off / 4 * 4) = none →
    off + 4 < 0x40000 ∨ 0x80000 ≤ off →
    exec (.registerWrite pf off len { value := v }) s = .next (s.wakeEvent 6))

/-- Unsealed, a write of n bytes at an offset of the window stores each byte at its place and leaves every other byte; the window stays in its canonical form; sealed, the write is discarded. Where the spec leaves a point open, it rests on the model's choices of log entry 15. -/
def Obligations.ScriptoriumWindow : Prop :=
  (∀ (s : State) (off n v a : Nat),
    s.flag F.DEV_SEAL_SEAL = false →
    0x40000 ≤ off →
    windowByte (s.scrWrite off n v).nib.window a =
      if off - 0x40000 ≤ a ∧ a < off - 0x40000 + n then BitVec.ofNat 8 (v / 2 ^ (8 * (a - (off - 0x40000)))) else windowByte s.nib.window a) ∧
  (∀ (s : State) (off n v : Nat),
    Memory.wf s.nib.window = true →
    Memory.wf (s.scrWrite off n v).nib.window = true) ∧
  (∀ (s : State) (off n v : Nat),
    s.flag F.DEV_SEAL_SEAL = true →
    s.scrWrite off n v = s)

/-- In RUN, DEGRADED, TRIAL and SAFE, an occurrence of a source whose bit is 0 sets the bit, writes a log entry where it is logged and sends its messages; one whose bit is 1 only adds 1 to COUNT of the source's newest entry, or writes a new entry where that has been overwritten or shows another class; in OFF a source of groups 9 and 10 whose bit is 0 sets it and raises its alert, and nothing else happens; DOZE defers a source outside the power and thermal groups. Where the spec leaves a point open, it rests on the model's choices of log entries 5, 37, 61, 72 and 79. -/
def Obligations.EventPosting : Prop :=
  (∀ (s : State) (f : Fld) (unit src : Nat),
    sourceOf f.key f.lo = some src →
    src < 512 →
    s.mode = .run ∨ s.mode = .degraded ∨ s.mode = .trial ∨ s.mode = .safe →
    s.flag f = false →
    s.post f unit =
      (if classOf f = 0 then (let s1 := s.setFld f 1
        let s2 := if sourceClass src != 0 || s1.flag (F.EVU_ROUTE_LOG_EN src) then s1.logEntry src (classOf f) unit (s1.reg f.key) else s1
        (s2.sendAll (s2.msgsFor src (classOf f) (classAer (classOf f)))).sendOwn s1) else (let s1 := s.setFld f 1
        let s2 := if sourceClass src != 0 || s1.flag (F.EVU_ROUTE_LOG_EN src) then s1.logEntry src (classOf f) unit (s1.reg f.key) else s1
        (s2.sendAll (s2.msgsFor src (classOf f) (classAer (classOf f)))).sendOwn s1).wakeEvent 15)) ∧
  (∀ (s : State) (f : Fld) (unit src : Nat) (e : LogEntry),
    sourceOf f.key f.lo = some src →
    src < 512 →
    s.mode = .run ∨ s.mode = .degraded ∨ s.mode = .trial ∨ s.mode = .safe →
    s.flag f = true →
    (s.evu.log.find? (fun e => e.source == src) = some e) →
    (e.cls = (if classOf f = 0 then 0xFF else classOf f)) →
    s.post f unit =
      { s.setFld f 1 with evu := { s.evu with
        log := s.evu.log.modify (s.evu.log.findIdx (fun e => e.source == src)) (fun e => { e with count := e.count + 1 }) } }) ∧
  (∀ (s : State) (f : Fld) (unit src : Nat),
    sourceOf f.key f.lo = some src →
    src < 512 →
    s.mode = .run ∨ s.mode = .degraded ∨ s.mode = .trial ∨ s.mode = .safe →
    s.flag f = true →
    (s.evu.log.find? (fun e => e.source == src) = none) →
    s.post f unit =
      (let s1 := s.setFld f 1
        if sourceClass src != 0 || s.flag (F.EVU_ROUTE_LOG_EN src) then (s1.logEntry src (classOf f) unit (s1.reg f.key)).sendOwn s1 else s1)) ∧
  (∀ (s : State) (f : Fld) (unit src : Nat) (e : LogEntry),
    sourceOf f.key f.lo = some src →
    src < 512 →
    s.mode = .run ∨ s.mode = .degraded ∨ s.mode = .trial ∨ s.mode = .safe →
    s.flag f = true →
    (s.evu.log.find? (fun e => e.source == src) = some e) →
    (e.cls ≠ (if classOf f = 0 then 0xFF else classOf f)) →
    s.post f unit = (let s1 := s.setFld f 1
        let s2 := if sourceClass src != 0 || s1.flag (F.EVU_ROUTE_LOG_EN src) then s1.logEntry src (classOf f) unit (s1.reg f.key) else s1
        (s2.sendAll (s2.msgsFor src (classOf f) (classAer (classOf f)))).sendOwn s1)) ∧
  (∀ (s : State) (f : Fld) (unit src : Nat),
    s.mode = .off →
    sourceOf f.key f.lo = some src →
    ((src / 32 = 9 ∨ src / 32 = 10) → s.sourceSet f src = true) →
    s.post f unit = s) ∧
  (∀ (s : State) (f : Fld) (unit src : Nat),
    s.mode = .off →
    sourceOf f.key f.lo = some src →
    src / 32 = 9 ∨ src / 32 = 10 →
    s.sourceSet f src = false →
    s.post f unit = (alertsOf ((s.setFld f 1).msgsFor src (classOf f) (classAer (classOf f)))).foldl State.sendMsg (s.setFld f 1)) ∧
  (∀ (s : State) (f : Fld) (unit src : Nat),
    s.mode = .doze →
    sourceOf f.key f.lo = some src →
    src / 32 ≠ 9 →
    src / 32 ≠ 10 →
    src ≠ 416 →
    src ≠ 417 →
    s.post f unit = { s with evu := { s.evu with deferred := s.evu.deferred ++ [(f.key, f.lo, unit)] } }) ∧
  (∀ (s : State) (src cls unit detail : Nat),
    s.inv = true →
    s.evu.log.length < 1024 ∨ s.evu.wasRead = true →
    (s.logEntry src cls unit detail).evu.log.length = min 1024 (s.evu.log.length + 1) ∧
      (s.logEntry src cls unit detail).evu.log.head?.map (fun e => (e.source, e.count, e.unit, e.detail)) = some (src, 1, unit, detail) ∧
      (s.logEntry src cls unit detail).evu.total = s.evu.total + 1) ∧
  (∀ (s : State) (src cls unit detail : Nat),
    s.evu.log.length = 1024 →
    s.evu.wasRead = false →
    s.logEntry src cls unit detail =
      (s.ringEntry src cls unit detail).ownEntry F.EVU_EVT_STATUS_LOG_WRAP)

/-- A stroke that was requested in class 4 or 5 and has waited STK_AGE.STEP µs, or a further STEP µs since its last promotion, is promoted by one class where its class number is above STK_AGE.CEIL; no stroke gets a class number below CEIL from it, and before the step is over nothing changes. -/
def Obligations.StrokeAgeing : Prop :=
  (∀ (s : State) (k : Stroke),
    k ∈ s.stk.strokes →
    k.phase = .waiting →
    4 ≤ k.cls0 →
    s.fld F.STK_AGE_CEIL < k.cls →
    k.since + s.fld F.STK_AGE_STEP * usT ≤ s.now →
    ∃ t : State, exec (.strokeAgePromote k.req) s = .next t ∧ { k with cls := k.cls - 1, since := k.since + s.fld F.STK_AGE_STEP * usT } ∈ t.stk.strokes) ∧
  (∀ (s t : State) (req : Nat) (k : Stroke),
    exec (.strokeAgePromote req) s = .next t →
    k ∈ t.stk.strokes →
    k ∈ s.stk.strokes ∨ s.fld F.STK_AGE_CEIL ≤ k.cls) ∧
  (∀ (s : State) (req : Nat),
    (s.stk.strokes.all (fun k => k.req != req || s.now < k.since + s.fld F.STK_AGE_STEP * usT) = true) →
    exec (.strokeAgePromote req) s = .next s)

/-- An output of a stream that has been held for 128 ns sets TINE_EVT_STATUS.MERGE_GAP for the stream and enters SAFE with media halted, cause 0x0B; as long as none has, nothing happens. -/
def Obligations.MergeGap : Prop :=
  (∀ (s : State) (stream : Nat),
    (s.tine.held.any (fun h => h.stream == stream && h.at_ + 128 * nsT ≤ s.now) = true) →
    ∃ d : Bool, exec (.mergeGapTimeout stream) s =
      .next ((({ s with tine := { s.tine with dead := d } }).post F.TINE_EVT_STATUS_MERGE_GAP stream).enterSafe 0x0B true)) ∧
  (∀ (s : State) (stream : Nat),
    (s.tine.held.any (fun h => h.stream == stream && h.at_ + 128 * nsT ≤ s.now) = false) →
    exec (.mergeGapTimeout stream) s = .next s)

/-- A tail or head value that lies outside its queue is ignored, from a BAR doorbell and from a shadow doorbell alike: the queue keeps its value, and the asynchronous event Invalid Doorbell Write Value is raised, in one event group of the base, whatever its number. -/
def Obligations.InvalidDoorbells : Prop :=
  ∃ g : Nat, (∀ (s : State) (ctrl qid value : Nat) (q : Sq),
    s.mode ≠ .off →
    s.mode ≠ .holdUp →
    (s.qe.ctrls.any (fun c => c.id == ctrl) = true) →
    qid < doorbells ctrl →
    (s.wakeEvent 6).sq ctrl qid = some q →
    q.size ≤ value →
    exec (.doorbellWrite ctrl qid false value false) s = .next ((s.wakeEvent 6).aenTo g ctrl)) ∧
  (∀ (s : State) (ctrl qid value : Nat) (q : Cq),
    s.mode ≠ .off →
    s.mode ≠ .holdUp →
    (s.qe.ctrls.any (fun c => c.id == ctrl) = true) →
    qid < doorbells ctrl →
    (s.wakeEvent 6).cq ctrl qid = some q →
    q.size ≤ value →
    exec (.doorbellWrite ctrl qid true value false) s = .next ((s.wakeEvent 6).aenTo g ctrl)) ∧
  (∀ (s : State) (ctrl qid value : Nat) (heads : List (Nat × Nat)) (k : Ctrl) (q : Sq),
    s.ctrl ctrl = some k →
    s.sq ctrl qid = some q →
    k.shadowDb = true →
    q.active = true →
    s.fetches = true →
    s.hp.d3hot.contains ctrl = false →
    q.size ≤ value →
    exec (.shadowTailPoll ctrl qid value heads) s =
      .next ((heads.foldl (fun (s : State) h => s.memRead (.head ctrl h.1 h.2) .ok []) s).aenTo g ctrl)) ∧
  (∀ (s : State) (ctrl qid value : Nat) (q : Cq),
    (s.qe.cqs.find? (fun k => k.ctrl == ctrl && k.qid == qid) = some q) →
    q.size ≤ value →
    s.headGot ctrl qid value =
      (let t := s.aenTo g ctrl;
        { t with qe := { t.qe with cqs := updWhere (fun x => x.ctrl == ctrl && x.qid == qid) (fun k => if k.isFull then { k with eventIdx := k.head } else k) t.qe.cqs } })) ∧
  (∀ (s : State) (group ctrl : Nat),
    (s.aenTo group ctrl).qe.sqs = s.qe.sqs)

/-- Whatever the state, whatever the command and its operands, exec answers a next state: no command faults and none is refused. So does every step. Where the spec leaves a point open, it rests on the model's choices of log entries 3 and 4. -/
def Obligations.EveryCommandGoesOn : Prop :=
  (∀ (c : Instr) (s : State),
    ∃ t : State, exec c s = .next t) ∧
  (∀ (s : State),
    s.goesOn)

/-- From every state in which the register file and the Scriptorium window are in their canonical form, the health-log ring holds at most 1,024 entries with its 64 class counts, and there are two ports, 16 XTS lanes and 32 junction sensors, a step leads to such a state again. -/
def Obligations.EveryStepKeepsTheInvariant : Prop :=
  (∀ (s t : State),
    s.inv = true →
    step s = .next t →
    t.inv = true)

/-- Whatever command runs, the queue after a step is the queue before it without its front command: commands are taken first in, first out, and none is added, dropped or moved. -/
def Obligations.StepTakesOnlyTheFront : Prop :=
  (∀ (s t : State),
    s.inv = true →
    step s = .next t →
    t.pending = s.pending.tail)

/-- No step takes the counter of boots back. -/
def Obligations.BootSeqNeverGoesBack : Prop :=
  (∀ (s t : State),
    s.inv = true →
    step s = .next t →
    s.fol.bootSeq ≤ t.fol.bootSeq)

/-- The Ordering Point stamps a command with the ruling copy of its island, or with the previous stamp plus 1/256 ns where the copy has not advanced past it; of the commands that a pass of the Ordering Point stamps, every one gets an ink time above every ink time given before, and the newest ink time never goes back. -/
def Obligations.InkTimes : Prop :=
  (∀ (s : State) (c : Cmd) (bs : Nat),
    (s.stampCmd c bs).map.lastInk = max (s.nowAt islQueue) (s.map.lastInk + 1)) ∧
  (∀ (s : State) (c k : Cmd) (bs : Nat),
    k ∈ (s.stampCmd c bs).qe.cmds →
    k.ref = c.ref →
    k.ink = some (max (s.nowAt islQueue) (s.map.lastInk + 1))) ∧
  (∀ (fuel : Nat) (s : State) (k : Cmd),
    k ∈ (s.stampReady fuel).qe.cmds →
    (∃ k2 : Cmd, k2 ∈ s.qe.cmds ∧ k2.ref = k.ref ∧ k2.ink = k.ink) ∨ ∃ i : Nat, k.ink = some i ∧ s.map.lastInk < i ∧ i ≤ (s.stampReady fuel).map.lastInk) ∧
  (∀ (fuel : Nat) (s : State),
    s.map.lastInk ≤ (s.stampReady fuel).map.lastInk)

end
end

