-- ==== Sys2Proof/Laws/Begin.lean ====
section
/-! SUPPORT. How a fetched command starts. -/

namespace Sys2Proof.Machine

/-- A command that can have been fetched does its work on the state in which it holds its tag. -/
theorem begin_accepted {s : State} {ref : Ref} (k : State → State) (h : s.accepts ref = true) :
    s.begin ref k = .next (k (s.latch ref)) := by
  simp [State.begin, h]

/-- A command that cannot have been fetched changes nothing. -/
theorem begin_ignored {s : State} {ref : Ref} (k : State → State) (h : s.accepts ref = false) :
    s.begin ref k = .next s := by
  simp [State.begin, h]

end Sys2Proof.Machine
end

