-- ==== Sys2Proof/Laws/Bits.lean ====
section
/-! SUPPORT. Laws of the bit fields: what a field reads after a field has been written. -/

namespace Sys2Proof

theorem testBit_bitsOf (v lo w i : Nat) : (bitsOf v lo w).testBit i = (decide (i < w) && v.testBit (lo + i)) := by
  unfold bitsOf
  rw [Nat.testBit_mod_two_pow, Nat.testBit_div_two_pow, Nat.add_comm]

theorem testBit_bitsPut (v lo w x i : Nat) :
    (bitsPut v lo w x).testBit i = if i < lo then v.testBit i else if i < lo + w then x.testBit (i - lo) else v.testBit i := by
  have e : bitsPut v lo w x = 2 ^ lo * (2 ^ w * (v / 2 ^ (lo + w)) + x % 2 ^ w) + v % 2 ^ lo := by
    unfold bitsPut
    have e1 : v / 2 ^ (lo + w) * 2 ^ (lo + w) = 2 ^ lo * (2 ^ w * (v / 2 ^ (lo + w))) := by
      rw [← Nat.mul_assoc, ← Nat.pow_add, Nat.mul_comm]
    rw [e1, Nat.mul_add, Nat.mul_comm (x % 2 ^ w) (2 ^ lo)]
    omega
  rw [e, Nat.testBit_two_pow_mul_add _ (Nat.mod_lt _ (Nat.two_pow_pos lo))]
  split
  · rename_i h
    rw [Nat.testBit_mod_two_pow]; simp [h]
  · rename_i h
    rw [Nat.testBit_two_pow_mul_add _ (Nat.mod_lt _ (Nat.two_pow_pos w))]
    by_cases h2 : i < lo + w
    · rw [if_pos (by omega), if_pos h2, Nat.testBit_mod_two_pow]
      have : i - lo < w := by omega
      simp [this]
    · rw [if_neg (by omega), if_neg h2, Nat.testBit_div_two_pow]
      congr 1; omega

/-- A field reads what was written to it, taken modulo its width. -/
theorem bitsOf_bitsPut_eq (v lo w x : Nat) : bitsOf (bitsPut v lo w x) lo w = x % 2 ^ w := by
  apply Nat.eq_of_testBit_eq
  intro i
  rw [testBit_bitsOf, testBit_bitsPut, Nat.testBit_mod_two_pow, if_neg (by omega)]
  by_cases h : i < w
  · rw [if_pos (by omega)]; simp [h]
  · simp [h]

/-- A field that shares no bit with the written one keeps its value. -/
theorem bitsOf_bitsPut_ne (v lo w x lo' w' : Nat) (h : lo + w ≤ lo' ∨ lo' + w' ≤ lo) :
    bitsOf (bitsPut v lo w x) lo' w' = bitsOf v lo' w' := by
  apply Nat.eq_of_testBit_eq
  intro i
  rw [testBit_bitsOf, testBit_bitsOf, testBit_bitsPut]
  by_cases hi : i < w'
  · simp only [hi, decide_true, Bool.true_and]
    by_cases h1 : lo' + i < lo
    · rw [if_pos h1]
    · rw [if_neg h1, if_neg (by omega)]
  · simp [hi]

/-- A write of a field inside a 32-bit register stays inside it. -/
theorem bitsPut_lt (v lo w x : Nat) (hv : v < 2 ^ 32) (h : lo + w ≤ 32) : bitsPut v lo w x < 2 ^ 32 := by
  apply Nat.lt_pow_two_of_testBit
  intro i hi
  rw [testBit_bitsPut, if_neg (by omega), if_neg (by omega)]
  exact Nat.testBit_lt_two_pow (Nat.lt_of_lt_of_le hv (Nat.pow_le_pow_right (by decide) hi))

end Sys2Proof
end

