-- ==== Sys2Proof/Laws/Exec.lean ====
section
/-! SUPPORT. Which meaning each command has: one equation per arm of the dispatch. -/

namespace Sys2Proof.Machine

@[simp] theorem exec_pfailNFall  (s : State) :
    exec (.pfailNFall) s = execPfailNFall s := rfl

@[simp] theorem exec_pfailDeglitchExpire  (s : State) :
    exec (.pfailDeglitchExpire) s = execPfailDeglitchExpire s := rfl

@[simp] theorem exec_pfailNRise  (s : State) :
    exec (.pfailNRise) s = execPfailNRise s := rfl

@[simp] theorem exec_pgoodTimerExpire  (s : State) :
    exec (.pgoodTimerExpire) s = execPgoodTimerExpire s := rfl

@[simp] theorem exec_holdupEntry (clk : AonClock) (ticks : Nat) (s : State) :
    exec (.holdupEntry clk ticks) s = execHoldupEntry clk ticks s := rfl

@[simp] theorem exec_holdupDumpDeadline  (s : State) :
    exec (.holdupDumpDeadline) s = execHoldupDumpDeadline s := rfl

@[simp] theorem exec_holdupDumpComplete  (s : State) :
    exec (.holdupDumpComplete) s = execHoldupDumpComplete s := rfl

@[simp] theorem exec_powerUpStepDone (k : Nat) (env : BootEnv) (s : State) :
    exec (.powerUpStepDone k env) s = execPowerUpStepDone k env s := rfl

@[simp] theorem exec_powerDownStepDone (k : Nat) (s : State) :
    exec (.powerDownStepDone k) s = execPowerDownStepDone k s := rfl

@[simp] theorem exec_minOffTimeExpire  (s : State) :
    exec (.minOffTimeExpire) s = execMinOffTimeExpire s := rfl

@[simp] theorem exec_railGoodTimeout  (s : State) :
    exec (.railGoodTimeout) s = execRailGoodTimeout s := rfl

@[simp] theorem exec_railOutOfLimits  (s : State) :
    exec (.railOutOfLimits) s = execRailOutOfLimits s := rfl

@[simp] theorem exec_vaux33Loss  (s : State) :
    exec (.vaux33Loss) s = execVaux33Loss s := rfl

@[simp] theorem exec_thermalSensorSample (temps : List Int) (s : State) :
    exec (.thermalSensorSample temps) s = execThermalSensorSample temps s := rfl

@[simp] theorem exec_throttleLevelFall  (s : State) :
    exec (.throttleLevelFall) s = execThrottleLevelFall s := rfl

@[simp] theorem exec_rateOfRiseWindow  (s : State) :
    exec (.rateOfRiseWindow) s = execRateOfRiseWindow s := rfl

@[simp] theorem exec_thermalHoldRelease  (s : State) :
    exec (.thermalHoldRelease) s = execThermalHoldRelease s := rfl

@[simp] theorem exec_avsAckTimeout  (s : State) :
    exec (.avsAckTimeout) s = execAvsAckTimeout s := rfl

@[simp] theorem exec_avsReadbackPoll (vread : Nat) (s : State) :
    exec (.avsReadbackPoll vread) s = execAvsReadbackPoll vread s := rfl

@[simp] theorem exec_dozeIslandDelayExpire (us : Nat) (s : State) :
    exec (.dozeIslandDelayExpire us) s = execDozeIslandDelayExpire us s := rfl

@[simp] theorem exec_dozeAbortPoint  (s : State) :
    exec (.dozeAbortPoint) s = execDozeAbortPoint s := rfl

@[simp] theorem exec_dozeEntryRetry  (s : State) :
    exec (.dozeEntryRetry) s = execDozeEntryRetry s := rfl

@[simp] theorem exec_dozeLoopWake (clk : AonClock) (ticks : Nat) (temps : List Int) (vnow : Nat) (s : State) :
    exec (.dozeLoopWake clk ticks temps vnow) s = execDozeLoopWake clk ticks temps vnow s := rfl

@[simp] theorem exec_rulingTick (upset : Upset) (s : State) :
    exec (.rulingTick upset) s = execRulingTick upset s := rfl

@[simp] theorem exec_linePulse  (s : State) :
    exec (.linePulse) s = execLinePulse s := rfl

@[simp] theorem exec_lineAnnouncement (island count : Nat) (s : State) :
    exec (.lineAnnouncement island count) s = execLineAnnouncement island count s := rfl

@[simp] theorem exec_syncInEdge  (s : State) :
    exec (.syncInEdge) s = execSyncInEdge s := rfl

@[simp] theorem exec_syncInLossTimeout  (s : State) :
    exec (.syncInLossTimeout) s = execSyncInLossTimeout s := rfl

@[simp] theorem exec_rulingStepApply  (s : State) :
    exec (.rulingStepApply) s = execRulingStepApply s := rfl

@[simp] theorem exec_ptmDialogStart  (s : State) :
    exec (.ptmDialogStart) s = execPtmDialogStart s := rfl

@[simp] theorem exec_ptmResponse (port : Nat) (master : Int) (s : State) :
    exec (.ptmResponse port master) s = execPtmResponse port master s := rfl

@[simp] theorem exec_ptmDialogTimeout (port : Nat) (s : State) :
    exec (.ptmDialogTimeout port) s = execPtmDialogTimeout port s := rfl

@[simp] theorem exec_todArm  (s : State) :
    exec (.todArm) s = execTodArm s := rfl

@[simp] theorem exec_rulNowLoRead  (s : State) :
    exec (.rulNowLoRead) s = execRulNowLoRead s := rfl

@[simp] theorem exec_loHiPairRead (off : BarRead) (s : State) :
    exec (.loHiPairRead off) s = execLoHiPairRead off s := rfl

@[simp] theorem exec_rulingStepAuthorize (ref : Ref) (cdw10 : Nat) (s : State) :
    exec (.rulingStepAuthorize ref cdw10) s = execRulingStepAuthorize ref cdw10 s := rfl

@[simp] theorem exec_strokePlace  (s : State) :
    exec (.strokePlace) s = execStrokePlace s := rfl

@[simp] theorem exec_strokeAgePromote (req : Nat) (s : State) :
    exec (.strokeAgePromote req) s = execStrokeAgePromote req s := rfl

@[simp] theorem exec_descriptorAccept (nib seq : Nat) (s : State) :
    exec (.descriptorAccept nib seq) s = execDescriptorAccept nib seq s := rfl

@[simp] theorem exec_strokeDueLine (nib seq : Nat) (ofs : Int) (busHeld : Bool) (s : State) :
    exec (.strokeDueLine nib seq ofs busHeld) s = execStrokeDueLine nib seq ofs busHeld s := rfl

@[simp] theorem exec_quillContextStart (nib seq : Nat) (par : Par) (s : State) :
    exec (.quillContextStart nib seq par) s = execQuillContextStart nib seq par s := rfl

@[simp] theorem exec_strokeComplete (nib : Nat) (s : State) :
    exec (.strokeComplete nib) s = execStrokeComplete nib s := rfl

@[simp] theorem exec_strokeOverrun (req : Nat) (s : State) :
    exec (.strokeOverrun req) s = execStrokeOverrun req s := rfl

@[simp] theorem exec_slowWindowEnd  (s : State) :
    exec (.slowWindowEnd) s = execSlowWindowEnd s := rfl

@[simp] theorem exec_statusPoll (lun sr : Nat) (s : State) :
    exec (.statusPoll lun sr) s = execStatusPoll lun sr s := rfl

@[simp] theorem exec_rbNRise (lun sr : Nat) (s : State) :
    exec (.rbNRise lun sr) s = execRbNRise lun sr s := rfl

@[simp] theorem exec_strokeTimeout (nib seq : Nat) (s : State) :
    exec (.strokeTimeout nib seq) s = execStrokeTimeout nib seq s := rfl

@[simp] theorem exec_resetWaitTimeout (lun : Nat) (s : State) :
    exec (.resetWaitTimeout lun) s = execResetWaitTimeout lun s := rfl

@[simp] theorem exec_nibTempRead (nib : Nat) (s : State) :
    exec (.nibTempRead nib) s = execNibTempRead nib s := rfl

@[simp] theorem exec_tempStaleTimeout (lun : Nat) (s : State) :
    exec (.tempStaleTimeout lun) s = execTempStaleTimeout lun s := rfl

@[simp] theorem exec_nibRetrain (nib : Nat) (s : State) :
    exec (.nibRetrain nib) s = execNibRetrain nib s := rfl

@[simp] theorem exec_nibCtrlRetrain (nib : Nat) (s : State) :
    exec (.nibCtrlRetrain nib) s = execNibCtrlRetrain nib s := rfl

@[simp] theorem exec_decoderKat (nib : Nat) (ok : Bool) (s : State) :
    exec (.decoderKat nib ok) s = execDecoderKat nib ok s := rfl

@[simp] theorem exec_busTransferDone (nib seq data : Nat) (cell : CellErr) (s : State) :
    exec (.busTransferDone nib seq data cell) s = execBusTransferDone nib seq data cell s := rfl

@[simp] theorem exec_codewordDecodeDone (nib seq : Nat) (ok : Bool) (bits unsat : Nat) (mis : Bool) (pband : Nat) (s : State) :
    exec (.codewordDecodeDone nib seq ok bits unsat mis pband) s = execCodewordDecodeDone nib seq ok bits unsat mis pband s := rfl

@[simp] theorem exec_next (nib ctx : Nat) (q : QIn) (s : State) :
    exec (.next nib ctx q) s = execNext nib ctx q s := rfl

@[simp] theorem exec_jump (nib ctx : Nat) (q : QIn) (s : State) :
    exec (.jump nib ctx q) s = execJump nib ctx q s := rfl

@[simp] theorem exec_br (nib ctx : Nat) (q : QIn) (s : State) :
    exec (.br nib ctx q) s = execBr nib ctx q s := rfl

@[simp] theorem exec_brn (nib ctx : Nat) (q : QIn) (s : State) :
    exec (.brn nib ctx q) s = execBrn nib ctx q s := rfl

@[simp] theorem exec_call (nib ctx : Nat) (q : QIn) (s : State) :
    exec (.call nib ctx q) s = execCall nib ctx q s := rfl

@[simp] theorem exec_ret (nib ctx : Nat) (q : QIn) (s : State) :
    exec (.ret nib ctx q) s = execRet nib ctx q s := rfl

@[simp] theorem exec_loop (nib ctx : Nat) (q : QIn) (s : State) :
    exec (.loop nib ctx q) s = execLoop nib ctx q s := rfl

@[simp] theorem exec_ldlc (nib ctx : Nat) (q : QIn) (s : State) :
    exec (.ldlc nib ctx q) s = execLdlc nib ctx q s := rfl

@[simp] theorem exec_wait (nib ctx : Nat) (q : QIn) (s : State) :
    exec (.wait nib ctx q) s = execWait nib ctx q s := rfl

@[simp] theorem exec_waitRelease (nib ctx : Nat) (s : State) :
    exec (.waitRelease nib ctx) s = execWaitRelease nib ctx s := rfl

@[simp] theorem exec_wline (nib ctx : Nat) (q : QIn) (s : State) :
    exec (.wline nib ctx q) s = execWline nib ctx q s := rfl

@[simp] theorem exec_wlineRelease (nib ctx : Nat) (s : State) :
    exec (.wlineRelease nib ctx) s = execWlineRelease nib ctx s := rfl

@[simp] theorem exec_tmExpire (nib ctx : Nat) (s : State) :
    exec (.tmExpire nib ctx) s = execTmExpire nib ctx s := rfl

@[simp] theorem exec_scribe (nib ctx : Nat) (q : QIn) (s : State) :
    exec (.scribe nib ctx q) s = execScribe nib ctx q s := rfl

@[simp] theorem exec_done (nib ctx : Nat) (s : State) :
    exec (.done nib ctx) s = execDone nib ctx s := rfl

@[simp] theorem exec_quillScrubRead (nib addr : Nat) (bad : Bool) (s : State) :
    exec (.quillScrubRead nib addr bad) s = execQuillScrubRead nib addr bad s := rfl

@[simp] theorem exec_nibRestartComplete (nib : Nat) (badTargets : List Nat) (s : State) :
    exec (.nibRestartComplete nib badTargets) s = execNibRestartComplete nib badTargets s := rfl

@[simp] theorem exec_linkTrainingComplete (port rate width faulty : Nat) (flit : Bool) (s : State) :
    exec (.linkTrainingComplete port rate width faulty flit) s = execLinkTrainingComplete port rate width faulty flit s := rfl

@[simp] theorem exec_linkRetrainTimer (port : Nat) (s : State) :
    exec (.linkRetrainTimer port) s = execLinkRetrainTimer port s := rfl

@[simp] theorem exec_retrainLink (port : Nat) (s : State) :
    exec (.retrainLink port) s = execRetrainLink port s := rfl

@[simp] theorem exec_perstAssert (port : Nat) (s : State) :
    exec (.perstAssert port) s = execPerstAssert port s := rfl

@[simp] theorem exec_perstDeassert (port : Nat) (strap : Bool) (s : State) :
    exec (.perstDeassert port strap) s = execPerstDeassert port strap s := rfl

@[simp] theorem exec_hotReset (port : Nat) (s : State) :
    exec (.hotReset port) s = execHotReset port s := rfl

@[simp] theorem exec_linkDown (port : Nat) (s : State) :
    exec (.linkDown port) s = execLinkDown port s := rfl

@[simp] theorem exec_functionLevelReset (fn : Nat) (s : State) :
    exec (.functionLevelReset fn) s = execFunctionLevelReset fn s := rfl

@[simp] theorem exec_nvmSubsystemReset (env : BootEnv) (s : State) :
    exec (.nvmSubsystemReset env) s = execNvmSubsystemReset env s := rfl

@[simp] theorem exec_configSpaceReady (port : Nat) (cfg : CfgSpace) (s : State) :
    exec (.configSpaceReady port cfg) s = execConfigSpaceReady port cfg s := rfl

@[simp] theorem exec_memoryReadCompletion (what : MemRead) (res : MemIn) (s : State) :
    exec (.memoryReadCompletion what res) s = execMemoryReadCompletion what res s := rfl

@[simp] theorem exec_completionTimeout (what : MemRead) (s : State) :
    exec (.completionTimeout what) s = execCompletionTimeout what s := rfl

@[simp] theorem exec_invalidateRequest (port itag fn lo n : Nat) (waits : List (Ref × Nat)) (s : State) :
    exec (.invalidateRequest port itag fn lo n waits) s = execInvalidateRequest port itag fn lo n waits s := rfl

@[simp] theorem exec_invalidateCompletion (port : Nat) (s : State) :
    exec (.invalidateCompletion port) s = execInvalidateCompletion port s := rfl

@[simp] theorem exec_translationCompletion (port fn page xlat issued : Nat) (s : State) :
    exec (.translationCompletion port fn page xlat issued) s = execTranslationCompletion port fn page xlat issued s := rfl

@[simp] theorem exec_l0pRequest (port width : Nat) (s : State) :
    exec (.l0pRequest port width) s = execL0pRequest port width s := rfl

@[simp] theorem exec_d3hotEntry (fn : Nat) (s : State) :
    exec (.d3hotEntry fn) s = execD3hotEntry fn s := rfl

@[simp] theorem exec_vectorUnmask (fn : Nat) (vec : MaskWrite) (s : State) :
    exec (.vectorUnmask fn vec) s = execVectorUnmask fn vec s := rfl

@[simp] theorem exec_doeDataObject (pf kind len : Nat) (s : State) :
    exec (.doeDataObject pf kind len) s = execDoeDataObject pf kind len s := rfl

@[simp] theorem exec_doeAbort (pf : Nat) (s : State) :
    exec (.doeAbort pf) s = execDoeAbort pf s := rfl

@[simp] theorem exec_doorbellWrite (ctrl qid : Nat) (isCq : Bool) (value : Nat) (poison : Bool) (s : State) :
    exec (.doorbellWrite ctrl qid isCq value poison) s = execDoorbellWrite ctrl qid isCq value poison s := rfl

@[simp] theorem exec_shadowTailPoll (ctrl qid value : Nat) (heads : List (Nat × Nat)) (s : State) :
    exec (.shadowTailPoll ctrl qid value heads) s = execShadowTailPoll ctrl qid value heads s := rfl

@[simp] theorem exec_sqIdleTimeout (ctrl qid : Nat) (s : State) :
    exec (.sqIdleTimeout ctrl qid) s = execSqIdleTimeout ctrl qid s := rfl

@[simp] theorem exec_sqFetchGrant  (s : State) :
    exec (.sqFetchGrant) s = execSqFetchGrant s := rfl

@[simp] theorem exec_orderingPointStamp  (s : State) :
    exec (.orderingPointStamp) s = execOrderingPointStamp s := rfl

@[simp] theorem exec_controllerEnable (ctrl asqs acqs : Nat) (ams : CcWrite) (s : State) :
    exec (.controllerEnable ctrl asqs acqs ams) s = execControllerEnable ctrl asqs acqs ams s := rfl

@[simp] theorem exec_controllerReset (ctrl : Nat) (s : State) :
    exec (.controllerReset ctrl) s = execControllerReset ctrl s := rfl

@[simp] theorem exec_normalShutdown (ctrl : Nat) (s : State) :
    exec (.normalShutdown ctrl) s = execNormalShutdown ctrl s := rfl

@[simp] theorem exec_abruptShutdown (ctrl : Nat) (s : State) :
    exec (.abruptShutdown ctrl) s = execAbruptShutdown ctrl s := rfl

@[simp] theorem exec_createIoSq (ref : Ref) (qid qsize cqid prio : Nat) (pc : Bool) (s : State) :
    exec (.createIoSq ref qid qsize cqid prio pc) s = execCreateIoSq ref qid qsize cqid prio pc s := rfl

@[simp] theorem exec_createIoCq (ref : Ref) (qid qsize vector : Nat) (ien pc : Bool) (s : State) :
    exec (.createIoCq ref qid qsize vector ien pc) s = execCreateIoCq ref qid qsize vector ien pc s := rfl

@[simp] theorem exec_deleteIoSq (ref : Ref) (qid : Nat) (s : State) :
    exec (.deleteIoSq ref qid) s = execDeleteIoSq ref qid s := rfl

@[simp] theorem exec_deleteIoCq (ref : Ref) (qid : Nat) (s : State) :
    exec (.deleteIoCq ref qid) s = execDeleteIoCq ref qid s := rfl

@[simp] theorem exec_getLogPage (ref : Ref) (lid off len : Nat) (rae : Bool) (s : State) :
    exec (.getLogPage ref lid off len rae) s = execGetLogPage ref lid off len rae s := rfl

@[simp] theorem exec_getLogPageHealth (ref : Ref) (off len : Nat) (rae : Bool) (s : State) :
    exec (.getLogPageHealth ref off len rae) s = execGetLogPageHealth ref off len rae s := rfl

@[simp] theorem exec_identify (ref : Ref) (cns nsid cntid : Nat) (s : State) :
    exec (.identify ref cns nsid cntid) s = execIdentify ref cns nsid cntid s := rfl

@[simp] theorem exec_abort (ref : Ref) (sqid cid : Nat) (s : State) :
    exec (.abort ref sqid cid) s = execAbort ref sqid cid s := rfl

@[simp] theorem exec_setFeatures (ref : Ref) (fid nsid cdw11 : Nat) (save : Bool) (data : Nat) (s : State) :
    exec (.setFeatures ref fid nsid cdw11 save data) s = execSetFeatures ref fid nsid cdw11 save data s := rfl

@[simp] theorem exec_getFeatures (ref : Ref) (fid nsid sel cdw11 : Nat) (s : State) :
    exec (.getFeatures ref fid nsid sel cdw11) s = execGetFeatures ref fid nsid sel cdw11 s := rfl

@[simp] theorem exec_setFeaturesPowerMgmt (ref : Ref) (save : Bool) (cdw11 : Nat) (s : State) :
    exec (.setFeaturesPowerMgmt ref save cdw11) s = execSetFeaturesPowerMgmt ref save cdw11 s := rfl

@[simp] theorem exec_setFeaturesNumQueues (ref : Ref) (save : Bool) (cdw11 : Nat) (s : State) :
    exec (.setFeaturesNumQueues ref save cdw11) s = execSetFeaturesNumQueues ref save cdw11 s := rfl

@[simp] theorem exec_setFeaturesEnvelopeCap (ref : Ref) (save : Bool) (cdw11 : Nat) (s : State) :
    exec (.setFeaturesEnvelopeCap ref save cdw11) s = execSetFeaturesEnvelopeCap ref save cdw11 s := rfl

@[simp] theorem exec_setFeaturesRulingPriority (ref : Ref) (save : Bool) (cdw11 : Nat) (s : State) :
    exec (.setFeaturesRulingPriority ref save cdw11) s = execSetFeaturesRulingPriority ref save cdw11 s := rfl

@[simp] theorem exec_setFeaturesThermalLimits (ref : Ref) (save : Bool) (cdw11 : Nat) (s : State) :
    exec (.setFeaturesThermalLimits ref save cdw11) s = execSetFeaturesThermalLimits ref save cdw11 s := rfl

@[simp] theorem exec_setFeaturesOwnerUpdateLock (ref : Ref) (cdw11 : Nat) (token : Option OwnerToken) (s : State) :
    exec (.setFeaturesOwnerUpdateLock ref cdw11 token) s = execSetFeaturesOwnerUpdateLock ref cdw11 token s := rfl

@[simp] theorem exec_setFeaturesCompletionPolicy (ref : Ref) (nsid : Nat) (save : Bool) (cdw11 : Nat) (s : State) :
    exec (.setFeaturesCompletionPolicy ref nsid save cdw11) s = execSetFeaturesCompletionPolicy ref nsid save cdw11 s := rfl

@[simp] theorem exec_setFeaturesDeadlineReads (ref : Ref) (save : Bool) (cdw11 : Nat) (s : State) :
    exec (.setFeaturesDeadlineReads ref save cdw11) s = execSetFeaturesDeadlineReads ref save cdw11 s := rfl

@[simp] theorem exec_setFeaturesPatrolPeriod (ref : Ref) (save : Bool) (cdw11 : Nat) (s : State) :
    exec (.setFeaturesPatrolPeriod ref save cdw11) s = execSetFeaturesPatrolPeriod ref save cdw11 s := rfl

@[simp] theorem exec_setFeaturesInkTime (ref : Ref) (save : Bool) (cdw11 : Nat) (s : State) :
    exec (.setFeaturesInkTime ref save cdw11) s = execSetFeaturesInkTime ref save cdw11 s := rfl

@[simp] theorem exec_setFeaturesFdp (ref : Ref) (save enable : Bool) (s : State) :
    exec (.setFeaturesFdp ref save enable) s = execSetFeaturesFdp ref save enable s := rfl

@[simp] theorem exec_asyncEventRequest (ref : Ref) (s : State) :
    exec (.asyncEventRequest ref) s = execAsyncEventRequest ref s := rfl

@[simp] theorem exec_namespaceManagement (ref : Ref) (sel nsid blocks lbaf : Nat) (handles : List Nat) (s : State) :
    exec (.namespaceManagement ref sel nsid blocks lbaf handles) s = execNamespaceManagement ref sel nsid blocks lbaf handles s := rfl

@[simp] theorem exec_namespaceAttachment (ref : Ref) (sel nsid : Nat) (ctrls : List Nat) (s : State) :
    exec (.namespaceAttachment ref sel nsid ctrls) s = execNamespaceAttachment ref sel nsid ctrls s := rfl

@[simp] theorem exec_firmwareImageDownload (ref : Ref) (offset length : Nat) (chunks : List (Nat × PkgChunk)) (s : State) :
    exec (.firmwareImageDownload ref offset length chunks) s = execFirmwareImageDownload ref offset length chunks s := rfl

@[simp] theorem exec_firmwareCommitStore (ref : Ref) (slot : Nat) (s : State) :
    exec (.firmwareCommitStore ref slot) s = execFirmwareCommitStore ref slot s := rfl

@[simp] theorem exec_firmwareCommitActivate (ref : Ref) (slot : Nat) (s : State) :
    exec (.firmwareCommitActivate ref slot) s = execFirmwareCommitActivate ref slot s := rfl

@[simp] theorem exec_firmwareCommitSlotActivate (ref : Ref) (action slot : Nat) (s : State) :
    exec (.firmwareCommitSlotActivate ref action slot) s = execFirmwareCommitSlotActivate ref action slot s := rfl

@[simp] theorem exec_keepAlive (ref : Ref) (s : State) :
    exec (.keepAlive ref) s = execKeepAlive ref s := rfl

@[simp] theorem exec_directiveSend (ref : Ref) (nsid dtype doper cdw12 : Nat) (s : State) :
    exec (.directiveSend ref nsid dtype doper cdw12) s = execDirectiveSend ref nsid dtype doper cdw12 s := rfl

@[simp] theorem exec_directiveReceive (ref : Ref) (nsid dtype doper : Nat) (s : State) :
    exec (.directiveReceive ref nsid dtype doper) s = execDirectiveReceive ref nsid dtype doper s := rfl

@[simp] theorem exec_doorbellBufferConfig (ref : Ref) (prp1 prp2 : Nat) (s : State) :
    exec (.doorbellBufferConfig ref prp1 prp2) s = execDoorbellBufferConfig ref prp1 prp2 s := rfl

@[simp] theorem exec_formatNvm (ref : Ref) (nsid lbaf ses : Nat) (s : State) :
    exec (.formatNvm ref nsid lbaf ses) s = execFormatNvm ref nsid lbaf ses s := rfl

@[simp] theorem exec_sanitizeBlockErase (ref : Ref) (ause : Bool) (s : State) :
    exec (.sanitizeBlockErase ref ause) s = execSanitizeBlockErase ref ause s := rfl

@[simp] theorem exec_sanitizeCryptoErase (ref : Ref) (ause : Bool) (s : State) :
    exec (.sanitizeCryptoErase ref ause) s = execSanitizeCryptoErase ref ause s := rfl

@[simp] theorem exec_sanitizeExitFailure (ref : Ref) (sanact : Nat) (ause : Bool) (s : State) :
    exec (.sanitizeExitFailure ref sanact ause) s = execSanitizeExitFailure ref sanact ause s := rfl

@[simp] theorem exec_cutCreate (ref : Ref) (nsid cdw10 cdw11 cdw12 : Nat) (s : State) :
    exec (.cutCreate ref nsid cdw10 cdw11 cdw12) s = execCutCreate ref nsid cdw10 cdw11 cdw12 s := rfl

@[simp] theorem exec_cutRelease (ref : Ref) (cdw10 : Nat) (s : State) :
    exec (.cutRelease ref cdw10) s = execCutRelease ref cdw10 s := rfl

@[simp] theorem exec_scriptoriumLoad (ref : Ref) (cdw10 cdw11 cdw12 : Nat) (data : List Nat) (digest : Bool) (s : State) :
    exec (.scriptoriumLoad ref cdw10 cdw11 cdw12 data digest) s = execScriptoriumLoad ref cdw10 cdw11 cdw12 data digest s := rfl

@[simp] theorem exec_roleDrill (ref : Ref) (params : Nat) (reports : Bool) (s : State) :
    exec (.roleDrill ref params reports) s = execRoleDrill ref params reports s := rfl

@[simp] theorem exec_chainSweepMeasure (ref : Ref) (cdw10 : Nat) (s : State) :
    exec (.chainSweepMeasure ref cdw10) s = execChainSweepMeasure ref cdw10 s := rfl

@[simp] theorem exec_chainSweepRelay (ref : Ref) (cdw11 : Nat) (s : State) :
    exec (.chainSweepRelay ref cdw11) s = execChainSweepRelay ref cdw11 s := rfl

@[simp] theorem exec_lifecycleTransition (ref : Ref) (dest len : Nat) (token : LcToken) (s : State) :
    exec (.lifecycleTransition ref dest len token) s = execLifecycleTransition ref dest len token s := rfl

@[simp] theorem exec_authorityAcquire (ref : Ref) (s : State) :
    exec (.authorityAcquire ref) s = execAuthorityAcquire ref s := rfl

@[simp] theorem exec_authorityRelease (ref : Ref) (s : State) :
    exec (.authorityRelease ref) s = execAuthorityRelease ref s := rfl

@[simp] theorem exec_flush (ref : Ref) (nsid : Nat) (s : State) :
    exec (.flush ref nsid) s = execFlush ref nsid s := rfl

@[simp] theorem exec_write (ref : Ref) (nsid slba nlb : Nat) (fua : Bool) (dtype dspec : Nat) (gate : Option Ref) (s : State) :
    exec (.write ref nsid slba nlb fua dtype dspec gate) s = execWrite ref nsid slba nlb fua dtype dspec gate s := rfl

@[simp] theorem exec_read (ref : Ref) (nsid slba nlb : Nat) (deadline : ReadDue) (s : State) :
    exec (.read ref nsid slba nlb deadline) s = execRead ref nsid slba nlb deadline s := rfl

@[simp] theorem exec_writeUncorrectable (ref : Ref) (nsid slba nlb : Nat) (s : State) :
    exec (.writeUncorrectable ref nsid slba nlb) s = execWriteUncorrectable ref nsid slba nlb s := rfl

@[simp] theorem exec_compare (ref : Ref) (nsid slba nlb : Nat) (same : Comparison) (s : State) :
    exec (.compare ref nsid slba nlb same) s = execCompare ref nsid slba nlb same s := rfl

@[simp] theorem exec_writeZeroes (ref : Ref) (nsid slba nlb : Nat) (s : State) :
    exec (.writeZeroes ref nsid slba nlb) s = execWriteZeroes ref nsid slba nlb s := rfl

@[simp] theorem exec_datasetManagement (ref : Ref) (nsid cdw11 : Nat) (ranges : List (Nat × Nat)) (s : State) :
    exec (.datasetManagement ref nsid cdw11 ranges) s = execDatasetManagement ref nsid cdw11 ranges s := rfl

@[simp] theorem exec_secureDiscard (ref : Ref) (nsid cdw11 : Nat) (ranges : List (Nat × Nat)) (s : State) :
    exec (.secureDiscard ref nsid cdw11 ranges) s = execSecureDiscard ref nsid cdw11 ranges s := rfl

@[simp] theorem exec_reservationRegister (ref : Ref) (nsid rrega : Nat) (iekey : Bool) (cptpl crkey nrkey : Nat) (s : State) :
    exec (.reservationRegister ref nsid rrega iekey cptpl crkey nrkey) s = execReservationRegister ref nsid rrega iekey cptpl crkey nrkey s := rfl

@[simp] theorem exec_reservationReport (ref : Ref) (nsid : Nat) (eds : Bool) (s : State) :
    exec (.reservationReport ref nsid eds) s = execReservationReport ref nsid eds s := rfl

@[simp] theorem exec_reservationAcquire (ref : Ref) (nsid racqa : Nat) (iekey : Bool) (rtype crkey prkey : Nat) (s : State) :
    exec (.reservationAcquire ref nsid racqa iekey rtype crkey prkey) s = execReservationAcquire ref nsid racqa iekey rtype crkey prkey s := rfl

@[simp] theorem exec_reservationRelease (ref : Ref) (nsid rrela : Nat) (iekey : Bool) (rtype crkey : Nat) (s : State) :
    exec (.reservationRelease ref nsid rrela iekey rtype crkey) s = execReservationRelease ref nsid rrela iekey rtype crkey s := rfl

@[simp] theorem exec_xtsUnitDone (ref : Ref) (lba : Nat) (pass : UnitEnd) (s : State) :
    exec (.xtsUnitDone ref lba pass) s = execXtsUnitDone ref lba pass s := rfl

@[simp] theorem exec_laneKatDone (lane : Nat) (pass : Bool) (s : State) :
    exec (.laneKatDone lane pass) s = execLaneKatDone lane pass s := rfl

@[simp] theorem exec_commitGroupTimeout (group : Nat) (s : State) :
    exec (.commitGroupTimeout group) s = execCommitGroupTimeout group s := rfl

@[simp] theorem exec_inkwellGrant  (s : State) :
    exec (.inkwellGrant) s = execInkwellGrant s := rfl

@[simp] theorem exec_inkwellWaitPad  (s : State) :
    exec (.inkwellWaitPad) s = execInkwellWaitPad s := rfl

@[simp] theorem exec_inkwellAuditPass (mismatch : Bool) (s : State) :
    exec (.inkwellAuditPass mismatch) s = execInkwellAuditPass mismatch s := rfl

@[simp] theorem exec_ownerRegister (min : Registration) (drop : Option Nat) (s : State) :
    exec (.ownerRegister min drop) s = execOwnerRegister min drop s := rfl

@[simp] theorem exec_keySlotLoad (slot key : Nat) (equalHalves : Bool) (s : State) :
    exec (.keySlotLoad slot key equalHalves) s = execKeySlotLoad slot key equalHalves s := rfl

@[simp] theorem exec_keySlotClear (slot : Nat) (s : State) :
    exec (.keySlotClear slot) s = execKeySlotClear slot s := rfl

@[simp] theorem exec_mapPageScrub (found : ScrubFound) (s : State) :
    exec (.mapPageScrub found) s = execMapPageScrub found s := rfl

@[simp] theorem exec_idlePadTimeout (wp : Nat) (s : State) :
    exec (.idlePadTimeout wp) s = execIdlePadTimeout wp s := rfl

@[simp] theorem exec_bandOpen (wp : Nat) (s : State) :
    exec (.bandOpen wp) s = execBandOpen wp s := rfl

@[simp] theorem exec_reclaimVictimPick  (s : State) :
    exec (.reclaimVictimPick) s = execReclaimVictimPick s := rfl

@[simp] theorem exec_bandEraseStart (band : Nat) (s : State) :
    exec (.bandEraseStart band) s = execBandEraseStart band s := rfl

@[simp] theorem exec_wearSpreadCheck  (s : State) :
    exec (.wearSpreadCheck) s = execWearSpreadCheck s := rfl

@[simp] theorem exec_checkpointStart  (s : State) :
    exec (.checkpointStart) s = execCheckpointStart s := rfl

@[simp] theorem exec_checkpointSlow  (s : State) :
    exec (.checkpointSlow) s = execCheckpointSlow s := rfl

@[simp] theorem exec_cutHold (slot : Nat) (s : State) :
    exec (.cutHold slot) s = execCutHold slot s := rfl

@[simp] theorem exec_cutEvict  (s : State) :
    exec (.cutEvict) s = execCutEvict s := rfl

@[simp] theorem exec_cstsRdySet (env : BootEnv) (s : State) :
    exec (.cstsRdySet env) s = execCstsRdySet env s := rfl

@[simp] theorem exec_unitRebuildDone (id : Nat) (ok : Bool) (s : State) :
    exec (.unitRebuildDone id ok) s = execUnitRebuildDone id ok s := rfl

@[simp] theorem exec_patrolWindow  (s : State) :
    exec (.patrolWindow) s = execPatrolWindow s := rfl

@[simp] theorem exec_vstoreSample (code : Nat) (s : State) :
    exec (.vstoreSample code) s = execVstoreSample code s := rfl

@[simp] theorem exec_budgetRecompute  (s : State) :
    exec (.budgetRecompute) s = execBudgetRecompute s := rfl

@[simp] theorem exec_holdupSelfTest  (s : State) :
    exec (.holdupSelfTest) s = execHoldupSelfTest s := rfl

@[simp] theorem exec_blotterUnitAge (group : Nat) (s : State) :
    exec (.blotterUnitAge group) s = execBlotterUnitAge group s := rfl

@[simp] theorem exec_tineCompareMismatch (tine : Bool) (s : State) :
    exec (.tineCompareMismatch tine) s = execTineCompareMismatch tine s := rfl

@[simp] theorem exec_tineStateError (tine : Bool) (s : State) :
    exec (.tineStateError tine) s = execTineStateError tine s := rfl

@[simp] theorem exec_tineOutputOffer (tine : Bool) (stream osn : Nat) (crc : TineOut) (s : State) :
    exec (.tineOutputOffer tine stream osn crc) s = execTineOutputOffer tine stream osn crc s := rfl

@[simp] theorem exec_mergeGapTimeout (stream : Nat) (s : State) :
    exec (.mergeGapTimeout stream) s = execMergeGapTimeout stream s := rfl

@[simp] theorem exec_overlapClose  (s : State) :
    exec (.overlapClose) s = execOverlapClose s := rfl

@[simp] theorem exec_handoverComplete  (s : State) :
    exec (.handoverComplete) s = execHandoverComplete s := rfl

@[simp] theorem exec_tineSelfTestDone (tine pass : Bool) (us : Nat) (s : State) :
    exec (.tineSelfTestDone tine pass us) s = execTineSelfTestDone tine pass us s := rfl

@[simp] theorem exec_resyncStart  (s : State) :
    exec (.resyncStart) s = execResyncStart s := rfl

@[simp] theorem exec_resyncComplete  (s : State) :
    exec (.resyncComplete) s = execResyncComplete s := rfl

@[simp] theorem exec_drillDue (reports : Bool) (s : State) :
    exec (.drillDue reports) s = execDrillDue reports s := rfl

@[simp] theorem exec_aenWaitTimeout (ctrl group : Nat) (s : State) :
    exec (.aenWaitTimeout ctrl group) s = execAenWaitTimeout ctrl group s := rfl

@[simp] theorem exec_alertResponseAddress  (s : State) :
    exec (.alertResponseAddress) s = execAlertResponseAddress s := rfl

@[simp] theorem exec_ibiAccept  (s : State) :
    exec (.ibiAccept) s = execIbiAccept s := rfl

@[simp] theorem exec_folioRequestComplete (status : Nat) (s : State) :
    exec (.folioRequestComplete status) s = execFolioRequestComplete status s := rfl

@[simp] theorem exec_folioScrub (words : List (FolCopy × Bool)) (s : State) :
    exec (.folioScrub words) s = execFolioScrub words s := rfl

@[simp] theorem exec_gceRequest (owner : Nat) (op : GceOp) (handle : Nat) (match1 match2 last : Bool) (s : State) :
    exec (.gceRequest owner op handle match1 match2 last) s = execGceRequest owner op handle match1 match2 last s := rfl

@[simp] theorem exec_gceLockTimeout  (s : State) :
    exec (.gceLockTimeout) s = execGceLockTimeout s := rfl

@[simp] theorem exec_entropyHealthFail  (s : State) :
    exec (.entropyHealthFail) s = execEntropyHealthFail s := rfl

@[simp] theorem exec_idle (port : BxlIn) (s : State) :
    exec (.idle port) s = execIdle port s := rfl

@[simp] theorem exec_enum (port : BxlIn) (id : Nat) (s : State) :
    exec (.enum port id) s = execEnum port id s := rfl

@[simp] theorem exec_sync (port : BxlIn) (t1 master hops src cls unc : Nat) (s : State) :
    exec (.sync port t1 master hops src cls unc) s = execSync port t1 master hops src cls unc s := rfl

@[simp] theorem exec_dreq (port : BxlIn) (t3 : Nat) (s : State) :
    exec (.dreq port t3) s = execDreq port t3 s := rfl

@[simp] theorem exec_dresp (port : BxlIn) (t4 : Nat) (s : State) :
    exec (.dresp port t4) s = execDresp port t4 s := rfl

@[simp] theorem exec_claim (port : BxlIn) (id : Nat) (s : State) :
    exec (.claim port id) s = execClaim port id s := rfl

@[simp] theorem exec_contended (port : BxlIn) (id : Nat) (s : State) :
    exec (.contended port id) s = execContended port id s := rfl

@[simp] theorem exec_nomaster (port : BxlIn) (s : State) :
    exec (.nomaster port) s = execNomaster port s := rfl

@[simp] theorem exec_cut (port : BxlIn) (time node number : Nat) (all : Bool) (s : State) :
    exec (.cut port time node number all) s = execCut port time node number all s := rfl

@[simp] theorem exec_sweepReq (port : BxlIn) (issuer : Nat) (s : State) :
    exec (.sweepReq port issuer) s = execSweepReq port issuer s := rfl

@[simp] theorem exec_sweepEnt (port : BxlIn) (part : Nat) (e : SweepEntry) (s : State) :
    exec (.sweepEnt port part e) s = execSweepEnt port part e s := rfl

@[simp] theorem exec_sweepEnd (port : BxlIn) (openAfter : Option Nat) (s : State) :
    exec (.sweepEnd port openAfter) s = execSweepEnd port openAfter s := rfl

@[simp] theorem exec_relayStart (port : BxlIn) (action chunks : Nat) (s : State) :
    exec (.relayStart port action chunks) s = execRelayStart port action chunks s := rfl

@[simp] theorem exec_chunk (port : BxlIn) (k : Nat) (c : PkgChunk) (s : State) :
    exec (.chunk port k c) s = execChunk port k c s := rfl

@[simp] theorem exec_ack (port : BxlIn) (k : Nat) (pass : Bool) (s : State) :
    exec (.ack port k pass) s = execAck port k pass s := rfl

@[simp] theorem exec_relayAbort (port : BxlIn) (s : State) :
    exec (.relayAbort port) s = execRelayAbort port s := rfl

@[simp] theorem exec_bxlBadFrame (up : Bool) (s : State) :
    exec (.bxlBadFrame up) s = execBxlBadFrame up s := rfl

@[simp] theorem exec_bxlPortLoss (up : Bool) (s : State) :
    exec (.bxlPortLoss up) s = execBxlPortLoss up s := rfl

@[simp] theorem exec_bxlTimeExchangeStart  (s : State) :
    exec (.bxlTimeExchangeStart) s = execBxlTimeExchangeStart s := rfl

@[simp] theorem exec_bxlDrespTimeout  (s : State) :
    exec (.bxlDrespTimeout) s = execBxlDrespTimeout s := rfl

@[simp] theorem exec_claimRepeat  (s : State) :
    exec (.claimRepeat) s = execClaimRepeat s := rfl

@[simp] theorem exec_sweepTimeout  (s : State) :
    exec (.sweepTimeout) s = execSweepTimeout s := rfl

@[simp] theorem exec_sweepRetry  (s : State) :
    exec (.sweepRetry) s = execSweepRetry s := rfl

@[simp] theorem exec_heldEntryExpire  (s : State) :
    exec (.heldEntryExpire) s = execHeldEntryExpire s := rfl

@[simp] theorem exec_chunkAckTimeout (k : Nat) (s : State) :
    exec (.chunkAckTimeout k) s = execChunkAckTimeout k s := rfl

@[simp] theorem exec_trialWatchdogExpire (env : BootEnv) (s : State) :
    exec (.trialWatchdogExpire env) s = execTrialWatchdogExpire env s := rfl

@[simp] theorem exec_trialConfirm (suite : Bool) (s : State) :
    exec (.trialConfirm suite) s = execTrialConfirm suite s := rfl

@[simp] theorem exec_rotationStepDone (ok : Bool) (s : State) :
    exec (.rotationStepDone ok) s = execRotationStepDone ok s := rfl

@[simp] theorem exec_powerOn (eid : Nat) (s : State) :
    exec (.powerOn eid) s = execPowerOn eid s := rfl

@[simp] theorem exec_powerOff (eid : Nat) (s : State) :
    exec (.powerOff eid) s = execPowerOff eid s := rfl

@[simp] theorem exec_deviceReset (eid : Nat) (env : BootEnv) (s : State) :
    exec (.deviceReset eid env) s = execDeviceReset eid env s := rfl

@[simp] theorem exec_registerWindowRead (eid off dwords : Nat) (s : State) :
    exec (.registerWindowRead eid off dwords) s = execRegisterWindowRead eid off dwords s := rfl

@[simp] theorem exec_registerWindowWrite (eid off : Nat) (values : List Nat) (env : BootEnv) (s : State) :
    exec (.registerWindowWrite eid off values env) s = execRegisterWindowWrite eid off values env s := rfl

@[simp] theorem exec_miAuthorityAcquire (eid : Nat) (s : State) :
    exec (.miAuthorityAcquire eid) s = execMiAuthorityAcquire eid s := rfl

@[simp] theorem exec_miAuthorityRelease (eid : Nat) (s : State) :
    exec (.miAuthorityRelease eid) s = execMiAuthorityRelease eid s := rfl

@[simp] theorem exec_authorityLapse  (s : State) :
    exec (.authorityLapse) s = execAuthorityLapse s := rfl

@[simp] theorem exec_readNvmeMiDataStructure (eid dtyp id : Nat) (s : State) :
    exec (.readNvmeMiDataStructure eid dtyp id) s = execReadNvmeMiDataStructure eid dtyp id s := rfl

@[simp] theorem exec_nvmSubsystemHealthStatusPoll (eid : Nat) (s : State) :
    exec (.nvmSubsystemHealthStatusPoll eid) s = execNvmSubsystemHealthStatusPoll eid s := rfl

@[simp] theorem exec_controllerHealthStatusPoll (eid ctrl : Nat) (s : State) :
    exec (.controllerHealthStatusPoll eid ctrl) s = execControllerHealthStatusPoll eid ctrl s := rfl

@[simp] theorem exec_configurationGet (eid id : Nat) (s : State) :
    exec (.configurationGet eid id) s = execConfigurationGet eid id s := rfl

@[simp] theorem exec_configurationSet (eid id value : Nat) (s : State) :
    exec (.configurationSet eid id value) s = execConfigurationSet eid id value s := rfl

@[simp] theorem exec_vpdRead (eid off len : Nat) (s : State) :
    exec (.vpdRead eid off len) s = execVpdRead eid off len s := rfl

@[simp] theorem exec_miReset (eid : Nat) (env : BootEnv) (s : State) :
    exec (.miReset eid env) s = execMiReset eid env s := rfl

@[simp] theorem exec_tunnelledAdminCommand (eid req resp : Nat) (page : Option Nat) (s : State) :
    exec (.tunnelledAdminCommand eid req resp page) s = execTunnelledAdminCommand eid req resp page s := rfl

@[simp] theorem exec_setEndpointId (op eid : Nat) (s : State) :
    exec (.setEndpointId op eid) s = execSetEndpointId op eid s := rfl

@[simp] theorem exec_getEndpointId  (s : State) :
    exec (.getEndpointId) s = execGetEndpointId s := rfl

@[simp] theorem exec_getEndpointUuid  (s : State) :
    exec (.getEndpointUuid) s = execGetEndpointUuid s := rfl

@[simp] theorem exec_getMctpVersionSupport (kind : Nat) (s : State) :
    exec (.getMctpVersionSupport kind) s = execGetMctpVersionSupport kind s := rfl

@[simp] theorem exec_getMessageTypeSupport  (s : State) :
    exec (.getMessageTypeSupport) s = execGetMessageTypeSupport s := rfl

@[simp] theorem exec_entdaa (addr : Nat) (s : State) :
    exec (.entdaa addr) s = execEntdaa addr s := rfl

@[simp] theorem exec_setdasa (addr dyn : Nat) (s : State) :
    exec (.setdasa addr dyn) s = execSetdasa addr dyn s := rfl

@[simp] theorem exec_rstdaa  (s : State) :
    exec (.rstdaa) s = execRstdaa s := rfl

@[simp] theorem exec_getVersion (party : Party) (s : State) :
    exec (.getVersion party) s = execGetVersion party s := rfl

@[simp] theorem exec_getCapabilities (party : Party) (s : State) :
    exec (.getCapabilities party) s = execGetCapabilities party s := rfl

@[simp] theorem exec_negotiateAlgorithms (party : Party) (offered : Bool) (s : State) :
    exec (.negotiateAlgorithms party offered) s = execNegotiateAlgorithms party offered s := rfl

@[simp] theorem exec_getDigests (party : Party) (s : State) :
    exec (.getDigests party) s = execGetDigests party s := rfl

@[simp] theorem exec_getCertificate (party : Party) (slot off len : Nat) (s : State) :
    exec (.getCertificate party slot off len) s = execGetCertificate party slot off len s := rfl

@[simp] theorem exec_challenge (party : Party) (slot : Nat) (s : State) :
    exec (.challenge party slot) s = execChallenge party slot s := rfl

@[simp] theorem exec_getMeasurements (party : Party) (index : Nat) (s : State) :
    exec (.getMeasurements party index) s = execGetMeasurements party index s := rfl

@[simp] theorem exec_keyExchange (party : Party) (slot : Nat) (s : State) :
    exec (.keyExchange party slot) s = execKeyExchange party slot s := rfl

@[simp] theorem exec_finish (party : Party) (session : Nat) (ok : Bool) (s : State) :
    exec (.finish party session ok) s = execFinish party session ok s := rfl

@[simp] theorem exec_heartbeat (party : Party) (session : Nat) (s : State) :
    exec (.heartbeat party session) s = execHeartbeat party session s := rfl

@[simp] theorem exec_keyUpdate (party : Party) (session op : Nat) (s : State) :
    exec (.keyUpdate party session op) s = execKeyUpdate party session op s := rfl

@[simp] theorem exec_endSession (party : Party) (session : Nat) (s : State) :
    exec (.endSession party session) s = execEndSession party session s := rfl

@[simp] theorem exec_devSealWrite  (s : State) :
    exec (.devSealWrite) s = execDevSealWrite s := rfl

@[simp] theorem exec_devResetWrite (pf : Nat) (env : BootEnv) (s : State) :
    exec (.devResetWrite pf env) s = execDevResetWrite pf env s := rfl

@[simp] theorem exec_registerWrite (pf off len : Nat) (value : WriteData) (s : State) :
    exec (.registerWrite pf off len value) s = execRegisterWrite pf off len value s := rfl

@[simp] theorem exec_vaux33Good (straps : Nat) (s : State) :
    exec (.vaux33Good straps) s = execVaux33Good straps s := rfl

@[simp] theorem exec_avsAcknowledge (vread : Nat) (s : State) :
    exec (.avsAcknowledge vread) s = execAvsAcknowledge vread s := rfl

@[simp] theorem exec_fuseProgramComplete (weak : Nat) (s : State) :
    exec (.fuseProgramComplete weak) s = execFuseProgramComplete weak s := rfl

@[simp] theorem exec_entropyHealthPass  (s : State) :
    exec (.entropyHealthPass) s = execEntropyHealthPass s := rfl

@[simp] theorem exec_ptmDisabledByHost (port : Nat) (enable : Bool) (s : State) :
    exec (.ptmDisabledByHost port enable) s = execPtmDisabledByHost port enable s := rfl

@[simp] theorem exec_d3hotExit (fn : Nat) (s : State) :
    exec (.d3hotExit fn) s = execD3hotExit fn s := rfl

end Sys2Proof.Machine
end

