-- ==== Sys2Proof/Laws/Goes.lean ====
section
/-! SUPPORT. Every command goes on: it answers a next state, and no fault and no refusal, in every state. -/

namespace Sys2Proof.Machine

/-- An answer that is a next state. -/
def Goes (r : Res) : Prop := ∃ t : State, r = .next t

theorem goes_next (t : State) : Goes (.next t) := ⟨t, rfl⟩

theorem goes_ite {c : Prop} [Decidable c] {a b : Res} (ha : c → Goes a) (hb : ¬c → Goes b) : Goes (if c then a else b) := by
  split
  · exact ha ‹_›
  · exact hb ‹_›

theorem State.done_goes (s : State) (a1 : Ref) (a2 : Status) (a3 : optParam Nat 0) : Goes (State.done s a1 a2 a3) := by
  unfold State.done
  try dsimp only
  repeat' first
    | with_reducible exact goes_next _
    | with_reducible refine goes_ite (fun _ => ?_) (fun _ => ?_)
    | split

theorem execVstoreSample_goes (a0 : Nat) (s : State) : Goes (execVstoreSample a0 s) := by
  unfold execVstoreSample
  try dsimp only
  repeat' first
    | with_reducible exact goes_next _
    | with_reducible refine goes_ite (fun _ => ?_) (fun _ => ?_)
    | split

theorem execHoldupSelfTest_goes (s : State) : Goes (execHoldupSelfTest s) := by
  unfold execHoldupSelfTest
  try dsimp only
  repeat' first
    | with_reducible exact goes_next _
    | with_reducible refine goes_ite (fun _ => ?_) (fun _ => ?_)
    | split

theorem execBudgetRecompute_goes (s : State) : Goes (execBudgetRecompute s) := by
  unfold execBudgetRecompute
  try dsimp only
  repeat' first
    | with_reducible exact goes_next _
    | with_reducible refine goes_ite (fun _ => ?_) (fun _ => ?_)
    | split

theorem execUnitRebuildDone_goes (a0 : Nat) (a1 : Bool) (s : State) : Goes (execUnitRebuildDone a0 a1 s) := by
  unfold execUnitRebuildDone
  try dsimp only
  repeat' first
    | with_reducible exact goes_next _
    | with_reducible refine goes_ite (fun _ => ?_) (fun _ => ?_)
    | split

theorem execDescriptorAccept_goes (a0 : Nat) (a1 : Nat) (s : State) : Goes (execDescriptorAccept a0 a1 s) := by
  unfold execDescriptorAccept
  try dsimp only
  repeat' first
    | with_reducible exact goes_next _
    | with_reducible refine goes_ite (fun _ => ?_) (fun _ => ?_)
    | split

theorem execStrokeDueLine_goes (a0 : Nat) (a1 : Nat) (a2 : Int) (a3 : Bool) (s : State) : Goes (execStrokeDueLine a0 a1 a2 a3 s) := by
  unfold execStrokeDueLine
  try dsimp only
  repeat' first
    | with_reducible exact goes_next _
    | with_reducible refine goes_ite (fun _ => ?_) (fun _ => ?_)
    | split

theorem execStatusPoll_goes (a0 : Nat) (a1 : Nat) (s : State) : Goes (execStatusPoll a0 a1 s) := by
  unfold execStatusPoll
  try dsimp only
  repeat' first
    | with_reducible exact goes_next _
    | with_reducible refine goes_ite (fun _ => ?_) (fun _ => ?_)
    | split

theorem execRbNRise_goes (a0 : Nat) (a1 : Nat) (s : State) : Goes (execRbNRise a0 a1 s) := by
  unfold execRbNRise
  try dsimp only
  repeat' first
    | with_reducible exact goes_next _
    | with_reducible refine goes_ite (fun _ => ?_) (fun _ => ?_)
    | split

theorem execBusTransferDone_goes (a0 : Nat) (a1 : Nat) (a2 : Nat) (a3 : CellErr) (s : State) : Goes (execBusTransferDone a0 a1 a2 a3 s) := by
  unfold execBusTransferDone
  try dsimp only
  repeat' first
    | with_reducible exact goes_next _
    | with_reducible refine goes_ite (fun _ => ?_) (fun _ => ?_)
    | split

theorem execCodewordDecodeDone_goes (a0 : Nat) (a1 : Nat) (a2 : Bool) (a3 : Nat) (a4 : Nat) (a5 : Bool) (a6 : Nat) (s : State) : Goes (execCodewordDecodeDone a0 a1 a2 a3 a4 a5 a6 s) := by
  unfold execCodewordDecodeDone
  try dsimp only
  repeat' first
    | with_reducible exact goes_next _
    | with_reducible refine goes_ite (fun _ => ?_) (fun _ => ?_)
    | split

theorem execStrokeTimeout_goes (a0 : Nat) (a1 : Nat) (s : State) : Goes (execStrokeTimeout a0 a1 s) := by
  unfold execStrokeTimeout
  try dsimp only
  repeat' first
    | with_reducible exact goes_next _
    | with_reducible refine goes_ite (fun _ => ?_) (fun _ => ?_)
    | split

theorem execResetWaitTimeout_goes (a0 : Nat) (s : State) : Goes (execResetWaitTimeout a0 s) := by
  unfold execResetWaitTimeout
  try dsimp only
  repeat' first
    | with_reducible exact goes_next _
    | with_reducible refine goes_ite (fun _ => ?_) (fun _ => ?_)
    | split

theorem execNibTempRead_goes (a0 : Nat) (s : State) : Goes (execNibTempRead a0 s) := by
  unfold execNibTempRead
  try dsimp only
  repeat' first
    | with_reducible exact goes_next _
    | with_reducible refine goes_ite (fun _ => ?_) (fun _ => ?_)
    | split

theorem execTempStaleTimeout_goes (a0 : Nat) (s : State) : Goes (execTempStaleTimeout a0 s) := by
  unfold execTempStaleTimeout
  try dsimp only
  repeat' first
    | with_reducible exact goes_next _
    | with_reducible refine goes_ite (fun _ => ?_) (fun _ => ?_)
    | split

theorem execNibRetrain_goes (a0 : Nat) (s : State) : Goes (execNibRetrain a0 s) := by
  unfold execNibRetrain
  try dsimp only
  repeat' first
    | with_reducible exact goes_next _
    | with_reducible refine goes_ite (fun _ => ?_) (fun _ => ?_)
    | split

theorem execNibCtrlRetrain_goes (a0 : Nat) (s : State) : Goes (execNibCtrlRetrain a0 s) := by
  unfold execNibCtrlRetrain
  try dsimp only
  repeat' first
    | with_reducible exact goes_next _
    | with_reducible refine goes_ite (fun _ => ?_) (fun _ => ?_)
    | split

theorem execDecoderKat_goes (a0 : Nat) (a1 : Bool) (s : State) : Goes (execDecoderKat a0 a1 s) := by
  unfold execDecoderKat
  try dsimp only
  repeat' first
    | with_reducible exact goes_next _
    | with_reducible refine goes_ite (fun _ => ?_) (fun _ => ?_)
    | split

theorem execStrokeComplete_goes (a0 : Nat) (s : State) : Goes (execStrokeComplete a0 s) := by
  unfold execStrokeComplete
  try dsimp only
  repeat' first
    | with_reducible exact goes_next _
    | with_reducible refine goes_ite (fun _ => ?_) (fun _ => ?_)
    | split

theorem execStrokePlace_goes (s : State) : Goes (execStrokePlace s) := by
  unfold execStrokePlace
  try dsimp only
  repeat' first
    | with_reducible exact goes_next _
    | with_reducible refine goes_ite (fun _ => ?_) (fun _ => ?_)
    | split

theorem execCheckpointStart_goes (s : State) : Goes (execCheckpointStart s) := by
  unfold execCheckpointStart
  try dsimp only
  repeat' first
    | with_reducible exact goes_next _
    | with_reducible refine goes_ite (fun _ => ?_) (fun _ => ?_)
    | split

theorem execCheckpointSlow_goes (s : State) : Goes (execCheckpointSlow s) := by
  unfold execCheckpointSlow
  try dsimp only
  repeat' first
    | with_reducible exact goes_next _
    | with_reducible refine goes_ite (fun _ => ?_) (fun _ => ?_)
    | split

theorem execCutCreate_goes (a0 : Ref) (a1 : Nat) (a2 : Nat) (a3 : Nat) (a4 : Nat) (s : State) : Goes (execCutCreate a0 a1 a2 a3 a4 s) := by
  unfold execCutCreate
  try dsimp only
  repeat' first
    | with_reducible exact goes_next _
    | with_reducible apply State.done_goes
    | with_reducible refine goes_ite (fun _ => ?_) (fun _ => ?_)
    | split

theorem execCutHold_goes (a0 : Nat) (s : State) : Goes (execCutHold a0 s) := by
  unfold execCutHold
  try dsimp only
  repeat' first
    | with_reducible exact goes_next _
    | with_reducible refine goes_ite (fun _ => ?_) (fun _ => ?_)
    | split

theorem execCutEvict_goes (s : State) : Goes (execCutEvict s) := by
  unfold execCutEvict
  try dsimp only
  repeat' first
    | with_reducible exact goes_next _
    | with_reducible refine goes_ite (fun _ => ?_) (fun _ => ?_)
    | split

theorem execCutRelease_goes (a0 : Ref) (a1 : Nat) (s : State) : Goes (execCutRelease a0 a1 s) := by
  unfold execCutRelease
  try dsimp only
  repeat' first
    | with_reducible exact goes_next _
    | with_reducible apply State.done_goes
    | with_reducible refine goes_ite (fun _ => ?_) (fun _ => ?_)
    | split

theorem execTineCompareMismatch_goes (a0 : Bool) (s : State) : Goes (execTineCompareMismatch a0 s) := by
  unfold execTineCompareMismatch
  try dsimp only
  repeat' first
    | with_reducible exact goes_next _
    | with_reducible refine goes_ite (fun _ => ?_) (fun _ => ?_)
    | split

theorem execTineStateError_goes (a0 : Bool) (s : State) : Goes (execTineStateError a0 s) := by
  unfold execTineStateError
  try dsimp only
  repeat' first
    | with_reducible exact goes_next _
    | with_reducible refine goes_ite (fun _ => ?_) (fun _ => ?_)
    | split

theorem execTineOutputOffer_goes (a0 : Bool) (a1 : Nat) (a2 : Nat) (a3 : TineOut) (s : State) : Goes (execTineOutputOffer a0 a1 a2 a3 s) := by
  unfold execTineOutputOffer
  try dsimp only
  repeat' first
    | with_reducible exact goes_next _
    | with_reducible refine goes_ite (fun _ => ?_) (fun _ => ?_)
    | split

theorem execMergeGapTimeout_goes (a0 : Nat) (s : State) : Goes (execMergeGapTimeout a0 s) := by
  unfold execMergeGapTimeout
  try dsimp only
  repeat' first
    | with_reducible exact goes_next _
    | with_reducible refine goes_ite (fun _ => ?_) (fun _ => ?_)
    | split

theorem execOverlapClose_goes (s : State) : Goes (execOverlapClose s) := by
  unfold execOverlapClose
  try dsimp only
  repeat' first
    | with_reducible exact goes_next _
    | with_reducible refine goes_ite (fun _ => ?_) (fun _ => ?_)
    | split

theorem execHandoverComplete_goes (s : State) : Goes (execHandoverComplete s) := by
  unfold execHandoverComplete
  try dsimp only
  repeat' first
    | with_reducible exact goes_next _
    | with_reducible refine goes_ite (fun _ => ?_) (fun _ => ?_)
    | split

theorem execTineSelfTestDone_goes (a0 : Bool) (a1 : Bool) (a2 : Nat) (s : State) : Goes (execTineSelfTestDone a0 a1 a2 s) := by
  unfold execTineSelfTestDone
  try dsimp only
  repeat' first
    | with_reducible exact goes_next _
    | with_reducible refine goes_ite (fun _ => ?_) (fun _ => ?_)
    | split

theorem execResyncStart_goes (s : State) : Goes (execResyncStart s) := by
  unfold execResyncStart
  try dsimp only
  repeat' first
    | with_reducible exact goes_next _
    | with_reducible refine goes_ite (fun _ => ?_) (fun _ => ?_)
    | split

theorem execResyncComplete_goes (s : State) : Goes (execResyncComplete s) := by
  unfold execResyncComplete
  try dsimp only
  repeat' first
    | with_reducible exact goes_next _
    | with_reducible refine goes_ite (fun _ => ?_) (fun _ => ?_)
    | split

theorem execDrillDue_goes (a0 : Bool) (s : State) : Goes (execDrillDue a0 s) := by
  unfold execDrillDue
  try dsimp only
  repeat' first
    | with_reducible exact goes_next _
    | with_reducible refine goes_ite (fun _ => ?_) (fun _ => ?_)
    | split

theorem execRoleDrill_goes (a0 : Ref) (a1 : Nat) (a2 : Bool) (s : State) : Goes (execRoleDrill a0 a1 a2 s) := by
  unfold execRoleDrill
  try dsimp only
  repeat' first
    | with_reducible exact goes_next _
    | with_reducible apply State.done_goes
    | with_reducible refine goes_ite (fun _ => ?_) (fun _ => ?_)
    | split

theorem execLinePulse_goes (s : State) : Goes (execLinePulse s) := by
  unfold execLinePulse
  try dsimp only
  repeat' first
    | with_reducible exact goes_next _
    | with_reducible refine goes_ite (fun _ => ?_) (fun _ => ?_)
    | split

theorem execLineAnnouncement_goes (a0 : Nat) (a1 : Nat) (s : State) : Goes (execLineAnnouncement a0 a1 s) := by
  unfold execLineAnnouncement
  try dsimp only
  repeat' first
    | with_reducible exact goes_next _
    | with_reducible refine goes_ite (fun _ => ?_) (fun _ => ?_)
    | split

theorem execSyncInEdge_goes (s : State) : Goes (execSyncInEdge s) := by
  unfold execSyncInEdge
  try dsimp only
  repeat' first
    | with_reducible exact goes_next _
    | with_reducible refine goes_ite (fun _ => ?_) (fun _ => ?_)
    | split

theorem execSyncInLossTimeout_goes (s : State) : Goes (execSyncInLossTimeout s) := by
  unfold execSyncInLossTimeout
  try dsimp only
  repeat' first
    | with_reducible exact goes_next _
    | with_reducible refine goes_ite (fun _ => ?_) (fun _ => ?_)
    | split

theorem execTodArm_goes (s : State) : Goes (execTodArm s) := by
  unfold execTodArm
  try dsimp only
  repeat' first
    | with_reducible exact goes_next _
    | with_reducible refine goes_ite (fun _ => ?_) (fun _ => ?_)
    | split

theorem execPtmDialogStart_goes (s : State) : Goes (execPtmDialogStart s) := by
  unfold execPtmDialogStart
  try dsimp only
  repeat' first
    | with_reducible exact goes_next _
    | with_reducible refine goes_ite (fun _ => ?_) (fun _ => ?_)
    | split

theorem execPtmResponse_goes (a0 : Nat) (a1 : Int) (s : State) : Goes (execPtmResponse a0 a1 s) := by
  unfold execPtmResponse
  try dsimp only
  repeat' first
    | with_reducible exact goes_next _
    | with_reducible refine goes_ite (fun _ => ?_) (fun _ => ?_)
    | split

theorem execPtmDialogTimeout_goes (a0 : Nat) (s : State) : Goes (execPtmDialogTimeout a0 s) := by
  unfold execPtmDialogTimeout
  try dsimp only
  repeat' first
    | with_reducible exact goes_next _
    | with_reducible refine goes_ite (fun _ => ?_) (fun _ => ?_)
    | split

theorem execPtmDisabledByHost_goes (a0 : Nat) (a1 : Bool) (s : State) : Goes (execPtmDisabledByHost a0 a1 s) := by
  unfold execPtmDisabledByHost
  try dsimp only
  repeat' first
    | with_reducible exact goes_next _
    | with_reducible refine goes_ite (fun _ => ?_) (fun _ => ?_)
    | split

theorem execRulingStepAuthorize_goes (a0 : Ref) (a1 : Nat) (s : State) : Goes (execRulingStepAuthorize a0 a1 s) := by
  unfold execRulingStepAuthorize
  try dsimp only
  repeat' first
    | with_reducible exact goes_next _
    | with_reducible apply State.done_goes
    | with_reducible refine goes_ite (fun _ => ?_) (fun _ => ?_)
    | split

theorem execRulingStepApply_goes (s : State) : Goes (execRulingStepApply s) := by
  unfold execRulingStepApply
  try dsimp only
  repeat' first
    | with_reducible exact goes_next _
    | with_reducible refine goes_ite (fun _ => ?_) (fun _ => ?_)
    | split

theorem execRulNowLoRead_goes (s : State) : Goes (execRulNowLoRead s) := by
  unfold execRulNowLoRead
  try dsimp only
  repeat' first
    | with_reducible exact goes_next _
    | with_reducible refine goes_ite (fun _ => ?_) (fun _ => ?_)
    | split

theorem execFirmwareImageDownload_goes (a0 : Ref) (a1 : Nat) (a2 : Nat) (a3 : List (Nat × PkgChunk)) (s : State) : Goes (execFirmwareImageDownload a0 a1 a2 a3 s) := by
  unfold execFirmwareImageDownload
  try dsimp only
  repeat' first
    | with_reducible exact goes_next _
    | with_reducible apply State.done_goes
    | with_reducible refine goes_ite (fun _ => ?_) (fun _ => ?_)
    | split

theorem State.firmwareCommit_goes (s : State) (a1 : Ref) (a2 : Nat) (a3 : Nat) : Goes (State.firmwareCommit s a1 a2 a3) := by
  unfold State.firmwareCommit
  try dsimp only
  repeat' first
    | with_reducible exact goes_next _
    | with_reducible apply State.done_goes
    | with_reducible refine goes_ite (fun _ => ?_) (fun _ => ?_)
    | split

theorem execFirmwareCommitStore_goes (a0 : Ref) (a1 : Nat) (s : State) : Goes (execFirmwareCommitStore a0 a1 s) := by
  unfold execFirmwareCommitStore
  try dsimp only
  repeat' first
    | with_reducible exact goes_next _
    | with_reducible apply State.firmwareCommit_goes
    | with_reducible refine goes_ite (fun _ => ?_) (fun _ => ?_)
    | split

theorem execFirmwareCommitActivate_goes (a0 : Ref) (a1 : Nat) (s : State) : Goes (execFirmwareCommitActivate a0 a1 s) := by
  unfold execFirmwareCommitActivate
  try dsimp only
  repeat' first
    | with_reducible exact goes_next _
    | with_reducible apply State.firmwareCommit_goes
    | with_reducible refine goes_ite (fun _ => ?_) (fun _ => ?_)
    | split

theorem execFirmwareCommitSlotActivate_goes (a0 : Ref) (a1 : Nat) (a2 : Nat) (s : State) : Goes (execFirmwareCommitSlotActivate a0 a1 a2 s) := by
  unfold execFirmwareCommitSlotActivate
  try dsimp only
  repeat' first
    | with_reducible exact goes_next _
    | with_reducible apply State.done_goes
    | with_reducible refine goes_ite (fun _ => ?_) (fun _ => ?_)
    | split

theorem execTrialConfirm_goes (a0 : Bool) (s : State) : Goes (execTrialConfirm a0 s) := by
  unfold execTrialConfirm
  try dsimp only
  repeat' first
    | with_reducible exact goes_next _
    | with_reducible refine goes_ite (fun _ => ?_) (fun _ => ?_)
    | split

theorem execRotationStepDone_goes (a0 : Bool) (s : State) : Goes (execRotationStepDone a0 s) := by
  unfold execRotationStepDone
  try dsimp only
  repeat' first
    | with_reducible exact goes_next _
    | with_reducible refine goes_ite (fun _ => ?_) (fun _ => ?_)
    | split

theorem execIdle_goes (a0 : BxlIn) (s : State) : Goes (execIdle a0 s) := by
  unfold execIdle
  try dsimp only
  repeat' first
    | with_reducible exact goes_next _
    | with_reducible refine goes_ite (fun _ => ?_) (fun _ => ?_)
    | split

theorem execEnum_goes (a0 : BxlIn) (a1 : Nat) (s : State) : Goes (execEnum a0 a1 s) := by
  unfold execEnum
  try dsimp only
  repeat' first
    | with_reducible exact goes_next _
    | with_reducible refine goes_ite (fun _ => ?_) (fun _ => ?_)
    | split

theorem execBxlBadFrame_goes (a0 : Bool) (s : State) : Goes (execBxlBadFrame a0 s) := by
  unfold execBxlBadFrame
  try dsimp only
  repeat' first
    | with_reducible exact goes_next _
    | with_reducible refine goes_ite (fun _ => ?_) (fun _ => ?_)
    | split

theorem execBxlPortLoss_goes (a0 : Bool) (s : State) : Goes (execBxlPortLoss a0 s) := by
  unfold execBxlPortLoss
  try dsimp only
  repeat' first
    | with_reducible exact goes_next _
    | with_reducible refine goes_ite (fun _ => ?_) (fun _ => ?_)
    | split

theorem execSync_goes (a0 : BxlIn) (a1 : Nat) (a2 : Nat) (a3 : Nat) (a4 : Nat) (a5 : Nat) (a6 : Nat) (s : State) : Goes (execSync a0 a1 a2 a3 a4 a5 a6 s) := by
  unfold execSync
  try dsimp only
  repeat' first
    | with_reducible exact goes_next _
    | with_reducible refine goes_ite (fun _ => ?_) (fun _ => ?_)
    | split

theorem execDreq_goes (a0 : BxlIn) (a1 : Nat) (s : State) : Goes (execDreq a0 a1 s) := by
  unfold execDreq
  try dsimp only
  repeat' first
    | with_reducible exact goes_next _
    | with_reducible refine goes_ite (fun _ => ?_) (fun _ => ?_)
    | split

theorem execDresp_goes (a0 : BxlIn) (a1 : Nat) (s : State) : Goes (execDresp a0 a1 s) := by
  unfold execDresp
  try dsimp only
  repeat' first
    | with_reducible exact goes_next _
    | with_reducible refine goes_ite (fun _ => ?_) (fun _ => ?_)
    | split

theorem execBxlTimeExchangeStart_goes (s : State) : Goes (execBxlTimeExchangeStart s) := by
  unfold execBxlTimeExchangeStart
  try dsimp only
  repeat' first
    | with_reducible exact goes_next _
    | with_reducible refine goes_ite (fun _ => ?_) (fun _ => ?_)
    | split

theorem execBxlDrespTimeout_goes (s : State) : Goes (execBxlDrespTimeout s) := by
  unfold execBxlDrespTimeout
  try dsimp only
  repeat' first
    | with_reducible exact goes_next _
    | with_reducible refine goes_ite (fun _ => ?_) (fun _ => ?_)
    | split

theorem execClaim_goes (a0 : BxlIn) (a1 : Nat) (s : State) : Goes (execClaim a0 a1 s) := by
  unfold execClaim
  try dsimp only
  repeat' first
    | with_reducible exact goes_next _
    | with_reducible refine goes_ite (fun _ => ?_) (fun _ => ?_)
    | split

theorem execContended_goes (a0 : BxlIn) (a1 : Nat) (s : State) : Goes (execContended a0 a1 s) := by
  unfold execContended
  try dsimp only
  repeat' first
    | with_reducible exact goes_next _
    | with_reducible refine goes_ite (fun _ => ?_) (fun _ => ?_)
    | split

theorem execNomaster_goes (a0 : BxlIn) (s : State) : Goes (execNomaster a0 s) := by
  unfold execNomaster
  try dsimp only
  repeat' first
    | with_reducible exact goes_next _
    | with_reducible refine goes_ite (fun _ => ?_) (fun _ => ?_)
    | split

theorem execClaimRepeat_goes (s : State) : Goes (execClaimRepeat s) := by
  unfold execClaimRepeat
  try dsimp only
  repeat' first
    | with_reducible exact goes_next _
    | with_reducible refine goes_ite (fun _ => ?_) (fun _ => ?_)
    | split

theorem execCut_goes (a0 : BxlIn) (a1 : Nat) (a2 : Nat) (a3 : Nat) (a4 : Bool) (s : State) : Goes (execCut a0 a1 a2 a3 a4 s) := by
  unfold execCut
  try dsimp only
  repeat' first
    | with_reducible exact goes_next _
    | with_reducible refine goes_ite (fun _ => ?_) (fun _ => ?_)
    | split

theorem execSweepReq_goes (a0 : BxlIn) (a1 : Nat) (s : State) : Goes (execSweepReq a0 a1 s) := by
  unfold execSweepReq
  try dsimp only
  repeat' first
    | with_reducible exact goes_next _
    | with_reducible refine goes_ite (fun _ => ?_) (fun _ => ?_)
    | split

theorem execSweepEnt_goes (a0 : BxlIn) (a1 : Nat) (a2 : SweepEntry) (s : State) : Goes (execSweepEnt a0 a1 a2 s) := by
  unfold execSweepEnt
  try dsimp only
  repeat' first
    | with_reducible exact goes_next _
    | with_reducible refine goes_ite (fun _ => ?_) (fun _ => ?_)
    | split

theorem execSweepEnd_goes (a0 : BxlIn) (a1 : Option Nat) (s : State) : Goes (execSweepEnd a0 a1 s) := by
  unfold execSweepEnd
  try dsimp only
  repeat' first
    | with_reducible exact goes_next _
    | with_reducible refine goes_ite (fun _ => ?_) (fun _ => ?_)
    | split

theorem execChainSweepMeasure_goes (a0 : Ref) (a1 : Nat) (s : State) : Goes (execChainSweepMeasure a0 a1 s) := by
  unfold execChainSweepMeasure
  try dsimp only
  repeat' first
    | with_reducible exact goes_next _
    | with_reducible apply State.done_goes
    | with_reducible refine goes_ite (fun _ => ?_) (fun _ => ?_)
    | split

theorem execSweepTimeout_goes (s : State) : Goes (execSweepTimeout s) := by
  unfold execSweepTimeout
  try dsimp only
  repeat' first
    | with_reducible exact goes_next _
    | with_reducible refine goes_ite (fun _ => ?_) (fun _ => ?_)
    | split

theorem execSweepRetry_goes (s : State) : Goes (execSweepRetry s) := by
  unfold execSweepRetry
  try dsimp only
  repeat' first
    | with_reducible exact goes_next _
    | with_reducible refine goes_ite (fun _ => ?_) (fun _ => ?_)
    | split

theorem execHeldEntryExpire_goes (s : State) : Goes (execHeldEntryExpire s) := by
  unfold execHeldEntryExpire
  try dsimp only
  repeat' first
    | with_reducible exact goes_next _
    | with_reducible refine goes_ite (fun _ => ?_) (fun _ => ?_)
    | split

theorem execChainSweepRelay_goes (a0 : Ref) (a1 : Nat) (s : State) : Goes (execChainSweepRelay a0 a1 s) := by
  unfold execChainSweepRelay
  try dsimp only
  repeat' first
    | with_reducible exact goes_next _
    | with_reducible apply State.done_goes
    | with_reducible refine goes_ite (fun _ => ?_) (fun _ => ?_)
    | split

theorem execRelayStart_goes (a0 : BxlIn) (a1 : Nat) (a2 : Nat) (s : State) : Goes (execRelayStart a0 a1 a2 s) := by
  unfold execRelayStart
  try dsimp only
  repeat' first
    | with_reducible exact goes_next _
    | with_reducible refine goes_ite (fun _ => ?_) (fun _ => ?_)
    | split

theorem execChunk_goes (a0 : BxlIn) (a1 : Nat) (a2 : PkgChunk) (s : State) : Goes (execChunk a0 a1 a2 s) := by
  unfold execChunk
  try dsimp only
  repeat' first
    | with_reducible exact goes_next _
    | with_reducible refine goes_ite (fun _ => ?_) (fun _ => ?_)
    | split

theorem execAck_goes (a0 : BxlIn) (a1 : Nat) (a2 : Bool) (s : State) : Goes (execAck a0 a1 a2 s) := by
  unfold execAck
  try dsimp only
  repeat' first
    | with_reducible exact goes_next _
    | with_reducible refine goes_ite (fun _ => ?_) (fun _ => ?_)
    | split

theorem execRelayAbort_goes (a0 : BxlIn) (s : State) : Goes (execRelayAbort a0 s) := by
  unfold execRelayAbort
  try dsimp only
  repeat' first
    | with_reducible exact goes_next _
    | with_reducible refine goes_ite (fun _ => ?_) (fun _ => ?_)
    | split

theorem execChunkAckTimeout_goes (a0 : Nat) (s : State) : Goes (execChunkAckTimeout a0 s) := by
  unfold execChunkAckTimeout
  try dsimp only
  repeat' first
    | with_reducible exact goes_next _
    | with_reducible refine goes_ite (fun _ => ?_) (fun _ => ?_)
    | split

theorem execXtsUnitDone_goes (a0 : Ref) (a1 : Nat) (a2 : UnitEnd) (s : State) : Goes (execXtsUnitDone a0 a1 a2 s) := by
  unfold execXtsUnitDone
  try dsimp only
  repeat' first
    | with_reducible exact goes_next _
    | with_reducible refine goes_ite (fun _ => ?_) (fun _ => ?_)
    | split

theorem execLaneKatDone_goes (a0 : Nat) (a1 : Bool) (s : State) : Goes (execLaneKatDone a0 a1 s) := by
  unfold execLaneKatDone
  try dsimp only
  repeat' first
    | with_reducible exact goes_next _
    | with_reducible refine goes_ite (fun _ => ?_) (fun _ => ?_)
    | split

theorem execInkwellGrant_goes (s : State) : Goes (execInkwellGrant s) := by
  unfold execInkwellGrant
  try dsimp only
  repeat' first
    | with_reducible exact goes_next _
    | with_reducible refine goes_ite (fun _ => ?_) (fun _ => ?_)
    | split

theorem execInkwellWaitPad_goes (s : State) : Goes (execInkwellWaitPad s) := by
  unfold execInkwellWaitPad
  try dsimp only
  repeat' first
    | with_reducible exact goes_next _
    | with_reducible refine goes_ite (fun _ => ?_) (fun _ => ?_)
    | split

theorem execInkwellAuditPass_goes (a0 : Bool) (s : State) : Goes (execInkwellAuditPass a0 s) := by
  unfold execInkwellAuditPass
  try dsimp only
  repeat' first
    | with_reducible exact goes_next _
    | with_reducible refine goes_ite (fun _ => ?_) (fun _ => ?_)
    | split

theorem execOwnerRegister_goes (a0 : Registration) (a1 : Option Nat) (s : State) : Goes (execOwnerRegister a0 a1 s) := by
  unfold execOwnerRegister
  try dsimp only
  repeat' first
    | with_reducible exact goes_next _
    | with_reducible refine goes_ite (fun _ => ?_) (fun _ => ?_)
    | split

theorem execKeySlotLoad_goes (a0 : Nat) (a1 : Nat) (a2 : Bool) (s : State) : Goes (execKeySlotLoad a0 a1 a2 s) := by
  unfold execKeySlotLoad
  try dsimp only
  repeat' first
    | with_reducible exact goes_next _
    | with_reducible refine goes_ite (fun _ => ?_) (fun _ => ?_)
    | split

theorem execKeySlotClear_goes (a0 : Nat) (s : State) : Goes (execKeySlotClear a0 s) := by
  unfold execKeySlotClear
  try dsimp only
  repeat' first
    | with_reducible exact goes_next _
    | with_reducible refine goes_ite (fun _ => ?_) (fun _ => ?_)
    | split

theorem execLifecycleTransition_goes (a0 : Ref) (a1 : Nat) (a2 : Nat) (a3 : LcToken) (s : State) : Goes (execLifecycleTransition a0 a1 a2 a3 s) := by
  unfold execLifecycleTransition
  try dsimp only
  repeat' first
    | with_reducible exact goes_next _
    | with_reducible apply State.done_goes
    | with_reducible refine goes_ite (fun _ => ?_) (fun _ => ?_)
    | split

theorem execFuseProgramComplete_goes (a0 : Nat) (s : State) : Goes (execFuseProgramComplete a0 s) := by
  unfold execFuseProgramComplete
  try dsimp only
  repeat' first
    | with_reducible exact goes_next _
    | with_reducible refine goes_ite (fun _ => ?_) (fun _ => ?_)
    | split

theorem execQuillContextStart_goes (a0 : Nat) (a1 : Nat) (a2 : Par) (s : State) : Goes (execQuillContextStart a0 a1 a2 s) := by
  unfold execQuillContextStart
  try dsimp only
  repeat' first
    | with_reducible exact goes_next _
    | with_reducible refine goes_ite (fun _ => ?_) (fun _ => ?_)
    | split

theorem execNext_goes (a0 : Nat) (a1 : Nat) (a2 : QIn) (s : State) : Goes (execNext a0 a1 a2 s) := by
  unfold execNext
  try dsimp only
  repeat' first
    | with_reducible exact goes_next _
    | with_reducible refine goes_ite (fun _ => ?_) (fun _ => ?_)
    | split

theorem execJump_goes (a0 : Nat) (a1 : Nat) (a2 : QIn) (s : State) : Goes (execJump a0 a1 a2 s) := by
  unfold execJump
  try dsimp only
  repeat' first
    | with_reducible exact goes_next _
    | with_reducible refine goes_ite (fun _ => ?_) (fun _ => ?_)
    | split

theorem execBr_goes (a0 : Nat) (a1 : Nat) (a2 : QIn) (s : State) : Goes (execBr a0 a1 a2 s) := by
  unfold execBr
  try dsimp only
  repeat' first
    | with_reducible exact goes_next _
    | with_reducible refine goes_ite (fun _ => ?_) (fun _ => ?_)
    | split

theorem execBrn_goes (a0 : Nat) (a1 : Nat) (a2 : QIn) (s : State) : Goes (execBrn a0 a1 a2 s) := by
  unfold execBrn
  try dsimp only
  repeat' first
    | with_reducible exact goes_next _
    | with_reducible refine goes_ite (fun _ => ?_) (fun _ => ?_)
    | split

theorem execCall_goes (a0 : Nat) (a1 : Nat) (a2 : QIn) (s : State) : Goes (execCall a0 a1 a2 s) := by
  unfold execCall
  try dsimp only
  repeat' first
    | with_reducible exact goes_next _
    | with_reducible refine goes_ite (fun _ => ?_) (fun _ => ?_)
    | split

theorem execRet_goes (a0 : Nat) (a1 : Nat) (a2 : QIn) (s : State) : Goes (execRet a0 a1 a2 s) := by
  unfold execRet
  try dsimp only
  repeat' first
    | with_reducible exact goes_next _
    | with_reducible refine goes_ite (fun _ => ?_) (fun _ => ?_)
    | split

theorem execLoop_goes (a0 : Nat) (a1 : Nat) (a2 : QIn) (s : State) : Goes (execLoop a0 a1 a2 s) := by
  unfold execLoop
  try dsimp only
  repeat' first
    | with_reducible exact goes_next _
    | with_reducible refine goes_ite (fun _ => ?_) (fun _ => ?_)
    | split

theorem execLdlc_goes (a0 : Nat) (a1 : Nat) (a2 : QIn) (s : State) : Goes (execLdlc a0 a1 a2 s) := by
  unfold execLdlc
  try dsimp only
  repeat' first
    | with_reducible exact goes_next _
    | with_reducible refine goes_ite (fun _ => ?_) (fun _ => ?_)
    | split

theorem execWait_goes (a0 : Nat) (a1 : Nat) (a2 : QIn) (s : State) : Goes (execWait a0 a1 a2 s) := by
  unfold execWait
  try dsimp only
  repeat' first
    | with_reducible exact goes_next _
    | with_reducible refine goes_ite (fun _ => ?_) (fun _ => ?_)
    | split

theorem execWaitRelease_goes (a0 : Nat) (a1 : Nat) (s : State) : Goes (execWaitRelease a0 a1 s) := by
  unfold execWaitRelease
  try dsimp only
  repeat' first
    | with_reducible exact goes_next _
    | with_reducible refine goes_ite (fun _ => ?_) (fun _ => ?_)
    | split

theorem execWline_goes (a0 : Nat) (a1 : Nat) (a2 : QIn) (s : State) : Goes (execWline a0 a1 a2 s) := by
  unfold execWline
  try dsimp only
  repeat' first
    | with_reducible exact goes_next _
    | with_reducible refine goes_ite (fun _ => ?_) (fun _ => ?_)
    | split

theorem execWlineRelease_goes (a0 : Nat) (a1 : Nat) (s : State) : Goes (execWlineRelease a0 a1 s) := by
  unfold execWlineRelease
  try dsimp only
  repeat' first
    | with_reducible exact goes_next _
    | with_reducible refine goes_ite (fun _ => ?_) (fun _ => ?_)
    | split

theorem execTmExpire_goes (a0 : Nat) (a1 : Nat) (s : State) : Goes (execTmExpire a0 a1 s) := by
  unfold execTmExpire
  try dsimp only
  repeat' first
    | with_reducible exact goes_next _
    | with_reducible refine goes_ite (fun _ => ?_) (fun _ => ?_)
    | split

theorem execScribe_goes (a0 : Nat) (a1 : Nat) (a2 : QIn) (s : State) : Goes (execScribe a0 a1 a2 s) := by
  unfold execScribe
  try dsimp only
  repeat' first
    | with_reducible exact goes_next _
    | with_reducible refine goes_ite (fun _ => ?_) (fun _ => ?_)
    | split

theorem execDone_goes (a0 : Nat) (a1 : Nat) (s : State) : Goes (execDone a0 a1 s) := by
  unfold execDone
  try dsimp only
  repeat' first
    | with_reducible exact goes_next _
    | with_reducible refine goes_ite (fun _ => ?_) (fun _ => ?_)
    | split

theorem execQuillScrubRead_goes (a0 : Nat) (a1 : Nat) (a2 : Bool) (s : State) : Goes (execQuillScrubRead a0 a1 a2 s) := by
  unfold execQuillScrubRead
  try dsimp only
  repeat' first
    | with_reducible exact goes_next _
    | with_reducible refine goes_ite (fun _ => ?_) (fun _ => ?_)
    | split

theorem execNibRestartComplete_goes (a0 : Nat) (a1 : List Nat) (s : State) : Goes (execNibRestartComplete a0 a1 s) := by
  unfold execNibRestartComplete
  try dsimp only
  repeat' first
    | with_reducible exact goes_next _
    | with_reducible refine goes_ite (fun _ => ?_) (fun _ => ?_)
    | split

theorem execScriptoriumLoad_goes (a0 : Ref) (a1 : Nat) (a2 : Nat) (a3 : Nat) (a4 : List Nat) (a5 : Bool) (s : State) : Goes (execScriptoriumLoad a0 a1 a2 a3 a4 a5 s) := by
  unfold execScriptoriumLoad
  try dsimp only
  repeat' first
    | with_reducible exact goes_next _
    | with_reducible apply State.done_goes
    | with_reducible refine goes_ite (fun _ => ?_) (fun _ => ?_)
    | split

theorem execFolioRequestComplete_goes (a0 : Nat) (s : State) : Goes (execFolioRequestComplete a0 s) := by
  unfold execFolioRequestComplete
  try dsimp only
  repeat' first
    | with_reducible exact goes_next _
    | with_reducible refine goes_ite (fun _ => ?_) (fun _ => ?_)
    | split

theorem execFolioScrub_goes (a0 : List (FolCopy × Bool)) (s : State) : Goes (execFolioScrub a0 s) := by
  unfold execFolioScrub
  try dsimp only
  repeat' first
    | with_reducible exact goes_next _
    | with_reducible refine goes_ite (fun _ => ?_) (fun _ => ?_)
    | split

theorem execGceRequest_goes (a0 : Nat) (a1 : GceOp) (a2 : Nat) (a3 : Bool) (a4 : Bool) (a5 : Bool) (s : State) : Goes (execGceRequest a0 a1 a2 a3 a4 a5 s) := by
  unfold execGceRequest
  try dsimp only
  repeat' first
    | with_reducible exact goes_next _
    | with_reducible refine goes_ite (fun _ => ?_) (fun _ => ?_)
    | split

theorem execGceLockTimeout_goes (s : State) : Goes (execGceLockTimeout s) := by
  unfold execGceLockTimeout
  try dsimp only
  repeat' first
    | with_reducible exact goes_next _
    | with_reducible refine goes_ite (fun _ => ?_) (fun _ => ?_)
    | split

theorem execEntropyHealthFail_goes (s : State) : Goes (execEntropyHealthFail s) := by
  unfold execEntropyHealthFail
  try dsimp only
  repeat' first
    | with_reducible exact goes_next _
    | with_reducible refine goes_ite (fun _ => ?_) (fun _ => ?_)
    | split

theorem execEntropyHealthPass_goes (s : State) : Goes (execEntropyHealthPass s) := by
  unfold execEntropyHealthPass
  try dsimp only
  repeat' first
    | with_reducible exact goes_next _
    | with_reducible refine goes_ite (fun _ => ?_) (fun _ => ?_)
    | split

theorem State.refuse_goes (s : State) (a1 : Ref) (a2 : Status) : Goes (State.refuse s a1 a2) := by
  unfold State.refuse
  try dsimp only
  repeat' first
    | with_reducible exact goes_next _
    | with_reducible refine goes_ite (fun _ => ?_) (fun _ => ?_)
    | split

theorem execFlush_goes (a0 : Ref) (a1 : Nat) (s : State) : Goes (execFlush a0 a1 s) := by
  unfold execFlush
  try dsimp only
  repeat' first
    | with_reducible exact goes_next _
    | with_reducible apply State.refuse_goes
    | with_reducible refine goes_ite (fun _ => ?_) (fun _ => ?_)
    | split

theorem execWrite_goes (a0 : Ref) (a1 : Nat) (a2 : Nat) (a3 : Nat) (a4 : Bool) (a5 : Nat) (a6 : Nat) (a7 : Option Ref) (s : State) : Goes (execWrite a0 a1 a2 a3 a4 a5 a6 a7 s) := by
  unfold execWrite
  try dsimp only
  repeat' first
    | with_reducible exact goes_next _
    | with_reducible apply State.refuse_goes
    | with_reducible refine goes_ite (fun _ => ?_) (fun _ => ?_)
    | split

theorem execRead_goes (a0 : Ref) (a1 : Nat) (a2 : Nat) (a3 : Nat) (a4 : ReadDue) (s : State) : Goes (execRead a0 a1 a2 a3 a4 s) := by
  unfold execRead
  try dsimp only
  repeat' first
    | with_reducible exact goes_next _
    | with_reducible apply State.refuse_goes
    | with_reducible refine goes_ite (fun _ => ?_) (fun _ => ?_)
    | split

theorem execCompare_goes (a0 : Ref) (a1 : Nat) (a2 : Nat) (a3 : Nat) (a4 : Comparison) (s : State) : Goes (execCompare a0 a1 a2 a3 a4 s) := by
  unfold execCompare
  try dsimp only
  repeat' first
    | with_reducible exact goes_next _
    | with_reducible apply State.refuse_goes
    | with_reducible refine goes_ite (fun _ => ?_) (fun _ => ?_)
    | split

theorem execWriteUncorrectable_goes (a0 : Ref) (a1 : Nat) (a2 : Nat) (a3 : Nat) (s : State) : Goes (execWriteUncorrectable a0 a1 a2 a3 s) := by
  unfold execWriteUncorrectable
  try dsimp only
  repeat' first
    | with_reducible exact goes_next _
    | with_reducible apply State.refuse_goes
    | with_reducible refine goes_ite (fun _ => ?_) (fun _ => ?_)
    | split

theorem execWriteZeroes_goes (a0 : Ref) (a1 : Nat) (a2 : Nat) (a3 : Nat) (s : State) : Goes (execWriteZeroes a0 a1 a2 a3 s) := by
  unfold execWriteZeroes
  try dsimp only
  repeat' first
    | with_reducible exact goes_next _
    | with_reducible apply State.refuse_goes
    | with_reducible refine goes_ite (fun _ => ?_) (fun _ => ?_)
    | split

theorem execDatasetManagement_goes (a0 : Ref) (a1 : Nat) (a2 : Nat) (a3 : List (Nat × Nat)) (s : State) : Goes (execDatasetManagement a0 a1 a2 a3 s) := by
  unfold execDatasetManagement
  try dsimp only
  repeat' first
    | with_reducible exact goes_next _
    | with_reducible apply State.refuse_goes
    | with_reducible refine goes_ite (fun _ => ?_) (fun _ => ?_)
    | split

theorem execSecureDiscard_goes (a0 : Ref) (a1 : Nat) (a2 : Nat) (a3 : List (Nat × Nat)) (s : State) : Goes (execSecureDiscard a0 a1 a2 a3 s) := by
  unfold execSecureDiscard
  try dsimp only
  repeat' first
    | with_reducible exact goes_next _
    | with_reducible apply State.refuse_goes
    | with_reducible refine goes_ite (fun _ => ?_) (fun _ => ?_)
    | split

theorem execOrderingPointStamp_goes (s : State) : Goes (execOrderingPointStamp s) := by
  unfold execOrderingPointStamp
  try dsimp only
  repeat' first
    | with_reducible exact goes_next _
    | with_reducible refine goes_ite (fun _ => ?_) (fun _ => ?_)
    | split

theorem execLinkTrainingComplete_goes (a0 : Nat) (a1 : Nat) (a2 : Nat) (a3 : Nat) (a4 : Bool) (s : State) : Goes (execLinkTrainingComplete a0 a1 a2 a3 a4 s) := by
  unfold execLinkTrainingComplete
  try dsimp only
  repeat' first
    | with_reducible exact goes_next _
    | with_reducible refine goes_ite (fun _ => ?_) (fun _ => ?_)
    | split

theorem execLinkRetrainTimer_goes (a0 : Nat) (s : State) : Goes (execLinkRetrainTimer a0 s) := by
  unfold execLinkRetrainTimer
  try dsimp only
  repeat' first
    | with_reducible exact goes_next _
    | with_reducible refine goes_ite (fun _ => ?_) (fun _ => ?_)
    | split

theorem execRetrainLink_goes (a0 : Nat) (s : State) : Goes (execRetrainLink a0 s) := by
  unfold execRetrainLink
  try dsimp only
  repeat' first
    | with_reducible exact goes_next _
    | with_reducible refine goes_ite (fun _ => ?_) (fun _ => ?_)
    | split

theorem execL0pRequest_goes (a0 : Nat) (a1 : Nat) (s : State) : Goes (execL0pRequest a0 a1 s) := by
  unfold execL0pRequest
  try dsimp only
  repeat' first
    | with_reducible exact goes_next _
    | with_reducible refine goes_ite (fun _ => ?_) (fun _ => ?_)
    | split

theorem execPerstAssert_goes (a0 : Nat) (s : State) : Goes (execPerstAssert a0 s) := by
  unfold execPerstAssert
  try dsimp only
  repeat' first
    | with_reducible exact goes_next _
    | with_reducible refine goes_ite (fun _ => ?_) (fun _ => ?_)
    | split

theorem execPerstDeassert_goes (a0 : Nat) (a1 : Bool) (s : State) : Goes (execPerstDeassert a0 a1 s) := by
  unfold execPerstDeassert
  try dsimp only
  repeat' first
    | with_reducible exact goes_next _
    | with_reducible refine goes_ite (fun _ => ?_) (fun _ => ?_)
    | split

theorem execHotReset_goes (a0 : Nat) (s : State) : Goes (execHotReset a0 s) := by
  unfold execHotReset
  try dsimp only
  repeat' first
    | with_reducible exact goes_next _
    | with_reducible refine goes_ite (fun _ => ?_) (fun _ => ?_)
    | split

theorem execLinkDown_goes (a0 : Nat) (s : State) : Goes (execLinkDown a0 s) := by
  unfold execLinkDown
  try dsimp only
  repeat' first
    | with_reducible exact goes_next _
    | with_reducible refine goes_ite (fun _ => ?_) (fun _ => ?_)
    | split

theorem execFunctionLevelReset_goes (a0 : Nat) (s : State) : Goes (execFunctionLevelReset a0 s) := by
  unfold execFunctionLevelReset
  try dsimp only
  repeat' first
    | with_reducible exact goes_next _
    | with_reducible refine goes_ite (fun _ => ?_) (fun _ => ?_)
    | split

theorem execConfigSpaceReady_goes (a0 : Nat) (a1 : CfgSpace) (s : State) : Goes (execConfigSpaceReady a0 a1 s) := by
  unfold execConfigSpaceReady
  try dsimp only
  repeat' first
    | with_reducible exact goes_next _
    | with_reducible refine goes_ite (fun _ => ?_) (fun _ => ?_)
    | split

theorem execMemoryReadCompletion_goes (a0 : MemRead) (a1 : MemIn) (s : State) : Goes (execMemoryReadCompletion a0 a1 s) := by
  unfold execMemoryReadCompletion
  try dsimp only
  repeat' first
    | with_reducible exact goes_next _
    | with_reducible refine goes_ite (fun _ => ?_) (fun _ => ?_)
    | split

theorem execCompletionTimeout_goes (a0 : MemRead) (s : State) : Goes (execCompletionTimeout a0 s) := by
  unfold execCompletionTimeout
  try dsimp only
  repeat' first
    | with_reducible exact goes_next _
    | with_reducible refine goes_ite (fun _ => ?_) (fun _ => ?_)
    | split

theorem execInvalidateRequest_goes (a0 : Nat) (a1 : Nat) (a2 : Nat) (a3 : Nat) (a4 : Nat) (a5 : List (Ref × Nat)) (s : State) : Goes (execInvalidateRequest a0 a1 a2 a3 a4 a5 s) := by
  unfold execInvalidateRequest
  try dsimp only
  repeat' first
    | with_reducible exact goes_next _
    | with_reducible refine goes_ite (fun _ => ?_) (fun _ => ?_)
    | split

theorem execInvalidateCompletion_goes (a0 : Nat) (s : State) : Goes (execInvalidateCompletion a0 s) := by
  unfold execInvalidateCompletion
  try dsimp only
  repeat' first
    | with_reducible exact goes_next _
    | with_reducible refine goes_ite (fun _ => ?_) (fun _ => ?_)
    | split

theorem execTranslationCompletion_goes (a0 : Nat) (a1 : Nat) (a2 : Nat) (a3 : Nat) (a4 : Nat) (s : State) : Goes (execTranslationCompletion a0 a1 a2 a3 a4 s) := by
  unfold execTranslationCompletion
  try dsimp only
  repeat' first
    | with_reducible exact goes_next _
    | with_reducible refine goes_ite (fun _ => ?_) (fun _ => ?_)
    | split

theorem execD3hotEntry_goes (a0 : Nat) (s : State) : Goes (execD3hotEntry a0 s) := by
  unfold execD3hotEntry
  try dsimp only
  repeat' first
    | with_reducible exact goes_next _
    | with_reducible refine goes_ite (fun _ => ?_) (fun _ => ?_)
    | split

theorem execD3hotExit_goes (a0 : Nat) (s : State) : Goes (execD3hotExit a0 s) := by
  unfold execD3hotExit
  try dsimp only
  repeat' first
    | with_reducible exact goes_next _
    | with_reducible refine goes_ite (fun _ => ?_) (fun _ => ?_)
    | split

theorem execVectorUnmask_goes (a0 : Nat) (a1 : MaskWrite) (s : State) : Goes (execVectorUnmask a0 a1 s) := by
  unfold execVectorUnmask
  try dsimp only
  repeat' first
    | with_reducible exact goes_next _
    | with_reducible refine goes_ite (fun _ => ?_) (fun _ => ?_)
    | split

theorem execDoeDataObject_goes (a0 : Nat) (a1 : Nat) (a2 : Nat) (s : State) : Goes (execDoeDataObject a0 a1 a2 s) := by
  unfold execDoeDataObject
  try dsimp only
  repeat' first
    | with_reducible exact goes_next _
    | with_reducible refine goes_ite (fun _ => ?_) (fun _ => ?_)
    | split

theorem execDoeAbort_goes (a0 : Nat) (s : State) : Goes (execDoeAbort a0 s) := by
  unfold execDoeAbort
  try dsimp only
  repeat' first
    | with_reducible exact goes_next _
    | with_reducible refine goes_ite (fun _ => ?_) (fun _ => ?_)
    | split

theorem execPfailNFall_goes (s : State) : Goes (execPfailNFall s) := by
  unfold execPfailNFall
  try dsimp only
  repeat' first
    | with_reducible exact goes_next _
    | with_reducible refine goes_ite (fun _ => ?_) (fun _ => ?_)
    | split

theorem execPfailDeglitchExpire_goes (s : State) : Goes (execPfailDeglitchExpire s) := by
  unfold execPfailDeglitchExpire
  try dsimp only
  repeat' first
    | with_reducible exact goes_next _
    | with_reducible refine goes_ite (fun _ => ?_) (fun _ => ?_)
    | split

theorem execPfailNRise_goes (s : State) : Goes (execPfailNRise s) := by
  unfold execPfailNRise
  try dsimp only
  repeat' first
    | with_reducible exact goes_next _
    | with_reducible refine goes_ite (fun _ => ?_) (fun _ => ?_)
    | split

theorem execPgoodTimerExpire_goes (s : State) : Goes (execPgoodTimerExpire s) := by
  unfold execPgoodTimerExpire
  try dsimp only
  repeat' first
    | with_reducible exact goes_next _
    | with_reducible refine goes_ite (fun _ => ?_) (fun _ => ?_)
    | split

theorem execHoldupEntry_goes (a0 : AonClock) (a1 : Nat) (s : State) : Goes (execHoldupEntry a0 a1 s) := by
  unfold execHoldupEntry
  try dsimp only
  repeat' first
    | with_reducible exact goes_next _
    | with_reducible refine goes_ite (fun _ => ?_) (fun _ => ?_)
    | split

theorem execHoldupDumpDeadline_goes (s : State) : Goes (execHoldupDumpDeadline s) := by
  unfold execHoldupDumpDeadline
  try dsimp only
  repeat' first
    | with_reducible exact goes_next _
    | with_reducible refine goes_ite (fun _ => ?_) (fun _ => ?_)
    | split

theorem execHoldupDumpComplete_goes (s : State) : Goes (execHoldupDumpComplete s) := by
  unfold execHoldupDumpComplete
  try dsimp only
  repeat' first
    | with_reducible exact goes_next _
    | with_reducible refine goes_ite (fun _ => ?_) (fun _ => ?_)
    | split

theorem execCommitGroupTimeout_goes (a0 : Nat) (s : State) : Goes (execCommitGroupTimeout a0 s) := by
  unfold execCommitGroupTimeout
  try dsimp only
  repeat' first
    | with_reducible exact goes_next _
    | with_reducible refine goes_ite (fun _ => ?_) (fun _ => ?_)
    | split

theorem execBlotterUnitAge_goes (a0 : Nat) (s : State) : Goes (execBlotterUnitAge a0 s) := by
  unfold execBlotterUnitAge
  try dsimp only
  repeat' first
    | with_reducible exact goes_next _
    | with_reducible refine goes_ite (fun _ => ?_) (fun _ => ?_)
    | split

theorem execMinOffTimeExpire_goes (s : State) : Goes (execMinOffTimeExpire s) := by
  unfold execMinOffTimeExpire
  try dsimp only
  repeat' first
    | with_reducible exact goes_next _
    | with_reducible refine goes_ite (fun _ => ?_) (fun _ => ?_)
    | split

theorem execRailGoodTimeout_goes (s : State) : Goes (execRailGoodTimeout s) := by
  unfold execRailGoodTimeout
  try dsimp only
  repeat' first
    | with_reducible exact goes_next _
    | with_reducible refine goes_ite (fun _ => ?_) (fun _ => ?_)
    | split

theorem execRailOutOfLimits_goes (s : State) : Goes (execRailOutOfLimits s) := by
  unfold execRailOutOfLimits
  try dsimp only
  repeat' first
    | with_reducible exact goes_next _
    | with_reducible refine goes_ite (fun _ => ?_) (fun _ => ?_)
    | split

theorem execThermalSensorSample_goes (a0 : List Int) (s : State) : Goes (execThermalSensorSample a0 s) := by
  unfold execThermalSensorSample
  try dsimp only
  repeat' first
    | with_reducible exact goes_next _
    | with_reducible refine goes_ite (fun _ => ?_) (fun _ => ?_)
    | split

theorem execThrottleLevelFall_goes (s : State) : Goes (execThrottleLevelFall s) := by
  unfold execThrottleLevelFall
  try dsimp only
  repeat' first
    | with_reducible exact goes_next _
    | with_reducible refine goes_ite (fun _ => ?_) (fun _ => ?_)
    | split

theorem execRateOfRiseWindow_goes (s : State) : Goes (execRateOfRiseWindow s) := by
  unfold execRateOfRiseWindow
  try dsimp only
  repeat' first
    | with_reducible exact goes_next _
    | with_reducible refine goes_ite (fun _ => ?_) (fun _ => ?_)
    | split

theorem execThermalHoldRelease_goes (s : State) : Goes (execThermalHoldRelease s) := by
  unfold execThermalHoldRelease
  try dsimp only
  repeat' first
    | with_reducible exact goes_next _
    | with_reducible refine goes_ite (fun _ => ?_) (fun _ => ?_)
    | split

theorem execAvsAckTimeout_goes (s : State) : Goes (execAvsAckTimeout s) := by
  unfold execAvsAckTimeout
  try dsimp only
  repeat' first
    | with_reducible exact goes_next _
    | with_reducible refine goes_ite (fun _ => ?_) (fun _ => ?_)
    | split

theorem execAvsReadbackPoll_goes (a0 : Nat) (s : State) : Goes (execAvsReadbackPoll a0 s) := by
  unfold execAvsReadbackPoll
  try dsimp only
  repeat' first
    | with_reducible exact goes_next _
    | with_reducible refine goes_ite (fun _ => ?_) (fun _ => ?_)
    | split

theorem execAvsAcknowledge_goes (a0 : Nat) (s : State) : Goes (execAvsAcknowledge a0 s) := by
  unfold execAvsAcknowledge
  try dsimp only
  repeat' first
    | with_reducible exact goes_next _
    | with_reducible refine goes_ite (fun _ => ?_) (fun _ => ?_)
    | split

theorem execRegisterWrite_goes (a0 : Nat) (a1 : Nat) (a2 : Nat) (a3 : WriteData) (s : State) : Goes (execRegisterWrite a0 a1 a2 a3 s) := by
  unfold execRegisterWrite
  try dsimp only
  repeat' first
    | with_reducible exact goes_next _
    | with_reducible refine goes_ite (fun _ => ?_) (fun _ => ?_)
    | split

theorem execDevSealWrite_goes (s : State) : Goes (execDevSealWrite s) := by
  unfold execDevSealWrite
  try dsimp only
  repeat' first
    | with_reducible exact goes_next _
    | with_reducible refine goes_ite (fun _ => ?_) (fun _ => ?_)
    | split

theorem execLoHiPairRead_goes (a0 : BarRead) (s : State) : Goes (execLoHiPairRead a0 s) := by
  unfold execLoHiPairRead
  try dsimp only
  repeat' first
    | with_reducible exact goes_next _
    | with_reducible refine goes_ite (fun _ => ?_) (fun _ => ?_)
    | split

theorem execGetLogPage_goes (a0 : Ref) (a1 : Nat) (a2 : Nat) (a3 : Nat) (a4 : Bool) (s : State) : Goes (execGetLogPage a0 a1 a2 a3 a4 s) := by
  unfold execGetLogPage
  try dsimp only
  repeat' first
    | with_reducible exact goes_next _
    | with_reducible refine goes_ite (fun _ => ?_) (fun _ => ?_)
    | split

theorem execGetLogPageHealth_goes (a0 : Ref) (a1 : Nat) (a2 : Nat) (a3 : Bool) (s : State) : Goes (execGetLogPageHealth a0 a1 a2 a3 s) := by
  unfold execGetLogPageHealth
  try dsimp only
  repeat' first
    | with_reducible exact goes_next _
    | with_reducible refine goes_ite (fun _ => ?_) (fun _ => ?_)
    | split

theorem execDozeIslandDelayExpire_goes (a0 : Nat) (s : State) : Goes (execDozeIslandDelayExpire a0 s) := by
  unfold execDozeIslandDelayExpire
  try dsimp only
  repeat' first
    | with_reducible exact goes_next _
    | with_reducible refine goes_ite (fun _ => ?_) (fun _ => ?_)
    | split

theorem execDozeAbortPoint_goes (s : State) : Goes (execDozeAbortPoint s) := by
  unfold execDozeAbortPoint
  try dsimp only
  repeat' first
    | with_reducible exact goes_next _
    | with_reducible refine goes_ite (fun _ => ?_) (fun _ => ?_)
    | split

theorem execDozeEntryRetry_goes (s : State) : Goes (execDozeEntryRetry s) := by
  unfold execDozeEntryRetry
  try dsimp only
  repeat' first
    | with_reducible exact goes_next _
    | with_reducible refine goes_ite (fun _ => ?_) (fun _ => ?_)
    | split

theorem execReservationRegister_goes (a0 : Ref) (a1 : Nat) (a2 : Nat) (a3 : Bool) (a4 : Nat) (a5 : Nat) (a6 : Nat) (s : State) : Goes (execReservationRegister a0 a1 a2 a3 a4 a5 a6 s) := by
  unfold execReservationRegister
  try dsimp only
  repeat' first
    | with_reducible exact goes_next _
    | with_reducible apply State.refuse_goes
    | with_reducible refine goes_ite (fun _ => ?_) (fun _ => ?_)
    | split

theorem execReservationReport_goes (a0 : Ref) (a1 : Nat) (a2 : Bool) (s : State) : Goes (execReservationReport a0 a1 a2 s) := by
  unfold execReservationReport
  try dsimp only
  repeat' first
    | with_reducible exact goes_next _
    | with_reducible apply State.refuse_goes
    | with_reducible refine goes_ite (fun _ => ?_) (fun _ => ?_)
    | split

theorem execReservationAcquire_goes (a0 : Ref) (a1 : Nat) (a2 : Nat) (a3 : Bool) (a4 : Nat) (a5 : Nat) (a6 : Nat) (s : State) : Goes (execReservationAcquire a0 a1 a2 a3 a4 a5 a6 s) := by
  unfold execReservationAcquire
  try dsimp only
  repeat' first
    | with_reducible exact goes_next _
    | with_reducible apply State.refuse_goes
    | with_reducible refine goes_ite (fun _ => ?_) (fun _ => ?_)
    | split

theorem execReservationRelease_goes (a0 : Ref) (a1 : Nat) (a2 : Nat) (a3 : Bool) (a4 : Nat) (a5 : Nat) (s : State) : Goes (execReservationRelease a0 a1 a2 a3 a4 a5 s) := by
  unfold execReservationRelease
  try dsimp only
  repeat' first
    | with_reducible exact goes_next _
    | with_reducible apply State.refuse_goes
    | with_reducible refine goes_ite (fun _ => ?_) (fun _ => ?_)
    | split

theorem State.begin_goes (s : State) (a1 : Ref) (a2 : State → State) : Goes (State.begin s a1 a2) := by
  unfold State.begin
  try dsimp only
  repeat' first
    | with_reducible exact goes_next _
    | with_reducible refine goes_ite (fun _ => ?_) (fun _ => ?_)
    | split

theorem execSetFeatures_goes (a0 : Ref) (a1 : Nat) (a2 : Nat) (a3 : Nat) (a4 : Bool) (a5 : Nat) (s : State) : Goes (execSetFeatures a0 a1 a2 a3 a4 a5 s) := by
  unfold execSetFeatures
  try dsimp only
  repeat' first
    | with_reducible exact goes_next _
    | with_reducible apply State.begin_goes
    | with_reducible refine goes_ite (fun _ => ?_) (fun _ => ?_)
    | split

theorem execSetFeaturesPowerMgmt_goes (a0 : Ref) (a1 : Bool) (a2 : Nat) (s : State) : Goes (execSetFeaturesPowerMgmt a0 a1 a2 s) := by
  unfold execSetFeaturesPowerMgmt
  try dsimp only
  repeat' first
    | with_reducible exact goes_next _
    | with_reducible apply State.begin_goes
    | with_reducible refine goes_ite (fun _ => ?_) (fun _ => ?_)
    | split

theorem execSetFeaturesNumQueues_goes (a0 : Ref) (a1 : Bool) (a2 : Nat) (s : State) : Goes (execSetFeaturesNumQueues a0 a1 a2 s) := by
  unfold execSetFeaturesNumQueues
  try dsimp only
  repeat' first
    | with_reducible exact goes_next _
    | with_reducible apply State.begin_goes
    | with_reducible refine goes_ite (fun _ => ?_) (fun _ => ?_)
    | split

theorem execSetFeaturesEnvelopeCap_goes (a0 : Ref) (a1 : Bool) (a2 : Nat) (s : State) : Goes (execSetFeaturesEnvelopeCap a0 a1 a2 s) := by
  unfold execSetFeaturesEnvelopeCap
  try dsimp only
  repeat' first
    | with_reducible exact goes_next _
    | with_reducible apply State.begin_goes
    | with_reducible refine goes_ite (fun _ => ?_) (fun _ => ?_)
    | split

theorem execSetFeaturesRulingPriority_goes (a0 : Ref) (a1 : Bool) (a2 : Nat) (s : State) : Goes (execSetFeaturesRulingPriority a0 a1 a2 s) := by
  unfold execSetFeaturesRulingPriority
  try dsimp only
  repeat' first
    | with_reducible exact goes_next _
    | with_reducible apply State.begin_goes
    | with_reducible refine goes_ite (fun _ => ?_) (fun _ => ?_)
    | split

theorem execSetFeaturesThermalLimits_goes (a0 : Ref) (a1 : Bool) (a2 : Nat) (s : State) : Goes (execSetFeaturesThermalLimits a0 a1 a2 s) := by
  unfold execSetFeaturesThermalLimits
  try dsimp only
  repeat' first
    | with_reducible exact goes_next _
    | with_reducible apply State.begin_goes
    | with_reducible refine goes_ite (fun _ => ?_) (fun _ => ?_)
    | split

theorem execSetFeaturesOwnerUpdateLock_goes (a0 : Ref) (a1 : Nat) (a2 : Option OwnerToken) (s : State) : Goes (execSetFeaturesOwnerUpdateLock a0 a1 a2 s) := by
  unfold execSetFeaturesOwnerUpdateLock
  try dsimp only
  repeat' first
    | with_reducible exact goes_next _
    | with_reducible apply State.begin_goes
    | with_reducible refine goes_ite (fun _ => ?_) (fun _ => ?_)
    | split

theorem execSetFeaturesCompletionPolicy_goes (a0 : Ref) (a1 : Nat) (a2 : Bool) (a3 : Nat) (s : State) : Goes (execSetFeaturesCompletionPolicy a0 a1 a2 a3 s) := by
  unfold execSetFeaturesCompletionPolicy
  try dsimp only
  repeat' first
    | with_reducible exact goes_next _
    | with_reducible apply State.begin_goes
    | with_reducible refine goes_ite (fun _ => ?_) (fun _ => ?_)
    | split

theorem execSetFeaturesDeadlineReads_goes (a0 : Ref) (a1 : Bool) (a2 : Nat) (s : State) : Goes (execSetFeaturesDeadlineReads a0 a1 a2 s) := by
  unfold execSetFeaturesDeadlineReads
  try dsimp only
  repeat' first
    | with_reducible exact goes_next _
    | with_reducible apply State.begin_goes
    | with_reducible refine goes_ite (fun _ => ?_) (fun _ => ?_)
    | split

theorem execSetFeaturesPatrolPeriod_goes (a0 : Ref) (a1 : Bool) (a2 : Nat) (s : State) : Goes (execSetFeaturesPatrolPeriod a0 a1 a2 s) := by
  unfold execSetFeaturesPatrolPeriod
  try dsimp only
  repeat' first
    | with_reducible exact goes_next _
    | with_reducible apply State.begin_goes
    | with_reducible refine goes_ite (fun _ => ?_) (fun _ => ?_)
    | split

theorem execSetFeaturesInkTime_goes (a0 : Ref) (a1 : Bool) (a2 : Nat) (s : State) : Goes (execSetFeaturesInkTime a0 a1 a2 s) := by
  unfold execSetFeaturesInkTime
  try dsimp only
  repeat' first
    | with_reducible exact goes_next _
    | with_reducible apply State.begin_goes
    | with_reducible refine goes_ite (fun _ => ?_) (fun _ => ?_)
    | split

theorem execSetFeaturesFdp_goes (a0 : Ref) (a1 : Bool) (a2 : Bool) (s : State) : Goes (execSetFeaturesFdp a0 a1 a2 s) := by
  unfold execSetFeaturesFdp
  try dsimp only
  repeat' first
    | with_reducible exact goes_next _
    | with_reducible apply State.begin_goes
    | with_reducible refine goes_ite (fun _ => ?_) (fun _ => ?_)
    | split

theorem execGetFeatures_goes (a0 : Ref) (a1 : Nat) (a2 : Nat) (a3 : Nat) (a4 : Nat) (s : State) : Goes (execGetFeatures a0 a1 a2 a3 a4 s) := by
  unfold execGetFeatures
  try dsimp only
  repeat' first
    | with_reducible exact goes_next _
    | with_reducible apply State.begin_goes
    | with_reducible refine goes_ite (fun _ => ?_) (fun _ => ?_)
    | split

theorem execCreateIoCq_goes (a0 : Ref) (a1 : Nat) (a2 : Nat) (a3 : Nat) (a4 : Bool) (a5 : Bool) (s : State) : Goes (execCreateIoCq a0 a1 a2 a3 a4 a5 s) := by
  unfold execCreateIoCq
  try dsimp only
  repeat' first
    | with_reducible exact goes_next _
    | with_reducible apply State.begin_goes
    | with_reducible refine goes_ite (fun _ => ?_) (fun _ => ?_)
    | split

theorem execCreateIoSq_goes (a0 : Ref) (a1 : Nat) (a2 : Nat) (a3 : Nat) (a4 : Nat) (a5 : Bool) (s : State) : Goes (execCreateIoSq a0 a1 a2 a3 a4 a5 s) := by
  unfold execCreateIoSq
  try dsimp only
  repeat' first
    | with_reducible exact goes_next _
    | with_reducible apply State.begin_goes
    | with_reducible refine goes_ite (fun _ => ?_) (fun _ => ?_)
    | split

theorem execDeleteIoSq_goes (a0 : Ref) (a1 : Nat) (s : State) : Goes (execDeleteIoSq a0 a1 s) := by
  unfold execDeleteIoSq
  try dsimp only
  repeat' first
    | with_reducible exact goes_next _
    | with_reducible apply State.begin_goes
    | with_reducible refine goes_ite (fun _ => ?_) (fun _ => ?_)
    | split

theorem execDeleteIoCq_goes (a0 : Ref) (a1 : Nat) (s : State) : Goes (execDeleteIoCq a0 a1 s) := by
  unfold execDeleteIoCq
  try dsimp only
  repeat' first
    | with_reducible exact goes_next _
    | with_reducible apply State.begin_goes
    | with_reducible refine goes_ite (fun _ => ?_) (fun _ => ?_)
    | split

theorem execDoorbellBufferConfig_goes (a0 : Ref) (a1 : Nat) (a2 : Nat) (s : State) : Goes (execDoorbellBufferConfig a0 a1 a2 s) := by
  unfold execDoorbellBufferConfig
  try dsimp only
  repeat' first
    | with_reducible exact goes_next _
    | with_reducible apply State.begin_goes
    | with_reducible refine goes_ite (fun _ => ?_) (fun _ => ?_)
    | split

theorem execIdentify_goes (a0 : Ref) (a1 : Nat) (a2 : Nat) (a3 : Nat) (s : State) : Goes (execIdentify a0 a1 a2 a3 s) := by
  unfold execIdentify
  try dsimp only
  repeat' first
    | with_reducible exact goes_next _
    | with_reducible apply State.begin_goes
    | with_reducible refine goes_ite (fun _ => ?_) (fun _ => ?_)
    | split

theorem execAbort_goes (a0 : Ref) (a1 : Nat) (a2 : Nat) (s : State) : Goes (execAbort a0 a1 a2 s) := by
  unfold execAbort
  try dsimp only
  repeat' first
    | with_reducible exact goes_next _
    | with_reducible apply State.begin_goes
    | with_reducible refine goes_ite (fun _ => ?_) (fun _ => ?_)
    | split

theorem execAsyncEventRequest_goes (a0 : Ref) (s : State) : Goes (execAsyncEventRequest a0 s) := by
  unfold execAsyncEventRequest
  try dsimp only
  repeat' first
    | with_reducible exact goes_next _
    | with_reducible apply State.begin_goes
    | with_reducible refine goes_ite (fun _ => ?_) (fun _ => ?_)
    | split

theorem execKeepAlive_goes (a0 : Ref) (s : State) : Goes (execKeepAlive a0 s) := by
  unfold execKeepAlive
  try dsimp only
  repeat' first
    | with_reducible exact goes_next _
    | with_reducible apply State.begin_goes
    | with_reducible refine goes_ite (fun _ => ?_) (fun _ => ?_)
    | split

theorem execDirectiveSend_goes (a0 : Ref) (a1 : Nat) (a2 : Nat) (a3 : Nat) (a4 : Nat) (s : State) : Goes (execDirectiveSend a0 a1 a2 a3 a4 s) := by
  unfold execDirectiveSend
  try dsimp only
  repeat' first
    | with_reducible exact goes_next _
    | with_reducible apply State.begin_goes
    | with_reducible refine goes_ite (fun _ => ?_) (fun _ => ?_)
    | split

theorem execDirectiveReceive_goes (a0 : Ref) (a1 : Nat) (a2 : Nat) (a3 : Nat) (s : State) : Goes (execDirectiveReceive a0 a1 a2 a3 s) := by
  unfold execDirectiveReceive
  try dsimp only
  repeat' first
    | with_reducible exact goes_next _
    | with_reducible apply State.begin_goes
    | with_reducible refine goes_ite (fun _ => ?_) (fun _ => ?_)
    | split

theorem execAuthorityAcquire_goes (a0 : Ref) (s : State) : Goes (execAuthorityAcquire a0 s) := by
  unfold execAuthorityAcquire
  try dsimp only
  repeat' first
    | with_reducible exact goes_next _
    | with_reducible apply State.begin_goes
    | with_reducible refine goes_ite (fun _ => ?_) (fun _ => ?_)
    | split

theorem execAuthorityRelease_goes (a0 : Ref) (s : State) : Goes (execAuthorityRelease a0 s) := by
  unfold execAuthorityRelease
  try dsimp only
  repeat' first
    | with_reducible exact goes_next _
    | with_reducible apply State.begin_goes
    | with_reducible refine goes_ite (fun _ => ?_) (fun _ => ?_)
    | split

theorem execAenWaitTimeout_goes (a0 : Nat) (a1 : Nat) (s : State) : Goes (execAenWaitTimeout a0 a1 s) := by
  unfold execAenWaitTimeout
  try dsimp only
  repeat' first
    | with_reducible exact goes_next _
    | with_reducible refine goes_ite (fun _ => ?_) (fun _ => ?_)
    | split

theorem execAlertResponseAddress_goes (s : State) : Goes (execAlertResponseAddress s) := by
  unfold execAlertResponseAddress
  try dsimp only
  repeat' first
    | with_reducible exact goes_next _
    | with_reducible refine goes_ite (fun _ => ?_) (fun _ => ?_)
    | split

theorem execIbiAccept_goes (s : State) : Goes (execIbiAccept s) := by
  unfold execIbiAccept
  try dsimp only
  repeat' first
    | with_reducible exact goes_next _
    | with_reducible refine goes_ite (fun _ => ?_) (fun _ => ?_)
    | split

theorem execMapPageScrub_goes (a0 : ScrubFound) (s : State) : Goes (execMapPageScrub a0 s) := by
  unfold execMapPageScrub
  try dsimp only
  repeat' first
    | with_reducible exact goes_next _
    | with_reducible refine goes_ite (fun _ => ?_) (fun _ => ?_)
    | split

theorem execIdlePadTimeout_goes (a0 : Nat) (s : State) : Goes (execIdlePadTimeout a0 s) := by
  unfold execIdlePadTimeout
  try dsimp only
  repeat' first
    | with_reducible exact goes_next _
    | with_reducible refine goes_ite (fun _ => ?_) (fun _ => ?_)
    | split

theorem execBandOpen_goes (a0 : Nat) (s : State) : Goes (execBandOpen a0 s) := by
  unfold execBandOpen
  try dsimp only
  repeat' first
    | with_reducible exact goes_next _
    | with_reducible refine goes_ite (fun _ => ?_) (fun _ => ?_)
    | split

theorem execReclaimVictimPick_goes (s : State) : Goes (execReclaimVictimPick s) := by
  unfold execReclaimVictimPick
  try dsimp only
  repeat' first
    | with_reducible exact goes_next _
    | with_reducible refine goes_ite (fun _ => ?_) (fun _ => ?_)
    | split

theorem execBandEraseStart_goes (a0 : Nat) (s : State) : Goes (execBandEraseStart a0 s) := by
  unfold execBandEraseStart
  try dsimp only
  repeat' first
    | with_reducible exact goes_next _
    | with_reducible refine goes_ite (fun _ => ?_) (fun _ => ?_)
    | split

theorem execWearSpreadCheck_goes (s : State) : Goes (execWearSpreadCheck s) := by
  unfold execWearSpreadCheck
  try dsimp only
  repeat' first
    | with_reducible exact goes_next _
    | with_reducible refine goes_ite (fun _ => ?_) (fun _ => ?_)
    | split

theorem execVaux33Good_goes (a0 : Nat) (s : State) : Goes (execVaux33Good a0 s) := by
  unfold execVaux33Good
  try dsimp only
  repeat' first
    | with_reducible exact goes_next _
    | with_reducible refine goes_ite (fun _ => ?_) (fun _ => ?_)
    | split

theorem execEntdaa_goes (a0 : Nat) (s : State) : Goes (execEntdaa a0 s) := by
  unfold execEntdaa
  try dsimp only
  repeat' first
    | with_reducible exact goes_next _
    | with_reducible refine goes_ite (fun _ => ?_) (fun _ => ?_)
    | split

theorem execSetdasa_goes (a0 : Nat) (a1 : Nat) (s : State) : Goes (execSetdasa a0 a1 s) := by
  unfold execSetdasa
  try dsimp only
  repeat' first
    | with_reducible exact goes_next _
    | with_reducible refine goes_ite (fun _ => ?_) (fun _ => ?_)
    | split

theorem execRstdaa_goes (s : State) : Goes (execRstdaa s) := by
  unfold execRstdaa
  try dsimp only
  repeat' first
    | with_reducible exact goes_next _
    | with_reducible refine goes_ite (fun _ => ?_) (fun _ => ?_)
    | split

theorem State.mctp_goes (s : State) (a1 : Request) (a2 : State → State) : Goes (State.mctp s a1 a2) := by
  unfold State.mctp
  try dsimp only
  repeat' first
    | with_reducible exact goes_next _
    | with_reducible refine goes_ite (fun _ => ?_) (fun _ => ?_)
    | split

theorem execSetEndpointId_goes (a0 : Nat) (a1 : Nat) (s : State) : Goes (execSetEndpointId a0 a1 s) := by
  unfold execSetEndpointId
  try dsimp only
  repeat' first
    | with_reducible exact goes_next _
    | with_reducible apply State.mctp_goes
    | with_reducible refine goes_ite (fun _ => ?_) (fun _ => ?_)
    | split

theorem execGetEndpointId_goes (s : State) : Goes (execGetEndpointId s) := by
  unfold execGetEndpointId
  try dsimp only
  repeat' first
    | with_reducible exact goes_next _
    | with_reducible apply State.mctp_goes
    | with_reducible refine goes_ite (fun _ => ?_) (fun _ => ?_)
    | split

theorem execGetEndpointUuid_goes (s : State) : Goes (execGetEndpointUuid s) := by
  unfold execGetEndpointUuid
  try dsimp only
  repeat' first
    | with_reducible exact goes_next _
    | with_reducible apply State.mctp_goes
    | with_reducible refine goes_ite (fun _ => ?_) (fun _ => ?_)
    | split

theorem execGetMctpVersionSupport_goes (a0 : Nat) (s : State) : Goes (execGetMctpVersionSupport a0 s) := by
  unfold execGetMctpVersionSupport
  try dsimp only
  repeat' first
    | with_reducible exact goes_next _
    | with_reducible apply State.mctp_goes
    | with_reducible refine goes_ite (fun _ => ?_) (fun _ => ?_)
    | split

theorem execGetMessageTypeSupport_goes (s : State) : Goes (execGetMessageTypeSupport s) := by
  unfold execGetMessageTypeSupport
  try dsimp only
  repeat' first
    | with_reducible exact goes_next _
    | with_reducible apply State.mctp_goes
    | with_reducible refine goes_ite (fun _ => ?_) (fun _ => ?_)
    | split

theorem State.mi_goes (s : State) (a1 : Request) (a2 : Nat) (a3 : Service) (a4 : State → State) : Goes (State.mi s a1 a2 a3 a4) := by
  unfold State.mi
  try dsimp only
  repeat' first
    | with_reducible exact goes_next _
    | with_reducible apply State.mctp_goes
    | with_reducible refine goes_ite (fun _ => ?_) (fun _ => ?_)
    | split

theorem execNvmSubsystemHealthStatusPoll_goes (a0 : Nat) (s : State) : Goes (execNvmSubsystemHealthStatusPoll a0 s) := by
  unfold execNvmSubsystemHealthStatusPoll
  try dsimp only
  repeat' first
    | with_reducible exact goes_next _
    | with_reducible apply State.mi_goes
    | with_reducible refine goes_ite (fun _ => ?_) (fun _ => ?_)
    | split

theorem execControllerHealthStatusPoll_goes (a0 : Nat) (a1 : Nat) (s : State) : Goes (execControllerHealthStatusPoll a0 a1 s) := by
  unfold execControllerHealthStatusPoll
  try dsimp only
  repeat' first
    | with_reducible exact goes_next _
    | with_reducible apply State.mi_goes
    | with_reducible refine goes_ite (fun _ => ?_) (fun _ => ?_)
    | split

theorem execReadNvmeMiDataStructure_goes (a0 : Nat) (a1 : Nat) (a2 : Nat) (s : State) : Goes (execReadNvmeMiDataStructure a0 a1 a2 s) := by
  unfold execReadNvmeMiDataStructure
  try dsimp only
  repeat' first
    | with_reducible exact goes_next _
    | with_reducible apply State.mi_goes
    | with_reducible refine goes_ite (fun _ => ?_) (fun _ => ?_)
    | split

theorem execConfigurationGet_goes (a0 : Nat) (a1 : Nat) (s : State) : Goes (execConfigurationGet a0 a1 s) := by
  unfold execConfigurationGet
  try dsimp only
  repeat' first
    | with_reducible exact goes_next _
    | with_reducible apply State.mi_goes
    | with_reducible refine goes_ite (fun _ => ?_) (fun _ => ?_)
    | split

theorem execConfigurationSet_goes (a0 : Nat) (a1 : Nat) (a2 : Nat) (s : State) : Goes (execConfigurationSet a0 a1 a2 s) := by
  unfold execConfigurationSet
  try dsimp only
  repeat' first
    | with_reducible exact goes_next _
    | with_reducible apply State.mi_goes
    | with_reducible refine goes_ite (fun _ => ?_) (fun _ => ?_)
    | split

theorem execVpdRead_goes (a0 : Nat) (a1 : Nat) (a2 : Nat) (s : State) : Goes (execVpdRead a0 a1 a2 s) := by
  unfold execVpdRead
  try dsimp only
  repeat' first
    | with_reducible exact goes_next _
    | with_reducible apply State.mi_goes
    | with_reducible refine goes_ite (fun _ => ?_) (fun _ => ?_)
    | split

theorem execTunnelledAdminCommand_goes (a0 : Nat) (a1 : Nat) (a2 : Nat) (a3 : Option Nat) (s : State) : Goes (execTunnelledAdminCommand a0 a1 a2 a3 s) := by
  unfold execTunnelledAdminCommand
  try dsimp only
  repeat' first
    | with_reducible exact goes_next _
    | with_reducible apply State.mctp_goes
    | with_reducible apply State.mi_goes
    | with_reducible refine goes_ite (fun _ => ?_) (fun _ => ?_)
    | split

theorem execPowerOn_goes (a0 : Nat) (s : State) : Goes (execPowerOn a0 s) := by
  unfold execPowerOn
  try dsimp only
  repeat' first
    | with_reducible exact goes_next _
    | with_reducible apply State.mi_goes
    | with_reducible refine goes_ite (fun _ => ?_) (fun _ => ?_)
    | split

theorem execPowerOff_goes (a0 : Nat) (s : State) : Goes (execPowerOff a0 s) := by
  unfold execPowerOff
  try dsimp only
  repeat' first
    | with_reducible exact goes_next _
    | with_reducible apply State.mi_goes
    | with_reducible refine goes_ite (fun _ => ?_) (fun _ => ?_)
    | split

theorem execRegisterWindowRead_goes (a0 : Nat) (a1 : Nat) (a2 : Nat) (s : State) : Goes (execRegisterWindowRead a0 a1 a2 s) := by
  unfold execRegisterWindowRead
  try dsimp only
  repeat' first
    | with_reducible exact goes_next _
    | with_reducible apply State.mi_goes
    | with_reducible refine goes_ite (fun _ => ?_) (fun _ => ?_)
    | split

theorem execMiAuthorityAcquire_goes (a0 : Nat) (s : State) : Goes (execMiAuthorityAcquire a0 s) := by
  unfold execMiAuthorityAcquire
  try dsimp only
  repeat' first
    | with_reducible exact goes_next _
    | with_reducible apply State.mi_goes
    | with_reducible refine goes_ite (fun _ => ?_) (fun _ => ?_)
    | split

theorem execMiAuthorityRelease_goes (a0 : Nat) (s : State) : Goes (execMiAuthorityRelease a0 s) := by
  unfold execMiAuthorityRelease
  try dsimp only
  repeat' first
    | with_reducible exact goes_next _
    | with_reducible apply State.mi_goes
    | with_reducible refine goes_ite (fun _ => ?_) (fun _ => ?_)
    | split

theorem execAuthorityLapse_goes (s : State) : Goes (execAuthorityLapse s) := by
  unfold execAuthorityLapse
  try dsimp only
  repeat' first
    | with_reducible exact goes_next _
    | with_reducible refine goes_ite (fun _ => ?_) (fun _ => ?_)
    | split

theorem State.pfOnly_goes (s : State) (a1 : Ref) (a2 : State → State) : Goes (State.pfOnly s a1 a2) := by
  unfold State.pfOnly
  try dsimp only
  repeat' first
    | with_reducible exact goes_next _
    | with_reducible apply State.begin_goes
    | with_reducible refine goes_ite (fun _ => ?_) (fun _ => ?_)
    | split

theorem execNamespaceManagement_goes (a0 : Ref) (a1 : Nat) (a2 : Nat) (a3 : Nat) (a4 : Nat) (a5 : List Nat) (s : State) : Goes (execNamespaceManagement a0 a1 a2 a3 a4 a5 s) := by
  unfold execNamespaceManagement
  try dsimp only
  repeat' first
    | with_reducible exact goes_next _
    | with_reducible apply State.pfOnly_goes
    | with_reducible refine goes_ite (fun _ => ?_) (fun _ => ?_)
    | split

theorem execNamespaceAttachment_goes (a0 : Ref) (a1 : Nat) (a2 : Nat) (a3 : List Nat) (s : State) : Goes (execNamespaceAttachment a0 a1 a2 a3 s) := by
  unfold execNamespaceAttachment
  try dsimp only
  repeat' first
    | with_reducible exact goes_next _
    | with_reducible apply State.pfOnly_goes
    | with_reducible refine goes_ite (fun _ => ?_) (fun _ => ?_)
    | split

theorem execFormatNvm_goes (a0 : Ref) (a1 : Nat) (a2 : Nat) (a3 : Nat) (s : State) : Goes (execFormatNvm a0 a1 a2 a3 s) := by
  unfold execFormatNvm
  try dsimp only
  repeat' first
    | with_reducible exact goes_next _
    | with_reducible apply State.pfOnly_goes
    | with_reducible refine goes_ite (fun _ => ?_) (fun _ => ?_)
    | split

theorem execSanitizeBlockErase_goes (a0 : Ref) (a1 : Bool) (s : State) : Goes (execSanitizeBlockErase a0 a1 s) := by
  unfold execSanitizeBlockErase
  try dsimp only
  repeat' first
    | with_reducible exact goes_next _
    | with_reducible apply State.pfOnly_goes
    | with_reducible refine goes_ite (fun _ => ?_) (fun _ => ?_)
    | split

theorem execSanitizeCryptoErase_goes (a0 : Ref) (a1 : Bool) (s : State) : Goes (execSanitizeCryptoErase a0 a1 s) := by
  unfold execSanitizeCryptoErase
  try dsimp only
  repeat' first
    | with_reducible exact goes_next _
    | with_reducible apply State.pfOnly_goes
    | with_reducible refine goes_ite (fun _ => ?_) (fun _ => ?_)
    | split

theorem execSanitizeExitFailure_goes (a0 : Ref) (a1 : Nat) (a2 : Bool) (s : State) : Goes (execSanitizeExitFailure a0 a1 a2 s) := by
  unfold execSanitizeExitFailure
  try dsimp only
  repeat' first
    | with_reducible exact goes_next _
    | with_reducible apply State.pfOnly_goes
    | with_reducible refine goes_ite (fun _ => ?_) (fun _ => ?_)
    | split

theorem execPatrolWindow_goes (s : State) : Goes (execPatrolWindow s) := by
  unfold execPatrolWindow
  try dsimp only
  repeat' first
    | with_reducible exact goes_next _
    | with_reducible refine goes_ite (fun _ => ?_) (fun _ => ?_)
    | split

theorem execVaux33Loss_goes (s : State) : Goes (execVaux33Loss s) := by
  unfold execVaux33Loss
  try dsimp only
  repeat' first
    | with_reducible exact goes_next _
    | with_reducible refine goes_ite (fun _ => ?_) (fun _ => ?_)
    | split

theorem execPowerUpStepDone_goes (a0 : Nat) (a1 : BootEnv) (s : State) : Goes (execPowerUpStepDone a0 a1 s) := by
  unfold execPowerUpStepDone
  try dsimp only
  repeat' first
    | with_reducible exact goes_next _
    | with_reducible refine goes_ite (fun _ => ?_) (fun _ => ?_)
    | split

theorem execPowerDownStepDone_goes (a0 : Nat) (s : State) : Goes (execPowerDownStepDone a0 s) := by
  unfold execPowerDownStepDone
  try dsimp only
  repeat' first
    | with_reducible exact goes_next _
    | with_reducible refine goes_ite (fun _ => ?_) (fun _ => ?_)
    | split

theorem execNvmSubsystemReset_goes (a0 : BootEnv) (s : State) : Goes (execNvmSubsystemReset a0 s) := by
  unfold execNvmSubsystemReset
  try dsimp only
  repeat' first
    | with_reducible exact goes_next _
    | with_reducible refine goes_ite (fun _ => ?_) (fun _ => ?_)
    | split

theorem execMiReset_goes (a0 : Nat) (a1 : BootEnv) (s : State) : Goes (execMiReset a0 a1 s) := by
  unfold execMiReset
  try dsimp only
  repeat' first
    | with_reducible exact goes_next _
    | with_reducible apply State.mi_goes
    | with_reducible refine goes_ite (fun _ => ?_) (fun _ => ?_)
    | split

theorem execDeviceReset_goes (a0 : Nat) (a1 : BootEnv) (s : State) : Goes (execDeviceReset a0 a1 s) := by
  unfold execDeviceReset
  try dsimp only
  repeat' first
    | with_reducible exact goes_next _
    | with_reducible apply State.mi_goes
    | with_reducible refine goes_ite (fun _ => ?_) (fun _ => ?_)
    | split

theorem execDevResetWrite_goes (a0 : Nat) (a1 : BootEnv) (s : State) : Goes (execDevResetWrite a0 a1 s) := by
  unfold execDevResetWrite
  try dsimp only
  repeat' first
    | with_reducible exact goes_next _
    | with_reducible refine goes_ite (fun _ => ?_) (fun _ => ?_)
    | split

theorem execRegisterWindowWrite_goes (a0 : Nat) (a1 : Nat) (a2 : List Nat) (a3 : BootEnv) (s : State) : Goes (execRegisterWindowWrite a0 a1 a2 a3 s) := by
  unfold execRegisterWindowWrite
  try dsimp only
  repeat' first
    | with_reducible exact goes_next _
    | with_reducible apply State.mi_goes
    | with_reducible refine goes_ite (fun _ => ?_) (fun _ => ?_)
    | split

theorem execTrialWatchdogExpire_goes (a0 : BootEnv) (s : State) : Goes (execTrialWatchdogExpire a0 s) := by
  unfold execTrialWatchdogExpire
  try dsimp only
  repeat' first
    | with_reducible exact goes_next _
    | with_reducible refine goes_ite (fun _ => ?_) (fun _ => ?_)
    | split

theorem execCstsRdySet_goes (a0 : BootEnv) (s : State) : Goes (execCstsRdySet a0 s) := by
  unfold execCstsRdySet
  try dsimp only
  repeat' first
    | with_reducible exact goes_next _
    | with_reducible refine goes_ite (fun _ => ?_) (fun _ => ?_)
    | split

theorem execDoorbellWrite_goes (a0 : Nat) (a1 : Nat) (a2 : Bool) (a3 : Nat) (a4 : Bool) (s : State) : Goes (execDoorbellWrite a0 a1 a2 a3 a4 s) := by
  unfold execDoorbellWrite
  try dsimp only
  repeat' first
    | with_reducible exact goes_next _
    | with_reducible refine goes_ite (fun _ => ?_) (fun _ => ?_)
    | split

theorem execShadowTailPoll_goes (a0 : Nat) (a1 : Nat) (a2 : Nat) (a3 : List (Nat × Nat)) (s : State) : Goes (execShadowTailPoll a0 a1 a2 a3 s) := by
  unfold execShadowTailPoll
  try dsimp only
  repeat' first
    | with_reducible exact goes_next _
    | with_reducible refine goes_ite (fun _ => ?_) (fun _ => ?_)
    | split

theorem execSqIdleTimeout_goes (a0 : Nat) (a1 : Nat) (s : State) : Goes (execSqIdleTimeout a0 a1 s) := by
  unfold execSqIdleTimeout
  try dsimp only
  repeat' first
    | with_reducible exact goes_next _
    | with_reducible refine goes_ite (fun _ => ?_) (fun _ => ?_)
    | split

theorem execSqFetchGrant_goes (s : State) : Goes (execSqFetchGrant s) := by
  unfold execSqFetchGrant
  try dsimp only
  repeat' first
    | with_reducible exact goes_next _
    | with_reducible refine goes_ite (fun _ => ?_) (fun _ => ?_)
    | split

theorem execControllerEnable_goes (a0 : Nat) (a1 : Nat) (a2 : Nat) (a3 : CcWrite) (s : State) : Goes (execControllerEnable a0 a1 a2 a3 s) := by
  unfold execControllerEnable
  try dsimp only
  repeat' first
    | with_reducible exact goes_next _
    | with_reducible refine goes_ite (fun _ => ?_) (fun _ => ?_)
    | split

theorem execControllerReset_goes (a0 : Nat) (s : State) : Goes (execControllerReset a0 s) := by
  unfold execControllerReset
  try dsimp only
  repeat' first
    | with_reducible exact goes_next _
    | with_reducible refine goes_ite (fun _ => ?_) (fun _ => ?_)
    | split

theorem execNormalShutdown_goes (a0 : Nat) (s : State) : Goes (execNormalShutdown a0 s) := by
  unfold execNormalShutdown
  try dsimp only
  repeat' first
    | with_reducible exact goes_next _
    | with_reducible refine goes_ite (fun _ => ?_) (fun _ => ?_)
    | split

theorem execAbruptShutdown_goes (a0 : Nat) (s : State) : Goes (execAbruptShutdown a0 s) := by
  unfold execAbruptShutdown
  try dsimp only
  repeat' first
    | with_reducible exact goes_next _
    | with_reducible refine goes_ite (fun _ => ?_) (fun _ => ?_)
    | split

theorem State.spdmReq_goes (s : State) (a1 : Request) (a2 : Party) (a3 : State → State) : Goes (State.spdmReq s a1 a2 a3) := by
  unfold State.spdmReq
  try dsimp only
  repeat' first
    | with_reducible exact goes_next _
    | with_reducible apply State.mctp_goes
    | with_reducible refine goes_ite (fun _ => ?_) (fun _ => ?_)
    | split

theorem execGetVersion_goes (a0 : Party) (s : State) : Goes (execGetVersion a0 s) := by
  unfold execGetVersion
  try dsimp only
  repeat' first
    | with_reducible exact goes_next _
    | with_reducible apply State.spdmReq_goes
    | with_reducible refine goes_ite (fun _ => ?_) (fun _ => ?_)
    | split

theorem execGetCapabilities_goes (a0 : Party) (s : State) : Goes (execGetCapabilities a0 s) := by
  unfold execGetCapabilities
  try dsimp only
  repeat' first
    | with_reducible exact goes_next _
    | with_reducible apply State.spdmReq_goes
    | with_reducible refine goes_ite (fun _ => ?_) (fun _ => ?_)
    | split

theorem execNegotiateAlgorithms_goes (a0 : Party) (a1 : Bool) (s : State) : Goes (execNegotiateAlgorithms a0 a1 s) := by
  unfold execNegotiateAlgorithms
  try dsimp only
  repeat' first
    | with_reducible exact goes_next _
    | with_reducible apply State.spdmReq_goes
    | with_reducible refine goes_ite (fun _ => ?_) (fun _ => ?_)
    | split

theorem execGetDigests_goes (a0 : Party) (s : State) : Goes (execGetDigests a0 s) := by
  unfold execGetDigests
  try dsimp only
  repeat' first
    | with_reducible exact goes_next _
    | with_reducible apply State.spdmReq_goes
    | with_reducible refine goes_ite (fun _ => ?_) (fun _ => ?_)
    | split

theorem execGetCertificate_goes (a0 : Party) (a1 : Nat) (a2 : Nat) (a3 : Nat) (s : State) : Goes (execGetCertificate a0 a1 a2 a3 s) := by
  unfold execGetCertificate
  try dsimp only
  repeat' first
    | with_reducible exact goes_next _
    | with_reducible apply State.spdmReq_goes
    | with_reducible refine goes_ite (fun _ => ?_) (fun _ => ?_)
    | split

theorem execChallenge_goes (a0 : Party) (a1 : Nat) (s : State) : Goes (execChallenge a0 a1 s) := by
  unfold execChallenge
  try dsimp only
  repeat' first
    | with_reducible exact goes_next _
    | with_reducible apply State.spdmReq_goes
    | with_reducible refine goes_ite (fun _ => ?_) (fun _ => ?_)
    | split

theorem execGetMeasurements_goes (a0 : Party) (a1 : Nat) (s : State) : Goes (execGetMeasurements a0 a1 s) := by
  unfold execGetMeasurements
  try dsimp only
  repeat' first
    | with_reducible exact goes_next _
    | with_reducible apply State.spdmReq_goes
    | with_reducible refine goes_ite (fun _ => ?_) (fun _ => ?_)
    | split

theorem execKeyExchange_goes (a0 : Party) (a1 : Nat) (s : State) : Goes (execKeyExchange a0 a1 s) := by
  unfold execKeyExchange
  try dsimp only
  repeat' first
    | with_reducible exact goes_next _
    | with_reducible apply State.spdmReq_goes
    | with_reducible refine goes_ite (fun _ => ?_) (fun _ => ?_)
    | split

theorem execFinish_goes (a0 : Party) (a1 : Nat) (a2 : Bool) (s : State) : Goes (execFinish a0 a1 a2 s) := by
  unfold execFinish
  try dsimp only
  repeat' first
    | with_reducible exact goes_next _
    | with_reducible apply State.spdmReq_goes
    | with_reducible refine goes_ite (fun _ => ?_) (fun _ => ?_)
    | split

theorem execHeartbeat_goes (a0 : Party) (a1 : Nat) (s : State) : Goes (execHeartbeat a0 a1 s) := by
  unfold execHeartbeat
  try dsimp only
  repeat' first
    | with_reducible exact goes_next _
    | with_reducible apply State.spdmReq_goes
    | with_reducible refine goes_ite (fun _ => ?_) (fun _ => ?_)
    | split

theorem execKeyUpdate_goes (a0 : Party) (a1 : Nat) (a2 : Nat) (s : State) : Goes (execKeyUpdate a0 a1 a2 s) := by
  unfold execKeyUpdate
  try dsimp only
  repeat' first
    | with_reducible exact goes_next _
    | with_reducible apply State.spdmReq_goes
    | with_reducible refine goes_ite (fun _ => ?_) (fun _ => ?_)
    | split

theorem execEndSession_goes (a0 : Party) (a1 : Nat) (s : State) : Goes (execEndSession a0 a1 s) := by
  unfold execEndSession
  try dsimp only
  repeat' first
    | with_reducible exact goes_next _
    | with_reducible apply State.spdmReq_goes
    | with_reducible refine goes_ite (fun _ => ?_) (fun _ => ?_)
    | split

theorem execStrokeAgePromote_goes (a0 : Nat) (s : State) : Goes (execStrokeAgePromote a0 s) := by
  unfold execStrokeAgePromote
  try dsimp only
  repeat' first
    | with_reducible exact goes_next _
    | with_reducible refine goes_ite (fun _ => ?_) (fun _ => ?_)
    | split

theorem execStrokeOverrun_goes (a0 : Nat) (s : State) : Goes (execStrokeOverrun a0 s) := by
  unfold execStrokeOverrun
  try dsimp only
  repeat' first
    | with_reducible exact goes_next _
    | with_reducible refine goes_ite (fun _ => ?_) (fun _ => ?_)
    | split

theorem execSlowWindowEnd_goes (s : State) : Goes (execSlowWindowEnd s) := by
  unfold execSlowWindowEnd
  try dsimp only
  repeat' first
    | with_reducible exact goes_next _
    | with_reducible refine goes_ite (fun _ => ?_) (fun _ => ?_)
    | split

theorem execRulingTick_goes (a0 : Upset) (s : State) : Goes (execRulingTick a0 s) := by
  unfold execRulingTick
  try dsimp only
  repeat' first
    | with_reducible exact goes_next _
    | with_reducible refine goes_ite (fun _ => ?_) (fun _ => ?_)
    | split

theorem heldRun_goes (a0 : Request) (s : State) : Goes (heldRun a0 s) := by
  unfold heldRun
  try dsimp only
  repeat' first
    | with_reducible exact goes_next _
    | with_reducible apply execPowerOn_goes
    | with_reducible apply execGetDigests_goes
    | with_reducible apply execNegotiateAlgorithms_goes
    | with_reducible apply execReadNvmeMiDataStructure_goes
    | with_reducible apply execRegisterWindowWrite_goes
    | with_reducible apply execEndSession_goes
    | with_reducible apply execFinish_goes
    | with_reducible apply execGetMeasurements_goes
    | with_reducible apply execGetMessageTypeSupport_goes
    | with_reducible apply execKeyUpdate_goes
    | with_reducible apply execGetVersion_goes
    | with_reducible apply execGetEndpointId_goes
    | with_reducible apply execGetCertificate_goes
    | with_reducible apply execDeviceReset_goes
    | with_reducible apply execChallenge_goes
    | with_reducible apply execTunnelledAdminCommand_goes
    | with_reducible apply execVpdRead_goes
    | with_reducible apply execRegisterWindowRead_goes
    | with_reducible apply execKeyExchange_goes
    | with_reducible apply execGetCapabilities_goes
    | with_reducible apply execMiReset_goes
    | with_reducible apply execConfigurationGet_goes
    | with_reducible apply execMiAuthorityAcquire_goes
    | with_reducible apply execGetMctpVersionSupport_goes
    | with_reducible apply execControllerHealthStatusPoll_goes
    | with_reducible apply execConfigurationSet_goes
    | with_reducible apply execMiAuthorityRelease_goes
    | with_reducible apply execNvmSubsystemHealthStatusPoll_goes
    | with_reducible apply execSetEndpointId_goes
    | with_reducible apply execHeartbeat_goes
    | with_reducible apply execGetEndpointUuid_goes
    | with_reducible apply execPowerOff_goes
    | with_reducible refine goes_ite (fun _ => ?_) (fun _ => ?_)
    | split

theorem execDozeLoopWake_goes (a0 : AonClock) (a1 : Nat) (a2 : List Int) (a3 : Nat) (s : State) : Goes (execDozeLoopWake a0 a1 a2 a3 s) := by
  unfold execDozeLoopWake
  try dsimp only
  repeat' first
    | with_reducible exact goes_next _
    | with_reducible refine goes_ite (fun _ => ?_) (fun _ => ?_)
    | split

theorem exec_goes (c : Instr) (s : State) : Goes (exec c s) := by
  cases c with
  | pfailNFall => rw [exec_pfailNFall]; exact execPfailNFall_goes ..
  | pfailDeglitchExpire => rw [exec_pfailDeglitchExpire]; exact execPfailDeglitchExpire_goes ..
  | pfailNRise => rw [exec_pfailNRise]; exact execPfailNRise_goes ..
  | pgoodTimerExpire => rw [exec_pgoodTimerExpire]; exact execPgoodTimerExpire_goes ..
  | holdupEntry clk ticks => rw [exec_holdupEntry]; exact execHoldupEntry_goes ..
  | holdupDumpDeadline => rw [exec_holdupDumpDeadline]; exact execHoldupDumpDeadline_goes ..
  | holdupDumpComplete => rw [exec_holdupDumpComplete]; exact execHoldupDumpComplete_goes ..
  | powerUpStepDone k env => rw [exec_powerUpStepDone]; exact execPowerUpStepDone_goes ..
  | powerDownStepDone k => rw [exec_powerDownStepDone]; exact execPowerDownStepDone_goes ..
  | minOffTimeExpire => rw [exec_minOffTimeExpire]; exact execMinOffTimeExpire_goes ..
  | railGoodTimeout => rw [exec_railGoodTimeout]; exact execRailGoodTimeout_goes ..
  | railOutOfLimits => rw [exec_railOutOfLimits]; exact execRailOutOfLimits_goes ..
  | vaux33Loss => rw [exec_vaux33Loss]; exact execVaux33Loss_goes ..
  | thermalSensorSample temps => rw [exec_thermalSensorSample]; exact execThermalSensorSample_goes ..
  | throttleLevelFall => rw [exec_throttleLevelFall]; exact execThrottleLevelFall_goes ..
  | rateOfRiseWindow => rw [exec_rateOfRiseWindow]; exact execRateOfRiseWindow_goes ..
  | thermalHoldRelease => rw [exec_thermalHoldRelease]; exact execThermalHoldRelease_goes ..
  | avsAckTimeout => rw [exec_avsAckTimeout]; exact execAvsAckTimeout_goes ..
  | avsReadbackPoll vread => rw [exec_avsReadbackPoll]; exact execAvsReadbackPoll_goes ..
  | dozeIslandDelayExpire us => rw [exec_dozeIslandDelayExpire]; exact execDozeIslandDelayExpire_goes ..
  | dozeAbortPoint => rw [exec_dozeAbortPoint]; exact execDozeAbortPoint_goes ..
  | dozeEntryRetry => rw [exec_dozeEntryRetry]; exact execDozeEntryRetry_goes ..
  | dozeLoopWake clk ticks temps vnow => rw [exec_dozeLoopWake]; exact execDozeLoopWake_goes ..
  | rulingTick upset => rw [exec_rulingTick]; exact execRulingTick_goes ..
  | linePulse => rw [exec_linePulse]; exact execLinePulse_goes ..
  | lineAnnouncement island count => rw [exec_lineAnnouncement]; exact execLineAnnouncement_goes ..
  | syncInEdge => rw [exec_syncInEdge]; exact execSyncInEdge_goes ..
  | syncInLossTimeout => rw [exec_syncInLossTimeout]; exact execSyncInLossTimeout_goes ..
  | rulingStepApply => rw [exec_rulingStepApply]; exact execRulingStepApply_goes ..
  | ptmDialogStart => rw [exec_ptmDialogStart]; exact execPtmDialogStart_goes ..
  | ptmResponse port master => rw [exec_ptmResponse]; exact execPtmResponse_goes ..
  | ptmDialogTimeout port => rw [exec_ptmDialogTimeout]; exact execPtmDialogTimeout_goes ..
  | todArm => rw [exec_todArm]; exact execTodArm_goes ..
  | rulNowLoRead => rw [exec_rulNowLoRead]; exact execRulNowLoRead_goes ..
  | loHiPairRead off => rw [exec_loHiPairRead]; exact execLoHiPairRead_goes ..
  | rulingStepAuthorize ref cdw10 => rw [exec_rulingStepAuthorize]; exact execRulingStepAuthorize_goes ..
  | strokePlace => rw [exec_strokePlace]; exact execStrokePlace_goes ..
  | strokeAgePromote req => rw [exec_strokeAgePromote]; exact execStrokeAgePromote_goes ..
  | descriptorAccept nib seq => rw [exec_descriptorAccept]; exact execDescriptorAccept_goes ..
  | strokeDueLine nib seq ofs busHeld => rw [exec_strokeDueLine]; exact execStrokeDueLine_goes ..
  | quillContextStart nib seq par => rw [exec_quillContextStart]; exact execQuillContextStart_goes ..
  | strokeComplete nib => rw [exec_strokeComplete]; exact execStrokeComplete_goes ..
  | strokeOverrun req => rw [exec_strokeOverrun]; exact execStrokeOverrun_goes ..
  | slowWindowEnd => rw [exec_slowWindowEnd]; exact execSlowWindowEnd_goes ..
  | statusPoll lun sr => rw [exec_statusPoll]; exact execStatusPoll_goes ..
  | rbNRise lun sr => rw [exec_rbNRise]; exact execRbNRise_goes ..
  | strokeTimeout nib seq => rw [exec_strokeTimeout]; exact execStrokeTimeout_goes ..
  | resetWaitTimeout lun => rw [exec_resetWaitTimeout]; exact execResetWaitTimeout_goes ..
  | nibTempRead nib => rw [exec_nibTempRead]; exact execNibTempRead_goes ..
  | tempStaleTimeout lun => rw [exec_tempStaleTimeout]; exact execTempStaleTimeout_goes ..
  | nibRetrain nib => rw [exec_nibRetrain]; exact execNibRetrain_goes ..
  | nibCtrlRetrain nib => rw [exec_nibCtrlRetrain]; exact execNibCtrlRetrain_goes ..
  | decoderKat nib ok => rw [exec_decoderKat]; exact execDecoderKat_goes ..
  | busTransferDone nib seq data cell => rw [exec_busTransferDone]; exact execBusTransferDone_goes ..
  | codewordDecodeDone nib seq ok bits unsat mis pband => rw [exec_codewordDecodeDone]; exact execCodewordDecodeDone_goes ..
  | next nib ctx q => rw [exec_next]; exact execNext_goes ..
  | jump nib ctx q => rw [exec_jump]; exact execJump_goes ..
  | br nib ctx q => rw [exec_br]; exact execBr_goes ..
  | brn nib ctx q => rw [exec_brn]; exact execBrn_goes ..
  | call nib ctx q => rw [exec_call]; exact execCall_goes ..
  | ret nib ctx q => rw [exec_ret]; exact execRet_goes ..
  | loop nib ctx q => rw [exec_loop]; exact execLoop_goes ..
  | ldlc nib ctx q => rw [exec_ldlc]; exact execLdlc_goes ..
  | wait nib ctx q => rw [exec_wait]; exact execWait_goes ..
  | waitRelease nib ctx => rw [exec_waitRelease]; exact execWaitRelease_goes ..
  | wline nib ctx q => rw [exec_wline]; exact execWline_goes ..
  | wlineRelease nib ctx => rw [exec_wlineRelease]; exact execWlineRelease_goes ..
  | tmExpire nib ctx => rw [exec_tmExpire]; exact execTmExpire_goes ..
  | scribe nib ctx q => rw [exec_scribe]; exact execScribe_goes ..
  | done nib ctx => rw [exec_done]; exact execDone_goes ..
  | quillScrubRead nib addr bad => rw [exec_quillScrubRead]; exact execQuillScrubRead_goes ..
  | nibRestartComplete nib badTargets => rw [exec_nibRestartComplete]; exact execNibRestartComplete_goes ..
  | linkTrainingComplete port rate width faulty flit => rw [exec_linkTrainingComplete]; exact execLinkTrainingComplete_goes ..
  | linkRetrainTimer port => rw [exec_linkRetrainTimer]; exact execLinkRetrainTimer_goes ..
  | retrainLink port => rw [exec_retrainLink]; exact execRetrainLink_goes ..
  | perstAssert port => rw [exec_perstAssert]; exact execPerstAssert_goes ..
  | perstDeassert port strap => rw [exec_perstDeassert]; exact execPerstDeassert_goes ..
  | hotReset port => rw [exec_hotReset]; exact execHotReset_goes ..
  | linkDown port => rw [exec_linkDown]; exact execLinkDown_goes ..
  | functionLevelReset fn => rw [exec_functionLevelReset]; exact execFunctionLevelReset_goes ..
  | nvmSubsystemReset env => rw [exec_nvmSubsystemReset]; exact execNvmSubsystemReset_goes ..
  | configSpaceReady port cfg => rw [exec_configSpaceReady]; exact execConfigSpaceReady_goes ..
  | memoryReadCompletion what res => rw [exec_memoryReadCompletion]; exact execMemoryReadCompletion_goes ..
  | completionTimeout what => rw [exec_completionTimeout]; exact execCompletionTimeout_goes ..
  | invalidateRequest port itag fn lo n waits => rw [exec_invalidateRequest]; exact execInvalidateRequest_goes ..
  | invalidateCompletion port => rw [exec_invalidateCompletion]; exact execInvalidateCompletion_goes ..
  | translationCompletion port fn page xlat issued => rw [exec_translationCompletion]; exact execTranslationCompletion_goes ..
  | l0pRequest port width => rw [exec_l0pRequest]; exact execL0pRequest_goes ..
  | d3hotEntry fn => rw [exec_d3hotEntry]; exact execD3hotEntry_goes ..
  | vectorUnmask fn vec => rw [exec_vectorUnmask]; exact execVectorUnmask_goes ..
  | doeDataObject pf kind len => rw [exec_doeDataObject]; exact execDoeDataObject_goes ..
  | doeAbort pf => rw [exec_doeAbort]; exact execDoeAbort_goes ..
  | doorbellWrite ctrl qid isCq value poison => rw [exec_doorbellWrite]; exact execDoorbellWrite_goes ..
  | shadowTailPoll ctrl qid value heads => rw [exec_shadowTailPoll]; exact execShadowTailPoll_goes ..
  | sqIdleTimeout ctrl qid => rw [exec_sqIdleTimeout]; exact execSqIdleTimeout_goes ..
  | sqFetchGrant => rw [exec_sqFetchGrant]; exact execSqFetchGrant_goes ..
  | orderingPointStamp => rw [exec_orderingPointStamp]; exact execOrderingPointStamp_goes ..
  | controllerEnable ctrl asqs acqs ams => rw [exec_controllerEnable]; exact execControllerEnable_goes ..
  | controllerReset ctrl => rw [exec_controllerReset]; exact execControllerReset_goes ..
  | normalShutdown ctrl => rw [exec_normalShutdown]; exact execNormalShutdown_goes ..
  | abruptShutdown ctrl => rw [exec_abruptShutdown]; exact execAbruptShutdown_goes ..
  | createIoSq ref qid qsize cqid prio pc => rw [exec_createIoSq]; exact execCreateIoSq_goes ..
  | createIoCq ref qid qsize vector ien pc => rw [exec_createIoCq]; exact execCreateIoCq_goes ..
  | deleteIoSq ref qid => rw [exec_deleteIoSq]; exact execDeleteIoSq_goes ..
  | deleteIoCq ref qid => rw [exec_deleteIoCq]; exact execDeleteIoCq_goes ..
  | getLogPage ref lid off len rae => rw [exec_getLogPage]; exact execGetLogPage_goes ..
  | getLogPageHealth ref off len rae => rw [exec_getLogPageHealth]; exact execGetLogPageHealth_goes ..
  | identify ref cns nsid cntid => rw [exec_identify]; exact execIdentify_goes ..
  | abort ref sqid cid => rw [exec_abort]; exact execAbort_goes ..
  | setFeatures ref fid nsid cdw11 save data => rw [exec_setFeatures]; exact execSetFeatures_goes ..
  | getFeatures ref fid nsid sel cdw11 => rw [exec_getFeatures]; exact execGetFeatures_goes ..
  | setFeaturesPowerMgmt ref save cdw11 => rw [exec_setFeaturesPowerMgmt]; exact execSetFeaturesPowerMgmt_goes ..
  | setFeaturesNumQueues ref save cdw11 => rw [exec_setFeaturesNumQueues]; exact execSetFeaturesNumQueues_goes ..
  | setFeaturesEnvelopeCap ref save cdw11 => rw [exec_setFeaturesEnvelopeCap]; exact execSetFeaturesEnvelopeCap_goes ..
  | setFeaturesRulingPriority ref save cdw11 => rw [exec_setFeaturesRulingPriority]; exact execSetFeaturesRulingPriority_goes ..
  | setFeaturesThermalLimits ref save cdw11 => rw [exec_setFeaturesThermalLimits]; exact execSetFeaturesThermalLimits_goes ..
  | setFeaturesOwnerUpdateLock ref cdw11 token => rw [exec_setFeaturesOwnerUpdateLock]; exact execSetFeaturesOwnerUpdateLock_goes ..
  | setFeaturesCompletionPolicy ref nsid save cdw11 => rw [exec_setFeaturesCompletionPolicy]; exact execSetFeaturesCompletionPolicy_goes ..
  | setFeaturesDeadlineReads ref save cdw11 => rw [exec_setFeaturesDeadlineReads]; exact execSetFeaturesDeadlineReads_goes ..
  | setFeaturesPatrolPeriod ref save cdw11 => rw [exec_setFeaturesPatrolPeriod]; exact execSetFeaturesPatrolPeriod_goes ..
  | setFeaturesInkTime ref save cdw11 => rw [exec_setFeaturesInkTime]; exact execSetFeaturesInkTime_goes ..
  | setFeaturesFdp ref save enable => rw [exec_setFeaturesFdp]; exact execSetFeaturesFdp_goes ..
  | asyncEventRequest ref => rw [exec_asyncEventRequest]; exact execAsyncEventRequest_goes ..
  | namespaceManagement ref sel nsid blocks lbaf handles => rw [exec_namespaceManagement]; exact execNamespaceManagement_goes ..
  | namespaceAttachment ref sel nsid ctrls => rw [exec_namespaceAttachment]; exact execNamespaceAttachment_goes ..
  | firmwareImageDownload ref offset length chunks => rw [exec_firmwareImageDownload]; exact execFirmwareImageDownload_goes ..
  | firmwareCommitStore ref slot => rw [exec_firmwareCommitStore]; exact execFirmwareCommitStore_goes ..
  | firmwareCommitActivate ref slot => rw [exec_firmwareCommitActivate]; exact execFirmwareCommitActivate_goes ..
  | firmwareCommitSlotActivate ref action slot => rw [exec_firmwareCommitSlotActivate]; exact execFirmwareCommitSlotActivate_goes ..
  | keepAlive ref => rw [exec_keepAlive]; exact execKeepAlive_goes ..
  | directiveSend ref nsid dtype doper cdw12 => rw [exec_directiveSend]; exact execDirectiveSend_goes ..
  | directiveReceive ref nsid dtype doper => rw [exec_directiveReceive]; exact execDirectiveReceive_goes ..
  | doorbellBufferConfig ref prp1 prp2 => rw [exec_doorbellBufferConfig]; exact execDoorbellBufferConfig_goes ..
  | formatNvm ref nsid lbaf ses => rw [exec_formatNvm]; exact execFormatNvm_goes ..
  | sanitizeBlockErase ref ause => rw [exec_sanitizeBlockErase]; exact execSanitizeBlockErase_goes ..
  | sanitizeCryptoErase ref ause => rw [exec_sanitizeCryptoErase]; exact execSanitizeCryptoErase_goes ..
  | sanitizeExitFailure ref sanact ause => rw [exec_sanitizeExitFailure]; exact execSanitizeExitFailure_goes ..
  | cutCreate ref nsid cdw10 cdw11 cdw12 => rw [exec_cutCreate]; exact execCutCreate_goes ..
  | cutRelease ref cdw10 => rw [exec_cutRelease]; exact execCutRelease_goes ..
  | scriptoriumLoad ref cdw10 cdw11 cdw12 data digest => rw [exec_scriptoriumLoad]; exact execScriptoriumLoad_goes ..
  | roleDrill ref params reports => rw [exec_roleDrill]; exact execRoleDrill_goes ..
  | chainSweepMeasure ref cdw10 => rw [exec_chainSweepMeasure]; exact execChainSweepMeasure_goes ..
  | chainSweepRelay ref cdw11 => rw [exec_chainSweepRelay]; exact execChainSweepRelay_goes ..
  | lifecycleTransition ref dest len token => rw [exec_lifecycleTransition]; exact execLifecycleTransition_goes ..
  | authorityAcquire ref => rw [exec_authorityAcquire]; exact execAuthorityAcquire_goes ..
  | authorityRelease ref => rw [exec_authorityRelease]; exact execAuthorityRelease_goes ..
  | flush ref nsid => rw [exec_flush]; exact execFlush_goes ..
  | write ref nsid slba nlb fua dtype dspec gate => rw [exec_write]; exact execWrite_goes ..
  | read ref nsid slba nlb deadline => rw [exec_read]; exact execRead_goes ..
  | writeUncorrectable ref nsid slba nlb => rw [exec_writeUncorrectable]; exact execWriteUncorrectable_goes ..
  | compare ref nsid slba nlb same => rw [exec_compare]; exact execCompare_goes ..
  | writeZeroes ref nsid slba nlb => rw [exec_writeZeroes]; exact execWriteZeroes_goes ..
  | datasetManagement ref nsid cdw11 ranges => rw [exec_datasetManagement]; exact execDatasetManagement_goes ..
  | secureDiscard ref nsid cdw11 ranges => rw [exec_secureDiscard]; exact execSecureDiscard_goes ..
  | reservationRegister ref nsid rrega iekey cptpl crkey nrkey => rw [exec_reservationRegister]; exact execReservationRegister_goes ..
  | reservationReport ref nsid eds => rw [exec_reservationReport]; exact execReservationReport_goes ..
  | reservationAcquire ref nsid racqa iekey rtype crkey prkey => rw [exec_reservationAcquire]; exact execReservationAcquire_goes ..
  | reservationRelease ref nsid rrela iekey rtype crkey => rw [exec_reservationRelease]; exact execReservationRelease_goes ..
  | xtsUnitDone ref lba pass => rw [exec_xtsUnitDone]; exact execXtsUnitDone_goes ..
  | laneKatDone lane pass => rw [exec_laneKatDone]; exact execLaneKatDone_goes ..
  | commitGroupTimeout group => rw [exec_commitGroupTimeout]; exact execCommitGroupTimeout_goes ..
  | inkwellGrant => rw [exec_inkwellGrant]; exact execInkwellGrant_goes ..
  | inkwellWaitPad => rw [exec_inkwellWaitPad]; exact execInkwellWaitPad_goes ..
  | inkwellAuditPass mismatch => rw [exec_inkwellAuditPass]; exact execInkwellAuditPass_goes ..
  | ownerRegister min drop => rw [exec_ownerRegister]; exact execOwnerRegister_goes ..
  | keySlotLoad slot key equalHalves => rw [exec_keySlotLoad]; exact execKeySlotLoad_goes ..
  | keySlotClear slot => rw [exec_keySlotClear]; exact execKeySlotClear_goes ..
  | mapPageScrub found => rw [exec_mapPageScrub]; exact execMapPageScrub_goes ..
  | idlePadTimeout wp => rw [exec_idlePadTimeout]; exact execIdlePadTimeout_goes ..
  | bandOpen wp => rw [exec_bandOpen]; exact execBandOpen_goes ..
  | reclaimVictimPick => rw [exec_reclaimVictimPick]; exact execReclaimVictimPick_goes ..
  | bandEraseStart band => rw [exec_bandEraseStart]; exact execBandEraseStart_goes ..
  | wearSpreadCheck => rw [exec_wearSpreadCheck]; exact execWearSpreadCheck_goes ..
  | checkpointStart => rw [exec_checkpointStart]; exact execCheckpointStart_goes ..
  | checkpointSlow => rw [exec_checkpointSlow]; exact execCheckpointSlow_goes ..
  | cutHold slot => rw [exec_cutHold]; exact execCutHold_goes ..
  | cutEvict => rw [exec_cutEvict]; exact execCutEvict_goes ..
  | cstsRdySet env => rw [exec_cstsRdySet]; exact execCstsRdySet_goes ..
  | unitRebuildDone id ok => rw [exec_unitRebuildDone]; exact execUnitRebuildDone_goes ..
  | patrolWindow => rw [exec_patrolWindow]; exact execPatrolWindow_goes ..
  | vstoreSample code => rw [exec_vstoreSample]; exact execVstoreSample_goes ..
  | budgetRecompute => rw [exec_budgetRecompute]; exact execBudgetRecompute_goes ..
  | holdupSelfTest => rw [exec_holdupSelfTest]; exact execHoldupSelfTest_goes ..
  | blotterUnitAge group => rw [exec_blotterUnitAge]; exact execBlotterUnitAge_goes ..
  | tineCompareMismatch tine => rw [exec_tineCompareMismatch]; exact execTineCompareMismatch_goes ..
  | tineStateError tine => rw [exec_tineStateError]; exact execTineStateError_goes ..
  | tineOutputOffer tine stream osn crc => rw [exec_tineOutputOffer]; exact execTineOutputOffer_goes ..
  | mergeGapTimeout stream => rw [exec_mergeGapTimeout]; exact execMergeGapTimeout_goes ..
  | overlapClose => rw [exec_overlapClose]; exact execOverlapClose_goes ..
  | handoverComplete => rw [exec_handoverComplete]; exact execHandoverComplete_goes ..
  | tineSelfTestDone tine pass us => rw [exec_tineSelfTestDone]; exact execTineSelfTestDone_goes ..
  | resyncStart => rw [exec_resyncStart]; exact execResyncStart_goes ..
  | resyncComplete => rw [exec_resyncComplete]; exact execResyncComplete_goes ..
  | drillDue reports => rw [exec_drillDue]; exact execDrillDue_goes ..
  | aenWaitTimeout ctrl group => rw [exec_aenWaitTimeout]; exact execAenWaitTimeout_goes ..
  | alertResponseAddress => rw [exec_alertResponseAddress]; exact execAlertResponseAddress_goes ..
  | ibiAccept => rw [exec_ibiAccept]; exact execIbiAccept_goes ..
  | folioRequestComplete status => rw [exec_folioRequestComplete]; exact execFolioRequestComplete_goes ..
  | folioScrub words => rw [exec_folioScrub]; exact execFolioScrub_goes ..
  | gceRequest owner op handle match1 match2 last => rw [exec_gceRequest]; exact execGceRequest_goes ..
  | gceLockTimeout => rw [exec_gceLockTimeout]; exact execGceLockTimeout_goes ..
  | entropyHealthFail => rw [exec_entropyHealthFail]; exact execEntropyHealthFail_goes ..
  | idle port => rw [exec_idle]; exact execIdle_goes ..
  | enum port id => rw [exec_enum]; exact execEnum_goes ..
  | sync port t1 master hops src cls unc => rw [exec_sync]; exact execSync_goes ..
  | dreq port t3 => rw [exec_dreq]; exact execDreq_goes ..
  | dresp port t4 => rw [exec_dresp]; exact execDresp_goes ..
  | claim port id => rw [exec_claim]; exact execClaim_goes ..
  | contended port id => rw [exec_contended]; exact execContended_goes ..
  | nomaster port => rw [exec_nomaster]; exact execNomaster_goes ..
  | cut port time node number all => rw [exec_cut]; exact execCut_goes ..
  | sweepReq port issuer => rw [exec_sweepReq]; exact execSweepReq_goes ..
  | sweepEnt port part e => rw [exec_sweepEnt]; exact execSweepEnt_goes ..
  | sweepEnd port openAfter => rw [exec_sweepEnd]; exact execSweepEnd_goes ..
  | relayStart port action chunks => rw [exec_relayStart]; exact execRelayStart_goes ..
  | chunk port k c => rw [exec_chunk]; exact execChunk_goes ..
  | ack port k pass => rw [exec_ack]; exact execAck_goes ..
  | relayAbort port => rw [exec_relayAbort]; exact execRelayAbort_goes ..
  | bxlBadFrame up => rw [exec_bxlBadFrame]; exact execBxlBadFrame_goes ..
  | bxlPortLoss up => rw [exec_bxlPortLoss]; exact execBxlPortLoss_goes ..
  | bxlTimeExchangeStart => rw [exec_bxlTimeExchangeStart]; exact execBxlTimeExchangeStart_goes ..
  | bxlDrespTimeout => rw [exec_bxlDrespTimeout]; exact execBxlDrespTimeout_goes ..
  | claimRepeat => rw [exec_claimRepeat]; exact execClaimRepeat_goes ..
  | sweepTimeout => rw [exec_sweepTimeout]; exact execSweepTimeout_goes ..
  | sweepRetry => rw [exec_sweepRetry]; exact execSweepRetry_goes ..
  | heldEntryExpire => rw [exec_heldEntryExpire]; exact execHeldEntryExpire_goes ..
  | chunkAckTimeout k => rw [exec_chunkAckTimeout]; exact execChunkAckTimeout_goes ..
  | trialWatchdogExpire env => rw [exec_trialWatchdogExpire]; exact execTrialWatchdogExpire_goes ..
  | trialConfirm suite => rw [exec_trialConfirm]; exact execTrialConfirm_goes ..
  | rotationStepDone ok => rw [exec_rotationStepDone]; exact execRotationStepDone_goes ..
  | powerOn eid => rw [exec_powerOn]; exact execPowerOn_goes ..
  | powerOff eid => rw [exec_powerOff]; exact execPowerOff_goes ..
  | deviceReset eid env => rw [exec_deviceReset]; exact execDeviceReset_goes ..
  | registerWindowRead eid off dwords => rw [exec_registerWindowRead]; exact execRegisterWindowRead_goes ..
  | registerWindowWrite eid off values env => rw [exec_registerWindowWrite]; exact execRegisterWindowWrite_goes ..
  | miAuthorityAcquire eid => rw [exec_miAuthorityAcquire]; exact execMiAuthorityAcquire_goes ..
  | miAuthorityRelease eid => rw [exec_miAuthorityRelease]; exact execMiAuthorityRelease_goes ..
  | authorityLapse => rw [exec_authorityLapse]; exact execAuthorityLapse_goes ..
  | readNvmeMiDataStructure eid dtyp id => rw [exec_readNvmeMiDataStructure]; exact execReadNvmeMiDataStructure_goes ..
  | nvmSubsystemHealthStatusPoll eid => rw [exec_nvmSubsystemHealthStatusPoll]; exact execNvmSubsystemHealthStatusPoll_goes ..
  | controllerHealthStatusPoll eid ctrl => rw [exec_controllerHealthStatusPoll]; exact execControllerHealthStatusPoll_goes ..
  | configurationGet eid id => rw [exec_configurationGet]; exact execConfigurationGet_goes ..
  | configurationSet eid id value => rw [exec_configurationSet]; exact execConfigurationSet_goes ..
  | vpdRead eid off len => rw [exec_vpdRead]; exact execVpdRead_goes ..
  | miReset eid env => rw [exec_miReset]; exact execMiReset_goes ..
  | tunnelledAdminCommand eid req resp page => rw [exec_tunnelledAdminCommand]; exact execTunnelledAdminCommand_goes ..
  | setEndpointId op eid => rw [exec_setEndpointId]; exact execSetEndpointId_goes ..
  | getEndpointId => rw [exec_getEndpointId]; exact execGetEndpointId_goes ..
  | getEndpointUuid => rw [exec_getEndpointUuid]; exact execGetEndpointUuid_goes ..
  | getMctpVersionSupport kind => rw [exec_getMctpVersionSupport]; exact execGetMctpVersionSupport_goes ..
  | getMessageTypeSupport => rw [exec_getMessageTypeSupport]; exact execGetMessageTypeSupport_goes ..
  | entdaa addr => rw [exec_entdaa]; exact execEntdaa_goes ..
  | setdasa addr dyn => rw [exec_setdasa]; exact execSetdasa_goes ..
  | rstdaa => rw [exec_rstdaa]; exact execRstdaa_goes ..
  | getVersion party => rw [exec_getVersion]; exact execGetVersion_goes ..
  | getCapabilities party => rw [exec_getCapabilities]; exact execGetCapabilities_goes ..
  | negotiateAlgorithms party offered => rw [exec_negotiateAlgorithms]; exact execNegotiateAlgorithms_goes ..
  | getDigests party => rw [exec_getDigests]; exact execGetDigests_goes ..
  | getCertificate party slot off len => rw [exec_getCertificate]; exact execGetCertificate_goes ..
  | challenge party slot => rw [exec_challenge]; exact execChallenge_goes ..
  | getMeasurements party index => rw [exec_getMeasurements]; exact execGetMeasurements_goes ..
  | keyExchange party slot => rw [exec_keyExchange]; exact execKeyExchange_goes ..
  | finish party session ok => rw [exec_finish]; exact execFinish_goes ..
  | heartbeat party session => rw [exec_heartbeat]; exact execHeartbeat_goes ..
  | keyUpdate party session op => rw [exec_keyUpdate]; exact execKeyUpdate_goes ..
  | endSession party session => rw [exec_endSession]; exact execEndSession_goes ..
  | devSealWrite => rw [exec_devSealWrite]; exact execDevSealWrite_goes ..
  | devResetWrite pf env => rw [exec_devResetWrite]; exact execDevResetWrite_goes ..
  | registerWrite pf off len value => rw [exec_registerWrite]; exact execRegisterWrite_goes ..
  | vaux33Good straps => rw [exec_vaux33Good]; exact execVaux33Good_goes ..
  | avsAcknowledge vread => rw [exec_avsAcknowledge]; exact execAvsAcknowledge_goes ..
  | fuseProgramComplete weak => rw [exec_fuseProgramComplete]; exact execFuseProgramComplete_goes ..
  | entropyHealthPass => rw [exec_entropyHealthPass]; exact execEntropyHealthPass_goes ..
  | ptmDisabledByHost port enable => rw [exec_ptmDisabledByHost]; exact execPtmDisabledByHost_goes ..
  | d3hotExit fn => rw [exec_d3hotExit]; exact execD3hotExit_goes ..

end Sys2Proof.Machine
end

