-- ==== Sys2Proof/Laws/Sparse.lean ====
section
/-! SUPPORT. Laws of the sparse stores: read after write, and the canonical form is kept. -/

namespace Sys2Proof.Machine

theorem sget_sdel_ne {α : Type} (d : Nat → α) (m : List (Nat × α)) {k j : Nat} (h : j ≠ k) :
    sget d (sdel m k) j = sget d m j := by
  induction m with
  | nil => rfl
  | cons e m ih =>
    obtain ⟨k', v⟩ := e
    by_cases hk : k' = k
    · subst hk; simp [sdel, sget, Ne.symm h, ih]
    · simp only [sdel, hk, if_false, sget, ih]

theorem sget_sins_ne {α : Type} (d : Nat → α) (m : List (Nat × α)) {k j : Nat} (v : α) (h : j ≠ k) :
    sget d (sins m k v) j = sget d m j := by
  induction m with
  | nil => simp [sins, sget, Ne.symm h]
  | cons e m ih =>
    obtain ⟨k', v'⟩ := e
    simp only [sins]
    split
    · simp [sget, Ne.symm h]
    · split
      · subst k'; simp [sget, Ne.symm h]
      · simp [sget, ih]

theorem sget_sins_eq {α : Type} (d : Nat → α) (m : List (Nat × α)) (k : Nat) (v : α) : sget d (sins m k v) k = v := by
  induction m with
  | nil => simp [sins, sget]
  | cons e m ih =>
    obtain ⟨k', v'⟩ := e
    simp only [sins]
    split
    · simp [sget]
    · split
      · simp [sget]
      · rename_i h; simp [sget, Ne.symm h, ih]

/-- A write leaves every other key alone. -/
theorem sget_sset_ne {α : Type} [DecidableEq α] (d : Nat → α) (m : List (Nat × α)) {k j : Nat} (v : α) (h : j ≠ k) :
    sget d (sset d m k v) j = sget d m j := by
  unfold sset
  split
  · exact sget_sdel_ne d m h
  · exact sget_sins_ne d m v h

theorem sortedAbove_mono {α : Type} (m : List (Nat × α)) {lo lo' : Nat} (hl : lo' ≤ lo) (h : sortedAbove (some lo) m = true) :
    sortedAbove (some lo') m = true := by
  cases m with
  | nil => rfl
  | cons e m =>
    simp only [sortedAbove, Bool.and_eq_true, decide_eq_true_eq] at h ⊢
    exact ⟨by omega, h.2⟩

theorem sortedAbove_none {α : Type} (m : List (Nat × α)) {lo : Nat} (h : sortedAbove (some lo) m = true) :
    sortedAbove none m = true := by
  cases m with
  | nil => rfl
  | cons e m =>
    simp only [sortedAbove, Bool.and_eq_true] at h ⊢
    exact h.2

theorem sortedAbove_sdel {α : Type} (m : List (Nat × α)) (k lo : Nat) (h : sortedAbove (some lo) m = true) :
    sortedAbove (some lo) (sdel m k) = true := by
  induction m generalizing lo with
  | nil => rfl
  | cons e m ih =>
    obtain ⟨k', v⟩ := e
    simp only [sortedAbove, Bool.and_eq_true, decide_eq_true_eq] at h
    simp only [sdel]
    split
    · exact sortedAbove_mono _ (by omega) (ih _ h.2)
    · simp only [sortedAbove, Bool.and_eq_true, decide_eq_true_eq]
      exact ⟨h.1, ih _ h.2⟩

theorem sortedAbove_sins {α : Type} (m : List (Nat × α)) (k : Nat) (v : α) (lo : Nat) (hk : lo < k)
    (h : sortedAbove (some lo) m = true) : sortedAbove (some lo) (sins m k v) = true := by
  induction m generalizing lo with
  | nil => simp [sins, sortedAbove, hk]
  | cons e m ih =>
    obtain ⟨k', v'⟩ := e
    simp only [sortedAbove, Bool.and_eq_true, decide_eq_true_eq] at h
    simp only [sins]
    split
    · simp only [sortedAbove, Bool.and_eq_true, decide_eq_true_eq]
      exact ⟨hk, by assumption, h.2⟩
    · split
      · subst k; simp only [sortedAbove, Bool.and_eq_true, decide_eq_true_eq]; exact h
      · simp only [sortedAbove, Bool.and_eq_true, decide_eq_true_eq]
        exact ⟨h.1, ih _ (by omega) h.2⟩

theorem sorted_sdel {α : Type} (m : List (Nat × α)) (k : Nat) (h : sortedAbove none m = true) :
    sortedAbove none (sdel m k) = true := by
  cases m with
  | nil => rfl
  | cons e m =>
    obtain ⟨k', v⟩ := e
    simp only [sortedAbove] at h
    simp only [sdel]
    split
    · exact sortedAbove_none _ (sortedAbove_sdel m k k' h)
    · exact sortedAbove_sdel m k k' h

theorem sorted_sins {α : Type} (m : List (Nat × α)) (k : Nat) (v : α) (h : sortedAbove none m = true) :
    sortedAbove none (sins m k v) = true := by
  cases m with
  | nil => rfl
  | cons e m =>
    obtain ⟨k', v'⟩ := e
    simp only [sortedAbove] at h
    simp only [sins]
    split
    · simp only [sortedAbove, Bool.and_eq_true, decide_eq_true_eq]; exact ⟨by assumption, h⟩
    · split
      · subst k; exact h
      · exact sortedAbove_sins m k v k' (by omega) h

theorem mem_sdel {α : Type} (m : List (Nat × α)) (k : Nat) (e : Nat × α) (h : e ∈ sdel m k) : e ∈ m := by
  induction m with
  | nil => exact h
  | cons x m ih =>
    obtain ⟨k', v⟩ := x
    simp only [sdel] at h
    split at h
    · exact List.mem_cons_of_mem _ (ih h)
    · rcases List.mem_cons.1 h with h | h
      · exact h ▸ List.mem_cons_self
      · exact List.mem_cons_of_mem _ (ih h)

theorem mem_sins {α : Type} (m : List (Nat × α)) (k : Nat) (v : α) (e : Nat × α) (h : e ∈ sins m k v) : e = (k, v) ∨ e ∈ m := by
  induction m with
  | nil => exact Or.inl (List.mem_singleton.1 h)
  | cons x m ih =>
    obtain ⟨k', v'⟩ := x
    simp only [sins] at h
    split at h
    · rcases List.mem_cons.1 h with h | h
      · exact Or.inl h
      · exact Or.inr h
    · split at h
      · rcases List.mem_cons.1 h with h | h
        · exact Or.inl h
        · exact Or.inr (List.mem_cons_of_mem _ h)
      · rcases List.mem_cons.1 h with h | h
        · exact Or.inr (h ▸ List.mem_cons_self)
        · rcases ih h with h | h
          · exact Or.inl h
          · exact Or.inr (List.mem_cons_of_mem _ h)

/-- A write keeps the canonical form. -/
theorem swf_sset {α : Type} [DecidableEq α] (d : Nat → α) (m : List (Nat × α)) (k : Nat) (v : α) (h : swf d m = true) :
    swf d (sset d m k v) = true := by
  simp only [swf, Bool.and_eq_true, List.all_eq_true, bne_iff_ne] at h ⊢
  unfold sset
  split
  · exact ⟨sorted_sdel m k h.1, fun e he => h.2 e (mem_sdel m k e he)⟩
  · refine ⟨sorted_sins m k v h.1, fun e he => ?_⟩
    rcases mem_sins m k v e he with rfl | he
    · assumption
    · exact h.2 e he

/-- Dropping entries keeps the canonical form. -/
theorem swf_filter {α : Type} [DecidableEq α] (d : Nat → α) (m : List (Nat × α)) (p : Nat × α → Bool) (h : swf d m = true) :
    swf d (m.filter p) = true := by
  have key : ∀ (m : List (Nat × α)) (lo : Nat), sortedAbove (some lo) m = true → sortedAbove (some lo) (m.filter p) = true := by
    intro m
    induction m with
    | nil => intro lo _; rfl
    | cons e m ih =>
      obtain ⟨k, v⟩ := e
      intro lo h
      simp only [sortedAbove, Bool.and_eq_true, decide_eq_true_eq] at h
      rw [List.filter_cons]
      split
      · simp only [sortedAbove, Bool.and_eq_true, decide_eq_true_eq]; exact ⟨h.1, ih k h.2⟩
      · exact sortedAbove_mono _ (Nat.le_of_lt h.1) (ih k h.2)
  simp only [swf, Bool.and_eq_true, List.all_eq_true] at h ⊢
  refine ⟨?_, fun e he => h.2 e ((List.mem_filter.1 he).1)⟩
  cases m with
  | nil => rfl
  | cons e m =>
    obtain ⟨k, v⟩ := e
    have h1 := h.1
    simp only [sortedAbove] at h1
    rw [List.filter_cons]
    split
    · exact key m k h1
    · exact sortedAbove_none _ (key m k h1)

/-- A removed key reads its default. -/
theorem sget_sdel_eq {α : Type} (d : Nat → α) (m : List (Nat × α)) (k : Nat) : sget d (sdel m k) k = d k := by
  induction m with
  | nil => rfl
  | cons e m ih =>
    obtain ⟨k', v⟩ := e
    simp only [sdel]
    split
    · exact ih
    · rename_i hne; simp only [sget, hne, if_false]; exact ih

/-- A read after a write to the same key gives the value written. -/
theorem sget_sset_eq {α : Type} [DecidableEq α] (d : Nat → α) (m : List (Nat × α)) (k : Nat) (v : α) :
    sget d (sset d m k v) k = v := by
  unfold sset
  split
  · rename_i hv; rw [sget_sdel_eq, hv]
  · exact sget_sins_eq d m k v

end Sys2Proof.Machine
end

