-- ==== Sys2Proof/Laws/KeepsBase.lean ====
section
/-! SUPPORT. What every operation keeps, said once: the queue of waiting commands is left alone, a state that is good stays
good, and the boot counter does not go back. Each operation has one lemma `…_keeps`, in the files Laws/Keeps*.lean. -/

namespace Sys2Proof.Machine

/-- What `Keeps` asks of the parts of a state. -/
def KeepsParts (s0 : State) (q : List Instr) (regs : List (Nat × Word)) (win : List Host.Cell) (log : List LogEntry)
    (cnt : List Nat) (ports : List Port) (lanes : List Lane) (sens : List Sensor) (boots : Nat) : Prop :=
  q = s0.pending ∧ swf regReset regs = true ∧ Memory.wf win = true ∧ log.length ≤ 1024 ∧ cnt.length = 64 ∧
    ports.length = 2 ∧ lanes.length = 16 ∧ sens.length = 32 ∧ s0.fol.bootSeq ≤ boots

/-- `t` can come from `s0` by operations of the block: the queue is untouched, `t` is good, and no boot is taken back. -/
def Keeps (s0 t : State) : Prop :=
  KeepsParts s0 t.pending t.regs t.nib.window t.evu.log t.evu.classCnt t.hp.ports t.ink.lanes t.thm.sensors t.fol.bootSeq

/-- The same of an answer: whatever next state it gives. -/
def KeepsR (s0 : State) (r : Res) : Prop := ∀ t : State, r = .next t → Keeps s0 t

theorem keeps_refl {s : State} (h : s.inv = true) : Keeps s s := by
  simp only [State.inv, State.canon, Bool.and_eq_true, decide_eq_true_eq, beq_iff_eq] at h
  obtain ⟨⟨⟨⟨⟨⟨a, b⟩, c⟩, d⟩, e⟩, f⟩, g⟩ := h
  exact ⟨rfl, a, b, c, d, e, f, g, Nat.le_refl _⟩

theorem Keeps.inv {s0 t : State} (h : Keeps s0 t) : t.inv = true := by
  obtain ⟨_, a, b, c, d, e, f, g, _⟩ := h
  simp only [State.inv, State.canon, Bool.and_eq_true, decide_eq_true_eq, beq_iff_eq]
  exact ⟨⟨⟨⟨⟨⟨a, b⟩, c⟩, d⟩, e⟩, f⟩, g⟩

theorem Keeps.queue {s0 t : State} (h : Keeps s0 t) : t.pending = s0.pending := h.1

theorem Keeps.boots {s0 t : State} (h : Keeps s0 t) : s0.fol.bootSeq ≤ t.fol.bootSeq := h.2.2.2.2.2.2.2.2

theorem keeps_mk {s0 : State} {m regs evu rul stk nib hp qe ink map ckpt blt fol gce tine bxl mgmt spdm pwr thm sent f q} :
    Keeps s0 (State.mk m regs evu rul stk nib hp qe ink map ckpt blt fol gce tine bxl mgmt spdm pwr thm sent f q) =
      KeepsParts s0 q regs nib.window evu.log evu.classCnt hp.ports ink.lanes thm.sensors fol.bootSeq := rfl

/-- An update of parts that `Keeps` does not ask about. -/
theorem keeps_upd {s0 s : State} {evu_total evu_wasRead evu_aenOut evu_aenWait evu_waiting evu_deferred nib_luns
    nib_lastSeq nib_runs nib_comps nib_rbHigh nib_ce nib_vol nib_lunBit nib_tempAsked nib_noTemp nib_ecache nib_train
    nib_trained nib_resv nib_ctxs nib_rr nib_busTo nib_scribed nib_golden nib_setA nib_setB nib_mchkAt nib_paused
    nib_load nib_loading nib_resets hp_sampled hp_vfs hp_ats hp_atc hp_invals hp_d3hot hp_msix hp_msi hp_fns
    hp_vecOpen hp_msiMask hp_intMask hp_vecPend hp_ptm hp_strap hp_aer hp_tlps hp_reads hp_reqs hp_ptrs hp_flr hp_doe
    ink_chains ink_owners ink_waiting ink_nextOrder ink_osn ink_holdWait ink_audit ink_dup ink_conserve ink_bankUe
    ink_replaced ink_nextLane ink_keys ink_pendingClear fol_reqs fol_wear fol_remap fol_entries fol_events fol_boots
    fol_record fol_eseq fol_digest fol_evtPos fol_shutPrev fol_shut fol_tally fol_thermRecs fol_cutRecs fol_resvRecs
    fol_sanRec fol_setA fol_setB fol_keyA fol_keyB fol_idA fol_idB fol_ident fol_keyTab fol_slotRcd fol_nextKey
    fol_setNew fol_scrubAt fol_fuses fol_resolved fol_marginal fol_intents fol_trans fol_svnBurns fol_svnTries
    thm_coolAt thm_levelT thm_levelAt thm_bands thm_bandsAt thm_winJ thm_winN thm_fast thm_calm thm_events
    thm_prevShut mode_ rul_ stk_ qe_ map_ ckpt_ blt_ gce_ tine_ bxl_ mgmt_ spdm_ pwr_ sent_ freeCtr_} (h : Keeps s0 s)
    :     Keeps s0 (State.mk mode_ s.regs (Evu.mk s.evu.log evu_total evu_wasRead s.evu.classCnt evu_aenOut
    evu_aenWait evu_waiting evu_deferred) rul_ stk_ (NibSt.mk nib_luns nib_lastSeq nib_runs nib_comps nib_rbHigh
    nib_ce nib_vol nib_lunBit nib_tempAsked nib_noTemp nib_ecache nib_train nib_trained nib_resv nib_ctxs nib_rr
    nib_busTo nib_scribed nib_golden nib_setA nib_setB nib_mchkAt nib_paused nib_load nib_loading nib_resets
    s.nib.window) (Hp.mk s.hp.ports hp_sampled hp_vfs hp_ats hp_atc hp_invals hp_d3hot hp_msix hp_msi hp_fns
    hp_vecOpen hp_msiMask hp_intMask hp_vecPend hp_ptm hp_strap hp_aer hp_tlps hp_reads hp_reqs hp_ptrs hp_flr hp_doe)
    qe_ (Ink.mk ink_chains ink_owners ink_waiting ink_nextOrder ink_osn ink_holdWait ink_audit ink_dup ink_conserve
    ink_bankUe ink_replaced s.ink.lanes ink_nextLane ink_keys ink_pendingClear) map_ ckpt_ blt_ (Fol.mk fol_reqs
    fol_wear fol_remap fol_entries fol_events fol_boots fol_record fol_eseq fol_digest fol_evtPos fol_shutPrev
    fol_shut s.fol.bootSeq fol_tally fol_thermRecs fol_cutRecs fol_resvRecs fol_sanRec fol_setA fol_setB fol_keyA
    fol_keyB fol_idA fol_idB fol_ident fol_keyTab fol_slotRcd fol_nextKey fol_setNew fol_scrubAt fol_fuses
    fol_resolved fol_marginal fol_intents fol_trans fol_svnBurns fol_svnTries) gce_ tine_ bxl_ mgmt_ spdm_ pwr_
    (Thm.mk s.thm.sensors thm_coolAt thm_levelT thm_levelAt thm_bands thm_bandsAt thm_winJ thm_winN thm_fast thm_calm
    thm_events thm_prevShut) sent_ freeCtr_ s.pending) := h

theorem keeps_fold {s0 s : State} (h : Keeps s0 s) :
    KeepsParts s0 s.pending s.regs s.nib.window s.evu.log s.evu.classCnt s.hp.ports s.ink.lanes s.thm.sensors s.fol.bootSeq := h

theorem keepsR_next {s0 s : State} (h : Keeps s0 s) : KeepsR s0 (.next s) := by
  intro t e
  cases e
  exact h

theorem keepsR_fault {s0 : State} {r : Fault} : KeepsR s0 (.fault r) := by
  intro t e
  cases e

theorem keepsR_refused {s0 : State} {r : Refusal} : KeepsR s0 (.refused r) := by
  intro t e
  cases e

theorem keeps_ite {s0 a b : State} {c : Prop} [Decidable c] (ha : c → Keeps s0 a) (hb : ¬c → Keeps s0 b) :
    Keeps s0 (if c then a else b) := by
  split
  · exact ha (by assumption)
  · exact hb (by assumption)

theorem keepsR_ite {s0 : State} {a b : Res} {c : Prop} [Decidable c] (ha : c → KeepsR s0 a) (hb : ¬c → KeepsR s0 b) :
    KeepsR s0 (if c then a else b) := by
  split
  · exact ha (by assumption)
  · exact hb (by assumption)

theorem keeps_foldl {s0 : State} {α : Type} {f : State → α → State} {l : List α} {s : State}
    (hf : ∀ s x, Keeps s0 s → Keeps s0 (f s x)) (h : Keeps s0 s) : Keeps s0 (l.foldl f s) := by
  induction l generalizing s with
  | nil => exact h
  | cons a l ih => exact ih (hf s a h)

theorem keeps_foldl1 {s0 : State} {α β : Type} {f : State × β → α → State × β} {l : List α} {p : State × β}
    (hf : ∀ p x, Keeps s0 p.1 → Keeps s0 (f p x).1) (h : Keeps s0 p.1) : Keeps s0 (l.foldl f p).1 := by
  induction l generalizing p with
  | nil => exact h
  | cons a l ih => exact ih (hf p a h)

theorem keeps_getD {s0 s : State} {o : Option State} (ho : ∀ t, o = some t → Keeps s0 t) (h : Keeps s0 s) : Keeps s0 (o.getD s) := by
  cases o with
  | none => exact h
  | some t => exact ho t rfl

theorem addHeld_lanes (k : Ink) (o d : Nat) : (k.addHeld o d).lanes = k.lanes := rfl

theorem keeps_pair {s0 : State} {α : Type} {p : State × α} {t : State} {b : α} (e : p = (t, b)) (h : Keeps s0 p.1) : Keeps s0 t := by
  rw [e] at h
  exact h

theorem keeps_pair2 {s0 : State} {α : Type} {p : α × State} {t : State} {b : α} (e : p = (b, t)) (h : Keeps s0 p.2) : Keeps s0 t := by
  rw [e] at h
  exact h

end Sys2Proof.Machine
end

