-- ==== Sys2Proof/Laws/KeepsOps.lean ====
section
/-! SUPPORT. What the operations of the shared operations keep: one lemma each. -/

namespace Sys2Proof.Machine

/-! ## Ops -/

theorem State.setReg_keeps {s0 s : State} (k v : Nat) (h : Keeps s0 s) : Keeps s0 (State.setReg s k v) := by
  obtain ⟨a, b, c⟩ := h
  exact ⟨a, swf_sset _ _ _ _ b, c⟩

theorem State.setFld_keeps {s0 s : State} (a1 : Fld) (a2 : Nat) (h : Keeps s0 s) :
    Keeps s0 (State.setFld s a1 a2) := by
  unfold State.setFld
  try dsimp only
  repeat' first
    | with_reducible assumption
    | with_reducible apply State.setReg_keeps

theorem State.bumpFld_keeps {s0 s : State} (a1 : Fld) (h : Keeps s0 s) :
    Keeps s0 (State.bumpFld s a1) := by
  unfold State.bumpFld
  try dsimp only
  repeat' first
    | with_reducible assumption
    | with_reducible apply State.setFld_keeps

theorem State.startLines_keeps {s0 s : State}  (h : Keeps s0 s) :
    Keeps s0 (State.startLines s) := by
  unfold State.startLines
  try dsimp only
  repeat' first
    | with_reducible assumption
    | (simp only [↓keeps_mk]; with_reducible refine keeps_fold ?_)

theorem State.emit_keeps {s0 s : State} (a1 : Output) (h : Keeps s0 s) :
    Keeps s0 (State.emit s a1) := by
  unfold State.emit
  try dsimp only
  repeat' first
    | with_reducible assumption
    | (simp only [↓keeps_mk]; with_reducible refine keeps_fold ?_)

theorem State.updFn_keeps {s0 s : State} (a1 : Nat) (a2 : FnCfg → FnCfg) (h : Keeps s0 s) :
    Keeps s0 (State.updFn s a1 a2) := by
  unfold State.updFn
  try dsimp only
  repeat' first
    | with_reducible assumption
    | (simp only [↓keeps_mk]; with_reducible refine keeps_fold ?_)

theorem State.countCorr_keeps {s0 s : State} (a1 : Nat) (h : Keeps s0 s) :
    Keeps s0 (State.countCorr s a1) := by
  unfold State.countCorr
  try dsimp only
  repeat' first
    | with_reducible assumption
    | with_reducible apply State.bumpFld_keeps

theorem State.aerPost_keeps {s0 s : State} (a1 : Nat) (a2 : AerErr) (h : Keeps s0 s) :
    Keeps s0 (State.aerPost s a1 a2) := by
  unfold State.aerPost
  try dsimp only
  repeat' first
    | with_reducible assumption
    | with_reducible apply State.countCorr_keeps
    | with_reducible apply State.emit_keeps
    | with_reducible refine keeps_ite (fun _ => ?_) (fun _ => ?_)
    | (simp only [↓keeps_mk]; with_reducible refine keeps_fold ?_)
    | split

theorem State.aerInternal_keeps {s0 s : State} (a1 : Aer) (h : Keeps s0 s) :
    Keeps s0 (State.aerInternal s a1) := by
  unfold State.aerInternal
  try dsimp only
  repeat' first
    | with_reducible assumption
    | with_reducible apply State.aerPost_keeps
    | split

theorem State.irq_keeps {s0 s : State} (a1 : Nat) (a2 : Nat) (h : Keeps s0 s) :
    Keeps s0 (State.irq s a1 a2) := by
  unfold State.irq
  try dsimp only
  repeat' first
    | with_reducible assumption
    | with_reducible apply State.emit_keeps
    | with_reducible refine keeps_ite (fun _ => ?_) (fun _ => ?_)
    | (simp only [↓keeps_mk]; with_reducible refine keeps_fold ?_)
    | split

theorem State.updAcc_keeps {s0 s : State} (a1 : Nat) (a2 : MemAcc → MemAcc) (h : Keeps s0 s) :
    Keeps s0 (State.updAcc s a1 a2) := by
  unfold State.updAcc
  try dsimp only
  repeat' first
    | with_reducible assumption
    | (simp only [↓keeps_mk]; with_reducible refine keeps_fold ?_)

theorem State.useXlat_keeps {s0 s : State} (a1 : Nat) (a2 : Nat) (a3 : Nat) (h : Keeps s0 s) :
    Keeps s0 (State.useXlat s a1 a2 a3) := by
  unfold State.useXlat
  try dsimp only
  repeat' first
    | with_reducible assumption
    | (simp only [↓keeps_mk]; with_reducible refine keeps_fold ?_)

theorem State.launchReq_keeps {s0 s : State} (a1 : Nat) (a2 : MemAcc) (a3 : List (Option Nat)) (a4 : Option Nat) (h : Keeps s0 s) :
    Keeps s0 (State.launchReq s a1 a2 a3 a4) := by
  unfold State.launchReq
  try dsimp only
  repeat' first
    | with_reducible assumption
    | with_reducible apply State.updAcc_keeps
    | (simp only [↓keeps_mk]; with_reducible refine keeps_fold ?_)

theorem State.issueAcc_keeps {s0 s : State} (k fuel : Nat) (h : Keeps s0 s) : Keeps s0 (State.issueAcc s k fuel) := by
  induction fuel generalizing s with
  | zero => exact h
  | succ fuel ih =>
    unfold State.issueAcc
    dsimp only
    repeat' first
      | with_reducible assumption
      | with_reducible apply ih
      | with_reducible apply State.launchReq_keeps
      | with_reducible apply State.useXlat_keeps
      | with_reducible apply State.updAcc_keeps
      | with_reducible apply State.emit_keeps
      | with_reducible refine keeps_ite (fun _ => ?_) (fun _ => ?_)
      | split

theorem State.issueReads_keeps {s0 s : State}  (h : Keeps s0 s) :
    Keeps s0 (State.issueReads s) := by
  unfold State.issueReads
  try dsimp only
  repeat' first
    | with_reducible assumption
    | with_reducible apply State.issueAcc_keeps
    | (with_reducible refine keeps_foldl (fun _ _ _ => ?_) ?_)

theorem State.readHost_keeps {s0 s : State} (a1 : Nat) (a2 : MemRead) (a3 : List Nat) (a4 : List (Option Nat)) (h : Keeps s0 s) :
    Keeps s0 (State.readHost s a1 a2 a3 a4) := by
  unfold State.readHost
  try dsimp only
  repeat' first
    | with_reducible assumption
    | with_reducible apply State.issueReads_keeps
    | (simp only [↓keeps_mk]; with_reducible refine keeps_fold ?_)

theorem State.stopReads_keeps {s0 s : State} (a1 : MemRead → Bool) (h : Keeps s0 s) :
    Keeps s0 (State.stopReads s a1) := by
  unfold State.stopReads
  try dsimp only
  repeat' first
    | with_reducible assumption
    | with_reducible refine keeps_ite (fun _ => ?_) (fun _ => ?_)
    | (simp only [↓keeps_mk]; with_reducible refine keeps_fold ?_)
    | split

theorem State.sweepReads_keeps {s0 s : State}  (h : Keeps s0 s) :
    Keeps s0 (State.sweepReads s) := by
  unfold State.sweepReads
  try dsimp only
  repeat' first
    | with_reducible assumption
    | with_reducible apply State.stopReads_keeps

theorem State.retire_keeps {s0 s : State} (a1 : List Nat) (h : Keeps s0 s) :
    Keeps s0 (State.retire s a1) := by
  unfold State.retire
  try dsimp only
  repeat' first
    | with_reducible assumption
    | with_reducible refine keeps_ite (fun _ => ?_) (fun _ => ?_)
    | (simp only [↓keeps_mk]; with_reducible refine keeps_fold ?_)
    | split

theorem State.noteError_keeps {s0 s : State} (a1 : Ref) (a2 : Status) (h : Keeps s0 s) :
    Keeps s0 (State.noteError s a1 a2) := by
  unfold State.noteError
  try dsimp only
  repeat' first
    | with_reducible assumption
    | with_reducible refine keeps_ite (fun _ => ?_) (fun _ => ?_)
    | (simp only [↓keeps_mk]; with_reducible refine keeps_fold ?_)
    | split

theorem State.writeCqe_keeps {s0 s : State} (a1 : Cq) (a2 : Ref) (a3 : Status) (a4 : Nat) (h : Keeps s0 s) :
    Keeps s0 (State.writeCqe s a1 a2 a3 a4) := by
  unfold State.writeCqe
  try dsimp only
  repeat' first
    | with_reducible assumption
    | with_reducible apply State.irq_keeps
    | with_reducible apply State.noteError_keeps
    | with_reducible apply State.emit_keeps
    | with_reducible refine keeps_ite (fun _ => ?_) (fun _ => ?_)
    | (simp only [↓keeps_mk]; with_reducible refine keeps_fold ?_)
    | split

theorem State.complete_keeps {s0 s : State} (a1 : Ref) (a2 : Status) (a3 : Nat) (h : Keeps s0 s) :
    Keeps s0 (State.complete s a1 a2 a3) := by
  unfold State.complete
  try dsimp only
  repeat' first
    | with_reducible assumption
    | with_reducible apply State.writeCqe_keeps
    | with_reducible apply State.readHost_keeps
    | with_reducible apply State.emit_keeps
    | with_reducible refine keeps_ite (fun _ => ?_) (fun _ => ?_)
    | (simp only [↓keeps_mk]; with_reducible refine keeps_fold ?_)
    | split

theorem State.done_keeps {s0 s : State} (a1 : Ref) (a2 : Status) (a3 : optParam Nat 0) (h : Keeps s0 s) :
    KeepsR s0 (State.done s a1 a2 a3) := by
  unfold State.done
  try dsimp only
  repeat' first
    | with_reducible assumption
    | with_reducible refine keepsR_next ?_
    | with_reducible apply State.complete_keeps

theorem State.sendAlert_keeps {s0 s : State} (a1 : Nat) (h : Keeps s0 s) :
    Keeps s0 (State.sendAlert s a1) := by
  unfold State.sendAlert
  try dsimp only
  repeat' first
    | with_reducible assumption
    | with_reducible apply State.emit_keeps
    | with_reducible refine keeps_ite (fun _ => ?_) (fun _ => ?_)
    | (simp only [↓keeps_mk]; with_reducible refine keeps_fold ?_)
    | split

theorem State.aenTo_keeps {s0 s : State} (a1 : Nat) (a2 : Nat) (h : Keeps s0 s) :
    Keeps s0 (State.aenTo s a1 a2) := by
  unfold State.aenTo
  try dsimp only
  repeat' first
    | with_reducible assumption
    | with_reducible apply State.complete_keeps
    | with_reducible refine keeps_ite (fun _ => ?_) (fun _ => ?_)
    | (simp only [↓keeps_mk]; with_reducible refine keeps_fold ?_)
    | split

theorem State.ringEntry_keeps {s0 s : State} (a1 a2 a3 a4 : Nat) (h : Keeps s0 s) :
    Keeps s0 (State.ringEntry s a1 a2 a3 a4) := by
  obtain ⟨a, b, c, d, e, g⟩ := h
  refine ⟨a, b, c, ?_, ?_, g⟩
  · simp only [State.ringEntry, List.length_cons, List.length_take]; omega
  · simp only [State.ringEntry, List.length_modify]; exact e

theorem State.foldEntry_keeps {s0 s : State} (a1 : Nat) (h : Keeps s0 s) : Keeps s0 (State.foldEntry s a1) := by
  obtain ⟨a, b, c, d, e⟩ := h
  exact ⟨a, b, c, by simp only [State.foldEntry, List.length_modify]; exact d, e⟩

theorem State.ownEntry_keeps {s0 s : State} (a1 : Fld) (h : Keeps s0 s) :
    Keeps s0 (State.ownEntry s a1) := by
  unfold State.ownEntry
  try dsimp only
  repeat' first
    | with_reducible assumption
    | with_reducible apply State.setFld_keeps
    | with_reducible apply State.ringEntry_keeps
    | with_reducible apply State.foldEntry_keeps
    | with_reducible refine keeps_ite (fun _ => ?_) (fun _ => ?_)
    | split

theorem State.logEntry_keeps {s0 s : State} (a1 : Nat) (a2 : Nat) (a3 : Nat) (a4 : Nat) (h : Keeps s0 s) :
    Keeps s0 (State.logEntry s a1 a2 a3 a4) := by
  unfold State.logEntry
  try dsimp only
  repeat' first
    | with_reducible assumption
    | with_reducible apply State.ringEntry_keeps
    | with_reducible apply State.ownEntry_keeps
    | with_reducible refine keeps_ite (fun _ => ?_) (fun _ => ?_)
    | split

theorem State.sendMsg_keeps {s0 s : State} (a1 : EvtMsg) (h : Keeps s0 s) :
    Keeps s0 (State.sendMsg s a1) := by
  unfold State.sendMsg
  try dsimp only
  repeat' first
    | with_reducible assumption
    | with_reducible apply State.aenTo_keeps
    | with_reducible apply State.irq_keeps
    | with_reducible apply State.aerInternal_keeps
    | with_reducible apply State.sendAlert_keeps
    | with_reducible apply State.ownEntry_keeps
    | with_reducible refine keeps_ite (fun _ => ?_) (fun _ => ?_)
    | (with_reducible refine keeps_foldl (fun _ _ _ => ?_) ?_)
    | split

theorem State.sendAll_keeps {s0 s : State} (a1 : List EvtMsg) (h : Keeps s0 s) :
    Keeps s0 (State.sendAll s a1) := by
  unfold State.sendAll
  try dsimp only
  repeat' first
    | with_reducible assumption
    | with_reducible apply State.sendMsg_keeps
    | (simp only [↓keeps_mk]; with_reducible refine keeps_fold ?_)
    | (with_reducible refine keeps_foldl (fun _ _ _ => ?_) ?_)
    | split

theorem State.sendOwn_keeps {s0 s : State} (o : State) (h : Keeps s0 s) : Keeps s0 (State.sendOwn s o) := by
  unfold State.sendOwn
  dsimp only
  repeat' first
    | with_reducible assumption
    | with_reducible apply State.sendAll_keeps
    | with_reducible refine keeps_ite (fun _ => ?_) (fun _ => ?_)

theorem State.logDiscard_keeps {s0 s : State}  (h : Keeps s0 s) :
    Keeps s0 (State.logDiscard s) := by
  unfold State.logDiscard
  try dsimp only
  repeat' first
    | with_reducible assumption
    | with_reducible apply State.sendOwn_keeps
    | with_reducible apply State.logEntry_keeps

theorem State.wakeEvent_keeps {s0 s : State} (a1 : Nat) (h : Keeps s0 s) :
    Keeps s0 (State.wakeEvent s a1) := by
  unfold State.wakeEvent
  try dsimp only
  repeat' first
    | with_reducible assumption
    | with_reducible refine keeps_ite (fun _ => ?_) (fun _ => ?_)
    | (simp only [↓keeps_mk]; with_reducible refine keeps_fold ?_)
    | split

theorem State.freshPost_keeps {s0 s : State} (a1 : Fld) (a2 : Nat) (a3 : Nat) (a4 : Aer) (a5 : Nat) (h : Keeps s0 s) :
    Keeps s0 (State.freshPost s a1 a2 a3 a4 a5) := by
  unfold State.freshPost
  try dsimp only
  repeat' first
    | with_reducible assumption
    | with_reducible apply State.sendOwn_keeps
    | with_reducible apply State.sendAll_keeps
    | with_reducible apply State.logEntry_keeps
    | with_reducible refine keeps_ite (fun _ => ?_) (fun _ => ?_)
    | split

theorem State.postAs_keeps {s0 s : State} (a1 : Fld) (a2 : Nat) (a3 : Aer) (a4 : Nat) (h : Keeps s0 s) :
    Keeps s0 (State.postAs s a1 a2 a3 a4) := by
  unfold State.postAs
  try dsimp only
  repeat' first
    | with_reducible assumption
    | with_reducible apply State.sendOwn_keeps
    | with_reducible apply State.setFld_keeps
    | with_reducible apply State.foldEntry_keeps
    | with_reducible apply State.wakeEvent_keeps
    | with_reducible apply State.freshPost_keeps
    | with_reducible apply State.sendMsg_keeps
    | with_reducible apply State.logEntry_keeps
    | with_reducible refine keeps_ite (fun _ => ?_) (fun _ => ?_)
    | (simp only [↓keeps_mk]; with_reducible refine keeps_fold ?_)
    | (with_reducible refine keeps_foldl (fun _ _ _ => ?_) ?_)
    | split

theorem State.post_keeps {s0 s : State} (a1 : Fld) (a2 : Nat) (h : Keeps s0 s) :
    Keeps s0 (State.post s a1 a2) := by
  unfold State.post
  try dsimp only
  repeat' first
    | with_reducible assumption
    | with_reducible apply State.postAs_keeps

theorem State.postDeferred_keeps {s0 s : State} (a1 : List (Nat × Nat × Nat)) (h : Keeps s0 s) :
    Keeps s0 (State.postDeferred s a1) := by
  unfold State.postDeferred
  try dsimp only
  repeat' first
    | with_reducible assumption
    | with_reducible apply State.post_keeps
    | with_reducible apply State.setFld_keeps
    | with_reducible refine keeps_ite (fun _ => ?_) (fun _ => ?_)
    | (with_reducible refine keeps_foldl (fun _ _ _ => ?_) ?_)
    | split

theorem State.clearBit_keeps {s0 s : State} (a1 : Fld) (h : Keeps s0 s) :
    Keeps s0 (State.clearBit s a1) := by
  unfold State.clearBit
  try dsimp only
  repeat' first
    | with_reducible assumption
    | with_reducible apply State.setFld_keeps

theorem State.folio_keeps {s0 s : State} (a1 : FolReq) (h : Keeps s0 s) :
    Keeps s0 (State.folio s a1) := by
  unfold State.folio
  try dsimp only
  repeat' first
    | with_reducible assumption
    | (simp only [↓keeps_mk]; with_reducible refine keeps_fold ?_)

theorem State.colophonWith_keeps {s0 s : State} (a1 : Nat) (a2 : Nat) (a3 : Nat) (a4 : Nat) (a5 : Fields) (h : Keeps s0 s) :
    Keeps s0 (State.colophonWith s a1 a2 a3 a4 a5) := by
  unfold State.colophonWith
  try dsimp only
  repeat' first
    | with_reducible assumption
    | with_reducible apply State.folio_keeps
    | with_reducible refine keeps_ite (fun _ => ?_) (fun _ => ?_)
    | (simp only [↓keeps_mk]; with_reducible refine keeps_fold ?_)
    | split

theorem State.colophon_keeps {s0 s : State} (a1 : Nat) (a2 : Nat) (a3 : Nat) (a4 : Nat) (h : Keeps s0 s) :
    Keeps s0 (State.colophon s a1 a2 a3 a4) := by
  unfold State.colophon
  try dsimp only
  repeat' first
    | with_reducible assumption
    | with_reducible apply State.colophonWith_keeps
    | with_reducible refine keeps_ite (fun _ => ?_) (fun _ => ?_)
    | split

theorem State.setFeat_keeps {s0 s : State} (a1 : Nat) (a2 : Nat) (a3 : Nat) (h : Keeps s0 s) :
    Keeps s0 (State.setFeat s a1 a2 a3) := by
  unfold State.setFeat
  try dsimp only
  repeat' first
    | with_reducible assumption
    | (simp only [↓keeps_mk]; with_reducible refine keeps_fold ?_)

theorem State.saveFeat_keeps {s0 s : State} (a1 : Nat) (a2 : Nat) (a3 : Nat) (h : Keeps s0 s) :
    Keeps s0 (State.saveFeat s a1 a2 a3) := by
  unfold State.saveFeat
  try dsimp only
  repeat' first
    | with_reducible assumption
    | (simp only [↓keeps_mk]; with_reducible refine keeps_fold ?_)

theorem State.lockFor_keeps {s0 s : State} (a1 : Ref) (h : Keeps s0 s) :
    Keeps s0 (State.lockFor s a1) := by
  unfold State.lockFor
  try dsimp only
  repeat' first
    | with_reducible assumption
    | (simp only [↓keeps_mk]; with_reducible refine keeps_fold ?_)
    | split

theorem State.freeLock_keeps {s0 s : State}  (h : Keeps s0 s) :
    Keeps s0 (State.freeLock s) := by
  unfold State.freeLock
  try dsimp only
  repeat' first
    | with_reducible assumption
    | (simp only [↓keeps_mk]; with_reducible refine keeps_fold ?_)

theorem State.unlockTemp_keeps {s0 s : State} (a1 : Ref) (h : Keeps s0 s) :
    Keeps s0 (State.unlockTemp s a1) := by
  unfold State.unlockTemp
  try dsimp only
  repeat' first
    | with_reducible assumption
    | with_reducible apply State.freeLock_keeps
    | with_reducible refine keeps_ite (fun _ => ?_) (fun _ => ?_)
    | (simp only [↓keeps_mk]; with_reducible refine keeps_fold ?_)
    | split

theorem State.updCtrl_keeps {s0 s : State} (a1 : Nat) (a2 : Ctrl → Ctrl) (h : Keeps s0 s) :
    Keeps s0 (State.updCtrl s a1 a2) := by
  unfold State.updCtrl
  try dsimp only
  repeat' first
    | with_reducible assumption
    | (simp only [↓keeps_mk]; with_reducible refine keeps_fold ?_)

theorem State.latch_keeps {s0 s : State} (a1 : Ref) (h : Keeps s0 s) :
    Keeps s0 (State.latch s a1) := by
  unfold State.latch
  try dsimp only
  repeat' first
    | with_reducible assumption
    | with_reducible refine keeps_ite (fun _ => ?_) (fun _ => ?_)
    | (simp only [↓keeps_mk]; with_reducible refine keeps_fold ?_)
    | split

theorem State.lose_keeps {s0 s : State} (a1 : Nat) (h : Keeps s0 s) :
    Keeps s0 (State.lose s a1) := by
  unfold State.lose
  try dsimp only
  repeat' first
    | with_reducible assumption
    | (simp only [↓keeps_mk]; with_reducible refine keeps_fold ?_)

theorem State.logLost_keeps {s0 s : State}  (h : Keeps s0 s) :
    Keeps s0 (State.logLost s) := by
  unfold State.logLost
  try dsimp only
  repeat' first
    | with_reducible assumption
    | with_reducible apply State.logDiscard_keeps
    | (simp only [↓keeps_mk]; with_reducible refine keeps_fold ?_)
    | (with_reducible refine keeps_foldl (fun _ _ _ => ?_) ?_)

theorem State.modeAfter_keeps {s0 s : State} (h : Keeps s0 s) : Keeps s0 (State.modeAfter s) := by
  obtain ⟨a, b, c, d, e⟩ := h
  refine ⟨a, b, c, ?_, e⟩
  have t : (s.evu.log.takeWhile (fun e => e.stamp == s.stamp)).length ≤ s.evu.log.length :=
    (List.takeWhile_sublist _).length_le
  simp only [State.modeAfter, List.length_append, List.length_map, List.length_drop]
  omega

theorem State.settle_keeps {s0 s : State}  (h : Keeps s0 s) :
    Keeps s0 (State.settle s) := by
  unfold State.settle
  try dsimp only
  repeat' first
    | with_reducible assumption
    | with_reducible apply State.wakeEvent_keeps
    | with_reducible apply State.modeAfter_keeps
    | with_reducible refine keeps_ite (fun _ => ?_) (fun _ => ?_)
    | (simp only [↓keeps_mk]; with_reducible refine keeps_fold ?_)
    | split

theorem State.updBxl_keeps {s0 s : State} (a1 : Bool) (a2 : BxlPort → BxlPort) (h : Keeps s0 s) :
    Keeps s0 (State.updBxl s a1 a2) := by
  unfold State.updBxl
  try dsimp only
  repeat' first
    | with_reducible assumption
    | with_reducible refine keeps_ite (fun _ => ?_) (fun _ => ?_)
    | (simp only [↓keeps_mk]; with_reducible refine keeps_fold ?_)
    | split

theorem State.bxlPut_keeps {s0 s : State} (a1 : Bool) (a2 : FrameHdr) (a3 : Frame) (h : Keeps s0 s) :
    Keeps s0 (State.bxlPut s a1 a2 a3) := by
  unfold State.bxlPut
  try dsimp only
  repeat' first
    | with_reducible assumption
    | with_reducible apply State.updBxl_keeps
    | with_reducible apply State.emit_keeps

theorem State.bxlSend_keeps {s0 s : State} (a1 : Bool) (a2 : Frame) (h : Keeps s0 s) :
    Keeps s0 (State.bxlSend s a1 a2) := by
  unfold State.bxlSend
  try dsimp only
  repeat' first
    | with_reducible assumption
    | with_reducible apply State.bxlPut_keeps
    | with_reducible refine keeps_ite (fun _ => ?_) (fun _ => ?_)
    | split

theorem State.bxlRelay_keeps {s0 s : State} (a1 : BxlIn) (a2 : Frame) (h : Keeps s0 s) :
    Keeps s0 (State.bxlRelay s a1 a2) := by
  unfold State.bxlRelay
  try dsimp only
  repeat' first
    | with_reducible assumption
    | with_reducible apply State.bxlPut_keeps
    | with_reducible refine keeps_ite (fun _ => ?_) (fun _ => ?_)
    | split

/-! ## StrokeOps -/

theorem State.horizonAdvance_keeps {s0 s : State}  (h : Keeps s0 s) :
    Keeps s0 (State.horizonAdvance s) := by
  unfold State.horizonAdvance
  try dsimp only
  repeat' first
    | with_reducible assumption
    | (simp only [↓keeps_mk]; with_reducible refine keeps_fold ?_)

theorem State.setStat_keeps {s0 s : State} (a1 : LunStat) (h : Keeps s0 s) :
    Keeps s0 (State.setStat s a1) := by
  unfold State.setStat
  try dsimp only
  repeat' first
    | with_reducible assumption
    | (simp only [↓keeps_mk]; with_reducible refine keeps_fold ?_)

theorem State.commit_keeps {s0 s : State} (a1 : Nat) (a2 : Nat) (a3 : List Seg) (h : Keeps s0 s) :
    Keeps s0 (State.commit s a1 a2 a3) := by
  unfold State.commit
  try dsimp only
  repeat' first
    | with_reducible assumption
    | with_reducible refine keeps_ite (fun _ => ?_) (fun _ => ?_)
    | (simp only [↓keeps_mk]; with_reducible refine keeps_fold ?_)
    | split

theorem State.newStroke_keeps {s0 s : State} (a1 : Stroke) (h : Keeps s0 s) :
    Keeps s0 (State.newStroke s a1) := by
  unfold State.newStroke
  try dsimp only
  repeat' first
    | with_reducible assumption
    | with_reducible refine keeps_ite (fun _ => ?_) (fun _ => ?_)
    | (simp only [↓keeps_mk]; with_reducible refine keeps_fold ?_)
    | split

theorem State.waitAgain_keeps {s0 s : State} (a1 : Nat) (h : Keeps s0 s) :
    Keeps s0 (State.waitAgain s a1) := by
  unfold State.waitAgain
  try dsimp only
  repeat' first
    | with_reducible assumption
    | (simp only [↓keeps_mk]; with_reducible refine keeps_fold ?_)

theorem State.enterHeld_keeps {s0 s : State}  (h : Keeps s0 s) :
    Keeps s0 (State.enterHeld s) := by
  unfold State.enterHeld
  try dsimp only
  repeat' first
    | with_reducible assumption
    | with_reducible apply State.waitAgain_keeps
    | with_reducible refine keeps_ite (fun _ => ?_) (fun _ => ?_)
    | (with_reducible refine keeps_foldl (fun _ _ _ => ?_) ?_)
    | split

theorem State.askSuspend_keeps {s0 s : State} (a1 : Stroke) (a2 : Nat) (a3 : optParam Bool false) (h : Keeps s0 s) :
    Keeps s0 (State.askSuspend s a1 a2 a3) := by
  unfold State.askSuspend
  try dsimp only
  repeat' first
    | with_reducible assumption
    | with_reducible apply State.newStroke_keeps
    | with_reducible refine keeps_ite (fun _ => ?_) (fun _ => ?_)
    | split

theorem State.askResume_keeps {s0 s : State} (a1 : Stroke) (h : Keeps s0 s) :
    Keeps s0 (State.askResume s a1) := by
  unfold State.askResume
  try dsimp only
  repeat' first
    | with_reducible assumption
    | with_reducible apply State.newStroke_keeps
    | with_reducible refine keeps_ite (fun _ => ?_) (fun _ => ?_)
    | split

theorem State.capSuspend_keeps {s0 s : State}  (h : Keeps s0 s) :
    Keeps s0 (State.capSuspend s) := by
  unfold State.capSuspend
  try dsimp only
  repeat' first
    | with_reducible assumption
    | with_reducible apply State.post_keeps
    | with_reducible apply State.setFld_keeps
    | with_reducible apply State.askSuspend_keeps
    | with_reducible refine keeps_ite (fun _ => ?_) (fun _ => ?_)
    | (with_reducible refine keeps_foldl (fun _ _ _ => ?_) ?_)
    | (with_reducible refine keeps_foldl1 (fun _ _ _ => ?_) ?_)
    | with_reducible refine keeps_pair (by with_reducible assumption) (keeps_foldl1 (fun _ _ _ => ?_) ?_)
    | split

theorem State.capWatch_keeps {s0 s : State}  (h : Keeps s0 s) :
    Keeps s0 (State.capWatch s) := by
  unfold State.capWatch
  try dsimp only
  repeat' first
    | with_reducible assumption
    | with_reducible apply State.capSuspend_keeps
    | with_reducible refine keeps_ite (fun _ => ?_) (fun _ => ?_)
    | split

theorem State.refreshCap_keeps {s0 s : State}  (h : Keeps s0 s) :
    Keeps s0 (State.refreshCap s) := by
  unfold State.refreshCap
  try dsimp only
  repeat' first
    | with_reducible assumption
    | with_reducible apply State.post_keeps
    | with_reducible apply State.setFld_keeps
    | with_reducible apply State.capSuspend_keeps
    | with_reducible refine keeps_ite (fun _ => ?_) (fun _ => ?_)
    | split

/-! ## PowerOps -/

theorem State.lastWake_keeps {s0 s : State} (a1 : Nat) (a2 : Nat) (a3 : Nat) (h : Keeps s0 s) :
    Keeps s0 (State.lastWake s a1 a2 a3) := by
  unfold State.lastWake
  try dsimp only
  repeat' first
    | with_reducible assumption
    | with_reducible apply State.setFld_keeps
    | with_reducible refine keeps_ite (fun _ => ?_) (fun _ => ?_)
    | (simp only [↓keeps_mk]; with_reducible refine keeps_fold ?_)
    | split

theorem State.powerUpRequest_keeps {s0 s : State} (a1 : Nat) (h : Keeps s0 s) :
    Keeps s0 (State.powerUpRequest s a1) := by
  unfold State.powerUpRequest
  try dsimp only
  repeat' first
    | with_reducible assumption
    | with_reducible apply State.post_keeps
    | with_reducible apply State.lastWake_keeps
    | with_reducible apply State.setFld_keeps
    | with_reducible refine keeps_ite (fun _ => ?_) (fun _ => ?_)
    | (simp only [↓keeps_mk]; with_reducible refine keeps_fold ?_)
    | split

theorem State.offRequest_keeps {s0 s : State} (a1 : Nat) (h : Keeps s0 s) :
    Keeps s0 (State.offRequest s a1) := by
  unfold State.offRequest
  try dsimp only
  repeat' first
    | with_reducible assumption
    | with_reducible apply State.post_keeps
    | with_reducible apply State.lastWake_keeps
    | with_reducible apply State.setFld_keeps
    | with_reducible apply State.lose_keeps
    | with_reducible refine keeps_ite (fun _ => ?_) (fun _ => ?_)
    | (simp only [↓keeps_mk]; with_reducible refine keeps_fold ?_)
    | split

theorem State.postWithheld_keeps {s0 s : State} (a1 : Nat) (h : Keeps s0 s) :
    Keeps s0 (State.postWithheld s a1) := by
  unfold State.postWithheld
  try dsimp only
  repeat' first
    | with_reducible assumption
    | with_reducible apply State.complete_keeps
    | (simp only [↓keeps_mk]; with_reducible refine keeps_fold ?_)
    | (with_reducible refine keeps_foldl (fun _ _ _ => ?_) ?_)

theorem State.dozeEnd_keeps {s0 s : State}  (h : Keeps s0 s) :
    Keeps s0 (State.dozeEnd s) := by
  unfold State.dozeEnd
  try dsimp only
  repeat' first
    | with_reducible assumption
    | with_reducible apply State.setFld_keeps
    | with_reducible apply State.settle_keeps
    | with_reducible apply State.postWithheld_keeps
    | (simp only [↓keeps_mk]; with_reducible refine keeps_fold ?_)

theorem State.dozeAbandon_keeps {s0 s : State} (a1 : Nat) (h : Keeps s0 s) :
    Keeps s0 (State.dozeAbandon s a1) := by
  unfold State.dozeAbandon
  try dsimp only
  repeat' first
    | with_reducible assumption
    | with_reducible apply State.post_keeps
    | with_reducible apply State.lastWake_keeps
    | with_reducible apply State.dozeEnd_keeps

theorem State.rulStop_keeps {s0 s : State}  (h : Keeps s0 s) :
    Keeps s0 (State.rulStop s) := by
  unfold State.rulStop
  try dsimp only
  repeat' first
    | with_reducible assumption
    | (simp only [↓keeps_mk]; with_reducible refine keeps_fold ?_)

theorem State.rulResume_keeps {s0 s : State} (a1 : AonClock) (a2 : Nat) (h : Keeps s0 s) :
    Keeps s0 (State.rulResume s a1 a2) := by
  unfold State.rulResume
  try dsimp only
  repeat' first
    | with_reducible assumption
    | with_reducible apply State.startLines_keeps
    | with_reducible refine keeps_ite (fun _ => ?_) (fun _ => ?_)
    | (simp only [↓keeps_mk]; with_reducible refine keeps_fold ?_)
    | split

theorem State.avsRequest_keeps {s0 s : State} (a1 : Nat) (h : Keeps s0 s) :
    Keeps s0 (State.avsRequest s a1) := by
  unfold State.avsRequest
  try dsimp only
  repeat' first
    | with_reducible assumption
    | with_reducible apply State.setFld_keeps
    | with_reducible apply State.emit_keeps
    | (simp only [↓keeps_mk]; with_reducible refine keeps_fold ?_)

theorem State.setClock_keeps {s0 s : State} (a1 : Nat) (h : Keeps s0 s) :
    Keeps s0 (State.setClock s a1) := by
  unfold State.setClock
  try dsimp only
  repeat' first
    | with_reducible assumption
    | with_reducible apply State.avsRequest_keeps
    | with_reducible refine keeps_ite (fun _ => ?_) (fun _ => ?_)
    | (simp only [↓keeps_mk]; with_reducible refine keeps_fold ?_)
    | split

theorem State.thermEvent_keeps {s0 s : State} (a1 : Nat) (a2 : Nat) (a3 : Int) (a4 : Nat) (h : Keeps s0 s) :
    Keeps s0 (State.thermEvent s a1 a2 a3 a4) := by
  unfold State.thermEvent
  try dsimp only
  repeat' first
    | with_reducible assumption
    | (simp only [↓keeps_mk]; with_reducible refine keeps_fold ?_)

theorem State.sumTherm_keeps {s0 s : State}  (h : Keeps s0 s) :
    Keeps s0 (State.sumTherm s) := by
  unfold State.sumTherm
  try dsimp only
  repeat' first
    | with_reducible assumption
    | (simp only [↓keeps_mk]; with_reducible refine keeps_fold ?_)

theorem State.setLevel_keeps {s0 s : State} (a1 : Nat) (h : Keeps s0 s) :
    Keeps s0 (State.setLevel s a1) := by
  unfold State.setLevel
  try dsimp only
  repeat' first
    | with_reducible assumption
    | with_reducible apply State.setFld_keeps
    | with_reducible apply State.refreshCap_keeps
    | with_reducible apply State.setClock_keeps
    | with_reducible apply State.sumTherm_keeps
    | split

theorem State.throttle_keeps {s0 s : State} (a1 : Nat) (a2 : Nat) (h : Keeps s0 s) :
    Keeps s0 (State.throttle s a1 a2) := by
  unfold State.throttle
  try dsimp only
  repeat' first
    | with_reducible assumption
    | with_reducible apply State.post_keeps
    | with_reducible apply State.setLevel_keeps
    | with_reducible apply State.thermEvent_keeps
    | with_reducible refine keeps_ite (fun _ => ?_) (fun _ => ?_)
    | (simp only [↓keeps_mk]; with_reducible refine keeps_fold ?_)
    | split

theorem State.thermalShutdown_keeps {s0 s : State} (a1 a2 a3 : Nat) (a4 : Int) (h : Keeps s0 s) :
    Keeps s0 (State.thermalShutdown s a1 a2 a3 a4) := by
  unfold State.thermalShutdown
  refine keeps_ite (fun _ => h) (fun _ => keeps_ite (fun _ => State.lose_keeps _ h) (fun _ => State.offRequest_keeps _ ?_))
  exact State.setFld_keeps F.PWR_STATUS_THERM_LATCH 1 h

/-! ## InkOps -/

theorem State.alloc_keeps {s0 s : State} (o last n : Nat) (h : Keeps s0 s) : Keeps s0 (State.alloc s o last n).1 := by
  unfold State.alloc
  exact h

theorem State.poisonCells_keeps {s0 s : State} (a1 : Nat) (a2 : List Nat) (h : Keeps s0 s) :
    Keeps s0 (State.poisonCells s a1 a2) := by
  unfold State.poisonCells
  try dsimp only
  repeat' first
    | with_reducible assumption
    | (simp only [↓keeps_mk]; with_reducible refine keeps_fold ?_)

theorem State.metaCell_keeps {s0 s : State} (a1 : Nat) (a2 : Nat) (a3 : Nat) (h : Keeps s0 s) :
    Keeps s0 (State.metaCell s a1 a2 a3) := by
  unfold State.metaCell
  try dsimp only
  repeat' first
    | with_reducible assumption
    | (simp only [↓keeps_mk]; with_reducible refine keeps_fold ?_)
    | split

theorem State.dropWait_keeps {s0 s : State} (a1 : CellReq) (h : Keeps s0 s) :
    Keeps s0 (State.dropWait s a1) := by
  unfold State.dropWait
  try dsimp only
  repeat' first
    | with_reducible assumption
    | (simp only [↓keeps_mk]; with_reducible refine keeps_fold ?_)

theorem State.waitCells_keeps {s0 s : State} (a1 : Nat) (a2 : Nat) (a3 : Nat) (a4 : GrantFor) (h : Keeps s0 s) :
    Keeps s0 (State.waitCells s a1 a2 a3 a4) := by
  unfold State.waitCells
  try dsimp only
  repeat' first
    | with_reducible assumption
    | (simp only [↓keeps_mk]; with_reducible refine keeps_fold ?_)

theorem State.putHold_keeps {s0 s : State} (a1 : Nat) (a2 : Nat) (a3 : Nat) (h : Keeps s0 s) :
    Keeps s0 (State.putHold s a1 a2 a3) := by
  unfold State.putHold
  try dsimp only
  repeat' first
    | with_reducible assumption
    | (simp only [↓keeps_mk]; with_reducible refine keeps_fold ?_)

theorem State.copyChain_keeps {s0 s : State} (a1 : Chain) (a2 : Nat) (h : Keeps s0 s) :
    Keeps s0 (State.copyChain s a1 a2).1 := by
  unfold State.copyChain
  try dsimp only
  repeat' first
    | with_reducible assumption
    | with_reducible apply State.alloc_keeps
    | with_reducible refine keeps_pair (by with_reducible assumption) (State.alloc_keeps _ _ _ ?_)
    | (simp only [↓keeps_mk]; with_reducible refine keeps_fold ?_)
    | split

theorem State.hold_keeps {s0 s : State} (a1 : Nat) (a2 : Nat) (a3 : Nat) (a4 : GrantFor) (h : Keeps s0 s) :
    Keeps s0 (State.hold s a1 a2 a3 a4).1 := by
  unfold State.hold
  try dsimp only
  repeat' first
    | with_reducible assumption
    | with_reducible apply State.waitCells_keeps
    | with_reducible apply State.copyChain_keeps
    | with_reducible refine keeps_pair (by with_reducible assumption) (State.copyChain_keeps _ _ ?_)
    | with_reducible apply State.putHold_keeps
    | with_reducible refine keeps_ite (fun _ => ?_) (fun _ => ?_)
    | (simp only [↓keeps_mk]; with_reducible refine keeps_fold ?_)
    | split

theorem State.release_keeps {s0 s : State} (a1 : Nat) (a2 : Nat) (h : Keeps s0 s) :
    Keeps s0 (State.release s a1 a2) := by
  unfold State.release
  try dsimp only
  repeat' first
    | with_reducible assumption
    | with_reducible apply State.post_keeps
    | with_reducible refine keeps_ite (fun _ => ?_) (fun _ => ?_)
    | (simp only [↓keeps_mk]; with_reducible refine keeps_fold ?_)
    | split

theorem State.releaseAll_keeps {s0 s : State} (a1 : Nat) (a2 : Nat) (h : Keeps s0 s) :
    Keeps s0 (State.releaseAll s a1 a2) := by
  unfold State.releaseAll
  try dsimp only
  repeat' first
    | with_reducible assumption
    | with_reducible apply State.release_keeps
    | (with_reducible refine keeps_foldl (fun _ _ _ => ?_) ?_)
    | split

theorem State.inkServed_keeps {s0 s : State} (a1 : Nat) (a2 : Nat) (a3 : Nat) (h : Keeps s0 s) :
    Keeps s0 (State.inkServed s a1 a2 a3) := by
  unfold State.inkServed
  try dsimp only
  repeat' first
    | with_reducible assumption
    | with_reducible apply State.emit_keeps
    | (simp only [↓keeps_mk]; with_reducible refine keeps_fold ?_)

/-! ## Geometry -/

theorem State.updBand_keeps {s0 s : State} (a1 : Nat) (a2 : Band → Band) (h : Keeps s0 s) :
    Keeps s0 (State.updBand s a1 a2) := by
  unfold State.updBand
  try dsimp only
  repeat' first
    | with_reducible assumption
    | (simp only [↓keeps_mk]; with_reducible refine keeps_fold ?_)

theorem State.bumpValid_keeps {s0 s : State} (a1 : Nat) (a2 : Bool) (h : Keeps s0 s) :
    Keeps s0 (State.bumpValid s a1 a2) := by
  unfold State.bumpValid
  try dsimp only
  repeat' first
    | with_reducible assumption
    | with_reducible apply State.updBand_keeps
    | with_reducible refine keeps_ite (fun _ => ?_) (fun _ => ?_)
    | split

theorem State.putEntry_keeps {s0 s : State} (a1 : Nat) (a2 : Nat) (a3 : MapEntry) (h : Keeps s0 s) :
    Keeps s0 (State.putEntry s a1 a2 a3) := by
  unfold State.putEntry
  try dsimp only
  repeat' first
    | with_reducible assumption
    | with_reducible refine keeps_ite (fun _ => ?_) (fun _ => ?_)
    | (simp only [↓keeps_mk]; with_reducible refine keeps_fold ?_)
    | split

theorem State.programmed_keeps {s0 s : State} (a1 : Nat) (h : Keeps s0 s) :
    Keeps s0 (State.programmed s a1) := by
  unfold State.programmed
  try dsimp only
  repeat' first
    | with_reducible assumption
    | (simp only [↓keeps_mk]; with_reducible refine keeps_fold ?_)

end Sys2Proof.Machine
end

