-- ==== Sys2Proof/Laws/KeepsMedia.lean ====
section
/-! SUPPORT. What the operations of the map, the Blotter, the write points and the medium keep: one lemma each. -/

namespace Sys2Proof.Machine

/-! ## MapOps -/

theorem State.setMapPage_keeps {s0 s : State} (a1 : MapPage) (h : Keeps s0 s) :
    Keeps s0 (State.setMapPage s a1) := by
  unfold State.setMapPage
  try dsimp only
  repeat' first
    | with_reducible assumption
    | with_reducible refine keeps_ite (fun _ => ?_) (fun _ => ?_)
    | (simp only [↓keeps_mk]; with_reducible refine keeps_fold ?_)
    | (with_reducible refine keeps_foldl (fun _ _ _ => ?_) ?_)
    | split

theorem State.touchPage_keeps {s0 s : State} (a1 : Nat) (a2 : Nat) (a3 : Nat) (h : Keeps s0 s) :
    Keeps s0 (State.touchPage s a1 a2 a3) := by
  unfold State.touchPage
  try dsimp only
  repeat' first
    | with_reducible assumption
    | with_reducible apply State.setMapPage_keeps
    | with_reducible refine keeps_ite (fun _ => ?_) (fun _ => ?_)
    | (simp only [↓keeps_mk]; with_reducible refine keeps_fold ?_)
    | (with_reducible refine keeps_foldl (fun _ _ _ => ?_) ?_)
    | split

theorem State.dropEntry_keeps {s0 s : State} (a1 : MapEntry) (h : Keeps s0 s) :
    Keeps s0 (State.dropEntry s a1) := by
  unfold State.dropEntry
  try dsimp only
  repeat' first
    | with_reducible assumption
    | with_reducible apply State.bumpValid_keeps
    | with_reducible refine keeps_ite (fun _ => ?_) (fun _ => ?_)
    | split

theorem State.changeEntry_keeps {s0 s : State} (a1 : Nat) (a2 : Nat) (a3 : Nat) (a4 : MapEntry) (h : Keeps s0 s) :
    Keeps s0 (State.changeEntry s a1 a2 a3 a4) := by
  unfold State.changeEntry
  try dsimp only
  repeat' first
    | with_reducible assumption
    | with_reducible apply State.dropEntry_keeps
    | with_reducible apply State.putEntry_keeps
    | with_reducible apply State.touchPage_keeps

theorem State.updRec_keeps {s0 s : State} (a1 : Nat) (a2 : InFlight → InFlight) (h : Keeps s0 s) :
    Keeps s0 (State.updRec s a1 a2) := by
  unfold State.updRec
  try dsimp only
  repeat' first
    | with_reducible assumption
    | (simp only [↓keeps_mk]; with_reducible refine keeps_fold ?_)

theorem State.updSnaps_keeps {s0 s : State} (a1 : Nat) (a2 : Nat) (a3 : MapEntry) (a4 : MapEntry) (h : Keeps s0 s) :
    Keeps s0 (State.updSnaps s a1 a2 a3 a4) := by
  unfold State.updSnaps
  try dsimp only
  repeat' first
    | with_reducible assumption
    | with_reducible refine keeps_ite (fun _ => ?_) (fun _ => ?_)
    | (simp only [↓keeps_mk]; with_reducible refine keeps_fold ?_)
    | split

theorem State.mapUpdate_keeps {s0 s : State} (a1 : Nat) (a2 : Nat) (a3 : Nat) (a4 : MapEntry) (h : Keeps s0 s) :
    Keeps s0 (State.mapUpdate s a1 a2 a3 a4) := by
  unfold State.mapUpdate
  try dsimp only
  repeat' first
    | with_reducible assumption
    | with_reducible apply State.updSnaps_keeps
    | with_reducible apply State.updRec_keeps
    | with_reducible apply State.putEntry_keeps
    | with_reducible apply State.bumpValid_keeps
    | with_reducible apply State.setMapPage_keeps
    | with_reducible refine keeps_ite (fun _ => ?_) (fun _ => ?_)
    | split

theorem State.dropChains_keeps {s0 s : State} (a1 : List Nat) (a2 : Nat) (a3 : InFlight → Bool) (h : Keeps s0 s) :
    Keeps s0 (State.dropChains s a1 a2 a3) := by
  unfold State.dropChains
  try dsimp only
  repeat' first
    | with_reducible assumption
    | with_reducible apply State.releaseAll_keeps
    | with_reducible refine keeps_ite (fun _ => ?_) (fun _ => ?_)
    | (with_reducible refine keeps_foldl (fun _ _ _ => ?_) ?_)
    | split

theorem State.markDry_keeps {s0 s : State} (a1 : Nat) (a2 : Nat) (h : Keeps s0 s) :
    Keeps s0 (State.markDry s a1 a2) := by
  unfold State.markDry
  try dsimp only
  repeat' first
    | with_reducible assumption
    | with_reducible apply State.updRec_keeps
    | with_reducible apply State.dropChains_keeps
    | split

theorem State.releaseRec_keeps {s0 s : State} (a1 : Nat) (a2 : Nat) (h : Keeps s0 s) :
    Keeps s0 (State.releaseRec s a1 a2) := by
  unfold State.releaseRec
  try dsimp only
  repeat' first
    | with_reducible assumption
    | with_reducible apply State.dropEntry_keeps
    | with_reducible apply State.dropChains_keeps
    | with_reducible refine keeps_ite (fun _ => ?_) (fun _ => ?_)
    | (simp only [↓keeps_mk]; with_reducible refine keeps_fold ?_)
    | split

theorem State.landRec_keeps {s0 s : State} (a1 : Nat) (h : Keeps s0 s) :
    Keeps s0 (State.landRec s a1) := by
  unfold State.landRec
  try dsimp only
  repeat' first
    | with_reducible assumption
    | with_reducible apply State.releaseRec_keeps
    | with_reducible apply State.mapUpdate_keeps
    | with_reducible refine keeps_ite (fun _ => ?_) (fun _ => ?_)
    | split

theorem State.landPending_keeps {s0 s : State}  (h : Keeps s0 s) :
    Keeps s0 (State.landPending s) := by
  unfold State.landPending
  try dsimp only
  repeat' first
    | with_reducible assumption
    | with_reducible apply State.landRec_keeps
    | (with_reducible refine keeps_foldl (fun _ _ _ => ?_) ?_)

theorem State.unplace_keeps {s0 s : State} (a1 : InFlight) (h : Keeps s0 s) :
    Keeps s0 (State.unplace s a1) := by
  unfold State.unplace
  try dsimp only
  repeat' first
    | with_reducible assumption
    | with_reducible refine keeps_ite (fun _ => ?_) (fun _ => ?_)
    | (simp only [↓keeps_mk]; with_reducible refine keeps_fold ?_)
    | split

theorem State.abortRec_keeps {s0 s : State} (a1 : Nat) (h : Keeps s0 s) :
    Keeps s0 (State.abortRec s a1) := by
  unfold State.abortRec
  try dsimp only
  repeat' first
    | with_reducible assumption
    | with_reducible apply State.updSnaps_keeps
    | with_reducible apply State.putEntry_keeps
    | with_reducible apply State.bumpValid_keeps
    | with_reducible apply State.dropChains_keeps
    | with_reducible apply State.unplace_keeps
    | with_reducible refine keeps_ite (fun _ => ?_) (fun _ => ?_)
    | (simp only [↓keeps_mk]; with_reducible refine keeps_fold ?_)
    | split

theorem State.openRec_keeps {s0 s : State} (a1 : Cmd) (a2 : Nat) (a3 : Nat) (a4 : Nat) (a5 : Nat) (a6 : List Part) (h : Keeps s0 s) :
    Keeps s0 (State.openRec s a1 a2 a3 a4 a5 a6).1 := by
  unfold State.openRec
  try dsimp only
  repeat' first
    | with_reducible assumption
    | with_reducible apply State.changeEntry_keeps
    | (simp only [↓keeps_mk]; with_reducible refine keeps_fold ?_)

theorem State.stampIu_keeps {s0 : State} (c : Cmd) (ink full by_lo by_hi iuS : Nat) (p : State × List Nat) (e : Nat × Nat)
    (h : Keeps s0 p.1) : Keeps s0 (State.stampIu c ink full by_lo by_hi iuS p e).1 := by
  obtain ⟨s, l⟩ := p
  unfold State.stampIu
  dsimp only
  split
  · exact State.changeEntry_keeps _ _ _ _ h
  · exact State.openRec_keeps _ _ _ _ _ _ h

theorem State.stampCmd_keeps {s0 s : State} (a1 : Cmd) (a2 : Nat) (h : Keeps s0 s) :
    Keeps s0 (State.stampCmd s a1 a2) := by
  unfold State.stampCmd
  try dsimp only
  repeat' first
    | with_reducible assumption
    | with_reducible apply State.stampIu_keeps
    | with_reducible refine keeps_pair (by with_reducible assumption) (State.stampIu_keeps _ _ _ _ _ _ _ _ ?_)
    | with_reducible refine keeps_ite (fun _ => ?_) (fun _ => ?_)
    | (simp only [↓keeps_mk]; with_reducible refine keeps_fold ?_)
    | (with_reducible refine keeps_foldl (fun _ _ _ => ?_) ?_)
    | (with_reducible refine keeps_foldl1 (fun _ _ _ => ?_) ?_)
    | with_reducible refine keeps_pair (by with_reducible assumption) (keeps_foldl1 (fun _ _ _ => ?_) ?_)
    | split

theorem State.readCmd_keeps {s0 s : State} (a1 : Ns) (a2 : Cmd) (h : Keeps s0 s) :
    Keeps s0 (State.readCmd s a1 a2).1 := by
  unfold State.readCmd
  try dsimp only
  repeat' first
    | with_reducible assumption
    | with_reducible apply State.hold_keeps
    | with_reducible refine keeps_pair (by with_reducible assumption) (State.hold_keeps _ _ _ _ ?_)
    | (with_reducible refine keeps_foldl (fun _ _ _ => ?_) ?_)
    | (with_reducible refine keeps_foldl1 (fun _ _ _ => ?_) ?_)
    | with_reducible refine keeps_pair (by with_reducible assumption) (keeps_foldl1 (fun _ _ _ => ?_) ?_)
    | split

theorem State.formCompare_keeps {s0 s : State} (a1 : Cmd) (h : Keeps s0 s) :
    Keeps s0 (State.formCompare s a1) := by
  unfold State.formCompare
  try dsimp only
  repeat' first
    | with_reducible assumption
    | with_reducible apply State.readCmd_keeps
    | with_reducible refine keeps_pair (by with_reducible assumption) (State.readCmd_keeps _ _ ?_)
    | (simp only [↓keeps_mk]; with_reducible refine keeps_fold ?_)
    | split

theorem State.stampReady_keeps {s0 : State} (n : Nat) : ∀ {s : State}, Keeps s0 s → Keeps s0 (State.stampReady n s) := by
  induction n with
  | zero => exact fun h => h
  | succ n ih =>
    intro s h
    unfold State.stampReady
    dsimp only
    split
    · exact h
    · split
      · exact ih (State.stampCmd_keeps _ _ (State.formCompare_keeps _ h))
      · exact h

theorem State.stampAll_keeps {s0 s : State}  (h : Keeps s0 s) :
    Keeps s0 (State.stampAll s) := by
  unfold State.stampAll
  try dsimp only
  repeat' first
    | with_reducible assumption
    | with_reducible apply State.stampReady_keeps

/-! ## BlotterOps -/

theorem State.updSet_keeps {s0 s : State} (a1 : Nat) (a2 : BltSet → BltSet) (h : Keeps s0 s) :
    Keeps s0 (State.updSet s a1 a2) := by
  unfold State.updSet
  try dsimp only
  repeat' first
    | with_reducible assumption
    | (simp only [↓keeps_mk]; with_reducible refine keeps_fold ?_)

theorem State.switchSlots_keeps {s0 s : State}  (h : Keeps s0 s) :
    Keeps s0 (State.switchSlots s) := by
  unfold State.switchSlots
  try dsimp only
  repeat' first
    | with_reducible assumption
    | with_reducible apply State.post_keeps
    | with_reducible apply State.updSet_keeps
    | with_reducible refine keeps_ite (fun _ => ?_) (fun _ => ?_)
    | (with_reducible refine keeps_foldl (fun _ _ _ => ?_) ?_)
    | split

theorem State.openRow_keeps {s0 s : State} (dump : Bool) (h : Keeps s0 s) : ∀ t, State.openRow s dump = some t → Keeps s0 t := by
  have hd : Keeps s0 ((s.rowWait dump).elim s s.dropWait) := by
    cases s.rowWait dump with
    | none => exact h
    | some r => exact State.dropWait_keeps _ h
  intro t e
  unfold State.openRow at e
  dsimp only at e
  repeat' split at e
  all_goals first | (cases e; done) | (injection e with e; subst e)
  all_goals (with_reducible apply State.updSet_keeps; simp only [↓keeps_mk]; with_reducible refine keeps_fold ?_; with_reducible apply State.alloc_keeps; exact hd)

theorem State.updRow_keeps {s0 s : State} (a1 : Nat) (a2 : Nat) (a3 : Nat) (a4 : BltRow → BltRow) (h : Keeps s0 s) :
    Keeps s0 (State.updRow s a1 a2 a3 a4) := by
  unfold State.updRow
  try dsimp only
  repeat' first
    | with_reducible assumption
    | (simp only [↓keeps_mk]; with_reducible refine keeps_fold ?_)

theorem State.updPage_keeps {s0 s : State} (a1 : Nat) (a2 : BltPage → BltPage) (h : Keeps s0 s) :
    Keeps s0 (State.updPage s a1 a2) := by
  unfold State.updPage
  try dsimp only
  repeat' first
    | with_reducible assumption
    | (simp only [↓keeps_mk]; with_reducible refine keeps_fold ?_)

theorem State.askRow_keeps {s0 s : State} (dump : Bool) (h : Keeps s0 s) : Keeps s0 (State.askRow s dump) := by
  unfold State.askRow
  dsimp only
  split
  · rename_i e
    exact State.openRow_keeps _ h _ e
  · exact keeps_ite (fun _ => State.waitCells_keeps _ _ _ _ h) (fun _ => h)

theorem State.placePage_keeps {s0 s : State} (p : BltPage) (h : Keeps s0 s) : Keeps s0 (State.placePage s p) := by
  have h1 : ∀ c : Prop, ∀ [Decidable c], Keeps s0 (if c then s.askRow p.dump else s) := by
    intro c _
    exact keeps_ite (fun _ => State.askRow_keeps _ h) (fun _ => h)
  unfold State.placePage
  dsimp only
  split
  · exact h1 _
  · exact State.newStroke_keeps _ (State.updPage_keeps _ _ (State.updRow_keeps _ _ _ _ (h1 _)))

theorem State.placePages_keeps {s0 s : State}  (h : Keeps s0 s) :
    Keeps s0 (State.placePages s) := by
  unfold State.placePages
  try dsimp only
  repeat' first
    | with_reducible assumption
    | with_reducible apply State.placePage_keeps
    | with_reducible refine keeps_ite (fun _ => ?_) (fun _ => ?_)
    | (with_reducible refine keeps_foldl (fun _ _ _ => ?_) ?_)
    | (with_reducible refine keeps_foldl1 (fun _ _ _ => ?_) ?_)
    | with_reducible refine keeps_pair (by with_reducible assumption) (keeps_foldl1 (fun _ _ _ => ?_) ?_)
    | split

theorem State.joinGroup_keeps {s0 s : State} (a1 : BltUnit) (h : Keeps s0 s) :
    Keeps s0 (State.joinGroup s a1) := by
  unfold State.joinGroup
  try dsimp only
  repeat' first
    | with_reducible assumption
    | with_reducible apply State.updPage_keeps
    | with_reducible refine keeps_ite (fun _ => ?_) (fun _ => ?_)
    | (simp only [↓keeps_mk]; with_reducible refine keeps_fold ?_)
    | split

theorem State.pumpBlotter_keeps {s0 s : State}  (h : Keeps s0 s) :
    Keeps s0 (State.pumpBlotter s) := by
  unfold State.pumpBlotter
  try dsimp only
  repeat' first
    | with_reducible assumption
    | with_reducible apply State.switchSlots_keeps
    | with_reducible apply State.joinGroup_keeps
    | with_reducible apply State.placePages_keeps
    | (simp only [↓keeps_mk]; with_reducible refine keeps_fold ?_)
    | (with_reducible refine keeps_foldl (fun _ _ _ => ?_) ?_)

theorem State.logChanges_keeps {s0 s : State}  (h : Keeps s0 s) :
    Keeps s0 (State.logChanges s) := by
  unfold State.logChanges
  try dsimp only
  repeat' first
    | with_reducible assumption
    | with_reducible apply State.joinGroup_keeps
    | (with_reducible refine keeps_foldl (fun _ _ _ => ?_) ?_)
    | split

theorem State.orderingPoint_keeps {s0 s : State}  (h : Keeps s0 s) :
    Keeps s0 (State.orderingPoint s) := by
  unfold State.orderingPoint
  try dsimp only
  repeat' first
    | with_reducible assumption
    | with_reducible apply State.stampAll_keeps
    | with_reducible apply State.logChanges_keeps
    | with_reducible apply State.pumpBlotter_keeps

theorem State.retireBlt_keeps {s0 s : State} (a1 : Nat) (a2 : Nat) (h : Keeps s0 s) :
    Keeps s0 (State.retireBlt s a1 a2) := by
  unfold State.retireBlt
  try dsimp only
  repeat' first
    | with_reducible assumption
    | with_reducible apply State.post_keeps
    | (simp only [↓keeps_mk]; with_reducible refine keeps_fold ?_)

theorem State.closeRows_keeps {s0 s : State} (a1 : Bool) (h : Keeps s0 s) :
    Keeps s0 (State.closeRows s a1) := by
  unfold State.closeRows
  try dsimp only
  repeat' first
    | with_reducible assumption
    | with_reducible apply State.newStroke_keeps
    | with_reducible apply State.updRow_keeps
    | with_reducible refine keeps_ite (fun _ => ?_) (fun _ => ?_)
    | (with_reducible refine keeps_foldl (fun _ _ _ => ?_) ?_)
    | split

theorem State.dryUnit_keeps {s0 s : State} (a1 : BltUnit) (h : Keeps s0 s) :
    Keeps s0 (State.dryUnit s a1) := by
  unfold State.dryUnit
  try dsimp only
  repeat' first
    | with_reducible assumption
    | with_reducible apply State.markDry_keeps
    | (simp only [↓keeps_mk]; with_reducible refine keeps_fold ?_)
    | split

theorem State.blotterResult_keeps {s0 s : State} (a1 : Nat) (a2 : Nat) (a3 : Bool) (h : Keeps s0 s) :
    Keeps s0 (State.blotterResult s a1 a2 a3) := by
  unfold State.blotterResult
  try dsimp only
  repeat' first
    | with_reducible assumption
    | with_reducible apply State.closeRows_keeps
    | with_reducible apply State.updPage_keeps
    | with_reducible apply State.dryUnit_keeps
    | with_reducible apply State.retireBlt_keeps
    | with_reducible apply State.updRow_keeps
    | with_reducible refine keeps_ite (fun _ => ?_) (fun _ => ?_)
    | (with_reducible refine keeps_foldl (fun _ _ _ => ?_) ?_)
    | split

theorem State.rowParityResult_keeps {s0 s : State} (a1 : Nat) (a2 : Nat) (a3 : Nat) (a4 : Nat) (a5 : Bool) (h : Keeps s0 s) :
    Keeps s0 (State.rowParityResult s a1 a2 a3 a4 a5) := by
  unfold State.rowParityResult
  try dsimp only
  repeat' first
    | with_reducible assumption
    | with_reducible apply State.closeRows_keeps
    | with_reducible apply State.releaseAll_keeps
    | with_reducible apply State.retireBlt_keeps
    | with_reducible apply State.updRow_keeps
    | with_reducible refine keeps_ite (fun _ => ?_) (fun _ => ?_)
    | split

theorem State.releaseUnits_keeps {s0 s : State} (a1 : BltUnit → Bool) (h : Keeps s0 s) :
    Keeps s0 (State.releaseUnits s a1) := by
  unfold State.releaseUnits
  try dsimp only
  repeat' first
    | with_reducible assumption
    | (simp only [↓keeps_mk]; with_reducible refine keeps_fold ?_)

theorem State.eraseSlots_keeps {s0 s : State}  (h : Keeps s0 s) :
    Keeps s0 (State.eraseSlots s) := by
  unfold State.eraseSlots
  try dsimp only
  repeat' first
    | with_reducible assumption
    | with_reducible apply State.updSet_keeps
    | with_reducible apply State.newStroke_keeps
    | with_reducible refine keeps_ite (fun _ => ?_) (fun _ => ?_)
    | (with_reducible refine keeps_foldl (fun _ _ _ => ?_) ?_)
    | split

theorem State.eraseSlotResult_keeps {s0 s : State} (a1 : Nat) (a2 : Nat) (a3 : Nat) (a4 : Nat) (h : Keeps s0 s) :
    Keeps s0 (State.eraseSlotResult s a1 a2 a3 a4) := by
  unfold State.eraseSlotResult
  try dsimp only
  repeat' first
    | with_reducible assumption
    | with_reducible apply State.updSet_keeps
    | with_reducible apply State.pumpBlotter_keeps
    | with_reducible apply State.newStroke_keeps
    | with_reducible apply State.retireBlt_keeps
    | with_reducible refine keeps_ite (fun _ => ?_) (fun _ => ?_)
    | (simp only [↓keeps_mk]; with_reducible refine keeps_fold ?_)
    | split

theorem State.startDump_keeps {s0 s : State} (a1 : Nat) (h : Keeps s0 s) :
    Keeps s0 (State.startDump s a1) := by
  unfold State.startDump
  try dsimp only
  repeat' first
    | with_reducible assumption
    | with_reducible apply State.placePages_keeps
    | with_reducible apply State.abortRec_keeps
    | with_reducible refine keeps_ite (fun _ => ?_) (fun _ => ?_)
    | (simp only [↓keeps_mk]; with_reducible refine keeps_fold ?_)
    | (with_reducible refine keeps_foldl (fun _ _ _ => ?_) ?_)
    | split

/-! ## EnergyStore -/

theorem State.dryCompleted_keeps {s0 s : State}  (h : Keeps s0 s) :
    Keeps s0 (State.dryCompleted s) := by
  unfold State.dryCompleted
  try dsimp only
  repeat' first
    | with_reducible assumption
    | with_reducible apply State.pumpBlotter_keeps
    | (simp only [↓keeps_mk]; with_reducible refine keeps_fold ?_)

theorem State.recompute_keeps {s0 s : State}  (h : Keeps s0 s) :
    Keeps s0 (State.recompute s) := by
  unfold State.recompute
  try dsimp only
  repeat' first
    | with_reducible assumption
    | with_reducible apply State.post_keeps
    | with_reducible apply State.setFld_keeps
    | with_reducible apply State.dryCompleted_keeps
    | with_reducible refine keeps_ite (fun _ => ?_) (fun _ => ?_)
    | (simp only [↓keeps_mk]; with_reducible refine keeps_fold ?_)
    | split

theorem State.measureC_keeps {s0 s : State} (a1 : Nat) (h : Keeps s0 s) :
    Keeps s0 (State.measureC s a1) := by
  unfold State.measureC
  try dsimp only
  repeat' first
    | with_reducible assumption
    | with_reducible apply State.setFld_keeps
    | split

theorem State.testResult_keeps {s0 s : State} (a1 : Bool) (h : Keeps s0 s) :
    Keeps s0 (State.testResult s a1) := by
  unfold State.testResult
  try dsimp only
  repeat' first
    | with_reducible assumption
    | with_reducible apply State.post_keeps
    | with_reducible apply State.setFld_keeps
    | with_reducible apply State.recompute_keeps
    | with_reducible refine keeps_ite (fun _ => ?_) (fun _ => ?_)
    | (simp only [↓keeps_mk]; with_reducible refine keeps_fold ?_)
    | split

theorem State.sampled_keeps {s0 s : State} (a1 : Nat) (h : Keeps s0 s) :
    Keeps s0 (State.sampled s a1) := by
  unfold State.sampled
  try dsimp only
  repeat' first
    | with_reducible assumption
    | with_reducible apply State.setFld_keeps
    | with_reducible apply State.recompute_keeps
    | with_reducible apply State.measureC_keeps
    | with_reducible refine keeps_ite (fun _ => ?_) (fun _ => ?_)
    | (simp only [↓keeps_mk]; with_reducible refine keeps_fold ?_)
    | split

theorem execVstoreSample_keeps {s0 s : State} (a0 : Nat) (h : Keeps s0 s) :
    KeepsR s0 (execVstoreSample a0 s) := by
  unfold execVstoreSample
  try dsimp only
  repeat' first
    | with_reducible assumption
    | with_reducible refine keepsR_next ?_
    | with_reducible apply State.testResult_keeps
    | with_reducible apply State.sampled_keeps
    | with_reducible apply State.measureC_keeps
    | with_reducible refine keeps_ite (fun _ => ?_) (fun _ => ?_)
    | with_reducible refine keepsR_ite (fun _ => ?_) (fun _ => ?_)
    | (simp only [↓keeps_mk]; with_reducible refine keeps_fold ?_)
    | split

theorem execHoldupSelfTest_keeps {s0 s : State}  (h : Keeps s0 s) :
    KeepsR s0 (execHoldupSelfTest s) := by
  unfold execHoldupSelfTest
  try dsimp only
  repeat' first
    | with_reducible assumption
    | with_reducible refine keepsR_next ?_
    | with_reducible refine keeps_ite (fun _ => ?_) (fun _ => ?_)
    | with_reducible refine keepsR_ite (fun _ => ?_) (fun _ => ?_)
    | (simp only [↓keeps_mk]; with_reducible refine keeps_fold ?_)
    | split

theorem execBudgetRecompute_keeps {s0 s : State}  (h : Keeps s0 s) :
    KeepsR s0 (execBudgetRecompute s) := by
  unfold execBudgetRecompute
  try dsimp only
  repeat' first
    | with_reducible assumption
    | with_reducible refine keepsR_next ?_
    | with_reducible apply State.recompute_keeps
    | with_reducible refine keeps_ite (fun _ => ?_) (fun _ => ?_)
    | with_reducible refine keepsR_ite (fun _ => ?_) (fun _ => ?_)
    | split

/-! ## CmdOps -/

theorem State.updCmd_keeps {s0 s : State} (a1 : Ref) (a2 : Cmd → Cmd) (h : Keeps s0 s) :
    Keeps s0 (State.updCmd s a1 a2) := by
  unfold State.updCmd
  try dsimp only
  repeat' first
    | with_reducible assumption
    | (simp only [↓keeps_mk]; with_reducible refine keeps_fold ?_)

theorem State.dropCmd_keeps {s0 s : State} (a1 : Ref) (h : Keeps s0 s) :
    Keeps s0 (State.dropCmd s a1) := by
  unfold State.dropCmd
  try dsimp only
  repeat' first
    | with_reducible assumption
    | with_reducible apply State.releaseAll_keeps
    | with_reducible apply State.stopReads_keeps
    | with_reducible apply State.release_keeps
    | with_reducible refine keeps_ite (fun _ => ?_) (fun _ => ?_)
    | (simp only [↓keeps_mk]; with_reducible refine keeps_fold ?_)
    | (with_reducible refine keeps_foldl (fun _ _ _ => ?_) ?_)
    | split

theorem State.owe_keeps {s0 s : State} (a1 : Cmd) (h : Keeps s0 s) :
    Keeps s0 (State.owe s a1) := by
  unfold State.owe
  try dsimp only
  repeat' first
    | with_reducible assumption
    | (simp only [↓keeps_mk]; with_reducible refine keeps_fold ?_)

theorem State.readLeft_keeps {s0 s : State} (a1 : Ref) (h : Keeps s0 s) :
    Keeps s0 (State.readLeft s a1) := by
  unfold State.readLeft
  try dsimp only
  repeat' first
    | with_reducible assumption
    | with_reducible apply State.post_keeps
    | with_reducible refine keeps_ite (fun _ => ?_) (fun _ => ?_)
    | (simp only [↓keeps_mk]; with_reducible refine keeps_fold ?_)
    | split

theorem State.endCompare_keeps {s0 s : State} (a1 : Option Ref) (h : Keeps s0 s) :
    Keeps s0 (State.endCompare s a1) := by
  unfold State.endCompare
  try dsimp only
  repeat' first
    | with_reducible assumption
    | with_reducible apply State.dropCmd_keeps
    | with_reducible apply State.complete_keeps
    | with_reducible apply State.readLeft_keeps
    | with_reducible apply State.owe_keeps
    | split

theorem State.failWrite_keeps {s0 s : State} (a1 : Ref) (a2 : Status) (h : Keeps s0 s) :
    Keeps s0 (State.failWrite s a1 a2) := by
  unfold State.failWrite
  try dsimp only
  repeat' first
    | with_reducible assumption
    | with_reducible apply State.dropCmd_keeps
    | with_reducible apply State.complete_keeps
    | with_reducible apply State.releaseAll_keeps
    | with_reducible apply State.endCompare_keeps
    | with_reducible apply State.abortRec_keeps
    | (with_reducible refine keeps_foldl (fun _ _ _ => ?_) ?_)
    | split

theorem State.failRead_keeps {s0 s : State} (a1 : Ref) (a2 : Status) (h : Keeps s0 s) :
    Keeps s0 (State.failRead s a1 a2) := by
  unfold State.failRead
  try dsimp only
  repeat' first
    | with_reducible assumption
    | with_reducible apply State.dropCmd_keeps
    | with_reducible apply State.complete_keeps
    | with_reducible apply State.readLeft_keeps
    | with_reducible apply State.failWrite_keeps
    | with_reducible apply State.owe_keeps
    | split

theorem State.endIo_keeps {s0 s : State} (a1 : Bool) (h : Keeps s0 s) :
    Keeps s0 (State.endIo s a1) := by
  unfold State.endIo
  try dsimp only
  repeat' first
    | with_reducible assumption
    | with_reducible apply State.failRead_keeps
    | with_reducible apply State.dropCmd_keeps
    | with_reducible apply State.complete_keeps
    | with_reducible apply State.failWrite_keeps
    | with_reducible refine keeps_ite (fun _ => ?_) (fun _ => ?_)
    | (with_reducible refine keeps_foldl (fun _ _ _ => ?_) ?_)
    | split

/-! ## SafeOps -/

theorem State.shutDone_keeps {s0 s : State} (a1 : Nat) (h : Keeps s0 s) :
    Keeps s0 (State.shutDone s a1) := by
  unfold State.shutDone
  try dsimp only
  repeat' first
    | with_reducible assumption
    | (simp only [↓keeps_mk]; with_reducible refine keeps_fold ?_)

theorem State.shutRecord_keeps {s0 s : State} (a1 : Nat) (h : Keeps s0 s) :
    Keeps s0 (State.shutRecord s a1) := by
  unfold State.shutRecord
  try dsimp only
  repeat' first
    | with_reducible assumption
    | with_reducible refine keeps_ite (fun _ => ?_) (fun _ => ?_)
    | (simp only [↓keeps_mk]; with_reducible refine keeps_fold ?_)
    | split

theorem State.shutSafe_keeps {s0 s : State}  (h : Keeps s0 s) :
    Keeps s0 (State.shutSafe s) := by
  unfold State.shutSafe
  try dsimp only
  repeat' first
    | with_reducible assumption
    | with_reducible apply State.shutRecord_keeps
    | with_reducible apply State.shutDone_keeps
    | with_reducible refine keeps_ite (fun _ => ?_) (fun _ => ?_)
    | (with_reducible refine keeps_foldl (fun _ _ _ => ?_) ?_)
    | split

theorem State.noteSafe_keeps {s0 s : State} (a1 : Nat) (a2 : Bool) (h : Keeps s0 s) :
    Keeps s0 (State.noteSafe s a1 a2) := by
  unfold State.noteSafe
  try dsimp only
  repeat' first
    | with_reducible assumption
    | with_reducible apply State.endIo_keeps
    | with_reducible apply State.sendOwn_keeps
    | with_reducible apply State.setFld_keeps
    | with_reducible apply State.startDump_keeps
    | with_reducible apply State.logEntry_keeps
    | with_reducible refine keeps_ite (fun _ => ?_) (fun _ => ?_)
    | split

theorem State.enterSafe_keeps {s0 s : State} (a1 : Nat) (a2 : Bool) (h : Keeps s0 s) :
    Keeps s0 (State.enterSafe s a1 a2) := by
  unfold State.enterSafe
  try dsimp only
  repeat' first
    | with_reducible assumption
    | with_reducible apply State.dozeAbandon_keeps
    | with_reducible apply State.shutSafe_keeps
    | with_reducible apply State.lose_keeps
    | with_reducible apply State.logDiscard_keeps
    | with_reducible apply State.logLost_keeps
    | with_reducible apply State.noteSafe_keeps
    | with_reducible apply State.modeAfter_keeps
    | with_reducible refine keeps_ite (fun _ => ?_) (fun _ => ?_)
    | (simp only [↓keeps_mk]; with_reducible refine keeps_fold ?_)
    | split

/-! ## FetchOps -/

theorem State.updFetch_keeps {s0 s : State} (a1 : Nat) (a2 : Fetch → Fetch) (h : Keeps s0 s) :
    Keeps s0 (State.updFetch s a1 a2) := by
  unfold State.updFetch
  try dsimp only
  repeat' first
    | with_reducible assumption
    | (simp only [↓keeps_mk]; with_reducible refine keeps_fold ?_)

theorem State.attemptStroke_keeps {s0 s : State} (a1 : Fetch) (h : Keeps s0 s) :
    Keeps s0 (State.attemptStroke s a1) := by
  unfold State.attemptStroke
  try dsimp only
  repeat' first
    | with_reducible assumption
    | with_reducible apply State.post_keeps
    | with_reducible apply State.newStroke_keeps
    | with_reducible refine keeps_ite (fun _ => ?_) (fun _ => ?_)
    | split

theorem State.addFetch_keeps {s0 s : State} (a1 : Fetch) (h : Keeps s0 s) :
    Keeps s0 (State.addFetch s a1).1 := by
  unfold State.addFetch
  try dsimp only
  repeat' first
    | with_reducible assumption
    | (simp only [↓keeps_mk]; with_reducible refine keeps_fold ?_)

theorem State.startRebuild_keeps {s0 s : State} (a1 : Nat) (h : Keeps s0 s) :
    Keeps s0 (State.startRebuild s a1) := by
  unfold State.startRebuild
  try dsimp only
  repeat' first
    | with_reducible assumption
    | with_reducible apply State.attemptStroke_keeps
    | with_reducible apply State.updFetch_keeps
    | with_reducible apply State.addFetch_keeps
    | with_reducible refine keeps_pair (by with_reducible assumption) (State.addFetch_keeps _ ?_)
    | with_reducible refine keeps_ite (fun _ => ?_) (fun _ => ?_)
    | (with_reducible refine keeps_foldl (fun _ _ _ => ?_) ?_)
    | split

theorem State.startFetch_keeps {s0 s : State} (a1 : Fetch) (h : Keeps s0 s) :
    Keeps s0 (State.startFetch s a1) := by
  unfold State.startFetch
  try dsimp only
  repeat' first
    | with_reducible assumption
    | with_reducible apply State.attemptStroke_keeps
    | with_reducible apply State.updFetch_keeps
    | with_reducible apply State.addFetch_keeps
    | with_reducible refine keeps_pair (by with_reducible assumption) (State.addFetch_keeps _ ?_)
    | with_reducible apply State.startRebuild_keeps
    | with_reducible refine keeps_ite (fun _ => ?_) (fun _ => ?_)
    | (simp only [↓keeps_mk]; with_reducible refine keeps_fold ?_)
    | split

theorem State.countSense_keeps {s0 s : State} (a1 : Nat) (a2 : Nat) (h : Keeps s0 s) :
    Keeps s0 (State.countSense s a1 a2) := by
  unfold State.countSense
  try dsimp only
  repeat' first
    | with_reducible assumption
    | (simp only [↓keeps_mk]; with_reducible refine keeps_fold ?_)

theorem State.startMoves_keeps {s0 s : State} (a1 : Nat) (a2 : Option Nat) (a3 : Nat) (h : Keeps s0 s) :
    Keeps s0 (State.startMoves s a1 a2 a3) := by
  unfold State.startMoves
  try dsimp only
  repeat' first
    | with_reducible assumption
    | with_reducible apply State.startFetch_keeps
    | with_reducible apply State.updBand_keeps
    | with_reducible refine keeps_ite (fun _ => ?_) (fun _ => ?_)
    | (with_reducible refine keeps_foldl (fun _ _ _ => ?_) ?_)
    | split

theorem State.finding_keeps {s0 s : State} (a1 : Nat) (a2 : Nat) (h : Keeps s0 s) :
    Keeps s0 (State.finding s a1 a2) := by
  unfold State.finding
  try dsimp only
  repeat' first
    | with_reducible assumption
    | with_reducible apply State.post_keeps
    | with_reducible apply State.updBand_keeps
    | with_reducible apply State.startMoves_keeps
    | with_reducible refine keeps_ite (fun _ => ?_) (fun _ => ?_)
    | (simp only [↓keeps_mk]; with_reducible refine keeps_fold ?_)
    | split

theorem State.disturbCheck_keeps {s0 s : State} (a1 : Nat) (a2 : Nat) (h : Keeps s0 s) :
    Keeps s0 (State.disturbCheck s a1 a2) := by
  unfold State.disturbCheck
  try dsimp only
  repeat' first
    | with_reducible assumption
    | with_reducible apply State.post_keeps
    | with_reducible apply State.startFetch_keeps
    | with_reducible refine keeps_ite (fun _ => ?_) (fun _ => ?_)
    | (simp only [↓keeps_mk]; with_reducible refine keeps_fold ?_)
    | (with_reducible refine keeps_foldl (fun _ _ _ => ?_) ?_)
    | split

/-! ## WritePoints -/

theorem State.setWp_keeps {s0 s : State} (a1 : WritePoint) (h : Keeps s0 s) :
    Keeps s0 (State.setWp s a1) := by
  unfold State.setWp
  try dsimp only
  repeat' first
    | with_reducible assumption
    | (simp only [↓keeps_mk]; with_reducible refine keeps_fold ?_)

theorem State.refreshLevel_keeps {s0 s : State}  (h : Keeps s0 s) :
    Keeps s0 (State.refreshLevel s) := by
  unfold State.refreshLevel
  try dsimp only
  repeat' first
    | with_reducible assumption
    | with_reducible apply State.post_keeps
    | with_reducible refine keeps_ite (fun _ => ?_) (fun _ => ?_)
    | (simp only [↓keeps_mk]; with_reducible refine keeps_fold ?_)
    | split

theorem State.feed_keeps {s0 s : State} (a1 : Nat) (a2 : Item) (h : Keeps s0 s) :
    Keeps s0 (State.feed s a1 a2) := by
  unfold State.feed
  try dsimp only
  repeat' first
    | with_reducible assumption
    | with_reducible apply State.setWp_keeps

theorem State.mergeRec_keeps {s0 s : State} (a1 : InFlight) (h : Keeps s0 s) :
    Keeps s0 (State.mergeRec s a1).1 := by
  unfold State.mergeRec
  try dsimp only
  repeat' first
    | with_reducible assumption
    | with_reducible apply State.updRec_keeps
    | with_reducible apply State.startFetch_keeps
    | with_reducible refine keeps_ite (fun _ => ?_) (fun _ => ?_)
    | split

theorem State.programWl_keeps {s0 s : State} (a1 : Band) (a2 : Nat) (a3 : Bool) (a4 : List Item) (a5 : Nat) (h : Keeps s0 s) :
    Keeps s0 (State.programWl s a1 a2 a3 a4 a5) := by
  unfold State.programWl
  try dsimp only
  repeat' first
    | with_reducible assumption
    | with_reducible apply State.updBand_keeps
    | with_reducible apply State.newStroke_keeps
    | with_reducible refine keeps_ite (fun _ => ?_) (fun _ => ?_)
    | (simp only [↓keeps_mk]; with_reducible refine keeps_fold ?_)
    | (with_reducible refine keeps_foldl (fun _ _ _ => ?_) ?_)
    | split

theorem State.dropStripe_keeps {s0 s : State} (a1 : Nat) (a2 : Nat) (h : Keeps s0 s) :
    Keeps s0 (State.dropStripe s a1 a2) := by
  unfold State.dropStripe
  try dsimp only
  repeat' first
    | with_reducible assumption
    | (simp only [↓keeps_mk]; with_reducible refine keeps_fold ?_)

theorem State.foldItem_keeps {s0 s : State} (a1 : Band) (a2 : Nat) (a3 : Item) (h : Keeps s0 s) :
    Keeps s0 (State.foldItem s a1 a2 a3) := by
  unfold State.foldItem
  try dsimp only
  repeat' first
    | with_reducible assumption
    | with_reducible refine keeps_ite (fun _ => ?_) (fun _ => ?_)
    | (simp only [↓keeps_mk]; with_reducible refine keeps_fold ?_)
    | split

theorem State.placeItem_keeps {s0 s : State} (a1 : Nat) (a2 : Band) (a3 : Item) (h : Keeps s0 s) :
    Keeps s0 (State.placeItem s a1 a2 a3) := by
  unfold State.placeItem
  try dsimp only
  repeat' first
    | with_reducible assumption
    | with_reducible apply State.foldItem_keeps
    | with_reducible apply State.programWl_keeps
    | with_reducible apply State.updBand_keeps
    | with_reducible apply State.setWp_keeps
    | with_reducible apply State.dropStripe_keeps
    | with_reducible refine keeps_ite (fun _ => ?_) (fun _ => ?_)
    | (simp only [↓keeps_mk]; with_reducible refine keeps_fold ?_)
    | split

theorem State.placeHead_keeps {s0 s : State} (a1 : Nat) (h : Keeps s0 s) :
    Keeps s0 (State.placeHead s a1).1 := by
  unfold State.placeHead
  try dsimp only
  repeat' first
    | with_reducible assumption
    | with_reducible apply State.placeItem_keeps
    | with_reducible apply State.mergeRec_keeps
    | with_reducible refine keeps_pair (by with_reducible assumption) (State.mergeRec_keeps _ ?_)
    | with_reducible apply State.setWp_keeps
    | with_reducible refine keeps_ite (fun _ => ?_) (fun _ => ?_)
    | (simp only [↓keeps_mk]; with_reducible refine keeps_fold ?_)
    | split

theorem State.runWp_keeps {s0 : State} (n i : Nat) : ∀ {s : State}, Keeps s0 s → Keeps s0 (State.runWp n i s) := by
  induction n with
  | zero => exact fun h => h
  | succ n ih =>
    intro s h
    unfold State.runWp
    split
    rename_i e
    have h1 := keeps_pair e (State.placeHead_keeps i h)
    exact keeps_ite (fun _ => ih h1) (fun _ => h1)

theorem State.runWritePoints_keeps {s0 s : State}  (h : Keeps s0 s) :
    Keeps s0 (State.runWritePoints s) := by
  unfold State.runWritePoints
  try dsimp only
  repeat' first
    | with_reducible assumption
    | with_reducible apply State.runWp_keeps
    | with_reducible refine keeps_ite (fun _ => ?_) (fun _ => ?_)
    | (with_reducible refine keeps_foldl (fun _ _ _ => ?_) ?_)
    | split

theorem State.padBand_keeps {s0 : State} (n ix wl : Nat) : ∀ {s : State}, Keeps s0 s → Keeps s0 (State.padBand n ix wl s) := by
  induction n with
  | zero => exact fun h => h
  | succ n ih =>
    intro s h
    unfold State.padBand
    split
    · exact h
    · split
      · exact h
      · exact ih (State.placeItem_keeps _ _ _ h)

theorem State.padOpen_keeps {s0 s : State} (a1 : Nat) (h : Keeps s0 s) :
    Keeps s0 (State.padOpen s a1) := by
  unfold State.padOpen
  try dsimp only
  repeat' first
    | with_reducible assumption
    | with_reducible apply State.updBand_keeps
    | with_reducible apply State.padBand_keeps
    | with_reducible refine keeps_ite (fun _ => ?_) (fun _ => ?_)
    | (with_reducible refine keeps_foldl (fun _ _ _ => ?_) ?_)
    | split

theorem State.padWp_keeps {s0 s : State} (a1 : Nat) (h : Keeps s0 s) :
    Keeps s0 (State.padWp s a1) := by
  unfold State.padWp
  try dsimp only
  repeat' first
    | with_reducible assumption
    | with_reducible apply State.padOpen_keeps
    | (with_reducible refine keeps_foldl (fun _ _ _ => ?_) ?_)

theorem State.closeBand_keeps {s0 s : State} (a1 : Nat) (h : Keeps s0 s) :
    Keeps s0 (State.closeBand s a1) := by
  unfold State.closeBand
  try dsimp only
  repeat' first
    | with_reducible assumption
    | with_reducible apply State.updBand_keeps
    | with_reducible apply State.setWp_keeps
    | with_reducible refine keeps_ite (fun _ => ?_) (fun _ => ?_)
    | (simp only [↓keeps_mk]; with_reducible refine keeps_fold ?_)
    | split

theorem State.moveDone_keeps {s0 s : State} (a1 : Nat) (h : Keeps s0 s) :
    Keeps s0 (State.moveDone s a1) := by
  unfold State.moveDone
  try dsimp only
  repeat' first
    | with_reducible assumption
    | with_reducible apply State.post_keeps
    | with_reducible apply State.updBand_keeps
    | with_reducible refine keeps_ite (fun _ => ?_) (fun _ => ?_)
    | (simp only [↓keeps_mk]; with_reducible refine keeps_fold ?_)
    | split

theorem State.landPage_keeps {s0 s : State} (a1 : Nat) (a2 : Item) (h : Keeps s0 s) :
    Keeps s0 (State.landPage s a1 a2) := by
  unfold State.landPage
  try dsimp only
  repeat' first
    | with_reducible assumption
    | with_reducible apply State.bumpValid_keeps
    | with_reducible apply State.setMapPage_keeps
    | with_reducible refine keeps_ite (fun _ => ?_) (fun _ => ?_)
    | (simp only [↓keeps_mk]; with_reducible refine keeps_fold ?_)
    | split

theorem State.ckLanded_keeps {s0 s : State} (a1 : Item) (h : Keeps s0 s) :
    Keeps s0 (State.ckLanded s a1) := by
  unfold State.ckLanded
  try dsimp only
  repeat' first
    | with_reducible assumption
    | with_reducible apply State.folio_keeps
    | with_reducible refine keeps_ite (fun _ => ?_) (fun _ => ?_)
    | (simp only [↓keeps_mk]; with_reducible refine keeps_fold ?_)
    | split

theorem State.landItem_keeps {s0 s : State} (a1 : Nat) (a2 : Item) (h : Keeps s0 s) :
    Keeps s0 (State.landItem s a1 a2) := by
  unfold State.landItem
  try dsimp only
  repeat' first
    | with_reducible assumption
    | with_reducible apply State.ckLanded_keeps
    | with_reducible apply State.markDry_keeps
    | with_reducible apply State.landPage_keeps
    | with_reducible apply State.updRec_keeps
    | with_reducible apply State.releaseAll_keeps
    | with_reducible apply State.moveDone_keeps
    | with_reducible apply State.bumpValid_keeps
    | with_reducible apply State.landRec_keeps
    | with_reducible apply State.mapUpdate_keeps
    | (simp only [↓keeps_mk]; with_reducible refine keeps_fold ?_)
    | split

theorem State.closeWl_keeps {s0 s : State} (a1 : Wordline) (h : Keeps s0 s) :
    Keeps s0 (State.closeWl s a1) := by
  unfold State.closeWl
  try dsimp only
  repeat' first
    | with_reducible assumption
    | with_reducible apply State.landItem_keeps
    | with_reducible apply State.closeBand_keeps
    | with_reducible refine keeps_ite (fun _ => ?_) (fun _ => ?_)
    | (simp only [↓keeps_mk]; with_reducible refine keeps_fold ?_)
    | (with_reducible refine keeps_foldl (fun _ _ _ => ?_) ?_)
    | split

theorem State.closeWls_keeps {s0 s : State} (a1 : Nat) (h : Keeps s0 s) :
    Keeps s0 (State.closeWls s a1) := by
  unfold State.closeWls
  try dsimp only
  repeat' first
    | with_reducible assumption
    | with_reducible apply State.closeWl_keeps
    | with_reducible refine keeps_ite (fun _ => ?_) (fun _ => ?_)
    | (with_reducible refine keeps_foldl (fun _ _ _ => ?_) ?_)
    | split

theorem State.recordWl_keeps {s0 s : State} (a1 : Wordline) (h : Keeps s0 s) :
    Keeps s0 (State.recordWl s a1) := by
  unfold State.recordWl
  try dsimp only
  repeat' first
    | with_reducible assumption
    | (simp only [↓keeps_mk]; with_reducible refine keeps_fold ?_)

theorem State.checkExposed_keeps {s0 s : State} (a1 : Nat) (h : Keeps s0 s) :
    Keeps s0 (State.checkExposed s a1) := by
  unfold State.checkExposed
  try dsimp only
  repeat' first
    | with_reducible assumption
    | with_reducible apply State.post_keeps
    | with_reducible apply State.updBand_keeps
    | with_reducible refine keeps_ite (fun _ => ?_) (fun _ => ?_)
    | split

theorem State.loseMember_keeps {s0 s : State} (a1 : Nat) (a2 : Nat) (a3 : optParam (Option Nat) none) (h : Keeps s0 s) :
    Keeps s0 (State.loseMember s a1 a2 a3) := by
  unfold State.loseMember
  try dsimp only
  repeat' first
    | with_reducible assumption
    | with_reducible apply State.feed_keeps
    | with_reducible apply State.closeBand_keeps
    | with_reducible apply State.updBand_keeps
    | with_reducible apply State.closeWls_keeps
    | with_reducible apply State.padBand_keeps
    | with_reducible apply State.checkExposed_keeps
    | with_reducible refine keeps_ite (fun _ => ?_) (fun _ => ?_)
    | (simp only [↓keeps_mk]; with_reducible refine keeps_fold ?_)
    | (with_reducible refine keeps_foldl (fun _ _ _ => ?_) ?_)
    | split

theorem State.tlcResult_keeps {s0 s : State} (a1 : Nat) (a2 : Nat) (a3 : Bool) (a4 : Stroke) (h : Keeps s0 s) :
    Keeps s0 (State.tlcResult s a1 a2 a3 a4) := by
  unfold State.tlcResult
  try dsimp only
  repeat' first
    | with_reducible assumption
    | with_reducible apply State.programmed_keeps
    | with_reducible apply State.newStroke_keeps
    | with_reducible apply State.closeWls_keeps
    | with_reducible apply State.loseMember_keeps
    | with_reducible apply State.recordWl_keeps
    | with_reducible refine keeps_ite (fun _ => ?_) (fun _ => ?_)
    | (simp only [↓keeps_mk]; with_reducible refine keeps_fold ?_)
    | split

/-! ## MediaOps -/

theorem State.dropFromBands_keeps {s0 s : State} (a1 : Nat) (h : Keeps s0 s) :
    Keeps s0 (State.dropFromBands s a1) := by
  unfold State.dropFromBands
  try dsimp only
  repeat' first
    | with_reducible assumption
    | with_reducible apply State.loseMember_keeps
    | (with_reducible refine keeps_foldl (fun _ _ _ => ?_) ?_)

theorem State.dissolve_keeps {s0 s : State} (a1 : Nat) (h : Keeps s0 s) :
    Keeps s0 (State.dissolve s a1) := by
  unfold State.dissolve
  try dsimp only
  repeat' first
    | with_reducible assumption
    | with_reducible refine keeps_ite (fun _ => ?_) (fun _ => ?_)
    | (simp only [↓keeps_mk]; with_reducible refine keeps_fold ?_)
    | split

theorem State.shrinkGroups_keeps {s0 s : State} (a1 : Nat) (h : Keeps s0 s) :
    Keeps s0 (State.shrinkGroups s a1) := by
  unfold State.shrinkGroups
  try dsimp only
  repeat' first
    | with_reducible assumption
    | with_reducible apply State.dissolve_keeps
    | with_reducible refine keeps_ite (fun _ => ?_) (fun _ => ?_)
    | (simp only [↓keeps_mk]; with_reducible refine keeps_fold ?_)
    | split

theorem State.retireLun_keeps {s0 s : State} (a1 : Nat) (h : Keeps s0 s) :
    Keeps s0 (State.retireLun s a1) := by
  unfold State.retireLun
  try dsimp only
  repeat' first
    | with_reducible assumption
    | with_reducible apply State.post_keeps
    | with_reducible apply State.shrinkGroups_keeps
    | with_reducible apply State.enterSafe_keeps
    | with_reducible apply State.settle_keeps
    | with_reducible apply State.dropFromBands_keeps
    | with_reducible refine keeps_ite (fun _ => ?_) (fun _ => ?_)
    | (simp only [↓keeps_mk]; with_reducible refine keeps_fold ?_)
    | split

theorem State.retireBlock_keeps {s0 s : State} (a1 : Nat) (a2 : Nat) (h : Keeps s0 s) :
    Keeps s0 (State.retireBlock s a1 a2) := by
  unfold State.retireBlock
  try dsimp only
  repeat' first
    | with_reducible assumption
    | with_reducible apply State.post_keeps
    | with_reducible apply State.retireLun_keeps
    | with_reducible refine keeps_ite (fun _ => ?_) (fun _ => ?_)
    | (simp only [↓keeps_mk]; with_reducible refine keeps_fold ?_)
    | split

theorem State.retireChannel_keeps {s0 s : State} (a1 : Nat) (h : Keeps s0 s) :
    Keeps s0 (State.retireChannel s a1) := by
  unfold State.retireChannel
  try dsimp only
  repeat' first
    | with_reducible assumption
    | with_reducible apply State.post_keeps
    | with_reducible apply State.retireLun_keeps
    | with_reducible apply State.enterSafe_keeps
    | with_reducible apply State.settle_keeps
    | with_reducible refine keeps_ite (fun _ => ?_) (fun _ => ?_)
    | (with_reducible refine keeps_foldl (fun _ _ _ => ?_) ?_)
    | split

theorem State.countRebuild_keeps {s0 s : State} (a1 : Nat) (a2 : Nat) (h : Keeps s0 s) :
    Keeps s0 (State.countRebuild s a1 a2) := by
  unfold State.countRebuild
  try dsimp only
  repeat' first
    | with_reducible assumption
    | with_reducible refine keeps_ite (fun _ => ?_) (fun _ => ?_)
    | (simp only [↓keeps_mk]; with_reducible refine keeps_fold ?_)
    | split

theorem State.turnFindings_keeps {s0 s : State} (a1 : Nat) (a2 : Nat) (h : Keeps s0 s) :
    Keeps s0 (State.turnFindings s a1 a2).1 := by
  unfold State.turnFindings
  try dsimp only
  repeat' first
    | with_reducible assumption
    | with_reducible refine keeps_ite (fun _ => ?_) (fun _ => ?_)
    | (simp only [↓keeps_mk]; with_reducible refine keeps_fold ?_)
    | split

theorem State.cacheCounts_keeps {s0 s : State} (a1 : Band) (a2 : List Nat) (h : Keeps s0 s) :
    Keeps s0 (State.cacheCounts s a1 a2) := by
  unfold State.cacheCounts
  try dsimp only
  repeat' first
    | with_reducible assumption
    | (simp only [↓keeps_mk]; with_reducible refine keeps_fold ?_)

theorem State.startErase_keeps {s0 s : State} (a1 : Nat) (h : Keeps s0 s) :
    Keeps s0 (State.startErase s a1) := by
  unfold State.startErase
  try dsimp only
  repeat' first
    | with_reducible assumption
    | with_reducible apply State.cacheCounts_keeps
    | with_reducible apply State.updBand_keeps
    | with_reducible apply State.newStroke_keeps
    | with_reducible refine keeps_ite (fun _ => ?_) (fun _ => ?_)
    | (with_reducible refine keeps_foldl (fun _ _ _ => ?_) ?_)
    | split

theorem State.blockErased_keeps {s0 s : State} (a1 : Nat) (a2 : Nat) (a3 : Nat) (h : Keeps s0 s) :
    Keeps s0 (State.blockErased s a1 a2 a3) := by
  unfold State.blockErased
  try dsimp only
  repeat' first
    | with_reducible assumption
    | (simp only [↓keeps_mk]; with_reducible refine keeps_fold ?_)

theorem State.bandErased_keeps {s0 s : State} (a1 : Nat) (h : Keeps s0 s) :
    Keeps s0 (State.bandErased s a1) := by
  unfold State.bandErased
  try dsimp only
  repeat' first
    | with_reducible assumption
    | with_reducible apply State.dissolve_keeps
    | with_reducible apply State.updBand_keeps
    | with_reducible apply State.releaseUnits_keeps
    | with_reducible apply State.refreshLevel_keeps
    | split

theorem State.eraseResult_keeps {s0 s : State} (a1 : Nat) (a2 : Nat) (a3 : Nat) (a4 : Nat) (h : Keeps s0 s) :
    Keeps s0 (State.eraseResult s a1 a2 a3 a4) := by
  unfold State.eraseResult
  try dsimp only
  repeat' first
    | with_reducible assumption
    | with_reducible apply State.retireBlock_keeps
    | with_reducible apply State.bandErased_keeps
    | with_reducible apply State.turnFindings_keeps
    | with_reducible refine keeps_pair (by with_reducible assumption) (State.turnFindings_keeps _ _ ?_)
    | with_reducible apply State.blockErased_keeps
    | with_reducible apply State.updBand_keeps
    | with_reducible apply State.newStroke_keeps
    | with_reducible refine keeps_ite (fun _ => ?_) (fun _ => ?_)
    | (simp only [↓keeps_mk]; with_reducible refine keeps_fold ?_)
    | split

/-! ## Tickets -/

theorem State.ticketStep_keeps {s0 s : State} (a1 : Ticket) (h : Keeps s0 s) :
    Keeps s0 (State.ticketStep s a1) := by
  unfold State.ticketStep
  try dsimp only
  repeat' first
    | with_reducible assumption
    | with_reducible apply State.post_keeps
    | with_reducible apply State.updSet_keeps
    | with_reducible apply State.padWp_keeps
    | with_reducible apply State.startErase_keeps
    | with_reducible apply State.startMoves_keeps
    | with_reducible refine keeps_ite (fun _ => ?_) (fun _ => ?_)
    | (simp only [↓keeps_mk]; with_reducible refine keeps_fold ?_)
    | (with_reducible refine keeps_foldl (fun _ _ _ => ?_) ?_)
    | split

theorem State.ticketPump_keeps {s0 s : State}  (h : Keeps s0 s) :
    Keeps s0 (State.ticketPump s) := by
  unfold State.ticketPump
  try dsimp only
  repeat' first
    | with_reducible assumption
    | with_reducible apply State.ticketStep_keeps
    | with_reducible refine keeps_ite (fun _ => ?_) (fun _ => ?_)
    | (with_reducible refine keeps_foldl (fun _ _ _ => ?_) ?_)
    | split

theorem State.ticketInk_keeps {s0 s : State}  (h : Keeps s0 s) :
    Keeps s0 (State.ticketInk s) := by
  unfold State.ticketInk
  try dsimp only
  repeat' first
    | with_reducible assumption
    | with_reducible refine keeps_ite (fun _ => ?_) (fun _ => ?_)
    | (simp only [↓keeps_mk]; with_reducible refine keeps_fold ?_)
    | split

/-! ## CkptOps -/

theorem State.startCheckpoint_keeps {s0 s : State}  (h : Keeps s0 s) :
    Keeps s0 (State.startCheckpoint s) := by
  unfold State.startCheckpoint
  try dsimp only
  repeat' first
    | with_reducible assumption
    | with_reducible apply State.feed_keeps
    | with_reducible apply State.runWritePoints_keeps
    | (simp only [↓keeps_mk]; with_reducible refine keeps_fold ?_)
    | (with_reducible refine keeps_foldl (fun _ _ _ => ?_) ?_)

theorem State.shutStep_keeps {s0 s : State}  (h : Keeps s0 s) :
    Keeps s0 (State.shutStep s) := by
  unfold State.shutStep
  try dsimp only
  repeat' first
    | with_reducible assumption
    | with_reducible apply State.shutSafe_keeps
    | with_reducible apply State.startCheckpoint_keeps
    | with_reducible apply State.shutDone_keeps
    | with_reducible refine keeps_ite (fun _ => ?_) (fun _ => ?_)
    | (simp only [↓keeps_mk]; with_reducible refine keeps_fold ?_)
    | (with_reducible refine keeps_foldl (fun _ _ _ => ?_) ?_)
    | split

theorem State.ckComplete_keeps {s0 s : State}  (h : Keeps s0 s) :
    Keeps s0 (State.ckComplete s) := by
  unfold State.ckComplete
  try dsimp only
  repeat' first
    | with_reducible assumption
    | with_reducible apply State.shutRecord_keeps
    | with_reducible apply State.startCheckpoint_keeps
    | with_reducible apply State.bumpValid_keeps
    | with_reducible apply State.shutDone_keeps
    | with_reducible apply State.releaseUnits_keeps
    | with_reducible refine keeps_ite (fun _ => ?_) (fun _ => ?_)
    | (simp only [↓keeps_mk]; with_reducible refine keeps_fold ?_)
    | (with_reducible refine keeps_foldl (fun _ _ _ => ?_) ?_)
    | split

/-! ## IoOps -/

theorem State.allocAway_keeps {s0 s : State} (o last n : Nat) (banks : List Nat) (h : Keeps s0 s) :
    ∀ t, State.allocAway s o last n banks = some t → Keeps s0 t.1 := by
  unfold State.allocAway
  dsimp only
  intro t e
  split at e
  · cases e
  · cases e
    exact h

theorem State.giveTwin_keeps {s0 s : State} (c : Cmd) (g : Segment) (a3 a4 a5 : Nat) (h : Keeps s0 s) :
    Keeps s0 (State.giveTwin s c g a3 a4 a5) := by
  unfold State.giveTwin
  dsimp only
  split
  · rename_i e
    split at e
    · exact State.updCmd_keeps _ _ (keeps_foldl (fun _ _ hs => State.updRec_keeps _ _ hs) (State.allocAway_keeps _ _ _ _ h _ e))
    · cases e
  · exact State.waitCells_keeps _ _ _ _ (State.updCmd_keeps _ _ h)

theorem State.giveWriteSeg_keeps {s0 s : State} (c : Cmd) (g : Segment) (bs : Nat) (h : Keeps s0 s) :
    Keeps s0 (State.giveWriteSeg s c g bs) := by
  unfold State.giveWriteSeg
  dsimp only
  split
  · refine State.readHost_keeps _ _ _ _ ?_
    repeat' first
      | with_reducible assumption
      | with_reducible apply State.giveTwin_keeps
      | with_reducible apply State.updCmd_keeps
      | with_reducible apply State.updRec_keeps
      | with_reducible apply State.alloc_keeps
      | (with_reducible refine keeps_foldl (fun _ _ _ => ?_) ?_)
      | with_reducible refine keeps_ite (fun _ => ?_) (fun _ => ?_)
  · repeat' first
      | with_reducible assumption
      | with_reducible apply State.giveTwin_keeps
      | with_reducible apply State.updCmd_keeps
      | with_reducible apply State.updRec_keeps
      | with_reducible apply State.alloc_keeps
      | (with_reducible refine keeps_foldl (fun _ _ _ => ?_) ?_)
      | with_reducible refine keeps_ite (fun _ => ?_) (fun _ => ?_)

theorem State.askSegs_keeps {s0 : State} (n : Nat) (ref : Ref) : ∀ {s : State}, Keeps s0 s → Keeps s0 (State.askSegs n ref s) := by
  induction n with
  | zero => exact fun h => h
  | succ n ih =>
    intro s h
    unfold State.askSegs
    dsimp only
    repeat' first
      | with_reducible assumption
      | with_reducible apply ih
      | with_reducible apply State.giveWriteSeg_keeps
      | with_reducible apply State.updCmd_keeps
      | with_reducible apply State.waitCells_keeps
      | with_reducible refine keeps_ite (fun _ => ?_) (fun _ => ?_)
      | split

theorem State.startIu_keeps {s0 s : State} (a1 : Cmd) (a2 : RdIu) (a3 : Option Nat) (h : Keeps s0 s) :
    Keeps s0 (State.startIu s a1 a2 a3) := by
  unfold State.startIu
  try dsimp only
  repeat' first
    | with_reducible assumption
    | with_reducible apply State.updCmd_keeps
    | with_reducible apply State.startFetch_keeps
    | with_reducible refine keeps_ite (fun _ => ?_) (fun _ => ?_)
    | (with_reducible refine keeps_foldl (fun _ _ _ => ?_) ?_)
    | split

theorem State.askReads_keeps {s0 : State} (n : Nat) (ref : Ref) : ∀ {s : State}, Keeps s0 s → Keeps s0 (State.askReads n ref s) := by
  induction n with
  | zero => exact fun h => h
  | succ n ih =>
    intro s h
    unfold State.askReads
    dsimp only
    repeat' first
      | with_reducible assumption
      | with_reducible apply ih
      | with_reducible apply State.startIu_keeps
      | with_reducible apply State.updCmd_keeps
      | with_reducible apply State.waitCells_keeps
      | with_reducible apply State.alloc_keeps
      | with_reducible refine keeps_ite (fun _ => ?_) (fun _ => ?_)
      | with_reducible refine keeps_foldl (fun _ _ _ => ?_) ?_
      | split

theorem State.restartRead_keeps {s0 s : State} (a1 : Ref) (h : Keeps s0 s) :
    Keeps s0 (State.restartRead s a1) := by
  unfold State.restartRead
  try dsimp only
  repeat' first
    | with_reducible assumption
    | with_reducible apply State.updCmd_keeps
    | with_reducible apply State.startIu_keeps
    | with_reducible apply State.askReads_keeps
    | with_reducible refine keeps_ite (fun _ => ?_) (fun _ => ?_)
    | (with_reducible refine keeps_foldl (fun _ _ _ => ?_) ?_)
    | split

theorem State.restartReads_keeps {s0 s : State}  (h : Keeps s0 s) :
    Keeps s0 (State.restartReads s) := by
  unfold State.restartReads
  try dsimp only
  repeat' first
    | with_reducible assumption
    | with_reducible apply State.restartRead_keeps
    | (with_reducible refine keeps_foldl (fun _ _ _ => ?_) ?_)

theorem State.feedRec_keeps {s0 s : State} (a1 : Nat) (h : Keeps s0 s) :
    Keeps s0 (State.feedRec s a1) := by
  unfold State.feedRec
  try dsimp only
  repeat' first
    | with_reducible assumption
    | with_reducible apply State.feed_keeps
    | with_reducible apply State.updRec_keeps
    | with_reducible apply State.joinGroup_keeps
    | with_reducible refine keeps_ite (fun _ => ?_) (fun _ => ?_)
    | (with_reducible refine keeps_foldl (fun _ _ _ => ?_) ?_)
    | split

theorem State.postData_keeps {s0 s : State} (a1 : Cmd) (a2 : Bool) (h : Keeps s0 s) :
    Keeps s0 (State.postData s a1 a2) := by
  unfold State.postData
  try dsimp only
  repeat' first
    | with_reducible assumption
    | with_reducible apply State.useXlat_keeps
    | with_reducible apply State.emit_keeps
    | with_reducible refine keeps_ite (fun _ => ?_) (fun _ => ?_)
    | (with_reducible refine keeps_foldl (fun _ _ _ => ?_) ?_)
    | split

theorem State.countRead_keeps {s0 s : State} (a1 : Cmd) (a2 : Status) (h : Keeps s0 s) :
    Keeps s0 (State.countRead s a1 a2) := by
  unfold State.countRead
  try dsimp only
  repeat' first
    | with_reducible assumption
    | with_reducible refine keeps_ite (fun _ => ?_) (fun _ => ?_)
    | (simp only [↓keeps_mk]; with_reducible refine keeps_fold ?_)
    | split

theorem State.finishRead_keeps {s0 s : State} (a1 : Cmd) (h : Keeps s0 s) :
    Keeps s0 (State.finishRead s a1) := by
  unfold State.finishRead
  try dsimp only
  repeat' first
    | with_reducible assumption
    | with_reducible apply State.post_keeps
    | with_reducible apply State.updCmd_keeps
    | with_reducible apply State.dropCmd_keeps
    | with_reducible apply State.postData_keeps
    | with_reducible apply State.complete_keeps
    | with_reducible apply State.feedRec_keeps
    | with_reducible apply State.readLeft_keeps
    | with_reducible apply State.failWrite_keeps
    | with_reducible apply State.owe_keeps
    | with_reducible apply State.countRead_keeps
    | with_reducible refine keeps_ite (fun _ => ?_) (fun _ => ?_)
    | (with_reducible refine keeps_foldl (fun _ _ _ => ?_) ?_)
    | split

theorem State.finishWrite_keeps {s0 s : State} (a1 : Cmd) (h : Keeps s0 s) :
    Keeps s0 (State.finishWrite s a1) := by
  unfold State.finishWrite
  try dsimp only
  repeat' first
    | with_reducible assumption
    | with_reducible apply State.complete_keeps
    | with_reducible refine keeps_ite (fun _ => ?_) (fun _ => ?_)
    | (simp only [↓keeps_mk]; with_reducible refine keeps_fold ?_)
    | split

theorem State.settleCmds_keeps {s0 s : State}  (h : Keeps s0 s) :
    Keeps s0 (State.settleCmds s) := by
  unfold State.settleCmds
  try dsimp only
  repeat' first
    | with_reducible assumption
    | with_reducible apply State.finishRead_keeps
    | with_reducible apply State.restartReads_keeps
    | with_reducible apply State.landPending_keeps
    | with_reducible apply State.finishWrite_keeps
    | with_reducible refine keeps_ite (fun _ => ?_) (fun _ => ?_)
    | (with_reducible refine keeps_foldl (fun _ _ _ => ?_) ?_)
    | split

theorem State.verifyBlock_keeps {s0 s : State} (a1 : Cmd) (a2 : Nat) (h : Keeps s0 s) :
    Keeps s0 (State.verifyBlock s a1 a2) := by
  unfold State.verifyBlock
  try dsimp only
  repeat' first
    | with_reducible assumption
    | with_reducible apply State.updCmd_keeps
    | with_reducible apply State.settleCmds_keeps
    | with_reducible apply State.updRec_keeps
    | with_reducible apply State.pumpBlotter_keeps
    | with_reducible apply State.feedRec_keeps
    | with_reducible apply State.hold_keeps
    | with_reducible refine keeps_pair (by with_reducible assumption) (State.hold_keeps _ _ _ _ ?_)
    | with_reducible apply State.runWritePoints_keeps
    | with_reducible apply State.release_keeps
    | with_reducible refine keeps_ite (fun _ => ?_) (fun _ => ?_)
    | (with_reducible refine keeps_foldl (fun _ _ _ => ?_) ?_)
    | split

/-! ## Deliver -/

theorem State.pageLost_keeps {s0 s : State} (a1 : Nat) (a2 : Nat) (h : Keeps s0 s) :
    Keeps s0 (State.pageLost s a1 a2) := by
  unfold State.pageLost
  try dsimp only
  repeat' first
    | with_reducible assumption
    | with_reducible apply State.postAs_keeps
    | with_reducible apply State.enterSafe_keeps
    | with_reducible apply State.settle_keeps
    | with_reducible apply State.setMapPage_keeps

theorem State.dropFetch_keeps {s0 s : State} (a1 : Nat) (h : Keeps s0 s) :
    Keeps s0 (State.dropFetch s a1) := by
  unfold State.dropFetch
  try dsimp only
  repeat' first
    | with_reducible assumption
    | (simp only [↓keeps_mk]; with_reducible refine keeps_fold ?_)

theorem State.evict_keeps {s0 s : State}  (h : Keeps s0 s) :
    Keeps s0 (State.evict s) := by
  unfold State.evict
  try dsimp only
  repeat' first
    | with_reducible assumption
    | with_reducible apply State.feed_keeps
    | with_reducible apply State.setMapPage_keeps
    | with_reducible refine keeps_ite (fun _ => ?_) (fun _ => ?_)
    | (with_reducible refine keeps_foldl (fun _ _ _ => ?_) ?_)
    | split

theorem State.pageArrived_keeps {s0 s : State} (a1 : Nat) (a2 : Nat) (h : Keeps s0 s) :
    Keeps s0 (State.pageArrived s a1 a2) := by
  unfold State.pageArrived
  try dsimp only
  repeat' first
    | with_reducible assumption
    | with_reducible apply State.post_keeps
    | with_reducible apply State.updCmd_keeps
    | with_reducible apply State.startIu_keeps
    | with_reducible apply State.evict_keeps
    | with_reducible apply State.setMapPage_keeps
    | with_reducible refine keeps_ite (fun _ => ?_) (fun _ => ?_)
    | (with_reducible refine keeps_foldl (fun _ _ _ => ?_) ?_)
    | split

theorem State.pageBad_keeps {s0 s : State} (a1 : Nat) (a2 : Nat) (a3 : optParam Fld F.MAP_EVT_STATUS_CRC_ERR) (h : Keeps s0 s) :
    Keeps s0 (State.pageBad s a1 a2 a3) := by
  unfold State.pageBad
  try dsimp only
  repeat' first
    | with_reducible assumption
    | with_reducible apply State.post_keeps
    | with_reducible apply State.startFetch_keeps
    | with_reducible apply State.pageArrived_keeps
    | with_reducible apply State.setMapPage_keeps
    | split

theorem State.linkCells_keeps {s0 s : State} (a1 : Ref) (a2 : Nat) (a3 : Nat) (a4 : List Part) (h : Keeps s0 s) :
    Keeps s0 (State.linkCells s a1 a2 a3 a4) := by
  unfold State.linkCells
  try dsimp only
  repeat' first
    | with_reducible assumption
    | with_reducible apply State.poisonCells_keeps
    | with_reducible apply State.metaCell_keeps
    | with_reducible refine keeps_ite (fun _ => ?_) (fun _ => ?_)
    | (with_reducible refine keeps_foldl (fun _ _ _ => ?_) ?_)
    | split

theorem State.giveUser_keeps {s0 s : State} (a0 : Fetch) (a1 : Bool) (a3 : User) (h : Keeps s0 s) :
    Keeps s0 (State.giveUser a0 a1 s a3) := by
  unfold State.giveUser
  try dsimp only
  repeat' first
    | with_reducible assumption
    | with_reducible apply State.updCmd_keeps
    | with_reducible apply State.feed_keeps
    | with_reducible apply State.pageBad_keeps
    | with_reducible apply State.linkCells_keeps
    | with_reducible apply State.updRec_keeps
    | with_reducible apply State.updFetch_keeps
    | with_reducible apply State.pageLost_keeps
    | with_reducible apply State.pageArrived_keeps
    | with_reducible refine keeps_ite (fun _ => ?_) (fun _ => ?_)
    | (simp only [↓keeps_mk]; with_reducible refine keeps_fold ?_)
    | split

theorem State.giveAll_keeps {s0 s : State} (a1 : Fetch) (a2 : Bool) (h : Keeps s0 s) :
    Keeps s0 (State.giveAll s a1 a2) := by
  unfold State.giveAll
  try dsimp only
  repeat' first
    | with_reducible assumption
    | with_reducible apply State.giveUser_keeps
    | with_reducible apply State.settleCmds_keeps
    | with_reducible apply State.dropFetch_keeps
    | with_reducible apply State.runWritePoints_keeps
    | (with_reducible refine keeps_foldl (fun _ _ _ => ?_) ?_)

theorem State.fetchOk_keeps {s0 s : State} (a1 : Fetch) (a2 : Nat) (a3 : Nat) (h : Keeps s0 s) :
    Keeps s0 (State.fetchOk s a1 a2 a3) := by
  unfold State.fetchOk
  try dsimp only
  repeat' first
    | with_reducible assumption
    | with_reducible apply State.post_keeps
    | with_reducible apply State.finding_keeps
    | with_reducible apply State.updBand_keeps
    | with_reducible apply State.giveAll_keeps
    | with_reducible refine keeps_ite (fun _ => ?_) (fun _ => ?_)
    | (simp only [↓keeps_mk]; with_reducible refine keeps_fold ?_)
    | split

theorem State.ladderFail_keeps {s0 s : State} (a1 : Fetch) (h : Keeps s0 s) :
    Keeps s0 (State.ladderFail s a1) := by
  unfold State.ladderFail
  try dsimp only
  repeat' first
    | with_reducible assumption
    | with_reducible apply State.updFetch_keeps
    | with_reducible apply State.giveAll_keeps
    | with_reducible apply State.startRebuild_keeps
    | with_reducible refine keeps_ite (fun _ => ?_) (fun _ => ?_)
    | split

theorem State.fetchResult_keeps {s0 s : State} (a1 : Nat) (a2 : Nat) (a3 : Nat) (a4 : Nat) (a5 : Bool) (a6 : Nat) (h : Keeps s0 s) :
    Keeps s0 (State.fetchResult s a1 a2 a3 a4 a5 a6) := by
  unfold State.fetchResult
  try dsimp only
  repeat' first
    | with_reducible assumption
    | with_reducible apply State.post_keeps
    | with_reducible apply State.fetchOk_keeps
    | with_reducible apply State.disturbCheck_keeps
    | with_reducible apply State.attemptStroke_keeps
    | with_reducible apply State.updFetch_keeps
    | with_reducible apply State.countSense_keeps
    | with_reducible apply State.dropFetch_keeps
    | with_reducible apply State.ladderFail_keeps
    | with_reducible apply State.startRebuild_keeps
    | with_reducible refine keeps_ite (fun _ => ?_) (fun _ => ?_)
    | split

theorem State.writeLost_keeps {s0 s : State} (a1 : MediaIu) (a2 : MapEntry) (a3 : Bool) (h : Keeps s0 s) :
    Keeps s0 (State.writeLost s a1 a2 a3) := by
  unfold State.writeLost
  try dsimp only
  repeat' first
    | with_reducible assumption
    | with_reducible apply State.feed_keeps
    | with_reducible refine keeps_ite (fun _ => ?_) (fun _ => ?_)
    | split

theorem State.unitLost_keeps {s0 s : State} (a1 : Fetch) (h : Keeps s0 s) :
    Keeps s0 (State.unitLost s a1) := by
  unfold State.unitLost
  try dsimp only
  repeat' first
    | with_reducible assumption
    | with_reducible apply State.post_keeps
    | with_reducible apply State.pageBad_keeps
    | with_reducible apply State.writeLost_keeps
    | with_reducible apply State.updBand_keeps
    | with_reducible apply State.giveAll_keeps
    | with_reducible apply State.checkExposed_keeps
    | with_reducible apply State.setMapPage_keeps
    | with_reducible refine keeps_ite (fun _ => ?_) (fun _ => ?_)
    | (with_reducible refine keeps_foldl (fun _ _ _ => ?_) ?_)
    | split

theorem State.writeRebuilt_keeps {s0 s : State} (a1 : MediaIu) (a2 : MapEntry) (h : Keeps s0 s) :
    Keeps s0 (State.writeRebuilt s a1 a2) := by
  unfold State.writeRebuilt
  try dsimp only
  repeat' first
    | with_reducible assumption
    | with_reducible apply State.feed_keeps
    | with_reducible refine keeps_ite (fun _ => ?_) (fun _ => ?_)
    | split

theorem execUnitRebuildDone_keeps {s0 s : State} (a0 : Nat) (a1 : Bool) (h : Keeps s0 s) :
    KeepsR s0 (execUnitRebuildDone a0 a1 s) := by
  unfold execUnitRebuildDone
  try dsimp only
  repeat' first
    | with_reducible assumption
    | with_reducible refine keepsR_next ?_
    | with_reducible apply State.post_keeps
    | with_reducible apply State.finding_keeps
    | with_reducible apply State.writeRebuilt_keeps
    | with_reducible apply State.countRebuild_keeps
    | with_reducible apply State.unitLost_keeps
    | with_reducible apply State.updFetch_keeps
    | with_reducible apply State.giveAll_keeps
    | with_reducible refine keeps_ite (fun _ => ?_) (fun _ => ?_)
    | with_reducible refine keepsR_ite (fun _ => ?_) (fun _ => ?_)
    | (simp only [↓keeps_mk]; with_reducible refine keeps_fold ?_)
    | split

/-! ## InkBanks -/

theorem State.rehead_keeps {s0 s : State} (a1 : Nat) (a2 : Nat) (h : Keeps s0 s) :
    Keeps s0 (State.rehead s a1 a2) := by
  unfold State.rehead
  try dsimp only
  repeat' first
    | with_reducible assumption
    | with_reducible refine keeps_ite (fun _ => ?_) (fun _ => ?_)
    | (simp only [↓keeps_mk]; with_reducible refine keeps_fold ?_)
    | split

theorem State.moveChain_keeps {s0 s : State} (a1 : Nat) (a2 : Chain) (h : Keeps s0 s) :
    Keeps s0 (State.moveChain s a1 a2) := by
  unfold State.moveChain
  try dsimp only
  repeat' first
    | with_reducible assumption
    | with_reducible apply State.rehead_keeps
    | with_reducible refine keeps_ite (fun _ => ?_) (fun _ => ?_)
    | (simp only [↓keeps_mk]; with_reducible refine keeps_fold ?_)
    | split

theorem State.moveOff_keeps {s0 s : State} (a1 : Nat) (h : Keeps s0 s) :
    Keeps s0 (State.moveOff s a1) := by
  unfold State.moveOff
  try dsimp only
  repeat' first
    | with_reducible assumption
    | with_reducible apply State.moveChain_keeps
    | (with_reducible refine keeps_foldl (fun _ _ _ => ?_) ?_)

theorem State.refold_keeps {s0 s : State}  (h : Keeps s0 s) :
    Keeps s0 (State.refold s) := by
  unfold State.refold
  try dsimp only
  repeat' first
    | with_reducible assumption
    | with_reducible apply State.post_keeps
    | with_reducible apply State.startFetch_keeps
    | (simp only [↓keeps_mk]; with_reducible refine keeps_fold ?_)
    | (with_reducible refine keeps_foldl (fun _ _ _ => ?_) ?_)
    | split

theorem State.useTwins_keeps {s0 s : State} (a1 : Nat) (h : Keeps s0 s) :
    Keeps s0 (State.useTwins s a1) := by
  unfold State.useTwins
  try dsimp only
  repeat' first
    | with_reducible assumption
    | (simp only [↓keeps_mk]; with_reducible refine keeps_fold ?_)

theorem State.cellLost_keeps {s0 s : State} (a1 : Nat) (h : Keeps s0 s) :
    Keeps s0 (State.cellLost s a1) := by
  unfold State.cellLost
  try dsimp only
  repeat' first
    | with_reducible assumption
    | with_reducible apply State.updCmd_keeps
    | with_reducible apply State.useTwins_keeps
    | with_reducible apply State.startIu_keeps
    | with_reducible apply State.updRec_keeps
    | with_reducible apply State.readHost_keeps
    | with_reducible refine keeps_ite (fun _ => ?_) (fun _ => ?_)
    | (with_reducible refine keeps_foldl (fun _ _ _ => ?_) ?_)
    | split

theorem State.maskBank_keeps {s0 s : State} (a1 : Nat) (h : Keeps s0 s) :
    Keeps s0 (State.maskBank s a1) := by
  unfold State.maskBank
  try dsimp only
  repeat' first
    | with_reducible assumption
    | with_reducible apply State.post_keeps
    | with_reducible apply State.cellLost_keeps
    | with_reducible apply State.moveOff_keeps
    | with_reducible apply State.setFld_keeps
    | with_reducible apply State.enterSafe_keeps
    | with_reducible apply State.settle_keeps
    | with_reducible apply State.refold_keeps
    | with_reducible refine keeps_ite (fun _ => ?_) (fun _ => ?_)
    | (simp only [↓keeps_mk]; with_reducible refine keeps_fold ?_)
    | (with_reducible refine keeps_foldl (fun _ _ _ => ?_) ?_)
    | split

theorem State.cellUe_keeps {s0 s : State} (a1 : Nat) (h : Keeps s0 s) :
    Keeps s0 (State.cellUe s a1) := by
  unfold State.cellUe
  try dsimp only
  repeat' first
    | with_reducible assumption
    | with_reducible apply State.post_keeps
    | with_reducible apply State.cellLost_keeps
    | with_reducible apply State.maskBank_keeps
    | with_reducible refine keeps_ite (fun _ => ?_) (fun _ => ?_)
    | (simp only [↓keeps_mk]; with_reducible refine keeps_fold ?_)
    | split

theorem State.cellErr_keeps {s0 s : State} (a1 : CellErr) (h : Keeps s0 s) :
    Keeps s0 (State.cellErr s a1) := by
  unfold State.cellErr
  try dsimp only
  repeat' first
    | with_reducible assumption
    | with_reducible apply State.post_keeps
    | with_reducible apply State.cellUe_keeps
    | with_reducible apply State.maskBank_keeps
    | split

end Sys2Proof.Machine
end

