-- ==== Sys2Proof/Laws/KeepsNib.lean ====
section
/-! SUPPORT. What the operations of the Nibs, the Quills, cuts, Tines and the Ruling keep: one lemma each. -/

namespace Sys2Proof.Machine

/-! ## NibOps -/

theorem State.updRun_keeps {s0 s : State} (a1 : Nat) (a2 : Nat) (a3 : Run → Run) (h : Keeps s0 s) :
    Keeps s0 (State.updRun s a1 a2 a3) := by
  unfold State.updRun
  try dsimp only
  repeat' first
    | with_reducible assumption
    | (simp only [↓keeps_mk]; with_reducible refine keeps_fold ?_)

theorem State.updLun_keeps {s0 s : State} (a1 : Nat) (a2 : Lun → Lun) (h : Keeps s0 s) :
    Keeps s0 (State.updLun s a1 a2) := by
  unfold State.updLun
  try dsimp only
  repeat' first
    | with_reducible assumption
    | (simp only [↓keeps_mk]; with_reducible refine keeps_fold ?_)

theorem State.updStroke_keeps {s0 s : State} (a1 : Nat) (a2 : Stroke → Stroke) (h : Keeps s0 s) :
    Keeps s0 (State.updStroke s a1 a2) := by
  unfold State.updStroke
  try dsimp only
  repeat' first
    | with_reducible assumption
    | (simp only [↓keeps_mk]; with_reducible refine keeps_fold ?_)

theorem State.dryAtNib_keeps {s0 s : State} (a1 : Nat) (h : Keeps s0 s) :
    Keeps s0 (State.dryAtNib s a1) := by
  unfold State.dryAtNib
  try dsimp only
  repeat' first
    | with_reducible assumption
    | with_reducible apply State.dryUnit_keeps
    | (with_reducible refine keeps_foldl (fun _ _ _ => ?_) ?_)
    | split

theorem State.endRun_keeps {s0 s : State} (a1 : Run) (a2 : Nat) (a3 : Nat) (h : Keeps s0 s) :
    Keeps s0 (State.endRun s a1 a2 a3) := by
  unfold State.endRun
  try dsimp only
  repeat' first
    | with_reducible assumption
    | with_reducible apply State.dryAtNib_keeps
    | with_reducible refine keeps_ite (fun _ => ?_) (fun _ => ?_)
    | (simp only [↓keeps_mk]; with_reducible refine keeps_fold ?_)
    | split

theorem State.endRuns_keeps {s0 s : State} (a1 : Run → Bool) (a2 : Nat) (h : Keeps s0 s) :
    Keeps s0 (State.endRuns s a1 a2) := by
  unfold State.endRuns
  try dsimp only
  repeat' first
    | with_reducible assumption
    | with_reducible apply State.endRun_keeps
    | (with_reducible refine keeps_foldl (fun _ _ _ => ?_) ?_)

theorem State.abandon_keeps {s0 s : State} (a1 : QCtx) (h : Keeps s0 s) :
    Keeps s0 (State.abandon s a1) := by
  unfold State.abandon
  try dsimp only
  repeat' first
    | with_reducible assumption
    | with_reducible apply State.endRuns_keeps

theorem State.resetLun_keeps {s0 s : State} (a1 : Nat) (a2 : Nat) (h : Keeps s0 s) :
    Keeps s0 (State.resetLun s a1 a2) := by
  unfold State.resetLun
  try dsimp only
  repeat' first
    | with_reducible assumption
    | with_reducible apply State.endRuns_keeps
    | (simp only [↓keeps_mk]; with_reducible refine keeps_fold ?_)

theorem State.maskNib_keeps {s0 s : State} (a1 : Nat) (h : Keeps s0 s) :
    Keeps s0 (State.maskNib s a1) := by
  unfold State.maskNib
  try dsimp only
  repeat' first
    | with_reducible assumption
    | with_reducible apply State.post_keeps
    | with_reducible apply State.setFld_keeps
    | with_reducible apply State.retireChannel_keeps
    | with_reducible apply State.endRuns_keeps
    | with_reducible refine keeps_ite (fun _ => ?_) (fun _ => ?_)
    | (simp only [↓keeps_mk]; with_reducible refine keeps_fold ?_)
    | split

theorem State.unresponsive_keeps {s0 s : State} (a1 : Nat) (h : Keeps s0 s) :
    Keeps s0 (State.unresponsive s a1) := by
  unfold State.unresponsive
  try dsimp only
  repeat' first
    | with_reducible assumption
    | with_reducible apply State.post_keeps
    | with_reducible apply State.retireLun_keeps
    | with_reducible apply State.maskNib_keeps
    | with_reducible apply State.endRuns_keeps
    | with_reducible apply State.updLun_keeps
    | with_reducible refine keeps_ite (fun _ => ?_) (fun _ => ?_)
    | split

theorem State.machineCheck_keeps {s0 s : State} (a1 : Nat) (a2 : Nat) (a3 : Nat) (a4 : Nat) (h : Keeps s0 s) :
    Keeps s0 (State.machineCheck s a1 a2 a3 a4) := by
  unfold State.machineCheck
  try dsimp only
  repeat' first
    | with_reducible assumption
    | with_reducible apply State.post_keeps
    | with_reducible apply State.bumpFld_keeps
    | with_reducible apply State.setFld_keeps
    | with_reducible apply State.maskNib_keeps
    | with_reducible apply State.endRuns_keeps
    | with_reducible refine keeps_ite (fun _ => ?_) (fun _ => ?_)
    | (simp only [↓keeps_mk]; with_reducible refine keeps_fold ?_)
    | split

theorem State.trainDue_keeps {s0 s : State} (a1 : Nat) (h : Keeps s0 s) :
    Keeps s0 (State.trainDue s a1) := by
  unfold State.trainDue
  try dsimp only
  repeat' first
    | with_reducible assumption
    | with_reducible refine keeps_ite (fun _ => ?_) (fun _ => ?_)
    | (simp only [↓keeps_mk]; with_reducible refine keeps_fold ?_)
    | split

theorem State.setBand_keeps {s0 s : State} (a1 : Nat) (a2 : Nat) (h : Keeps s0 s) :
    Keeps s0 (State.setBand s a1 a2) := by
  unfold State.setBand
  try dsimp only
  repeat' first
    | with_reducible assumption
    | with_reducible apply State.updLun_keeps
    | with_reducible apply State.trainDue_keeps
    | with_reducible refine keeps_ite (fun _ => ?_) (fun _ => ?_)
    | split

theorem State.tempReading_keeps {s0 s : State} (a1 : Nat) (a2 : Nat) (h : Keeps s0 s) :
    Keeps s0 (State.tempReading s a1 a2) := by
  unfold State.tempReading
  try dsimp only
  repeat' first
    | with_reducible assumption
    | with_reducible apply State.setBand_keeps
    | with_reducible apply State.updLun_keeps
    | with_reducible refine keeps_ite (fun _ => ?_) (fun _ => ?_)
    | split

theorem State.eraseCounter_keeps {s0 s : State} (a1 : Nat) (a2 : Nat) (h : Keeps s0 s) :
    Keeps s0 (State.eraseCounter s a1 a2).2 := by
  unfold State.eraseCounter
  try dsimp only
  repeat' first
    | with_reducible assumption
    | (simp only [↓keeps_mk]; with_reducible refine keeps_fold ?_)
    | split

theorem State.endErase_keeps {s0 s : State} (a1 : Run) (a2 : Stroke) (a3 : Bool) (h : Keeps s0 s) :
    Keeps s0 (State.endErase s a1 a2 a3) := by
  unfold State.endErase
  try dsimp only
  repeat' first
    | with_reducible assumption
    | with_reducible apply State.endRun_keeps
    | with_reducible apply State.eraseCounter_keeps
    | with_reducible refine keeps_pair2 (by with_reducible assumption) (State.eraseCounter_keeps _ _ ?_)
    | with_reducible refine keeps_ite (fun _ => ?_) (fun _ => ?_)
    | split

theorem State.readyEnd_keeps {s0 s : State} (a1 : Run) (a2 : Stroke) (h : Keeps s0 s) :
    Keeps s0 (State.readyEnd s a1 a2) := by
  unfold State.readyEnd
  try dsimp only
  repeat' first
    | with_reducible assumption
    | with_reducible apply State.endErase_keeps
    | with_reducible apply State.endRun_keeps
    | with_reducible refine keeps_ite (fun _ => ?_) (fun _ => ?_)
    | split

/-! ## QuillOps -/

theorem State.setCtx_keeps {s0 s : State} (a1 : QCtx) (h : Keeps s0 s) :
    Keeps s0 (State.setCtx s a1) := by
  unfold State.setCtx
  try dsimp only
  repeat' first
    | with_reducible assumption
    | (simp only [↓keeps_mk]; with_reducible refine keeps_fold ?_)

theorem State.stored_keeps {s0 s : State} (a1 : QCtx) (a2 : Except (Nat × Nat) QCtx) (h : Keeps s0 s) :
    Keeps s0 (State.stored s a1 a2) := by
  unfold State.stored
  try dsimp only
  repeat' first
    | with_reducible assumption
    | with_reducible apply State.machineCheck_keeps
    | with_reducible apply State.setCtx_keeps
    | split

theorem State.advance_keeps {s0 s : State} (a1 : QCtx) (a2 : Par) (h : Keeps s0 s) :
    Keeps s0 (State.advance s a1 a2) := by
  unfold State.advance
  try dsimp only
  repeat' first
    | with_reducible assumption
    | with_reducible apply State.stored_keeps

theorem State.serviceReturn_keeps {s0 s : State} (a1 : QCtx) (a2 : Option Nat) (h : Keeps s0 s) :
    Keeps s0 (State.serviceReturn s a1 a2) := by
  unfold State.serviceReturn
  try dsimp only
  repeat' first
    | with_reducible assumption
    | with_reducible apply State.stored_keeps
    | with_reducible apply State.machineCheck_keeps
    | with_reducible refine keeps_ite (fun _ => ?_) (fun _ => ?_)
    | (simp only [↓keeps_mk]; with_reducible refine keeps_fold ?_)
    | split

theorem State.alu_keeps {s0 s : State} (a1 : QCtx) (a2 : Nat) (h : Keeps s0 s) :
    Keeps s0 (State.alu s a1 a2).1 := by
  unfold State.alu
  try dsimp only
  repeat' first
    | with_reducible assumption
    | with_reducible refine keeps_ite (fun _ => ?_) (fun _ => ?_)
    | (simp only [↓keeps_mk]; with_reducible refine keeps_fold ?_)
    | split

theorem State.holdBus_keeps {s0 s : State} (a1 : Nat) (a2 : Nat) (h : Keeps s0 s) :
    Keeps s0 (State.holdBus s a1 a2) := by
  unfold State.holdBus
  try dsimp only
  repeat' first
    | with_reducible assumption
    | (simp only [↓keeps_mk]; with_reducible refine keeps_fold ?_)

theorem State.busAct_keeps {s0 s : State} (a1 : QCtx) (a2 : Nat) (h : Keeps s0 s) :
    Keeps s0 (State.busAct s a1 a2) := by
  unfold State.busAct
  try dsimp only
  repeat' first
    | with_reducible assumption
    | with_reducible apply State.holdBus_keeps
    | with_reducible apply State.emit_keeps
    | with_reducible refine keeps_ite (fun _ => ?_) (fun _ => ?_)
    | (simp only [↓keeps_mk]; with_reducible refine keeps_fold ?_)
    | split

theorem State.nanoExec_keeps {s0 s : State} (a1 : QCtx) (a2 : Nat) (a3 : Nat) (h : Keeps s0 s) :
    Keeps s0 (State.nanoExec s a1 a2 a3).1 := by
  unfold State.nanoExec
  try dsimp only
  repeat' first
    | with_reducible assumption
    | with_reducible apply State.alu_keeps
    | with_reducible refine keeps_pair (by with_reducible assumption) (State.alu_keeps _ _ ?_)
    | with_reducible apply State.busAct_keeps
    | with_reducible refine keeps_ite (fun _ => ?_) (fun _ => ?_)
    | split

theorem State.tookTurn_keeps {s0 s : State} (a1 : Nat) (a2 : Nat) (h : Keeps s0 s) :
    Keeps s0 (State.tookTurn s a1 a2) := by
  unfold State.tookTurn
  try dsimp only
  repeat' first
    | with_reducible assumption
    | (simp only [↓keeps_mk]; with_reducible refine keeps_fold ?_)

theorem State.microword_keeps {s0 s : State} (a1 : Nat) (a2 : Nat) (a3 : Nat) (a4 : QIn) (a5 : State → QCtx → Fetched → State) (ka5 : ∀ x0 x1 x2, Keeps s0 x0 → Keeps s0 (a5 x0 x1 x2)) (h : Keeps s0 s) :
    Keeps s0 (State.microword s a1 a2 a3 a4 a5) := by
  unfold State.microword
  try dsimp only
  repeat' first
    | with_reducible assumption
    | with_reducible apply ka5
    | with_reducible apply State.nanoExec_keeps
    | with_reducible refine keeps_pair (by with_reducible assumption) (State.nanoExec_keeps _ _ _ ?_)
    | with_reducible apply State.machineCheck_keeps
    | with_reducible apply State.setCtx_keeps
    | with_reducible apply State.tookTurn_keeps
    | with_reducible refine keeps_ite (fun _ => ?_) (fun _ => ?_)
    | split

/-! ## Nib -/

theorem execDescriptorAccept_keeps {s0 s : State} (a0 : Nat) (a1 : Nat) (h : Keeps s0 s) :
    KeepsR s0 (execDescriptorAccept a0 a1 s) := by
  unfold execDescriptorAccept
  try dsimp only
  repeat' first
    | with_reducible assumption
    | with_reducible refine keepsR_next ?_
    | with_reducible apply State.post_keeps
    | with_reducible apply State.endRun_keeps
    | with_reducible apply State.updStroke_keeps
    | with_reducible refine keeps_ite (fun _ => ?_) (fun _ => ?_)
    | with_reducible refine keepsR_ite (fun _ => ?_) (fun _ => ?_)
    | (simp only [↓keeps_mk]; with_reducible refine keeps_fold ?_)
    | split

theorem State.launch_keeps {s0 s : State} (a1 : Run) (a2 : Stroke) (a3 : Int) (h : Keeps s0 s) :
    Keeps s0 (State.launch s a1 a2 a3) := by
  unfold State.launch
  try dsimp only
  repeat' first
    | with_reducible assumption
    | with_reducible apply State.post_keeps
    | with_reducible apply State.endRun_keeps
    | with_reducible apply State.updRun_keeps
    | with_reducible apply State.updStroke_keeps
    | with_reducible refine keeps_ite (fun _ => ?_) (fun _ => ?_)
    | (simp only [↓keeps_mk]; with_reducible refine keeps_fold ?_)
    | split

theorem execStrokeDueLine_keeps {s0 s : State} (a0 : Nat) (a1 : Nat) (a2 : Int) (a3 : Bool) (h : Keeps s0 s) :
    KeepsR s0 (execStrokeDueLine a0 a1 a2 a3 s) := by
  unfold execStrokeDueLine
  try dsimp only
  repeat' first
    | with_reducible assumption
    | with_reducible refine keepsR_next ?_
    | with_reducible apply State.post_keeps
    | with_reducible apply State.launch_keeps
    | with_reducible apply State.endRun_keeps
    | with_reducible refine keeps_ite (fun _ => ?_) (fun _ => ?_)
    | with_reducible refine keepsR_ite (fun _ => ?_) (fun _ => ?_)
    | split

theorem State.resetDone_keeps {s0 s : State} (a1 : Nat) (h : Keeps s0 s) :
    Keeps s0 (State.resetDone s a1) := by
  unfold State.resetDone
  try dsimp only
  repeat' first
    | with_reducible assumption
    | with_reducible apply State.endRun_keeps
    | with_reducible apply State.newStroke_keeps
    | with_reducible apply State.updLun_keeps
    | with_reducible refine keeps_ite (fun _ => ?_) (fun _ => ?_)
    | (with_reducible refine keeps_foldl (fun _ _ _ => ?_) ?_)
    | split

theorem State.serviceReady_keeps {s0 s : State} (a1 : Nat) (a2 : Nat) (h : Keeps s0 s) :
    Keeps s0 (State.serviceReady s a1 a2) := by
  unfold State.serviceReady
  try dsimp only
  repeat' first
    | with_reducible assumption
    | with_reducible apply State.serviceReturn_keeps
    | with_reducible apply State.abandon_keeps
    | with_reducible refine keeps_ite (fun _ => ?_) (fun _ => ?_)
    | split

theorem State.poll_keeps {s0 s : State} (a1 : Nat) (a2 : Nat) (h : Keeps s0 s) :
    Keeps s0 (State.poll s a1 a2) := by
  unfold State.poll
  try dsimp only
  repeat' first
    | with_reducible assumption
    | with_reducible apply State.holdBus_keeps
    | with_reducible apply State.resetDone_keeps
    | with_reducible apply State.updRun_keeps
    | with_reducible apply State.readyEnd_keeps
    | with_reducible apply State.serviceReady_keeps
    | with_reducible refine keeps_ite (fun _ => ?_) (fun _ => ?_)
    | split

theorem execStatusPoll_keeps {s0 s : State} (a0 : Nat) (a1 : Nat) (h : Keeps s0 s) :
    KeepsR s0 (execStatusPoll a0 a1 s) := by
  unfold execStatusPoll
  try dsimp only
  repeat' first
    | with_reducible assumption
    | with_reducible refine keepsR_next ?_
    | with_reducible apply State.poll_keeps
    | with_reducible refine keeps_ite (fun _ => ?_) (fun _ => ?_)
    | with_reducible refine keepsR_ite (fun _ => ?_) (fun _ => ?_)
    | split

theorem execRbNRise_keeps {s0 s : State} (a0 : Nat) (a1 : Nat) (h : Keeps s0 s) :
    KeepsR s0 (execRbNRise a0 a1 s) := by
  unfold execRbNRise
  try dsimp only
  repeat' first
    | with_reducible assumption
    | with_reducible refine keepsR_next ?_
    | with_reducible apply State.poll_keeps
    | with_reducible refine keeps_ite (fun _ => ?_) (fun _ => ?_)
    | with_reducible refine keepsR_ite (fun _ => ?_) (fun _ => ?_)
    | (simp only [↓keeps_mk]; with_reducible refine keeps_fold ?_)
    | split

theorem execBusTransferDone_keeps {s0 s : State} (a0 : Nat) (a1 : Nat) (a2 : Nat) (a3 : CellErr) (h : Keeps s0 s) :
    KeepsR s0 (execBusTransferDone a0 a1 a2 a3 s) := by
  unfold execBusTransferDone
  try dsimp only
  repeat' first
    | with_reducible assumption
    | with_reducible refine keepsR_next ?_
    | with_reducible apply State.post_keeps
    | with_reducible apply State.endRun_keeps
    | with_reducible apply State.updRun_keeps
    | with_reducible apply State.cellErr_keeps
    | with_reducible apply State.updLun_keeps
    | with_reducible apply State.resetLun_keeps
    | with_reducible refine keeps_ite (fun _ => ?_) (fun _ => ?_)
    | with_reducible refine keepsR_ite (fun _ => ?_) (fun _ => ?_)
    | (simp only [↓keeps_mk]; with_reducible refine keeps_fold ?_)
    | split

theorem execCodewordDecodeDone_keeps {s0 s : State} (a0 : Nat) (a1 : Nat) (a2 : Bool) (a3 : Nat) (a4 : Nat) (a5 : Bool) (a6 : Nat) (h : Keeps s0 s) :
    KeepsR s0 (execCodewordDecodeDone a0 a1 a2 a3 a4 a5 a6 s) := by
  unfold execCodewordDecodeDone
  try dsimp only
  repeat' first
    | with_reducible assumption
    | with_reducible refine keepsR_next ?_
    | with_reducible apply State.serviceReturn_keeps
    | with_reducible apply State.endRun_keeps
    | with_reducible apply State.updRun_keeps
    | with_reducible apply State.setCtx_keeps
    | with_reducible refine keeps_ite (fun _ => ?_) (fun _ => ?_)
    | with_reducible refine keepsR_ite (fun _ => ?_) (fun _ => ?_)
    | split

theorem execStrokeTimeout_keeps {s0 s : State} (a0 : Nat) (a1 : Nat) (h : Keeps s0 s) :
    KeepsR s0 (execStrokeTimeout a0 a1 s) := by
  unfold execStrokeTimeout
  try dsimp only
  repeat' first
    | with_reducible assumption
    | with_reducible refine keepsR_next ?_
    | with_reducible apply State.post_keeps
    | with_reducible apply State.settle_keeps
    | with_reducible apply State.updRun_keeps
    | with_reducible apply State.updLun_keeps
    | with_reducible apply State.machineCheck_keeps
    | with_reducible apply State.unresponsive_keeps
    | with_reducible apply State.resetLun_keeps
    | with_reducible refine keeps_ite (fun _ => ?_) (fun _ => ?_)
    | with_reducible refine keepsR_ite (fun _ => ?_) (fun _ => ?_)
    | split

theorem execResetWaitTimeout_keeps {s0 s : State} (a0 : Nat) (h : Keeps s0 s) :
    KeepsR s0 (execResetWaitTimeout a0 s) := by
  unfold execResetWaitTimeout
  try dsimp only
  repeat' first
    | with_reducible assumption
    | with_reducible refine keepsR_next ?_
    | with_reducible apply State.settle_keeps
    | with_reducible apply State.unresponsive_keeps
    | with_reducible refine keeps_ite (fun _ => ?_) (fun _ => ?_)
    | with_reducible refine keepsR_ite (fun _ => ?_) (fun _ => ?_)
    | split

theorem execNibTempRead_keeps {s0 s : State} (a0 : Nat) (h : Keeps s0 s) :
    KeepsR s0 (execNibTempRead a0 s) := by
  unfold execNibTempRead
  try dsimp only
  repeat' first
    | with_reducible assumption
    | with_reducible refine keepsR_next ?_
    | with_reducible apply State.post_keeps
    | with_reducible apply State.setBand_keeps
    | with_reducible apply State.newStroke_keeps
    | with_reducible refine keeps_ite (fun _ => ?_) (fun _ => ?_)
    | with_reducible refine keepsR_ite (fun _ => ?_) (fun _ => ?_)
    | (simp only [↓keeps_mk]; with_reducible refine keeps_fold ?_)
    | (with_reducible refine keeps_foldl (fun _ _ _ => ?_) ?_)
    | split

theorem execTempStaleTimeout_keeps {s0 s : State} (a0 : Nat) (h : Keeps s0 s) :
    KeepsR s0 (execTempStaleTimeout a0 s) := by
  unfold execTempStaleTimeout
  try dsimp only
  repeat' first
    | with_reducible assumption
    | with_reducible refine keepsR_next ?_
    | with_reducible apply State.post_keeps
    | with_reducible apply State.setBand_keeps
    | with_reducible apply State.updLun_keeps
    | with_reducible refine keeps_ite (fun _ => ?_) (fun _ => ?_)
    | with_reducible refine keepsR_ite (fun _ => ?_) (fun _ => ?_)
    | (with_reducible refine keeps_foldl (fun _ _ _ => ?_) ?_)
    | split

theorem execNibRetrain_keeps {s0 s : State} (a0 : Nat) (h : Keeps s0 s) :
    KeepsR s0 (execNibRetrain a0 s) := by
  unfold execNibRetrain
  try dsimp only
  repeat' first
    | with_reducible assumption
    | with_reducible refine keepsR_next ?_
    | with_reducible apply State.setFld_keeps
    | with_reducible refine keeps_ite (fun _ => ?_) (fun _ => ?_)
    | with_reducible refine keepsR_ite (fun _ => ?_) (fun _ => ?_)
    | (simp only [↓keeps_mk]; with_reducible refine keeps_fold ?_)
    | split

theorem execNibCtrlRetrain_keeps {s0 s : State} (a0 : Nat) (h : Keeps s0 s) :
    KeepsR s0 (execNibCtrlRetrain a0 s) := by
  unfold execNibCtrlRetrain
  try dsimp only
  repeat' first
    | with_reducible assumption
    | with_reducible refine keepsR_next ?_
    | with_reducible apply State.setFld_keeps
    | with_reducible apply State.trainDue_keeps
    | with_reducible refine keeps_ite (fun _ => ?_) (fun _ => ?_)
    | with_reducible refine keepsR_ite (fun _ => ?_) (fun _ => ?_)
    | split

theorem execDecoderKat_keeps {s0 s : State} (a0 : Nat) (a1 : Bool) (h : Keeps s0 s) :
    KeepsR s0 (execDecoderKat a0 a1 s) := by
  unfold execDecoderKat
  try dsimp only
  repeat' first
    | with_reducible assumption
    | with_reducible refine keepsR_next ?_
    | with_reducible apply State.settle_keeps
    | with_reducible apply State.maskNib_keeps
    | with_reducible refine keeps_ite (fun _ => ?_) (fun _ => ?_)
    | with_reducible refine keepsR_ite (fun _ => ?_) (fun _ => ?_)
    | split

/-! ## StrokeDone -/

theorem State.sanitizeErased_keeps {s0 s : State} (a1 : Nat) (a2 : Nat) (a3 : Nat) (h : Keeps s0 s) :
    Keeps s0 (State.sanitizeErased s a1 a2 a3) := by
  unfold State.sanitizeErased
  try dsimp only
  repeat' first
    | with_reducible assumption
    | with_reducible apply State.retireBlock_keeps
    | with_reducible apply State.blockErased_keeps
    | with_reducible apply State.newStroke_keeps
    | with_reducible apply State.folio_keeps
    | with_reducible refine keeps_ite (fun _ => ?_) (fun _ => ?_)
    | (simp only [↓keeps_mk]; with_reducible refine keeps_fold ?_)
    | split

theorem State.tempResult_keeps {s0 s : State} (a1 : Stroke) (a2 : Comp) (h : Keeps s0 s) :
    Keeps s0 (State.tempResult s a1 a2) := by
  unfold State.tempResult
  try dsimp only
  repeat' first
    | with_reducible assumption
    | with_reducible apply State.post_keeps
    | with_reducible apply State.thermalShutdown_keeps
    | with_reducible apply State.throttle_keeps
    | with_reducible apply State.tempReading_keeps
    | with_reducible apply State.sumTherm_keeps
    | with_reducible apply State.newStroke_keeps
    | with_reducible refine keeps_ite (fun _ => ?_) (fun _ => ?_)
    | split

theorem State.suspendResult_keeps {s0 s : State} (a1 : Nat) (a2 : Stroke) (a3 : Comp) (h : Keeps s0 s) :
    Keeps s0 (State.suspendResult s a1 a2 a3) := by
  unfold State.suspendResult
  try dsimp only
  repeat' first
    | with_reducible assumption
    | with_reducible apply State.updStroke_keeps
    | with_reducible refine keeps_ite (fun _ => ?_) (fun _ => ?_)
    | split

theorem State.resumeResult_keeps {s0 s : State} (a1 : Nat) (a2 : Stroke) (a3 : Comp) (h : Keeps s0 s) :
    Keeps s0 (State.resumeResult s a1 a2 a3) := by
  unfold State.resumeResult
  try dsimp only
  repeat' first
    | with_reducible assumption
    | with_reducible apply State.updStroke_keeps
    | with_reducible refine keeps_ite (fun _ => ?_) (fun _ => ?_)
    | split

theorem State.bringUpResult_keeps {s0 s : State} (a1 : Stroke) (a2 : Comp) (h : Keeps s0 s) :
    Keeps s0 (State.bringUpResult s a1 a2) := by
  unfold State.bringUpResult
  try dsimp only
  repeat' first
    | with_reducible assumption
    | with_reducible apply State.newStroke_keeps
    | with_reducible apply State.unresponsive_keeps
    | with_reducible refine keeps_ite (fun _ => ?_) (fun _ => ?_)
    | (with_reducible refine keeps_foldl (fun _ _ _ => ?_) ?_)
    | split

theorem State.actOn_keeps {s0 s : State} (a1 : Stroke) (a2 : Comp) (h : Keeps s0 s) :
    Keeps s0 (State.actOn s a1 a2) := by
  unfold State.actOn
  try dsimp only
  repeat' first
    | with_reducible assumption
    | with_reducible apply State.rowParityResult_keeps
    | with_reducible apply State.tlcResult_keeps
    | with_reducible apply State.sanitizeErased_keeps
    | with_reducible apply State.fetchResult_keeps
    | with_reducible apply State.resumeResult_keeps
    | with_reducible apply State.tempResult_keeps
    | with_reducible apply State.eraseResult_keeps
    | with_reducible apply State.blotterResult_keeps
    | with_reducible apply State.bringUpResult_keeps
    | with_reducible apply State.eraseSlotResult_keeps
    | with_reducible apply State.suspendResult_keeps
    | (simp only [↓keeps_mk]; with_reducible refine keeps_fold ?_)
    | split

theorem State.countBusy_keeps {s0 s : State} (a1 : Stroke) (a2 : Comp) (h : Keeps s0 s) :
    Keeps s0 (State.countBusy s a1 a2) := by
  unfold State.countBusy
  try dsimp only
  repeat' first
    | with_reducible assumption
    | with_reducible apply State.setStat_keeps
    | with_reducible refine keeps_ite (fun _ => ?_) (fun _ => ?_)
    | split

theorem State.pump_keeps {s0 s : State}  (h : Keeps s0 s) :
    Keeps s0 (State.pump s) := by
  unfold State.pump
  try dsimp only
  repeat' first
    | with_reducible assumption
    | with_reducible apply State.closeRows_keeps
    | with_reducible apply State.settleCmds_keeps
    | with_reducible apply State.pumpBlotter_keeps
    | with_reducible apply State.shutStep_keeps
    | with_reducible apply State.eraseSlots_keeps
    | with_reducible apply State.ticketPump_keeps
    | with_reducible apply State.runWritePoints_keeps
    | with_reducible refine keeps_ite (fun _ => ?_) (fun _ => ?_)
    | split

theorem execStrokeComplete_keeps {s0 s : State} (a0 : Nat) (h : Keeps s0 s) :
    KeepsR s0 (execStrokeComplete a0 s) := by
  unfold execStrokeComplete
  try dsimp only
  repeat' first
    | with_reducible assumption
    | with_reducible refine keepsR_next ?_
    | with_reducible apply State.post_keeps
    | with_reducible apply State.pump_keeps
    | with_reducible apply State.countBusy_keeps
    | with_reducible apply State.settle_keeps
    | with_reducible apply State.waitAgain_keeps
    | with_reducible apply State.actOn_keeps
    | with_reducible refine keeps_ite (fun _ => ?_) (fun _ => ?_)
    | with_reducible refine keepsR_ite (fun _ => ?_) (fun _ => ?_)
    | (simp only [↓keeps_mk]; with_reducible refine keeps_fold ?_)
    | split

theorem State.placeOne_keeps {s0 s : State} (a1 : Stroke) (h : Keeps s0 s) :
    Keeps s0 (State.placeOne s a1) := by
  unfold State.placeOne
  try dsimp only
  repeat' first
    | with_reducible assumption
    | with_reducible apply State.commit_keeps
    | with_reducible apply State.actOn_keeps
    | with_reducible refine keeps_ite (fun _ => ?_) (fun _ => ?_)
    | split

theorem State.placeSuspends_keeps {s0 s : State} (a1 : Stroke) (h : Keeps s0 s) :
    Keeps s0 (State.placeSuspends s a1) := by
  unfold State.placeSuspends
  try dsimp only
  repeat' first
    | with_reducible assumption
    | with_reducible apply State.askSuspend_keeps
    | with_reducible refine keeps_ite (fun _ => ?_) (fun _ => ?_)
    | split

theorem execStrokePlace_keeps {s0 s : State}  (h : Keeps s0 s) :
    KeepsR s0 (execStrokePlace s) := by
  unfold execStrokePlace
  try dsimp only
  repeat' first
    | with_reducible assumption
    | with_reducible refine keepsR_next ?_
    | with_reducible apply State.askResume_keeps
    | with_reducible apply State.placeOne_keeps
    | with_reducible apply State.enterHeld_keeps
    | with_reducible apply State.placeSuspends_keeps
    | with_reducible refine keeps_ite (fun _ => ?_) (fun _ => ?_)
    | with_reducible refine keepsR_ite (fun _ => ?_) (fun _ => ?_)
    | (simp only [↓keeps_mk]; with_reducible refine keeps_fold ?_)
    | (with_reducible refine keeps_foldl (fun _ _ _ => ?_) ?_)
    | split

/-! ## QueueOps -/

theorem State.askPages_keeps {s0 s : State}  (h : Keeps s0 s) :
    Keeps s0 (State.askPages s) := by
  unfold State.askPages
  try dsimp only
  repeat' first
    | with_reducible assumption
    | with_reducible apply State.startFetch_keeps
    | with_reducible refine keeps_ite (fun _ => ?_) (fun _ => ?_)
    | (with_reducible refine keeps_foldl (fun _ _ _ => ?_) ?_)
    | split

theorem State.kick_keeps {s0 s : State}  (h : Keeps s0 s) :
    Keeps s0 (State.kick s) := by
  unfold State.kick
  try dsimp only
  repeat' first
    | with_reducible assumption
    | with_reducible apply State.askSegs_keeps
    | with_reducible apply State.settleCmds_keeps
    | with_reducible apply State.ticketInk_keeps
    | with_reducible apply State.askReads_keeps
    | with_reducible apply State.orderingPoint_keeps
    | with_reducible apply State.askPages_keeps
    | with_reducible refine keeps_ite (fun _ => ?_) (fun _ => ?_)
    | (with_reducible refine keeps_foldl (fun _ _ _ => ?_) ?_)
    | split

theorem State.placement_keeps {s0 s : State} (a1 : Ns) (a2 : Nat) (a3 : Nat) (h : Keeps s0 s) :
    Keeps s0 (State.placement s a1 a2 a3).1 := by
  unfold State.placement
  try dsimp only
  repeat' first
    | with_reducible assumption
    | with_reducible apply State.post_keeps
    | with_reducible apply State.setFld_keeps
    | with_reducible refine keeps_ite (fun _ => ?_) (fun _ => ?_)
    | (simp only [↓keeps_mk]; with_reducible refine keeps_fold ?_)
    | split

/-! ## Cuts -/

theorem execCheckpointStart_keeps {s0 s : State}  (h : Keeps s0 s) :
    KeepsR s0 (execCheckpointStart s) := by
  unfold execCheckpointStart
  try dsimp only
  repeat' first
    | with_reducible assumption
    | with_reducible refine keepsR_next ?_
    | with_reducible apply State.startCheckpoint_keeps
    | with_reducible refine keeps_ite (fun _ => ?_) (fun _ => ?_)
    | with_reducible refine keepsR_ite (fun _ => ?_) (fun _ => ?_)
    | (simp only [↓keeps_mk]; with_reducible refine keeps_fold ?_)
    | split

theorem execCheckpointSlow_keeps {s0 s : State}  (h : Keeps s0 s) :
    KeepsR s0 (execCheckpointSlow s) := by
  unfold execCheckpointSlow
  try dsimp only
  repeat' first
    | with_reducible assumption
    | with_reducible refine keepsR_next ?_
    | with_reducible apply State.post_keeps
    | with_reducible refine keeps_ite (fun _ => ?_) (fun _ => ?_)
    | with_reducible refine keepsR_ite (fun _ => ?_) (fun _ => ?_)
    | (simp only [↓keeps_mk]; with_reducible refine keeps_fold ?_)
    | split

theorem State.acceptCut_keeps {s0 s : State} (a1 : Nat) (a2 : Nat) (a3 : Nat) (a4 : Bool) (a5 : Option Ref) (h : Keeps s0 s) :
    Keeps s0 (State.acceptCut s a1 a2 a3 a4 a5) := by
  unfold State.acceptCut
  try dsimp only
  repeat' first
    | with_reducible assumption
    | with_reducible apply State.folio_keeps
    | with_reducible refine keeps_ite (fun _ => ?_) (fun _ => ?_)
    | (simp only [↓keeps_mk]; with_reducible refine keeps_fold ?_)
    | split

theorem State.refuseCut_keeps {s0 s : State} (a1 : Status × Nat) (h : Keeps s0 s) :
    Keeps s0 (State.refuseCut s a1) := by
  unfold State.refuseCut
  try dsimp only
  repeat' first
    | with_reducible assumption
    | with_reducible apply State.post_keeps
    | with_reducible refine keeps_ite (fun _ => ?_) (fun _ => ?_)
    | split

theorem State.noteCut_keeps {s0 s : State} (a1 : Nat) (a2 : Option (Status × Nat)) (h : Keeps s0 s) :
    Keeps s0 (State.noteCut s a1 a2) := by
  unfold State.noteCut
  try dsimp only
  repeat' first
    | with_reducible assumption
    | (simp only [↓keeps_mk]; with_reducible refine keeps_fold ?_)

theorem execCutCreate_keeps {s0 s : State} (a0 : Ref) (a1 : Nat) (a2 : Nat) (a3 : Nat) (a4 : Nat) (h : Keeps s0 s) :
    KeepsR s0 (execCutCreate a0 a1 a2 a3 a4 s) := by
  unfold execCutCreate
  try dsimp only
  repeat' first
    | with_reducible assumption
    | with_reducible refine keepsR_next ?_
    | with_reducible apply State.noteCut_keeps
    | with_reducible apply State.lockFor_keeps
    | with_reducible apply State.complete_keeps
    | with_reducible apply State.latch_keeps
    | with_reducible apply State.acceptCut_keeps
    | with_reducible apply State.done_keeps
    | with_reducible refine State.done_keeps ?_ _ (by with_reducible assumption)
    | with_reducible apply State.refuseCut_keeps
    | with_reducible apply State.bxlSend_keeps
    | with_reducible refine keeps_ite (fun _ => ?_) (fun _ => ?_)
    | with_reducible refine keepsR_ite (fun _ => ?_) (fun _ => ?_)
    | (simp only [↓keeps_mk]; with_reducible refine keeps_fold ?_)
    | split

theorem State.nsChanged_keeps {s0 s : State} (a1 : List Nat) (h : Keeps s0 s) :
    Keeps s0 (State.nsChanged s a1) := by
  unfold State.nsChanged
  try dsimp only
  repeat' first
    | with_reducible assumption
    | with_reducible apply State.aenTo_keeps
    | (simp only [↓keeps_mk]; with_reducible refine keeps_fold ?_)
    | (with_reducible refine keeps_foldl (fun _ _ _ => ?_) ?_)

theorem State.holdCut_keeps {s0 s : State} (a1 : CutRec) (h : Keeps s0 s) :
    Keeps s0 (State.holdCut s a1) := by
  unfold State.holdCut
  try dsimp only
  repeat' first
    | with_reducible assumption
    | with_reducible apply State.post_keeps
    | with_reducible apply State.nsChanged_keeps
    | with_reducible apply State.folio_keeps
    | (simp only [↓keeps_mk]; with_reducible refine keeps_fold ?_)
    | (with_reducible refine keeps_foldl (fun _ _ _ => ?_) ?_)
    | (with_reducible refine keeps_foldl1 (fun _ _ _ => ?_) ?_)
    | with_reducible refine keeps_pair (by with_reducible assumption) (keeps_foldl1 (fun _ _ _ => ?_) ?_)
    | split

theorem execCutHold_keeps {s0 s : State} (a0 : Nat) (h : Keeps s0 s) :
    KeepsR s0 (execCutHold a0 s) := by
  unfold execCutHold
  try dsimp only
  repeat' first
    | with_reducible assumption
    | with_reducible refine keepsR_next ?_
    | with_reducible apply State.holdCut_keeps
    | with_reducible refine keeps_ite (fun _ => ?_) (fun _ => ?_)
    | with_reducible refine keepsR_ite (fun _ => ?_) (fun _ => ?_)
    | split

theorem State.dropSnapPages_keeps {s0 s : State}  (h : Keeps s0 s) :
    Keeps s0 (State.dropSnapPages s) := by
  unfold State.dropSnapPages
  try dsimp only
  repeat' first
    | with_reducible assumption
    | with_reducible apply State.bumpValid_keeps
    | with_reducible refine keeps_ite (fun _ => ?_) (fun _ => ?_)
    | (simp only [↓keeps_mk]; with_reducible refine keeps_fold ?_)
    | (with_reducible refine keeps_foldl (fun _ _ _ => ?_) ?_)
    | (with_reducible refine keeps_foldl1 (fun _ _ _ => ?_) ?_)
    | with_reducible refine keeps_pair (by with_reducible assumption) (keeps_foldl1 (fun _ _ _ => ?_) ?_)
    | split

theorem State.endNsCmds_keeps {s0 s : State} (a1 : Nat) (h : Keeps s0 s) :
    Keeps s0 (State.endNsCmds s a1) := by
  unfold State.endNsCmds
  try dsimp only
  repeat' first
    | with_reducible assumption
    | with_reducible apply State.failRead_keeps
    | with_reducible apply State.dropCmd_keeps
    | with_reducible apply State.complete_keeps
    | with_reducible apply State.failWrite_keeps
    | with_reducible refine keeps_ite (fun _ => ?_) (fun _ => ?_)
    | (with_reducible refine keeps_foldl (fun _ _ _ => ?_) ?_)
    | split

theorem State.releaseCut_keeps {s0 s : State} (a1 : Nat) (h : Keeps s0 s) :
    Keeps s0 (State.releaseCut s a1) := by
  unfold State.releaseCut
  try dsimp only
  repeat' first
    | with_reducible assumption
    | with_reducible apply State.post_keeps
    | with_reducible apply State.dropSnapPages_keeps
    | with_reducible apply State.nsChanged_keeps
    | with_reducible apply State.endNsCmds_keeps
    | with_reducible apply State.ticketPump_keeps
    | with_reducible apply State.folio_keeps
    | with_reducible refine keeps_ite (fun _ => ?_) (fun _ => ?_)
    | (simp only [↓keeps_mk]; with_reducible refine keeps_fold ?_)
    | (with_reducible refine keeps_foldl (fun _ _ _ => ?_) ?_)
    | split

theorem execCutEvict_keeps {s0 s : State}  (h : Keeps s0 s) :
    KeepsR s0 (execCutEvict s) := by
  unfold execCutEvict
  try dsimp only
  repeat' first
    | with_reducible assumption
    | with_reducible refine keepsR_next ?_
    | with_reducible apply State.post_keeps
    | with_reducible apply State.releaseCut_keeps
    | with_reducible refine keeps_ite (fun _ => ?_) (fun _ => ?_)
    | with_reducible refine keepsR_ite (fun _ => ?_) (fun _ => ?_)
    | (simp only [↓keeps_mk]; with_reducible refine keeps_fold ?_)
    | split

theorem execCutRelease_keeps {s0 s : State} (a0 : Ref) (a1 : Nat) (h : Keeps s0 s) :
    KeepsR s0 (execCutRelease a0 a1 s) := by
  unfold execCutRelease
  try dsimp only
  repeat' first
    | with_reducible assumption
    | with_reducible refine keepsR_next ?_
    | with_reducible apply State.complete_keeps
    | with_reducible apply State.latch_keeps
    | with_reducible apply State.releaseCut_keeps
    | with_reducible apply State.done_keeps
    | with_reducible refine State.done_keeps ?_ _ (by with_reducible assumption)
    | with_reducible refine keeps_ite (fun _ => ?_) (fun _ => ?_)
    | with_reducible refine keepsR_ite (fun _ => ?_) (fun _ => ?_)
    | split

/-! ## Shift -/

theorem State.shiftTimes_keeps {s0 s : State} (d : Nat) (h : Keeps s0 s) : Keeps s0 (State.shiftTimes s d) := by
  obtain ⟨a, b, c, d', e, g, i, j, k⟩ := h
  refine ⟨a, b, c, d', e, ?_, ?_, ?_, k⟩
  · simp only [State.shiftTimes, Hp.shift, List.length_map]; exact g
  · simp only [State.shiftTimes, Ink.shift, List.length_map]; exact i
  · simp only [State.shiftTimes, List.length_map]; exact j

/-! ## Tines -/

theorem State.setTine_keeps {s0 s : State} (a1 : Bool) (a2 : TineState) (h : Keeps s0 s) :
    Keeps s0 (State.setTine s a1 a2) := by
  unfold State.setTine
  try dsimp only
  repeat' first
    | with_reducible assumption
    | with_reducible refine keeps_ite (fun _ => ?_) (fun _ => ?_)
    | (simp only [↓keeps_mk]; with_reducible refine keeps_fold ?_)
    | split

theorem State.tineEntry_keeps {s0 s : State} (a1 : Nat) (a2 : Nat) (a3 : Bool) (a4 : Nat) (a5 : Nat) (h : Keeps s0 s) :
    Keeps s0 (State.tineEntry s a1 a2 a3 a4 a5) := by
  unfold State.tineEntry
  try dsimp only
  repeat' first
    | with_reducible assumption
    | with_reducible apply State.colophon_keeps

theorem State.noSpare_keeps {s0 s : State} (a1 : Bool) (h : Keeps s0 s) :
    Keeps s0 (State.noSpare s a1) := by
  unfold State.noSpare
  try dsimp only
  repeat' first
    | with_reducible assumption
    | with_reducible apply State.post_keeps
    | with_reducible apply State.enterSafe_keeps
    | (simp only [↓keeps_mk]; with_reducible refine keeps_fold ?_)

theorem State.failDrills_keeps {s0 s : State} (a1 : Nat) (h : Keeps s0 s) :
    Keeps s0 (State.failDrills s a1) := by
  unfold State.failDrills
  try dsimp only
  repeat' first
    | with_reducible assumption
    | with_reducible apply State.complete_keeps
    | (simp only [↓keeps_mk]; with_reducible refine keeps_fold ?_)
    | (with_reducible refine keeps_foldl (fun _ _ _ => ?_) ?_)

theorem State.countResign_keeps {s0 s : State} (a1 : Bool) (h : Keeps s0 s) :
    Keeps s0 (State.countResign s a1) := by
  unfold State.countResign
  try dsimp only
  repeat' first
    | with_reducible assumption
    | with_reducible apply State.bumpFld_keeps
    | with_reducible refine keeps_ite (fun _ => ?_) (fun _ => ?_)
    | (simp only [↓keeps_mk]; with_reducible refine keeps_fold ?_)
    | split

theorem State.standbyResign_keeps {s0 s : State} (a1 : Bool) (h : Keeps s0 s) :
    Keeps s0 (State.standbyResign s a1) := by
  unfold State.standbyResign
  try dsimp only
  repeat' first
    | with_reducible assumption
    | with_reducible apply State.post_keeps
    | with_reducible apply State.settle_keeps
    | with_reducible apply State.countResign_keeps
    | with_reducible apply State.setTine_keeps

theorem State.beginHandover_keeps {s0 s : State} (a1 : Bool) (a2 : Nat) (h : Keeps s0 s) :
    Keeps s0 (State.beginHandover s a1 a2) := by
  unfold State.beginHandover
  try dsimp only
  repeat' first
    | with_reducible assumption
    | with_reducible apply State.setTine_keeps
    | (simp only [↓keeps_mk]; with_reducible refine keeps_fold ?_)

theorem State.resign_keeps {s0 s : State} (a1 : Bool) (a2 : Nat) (h : Keeps s0 s) :
    Keeps s0 (State.resign s a1 a2) := by
  unfold State.resign
  try dsimp only
  repeat' first
    | with_reducible assumption
    | with_reducible apply State.post_keeps
    | with_reducible apply State.beginHandover_keeps
    | with_reducible apply State.failDrills_keeps
    | with_reducible apply State.standbyResign_keeps
    | with_reducible apply State.settle_keeps
    | with_reducible apply State.noSpare_keeps
    | with_reducible apply State.countResign_keeps
    | with_reducible apply State.setTine_keeps
    | with_reducible refine keeps_ite (fun _ => ?_) (fun _ => ?_)
    | (simp only [↓keeps_mk]; with_reducible refine keeps_fold ?_)
    | split

theorem execTineCompareMismatch_keeps {s0 s : State} (a0 : Bool) (h : Keeps s0 s) :
    KeepsR s0 (execTineCompareMismatch a0 s) := by
  unfold execTineCompareMismatch
  try dsimp only
  repeat' first
    | with_reducible assumption
    | with_reducible refine keepsR_next ?_
    | with_reducible apply State.resign_keeps

theorem execTineStateError_keeps {s0 s : State} (a0 : Bool) (h : Keeps s0 s) :
    KeepsR s0 (execTineStateError a0 s) := by
  unfold execTineStateError
  try dsimp only
  repeat' first
    | with_reducible assumption
    | with_reducible refine keepsR_next ?_
    | with_reducible apply State.resign_keeps

theorem State.inkAsk_keeps {s0 s : State} (a1 : Nat) (a2 : Nat) (a3 : InkAsk) (h : Keeps s0 s) :
    Keeps s0 (State.inkAsk s a1 a2 a3) := by
  unfold State.inkAsk
  try dsimp only
  repeat' first
    | with_reducible assumption
    | with_reducible apply State.waitCells_keeps
    | with_reducible apply State.inkServed_keeps
    | with_reducible apply State.alloc_keeps
    | with_reducible refine keeps_pair (by with_reducible assumption) (State.alloc_keeps _ _ _ ?_)
    | with_reducible apply State.hold_keeps
    | with_reducible refine keeps_pair (by with_reducible assumption) (State.hold_keeps _ _ _ _ ?_)
    | with_reducible apply State.release_keeps
    | with_reducible apply State.emit_keeps
    | with_reducible refine keeps_ite (fun _ => ?_) (fun _ => ?_)
    | split

theorem State.forward_keeps {s0 s : State} (a1 : Nat) (a2 : Nat) (a3 : InkAsk) (h : Keeps s0 s) :
    Keeps s0 (State.forward s a1 a2 a3) := by
  unfold State.forward
  try dsimp only
  repeat' first
    | with_reducible assumption
    | with_reducible apply State.inkAsk_keeps
    | with_reducible apply State.emit_keeps
    | (simp only [↓keeps_mk]; with_reducible refine keeps_fold ?_)

theorem State.forwardHeld_keeps {s0 : State} (n stream : Nat) : ∀ {s : State}, Keeps s0 s → Keeps s0 (State.forwardHeld n stream s) := by
  induction n with
  | zero => exact fun h => h
  | succ n ih =>
    intro s h
    unfold State.forwardHeld
    dsimp only
    split
    · refine ih (State.forward_keeps _ _ _ ?_)
      simp only [↓keeps_mk]
      exact keeps_fold h
    · exact h

theorem State.dupOutput_keeps {s0 s : State}  (h : Keeps s0 s) :
    Keeps s0 (State.dupOutput s) := by
  unfold State.dupOutput
  try dsimp only
  repeat' first
    | with_reducible assumption
    | with_reducible apply State.post_keeps
    | (simp only [↓keeps_mk]; with_reducible refine keeps_fold ?_)

theorem State.crossCheck_keeps {s0 s : State} (a1 : Bool) (a2 : Nat) (a3 : Nat) (a4 : Nat) (h : Keeps s0 s) :
    Keeps s0 (State.crossCheck s a1 a2 a3 a4) := by
  unfold State.crossCheck
  try dsimp only
  repeat' first
    | with_reducible assumption
    | with_reducible apply State.post_keeps
    | with_reducible apply State.standbyResign_keeps
    | with_reducible refine keeps_ite (fun _ => ?_) (fun _ => ?_)
    | (simp only [↓keeps_mk]; with_reducible refine keeps_fold ?_)
    | split

theorem execTineOutputOffer_keeps {s0 s : State} (a0 : Bool) (a1 : Nat) (a2 : Nat) (a3 : TineOut) (h : Keeps s0 s) :
    KeepsR s0 (execTineOutputOffer a0 a1 a2 a3 s) := by
  unfold execTineOutputOffer
  try dsimp only
  repeat' first
    | with_reducible assumption
    | with_reducible refine keepsR_next ?_
    | with_reducible apply State.forwardHeld_keeps
    | with_reducible apply State.crossCheck_keeps
    | with_reducible apply State.forward_keeps
    | with_reducible apply State.dupOutput_keeps
    | with_reducible refine keeps_ite (fun _ => ?_) (fun _ => ?_)
    | with_reducible refine keepsR_ite (fun _ => ?_) (fun _ => ?_)
    | (simp only [↓keeps_mk]; with_reducible refine keeps_fold ?_)
    | split

theorem execMergeGapTimeout_keeps {s0 s : State} (a0 : Nat) (h : Keeps s0 s) :
    KeepsR s0 (execMergeGapTimeout a0 s) := by
  unfold execMergeGapTimeout
  try dsimp only
  repeat' first
    | with_reducible assumption
    | with_reducible refine keepsR_next ?_
    | with_reducible apply State.post_keeps
    | with_reducible apply State.enterSafe_keeps
    | with_reducible refine keeps_ite (fun _ => ?_) (fun _ => ?_)
    | with_reducible refine keepsR_ite (fun _ => ?_) (fun _ => ?_)
    | (simp only [↓keeps_mk]; with_reducible refine keeps_fold ?_)
    | split

theorem execOverlapClose_keeps {s0 s : State}  (h : Keeps s0 s) :
    KeepsR s0 (execOverlapClose s) := by
  unfold execOverlapClose
  try dsimp only
  repeat' first
    | with_reducible assumption
    | with_reducible refine keepsR_next ?_
    | with_reducible refine keeps_ite (fun _ => ?_) (fun _ => ?_)
    | with_reducible refine keepsR_ite (fun _ => ?_) (fun _ => ?_)
    | (simp only [↓keeps_mk]; with_reducible refine keeps_fold ?_)
    | split

theorem State.startResync_keeps {s0 s : State} (a1 : Bool) (h : Keeps s0 s) :
    Keeps s0 (State.startResync s a1) := by
  unfold State.startResync
  try dsimp only
  repeat' first
    | with_reducible assumption
    | with_reducible apply State.setTine_keeps
    | (simp only [↓keeps_mk]; with_reducible refine keeps_fold ?_)

theorem State.rejoin_keeps {s0 s : State} (a1 : Bool) (h : Keeps s0 s) :
    Keeps s0 (State.rejoin s a1) := by
  unfold State.rejoin
  try dsimp only
  repeat' first
    | with_reducible assumption
    | with_reducible apply State.startResync_keeps
    | with_reducible refine keeps_ite (fun _ => ?_) (fun _ => ?_)
    | (simp only [↓keeps_mk]; with_reducible refine keeps_fold ?_)
    | split

theorem execHandoverComplete_keeps {s0 s : State}  (h : Keeps s0 s) :
    KeepsR s0 (execHandoverComplete s) := by
  unfold execHandoverComplete
  try dsimp only
  repeat' first
    | with_reducible assumption
    | with_reducible refine keepsR_next ?_
    | with_reducible apply State.post_keeps
    | with_reducible apply State.bumpFld_keeps
    | with_reducible apply State.setFld_keeps
    | with_reducible apply State.settle_keeps
    | with_reducible apply State.rejoin_keeps
    | with_reducible apply State.setTine_keeps
    | with_reducible apply State.tineEntry_keeps
    | with_reducible refine keeps_ite (fun _ => ?_) (fun _ => ?_)
    | with_reducible refine keepsR_ite (fun _ => ?_) (fun _ => ?_)
    | (simp only [↓keeps_mk]; with_reducible refine keeps_fold ?_)
    | split

theorem execTineSelfTestDone_keeps {s0 s : State} (a0 : Bool) (a1 : Bool) (a2 : Nat) (h : Keeps s0 s) :
    KeepsR s0 (execTineSelfTestDone a0 a1 a2 s) := by
  unfold execTineSelfTestDone
  try dsimp only
  repeat' first
    | with_reducible assumption
    | with_reducible refine keepsR_next ?_
    | with_reducible apply State.post_keeps
    | with_reducible apply State.setFld_keeps
    | with_reducible apply State.settle_keeps
    | with_reducible apply State.setTine_keeps
    | with_reducible apply State.tineEntry_keeps
    | with_reducible refine keeps_ite (fun _ => ?_) (fun _ => ?_)
    | with_reducible refine keepsR_ite (fun _ => ?_) (fun _ => ?_)
    | (simp only [↓keeps_mk]; with_reducible refine keeps_fold ?_)
    | split

theorem execResyncStart_keeps {s0 s : State}  (h : Keeps s0 s) :
    KeepsR s0 (execResyncStart s) := by
  unfold execResyncStart
  try dsimp only
  repeat' first
    | with_reducible assumption
    | with_reducible refine keepsR_next ?_
    | with_reducible apply State.startResync_keeps
    | with_reducible refine keeps_ite (fun _ => ?_) (fun _ => ?_)
    | with_reducible refine keepsR_ite (fun _ => ?_) (fun _ => ?_)
    | split

theorem State.abortResync_keeps {s0 s : State}  (h : Keeps s0 s) :
    Keeps s0 (State.abortResync s) := by
  unfold State.abortResync
  try dsimp only
  repeat' first
    | with_reducible assumption
    | with_reducible apply State.post_keeps
    | with_reducible apply State.setTine_keeps
    | with_reducible refine keeps_ite (fun _ => ?_) (fun _ => ?_)
    | (simp only [↓keeps_mk]; with_reducible refine keeps_fold ?_)
    | split

theorem State.startDrill_keeps {s0 s : State} (a1 : Bool) (h : Keeps s0 s) :
    Keeps s0 (State.startDrill s a1) := by
  unfold State.startDrill
  try dsimp only
  repeat' first
    | with_reducible assumption
    | with_reducible apply State.beginHandover_keeps
    | with_reducible apply State.failDrills_keeps
    | with_reducible apply State.standbyResign_keeps
    | with_reducible refine keeps_ite (fun _ => ?_) (fun _ => ?_)
    | (simp only [↓keeps_mk]; with_reducible refine keeps_fold ?_)
    | split

theorem State.drillPump_keeps {s0 s : State}  (h : Keeps s0 s) :
    Keeps s0 (State.drillPump s) := by
  unfold State.drillPump
  try dsimp only
  repeat' first
    | with_reducible assumption
    | with_reducible apply State.failDrills_keeps
    | with_reducible apply State.complete_keeps
    | with_reducible apply State.startDrill_keeps
    | with_reducible refine keeps_ite (fun _ => ?_) (fun _ => ?_)
    | (simp only [↓keeps_mk]; with_reducible refine keeps_fold ?_)
    | (with_reducible refine keeps_foldl (fun _ _ _ => ?_) ?_)
    | split

theorem execResyncComplete_keeps {s0 s : State}  (h : Keeps s0 s) :
    KeepsR s0 (execResyncComplete s) := by
  unfold execResyncComplete
  try dsimp only
  repeat' first
    | with_reducible assumption
    | with_reducible refine keepsR_next ?_
    | with_reducible apply State.post_keeps
    | with_reducible apply State.bumpFld_keeps
    | with_reducible apply State.setFld_keeps
    | with_reducible apply State.complete_keeps
    | with_reducible apply State.settle_keeps
    | with_reducible apply State.setTine_keeps
    | with_reducible apply State.tineEntry_keeps
    | with_reducible refine keeps_ite (fun _ => ?_) (fun _ => ?_)
    | with_reducible refine keepsR_ite (fun _ => ?_) (fun _ => ?_)
    | (simp only [↓keeps_mk]; with_reducible refine keeps_fold ?_)
    | (with_reducible refine keeps_foldl (fun _ _ _ => ?_) ?_)
    | split

theorem execDrillDue_keeps {s0 s : State} (a0 : Bool) (h : Keeps s0 s) :
    KeepsR s0 (execDrillDue a0 s) := by
  unfold execDrillDue
  try dsimp only
  repeat' first
    | with_reducible assumption
    | with_reducible refine keepsR_next ?_
    | with_reducible apply State.post_keeps
    | with_reducible apply State.startDrill_keeps
    | with_reducible refine keeps_ite (fun _ => ?_) (fun _ => ?_)
    | with_reducible refine keepsR_ite (fun _ => ?_) (fun _ => ?_)
    | (simp only [↓keeps_mk]; with_reducible refine keeps_fold ?_)
    | split

theorem execRoleDrill_keeps {s0 s : State} (a0 : Ref) (a1 : Nat) (a2 : Bool) (h : Keeps s0 s) :
    KeepsR s0 (execRoleDrill a0 a1 a2 s) := by
  unfold execRoleDrill
  try dsimp only
  repeat' first
    | with_reducible assumption
    | with_reducible refine keepsR_next ?_
    | with_reducible apply State.drillPump_keeps
    | with_reducible apply State.latch_keeps
    | with_reducible apply State.done_keeps
    | with_reducible refine State.done_keeps ?_ _ (by with_reducible assumption)
    | with_reducible refine keeps_ite (fun _ => ?_) (fun _ => ?_)
    | with_reducible refine keepsR_ite (fun _ => ?_) (fun _ => ?_)
    | (simp only [↓keeps_mk]; with_reducible refine keeps_fold ?_)
    | split

/-! ## Ruling -/

theorem State.noCounter_keeps {s0 s : State}  (h : Keeps s0 s) :
    Keeps s0 (State.noCounter s) := by
  unfold State.noCounter
  try dsimp only
  repeat' first
    | with_reducible assumption
    | with_reducible apply State.postAs_keeps
    | with_reducible apply State.enterSafe_keeps
    | (simp only [↓keeps_mk]; with_reducible refine keeps_fold ?_)

theorem State.reloadCounter_keeps {s0 s : State} (a1 : Bool) (h : Keeps s0 s) :
    Keeps s0 (State.reloadCounter s a1) := by
  unfold State.reloadCounter
  try dsimp only
  repeat' first
    | with_reducible assumption
    | with_reducible apply State.postAs_keeps
    | with_reducible apply State.settle_keeps
    | with_reducible refine keeps_ite (fun _ => ?_) (fun _ => ?_)
    | (simp only [↓keeps_mk]; with_reducible refine keeps_fold ?_)
    | split

theorem State.checkCounters_keeps {s0 s : State}  (h : Keeps s0 s) :
    Keeps s0 (State.checkCounters s) := by
  unfold State.checkCounters
  try dsimp only
  repeat' first
    | with_reducible assumption
    | with_reducible apply State.postAs_keeps
    | with_reducible apply State.reloadCounter_keeps
    | with_reducible apply State.enterSafe_keeps
    | with_reducible apply State.noCounter_keeps
    | with_reducible refine keeps_ite (fun _ => ?_) (fun _ => ?_)
    | (simp only [↓keeps_mk]; with_reducible refine keeps_fold ?_)
    | split

theorem State.syncOutAt_keeps {s0 s : State} (a1 : Nat) (h : Keeps s0 s) :
    Keeps s0 (State.syncOutAt s a1) := by
  unfold State.syncOutAt
  try dsimp only
  repeat' first
    | with_reducible assumption
    | with_reducible refine keeps_ite (fun _ => ?_) (fun _ => ?_)
    | (simp only [↓keeps_mk]; with_reducible refine keeps_fold ?_)
    | split

theorem execLinePulse_keeps {s0 s : State}  (h : Keeps s0 s) :
    KeepsR s0 (execLinePulse s) := by
  unfold execLinePulse
  try dsimp only
  repeat' first
    | with_reducible assumption
    | with_reducible refine keepsR_next ?_
    | with_reducible apply State.horizonAdvance_keeps
    | with_reducible apply State.capWatch_keeps
    | with_reducible refine keeps_ite (fun _ => ?_) (fun _ => ?_)
    | with_reducible refine keepsR_ite (fun _ => ?_) (fun _ => ?_)
    | (simp only [↓keeps_mk]; with_reducible refine keeps_fold ?_)
    | split

theorem execLineAnnouncement_keeps {s0 s : State} (a0 : Nat) (a1 : Nat) (h : Keeps s0 s) :
    KeepsR s0 (execLineAnnouncement a0 a1 s) := by
  unfold execLineAnnouncement
  try dsimp only
  repeat' first
    | with_reducible assumption
    | with_reducible refine keepsR_next ?_
    | with_reducible apply State.post_keeps
    | with_reducible refine keeps_ite (fun _ => ?_) (fun _ => ?_)
    | with_reducible refine keepsR_ite (fun _ => ?_) (fun _ => ?_)
    | (simp only [↓keeps_mk]; with_reducible refine keeps_fold ?_)
    | split

theorem State.setClass_keeps {s0 s : State} (a1 : Nat) (h : Keeps s0 s) :
    Keeps s0 (State.setClass s a1) := by
  unfold State.setClass
  try dsimp only
  repeat' first
    | with_reducible assumption
    | with_reducible apply State.post_keeps
    | with_reducible refine keeps_ite (fun _ => ?_) (fun _ => ?_)
    | (simp only [↓keeps_mk]; with_reducible refine keeps_fold ?_)
    | split

theorem State.enterHoldover_keeps {s0 s : State}  (h : Keeps s0 s) :
    Keeps s0 (State.enterHoldover s) := by
  unfold State.enterHoldover
  try dsimp only
  repeat' first
    | with_reducible assumption
    | with_reducible apply State.setClass_keeps
    | with_reducible refine keeps_ite (fun _ => ?_) (fun _ => ?_)
    | (simp only [↓keeps_mk]; with_reducible refine keeps_fold ?_)
    | split

theorem State.reselect_keeps {s0 s : State}  (h : Keeps s0 s) :
    Keeps s0 (State.reselect s) := by
  unfold State.reselect
  try dsimp only
  repeat' first
    | with_reducible assumption
    | with_reducible apply State.post_keeps
    | with_reducible apply State.setClass_keeps
    | with_reducible apply State.enterHoldover_keeps
    | with_reducible refine keeps_ite (fun _ => ?_) (fun _ => ?_)
    | (simp only [↓keeps_mk]; with_reducible refine keeps_fold ?_)
    | split

theorem State.decideStep_keeps {s0 s : State} (a1 : Nat) (a2 : Src) (a3 : Option Ref) (h : Keeps s0 s) :
    Keeps s0 (State.decideStep s a1 a2 a3) := by
  unfold State.decideStep
  try dsimp only
  repeat' first
    | with_reducible assumption
    | (simp only [↓keeps_mk]; with_reducible refine keeps_fold ?_)

theorem State.sample_keeps {s0 s : State} (a1 : Src) (a2 : Int) (h : Keeps s0 s) :
    Keeps s0 (State.sample s a1 a2) := by
  unfold State.sample
  try dsimp only
  repeat' first
    | with_reducible assumption
    | with_reducible apply State.post_keeps
    | with_reducible apply State.decideStep_keeps
    | with_reducible apply State.colophon_keeps
    | with_reducible apply State.setClass_keeps
    | with_reducible apply State.reselect_keeps
    | with_reducible refine keeps_ite (fun _ => ?_) (fun _ => ?_)
    | (simp only [↓keeps_mk]; with_reducible refine keeps_fold ?_)
    | split

theorem State.loseSource_keeps {s0 s : State} (a1 : Src) (h : Keeps s0 s) :
    Keeps s0 (State.loseSource s a1) := by
  unfold State.loseSource
  try dsimp only
  repeat' first
    | with_reducible assumption
    | with_reducible apply State.post_keeps
    | with_reducible apply State.reselect_keeps
    | with_reducible refine keeps_ite (fun _ => ?_) (fun _ => ?_)
    | (simp only [↓keeps_mk]; with_reducible refine keeps_fold ?_)
    | split

theorem execSyncInEdge_keeps {s0 s : State}  (h : Keeps s0 s) :
    KeepsR s0 (execSyncInEdge s) := by
  unfold execSyncInEdge
  try dsimp only
  repeat' first
    | with_reducible assumption
    | with_reducible refine keepsR_next ?_
    | with_reducible apply State.loseSource_keeps
    | with_reducible apply State.sample_keeps
    | with_reducible refine keeps_ite (fun _ => ?_) (fun _ => ?_)
    | with_reducible refine keepsR_ite (fun _ => ?_) (fun _ => ?_)
    | (simp only [↓keeps_mk]; with_reducible refine keeps_fold ?_)
    | split

theorem execSyncInLossTimeout_keeps {s0 s : State}  (h : Keeps s0 s) :
    KeepsR s0 (execSyncInLossTimeout s) := by
  unfold execSyncInLossTimeout
  try dsimp only
  repeat' first
    | with_reducible assumption
    | with_reducible refine keepsR_next ?_
    | with_reducible apply State.loseSource_keeps
    | with_reducible refine keeps_ite (fun _ => ?_) (fun _ => ?_)
    | with_reducible refine keepsR_ite (fun _ => ?_) (fun _ => ?_)
    | split

theorem execTodArm_keeps {s0 s : State}  (h : Keeps s0 s) :
    KeepsR s0 (execTodArm s) := by
  unfold execTodArm
  try dsimp only
  repeat' first
    | with_reducible assumption
    | with_reducible refine keepsR_next ?_
    | (simp only [↓keeps_mk]; with_reducible refine keeps_fold ?_)

theorem execPtmDialogStart_keeps {s0 s : State}  (h : Keeps s0 s) :
    KeepsR s0 (execPtmDialogStart s) := by
  unfold execPtmDialogStart
  try dsimp only
  repeat' first
    | with_reducible assumption
    | with_reducible refine keepsR_next ?_
    | with_reducible apply State.emit_keeps
    | with_reducible refine keeps_ite (fun _ => ?_) (fun _ => ?_)
    | with_reducible refine keepsR_ite (fun _ => ?_) (fun _ => ?_)
    | (simp only [↓keeps_mk]; with_reducible refine keeps_fold ?_)
    | split

theorem execPtmResponse_keeps {s0 s : State} (a0 : Nat) (a1 : Int) (h : Keeps s0 s) :
    KeepsR s0 (execPtmResponse a0 a1 s) := by
  unfold execPtmResponse
  try dsimp only
  repeat' first
    | with_reducible assumption
    | with_reducible refine keepsR_next ?_
    | with_reducible apply State.sample_keeps
    | with_reducible refine keeps_ite (fun _ => ?_) (fun _ => ?_)
    | with_reducible refine keepsR_ite (fun _ => ?_) (fun _ => ?_)
    | (simp only [↓keeps_mk]; with_reducible refine keeps_fold ?_)
    | split

theorem State.dialogFails_keeps {s0 s : State} (a1 : Nat) (h : Keeps s0 s) :
    Keeps s0 (State.dialogFails s a1) := by
  unfold State.dialogFails
  try dsimp only
  repeat' first
    | with_reducible assumption
    | with_reducible apply State.loseSource_keeps
    | with_reducible refine keeps_ite (fun _ => ?_) (fun _ => ?_)
    | (simp only [↓keeps_mk]; with_reducible refine keeps_fold ?_)
    | split

theorem execPtmDialogTimeout_keeps {s0 s : State} (a0 : Nat) (h : Keeps s0 s) :
    KeepsR s0 (execPtmDialogTimeout a0 s) := by
  unfold execPtmDialogTimeout
  try dsimp only
  repeat' first
    | with_reducible assumption
    | with_reducible refine keepsR_next ?_
    | with_reducible apply State.dialogFails_keeps
    | with_reducible refine keeps_ite (fun _ => ?_) (fun _ => ?_)
    | with_reducible refine keepsR_ite (fun _ => ?_) (fun _ => ?_)
    | split

theorem execPtmDisabledByHost_keeps {s0 s : State} (a0 : Nat) (a1 : Bool) (h : Keeps s0 s) :
    KeepsR s0 (execPtmDisabledByHost a0 a1 s) := by
  unfold execPtmDisabledByHost
  try dsimp only
  repeat' first
    | with_reducible assumption
    | with_reducible refine keepsR_next ?_
    | with_reducible apply State.loseSource_keeps
    | with_reducible refine keeps_ite (fun _ => ?_) (fun _ => ?_)
    | with_reducible refine keepsR_ite (fun _ => ?_) (fun _ => ?_)
    | (simp only [↓keeps_mk]; with_reducible refine keeps_fold ?_)
    | split

theorem execRulingStepAuthorize_keeps {s0 s : State} (a0 : Ref) (a1 : Nat) (h : Keeps s0 s) :
    KeepsR s0 (execRulingStepAuthorize a0 a1 s) := by
  unfold execRulingStepAuthorize
  try dsimp only
  repeat' first
    | with_reducible assumption
    | with_reducible refine keepsR_next ?_
    | with_reducible apply State.decideStep_keeps
    | with_reducible apply State.lockFor_keeps
    | with_reducible apply State.latch_keeps
    | with_reducible apply State.done_keeps
    | with_reducible refine State.done_keeps ?_ _ (by with_reducible assumption)
    | with_reducible refine keeps_ite (fun _ => ?_) (fun _ => ?_)
    | with_reducible refine keepsR_ite (fun _ => ?_) (fun _ => ?_)
    | split

theorem execRulingStepApply_keeps {s0 s : State}  (h : Keeps s0 s) :
    KeepsR s0 (execRulingStepApply s) := by
  unfold execRulingStepApply
  try dsimp only
  repeat' first
    | with_reducible assumption
    | with_reducible refine keepsR_next ?_
    | with_reducible apply State.post_keeps
    | with_reducible apply State.complete_keeps
    | with_reducible apply State.colophon_keeps
    | with_reducible apply State.unlockTemp_keeps
    | with_reducible apply State.shiftTimes_keeps
    | with_reducible refine keeps_ite (fun _ => ?_) (fun _ => ?_)
    | with_reducible refine keepsR_ite (fun _ => ?_) (fun _ => ?_)
    | (simp only [↓keeps_mk]; with_reducible refine keeps_fold ?_)
    | split

theorem State.dropStep_keeps {s0 s : State}  (h : Keeps s0 s) :
    Keeps s0 (State.dropStep s) := by
  unfold State.dropStep
  try dsimp only
  repeat' first
    | with_reducible assumption
    | with_reducible refine keeps_ite (fun _ => ?_) (fun _ => ?_)
    | (simp only [↓keeps_mk]; with_reducible refine keeps_fold ?_)
    | split

theorem execRulNowLoRead_keeps {s0 s : State}  (h : Keeps s0 s) :
    KeepsR s0 (execRulNowLoRead s) := by
  unfold execRulNowLoRead
  try dsimp only
  repeat' first
    | with_reducible assumption
    | with_reducible refine keepsR_next ?_
    | with_reducible apply State.emit_keeps
    | (simp only [↓keeps_mk]; with_reducible refine keeps_fold ?_)

end Sys2Proof.Machine
end

