-- ==== Sys2Proof/Laws/KeepsLink.lean ====
section
/-! SUPPORT. What the operations of updates, the Brynnyx link, the lanes, the Folio and the GCE keep: one lemma each. -/

namespace Sys2Proof.Machine

/-! ## UpdateOps -/

theorem State.slotRecord_keeps {s0 s : State} (a1 : SlotRec → SlotRec) (a2 : Option Ref) (h : Keeps s0 s) :
    Keeps s0 (State.slotRecord s a1 a2) := by
  unfold State.slotRecord
  try dsimp only
  repeat' first
    | with_reducible assumption
    | with_reducible apply State.folio_keeps
    | (simp only [↓keeps_mk]; with_reducible refine keeps_fold ?_)

theorem State.noteRefusal_keeps {s0 s : State} (a1 : Nat) (h : Keeps s0 s) :
    Keeps s0 (State.noteRefusal s a1) := by
  unfold State.noteRefusal
  try dsimp only
  repeat' first
    | with_reducible assumption
    | with_reducible apply State.post_keeps
    | with_reducible apply State.setFld_keeps

theorem State.relayState_keeps {s0 s : State} (a1 : Nat) (a2 : Nat) (h : Keeps s0 s) :
    Keeps s0 (State.relayState s a1 a2) := by
  unfold State.relayState
  try dsimp only
  repeat' first
    | with_reducible assumption
    | with_reducible apply State.post_keeps
    | with_reducible apply State.setFld_keeps
    | with_reducible refine keeps_ite (fun _ => ?_) (fun _ => ?_)
    | split

theorem State.commitEnd_keeps {s0 s : State} (a1 : Commit) (a2 : Bool) (h : Keeps s0 s) :
    Keeps s0 (State.commitEnd s a1 a2) := by
  unfold State.commitEnd
  try dsimp only
  repeat' first
    | with_reducible assumption
    | with_reducible apply State.complete_keeps
    | with_reducible apply State.unlockTemp_keeps
    | with_reducible apply State.relayState_keeps
    | with_reducible refine keeps_ite (fun _ => ?_) (fun _ => ?_)
    | (simp only [↓keeps_mk]; with_reducible refine keeps_fold ?_)
    | split

theorem State.dropCommit_keeps {s0 s : State}  (h : Keeps s0 s) :
    Keeps s0 (State.dropCommit s) := by
  unfold State.dropCommit
  try dsimp only
  repeat' first
    | with_reducible assumption
    | (simp only [↓keeps_mk]; with_reducible refine keeps_fold ?_)

theorem State.startCommit_keeps {s0 s : State} (a1 : Commit) (h : Keeps s0 s) :
    Keeps s0 (State.startCommit s a1) := by
  unfold State.startCommit
  try dsimp only
  repeat' first
    | with_reducible assumption
    | with_reducible apply State.lockFor_keeps
    | with_reducible apply State.folio_keeps
    | with_reducible apply State.commitEnd_keeps
    | with_reducible refine keeps_ite (fun _ => ?_) (fun _ => ?_)
    | (simp only [↓keeps_mk]; with_reducible refine keeps_fold ?_)
    | split

theorem State.commitPackage_keeps {s0 s : State} (a1 : Option Ref) (a2 : Nat) (h : Keeps s0 s) :
    Keeps s0 (State.commitPackage s a1 a2) := by
  unfold State.commitPackage
  try dsimp only
  repeat' first
    | with_reducible assumption
    | with_reducible apply State.complete_keeps
    | with_reducible apply State.startCommit_keeps
    | with_reducible apply State.noteRefusal_keeps
    | with_reducible apply State.relayState_keeps
    | with_reducible refine keeps_ite (fun _ => ?_) (fun _ => ?_)
    | (simp only [↓keeps_mk]; with_reducible refine keeps_fold ?_)
    | split

theorem State.imageStored_keeps {s0 s : State}  (h : Keeps s0 s) :
    Keeps s0 (State.imageStored s) := by
  unfold State.imageStored
  try dsimp only
  repeat' first
    | with_reducible assumption
    | with_reducible apply State.dropCommit_keeps
    | with_reducible apply State.slotRecord_keeps
    | with_reducible apply State.commitEnd_keeps
    | with_reducible refine keeps_ite (fun _ => ?_) (fun _ => ?_)
    | (simp only [↓keeps_mk]; with_reducible refine keeps_fold ?_)
    | split

theorem State.loaderStored_keeps {s0 s : State} (a1 : Bool) (h : Keeps s0 s) :
    Keeps s0 (State.loaderStored s a1) := by
  unfold State.loaderStored
  try dsimp only
  repeat' first
    | with_reducible assumption
    | with_reducible apply State.dropCommit_keeps
    | with_reducible apply State.folio_keeps
    | with_reducible apply State.commitEnd_keeps
    | with_reducible refine keeps_ite (fun _ => ?_) (fun _ => ?_)
    | (simp only [↓keeps_mk]; with_reducible refine keeps_fold ?_)
    | split

theorem State.fleetStored_keeps {s0 s : State} (a1 : Bool) (h : Keeps s0 s) :
    Keeps s0 (State.fleetStored s a1) := by
  unfold State.fleetStored
  try dsimp only
  repeat' first
    | with_reducible assumption
    | with_reducible apply State.post_keeps
    | with_reducible apply State.dropCommit_keeps
    | with_reducible apply State.folio_keeps
    | with_reducible apply State.commitEnd_keeps
    | with_reducible refine keeps_ite (fun _ => ?_) (fun _ => ?_)
    | (simp only [↓keeps_mk]; with_reducible refine keeps_fold ?_)
    | split

/-! ## Update -/

theorem execFirmwareImageDownload_keeps {s0 s : State} (a0 : Ref) (a1 : Nat) (a2 : Nat) (a3 : List (Nat × PkgChunk)) (h : Keeps s0 s) :
    KeepsR s0 (execFirmwareImageDownload a0 a1 a2 a3 s) := by
  unfold execFirmwareImageDownload
  try dsimp only
  repeat' first
    | with_reducible assumption
    | with_reducible refine keepsR_next ?_
    | with_reducible apply State.latch_keeps
    | with_reducible apply State.done_keeps
    | with_reducible refine State.done_keeps ?_ _ (by with_reducible assumption)
    | with_reducible refine keeps_ite (fun _ => ?_) (fun _ => ?_)
    | with_reducible refine keepsR_ite (fun _ => ?_) (fun _ => ?_)
    | (simp only [↓keeps_mk]; with_reducible refine keeps_fold ?_)
    | (with_reducible refine keeps_foldl (fun _ _ _ => ?_) ?_)
    | split

theorem State.firmwareCommit_keeps {s0 s : State} (a1 : Ref) (a2 : Nat) (a3 : Nat) (h : Keeps s0 s) :
    KeepsR s0 (State.firmwareCommit s a1 a2 a3) := by
  unfold State.firmwareCommit
  try dsimp only
  repeat' first
    | with_reducible assumption
    | with_reducible refine keepsR_next ?_
    | with_reducible apply State.latch_keeps
    | with_reducible apply State.commitPackage_keeps
    | with_reducible apply State.done_keeps
    | with_reducible refine State.done_keeps ?_ _ (by with_reducible assumption)
    | with_reducible refine keeps_ite (fun _ => ?_) (fun _ => ?_)
    | with_reducible refine keepsR_ite (fun _ => ?_) (fun _ => ?_)
    | (simp only [↓keeps_mk]; with_reducible refine keeps_fold ?_)
    | split

theorem execFirmwareCommitStore_keeps {s0 s : State} (a0 : Ref) (a1 : Nat) (h : Keeps s0 s) :
    KeepsR s0 (execFirmwareCommitStore a0 a1 s) := by
  unfold execFirmwareCommitStore
  try dsimp only
  repeat' first
    | with_reducible assumption
    | with_reducible refine keepsR_next ?_
    | with_reducible apply State.firmwareCommit_keeps
    | with_reducible refine State.firmwareCommit_keeps ?_ _ (by with_reducible assumption)

theorem execFirmwareCommitActivate_keeps {s0 s : State} (a0 : Ref) (a1 : Nat) (h : Keeps s0 s) :
    KeepsR s0 (execFirmwareCommitActivate a0 a1 s) := by
  unfold execFirmwareCommitActivate
  try dsimp only
  repeat' first
    | with_reducible assumption
    | with_reducible refine keepsR_next ?_
    | with_reducible apply State.firmwareCommit_keeps
    | with_reducible refine State.firmwareCommit_keeps ?_ _ (by with_reducible assumption)

theorem execFirmwareCommitSlotActivate_keeps {s0 s : State} (a0 : Ref) (a1 : Nat) (a2 : Nat) (h : Keeps s0 s) :
    KeepsR s0 (execFirmwareCommitSlotActivate a0 a1 a2 s) := by
  unfold execFirmwareCommitSlotActivate
  try dsimp only
  repeat' first
    | with_reducible assumption
    | with_reducible refine keepsR_next ?_
    | with_reducible apply State.lockFor_keeps
    | with_reducible apply State.latch_keeps
    | with_reducible apply State.slotRecord_keeps
    | with_reducible apply State.done_keeps
    | with_reducible refine State.done_keeps ?_ _ (by with_reducible assumption)
    | with_reducible apply State.noteRefusal_keeps
    | with_reducible refine keeps_ite (fun _ => ?_) (fun _ => ?_)
    | with_reducible refine keepsR_ite (fun _ => ?_) (fun _ => ?_)
    | (simp only [↓keeps_mk]; with_reducible refine keeps_fold ?_)
    | split

theorem State.slotStored_keeps {s0 s : State} (a1 : Option Ref) (h : Keeps s0 s) :
    Keeps s0 (State.slotStored s a1) := by
  unfold State.slotStored
  try dsimp only
  repeat' first
    | with_reducible assumption
    | with_reducible apply State.complete_keeps
    | with_reducible apply State.unlockTemp_keeps
    | (simp only [↓keeps_mk]; with_reducible refine keeps_fold ?_)
    | split

theorem execTrialConfirm_keeps {s0 s : State} (a0 : Bool) (h : Keeps s0 s) :
    KeepsR s0 (execTrialConfirm a0 s) := by
  unfold execTrialConfirm
  try dsimp only
  repeat' first
    | with_reducible assumption
    | with_reducible refine keepsR_next ?_
    | with_reducible apply State.post_keeps
    | with_reducible apply State.lose_keeps
    | with_reducible apply State.colophon_keeps
    | with_reducible apply State.wakeEvent_keeps
    | with_reducible apply State.slotRecord_keeps
    | with_reducible apply State.folio_keeps
    | with_reducible refine keeps_ite (fun _ => ?_) (fun _ => ?_)
    | with_reducible refine keepsR_ite (fun _ => ?_) (fun _ => ?_)
    | (simp only [↓keeps_mk]; with_reducible refine keeps_fold ?_)
    | split

theorem State.rotateStep_keeps {s0 s : State}  (h : Keeps s0 s) :
    Keeps s0 (State.rotateStep s) := by
  unfold State.rotateStep
  try dsimp only
  repeat' first
    | with_reducible assumption
    | with_reducible apply State.post_keeps
    | with_reducible apply State.slotRecord_keeps
    | with_reducible refine keeps_ite (fun _ => ?_) (fun _ => ?_)
    | (simp only [↓keeps_mk]; with_reducible refine keeps_fold ?_)
    | split

theorem execRotationStepDone_keeps {s0 s : State} (a0 : Bool) (h : Keeps s0 s) :
    KeepsR s0 (execRotationStepDone a0 s) := by
  unfold execRotationStepDone
  try dsimp only
  repeat' first
    | with_reducible assumption
    | with_reducible refine keepsR_next ?_
    | with_reducible apply State.rotateStep_keeps
    | with_reducible refine keeps_ite (fun _ => ?_) (fun _ => ?_)
    | with_reducible refine keepsR_ite (fun _ => ?_) (fun _ => ?_)
    | split

/-! ## BxlOps -/

theorem State.bxlLinked_keeps {s0 s : State} (a1 : Bool) (h : Keeps s0 s) :
    Keeps s0 (State.bxlLinked s a1) := by
  unfold State.bxlLinked
  try dsimp only
  repeat' first
    | with_reducible assumption
    | with_reducible apply State.updBxl_keeps
    | with_reducible apply State.bxlSend_keeps
    | with_reducible refine keeps_ite (fun _ => ?_) (fun _ => ?_)
    | split

theorem State.bxlFrame_keeps {s0 s : State} (a1 : BxlIn) (a2 : Nat) (h : Keeps s0 s) :
    Keeps s0 (State.bxlFrame s a1 a2).1 := by
  unfold State.bxlFrame
  try dsimp only
  repeat' first
    | with_reducible assumption
    | with_reducible apply State.bxlPut_keeps
    | with_reducible apply State.bxlLinked_keeps
    | with_reducible apply State.updBxl_keeps
    | with_reducible refine keeps_ite (fun _ => ?_) (fun _ => ?_)
    | split

theorem State.follow_keeps {s0 s : State} (a1 : Nat) (a2 : Bool) (h : Keeps s0 s) :
    Keeps s0 (State.follow s a1 a2) := by
  unfold State.follow
  try dsimp only
  repeat' first
    | with_reducible assumption
    | with_reducible apply State.post_keeps
    | with_reducible refine keeps_ite (fun _ => ?_) (fun _ => ?_)
    | (simp only [↓keeps_mk]; with_reducible refine keeps_fold ?_)
    | split

theorem State.dropMaster_keeps {s0 s : State}  (h : Keeps s0 s) :
    Keeps s0 (State.dropMaster s) := by
  unfold State.dropMaster
  try dsimp only
  repeat' first
    | with_reducible assumption
    | with_reducible apply State.loseSource_keeps
    | (simp only [↓keeps_mk]; with_reducible refine keeps_fold ?_)

theorem State.sendEntry_keeps {s0 s : State} (a1 : SweepEntry) (h : Keeps s0 s) :
    Keeps s0 (State.sendEntry s a1) := by
  unfold State.sendEntry
  try dsimp only
  repeat' first
    | with_reducible assumption
    | with_reducible apply State.bxlSend_keeps
    | with_reducible refine keeps_ite (fun _ => ?_) (fun _ => ?_)
    | (with_reducible refine keeps_foldl (fun _ _ _ => ?_) ?_)
    | split

theorem State.closeReport_keeps {s0 s : State} (a1 : Option Nat) (h : Keeps s0 s) :
    Keeps s0 (State.closeReport s a1) := by
  unfold State.closeReport
  try dsimp only
  repeat' first
    | with_reducible assumption
    | with_reducible apply State.post_keeps
    | with_reducible apply State.complete_keeps
    | with_reducible apply State.emit_keeps
    | with_reducible refine keeps_ite (fun _ => ?_) (fun _ => ?_)
    | (simp only [↓keeps_mk]; with_reducible refine keeps_fold ?_)
    | split

theorem State.issueSweep_keeps {s0 s : State} (a1 : Option Ref) (a2 : Nat) (h : Keeps s0 s) :
    Keeps s0 (State.issueSweep s a1 a2) := by
  unfold State.issueSweep
  try dsimp only
  repeat' first
    | with_reducible assumption
    | with_reducible apply State.closeReport_keeps
    | with_reducible apply State.bxlSend_keeps
    | with_reducible refine keeps_ite (fun _ => ?_) (fun _ => ?_)
    | (simp only [↓keeps_mk]; with_reducible refine keeps_fold ?_)
    | split

theorem State.holdEntry_keeps {s0 s : State}  (h : Keeps s0 s) :
    Keeps s0 (State.holdEntry s) := by
  unfold State.holdEntry
  try dsimp only
  repeat' first
    | with_reducible assumption
    | with_reducible refine keeps_ite (fun _ => ?_) (fun _ => ?_)
    | (simp only [↓keeps_mk]; with_reducible refine keeps_fold ?_)
    | split

theorem State.relayOne_keeps {s0 s : State}  (h : Keeps s0 s) :
    Keeps s0 (State.relayOne s) := by
  unfold State.relayOne
  try dsimp only
  repeat' first
    | with_reducible assumption
    | with_reducible apply State.bxlSend_keeps
    | with_reducible refine keeps_ite (fun _ => ?_) (fun _ => ?_)
    | (simp only [↓keeps_mk]; with_reducible refine keeps_fold ?_)
    | split

theorem State.relaySend_keeps {s0 s : State}  (h : Keeps s0 s) :
    Keeps s0 (State.relaySend s) := by
  unfold State.relaySend
  try dsimp only
  repeat' first
    | with_reducible assumption
    | with_reducible apply State.relayOne_keeps

theorem State.relayEnd_keeps {s0 s : State} (a1 : Bool) (h : Keeps s0 s) :
    Keeps s0 (State.relayEnd s a1) := by
  unfold State.relayEnd
  try dsimp only
  repeat' first
    | with_reducible assumption
    | with_reducible apply State.post_keeps
    | with_reducible apply State.complete_keeps
    | with_reducible apply State.bxlSend_keeps
    | with_reducible refine keeps_ite (fun _ => ?_) (fun _ => ?_)
    | (simp only [↓keeps_mk]; with_reducible refine keeps_fold ?_)
    | split

theorem State.relayAgain_keeps {s0 s : State} (a1 : Nat) (h : Keeps s0 s) :
    Keeps s0 (State.relayAgain s a1) := by
  unfold State.relayAgain
  try dsimp only
  repeat' first
    | with_reducible assumption
    | with_reducible apply State.relayEnd_keeps
    | with_reducible apply State.bxlSend_keeps
    | with_reducible refine keeps_ite (fun _ => ?_) (fun _ => ?_)
    | (simp only [↓keeps_mk]; with_reducible refine keeps_fold ?_)
    | split

/-! ## Bxl -/

theorem execIdle_keeps {s0 s : State} (a0 : BxlIn) (h : Keeps s0 s) :
    KeepsR s0 (execIdle a0 s) := by
  unfold execIdle
  try dsimp only
  repeat' first
    | with_reducible assumption
    | with_reducible refine keepsR_next ?_
    | with_reducible apply State.bxlFrame_keeps
    | with_reducible refine keeps_pair (by with_reducible assumption) (State.bxlFrame_keeps _ _ ?_)

theorem execEnum_keeps {s0 s : State} (a0 : BxlIn) (a1 : Nat) (h : Keeps s0 s) :
    KeepsR s0 (execEnum a0 a1 s) := by
  unfold execEnum
  try dsimp only
  repeat' first
    | with_reducible assumption
    | with_reducible refine keepsR_next ?_
    | with_reducible apply State.post_keeps
    | with_reducible apply State.bxlFrame_keeps
    | with_reducible refine keeps_pair (by with_reducible assumption) (State.bxlFrame_keeps _ _ ?_)
    | with_reducible apply State.bxlSend_keeps
    | with_reducible refine keeps_ite (fun _ => ?_) (fun _ => ?_)
    | with_reducible refine keepsR_ite (fun _ => ?_) (fun _ => ?_)
    | (simp only [↓keeps_mk]; with_reducible refine keeps_fold ?_)
    | split

theorem execBxlBadFrame_keeps {s0 s : State} (a0 : Bool) (h : Keeps s0 s) :
    KeepsR s0 (execBxlBadFrame a0 s) := by
  unfold execBxlBadFrame
  try dsimp only
  repeat' first
    | with_reducible assumption
    | with_reducible refine keepsR_next ?_
    | with_reducible apply State.bumpFld_keeps
    | with_reducible apply State.updBxl_keeps
    | with_reducible refine keeps_ite (fun _ => ?_) (fun _ => ?_)
    | with_reducible refine keepsR_ite (fun _ => ?_) (fun _ => ?_)
    | split

theorem State.portDown_keeps {s0 s : State} (a1 : Bool) (h : Keeps s0 s) :
    Keeps s0 (State.portDown s a1) := by
  unfold State.portDown
  try dsimp only
  repeat' first
    | with_reducible assumption
    | with_reducible apply State.post_keeps
    | with_reducible apply State.dropMaster_keeps
    | with_reducible apply State.updBxl_keeps
    | with_reducible apply State.bxlSend_keeps
    | with_reducible refine keeps_ite (fun _ => ?_) (fun _ => ?_)
    | (simp only [↓keeps_mk]; with_reducible refine keeps_fold ?_)
    | split

theorem execBxlPortLoss_keeps {s0 s : State} (a0 : Bool) (h : Keeps s0 s) :
    KeepsR s0 (execBxlPortLoss a0 s) := by
  unfold execBxlPortLoss
  try dsimp only
  repeat' first
    | with_reducible assumption
    | with_reducible refine keepsR_next ?_
    | with_reducible apply State.holdEntry_keeps
    | with_reducible apply State.portDown_keeps
    | with_reducible apply State.closeReport_keeps
    | with_reducible apply State.bxlSend_keeps
    | with_reducible refine keeps_ite (fun _ => ?_) (fun _ => ?_)
    | with_reducible refine keepsR_ite (fun _ => ?_) (fun _ => ?_)
    | (simp only [↓keeps_mk]; with_reducible refine keeps_fold ?_)
    | split

theorem execSync_keeps {s0 s : State} (a0 : BxlIn) (a1 : Nat) (a2 : Nat) (a3 : Nat) (a4 : Nat) (a5 : Nat) (a6 : Nat) (h : Keeps s0 s) :
    KeepsR s0 (execSync a0 a1 a2 a3 a4 a5 a6 s) := by
  unfold execSync
  try dsimp only
  repeat' first
    | with_reducible assumption
    | with_reducible refine keepsR_next ?_
    | with_reducible apply State.follow_keeps
    | with_reducible apply State.bxlFrame_keeps
    | with_reducible refine keeps_pair (by with_reducible assumption) (State.bxlFrame_keeps _ _ ?_)
    | with_reducible apply State.bxlSend_keeps
    | with_reducible refine keeps_ite (fun _ => ?_) (fun _ => ?_)
    | with_reducible refine keepsR_ite (fun _ => ?_) (fun _ => ?_)
    | (simp only [↓keeps_mk]; with_reducible refine keeps_fold ?_)
    | split

theorem execDreq_keeps {s0 s : State} (a0 : BxlIn) (a1 : Nat) (h : Keeps s0 s) :
    KeepsR s0 (execDreq a0 a1 s) := by
  unfold execDreq
  try dsimp only
  repeat' first
    | with_reducible assumption
    | with_reducible refine keepsR_next ?_
    | with_reducible apply State.bxlFrame_keeps
    | with_reducible refine keeps_pair (by with_reducible assumption) (State.bxlFrame_keeps _ _ ?_)
    | with_reducible apply State.bxlSend_keeps
    | with_reducible refine keeps_ite (fun _ => ?_) (fun _ => ?_)
    | with_reducible refine keepsR_ite (fun _ => ?_) (fun _ => ?_)
    | split

theorem execDresp_keeps {s0 s : State} (a0 : BxlIn) (a1 : Nat) (h : Keeps s0 s) :
    KeepsR s0 (execDresp a0 a1 s) := by
  unfold execDresp
  try dsimp only
  repeat' first
    | with_reducible assumption
    | with_reducible refine keepsR_next ?_
    | with_reducible apply State.loseSource_keeps
    | with_reducible apply State.sample_keeps
    | with_reducible apply State.setFld_keeps
    | with_reducible apply State.bxlFrame_keeps
    | with_reducible refine keeps_pair (by with_reducible assumption) (State.bxlFrame_keeps _ _ ?_)
    | with_reducible apply State.bxlSend_keeps
    | with_reducible refine keeps_ite (fun _ => ?_) (fun _ => ?_)
    | with_reducible refine keepsR_ite (fun _ => ?_) (fun _ => ?_)
    | (simp only [↓keeps_mk]; with_reducible refine keeps_fold ?_)
    | split

theorem execBxlTimeExchangeStart_keeps {s0 s : State}  (h : Keeps s0 s) :
    KeepsR s0 (execBxlTimeExchangeStart s) := by
  unfold execBxlTimeExchangeStart
  try dsimp only
  repeat' first
    | with_reducible assumption
    | with_reducible refine keepsR_next ?_
    | with_reducible apply State.bxlSend_keeps
    | with_reducible refine keeps_ite (fun _ => ?_) (fun _ => ?_)
    | with_reducible refine keepsR_ite (fun _ => ?_) (fun _ => ?_)
    | (simp only [↓keeps_mk]; with_reducible refine keeps_fold ?_)
    | split

theorem execBxlDrespTimeout_keeps {s0 s : State}  (h : Keeps s0 s) :
    KeepsR s0 (execBxlDrespTimeout s) := by
  unfold execBxlDrespTimeout
  try dsimp only
  repeat' first
    | with_reducible assumption
    | with_reducible refine keepsR_next ?_
    | with_reducible refine keeps_ite (fun _ => ?_) (fun _ => ?_)
    | with_reducible refine keepsR_ite (fun _ => ?_) (fun _ => ?_)
    | (simp only [↓keeps_mk]; with_reducible refine keeps_fold ?_)
    | split

theorem execClaim_keeps {s0 s : State} (a0 : BxlIn) (a1 : Nat) (h : Keeps s0 s) :
    KeepsR s0 (execClaim a0 a1 s) := by
  unfold execClaim
  try dsimp only
  repeat' first
    | with_reducible assumption
    | with_reducible refine keepsR_next ?_
    | with_reducible apply State.follow_keeps
    | with_reducible apply State.bxlRelay_keeps
    | with_reducible apply State.bxlFrame_keeps
    | with_reducible refine keeps_pair (by with_reducible assumption) (State.bxlFrame_keeps _ _ ?_)
    | with_reducible apply State.bxlSend_keeps
    | with_reducible refine keeps_ite (fun _ => ?_) (fun _ => ?_)
    | with_reducible refine keepsR_ite (fun _ => ?_) (fun _ => ?_)
    | split

theorem execContended_keeps {s0 s : State} (a0 : BxlIn) (a1 : Nat) (h : Keeps s0 s) :
    KeepsR s0 (execContended a0 a1 s) := by
  unfold execContended
  try dsimp only
  repeat' first
    | with_reducible assumption
    | with_reducible refine keepsR_next ?_
    | with_reducible apply State.post_keeps
    | with_reducible apply State.bxlRelay_keeps
    | with_reducible apply State.bxlFrame_keeps
    | with_reducible refine keeps_pair (by with_reducible assumption) (State.bxlFrame_keeps _ _ ?_)
    | with_reducible refine keeps_ite (fun _ => ?_) (fun _ => ?_)
    | with_reducible refine keepsR_ite (fun _ => ?_) (fun _ => ?_)
    | (simp only [↓keeps_mk]; with_reducible refine keeps_fold ?_)
    | split

theorem execNomaster_keeps {s0 s : State} (a0 : BxlIn) (h : Keeps s0 s) :
    KeepsR s0 (execNomaster a0 s) := by
  unfold execNomaster
  try dsimp only
  repeat' first
    | with_reducible assumption
    | with_reducible refine keepsR_next ?_
    | with_reducible apply State.holdEntry_keeps
    | with_reducible apply State.bxlRelay_keeps
    | with_reducible apply State.dropMaster_keeps
    | with_reducible apply State.bxlFrame_keeps
    | with_reducible refine keeps_pair (by with_reducible assumption) (State.bxlFrame_keeps _ _ ?_)
    | with_reducible refine keeps_ite (fun _ => ?_) (fun _ => ?_)
    | with_reducible refine keepsR_ite (fun _ => ?_) (fun _ => ?_)
    | split

theorem execClaimRepeat_keeps {s0 s : State}  (h : Keeps s0 s) :
    KeepsR s0 (execClaimRepeat s) := by
  unfold execClaimRepeat
  try dsimp only
  repeat' first
    | with_reducible assumption
    | with_reducible refine keepsR_next ?_
    | with_reducible apply State.post_keeps
    | with_reducible apply State.bxlSend_keeps
    | with_reducible refine keeps_ite (fun _ => ?_) (fun _ => ?_)
    | with_reducible refine keepsR_ite (fun _ => ?_) (fun _ => ?_)
    | (simp only [↓keeps_mk]; with_reducible refine keeps_fold ?_)
    | split

theorem execCut_keeps {s0 s : State} (a0 : BxlIn) (a1 : Nat) (a2 : Nat) (a3 : Nat) (a4 : Bool) (h : Keeps s0 s) :
    KeepsR s0 (execCut a0 a1 a2 a3 a4 s) := by
  unfold execCut
  try dsimp only
  repeat' first
    | with_reducible assumption
    | with_reducible refine keepsR_next ?_
    | with_reducible apply State.noteCut_keeps
    | with_reducible apply State.acceptCut_keeps
    | with_reducible apply State.bxlRelay_keeps
    | with_reducible apply State.bxlFrame_keeps
    | with_reducible refine keeps_pair (by with_reducible assumption) (State.bxlFrame_keeps _ _ ?_)
    | with_reducible apply State.refuseCut_keeps
    | with_reducible refine keeps_ite (fun _ => ?_) (fun _ => ?_)
    | with_reducible refine keepsR_ite (fun _ => ?_) (fun _ => ?_)
    | split

theorem execSweepReq_keeps {s0 s : State} (a0 : BxlIn) (a1 : Nat) (h : Keeps s0 s) :
    KeepsR s0 (execSweepReq a0 a1 s) := by
  unfold execSweepReq
  try dsimp only
  repeat' first
    | with_reducible assumption
    | with_reducible refine keepsR_next ?_
    | with_reducible apply State.bxlRelay_keeps
    | with_reducible apply State.bxlFrame_keeps
    | with_reducible refine keeps_pair (by with_reducible assumption) (State.bxlFrame_keeps _ _ ?_)
    | with_reducible apply State.sendEntry_keeps
    | with_reducible refine keeps_ite (fun _ => ?_) (fun _ => ?_)
    | with_reducible refine keepsR_ite (fun _ => ?_) (fun _ => ?_)
    | (simp only [↓keeps_mk]; with_reducible refine keeps_fold ?_)
    | split

theorem execSweepEnt_keeps {s0 s : State} (a0 : BxlIn) (a1 : Nat) (a2 : SweepEntry) (h : Keeps s0 s) :
    KeepsR s0 (execSweepEnt a0 a1 a2 s) := by
  unfold execSweepEnt
  try dsimp only
  repeat' first
    | with_reducible assumption
    | with_reducible refine keepsR_next ?_
    | with_reducible apply State.bxlRelay_keeps
    | with_reducible apply State.bxlFrame_keeps
    | with_reducible refine keeps_pair (by with_reducible assumption) (State.bxlFrame_keeps _ _ ?_)
    | with_reducible refine keeps_ite (fun _ => ?_) (fun _ => ?_)
    | with_reducible refine keepsR_ite (fun _ => ?_) (fun _ => ?_)
    | (simp only [↓keeps_mk]; with_reducible refine keeps_fold ?_)
    | split

theorem execSweepEnd_keeps {s0 s : State} (a0 : BxlIn) (a1 : Option Nat) (h : Keeps s0 s) :
    KeepsR s0 (execSweepEnd a0 a1 s) := by
  unfold execSweepEnd
  try dsimp only
  repeat' first
    | with_reducible assumption
    | with_reducible refine keepsR_next ?_
    | with_reducible apply State.closeReport_keeps
    | with_reducible apply State.bxlRelay_keeps
    | with_reducible apply State.bxlFrame_keeps
    | with_reducible refine keeps_pair (by with_reducible assumption) (State.bxlFrame_keeps _ _ ?_)
    | with_reducible refine keeps_ite (fun _ => ?_) (fun _ => ?_)
    | with_reducible refine keepsR_ite (fun _ => ?_) (fun _ => ?_)
    | (simp only [↓keeps_mk]; with_reducible refine keeps_fold ?_)
    | split

theorem execChainSweepMeasure_keeps {s0 s : State} (a0 : Ref) (a1 : Nat) (h : Keeps s0 s) :
    KeepsR s0 (execChainSweepMeasure a0 a1 s) := by
  unfold execChainSweepMeasure
  try dsimp only
  repeat' first
    | with_reducible assumption
    | with_reducible refine keepsR_next ?_
    | with_reducible apply State.latch_keeps
    | with_reducible apply State.issueSweep_keeps
    | with_reducible apply State.done_keeps
    | with_reducible refine State.done_keeps ?_ _ (by with_reducible assumption)
    | with_reducible refine keeps_ite (fun _ => ?_) (fun _ => ?_)
    | with_reducible refine keepsR_ite (fun _ => ?_) (fun _ => ?_)
    | (simp only [↓keeps_mk]; with_reducible refine keeps_fold ?_)
    | split

theorem execSweepTimeout_keeps {s0 s : State}  (h : Keeps s0 s) :
    KeepsR s0 (execSweepTimeout s) := by
  unfold execSweepTimeout
  try dsimp only
  repeat' first
    | with_reducible assumption
    | with_reducible refine keepsR_next ?_
    | with_reducible apply State.closeReport_keeps
    | with_reducible refine keeps_ite (fun _ => ?_) (fun _ => ?_)
    | with_reducible refine keepsR_ite (fun _ => ?_) (fun _ => ?_)
    | (with_reducible refine keeps_foldl (fun _ _ _ => ?_) ?_)
    | split

theorem execSweepRetry_keeps {s0 s : State}  (h : Keeps s0 s) :
    KeepsR s0 (execSweepRetry s) := by
  unfold execSweepRetry
  try dsimp only
  repeat' first
    | with_reducible assumption
    | with_reducible refine keepsR_next ?_
    | with_reducible apply State.issueSweep_keeps
    | with_reducible refine keeps_ite (fun _ => ?_) (fun _ => ?_)
    | with_reducible refine keepsR_ite (fun _ => ?_) (fun _ => ?_)
    | (simp only [↓keeps_mk]; with_reducible refine keeps_fold ?_)
    | split

theorem execHeldEntryExpire_keeps {s0 s : State}  (h : Keeps s0 s) :
    KeepsR s0 (execHeldEntryExpire s) := by
  unfold execHeldEntryExpire
  try dsimp only
  repeat' first
    | with_reducible assumption
    | with_reducible refine keepsR_next ?_
    | with_reducible refine keeps_ite (fun _ => ?_) (fun _ => ?_)
    | with_reducible refine keepsR_ite (fun _ => ?_) (fun _ => ?_)
    | (simp only [↓keeps_mk]; with_reducible refine keeps_fold ?_)
    | split

theorem execChainSweepRelay_keeps {s0 s : State} (a0 : Ref) (a1 : Nat) (h : Keeps s0 s) :
    KeepsR s0 (execChainSweepRelay a0 a1 s) := by
  unfold execChainSweepRelay
  try dsimp only
  repeat' first
    | with_reducible assumption
    | with_reducible refine keepsR_next ?_
    | with_reducible apply State.relayEnd_keeps
    | with_reducible apply State.latch_keeps
    | with_reducible apply State.done_keeps
    | with_reducible refine State.done_keeps ?_ _ (by with_reducible assumption)
    | with_reducible apply State.relaySend_keeps
    | with_reducible apply State.bxlSend_keeps
    | with_reducible refine keeps_ite (fun _ => ?_) (fun _ => ?_)
    | with_reducible refine keepsR_ite (fun _ => ?_) (fun _ => ?_)
    | (simp only [↓keeps_mk]; with_reducible refine keeps_fold ?_)
    | split

theorem execRelayStart_keeps {s0 s : State} (a0 : BxlIn) (a1 : Nat) (a2 : Nat) (h : Keeps s0 s) :
    KeepsR s0 (execRelayStart a0 a1 a2 s) := by
  unfold execRelayStart
  try dsimp only
  repeat' first
    | with_reducible assumption
    | with_reducible refine keepsR_next ?_
    | with_reducible apply State.setFld_keeps
    | with_reducible apply State.bxlRelay_keeps
    | with_reducible apply State.bxlFrame_keeps
    | with_reducible refine keeps_pair (by with_reducible assumption) (State.bxlFrame_keeps _ _ ?_)
    | with_reducible refine keeps_ite (fun _ => ?_) (fun _ => ?_)
    | with_reducible refine keepsR_ite (fun _ => ?_) (fun _ => ?_)
    | (simp only [↓keeps_mk]; with_reducible refine keeps_fold ?_)
    | split

theorem State.chunkPassed_keeps {s0 s : State} (a1 : Nat) (a2 : Nat) (a3 : Nat) (a4 : PkgChunk) (h : Keeps s0 s) :
    Keeps s0 (State.chunkPassed s a1 a2 a3 a4) := by
  unfold State.chunkPassed
  try dsimp only
  repeat' first
    | with_reducible assumption
    | with_reducible apply State.setFld_keeps
    | with_reducible apply State.commitPackage_keeps
    | with_reducible apply State.relaySend_keeps
    | with_reducible apply State.bxlSend_keeps
    | with_reducible refine keeps_ite (fun _ => ?_) (fun _ => ?_)
    | (simp only [↓keeps_mk]; with_reducible refine keeps_fold ?_)
    | split

theorem execChunk_keeps {s0 s : State} (a0 : BxlIn) (a1 : Nat) (a2 : PkgChunk) (h : Keeps s0 s) :
    KeepsR s0 (execChunk a0 a1 a2 s) := by
  unfold execChunk
  try dsimp only
  repeat' first
    | with_reducible assumption
    | with_reducible refine keepsR_next ?_
    | with_reducible apply State.post_keeps
    | with_reducible apply State.chunkPassed_keeps
    | with_reducible apply State.bxlFrame_keeps
    | with_reducible refine keeps_pair (by with_reducible assumption) (State.bxlFrame_keeps _ _ ?_)
    | with_reducible apply State.bxlSend_keeps
    | with_reducible refine keeps_ite (fun _ => ?_) (fun _ => ?_)
    | with_reducible refine keepsR_ite (fun _ => ?_) (fun _ => ?_)
    | split

theorem execAck_keeps {s0 s : State} (a0 : BxlIn) (a1 : Nat) (a2 : Bool) (h : Keeps s0 s) :
    KeepsR s0 (execAck a0 a1 a2 s) := by
  unfold execAck
  try dsimp only
  repeat' first
    | with_reducible assumption
    | with_reducible refine keepsR_next ?_
    | with_reducible apply State.relayEnd_keeps
    | with_reducible apply State.relayAgain_keeps
    | with_reducible apply State.bxlFrame_keeps
    | with_reducible refine keeps_pair (by with_reducible assumption) (State.bxlFrame_keeps _ _ ?_)
    | with_reducible apply State.relaySend_keeps
    | with_reducible refine keeps_ite (fun _ => ?_) (fun _ => ?_)
    | with_reducible refine keepsR_ite (fun _ => ?_) (fun _ => ?_)
    | (simp only [↓keeps_mk]; with_reducible refine keeps_fold ?_)
    | split

theorem execRelayAbort_keeps {s0 s : State} (a0 : BxlIn) (h : Keeps s0 s) :
    KeepsR s0 (execRelayAbort a0 s) := by
  unfold execRelayAbort
  try dsimp only
  repeat' first
    | with_reducible assumption
    | with_reducible refine keepsR_next ?_
    | with_reducible apply State.post_keeps
    | with_reducible apply State.setFld_keeps
    | with_reducible apply State.bxlRelay_keeps
    | with_reducible apply State.bxlFrame_keeps
    | with_reducible refine keeps_pair (by with_reducible assumption) (State.bxlFrame_keeps _ _ ?_)
    | with_reducible refine keeps_ite (fun _ => ?_) (fun _ => ?_)
    | with_reducible refine keepsR_ite (fun _ => ?_) (fun _ => ?_)
    | (simp only [↓keeps_mk]; with_reducible refine keeps_fold ?_)
    | split

theorem execChunkAckTimeout_keeps {s0 s : State} (a0 : Nat) (h : Keeps s0 s) :
    KeepsR s0 (execChunkAckTimeout a0 s) := by
  unfold execChunkAckTimeout
  try dsimp only
  repeat' first
    | with_reducible assumption
    | with_reducible refine keepsR_next ?_
    | with_reducible apply State.relayAgain_keeps
    | with_reducible refine keeps_ite (fun _ => ?_) (fun _ => ?_)
    | with_reducible refine keepsR_ite (fun _ => ?_) (fun _ => ?_)
    | split

/-! ## Cipher -/

theorem State.updLane_keeps {s0 s : State} (l : Nat) (f : Lane → Lane) (h : Keeps s0 s) : Keeps s0 (State.updLane s l f) := by
  obtain ⟨a, b, c, d, e, g, i, j⟩ := h
  exact ⟨a, b, c, d, e, g, by simp only [State.updLane, List.length_modify]; exact i, j⟩

theorem State.checkLanes_keeps {s0 s : State}  (h : Keeps s0 s) :
    Keeps s0 (State.checkLanes s) := by
  unfold State.checkLanes
  try dsimp only
  repeat' first
    | with_reducible assumption
    | with_reducible apply State.enterSafe_keeps
    | with_reducible apply State.settle_keeps
    | with_reducible refine keeps_ite (fun _ => ?_) (fun _ => ?_)
    | split

theorem State.maskLane_keeps {s0 s : State} (a1 : Nat) (h : Keeps s0 s) :
    Keeps s0 (State.maskLane s a1) := by
  unfold State.maskLane
  try dsimp only
  repeat' first
    | with_reducible assumption
    | with_reducible apply State.post_keeps
    | with_reducible apply State.updLane_keeps
    | with_reducible apply State.checkLanes_keeps

theorem State.laneMismatch_keeps {s0 s : State} (a1 : Nat) (h : Keeps s0 s) :
    Keeps s0 (State.laneMismatch s a1) := by
  unfold State.laneMismatch
  try dsimp only
  repeat' first
    | with_reducible assumption
    | with_reducible apply State.post_keeps
    | with_reducible apply State.updLane_keeps
    | with_reducible apply State.maskLane_keeps
    | with_reducible apply State.checkLanes_keeps
    | with_reducible refine keeps_ite (fun _ => ?_) (fun _ => ?_)
    | split

theorem execXtsUnitDone_keeps {s0 s : State} (a0 : Ref) (a1 : Nat) (a2 : UnitEnd) (h : Keeps s0 s) :
    KeepsR s0 (execXtsUnitDone a0 a1 a2 s) := by
  unfold execXtsUnitDone
  try dsimp only
  repeat' first
    | with_reducible assumption
    | with_reducible refine keepsR_next ?_
    | with_reducible apply State.updCmd_keeps
    | with_reducible apply State.failRead_keeps
    | with_reducible apply State.settleCmds_keeps
    | with_reducible apply State.failWrite_keeps
    | with_reducible apply State.cellErr_keeps
    | with_reducible apply State.verifyBlock_keeps
    | with_reducible apply State.laneMismatch_keeps
    | with_reducible refine keeps_ite (fun _ => ?_) (fun _ => ?_)
    | with_reducible refine keepsR_ite (fun _ => ?_) (fun _ => ?_)
    | (simp only [↓keeps_mk]; with_reducible refine keeps_fold ?_)
    | split

theorem execLaneKatDone_keeps {s0 s : State} (a0 : Nat) (a1 : Bool) (h : Keeps s0 s) :
    KeepsR s0 (execLaneKatDone a0 a1 s) := by
  unfold execLaneKatDone
  try dsimp only
  repeat' first
    | with_reducible assumption
    | with_reducible refine keepsR_next ?_
    | with_reducible apply State.updLane_keeps
    | with_reducible apply State.maskLane_keeps
    | with_reducible refine keeps_ite (fun _ => ?_) (fun _ => ?_)
    | with_reducible refine keepsR_ite (fun _ => ?_) (fun _ => ?_)
    | split

theorem execInkwellGrant_keeps {s0 s : State}  (h : Keeps s0 s) :
    KeepsR s0 (execInkwellGrant s) := by
  unfold execInkwellGrant
  try dsimp only
  repeat' first
    | with_reducible assumption
    | with_reducible refine keepsR_next ?_
    | with_reducible apply State.updCmd_keeps
    | with_reducible apply State.giveWriteSeg_keeps
    | with_reducible apply State.dropWait_keeps
    | with_reducible apply State.startIu_keeps
    | with_reducible apply State.askSegs_keeps
    | with_reducible apply State.settleCmds_keeps
    | with_reducible apply State.inkServed_keeps
    | with_reducible apply State.copyChain_keeps
    | with_reducible refine keeps_pair (by with_reducible assumption) (State.copyChain_keeps _ _ ?_)
    | with_reducible apply State.askReads_keeps
    | with_reducible apply State.alloc_keeps
    | with_reducible refine keeps_pair (by with_reducible assumption) (State.alloc_keeps _ _ _ ?_)
    | with_reducible apply State.placePages_keeps
    | with_reducible apply State.giveTwin_keeps
    | with_reducible refine keeps_ite (fun _ => ?_) (fun _ => ?_)
    | with_reducible refine keepsR_ite (fun _ => ?_) (fun _ => ?_)
    | (with_reducible refine keeps_foldl (fun _ _ _ => ?_) ?_)
    | split

theorem execInkwellWaitPad_keeps {s0 s : State}  (h : Keeps s0 s) :
    KeepsR s0 (execInkwellWaitPad s) := by
  unfold execInkwellWaitPad
  try dsimp only
  repeat' first
    | with_reducible assumption
    | with_reducible refine keepsR_next ?_
    | with_reducible apply State.pump_keeps
    | with_reducible apply State.padOpen_keeps
    | with_reducible refine keeps_ite (fun _ => ?_) (fun _ => ?_)
    | with_reducible refine keepsR_ite (fun _ => ?_) (fun _ => ?_)
    | (with_reducible refine keeps_foldl (fun _ _ _ => ?_) ?_)
    | split

theorem execInkwellAuditPass_keeps {s0 s : State} (a0 : Bool) (h : Keeps s0 s) :
    KeepsR s0 (execInkwellAuditPass a0 s) := by
  unfold execInkwellAuditPass
  try dsimp only
  repeat' first
    | with_reducible assumption
    | with_reducible refine keepsR_next ?_
    | with_reducible apply State.post_keeps
    | with_reducible refine keeps_ite (fun _ => ?_) (fun _ => ?_)
    | with_reducible refine keepsR_ite (fun _ => ?_) (fun _ => ?_)
    | (simp only [↓keeps_mk]; with_reducible refine keeps_fold ?_)
    | (with_reducible refine keeps_foldl (fun _ _ _ => ?_) ?_)
    | split

theorem State.askWork_keeps {s0 s : State} (a1 : Nat) (a2 : Nat) (h : Keeps s0 s) :
    Keeps s0 (State.askWork s a1 a2) := by
  unfold State.askWork
  try dsimp only
  repeat' first
    | with_reducible assumption
    | with_reducible apply State.waitCells_keeps
    | with_reducible apply State.alloc_keeps
    | with_reducible refine keeps_pair (by with_reducible assumption) (State.alloc_keeps _ _ _ ?_)
    | with_reducible refine keeps_ite (fun _ => ?_) (fun _ => ?_)
    | split

theorem State.endWork_keeps {s0 s : State} (a1 : Nat) (h : Keeps s0 s) :
    Keeps s0 (State.endWork s a1) := by
  unfold State.endWork
  try dsimp only
  repeat' first
    | with_reducible assumption
    | with_reducible apply State.releaseAll_keeps
    | with_reducible refine keeps_ite (fun _ => ?_) (fun _ => ?_)
    | (simp only [↓keeps_mk]; with_reducible refine keeps_fold ?_)
    | (with_reducible refine keeps_foldl (fun _ _ _ => ?_) ?_)
    | split

theorem execOwnerRegister_keeps {s0 s : State} (a0 : Registration) (a1 : Option Nat) (h : Keeps s0 s) :
    KeepsR s0 (execOwnerRegister a0 a1 s) := by
  unfold execOwnerRegister
  try dsimp only
  repeat' first
    | with_reducible assumption
    | with_reducible refine keepsR_next ?_
    | with_reducible apply State.post_keeps
    | with_reducible apply State.askWork_keeps
    | with_reducible apply State.setFld_keeps
    | with_reducible apply State.endWork_keeps
    | with_reducible refine keeps_ite (fun _ => ?_) (fun _ => ?_)
    | with_reducible refine keepsR_ite (fun _ => ?_) (fun _ => ?_)
    | (simp only [↓keeps_mk]; with_reducible refine keeps_fold ?_)
    | split

theorem execKeySlotLoad_keeps {s0 s : State} (a0 : Nat) (a1 : Nat) (a2 : Bool) (h : Keeps s0 s) :
    KeepsR s0 (execKeySlotLoad a0 a1 a2 s) := by
  unfold execKeySlotLoad
  try dsimp only
  repeat' first
    | with_reducible assumption
    | with_reducible refine keepsR_next ?_
    | with_reducible refine keeps_ite (fun _ => ?_) (fun _ => ?_)
    | with_reducible refine keepsR_ite (fun _ => ?_) (fun _ => ?_)
    | (simp only [↓keeps_mk]; with_reducible refine keeps_fold ?_)
    | split

theorem execKeySlotClear_keeps {s0 s : State} (a0 : Nat) (h : Keeps s0 s) :
    KeepsR s0 (execKeySlotClear a0 s) := by
  unfold execKeySlotClear
  try dsimp only
  repeat' first
    | with_reducible assumption
    | with_reducible refine keepsR_next ?_
    | with_reducible refine keeps_ite (fun _ => ?_) (fun _ => ?_)
    | with_reducible refine keepsR_ite (fun _ => ?_) (fun _ => ?_)
    | (simp only [↓keeps_mk]; with_reducible refine keeps_fold ?_)
    | split

/-! ## Tap -/

theorem State.tapLoad_keeps {s0 s : State} (a1 : TapInstr) (h : Keeps s0 s) :
    Keeps s0 (State.tapLoad s a1) := by
  unfold State.tapLoad
  try dsimp only
  repeat' first
    | with_reducible assumption
    | with_reducible refine keeps_ite (fun _ => ?_) (fun _ => ?_)
    | (simp only [↓keeps_mk]; with_reducible refine keeps_fold ?_)
    | split

theorem State.tapReset_keeps {s0 s : State} (a1 : Bool) (h : Keeps s0 s) :
    Keeps s0 (State.tapReset s a1) := by
  unfold State.tapReset
  try dsimp only
  repeat' first
    | with_reducible assumption
    | with_reducible refine keeps_ite (fun _ => ?_) (fun _ => ?_)
    | (simp only [↓keeps_mk]; with_reducible refine keeps_fold ?_)
    | split

theorem State.tapCheck_keeps {s0 s : State}  (h : Keeps s0 s) :
    Keeps s0 (State.tapCheck s) := by
  unfold State.tapCheck
  try dsimp only
  repeat' first
    | with_reducible assumption
    | with_reducible refine keeps_ite (fun _ => ?_) (fun _ => ?_)
    | (simp only [↓keeps_mk]; with_reducible refine keeps_fold ?_)
    | split

/-! ## Lifecycle -/

theorem State.putField_keeps {s0 s : State} (a1 : FuseField) (a2 : List Nat) (h : Keeps s0 s) :
    Keeps s0 (State.putField s a1 a2) := by
  unfold State.putField
  try dsimp only
  repeat' first
    | with_reducible assumption
    | with_reducible apply State.tapCheck_keeps
    | (simp only [↓keeps_mk]; with_reducible refine keeps_fold ?_)

theorem State.resolveAgain_keeps {s0 s : State} (a1 : Nat) (h : Keeps s0 s) :
    Keeps s0 (State.resolveAgain s a1) := by
  unfold State.resolveAgain
  try dsimp only
  repeat' first
    | with_reducible assumption
    | with_reducible apply State.putField_keeps
    | split

theorem State.burn_keeps {s0 s : State} (a1 : Nat) (a2 : Nat) (a3 : Nat) (h : Keeps s0 s) :
    Keeps s0 (State.burn s a1 a2 a3) := by
  unfold State.burn
  try dsimp only
  repeat' first
    | with_reducible assumption
    | (simp only [↓keeps_mk]; with_reducible refine keeps_fold ?_)

theorem execLifecycleTransition_keeps {s0 s : State} (a0 : Ref) (a1 : Nat) (a2 : Nat) (a3 : LcToken) (h : Keeps s0 s) :
    KeepsR s0 (execLifecycleTransition a0 a1 a2 a3 s) := by
  unfold execLifecycleTransition
  try dsimp only
  repeat' first
    | with_reducible assumption
    | with_reducible refine keepsR_next ?_
    | with_reducible apply State.lockFor_keeps
    | with_reducible apply State.latch_keeps
    | with_reducible apply State.done_keeps
    | with_reducible refine State.done_keeps ?_ _ (by with_reducible assumption)
    | with_reducible apply State.folio_keeps
    | with_reducible refine keeps_ite (fun _ => ?_) (fun _ => ?_)
    | with_reducible refine keepsR_ite (fun _ => ?_) (fun _ => ?_)
    | (simp only [↓keeps_mk]; with_reducible refine keeps_fold ?_)
    | split

theorem State.lcKeys_keeps {s0 s : State} (a1 : Nat) (h : Keeps s0 s) :
    Keeps s0 (State.lcKeys s a1) := by
  unfold State.lcKeys
  try dsimp only
  repeat' first
    | with_reducible assumption
    | (simp only [↓keeps_mk]; with_reducible refine keeps_fold ?_)
    | split

theorem State.lcIntent_keeps {s0 s : State} (a1 : Nat) (h : Keeps s0 s) :
    Keeps s0 (State.lcIntent s a1) := by
  unfold State.lcIntent
  try dsimp only
  repeat' first
    | with_reducible assumption
    | with_reducible apply State.post_keeps
    | with_reducible apply State.complete_keeps
    | with_reducible apply State.colophon_keeps
    | with_reducible apply State.unlockTemp_keeps
    | with_reducible apply State.folio_keeps
    | with_reducible apply State.lcKeys_keeps
    | with_reducible refine keeps_ite (fun _ => ?_) (fun _ => ?_)
    | (simp only [↓keeps_mk]; with_reducible refine keeps_fold ?_)
    | split

theorem State.lcPair_keeps {s0 s : State} (a1 : Bool) (h : Keeps s0 s) :
    Keeps s0 (State.lcPair s a1) := by
  unfold State.lcPair
  try dsimp only
  repeat' first
    | with_reducible assumption
    | with_reducible apply State.folio_keeps
    | with_reducible refine keeps_ite (fun _ => ?_) (fun _ => ?_)
    | split

theorem State.lcBurned_keeps {s0 s : State}  (h : Keeps s0 s) :
    Keeps s0 (State.lcBurned s) := by
  unfold State.lcBurned
  try dsimp only
  repeat' first
    | with_reducible assumption
    | with_reducible apply State.resolveAgain_keeps
    | with_reducible apply State.folio_keeps

theorem State.lcBurn_keeps {s0 s : State} (a1 : Trans) (a2 : Nat) (a3 : Nat) (a4 : Nat) (a5 : List (Nat × Nat)) (h : Keeps s0 s) :
    Keeps s0 (State.lcBurn s a1 a2 a3 a4 a5) := by
  unfold State.lcBurn
  try dsimp only
  repeat' first
    | with_reducible assumption
    | with_reducible apply State.lcBurned_keeps
    | with_reducible apply State.complete_keeps
    | with_reducible apply State.unlockTemp_keeps
    | with_reducible apply State.burn_keeps
    | with_reducible refine keeps_ite (fun _ => ?_) (fun _ => ?_)
    | (simp only [↓keeps_mk]; with_reducible refine keeps_fold ?_)
    | split

theorem execFuseProgramComplete_keeps {s0 s : State} (a0 : Nat) (h : Keeps s0 s) :
    KeepsR s0 (execFuseProgramComplete a0 s) := by
  unfold execFuseProgramComplete
  try dsimp only
  repeat' first
    | with_reducible assumption
    | with_reducible refine keepsR_next ?_
    | with_reducible apply State.lcBurn_keeps
    | with_reducible apply State.resolveAgain_keeps
    | with_reducible apply State.burn_keeps
    | with_reducible refine keeps_ite (fun _ => ?_) (fun _ => ?_)
    | with_reducible refine keepsR_ite (fun _ => ?_) (fun _ => ?_)
    | (simp only [↓keeps_mk]; with_reducible refine keeps_fold ?_)
    | split

/-! ## RegOps -/

theorem State.loadRws_keeps {s0 s : State} (a1 : List (Nat × Word)) (a2 : Nat) (h : Keeps s0 s) :
    Keeps s0 (State.loadRws s a1 a2) := by
  unfold State.loadRws
  try dsimp only
  repeat' first
    | with_reducible assumption
    | with_reducible apply State.setReg_keeps

theorem State.loadSettings_keeps {s0 s : State} (a1 : List (Nat × Word)) (h : Keeps s0 s) :
    Keeps s0 (State.loadSettings s a1) := by
  unfold State.loadSettings
  try dsimp only
  repeat' first
    | with_reducible assumption
    | with_reducible apply State.loadRws_keeps
    | (with_reducible refine keeps_foldl (fun _ _ _ => ?_) ?_)

theorem State.resetKeys_keeps {s0 s : State} (p : Nat → Bool) (h : Keeps s0 s) : Keeps s0 (State.resetKeys s p) := by
  obtain ⟨a, b, c⟩ := h
  exact ⟨a, swf_filter _ _ _ b, c⟩

/-! ## Sanitize -/

theorem State.dropChain_keeps {s0 s : State} (a1 : Nat) (h : Keeps s0 s) :
    Keeps s0 (State.dropChain s a1) := by
  unfold State.dropChain
  try dsimp only
  repeat' first
    | with_reducible assumption
    | with_reducible apply State.releaseAll_keeps
    | (with_reducible refine keeps_foldl (fun _ _ _ => ?_) ?_)
    | split

theorem State.unmapNs_keeps {s0 s : State} (a1 : Nat) (h : Keeps s0 s) :
    Keeps s0 (State.unmapNs s a1) := by
  unfold State.unmapNs
  try dsimp only
  repeat' first
    | with_reducible assumption
    | with_reducible apply State.changeEntry_keeps
    | with_reducible apply State.abortRec_keeps
    | (with_reducible refine keeps_foldl (fun _ _ _ => ?_) ?_)

theorem State.rekeyNs_keeps {s0 s : State} (a1 : Ns) (h : Keeps s0 s) :
    Keeps s0 (State.rekeyNs s a1) := by
  unfold State.rekeyNs
  try dsimp only
  repeat' first
    | with_reducible assumption
    | (simp only [↓keeps_mk]; with_reducible refine keeps_fold ?_)
    | split

theorem State.dropMedia_keeps {s0 s : State}  (h : Keeps s0 s) :
    Keeps s0 (State.dropMedia s) := by
  unfold State.dropMedia
  try dsimp only
  repeat' first
    | with_reducible assumption
    | with_reducible apply State.dropChain_keeps
    | (simp only [↓keeps_mk]; with_reducible refine keeps_fold ?_)
    | (with_reducible refine keeps_foldl (fun _ _ _ => ?_) ?_)
    | split

theorem State.runSanitize_keeps {s0 s : State}  (h : Keeps s0 s) :
    Keeps s0 (State.runSanitize s) := by
  unfold State.runSanitize
  try dsimp only
  repeat' first
    | with_reducible assumption
    | with_reducible apply State.dropMedia_keeps
    | with_reducible apply State.failRead_keeps
    | with_reducible apply State.rekeyNs_keeps
    | with_reducible apply State.releaseCut_keeps
    | with_reducible apply State.newStroke_keeps
    | with_reducible apply State.failWrite_keeps
    | with_reducible apply State.unmapNs_keeps
    | with_reducible apply State.folio_keeps
    | with_reducible refine keeps_ite (fun _ => ?_) (fun _ => ?_)
    | (simp only [↓keeps_mk]; with_reducible refine keeps_fold ?_)
    | (with_reducible refine keeps_foldl (fun _ _ _ => ?_) ?_)
    | split

theorem State.cryptoStep_keeps {s0 s : State}  (h : Keeps s0 s) :
    Keeps s0 (State.cryptoStep s) := by
  unfold State.cryptoStep
  try dsimp only
  repeat' first
    | with_reducible assumption
    | with_reducible apply State.folio_keeps
    | with_reducible refine keeps_ite (fun _ => ?_) (fun _ => ?_)
    | (simp only [↓keeps_mk]; with_reducible refine keeps_fold ?_)
    | split

/-! ## Quill -/

theorem execQuillContextStart_keeps {s0 s : State} (a0 : Nat) (a1 : Nat) (a2 : Par) (h : Keeps s0 s) :
    KeepsR s0 (execQuillContextStart a0 a1 a2 s) := by
  unfold execQuillContextStart
  try dsimp only
  repeat' first
    | with_reducible assumption
    | with_reducible refine keepsR_next ?_
    | with_reducible apply State.stored_keeps
    | with_reducible apply State.updStroke_keeps
    | with_reducible refine keeps_ite (fun _ => ?_) (fun _ => ?_)
    | with_reducible refine keepsR_ite (fun _ => ?_) (fun _ => ?_)
    | (simp only [↓keeps_mk]; with_reducible refine keeps_fold ?_)
    | split

theorem execNext_keeps {s0 s : State} (a0 : Nat) (a1 : Nat) (a2 : QIn) (h : Keeps s0 s) :
    KeepsR s0 (execNext a0 a1 a2 s) := by
  unfold execNext
  try dsimp only
  repeat' first
    | with_reducible assumption
    | with_reducible refine keepsR_next ?_
    | with_reducible apply State.microword_keeps
    | with_reducible apply State.advance_keeps
    | split
    | (intro _; intros; try dsimp only)

theorem execJump_keeps {s0 s : State} (a0 : Nat) (a1 : Nat) (a2 : QIn) (h : Keeps s0 s) :
    KeepsR s0 (execJump a0 a1 a2 s) := by
  unfold execJump
  try dsimp only
  repeat' first
    | with_reducible assumption
    | with_reducible refine keepsR_next ?_
    | with_reducible apply State.microword_keeps
    | with_reducible apply State.advance_keeps
    | split
    | (intro _; intros; try dsimp only)

theorem execBr_keeps {s0 s : State} (a0 : Nat) (a1 : Nat) (a2 : QIn) (h : Keeps s0 s) :
    KeepsR s0 (execBr a0 a1 a2 s) := by
  unfold execBr
  try dsimp only
  repeat' first
    | with_reducible assumption
    | with_reducible refine keepsR_next ?_
    | with_reducible apply State.microword_keeps
    | with_reducible apply State.advance_keeps
    | split
    | (intro _; intros; try dsimp only)

theorem execBrn_keeps {s0 s : State} (a0 : Nat) (a1 : Nat) (a2 : QIn) (h : Keeps s0 s) :
    KeepsR s0 (execBrn a0 a1 a2 s) := by
  unfold execBrn
  try dsimp only
  repeat' first
    | with_reducible assumption
    | with_reducible refine keepsR_next ?_
    | with_reducible apply State.microword_keeps
    | with_reducible apply State.advance_keeps
    | split
    | (intro _; intros; try dsimp only)

theorem execCall_keeps {s0 s : State} (a0 : Nat) (a1 : Nat) (a2 : QIn) (h : Keeps s0 s) :
    KeepsR s0 (execCall a0 a1 a2 s) := by
  unfold execCall
  try dsimp only
  repeat' first
    | with_reducible assumption
    | with_reducible refine keepsR_next ?_
    | with_reducible apply State.serviceReturn_keeps
    | with_reducible apply State.setCtx_keeps
    | with_reducible apply State.microword_keeps
    | with_reducible apply State.advance_keeps
    | with_reducible refine keeps_ite (fun _ => ?_) (fun _ => ?_)
    | with_reducible refine keepsR_ite (fun _ => ?_) (fun _ => ?_)
    | split
    | (intro _; intros; try dsimp only)

theorem execRet_keeps {s0 s : State} (a0 : Nat) (a1 : Nat) (a2 : QIn) (h : Keeps s0 s) :
    KeepsR s0 (execRet a0 a1 a2 s) := by
  unfold execRet
  try dsimp only
  repeat' first
    | with_reducible assumption
    | with_reducible refine keepsR_next ?_
    | with_reducible apply State.microword_keeps
    | with_reducible apply State.advance_keeps
    | split
    | (intro _; intros; try dsimp only)

theorem execLoop_keeps {s0 s : State} (a0 : Nat) (a1 : Nat) (a2 : QIn) (h : Keeps s0 s) :
    KeepsR s0 (execLoop a0 a1 a2 s) := by
  unfold execLoop
  try dsimp only
  repeat' first
    | with_reducible assumption
    | with_reducible refine keepsR_next ?_
    | with_reducible apply State.microword_keeps
    | with_reducible apply State.advance_keeps
    | split
    | (intro _; intros; try dsimp only)

theorem execLdlc_keeps {s0 s : State} (a0 : Nat) (a1 : Nat) (a2 : QIn) (h : Keeps s0 s) :
    KeepsR s0 (execLdlc a0 a1 a2 s) := by
  unfold execLdlc
  try dsimp only
  repeat' first
    | with_reducible assumption
    | with_reducible refine keepsR_next ?_
    | with_reducible apply State.microword_keeps
    | with_reducible apply State.advance_keeps
    | split
    | (intro _; intros; try dsimp only)

theorem execWait_keeps {s0 s : State} (a0 : Nat) (a1 : Nat) (a2 : QIn) (h : Keeps s0 s) :
    KeepsR s0 (execWait a0 a1 a2 s) := by
  unfold execWait
  try dsimp only
  repeat' first
    | with_reducible assumption
    | with_reducible refine keepsR_next ?_
    | with_reducible apply State.setCtx_keeps
    | with_reducible apply State.microword_keeps
    | split
    | (intro _; intros; try dsimp only)

theorem execWaitRelease_keeps {s0 s : State} (a0 : Nat) (a1 : Nat) (h : Keeps s0 s) :
    KeepsR s0 (execWaitRelease a0 a1 s) := by
  unfold execWaitRelease
  try dsimp only
  repeat' first
    | with_reducible assumption
    | with_reducible refine keepsR_next ?_
    | with_reducible apply State.abandon_keeps
    | with_reducible apply State.advance_keeps
    | with_reducible refine keeps_ite (fun _ => ?_) (fun _ => ?_)
    | with_reducible refine keepsR_ite (fun _ => ?_) (fun _ => ?_)
    | split

theorem execWline_keeps {s0 s : State} (a0 : Nat) (a1 : Nat) (a2 : QIn) (h : Keeps s0 s) :
    KeepsR s0 (execWline a0 a1 a2 s) := by
  unfold execWline
  try dsimp only
  repeat' first
    | with_reducible assumption
    | with_reducible refine keepsR_next ?_
    | with_reducible apply State.setCtx_keeps
    | with_reducible apply State.microword_keeps
    | split
    | (intro _; intros; try dsimp only)

theorem execWlineRelease_keeps {s0 s : State} (a0 : Nat) (a1 : Nat) (h : Keeps s0 s) :
    KeepsR s0 (execWlineRelease a0 a1 s) := by
  unfold execWlineRelease
  try dsimp only
  repeat' first
    | with_reducible assumption
    | with_reducible refine keepsR_next ?_
    | with_reducible apply State.abandon_keeps
    | with_reducible apply State.advance_keeps
    | with_reducible refine keeps_ite (fun _ => ?_) (fun _ => ?_)
    | with_reducible refine keepsR_ite (fun _ => ?_) (fun _ => ?_)
    | split

theorem execTmExpire_keeps {s0 s : State} (a0 : Nat) (a1 : Nat) (h : Keeps s0 s) :
    KeepsR s0 (execTmExpire a0 a1 s) := by
  unfold execTmExpire
  try dsimp only
  repeat' first
    | with_reducible assumption
    | with_reducible refine keepsR_next ?_
    | with_reducible apply State.setCtx_keeps
    | with_reducible refine keeps_ite (fun _ => ?_) (fun _ => ?_)
    | with_reducible refine keepsR_ite (fun _ => ?_) (fun _ => ?_)
    | split

theorem execScribe_keeps {s0 s : State} (a0 : Nat) (a1 : Nat) (a2 : QIn) (h : Keeps s0 s) :
    KeepsR s0 (execScribe a0 a1 a2 s) := by
  unfold execScribe
  try dsimp only
  repeat' first
    | with_reducible assumption
    | with_reducible refine keepsR_next ?_
    | with_reducible apply State.microword_keeps
    | with_reducible apply State.advance_keeps
    | with_reducible refine keeps_ite (fun _ => ?_) (fun _ => ?_)
    | with_reducible refine keepsR_ite (fun _ => ?_) (fun _ => ?_)
    | (simp only [↓keeps_mk]; with_reducible refine keeps_fold ?_)
    | split
    | (intro _; intros; try dsimp only)

theorem execDone_keeps {s0 s : State} (a0 : Nat) (a1 : Nat) (h : Keeps s0 s) :
    KeepsR s0 (execDone a0 a1 s) := by
  unfold execDone
  try dsimp only
  repeat' first
    | with_reducible assumption
    | with_reducible refine keepsR_next ?_
    | with_reducible apply State.endErase_keeps
    | with_reducible apply State.endRun_keeps
    | with_reducible apply State.microword_keeps
    | with_reducible refine keeps_ite (fun _ => ?_) (fun _ => ?_)
    | with_reducible refine keepsR_ite (fun _ => ?_) (fun _ => ?_)
    | split
    | (intro _; intros; try dsimp only)

theorem execQuillScrubRead_keeps {s0 s : State} (a0 : Nat) (a1 : Nat) (a2 : Bool) (h : Keeps s0 s) :
    KeepsR s0 (execQuillScrubRead a0 a1 a2 s) := by
  unfold execQuillScrubRead
  try dsimp only
  repeat' first
    | with_reducible assumption
    | with_reducible refine keepsR_next ?_
    | with_reducible apply State.machineCheck_keeps
    | with_reducible refine keeps_ite (fun _ => ?_) (fun _ => ?_)
    | with_reducible refine keepsR_ite (fun _ => ?_) (fun _ => ?_)
    | split

theorem execNibRestartComplete_keeps {s0 s : State} (a0 : Nat) (a1 : List Nat) (h : Keeps s0 s) :
    KeepsR s0 (execNibRestartComplete a0 a1 s) := by
  unfold execNibRestartComplete
  try dsimp only
  repeat' first
    | with_reducible assumption
    | with_reducible refine keepsR_next ?_
    | with_reducible apply State.post_keeps
    | with_reducible apply State.setFld_keeps
    | with_reducible apply State.settle_keeps
    | with_reducible apply State.unresponsive_keeps
    | with_reducible refine keeps_ite (fun _ => ?_) (fun _ => ?_)
    | with_reducible refine keepsR_ite (fun _ => ?_) (fun _ => ?_)
    | (simp only [↓keeps_mk]; with_reducible refine keeps_fold ?_)
    | (with_reducible refine keeps_foldl (fun _ _ _ => ?_) ?_)
    | split

/-! ## Scriptorium -/

theorem execScriptoriumLoad_keeps {s0 s : State} (a0 : Ref) (a1 : Nat) (a2 : Nat) (a3 : Nat) (a4 : List Nat) (a5 : Bool) (h : Keeps s0 s) :
    KeepsR s0 (execScriptoriumLoad a0 a1 a2 a3 a4 a5 s) := by
  unfold execScriptoriumLoad
  try dsimp only
  repeat' first
    | with_reducible assumption
    | with_reducible refine keepsR_next ?_
    | with_reducible apply State.lockFor_keeps
    | with_reducible apply State.latch_keeps
    | with_reducible apply State.done_keeps
    | with_reducible refine State.done_keeps ?_ _ (by with_reducible assumption)
    | with_reducible apply State.folio_keeps
    | with_reducible refine keeps_ite (fun _ => ?_) (fun _ => ?_)
    | with_reducible refine keepsR_ite (fun _ => ?_) (fun _ => ?_)
    | (simp only [↓keeps_mk]; with_reducible refine keeps_fold ?_)
    | split

theorem State.putImage_keeps {s0 s : State} (a1 : Nat) (a2 : Scriptorium) (h : Keeps s0 s) :
    Keeps s0 (State.putImage s a1 a2) := by
  unfold State.putImage
  try dsimp only
  repeat' first
    | with_reducible assumption
    | with_reducible apply State.setFld_keeps
    | (simp only [↓keeps_mk]; with_reducible refine keeps_fold ?_)

theorem State.loadStep_keeps {s0 s : State}  (h : Keeps s0 s) :
    Keeps s0 (State.loadStep s) := by
  unfold State.loadStep
  try dsimp only
  repeat' first
    | with_reducible assumption
    | with_reducible apply State.post_keeps
    | with_reducible apply State.askResume_keeps
    | with_reducible apply State.complete_keeps
    | with_reducible apply State.unlockTemp_keeps
    | with_reducible apply State.putImage_keeps
    | with_reducible refine keeps_ite (fun _ => ?_) (fun _ => ?_)
    | (simp only [↓keeps_mk]; with_reducible refine keeps_fold ?_)
    | (with_reducible refine keeps_foldl (fun _ _ _ => ?_) ?_)
    | split

theorem State.scrStored_keeps {s0 s : State}  (h : Keeps s0 s) :
    Keeps s0 (State.scrStored s) := by
  unfold State.scrStored
  try dsimp only
  repeat' first
    | with_reducible assumption
    | with_reducible apply State.colophonWith_keeps
    | split

/-! ## Folio -/

theorem State.folReplace_keeps {s0 s : State} (a1 : Nat) (h : Keeps s0 s) :
    Keeps s0 (State.folReplace s a1).1 := by
  unfold State.folReplace
  try dsimp only
  repeat' first
    | with_reducible assumption
    | with_reducible apply State.post_keeps
    | with_reducible apply State.folio_keeps
    | with_reducible refine keeps_ite (fun _ => ?_) (fun _ => ?_)
    | (simp only [↓keeps_mk]; with_reducible refine keeps_fold ?_)
    | split

theorem State.folErased_keeps {s0 s : State} (a1 : Nat) (h : Keeps s0 s) :
    Keeps s0 (State.folErased s a1) := by
  unfold State.folErased
  try dsimp only
  repeat' first
    | with_reducible assumption
    | with_reducible apply State.folReplace_keeps
    | with_reducible refine keeps_pair (by with_reducible assumption) (State.folReplace_keeps _ ?_)
    | with_reducible refine keeps_ite (fun _ => ?_) (fun _ => ?_)
    | (simp only [↓keeps_mk]; with_reducible refine keeps_fold ?_)
    | split

theorem State.folEnd_keeps {s0 s : State} (a1 : FolReq) (a2 : Status) (h : Keeps s0 s) :
    Keeps s0 (State.folEnd s a1 a2) := by
  unfold State.folEnd
  try dsimp only
  repeat' first
    | with_reducible assumption
    | with_reducible apply State.complete_keeps
    | with_reducible refine keeps_ite (fun _ => ?_) (fun _ => ?_)
    | split

theorem State.folPassed_keeps {s0 s : State} (a1 : FolReq) (h : Keeps s0 s) :
    Keeps s0 (State.folPassed s a1) := by
  unfold State.folPassed
  try dsimp only
  repeat' first
    | with_reducible assumption
    | with_reducible apply State.runSanitize_keeps
    | with_reducible apply State.lcPair_keeps
    | with_reducible apply State.setFld_keeps
    | with_reducible apply State.cryptoStep_keeps
    | with_reducible apply State.unlockTemp_keeps
    | with_reducible apply State.imageStored_keeps
    | with_reducible apply State.loaderStored_keeps
    | with_reducible apply State.lcIntent_keeps
    | with_reducible apply State.ckComplete_keeps
    | with_reducible apply State.fleetStored_keeps
    | with_reducible apply State.folio_keeps
    | with_reducible apply State.scrStored_keeps
    | with_reducible apply State.folEnd_keeps
    | with_reducible apply State.slotStored_keeps
    | with_reducible refine keeps_ite (fun _ => ?_) (fun _ => ?_)
    | (simp only [↓keeps_mk]; with_reducible refine keeps_fold ?_)
    | split

theorem State.folGivenUp_keeps {s0 s : State} (a1 : FolReq) (h : Keeps s0 s) :
    Keeps s0 (State.folGivenUp s a1) := by
  unfold State.folGivenUp
  try dsimp only
  repeat' first
    | with_reducible assumption
    | with_reducible apply State.dropCommit_keeps
    | with_reducible apply State.lcPair_keeps
    | with_reducible apply State.complete_keeps
    | with_reducible apply State.cryptoStep_keeps
    | with_reducible apply State.unlockTemp_keeps
    | with_reducible apply State.ckComplete_keeps
    | with_reducible apply State.folio_keeps
    | with_reducible apply State.scrStored_keeps
    | with_reducible apply State.folEnd_keeps
    | with_reducible apply State.commitEnd_keeps
    | with_reducible refine keeps_ite (fun _ => ?_) (fun _ => ?_)
    | (simp only [↓keeps_mk]; with_reducible refine keeps_fold ?_)
    | split

theorem State.folFailed_keeps {s0 s : State} (a1 : FolReq) (h : Keeps s0 s) :
    Keeps s0 (State.folFailed s a1) := by
  unfold State.folFailed
  try dsimp only
  repeat' first
    | with_reducible assumption
    | with_reducible apply State.post_keeps
    | with_reducible apply State.folGivenUp_keeps
    | with_reducible apply State.folReplace_keeps
    | with_reducible refine keeps_pair (by with_reducible assumption) (State.folReplace_keeps _ ?_)
    | with_reducible apply State.folEnd_keeps
    | with_reducible refine keeps_ite (fun _ => ?_) (fun _ => ?_)
    | (simp only [↓keeps_mk]; with_reducible refine keeps_fold ?_)
    | split

theorem execFolioRequestComplete_keeps {s0 s : State} (a0 : Nat) (h : Keeps s0 s) :
    KeepsR s0 (execFolioRequestComplete a0 s) := by
  unfold execFolioRequestComplete
  try dsimp only
  repeat' first
    | with_reducible assumption
    | with_reducible refine keepsR_next ?_
    | with_reducible apply State.folPassed_keeps
    | with_reducible apply State.folFailed_keeps
    | with_reducible apply State.folErased_keeps
    | with_reducible refine keeps_ite (fun _ => ?_) (fun _ => ?_)
    | with_reducible refine keepsR_ite (fun _ => ?_) (fun _ => ?_)
    | (simp only [↓keeps_mk]; with_reducible refine keeps_fold ?_)
    | split

theorem State.copyBad_keeps {s0 s : State} (a1 : FolCopy) (h : Keeps s0 s) :
    Keeps s0 (State.copyBad s a1) := by
  unfold State.copyBad
  try dsimp only
  repeat' first
    | with_reducible assumption
    | with_reducible refine keeps_ite (fun _ => ?_) (fun _ => ?_)
    | (simp only [↓keeps_mk]; with_reducible refine keeps_fold ?_)
    | split

theorem State.copyFromOther_keeps {s0 s : State} (a1 : FolCopy) (h : Keeps s0 s) :
    Keeps s0 (State.copyFromOther s a1) := by
  unfold State.copyFromOther
  try dsimp only
  repeat' first
    | with_reducible assumption
    | with_reducible refine keeps_ite (fun _ => ?_) (fun _ => ?_)
    | (simp only [↓keeps_mk]; with_reducible refine keeps_fold ?_)
    | split

theorem execFolioScrub_keeps {s0 s : State} (a0 : List (FolCopy × Bool)) (h : Keeps s0 s) :
    KeepsR s0 (execFolioScrub a0 s) := by
  unfold execFolioScrub
  try dsimp only
  repeat' first
    | with_reducible assumption
    | with_reducible refine keepsR_next ?_
    | with_reducible apply State.post_keeps
    | with_reducible apply State.copyBad_keeps
    | with_reducible apply State.copyFromOther_keeps
    | with_reducible refine keeps_ite (fun _ => ?_) (fun _ => ?_)
    | with_reducible refine keepsR_ite (fun _ => ?_) (fun _ => ?_)
    | (simp only [↓keeps_mk]; with_reducible refine keeps_fold ?_)
    | (with_reducible refine keeps_foldl (fun _ _ _ => ?_) ?_)
    | split

/-! ## Gce -/

theorem State.gceNext_keeps {s0 s : State}  (h : Keeps s0 s) :
    Keeps s0 (State.gceNext s) := by
  unfold State.gceNext
  try dsimp only
  repeat' first
    | with_reducible assumption
    | (simp only [↓keeps_mk]; with_reducible refine keeps_fold ?_)
    | split

theorem State.drbg_keeps {s0 s : State}  (h : Keeps s0 s) :
    Keeps s0 (State.drbg s) := by
  unfold State.drbg
  try dsimp only
  repeat' first
    | with_reducible assumption
    | with_reducible refine keeps_ite (fun _ => ?_) (fun _ => ?_)
    | (simp only [↓keeps_mk]; with_reducible refine keeps_fold ?_)
    | split

theorem State.gceRun_keeps {s0 s : State} (a1 : GceOp) (a2 : Nat) (a3 : Bool) (a4 : Bool) (h : Keeps s0 s) :
    Keeps s0 (State.gceRun s a1 a2 a3 a4) := by
  unfold State.gceRun
  try dsimp only
  repeat' first
    | with_reducible assumption
    | with_reducible apply State.post_keeps
    | with_reducible apply State.drbg_keeps
    | with_reducible apply State.enterSafe_keeps
    | with_reducible apply State.emit_keeps
    | with_reducible refine keeps_ite (fun _ => ?_) (fun _ => ?_)
    | (simp only [↓keeps_mk]; with_reducible refine keeps_fold ?_)
    | split

theorem execGceRequest_keeps {s0 s : State} (a0 : Nat) (a1 : GceOp) (a2 : Nat) (a3 : Bool) (a4 : Bool) (a5 : Bool) (h : Keeps s0 s) :
    KeepsR s0 (execGceRequest a0 a1 a2 a3 a4 a5 s) := by
  unfold execGceRequest
  try dsimp only
  repeat' first
    | with_reducible assumption
    | with_reducible refine keepsR_next ?_
    | with_reducible apply State.gceRun_keeps
    | with_reducible apply State.gceNext_keeps
    | with_reducible refine keeps_ite (fun _ => ?_) (fun _ => ?_)
    | with_reducible refine keepsR_ite (fun _ => ?_) (fun _ => ?_)
    | (simp only [↓keeps_mk]; with_reducible refine keeps_fold ?_)
    | split

theorem execGceLockTimeout_keeps {s0 s : State}  (h : Keeps s0 s) :
    KeepsR s0 (execGceLockTimeout s) := by
  unfold execGceLockTimeout
  try dsimp only
  repeat' first
    | with_reducible assumption
    | with_reducible refine keepsR_next ?_
    | with_reducible apply State.post_keeps
    | with_reducible apply State.gceNext_keeps
    | with_reducible refine keeps_ite (fun _ => ?_) (fun _ => ?_)
    | with_reducible refine keepsR_ite (fun _ => ?_) (fun _ => ?_)
    | split

theorem execEntropyHealthFail_keeps {s0 s : State}  (h : Keeps s0 s) :
    KeepsR s0 (execEntropyHealthFail s) := by
  unfold execEntropyHealthFail
  try dsimp only
  repeat' first
    | with_reducible assumption
    | with_reducible refine keepsR_next ?_
    | with_reducible apply State.post_keeps
    | with_reducible refine keeps_ite (fun _ => ?_) (fun _ => ?_)
    | with_reducible refine keepsR_ite (fun _ => ?_) (fun _ => ?_)
    | (simp only [↓keeps_mk]; with_reducible refine keeps_fold ?_)
    | split

theorem execEntropyHealthPass_keeps {s0 s : State}  (h : Keeps s0 s) :
    KeepsR s0 (execEntropyHealthPass s) := by
  unfold execEntropyHealthPass
  try dsimp only
  repeat' first
    | with_reducible assumption
    | with_reducible refine keepsR_next ?_
    | with_reducible refine keeps_ite (fun _ => ?_) (fun _ => ?_)
    | with_reducible refine keepsR_ite (fun _ => ?_) (fun _ => ?_)
    | (simp only [↓keeps_mk]; with_reducible refine keeps_fold ?_)
    | split

end Sys2Proof.Machine
end

