-- ==== Sys2Proof/Laws/KeepsHost.lean ====
section
/-! SUPPORT. What the operations of the host port, the queues, registers and commands keep: one lemma each. -/

namespace Sys2Proof.Machine

/-! ## IoCmds -/

theorem State.refuse_keeps {s0 s : State} (a1 : Ref) (a2 : Status) (h : Keeps s0 s) :
    KeepsR s0 (State.refuse s a1 a2) := by
  unfold State.refuse
  try dsimp only
  repeat' first
    | with_reducible assumption
    | with_reducible refine keepsR_next ?_
    | with_reducible apply State.complete_keeps
    | with_reducible apply State.latch_keeps

theorem State.enter_keeps {s0 s : State} (a1 : Cmd) (h : Keeps s0 s) :
    Keeps s0 (State.enter s a1) := by
  unfold State.enter
  try dsimp only
  repeat' first
    | with_reducible assumption
    | with_reducible apply State.kick_keeps
    | (simp only [↓keeps_mk]; with_reducible refine keeps_fold ?_)

theorem execFlush_keeps {s0 s : State} (a0 : Ref) (a1 : Nat) (h : Keeps s0 s) :
    KeepsR s0 (execFlush a0 a1 s) := by
  unfold execFlush
  try dsimp only
  repeat' first
    | with_reducible assumption
    | with_reducible refine keepsR_next ?_
    | with_reducible apply State.refuse_keeps
    | with_reducible refine State.refuse_keeps ?_ _ (by with_reducible assumption)
    | with_reducible apply State.latch_keeps
    | with_reducible apply State.enter_keeps
    | with_reducible refine keeps_ite (fun _ => ?_) (fun _ => ?_)
    | with_reducible refine keepsR_ite (fun _ => ?_) (fun _ => ?_)
    | split

theorem execWrite_keeps {s0 s : State} (a0 : Ref) (a1 : Nat) (a2 : Nat) (a3 : Nat) (a4 : Bool) (a5 : Nat) (a6 : Nat) (a7 : Option Ref) (h : Keeps s0 s) :
    KeepsR s0 (execWrite a0 a1 a2 a3 a4 a5 a6 a7 s) := by
  unfold execWrite
  try dsimp only
  repeat' first
    | with_reducible assumption
    | with_reducible refine keepsR_next ?_
    | with_reducible apply State.refuse_keeps
    | with_reducible refine State.refuse_keeps ?_ _ (by with_reducible assumption)
    | with_reducible apply State.latch_keeps
    | with_reducible apply State.endCompare_keeps
    | with_reducible apply State.placement_keeps
    | with_reducible refine keeps_pair (by with_reducible assumption) (State.placement_keeps _ _ _ ?_)
    | with_reducible apply State.enter_keeps
    | with_reducible refine keeps_ite (fun _ => ?_) (fun _ => ?_)
    | with_reducible refine keepsR_ite (fun _ => ?_) (fun _ => ?_)
    | split

theorem execRead_keeps {s0 s : State} (a0 : Ref) (a1 : Nat) (a2 : Nat) (a3 : Nat) (a4 : ReadDue) (h : Keeps s0 s) :
    KeepsR s0 (execRead a0 a1 a2 a3 a4 s) := by
  unfold execRead
  try dsimp only
  repeat' first
    | with_reducible assumption
    | with_reducible refine keepsR_next ?_
    | with_reducible apply State.settleCmds_keeps
    | with_reducible apply State.complete_keeps
    | with_reducible apply State.refuse_keeps
    | with_reducible refine State.refuse_keeps ?_ _ (by with_reducible assumption)
    | with_reducible apply State.readCmd_keeps
    | with_reducible refine keeps_pair (by with_reducible assumption) (State.readCmd_keeps _ _ ?_)
    | with_reducible apply State.latch_keeps
    | with_reducible apply State.askReads_keeps
    | with_reducible refine keeps_ite (fun _ => ?_) (fun _ => ?_)
    | with_reducible refine keepsR_ite (fun _ => ?_) (fun _ => ?_)
    | (simp only [↓keeps_mk]; with_reducible refine keeps_fold ?_)
    | split

theorem execCompare_keeps {s0 s : State} (a0 : Ref) (a1 : Nat) (a2 : Nat) (a3 : Nat) (a4 : Comparison) (h : Keeps s0 s) :
    KeepsR s0 (execCompare a0 a1 a2 a3 a4 s) := by
  unfold execCompare
  try dsimp only
  repeat' first
    | with_reducible assumption
    | with_reducible refine keepsR_next ?_
    | with_reducible apply State.settleCmds_keeps
    | with_reducible apply State.refuse_keeps
    | with_reducible refine State.refuse_keeps ?_ _ (by with_reducible assumption)
    | with_reducible apply State.readCmd_keeps
    | with_reducible refine keeps_pair (by with_reducible assumption) (State.readCmd_keeps _ _ ?_)
    | with_reducible apply State.latch_keeps
    | with_reducible apply State.askReads_keeps
    | with_reducible refine keeps_ite (fun _ => ?_) (fun _ => ?_)
    | with_reducible refine keepsR_ite (fun _ => ?_) (fun _ => ?_)
    | (simp only [↓keeps_mk]; with_reducible refine keeps_fold ?_)
    | split

theorem execWriteUncorrectable_keeps {s0 s : State} (a0 : Ref) (a1 : Nat) (a2 : Nat) (a3 : Nat) (h : Keeps s0 s) :
    KeepsR s0 (execWriteUncorrectable a0 a1 a2 a3 s) := by
  unfold execWriteUncorrectable
  try dsimp only
  repeat' first
    | with_reducible assumption
    | with_reducible refine keepsR_next ?_
    | with_reducible apply State.refuse_keeps
    | with_reducible refine State.refuse_keeps ?_ _ (by with_reducible assumption)
    | with_reducible apply State.latch_keeps
    | with_reducible apply State.enter_keeps
    | with_reducible refine keeps_ite (fun _ => ?_) (fun _ => ?_)
    | with_reducible refine keepsR_ite (fun _ => ?_) (fun _ => ?_)
    | split

theorem execWriteZeroes_keeps {s0 s : State} (a0 : Ref) (a1 : Nat) (a2 : Nat) (a3 : Nat) (h : Keeps s0 s) :
    KeepsR s0 (execWriteZeroes a0 a1 a2 a3 s) := by
  unfold execWriteZeroes
  try dsimp only
  repeat' first
    | with_reducible assumption
    | with_reducible refine keepsR_next ?_
    | with_reducible apply State.refuse_keeps
    | with_reducible refine State.refuse_keeps ?_ _ (by with_reducible assumption)
    | with_reducible apply State.latch_keeps
    | with_reducible apply State.enter_keeps
    | with_reducible refine keeps_ite (fun _ => ?_) (fun _ => ?_)
    | with_reducible refine keepsR_ite (fun _ => ?_) (fun _ => ?_)
    | split

theorem execDatasetManagement_keeps {s0 s : State} (a0 : Ref) (a1 : Nat) (a2 : Nat) (a3 : List (Nat × Nat)) (h : Keeps s0 s) :
    KeepsR s0 (execDatasetManagement a0 a1 a2 a3 s) := by
  unfold execDatasetManagement
  try dsimp only
  repeat' first
    | with_reducible assumption
    | with_reducible refine keepsR_next ?_
    | with_reducible apply State.refuse_keeps
    | with_reducible refine State.refuse_keeps ?_ _ (by with_reducible assumption)
    | with_reducible apply State.latch_keeps
    | with_reducible apply State.enter_keeps
    | with_reducible refine keeps_ite (fun _ => ?_) (fun _ => ?_)
    | with_reducible refine keepsR_ite (fun _ => ?_) (fun _ => ?_)
    | split

theorem execSecureDiscard_keeps {s0 s : State} (a0 : Ref) (a1 : Nat) (a2 : Nat) (a3 : List (Nat × Nat)) (h : Keeps s0 s) :
    KeepsR s0 (execSecureDiscard a0 a1 a2 a3 s) := by
  unfold execSecureDiscard
  try dsimp only
  repeat' first
    | with_reducible assumption
    | with_reducible refine keepsR_next ?_
    | with_reducible apply State.refuse_keeps
    | with_reducible refine State.refuse_keeps ?_ _ (by with_reducible assumption)
    | with_reducible apply State.latch_keeps
    | with_reducible apply State.ticketPump_keeps
    | with_reducible apply State.enter_keeps
    | with_reducible refine keeps_ite (fun _ => ?_) (fun _ => ?_)
    | with_reducible refine keepsR_ite (fun _ => ?_) (fun _ => ?_)
    | (simp only [↓keeps_mk]; with_reducible refine keeps_fold ?_)
    | split

theorem execOrderingPointStamp_keeps {s0 s : State}  (h : Keeps s0 s) :
    KeepsR s0 (execOrderingPointStamp s) := by
  unfold execOrderingPointStamp
  try dsimp only
  repeat' first
    | with_reducible assumption
    | with_reducible refine keepsR_next ?_
    | with_reducible apply State.kick_keeps

/-! ## HostOps -/

theorem State.orphan_keeps {s0 s : State} (a1 : Ref) (h : Keeps s0 s) :
    Keeps s0 (State.orphan s a1) := by
  unfold State.orphan
  try dsimp only
  repeat' first
    | with_reducible assumption
    | with_reducible refine keeps_ite (fun _ => ?_) (fun _ => ?_)
    | (simp only [↓keeps_mk]; with_reducible refine keeps_fold ?_)
    | (with_reducible refine keeps_foldl (fun _ _ _ => ?_) ?_)
    | split

theorem State.dropUnused_keeps {s0 s : State}  (h : Keeps s0 s) :
    Keeps s0 (State.dropUnused s) := by
  unfold State.dropUnused
  try dsimp only
  repeat' first
    | with_reducible assumption
    | (simp only [↓keeps_mk]; with_reducible refine keeps_fold ?_)
    | split

theorem State.dozeRefuse_keeps {s0 s : State}  (h : Keeps s0 s) :
    Keeps s0 (State.dozeRefuse s) := by
  unfold State.dozeRefuse
  try dsimp only
  repeat' first
    | with_reducible assumption
    | with_reducible apply State.post_keeps
    | with_reducible apply State.dozeEnd_keeps

theorem State.dozeAsk_keeps {s0 s : State}  (h : Keeps s0 s) :
    Keeps s0 (State.dozeAsk s) := by
  unfold State.dozeAsk
  try dsimp only
  repeat' first
    | with_reducible assumption
    | with_reducible apply State.dozeRefuse_keeps
    | with_reducible refine keeps_ite (fun _ => ?_) (fun _ => ?_)
    | (simp only [↓keeps_mk]; with_reducible refine keeps_fold ?_)
    | split

theorem State.dozeStart_keeps {s0 s : State}  (h : Keeps s0 s) :
    Keeps s0 (State.dozeStart s) := by
  unfold State.dozeStart
  try dsimp only
  repeat' first
    | with_reducible assumption
    | with_reducible apply State.setFld_keeps
    | with_reducible apply State.dozeAsk_keeps
    | (simp only [↓keeps_mk]; with_reducible refine keeps_fold ?_)

theorem State.psEval_keeps {s0 s : State}  (h : Keeps s0 s) :
    Keeps s0 (State.psEval s) := by
  unfold State.psEval
  try dsimp only
  repeat' first
    | with_reducible assumption
    | with_reducible apply State.setFld_keeps
    | with_reducible apply State.refreshCap_keeps
    | with_reducible apply State.dozeStart_keeps
    | with_reducible refine keeps_ite (fun _ => ?_) (fun _ => ?_)
    | (simp only [↓keeps_mk]; with_reducible refine keeps_fold ?_)
    | split

theorem State.forgetRefs_keeps {s0 s : State} (a1 : List Nat) (h : Keeps s0 s) :
    Keeps s0 (State.forgetRefs s a1) := by
  unfold State.forgetRefs
  try dsimp only
  repeat' first
    | with_reducible assumption
    | with_reducible refine keeps_ite (fun _ => ?_) (fun _ => ?_)
    | (simp only [↓keeps_mk]; with_reducible refine keeps_fold ?_)
    | split

theorem State.endCmds_keeps {s0 s : State} (a1 : List Nat) (h : Keeps s0 s) :
    Keeps s0 (State.endCmds s a1) := by
  unfold State.endCmds
  try dsimp only
  repeat' first
    | with_reducible assumption
    | with_reducible apply State.failRead_keeps
    | with_reducible apply State.dropCmd_keeps
    | with_reducible apply State.sendOwn_keeps
    | with_reducible apply State.dropUnused_keeps
    | with_reducible apply State.orphan_keeps
    | with_reducible apply State.failWrite_keeps
    | with_reducible apply State.forgetRefs_keeps
    | with_reducible apply State.logEntry_keeps
    | with_reducible refine keeps_ite (fun _ => ?_) (fun _ => ?_)
    | (with_reducible refine keeps_foldl (fun _ _ _ => ?_) ?_)
    | split

theorem State.clearCtrl_keeps {s0 s : State} (a1 : Nat) (h : Keeps s0 s) : Keeps s0 (State.clearCtrl s a1) := by
  have hw : Keeps s0 (if s.qe.withheld.any (fun x => refIn [a1] x.ref) then s.wakeEvent 6 else s) :=
    keeps_ite (fun _ => State.wakeEvent_keeps 6 h) (fun _ => h)
  exact hw

theorem State.endCtrls_keeps {s0 s : State} (a1 : List Nat) (h : Keeps s0 s) :
    Keeps s0 (State.endCtrls s a1) := by
  unfold State.endCtrls
  try dsimp only
  repeat' first
    | with_reducible assumption
    | with_reducible apply State.endCmds_keeps
    | with_reducible apply State.psEval_keeps
    | with_reducible apply State.clearCtrl_keeps
    | (simp only [↓keeps_mk]; with_reducible refine keeps_fold ?_)
    | (with_reducible refine keeps_foldl (fun _ _ _ => ?_) ?_)

theorem State.dropReads_keeps {s0 s : State} (a1 : List Nat) (h : Keeps s0 s) :
    Keeps s0 (State.dropReads s a1) := by
  unfold State.dropReads
  try dsimp only
  repeat' first
    | with_reducible assumption
    | with_reducible apply State.retire_keeps
    | (simp only [↓keeps_mk]; with_reducible refine keeps_fold ?_)

theorem State.resetCfg_keeps {s0 s : State} (a1 : List Nat) (a2 : Bool) (h : Keeps s0 s) :
    Keeps s0 (State.resetCfg s a1 a2) := by
  unfold State.resetCfg
  try dsimp only
  repeat' first
    | with_reducible assumption
    | with_reducible apply State.dropReads_keeps
    | with_reducible refine keeps_ite (fun _ => ?_) (fun _ => ?_)
    | (simp only [↓keeps_mk]; with_reducible refine keeps_fold ?_)
    | split

theorem State.updPort_keeps {s0 s : State} (p : Nat) (f : Port → Port) (h : Keeps s0 s) : Keeps s0 (State.updPort s p f) := by
  obtain ⟨a, b, c, d, e, g, i⟩ := h
  exact ⟨a, b, c, d, e, by simp only [State.updPort, List.length_modify]; exact g, i⟩

theorem State.portGone_keeps {s0 s : State} (a1 : Nat) (a2 : Bool) (h : Keeps s0 s) :
    Keeps s0 (State.portGone s a1 a2) := by
  unfold State.portGone
  try dsimp only
  repeat' first
    | with_reducible assumption
    | with_reducible apply State.setReg_keeps
    | with_reducible apply State.settle_keeps
    | with_reducible apply State.resetCfg_keeps
    | with_reducible apply State.endCtrls_keeps
    | with_reducible apply State.updPort_keeps
    | (simp only [↓keeps_mk]; with_reducible refine keeps_fold ?_)

theorem State.train_keeps {s0 s : State} (a1 : Nat) (h : Keeps s0 s) :
    Keeps s0 (State.train s a1) := by
  unfold State.train
  try dsimp only
  repeat' first
    | with_reducible assumption
    | with_reducible apply State.updPort_keeps

/-! ## HostPort -/

theorem execLinkTrainingComplete_keeps {s0 s : State} (a0 : Nat) (a1 : Nat) (a2 : Nat) (a3 : Nat) (a4 : Bool) (h : Keeps s0 s) :
    KeepsR s0 (execLinkTrainingComplete a0 a1 a2 a3 a4 s) := by
  unfold execLinkTrainingComplete
  try dsimp only
  repeat' first
    | with_reducible assumption
    | with_reducible refine keepsR_next ?_
    | with_reducible apply State.post_keeps
    | with_reducible apply State.setReg_keeps
    | with_reducible apply State.setFld_keeps
    | with_reducible apply State.settle_keeps
    | with_reducible apply State.updPort_keeps
    | with_reducible refine keeps_ite (fun _ => ?_) (fun _ => ?_)
    | with_reducible refine keepsR_ite (fun _ => ?_) (fun _ => ?_)
    | split

theorem execLinkRetrainTimer_keeps {s0 s : State} (a0 : Nat) (h : Keeps s0 s) :
    KeepsR s0 (execLinkRetrainTimer a0 s) := by
  unfold execLinkRetrainTimer
  try dsimp only
  repeat' first
    | with_reducible assumption
    | with_reducible refine keepsR_next ?_
    | with_reducible apply State.train_keeps
    | with_reducible apply State.updPort_keeps
    | with_reducible refine keeps_ite (fun _ => ?_) (fun _ => ?_)
    | with_reducible refine keepsR_ite (fun _ => ?_) (fun _ => ?_)
    | split

theorem execRetrainLink_keeps {s0 s : State} (a0 : Nat) (h : Keeps s0 s) :
    KeepsR s0 (execRetrainLink a0 s) := by
  unfold execRetrainLink
  try dsimp only
  repeat' first
    | with_reducible assumption
    | with_reducible refine keepsR_next ?_
    | with_reducible apply State.train_keeps
    | with_reducible apply State.wakeEvent_keeps
    | with_reducible refine keeps_ite (fun _ => ?_) (fun _ => ?_)
    | with_reducible refine keepsR_ite (fun _ => ?_) (fun _ => ?_)
    | split

theorem execL0pRequest_keeps {s0 s : State} (a0 : Nat) (a1 : Nat) (h : Keeps s0 s) :
    KeepsR s0 (execL0pRequest a0 a1 s) := by
  unfold execL0pRequest
  try dsimp only
  repeat' first
    | with_reducible assumption
    | with_reducible refine keepsR_next ?_
    | with_reducible apply State.setFld_keeps
    | with_reducible refine keeps_ite (fun _ => ?_) (fun _ => ?_)
    | with_reducible refine keepsR_ite (fun _ => ?_) (fun _ => ?_)
    | split

theorem execPerstAssert_keeps {s0 s : State} (a0 : Nat) (h : Keeps s0 s) :
    KeepsR s0 (execPerstAssert a0 s) := by
  unfold execPerstAssert
  try dsimp only
  repeat' first
    | with_reducible assumption
    | with_reducible refine keepsR_next ?_
    | with_reducible apply State.post_keeps
    | with_reducible apply State.portGone_keeps
    | with_reducible apply State.wakeEvent_keeps
    | with_reducible apply State.updPort_keeps
    | with_reducible refine keeps_ite (fun _ => ?_) (fun _ => ?_)
    | with_reducible refine keepsR_ite (fun _ => ?_) (fun _ => ?_)
    | split

theorem State.sampleStrap_keeps {s0 s : State}  (h : Keeps s0 s) :
    Keeps s0 (State.sampleStrap s) := by
  unfold State.sampleStrap
  try dsimp only
  repeat' first
    | with_reducible assumption
    | with_reducible apply State.setFld_keeps
    | with_reducible refine keeps_ite (fun _ => ?_) (fun _ => ?_)
    | (simp only [↓keeps_mk]; with_reducible refine keeps_fold ?_)
    | split

theorem State.trainPorts_keeps {s0 s : State}  (h : Keeps s0 s) :
    Keeps s0 (State.trainPorts s) := by
  unfold State.trainPorts
  try dsimp only
  repeat' first
    | with_reducible assumption
    | with_reducible apply State.train_keeps
    | with_reducible refine keeps_ite (fun _ => ?_) (fun _ => ?_)
    | (with_reducible refine keeps_foldl (fun _ _ _ => ?_) ?_)
    | split

theorem execPerstDeassert_keeps {s0 s : State} (a0 : Nat) (a1 : Bool) (h : Keeps s0 s) :
    KeepsR s0 (execPerstDeassert a0 a1 s) := by
  unfold execPerstDeassert
  try dsimp only
  repeat' first
    | with_reducible assumption
    | with_reducible refine keepsR_next ?_
    | with_reducible apply State.sampleStrap_keeps
    | with_reducible apply State.wakeEvent_keeps
    | with_reducible apply State.trainPorts_keeps
    | with_reducible apply State.updPort_keeps
    | with_reducible refine keeps_ite (fun _ => ?_) (fun _ => ?_)
    | with_reducible refine keepsR_ite (fun _ => ?_) (fun _ => ?_)
    | (simp only [↓keeps_mk]; with_reducible refine keeps_fold ?_)
    | split

theorem execHotReset_keeps {s0 s : State} (a0 : Nat) (h : Keeps s0 s) :
    KeepsR s0 (execHotReset a0 s) := by
  unfold execHotReset
  try dsimp only
  repeat' first
    | with_reducible assumption
    | with_reducible refine keepsR_next ?_
    | with_reducible apply State.train_keeps
    | with_reducible apply State.portGone_keeps
    | with_reducible apply State.wakeEvent_keeps
    | with_reducible refine keeps_ite (fun _ => ?_) (fun _ => ?_)
    | with_reducible refine keepsR_ite (fun _ => ?_) (fun _ => ?_)
    | split

theorem execLinkDown_keeps {s0 s : State} (a0 : Nat) (h : Keeps s0 s) :
    KeepsR s0 (execLinkDown a0 s) := by
  unfold execLinkDown
  try dsimp only
  repeat' first
    | with_reducible assumption
    | with_reducible refine keepsR_next ?_
    | with_reducible apply State.train_keeps
    | with_reducible apply State.portGone_keeps
    | with_reducible refine keeps_ite (fun _ => ?_) (fun _ => ?_)
    | with_reducible refine keepsR_ite (fun _ => ?_) (fun _ => ?_)
    | split

theorem execFunctionLevelReset_keeps {s0 s : State} (a0 : Nat) (h : Keeps s0 s) :
    KeepsR s0 (execFunctionLevelReset a0 s) := by
  unfold execFunctionLevelReset
  try dsimp only
  repeat' first
    | with_reducible assumption
    | with_reducible refine keepsR_next ?_
    | with_reducible apply State.wakeEvent_keeps
    | with_reducible apply State.resetCfg_keeps
    | with_reducible apply State.endCtrls_keeps
    | with_reducible refine keeps_ite (fun _ => ?_) (fun _ => ?_)
    | with_reducible refine keepsR_ite (fun _ => ?_) (fun _ => ?_)
    | (simp only [↓keeps_mk]; with_reducible refine keeps_fold ?_)
    | split

theorem execConfigSpaceReady_keeps {s0 s : State} (port : Nat) (cfg : CfgSpace) (h : Keeps s0 s) :
    KeepsR s0 (execConfigSpaceReady port cfg s) := by
  unfold execConfigSpaceReady
  refine keepsR_ite (fun _ => keepsR_next h) (fun _ => keepsR_next ?_)
  obtain ⟨a, b, c, d, e, g, i⟩ := h
  dsimp only
  simp only [↓keeps_mk]
  exact ⟨a, b, c, d, e, by simp only [List.length_modify]; exact g, i⟩

theorem State.poisonBlocks_keeps {s0 s : State} (a1 : Cmd) (a2 : List Nat) (h : Keeps s0 s) :
    Keeps s0 (State.poisonBlocks s a1 a2) := by
  unfold State.poisonBlocks
  try dsimp only
  repeat' first
    | with_reducible assumption
    | with_reducible apply State.poisonCells_keeps
    | with_reducible apply State.updRec_keeps
    | with_reducible refine keeps_ite (fun _ => ?_) (fun _ => ?_)
    | (simp only [↓keeps_mk]; with_reducible refine keeps_fold ?_)
    | (with_reducible refine keeps_foldl (fun _ _ _ => ?_) ?_)
    | split

theorem State.metaBlocks_keeps {s0 s : State} (a1 : Cmd) (a2 : Nat) (a3 : List Nat) (h : Keeps s0 s) :
    Keeps s0 (State.metaBlocks s a1 a2 a3) := by
  unfold State.metaBlocks
  try dsimp only
  repeat' first
    | with_reducible assumption
    | with_reducible apply State.updRec_keeps
    | with_reducible apply State.metaCell_keeps
    | with_reducible refine keeps_ite (fun _ => ?_) (fun _ => ?_)
    | (with_reducible refine keeps_foldl (fun _ _ _ => ?_) ?_)
    | split

theorem State.failCmd_keeps {s0 s : State} (a1 : Ref) (a2 : Status) (h : Keeps s0 s) :
    Keeps s0 (State.failCmd s a1 a2) := by
  unfold State.failCmd
  try dsimp only
  repeat' first
    | with_reducible assumption
    | with_reducible apply State.failRead_keeps
    | with_reducible apply State.failWrite_keeps
    | with_reducible refine keeps_ite (fun _ => ?_) (fun _ => ?_)
    | split

theorem State.endEntry_keeps {s0 s : State} (a1 : Ref) (a2 : Status) (h : Keeps s0 s) :
    Keeps s0 (State.endEntry s a1 a2) := by
  unfold State.endEntry
  try dsimp only
  repeat' first
    | with_reducible assumption
    | with_reducible apply State.complete_keeps
    | with_reducible apply State.latch_keeps

theorem State.updEntry_keeps {s0 s : State} (a1 : Ref) (a2 : Sqe → Sqe) (h : Keeps s0 s) :
    Keeps s0 (State.updEntry s a1 a2) := by
  unfold State.updEntry
  try dsimp only
  repeat' first
    | with_reducible assumption
    | (simp only [↓keeps_mk]; with_reducible refine keeps_fold ?_)
    | split

theorem State.takePtrs_keeps {s0 s : State} (a1 : Ref) (a2 : List (Nat × Nat)) (a3 : Bool) (a4 : Bool) (h : Keeps s0 s) :
    Keeps s0 (State.takePtrs s a1 a2 a3 a4) := by
  unfold State.takePtrs
  try dsimp only
  repeat' first
    | with_reducible assumption
    | with_reducible apply State.post_keeps
    | with_reducible apply State.updEntry_keeps
    | with_reducible apply State.endEntry_keeps
    | with_reducible apply State.readHost_keeps
    | with_reducible refine keeps_ite (fun _ => ?_) (fun _ => ?_)
    | (simp only [↓keeps_mk]; with_reducible refine keeps_fold ?_)
    | split

theorem State.poisonIn_keeps {s0 s : State} (a1 : Nat) (h : Keeps s0 s) :
    Keeps s0 (State.poisonIn s a1) := by
  unfold State.poisonIn
  try dsimp only
  repeat' first
    | with_reducible assumption
    | with_reducible apply State.post_keeps
    | with_reducible apply State.aerPost_keeps

theorem State.arrive_keeps {s0 s : State} (a1 : Nat) (a2 : Nat) (a3 : Nat) (a4 : Nat) (a5 : Option Nat) (a6 : List (Nat × Nat)) (a7 : Bool) (a8 : Bool) (h : Keeps s0 s) :
    Keeps s0 (State.arrive s a1 a2 a3 a4 a5 a6 a7 a8) := by
  unfold State.arrive
  try dsimp only
  repeat' first
    | with_reducible assumption
    | with_reducible apply State.endEntry_keeps
    | with_reducible apply State.takePtrs_keeps
    | with_reducible refine keeps_ite (fun _ => ?_) (fun _ => ?_)
    | (simp only [↓keeps_mk]; with_reducible refine keeps_fold ?_)
    | split

theorem State.sqFetchFail_keeps {s0 s : State} (a1 : MemAcc) (a2 : Nat) (a3 : Nat) (h : Keeps s0 s) :
    Keeps s0 (State.sqFetchFail s a1 a2 a3) := by
  unfold State.sqFetchFail
  try dsimp only
  repeat' first
    | with_reducible assumption
    | with_reducible apply State.post_keeps
    | with_reducible apply State.updCtrl_keeps
    | with_reducible refine keeps_ite (fun _ => ?_) (fun _ => ?_)
    | (simp only [↓keeps_mk]; with_reducible refine keeps_fold ?_)
    | split

theorem State.sqeRead_keeps {s0 s : State} (a1 : Nat) (a2 : MemAcc) (a3 : Nat) (a4 : Nat) (a5 : Nat) (a6 : Nat) (a7 : MemRes) (h : Keeps s0 s) :
    Keeps s0 (State.sqeRead s a1 a2 a3 a4 a5 a6 a7) := by
  unfold State.sqeRead
  try dsimp only
  repeat' first
    | with_reducible assumption
    | with_reducible apply State.retire_keeps
    | with_reducible apply State.updAcc_keeps
    | with_reducible apply State.sqFetchFail_keeps
    | with_reducible apply State.endEntry_keeps
    | with_reducible apply State.arrive_keeps
    | with_reducible apply State.poisonIn_keeps
    | with_reducible refine keeps_ite (fun _ => ?_) (fun _ => ?_)
    | (simp only [↓keeps_mk]; with_reducible refine keeps_fold ?_)
    | split

theorem State.listRead_keeps {s0 s : State} (a1 : Ref) (a2 : MemRes) (h : Keeps s0 s) :
    Keeps s0 (State.listRead s a1 a2) := by
  unfold State.listRead
  try dsimp only
  repeat' first
    | with_reducible assumption
    | with_reducible apply State.post_keeps
    | with_reducible apply State.endEntry_keeps
    | with_reducible apply State.poisonIn_keeps
    | with_reducible apply State.takePtrs_keeps
    | with_reducible refine keeps_ite (fun _ => ?_) (fun _ => ?_)
    | split

theorem State.dataRead_keeps {s0 s : State} (a1 : Ref) (a2 : Nat) (a3 : Bool) (a4 : MemRes) (a5 : List Nat) (h : Keeps s0 s) :
    Keeps s0 (State.dataRead s a1 a2 a3 a4 a5) := by
  unfold State.dataRead
  try dsimp only
  repeat' first
    | with_reducible assumption
    | with_reducible apply State.post_keeps
    | with_reducible apply State.updCmd_keeps
    | with_reducible apply State.failCmd_keeps
    | with_reducible apply State.poisonBlocks_keeps
    | with_reducible apply State.poisonIn_keeps
    | with_reducible apply State.metaBlocks_keeps
    | with_reducible refine keeps_ite (fun _ => ?_) (fun _ => ?_)
    | split

theorem State.flushHeld_keeps {s0 s : State} (a1 : Nat) (a2 : Nat) (h : Keeps s0 s) :
    Keeps s0 (State.flushHeld s a1 a2) := by
  unfold State.flushHeld
  try dsimp only
  repeat' first
    | with_reducible assumption
    | with_reducible apply State.writeCqe_keeps
    | with_reducible apply State.readLeft_keeps
    | with_reducible refine keeps_ite (fun _ => ?_) (fun _ => ?_)
    | (simp only [↓keeps_mk]; with_reducible refine keeps_fold ?_)
    | (with_reducible refine keeps_foldl (fun _ _ _ => ?_) ?_)
    | split

theorem State.badDoorbell_keeps {s0 s : State} (a1 : Nat) (h : Keeps s0 s) :
    Keeps s0 (State.badDoorbell s a1) := by
  unfold State.badDoorbell
  try dsimp only
  repeat' first
    | with_reducible assumption
    | with_reducible apply State.aenTo_keeps

theorem State.headGot_keeps {s0 s : State} (a1 : Nat) (a2 : Nat) (a3 : Nat) (h : Keeps s0 s) :
    Keeps s0 (State.headGot s a1 a2 a3) := by
  unfold State.headGot
  try dsimp only
  repeat' first
    | with_reducible assumption
    | with_reducible apply State.badDoorbell_keeps
    | with_reducible apply State.flushHeld_keeps
    | with_reducible refine keeps_ite (fun _ => ?_) (fun _ => ?_)
    | (simp only [↓keeps_mk]; with_reducible refine keeps_fold ?_)
    | split

theorem State.popReq_keeps {s0 s : State} (a1 : Nat) (a2 : MemAcc) (h : Keeps s0 s) :
    Keeps s0 (State.popReq s a1 a2) := by
  unfold State.popReq
  try dsimp only
  repeat' first
    | with_reducible assumption
    | with_reducible apply State.retire_keeps
    | with_reducible apply State.updAcc_keeps

theorem State.memRead_keeps {s0 s : State} (a1 : MemRead) (a2 : MemRes) (a3 : List Nat) (h : Keeps s0 s) :
    Keeps s0 (State.memRead s a1 a2 a3) := by
  unfold State.memRead
  try dsimp only
  repeat' first
    | with_reducible assumption
    | with_reducible apply State.dataRead_keeps
    | with_reducible apply State.issueReads_keeps
    | with_reducible apply State.popReq_keeps
    | with_reducible apply State.headGot_keeps
    | with_reducible apply State.poisonIn_keeps
    | with_reducible apply State.sweepReads_keeps
    | with_reducible apply State.sqeRead_keeps
    | with_reducible apply State.listRead_keeps
    | split

theorem State.linkNews_keeps {s0 s : State} (a1 : Nat) (a2 : MemIn) (h : Keeps s0 s) :
    Keeps s0 (State.linkNews s a1 a2) := by
  unfold State.linkNews
  try dsimp only
  repeat' first
    | with_reducible assumption
    | with_reducible apply State.setFld_keeps
    | with_reducible apply State.aerPost_keeps
    | with_reducible refine keeps_ite (fun _ => ?_) (fun _ => ?_)
    | (with_reducible refine keeps_foldl (fun _ _ _ => ?_) ?_)
    | split

theorem execMemoryReadCompletion_keeps {s0 s : State} (a0 : MemRead) (a1 : MemIn) (h : Keeps s0 s) :
    KeepsR s0 (execMemoryReadCompletion a0 a1 s) := by
  unfold execMemoryReadCompletion
  try dsimp only
  repeat' first
    | with_reducible assumption
    | with_reducible refine keepsR_next ?_
    | with_reducible apply State.memRead_keeps
    | with_reducible apply State.wakeEvent_keeps
    | with_reducible apply State.linkNews_keeps
    | with_reducible refine keeps_ite (fun _ => ?_) (fun _ => ?_)
    | with_reducible refine keepsR_ite (fun _ => ?_) (fun _ => ?_)
    | split

theorem execCompletionTimeout_keeps {s0 s : State} (a0 : MemRead) (h : Keeps s0 s) :
    KeepsR s0 (execCompletionTimeout a0 s) := by
  unfold execCompletionTimeout
  try dsimp only
  repeat' first
    | with_reducible assumption
    | with_reducible refine keepsR_next ?_
    | with_reducible apply State.memRead_keeps
    | with_reducible apply State.aerPost_keeps
    | with_reducible refine keeps_ite (fun _ => ?_) (fun _ => ?_)
    | with_reducible refine keepsR_ite (fun _ => ?_) (fun _ => ?_)
    | split

theorem execInvalidateRequest_keeps {s0 s : State} (a0 : Nat) (a1 : Nat) (a2 : Nat) (a3 : Nat) (a4 : Nat) (a5 : List (Ref × Nat)) (h : Keeps s0 s) :
    KeepsR s0 (execInvalidateRequest a0 a1 a2 a3 a4 a5 s) := by
  unfold execInvalidateRequest
  try dsimp only
  repeat' first
    | with_reducible assumption
    | with_reducible refine keepsR_next ?_
    | with_reducible apply State.wakeEvent_keeps
    | with_reducible refine keeps_ite (fun _ => ?_) (fun _ => ?_)
    | with_reducible refine keepsR_ite (fun _ => ?_) (fun _ => ?_)
    | (simp only [↓keeps_mk]; with_reducible refine keeps_fold ?_)
    | split

theorem execInvalidateCompletion_keeps {s0 s : State} (a0 : Nat) (h : Keeps s0 s) :
    KeepsR s0 (execInvalidateCompletion a0 s) := by
  unfold execInvalidateCompletion
  try dsimp only
  repeat' first
    | with_reducible assumption
    | with_reducible refine keepsR_next ?_
    | with_reducible apply State.post_keeps
    | with_reducible apply State.emit_keeps
    | with_reducible refine keeps_ite (fun _ => ?_) (fun _ => ?_)
    | with_reducible refine keepsR_ite (fun _ => ?_) (fun _ => ?_)
    | (simp only [↓keeps_mk]; with_reducible refine keeps_fold ?_)
    | split

theorem State.refuseAcc_keeps {s0 s : State} (a1 : MemAcc) (h : Keeps s0 s) :
    Keeps s0 (State.refuseAcc s a1) := by
  unfold State.refuseAcc
  try dsimp only
  repeat' first
    | with_reducible assumption
    | with_reducible apply State.post_keeps
    | with_reducible apply State.failCmd_keeps
    | with_reducible apply State.sqFetchFail_keeps
    | with_reducible apply State.endEntry_keeps
    | with_reducible apply State.stopReads_keeps
    | split

theorem State.fillAtc_keeps {s0 s : State} (a1 : Nat) (a2 : Nat) (a3 : Nat) (a4 : Nat) (h : Keeps s0 s) :
    Keeps s0 (State.fillAtc s a1 a2 a3 a4) := by
  unfold State.fillAtc
  try dsimp only
  repeat' first
    | with_reducible assumption
    | with_reducible refine keeps_ite (fun _ => ?_) (fun _ => ?_)
    | (simp only [↓keeps_mk]; with_reducible refine keeps_fold ?_)
    | (with_reducible refine keeps_foldl (fun _ _ _ => ?_) ?_)
    | split

theorem execTranslationCompletion_keeps {s0 s : State} (a0 : Nat) (a1 : Nat) (a2 : Nat) (a3 : Nat) (a4 : Nat) (h : Keeps s0 s) :
    KeepsR s0 (execTranslationCompletion a0 a1 a2 a3 a4 s) := by
  unfold execTranslationCompletion
  try dsimp only
  repeat' first
    | with_reducible assumption
    | with_reducible refine keepsR_next ?_
    | with_reducible apply State.refuseAcc_keeps
    | with_reducible apply State.wakeEvent_keeps
    | with_reducible apply State.fillAtc_keeps
    | with_reducible apply State.issueReads_keeps
    | with_reducible apply State.emit_keeps
    | with_reducible refine keeps_ite (fun _ => ?_) (fun _ => ?_)
    | with_reducible refine keepsR_ite (fun _ => ?_) (fun _ => ?_)
    | (simp only [↓keeps_mk]; with_reducible refine keeps_fold ?_)
    | (with_reducible refine keeps_foldl (fun _ _ _ => ?_) ?_)
    | split

theorem execD3hotEntry_keeps {s0 s : State} (a0 : Nat) (h : Keeps s0 s) :
    KeepsR s0 (execD3hotEntry a0 s) := by
  unfold execD3hotEntry
  try dsimp only
  repeat' first
    | with_reducible assumption
    | with_reducible refine keepsR_next ?_
    | with_reducible apply State.wakeEvent_keeps
    | with_reducible refine keeps_ite (fun _ => ?_) (fun _ => ?_)
    | with_reducible refine keepsR_ite (fun _ => ?_) (fun _ => ?_)
    | (simp only [↓keeps_mk]; with_reducible refine keeps_fold ?_)
    | split

theorem State.sendPending_keeps {s0 s : State} (a1 : Nat) (h : Keeps s0 s) :
    Keeps s0 (State.sendPending s a1) := by
  unfold State.sendPending
  try dsimp only
  repeat' first
    | with_reducible assumption
    | with_reducible apply State.irq_keeps
    | (simp only [↓keeps_mk]; with_reducible refine keeps_fold ?_)
    | (with_reducible refine keeps_foldl (fun _ _ _ => ?_) ?_)

theorem State.drainFull_keeps {s0 s : State} (a1 : Nat) (h : Keeps s0 s) :
    Keeps s0 (State.drainFull s a1) := by
  unfold State.drainFull
  try dsimp only
  repeat' first
    | with_reducible assumption
    | with_reducible apply State.complete_keeps
    | with_reducible apply State.readLeft_keeps
    | (simp only [↓keeps_mk]; with_reducible refine keeps_fold ?_)
    | (with_reducible refine keeps_foldl (fun _ _ _ => ?_) ?_)

theorem execD3hotExit_keeps {s0 s : State} (a0 : Nat) (h : Keeps s0 s) :
    KeepsR s0 (execD3hotExit a0 s) := by
  unfold execD3hotExit
  try dsimp only
  repeat' first
    | with_reducible assumption
    | with_reducible refine keepsR_next ?_
    | with_reducible apply State.drainFull_keeps
    | with_reducible apply State.settleCmds_keeps
    | with_reducible apply State.wakeEvent_keeps
    | with_reducible apply State.issueReads_keeps
    | with_reducible apply State.sendPending_keeps
    | with_reducible refine keeps_ite (fun _ => ?_) (fun _ => ?_)
    | with_reducible refine keepsR_ite (fun _ => ?_) (fun _ => ?_)
    | (simp only [↓keeps_mk]; with_reducible refine keeps_fold ?_)
    | split

theorem State.setMask_keeps {s0 s : State} (a1 : Nat) (a2 : MaskWrite) (h : Keeps s0 s) :
    Keeps s0 (State.setMask s a1 a2) := by
  unfold State.setMask
  try dsimp only
  repeat' first
    | with_reducible assumption
    | with_reducible apply State.updFn_keeps
    | with_reducible refine keeps_ite (fun _ => ?_) (fun _ => ?_)
    | (simp only [↓keeps_mk]; with_reducible refine keeps_fold ?_)
    | split

theorem execVectorUnmask_keeps {s0 s : State} (a0 : Nat) (a1 : MaskWrite) (h : Keeps s0 s) :
    KeepsR s0 (execVectorUnmask a0 a1 s) := by
  unfold execVectorUnmask
  try dsimp only
  repeat' first
    | with_reducible assumption
    | with_reducible refine keepsR_next ?_
    | with_reducible apply State.setMask_keeps
    | with_reducible apply State.wakeEvent_keeps
    | with_reducible apply State.sendPending_keeps
    | with_reducible refine keeps_ite (fun _ => ?_) (fun _ => ?_)
    | with_reducible refine keepsR_ite (fun _ => ?_) (fun _ => ?_)
    | split

theorem State.setDoe_keeps {s0 s : State} (a1 : Nat) (a2 : Nat) (h : Keeps s0 s) :
    Keeps s0 (State.setDoe s a1 a2) := by
  unfold State.setDoe
  try dsimp only
  repeat' first
    | with_reducible assumption
    | (simp only [↓keeps_mk]; with_reducible refine keeps_fold ?_)

theorem execDoeDataObject_keeps {s0 s : State} (a0 : Nat) (a1 : Nat) (a2 : Nat) (h : Keeps s0 s) :
    KeepsR s0 (execDoeDataObject a0 a1 a2 s) := by
  unfold execDoeDataObject
  try dsimp only
  repeat' first
    | with_reducible assumption
    | with_reducible refine keepsR_next ?_
    | with_reducible apply State.setDoe_keeps
    | with_reducible apply State.wakeEvent_keeps
    | with_reducible apply State.emit_keeps
    | with_reducible refine keeps_ite (fun _ => ?_) (fun _ => ?_)
    | with_reducible refine keepsR_ite (fun _ => ?_) (fun _ => ?_)
    | split

theorem execDoeAbort_keeps {s0 s : State} (a0 : Nat) (h : Keeps s0 s) :
    KeepsR s0 (execDoeAbort a0 s) := by
  unfold execDoeAbort
  try dsimp only
  repeat' first
    | with_reducible assumption
    | with_reducible refine keepsR_next ?_
    | with_reducible apply State.setDoe_keeps
    | with_reducible apply State.wakeEvent_keeps
    | with_reducible refine keeps_ite (fun _ => ?_) (fun _ => ?_)
    | with_reducible refine keepsR_ite (fun _ => ?_) (fun _ => ?_)
    | split

/-! ## HoldUp -/

theorem execPfailNFall_keeps {s0 s : State}  (h : Keeps s0 s) :
    KeepsR s0 (execPfailNFall s) := by
  unfold execPfailNFall
  try dsimp only
  repeat' first
    | with_reducible assumption
    | with_reducible refine keepsR_next ?_
    | with_reducible refine keeps_ite (fun _ => ?_) (fun _ => ?_)
    | with_reducible refine keepsR_ite (fun _ => ?_) (fun _ => ?_)
    | (simp only [↓keeps_mk]; with_reducible refine keeps_fold ?_)
    | split

theorem execPfailDeglitchExpire_keeps {s0 s : State}  (h : Keeps s0 s) :
    KeepsR s0 (execPfailDeglitchExpire s) := by
  unfold execPfailDeglitchExpire
  try dsimp only
  repeat' first
    | with_reducible assumption
    | with_reducible refine keepsR_next ?_
    | with_reducible apply State.lastWake_keeps
    | with_reducible apply State.offRequest_keeps
    | with_reducible refine keeps_ite (fun _ => ?_) (fun _ => ?_)
    | with_reducible refine keepsR_ite (fun _ => ?_) (fun _ => ?_)
    | (simp only [↓keeps_mk]; with_reducible refine keeps_fold ?_)
    | split

theorem execPfailNRise_keeps {s0 s : State}  (h : Keeps s0 s) :
    KeepsR s0 (execPfailNRise s) := by
  unfold execPfailNRise
  try dsimp only
  repeat' first
    | with_reducible assumption
    | with_reducible refine keepsR_next ?_
    | with_reducible apply State.post_keeps
    | with_reducible apply State.setFld_keeps
    | with_reducible refine keeps_ite (fun _ => ?_) (fun _ => ?_)
    | with_reducible refine keepsR_ite (fun _ => ?_) (fun _ => ?_)
    | (simp only [↓keeps_mk]; with_reducible refine keeps_fold ?_)
    | split

theorem execPgoodTimerExpire_keeps {s0 s : State}  (h : Keeps s0 s) :
    KeepsR s0 (execPgoodTimerExpire s) := by
  unfold execPgoodTimerExpire
  try dsimp only
  repeat' first
    | with_reducible assumption
    | with_reducible refine keepsR_next ?_
    | with_reducible apply State.powerUpRequest_keeps
    | with_reducible refine keeps_ite (fun _ => ?_) (fun _ => ?_)
    | with_reducible refine keepsR_ite (fun _ => ?_) (fun _ => ?_)
    | (simp only [↓keeps_mk]; with_reducible refine keeps_fold ?_)
    | split

theorem State.forceHoldover_keeps {s0 s : State}  (h : Keeps s0 s) :
    Keeps s0 (State.forceHoldover s) := by
  unfold State.forceHoldover
  try dsimp only
  repeat' first
    | with_reducible assumption
    | with_reducible apply State.post_keeps
    | with_reducible apply State.enterHoldover_keeps
    | with_reducible refine keeps_ite (fun _ => ?_) (fun _ => ?_)
    | (simp only [↓keeps_mk]; with_reducible refine keeps_fold ?_)
    | split

theorem State.enterHoldUp_keeps {s0 s : State} (h : Keeps s0 s) : Keeps s0 (State.enterHoldUp s) := by
  have last : ∀ (t : State) (m : Mode) (p : Pwr) (k : Stk) (x : List QCtx), Keeps s0 t → Keeps s0 { t with
      mode := m, pwr := p, stk := k, nib := { t.nib with ctxs := x }, fol := t.fol.tallied 1 } := fun _ _ _ _ _ ht => ht
  unfold State.enterHoldUp
  dsimp only
  refine last _ _ _ _ _ (State.forceHoldover_keeps (State.dropStep_keeps ?_))
  exact keeps_foldl (fun _ _ hs => State.abandon_keeps _ hs) (State.endRuns_keeps _ _ (State.abortResync_keeps h))

theorem execHoldupEntry_keeps {s0 s : State} (a0 : AonClock) (a1 : Nat) (h : Keeps s0 s) :
    KeepsR s0 (execHoldupEntry a0 a1 s) := by
  unfold execHoldupEntry
  try dsimp only
  repeat' first
    | with_reducible assumption
    | with_reducible refine keepsR_next ?_
    | with_reducible apply State.closeRows_keeps
    | with_reducible apply State.setFld_keeps
    | with_reducible apply State.lose_keeps
    | with_reducible apply State.enterHoldUp_keeps
    | with_reducible apply State.rulResume_keeps
    | with_reducible apply State.logLost_keeps
    | with_reducible apply State.startDump_keeps
    | with_reducible refine keeps_ite (fun _ => ?_) (fun _ => ?_)
    | with_reducible refine keepsR_ite (fun _ => ?_) (fun _ => ?_)
    | (simp only [↓keeps_mk]; with_reducible refine keeps_fold ?_)
    | split

theorem execHoldupDumpDeadline_keeps {s0 s : State}  (h : Keeps s0 s) :
    KeepsR s0 (execHoldupDumpDeadline s) := by
  unfold execHoldupDumpDeadline
  try dsimp only
  repeat' first
    | with_reducible assumption
    | with_reducible refine keepsR_next ?_
    | with_reducible refine keeps_ite (fun _ => ?_) (fun _ => ?_)
    | with_reducible refine keepsR_ite (fun _ => ?_) (fun _ => ?_)
    | (simp only [↓keeps_mk]; with_reducible refine keeps_fold ?_)
    | split

theorem State.dumpRate_keeps {s0 s : State}  (h : Keeps s0 s) :
    Keeps s0 (State.dumpRate s) := by
  unfold State.dumpRate
  try dsimp only
  repeat' first
    | with_reducible assumption
    | with_reducible apply State.post_keeps
    | with_reducible refine keeps_ite (fun _ => ?_) (fun _ => ?_)
    | split

theorem State.countLost_keeps {s0 s : State}  (h : Keeps s0 s) :
    Keeps s0 (State.countLost s) := by
  unfold State.countLost
  try dsimp only
  repeat' first
    | with_reducible assumption
    | with_reducible refine keeps_ite (fun _ => ?_) (fun _ => ?_)
    | (simp only [↓keeps_mk]; with_reducible refine keeps_fold ?_)
    | split

theorem execHoldupDumpComplete_keeps {s0 s : State}  (h : Keeps s0 s) :
    KeepsR s0 (execHoldupDumpComplete s) := by
  unfold execHoldupDumpComplete
  try dsimp only
  repeat' first
    | with_reducible assumption
    | with_reducible refine keepsR_next ?_
    | with_reducible apply State.closeRows_keeps
    | with_reducible apply State.shutRecord_keeps
    | with_reducible apply State.shutSafe_keeps
    | with_reducible apply State.dumpRate_keeps
    | with_reducible apply State.setFld_keeps
    | with_reducible apply State.countLost_keeps
    | with_reducible refine keeps_ite (fun _ => ?_) (fun _ => ?_)
    | with_reducible refine keepsR_ite (fun _ => ?_) (fun _ => ?_)
    | (simp only [↓keeps_mk]; with_reducible refine keeps_fold ?_)
    | split

theorem execCommitGroupTimeout_keeps {s0 s : State} (a0 : Nat) (h : Keeps s0 s) :
    KeepsR s0 (execCommitGroupTimeout a0 s) := by
  unfold execCommitGroupTimeout
  try dsimp only
  repeat' first
    | with_reducible assumption
    | with_reducible refine keepsR_next ?_
    | with_reducible apply State.pumpBlotter_keeps
    | with_reducible apply State.updPage_keeps
    | with_reducible refine keeps_ite (fun _ => ?_) (fun _ => ?_)
    | with_reducible refine keepsR_ite (fun _ => ?_) (fun _ => ?_)
    | split

theorem execBlotterUnitAge_keeps {s0 s : State} (a0 : Nat) (h : Keeps s0 s) :
    KeepsR s0 (execBlotterUnitAge a0 s) := by
  unfold execBlotterUnitAge
  try dsimp only
  repeat' first
    | with_reducible assumption
    | with_reducible refine keepsR_next ?_
    | with_reducible apply State.pump_keeps
    | with_reducible apply State.updSet_keeps
    | with_reducible apply State.padWp_keeps
    | with_reducible apply State.runWritePoints_keeps
    | with_reducible refine keeps_ite (fun _ => ?_) (fun _ => ?_)
    | with_reducible refine keepsR_ite (fun _ => ?_) (fun _ => ?_)
    | (with_reducible refine keeps_foldl (fun _ _ _ => ?_) ?_)
    | split

/-! ## Power -/

theorem execMinOffTimeExpire_keeps {s0 s : State}  (h : Keeps s0 s) :
    KeepsR s0 (execMinOffTimeExpire s) := by
  unfold execMinOffTimeExpire
  try dsimp only
  repeat' first
    | with_reducible assumption
    | with_reducible refine keepsR_next ?_
    | with_reducible apply State.setFld_keeps
    | with_reducible apply State.powerUpRequest_keeps
    | with_reducible refine keeps_ite (fun _ => ?_) (fun _ => ?_)
    | with_reducible refine keepsR_ite (fun _ => ?_) (fun _ => ?_)
    | (simp only [↓keeps_mk]; with_reducible refine keeps_fold ?_)
    | split

theorem execRailGoodTimeout_keeps {s0 s : State}  (h : Keeps s0 s) :
    KeepsR s0 (execRailGoodTimeout s) := by
  unfold execRailGoodTimeout
  try dsimp only
  repeat' first
    | with_reducible assumption
    | with_reducible refine keepsR_next ?_
    | with_reducible apply State.lastWake_keeps
    | with_reducible apply State.setFld_keeps
    | with_reducible refine keeps_ite (fun _ => ?_) (fun _ => ?_)
    | with_reducible refine keepsR_ite (fun _ => ?_) (fun _ => ?_)
    | (simp only [↓keeps_mk]; with_reducible refine keeps_fold ?_)
    | split

theorem execRailOutOfLimits_keeps {s0 s : State}  (h : Keeps s0 s) :
    KeepsR s0 (execRailOutOfLimits s) := by
  unfold execRailOutOfLimits
  try dsimp only
  repeat' first
    | with_reducible assumption
    | with_reducible refine keepsR_next ?_
    | with_reducible apply State.lastWake_keeps
    | with_reducible apply State.offRequest_keeps
    | with_reducible refine keeps_ite (fun _ => ?_) (fun _ => ?_)
    | with_reducible refine keepsR_ite (fun _ => ?_) (fun _ => ?_)
    | (simp only [↓keeps_mk]; with_reducible refine keeps_fold ?_)
    | split

theorem State.sensorSample_keeps {s0 s : State} (i : Nat) (temps : List Int) (h : Keeps s0 s) : Keeps s0 (State.sensorSample s i temps) := by
  have put : ∀ x : Sensor, Keeps s0 { s with thm := { s.thm with sensors := s.thm.sensors.set i x } } := by
    intro x
    obtain ⟨a, b, c, d, e, f, g, i, j⟩ := h
    exact ⟨a, b, c, d, e, f, g, by simp only [List.length_set]; exact i, j⟩
  unfold State.sensorSample
  split
  · dsimp only
    repeat' first
      | with_reducible assumption
      | with_reducible apply put
      | with_reducible apply State.thermalShutdown_keeps
      | with_reducible apply State.thermEvent_keeps
      | with_reducible apply State.post_keeps
      | with_reducible refine keeps_ite (fun _ => ?_) (fun _ => ?_)
  · exact h

theorem execThermalSensorSample_keeps {s0 s : State} (temps : List Int) (h : Keeps s0 s) : KeepsR s0 (execThermalSensorSample temps s) := by
  unfold execThermalSensorSample
  refine keepsR_ite (fun _ => keepsR_next h) (fun _ => ?_)
  split
  · refine keepsR_next ?_
    obtain ⟨a, b, c, d, e, f, g, i, j⟩ := h
    exact ⟨a, b, c, d, e, f, g, by simp only [List.length_modify]; exact i, j⟩
  · exact keepsR_next h
  · exact keepsR_next h
  · dsimp only
    exact keepsR_next (State.settle_keeps (State.throttle_keeps _ _ (keeps_foldl (fun _ _ hs => State.sensorSample_keeps _ _ hs) h)))

theorem keeps_coolAt {s0 s : State} {c : Option Nat} (h : Keeps s0 s) : Keeps s0 { s with thm := { s.thm with coolAt := c } } := h

theorem execThrottleLevelFall_keeps {s0 s : State} (h : Keeps s0 s) : KeepsR s0 (execThrottleLevelFall s) := by
  unfold execThrottleLevelFall
  dsimp only
  split
  · refine keepsR_ite (fun _ => keepsR_next h) (fun _ => keepsR_next ?_)
    have h1 := State.thermEvent_keeps 0 0xFF s.thm.hotJ 0xFFFF (State.post_keeps F.THM_EVT_STATUS_LEVEL_DOWN noUnit
      (State.setLevel_keeps (s.fld F.THM_STATUS_LEVEL - 1) h))
    exact keeps_coolAt h1
  · exact keepsR_next h

theorem execRateOfRiseWindow_keeps {s0 s : State}  (h : Keeps s0 s) :
    KeepsR s0 (execRateOfRiseWindow s) := by
  unfold execRateOfRiseWindow
  try dsimp only
  repeat' first
    | with_reducible assumption
    | with_reducible refine keepsR_next ?_
    | with_reducible apply State.post_keeps
    | with_reducible apply State.throttle_keeps
    | with_reducible apply State.setFld_keeps
    | with_reducible apply State.thermEvent_keeps
    | with_reducible refine keeps_ite (fun _ => ?_) (fun _ => ?_)
    | with_reducible refine keepsR_ite (fun _ => ?_) (fun _ => ?_)
    | (simp only [↓keeps_mk]; with_reducible refine keeps_fold ?_)
    | split

theorem execThermalHoldRelease_keeps {s0 s : State}  (h : Keeps s0 s) :
    KeepsR s0 (execThermalHoldRelease s) := by
  unfold execThermalHoldRelease
  try dsimp only
  repeat' first
    | with_reducible assumption
    | with_reducible refine keepsR_next ?_
    | with_reducible apply State.powerUpRequest_keeps
    | with_reducible refine keeps_ite (fun _ => ?_) (fun _ => ?_)
    | with_reducible refine keepsR_ite (fun _ => ?_) (fun _ => ?_)
    | (simp only [↓keeps_mk]; with_reducible refine keeps_fold ?_)
    | split

theorem execAvsAckTimeout_keeps {s0 s : State}  (h : Keeps s0 s) :
    KeepsR s0 (execAvsAckTimeout s) := by
  unfold execAvsAckTimeout
  try dsimp only
  repeat' first
    | with_reducible assumption
    | with_reducible refine keepsR_next ?_
    | with_reducible apply State.post_keeps
    | with_reducible apply State.setFld_keeps
    | with_reducible apply State.emit_keeps
    | with_reducible refine keeps_ite (fun _ => ?_) (fun _ => ?_)
    | with_reducible refine keepsR_ite (fun _ => ?_) (fun _ => ?_)
    | (simp only [↓keeps_mk]; with_reducible refine keeps_fold ?_)
    | split

theorem execAvsReadbackPoll_keeps {s0 s : State} (a0 : Nat) (h : Keeps s0 s) :
    KeepsR s0 (execAvsReadbackPoll a0 s) := by
  unfold execAvsReadbackPoll
  try dsimp only
  repeat' first
    | with_reducible assumption
    | with_reducible refine keepsR_next ?_
    | with_reducible apply State.post_keeps
    | with_reducible apply State.avsRequest_keeps
    | with_reducible apply State.setFld_keeps
    | with_reducible refine keeps_ite (fun _ => ?_) (fun _ => ?_)
    | with_reducible refine keepsR_ite (fun _ => ?_) (fun _ => ?_)
    | split

theorem execAvsAcknowledge_keeps {s0 s : State} (a0 : Nat) (h : Keeps s0 s) :
    KeepsR s0 (execAvsAcknowledge a0 s) := by
  unfold execAvsAcknowledge
  try dsimp only
  repeat' first
    | with_reducible assumption
    | with_reducible refine keepsR_next ?_
    | with_reducible apply State.setFld_keeps
    | with_reducible refine keeps_ite (fun _ => ?_) (fun _ => ?_)
    | with_reducible refine keepsR_ite (fun _ => ?_) (fun _ => ?_)
    | (simp only [↓keeps_mk]; with_reducible refine keeps_fold ?_)
    | split

/-! ## Regs -/

theorem State.regReadStep_keeps {s0 s : State} (a1 : Nat) (h : Keeps s0 s) :
    Keeps s0 (State.regReadStep s a1).1 := by
  unfold State.regReadStep
  try dsimp only
  repeat' first
    | with_reducible assumption
    | with_reducible refine keeps_ite (fun _ => ?_) (fun _ => ?_)
    | (simp only [↓keeps_mk]; with_reducible refine keeps_fold ?_)
    | split

theorem State.fieldRefused_keeps {s0 s : State} (a1 : Nat) (a2 : FieldDesc) (h : Keeps s0 s) :
    Keeps s0 (State.fieldRefused s a1 a2) := by
  unfold State.fieldRefused
  try dsimp only
  repeat' first
    | with_reducible assumption
    | with_reducible apply State.post_keeps
    | with_reducible refine keeps_ite (fun _ => ?_) (fun _ => ?_)
    | split

theorem State.afterWrite_keeps {s0 s : State} (a1 : Nat) (h : Keeps s0 s) :
    Keeps s0 (State.afterWrite s a1) := by
  unfold State.afterWrite
  try dsimp only
  repeat' first
    | with_reducible assumption
    | with_reducible apply State.post_keeps
    | with_reducible apply State.loseSource_keeps
    | with_reducible apply State.refreshCap_keeps
    | with_reducible apply State.setLevel_keeps
    | with_reducible apply State.reselect_keeps
    | with_reducible refine keeps_ite (fun _ => ?_) (fun _ => ?_)
    | (simp only [↓keeps_mk]; with_reducible refine keeps_fold ?_)
    | split

theorem State.sealSet_keeps {s0 s : State}  (h : Keeps s0 s) :
    Keeps s0 (State.sealSet s) := by
  unfold State.sealSet
  try dsimp only
  repeat' first
    | with_reducible assumption
    | with_reducible apply State.setFld_keeps
    | with_reducible apply State.folio_keeps
    | with_reducible refine keeps_ite (fun _ => ?_) (fun _ => ?_)
    | (simp only [↓keeps_mk]; with_reducible refine keeps_fold ?_)
    | split

theorem State.fieldWrite_keeps {s0 : State} (off key be v : Nat) (p : State × Bool) (f : FieldDesc) (h : Keeps s0 p.1) :
    Keeps s0 (State.fieldWrite off key be v p f).1 := by
  obtain ⟨s, b⟩ := p
  unfold State.fieldWrite
  dsimp only
  repeat' first
    | with_reducible assumption
    | with_reducible apply State.setFld_keeps
    | with_reducible apply State.trainDue_keeps
    | with_reducible apply State.sealSet_keeps
    | with_reducible apply State.fieldRefused_keeps
    | (simp only [↓keeps_mk]; with_reducible refine keeps_fold ?_)
    | split

theorem State.regWrite_keeps {s0 s : State} (a1 : Nat) (a2 : Nat) (a3 : Nat) (h : Keeps s0 s) :
    Keeps s0 (State.regWrite s a1 a2 a3) := by
  unfold State.regWrite
  try dsimp only
  repeat' first
    | with_reducible assumption
    | with_reducible apply State.post_keeps
    | with_reducible apply State.fieldWrite_keeps
    | with_reducible refine keeps_pair (by with_reducible assumption) (State.fieldWrite_keeps _ _ _ _ _ _ ?_)
    | with_reducible apply State.afterWrite_keeps
    | with_reducible refine keeps_ite (fun _ => ?_) (fun _ => ?_)
    | (with_reducible refine keeps_foldl (fun _ _ _ => ?_) ?_)
    | (with_reducible refine keeps_foldl1 (fun _ _ _ => ?_) ?_)
    | with_reducible refine keeps_pair (by with_reducible assumption) (keeps_foldl1 (fun _ _ _ => ?_) ?_)
    | split

theorem State.scrWrite_keeps {s0 s : State} (off n v : Nat) (h : Keeps s0 s) : Keeps s0 (State.scrWrite s off n v) := by
  unfold State.scrWrite
  refine keeps_ite (fun _ => h) (fun _ => ?_)
  obtain ⟨a, b, c, d⟩ := h
  refine ⟨a, b, ?_, d⟩
  have key : ∀ (l : List Nat) (m : List Host.Cell), Memory.wf m = true →
      Memory.wf (l.foldl (fun m i => windowPut m (off - 0x40000 + i) (BitVec.ofNat 8 (v / 2 ^ (8 * i)))) m) = true := by
    intro l
    induction l with
    | nil => exact fun m h => h
    | cons x l ih => exact fun m h => ih _ (swf_sset _ _ _ _ h)
  exact key _ _ c

theorem State.barWrite_keeps {s0 s : State} (a1 : Nat) (a2 : Nat) (a3 : Nat) (a4 : Nat) (h : Keeps s0 s) :
    Keeps s0 (State.barWrite s a1 a2 a3 a4) := by
  unfold State.barWrite
  try dsimp only
  repeat' first
    | with_reducible assumption
    | with_reducible apply State.scrWrite_keeps
    | with_reducible apply State.regWrite_keeps
    | with_reducible apply State.aerPost_keeps
    | with_reducible apply State.emit_keeps
    | with_reducible refine keeps_ite (fun _ => ?_) (fun _ => ?_)
    | split

theorem execRegisterWrite_keeps {s0 s : State} (a0 : Nat) (a1 : Nat) (a2 : Nat) (a3 : WriteData) (h : Keeps s0 s) :
    KeepsR s0 (execRegisterWrite a0 a1 a2 a3 s) := by
  unfold execRegisterWrite
  try dsimp only
  repeat' first
    | with_reducible assumption
    | with_reducible refine keepsR_next ?_
    | with_reducible apply State.wakeEvent_keeps
    | with_reducible apply State.poisonIn_keeps
    | with_reducible apply State.barWrite_keeps
    | with_reducible refine keeps_ite (fun _ => ?_) (fun _ => ?_)
    | with_reducible refine keepsR_ite (fun _ => ?_) (fun _ => ?_)
    | split

theorem execDevSealWrite_keeps {s0 s : State}  (h : Keeps s0 s) :
    KeepsR s0 (execDevSealWrite s) := by
  unfold execDevSealWrite
  try dsimp only
  repeat' first
    | with_reducible assumption
    | with_reducible refine keepsR_next ?_
    | with_reducible apply State.wakeEvent_keeps
    | with_reducible apply State.sealSet_keeps
    | with_reducible refine keeps_ite (fun _ => ?_) (fun _ => ?_)
    | with_reducible refine keepsR_ite (fun _ => ?_) (fun _ => ?_)
    | split

theorem execLoHiPairRead_keeps {s0 s : State} (a0 : BarRead) (h : Keeps s0 s) :
    KeepsR s0 (execLoHiPairRead a0 s) := by
  unfold execLoHiPairRead
  try dsimp only
  repeat' first
    | with_reducible assumption
    | with_reducible refine keepsR_next ?_
    | with_reducible apply State.postAs_keeps
    | with_reducible apply State.regReadStep_keeps
    | with_reducible refine keeps_pair (by with_reducible assumption) (State.regReadStep_keeps _ ?_)
    | with_reducible apply State.wakeEvent_keeps
    | with_reducible apply State.emit_keeps
    | with_reducible refine keeps_ite (fun _ => ?_) (fun _ => ?_)
    | with_reducible refine keepsR_ite (fun _ => ?_) (fun _ => ?_)
    | split

/-! ## LogPages -/

theorem State.clearShown_keeps {s0 s : State} (a1 : Nat) (a2 : Nat) (h : Keeps s0 s) :
    Keeps s0 (State.clearShown s a1 a2) := by
  unfold State.clearShown
  try dsimp only
  repeat' first
    | with_reducible assumption
    | with_reducible apply State.setReg_keeps
    | with_reducible refine keeps_ite (fun _ => ?_) (fun _ => ?_)
    | (with_reducible refine keeps_foldl (fun _ _ _ => ?_) ?_)
    | split

theorem State.healthRead_keeps {s0 s : State} (a1 : Option Nat) (a2 : Nat) (a3 : Nat) (a4 : Bool) (h : Keeps s0 s) :
    Keeps s0 (State.healthRead s a1 a2 a3 a4) := by
  unfold State.healthRead
  try dsimp only
  repeat' first
    | with_reducible assumption
    | with_reducible apply State.clearShown_keeps
    | with_reducible refine keeps_ite (fun _ => ?_) (fun _ => ?_)
    | (simp only [↓keeps_mk]; with_reducible refine keeps_fold ?_)
    | split

theorem State.pageRead_keeps {s0 s : State} (a1 : Nat) (a2 : Option Nat) (a3 : Nat) (a4 : Nat) (a5 : Bool) (h : Keeps s0 s) :
    Keeps s0 (State.pageRead s a1 a2 a3 a4 a5) := by
  unfold State.pageRead
  try dsimp only
  repeat' first
    | with_reducible assumption
    | with_reducible apply State.updCtrl_keeps
    | with_reducible apply State.healthRead_keeps
    | with_reducible refine keeps_ite (fun _ => ?_) (fun _ => ?_)
    | (simp only [↓keeps_mk]; with_reducible refine keeps_fold ?_)
    | split

theorem State.getLogPage_keeps {s0 s : State} (a1 : Ref) (a2 : Nat) (a3 : Nat) (a4 : Nat) (a5 : Bool) (h : Keeps s0 s) :
    Keeps s0 (State.getLogPage s a1 a2 a3 a4 a5) := by
  unfold State.getLogPage
  try dsimp only
  repeat' first
    | with_reducible assumption
    | with_reducible apply State.complete_keeps
    | with_reducible apply State.pageRead_keeps
    | with_reducible apply State.emit_keeps
    | with_reducible refine keeps_ite (fun _ => ?_) (fun _ => ?_)
    | split

theorem execGetLogPage_keeps {s0 s : State} (a0 : Ref) (a1 : Nat) (a2 : Nat) (a3 : Nat) (a4 : Bool) (h : Keeps s0 s) :
    KeepsR s0 (execGetLogPage a0 a1 a2 a3 a4 s) := by
  unfold execGetLogPage
  try dsimp only
  repeat' first
    | with_reducible assumption
    | with_reducible refine keepsR_next ?_
    | with_reducible apply State.latch_keeps
    | with_reducible apply State.getLogPage_keeps
    | with_reducible refine keeps_ite (fun _ => ?_) (fun _ => ?_)
    | with_reducible refine keepsR_ite (fun _ => ?_) (fun _ => ?_)
    | split

theorem execGetLogPageHealth_keeps {s0 s : State} (a0 : Ref) (a1 : Nat) (a2 : Nat) (a3 : Bool) (h : Keeps s0 s) :
    KeepsR s0 (execGetLogPageHealth a0 a1 a2 a3 s) := by
  unfold execGetLogPageHealth
  try dsimp only
  repeat' first
    | with_reducible assumption
    | with_reducible refine keepsR_next ?_
    | with_reducible apply State.latch_keeps
    | with_reducible apply State.getLogPage_keeps
    | with_reducible refine keeps_ite (fun _ => ?_) (fun _ => ?_)
    | with_reducible refine keepsR_ite (fun _ => ?_) (fun _ => ?_)
    | split

/-! ## Doze -/

theorem execDozeIslandDelayExpire_keeps {s0 s : State} (a0 : Nat) (h : Keeps s0 s) :
    KeepsR s0 (execDozeIslandDelayExpire a0 s) := by
  unfold execDozeIslandDelayExpire
  try dsimp only
  repeat' first
    | with_reducible assumption
    | with_reducible refine keepsR_next ?_
    | with_reducible apply State.dozeRefuse_keeps
    | with_reducible apply State.dozeAsk_keeps
    | with_reducible refine keeps_ite (fun _ => ?_) (fun _ => ?_)
    | with_reducible refine keepsR_ite (fun _ => ?_) (fun _ => ?_)
    | (simp only [↓keeps_mk]; with_reducible refine keeps_fold ?_)
    | split

theorem State.dozeWork_keeps {s0 s : State} (a1 : Nat) (h : Keeps s0 s) :
    Keeps s0 (State.dozeWork s a1) := by
  unfold State.dozeWork
  try dsimp only
  repeat' first
    | with_reducible assumption
    | with_reducible apply State.pump_keeps
    | with_reducible apply State.closeRows_keeps
    | with_reducible apply State.padWp_keeps
    | (simp only [↓keeps_mk]; with_reducible refine keeps_fold ?_)
    | (with_reducible refine keeps_foldl (fun _ _ _ => ?_) ?_)
    | split

theorem State.dozeEnter_keeps {s0 s : State} (a1 : Nat) (h : Keeps s0 s) :
    Keeps s0 (State.dozeEnter s a1) := by
  unfold State.dozeEnter
  try dsimp only
  repeat' first
    | with_reducible assumption
    | with_reducible apply State.post_keeps
    | with_reducible apply State.avsRequest_keeps
    | with_reducible apply State.setFld_keeps
    | with_reducible apply State.rulStop_keeps
    | with_reducible apply State.postWithheld_keeps
    | with_reducible refine keeps_ite (fun _ => ?_) (fun _ => ?_)
    | (simp only [↓keeps_mk]; with_reducible refine keeps_fold ?_)
    | split

theorem execDozeAbortPoint_keeps {s0 s : State}  (h : Keeps s0 s) :
    KeepsR s0 (execDozeAbortPoint s) := by
  unfold execDozeAbortPoint
  try dsimp only
  repeat' first
    | with_reducible assumption
    | with_reducible refine keepsR_next ?_
    | with_reducible apply State.dozeWork_keeps
    | with_reducible apply State.dozeAbandon_keeps
    | with_reducible apply State.dozeEnter_keeps
    | with_reducible apply State.setFld_keeps
    | with_reducible refine keeps_ite (fun _ => ?_) (fun _ => ?_)
    | with_reducible refine keepsR_ite (fun _ => ?_) (fun _ => ?_)
    | split

theorem execDozeEntryRetry_keeps {s0 s : State}  (h : Keeps s0 s) :
    KeepsR s0 (execDozeEntryRetry s) := by
  unfold execDozeEntryRetry
  try dsimp only
  repeat' first
    | with_reducible assumption
    | with_reducible refine keepsR_next ?_
    | with_reducible apply State.dozeStart_keeps
    | with_reducible refine keeps_ite (fun _ => ?_) (fun _ => ?_)
    | with_reducible refine keepsR_ite (fun _ => ?_) (fun _ => ?_)
    | split

theorem State.dozeWake_keeps {s0 s : State} (src : Nat) (clk : AonClock) (ns : Nat) (h : Keeps s0 s) :
    Keeps s0 (State.dozeWake s src clk ns) := by
  have wake : ∀ (x : State) (m : Mode) (p : Pwr) (g : Gce) (q : Qe), Keeps s0 x → Keeps s0 { x with
      mode := m, pwr := p, gce := g, evu := { x.evu with deferred := [] }, qe := q } := fun x m p g q hx => hx
  have h1 := State.rulResume_keeps clk ns (State.avsRequest_keeps (s.fld F.PWR_AVS_VNOM)
    (State.setFld_keeps F.RUL_LINE_PITCH_ACTIVE (s.fld F.RUL_LINE_PITCH_PITCH) h))
  unfold State.dozeWake
  dsimp only
  refine State.settle_keeps (State.refreshCap_keeps (State.post_keeps _ _ (State.postDeferred_keeps _
    (State.setFld_keeps _ _ (State.setFld_keeps _ _ (wake _ _ _ _ _ (keeps_foldl (fun _ _ hs => State.trainDue_keeps _ hs)
      (State.lastWake_keeps _ _ _ (keeps_ite (fun _ => h1) (fun _ => State.post_keeps _ _ h1))))))))))

/-! ## Reservations -/

theorem State.updNs_keeps {s0 s : State} (a1 : Nat) (a2 : Ns → Ns) (h : Keeps s0 s) :
    Keeps s0 (State.updNs s a1 a2) := by
  unfold State.updNs
  try dsimp only
  repeat' first
    | with_reducible assumption
    | (simp only [↓keeps_mk]; with_reducible refine keeps_fold ?_)

theorem State.rsvNotify_keeps {s0 s : State} (a1 : Nat) (a2 : Nat) (a3 : List Nat) (h : Keeps s0 s) :
    Keeps s0 (State.rsvNotify s a1 a2 a3) := by
  unfold State.rsvNotify
  try dsimp only
  repeat' first
    | with_reducible assumption
    | with_reducible apply State.aenTo_keeps
    | with_reducible refine keeps_ite (fun _ => ?_) (fun _ => ?_)
    | (simp only [↓keeps_mk]; with_reducible refine keeps_fold ?_)
    | (with_reducible refine keeps_foldl (fun _ _ _ => ?_) ?_)
    | split

theorem State.rsvEnd_keeps {s0 s : State} (a1 : Ref) (a2 : Nat) (a3 : Resv) (a4 : Resv) (h : Keeps s0 s) :
    Keeps s0 (State.rsvEnd s a1 a2 a3 a4) := by
  unfold State.rsvEnd
  try dsimp only
  repeat' first
    | with_reducible assumption
    | with_reducible apply State.complete_keeps
    | with_reducible apply State.folio_keeps
    | with_reducible refine keeps_ite (fun _ => ?_) (fun _ => ?_)
    | split

theorem execReservationRegister_keeps {s0 s : State} (a0 : Ref) (a1 : Nat) (a2 : Nat) (a3 : Bool) (a4 : Nat) (a5 : Nat) (a6 : Nat) (h : Keeps s0 s) :
    KeepsR s0 (execReservationRegister a0 a1 a2 a3 a4 a5 a6 s) := by
  unfold execReservationRegister
  try dsimp only
  repeat' first
    | with_reducible assumption
    | with_reducible refine keepsR_next ?_
    | with_reducible apply State.refuse_keeps
    | with_reducible refine State.refuse_keeps ?_ _ (by with_reducible assumption)
    | with_reducible apply State.latch_keeps
    | with_reducible apply State.rsvEnd_keeps
    | with_reducible apply State.updNs_keeps
    | with_reducible apply State.rsvNotify_keeps
    | with_reducible refine keeps_ite (fun _ => ?_) (fun _ => ?_)
    | with_reducible refine keepsR_ite (fun _ => ?_) (fun _ => ?_)
    | split

theorem execReservationReport_keeps {s0 s : State} (a0 : Ref) (a1 : Nat) (a2 : Bool) (h : Keeps s0 s) :
    KeepsR s0 (execReservationReport a0 a1 a2 s) := by
  unfold execReservationReport
  try dsimp only
  repeat' first
    | with_reducible assumption
    | with_reducible refine keepsR_next ?_
    | with_reducible apply State.complete_keeps
    | with_reducible apply State.refuse_keeps
    | with_reducible refine State.refuse_keeps ?_ _ (by with_reducible assumption)
    | with_reducible apply State.latch_keeps
    | with_reducible apply State.emit_keeps
    | with_reducible refine keeps_ite (fun _ => ?_) (fun _ => ?_)
    | with_reducible refine keepsR_ite (fun _ => ?_) (fun _ => ?_)
    | split

theorem State.preemptAbort_keeps {s0 s : State} (a1 : Nat) (a2 : List Nat) (h : Keeps s0 s) :
    Keeps s0 (State.preemptAbort s a1 a2) := by
  unfold State.preemptAbort
  try dsimp only
  repeat' first
    | with_reducible assumption
    | with_reducible apply State.failRead_keeps
    | (with_reducible refine keeps_foldl (fun _ _ _ => ?_) ?_)
    | split

theorem execReservationAcquire_keeps {s0 s : State} (a0 : Ref) (a1 : Nat) (a2 : Nat) (a3 : Bool) (a4 : Nat) (a5 : Nat) (a6 : Nat) (h : Keeps s0 s) :
    KeepsR s0 (execReservationAcquire a0 a1 a2 a3 a4 a5 a6 s) := by
  unfold execReservationAcquire
  try dsimp only
  repeat' first
    | with_reducible assumption
    | with_reducible refine keepsR_next ?_
    | with_reducible apply State.refuse_keeps
    | with_reducible refine State.refuse_keeps ?_ _ (by with_reducible assumption)
    | with_reducible apply State.latch_keeps
    | with_reducible apply State.rsvEnd_keeps
    | with_reducible apply State.updNs_keeps
    | with_reducible apply State.rsvNotify_keeps
    | with_reducible apply State.preemptAbort_keeps
    | with_reducible refine keeps_ite (fun _ => ?_) (fun _ => ?_)
    | with_reducible refine keepsR_ite (fun _ => ?_) (fun _ => ?_)
    | split

theorem execReservationRelease_keeps {s0 s : State} (a0 : Ref) (a1 : Nat) (a2 : Nat) (a3 : Bool) (a4 : Nat) (a5 : Nat) (h : Keeps s0 s) :
    KeepsR s0 (execReservationRelease a0 a1 a2 a3 a4 a5 s) := by
  unfold execReservationRelease
  try dsimp only
  repeat' first
    | with_reducible assumption
    | with_reducible refine keepsR_next ?_
    | with_reducible apply State.refuse_keeps
    | with_reducible refine State.refuse_keeps ?_ _ (by with_reducible assumption)
    | with_reducible apply State.latch_keeps
    | with_reducible apply State.rsvEnd_keeps
    | with_reducible apply State.updNs_keeps
    | with_reducible apply State.rsvNotify_keeps
    | with_reducible refine keeps_ite (fun _ => ?_) (fun _ => ?_)
    | with_reducible refine keepsR_ite (fun _ => ?_) (fun _ => ?_)
    | split

/-! ## Features -/

theorem State.begin_keeps {s0 s : State} (a1 : Ref) (a2 : State → State) (ka2 : ∀ x0, Keeps s0 x0 → Keeps s0 (a2 x0)) (h : Keeps s0 s) :
    KeepsR s0 (State.begin s a1 a2) := by
  unfold State.begin
  try dsimp only
  repeat' first
    | with_reducible assumption
    | with_reducible apply ka2
    | with_reducible refine keepsR_next ?_
    | with_reducible apply State.latch_keeps
    | with_reducible refine keeps_ite (fun _ => ?_) (fun _ => ?_)
    | with_reducible refine keepsR_ite (fun _ => ?_) (fun _ => ?_)
    | split

theorem State.featEnd_keeps {s0 s : State} (a1 : Ref) (a2 : List Feat) (h : Keeps s0 s) :
    Keeps s0 (State.featEnd s a1 a2) := by
  unfold State.featEnd
  try dsimp only
  repeat' first
    | with_reducible assumption
    | with_reducible apply State.saveFeat_keeps
    | with_reducible apply State.complete_keeps
    | with_reducible apply State.folio_keeps
    | with_reducible refine keeps_ite (fun _ => ?_) (fun _ => ?_)
    | (simp only [↓keeps_mk]; with_reducible refine keeps_fold ?_)
    | (with_reducible refine keeps_foldl (fun _ _ _ => ?_) ?_)
    | split

theorem State.featSet_keeps {s0 s : State} (a1 : Ref) (a2 : Bool) (a3 : Nat) (a4 : Nat) (a5 : Nat) (h : Keeps s0 s) :
    Keeps s0 (State.featSet s a1 a2 a3 a4 a5) := by
  unfold State.featSet
  try dsimp only
  repeat' first
    | with_reducible assumption
    | with_reducible apply State.setFeat_keeps
    | with_reducible apply State.featEnd_keeps
    | with_reducible refine keeps_ite (fun _ => ?_) (fun _ => ?_)
    | split

theorem State.vendorSet_keeps {s0 s : State} (a1 : Ref) (a2 : State → State) (ka2 : ∀ x0, Keeps s0 x0 → Keeps s0 (a2 x0)) (h : Keeps s0 s) :
    Keeps s0 (State.vendorSet s a1 a2) := by
  unfold State.vendorSet
  try dsimp only
  repeat' first
    | with_reducible assumption
    | with_reducible apply ka2
    | with_reducible apply State.complete_keeps
    | with_reducible refine keeps_ite (fun _ => ?_) (fun _ => ?_)
    | split

theorem State.unsaved_keeps {s0 s : State} (a1 : Ref) (a2 : Bool) (a3 : State → State) (ka3 : ∀ x0, Keeps s0 x0 → Keeps s0 (a3 x0)) (h : Keeps s0 s) :
    Keeps s0 (State.unsaved s a1 a2 a3) := by
  unfold State.unsaved
  try dsimp only
  repeat' first
    | with_reducible assumption
    | with_reducible apply ka3
    | with_reducible apply State.complete_keeps
    | with_reducible refine keeps_ite (fun _ => ?_) (fun _ => ?_)
    | split

theorem State.setPower_keeps {s0 s : State} (a1 : Ref) (a2 : Nat) (h : Keeps s0 s) :
    Keeps s0 (State.setPower s a1 a2) := by
  unfold State.setPower
  try dsimp only
  repeat' first
    | with_reducible assumption
    | with_reducible apply State.updCtrl_keeps
    | with_reducible apply State.psEval_keeps
    | with_reducible apply State.complete_keeps
    | with_reducible apply State.dozeStart_keeps
    | with_reducible refine keeps_ite (fun _ => ?_) (fun _ => ?_)
    | (simp only [↓keeps_mk]; with_reducible refine keeps_fold ?_)
    | split

theorem State.setQueues_keeps {s0 s : State} (a1 : Ref) (a2 : Nat) (h : Keeps s0 s) :
    Keeps s0 (State.setQueues s a1 a2) := by
  unfold State.setQueues
  try dsimp only
  repeat' first
    | with_reducible assumption
    | with_reducible apply State.updCtrl_keeps
    | with_reducible apply State.complete_keeps
    | with_reducible refine keeps_ite (fun _ => ?_) (fun _ => ?_)
    | split

theorem State.setFdp_keeps {s0 s : State} (a1 : Ref) (a2 : Bool) (h : Keeps s0 s) :
    Keeps s0 (State.setFdp s a1 a2) := by
  unfold State.setFdp
  try dsimp only
  repeat' first
    | with_reducible assumption
    | with_reducible apply State.complete_keeps
    | with_reducible refine keeps_ite (fun _ => ?_) (fun _ => ?_)
    | (simp only [↓keeps_mk]; with_reducible refine keeps_fold ?_)
    | split

theorem State.setPolicy_keeps {s0 s : State} (a1 : Ref) (a2 : Nat) (a3 : Bool) (a4 : Nat) (h : Keeps s0 s) :
    Keeps s0 (State.setPolicy s a1 a2 a3 a4) := by
  unfold State.setPolicy
  try dsimp only
  repeat' first
    | with_reducible assumption
    | with_reducible apply State.vendorSet_keeps
    | with_reducible apply State.complete_keeps
    | with_reducible apply State.setFeat_keeps
    | with_reducible apply State.featEnd_keeps
    | with_reducible refine keeps_ite (fun _ => ?_) (fun _ => ?_)
    | (with_reducible refine keeps_foldl (fun _ _ _ => ?_) ?_)
    | split
    | (intro _; intros; try dsimp only)

theorem State.setDeadline_keeps {s0 s : State} (a1 : Ref) (a2 : Bool) (a3 : Nat) (h : Keeps s0 s) :
    Keeps s0 (State.setDeadline s a1 a2 a3) := by
  unfold State.setDeadline
  try dsimp only
  repeat' first
    | with_reducible assumption
    | with_reducible apply State.vendorSet_keeps
    | with_reducible apply State.featSet_keeps
    | with_reducible refine keeps_ite (fun _ => ?_) (fun _ => ?_)
    | split
    | (intro _; intros; try dsimp only)

theorem State.setCap_keeps {s0 s : State} (a1 : Ref) (a2 : Bool) (a3 : Nat) (h : Keeps s0 s) :
    Keeps s0 (State.setCap s a1 a2 a3) := by
  unfold State.setCap
  try dsimp only
  repeat' first
    | with_reducible assumption
    | with_reducible apply State.vendorSet_keeps
    | with_reducible apply State.featSet_keeps
    | with_reducible apply State.refreshCap_keeps
    | (simp only [↓keeps_mk]; with_reducible refine keeps_fold ?_)
    | split
    | (intro _; intros; try dsimp only)

theorem State.setPrio_keeps {s0 s : State} (a1 : Ref) (a2 : Bool) (a3 : Nat) (h : Keeps s0 s) :
    Keeps s0 (State.setPrio s a1 a2 a3) := by
  unfold State.setPrio
  try dsimp only
  repeat' first
    | with_reducible assumption
    | with_reducible apply State.vendorSet_keeps
    | with_reducible apply State.featSet_keeps
    | with_reducible apply State.setFld_keeps
    | with_reducible apply State.complete_keeps
    | with_reducible refine keeps_ite (fun _ => ?_) (fun _ => ?_)
    | split
    | (intro _; intros; try dsimp only)

theorem State.setPatrol_keeps {s0 s : State} (a1 : Ref) (a2 : Bool) (a3 : Nat) (h : Keeps s0 s) :
    Keeps s0 (State.setPatrol s a1 a2 a3) := by
  unfold State.setPatrol
  try dsimp only
  repeat' first
    | with_reducible assumption
    | with_reducible apply State.vendorSet_keeps
    | with_reducible apply State.featSet_keeps
    | with_reducible apply State.complete_keeps
    | with_reducible refine keeps_ite (fun _ => ?_) (fun _ => ?_)
    | split
    | (intro _; intros; try dsimp only)

theorem State.setLimits_keeps {s0 s : State} (a1 : Ref) (a2 : Bool) (a3 : Nat) (h : Keeps s0 s) :
    Keeps s0 (State.setLimits s a1 a2 a3) := by
  unfold State.setLimits
  try dsimp only
  repeat' first
    | with_reducible assumption
    | with_reducible apply State.vendorSet_keeps
    | with_reducible apply State.featSet_keeps
    | with_reducible apply State.setFld_keeps
    | with_reducible apply State.complete_keeps
    | with_reducible refine keeps_ite (fun _ => ?_) (fun _ => ?_)
    | split
    | (intro _; intros; try dsimp only)

theorem State.setOwnerLock_keeps {s0 s : State} (a1 : Ref) (a2 : Nat) (a3 : Option OwnerToken) (h : Keeps s0 s) :
    Keeps s0 (State.setOwnerLock s a1 a2 a3) := by
  unfold State.setOwnerLock
  try dsimp only
  repeat' first
    | with_reducible assumption
    | with_reducible apply State.vendorSet_keeps
    | with_reducible apply State.complete_keeps
    | with_reducible apply State.folio_keeps
    | with_reducible refine keeps_ite (fun _ => ?_) (fun _ => ?_)
    | (simp only [↓keeps_mk]; with_reducible refine keeps_fold ?_)
    | split
    | (intro _; intros; try dsimp only)

theorem State.setInk_keeps {s0 s : State} (a1 : Ref) (a2 : Bool) (a3 : Nat) (h : Keeps s0 s) :
    Keeps s0 (State.setInk s a1 a2 a3) := by
  unfold State.setInk
  try dsimp only
  repeat' first
    | with_reducible assumption
    | with_reducible apply State.vendorSet_keeps
    | with_reducible apply State.featSet_keeps
    | split
    | (intro _; intros; try dsimp only)

theorem State.setTemp_keeps {s0 s : State} (a1 : Ref) (a2 : Nat) (h : Keeps s0 s) :
    Keeps s0 (State.setTemp s a1 a2) := by
  unfold State.setTemp
  try dsimp only
  repeat' first
    | with_reducible assumption
    | with_reducible apply State.complete_keeps
    | with_reducible apply State.setFeat_keeps
    | with_reducible refine keeps_ite (fun _ => ?_) (fun _ => ?_)
    | (with_reducible refine keeps_foldl (fun _ _ _ => ?_) ?_)
    | split

theorem State.setHostId_keeps {s0 s : State} (a1 : Ref) (a2 : Nat) (a3 : Nat) (h : Keeps s0 s) :
    Keeps s0 (State.setHostId s a1 a2 a3) := by
  unfold State.setHostId
  try dsimp only
  repeat' first
    | with_reducible assumption
    | with_reducible apply State.updCtrl_keeps
    | with_reducible apply State.complete_keeps
    | with_reducible refine keeps_ite (fun _ => ?_) (fun _ => ?_)
    | split

theorem State.setPersist_keeps {s0 s : State} (a1 : Ref) (a2 : Nat) (a3 : Nat) (h : Keeps s0 s) :
    Keeps s0 (State.setPersist s a1 a2 a3) := by
  unfold State.setPersist
  try dsimp only
  repeat' first
    | with_reducible assumption
    | with_reducible apply State.complete_keeps
    | with_reducible apply State.updNs_keeps
    | with_reducible apply State.folio_keeps
    | with_reducible refine keeps_ite (fun _ => ?_) (fun _ => ?_)
    | (with_reducible refine keeps_foldl (fun _ _ _ => ?_) ?_)
    | split

theorem State.setNsFeat_keeps {s0 s : State} (a1 : Ref) (a2 : Nat) (a3 : Nat) (a4 : Nat) (h : Keeps s0 s) :
    Keeps s0 (State.setNsFeat s a1 a2 a3 a4) := by
  unfold State.setNsFeat
  try dsimp only
  repeat' first
    | with_reducible assumption
    | with_reducible apply State.complete_keeps
    | with_reducible apply State.setFeat_keeps
    | with_reducible refine keeps_ite (fun _ => ?_) (fun _ => ?_)
    | (with_reducible refine keeps_foldl (fun _ _ _ => ?_) ?_)
    | split

theorem execSetFeatures_keeps {s0 s : State} (a0 : Ref) (a1 : Nat) (a2 : Nat) (a3 : Nat) (a4 : Bool) (a5 : Nat) (h : Keeps s0 s) :
    KeepsR s0 (execSetFeatures a0 a1 a2 a3 a4 a5 s) := by
  unfold execSetFeatures
  try dsimp only
  repeat' first
    | with_reducible assumption
    | with_reducible refine keepsR_next ?_
    | with_reducible apply State.setCap_keeps
    | with_reducible apply State.setPolicy_keeps
    | with_reducible apply State.setPrio_keeps
    | with_reducible apply State.setPatrol_keeps
    | with_reducible apply State.setNsFeat_keeps
    | with_reducible apply State.setDeadline_keeps
    | with_reducible apply State.setInk_keeps
    | with_reducible apply State.unsaved_keeps
    | with_reducible apply State.complete_keeps
    | with_reducible apply State.setFeat_keeps
    | with_reducible apply State.setQueues_keeps
    | with_reducible apply State.setLimits_keeps
    | with_reducible apply State.setOwnerLock_keeps
    | with_reducible apply State.setHostId_keeps
    | with_reducible apply State.begin_keeps
    | with_reducible refine State.begin_keeps ?_ _ (by with_reducible assumption)
    | with_reducible apply State.setPersist_keeps
    | with_reducible apply State.setTemp_keeps
    | with_reducible apply State.setPower_keeps
    | with_reducible apply State.setFdp_keeps
    | split
    | (intro _; intros; try dsimp only)

theorem execSetFeaturesPowerMgmt_keeps {s0 s : State} (a0 : Ref) (a1 : Bool) (a2 : Nat) (h : Keeps s0 s) :
    KeepsR s0 (execSetFeaturesPowerMgmt a0 a1 a2 s) := by
  unfold execSetFeaturesPowerMgmt
  try dsimp only
  repeat' first
    | with_reducible assumption
    | with_reducible refine keepsR_next ?_
    | with_reducible apply State.unsaved_keeps
    | with_reducible apply State.begin_keeps
    | with_reducible refine State.begin_keeps ?_ _ (by with_reducible assumption)
    | with_reducible apply State.setPower_keeps
    | split
    | (intro _; intros; try dsimp only)

theorem execSetFeaturesNumQueues_keeps {s0 s : State} (a0 : Ref) (a1 : Bool) (a2 : Nat) (h : Keeps s0 s) :
    KeepsR s0 (execSetFeaturesNumQueues a0 a1 a2 s) := by
  unfold execSetFeaturesNumQueues
  try dsimp only
  repeat' first
    | with_reducible assumption
    | with_reducible refine keepsR_next ?_
    | with_reducible apply State.unsaved_keeps
    | with_reducible apply State.setQueues_keeps
    | with_reducible apply State.begin_keeps
    | with_reducible refine State.begin_keeps ?_ _ (by with_reducible assumption)
    | split
    | (intro _; intros; try dsimp only)

theorem execSetFeaturesEnvelopeCap_keeps {s0 s : State} (a0 : Ref) (a1 : Bool) (a2 : Nat) (h : Keeps s0 s) :
    KeepsR s0 (execSetFeaturesEnvelopeCap a0 a1 a2 s) := by
  unfold execSetFeaturesEnvelopeCap
  try dsimp only
  repeat' first
    | with_reducible assumption
    | with_reducible refine keepsR_next ?_
    | with_reducible apply State.setCap_keeps
    | with_reducible apply State.begin_keeps
    | with_reducible refine State.begin_keeps ?_ _ (by with_reducible assumption)
    | split
    | (intro _; intros; try dsimp only)

theorem execSetFeaturesRulingPriority_keeps {s0 s : State} (a0 : Ref) (a1 : Bool) (a2 : Nat) (h : Keeps s0 s) :
    KeepsR s0 (execSetFeaturesRulingPriority a0 a1 a2 s) := by
  unfold execSetFeaturesRulingPriority
  try dsimp only
  repeat' first
    | with_reducible assumption
    | with_reducible refine keepsR_next ?_
    | with_reducible apply State.setPrio_keeps
    | with_reducible apply State.begin_keeps
    | with_reducible refine State.begin_keeps ?_ _ (by with_reducible assumption)
    | split
    | (intro _; intros; try dsimp only)

theorem execSetFeaturesThermalLimits_keeps {s0 s : State} (a0 : Ref) (a1 : Bool) (a2 : Nat) (h : Keeps s0 s) :
    KeepsR s0 (execSetFeaturesThermalLimits a0 a1 a2 s) := by
  unfold execSetFeaturesThermalLimits
  try dsimp only
  repeat' first
    | with_reducible assumption
    | with_reducible refine keepsR_next ?_
    | with_reducible apply State.setLimits_keeps
    | with_reducible apply State.begin_keeps
    | with_reducible refine State.begin_keeps ?_ _ (by with_reducible assumption)
    | split
    | (intro _; intros; try dsimp only)

theorem execSetFeaturesOwnerUpdateLock_keeps {s0 s : State} (a0 : Ref) (a1 : Nat) (a2 : Option OwnerToken) (h : Keeps s0 s) :
    KeepsR s0 (execSetFeaturesOwnerUpdateLock a0 a1 a2 s) := by
  unfold execSetFeaturesOwnerUpdateLock
  try dsimp only
  repeat' first
    | with_reducible assumption
    | with_reducible refine keepsR_next ?_
    | with_reducible apply State.setOwnerLock_keeps
    | with_reducible apply State.begin_keeps
    | with_reducible refine State.begin_keeps ?_ _ (by with_reducible assumption)
    | split
    | (intro _; intros; try dsimp only)

theorem execSetFeaturesCompletionPolicy_keeps {s0 s : State} (a0 : Ref) (a1 : Nat) (a2 : Bool) (a3 : Nat) (h : Keeps s0 s) :
    KeepsR s0 (execSetFeaturesCompletionPolicy a0 a1 a2 a3 s) := by
  unfold execSetFeaturesCompletionPolicy
  try dsimp only
  repeat' first
    | with_reducible assumption
    | with_reducible refine keepsR_next ?_
    | with_reducible apply State.setPolicy_keeps
    | with_reducible apply State.begin_keeps
    | with_reducible refine State.begin_keeps ?_ _ (by with_reducible assumption)
    | split
    | (intro _; intros; try dsimp only)

theorem execSetFeaturesDeadlineReads_keeps {s0 s : State} (a0 : Ref) (a1 : Bool) (a2 : Nat) (h : Keeps s0 s) :
    KeepsR s0 (execSetFeaturesDeadlineReads a0 a1 a2 s) := by
  unfold execSetFeaturesDeadlineReads
  try dsimp only
  repeat' first
    | with_reducible assumption
    | with_reducible refine keepsR_next ?_
    | with_reducible apply State.setDeadline_keeps
    | with_reducible apply State.begin_keeps
    | with_reducible refine State.begin_keeps ?_ _ (by with_reducible assumption)
    | split
    | (intro _; intros; try dsimp only)

theorem execSetFeaturesPatrolPeriod_keeps {s0 s : State} (a0 : Ref) (a1 : Bool) (a2 : Nat) (h : Keeps s0 s) :
    KeepsR s0 (execSetFeaturesPatrolPeriod a0 a1 a2 s) := by
  unfold execSetFeaturesPatrolPeriod
  try dsimp only
  repeat' first
    | with_reducible assumption
    | with_reducible refine keepsR_next ?_
    | with_reducible apply State.setPatrol_keeps
    | with_reducible apply State.begin_keeps
    | with_reducible refine State.begin_keeps ?_ _ (by with_reducible assumption)
    | split
    | (intro _; intros; try dsimp only)

theorem execSetFeaturesInkTime_keeps {s0 s : State} (a0 : Ref) (a1 : Bool) (a2 : Nat) (h : Keeps s0 s) :
    KeepsR s0 (execSetFeaturesInkTime a0 a1 a2 s) := by
  unfold execSetFeaturesInkTime
  try dsimp only
  repeat' first
    | with_reducible assumption
    | with_reducible refine keepsR_next ?_
    | with_reducible apply State.setInk_keeps
    | with_reducible apply State.begin_keeps
    | with_reducible refine State.begin_keeps ?_ _ (by with_reducible assumption)
    | split
    | (intro _; intros; try dsimp only)

theorem execSetFeaturesFdp_keeps {s0 s : State} (a0 : Ref) (a1 : Bool) (a2 : Bool) (h : Keeps s0 s) :
    KeepsR s0 (execSetFeaturesFdp a0 a1 a2 s) := by
  unfold execSetFeaturesFdp
  try dsimp only
  repeat' first
    | with_reducible assumption
    | with_reducible refine keepsR_next ?_
    | with_reducible apply State.unsaved_keeps
    | with_reducible apply State.begin_keeps
    | with_reducible refine State.begin_keeps ?_ _ (by with_reducible assumption)
    | with_reducible apply State.setFdp_keeps
    | split
    | (intro _; intros; try dsimp only)

theorem State.getFeature_keeps {s0 s : State} (a1 : Ref) (a2 : Nat) (a3 : Nat) (a4 : Nat) (a5 : Nat) (h : Keeps s0 s) :
    Keeps s0 (State.getFeature s a1 a2 a3 a4 a5) := by
  unfold State.getFeature
  try dsimp only
  repeat' first
    | with_reducible assumption
    | with_reducible apply State.complete_keeps
    | with_reducible apply State.emit_keeps
    | with_reducible refine keeps_ite (fun _ => ?_) (fun _ => ?_)
    | split

theorem execGetFeatures_keeps {s0 s : State} (a0 : Ref) (a1 : Nat) (a2 : Nat) (a3 : Nat) (a4 : Nat) (h : Keeps s0 s) :
    KeepsR s0 (execGetFeatures a0 a1 a2 a3 a4 s) := by
  unfold execGetFeatures
  try dsimp only
  repeat' first
    | with_reducible assumption
    | with_reducible refine keepsR_next ?_
    | with_reducible apply State.begin_keeps
    | with_reducible refine State.begin_keeps ?_ _ (by with_reducible assumption)
    | with_reducible apply State.getFeature_keeps
    | split
    | (intro _; intros; try dsimp only)

/-! ## Admin -/

theorem State.createCq_keeps {s0 s : State} (a1 : Ref) (a2 : Nat) (a3 : Nat) (a4 : Nat) (a5 : Bool) (a6 : Bool) (h : Keeps s0 s) :
    Keeps s0 (State.createCq s a1 a2 a3 a4 a5 a6) := by
  unfold State.createCq
  try dsimp only
  repeat' first
    | with_reducible assumption
    | with_reducible apply State.complete_keeps
    | with_reducible refine keeps_ite (fun _ => ?_) (fun _ => ?_)
    | (simp only [↓keeps_mk]; with_reducible refine keeps_fold ?_)
    | split

theorem State.createSq_keeps {s0 s : State} (a1 : Ref) (a2 : Nat) (a3 : Nat) (a4 : Nat) (a5 : Nat) (a6 : Bool) (h : Keeps s0 s) :
    Keeps s0 (State.createSq s a1 a2 a3 a4 a5 a6) := by
  unfold State.createSq
  try dsimp only
  repeat' first
    | with_reducible assumption
    | with_reducible apply State.complete_keeps
    | with_reducible refine keeps_ite (fun _ => ?_) (fun _ => ?_)
    | (simp only [↓keeps_mk]; with_reducible refine keeps_fold ?_)
    | split

theorem State.abortSqCmd_keeps {s0 s : State} (a1 : Cmd) (h : Keeps s0 s) :
    Keeps s0 (State.abortSqCmd s a1) := by
  unfold State.abortSqCmd
  try dsimp only
  repeat' first
    | with_reducible assumption
    | with_reducible apply State.failRead_keeps
    | with_reducible apply State.dropCmd_keeps
    | with_reducible apply State.orphan_keeps
    | with_reducible apply State.complete_keeps
    | with_reducible apply State.failWrite_keeps
    | with_reducible refine keeps_ite (fun _ => ?_) (fun _ => ?_)
    | split

theorem State.deleteSq_keeps {s0 s : State} (a1 : Ref) (a2 : Nat) (h : Keeps s0 s) :
    Keeps s0 (State.deleteSq s a1 a2) := by
  unfold State.deleteSq
  try dsimp only
  repeat' first
    | with_reducible assumption
    | with_reducible apply State.abortSqCmd_keeps
    | with_reducible apply State.complete_keeps
    | with_reducible refine keeps_ite (fun _ => ?_) (fun _ => ?_)
    | (simp only [↓keeps_mk]; with_reducible refine keeps_fold ?_)
    | (with_reducible refine keeps_foldl (fun _ _ _ => ?_) ?_)
    | split

theorem State.deleteCq_keeps {s0 s : State} (a1 : Ref) (a2 : Nat) (h : Keeps s0 s) :
    Keeps s0 (State.deleteCq s a1 a2) := by
  unfold State.deleteCq
  try dsimp only
  repeat' first
    | with_reducible assumption
    | with_reducible apply State.complete_keeps
    | with_reducible refine keeps_ite (fun _ => ?_) (fun _ => ?_)
    | (simp only [↓keeps_mk]; with_reducible refine keeps_fold ?_)
    | split

theorem execCreateIoCq_keeps {s0 s : State} (a0 : Ref) (a1 : Nat) (a2 : Nat) (a3 : Nat) (a4 : Bool) (a5 : Bool) (h : Keeps s0 s) :
    KeepsR s0 (execCreateIoCq a0 a1 a2 a3 a4 a5 s) := by
  unfold execCreateIoCq
  try dsimp only
  repeat' first
    | with_reducible assumption
    | with_reducible refine keepsR_next ?_
    | with_reducible apply State.createCq_keeps
    | with_reducible apply State.begin_keeps
    | with_reducible refine State.begin_keeps ?_ _ (by with_reducible assumption)
    | split
    | (intro _; intros; try dsimp only)

theorem execCreateIoSq_keeps {s0 s : State} (a0 : Ref) (a1 : Nat) (a2 : Nat) (a3 : Nat) (a4 : Nat) (a5 : Bool) (h : Keeps s0 s) :
    KeepsR s0 (execCreateIoSq a0 a1 a2 a3 a4 a5 s) := by
  unfold execCreateIoSq
  try dsimp only
  repeat' first
    | with_reducible assumption
    | with_reducible refine keepsR_next ?_
    | with_reducible apply State.createSq_keeps
    | with_reducible apply State.begin_keeps
    | with_reducible refine State.begin_keeps ?_ _ (by with_reducible assumption)
    | split
    | (intro _; intros; try dsimp only)

theorem execDeleteIoSq_keeps {s0 s : State} (a0 : Ref) (a1 : Nat) (h : Keeps s0 s) :
    KeepsR s0 (execDeleteIoSq a0 a1 s) := by
  unfold execDeleteIoSq
  try dsimp only
  repeat' first
    | with_reducible assumption
    | with_reducible refine keepsR_next ?_
    | with_reducible apply State.deleteSq_keeps
    | with_reducible apply State.begin_keeps
    | with_reducible refine State.begin_keeps ?_ _ (by with_reducible assumption)
    | split
    | (intro _; intros; try dsimp only)

theorem execDeleteIoCq_keeps {s0 s : State} (a0 : Ref) (a1 : Nat) (h : Keeps s0 s) :
    KeepsR s0 (execDeleteIoCq a0 a1 s) := by
  unfold execDeleteIoCq
  try dsimp only
  repeat' first
    | with_reducible assumption
    | with_reducible refine keepsR_next ?_
    | with_reducible apply State.deleteCq_keeps
    | with_reducible apply State.begin_keeps
    | with_reducible refine State.begin_keeps ?_ _ (by with_reducible assumption)
    | split
    | (intro _; intros; try dsimp only)

theorem execDoorbellBufferConfig_keeps {s0 s : State} (a0 : Ref) (a1 : Nat) (a2 : Nat) (h : Keeps s0 s) :
    KeepsR s0 (execDoorbellBufferConfig a0 a1 a2 s) := by
  unfold execDoorbellBufferConfig
  try dsimp only
  repeat' first
    | with_reducible assumption
    | with_reducible refine keepsR_next ?_
    | with_reducible apply State.updCtrl_keeps
    | with_reducible apply State.complete_keeps
    | with_reducible apply State.begin_keeps
    | with_reducible refine State.begin_keeps ?_ _ (by with_reducible assumption)
    | with_reducible refine keeps_ite (fun _ => ?_) (fun _ => ?_)
    | with_reducible refine keepsR_ite (fun _ => ?_) (fun _ => ?_)
    | split
    | (intro _; intros; try dsimp only)

theorem execIdentify_keeps {s0 s : State} (a0 : Ref) (a1 : Nat) (a2 : Nat) (a3 : Nat) (h : Keeps s0 s) :
    KeepsR s0 (execIdentify a0 a1 a2 a3 s) := by
  unfold execIdentify
  try dsimp only
  repeat' first
    | with_reducible assumption
    | with_reducible refine keepsR_next ?_
    | with_reducible apply State.complete_keeps
    | with_reducible apply State.begin_keeps
    | with_reducible refine State.begin_keeps ?_ _ (by with_reducible assumption)
    | with_reducible apply State.emit_keeps
    | split
    | (intro _; intros; try dsimp only)

theorem State.abortCmd_keeps {s0 s : State} (a1 : Cmd) (h : Keeps s0 s) :
    Keeps s0 (State.abortCmd s a1) := by
  unfold State.abortCmd
  try dsimp only
  repeat' first
    | with_reducible assumption
    | with_reducible apply State.failRead_keeps
    | with_reducible apply State.dropCmd_keeps
    | with_reducible apply State.complete_keeps
    | with_reducible apply State.failWrite_keeps
    | with_reducible refine keeps_ite (fun _ => ?_) (fun _ => ?_)
    | split

theorem State.abort_keeps {s0 s : State} (a1 : Ref) (a2 : Nat) (a3 : Nat) (h : Keeps s0 s) :
    Keeps s0 (State.abort s a1 a2 a3) := by
  unfold State.abort
  try dsimp only
  repeat' first
    | with_reducible assumption
    | with_reducible apply State.complete_keeps
    | with_reducible apply State.abortCmd_keeps
    | with_reducible refine keeps_ite (fun _ => ?_) (fun _ => ?_)
    | (simp only [↓keeps_mk]; with_reducible refine keeps_fold ?_)
    | split

theorem execAbort_keeps {s0 s : State} (a0 : Ref) (a1 : Nat) (a2 : Nat) (h : Keeps s0 s) :
    KeepsR s0 (execAbort a0 a1 a2 s) := by
  unfold execAbort
  try dsimp only
  repeat' first
    | with_reducible assumption
    | with_reducible refine keepsR_next ?_
    | with_reducible apply State.abort_keeps
    | with_reducible apply State.begin_keeps
    | with_reducible refine State.begin_keeps ?_ _ (by with_reducible assumption)
    | split
    | (intro _; intros; try dsimp only)

theorem State.asyncEvent_keeps {s0 s : State} (a1 : Ref) (h : Keeps s0 s) :
    Keeps s0 (State.asyncEvent s a1) := by
  unfold State.asyncEvent
  try dsimp only
  repeat' first
    | with_reducible assumption
    | with_reducible apply State.aenTo_keeps
    | with_reducible apply State.complete_keeps
    | with_reducible refine keeps_ite (fun _ => ?_) (fun _ => ?_)
    | (simp only [↓keeps_mk]; with_reducible refine keeps_fold ?_)
    | split

theorem execAsyncEventRequest_keeps {s0 s : State} (a0 : Ref) (h : Keeps s0 s) :
    KeepsR s0 (execAsyncEventRequest a0 s) := by
  unfold execAsyncEventRequest
  try dsimp only
  repeat' first
    | with_reducible assumption
    | with_reducible refine keepsR_next ?_
    | with_reducible apply State.asyncEvent_keeps
    | with_reducible apply State.begin_keeps
    | with_reducible refine State.begin_keeps ?_ _ (by with_reducible assumption)
    | split
    | (intro _; intros; try dsimp only)

theorem execKeepAlive_keeps {s0 s : State} (a0 : Ref) (h : Keeps s0 s) :
    KeepsR s0 (execKeepAlive a0 s) := by
  unfold execKeepAlive
  try dsimp only
  repeat' first
    | with_reducible assumption
    | with_reducible refine keepsR_next ?_
    | with_reducible apply State.complete_keeps
    | with_reducible apply State.begin_keeps
    | with_reducible refine State.begin_keeps ?_ _ (by with_reducible assumption)
    | (simp only [↓keeps_mk]; with_reducible refine keeps_fold ?_)
    | split
    | (intro _; intros; try dsimp only)

theorem State.directiveSend_keeps {s0 s : State} (a1 : Ref) (a2 : Nat) (a3 : Nat) (a4 : Nat) (a5 : Nat) (h : Keeps s0 s) :
    Keeps s0 (State.directiveSend s a1 a2 a3 a4 a5) := by
  unfold State.directiveSend
  try dsimp only
  repeat' first
    | with_reducible assumption
    | with_reducible apply State.complete_keeps
    | with_reducible refine keeps_ite (fun _ => ?_) (fun _ => ?_)
    | (simp only [↓keeps_mk]; with_reducible refine keeps_fold ?_)
    | split

theorem execDirectiveSend_keeps {s0 s : State} (a0 : Ref) (a1 : Nat) (a2 : Nat) (a3 : Nat) (a4 : Nat) (h : Keeps s0 s) :
    KeepsR s0 (execDirectiveSend a0 a1 a2 a3 a4 s) := by
  unfold execDirectiveSend
  try dsimp only
  repeat' first
    | with_reducible assumption
    | with_reducible refine keepsR_next ?_
    | with_reducible apply State.directiveSend_keeps
    | with_reducible apply State.begin_keeps
    | with_reducible refine State.begin_keeps ?_ _ (by with_reducible assumption)
    | split
    | (intro _; intros; try dsimp only)

theorem State.directiveReceive_keeps {s0 s : State} (a1 : Ref) (a2 : Nat) (a3 : Nat) (a4 : Nat) (h : Keeps s0 s) :
    Keeps s0 (State.directiveReceive s a1 a2 a3 a4) := by
  unfold State.directiveReceive
  try dsimp only
  repeat' first
    | with_reducible assumption
    | with_reducible apply State.complete_keeps
    | with_reducible apply State.emit_keeps
    | with_reducible refine keeps_ite (fun _ => ?_) (fun _ => ?_)
    | split

theorem execDirectiveReceive_keeps {s0 s : State} (a0 : Ref) (a1 : Nat) (a2 : Nat) (a3 : Nat) (h : Keeps s0 s) :
    KeepsR s0 (execDirectiveReceive a0 a1 a2 a3 s) := by
  unfold execDirectiveReceive
  try dsimp only
  repeat' first
    | with_reducible assumption
    | with_reducible refine keepsR_next ?_
    | with_reducible apply State.directiveReceive_keeps
    | with_reducible apply State.begin_keeps
    | with_reducible refine State.begin_keeps ?_ _ (by with_reducible assumption)
    | split
    | (intro _; intros; try dsimp only)

theorem State.takeLock_keeps {s0 s : State} (a1 : Holder) (a2 : Nat) (h : Keeps s0 s) :
    Keeps s0 (State.takeLock s a1 a2) := by
  unfold State.takeLock
  try dsimp only
  repeat' first
    | with_reducible assumption
    | (simp only [↓keeps_mk]; with_reducible refine keeps_fold ?_)
    | split

theorem State.giveLock_keeps {s0 s : State}  (h : Keeps s0 s) :
    Keeps s0 (State.giveLock s) := by
  unfold State.giveLock
  try dsimp only
  repeat' first
    | with_reducible assumption
    | with_reducible apply State.freeLock_keeps
    | with_reducible refine keeps_ite (fun _ => ?_) (fun _ => ?_)
    | (simp only [↓keeps_mk]; with_reducible refine keeps_fold ?_)
    | split

theorem execAuthorityAcquire_keeps {s0 s : State} (a0 : Ref) (h : Keeps s0 s) :
    KeepsR s0 (execAuthorityAcquire a0 s) := by
  unfold execAuthorityAcquire
  try dsimp only
  repeat' first
    | with_reducible assumption
    | with_reducible refine keepsR_next ?_
    | with_reducible apply State.complete_keeps
    | with_reducible apply State.begin_keeps
    | with_reducible refine State.begin_keeps ?_ _ (by with_reducible assumption)
    | with_reducible apply State.takeLock_keeps
    | split
    | (intro _; intros; try dsimp only)

theorem execAuthorityRelease_keeps {s0 s : State} (a0 : Ref) (h : Keeps s0 s) :
    KeepsR s0 (execAuthorityRelease a0 s) := by
  unfold execAuthorityRelease
  try dsimp only
  repeat' first
    | with_reducible assumption
    | with_reducible refine keepsR_next ?_
    | with_reducible apply State.complete_keeps
    | with_reducible apply State.giveLock_keeps
    | with_reducible apply State.begin_keeps
    | with_reducible refine State.begin_keeps ?_ _ (by with_reducible assumption)
    | with_reducible refine keeps_ite (fun _ => ?_) (fun _ => ?_)
    | with_reducible refine keepsR_ite (fun _ => ?_) (fun _ => ?_)
    | split
    | (intro _; intros; try dsimp only)

/-! ## Alerts -/

theorem execAenWaitTimeout_keeps {s0 s : State} (a0 : Nat) (a1 : Nat) (h : Keeps s0 s) :
    KeepsR s0 (execAenWaitTimeout a0 a1 s) := by
  unfold execAenWaitTimeout
  try dsimp only
  repeat' first
    | with_reducible assumption
    | with_reducible refine keepsR_next ?_
    | with_reducible apply State.post_keeps
    | with_reducible refine keeps_ite (fun _ => ?_) (fun _ => ?_)
    | with_reducible refine keepsR_ite (fun _ => ?_) (fun _ => ?_)
    | split

theorem execAlertResponseAddress_keeps {s0 s : State}  (h : Keeps s0 s) :
    KeepsR s0 (execAlertResponseAddress s) := by
  unfold execAlertResponseAddress
  try dsimp only
  repeat' first
    | with_reducible assumption
    | with_reducible refine keepsR_next ?_
    | with_reducible apply State.emit_keeps
    | with_reducible refine keeps_ite (fun _ => ?_) (fun _ => ?_)
    | with_reducible refine keepsR_ite (fun _ => ?_) (fun _ => ?_)
    | (simp only [↓keeps_mk]; with_reducible refine keeps_fold ?_)
    | split

theorem execIbiAccept_keeps {s0 s : State}  (h : Keeps s0 s) :
    KeepsR s0 (execIbiAccept s) := by
  unfold execIbiAccept
  try dsimp only
  repeat' first
    | with_reducible assumption
    | with_reducible refine keepsR_next ?_
    | with_reducible refine keeps_ite (fun _ => ?_) (fun _ => ?_)
    | with_reducible refine keepsR_ite (fun _ => ?_) (fun _ => ?_)
    | (simp only [↓keeps_mk]; with_reducible refine keeps_fold ?_)
    | split

/-! ## MapCmds -/

theorem execMapPageScrub_keeps {s0 s : State} (a0 : ScrubFound) (h : Keeps s0 s) :
    KeepsR s0 (execMapPageScrub a0 s) := by
  unfold execMapPageScrub
  try dsimp only
  repeat' first
    | with_reducible assumption
    | with_reducible refine keepsR_next ?_
    | with_reducible apply State.post_keeps
    | with_reducible apply State.pageBad_keeps
    | with_reducible apply State.postAs_keeps
    | with_reducible apply State.settleCmds_keeps
    | with_reducible apply State.enterSafe_keeps
    | with_reducible apply State.settle_keeps
    | with_reducible refine keeps_ite (fun _ => ?_) (fun _ => ?_)
    | with_reducible refine keepsR_ite (fun _ => ?_) (fun _ => ?_)
    | (with_reducible refine keeps_foldl (fun _ _ _ => ?_) ?_)
    | split

theorem execIdlePadTimeout_keeps {s0 s : State} (a0 : Nat) (h : Keeps s0 s) :
    KeepsR s0 (execIdlePadTimeout a0 s) := by
  unfold execIdlePadTimeout
  try dsimp only
  repeat' first
    | with_reducible assumption
    | with_reducible refine keepsR_next ?_
    | with_reducible apply State.pump_keeps
    | with_reducible apply State.padWp_keeps
    | with_reducible refine keeps_ite (fun _ => ?_) (fun _ => ?_)
    | with_reducible refine keepsR_ite (fun _ => ?_) (fun _ => ?_)
    | split

theorem execBandOpen_keeps {s0 s : State} (a0 : Nat) (h : Keeps s0 s) :
    KeepsR s0 (execBandOpen a0 s) := by
  unfold execBandOpen
  try dsimp only
  repeat' first
    | with_reducible assumption
    | with_reducible refine keepsR_next ?_
    | with_reducible apply State.cacheCounts_keeps
    | with_reducible apply State.updBand_keeps
    | with_reducible apply State.refreshLevel_keeps
    | with_reducible apply State.runWritePoints_keeps
    | with_reducible refine keeps_ite (fun _ => ?_) (fun _ => ?_)
    | with_reducible refine keepsR_ite (fun _ => ?_) (fun _ => ?_)
    | (simp only [↓keeps_mk]; with_reducible refine keeps_fold ?_)
    | split

theorem execReclaimVictimPick_keeps {s0 s : State}  (h : Keeps s0 s) :
    KeepsR s0 (execReclaimVictimPick s) := by
  unfold execReclaimVictimPick
  try dsimp only
  repeat' first
    | with_reducible assumption
    | with_reducible refine keepsR_next ?_
    | with_reducible apply State.startErase_keeps
    | with_reducible apply State.startMoves_keeps
    | with_reducible refine keeps_ite (fun _ => ?_) (fun _ => ?_)
    | with_reducible refine keepsR_ite (fun _ => ?_) (fun _ => ?_)
    | split

theorem execBandEraseStart_keeps {s0 s : State} (a0 : Nat) (h : Keeps s0 s) :
    KeepsR s0 (execBandEraseStart a0 s) := by
  unfold execBandEraseStart
  try dsimp only
  repeat' first
    | with_reducible assumption
    | with_reducible refine keepsR_next ?_
    | with_reducible apply State.startErase_keeps
    | with_reducible refine keeps_ite (fun _ => ?_) (fun _ => ?_)
    | with_reducible refine keepsR_ite (fun _ => ?_) (fun _ => ?_)
    | split

theorem execWearSpreadCheck_keeps {s0 s : State}  (h : Keeps s0 s) :
    KeepsR s0 (execWearSpreadCheck s) := by
  unfold execWearSpreadCheck
  try dsimp only
  repeat' first
    | with_reducible assumption
    | with_reducible refine keepsR_next ?_
    | with_reducible apply State.post_keeps
    | with_reducible apply State.moveDone_keeps
    | with_reducible apply State.startMoves_keeps
    | with_reducible refine keeps_ite (fun _ => ?_) (fun _ => ?_)
    | with_reducible refine keepsR_ite (fun _ => ?_) (fun _ => ?_)
    | (simp only [↓keeps_mk]; with_reducible refine keeps_fold ?_)
    | (with_reducible refine keeps_foldl (fun _ _ _ => ?_) ?_)
    | split

/-! ## Mgmt -/

theorem execVaux33Good_keeps {s0 s : State} (a0 : Nat) (h : Keeps s0 s) :
    KeepsR s0 (execVaux33Good a0 s) := by
  unfold execVaux33Good
  try dsimp only
  repeat' first
    | with_reducible assumption
    | with_reducible refine keepsR_next ?_
    | with_reducible refine keeps_ite (fun _ => ?_) (fun _ => ?_)
    | with_reducible refine keepsR_ite (fun _ => ?_) (fun _ => ?_)
    | (simp only [↓keeps_mk]; with_reducible refine keeps_fold ?_)
    | split

theorem State.setDyn_keeps {s0 s : State} (a1 : Nat) (h : Keeps s0 s) :
    Keeps s0 (State.setDyn s a1) := by
  unfold State.setDyn
  try dsimp only
  repeat' first
    | with_reducible assumption
    | (simp only [↓keeps_mk]; with_reducible refine keeps_fold ?_)

theorem execEntdaa_keeps {s0 s : State} (a0 : Nat) (h : Keeps s0 s) :
    KeepsR s0 (execEntdaa a0 s) := by
  unfold execEntdaa
  try dsimp only
  repeat' first
    | with_reducible assumption
    | with_reducible refine keepsR_next ?_
    | with_reducible apply State.setDyn_keeps
    | with_reducible refine keeps_ite (fun _ => ?_) (fun _ => ?_)
    | with_reducible refine keepsR_ite (fun _ => ?_) (fun _ => ?_)
    | split

theorem execSetdasa_keeps {s0 s : State} (a0 : Nat) (a1 : Nat) (h : Keeps s0 s) :
    KeepsR s0 (execSetdasa a0 a1 s) := by
  unfold execSetdasa
  try dsimp only
  repeat' first
    | with_reducible assumption
    | with_reducible refine keepsR_next ?_
    | with_reducible apply State.setDyn_keeps
    | with_reducible refine keeps_ite (fun _ => ?_) (fun _ => ?_)
    | with_reducible refine keepsR_ite (fun _ => ?_) (fun _ => ?_)
    | split

theorem execRstdaa_keeps {s0 s : State}  (h : Keeps s0 s) :
    KeepsR s0 (execRstdaa s) := by
  unfold execRstdaa
  try dsimp only
  repeat' first
    | with_reducible assumption
    | with_reducible refine keepsR_next ?_
    | with_reducible refine keeps_ite (fun _ => ?_) (fun _ => ?_)
    | with_reducible refine keepsR_ite (fun _ => ?_) (fun _ => ?_)
    | (simp only [↓keeps_mk]; with_reducible refine keeps_fold ?_)
    | split

theorem State.holdMsg_keeps {s0 s : State} (a1 : Bool) (a2 : Request) (h : Keeps s0 s) :
    Keeps s0 (State.holdMsg s a1 a2) := by
  unfold State.holdMsg
  try dsimp only
  repeat' first
    | with_reducible assumption
    | with_reducible apply State.wakeEvent_keeps
    | (simp only [↓keeps_mk]; with_reducible refine keeps_fold ?_)

theorem State.mctp_keeps {s0 s : State} (a1 : Request) (a2 : State → State) (ka2 : ∀ x0, Keeps s0 x0 → Keeps s0 (a2 x0)) (h : Keeps s0 s) :
    KeepsR s0 (State.mctp s a1 a2) := by
  unfold State.mctp
  try dsimp only
  repeat' first
    | with_reducible assumption
    | with_reducible apply ka2
    | with_reducible refine keepsR_next ?_
    | with_reducible apply State.holdMsg_keeps
    | with_reducible apply State.wakeEvent_keeps
    | with_reducible refine keeps_ite (fun _ => ?_) (fun _ => ?_)
    | with_reducible refine keepsR_ite (fun _ => ?_) (fun _ => ?_)
    | split

theorem execSetEndpointId_keeps {s0 s : State} (a0 : Nat) (a1 : Nat) (h : Keeps s0 s) :
    KeepsR s0 (execSetEndpointId a0 a1 s) := by
  unfold execSetEndpointId
  try dsimp only
  repeat' first
    | with_reducible assumption
    | with_reducible refine keepsR_next ?_
    | with_reducible apply State.mctp_keeps
    | with_reducible refine State.mctp_keeps ?_ _ (by with_reducible assumption)
    | with_reducible apply State.emit_keeps
    | with_reducible refine keeps_ite (fun _ => ?_) (fun _ => ?_)
    | with_reducible refine keepsR_ite (fun _ => ?_) (fun _ => ?_)
    | (simp only [↓keeps_mk]; with_reducible refine keeps_fold ?_)
    | split
    | (intro _; intros; try dsimp only)

theorem execGetEndpointId_keeps {s0 s : State}  (h : Keeps s0 s) :
    KeepsR s0 (execGetEndpointId s) := by
  unfold execGetEndpointId
  try dsimp only
  repeat' first
    | with_reducible assumption
    | with_reducible refine keepsR_next ?_
    | with_reducible apply State.mctp_keeps
    | with_reducible refine State.mctp_keeps ?_ _ (by with_reducible assumption)
    | with_reducible apply State.emit_keeps
    | split
    | (intro _; intros; try dsimp only)

theorem execGetEndpointUuid_keeps {s0 s : State}  (h : Keeps s0 s) :
    KeepsR s0 (execGetEndpointUuid s) := by
  unfold execGetEndpointUuid
  try dsimp only
  repeat' first
    | with_reducible assumption
    | with_reducible refine keepsR_next ?_
    | with_reducible apply State.mctp_keeps
    | with_reducible refine State.mctp_keeps ?_ _ (by with_reducible assumption)
    | with_reducible apply State.emit_keeps
    | split
    | (intro _; intros; try dsimp only)

theorem execGetMctpVersionSupport_keeps {s0 s : State} (a0 : Nat) (h : Keeps s0 s) :
    KeepsR s0 (execGetMctpVersionSupport a0 s) := by
  unfold execGetMctpVersionSupport
  try dsimp only
  repeat' first
    | with_reducible assumption
    | with_reducible refine keepsR_next ?_
    | with_reducible apply State.mctp_keeps
    | with_reducible refine State.mctp_keeps ?_ _ (by with_reducible assumption)
    | with_reducible apply State.emit_keeps
    | with_reducible refine keeps_ite (fun _ => ?_) (fun _ => ?_)
    | with_reducible refine keepsR_ite (fun _ => ?_) (fun _ => ?_)
    | split
    | (intro _; intros; try dsimp only)

theorem execGetMessageTypeSupport_keeps {s0 s : State}  (h : Keeps s0 s) :
    KeepsR s0 (execGetMessageTypeSupport s) := by
  unfold execGetMessageTypeSupport
  try dsimp only
  repeat' first
    | with_reducible assumption
    | with_reducible refine keepsR_next ?_
    | with_reducible apply State.mctp_keeps
    | with_reducible refine State.mctp_keeps ?_ _ (by with_reducible assumption)
    | with_reducible apply State.emit_keeps
    | split
    | (intro _; intros; try dsimp only)

theorem State.miTouch_keeps {s0 s : State} (a1 : Nat) (h : Keeps s0 s) :
    Keeps s0 (State.miTouch s a1) := by
  unfold State.miTouch
  try dsimp only
  repeat' first
    | with_reducible assumption
    | with_reducible refine keeps_ite (fun _ => ?_) (fun _ => ?_)
    | (simp only [↓keeps_mk]; with_reducible refine keeps_fold ?_)
    | split

theorem State.mi_keeps {s0 s : State} (a1 : Request) (a2 : Nat) (a3 : Service) (a4 : State → State) (ka4 : ∀ x0, Keeps s0 x0 → Keeps s0 (a4 x0)) (h : Keeps s0 s) :
    KeepsR s0 (State.mi s a1 a2 a3 a4) := by
  unfold State.mi
  try dsimp only
  repeat' first
    | with_reducible assumption
    | with_reducible apply ka4
    | with_reducible refine keepsR_next ?_
    | with_reducible apply State.miTouch_keeps
    | with_reducible apply State.holdMsg_keeps
    | with_reducible apply State.mctp_keeps
    | with_reducible refine State.mctp_keeps ?_ _ (by with_reducible assumption)
    | with_reducible apply State.wakeEvent_keeps
    | with_reducible apply State.emit_keeps
    | with_reducible refine keeps_ite (fun _ => ?_) (fun _ => ?_)
    | with_reducible refine keepsR_ite (fun _ => ?_) (fun _ => ?_)
    | split
    | (intro _; intros; try dsimp only)

theorem State.underLock_keeps {s0 s : State} (a1 : Nat) (a2 : State → State) (ka2 : ∀ x0, Keeps s0 x0 → Keeps s0 (a2 x0)) (h : Keeps s0 s) :
    Keeps s0 (State.underLock s a1 a2) := by
  unfold State.underLock
  try dsimp only
  repeat' first
    | with_reducible assumption
    | with_reducible apply ka2
    | with_reducible apply State.emit_keeps
    | split

theorem execNvmSubsystemHealthStatusPoll_keeps {s0 s : State} (a0 : Nat) (h : Keeps s0 s) :
    KeepsR s0 (execNvmSubsystemHealthStatusPoll a0 s) := by
  unfold execNvmSubsystemHealthStatusPoll
  try dsimp only
  repeat' first
    | with_reducible assumption
    | with_reducible refine keepsR_next ?_
    | with_reducible apply State.mi_keeps
    | with_reducible refine State.mi_keeps ?_ _ (by with_reducible assumption)
    | with_reducible apply State.emit_keeps
    | with_reducible refine keeps_ite (fun _ => ?_) (fun _ => ?_)
    | with_reducible refine keepsR_ite (fun _ => ?_) (fun _ => ?_)
    | split
    | (intro _; intros; try dsimp only)

theorem execControllerHealthStatusPoll_keeps {s0 s : State} (a0 : Nat) (a1 : Nat) (h : Keeps s0 s) :
    KeepsR s0 (execControllerHealthStatusPoll a0 a1 s) := by
  unfold execControllerHealthStatusPoll
  try dsimp only
  repeat' first
    | with_reducible assumption
    | with_reducible refine keepsR_next ?_
    | with_reducible apply State.mi_keeps
    | with_reducible refine State.mi_keeps ?_ _ (by with_reducible assumption)
    | with_reducible apply State.emit_keeps
    | with_reducible refine keeps_ite (fun _ => ?_) (fun _ => ?_)
    | with_reducible refine keepsR_ite (fun _ => ?_) (fun _ => ?_)
    | split
    | (intro _; intros; try dsimp only)

theorem execReadNvmeMiDataStructure_keeps {s0 s : State} (a0 : Nat) (a1 : Nat) (a2 : Nat) (h : Keeps s0 s) :
    KeepsR s0 (execReadNvmeMiDataStructure a0 a1 a2 s) := by
  unfold execReadNvmeMiDataStructure
  try dsimp only
  repeat' first
    | with_reducible assumption
    | with_reducible refine keepsR_next ?_
    | with_reducible apply State.mi_keeps
    | with_reducible refine State.mi_keeps ?_ _ (by with_reducible assumption)
    | with_reducible apply State.emit_keeps
    | with_reducible refine keeps_ite (fun _ => ?_) (fun _ => ?_)
    | with_reducible refine keepsR_ite (fun _ => ?_) (fun _ => ?_)
    | split
    | (intro _; intros; try dsimp only)

theorem execConfigurationGet_keeps {s0 s : State} (a0 : Nat) (a1 : Nat) (h : Keeps s0 s) :
    KeepsR s0 (execConfigurationGet a0 a1 s) := by
  unfold execConfigurationGet
  try dsimp only
  repeat' first
    | with_reducible assumption
    | with_reducible refine keepsR_next ?_
    | with_reducible apply State.mi_keeps
    | with_reducible refine State.mi_keeps ?_ _ (by with_reducible assumption)
    | with_reducible apply State.emit_keeps
    | with_reducible refine keeps_ite (fun _ => ?_) (fun _ => ?_)
    | with_reducible refine keepsR_ite (fun _ => ?_) (fun _ => ?_)
    | split
    | (intro _; intros; try dsimp only)

theorem execConfigurationSet_keeps {s0 s : State} (a0 : Nat) (a1 : Nat) (a2 : Nat) (h : Keeps s0 s) :
    KeepsR s0 (execConfigurationSet a0 a1 a2 s) := by
  unfold execConfigurationSet
  try dsimp only
  repeat' first
    | with_reducible assumption
    | with_reducible refine keepsR_next ?_
    | with_reducible apply State.mi_keeps
    | with_reducible refine State.mi_keeps ?_ _ (by with_reducible assumption)
    | with_reducible apply State.emit_keeps
    | with_reducible refine keeps_ite (fun _ => ?_) (fun _ => ?_)
    | with_reducible refine keepsR_ite (fun _ => ?_) (fun _ => ?_)
    | (simp only [↓keeps_mk]; with_reducible refine keeps_fold ?_)
    | split
    | (intro _; intros; try dsimp only)

theorem execVpdRead_keeps {s0 s : State} (a0 : Nat) (a1 : Nat) (a2 : Nat) (h : Keeps s0 s) :
    KeepsR s0 (execVpdRead a0 a1 a2 s) := by
  unfold execVpdRead
  try dsimp only
  repeat' first
    | with_reducible assumption
    | with_reducible refine keepsR_next ?_
    | with_reducible apply State.mi_keeps
    | with_reducible refine State.mi_keeps ?_ _ (by with_reducible assumption)
    | with_reducible apply State.emit_keeps
    | with_reducible refine keeps_ite (fun _ => ?_) (fun _ => ?_)
    | with_reducible refine keepsR_ite (fun _ => ?_) (fun _ => ?_)
    | split
    | (intro _; intros; try dsimp only)

theorem execTunnelledAdminCommand_keeps {s0 s : State} (a0 : Nat) (a1 : Nat) (a2 : Nat) (a3 : Option Nat) (h : Keeps s0 s) :
    KeepsR s0 (execTunnelledAdminCommand a0 a1 a2 a3 s) := by
  unfold execTunnelledAdminCommand
  try dsimp only
  repeat' first
    | with_reducible assumption
    | with_reducible refine keepsR_next ?_
    | with_reducible apply State.mctp_keeps
    | with_reducible refine State.mctp_keeps ?_ _ (by with_reducible assumption)
    | with_reducible apply State.mi_keeps
    | with_reducible refine State.mi_keeps ?_ _ (by with_reducible assumption)
    | with_reducible apply State.emit_keeps
    | with_reducible refine keeps_ite (fun _ => ?_) (fun _ => ?_)
    | with_reducible refine keepsR_ite (fun _ => ?_) (fun _ => ?_)
    | (simp only [↓keeps_mk]; with_reducible refine keeps_fold ?_)
    | split
    | (intro _; intros; try dsimp only)

theorem execPowerOn_keeps {s0 s : State} (a0 : Nat) (h : Keeps s0 s) :
    KeepsR s0 (execPowerOn a0 s) := by
  unfold execPowerOn
  try dsimp only
  repeat' first
    | with_reducible assumption
    | with_reducible refine keepsR_next ?_
    | with_reducible apply State.setFld_keeps
    | with_reducible apply State.powerUpRequest_keeps
    | with_reducible apply State.mi_keeps
    | with_reducible refine State.mi_keeps ?_ _ (by with_reducible assumption)
    | with_reducible apply State.underLock_keeps
    | with_reducible apply State.emit_keeps
    | with_reducible refine keeps_ite (fun _ => ?_) (fun _ => ?_)
    | with_reducible refine keepsR_ite (fun _ => ?_) (fun _ => ?_)
    | (simp only [↓keeps_mk]; with_reducible refine keeps_fold ?_)
    | split
    | (intro _; intros; try dsimp only)

theorem execPowerOff_keeps {s0 s : State} (a0 : Nat) (h : Keeps s0 s) :
    KeepsR s0 (execPowerOff a0 s) := by
  unfold execPowerOff
  try dsimp only
  repeat' first
    | with_reducible assumption
    | with_reducible refine keepsR_next ?_
    | with_reducible apply State.mi_keeps
    | with_reducible refine State.mi_keeps ?_ _ (by with_reducible assumption)
    | with_reducible apply State.offRequest_keeps
    | with_reducible apply State.underLock_keeps
    | with_reducible apply State.emit_keeps
    | split
    | (intro _; intros; try dsimp only)

theorem execRegisterWindowRead_keeps {s0 s : State} (a0 : Nat) (a1 : Nat) (a2 : Nat) (h : Keeps s0 s) :
    KeepsR s0 (execRegisterWindowRead a0 a1 a2 s) := by
  unfold execRegisterWindowRead
  try dsimp only
  repeat' first
    | with_reducible assumption
    | with_reducible refine keepsR_next ?_
    | with_reducible apply State.regReadStep_keeps
    | with_reducible refine keeps_pair (by with_reducible assumption) (State.regReadStep_keeps _ ?_)
    | with_reducible apply State.mi_keeps
    | with_reducible refine State.mi_keeps ?_ _ (by with_reducible assumption)
    | with_reducible apply State.emit_keeps
    | with_reducible refine keeps_ite (fun _ => ?_) (fun _ => ?_)
    | with_reducible refine keepsR_ite (fun _ => ?_) (fun _ => ?_)
    | (with_reducible refine keeps_foldl (fun _ _ _ => ?_) ?_)
    | (with_reducible refine keeps_foldl1 (fun _ _ _ => ?_) ?_)
    | with_reducible refine keeps_pair (by with_reducible assumption) (keeps_foldl1 (fun _ _ _ => ?_) ?_)
    | split
    | (intro _; intros; try dsimp only)

theorem State.windowWrite_keeps {s0 s : State} (a1 : Nat) (a2 : Nat) (h : Keeps s0 s) :
    Keeps s0 (State.windowWrite s a1 a2) := by
  unfold State.windowWrite
  try dsimp only
  repeat' first
    | with_reducible assumption
    | with_reducible apply State.scrWrite_keeps
    | with_reducible apply State.regWrite_keeps
    | with_reducible refine keeps_ite (fun _ => ?_) (fun _ => ?_)
    | split

theorem execMiAuthorityAcquire_keeps {s0 s : State} (a0 : Nat) (h : Keeps s0 s) :
    KeepsR s0 (execMiAuthorityAcquire a0 s) := by
  unfold execMiAuthorityAcquire
  try dsimp only
  repeat' first
    | with_reducible assumption
    | with_reducible refine keepsR_next ?_
    | with_reducible apply State.mi_keeps
    | with_reducible refine State.mi_keeps ?_ _ (by with_reducible assumption)
    | with_reducible apply State.takeLock_keeps
    | with_reducible apply State.emit_keeps
    | split
    | (intro _; intros; try dsimp only)

theorem execMiAuthorityRelease_keeps {s0 s : State} (a0 : Nat) (h : Keeps s0 s) :
    KeepsR s0 (execMiAuthorityRelease a0 s) := by
  unfold execMiAuthorityRelease
  try dsimp only
  repeat' first
    | with_reducible assumption
    | with_reducible refine keepsR_next ?_
    | with_reducible apply State.mi_keeps
    | with_reducible refine State.mi_keeps ?_ _ (by with_reducible assumption)
    | with_reducible apply State.giveLock_keeps
    | with_reducible apply State.emit_keeps
    | with_reducible refine keeps_ite (fun _ => ?_) (fun _ => ?_)
    | with_reducible refine keepsR_ite (fun _ => ?_) (fun _ => ?_)
    | split
    | (intro _; intros; try dsimp only)

theorem execAuthorityLapse_keeps {s0 s : State}  (h : Keeps s0 s) :
    KeepsR s0 (execAuthorityLapse s) := by
  unfold execAuthorityLapse
  try dsimp only
  repeat' first
    | with_reducible assumption
    | with_reducible refine keepsR_next ?_
    | with_reducible apply State.freeLock_keeps
    | with_reducible refine keeps_ite (fun _ => ?_) (fun _ => ?_)
    | with_reducible refine keepsR_ite (fun _ => ?_) (fun _ => ?_)
    | split

/-! ## Namespaces -/

theorem State.pfOnly_keeps {s0 s : State} (a1 : Ref) (a2 : State → State) (ka2 : ∀ x0, Keeps s0 x0 → Keeps s0 (a2 x0)) (h : Keeps s0 s) :
    KeepsR s0 (State.pfOnly s a1 a2) := by
  unfold State.pfOnly
  try dsimp only
  repeat' first
    | with_reducible assumption
    | with_reducible apply ka2
    | with_reducible refine keepsR_next ?_
    | with_reducible apply State.complete_keeps
    | with_reducible apply State.begin_keeps
    | with_reducible refine State.begin_keeps ?_ _ (by with_reducible assumption)
    | with_reducible refine keeps_ite (fun _ => ?_) (fun _ => ?_)
    | with_reducible refine keepsR_ite (fun _ => ?_) (fun _ => ?_)
    | split
    | (intro _; intros; try dsimp only)

theorem State.notSanitizing_keeps {s0 s : State} (a1 : Ref) (a2 : State → State) (ka2 : ∀ x0, Keeps s0 x0 → Keeps s0 (a2 x0)) (h : Keeps s0 s) :
    Keeps s0 (State.notSanitizing s a1 a2) := by
  unfold State.notSanitizing
  try dsimp only
  repeat' first
    | with_reducible assumption
    | with_reducible apply ka2
    | with_reducible apply State.complete_keeps
    | with_reducible refine keeps_ite (fun _ => ?_) (fun _ => ?_)
    | split

theorem State.nsCreate_keeps {s0 s : State} (a1 : Ref) (a2 : Nat) (a3 : Nat) (a4 : List Nat) (h : Keeps s0 s) :
    Keeps s0 (State.nsCreate s a1 a2 a3 a4) := by
  unfold State.nsCreate
  try dsimp only
  repeat' first
    | with_reducible assumption
    | with_reducible apply State.post_keeps
    | with_reducible apply State.complete_keeps
    | with_reducible apply State.folio_keeps
    | with_reducible refine keeps_ite (fun _ => ?_) (fun _ => ?_)
    | (simp only [↓keeps_mk]; with_reducible refine keeps_fold ?_)
    | split

theorem State.nsDelete_keeps {s0 s : State} (a1 : Ns) (h : Keeps s0 s) :
    Keeps s0 (State.nsDelete s a1) := by
  unfold State.nsDelete
  try dsimp only
  repeat' first
    | with_reducible assumption
    | with_reducible apply State.endNsCmds_keeps
    | with_reducible apply State.unmapNs_keeps
    | (simp only [↓keeps_mk]; with_reducible refine keeps_fold ?_)

theorem State.nsDeleteCmd_keeps {s0 s : State} (a1 : Ref) (a2 : Nat) (h : Keeps s0 s) :
    Keeps s0 (State.nsDeleteCmd s a1 a2) := by
  unfold State.nsDeleteCmd
  try dsimp only
  repeat' first
    | with_reducible assumption
    | with_reducible apply State.nsDelete_keeps
    | with_reducible apply State.nsChanged_keeps
    | with_reducible apply State.complete_keeps
    | with_reducible apply State.releaseCut_keeps
    | with_reducible apply State.folio_keeps
    | with_reducible refine keeps_ite (fun _ => ?_) (fun _ => ?_)
    | (with_reducible refine keeps_foldl (fun _ _ _ => ?_) ?_)
    | split

theorem execNamespaceManagement_keeps {s0 s : State} (a0 : Ref) (a1 : Nat) (a2 : Nat) (a3 : Nat) (a4 : Nat) (a5 : List Nat) (h : Keeps s0 s) :
    KeepsR s0 (execNamespaceManagement a0 a1 a2 a3 a4 a5 s) := by
  unfold execNamespaceManagement
  try dsimp only
  repeat' first
    | with_reducible assumption
    | with_reducible refine keepsR_next ?_
    | with_reducible apply State.nsDeleteCmd_keeps
    | with_reducible apply State.complete_keeps
    | with_reducible apply State.nsCreate_keeps
    | with_reducible apply State.pfOnly_keeps
    | with_reducible refine State.pfOnly_keeps ?_ _ (by with_reducible assumption)
    | with_reducible apply State.notSanitizing_keeps
    | split
    | (intro _; intros; try dsimp only)

theorem State.attach_keeps {s0 s : State} (a1 : Ref) (a2 : Bool) (a3 : Nat) (a4 : List Nat) (h : Keeps s0 s) :
    Keeps s0 (State.attach s a1 a2 a3 a4) := by
  unfold State.attach
  try dsimp only
  repeat' first
    | with_reducible assumption
    | with_reducible apply State.aenTo_keeps
    | with_reducible apply State.complete_keeps
    | with_reducible apply State.updNs_keeps
    | with_reducible refine keeps_ite (fun _ => ?_) (fun _ => ?_)
    | (simp only [↓keeps_mk]; with_reducible refine keeps_fold ?_)
    | (with_reducible refine keeps_foldl (fun _ _ _ => ?_) ?_)
    | split

theorem execNamespaceAttachment_keeps {s0 s : State} (a0 : Ref) (a1 : Nat) (a2 : Nat) (a3 : List Nat) (h : Keeps s0 s) :
    KeepsR s0 (execNamespaceAttachment a0 a1 a2 a3 s) := by
  unfold execNamespaceAttachment
  try dsimp only
  repeat' first
    | with_reducible assumption
    | with_reducible refine keepsR_next ?_
    | with_reducible apply State.complete_keeps
    | with_reducible apply State.pfOnly_keeps
    | with_reducible refine State.pfOnly_keeps ?_ _ (by with_reducible assumption)
    | with_reducible apply State.notSanitizing_keeps
    | with_reducible apply State.attach_keeps
    | with_reducible refine keeps_ite (fun _ => ?_) (fun _ => ?_)
    | with_reducible refine keepsR_ite (fun _ => ?_) (fun _ => ?_)
    | split
    | (intro _; intros; try dsimp only)

theorem State.formatNs_keeps {s0 s : State} (a1 : Nat) (a2 : Nat) (a3 : Ns) (h : Keeps s0 s) :
    Keeps s0 (State.formatNs s a1 a2 a3) := by
  unfold State.formatNs
  try dsimp only
  repeat' first
    | with_reducible assumption
    | with_reducible apply State.rekeyNs_keeps
    | with_reducible apply State.updNs_keeps
    | with_reducible apply State.unmapNs_keeps
    | with_reducible refine keeps_ite (fun _ => ?_) (fun _ => ?_)
    | split

theorem State.format_keeps {s0 s : State} (a1 : Ref) (a2 : Nat) (a3 : Nat) (a4 : Nat) (h : Keeps s0 s) :
    Keeps s0 (State.format s a1 a2 a3 a4) := by
  unfold State.format
  try dsimp only
  repeat' first
    | with_reducible assumption
    | with_reducible apply State.formatNs_keeps
    | with_reducible apply State.complete_keeps
    | with_reducible apply State.folio_keeps
    | with_reducible refine keeps_ite (fun _ => ?_) (fun _ => ?_)
    | (with_reducible refine keeps_foldl (fun _ _ _ => ?_) ?_)
    | split

theorem execFormatNvm_keeps {s0 s : State} (a0 : Ref) (a1 : Nat) (a2 : Nat) (a3 : Nat) (h : Keeps s0 s) :
    KeepsR s0 (execFormatNvm a0 a1 a2 a3 s) := by
  unfold execFormatNvm
  try dsimp only
  repeat' first
    | with_reducible assumption
    | with_reducible refine keepsR_next ?_
    | with_reducible apply State.pfOnly_keeps
    | with_reducible refine State.pfOnly_keeps ?_ _ (by with_reducible assumption)
    | with_reducible apply State.notSanitizing_keeps
    | with_reducible apply State.format_keeps
    | split
    | (intro _; intros; try dsimp only)

theorem State.startSanitize_keeps {s0 s : State} (a1 : Ref) (a2 : Nat) (a3 : Bool) (h : Keeps s0 s) :
    Keeps s0 (State.startSanitize s a1 a2 a3) := by
  unfold State.startSanitize
  try dsimp only
  repeat' first
    | with_reducible assumption
    | with_reducible apply State.complete_keeps
    | with_reducible apply State.folio_keeps
    | with_reducible refine keeps_ite (fun _ => ?_) (fun _ => ?_)
    | (simp only [↓keeps_mk]; with_reducible refine keeps_fold ?_)
    | split

theorem State.sanitizeCmd_keeps {s0 s : State} (a1 : Ref) (a2 : Nat) (a3 : Bool) (h : Keeps s0 s) :
    Keeps s0 (State.sanitizeCmd s a1 a2 a3) := by
  unfold State.sanitizeCmd
  try dsimp only
  repeat' first
    | with_reducible assumption
    | with_reducible apply State.startSanitize_keeps
    | with_reducible apply State.complete_keeps
    | with_reducible apply State.notSanitizing_keeps
    | with_reducible apply State.folio_keeps
    | with_reducible refine keeps_ite (fun _ => ?_) (fun _ => ?_)
    | (simp only [↓keeps_mk]; with_reducible refine keeps_fold ?_)
    | split
    | (intro _; intros; try dsimp only)

theorem execSanitizeBlockErase_keeps {s0 s : State} (a0 : Ref) (a1 : Bool) (h : Keeps s0 s) :
    KeepsR s0 (execSanitizeBlockErase a0 a1 s) := by
  unfold execSanitizeBlockErase
  try dsimp only
  repeat' first
    | with_reducible assumption
    | with_reducible refine keepsR_next ?_
    | with_reducible apply State.pfOnly_keeps
    | with_reducible refine State.pfOnly_keeps ?_ _ (by with_reducible assumption)
    | with_reducible apply State.sanitizeCmd_keeps
    | split
    | (intro _; intros; try dsimp only)

theorem execSanitizeCryptoErase_keeps {s0 s : State} (a0 : Ref) (a1 : Bool) (h : Keeps s0 s) :
    KeepsR s0 (execSanitizeCryptoErase a0 a1 s) := by
  unfold execSanitizeCryptoErase
  try dsimp only
  repeat' first
    | with_reducible assumption
    | with_reducible refine keepsR_next ?_
    | with_reducible apply State.pfOnly_keeps
    | with_reducible refine State.pfOnly_keeps ?_ _ (by with_reducible assumption)
    | with_reducible apply State.sanitizeCmd_keeps
    | split
    | (intro _; intros; try dsimp only)

theorem execSanitizeExitFailure_keeps {s0 s : State} (a0 : Ref) (a1 : Nat) (a2 : Bool) (h : Keeps s0 s) :
    KeepsR s0 (execSanitizeExitFailure a0 a1 a2 s) := by
  unfold execSanitizeExitFailure
  try dsimp only
  repeat' first
    | with_reducible assumption
    | with_reducible refine keepsR_next ?_
    | with_reducible apply State.pfOnly_keeps
    | with_reducible refine State.pfOnly_keeps ?_ _ (by with_reducible assumption)
    | with_reducible apply State.sanitizeCmd_keeps
    | split
    | (intro _; intros; try dsimp only)

/-! ## Patrol -/

theorem State.startPass_keeps {s0 s : State}  (h : Keeps s0 s) :
    Keeps s0 (State.startPass s) := by
  unfold State.startPass
  try dsimp only
  repeat' first
    | with_reducible assumption
    | with_reducible apply State.setFld_keeps
    | (simp only [↓keeps_mk]; with_reducible refine keeps_fold ?_)

theorem State.patrolRead_keeps {s0 : State} (k : Nat) : ∀ (n : Nat) {s : State}, Keeps s0 s → Keeps s0 (State.patrolRead k n s) := by
  induction k with
  | zero => exact fun n s h => by unfold State.patrolRead; exact h
  | succ k ih =>
    intro n s h
    cases n with
    | zero => unfold State.patrolRead; exact h
    | succ n =>
      unfold State.patrolRead
      dsimp only
      repeat' first
        | with_reducible assumption
        | with_reducible apply ih
        | with_reducible apply State.startFetch_keeps
        | with_reducible refine keeps_ite (fun _ => ?_) (fun _ => ?_)
        | (simp only [↓keeps_mk]; with_reducible refine keeps_fold ?_)
        | split

theorem execPatrolWindow_keeps {s0 s : State}  (h : Keeps s0 s) :
    KeepsR s0 (execPatrolWindow s) := by
  unfold execPatrolWindow
  try dsimp only
  repeat' first
    | with_reducible assumption
    | with_reducible refine keepsR_next ?_
    | with_reducible apply State.post_keeps
    | with_reducible apply State.patrolRead_keeps
    | with_reducible apply State.startPass_keeps
    | with_reducible refine keeps_ite (fun _ => ?_) (fun _ => ?_)
    | with_reducible refine keepsR_ite (fun _ => ?_) (fun _ => ?_)
    | (simp only [↓keeps_mk]; with_reducible refine keeps_fold ?_)
    | split

end Sys2Proof.Machine
end

