-- ==== Sys2Proof/Laws/KeepsBoot.lean ====
section
/-! SUPPORT. What the operations of resets, BOOT and what remains keep: one lemma each. -/

namespace Sys2Proof.Machine

/-! ## Reset -/

theorem State.forgetWls_keeps {s0 s : State} (a1 : Nat) (a2 : Nat) (a3 : Nat) (a4 : Nat) (h : Keeps s0 s) :
    Keeps s0 (State.forgetWls s a1 a2 a3 a4) := by
  unfold State.forgetWls
  try dsimp only
  repeat' first
    | with_reducible assumption
    | (simp only [↓keeps_mk]; with_reducible refine keeps_fold ?_)

theorem State.keepFinished_keeps {s0 s : State} (a1 : Comp) (h : Keeps s0 s) :
    Keeps s0 (State.keepFinished s a1) := by
  unfold State.keepFinished
  try dsimp only
  repeat' first
    | with_reducible assumption
    | with_reducible apply State.updPage_keeps
    | with_reducible apply State.recordWl_keeps
    | with_reducible refine keeps_ite (fun _ => ?_) (fun _ => ?_)
    | split

theorem State.cutRun_keeps {s0 s : State} (a1 : Run) (h : Keeps s0 s) :
    Keeps s0 (State.cutRun s a1) := by
  unfold State.cutRun
  try dsimp only
  repeat' first
    | with_reducible assumption
    | with_reducible apply State.forgetWls_keeps
    | with_reducible refine keeps_ite (fun _ => ?_) (fun _ => ?_)
    | split

theorem State.interrupt_keeps {s0 s : State}  (h : Keeps s0 s) :
    Keeps s0 (State.interrupt s) := by
  unfold State.interrupt
  try dsimp only
  repeat' first
    | with_reducible assumption
    | with_reducible apply State.cutRun_keeps
    | with_reducible apply State.keepFinished_keeps
    | (with_reducible refine keeps_foldl (fun _ _ _ => ?_) ?_)

theorem State.coreReset_keeps {s0 s : State} (h : Keeps s0 s) : Keeps s0 (State.coreReset s) := by
  have h1 := State.interrupt_keeps h
  unfold State.coreReset
  dsimp only
  generalize s.interrupt = x at h1 ⊢
  obtain ⟨a, b, c, d, e, f, g, i, j⟩ := h1
  simp only [↓keeps_mk]
  exact ⟨a, b, rfl, d, e, by simp only [List.length_map]; exact f, by decide, i, j⟩

theorem execVaux33Loss_keeps {s0 s : State} (h : Keeps s0 s) : KeepsR s0 (execVaux33Loss s) := by
  have h1 := State.resetKeys_keeps aonKey (State.coreReset_keeps h)
  unfold execVaux33Loss
  dsimp only
  generalize (s.coreReset.resetKeys aonKey) = x at h1 ⊢
  obtain ⟨a, b, c, d, e, f, g, i, j⟩ := h1
  exact keepsR_next ⟨a, b, c, d, e, f, g, rfl, j⟩

/-! ## Recover -/

theorem State.loadImage_keeps {s0 s : State} (a1 : Image) (h : Keeps s0 s) :
    Keeps s0 (State.loadImage s a1) := by
  unfold State.loadImage
  try dsimp only
  repeat' first
    | with_reducible assumption
    | (simp only [↓keeps_mk]; with_reducible refine keeps_fold ?_)

theorem State.replayUnit_keeps {s0 s : State} (a1 : BltUnit) (h : Keeps s0 s) :
    Keeps s0 (State.replayUnit s a1) := by
  unfold State.replayUnit
  try dsimp only
  repeat' first
    | with_reducible assumption
    | with_reducible apply State.updRec_keeps
    | with_reducible apply State.changeEntry_keeps
    | with_reducible refine keeps_ite (fun _ => ?_) (fun _ => ?_)
    | (simp only [↓keeps_mk]; with_reducible refine keeps_fold ?_)
    | split

theorem State.replayTlc_keeps {s0 s : State} (a1 : MediaIu) (h : Keeps s0 s) :
    Keeps s0 (State.replayTlc s a1) := by
  unfold State.replayTlc
  try dsimp only
  repeat' first
    | with_reducible assumption
    | with_reducible apply State.changeEntry_keeps
    | with_reducible apply State.mapUpdate_keeps
    | with_reducible refine keeps_ite (fun _ => ?_) (fun _ => ?_)
    | split

theorem State.tieUnits_keeps {s0 s : State} (a1 : Nat) (h : Keeps s0 s) :
    Keeps s0 (State.tieUnits s a1) := by
  unfold State.tieUnits
  try dsimp only
  repeat' first
    | with_reducible assumption
    | (simp only [↓keeps_mk]; with_reducible refine keeps_fold ?_)
    | split

theorem State.recount_keeps {s0 s : State}  (h : Keeps s0 s) :
    Keeps s0 (State.recount s) := by
  unfold State.recount
  try dsimp only
  repeat' first
    | with_reducible assumption
    | with_reducible refine keeps_ite (fun _ => ?_) (fun _ => ?_)
    | (simp only [↓keeps_mk]; with_reducible refine keeps_fold ?_)
    | split

theorem State.aboveInks_keeps {s0 s : State}  (h : Keeps s0 s) :
    Keeps s0 (State.aboveInks s) := by
  unfold State.aboveInks
  try dsimp only
  repeat' first
    | with_reducible assumption
    | with_reducible apply State.startLines_keeps
    | with_reducible refine keeps_ite (fun _ => ?_) (fun _ => ?_)
    | (simp only [↓keeps_mk]; with_reducible refine keeps_fold ?_)
    | (with_reducible refine keeps_foldl (fun _ _ _ => ?_) ?_)
    | split

theorem replayOne_keeps {s0 : State} (floor : Nat) (set : List RepItem) (bad : List Nat) (p : Replay) (x : RepItem) (h : Keeps s0 p.1) :
    Keeps s0 (replayOne floor set bad p x).1 := by
  unfold replayOne
  dsimp only
  split
  · split
    · exact h
    · exact State.replayUnit_keeps _ h
  · refine keeps_foldl1 (fun _ _ hp => ?_) h
    split
    · exact hp
    · exact State.changeEntry_keeps _ _ _ _ hp
  · split
    · split
      · exact State.mapUpdate_keeps _ _ _ _ (State.touchPage_keeps _ _ _ h)
      · exact State.replayTlc_keeps _ (State.mapUpdate_keeps _ _ _ _ (State.touchPage_keeps _ _ _ h))
    · split
      · exact h
      · exact State.replayTlc_keeps _ h

theorem State.replay_keeps {s0 s : State} (im : Image) (bad : List Nat) (h : Keeps s0 s) : Keeps s0 (State.replay s im bad) := by
  unfold State.replay
  exact State.recount_keeps (State.tieUnits_keeps _ (keeps_foldl1 (fun _ _ hp => replayOne_keeps _ _ _ _ _ hp) (State.loadImage_keeps _ h)))

theorem State.readBlotter_keeps {s0 s : State} (a1 : Nat) (a2 : List Nat) (a3 : List Nat) (h : Keeps s0 s) :
    Keeps s0 (State.readBlotter s a1 a2 a3) := by
  unfold State.readBlotter
  try dsimp only
  repeat' first
    | with_reducible assumption
    | with_reducible apply State.post_keeps
    | with_reducible apply State.enterSafe_keeps
    | with_reducible refine keeps_ite (fun _ => ?_) (fun _ => ?_)
    | (simp only [↓keeps_mk]; with_reducible refine keeps_fold ?_)
    | split

theorem State.exposeBands_keeps {s0 s : State}  (h : Keeps s0 s) :
    Keeps s0 (State.exposeBands s) := by
  unfold State.exposeBands
  try dsimp only
  repeat' first
    | with_reducible assumption
    | with_reducible apply State.post_keeps
    | with_reducible refine keeps_ite (fun _ => ?_) (fun _ => ?_)
    | (with_reducible refine keeps_foldl (fun _ _ _ => ?_) ?_)
    | split

theorem State.pickSlots_keeps {s0 s : State}  (h : Keeps s0 s) :
    Keeps s0 (State.pickSlots s) := by
  unfold State.pickSlots
  try dsimp only
  repeat' first
    | with_reducible assumption
    | with_reducible refine keeps_ite (fun _ => ?_) (fun _ => ?_)
    | (simp only [↓keeps_mk]; with_reducible refine keeps_fold ?_)
    | (with_reducible refine keeps_foldl (fun _ _ _ => ?_) ?_)
    | split

/-! ## BootRom -/

theorem State.bootCount_keeps {s0 s : State} (a1 : BootEnv) (h : Keeps s0 s) :
    Keeps s0 (State.bootCount s a1) := by
  unfold State.bootCount
  try dsimp only
  repeat' first
    | with_reducible assumption
    | with_reducible apply State.startLines_keeps
    | with_reducible apply State.rulResume_keeps
    | with_reducible apply State.rulStop_keeps
    | with_reducible refine keeps_ite (fun _ => ?_) (fun _ => ?_)
    | (simp only [↓keeps_mk]; with_reducible refine keeps_fold ?_)
    | split

theorem State.readFuses_keeps {s0 s : State} (a1 : BootEnv) (h : Keeps s0 s) :
    Keeps s0 (State.readFuses s a1) := by
  unfold State.readFuses
  try dsimp only
  repeat' first
    | with_reducible assumption
    | (simp only [↓keeps_mk]; with_reducible refine keeps_fold ?_)

theorem State.lcRecover_keeps {s0 s : State}  (h : Keeps s0 s) :
    Keeps s0 (State.lcRecover s) := by
  unfold State.lcRecover
  try dsimp only
  repeat' first
    | with_reducible assumption
    | with_reducible apply State.burn_keeps
    | with_reducible refine keeps_ite (fun _ => ?_) (fun _ => ?_)
    | (simp only [↓keeps_mk]; with_reducible refine keeps_fold ?_)
    | (with_reducible refine keeps_foldl (fun _ _ _ => ?_) ?_)
    | split

theorem State.resolveFuses_keeps {s0 s : State}  (h : Keeps s0 s) :
    Keeps s0 (State.resolveFuses s) := by
  unfold State.resolveFuses
  try dsimp only
  repeat' first
    | with_reducible assumption
    | with_reducible apply State.post_keeps
    | with_reducible apply State.enterSafe_keeps
    | with_reducible apply State.putField_keeps
    | (simp only [↓keeps_mk]; with_reducible refine keeps_fold ?_)
    | (with_reducible refine keeps_foldl (fun _ _ _ => ?_) ?_)
    | split

theorem State.lcFinish_keeps {s0 s : State} (a1 : Intent) (h : Keeps s0 s) :
    Keeps s0 (State.lcFinish s a1) := by
  unfold State.lcFinish
  try dsimp only
  repeat' first
    | with_reducible assumption
    | with_reducible apply State.post_keeps
    | with_reducible apply State.lcKeys_keeps
    | with_reducible refine keeps_ite (fun _ => ?_) (fun _ => ?_)
    | (simp only [↓keeps_mk]; with_reducible refine keeps_fold ?_)
    | split

theorem State.markBad_keeps {s0 s : State} (a1 : List FolCopy) (h : Keeps s0 s) :
    Keeps s0 (State.markBad s a1) := by
  unfold State.markBad
  try dsimp only
  repeat' first
    | with_reducible assumption
    | with_reducible apply State.post_keeps
    | with_reducible apply State.copyBad_keeps
    | with_reducible refine keeps_ite (fun _ => ?_) (fun _ => ?_)
    | (with_reducible refine keeps_foldl (fun _ _ _ => ?_) ?_)
    | split

theorem State.copyIgnored_keeps {s0 s : State} (a1 : Bool) (h : Keeps s0 s) :
    Keeps s0 (State.copyIgnored s a1) := by
  unfold State.copyIgnored
  try dsimp only
  repeat' first
    | with_reducible assumption
    | with_reducible apply State.post_keeps
    | with_reducible refine keeps_ite (fun _ => ?_) (fun _ => ?_)
    | split

theorem State.copyConflict_keeps {s0 s : State}  (h : Keeps s0 s) :
    Keeps s0 (State.copyConflict s) := by
  unfold State.copyConflict
  try dsimp only
  repeat' first
    | with_reducible assumption
    | with_reducible apply State.post_keeps
    | with_reducible apply State.enterSafe_keeps

theorem State.useTally_keeps {s0 s : State} (bad : List FolCopy) (h : Keeps s0 s) : Keeps s0 (State.useTally s bad) := by
  have one : ∀ (a b c : Bool) (p : Prop) [Decidable p] (t : State), Keeps s0 t →
      Keeps s0 (if p then ((t.copyIgnored a).copyIgnored b).copyConflict else (t.copyIgnored c).copyIgnored b) := by
    intro a b c p _ t ht
    exact keeps_ite (fun _ => State.copyConflict_keeps (State.copyIgnored_keeps _ (State.copyIgnored_keeps _ ht)))
      (fun _ => State.copyIgnored_keeps _ (State.copyIgnored_keeps _ ht))
  have count : ∀ (x : State) (l : List Tally), Keeps s0 x → Keeps s0 { x with fol := { x.fol with bootSeq := x.fol.bootSeq + 1, tally := l } } := by
    intro x l hx
    obtain ⟨a, b, c, d, e, f, g, i, j⟩ := hx
    exact ⟨a, b, c, d, e, f, g, i, Nat.le_trans j (Nat.le_succ _)⟩
  unfold State.useTally
  exact count _ _ (one _ _ _ _ _ (one _ _ _ _ _ h))

theorem State.useKeys_keeps {s0 s : State}  (h : Keeps s0 s) :
    Keeps s0 (State.useKeys s) := by
  unfold State.useKeys
  try dsimp only
  repeat' first
    | with_reducible assumption
    | with_reducible apply State.copyIgnored_keeps
    | with_reducible apply State.copyConflict_keeps
    | with_reducible refine keeps_ite (fun _ => ?_) (fun _ => ?_)
    | (simp only [↓keeps_mk]; with_reducible refine keeps_fold ?_)
    | split

theorem State.useSettings_keeps {s0 s : State}  (h : Keeps s0 s) :
    Keeps s0 (State.useSettings s).1 := by
  unfold State.useSettings
  try dsimp only
  repeat' first
    | with_reducible assumption
    | with_reducible apply State.copyIgnored_keeps
    | with_reducible apply State.copyConflict_keeps
    | with_reducible refine keeps_ite (fun _ => ?_) (fun _ => ?_)
    | (simp only [↓keeps_mk]; with_reducible refine keeps_fold ?_)
    | split

theorem State.tryslots_keeps {s0 : State} (env : BootEnv) (l : List Nat) : ∀ {s : State}, Keeps s0 s →
    Keeps s0 (State.tryslots s env l).1 := by
  induction l with
  | nil => exact fun h => h
  | cons n l ih =>
    intro s h
    unfold State.tryslots
    split
    · exact h
    · exact ih (State.post_keeps _ _ h)

theorem State.chooseSlot_keeps {s0 s : State} (env : BootEnv) (h : Keeps s0 s) : Keeps s0 (State.chooseSlot s env).1 := by
  have fall : ∀ (t : State) (b : Bxl), Keeps s0 t → Keeps s0 { t with bxl := b, fol := t.fol.tallied 3 } := fun _ _ ht => ht
  have start : Keeps s0 ({ s with bxl := { s.bxl with rcd := s.fol.slotRcd, force := false } } : State) := h
  have h2 := State.rotateStep_keeps (State.rotateStep_keeps (State.rotateStep_keeps start))
  unfold State.chooseSlot
  dsimp only
  split
  · exact State.tryslots_keeps _ _ (State.slotRecord_keeps _ _ h2)
  · split
    · exact State.tryslots_keeps _ _ (fall _ _ (State.post_keeps _ _ (State.slotRecord_keeps _ _ h2)))
    · exact State.tryslots_keeps _ _ h2

theorem State.noSlot_keeps {s0 s : State}  (h : Keeps s0 s) :
    Keeps s0 (State.noSlot s) := by
  unfold State.noSlot
  try dsimp only
  repeat' first
    | with_reducible assumption
    | with_reducible apply State.post_keeps
    | with_reducible apply State.enterSafe_keeps

theorem State.applyFeat_keeps {s0 s : State} (a1 : Feat) (h : Keeps s0 s) :
    Keeps s0 (State.applyFeat s a1) := by
  unfold State.applyFeat
  try dsimp only
  repeat' first
    | with_reducible assumption
    | with_reducible apply State.setFld_keeps
    | with_reducible apply State.refreshCap_keeps
    | with_reducible refine keeps_ite (fun _ => ?_) (fun _ => ?_)
    | (simp only [↓keeps_mk]; with_reducible refine keeps_fold ?_)
    | split

theorem State.applySettings_keeps {s0 s : State} (a1 : Option SetCopy) (h : Keeps s0 s) :
    Keeps s0 (State.applySettings s a1) := by
  unfold State.applySettings
  try dsimp only
  repeat' first
    | with_reducible assumption
    | with_reducible apply State.post_keeps
    | with_reducible apply State.startLines_keeps
    | with_reducible apply State.applyFeat_keeps
    | with_reducible apply State.setFld_keeps
    | with_reducible apply State.loadSettings_keeps
    | with_reducible refine keeps_ite (fun _ => ?_) (fun _ => ?_)
    | (simp only [↓keeps_mk]; with_reducible refine keeps_fold ?_)
    | (with_reducible refine keeps_foldl (fun _ _ _ => ?_) ?_)
    | split

/-! ## BootMedia -/

theorem State.bootTines_keeps {s0 s : State} (a1 : BootEnv) (h : Keeps s0 s) :
    Keeps s0 (State.bootTines s a1) := by
  unfold State.bootTines
  try dsimp only
  repeat' first
    | with_reducible assumption
    | with_reducible apply State.post_keeps
    | with_reducible apply State.setFld_keeps
    | with_reducible refine keeps_ite (fun _ => ?_) (fun _ => ?_)
    | (simp only [↓keeps_mk]; with_reducible refine keeps_fold ?_)
    | split

theorem State.tineMaskEntries_keeps {s0 s : State}  (h : Keeps s0 s) :
    Keeps s0 (State.tineMaskEntries s) := by
  unfold State.tineMaskEntries
  try dsimp only
  repeat' first
    | with_reducible assumption
    | with_reducible apply State.tineEntry_keeps
    | with_reducible refine keeps_ite (fun _ => ?_) (fun _ => ?_)
    | split

theorem State.bootUnits_keeps {s0 s : State} (a1 : BootEnv) (h : Keeps s0 s) :
    Keeps s0 (State.bootUnits s a1) := by
  unfold State.bootUnits
  try dsimp only
  repeat' first
    | with_reducible assumption
    | with_reducible apply State.maskLane_keeps
    | with_reducible apply State.maskBank_keeps
    | with_reducible apply State.checkLanes_keeps
    | (with_reducible refine keeps_foldl (fun _ _ _ => ?_) ?_)

theorem State.discover_keeps {s0 s : State} (a1 : BootEnv) (h : Keeps s0 s) :
    Keeps s0 (State.discover s a1) := by
  unfold State.discover
  try dsimp only
  repeat' first
    | with_reducible assumption
    | with_reducible apply State.post_keeps
    | with_reducible refine keeps_ite (fun _ => ?_) (fun _ => ?_)
    | (simp only [↓keeps_mk]; with_reducible refine keeps_fold ?_)
    | (with_reducible refine keeps_foldl (fun _ _ _ => ?_) ?_)
    | split

theorem State.setGeometry_keeps {s0 s : State} (a1 : BootEnv) (h : Keeps s0 s) :
    Keeps s0 (State.setGeometry s a1) := by
  unfold State.setGeometry
  try dsimp only
  repeat' first
    | with_reducible assumption
    | with_reducible apply State.post_keeps
    | with_reducible apply State.setFld_keeps
    | with_reducible apply State.enterSafe_keeps
    | with_reducible refine keeps_ite (fun _ => ?_) (fun _ => ?_)
    | (simp only [↓keeps_mk]; with_reducible refine keeps_fold ?_)
    | (with_reducible refine keeps_foldl (fun _ _ _ => ?_) ?_)
    | split

theorem State.bringUp_keeps {s0 s : State} (a1 : BootEnv) (h : Keeps s0 s) :
    Keeps s0 (State.bringUp s a1) := by
  unfold State.bringUp
  try dsimp only
  repeat' first
    | with_reducible assumption
    | with_reducible apply State.post_keeps
    | with_reducible apply State.maskNib_keeps
    | with_reducible apply State.unresponsive_keeps
    | (with_reducible refine keeps_foldl (fun _ _ _ => ?_) ?_)

theorem State.takeOver_keeps {s0 s : State} (a1 : List Nat) (h : Keeps s0 s) :
    Keeps s0 (State.takeOver s a1) := by
  unfold State.takeOver
  try dsimp only
  repeat' first
    | with_reducible assumption
    | with_reducible apply State.post_keeps
    | with_reducible apply State.setFld_keeps
    | with_reducible refine keeps_ite (fun _ => ?_) (fun _ => ?_)
    | split

theorem State.fitRate_keeps {s0 s : State} (a1 : Nat) (h : Keeps s0 s) :
    Keeps s0 (State.fitRate s a1) := by
  unfold State.fitRate
  try dsimp only
  repeat' first
    | with_reducible assumption
    | with_reducible apply State.post_keeps
    | with_reducible apply State.setFld_keeps
    | with_reducible apply State.enterSafe_keeps
    | with_reducible refine keeps_ite (fun _ => ?_) (fun _ => ?_)
    | split

theorem State.reserveBlotter_keeps {s0 s : State} (a1 : Nat) (h : Keeps s0 s) :
    Keeps s0 (State.reserveBlotter s a1) := by
  unfold State.reserveBlotter
  try dsimp only
  repeat' first
    | with_reducible assumption
    | with_reducible refine keeps_ite (fun _ => ?_) (fun _ => ?_)
    | (simp only [↓keeps_mk]; with_reducible refine keeps_fold ?_)
    | split

theorem State.formSets_keeps {s0 s : State} (a1 : List Nat) (h : Keeps s0 s) :
    Keeps s0 (State.formSets s a1) := by
  unfold State.formSets
  try dsimp only
  repeat' first
    | with_reducible assumption
    | with_reducible refine keeps_ite (fun _ => ?_) (fun _ => ?_)
    | (simp only [↓keeps_mk]; with_reducible refine keeps_fold ?_)
    | split

theorem State.formBands_keeps {s0 s : State} (a1 : List (List Nat)) (h : Keeps s0 s) :
    Keeps s0 (State.formBands s a1) := by
  unfold State.formBands
  try dsimp only
  repeat' first
    | with_reducible assumption
    | with_reducible refine keeps_ite (fun _ => ?_) (fun _ => ?_)
    | (simp only [↓keeps_mk]; with_reducible refine keeps_fold ?_)
    | split

theorem State.setProt_keeps {s0 s : State}  (h : Keeps s0 s) :
    Keeps s0 (State.setProt s) := by
  unfold State.setProt
  try dsimp only
  repeat' first
    | with_reducible assumption
    | with_reducible apply State.setFld_keeps

theorem State.form_keeps {s0 s : State}  (h : Keeps s0 s) :
    Keeps s0 (State.form s) := by
  unfold State.form
  try dsimp only
  repeat' first
    | with_reducible assumption
    | with_reducible apply State.formSets_keeps
    | with_reducible apply State.formBands_keeps
    | with_reducible apply State.reserveBlotter_keeps
    | (simp only [↓keeps_mk]; with_reducible refine keeps_fold ?_)
    | (with_reducible refine keeps_foldl (fun _ _ _ => ?_) ?_)

/-! ## Boot -/

theorem State.useScriptorium_keeps {s0 s : State}  (h : Keeps s0 s) :
    Keeps s0 (State.useScriptorium s) := by
  unfold State.useScriptorium
  try dsimp only
  repeat' first
    | with_reducible assumption
    | with_reducible apply State.post_keeps
    | with_reducible apply State.enterSafe_keeps
    | with_reducible apply State.putImage_keeps
    | with_reducible refine keeps_ite (fun _ => ?_) (fun _ => ?_)
    | (simp only [↓keeps_mk]; with_reducible refine keeps_fold ?_)
    | (with_reducible refine keeps_foldl (fun _ _ _ => ?_) ?_)
    | split

theorem State.bootRecord_keeps {s0 s : State}  (h : Keeps s0 s) :
    Keeps s0 (State.bootRecord s) := by
  unfold State.bootRecord
  try dsimp only
  repeat' first
    | with_reducible assumption
    | with_reducible apply State.folio_keeps
    | (simp only [↓keeps_mk]; with_reducible refine keeps_fold ?_)

theorem State.loadKeys_keeps {s0 s : State}  (h : Keeps s0 s) :
    Keeps s0 (State.loadKeys s) := by
  unfold State.loadKeys
  try dsimp only
  repeat' first
    | with_reducible assumption
    | with_reducible refine keeps_ite (fun _ => ?_) (fun _ => ?_)
    | (simp only [↓keeps_mk]; with_reducible refine keeps_fold ?_)
    | split

theorem State.loadTally_keeps {s0 s : State}  (h : Keeps s0 s) :
    Keeps s0 (State.loadTally s) := by
  unfold State.loadTally
  try dsimp only
  repeat' first
    | with_reducible assumption
    | (simp only [↓keeps_mk]; with_reducible refine keeps_fold ?_)

theorem State.recoverFrom_keeps {s0 s : State} (a1 : Image) (a2 : BootEnv) (h : Keeps s0 s) :
    Keeps s0 (State.recoverFrom s a1 a2) := by
  unfold State.recoverFrom
  try dsimp only
  repeat' first
    | with_reducible assumption
    | with_reducible apply State.replay_keeps
    | with_reducible apply State.setFld_keeps
    | with_reducible apply State.exposeBands_keeps
    | with_reducible apply State.pageLost_keeps
    | (with_reducible refine keeps_foldl (fun _ _ _ => ?_) ?_)

theorem State.recover_keeps {s0 s : State} (a1 : BootEnv) (a2 : Nat) (a3 : Bool) (h : Keeps s0 s) :
    Keeps s0 (State.recover s a1 a2 a3) := by
  unfold State.recover
  try dsimp only
  repeat' first
    | with_reducible assumption
    | with_reducible apply State.post_keeps
    | with_reducible apply State.pickSlots_keeps
    | with_reducible apply State.loadTally_keeps
    | with_reducible apply State.readBlotter_keeps
    | with_reducible apply State.enterSafe_keeps
    | with_reducible apply State.recoverFrom_keeps
    | with_reducible apply State.aboveInks_keeps
    | with_reducible apply State.loadKeys_keeps
    | (simp only [↓keeps_mk]; with_reducible refine keeps_fold ?_)
    | split

theorem State.afterRecovery_keeps {s0 s : State}  (h : Keeps s0 s) :
    Keeps s0 (State.afterRecovery s) := by
  unfold State.afterRecovery
  try dsimp only
  repeat' first
    | with_reducible assumption
    | with_reducible apply State.post_keeps
    | with_reducible apply State.runSanitize_keeps
    | with_reducible apply State.startCheckpoint_keeps
    | with_reducible apply State.feedRec_keeps
    | with_reducible apply State.startErase_keeps
    | with_reducible refine keeps_ite (fun _ => ?_) (fun _ => ?_)
    | (simp only [↓keeps_mk]; with_reducible refine keeps_fold ?_)
    | (with_reducible refine keeps_foldl (fun _ _ _ => ?_) ?_)
    | split

theorem State.bootRegs_keeps {s0 s : State} (a1 : Nat) (h : Keeps s0 s) :
    Keeps s0 (State.bootRegs s a1) := by
  unfold State.bootRegs
  try dsimp only
  repeat' first
    | with_reducible assumption
    | with_reducible apply State.sampleStrap_keeps
    | with_reducible apply State.resetKeys_keeps
    | with_reducible apply State.setFld_keeps
    | with_reducible apply State.trainPorts_keeps
    | with_reducible refine keeps_ite (fun _ => ?_) (fun _ => ?_)
    | split

theorem State.bootDrive_keeps {s0 s : State} (a1 : BootEnv) (a2 : Nat) (a3 : Nat) (a4 : List Nat) (a5 : Option Nat) (a6 : Bool) (h : Keeps s0 s) :
    Keeps s0 (State.bootDrive s a1 a2 a3 a4 a5 a6) := by
  unfold State.bootDrive
  try dsimp only
  repeat' first
    | with_reducible assumption
    | with_reducible apply State.lcFinish_keeps
    | with_reducible apply State.afterRecovery_keeps
    | with_reducible apply State.sampleStrap_keeps
    | with_reducible apply State.fitRate_keeps
    | with_reducible apply State.setProt_keeps
    | with_reducible apply State.useKeys_keeps
    | with_reducible apply State.takeOver_keeps
    | with_reducible apply State.form_keeps
    | with_reducible apply State.refreshCap_keeps
    | with_reducible apply State.useSettings_keeps
    | with_reducible refine keeps_pair (by with_reducible assumption) (State.useSettings_keeps ?_)
    | with_reducible apply State.colophon_keeps
    | with_reducible apply State.bootRecord_keeps
    | with_reducible apply State.useScriptorium_keeps
    | with_reducible apply State.setGeometry_keeps
    | with_reducible apply State.refreshLevel_keeps
    | with_reducible apply State.discover_keeps
    | with_reducible apply State.bringUp_keeps
    | with_reducible apply State.applySettings_keeps
    | with_reducible apply State.tineMaskEntries_keeps
    | with_reducible apply State.recover_keeps
    | with_reducible apply State.bootUnits_keeps
    | with_reducible refine keeps_ite (fun _ => ?_) (fun _ => ?_)
    | (simp only [↓keeps_mk]; with_reducible refine keeps_fold ?_)
    | split

theorem State.copyTherm_keeps {s0 s : State}  (h : Keeps s0 s) :
    Keeps s0 (State.copyTherm s) := by
  unfold State.copyTherm
  try dsimp only
  repeat' first
    | with_reducible assumption
    | (simp only [↓keeps_mk]; with_reducible refine keeps_fold ?_)

theorem State.bootRun_keeps {s0 s : State} (a1 : BootEnv) (a2 : List Nat) (h : Keeps s0 s) :
    Keeps s0 (State.bootRun s a1 a2) := by
  unfold State.bootRun
  try dsimp only
  repeat' first
    | with_reducible assumption
    | with_reducible apply State.post_keeps
    | with_reducible apply State.resolveFuses_keeps
    | with_reducible apply State.chooseSlot_keeps
    | with_reducible refine keeps_pair (by with_reducible assumption) (State.chooseSlot_keeps _ ?_)
    | with_reducible apply State.bootDrive_keeps
    | with_reducible apply State.copyTherm_keeps
    | with_reducible apply State.bootTines_keeps
    | with_reducible apply State.lcRecover_keeps
    | with_reducible apply State.readFuses_keeps
    | with_reducible apply State.noSlot_keeps
    | with_reducible apply State.markBad_keeps
    | with_reducible apply State.useTally_keeps
    | with_reducible refine keeps_ite (fun _ => ?_) (fun _ => ?_)
    | (simp only [↓keeps_mk]; with_reducible refine keeps_fold ?_)
    | split

theorem State.enterBoot_keeps {s0 s : State} (cause : Nat) (env : BootEnv) (h : Keeps s0 s) : Keeps s0 (State.enterBoot s cause env) := by
  have h1 := State.bootCount_keeps env (State.bootRegs_keeps cause (State.coreReset_keeps h))
  unfold State.enterBoot
  dsimp only
  generalize ((s.coreReset.bootRegs cause).bootCount env) = x at h1 ⊢
  have h2 : ∀ k : Sensor → Sensor, Keeps s0 { x with
      mode := .boot
      evu := {}
      pwr := { x.pwr with booted := true }
      thm := { x.thm with sensors := x.thm.sensors.map k, levelT := [0, 0, 0, 0], levelAt := x.now, bands := [], bandsAt := x.now } } := by
    intro k
    obtain ⟨a, b, c, d, e, f, g, i, j⟩ := h1
    exact ⟨a, b, c, Nat.zero_le _, rfl, f, g, by simp only [List.length_map]; exact i, j⟩
  refine State.bootRun_keeps _ _ (keeps_ite (fun _ => State.logLost_keeps (h2 _)) (fun _ => State.setLevel_keeps _ (State.logLost_keeps (h2 _))))

/-! ## PowerSeq -/

theorem State.quiesceEnd_keeps {s0 s : State} (a1 : Bool) (h : Keeps s0 s) :
    Keeps s0 (State.quiesceEnd s a1) := by
  unfold State.quiesceEnd
  try dsimp only
  repeat' first
    | with_reducible assumption
    | with_reducible apply State.shutRecord_keeps
    | with_reducible refine keeps_ite (fun _ => ?_) (fun _ => ?_)
    | (simp only [↓keeps_mk]; with_reducible refine keeps_fold ?_)
    | split

theorem State.quiesceBegin_keeps {s0 s : State}  (h : Keeps s0 s) :
    Keeps s0 (State.quiesceBegin s) := by
  unfold State.quiesceBegin
  try dsimp only
  repeat' first
    | with_reducible assumption
    | with_reducible apply State.pump_keeps
    | with_reducible apply State.padWp_keeps
    | with_reducible apply State.dozeEnd_keeps
    | with_reducible refine keeps_ite (fun _ => ?_) (fun _ => ?_)
    | (simp only [↓keeps_mk]; with_reducible refine keeps_fold ?_)
    | (with_reducible refine keeps_foldl (fun _ _ _ => ?_) ?_)
    | split

theorem State.quiesceStep_keeps {s0 s : State}  (h : Keeps s0 s) :
    Keeps s0 (State.quiesceStep s) := by
  unfold State.quiesceStep
  try dsimp only
  repeat' first
    | with_reducible assumption
    | with_reducible apply State.closeRows_keeps
    | with_reducible apply State.startCheckpoint_keeps
    | with_reducible apply State.quiesceEnd_keeps
    | with_reducible apply State.quiesceBegin_keeps
    | with_reducible apply State.startDump_keeps
    | with_reducible refine keeps_ite (fun _ => ?_) (fun _ => ?_)
    | (simp only [↓keeps_mk]; with_reducible refine keeps_fold ?_)
    | split

theorem State.quiescePump_keeps {s0 s : State}  (h : Keeps s0 s) :
    Keeps s0 (State.quiescePump s) := by
  unfold State.quiescePump
  try dsimp only
  repeat' first
    | with_reducible assumption
    | with_reducible apply State.enterBoot_keeps
    | with_reducible apply State.quiesceStep_keeps
    | with_reducible refine keeps_ite (fun _ => ?_) (fun _ => ?_)
    | split

theorem State.deviceReset_keeps {s0 s : State} (a1 : Nat) (a2 : BootEnv) (h : Keeps s0 s) :
    Keeps s0 (State.deviceReset s a1 a2) := by
  unfold State.deviceReset
  try dsimp only
  repeat' first
    | with_reducible assumption
    | with_reducible apply State.quiescePump_keeps
    | with_reducible apply State.lose_keeps
    | with_reducible apply State.logDiscard_keeps
    | with_reducible refine keeps_ite (fun _ => ?_) (fun _ => ?_)
    | (simp only [↓keeps_mk]; with_reducible refine keeps_fold ?_)
    | split

theorem State.rail_keeps {s0 s : State} (a1 : Nat) (a2 : Bool) (h : Keeps s0 s) :
    Keeps s0 (State.rail s a1 a2) := by
  unfold State.rail
  try dsimp only
  repeat' first
    | with_reducible assumption
    | (simp only [↓keeps_mk]; with_reducible refine keeps_fold ?_)

theorem State.enterOff_keeps {s0 s : State}  (h : Keeps s0 s) :
    Keeps s0 (State.enterOff s) := by
  unfold State.enterOff
  try dsimp only
  repeat' first
    | with_reducible assumption
    | with_reducible apply State.freeLock_keeps
    | with_reducible apply State.lose_keeps
    | with_reducible apply State.logLost_keeps
    | (simp only [↓keeps_mk]; with_reducible refine keeps_fold ?_)

theorem State.puDone_keeps {s0 s : State} (a1 : Nat) (h : Keeps s0 s) :
    Keeps s0 (State.puDone s a1) := by
  unfold State.puDone
  try dsimp only
  repeat' first
    | with_reducible assumption
    | with_reducible apply State.rail_keeps
    | with_reducible apply State.setFld_keeps
    | split

theorem execPowerUpStepDone_keeps {s0 s : State} (a0 : Nat) (a1 : BootEnv) (h : Keeps s0 s) :
    KeepsR s0 (execPowerUpStepDone a0 a1 s) := by
  unfold execPowerUpStepDone
  try dsimp only
  repeat' first
    | with_reducible assumption
    | with_reducible refine keepsR_next ?_
    | with_reducible apply State.lastWake_keeps
    | with_reducible apply State.enterBoot_keeps
    | with_reducible apply State.setFld_keeps
    | with_reducible apply State.puDone_keeps
    | with_reducible refine keeps_ite (fun _ => ?_) (fun _ => ?_)
    | with_reducible refine keepsR_ite (fun _ => ?_) (fun _ => ?_)
    | (simp only [↓keeps_mk]; with_reducible refine keeps_fold ?_)
    | split

theorem State.pdDone_keeps {s0 s : State} (a1 : Nat) (h : Keeps s0 s) :
    Keeps s0 (State.pdDone s a1) := by
  unfold State.pdDone
  try dsimp only
  repeat' first
    | with_reducible assumption
    | with_reducible apply State.coreReset_keeps
    | with_reducible apply State.rail_keeps
    | with_reducible apply State.portGone_keeps
    | with_reducible apply State.rulStop_keeps
    | with_reducible refine keeps_ite (fun _ => ?_) (fun _ => ?_)
    | split

theorem execPowerDownStepDone_keeps {s0 s : State} (a0 : Nat) (h : Keeps s0 s) :
    KeepsR s0 (execPowerDownStepDone a0 s) := by
  unfold execPowerDownStepDone
  try dsimp only
  repeat' first
    | with_reducible assumption
    | with_reducible refine keepsR_next ?_
    | with_reducible apply State.lastWake_keeps
    | with_reducible apply State.pdDone_keeps
    | with_reducible apply State.setFld_keeps
    | with_reducible apply State.enterOff_keeps
    | with_reducible refine keeps_ite (fun _ => ?_) (fun _ => ?_)
    | with_reducible refine keepsR_ite (fun _ => ?_) (fun _ => ?_)
    | (simp only [↓keeps_mk]; with_reducible refine keeps_fold ?_)
    | split

theorem State.nvmReset_keeps {s0 s : State} (a1 : BootEnv) (h : Keeps s0 s) :
    Keeps s0 (State.nvmReset s a1) := by
  unfold State.nvmReset
  try dsimp only
  repeat' first
    | with_reducible assumption
    | with_reducible apply State.setReg_keeps
    | with_reducible apply State.train_keeps
    | with_reducible apply State.wakeEvent_keeps
    | with_reducible apply State.endCtrls_keeps
    | with_reducible apply State.deviceReset_keeps
    | with_reducible refine keeps_ite (fun _ => ?_) (fun _ => ?_)
    | (with_reducible refine keeps_foldl (fun _ _ _ => ?_) ?_)
    | split

theorem execNvmSubsystemReset_keeps {s0 s : State} (a0 : BootEnv) (h : Keeps s0 s) :
    KeepsR s0 (execNvmSubsystemReset a0 s) := by
  unfold execNvmSubsystemReset
  try dsimp only
  repeat' first
    | with_reducible assumption
    | with_reducible refine keepsR_next ?_
    | with_reducible apply State.nvmReset_keeps

theorem execMiReset_keeps {s0 s : State} (a0 : Nat) (a1 : BootEnv) (h : Keeps s0 s) :
    KeepsR s0 (execMiReset a0 a1 s) := by
  unfold execMiReset
  try dsimp only
  repeat' first
    | with_reducible assumption
    | with_reducible refine keepsR_next ?_
    | with_reducible apply State.mi_keeps
    | with_reducible refine State.mi_keeps ?_ _ (by with_reducible assumption)
    | with_reducible apply State.nvmReset_keeps
    | with_reducible apply State.emit_keeps
    | split
    | (intro _; intros; try dsimp only)

theorem execDeviceReset_keeps {s0 s : State} (a0 : Nat) (a1 : BootEnv) (h : Keeps s0 s) :
    KeepsR s0 (execDeviceReset a0 a1 s) := by
  unfold execDeviceReset
  try dsimp only
  repeat' first
    | with_reducible assumption
    | with_reducible refine keepsR_next ?_
    | with_reducible apply State.mi_keeps
    | with_reducible refine State.mi_keeps ?_ _ (by with_reducible assumption)
    | with_reducible apply State.deviceReset_keeps
    | with_reducible apply State.underLock_keeps
    | with_reducible apply State.emit_keeps
    | split
    | (intro _; intros; try dsimp only)

theorem execDevResetWrite_keeps {s0 s : State} (a0 : Nat) (a1 : BootEnv) (h : Keeps s0 s) :
    KeepsR s0 (execDevResetWrite a0 a1 s) := by
  unfold execDevResetWrite
  try dsimp only
  repeat' first
    | with_reducible assumption
    | with_reducible refine keepsR_next ?_
    | with_reducible apply State.post_keeps
    | with_reducible apply State.wakeEvent_keeps
    | with_reducible apply State.deviceReset_keeps
    | with_reducible refine keeps_ite (fun _ => ?_) (fun _ => ?_)
    | with_reducible refine keepsR_ite (fun _ => ?_) (fun _ => ?_)
    | split

theorem execRegisterWindowWrite_keeps {s0 s : State} (a0 : Nat) (a1 : Nat) (a2 : List Nat) (a3 : BootEnv) (h : Keeps s0 s) :
    KeepsR s0 (execRegisterWindowWrite a0 a1 a2 a3 s) := by
  unfold execRegisterWindowWrite
  try dsimp only
  repeat' first
    | with_reducible assumption
    | with_reducible refine keepsR_next ?_
    | with_reducible apply State.windowWrite_keeps
    | with_reducible apply State.mi_keeps
    | with_reducible refine State.mi_keeps ?_ _ (by with_reducible assumption)
    | with_reducible apply State.deviceReset_keeps
    | with_reducible apply State.underLock_keeps
    | with_reducible apply State.emit_keeps
    | with_reducible refine keeps_ite (fun _ => ?_) (fun _ => ?_)
    | with_reducible refine keepsR_ite (fun _ => ?_) (fun _ => ?_)
    | (with_reducible refine keeps_foldl (fun _ _ _ => ?_) ?_)
    | split
    | (intro _; intros; try dsimp only)

theorem execTrialWatchdogExpire_keeps {s0 s : State} (env : BootEnv) (h : Keeps s0 s) : KeepsR s0 (execTrialWatchdogExpire env s) := by
  have fall : ∀ (t : State) (b : Bxl), Keeps s0 t → Keeps s0 { t with bxl := b, fol := t.fol.tallied 3 } := fun _ _ ht => ht
  unfold execTrialWatchdogExpire
  refine keepsR_ite (fun _ => keepsR_next h) (fun _ => keepsR_ite (fun _ => keepsR_next (State.lose_keeps _ h)) (fun _ => keepsR_next ?_))
  exact State.deviceReset_keeps _ _ (fall _ _ (State.post_keeps _ _ (State.slotRecord_keeps _ _ (State.colophon_keeps _ _ _ _ h))))

theorem State.trialStart_keeps {s0 s : State}  (h : Keeps s0 s) :
    Keeps s0 (State.trialStart s) := by
  unfold State.trialStart
  try dsimp only
  repeat' first
    | with_reducible assumption
    | with_reducible apply State.post_keeps
    | with_reducible apply State.colophon_keeps
    | (simp only [↓keeps_mk]; with_reducible refine keeps_fold ?_)

theorem State.deferredFinding_keeps {s0 s : State} (a1 : Nat × Nat × Bool) (h : Keeps s0 s) :
    Keeps s0 (State.deferredFinding s a1) := by
  unfold State.deferredFinding
  try dsimp only
  repeat' first
    | with_reducible assumption
    | with_reducible apply State.finding_keeps
    | with_reducible apply State.writeRebuilt_keeps
    | with_reducible refine keeps_ite (fun _ => ?_) (fun _ => ?_)
    | split

theorem State.bootEnds_keeps {s0 s : State}  (h : Keeps s0 s) :
    Keeps s0 (State.bootEnds s) := by
  unfold State.bootEnds
  try dsimp only
  repeat' first
    | with_reducible assumption
    | with_reducible apply State.pump_keeps
    | with_reducible apply State.sendOwn_keeps
    | with_reducible apply State.psEval_keeps
    | with_reducible apply State.pumpBlotter_keeps
    | with_reducible apply State.deferredFinding_keeps
    | with_reducible apply State.holdCut_keeps
    | with_reducible apply State.trialStart_keeps
    | with_reducible apply State.sendMsg_keeps
    | with_reducible apply State.sealSet_keeps
    | with_reducible refine keeps_ite (fun _ => ?_) (fun _ => ?_)
    | (simp only [↓keeps_mk]; with_reducible refine keeps_fold ?_)
    | (with_reducible refine keeps_foldl (fun _ _ _ => ?_) ?_)
    | split

theorem execCstsRdySet_keeps {s0 s : State} (a0 : BootEnv) (h : Keeps s0 s) :
    KeepsR s0 (execCstsRdySet a0 s) := by
  unfold execCstsRdySet
  try dsimp only
  repeat' first
    | with_reducible assumption
    | with_reducible refine keepsR_next ?_
    | with_reducible apply State.bootEnds_keeps
    | with_reducible apply State.enterBoot_keeps
    | with_reducible refine keeps_ite (fun _ => ?_) (fun _ => ?_)
    | with_reducible refine keepsR_ite (fun _ => ?_) (fun _ => ?_)
    | split

/-! ## Queues -/

theorem State.updSq_keeps {s0 s : State} (a1 : Nat) (a2 : Nat) (a3 : Sq → Sq) (h : Keeps s0 s) :
    Keeps s0 (State.updSq s a1 a2 a3) := by
  unfold State.updSq
  try dsimp only
  repeat' first
    | with_reducible assumption
    | (simp only [↓keeps_mk]; with_reducible refine keeps_fold ?_)

theorem State.updCq_keeps {s0 s : State} (a1 : Nat) (a2 : Nat) (a3 : Cq → Cq) (h : Keeps s0 s) :
    Keeps s0 (State.updCq s a1 a2 a3) := by
  unfold State.updCq
  try dsimp only
  repeat' first
    | with_reducible assumption
    | (simp only [↓keeps_mk]; with_reducible refine keeps_fold ?_)

theorem execDoorbellWrite_keeps {s0 s : State} (a0 : Nat) (a1 : Nat) (a2 : Bool) (a3 : Nat) (a4 : Bool) (h : Keeps s0 s) :
    KeepsR s0 (execDoorbellWrite a0 a1 a2 a3 a4 s) := by
  unfold execDoorbellWrite
  try dsimp only
  repeat' first
    | with_reducible assumption
    | with_reducible refine keepsR_next ?_
    | with_reducible apply State.drainFull_keeps
    | with_reducible apply State.wakeEvent_keeps
    | with_reducible apply State.badDoorbell_keeps
    | with_reducible apply State.poisonIn_keeps
    | with_reducible apply State.updSq_keeps
    | with_reducible apply State.updCq_keeps
    | with_reducible refine keeps_ite (fun _ => ?_) (fun _ => ?_)
    | with_reducible refine keepsR_ite (fun _ => ?_) (fun _ => ?_)
    | split

theorem execShadowTailPoll_keeps {s0 s : State} (a0 : Nat) (a1 : Nat) (a2 : Nat) (a3 : List (Nat × Nat)) (h : Keeps s0 s) :
    KeepsR s0 (execShadowTailPoll a0 a1 a2 a3 s) := by
  unfold execShadowTailPoll
  try dsimp only
  repeat' first
    | with_reducible assumption
    | with_reducible refine keepsR_next ?_
    | with_reducible apply State.memRead_keeps
    | with_reducible apply State.badDoorbell_keeps
    | with_reducible apply State.updSq_keeps
    | with_reducible refine keeps_ite (fun _ => ?_) (fun _ => ?_)
    | with_reducible refine keepsR_ite (fun _ => ?_) (fun _ => ?_)
    | (with_reducible refine keeps_foldl (fun _ _ _ => ?_) ?_)
    | split

theorem execSqIdleTimeout_keeps {s0 s : State} (a0 : Nat) (a1 : Nat) (h : Keeps s0 s) :
    KeepsR s0 (execSqIdleTimeout a0 a1 s) := by
  unfold execSqIdleTimeout
  try dsimp only
  repeat' first
    | with_reducible assumption
    | with_reducible refine keepsR_next ?_
    | with_reducible apply State.updSq_keeps
    | with_reducible refine keeps_ite (fun _ => ?_) (fun _ => ?_)
    | with_reducible refine keepsR_ite (fun _ => ?_) (fun _ => ?_)
    | split

theorem State.fetchFrom_keeps {s0 s : State} (a1 : Sq) (h : Keeps s0 s) :
    Keeps s0 (State.fetchFrom s a1) := by
  unfold State.fetchFrom
  try dsimp only
  repeat' first
    | with_reducible assumption
    | with_reducible apply State.wakeEvent_keeps
    | with_reducible apply State.updSq_keeps
    | with_reducible apply State.readHost_keeps
    | with_reducible refine keeps_ite (fun _ => ?_) (fun _ => ?_)
    | (simp only [↓keeps_mk]; with_reducible refine keeps_fold ?_)
    | (with_reducible refine keeps_foldl (fun _ _ _ => ?_) ?_)
    | split

theorem State.grantWrr_keeps {s0 s : State}  (h : Keeps s0 s) :
    Keeps s0 (State.grantWrr s) := by
  unfold State.grantWrr
  try dsimp only
  repeat' first
    | with_reducible assumption
    | with_reducible apply State.updCtrl_keeps
    | with_reducible apply State.fetchFrom_keeps
    | with_reducible refine keeps_ite (fun _ => ?_) (fun _ => ?_)
    | (simp only [↓keeps_mk]; with_reducible refine keeps_fold ?_)
    | split

theorem execSqFetchGrant_keeps {s0 s : State}  (h : Keeps s0 s) :
    KeepsR s0 (execSqFetchGrant s) := by
  unfold execSqFetchGrant
  try dsimp only
  repeat' first
    | with_reducible assumption
    | with_reducible refine keepsR_next ?_
    | with_reducible apply State.updCtrl_keeps
    | with_reducible apply State.grantWrr_keeps
    | with_reducible apply State.fetchFrom_keeps
    | with_reducible refine keeps_ite (fun _ => ?_) (fun _ => ?_)
    | with_reducible refine keepsR_ite (fun _ => ?_) (fun _ => ?_)
    | (simp only [↓keeps_mk]; with_reducible refine keeps_fold ?_)
    | split

theorem execControllerEnable_keeps {s0 s : State} (a0 : Nat) (a1 : Nat) (a2 : Nat) (a3 : CcWrite) (h : Keeps s0 s) :
    KeepsR s0 (execControllerEnable a0 a1 a2 a3 s) := by
  unfold execControllerEnable
  try dsimp only
  repeat' first
    | with_reducible assumption
    | with_reducible refine keepsR_next ?_
    | with_reducible apply State.updCtrl_keeps
    | with_reducible apply State.psEval_keeps
    | with_reducible apply State.wakeEvent_keeps
    | with_reducible refine keeps_ite (fun _ => ?_) (fun _ => ?_)
    | with_reducible refine keepsR_ite (fun _ => ?_) (fun _ => ?_)
    | (simp only [↓keeps_mk]; with_reducible refine keeps_fold ?_)
    | split

theorem execControllerReset_keeps {s0 s : State} (a0 : Nat) (h : Keeps s0 s) :
    KeepsR s0 (execControllerReset a0 s) := by
  unfold execControllerReset
  try dsimp only
  repeat' first
    | with_reducible assumption
    | with_reducible refine keepsR_next ?_
    | with_reducible apply State.wakeEvent_keeps
    | with_reducible apply State.endCtrls_keeps
    | with_reducible refine keeps_ite (fun _ => ?_) (fun _ => ?_)
    | with_reducible refine keepsR_ite (fun _ => ?_) (fun _ => ?_)
    | split

theorem State.shutdown_keeps {s0 s : State} (a1 : Nat) (a2 : Nat) (h : Keeps s0 s) :
    Keeps s0 (State.shutdown s a1 a2) := by
  unfold State.shutdown
  try dsimp only
  repeat' first
    | with_reducible assumption
    | with_reducible apply State.pump_keeps
    | with_reducible apply State.updCtrl_keeps
    | with_reducible apply State.padWp_keeps
    | with_reducible apply State.wakeEvent_keeps
    | with_reducible apply State.shutStep_keeps
    | with_reducible refine keeps_ite (fun _ => ?_) (fun _ => ?_)
    | (with_reducible refine keeps_foldl (fun _ _ _ => ?_) ?_)
    | split

theorem execNormalShutdown_keeps {s0 s : State} (a0 : Nat) (h : Keeps s0 s) :
    KeepsR s0 (execNormalShutdown a0 s) := by
  unfold execNormalShutdown
  try dsimp only
  repeat' first
    | with_reducible assumption
    | with_reducible refine keepsR_next ?_
    | with_reducible apply State.shutdown_keeps

theorem execAbruptShutdown_keeps {s0 s : State} (a0 : Nat) (h : Keeps s0 s) :
    KeepsR s0 (execAbruptShutdown a0 s) := by
  unfold execAbruptShutdown
  try dsimp only
  repeat' first
    | with_reducible assumption
    | with_reducible refine keepsR_next ?_
    | with_reducible apply State.shutdown_keeps

/-! ## Spdm -/

theorem State.setConn_keeps {s0 s : State} (a1 : SpdmConn) (h : Keeps s0 s) :
    Keeps s0 (State.setConn s a1) := by
  unfold State.setConn
  try dsimp only
  repeat' first
    | with_reducible assumption
    | (simp only [↓keeps_mk]; with_reducible refine keeps_fold ?_)

theorem State.spdmSend_keeps {s0 s : State} (a1 : Party) (a2 : Nat) (a3 : List Nat) (h : Keeps s0 s) :
    Keeps s0 (State.spdmSend s a1 a2 a3) := by
  unfold State.spdmSend
  try dsimp only
  repeat' first
    | with_reducible assumption
    | with_reducible apply State.setDoe_keeps
    | with_reducible apply State.emit_keeps
    | split

theorem State.spdmTold_keeps {s0 s : State} (a1 : Party) (h : Keeps s0 s) :
    Keeps s0 (State.spdmTold s a1) := by
  unfold State.spdmTold
  try dsimp only
  repeat' first
    | with_reducible assumption
    | with_reducible apply State.wakeEvent_keeps
    | split

theorem State.spdmReq_keeps {s0 s : State} (a1 : Request) (a2 : Party) (a3 : State → State) (ka3 : ∀ x0, Keeps s0 x0 → Keeps s0 (a3 x0)) (h : Keeps s0 s) :
    KeepsR s0 (State.spdmReq s a1 a2 a3) := by
  unfold State.spdmReq
  try dsimp only
  repeat' first
    | with_reducible assumption
    | with_reducible apply ka3
    | with_reducible refine keepsR_next ?_
    | with_reducible apply State.mctp_keeps
    | with_reducible refine State.mctp_keeps ?_ _ (by with_reducible assumption)
    | with_reducible apply State.spdmTold_keeps
    | with_reducible apply State.emit_keeps
    | with_reducible refine keeps_ite (fun _ => ?_) (fun _ => ?_)
    | with_reducible refine keepsR_ite (fun _ => ?_) (fun _ => ?_)
    | split
    | (intro _; intros; try dsimp only)

theorem State.spdmError_keeps {s0 s : State} (a1 : Party) (a2 : Nat) (h : Keeps s0 s) :
    Keeps s0 (State.spdmError s a1 a2) := by
  unfold State.spdmError
  try dsimp only
  repeat' first
    | with_reducible assumption
    | with_reducible apply State.spdmSend_keeps

theorem State.atStage_keeps {s0 s : State} (a1 : Party) (a2 : Nat) (a3 : State → State) (ka3 : ∀ x0, Keeps s0 x0 → Keeps s0 (a3 x0)) (h : Keeps s0 s) :
    Keeps s0 (State.atStage s a1 a2 a3) := by
  unfold State.atStage
  try dsimp only
  repeat' first
    | with_reducible assumption
    | with_reducible apply ka3
    | with_reducible apply State.spdmError_keeps
    | with_reducible refine keeps_ite (fun _ => ?_) (fun _ => ?_)
    | split

theorem execGetVersion_keeps {s0 s : State} (a0 : Party) (h : Keeps s0 s) :
    KeepsR s0 (execGetVersion a0 s) := by
  unfold execGetVersion
  try dsimp only
  repeat' first
    | with_reducible assumption
    | with_reducible refine keepsR_next ?_
    | with_reducible apply State.spdmReq_keeps
    | with_reducible refine State.spdmReq_keeps ?_ _ (by with_reducible assumption)
    | with_reducible apply State.setConn_keeps
    | with_reducible apply State.spdmSend_keeps
    | split
    | (intro _; intros; try dsimp only)

theorem execGetCapabilities_keeps {s0 s : State} (a0 : Party) (h : Keeps s0 s) :
    KeepsR s0 (execGetCapabilities a0 s) := by
  unfold execGetCapabilities
  try dsimp only
  repeat' first
    | with_reducible assumption
    | with_reducible refine keepsR_next ?_
    | with_reducible apply State.spdmReq_keeps
    | with_reducible refine State.spdmReq_keeps ?_ _ (by with_reducible assumption)
    | with_reducible apply State.atStage_keeps
    | with_reducible apply State.setConn_keeps
    | with_reducible apply State.spdmSend_keeps
    | split
    | (intro _; intros; try dsimp only)

theorem execNegotiateAlgorithms_keeps {s0 s : State} (a0 : Party) (a1 : Bool) (h : Keeps s0 s) :
    KeepsR s0 (execNegotiateAlgorithms a0 a1 s) := by
  unfold execNegotiateAlgorithms
  try dsimp only
  repeat' first
    | with_reducible assumption
    | with_reducible refine keepsR_next ?_
    | with_reducible apply State.spdmReq_keeps
    | with_reducible refine State.spdmReq_keeps ?_ _ (by with_reducible assumption)
    | with_reducible apply State.spdmError_keeps
    | with_reducible apply State.atStage_keeps
    | with_reducible apply State.setConn_keeps
    | with_reducible apply State.spdmSend_keeps
    | with_reducible refine keeps_ite (fun _ => ?_) (fun _ => ?_)
    | with_reducible refine keepsR_ite (fun _ => ?_) (fun _ => ?_)
    | split
    | (intro _; intros; try dsimp only)

theorem execGetDigests_keeps {s0 s : State} (a0 : Party) (h : Keeps s0 s) :
    KeepsR s0 (execGetDigests a0 s) := by
  unfold execGetDigests
  try dsimp only
  repeat' first
    | with_reducible assumption
    | with_reducible refine keepsR_next ?_
    | with_reducible apply State.spdmReq_keeps
    | with_reducible refine State.spdmReq_keeps ?_ _ (by with_reducible assumption)
    | with_reducible apply State.atStage_keeps
    | with_reducible apply State.spdmSend_keeps
    | split
    | (intro _; intros; try dsimp only)

theorem execGetCertificate_keeps {s0 s : State} (a0 : Party) (a1 : Nat) (a2 : Nat) (a3 : Nat) (h : Keeps s0 s) :
    KeepsR s0 (execGetCertificate a0 a1 a2 a3 s) := by
  unfold execGetCertificate
  try dsimp only
  repeat' first
    | with_reducible assumption
    | with_reducible refine keepsR_next ?_
    | with_reducible apply State.spdmReq_keeps
    | with_reducible refine State.spdmReq_keeps ?_ _ (by with_reducible assumption)
    | with_reducible apply State.spdmError_keeps
    | with_reducible apply State.atStage_keeps
    | with_reducible apply State.spdmSend_keeps
    | with_reducible refine keeps_ite (fun _ => ?_) (fun _ => ?_)
    | with_reducible refine keepsR_ite (fun _ => ?_) (fun _ => ?_)
    | split
    | (intro _; intros; try dsimp only)

theorem execChallenge_keeps {s0 s : State} (a0 : Party) (a1 : Nat) (h : Keeps s0 s) :
    KeepsR s0 (execChallenge a0 a1 s) := by
  unfold execChallenge
  try dsimp only
  repeat' first
    | with_reducible assumption
    | with_reducible refine keepsR_next ?_
    | with_reducible apply State.spdmReq_keeps
    | with_reducible refine State.spdmReq_keeps ?_ _ (by with_reducible assumption)
    | with_reducible apply State.spdmError_keeps
    | with_reducible apply State.atStage_keeps
    | with_reducible apply State.spdmSend_keeps
    | with_reducible refine keeps_ite (fun _ => ?_) (fun _ => ?_)
    | with_reducible refine keepsR_ite (fun _ => ?_) (fun _ => ?_)
    | split
    | (intro _; intros; try dsimp only)

theorem execGetMeasurements_keeps {s0 s : State} (a0 : Party) (a1 : Nat) (h : Keeps s0 s) :
    KeepsR s0 (execGetMeasurements a0 a1 s) := by
  unfold execGetMeasurements
  try dsimp only
  repeat' first
    | with_reducible assumption
    | with_reducible refine keepsR_next ?_
    | with_reducible apply State.spdmReq_keeps
    | with_reducible refine State.spdmReq_keeps ?_ _ (by with_reducible assumption)
    | with_reducible apply State.spdmError_keeps
    | with_reducible apply State.atStage_keeps
    | with_reducible apply State.spdmSend_keeps
    | with_reducible refine keeps_ite (fun _ => ?_) (fun _ => ?_)
    | with_reducible refine keepsR_ite (fun _ => ?_) (fun _ => ?_)
    | split
    | (intro _; intros; try dsimp only)

theorem execKeyExchange_keeps {s0 s : State} (a0 : Party) (a1 : Nat) (h : Keeps s0 s) :
    KeepsR s0 (execKeyExchange a0 a1 s) := by
  unfold execKeyExchange
  try dsimp only
  repeat' first
    | with_reducible assumption
    | with_reducible refine keepsR_next ?_
    | with_reducible apply State.spdmReq_keeps
    | with_reducible refine State.spdmReq_keeps ?_ _ (by with_reducible assumption)
    | with_reducible apply State.spdmError_keeps
    | with_reducible apply State.atStage_keeps
    | with_reducible apply State.setConn_keeps
    | with_reducible apply State.spdmSend_keeps
    | with_reducible refine keeps_ite (fun _ => ?_) (fun _ => ?_)
    | with_reducible refine keepsR_ite (fun _ => ?_) (fun _ => ?_)
    | split
    | (intro _; intros; try dsimp only)

theorem State.inSession_keeps {s0 s : State} (a1 : Party) (a2 : Nat) (a3 : Bool) (a4 : State → Nat → State) (ka4 : ∀ x0 x1, Keeps s0 x0 → Keeps s0 (a4 x0 x1)) (h : Keeps s0 s) :
    Keeps s0 (State.inSession s a1 a2 a3 a4) := by
  unfold State.inSession
  try dsimp only
  repeat' first
    | with_reducible assumption
    | with_reducible apply ka4
    | with_reducible apply State.spdmError_keeps
    | split

theorem State.putSession_keeps {s0 s : State} (a1 : Party) (a2 : Nat) (a3 : Option (Bool × Nat)) (h : Keeps s0 s) :
    Keeps s0 (State.putSession s a1 a2 a3) := by
  unfold State.putSession
  try dsimp only
  repeat' first
    | with_reducible assumption
    | with_reducible apply State.setConn_keeps
    | split

theorem execFinish_keeps {s0 s : State} (a0 : Party) (a1 : Nat) (a2 : Bool) (h : Keeps s0 s) :
    KeepsR s0 (execFinish a0 a1 a2 s) := by
  unfold execFinish
  try dsimp only
  repeat' first
    | with_reducible assumption
    | with_reducible refine keepsR_next ?_
    | with_reducible apply State.spdmReq_keeps
    | with_reducible refine State.spdmReq_keeps ?_ _ (by with_reducible assumption)
    | with_reducible apply State.spdmError_keeps
    | with_reducible apply State.spdmSend_keeps
    | with_reducible apply State.inSession_keeps
    | with_reducible apply State.putSession_keeps
    | with_reducible refine keeps_ite (fun _ => ?_) (fun _ => ?_)
    | with_reducible refine keepsR_ite (fun _ => ?_) (fun _ => ?_)
    | split
    | (intro _; intros; try dsimp only)

theorem execHeartbeat_keeps {s0 s : State} (a0 : Party) (a1 : Nat) (h : Keeps s0 s) :
    KeepsR s0 (execHeartbeat a0 a1 s) := by
  unfold execHeartbeat
  try dsimp only
  repeat' first
    | with_reducible assumption
    | with_reducible refine keepsR_next ?_
    | with_reducible apply State.spdmReq_keeps
    | with_reducible refine State.spdmReq_keeps ?_ _ (by with_reducible assumption)
    | with_reducible apply State.spdmSend_keeps
    | with_reducible apply State.inSession_keeps
    | split
    | (intro _; intros; try dsimp only)

theorem execKeyUpdate_keeps {s0 s : State} (a0 : Party) (a1 : Nat) (a2 : Nat) (h : Keeps s0 s) :
    KeepsR s0 (execKeyUpdate a0 a1 a2 s) := by
  unfold execKeyUpdate
  try dsimp only
  repeat' first
    | with_reducible assumption
    | with_reducible refine keepsR_next ?_
    | with_reducible apply State.spdmReq_keeps
    | with_reducible refine State.spdmReq_keeps ?_ _ (by with_reducible assumption)
    | with_reducible apply State.spdmError_keeps
    | with_reducible apply State.spdmSend_keeps
    | with_reducible apply State.inSession_keeps
    | with_reducible apply State.putSession_keeps
    | with_reducible refine keeps_ite (fun _ => ?_) (fun _ => ?_)
    | with_reducible refine keepsR_ite (fun _ => ?_) (fun _ => ?_)
    | split
    | (intro _; intros; try dsimp only)

theorem execEndSession_keeps {s0 s : State} (a0 : Party) (a1 : Nat) (h : Keeps s0 s) :
    KeepsR s0 (execEndSession a0 a1 s) := by
  unfold execEndSession
  try dsimp only
  repeat' first
    | with_reducible assumption
    | with_reducible refine keepsR_next ?_
    | with_reducible apply State.spdmReq_keeps
    | with_reducible refine State.spdmReq_keeps ?_ _ (by with_reducible assumption)
    | with_reducible apply State.spdmSend_keeps
    | with_reducible apply State.inSession_keeps
    | with_reducible apply State.putSession_keeps
    | split
    | (intro _; intros; try dsimp only)

/-! ## Strokes -/

theorem execStrokeAgePromote_keeps {s0 s : State} (a0 : Nat) (h : Keeps s0 s) :
    KeepsR s0 (execStrokeAgePromote a0 s) := by
  unfold execStrokeAgePromote
  try dsimp only
  repeat' first
    | with_reducible assumption
    | with_reducible refine keepsR_next ?_
    | with_reducible refine keeps_ite (fun _ => ?_) (fun _ => ?_)
    | with_reducible refine keepsR_ite (fun _ => ?_) (fun _ => ?_)
    | (simp only [↓keeps_mk]; with_reducible refine keeps_fold ?_)
    | split

theorem execStrokeOverrun_keeps {s0 s : State} (a0 : Nat) (h : Keeps s0 s) :
    KeepsR s0 (execStrokeOverrun a0 s) := by
  unfold execStrokeOverrun
  try dsimp only
  repeat' first
    | with_reducible assumption
    | with_reducible refine keepsR_next ?_
    | with_reducible apply State.post_keeps
    | with_reducible apply State.setStat_keeps
    | with_reducible refine keeps_ite (fun _ => ?_) (fun _ => ?_)
    | with_reducible refine keepsR_ite (fun _ => ?_) (fun _ => ?_)
    | (simp only [↓keeps_mk]; with_reducible refine keeps_fold ?_)
    | split

theorem State.markLun_keeps {s0 s : State} (a1 : LunStat) (a2 : Option (Nat × Nat)) (h : Keeps s0 s) :
    Keeps s0 (State.markLun s a1 a2) := by
  unfold State.markLun
  try dsimp only
  repeat' first
    | with_reducible assumption
    | with_reducible apply State.post_keeps
    | with_reducible apply State.retireLun_keeps
    | with_reducible apply State.setStat_keeps
    | with_reducible refine keeps_ite (fun _ => ?_) (fun _ => ?_)
    | split

theorem execSlowWindowEnd_keeps {s0 s : State}  (h : Keeps s0 s) :
    KeepsR s0 (execSlowWindowEnd s) := by
  unfold execSlowWindowEnd
  try dsimp only
  repeat' first
    | with_reducible assumption
    | with_reducible refine keepsR_next ?_
    | with_reducible apply State.markLun_keeps
    | with_reducible refine keeps_ite (fun _ => ?_) (fun _ => ?_)
    | with_reducible refine keepsR_ite (fun _ => ?_) (fun _ => ?_)
    | (simp only [↓keeps_mk]; with_reducible refine keeps_fold ?_)
    | (with_reducible refine keeps_foldl (fun _ _ _ => ?_) ?_)
    | split

/-! ## Tick -/

theorem State.background_keeps {s0 s : State}  (h : Keeps s0 s) :
    Keeps s0 (State.background s) := by
  unfold State.background
  try dsimp only
  repeat' first
    | with_reducible assumption
    | with_reducible apply State.drillPump_keeps
    | with_reducible apply State.quiescePump_keeps
    | with_reducible apply State.loadStep_keeps

theorem State.islandTicks_keeps {s0 s : State}  (h : Keeps s0 s) :
    Keeps s0 (State.islandTicks s) := by
  unfold State.islandTicks
  try dsimp only
  repeat' first
    | with_reducible assumption
    | (simp only [↓keeps_mk]; with_reducible refine keeps_fold ?_)

theorem execRulingTick_keeps {s0 s : State} (a0 : Upset) (h : Keeps s0 s) :
    KeepsR s0 (execRulingTick a0 s) := by
  unfold execRulingTick
  try dsimp only
  repeat' first
    | with_reducible assumption
    | with_reducible refine keepsR_next ?_
    | with_reducible apply State.islandTicks_keeps
    | with_reducible apply State.background_keeps
    | with_reducible apply State.checkCounters_keeps
    | with_reducible apply State.syncOutAt_keeps
    | with_reducible refine keeps_ite (fun _ => ?_) (fun _ => ?_)
    | with_reducible refine keepsR_ite (fun _ => ?_) (fun _ => ?_)
    | (simp only [↓keeps_mk]; with_reducible refine keeps_fold ?_)
    | split

/-! ## Wake -/

theorem heldRun_keeps {s0 s : State} (i : Request) (h : Keeps s0 s) : KeepsR s0 (heldRun i s) := by
  cases i with
  | setEndpointId op eid => exact execSetEndpointId_keeps op eid h
  | getEndpointId => exact execGetEndpointId_keeps h
  | getEndpointUuid => exact execGetEndpointUuid_keeps h
  | getMctpVersionSupport kind => exact execGetMctpVersionSupport_keeps kind h
  | getMessageTypeSupport => exact execGetMessageTypeSupport_keeps h
  | nvmSubsystemHealthStatusPoll eid => exact execNvmSubsystemHealthStatusPoll_keeps eid h
  | controllerHealthStatusPoll eid ctrl => exact execControllerHealthStatusPoll_keeps eid ctrl h
  | readNvmeMiDataStructure eid dtyp id => exact execReadNvmeMiDataStructure_keeps eid dtyp id h
  | configurationGet eid id => exact execConfigurationGet_keeps eid id h
  | configurationSet eid id value => exact execConfigurationSet_keeps eid id value h
  | vpdRead eid off len => exact execVpdRead_keeps eid off len h
  | tunnelledAdminCommand eid req resp page => exact execTunnelledAdminCommand_keeps eid req resp page h
  | powerOn eid => exact execPowerOn_keeps eid h
  | powerOff eid => exact execPowerOff_keeps eid h
  | registerWindowRead eid off dwords => exact execRegisterWindowRead_keeps eid off dwords h
  | miAuthorityAcquire eid => exact execMiAuthorityAcquire_keeps eid h
  | miAuthorityRelease eid => exact execMiAuthorityRelease_keeps eid h
  | miReset eid env => exact execMiReset_keeps eid env h
  | deviceReset eid env => exact execDeviceReset_keeps eid env h
  | registerWindowWrite eid off values env => exact execRegisterWindowWrite_keeps eid off values env h
  | getVersion party => exact execGetVersion_keeps party h
  | getCapabilities party => exact execGetCapabilities_keeps party h
  | negotiateAlgorithms party offered => exact execNegotiateAlgorithms_keeps party offered h
  | getDigests party => exact execGetDigests_keeps party h
  | getCertificate party slot off len => exact execGetCertificate_keeps party slot off len h
  | challenge party slot => exact execChallenge_keeps party slot h
  | getMeasurements party index => exact execGetMeasurements_keeps party index h
  | keyExchange party slot => exact execKeyExchange_keeps party slot h
  | finish party session ok => exact execFinish_keeps party session ok h
  | heartbeat party session => exact execHeartbeat_keeps party session h
  | keyUpdate party session op => exact execKeyUpdate_keeps party session op h
  | endSession party session => exact execEndSession_keeps party session h

theorem State.serveHeld_keeps {s0 s : State} (h : Keeps s0 s) : Keeps s0 (State.serveHeld s) := by
  unfold State.serveHeld
  refine keeps_foldl (fun x e hx => ?_) (keeps_fold h)
  have hr := heldRun_keeps (s0 := s0) (s := x) e.2 hx
  cases ht : heldRun e.2 x with
  | next t => exact hr t ht
  | fault _ => exact hx
  | refused _ => exact hx

theorem State.noteSample_keeps {s0 s : State} (temps : List Int) (vnow : Nat) (h : Keeps s0 s) : Keeps s0 (State.noteSample s temps vnow) := by
  refine State.setFld_keeps _ _ ?_
  obtain ⟨a, b, c, d, e, f, g, i, j⟩ := h
  exact ⟨a, b, c, d, e, f, g, by simp only [List.length_mapIdx]; exact i, j⟩

theorem execDozeLoopWake_keeps {s0 s : State} (a0 : AonClock) (a1 : Nat) (a2 : List Int) (a3 : Nat) (h : Keeps s0 s) :
    KeepsR s0 (execDozeLoopWake a0 a1 a2 a3 s) := by
  unfold execDozeLoopWake
  try dsimp only
  repeat' first
    | with_reducible assumption
    | with_reducible refine keepsR_next ?_
    | with_reducible apply State.dozeWake_keeps
    | with_reducible apply State.serveHeld_keeps
    | with_reducible apply State.noteSample_keeps
    | with_reducible refine keeps_ite (fun _ => ?_) (fun _ => ?_)
    | with_reducible refine keepsR_ite (fun _ => ?_) (fun _ => ?_)
    | (simp only [↓keeps_mk]; with_reducible refine keeps_fold ?_)
    | split

end Sys2Proof.Machine
end

