-- ==== Sys2Proof/Laws/KeepsExec.lean ====
section
/-! SUPPORT. What every command keeps. -/

namespace Sys2Proof.Machine

/-- A command leaves the queue alone, keeps a good state good, and takes no boot back. -/
theorem exec_keeps {s0 s : State} (c : Instr) (h : Keeps s0 s) : KeepsR s0 (exec c s) := by
  cases c with
  | pfailNFall => rw [exec_pfailNFall]; exact execPfailNFall_keeps h
  | pfailDeglitchExpire => rw [exec_pfailDeglitchExpire]; exact execPfailDeglitchExpire_keeps h
  | pfailNRise => rw [exec_pfailNRise]; exact execPfailNRise_keeps h
  | pgoodTimerExpire => rw [exec_pgoodTimerExpire]; exact execPgoodTimerExpire_keeps h
  | holdupEntry clk ticks => rw [exec_holdupEntry]; exact execHoldupEntry_keeps clk ticks h
  | holdupDumpDeadline => rw [exec_holdupDumpDeadline]; exact execHoldupDumpDeadline_keeps h
  | holdupDumpComplete => rw [exec_holdupDumpComplete]; exact execHoldupDumpComplete_keeps h
  | powerUpStepDone k env => rw [exec_powerUpStepDone]; exact execPowerUpStepDone_keeps k env h
  | powerDownStepDone k => rw [exec_powerDownStepDone]; exact execPowerDownStepDone_keeps k h
  | minOffTimeExpire => rw [exec_minOffTimeExpire]; exact execMinOffTimeExpire_keeps h
  | railGoodTimeout => rw [exec_railGoodTimeout]; exact execRailGoodTimeout_keeps h
  | railOutOfLimits => rw [exec_railOutOfLimits]; exact execRailOutOfLimits_keeps h
  | vaux33Loss => rw [exec_vaux33Loss]; exact execVaux33Loss_keeps h
  | thermalSensorSample temps => rw [exec_thermalSensorSample]; exact execThermalSensorSample_keeps temps h
  | throttleLevelFall => rw [exec_throttleLevelFall]; exact execThrottleLevelFall_keeps h
  | rateOfRiseWindow => rw [exec_rateOfRiseWindow]; exact execRateOfRiseWindow_keeps h
  | thermalHoldRelease => rw [exec_thermalHoldRelease]; exact execThermalHoldRelease_keeps h
  | avsAckTimeout => rw [exec_avsAckTimeout]; exact execAvsAckTimeout_keeps h
  | avsReadbackPoll vread => rw [exec_avsReadbackPoll]; exact execAvsReadbackPoll_keeps vread h
  | dozeIslandDelayExpire us => rw [exec_dozeIslandDelayExpire]; exact execDozeIslandDelayExpire_keeps us h
  | dozeAbortPoint => rw [exec_dozeAbortPoint]; exact execDozeAbortPoint_keeps h
  | dozeEntryRetry => rw [exec_dozeEntryRetry]; exact execDozeEntryRetry_keeps h
  | dozeLoopWake clk ticks temps vnow => rw [exec_dozeLoopWake]; exact execDozeLoopWake_keeps clk ticks temps vnow h
  | rulingTick upset => rw [exec_rulingTick]; exact execRulingTick_keeps upset h
  | linePulse => rw [exec_linePulse]; exact execLinePulse_keeps h
  | lineAnnouncement island count => rw [exec_lineAnnouncement]; exact execLineAnnouncement_keeps island count h
  | syncInEdge => rw [exec_syncInEdge]; exact execSyncInEdge_keeps h
  | syncInLossTimeout => rw [exec_syncInLossTimeout]; exact execSyncInLossTimeout_keeps h
  | rulingStepApply => rw [exec_rulingStepApply]; exact execRulingStepApply_keeps h
  | ptmDialogStart => rw [exec_ptmDialogStart]; exact execPtmDialogStart_keeps h
  | ptmResponse port master => rw [exec_ptmResponse]; exact execPtmResponse_keeps port master h
  | ptmDialogTimeout port => rw [exec_ptmDialogTimeout]; exact execPtmDialogTimeout_keeps port h
  | todArm => rw [exec_todArm]; exact execTodArm_keeps h
  | rulNowLoRead => rw [exec_rulNowLoRead]; exact execRulNowLoRead_keeps h
  | loHiPairRead off => rw [exec_loHiPairRead]; exact execLoHiPairRead_keeps off h
  | rulingStepAuthorize ref cdw10 => rw [exec_rulingStepAuthorize]; exact execRulingStepAuthorize_keeps ref cdw10 h
  | strokePlace => rw [exec_strokePlace]; exact execStrokePlace_keeps h
  | strokeAgePromote req => rw [exec_strokeAgePromote]; exact execStrokeAgePromote_keeps req h
  | descriptorAccept nib seq => rw [exec_descriptorAccept]; exact execDescriptorAccept_keeps nib seq h
  | strokeDueLine nib seq ofs busHeld => rw [exec_strokeDueLine]; exact execStrokeDueLine_keeps nib seq ofs busHeld h
  | quillContextStart nib seq par => rw [exec_quillContextStart]; exact execQuillContextStart_keeps nib seq par h
  | strokeComplete nib => rw [exec_strokeComplete]; exact execStrokeComplete_keeps nib h
  | strokeOverrun req => rw [exec_strokeOverrun]; exact execStrokeOverrun_keeps req h
  | slowWindowEnd => rw [exec_slowWindowEnd]; exact execSlowWindowEnd_keeps h
  | statusPoll lun sr => rw [exec_statusPoll]; exact execStatusPoll_keeps lun sr h
  | rbNRise lun sr => rw [exec_rbNRise]; exact execRbNRise_keeps lun sr h
  | strokeTimeout nib seq => rw [exec_strokeTimeout]; exact execStrokeTimeout_keeps nib seq h
  | resetWaitTimeout lun => rw [exec_resetWaitTimeout]; exact execResetWaitTimeout_keeps lun h
  | nibTempRead nib => rw [exec_nibTempRead]; exact execNibTempRead_keeps nib h
  | tempStaleTimeout lun => rw [exec_tempStaleTimeout]; exact execTempStaleTimeout_keeps lun h
  | nibRetrain nib => rw [exec_nibRetrain]; exact execNibRetrain_keeps nib h
  | nibCtrlRetrain nib => rw [exec_nibCtrlRetrain]; exact execNibCtrlRetrain_keeps nib h
  | decoderKat nib ok => rw [exec_decoderKat]; exact execDecoderKat_keeps nib ok h
  | busTransferDone nib seq data cell => rw [exec_busTransferDone]; exact execBusTransferDone_keeps nib seq data cell h
  | codewordDecodeDone nib seq ok bits unsat mis pband => rw [exec_codewordDecodeDone]; exact execCodewordDecodeDone_keeps nib seq ok bits unsat mis pband h
  | next nib ctx q => rw [exec_next]; exact execNext_keeps nib ctx q h
  | jump nib ctx q => rw [exec_jump]; exact execJump_keeps nib ctx q h
  | br nib ctx q => rw [exec_br]; exact execBr_keeps nib ctx q h
  | brn nib ctx q => rw [exec_brn]; exact execBrn_keeps nib ctx q h
  | call nib ctx q => rw [exec_call]; exact execCall_keeps nib ctx q h
  | ret nib ctx q => rw [exec_ret]; exact execRet_keeps nib ctx q h
  | loop nib ctx q => rw [exec_loop]; exact execLoop_keeps nib ctx q h
  | ldlc nib ctx q => rw [exec_ldlc]; exact execLdlc_keeps nib ctx q h
  | wait nib ctx q => rw [exec_wait]; exact execWait_keeps nib ctx q h
  | waitRelease nib ctx => rw [exec_waitRelease]; exact execWaitRelease_keeps nib ctx h
  | wline nib ctx q => rw [exec_wline]; exact execWline_keeps nib ctx q h
  | wlineRelease nib ctx => rw [exec_wlineRelease]; exact execWlineRelease_keeps nib ctx h
  | tmExpire nib ctx => rw [exec_tmExpire]; exact execTmExpire_keeps nib ctx h
  | scribe nib ctx q => rw [exec_scribe]; exact execScribe_keeps nib ctx q h
  | done nib ctx => rw [exec_done]; exact execDone_keeps nib ctx h
  | quillScrubRead nib addr bad => rw [exec_quillScrubRead]; exact execQuillScrubRead_keeps nib addr bad h
  | nibRestartComplete nib badTargets => rw [exec_nibRestartComplete]; exact execNibRestartComplete_keeps nib badTargets h
  | linkTrainingComplete port rate width faulty flit => rw [exec_linkTrainingComplete]; exact execLinkTrainingComplete_keeps port rate width faulty flit h
  | linkRetrainTimer port => rw [exec_linkRetrainTimer]; exact execLinkRetrainTimer_keeps port h
  | retrainLink port => rw [exec_retrainLink]; exact execRetrainLink_keeps port h
  | perstAssert port => rw [exec_perstAssert]; exact execPerstAssert_keeps port h
  | perstDeassert port strap => rw [exec_perstDeassert]; exact execPerstDeassert_keeps port strap h
  | hotReset port => rw [exec_hotReset]; exact execHotReset_keeps port h
  | linkDown port => rw [exec_linkDown]; exact execLinkDown_keeps port h
  | functionLevelReset fn => rw [exec_functionLevelReset]; exact execFunctionLevelReset_keeps fn h
  | nvmSubsystemReset env => rw [exec_nvmSubsystemReset]; exact execNvmSubsystemReset_keeps env h
  | configSpaceReady port cfg => rw [exec_configSpaceReady]; exact execConfigSpaceReady_keeps port cfg h
  | memoryReadCompletion what res => rw [exec_memoryReadCompletion]; exact execMemoryReadCompletion_keeps what res h
  | completionTimeout what => rw [exec_completionTimeout]; exact execCompletionTimeout_keeps what h
  | invalidateRequest port itag fn lo n waits => rw [exec_invalidateRequest]; exact execInvalidateRequest_keeps port itag fn lo n waits h
  | invalidateCompletion port => rw [exec_invalidateCompletion]; exact execInvalidateCompletion_keeps port h
  | translationCompletion port fn page xlat issued => rw [exec_translationCompletion]; exact execTranslationCompletion_keeps port fn page xlat issued h
  | l0pRequest port width => rw [exec_l0pRequest]; exact execL0pRequest_keeps port width h
  | d3hotEntry fn => rw [exec_d3hotEntry]; exact execD3hotEntry_keeps fn h
  | vectorUnmask fn vec => rw [exec_vectorUnmask]; exact execVectorUnmask_keeps fn vec h
  | doeDataObject pf kind len => rw [exec_doeDataObject]; exact execDoeDataObject_keeps pf kind len h
  | doeAbort pf => rw [exec_doeAbort]; exact execDoeAbort_keeps pf h
  | doorbellWrite ctrl qid isCq value poison => rw [exec_doorbellWrite]; exact execDoorbellWrite_keeps ctrl qid isCq value poison h
  | shadowTailPoll ctrl qid value heads => rw [exec_shadowTailPoll]; exact execShadowTailPoll_keeps ctrl qid value heads h
  | sqIdleTimeout ctrl qid => rw [exec_sqIdleTimeout]; exact execSqIdleTimeout_keeps ctrl qid h
  | sqFetchGrant => rw [exec_sqFetchGrant]; exact execSqFetchGrant_keeps h
  | orderingPointStamp => rw [exec_orderingPointStamp]; exact execOrderingPointStamp_keeps h
  | controllerEnable ctrl asqs acqs ams => rw [exec_controllerEnable]; exact execControllerEnable_keeps ctrl asqs acqs ams h
  | controllerReset ctrl => rw [exec_controllerReset]; exact execControllerReset_keeps ctrl h
  | normalShutdown ctrl => rw [exec_normalShutdown]; exact execNormalShutdown_keeps ctrl h
  | abruptShutdown ctrl => rw [exec_abruptShutdown]; exact execAbruptShutdown_keeps ctrl h
  | createIoSq ref qid qsize cqid prio pc => rw [exec_createIoSq]; exact execCreateIoSq_keeps ref qid qsize cqid prio pc h
  | createIoCq ref qid qsize vector ien pc => rw [exec_createIoCq]; exact execCreateIoCq_keeps ref qid qsize vector ien pc h
  | deleteIoSq ref qid => rw [exec_deleteIoSq]; exact execDeleteIoSq_keeps ref qid h
  | deleteIoCq ref qid => rw [exec_deleteIoCq]; exact execDeleteIoCq_keeps ref qid h
  | getLogPage ref lid off len rae => rw [exec_getLogPage]; exact execGetLogPage_keeps ref lid off len rae h
  | getLogPageHealth ref off len rae => rw [exec_getLogPageHealth]; exact execGetLogPageHealth_keeps ref off len rae h
  | identify ref cns nsid cntid => rw [exec_identify]; exact execIdentify_keeps ref cns nsid cntid h
  | abort ref sqid cid => rw [exec_abort]; exact execAbort_keeps ref sqid cid h
  | setFeatures ref fid nsid cdw11 save data => rw [exec_setFeatures]; exact execSetFeatures_keeps ref fid nsid cdw11 save data h
  | getFeatures ref fid nsid sel cdw11 => rw [exec_getFeatures]; exact execGetFeatures_keeps ref fid nsid sel cdw11 h
  | setFeaturesPowerMgmt ref save cdw11 => rw [exec_setFeaturesPowerMgmt]; exact execSetFeaturesPowerMgmt_keeps ref save cdw11 h
  | setFeaturesNumQueues ref save cdw11 => rw [exec_setFeaturesNumQueues]; exact execSetFeaturesNumQueues_keeps ref save cdw11 h
  | setFeaturesEnvelopeCap ref save cdw11 => rw [exec_setFeaturesEnvelopeCap]; exact execSetFeaturesEnvelopeCap_keeps ref save cdw11 h
  | setFeaturesRulingPriority ref save cdw11 => rw [exec_setFeaturesRulingPriority]; exact execSetFeaturesRulingPriority_keeps ref save cdw11 h
  | setFeaturesThermalLimits ref save cdw11 => rw [exec_setFeaturesThermalLimits]; exact execSetFeaturesThermalLimits_keeps ref save cdw11 h
  | setFeaturesOwnerUpdateLock ref cdw11 token => rw [exec_setFeaturesOwnerUpdateLock]; exact execSetFeaturesOwnerUpdateLock_keeps ref cdw11 token h
  | setFeaturesCompletionPolicy ref nsid save cdw11 => rw [exec_setFeaturesCompletionPolicy]; exact execSetFeaturesCompletionPolicy_keeps ref nsid save cdw11 h
  | setFeaturesDeadlineReads ref save cdw11 => rw [exec_setFeaturesDeadlineReads]; exact execSetFeaturesDeadlineReads_keeps ref save cdw11 h
  | setFeaturesPatrolPeriod ref save cdw11 => rw [exec_setFeaturesPatrolPeriod]; exact execSetFeaturesPatrolPeriod_keeps ref save cdw11 h
  | setFeaturesInkTime ref save cdw11 => rw [exec_setFeaturesInkTime]; exact execSetFeaturesInkTime_keeps ref save cdw11 h
  | setFeaturesFdp ref save enable => rw [exec_setFeaturesFdp]; exact execSetFeaturesFdp_keeps ref save enable h
  | asyncEventRequest ref => rw [exec_asyncEventRequest]; exact execAsyncEventRequest_keeps ref h
  | namespaceManagement ref sel nsid blocks lbaf handles => rw [exec_namespaceManagement]; exact execNamespaceManagement_keeps ref sel nsid blocks lbaf handles h
  | namespaceAttachment ref sel nsid ctrls => rw [exec_namespaceAttachment]; exact execNamespaceAttachment_keeps ref sel nsid ctrls h
  | firmwareImageDownload ref offset length chunks => rw [exec_firmwareImageDownload]; exact execFirmwareImageDownload_keeps ref offset length chunks h
  | firmwareCommitStore ref slot => rw [exec_firmwareCommitStore]; exact execFirmwareCommitStore_keeps ref slot h
  | firmwareCommitActivate ref slot => rw [exec_firmwareCommitActivate]; exact execFirmwareCommitActivate_keeps ref slot h
  | firmwareCommitSlotActivate ref action slot => rw [exec_firmwareCommitSlotActivate]; exact execFirmwareCommitSlotActivate_keeps ref action slot h
  | keepAlive ref => rw [exec_keepAlive]; exact execKeepAlive_keeps ref h
  | directiveSend ref nsid dtype doper cdw12 => rw [exec_directiveSend]; exact execDirectiveSend_keeps ref nsid dtype doper cdw12 h
  | directiveReceive ref nsid dtype doper => rw [exec_directiveReceive]; exact execDirectiveReceive_keeps ref nsid dtype doper h
  | doorbellBufferConfig ref prp1 prp2 => rw [exec_doorbellBufferConfig]; exact execDoorbellBufferConfig_keeps ref prp1 prp2 h
  | formatNvm ref nsid lbaf ses => rw [exec_formatNvm]; exact execFormatNvm_keeps ref nsid lbaf ses h
  | sanitizeBlockErase ref ause => rw [exec_sanitizeBlockErase]; exact execSanitizeBlockErase_keeps ref ause h
  | sanitizeCryptoErase ref ause => rw [exec_sanitizeCryptoErase]; exact execSanitizeCryptoErase_keeps ref ause h
  | sanitizeExitFailure ref sanact ause => rw [exec_sanitizeExitFailure]; exact execSanitizeExitFailure_keeps ref sanact ause h
  | cutCreate ref nsid cdw10 cdw11 cdw12 => rw [exec_cutCreate]; exact execCutCreate_keeps ref nsid cdw10 cdw11 cdw12 h
  | cutRelease ref cdw10 => rw [exec_cutRelease]; exact execCutRelease_keeps ref cdw10 h
  | scriptoriumLoad ref cdw10 cdw11 cdw12 data digest => rw [exec_scriptoriumLoad]; exact execScriptoriumLoad_keeps ref cdw10 cdw11 cdw12 data digest h
  | roleDrill ref params reports => rw [exec_roleDrill]; exact execRoleDrill_keeps ref params reports h
  | chainSweepMeasure ref cdw10 => rw [exec_chainSweepMeasure]; exact execChainSweepMeasure_keeps ref cdw10 h
  | chainSweepRelay ref cdw11 => rw [exec_chainSweepRelay]; exact execChainSweepRelay_keeps ref cdw11 h
  | lifecycleTransition ref dest len token => rw [exec_lifecycleTransition]; exact execLifecycleTransition_keeps ref dest len token h
  | authorityAcquire ref => rw [exec_authorityAcquire]; exact execAuthorityAcquire_keeps ref h
  | authorityRelease ref => rw [exec_authorityRelease]; exact execAuthorityRelease_keeps ref h
  | flush ref nsid => rw [exec_flush]; exact execFlush_keeps ref nsid h
  | write ref nsid slba nlb fua dtype dspec gate => rw [exec_write]; exact execWrite_keeps ref nsid slba nlb fua dtype dspec gate h
  | read ref nsid slba nlb deadline => rw [exec_read]; exact execRead_keeps ref nsid slba nlb deadline h
  | writeUncorrectable ref nsid slba nlb => rw [exec_writeUncorrectable]; exact execWriteUncorrectable_keeps ref nsid slba nlb h
  | compare ref nsid slba nlb same => rw [exec_compare]; exact execCompare_keeps ref nsid slba nlb same h
  | writeZeroes ref nsid slba nlb => rw [exec_writeZeroes]; exact execWriteZeroes_keeps ref nsid slba nlb h
  | datasetManagement ref nsid cdw11 ranges => rw [exec_datasetManagement]; exact execDatasetManagement_keeps ref nsid cdw11 ranges h
  | secureDiscard ref nsid cdw11 ranges => rw [exec_secureDiscard]; exact execSecureDiscard_keeps ref nsid cdw11 ranges h
  | reservationRegister ref nsid rrega iekey cptpl crkey nrkey => rw [exec_reservationRegister]; exact execReservationRegister_keeps ref nsid rrega iekey cptpl crkey nrkey h
  | reservationReport ref nsid eds => rw [exec_reservationReport]; exact execReservationReport_keeps ref nsid eds h
  | reservationAcquire ref nsid racqa iekey rtype crkey prkey => rw [exec_reservationAcquire]; exact execReservationAcquire_keeps ref nsid racqa iekey rtype crkey prkey h
  | reservationRelease ref nsid rrela iekey rtype crkey => rw [exec_reservationRelease]; exact execReservationRelease_keeps ref nsid rrela iekey rtype crkey h
  | xtsUnitDone ref lba pass => rw [exec_xtsUnitDone]; exact execXtsUnitDone_keeps ref lba pass h
  | laneKatDone lane pass => rw [exec_laneKatDone]; exact execLaneKatDone_keeps lane pass h
  | commitGroupTimeout group => rw [exec_commitGroupTimeout]; exact execCommitGroupTimeout_keeps group h
  | inkwellGrant => rw [exec_inkwellGrant]; exact execInkwellGrant_keeps h
  | inkwellWaitPad => rw [exec_inkwellWaitPad]; exact execInkwellWaitPad_keeps h
  | inkwellAuditPass mismatch => rw [exec_inkwellAuditPass]; exact execInkwellAuditPass_keeps mismatch h
  | ownerRegister min drop => rw [exec_ownerRegister]; exact execOwnerRegister_keeps min drop h
  | keySlotLoad slot key equalHalves => rw [exec_keySlotLoad]; exact execKeySlotLoad_keeps slot key equalHalves h
  | keySlotClear slot => rw [exec_keySlotClear]; exact execKeySlotClear_keeps slot h
  | mapPageScrub found => rw [exec_mapPageScrub]; exact execMapPageScrub_keeps found h
  | idlePadTimeout wp => rw [exec_idlePadTimeout]; exact execIdlePadTimeout_keeps wp h
  | bandOpen wp => rw [exec_bandOpen]; exact execBandOpen_keeps wp h
  | reclaimVictimPick => rw [exec_reclaimVictimPick]; exact execReclaimVictimPick_keeps h
  | bandEraseStart band => rw [exec_bandEraseStart]; exact execBandEraseStart_keeps band h
  | wearSpreadCheck => rw [exec_wearSpreadCheck]; exact execWearSpreadCheck_keeps h
  | checkpointStart => rw [exec_checkpointStart]; exact execCheckpointStart_keeps h
  | checkpointSlow => rw [exec_checkpointSlow]; exact execCheckpointSlow_keeps h
  | cutHold slot => rw [exec_cutHold]; exact execCutHold_keeps slot h
  | cutEvict => rw [exec_cutEvict]; exact execCutEvict_keeps h
  | cstsRdySet env => rw [exec_cstsRdySet]; exact execCstsRdySet_keeps env h
  | unitRebuildDone id ok => rw [exec_unitRebuildDone]; exact execUnitRebuildDone_keeps id ok h
  | patrolWindow => rw [exec_patrolWindow]; exact execPatrolWindow_keeps h
  | vstoreSample code => rw [exec_vstoreSample]; exact execVstoreSample_keeps code h
  | budgetRecompute => rw [exec_budgetRecompute]; exact execBudgetRecompute_keeps h
  | holdupSelfTest => rw [exec_holdupSelfTest]; exact execHoldupSelfTest_keeps h
  | blotterUnitAge group => rw [exec_blotterUnitAge]; exact execBlotterUnitAge_keeps group h
  | tineCompareMismatch tine => rw [exec_tineCompareMismatch]; exact execTineCompareMismatch_keeps tine h
  | tineStateError tine => rw [exec_tineStateError]; exact execTineStateError_keeps tine h
  | tineOutputOffer tine stream osn crc => rw [exec_tineOutputOffer]; exact execTineOutputOffer_keeps tine stream osn crc h
  | mergeGapTimeout stream => rw [exec_mergeGapTimeout]; exact execMergeGapTimeout_keeps stream h
  | overlapClose => rw [exec_overlapClose]; exact execOverlapClose_keeps h
  | handoverComplete => rw [exec_handoverComplete]; exact execHandoverComplete_keeps h
  | tineSelfTestDone tine pass us => rw [exec_tineSelfTestDone]; exact execTineSelfTestDone_keeps tine pass us h
  | resyncStart => rw [exec_resyncStart]; exact execResyncStart_keeps h
  | resyncComplete => rw [exec_resyncComplete]; exact execResyncComplete_keeps h
  | drillDue reports => rw [exec_drillDue]; exact execDrillDue_keeps reports h
  | aenWaitTimeout ctrl group => rw [exec_aenWaitTimeout]; exact execAenWaitTimeout_keeps ctrl group h
  | alertResponseAddress => rw [exec_alertResponseAddress]; exact execAlertResponseAddress_keeps h
  | ibiAccept => rw [exec_ibiAccept]; exact execIbiAccept_keeps h
  | folioRequestComplete status => rw [exec_folioRequestComplete]; exact execFolioRequestComplete_keeps status h
  | folioScrub words => rw [exec_folioScrub]; exact execFolioScrub_keeps words h
  | gceRequest owner op handle match1 match2 last => rw [exec_gceRequest]; exact execGceRequest_keeps owner op handle match1 match2 last h
  | gceLockTimeout => rw [exec_gceLockTimeout]; exact execGceLockTimeout_keeps h
  | entropyHealthFail => rw [exec_entropyHealthFail]; exact execEntropyHealthFail_keeps h
  | idle port => rw [exec_idle]; exact execIdle_keeps port h
  | enum port id => rw [exec_enum]; exact execEnum_keeps port id h
  | sync port t1 master hops src cls unc => rw [exec_sync]; exact execSync_keeps port t1 master hops src cls unc h
  | dreq port t3 => rw [exec_dreq]; exact execDreq_keeps port t3 h
  | dresp port t4 => rw [exec_dresp]; exact execDresp_keeps port t4 h
  | claim port id => rw [exec_claim]; exact execClaim_keeps port id h
  | contended port id => rw [exec_contended]; exact execContended_keeps port id h
  | nomaster port => rw [exec_nomaster]; exact execNomaster_keeps port h
  | cut port time node number all => rw [exec_cut]; exact execCut_keeps port time node number all h
  | sweepReq port issuer => rw [exec_sweepReq]; exact execSweepReq_keeps port issuer h
  | sweepEnt port part e => rw [exec_sweepEnt]; exact execSweepEnt_keeps port part e h
  | sweepEnd port openAfter => rw [exec_sweepEnd]; exact execSweepEnd_keeps port openAfter h
  | relayStart port action chunks => rw [exec_relayStart]; exact execRelayStart_keeps port action chunks h
  | chunk port k c => rw [exec_chunk]; exact execChunk_keeps port k c h
  | ack port k pass => rw [exec_ack]; exact execAck_keeps port k pass h
  | relayAbort port => rw [exec_relayAbort]; exact execRelayAbort_keeps port h
  | bxlBadFrame up => rw [exec_bxlBadFrame]; exact execBxlBadFrame_keeps up h
  | bxlPortLoss up => rw [exec_bxlPortLoss]; exact execBxlPortLoss_keeps up h
  | bxlTimeExchangeStart => rw [exec_bxlTimeExchangeStart]; exact execBxlTimeExchangeStart_keeps h
  | bxlDrespTimeout => rw [exec_bxlDrespTimeout]; exact execBxlDrespTimeout_keeps h
  | claimRepeat => rw [exec_claimRepeat]; exact execClaimRepeat_keeps h
  | sweepTimeout => rw [exec_sweepTimeout]; exact execSweepTimeout_keeps h
  | sweepRetry => rw [exec_sweepRetry]; exact execSweepRetry_keeps h
  | heldEntryExpire => rw [exec_heldEntryExpire]; exact execHeldEntryExpire_keeps h
  | chunkAckTimeout k => rw [exec_chunkAckTimeout]; exact execChunkAckTimeout_keeps k h
  | trialWatchdogExpire env => rw [exec_trialWatchdogExpire]; exact execTrialWatchdogExpire_keeps env h
  | trialConfirm suite => rw [exec_trialConfirm]; exact execTrialConfirm_keeps suite h
  | rotationStepDone ok => rw [exec_rotationStepDone]; exact execRotationStepDone_keeps ok h
  | powerOn eid => rw [exec_powerOn]; exact execPowerOn_keeps eid h
  | powerOff eid => rw [exec_powerOff]; exact execPowerOff_keeps eid h
  | deviceReset eid env => rw [exec_deviceReset]; exact execDeviceReset_keeps eid env h
  | registerWindowRead eid off dwords => rw [exec_registerWindowRead]; exact execRegisterWindowRead_keeps eid off dwords h
  | registerWindowWrite eid off values env => rw [exec_registerWindowWrite]; exact execRegisterWindowWrite_keeps eid off values env h
  | miAuthorityAcquire eid => rw [exec_miAuthorityAcquire]; exact execMiAuthorityAcquire_keeps eid h
  | miAuthorityRelease eid => rw [exec_miAuthorityRelease]; exact execMiAuthorityRelease_keeps eid h
  | authorityLapse => rw [exec_authorityLapse]; exact execAuthorityLapse_keeps h
  | readNvmeMiDataStructure eid dtyp id => rw [exec_readNvmeMiDataStructure]; exact execReadNvmeMiDataStructure_keeps eid dtyp id h
  | nvmSubsystemHealthStatusPoll eid => rw [exec_nvmSubsystemHealthStatusPoll]; exact execNvmSubsystemHealthStatusPoll_keeps eid h
  | controllerHealthStatusPoll eid ctrl => rw [exec_controllerHealthStatusPoll]; exact execControllerHealthStatusPoll_keeps eid ctrl h
  | configurationGet eid id => rw [exec_configurationGet]; exact execConfigurationGet_keeps eid id h
  | configurationSet eid id value => rw [exec_configurationSet]; exact execConfigurationSet_keeps eid id value h
  | vpdRead eid off len => rw [exec_vpdRead]; exact execVpdRead_keeps eid off len h
  | miReset eid env => rw [exec_miReset]; exact execMiReset_keeps eid env h
  | tunnelledAdminCommand eid req resp page => rw [exec_tunnelledAdminCommand]; exact execTunnelledAdminCommand_keeps eid req resp page h
  | setEndpointId op eid => rw [exec_setEndpointId]; exact execSetEndpointId_keeps op eid h
  | getEndpointId => rw [exec_getEndpointId]; exact execGetEndpointId_keeps h
  | getEndpointUuid => rw [exec_getEndpointUuid]; exact execGetEndpointUuid_keeps h
  | getMctpVersionSupport kind => rw [exec_getMctpVersionSupport]; exact execGetMctpVersionSupport_keeps kind h
  | getMessageTypeSupport => rw [exec_getMessageTypeSupport]; exact execGetMessageTypeSupport_keeps h
  | entdaa addr => rw [exec_entdaa]; exact execEntdaa_keeps addr h
  | setdasa addr dyn => rw [exec_setdasa]; exact execSetdasa_keeps addr dyn h
  | rstdaa => rw [exec_rstdaa]; exact execRstdaa_keeps h
  | getVersion party => rw [exec_getVersion]; exact execGetVersion_keeps party h
  | getCapabilities party => rw [exec_getCapabilities]; exact execGetCapabilities_keeps party h
  | negotiateAlgorithms party offered => rw [exec_negotiateAlgorithms]; exact execNegotiateAlgorithms_keeps party offered h
  | getDigests party => rw [exec_getDigests]; exact execGetDigests_keeps party h
  | getCertificate party slot off len => rw [exec_getCertificate]; exact execGetCertificate_keeps party slot off len h
  | challenge party slot => rw [exec_challenge]; exact execChallenge_keeps party slot h
  | getMeasurements party index => rw [exec_getMeasurements]; exact execGetMeasurements_keeps party index h
  | keyExchange party slot => rw [exec_keyExchange]; exact execKeyExchange_keeps party slot h
  | finish party session ok => rw [exec_finish]; exact execFinish_keeps party session ok h
  | heartbeat party session => rw [exec_heartbeat]; exact execHeartbeat_keeps party session h
  | keyUpdate party session op => rw [exec_keyUpdate]; exact execKeyUpdate_keeps party session op h
  | endSession party session => rw [exec_endSession]; exact execEndSession_keeps party session h
  | devSealWrite => rw [exec_devSealWrite]; exact execDevSealWrite_keeps h
  | devResetWrite pf env => rw [exec_devResetWrite]; exact execDevResetWrite_keeps pf env h
  | registerWrite pf off len value => rw [exec_registerWrite]; exact execRegisterWrite_keeps pf off len value h
  | vaux33Good straps => rw [exec_vaux33Good]; exact execVaux33Good_keeps straps h
  | avsAcknowledge vread => rw [exec_avsAcknowledge]; exact execAvsAcknowledge_keeps vread h
  | fuseProgramComplete weak => rw [exec_fuseProgramComplete]; exact execFuseProgramComplete_keeps weak h
  | entropyHealthPass => rw [exec_entropyHealthPass]; exact execEntropyHealthPass_keeps h
  | ptmDisabledByHost port enable => rw [exec_ptmDisabledByHost]; exact execPtmDisabledByHost_keeps port enable h
  | d3hotExit fn => rw [exec_d3hotExit]; exact execD3hotExit_keeps fn h

end Sys2Proof.Machine
end

