-- ==== Sys2Proof/Machine/Layouts.lean ====
section
/-! DEFINITION. Byte layouts that the block keeps inside itself and no command shows: cell link entries, map entries and pages,
codewords, intent and slot records, Scriptorium images and link frames (R208, R246, R247, R322, R421, R544, R557, R578). -/

namespace Sys2Proof.Machine

/-! ## CRC-32C -/

/-- One bit of CRC-32C, reflected. -/
def crcBit (c : Nat) : Nat := if c % 2 = 1 then (c / 2) ^^^ 0x82F63B78 else c / 2

/-- CRC-32C of bytes (R247, R322, R557): the Castagnoli polynomial, reflected, with initial and final complement. Log entry 104 (PRESUMED). -/
def crc32c (bytes : List Nat) : Nat :=
  (bytes.foldl (fun c b => (List.range 8).foldl (fun c _ => crcBit c) (c ^^^ b % 256)) 0xFFFFFFFF) ^^^ 0xFFFFFFFF

/-- Bytes followed by their CRC-32C. -/
def withCrc (bytes : List Nat) : List Nat := bytes ++ bytesLe 4 (crc32c bytes)

/-! ## Inkwell -/

/-- The link entry of the cell at a place of a chain (R208). -/
def Chain.link (c : Chain) (k : Nat) : Nat :=
  let cell := c.cells.getD k 0
  let next := (c.cells[k + 1]?).map (fun n => n % 2 ^ 17)
  let md := c.metas.lookup cell
  next.getD 0 + 2 ^ 17 * bit next.isNone + 2 ^ 18 * bit (c.poison.contains cell) + 2 ^ 19 * bit md.isSome + 2 ^ 32 * (md.getD 0 % 2 ^ 64)

/-! ## Map -/

/-- The 40 bits of a map entry (R246). -/
def MapEntry.word : MapEntry → Nat
  | .unmapped => 0
  | .mapped a => a % 2 ^ 38 + 2 ^ 38
  | .uncorr => 2 * 2 ^ 38
  | .inFlight r => r % 2 ^ 15 + 3 * 2 ^ 38

/-- The map entry that 40 bits hold (R246). -/
def MapEntry.ofWord (w : Nat) : MapEntry :=
  match w / 2 ^ 38 % 4 with
  | 0 => .unmapped
  | 1 => .mapped (w % 2 ^ 38)
  | 2 => .uncorr
  | _ => .inFlight (w % 2 ^ 15)

/-- The 4,096 bytes of a map page (R247): 816 entries, its index, epoch, namespace and CRC. -/
def State.mapPageBytes (s : State) (p : MapPage) : List Nat :=
  withCrc ((List.range 816).flatMap (fun j => bytesLe 5 (s.entry p.nsid (816 * p.page + j)).word) ++
    bytesLe 4 p.mpi ++ bytesLe 4 p.epoch ++ bytesLe 4 p.nsid)

/-! ## Medium -/

/-- A codeword before its LDPC parity (R322): the unit's data, its record and their CRC. -/
def codewordBytes (data record : List Nat) : List Nat := withCrc (data ++ record)

/-- The bytes of LDPC parity in a codeword at a rate code (R322). -/
def ldpcBytes (code : Nat) : Nat := codeword code - 4148

/-- The column of a unit's codeword in its page (R322). -/
def codewordColumn (code unit : Nat) : Nat := unit * codeword code

/-! ## Folio -/

/-- An intent record's bytes 79:0 (R544). -/
def Intent.fields (i : Intent) : Fields :=
  [(0, 8, i.iseq), (8, 1, i.from_), (9, 1, i.dest)] ++ stampAt 16 i.stamp ++ [(32, 48, i.owner)]

/-- The 136 bytes of an intent record (R544). -/
def Intent.bytes (i : Intent) : List Nat :=
  let body := fieldBytes 80 i.fields
  let done := match i.done with | 0 => 2 ^ 64 - 1 | 1 => 2 ^ 64 - 2 ^ 32 | _ => 0
  body ++ bytesLe 48 (Config.sha384 body) ++ bytesLe 8 done

/-- The 128 bytes of a slot record (R578). -/
def SlotRec.bytes (r : SlotRec) : List Nat :=
  let body := fieldBytes 80 [(0, 8, r.rseq), (8, 1, r.pending), (9, 1, bit r.tried), (10, 1, bit r.confirmed), (11, 1, r.rotStep), (12, 1, r.rotSlot)]
  body ++ bytesLe 48 (Config.sha384 body)

/-! ## Scriptorium -/

/-- The bytes of a Scriptorium image (R421), its DIGEST over every byte from byte 64. -/
def Scriptorium.bytes (g : Scriptorium) : List Nat :=
  let body := g.entries.flatMap (fun e => bytesLe 2 e.1 ++ bytesLe 1 e.2.1 ++ bytesLe 1 e.2.2 ++ bytesLe 4 0) ++
    g.micro.flatMap (bytesLe 4) ++ g.nano.flatMap (bytesLe 12)
  fieldBytes 64 [(0, 4, 0x51534331), (4, 2, 1), (8, 2, g.micro.length), (10, 2, g.nano.length), (12, 2, g.entries.length),
    (16, 48, Config.sha384 body)] ++ body

/-! ## Brynnyx link -/

/-- The first 12 bytes of a frame (R557). -/
def FrameHdr.fields (h : FrameHdr) : Fields :=
  [(0, 1, h.kind), (1, 1, bit h.bcast + 2 * bit h.dir), (2, 2, h.src % 2 ^ 14), (4, 2, h.dst % 2 ^ 14), (6, 2, h.hops), (8, 4, h.seq)]

/-- The 64 bytes of a frame with this payload (R557). -/
def FrameHdr.frame (h : FrameHdr) (payload : List Nat) : List Nat :=
  withCrc (fieldBytes 12 h.fields ++ (List.range 48).map (fun i => payload.getD i 0 % 256))

end Sys2Proof.Machine
end

