-- ==== Sys2Proof/Laws/Layouts.lean ====
section
/-! SUPPORT. Laws of the byte layouts: lengths, and a map entry read back from its 40 bits. -/

namespace Sys2Proof.Machine

@[simp] theorem bytesLe_length (n v : Nat) : (bytesLe n v).length = n := by simp [bytesLe]

@[simp] theorem fieldBytes_length (n : Nat) (fs : Fields) : (fieldBytes n fs).length = n := by simp [fieldBytes]

/-- A CRC adds four bytes. -/
@[simp] theorem withCrc_length (bs : List Nat) : (withCrc bs).length = bs.length + 4 := by simp [withCrc]

/-- A frame has 64 bytes (R557). -/
theorem FrameHdr.frame_length (h : FrameHdr) (p : List Nat) : (h.frame p).length = 64 := by simp [FrameHdr.frame]

/-- An intent record has 136 bytes (R544). -/
theorem Intent.bytes_length (i : Intent) : i.bytes.length = 136 := by simp [Intent.bytes]

/-- A slot record has 128 bytes (R578). -/
theorem SlotRec.bytes_length (r : SlotRec) : r.bytes.length = 128 := by simp [SlotRec.bytes]

/-- A map entry whose fields fit is read back from its word (R246). -/
theorem MapEntry.ofWord_word (e : MapEntry) (h : match e with | .mapped a => a < 2 ^ 38 | .inFlight r => r < 2 ^ 15 | _ => True) :
    MapEntry.ofWord e.word = e := by
  cases e with
  | unmapped => rfl
  | uncorr => rfl
  | mapped a =>
    have e1 : (a % 2 ^ 38 + 2 ^ 38) / 2 ^ 38 % 4 = 1 := by omega
    have e2 : (a % 2 ^ 38 + 2 ^ 38) % 2 ^ 38 = a := by simp only at h; omega
    simp only [MapEntry.word, MapEntry.ofWord, e1, e2]
  | inFlight r =>
    have e1 : (r % 2 ^ 15 + 3 * 2 ^ 38) / 2 ^ 38 % 4 = 3 := by omega
    have e2 : (r % 2 ^ 15 + 3 * 2 ^ 38) % 2 ^ 15 = r := by simp only at h; omega
    simp only [MapEntry.word, MapEntry.ofWord, e1, e2]

end Sys2Proof.Machine
end

