-- ==== Sys2Proof/Laws/Next.lean ====
section
/-! SUPPORT. Moving the answer `next` out of a choice, so that a meaning with several branches reads as one next state. -/

namespace Sys2Proof.Machine

/-- A choice between two next states is the next state of the choice. -/
theorem next_ite {c : Prop} [Decidable c] (a b : State) :
    (if c then Host.Outcome.next a else Host.Outcome.next b : Host.Outcome State Fault Refusal) =
      .next (if c then a else b) := by
  split <;> rfl

end Sys2Proof.Machine
end

