-- ==== Sys2Proof/Laws/Queues.lean ====
section
/-! SUPPORT. What the host port's own requests and interrupts leave alone: the Queue Engine. -/

namespace Sys2Proof.Machine

/-- Issuing the requests of one access changes nothing in the Queue Engine. -/
theorem issueAcc_qe (k n : Nat) (s : State) : (s.issueAcc k n).qe = s.qe := by
  induction n generalizing s with
  | zero => rfl
  | succ n ih =>
    unfold State.issueAcc
    split
    · rfl
    · split
      · rfl
      · dsimp only
        split
        · rfl
        · split
          · split
            · split <;> rfl
            · exact ih _
          · exact ih _

/-- So does issuing all that may be issued, -/
theorem issueReads_qe (s : State) : s.issueReads.qe = s.qe := by
  unfold State.issueReads
  generalize List.range s.hp.reads.length = l
  induction l generalizing s with
  | nil => rfl
  | cons k l ih => exact (ih _).trans (issueAcc_qe ..)

/-- a new access, -/
theorem readHost_qe (s : State) (fn : Nat) (w : MemRead) (slots : List Nat) (pages : List (Option Nat)) :
    (s.readHost fn w slots pages).qe = s.qe := by
  unfold State.readHost
  exact issueReads_qe _

/-- and an interrupt. -/
theorem irq_qe (s : State) (fn vec : Nat) : (s.irq fn vec).qe = s.qe := by
  unfold State.irq
  dsimp only
  repeat' first | rfl | split

/-- A completion moves no submission queue. -/
theorem complete_sqs (s : State) (r : Ref) (st : Status) (d : Nat) : (s.complete r st d).qe.sqs = s.qe.sqs := by
  have hn (s : State) (r : Ref) (st : Status) : (s.noteError r st).qe.sqs = s.qe.sqs := by
    unfold State.noteError
    repeat' first | rfl | split
  have hw (s : State) (c : Cq) (r : Ref) (st : Status) (d : Nat) : (s.writeCqe c r st d).qe.sqs = s.qe.sqs := by
    unfold State.writeCqe
    dsimp only
    split
    · rw [irq_qe, hn]; rfl
    · rw [hn]; rfl
  unfold State.complete
  split
  · rfl
  · split
    · rfl
    · split
      · dsimp only
        split
        · rfl
        · split
          · split
            · rw [readHost_qe]
            · rfl
          · exact hw ..
      · rfl

end Sys2Proof.Machine
end

