-- ==== Sys2Proof/Laws/Quill.lean ====
section
/-! SUPPORT. What the part that all microwords share does: it runs the head word, or raises its machine check. -/

namespace Sys2Proof.Machine

/-- The head word of the context that issues, with the MOP asked for and not refused: its nanoword runs and its sequencing follows. -/
theorem microword_run (s : State) (m n c : Nat) (q : QIn) (k : State → QCtx → Fetched → State) (x : QCtx) (f : Fetched)
    (rest : List Fetched) (h0 : s.issues n = some x) (h1 : x.queue = f :: rest) (h2 : x.ctx = c)
    (h3 : mMop f.micro = m) (h4 : (s.tookTurn n c).badWord x f = none) :
    s.microword m n c q k =
      k (((s.tookTurn n c).nanoExec x f.nano q.sr).1.setCtx ((s.tookTurn n c).nanoExec x f.nano q.sr).2)
        ((s.tookTurn n c).nanoExec x f.nano q.sr).2 f := by
  simp only [State.microword, h0, h1, h2, h3, h4, bne_self_eq_false, Bool.or_false, Bool.false_eq_true, if_false]

/-- The head word of the context that issues, when it is refused: it raises its machine check. -/
theorem microword_bad (s : State) (m n c cause : Nat) (q : QIn) (k : State → QCtx → Fetched → State) (x : QCtx)
    (f : Fetched) (rest : List Fetched) (h0 : s.issues n = some x) (h1 : x.queue = f :: rest) (h2 : x.ctx = c)
    (h3 : mMop f.micro = m) (h4 : (s.tookTurn n c).badWord x f = some cause) :
    s.microword m n c q k = (s.tookTurn n c).machineCheck n cause c f.addr := by
  simp only [State.microword, h0, h1, h2, h3, h4, bne_self_eq_false, Bool.or_false, Bool.false_eq_true, if_false]

/-- Where another context issues, or its head word has another MOP, nothing happens. -/
theorem microword_idle (s : State) (m n c : Nat) (q : QIn) (k : State → QCtx → Fetched → State)
    (h : ∀ x f rest, s.issues n = some x → x.queue = f :: rest → x.ctx = c → mMop f.micro ≠ m) :
    s.microword m n c q k = s := by
  unfold State.microword
  split
  · rfl
  · rename_i x h0
    split
    · rename_i f rest h1
      by_cases h2 : x.ctx = c
      · simp [h2, h x f rest h0 h1 h2]
      · simp [h2]
    · rfl

end Sys2Proof.Machine
end

