-- ==== Sys2Proof/Laws/State.lean ====
section
/-! SUPPORT. What the writers of registers, of messages and of the queue leave of every other part of the state, one lemma for
each part, and what a register reads after a write. -/

namespace Sys2Proof.Machine

@[simp] theorem State.setReg_mode (s : State) (key v : Nat) : (s.setReg key v).mode = s.mode := rfl
@[simp] theorem State.setReg_evu (s : State) (key v : Nat) : (s.setReg key v).evu = s.evu := rfl
@[simp] theorem State.setReg_rul (s : State) (key v : Nat) : (s.setReg key v).rul = s.rul := rfl
@[simp] theorem State.setReg_stk (s : State) (key v : Nat) : (s.setReg key v).stk = s.stk := rfl
@[simp] theorem State.setReg_nib (s : State) (key v : Nat) : (s.setReg key v).nib = s.nib := rfl
@[simp] theorem State.setReg_hp (s : State) (key v : Nat) : (s.setReg key v).hp = s.hp := rfl
@[simp] theorem State.setReg_qe (s : State) (key v : Nat) : (s.setReg key v).qe = s.qe := rfl
@[simp] theorem State.setReg_ink (s : State) (key v : Nat) : (s.setReg key v).ink = s.ink := rfl
@[simp] theorem State.setReg_map (s : State) (key v : Nat) : (s.setReg key v).map = s.map := rfl
@[simp] theorem State.setReg_ckpt (s : State) (key v : Nat) : (s.setReg key v).ckpt = s.ckpt := rfl
@[simp] theorem State.setReg_blt (s : State) (key v : Nat) : (s.setReg key v).blt = s.blt := rfl
@[simp] theorem State.setReg_fol (s : State) (key v : Nat) : (s.setReg key v).fol = s.fol := rfl
@[simp] theorem State.setReg_gce (s : State) (key v : Nat) : (s.setReg key v).gce = s.gce := rfl
@[simp] theorem State.setReg_tine (s : State) (key v : Nat) : (s.setReg key v).tine = s.tine := rfl
@[simp] theorem State.setReg_bxl (s : State) (key v : Nat) : (s.setReg key v).bxl = s.bxl := rfl
@[simp] theorem State.setReg_mgmt (s : State) (key v : Nat) : (s.setReg key v).mgmt = s.mgmt := rfl
@[simp] theorem State.setReg_spdm (s : State) (key v : Nat) : (s.setReg key v).spdm = s.spdm := rfl
@[simp] theorem State.setReg_pwr (s : State) (key v : Nat) : (s.setReg key v).pwr = s.pwr := rfl
@[simp] theorem State.setReg_thm (s : State) (key v : Nat) : (s.setReg key v).thm = s.thm := rfl
@[simp] theorem State.setReg_sent (s : State) (key v : Nat) : (s.setReg key v).sent = s.sent := rfl
@[simp] theorem State.setReg_freeCtr (s : State) (key v : Nat) : (s.setReg key v).freeCtr = s.freeCtr := rfl
@[simp] theorem State.setReg_pending (s : State) (key v : Nat) : (s.setReg key v).pending = s.pending := rfl

@[simp] theorem State.setFld_mode (s : State) (f : Fld) (v : Nat) : (s.setFld f v).mode = s.mode := rfl
@[simp] theorem State.setFld_evu (s : State) (f : Fld) (v : Nat) : (s.setFld f v).evu = s.evu := rfl
@[simp] theorem State.setFld_rul (s : State) (f : Fld) (v : Nat) : (s.setFld f v).rul = s.rul := rfl
@[simp] theorem State.setFld_stk (s : State) (f : Fld) (v : Nat) : (s.setFld f v).stk = s.stk := rfl
@[simp] theorem State.setFld_nib (s : State) (f : Fld) (v : Nat) : (s.setFld f v).nib = s.nib := rfl
@[simp] theorem State.setFld_hp (s : State) (f : Fld) (v : Nat) : (s.setFld f v).hp = s.hp := rfl
@[simp] theorem State.setFld_qe (s : State) (f : Fld) (v : Nat) : (s.setFld f v).qe = s.qe := rfl
@[simp] theorem State.setFld_ink (s : State) (f : Fld) (v : Nat) : (s.setFld f v).ink = s.ink := rfl
@[simp] theorem State.setFld_map (s : State) (f : Fld) (v : Nat) : (s.setFld f v).map = s.map := rfl
@[simp] theorem State.setFld_ckpt (s : State) (f : Fld) (v : Nat) : (s.setFld f v).ckpt = s.ckpt := rfl
@[simp] theorem State.setFld_blt (s : State) (f : Fld) (v : Nat) : (s.setFld f v).blt = s.blt := rfl
@[simp] theorem State.setFld_fol (s : State) (f : Fld) (v : Nat) : (s.setFld f v).fol = s.fol := rfl
@[simp] theorem State.setFld_gce (s : State) (f : Fld) (v : Nat) : (s.setFld f v).gce = s.gce := rfl
@[simp] theorem State.setFld_tine (s : State) (f : Fld) (v : Nat) : (s.setFld f v).tine = s.tine := rfl
@[simp] theorem State.setFld_bxl (s : State) (f : Fld) (v : Nat) : (s.setFld f v).bxl = s.bxl := rfl
@[simp] theorem State.setFld_mgmt (s : State) (f : Fld) (v : Nat) : (s.setFld f v).mgmt = s.mgmt := rfl
@[simp] theorem State.setFld_spdm (s : State) (f : Fld) (v : Nat) : (s.setFld f v).spdm = s.spdm := rfl
@[simp] theorem State.setFld_pwr (s : State) (f : Fld) (v : Nat) : (s.setFld f v).pwr = s.pwr := rfl
@[simp] theorem State.setFld_thm (s : State) (f : Fld) (v : Nat) : (s.setFld f v).thm = s.thm := rfl
@[simp] theorem State.setFld_sent (s : State) (f : Fld) (v : Nat) : (s.setFld f v).sent = s.sent := rfl
@[simp] theorem State.setFld_freeCtr (s : State) (f : Fld) (v : Nat) : (s.setFld f v).freeCtr = s.freeCtr := rfl
@[simp] theorem State.setFld_pending (s : State) (f : Fld) (v : Nat) : (s.setFld f v).pending = s.pending := rfl

@[simp] theorem State.emit_mode (s : State) (o : Output) : (s.emit o).mode = s.mode := rfl
@[simp] theorem State.emit_regs (s : State) (o : Output) : (s.emit o).regs = s.regs := rfl
@[simp] theorem State.emit_evu (s : State) (o : Output) : (s.emit o).evu = s.evu := rfl
@[simp] theorem State.emit_rul (s : State) (o : Output) : (s.emit o).rul = s.rul := rfl
@[simp] theorem State.emit_stk (s : State) (o : Output) : (s.emit o).stk = s.stk := rfl
@[simp] theorem State.emit_nib (s : State) (o : Output) : (s.emit o).nib = s.nib := rfl
@[simp] theorem State.emit_hp (s : State) (o : Output) : (s.emit o).hp = s.hp := rfl
@[simp] theorem State.emit_qe (s : State) (o : Output) : (s.emit o).qe = s.qe := rfl
@[simp] theorem State.emit_ink (s : State) (o : Output) : (s.emit o).ink = s.ink := rfl
@[simp] theorem State.emit_map (s : State) (o : Output) : (s.emit o).map = s.map := rfl
@[simp] theorem State.emit_ckpt (s : State) (o : Output) : (s.emit o).ckpt = s.ckpt := rfl
@[simp] theorem State.emit_blt (s : State) (o : Output) : (s.emit o).blt = s.blt := rfl
@[simp] theorem State.emit_fol (s : State) (o : Output) : (s.emit o).fol = s.fol := rfl
@[simp] theorem State.emit_gce (s : State) (o : Output) : (s.emit o).gce = s.gce := rfl
@[simp] theorem State.emit_tine (s : State) (o : Output) : (s.emit o).tine = s.tine := rfl
@[simp] theorem State.emit_bxl (s : State) (o : Output) : (s.emit o).bxl = s.bxl := rfl
@[simp] theorem State.emit_mgmt (s : State) (o : Output) : (s.emit o).mgmt = s.mgmt := rfl
@[simp] theorem State.emit_spdm (s : State) (o : Output) : (s.emit o).spdm = s.spdm := rfl
@[simp] theorem State.emit_pwr (s : State) (o : Output) : (s.emit o).pwr = s.pwr := rfl
@[simp] theorem State.emit_thm (s : State) (o : Output) : (s.emit o).thm = s.thm := rfl
@[simp] theorem State.emit_freeCtr (s : State) (o : Output) : (s.emit o).freeCtr = s.freeCtr := rfl
@[simp] theorem State.emit_pending (s : State) (o : Output) : (s.emit o).pending = s.pending := rfl

@[simp] theorem State.withPending_mode (s : State) (q : List Instr) : (s.withPending q).mode = s.mode := rfl
@[simp] theorem State.withPending_regs (s : State) (q : List Instr) : (s.withPending q).regs = s.regs := rfl
@[simp] theorem State.withPending_evu (s : State) (q : List Instr) : (s.withPending q).evu = s.evu := rfl
@[simp] theorem State.withPending_rul (s : State) (q : List Instr) : (s.withPending q).rul = s.rul := rfl
@[simp] theorem State.withPending_stk (s : State) (q : List Instr) : (s.withPending q).stk = s.stk := rfl
@[simp] theorem State.withPending_nib (s : State) (q : List Instr) : (s.withPending q).nib = s.nib := rfl
@[simp] theorem State.withPending_hp (s : State) (q : List Instr) : (s.withPending q).hp = s.hp := rfl
@[simp] theorem State.withPending_qe (s : State) (q : List Instr) : (s.withPending q).qe = s.qe := rfl
@[simp] theorem State.withPending_ink (s : State) (q : List Instr) : (s.withPending q).ink = s.ink := rfl
@[simp] theorem State.withPending_map (s : State) (q : List Instr) : (s.withPending q).map = s.map := rfl
@[simp] theorem State.withPending_ckpt (s : State) (q : List Instr) : (s.withPending q).ckpt = s.ckpt := rfl
@[simp] theorem State.withPending_blt (s : State) (q : List Instr) : (s.withPending q).blt = s.blt := rfl
@[simp] theorem State.withPending_fol (s : State) (q : List Instr) : (s.withPending q).fol = s.fol := rfl
@[simp] theorem State.withPending_gce (s : State) (q : List Instr) : (s.withPending q).gce = s.gce := rfl
@[simp] theorem State.withPending_tine (s : State) (q : List Instr) : (s.withPending q).tine = s.tine := rfl
@[simp] theorem State.withPending_bxl (s : State) (q : List Instr) : (s.withPending q).bxl = s.bxl := rfl
@[simp] theorem State.withPending_mgmt (s : State) (q : List Instr) : (s.withPending q).mgmt = s.mgmt := rfl
@[simp] theorem State.withPending_spdm (s : State) (q : List Instr) : (s.withPending q).spdm = s.spdm := rfl
@[simp] theorem State.withPending_pwr (s : State) (q : List Instr) : (s.withPending q).pwr = s.pwr := rfl
@[simp] theorem State.withPending_thm (s : State) (q : List Instr) : (s.withPending q).thm = s.thm := rfl
@[simp] theorem State.withPending_sent (s : State) (q : List Instr) : (s.withPending q).sent = s.sent := rfl
@[simp] theorem State.withPending_freeCtr (s : State) (q : List Instr) : (s.withPending q).freeCtr = s.freeCtr := rfl

@[simp] theorem State.emit_sent (s : State) (o : Output) : (s.emit o).sent = o :: s.sent := rfl
@[simp] theorem State.withPending_pending (s : State) (q : List Instr) : (s.withPending q).pending = q := rfl

/-- A register's contents are 32 bits (R636). -/
theorem State.reg_lt (s : State) (key : Nat) : s.reg key < 2 ^ 32 := BitVec.isLt _

/-- A register reads what was stored, taken modulo 32 bits. -/
theorem State.reg_setReg_eq (s : State) (key v : Nat) : (s.setReg key v).reg key = v % 2 ^ 32 := by
  unfold State.reg State.setReg
  rw [sget_sset_eq]
  exact BitVec.toNat_ofNat ..

/-- A store leaves every other register alone. -/
theorem State.reg_setReg_ne (s : State) {key k : Nat} (v : Nat) (h : k ≠ key) : (s.setReg key v).reg k = s.reg k := by
  unfold State.reg State.setReg
  rw [sget_sset_ne _ _ _ h]

/-- A field inside a register is stored without loss. -/
theorem State.reg_setFld (s : State) (f : Fld) (v : Nat) (h : f.lo + f.w ≤ 32) :
    (s.setFld f v).reg f.key = bitsPut (s.reg f.key) f.lo f.w v := by
  unfold State.setFld
  rw [State.reg_setReg_eq, Nat.mod_eq_of_lt (bitsPut_lt _ _ _ _ (s.reg_lt _) h)]

end Sys2Proof.Machine
end

