-- ==== Sys2Proof/Laws/Regs.lean ====
section
/-! SUPPORT. What a write does to one field of a register, by the field's access and the seal, and what it does to the bytes of the
Scriptorium window. -/

namespace Sys2Proof.Machine

/-- The value that a write leaves in a register before the fields' own rules. -/
def State.merged (s : State) (key be v : Nat) : Nat :=
  s.reg key &&& (2 ^ 32 - 1 - byteMask be) ||| (v &&& byteMask be)

/-- A write of all four bytes is the written value. -/
theorem State.merged_whole (s : State) (key v : Nat) : s.merged key 15 v = v % 2 ^ 32 := by
  have e : byteMask 15 = 2 ^ 32 - 1 := by decide
  unfold State.merged
  rw [e, Nat.and_two_pow_sub_one_eq_mod, Nat.sub_self, Nat.and_zero, Nat.zero_or]

/-- A field that accepts writes takes what its rule makes of the written value. -/
theorem fieldWrite_open {off key be v : Nat} {s : State} {b : Bool} {f : FieldDesc} {x : Nat} (ha : f.acc = .rw ∨ f.acc = .rws)
    (hm : bitsOf (byteMask be) f.lo f.w ≠ 0) (hs : (s.flag F.DEV_SEAL_SEAL && !f.keep) = false)
    (hr : s.fieldRule off f (bitsOf (s.merged key be v) f.lo f.w) = some x) :
    State.fieldWrite off key be v (s, b) f = (s.setFld ⟨key, f.lo, f.w⟩ x, b) := by
  unfold State.merged at hr
  rcases ha with ha | ha <;> (unfold State.fieldWrite; simp only [ha, hm, hs, hr, if_false, Bool.false_eq_true])

/-- A field that the seal has closed keeps its value; a change is noted. -/
theorem fieldWrite_closed {off key be v : Nat} {s : State} {b : Bool} {f : FieldDesc} (ha : f.acc = .rw ∨ f.acc = .rws)
    (hm : bitsOf (byteMask be) f.lo f.w ≠ 0) (hs : (s.flag F.DEV_SEAL_SEAL && !f.keep) = true) :
    State.fieldWrite off key be v (s, b) f = (s, b || bitsOf (s.merged key be v) f.lo f.w != s.fld ⟨key, f.lo, f.w⟩) := by
  unfold State.merged
  rcases ha with ha | ha <;> (unfold State.fieldWrite; simp only [ha, hm, hs, if_false, if_true])

/-- A read-only field keeps its value. -/
theorem fieldWrite_ro {off key be v : Nat} {acc : State × Bool} {f : FieldDesc} (ha : f.acc = .ro) :
    State.fieldWrite off key be v acc f = acc := by
  unfold State.fieldWrite
  simp only [ha]

/-- A W1C bit clears where a 1 is written. -/
theorem fieldWrite_w1c {off key be v : Nat} {s : State} {b : Bool} {f : FieldDesc} (ha : f.acc = .w1c) :
    State.fieldWrite off key be v (s, b) f =
      (if bitsOf (v &&& byteMask be) f.lo f.w = 1 then s.setFld ⟨key, f.lo, f.w⟩ 0 else s, b) := by
  unfold State.fieldWrite
  simp only [ha]
  split <;> rfl

/-- A register write is what its fields make of it, then what follows from the new contents. -/
theorem regWrite_fields {s t : State} {off be v : Nat} {d : RegDesc} {b : Bool} (hd : regDesc off = some d)
    (hw : (wholeRefused off (s.merged (s.viewKey off) be v) && !s.flag F.DEV_SEAL_SEAL) = false)
    (hf : d.fields.foldl (State.fieldWrite off (s.viewKey off) be v) (s, false) = (t, b)) :
    s.regWrite off be v = (if b then t.post F.DEV_EVT_STATUS_SEALED_WR noUnit else t).afterWrite off := by
  unfold State.merged at hw
  unfold State.regWrite
  simp only [hd, hw, hf, Bool.false_eq_true, if_false]

/-- A byte store into the window is read back, and every other byte stays. -/
theorem windowByte_put (m : List Host.Cell) (a k : Nat) (v : Byte) :
    windowByte (windowPut m a v) k = if k = a then v else windowByte m k := by
  unfold windowByte windowPut
  split
  · rename_i h; rw [h]; exact sget_sset_eq ..
  · rename_i h; exact sget_sset_ne _ _ _ h

end Sys2Proof.Machine
end

