-- ==== Sys2Proof/Laws/Stamp.lean ====
section
/-! SUPPORT. What stamping a command leaves alone: the newest ink time and the commands, which only the stamp itself sets. -/

namespace Sys2Proof.Machine

/-- Releasing an old place of the map changes neither the newest ink time nor the Queue Engine. -/
theorem dropEntry_ink (s : State) (e : MapEntry) : (s.dropEntry e).map.lastInk = s.map.lastInk ∧ (s.dropEntry e).qe = s.qe := by
  unfold State.dropEntry
  split
  · split
    · exact ⟨rfl, rfl⟩
    · unfold State.bumpValid
      first | exact ⟨rfl, rfl⟩ | (split <;> exact ⟨rfl, rfl⟩)
  · exact ⟨rfl, rfl⟩

/-- So does the copy of a map page for a cut. -/
theorem touchPage_ink (s : State) (n p i : Nat) : (s.touchPage n p i).map.lastInk = s.map.lastInk ∧ (s.touchPage n p i).qe = s.qe := by
  unfold State.touchPage
  dsimp only
  split <;> exact ⟨rfl, rfl⟩

/-- So does the change of an entry. -/
theorem changeEntry_ink (s : State) (n u i : Nat) (e : MapEntry) : (s.changeEntry n u i e).map.lastInk = s.map.lastInk ∧ (s.changeEntry n u i e).qe = s.qe := by
  unfold State.changeEntry
  dsimp only
  have h1 := dropEntry_ink ((s.touchPage n (pageIx u) i).putEntry n u e) ((s.touchPage n (pageIx u) i).entry n u)
  have h2 := touchPage_ink s n (pageIx u) i
  exact ⟨h1.1.trans h2.1, h1.2.trans h2.2⟩

/-- So does the stamp of one IU, -/
theorem stampIu_ink (c : Cmd) (a b d f g : Nat) (acc : State × List Nat) (e : Nat × Nat) :
    (State.stampIu c a b d f g acc e).1.map.lastInk = acc.1.map.lastInk ∧ (State.stampIu c a b d f g acc e).1.qe = acc.1.qe := by
  unfold State.stampIu
  obtain ⟨s, is⟩ := acc
  dsimp only
  split
  · exact changeEntry_ink ..
  · unfold State.openRec
    dsimp only
    exact changeEntry_ink ..

/-- and of all IUs of a command. -/
theorem stampFold_ink (c : Cmd) (a b d f g : Nat) (l : List (Nat × Nat)) (acc : State × List Nat) :
    (l.foldl (State.stampIu c a b d f g) acc).1.map.lastInk = acc.1.map.lastInk ∧ (l.foldl (State.stampIu c a b d f g) acc).1.qe = acc.1.qe := by
  induction l generalizing acc with
  | nil => exact ⟨rfl, rfl⟩
  | cons x xs ih =>
    have := ih (State.stampIu c a b d f g acc x)
    have h := stampIu_ink c a b d f g acc x
    exact ⟨this.1.trans h.1, this.2.trans h.2⟩

/-- A hold changes the Inkwell alone. -/
theorem hold_rest (s : State) (head asker o : Nat) (late : GrantFor) : (s.hold head asker o late).1.map = s.map ∧ (s.hold head asker o late).1.qe = s.qe := by
  unfold State.hold
  repeat' first | exact ⟨rfl, rfl⟩ | split

/-- Steps that change the Inkwell alone do so together. -/
theorem fold_rest (f : State × List Nat → Nat → State × List Nat) (hf : ∀ a h, (f a h).1.map = a.1.map ∧ (f a h).1.qe = a.1.qe)
    (l : List Nat) (a : State × List Nat) : (l.foldl f a).1.map = a.1.map ∧ (l.foldl f a).1.qe = a.1.qe := by
  induction l generalizing a with
  | nil => exact ⟨rfl, rfl⟩
  | cons h l ih => exact ⟨(ih (f a h)).1.trans (hf a h).1, (ih (f a h)).2.trans (hf a h).2⟩

/-- Finding a read's sources changes the Inkwell alone, and keeps the command's name and ink time. -/
theorem readCmd_rest (s : State) (n : Ns) (c : Cmd) : ((s.readCmd n c).1.map = s.map ∧ (s.readCmd n c).1.qe = s.qe) ∧
    (s.readCmd n c).2.ref = c.ref ∧ (s.readCmd n c).2.ink = c.ink := by
  refine ⟨?_, rfl, rfl⟩
  unfold State.readCmd
  dsimp only
  exact fold_rest _ (fun a h => hold_rest a.1 h 3 1 (.copy c.ref h)) _ _

/-- Forming a fused compare stamps nothing: every command was there before under its name, with its ink time. -/
theorem formCompare_ink (s : State) (w : Cmd) : (s.formCompare w).map.lastInk = s.map.lastInk ∧
    ∀ k, k ∈ (s.formCompare w).qe.cmds → ∃ k' ∈ s.qe.cmds, k'.ref = k.ref ∧ k'.ink = k.ink := by
  unfold State.formCompare
  split
  · exact ⟨rfl, fun k h => ⟨k, h, rfl, rfl⟩⟩
  · rename_i c hc
    obtain ⟨r, -, hf⟩ := Option.bind_eq_some_iff.mp hc
    split
    · exact ⟨rfl, fun k h => ⟨k, h, rfl, rfl⟩⟩
    · rename_i n _
      obtain ⟨⟨hm, hq⟩, hr, hi⟩ := readCmd_rest s n { c with parked := false }
      refine ⟨congrArg MapSt.lastInk hm, fun k h => ?_⟩
      dsimp only at h
      rw [hq] at h
      unfold updWhere at h
      obtain ⟨x, hx, rfl⟩ := List.mem_map.mp h
      split
      · exact ⟨c, List.mem_of_find?_eq_some hf, hr.symm, hi.symm⟩
      · exact ⟨x, hx, rfl, rfl⟩

end Sys2Proof.Machine
end

