-- ==== Sys2Proof/Machine/Balls.lean ====
section
/-! DEFINITION. The package (chapter 20): which signal or supply each of the 2,116 balls carries, the electrical type of each signal, the
limits of the supplies and the power of each mode, and the levels that State gives the balls with a fixed function. -/

namespace Sys2Proof.Machine

/-- A ball of the array (R645): the index of its row, 1 to 46, and its column, 1 to 46. -/
structure Ball where
  row : Nat
  col : Nat
  deriving DecidableEq, Repr

/-- The rows in the order of the index table (R645). -/
def rowNames : List String :=
  ["A", "B", "C", "D", "E", "F", "G", "H", "J", "K"] ++ ["L", "M", "N", "P", "T", "U", "V", "W", "Y"] ++
  ["AA", "AB", "AC", "AD", "AE", "AF", "AG", "AH", "AJ"] ++ ["AK", "AL", "AM", "AN", "AP", "AT", "AU", "AV", "AW"] ++
  ["AY", "BA", "BB", "BC", "BD", "BE", "BF", "BG", "BH"]

/-- The index of a row's name (R645): 0 for a name that no row has. -/
def rowIndex (name : String) : Nat := if rowNames.contains name then rowNames.findIdx (· == name) + 1 else 0

/-- Every ball of the array (R645): none is missing. -/
def allBalls : List Ball := (List.range 2116).map (fun k => ⟨k / 46 + 1, k % 46 + 1⟩)

/-- The supplies (R654, R659). -/
inductive Supply where
  | vss | vddCore | vddSram | vddqNf | vddqD5 | vddHp075 | vddHp12 | vdd18 | vaux33
  deriving DecidableEq, Repr

/-- The signals of a NAND channel's tile (R647). -/
inductive NfSignal where
  | dq (i : Nat) | dqs (n : Bool) | re (n : Bool) | ce (i : Nat) | cle | ale | we | wp | rb
  deriving DecidableEq, Repr

/-- The signals of a D5 SDRAM channel (R651). -/
inductive D5Signal where
  | dq (i : Nat) | dqs (lane : Nat) (n : Bool) | ca (i : Nat) | cs (i : Nat) | ck (n : Bool) | resetN | alertN
  deriving DecidableEq, Repr

/-- The signals of the package (R647, R649, R651, R653). `n` true is the _N ball of a pair; `dn` true is the downstream Brynnyx port;
`b` true is D5 channel B. -/
inductive Signal where
  | nf (channel : Nat) (x : NfSignal)
  | hpTx (port lane : Nat) (n : Bool) | hpRx (port lane : Nat) (n : Bool) | hpRefclk (port : Nat) (n : Bool)
  | perst (port : Nat) | hpDualStrap
  | d5 (b : Bool) (x : D5Signal)
  | bxlTx (dn n : Bool) | bxlRx (dn n : Bool)
  | gpio (i : Nat)
  | syncIn | syncOut | tcxoIn | xt32kIn | xt32kOut
  | pfail | vstoreSense | smbScl | smbSda | avsClk | avsMdata | avsSdata | therm | tck | tms | tdi | tdo | trst
  deriving DecidableEq, Repr

/-- What a ball carries. -/
inductive BallUse where
  | supply (v : Supply)
  | signal (x : Signal)
  deriving DecidableEq, Repr

/-- The regions of the array (R646). -/
inductive Region where
  | nandLow | nandHigh | host | sramSupply | d5Lanes | d5Command | coreSupply | misc | lowSupply | strips
  deriving DecidableEq, Repr

/-- The region of a ball (R646): each ball has one. -/
def Ball.region (b : Ball) : Region :=
  if 16 ≤ b.col ∧ b.col ≤ 31 then
    if b.row ≤ 6 then .host else if b.row ≤ 8 then .sramSupply else if b.row ≤ 28 then .d5Lanes else if b.row ≤ 32 then .d5Command
    else if b.row ≤ 40 then .coreSupply else if b.row ≤ 43 then .misc else .lowSupply
  else if b.row ≤ 40 then (if b.col ≤ 15 then .nandLow else .nandHigh)
  else .strips

/-- One supply on a condition, VSS otherwise. -/
def orVss (v : Supply) (c : Bool) : BallUse := .supply (if c then v else .vss)

/-- The template of a tile (R647): row and column offset from the origin. -/
def tileBall (n r c : Nat) : BallUse :=
  let sig (x : NfSignal) : BallUse := .signal (.nf n x)
  match r, c with
  | 0, 0 => sig (.dq 0) | 0, 1 => sig (.dq 1) | 0, 3 => sig (.dq 2) | 0, 4 => sig (.dq 3)
  | 1, 0 => sig (.dqs false) | 1, 1 => sig (.dqs true) | 1, 2 => .supply .vddqNf | 1, 3 => sig (.dq 4) | 1, 4 => sig (.dq 5)
  | 2, 1 => sig (.dq 6) | 2, 2 => sig (.dq 7) | 2, 4 => sig .cle
  | 3, 0 => sig (.re false) | 3, 1 => sig (.re true) | 3, 2 => .supply .vddqNf | 3, 3 => sig .we | 3, 4 => sig .ale
  | 4, 0 => sig (.ce 0) | 4, 1 => sig (.ce 1) | 4, 3 => sig .wp | 4, 4 => sig .rb
  | _, _ => .supply .vss

/-- The origin of a channel's tile (R648): eight rows of tiles of three channels on each side. -/
def tileOrigin (n : Nat) : Ball :=
  ⟨5 * (n % 24 / 3) + 1, 5 * (n % 3) + (if n < 24 then 1 else 32)⟩

/-- The channel whose tile holds a ball of the NAND regions (R648). -/
def tileOf (b : Ball) : Nat :=
  3 * ((b.row - 1) / 5) + (if b.col ≤ 15 then (b.col - 1) / 5 else 24 + (b.col - 32) / 5)

/-- The host block (R649). Lanes 4 to 7 have the names of port 1. -/
def hostBall (row col : Nat) : BallUse :=
  let j := (col - 16) / 2
  let n := col % 2 == 1
  match row with
  | 1 => .signal (.hpTx (j / 4) (j % 4) n)
  | 3 => .signal (.hpRx (j / 4) (j % 4) n)
  | 5 => match col with
    | 16 | 17 => .signal (.hpRefclk 0 n) | 19 => .signal (.hpRefclk 1 false) | 20 => .signal (.hpRefclk 1 true)
    | 22 => .signal (.perst 0) | 23 => .signal (.perst 1) | 24 => .signal .hpDualStrap
    | 18 | 21 | 25 => .supply .vss
    | _ => .supply .vddHp12
  | 6 => orVss .vddHp075 (!n)
  | _ => .supply .vss

/-- The byte lanes of D5 SDRAM (R651). -/
def d5LaneBall (row col : Nat) : BallUse :=
  let lane := (row - 9) / 2
  let c := (col - 16) % 8
  let sig (x : D5Signal) : BallUse := .signal (.d5 (decide (24 ≤ col)) x)
  if (row - 9) % 2 == 0 then
    if c ≤ 3 then sig (.dq (8 * lane + c)) else if c ≤ 5 then sig (.dqs lane (c == 5)) else orVss .vddqD5 (c == 7)
  else if c ≤ 3 then sig (.dq (8 * lane + 4 + c)) else orVss .vddqD5 (c == 6)

/-- The command block of D5 SDRAM (R651). -/
def d5CommandBall (row col : Nat) : BallUse :=
  let c := (col - 16) % 8
  let sig (x : D5Signal) : BallUse := .signal (.d5 (decide (24 ≤ col)) x)
  match row with
  | 29 => sig (.ca c)
  | 30 => if c ≤ 5 then sig (.ca (8 + c)) else sig (.cs (c - 6))
  | 31 => if c ≤ 1 then sig (.ck (c == 1)) else if c == 2 then sig .resetN else if c == 3 then sig .alertN else orVss .vddqD5 (c % 2 == 1)
  | _ => orVss .vddqD5 (c % 2 == 1)

/-- The miscellaneous block (R653), rows BC, BD and BE. -/
def miscBall (row col : Nat) : BallUse :=
  match row, col with
  | 41, 16 => .signal .syncIn | 41, 18 => .signal .syncOut
  | 41, 20 => .signal (.bxlTx false false) | 41, 21 => .signal (.bxlTx false true)
  | 41, 22 => .signal (.bxlRx false false) | 41, 23 => .signal (.bxlRx false true)
  | 41, 24 => .signal (.bxlTx true false) | 41, 25 => .signal (.bxlTx true true)
  | 41, 26 => .signal (.bxlRx true false) | 41, 27 => .signal (.bxlRx true true)
  | 41, 29 => .signal .tcxoIn | 41, 30 => .signal .xt32kIn | 41, 31 => .signal .xt32kOut
  | 42, c => .signal (.gpio (c - 16))
  | 43, 16 => .signal .pfail | 43, 17 => .signal .vstoreSense | 43, 18 => .signal .smbScl | 43, 19 => .signal .smbSda
  | 43, 20 => .signal .avsClk | 43, 21 => .signal .avsMdata | 43, 22 => .signal .avsSdata | 43, 23 => .signal .therm
  | 43, 24 => .signal .tck | 43, 25 => .signal .tms | 43, 26 => .signal .tdi | 43, 27 => .signal .tdo | 43, 28 => .signal .trst
  | 43, 29 | 43, 30 => .supply .vaux33
  | _, _ => .supply .vss

/-- What a ball carries (R646 to R654). -/
def Ball.use (b : Ball) : BallUse :=
  match b.region with
  | .nandLow | .nandHigh => tileBall (tileOf b) ((b.row - 1) % 5) (if b.col ≤ 15 then (b.col - 1) % 5 else (b.col - 32) % 5)
  | .host => hostBall b.row b.col
  | .sramSupply => orVss .vddSram (b.col % 2 == 0)
  | .d5Lanes => d5LaneBall b.row b.col
  | .d5Command => d5CommandBall b.row b.col
  | .coreSupply => orVss .vddCore ((b.row + b.col) % 2 == 1)
  | .misc => miscBall b.row b.col
  | .lowSupply => orVss (if b.row == 44 then .vdd18 else .vddCore) (b.col % 2 == 0)
  | .strips => orVss (if b.row ≤ 42 then .vddqNf else .vddCore) (b.col % 2 == 1)

/-- How many balls carry a supply (R654). -/
def Supply.balls (v : Supply) : Nat := allBalls.countP (fun b => b.use == .supply v)

/-! ## Functions, types and limits -/

/-- Directions of a general-purpose ball (R655). -/
inductive PinDir where
  | pushPull | openDrain | input
  deriving DecidableEq, Repr

/-- The direction of GPIO0 to GPIO15 (R655). -/
def gpioDir (i : Nat) : PinDir := if i ≤ 3 || i == 6 then .pushPull else if i ≤ 7 then .openDrain else .input

/-- The level the WY48 drives on a general-purpose ball (R433, R589, R621, R655): none is a ball that it releases or never drives. GPIO4
and GPIO5 (CLKREQ#) follow link power states that no row of the opcode table reaches, and stay released. -/
def State.gpioOut (s : State) (i : Nat) : Option Bool :=
  if i ≤ 3 then some (s.pwr.rails.getD i false)
  else if i == 6 then some s.blt.bleed
  else if i == 7 then (if s.mgmt.alert && !s.mgmt.i3c then some false else none)
  else none

/-- The level the WY48 drives on THERM_N (R613, R655): low while asserted, released otherwise. -/
def State.thermOut (s : State) : Option Bool := if s.pwr.thermN then some false else none

/-- What a general-purpose ball does (R655): its name in the table of that rule. -/
def gpioFunction (i : Nat) : String :=
  ["EN_18", "EN_IO", "EN_HP", "EN_CORE", "CLKREQ0", "CLKREQ1", "ES_BLEED", "SMB_ALERT_N", "STRAP0", "STRAP1"].getD i ""

/-- The electrical types (the table before R665). -/
inductive IoType where
  | c33 | od33 | smb | c18 | lv | osc | ana | nf | d5 | hp
  deriving DecidableEq, Repr

/-- The type of a signal (the table before R665): each signal ball has one. -/
def Signal.ioType : Signal → IoType
  | .nf _ _ => .nf
  | .hpTx _ _ _ | .hpRx _ _ _ | .hpRefclk _ _ => .hp
  | .d5 _ _ => .d5
  | .perst _ | .pfail => .c33
  | .gpio i => if i == 4 || i == 5 || i == 7 then .od33 else .c33
  | .therm => .od33
  | .smbScl | .smbSda => .smb
  | .bxlTx _ _ | .bxlRx _ _ => .lv
  | .tcxoIn | .xt32kIn | .xt32kOut => .osc
  | .vstoreSense => .ana
  | .hpDualStrap | .syncIn | .syncOut | .avsClk | .avsMdata | .avsSdata | .tck | .tms | .tdi | .tdo | .trst => .c18

/-- Whether a board may leave a signal unconnected (R657): a channel without a package, port 1's clock and reset of a drive with one port,
a Brynnyx port, and the other optional balls. -/
def Signal.optional (x : Signal) (dual : Bool) (package : Nat → Bool) : Bool :=
  match x with
  | .nf n _ => !package n
  | .hpRefclk p _ | .perst p => p == 1 && !dual
  | .bxlTx _ _ | .bxlRx _ _ | .syncIn | .syncOut | .xt32kIn | .xt32kOut | .tck | .tms | .tdi | .tdo | .trst => true
  | .gpio i => decide (10 ≤ i)
  | _ => false

/-- The operating limits of a supply in mV (R659): `mv` is the acknowledged setpoint of VDD_CORE, whose limits are 3 % either side. -/
def Supply.limits (v : Supply) (mv : Nat) : Nat × Nat :=
  match v with
  | .vss => (0, 0)
  | .vddCore => ((97 * mv + 99) / 100, 103 * mv / 100)
  | .vddSram => (776, 824)
  | .vddqNf => (1140, 1260)
  | .vddqD5 => (1067, 1133)
  | .vddHp075 => (728, 772)
  | .vddHp12 => (1164, 1236)
  | .vdd18 => (1710, 1890)
  | .vaux33 => (3135, 3465)

/-- Whether a voltage in mV keeps a supply within its limits (R659, R660): during a change VDD_CORE is judged against the span between the
old and the new setpoint. -/
def Supply.within (v : Supply) (old new mv : Nat) : Bool :=
  decide ((v.limits (min old new)).1 ≤ mv ∧ mv ≤ (v.limits (max old new)).2)

/-- The most current a supply draws, in µA (R659). -/
def Supply.maxMicroamps : Supply → Nat
  | .vss => 0
  | .vddCore => 30000000 | .vddSram => 3000000 | .vddqNf => 3000000 | .vddqD5 => 1800000 | .vddHp075 => 2400000
  | .vddHp12 => 500000 | .vdd18 => 250000 | .vaux33 => 60000

/-- The least and the most voltage, in mV, that a supply stands without damage (R663). -/
def Supply.absolute : Supply → Int × Int
  | .vss => (0, 0)
  | .vaux33 => (-300, 3900) | .vdd18 => (-300, 2100) | .vddqNf | .vddHp12 => (-300, 1500) | .vddqD5 => (-300, 1400)
  | .vddCore | .vddSram | .vddHp075 => (-300, 1000)

/-- Typical and most controller power in mW (R670): DOZE by its power state, SAFE with the media halted. -/
def Mode.power (m : Mode) (ps : Nat) : Nat × Nat :=
  match m with
  | .off => (25, 40)
  | .boot => (9000, 15000)
  | .run | .degraded | .trial => (20000, 30000)
  | .doze => if ps == 4 then (120, 200) else (180, 300)
  | .holdUp => (14000, 22000)
  | .safe => (6000, 9000)

end Sys2Proof.Machine
end

