-- ==== Sys2Proof/Tests/Slice0.lean ====
section
/-! SUPPORT. Small states and the witnesses that meet each statement's hypotheses; ill-formed commands that WellFormed refuses; and
values worked out from the spec. -/

namespace Sys2Proof.Tests

open Sys2Proof.Machine
set_option linter.unusedVariables false

/-- Entries of PF0 that have been fetched, five of its Admin queue and two of its queue 1. -/
def gotAll : List Sqe := [⟨0, 0, 0, some 1, false⟩, ⟨0, 0, 1, some 2, false⟩, ⟨0, 0, 2, some 3, false⟩, ⟨0, 0, 3, some 9, false⟩,
  ⟨0, 1, 0, some 1, false⟩, ⟨0, 1, 1, some 5, false⟩, ⟨0, 1, 2, some 7, false⟩]
/-- A running device whose PF0 controller is enabled and ready, and has fetched some entries. -/
def sRun : State := { mode := .run, qe := { ctrls := [{ id := 0, en := true, rdy := true }], fetched := gotAll } }

/-- A running device with one accepted stroke on Nib 0, for the stroke and context tests. -/
def sStroke (r : Run) (k : Stroke) (x : Lun := { lun := 0 }) : State :=
  ({ mode := .run, stk := { strokes := [k] }, nib := { luns := [x], runs := [r] } } : State).setFld (F.NIB_STATUS_STATE 0) 3

/-- A stroke on LUN 0 and its run. -/
def kOf (op : StrokeOp) : Stroke := mkStroke op 3 0 false .temp
def rOf : Run := { nib := 0, req := 0, seq := 7, lun := 0, accAt := 0 }

/-- A fetched word of MOP `m` with target `t` and an empty nanoword at the first Scriptorium nano address. -/
def fOf (m t : Nat) : Fetched := { addr := 0x1600, micro := 0x600 + m * 2 ^ 11 + t * 2 ^ 19, nano := 0, succ := none }
def xOf (f : Fetched) : QCtx := { nib := 0, ctx := 1, req := 0, queue := [f], hold := .run }
/-- A running Quill context on Nib 0 with that word at its head. -/
def sCtx (f : Fetched) : State :=
  ({ sStroke { rOf with launched := true } (kOf .script) with
    nib := { luns := [{ lun := 0 }], runs := [{ rOf with launched := true }], ctxs := [xOf f] } }).setFld (F.NIB_Q_CTRL_SCRIBE_EN 0) 1
def sHold (h : Hold) (abort : Bool) : State := { mode := .run, nib := { ctxs := [{ xOf (fOf 0 0) with hold := h, abort }] } }
def sTm : State := { mode := .run, nib := { ctxs := [{ xOf (fOf 0 0) with tmRun := true }] } }

/-- A running device with PF0's Admin queues. -/
def sQueues : State := { sRun with qe := { sRun.qe with
  sqs := [{ ctrl := 0, qid := 0, size := 8 }], cqs := [{ ctrl := 0, qid := 0, size := 8 }] } }
/-- PF0's controller with two queues of each kind granted and completion queue 1. -/
def sGrant : State := { sRun with qe := {
  fetched := gotAll
  ctrls := [{ id := 0, en := true, rdy := true, iosqes := 6, iocqes := 4, grantSq := 2, grantCq := 2 }]
  sqs := [{ ctrl := 0, qid := 0, size := 8 }], cqs := [{ ctrl := 0, qid := 0, size := 8 }, { ctrl := 0, qid := 1, size := 8 }] } }
/-- Weighted round robin with an Urgent I/O queue that has two entries. -/
def sUrgent : State := { sRun with qe := {
  ctrls := [{ id := 0, en := true, rdy := true, ams := 1 }], sqs := [{ ctrl := 0, qid := 1, size := 8, tail := 2 }] } }

/-- A waiting Flush of PF0, a namespace of 1,024 blocks attached to PF0, and a device in OWNED. -/
def cFlush : Cmd := { ref := .host 0 1 5, kind := .flush, nsid := 1 }
def nsOne : Ns := { nsid := 1, blocks := 1024, attached := [0] }
def sOwned : State := { sRun with fol := { resolved := [(0, 7)] } }

/-- A device with a stripe group of three LUNs and one band. -/
def sBand : State := { sRun with nib := { luns := [{ lun := 0 }, { lun := 1 }, { lun := 2 }] }
                                 map := { groups := [[0, 1, 2]], bands := [{ ix := 0, group := 0, block := 0 }] } }
def sBandG : State := ((((sBand.setFld (F.NIB_GEOM0_PAGE_KIB 0) 16).setFld (F.NIB_GEOM0_PLANES 0) 4).setFld (F.NIB_GEOM1_BITS 0) 2).setFld (F.NIB_GEOM1_PAGES 0) 900)
/-- No NSID is free: one pending cut names 4,096 namespaces. -/
def sNsFull : State := { sRun with ckpt := { cuts := [{ slot := 0, time := 0, state := 1, sources := List.replicate 4096 0 }] } }
/-- Every key slot is taken. -/
def sKeysFull : State := { sRun with ink := { keys := (List.range 4096).map (fun i => ⟨i, 0⟩) } }
theorem freeSlots_full (s : State) (n : Nat) (h : ∀ i, i < 4096 → s.ink.keys.any (fun k => k.slot == i) = true) :
    s.freeSlots n = [] := by
  unfold State.freeSlots
  rw [List.filter_eq_nil_iff.mpr]
  · exact List.take_nil
  · intro i hi
    rw [h i (List.mem_range.mp hi)]
    decide
theorem latch_ink (s : State) (ref : Ref) : (s.latch ref).ink = s.ink := by
  unfold State.latch
  cases ref <;> dsimp only <;> split <;> rfl
theorem sKeysFull_none : (sKeysFull.latch (.host 0 0 1)).freeSlots 1 = [] := by
  refine freeSlots_full _ _ (fun i hi => ?_)
  rw [latch_ink]
  simp only [sKeysFull]
  exact List.any_eq_true.mpr ⟨⟨i, 0⟩, List.mem_map.mpr ⟨i, List.mem_range.mpr hi, rfl⟩, by simp⟩


/-- Paired Tines. -/
def sPair : State := { sRun with tine := { a := .active, b := .standby } }
/-- Everything a commit asks for but the staged package's own checks: paired Tines, a charged and tested store. -/
def sReady0 (g : Staging) : State :=
  ((({ sPair with bxl := { staging := g } } : State).setFld F.PWR_ES_NOW_CHARGE 100).setFld F.PWR_ES_MEAS_TEST_PASS 1)
def sReady : State := sReady0 { manifest := some { form := false } }

/-- A healthy energy store. -/
def sStore : State :=
  (((({ sRun with blt := { tested := true } } : State).setFld F.PWR_ES_MEAS_TEST_PASS 1).setFld F.PWR_ES_NOW_VNOW 4000).setFld
    F.PWR_ES_MEAS_VFULL 4000).setFld F.PWR_ES_MEAS_C_UF 60000
/-- A package in the clear with one body chunk, and slots of which slot 2 holds an image. -/
def gPlain : Staging := { manifest := some { plain := true, digs := [5] }, body := [(1, 5)] }
def sSlots : State := { sReady0 {} with bxl := { slots := [{ image := 1 }, { image := 2 }, {}] } }

/-- A running device with the namespace `nsOne`; and one whose deadline reads are enabled. -/
def sNs : State := { sRun with qe := { sRun.qe with nss := [nsOne] } }
def sDl : State := { sNs with qe := { sNs.qe with feats := [⟨0xC1, 0, 0x201⟩] } }

/-- All 4,096 admitted-read entries are taken. -/
def sAdmFull : State := { sDl with stk := { admitted := List.replicate 4096 { ref := .side, luns := [], tEnd := 0, w := 0, cur := 0, rescue := false, entries := 0 } } }
theorem admitRead_full (s : State) (c : Cmd) (us : Nat) (lag : Nat) (h : 4096 ≤ s.stk.admitted.length) : s.admitRead c us lag = .error 0 := by
  unfold State.admitRead
  simp [h]
def sTickets : State := ({ sNs with map := { tickets := List.replicate 64 { ticket := 1, nsid := 1, ranges := [], seq := 1, state := 1 } } } : State).setFld F.MAP_CTRL_SDISC_EN 1

/-- Host 9 on PF0 with a namespace: not registered; registered under key 5; holding a Write Exclusive reservation; and a
namespace with 64 other registrants. -/
def sHost (n : Ns) : State := { sRun with qe := { fetched := gotAll, ctrls := [{ id := 0, en := true, rdy := true, hostId := some 9 }], nss := [n] } }
def sRsv0 : State := sHost nsOne
def nsReg : Ns := { nsOne with resv := { regs := [⟨9, 5⟩] } }
def sRsvReg : State := sHost nsReg
def nsRsv : Ns := { nsOne with resv := { regs := [⟨9, 5⟩], rtype := 1, holder := some 9 } }
def sRsv : State := sHost nsRsv
def nsFull : Ns := { nsOne with resv := { regs := List.replicate 64 ⟨8, 5⟩ } }
def sRsvFull : State := sHost nsFull


/-- A command whose one data unit waits for a lane, and the device that runs it. -/
def cXts (k : CmdKind) (retry : List Nat) : Cmd :=
  { ref := .host 0 1 1, kind := k, nsid := 1, n := 1, left := [0], retry := retry
    ink := some 1, segs := [{ lo := 0, n := 1, chain := some 0, fetched := true }] }
def sXts (k : CmdKind) (retry : List Nat) : State :=
  { sNs with qe := { sNs.qe with cmds := [cXts k retry] }, ink := { lanes := List.replicate 16 { inService := true } } }
/-- A request for one cell that is next, a command with one segment, and the device in which they wait. -/
def rInk (w : GrantFor) : CellReq := { owner := 0, n := 1, last := 0, order := 0, since := 0, what := w }
def gInk : Segment := { lo := 0, n := 1 }
def cInk : Cmd := { ref := .host 0 1 1, kind := .write, nsid := 1, n := 1, segs := [gInk] }
def sInk (w : GrantFor) : State :=
  ({ sNs with qe := { sNs.qe with cmds := [cInk] }, ink := { waiting := [rInk w] } } : State).setFld F.PWR_HU_EFF_DUR 100
/-- A chain of one cell. -/
def dInk : Chain := { head := 0, alloc := 0, last := 0, holders := [(0, 1)], born := 0, cells := [0] }
/-- Every owner ID is in use. -/
def sOwnFull : State := { sRun with ink := { owners := (List.range 1024).map (fun i => { id := i }) } }
theorem sOwnFull_none : sOwnFull.freeOwner = none := by
  refine List.find?_eq_none.mpr (fun i hi => ?_)
  simp only [sOwnFull]
  rw [List.any_eq_true.mpr ⟨{ id := i }, List.mem_map.mpr ⟨i, hi, rfl⟩, by simp⟩]
  decide
/-- A stripe group of the given LUNs with one free band; a closed band; and two bands whose wear differs. -/
def sFree (g : List Nat) : State :=
  { sRun with nib := { luns := [{ lun := 0 }, { lun := 1 }, { lun := 2 }] }
              map := { groups := [g], bands := [{ ix := 0, group := 0, block := 0, state := .free }] } }
def bClosed (valid : Nat) (exposed : Bool) (refresh : Option Nat) : Band :=
  { ix := 0, group := 0, block := 0, state := .closed, members := [0, 1, 2], valid := valid, exposed := exposed, refresh := refresh }
def sClosed (valid : Nat) (exposed : Bool) (refresh : Option Nat) : State :=
  { sRun with nib := { luns := [{ lun := 0 }, { lun := 1 }, { lun := 2 }] }
              map := { groups := [[0, 1, 2]], bands := [bClosed valid exposed refresh], level := 2 } }
def sSpread : State :=
  ((({ sClosed 0 false none with map := { (sClosed 0 false none).map with
        bands := [bClosed 0 false none, { ix := 1, group := 0, block := 1, state := .closed }], erases := [((0, 1), 2000)] } } : State).setFld
    F.MAP_CTRL_WL_EN 1).setFld F.MAP_WEAR_SPREAD 100)

/-- A running device some minutes after BOOT; one in which a held cut pins data at Critical; one whose BOOT's work is done. -/
def sLate : State := { sRun with rul := { a := { count := 100000000000000 }, b := { count := 100000000000000 } } }
def sEvict : State :=
  ({ sLate with map := { level := 3, snaps := [{ nsid := 2, page := 0, lo := 0, hi := 0, entries := [(0, .mapped 5)] }] }
                ckpt := { critAt := some 0, cuts := [{ slot := 0, time := 0, state := 2 }] } } : State).setFld F.MAP_CUT_CFG_EVICT 1
def sBooted : State :=
  { sQueues with mode := .boot, pwr := { booted := true }, tine := { a := .active, b := .standby } }
/-- A unit under rebuild, all of whose peers have answered. -/
def fRb (ladder around : Bool) : Fetch := { id := 1, addr := 0, cls := 3, users := [], rebuild := true, ladder := ladder, around := around }
def sFetch (f : Fetch) : State := { sBand with map := { sBand.map with fetches := [f] } }
/-- A device whose store's self-test stands at `t`. -/
def sTest (t : TestPhase) : State := { sRun with blt := { test := t } }
/-- A handover from Tine A; and a device in which a drill can run or cannot. -/
def hHo (o : Bool) : Handover := { from_ := false, cause := 1, at_ := 0, overlap := o }
def sHo (o : Bool) : State := { sPair with tine := { sPair.tine with ho := some (hHo o) } }
def sDrill (due : Bool) : State := ({ sPair with tine := { sPair.tine with due := due } } : State).setFld F.TINE_CTRL_DRILL_EN 1
/-- A Folio request at the head of the queue. -/
def folOf (erase : Bool) : FolReq := { job := .slot, erase := erase }
def sFol (m : Mode) (erase : Bool) : State := { sRun with mode := m, fol := { reqs := [folOf erase] } }
/-- A day after BOOT. -/
def sDay : Rul := { a := { count := 25600000000000000 }, b := { count := 25600000000000000 } }
/-- A lifecycle transition whose intent record is written and whose burns run. -/
def tTrans : Trans := { intent := { iseq := 1, from_ := 0, dest := 1 }, ref := none, burns := [(1, 3)] }
def sTrans : State := { sRun with fol := { trans := some tTrans, intents := [tTrans.intent] } }

/-- A frame on UP and one on DN. -/
def pUp : BxlIn := { up := true }
def pDn : BxlIn := { up := false }
/-- A node with both Brynnyx ports linked and ID 3; with a known master 4; with a report; with a session that it receives; with
a session that it sends. -/
def sBxl : State :=
  (({ sRun with bxl := { up := { good := 64, linked := true }, dn := { good := 64, linked := true }, id := 3, idValid := true } } : State).setFld
    F.BXL_CFG_UP_EN 1).setFld F.BXL_CFG_DN_EN 1
def sMast : State := { sBxl with bxl := { sBxl.bxl with master := some 4 } }
def eSweep : SweepEntry := { node := 5 }
def rSweep (st : Nat) : Report := { stamp := {}, issuer := 3, status := st }
def sSweep (st : Nat) : State := { sBxl with bxl := { sBxl.bxl with report := some (rSweep st) } }
def sRecv : State :=
  { sBxl.setFld F.BXL_CFG_RELAY_EN 1 with bxl := { sBxl.bxl with recv := some (0, 2), staging := { manifest := some { digs := [5] } } } }
def rRel (at_ : Nat) : Relay := { action := 0, chunks := 2, next := 1, out := [{ k := 0, at_ := at_ }] }
def sRel (at_ : Nat) : State := { sBxl with bxl := { sBxl.bxl with relay := some (rRel at_) } }
/-- A node that meets the conditions to claim the time-master role. -/
def sClaim : State :=
  (({ sBxl with rul := { lock := true, todSec := some 0, sync := { qual := true } } } : State).setFld F.BXL_CFG_MASTER_EN 1).setFld F.RUL_CTRL_DISC_EN 1
/-- An SPDM connection of endpoint 8 at a stage, with a signed boot record; with a certificate; with a session. -/
def sSpdm (stage : Nat) : State :=
  { sRun with pwr := { booted := true }, fol := { record := some { bootSeq := 0, eseq := 0 } }, spdm := [{ party := .mctp 8, stage := stage }] }
def sCert : State := { sSpdm 3 with fol := { record := some { bootSeq := 0, eseq := 0 }, resolved := [(0, 1)] } }
def sSess (up : Bool) : State := { sSpdm 3 with spdm := [{ party := .mctp 8, stage := 3, sessions := [(1, up, 0)] }] }
/-- PF0's BAR2 can be reached. -/
def sBar (h : Option Holder) : State := { sRun with hp := { ports := [{ cfg := true }, {}] }, mgmt := { lock := h } }
/-- A waiting stroke of class 5 and the device in which it waits; a posted source with its log entry. -/
def kAge (cls : Nat) : Stroke := { kOf .read with req := 1, cls := cls, cls0 := 5 }
def sAge (cls : Nat) : State := { sRun with stk := { strokes := [kAge cls] } }
def sAged : State := { sAge 5 with rul := sDay }
def eLog : LogEntry := ⟨{}, 232, 0xFF, 1, 0, 1, 0⟩
def eLog2 : LogEntry := ⟨{}, 232, 33, 1, 0, 1, 0⟩
def sPosted : State := { sRun.setFld F.TINE_EVT_STATUS_DRILL 1 with evu := { log := [eLog] } }
def sPosted2 : State := { sRun.setFld F.TINE_EVT_STATUS_DRILL 1 with evu := { log := [eLog2] } }
/-- A Flush in execution. -/
def sWaits : State := { sNs with qe := { sNs.qe with cmds := [cFlush] } }

/-! ## What WellFormed refuses: one ill-formed command for each check -/

def refNo : Ref := .host 256 0 1
def sweepWide : SweepEntry := { node := 3, hops := 65536 }
theorem test_wf_fits : (Instr.cutRelease .side (2 ^ 32)).wf = false := by decide
theorem test_wf_okCtrl : (Instr.controllerReset 256).wf = false := by decide
theorem test_wf_okQid : (Instr.sqIdleTimeout 0 65536).wf = false := by decide
theorem test_wf_okRef : (Instr.keepAlive refNo).wf = false := by decide
theorem test_wf_okPort : (Instr.linkDown 2).wf = false := by decide
theorem test_wf_okPf : (Instr.doeAbort 2).wf = false := by decide
theorem test_wf_okNib : (Instr.strokeComplete 48).wf = false := by decide
theorem test_wf_okLun : (Instr.resetWaitTimeout 3072).wf = false := by decide
theorem test_wf_okCtx : (Instr.done 0 8).wf = false := by decide
theorem test_wf_okSeq : (Instr.strokeTimeout 0 65536).wf = false := by decide
theorem test_wf_okCell : (Instr.busTransferDone 0 0 0 (.ue 131072)).wf = false := by decide
theorem test_wf_okQIn : (Instr.next 0 0 { sr := 256 }).wf = false := by decide
theorem test_wf_okUpset : (Instr.rulingTick { lineA := 2 ^ 64 }).wf = false := by decide
theorem test_wf_okTemps : (Instr.thermalSensorSample [25]).wf = false := by decide
theorem test_wf_okNode : (Instr.claim { up := true } 16384).wf = false := by decide
theorem test_wf_okEntry : (Instr.sweepEnt { up := false } 0 sweepWide).wf = false := by decide
theorem test_wf_okBlocks : (Instr.read .side 1 0 65537 {}).wf = false := by decide
theorem test_wf_okChunkNo : (Instr.chunkAckTimeout 512).wf = false := by decide
theorem test_wf_okPackage : (Instr.relayStart { up := true } 0 513).wf = false := by decide
theorem test_wf_okMemRead : (Instr.completionTimeout (.sqe 256 0 1 0)).wf = false := by decide
theorem test_wf_okMemRes : (Instr.memoryReadCompletion (.list .side) { res := .poison [65536] }).wf = false := by decide
theorem test_wf_okCfg : (Instr.configSpaceReady 0 { vfs1 := 255 }).wf = false := by decide
theorem test_wf_okEnv : (Instr.cstsRdySet { banks := [16] }).wf = false := by decide
theorem test_wf_okLcToken : (Instr.lifecycleTransition .side 3 64 { dest := 256 }).wf = false := by decide
theorem test_wf_okOwnerToken : (Instr.setFeaturesOwnerUpdateLock .side 0 (some { purpose := 256 })).wf = false := by decide
theorem test_wf_okDwords : (Instr.registerWindowWrite 8 0 [2 ^ 32] {}).wf = false := by decide
theorem test_wf_okAccess : (Instr.registerWrite 0 0 0 { value := 0 }).wf = false := by decide
theorem test_wf_okRanges : (Instr.datasetManagement .side 1 4 [(0, 2 ^ 32)]).wf = false := by decide
theorem test_wf_okParty : (Instr.getVersion (.doe 2)).wf = false := by decide
theorem test_wf_okStep : (Instr.powerUpStepDone 13 {}).wf = false := by decide
theorem test_wf_okGate : (Instr.write .side 1 0 8 false 0 0 (some refNo)).wf = false := by decide
theorem test_wf_okUnitEnd : (Instr.xtsUnitDone .side 0 { cell := .bank 16 }).wf = false := by decide
theorem test_wf_okRegistration : (Instr.ownerRegister { cells := 513 } none).wf = false := by decide
theorem test_wf_okOwner : (Instr.ownerRegister {} (some 1024)).wf = false := by decide
theorem test_wf_okTineOut : (Instr.tineOutputOffer true 0 0 { crc := 2 ^ 32 }).wf = false := by decide
theorem test_wf_okAsk : (Instr.tineOutputOffer true 0 0 { ask := .alloc 4 4 0 }).wf = false := by decide
theorem test_wf_okDue : (Instr.read .side 1 0 1 { us := 2 ^ 32 }).wf = false := by decide
theorem test_wf_okPtrs : (Instr.memoryReadCompletion (.list .side) { res := .ptrs [(2 ^ 64, 1)] false false }).wf = false := by decide
theorem test_wf_okMemIn : (Instr.memoryReadCompletion (.list .side) { fec := 65536 }).wf = false := by decide
theorem test_wf_okFnCfg : (Instr.configSpaceReady 0 { fns := [{ fn := 0, mrrs := 64 }] }).wf = false := by decide
theorem test_wf_okBar : (Instr.configSpaceReady 0 { fns := [{ fn := 0, bar2 := some 4096 }] }).wf = false := by decide
theorem test_wf_okMaskWrite : (Instr.vectorUnmask 0 { bit := .intx 32 }).wf = false := by decide
theorem test_wf_okWriteData : (Instr.registerWrite 0 0 8 { value := 2 ^ 64 }).wf = false := by decide
theorem test_wf_okBarRead : (Instr.loHiPairRead { off := 2 ^ 20 }).wf = false := by decide
theorem test_wf_okCcWrite : (Instr.controllerEnable 0 1 1 { asq := 1 }).wf = false := by decide
theorem test_wf_okBxlIn : (Instr.nomaster { up := true, src := 16384 }).wf = false := by decide
theorem test_wf_okScrub : (Instr.mapPageScrub { bad := [(2 ^ 32, 0)] }).wf = false := by decide
theorem test_wf_lane : (Instr.laneKatDone 16 true).wf = false := by decide
theorem test_wf_accepts : (Instr.write (.host 0 1 7) 1 0 65536 false 2 3 none).wf = true := by decide

/-! ## Values worked out from the spec -/

/-- The worked example of chapter 6 (R211): with two banks, B = 2, owner 0 has EFF_MIN 2,730 and EFF_MAX 13,653. -/
def sBanks : State := ({} : State).setFld F.INK_BANKS_INKWELL 3
theorem test_effMin_two_banks : sBanks.effMin 0 = 2730 := by decide
theorem test_effMax_two_banks : sBanks.effMax 0 = 13653 := by decide
/-- R511: bit 6 of NIB_EVT_STATUS of Nib 17 is source 512 + 16 × 17 + 6. -/
theorem test_sourceOf_nib : sourceOf (0x10000 + 17 * 0x1000 + 0x90) 6 = some 790 := by decide
/-- R437: 0.85 × ½ × 520 µF × (35² − 12²) V² ÷ 30 W, in ns. -/
def sTb : State := (((({} : State).setFld F.PWR_ES_MEAS_C_UF 520).setFld F.PWR_ES_MEAS_VFULL 3500).setFld F.PWR_ES_CFG_VMIN 48)
theorem test_tbNs : sTb.tbNs 3500 = 7963366 := by decide
/-- R54: 12 hops from a master on SYNC_IN give class A and 5 + ⌈1.8⌉ = 7 ns; 33 hops give class B. -/
def sHops (n : Nat) : State := { ({} : State) with rul := { hops := n }, bxl := { masterSrc := 1, masterCls := 0 } }
theorem test_hops_12 : (sHops 12).srcClass .bxl = (0, 7) := by decide
theorem test_hops_33 : (sHops 33).srcClass .bxl = (1, 10) := by decide
/-- R639: a sealed write that would change STK_ENV_CAP sets SEALED_WR and changes nothing else of the register. -/
def sSealed : State := ({ sRun with hp := { ports := [{ cfg := true }, {}] } } : State).setFld F.DEV_SEAL_SEAL 1
theorem test_sealed_write_keeps : (sSealed.regWrite 0x2008 15 1).fld F.STK_ENV_CAP_CAP = sSealed.fld F.STK_ENV_CAP_CAP := by decide
theorem test_sealed_write_posts : (sSealed.regWrite 0x2008 15 1).flag F.DEV_EVT_STATUS_SEALED_WR = true := by decide
/-- R638: DEV_MODE reads 1 at reset. -/
theorem test_reset_mode : State.reset.mode.code = 1 := by decide
/-- No row of the table has bits; the block idles on an empty queue. -/
theorem test_decode_none : decodeTableWord 32 0x13 = none := by decide
theorem test_idle : step State.reset = .next State.reset := rfl
theorem test_reset_inv : State.reset.inv = true := by decide
/-- The examples of chapter 20 (R647, R651): NF17_RB_N is AL15, NF40_DQ0 is AG37 and D5B_DQS7_N is AD29. -/
theorem test_ball_rb : Ball.use ⟨rowIndex "AL", 15⟩ = .signal (.nf 17 .rb) := by decide
theorem test_ball_dq : Ball.use ⟨rowIndex "AG", 37⟩ = .signal (.nf 40 (.dq 0)) := by decide
theorem test_ball_dqs : Ball.use ⟨rowIndex "AD", 29⟩ = .signal (.d5 true (.dqs 7 true)) := by decide
/-- R246: an IN_FLIGHT entry of record 5 has STATE 3 in bits 39:38. -/
theorem test_entry_word : (MapEntry.inFlight 5).word = 0xC000000005 := by decide
/-- The value of CRC-32C in general use over the character a (log entry 104). -/
theorem test_crc32c : crc32c [97] = 0xC1D04330 := by decide
/-- R544: DONE of a VERIFIED intent. -/
theorem test_intent_done : ({ iseq := 1, from_ := 2, dest := 3, done := 1 } : Intent).bytes.drop 128 = [0, 0, 0, 0, 255, 255, 255, 255] := by decide

/-! ## Witnesses -/

theorem test_pfailAndRequests_1 : ∃ (s : State), s.pwr.vaux = true ∧ s.pwr.pfailHigh = true :=
  ⟨{}, by decide⟩

theorem test_pfailAndRequests_2 : ∃ (s : State), s.pwr.deglitch = true ∧ s.pwr.pfailHigh = false ∧ (s.rul.running && s.now < s.blt.holdAt + (s.fld F.PWR_HU_CFG_DEGLITCH + 1) * 250 * nsT) = false :=
  ⟨{ mode := .run, pwr := { pfailHigh := false, deglitch := true }, rul := { a := { count := 256000000 } } }, by decide⟩

theorem test_pfailAndRequests_3 : ∃ (s : State), s.pwr.vaux = true ∧ s.pwr.pfailHigh = false ∧ s.pwr.deglitch = true :=
  ⟨{ pwr := { pfailHigh := false, deglitch := true } }, by decide⟩

theorem test_pfailAndRequests_4 : ∃ (s : State), s.pwr.vaux = true ∧ s.pwr.pfailHigh = false ∧ s.pwr.deglitch = false :=
  ⟨{ pwr := { pfailHigh := false } }, by decide⟩

theorem test_pfailAndRequests_5 : ∃ (s : State), s.pwr.qualify = true ∧ s.pwr.pfailHigh = true :=
  ⟨{ mode := .off, pwr := { qualify := true } }, by decide⟩

theorem test_pfailAndRequests_6 : ∃ (s : State) (src : Nat), s.pwr.held = some src ∧ s.thermalHold = false :=
  ⟨{ mode := .off, pwr := { held := some 2 } }, 2, by decide⟩

theorem test_pfailAndRequests_7 : ∃ (s : State), s.pwr.vaux = true ∧ s.pwr.rails.any id = true ∧ s.mode ≠ .off ∧ s.mode ≠ .holdUp ∧ s.fld F.PWR_STATUS_STEP ≤ 19 :=
  ⟨{ mode := .run }, by decide⟩

theorem test_pfailAndRequests_8 : ∃ (s : State), s.pwr.vaux = true ∧ s.pwr.rails.any id = true ∧ s.mode = .off :=
  ⟨{ mode := .off }, by decide⟩

theorem test_pfailAndRequests_9 : ∃ (s : State) (straps : Nat), s.pwr.vaux = false ∧ straps < 4 :=
  ⟨{ mode := .off, pwr := { vaux := false } }, 3, by decide⟩

theorem test_powerSequencerSteps_1 : ∃ (s : State) (k : Nat) (env : BootEnv), s.pwr.vaux = true ∧ 1 ≤ k ∧ k < 12 ∧ s.fld F.PWR_STATUS_STEP = k ∧ (s.puDone k).pwr.offReq = none :=
  ⟨({ mode := .off } : State).setFld F.PWR_STATUS_STEP 1, 1, {}, by decide⟩

theorem test_powerSequencerSteps_2 : ∃ (s : State) (env : BootEnv), s.pwr.vaux = true ∧ s.fld F.PWR_STATUS_STEP = 12 ∧ (s.puDone 12).pwr.offReq = none :=
  ⟨({ mode := .off } : State).setFld F.PWR_STATUS_STEP 12, {}, by decide⟩

theorem test_powerSequencerSteps_3 : ∃ (s : State) (k src : Nat) (env : BootEnv), s.pwr.vaux = true ∧ 1 ≤ k ∧ k ≤ 12 ∧ s.fld F.PWR_STATUS_STEP = k ∧ (s.puDone k).pwr.offReq = some src :=
  ⟨({ mode := .off, pwr := { offReq := some 2 } } : State).setFld F.PWR_STATUS_STEP 3, 3, 2, {}, by decide⟩

theorem test_powerSequencerSteps_4 : ∃ (s : State) (j : Nat), s.pwr.vaux = true ∧ 1 ≤ j ∧ j < 12 ∧ s.fld F.PWR_STATUS_STEP = 12 + j ∧ (j ≠ 1 ∨ s.mode = .off ∨ s.mode = .holdUp ∨ s.pwr.quiesce = 3) ∧ (j ≠ 5 ∨ s.mode = .off ∨ s.fol.reqs.isEmpty = true) ∧ (s.pdDone j).pwr.onReq = none :=
  ⟨({ mode := .run, pwr := { quiesce := 3 } } : State).setFld F.PWR_STATUS_STEP 13, 1, by decide⟩

theorem test_powerSequencerSteps_5 : ∃ (s : State), s.pwr.vaux = true ∧ s.fld F.PWR_STATUS_STEP = 24 ∧ (s.pdDone 12).pwr.onReq = none :=
  ⟨({ mode := .run } : State).setFld F.PWR_STATUS_STEP 24, by decide⟩

theorem test_powerSequencerSteps_6 : ∃ (s : State) (src : Nat), s.pwr.minOff = true ∧ s.pwr.onReq = some src ∧ s.thermalHold = false :=
  ⟨{ mode := .off, pwr := { minOff := true, onReq := some 2 } }, 2, by decide⟩

theorem test_powerSequencerSteps_7 : ∃ (s : State), s.pwr.minOff = true ∧ s.pwr.onReq = none :=
  ⟨{ mode := .off, pwr := { minOff := true } }, by decide⟩

theorem test_powerSequencerSteps_8 : ∃ (s : State) (k : Nat), s.fld F.PWR_STATUS_STEP = k ∧ (k = 1 ∨ k = 2 ∨ k = 3 ∨ k = 5) :=
  ⟨({ mode := .off } : State).setFld F.PWR_STATUS_STEP 2, 2, by decide⟩

theorem test_coreVoltage_1 : ∃ (s : State), s.flag F.PWR_AVS_STATUS_PEND = true ∧ s.pwr.avsTries < s.fld F.PWR_AVS_RETRY :=
  ⟨({ mode := .run } : State).setFld F.PWR_AVS_STATUS_PEND 1, by decide⟩

theorem test_coreVoltage_2 : ∃ (s : State), s.flag F.PWR_AVS_STATUS_PEND = true ∧ s.fld F.PWR_AVS_RETRY ≤ s.pwr.avsTries :=
  ⟨({ mode := .run, pwr := { avsTries := 7 } } : State).setFld F.PWR_AVS_STATUS_PEND 1, by decide⟩

theorem test_coreVoltage_3 : ∃ (s : State) (vread : Nat), s.mode ≠ .off ∧ s.mode ≠ .holdUp ∧ vread < 256 ∧ s.flag F.PWR_AVS_STATUS_PEND = false ∧ avsNear vread (s.fld F.PWR_AVS_STATUS_VSET) = false :=
  ⟨{ mode := .run }, 200, by decide⟩

theorem test_coreVoltage_4 : ∃ (s : State) (vread : Nat), s.mode ≠ .off ∧ s.mode ≠ .holdUp ∧ vread < 256 ∧ (s.flag F.PWR_AVS_STATUS_PEND = true ∨ avsNear vread (s.fld F.PWR_AVS_STATUS_VSET) = true) :=
  ⟨({ mode := .run } : State), (({ mode := .run } : State).fld F.PWR_AVS_STATUS_VSET), by decide⟩

theorem test_coreVoltage_5 : ∃ (s : State) (vread : Nat), s.flag F.PWR_AVS_STATUS_PEND = true ∧ avsNear vread s.pwr.avsWant = true :=
  ⟨({ mode := .run, pwr := { avsWant := 30 } } : State).setFld F.PWR_AVS_STATUS_PEND 1, 30, by decide⟩

theorem test_holdUpSequence_1 : ∃ (s : State) (clk : AonClock) (ns : Nat), s.pwr.asserted = true ∧ (s.mode = .run ∨ s.mode = .degraded ∨ s.mode = .trial) ∧ s.fld F.PWR_STATUS_STEP ≤ 19 :=
  ⟨{ mode := .run, pwr := { asserted := true } }, .tcxo, 0, by decide⟩

theorem test_holdUpSequence_2 : ∃ (s : State) (clk : AonClock) (ns : Nat), s.pwr.asserted = true ∧ s.mode = .doze ∧ s.fld F.PWR_STATUS_STEP ≤ 19 :=
  ⟨{ mode := .doze, pwr := { asserted := true } }, .tcxo, 0, by decide⟩

theorem test_holdUpSequence_3 : ∃ (s : State), s.mode = .holdUp ∧ s.blt.dumping = 1 ∧ s.blt.dumpStop = false ∧ s.blt.holdAt + 900 * nsT * s.fld F.PWR_HU_EFF_TB_US ≤ s.now :=
  ⟨({ mode := .holdUp, blt := { dumping := 1 }, rul := { a := { count := 256000000000000 } } } : State), by decide⟩

theorem test_holdUpSequence_4 : ∃ (s : State), s.blt.dumping = 1 ∧ s.blt.dumpStop = false ∧ s.blt.pages.any (fun p => p.phase == .programming || (p.phase == .closed && !s.blt.dumpStop)) = false ∧ (s.closeRows true).blt.rows.any (fun r => r.parity != 2) = false :=
  ⟨({ mode := .holdUp, blt := { dumping := 1 } } : State), by decide⟩

theorem test_holdUpSequence_5 : ∃ (s : State), s.blt.dumping = 2 ∧ s.blt.pages.any (fun p => p.phase == .programming || (p.phase == .closed && !s.blt.dumpStop)) = false ∧ ((s.closeRows true).blt.rows.any (fun r => r.parity != 2) && !(s.closeRows true).blt.dumpStop) = false :=
  ⟨({ mode := .safe, blt := { dumping := 2 } } : State), by decide⟩

theorem test_holdUpSequence_6 : ∃ (s : State) (group : Nat) (p : BltPage), s.blt.pages.find? (fun p => p.group == group && p.phase == .open) = some p ∧ p.openedAt + s.fld F.PWR_BLT_CFG_CG_US * usT ≤ s.nowAt islStroke ∧ s.groupsOpen = true :=
  ⟨({ mode := .run, blt := { pages := [{ group := 1 }] }, rul := { a := { count := 256000000000000 } } } : State), 1, { group := 1 }, by decide⟩

theorem test_holdUpSequence_7 : ∃ (s : State) (group : Nat) (p : BltPage), s.blt.pages.find? (fun p => p.group == group && p.phase == .passed) = some p ∧ p.openedAt + 3600 * secT ≤ s.now ∧ p.row = none ∧ p.units.any (fun u => u.btype == 0 && !u.released) = true ∧ s.groupsOpen = true :=
  ⟨({ mode := .run, blt := { pages := [{ group := 1, phase := .passed, units := [{}] }] }, rul := { a := { count := 256000000000000000 } } } : State), 1, { group := 1, phase := .passed, units := [{}] }, by decide⟩

theorem test_holdUpSequence_8 : ∃ (s : State) (group : Nat) (p : BltPage) (set slot row : Nat), s.blt.pages.find? (fun p => p.group == group && p.phase == .passed) = some p ∧ p.openedAt + 3600 * secT ≤ s.now ∧ p.row = some (set, slot, row) ∧ p.units.any (fun u => u.btype == 0 && !u.released) = true ∧ s.groupsOpen = true :=
  ⟨({ mode := .run, blt := { pages := [{ group := 1, phase := .passed, row := some (0, 1, 5), units := [{}] }] }, rul := { a := { count := 256000000000000000 } } } : State), 1, { group := 1, phase := .passed, row := some (0, 1, 5), units := [{}] }, 0, 1, 5, by decide⟩

theorem test_thermalCommands_1 : ∃ (s : State) (temps : List Int), s.pwr.vaux = true ∧ temps.length = 32 ∧ s.mode = .off :=
  ⟨{ mode := .off }, List.replicate 32 40, by decide⟩

theorem test_thermalCommands_2 : ∃ (s : State) (temps : List Int), (s.mode = .holdUp ∨ s.mode = .doze) :=
  ⟨{ mode := .doze }, List.replicate 32 40, by decide⟩

theorem test_thermalCommands_3 : ∃ (s : State) (temps : List Int), s.pwr.vaux = true ∧ temps.length = 32 ∧ (s.mode = .boot ∨ s.mode = .run ∨ s.mode = .degraded ∨ s.mode = .trial ∨ s.mode = .safe) :=
  ⟨{ mode := .run }, List.replicate 32 40, by decide⟩

theorem test_thermalCommands_4 : ∃ (s : State) (t : Nat), s.thm.coolAt = some t ∧ (s.fld F.THM_STATUS_LEVEL = 0 || s.now < t + secT || s.mode = .doze || s.mode = .holdUp || s.mode = .off) = false :=
  ⟨({ mode := .run, thm := { coolAt := some 0 }, rul := { a := { count := 256000000000000000 } } } : State).setFld F.THM_STATUS_LEVEL 2, 0, by decide⟩

theorem test_thermalCommands_5 : ∃ (s : State), (s.mode = .off || s.mode = .doze || s.mode = .holdUp) = false :=
  ⟨{ mode := .run }, by decide⟩

theorem test_dozeEntryAndWake_1 : ∃ (s : State) (us : Nat) (e : DozeEntry), s.pwr.entry = some e ∧ e.delay = true ∧ e.sum + us * 1000 ≤ s.fld F.PWR_DOZE_MAX_DELAY * 1000000 ∧ ({ s with pwr := { s.pwr with entry := some { e with sum := e.sum + us * 1000, delay := false } } } : State).dozeRefused = false :=
  ⟨({ mode := .run, pwr := { entry := some { level := 4, delay := true } }, tine := { a := .active, b := .standby }, rul := { a := { count := 256000000000000000 } } } : State).setFld F.PWR_CTRL_DOZE_EN 1, 0, { level := 4, delay := true }, by decide⟩

theorem test_dozeEntryAndWake_2 : ∃ (s : State) (us : Nat) (e : DozeEntry), s.pwr.entry = some e ∧ e.delay = true ∧ (s.fld F.PWR_DOZE_MAX_DELAY * 1000000 < e.sum + us * 1000 ∨ ({ s with pwr := { s.pwr with entry := some { e with sum := e.sum + us * 1000, delay := false } } } : State).dozeRefused = true) :=
  ⟨({ mode := .run, pwr := { entry := some { level := 4, delay := true } } } : State), 10000000, { level := 4, delay := true }, by decide⟩

theorem test_dozeEntryAndWake_3 : ∃ (s : State) (e : DozeEntry) (src : Nat), s.pwr.entry = some e ∧ e.delay = false ∧ s.dozeReady (s.fld F.PWR_STATUS_AP + 1) = true ∧ s.pwr.wake = some src :=
  ⟨({ mode := .run, pwr := { entry := some { level := 4 }, wake := some 3 } } : State), { level := 4 }, 3, by decide⟩

theorem test_dozeEntryAndWake_4 : ∃ (s : State) (e : DozeEntry), s.pwr.entry = some e ∧ e.delay = false ∧ s.dozeReady (s.fld F.PWR_STATUS_AP + 1) = true ∧ s.pwr.wake = none :=
  ⟨({ mode := .run, pwr := { entry := some { level := 4 } } } : State), { level := 4 }, by decide⟩

theorem test_dozeEntryAndWake_5 : ∃ (s : State), s.pwr.retry = true ∧ s.pwr.retryAt + 100 * msT ≤ s.now ∧ s.dozeWanted = true ∧ s.commandsOpen = false ∧ s.dozeRefused = false :=
  ⟨({ mode := .run, pwr := { retry := true }, qe := { ctrls := [{ id := 1, en := true, ps := 3 }] }, tine := { a := .active, b := .standby }, rul := { a := { count := 256000000000000000 } } } : State).setFld F.PWR_CTRL_DOZE_EN 1, by decide⟩

theorem test_dozeEntryAndWake_6 : ∃ (s : State) (clk : AonClock) (ticks : Nat) (temps : List Int) (vnow src : Nat), s.mode = .doze ∧ s.pwr.asserted = false ∧ s.pwr.wake = some src ∧ src ≠ 8 :=
  ⟨({ mode := .doze, pwr := { wake := some 6 } } : State), .tcxo, 0, [], 0, 6, by decide⟩

theorem test_dozeEntryAndWake_7 : ∃ (s : State) (clk : AonClock) (ticks : Nat) (temps : List Int) (vnow src : Nat), s.mode = .doze ∧ s.pwr.asserted = false ∧ (s.pwr.wake = none ∨ s.pwr.wake = some 8) ∧ (({ s with pwr := { s.pwr with periods := s.pwr.periods + 1 } } : State).noteSample temps vnow).outOfWindow = some src :=
  ⟨{ mode := .doze, thm := { sensors := [{}] } }, .tcxo, 0, [120], 100, 9, ⟨rfl, rfl, .inl rfl, rfl⟩⟩

theorem test_dozeEntryAndWake_8 : ∃ (s : State) (clk : AonClock) (ticks : Nat) (temps : List Int) (vnow : Nat), s.mode = .doze ∧ s.pwr.asserted = false ∧ s.pwr.wake = some 8 ∧ (({ s with pwr := { s.pwr with periods := s.pwr.periods + 1 } } : State).noteSample temps vnow).outOfWindow = none :=
  ⟨{ mode := .doze, pwr := { wake := some 8 }, thm := { sensors := [{}] } }, .tcxo, 0, [30], 4000, ⟨rfl, rfl, rfl, rfl⟩⟩

theorem test_dozeEntryAndWake_9 : ∃ (s : State) (clk : AonClock) (ticks : Nat) (temps : List Int) (vnow : Nat), s.mode = .doze ∧ s.pwr.asserted = false ∧ s.pwr.wake = none ∧ (({ s with pwr := { s.pwr with periods := s.pwr.periods + 1 } } : State).noteSample temps vnow).outOfWindow = none :=
  ⟨{ mode := .doze, thm := { sensors := [{}] } }, .tcxo, 0, [30], 4000, ⟨rfl, rfl, rfl, rfl⟩⟩

theorem test_rulingTicks_1 : ∃ (s : State) (u : Upset), s.rul.running = true ∧ (({ s with rul := s.rul.upset u }).checkCounters).rul.running = true :=
  ⟨{ rul := { running := true } }, {}, by decide⟩

theorem test_rulingTicks_2 : ∃ (s : State) (u : Upset), s.rul.running = true ∧ (({ s with rul := s.rul.upset u }).checkCounters).rul.running = false :=
  ⟨{ mode := .run, rul := { running := true } }, { countA := 1, countB := 1 }, by decide⟩

theorem test_rulingTicks_3 : ∃ (s : State), s.rul.running = true ∧ s.rul.nextLine ≤ s.now :=
  ⟨{ rul := { running := true, nextLine := 0 } }, by decide⟩

theorem test_rulingTicks_4 : ∃ (s : State), s.now < s.rul.nextLine :=
  ⟨{ rul := { running := true, nextLine := 5 } }, by decide⟩

theorem test_rulingTicks_5 : ∃ (s : State) (island count k sent : Nat) (x : Island) (rest : List (Nat × Nat)), s.rul.islands.lookup island = some x ∧ x.fifo = (k, sent) :: rest ∧ (s.expectedLine x k).all (· == count) = true :=
  ⟨{ rul := { islands := [(2, { fifo := [(3, 9)] })] } }, 2, 9, 3, 9, { fifo := [(3, 9)] }, [], ⟨rfl, rfl, by decide⟩⟩

theorem test_rulingTicks_6 : ∃ (s : State) (island count k sent : Nat) (x : Island) (rest : List (Nat × Nat)), s.rul.islands.lookup island = some x ∧ x.fifo = (k, sent) :: rest ∧ (s.expectedLine x k).all (· == count) = false :=
  ⟨{ rul := { islands := [(2, { fifo := [(3, 9)], last := some 5 })] } }, 2, 9, 3, 9, { fifo := [(3, 9)], last := some 5 }, [], ⟨rfl, rfl, by decide⟩⟩

theorem test_rulingTicks_7 : ∃ (s : State) (island count : Nat) (x : Island), s.rul.islands.lookup island = some x ∧ x.fifo = [] :=
  ⟨{ rul := { islands := [(2, {})] } }, 2, 9, {}, by decide⟩

theorem test_rulingTicks_8 : ∃ (s : State) (u : Upset), s.rul.running = false :=
  ⟨{ rul := { running := false } }, {}, by decide⟩

theorem test_rulingSources_1 : ∃ (s : State) (v at' : Nat), s.disciplined = true ∧ s.fld F.RUL_SYNC_CFG_MODE = 1 ∧ s.rul.tod = some (v, at') ∧ 100 * msT < s.now - at' :=
  ⟨({ mode := .run, rul := { running := true, tod := some (9, 0), a := { count := 256000000000 } } } : State).setFld F.RUL_SYNC_CFG_MODE 1, 9, 0, by decide⟩

theorem test_rulingSources_2 : ∃ (s : State) (e : Nat), s.disciplined = true ∧ s.fld F.RUL_SYNC_CFG_MODE = 1 ∧ s.rul.tod.all (fun e => decide (s.now - e.2 ≤ 100 * msT)) = true ∧ s.rul.lastEdge = some e ∧ usT < (((e + secT : Nat) : Int) - (s.now : Int)).natAbs :=
  ⟨({ mode := .run, rul := { running := true, lastEdge := some 7 } } : State).setFld F.RUL_SYNC_CFG_MODE 1, 7, by decide⟩

theorem test_rulingSources_3 : ∃ (s : State) (v : Nat), s.disciplined = true ∧ s.fld F.RUL_SYNC_CFG_MODE = 1 ∧ s.rul.tod.all (fun e => decide (s.now - e.2 ≤ 100 * msT)) = true ∧ s.rul.lastEdge.all (fun e => decide ((((e + secT : Nat) : Int) - (s.now : Int)).natAbs ≤ usT)) = true ∧ s.rul.todSec = some v :=
  ⟨({ mode := .run, rul := { running := true, todSec := some 1, a := { count := 256000000000 } } } : State).setFld F.RUL_SYNC_CFG_MODE 1, 1, by decide⟩

theorem test_rulingSources_4 : ∃ (s : State) (e : Nat), s.disciplined = true ∧ s.fld F.RUL_SYNC_CFG_MODE = 1 ∧ s.rul.tod.all (fun e => decide (s.now - e.2 ≤ 100 * msT)) = true ∧ s.rul.lastEdge = some e ∧ (((e + secT : Nat) : Int) - (s.now : Int)).natAbs ≤ usT ∧ s.rul.todSec = none :=
  ⟨({ mode := .run, rul := { running := true, lastEdge := some 0, a := { count := 256000000000 } } } : State).setFld F.RUL_SYNC_CFG_MODE 1, 0, by decide⟩

theorem test_rulingSources_5 : ∃ (s : State), s.disciplined = true ∧ s.fld F.RUL_SYNC_CFG_MODE = 1 ∧ s.rul.tod.all (fun e => decide (s.now - e.2 ≤ 100 * msT)) = true ∧ s.rul.lastEdge = none ∧ s.rul.todSec = none :=
  ⟨({ mode := .run, rul := { running := true } } : State).setFld F.RUL_SYNC_CFG_MODE 1, by decide⟩

theorem test_rulingSources_6 : ∃ (s : State), s.disciplined = true ∧ s.fld F.RUL_SYNC_CFG_MODE = 2 ∧ s.rul.lastEdge = none :=
  ⟨({ mode := .run, rul := { running := true } } : State).setFld F.RUL_SYNC_CFG_MODE 2, by decide⟩

theorem test_rulingSources_7 : ∃ (s : State) (e : Nat), s.disciplined = true ∧ s.fld F.RUL_SYNC_CFG_MODE = 2 ∧ s.rul.lastEdge = some e :=
  ⟨({ mode := .run, rul := { running := true, lastEdge := some 7 } } : State).setFld F.RUL_SYNC_CFG_MODE 2, 7, by decide⟩

theorem test_rulingSources_8 : ∃ (s : State), s.disciplined = true ∧ max (s.rul.lastEdge.getD 0) s.rul.resumedAt + (if s.fld F.RUL_SYNC_CFG_MODE = 2 then usT else 1100 * msT) ≤ s.now :=
  ⟨{ mode := .run, rul := { running := true, a := { count := 25600000000000 } } }, by decide⟩

theorem test_rulingSources_9 : ∃ (s : State), s.ptmUsed = true ∧ s.disciplined = true ∧ (s.rul.dialogAt = 0 || s.rul.dialogAt + s.fld F.RUL_PTM_CFG_PERIOD * msT ≤ s.now) = true ∧ s.rul.dialog.contains s.ptmPort = false :=
  ⟨({ mode := .run, rul := { running := true }, hp := { ptm := [0] } } : State).setFld F.RUL_PTM_CFG_EN 1, by decide⟩

theorem test_rulingSources_10 : ∃ (s : State) (port : Nat) (master : Int), s.rul.dialog.contains port = true ∧ s.now ≤ s.rul.dialogAt + msT ∧ s.ptmUsed = true ∧ s.disciplined = true :=
  ⟨({ mode := .run, hp := { ptm := [0] }, rul := { running := true, dialog := [0] } } : State).setFld F.RUL_PTM_CFG_EN 1, 0, 0, by decide⟩

theorem test_rulingSources_11 : ∃ (s : State) (port : Nat), s.rul.dialogAt + msT ≤ s.now ∧ s.rul.dialog.contains port = true :=
  ⟨{ rul := { dialog := [0], a := { count := 256000000000 } } }, 0, by decide⟩

theorem test_rulingStepsAndReads_1 : ∃ (s : State) (p : StepPlan) (ref : Ref), s.rul.step = some p ∧ p.line ≤ s.rul.lineIdx ∧ s.mode ≠ .holdUp ∧ p.ref = some ref :=
  ⟨{ rul := { step := some ⟨256, 0, .sync, some .side⟩ } }, ⟨256, 0, .sync, some .side⟩, .side, by decide⟩

theorem test_rulingStepsAndReads_2 : ∃ (s : State) (p : StepPlan), s.rul.step = some p ∧ p.line ≤ s.rul.lineIdx ∧ s.mode ≠ .holdUp ∧ p.ref = none :=
  ⟨{ rul := { step := some ⟨256, 0, .sync, none⟩ } }, ⟨256, 0, .sync, none⟩, by decide⟩

theorem test_rulingStepsAndReads_3 : ∃ (s : State) (off : BarRead), s.mode ≠ .off ∧ pairLos.contains off.off = true ∧ off.bad = false :=
  ⟨{ mode := .run }, { off := pairLos.headD 0 }, by decide⟩

theorem test_rulingStepsAndReads_4 : ∃ (s : State) (off : BarRead), s.mode ≠ .off ∧ pairLos.contains off.off = true ∧ off.bad = true :=
  ⟨{ mode := .run }, { off := pairLos.headD 0, bad := true }, by decide⟩

theorem test_rulingStepsAndReads_5 : ∃ (s : State) (ref : Ref) (cdw10 : Nat), s.accepts ref = true ∧ holderOf ref ≠ none ∧ (s.latch ref).heldAgainst ref = none ∧ 0 < bitsOf cdw10 0 16 ∧ ((s.latch ref).rul.sync.qual || (s.latch ref).rul.bxl.qual || (s.latch ref).rul.ptm.qual) = true ∧ (s.latch ref).ckpt.cuts.any (fun c => c.state == 1) = false ∧ (s.latch ref).rul.step.isSome = false ∧ (msT : Int) < (s.latch ref).rul.offset ∧ (s.latch ref).rul.offset ≤ ((bitsOf cdw10 0 16 * msT : Nat) : Int) :=
  ⟨{ sRun with rul := { sync := { qual := true }, offset := 10 * msT } }, .host 0 0 1, 20, by decide⟩

theorem test_rulingStepsAndReads_6 : ∃ (s : State) (ref : Ref) (cdw10 : Nat), s.accepts ref = true ∧ holderOf ref ≠ none ∧ (s.latch ref).heldAgainst ref = none ∧ 0 < bitsOf cdw10 0 16 ∧ ((s.latch ref).rul.sync.qual || (s.latch ref).rul.bxl.qual || (s.latch ref).rul.ptm.qual) = true ∧ (s.latch ref).ckpt.cuts.any (fun c => c.state == 1) = false ∧ (s.latch ref).rul.step.isSome = false ∧ (s.latch ref).rul.offset ≤ (msT : Int) :=
  ⟨{ sRun with rul := { sync := { qual := true } } }, .host 0 0 1, 20, by decide⟩

theorem test_rulingStepsAndReads_7 : ∃ (s : State) (ref : Ref) (cdw10 : Nat) (h : Holder), s.accepts ref = true ∧ holderOf ref ≠ none ∧ (s.latch ref).heldAgainst ref = some h :=
  ⟨{ sRun with mgmt := { lock := some .pf1 } }, .host 0 0 1, 20, .pf1, by decide⟩

theorem test_strokeScheduling_1 : ∃ (s : State) (nib : Nat) (c : Comp) (k : Stroke), s.nib.comps.find? (fun c => c.nib == nib) = some c ∧ s.strokeOf c.req = some k :=
  ⟨{ sStroke rOf (kOf .read) with nib := { comps := [{ nib := 0, seq := 7, req := 0, status := 0 }] } }, 0, { nib := 0, seq := 7, req := 0, status := 0 }, kOf .read, by decide⟩

theorem test_strokeScheduling_2 : ∃ (s : State) (nib : Nat) (c : Comp), s.nib.comps.find? (fun c => c.nib == nib) = some c ∧ s.strokeOf c.req = none :=
  ⟨{ sStroke rOf (kOf .read) with stk := {}, nib := { comps := [{ nib := 0, seq := 7, req := 0, status := 0 }] } }, 0, { nib := 0, seq := 7, req := 0, status := 0 }, by decide⟩

theorem test_strokeScheduling_3 : ∃ (s : State) (req : Nat) (k : Stroke), s.stk.strokes.find? (fun k => k.req == req && k.phase == .launched && !k.overran && segsMax k.segs < s.busyOf k) = some k :=
  ⟨{ sStroke { rOf with launched := true, seq := 0 } { kOf .read with phase := .launched } with rul := { a := { count := 256000000000 } } }, 0, { kOf .read with phase := .launched }, by decide⟩

theorem test_nibDescriptors_1 : ∃ (s : State) (nib seq l : Nat), s.nib.lastSeq.lookup nib = some l ∧ seqLater seq l = false :=
  ⟨{ nib := { lastSeq := [(0, 7)] } }, 0, 7, 7, by decide⟩

theorem test_nibDescriptors_2 : ∃ (s : State) (nib seq : Nat) (k : Stroke), (s.nib.lastSeq.lookup nib).all (fun l => seqLater seq l) = true ∧ s.stk.strokes.find? (fun k => chanOf k.lun == nib && k.phase == .placed && !k.accepted && k.seq == seq) = some k :=
  ⟨{ stk := { strokes := [{ kOf .read with phase := .placed, seq := 7 }] } }, 0, 7, { kOf .read with phase := .placed, seq := 7 }, by decide⟩

theorem test_nibDescriptors_3 : ∃ (s : State) (nib seq : Nat) (ofs : Int) (busHeld : Bool) (r : Run) (k : Stroke), s.runAt nib seq = some r ∧ s.strokeOf r.req = some k ∧ (r.launched || s.nowAt (islNib nib) < k.due * 256 || s.fld (F.NIB_STATUS_STATE nib) != 3) = false ∧ ((s.lun r.lun).state = .unresponsive || (s.lun r.lun).retired) = true :=
  ⟨sStroke rOf (kOf .read) { lun := 0, retired := true }, 0, 7, 0, false, rOf, kOf .read, by decide⟩

theorem test_nibDescriptors_4 : ∃ (s : State) (nib seq : Nat) (ofs : Int) (busHeld : Bool) (r : Run) (k : Stroke), s.runAt nib seq = some r ∧ s.strokeOf r.req = some k ∧ (r.launched || s.nowAt (islNib nib) < k.due * 256 || s.fld (F.NIB_STATUS_STATE nib) != 3) = false ∧ ((s.lun r.lun).state = .unresponsive || (s.lun r.lun).retired) = false ∧ s.modeForbids k = true :=
  ⟨{ sStroke rOf (kOf .read) with mode := .holdUp }, 0, 7, 0, false, rOf, kOf .read, by decide⟩

theorem test_nibDescriptors_5 : ∃ (s : State) (nib seq : Nat) (ofs : Int) (busHeld : Bool) (r : Run) (k : Stroke), s.runAt nib seq = some r ∧ s.strokeOf r.req = some k ∧ (r.launched || s.nowAt (islNib nib) < k.due * 256 || s.fld (F.NIB_STATUS_STATE nib) != 3) = false ∧ ((s.lun r.lun).state = .unresponsive || (s.lun r.lun).retired) = false ∧ s.modeForbids k = false ∧ (k.writes && s.wpLow nib) = true :=
  ⟨(sStroke rOf (kOf .program)).setFld (F.NIB_CTRL_WP_FORCE 0) 1, 0, 7, 0, false, rOf, kOf .program, by decide⟩

theorem test_nibDescriptors_6 : ∃ (s : State) (nib seq : Nat) (ofs : Int) (busHeld : Bool) (r : Run) (k : Stroke), s.runAt nib seq = some r ∧ s.strokeOf r.req = some k ∧ (r.launched || s.nowAt (islNib nib) < k.due * 256 || s.fld (F.NIB_STATUS_STATE nib) != 3) = false ∧ ((s.lun r.lun).state = .unresponsive || (s.lun r.lun).retired) = false ∧ s.modeForbids k = false ∧ (k.writes && s.wpLow nib) = false ∧ (k.due * 256 < r.accAt) = True :=
  ⟨sStroke { rOf with accAt := 1 } (kOf .read), 0, 7, 0, false, { rOf with accAt := 1 }, kOf .read, by decide⟩

theorem test_nibDescriptors_7 : ∃ (s : State) (nib seq : Nat) (ofs : Int) (busHeld : Bool) (r : Run) (k : Stroke), s.runAt nib seq = some r ∧ s.strokeOf r.req = some k ∧ (r.launched || s.nowAt (islNib nib) < k.due * 256 || s.fld (F.NIB_STATUS_STATE nib) != 3) = false ∧ ((s.lun r.lun).state = .unresponsive || (s.lun r.lun).retired) = false ∧ s.modeForbids k = false ∧ (k.writes && s.wpLow nib) = false ∧ (k.due * 256 < r.accAt) = False ∧ s.lunBusyFor r k = true :=
  ⟨sStroke rOf (kOf .read) { lun := 0, state := .resetting }, 0, 7, 0, false, rOf, kOf .read, by decide⟩

theorem test_nibDescriptors_8 : ∃ (s : State) (nib seq : Nat) (ofs : Int) (busHeld : Bool) (r : Run) (k : Stroke), s.runAt nib seq = some r ∧ s.strokeOf r.req = some k ∧ (r.launched || s.nowAt (islNib nib) < k.due * 256 || s.fld (F.NIB_STATUS_STATE nib) != 3) = false ∧ ((s.lun r.lun).state = .unresponsive || (s.lun r.lun).retired) = false ∧ s.modeForbids k = false ∧ (k.writes && s.wpLow nib) = false ∧ (k.due * 256 < r.accAt) = False ∧ s.lunBusyFor r k = false ∧ (busHeld || s.nib.runs.any (fun y => y.nib == nib && y.seq != seq && seqLater seq y.seq && ((s.strokeOf y.req).map (fun o => o.due == k.due)).getD false)) = true :=
  ⟨sStroke rOf (kOf .read), 0, 7, 0, true, rOf, kOf .read, by decide⟩

theorem test_nibDescriptors_9 : ∃ (s : State) (nib seq : Nat) (ofs : Int) (busHeld : Bool) (r : Run) (k : Stroke), s.runAt nib seq = some r ∧ s.strokeOf r.req = some k ∧ (r.launched || s.nowAt (islNib nib) < k.due * 256 || s.fld (F.NIB_STATUS_STATE nib) != 3) = false ∧ ((s.lun r.lun).state = .unresponsive || (s.lun r.lun).retired) = false ∧ s.modeForbids k = false ∧ (k.writes && s.wpLow nib) = false ∧ (k.due * 256 < r.accAt) = False ∧ s.lunBusyFor r k = false ∧ (busHeld || s.nib.runs.any (fun y => y.nib == nib && y.seq != seq && seqLater seq y.seq && ((s.strokeOf y.req).map (fun o => o.due == k.due)).getD false)) = false :=
  ⟨sStroke rOf (kOf .read), 0, 7, 0, false, rOf, kOf .read, by decide⟩

theorem test_nibRuns_1 : ∃ (s : State) (lun sr : Nat), s.pollDue lun = true ∧ s.pollRoom lun = true :=
  ⟨{ nib := { luns := [{ lun := 0, state := .resetting }] } }, 0, 0x60, by decide⟩

theorem test_nibRuns_2 : ∃ (s : State) (lun sr : Nat), (s.pollDue lun && s.pollRoom lun) = false :=
  ⟨{}, 0, 0x60, by decide⟩

theorem test_nibRuns_3 : ∃ (s : State) (nib seq : Nat) (r : Run) (k : Stroke) (c : QCtx), s.runAt nib seq = some r ∧ s.strokeOf r.req = some k ∧ (!r.launched || r.ready || r.resetWait || r.busyAt (s.nowAt (islNib r.nib)) ≤ s.timeLimit k) = false ∧ s.nib.ctxs.find? (fun x => x.req == r.req && k.op == .script && x.hold != .svc 0) = some c :=
  ⟨{ sStroke { rOf with launched := true } (kOf .script) with
    rul := { a := { count := 256000000000000000000 } }
    nib := { luns := [{ lun := 0 }], runs := [{ rOf with launched := true }], ctxs := [{ nib := 0, ctx := 1, req := 0 }] } }, 0, 7,
    { rOf with launched := true }, kOf .script, { nib := 0, ctx := 1, req := 0 }, by decide⟩

theorem test_nibRuns_4 : ∃ (s : State) (nib seq : Nat) (r : Run) (k : Stroke) (t : Nat), s.runAt nib seq = some r ∧ s.strokeOf r.req = some k ∧ (!r.launched || r.ready || r.resetWait || r.busyAt (s.nowAt (islNib r.nib)) ≤ s.timeLimit k) = false ∧ s.nib.ctxs.find? (fun x => x.req == r.req && k.op == .script && x.hold != .svc 0) = none ∧ (s.lun r.lun).tmoAt = some t ∧ s.now ≤ t + 3600 * secT :=
  ⟨{ sStroke { rOf with launched := true } (kOf .read) with
    rul := { a := { count := 256000000000000000000 } }
    nib := { luns := [{ lun := 0, tmoAt := some 256000000000000000000 }], runs := [{ rOf with launched := true }] } }, 0, 7,
    { rOf with launched := true }, kOf .read, 256000000000000000000, by decide⟩

theorem test_nibRuns_5 : ∃ (s : State) (nib seq : Nat) (r : Run) (k : Stroke), s.runAt nib seq = some r ∧ s.strokeOf r.req = some k ∧ (!r.launched || r.ready || r.resetWait || r.busyAt (s.nowAt (islNib r.nib)) ≤ s.timeLimit k) = false ∧ s.nib.ctxs.find? (fun x => x.req == r.req && k.op == .script && x.hold != .svc 0) = none ∧ (s.lun r.lun).tmoAt = none :=
  ⟨{ sStroke { rOf with launched := true } (kOf .read) with
    rul := { a := { count := 256000000000000000000 } }
    nib := { luns := [{ lun := 0, tmoAt := none }], runs := [{ rOf with launched := true }] } }, 0, 7,
    { rOf with launched := true }, kOf .read, by decide⟩

theorem test_nibRuns_6 : ∃ (s : State) (nib seq : Nat) (r : Run) (k : Stroke) (t : Nat), s.runAt nib seq = some r ∧ s.strokeOf r.req = some k ∧ (!r.launched || r.ready || r.resetWait || r.busyAt (s.nowAt (islNib r.nib)) ≤ s.timeLimit k) = false ∧ s.nib.ctxs.find? (fun x => x.req == r.req && k.op == .script && x.hold != .svc 0) = none ∧ (s.lun r.lun).tmoAt = some t ∧ t + 3600 * secT < s.now :=
  ⟨{ sStroke { rOf with launched := true } (kOf .read) with
    rul := { a := { count := 256000000000000000000 } }
    nib := { luns := [{ lun := 0, tmoAt := some 0 }], runs := [{ rOf with launched := true }] } }, 0, 7,
    { rOf with launched := true }, kOf .read, 0, by decide⟩

theorem test_nibRuns_7 : ∃ (s : State) (lun : Nat), (s.lun lun).state = .resetting ∧ (s.lun lun).resetAt + s.fld (F.NIB_TMO_RST_US (chanOf lun)) * usT ≤ s.now :=
  ⟨{ rul := { a := { count := 256000000000000000000 } }, nib := { luns := [{ lun := 0, state := .resetting }] } }, 0, by decide⟩

theorem test_nibRuns_8 : ∃ (s : State) (nib seq data : Nat) (cell : CellErr) (r : Run) (k : Stroke), s.runAt nib seq = some r ∧ s.strokeOf r.req = some k ∧ r.launched = true ∧ k.op = .program ∧ (s.trimsDue k && data % 2 ^ 32 != s.reg (F.NIB_PTRIM_P1_P4 nib r.rband).key) = true :=
  ⟨(sStroke { rOf with launched := true } (kOf .program)).setFld (F.NIB_PGM_CFG_PTRIM_FADDR 0) 5, 0, 7, 1, .ok, { rOf with launched := true }, kOf .program, by decide⟩

theorem test_nibRuns_9 : ∃ (s : State) (nib seq data c : Nat) (r : Run) (k : Stroke), s.runAt nib seq = some r ∧ s.strokeOf r.req = some k ∧ r.launched = true ∧ k.op = .program ∧ (s.trimsDue k && data % 2 ^ 32 != s.reg (F.NIB_PTRIM_P1_P4 nib r.rband).key) = false :=
  ⟨sStroke { rOf with launched := true } (kOf .program), 0, 7, 0, 3, { rOf with launched := true }, kOf .program, by decide⟩

theorem test_nibRuns_10 : ∃ (s : State) (nib seq data : Nat) (cell : CellErr) (r : Run) (k : Stroke), s.runAt nib seq = some r ∧ s.strokeOf r.req = some k ∧ r.launched = true ∧ k.op = .program ∧ (s.trimsDue k && data % 2 ^ 32 != s.reg (F.NIB_PTRIM_P1_P4 nib r.rband).key) = false ∧ cell.isLost = false :=
  ⟨sStroke { rOf with launched := true } (kOf .program), 0, 7, 0, .ok, { rOf with launched := true }, kOf .program, by decide⟩

theorem test_nibRuns_11 : ∃ (s : State) (nib seq data : Nat) (cell : CellErr) (r : Run) (k : Stroke), s.runAt nib seq = some r ∧ s.strokeOf r.req = some k ∧ r.launched = true ∧ k.op = .feature :=
  ⟨sStroke { rOf with launched := true } (kOf .feature), 0, 7, 0, .ok, { rOf with launched := true }, kOf .feature, by decide⟩

theorem test_nibRuns_12 : ∃ (s : State) (nib seq data : Nat) (cell : CellErr) (r : Run) (k : Stroke), s.runAt nib seq = some r ∧ s.strokeOf r.req = some k ∧ r.launched = true ∧ k.op = .script :=
  ⟨sStroke { rOf with launched := true } (kOf .script), 0, 7, 0, .ok, { rOf with launched := true }, kOf .script, by decide⟩

theorem test_nibRuns_13 : ∃ (s : State) (nib seq data : Nat) (cell : CellErr) (r : Run) (k : Stroke), s.runAt nib seq = some r ∧ s.strokeOf r.req = some k ∧ r.launched = true ∧ (k.op = .read ∨ k.op = .readSoft) :=
  ⟨sStroke { rOf with launched := true } (kOf .read), 0, 7, 0, .ok, { rOf with launched := true }, kOf .read, by decide⟩

theorem test_nibRuns_14 : ∃ (s : State) (nib seq : Nat) (ok : Bool) (bits unsat : Nat) (mis : Bool) (pband : Nat) (r : Run) (k : Stroke), s.runAt nib seq = some r ∧ s.strokeOf r.req = some k ∧ k.op ≠ .script ∧ (r.cwLeft = 0 || !r.ready || !r.xfer) = false :=
  ⟨sStroke { rOf with cwLeft := 2, ready := true, xfer := true } (kOf .read), 0, 7, true, 3, 0, false, 2, { rOf with cwLeft := 2, ready := true, xfer := true }, kOf .read, by decide⟩

theorem test_nibRuns_15 : ∃ (s : State) (nib seq : Nat) (ok : Bool) (bits unsat : Nat) (mis : Bool) (pband : Nat) (r : Run) (k : Stroke) (x : QCtx), s.runAt nib seq = some r ∧ s.strokeOf r.req = some k ∧ k.op = .script ∧ s.nib.ctxs.find? (fun x => x.req == r.req) = some x ∧ 0 < x.decoding :=
  ⟨{ sStroke rOf (kOf .script) with nib := { runs := [rOf], ctxs := [{ nib := 0, ctx := 1, req := 0, decoding := 1 }] } }, 0, 7, true, 3, 0, false, 2,
    rOf, kOf .script, { nib := 0, ctx := 1, req := 0, decoding := 1 }, by decide⟩

theorem test_nibUpkeep_1 : ∃ (s : State) (nib : Nat), (s.mode = .off || s.mode = .doze || s.mode = .holdUp || s.nibMasked nib) = false ∧ (match s.nib.tempAsked.lookup nib with | some t => decide (s.nowAt (islNib nib) < t + s.fld (F.NIB_TEMP_PERIOD nib) * msT) | none => false) = false ∧ s.fld (F.NIB_TEMP_FADDR nib) = 0 :=
  ⟨({ mode := .run } : State).setFld (F.NIB_TEMP_FADDR 0) 0, 0, by decide⟩

theorem test_nibUpkeep_2 : ∃ (s : State) (nib : Nat), (s.mode = .off || s.mode = .doze || s.mode = .holdUp || s.nibMasked nib) = false ∧ (match s.nib.tempAsked.lookup nib with | some t => decide (s.nowAt (islNib nib) < t + s.fld (F.NIB_TEMP_PERIOD nib) * msT) | none => false) = false ∧ s.fld (F.NIB_TEMP_FADDR nib) ≠ 0 :=
  ⟨({ mode := .run } : State).setFld (F.NIB_TEMP_FADDR 0) 5, 0, by decide⟩

theorem test_nibUpkeep_3 : ∃ (s : State) (lun : Nat), ((s.lun lun).state = .notPresent || s.now < (s.lun lun).tempAt + 10 * secT || s.mode = .off || s.mode = .doze || s.fld (F.NIB_TEMP_FADDR (chanOf lun)) = 0) = false :=
  ⟨({ mode := .run, rul := { a := { count := 256000000000000000000 } }, nib := { luns := [{ lun := 0 }] } } : State).setFld (F.NIB_TEMP_FADDR 0) 5, 0, by decide⟩

theorem test_nibUpkeep_4 : ∃ (s : State) (nib : Nat), (s.nib.train.contains nib || (s.fld (F.NIB_TRAIN_PERIOD_S nib) != 0 && ((s.nib.trained.lookup nib).getD 0) + s.fld (F.NIB_TRAIN_PERIOD_S nib) * secT ≤ s.now)) = true ∧ (s.fld (F.NIB_STATUS_STATE nib) != 3 || s.mode = .off || s.mode = .doze || s.mode = .holdUp) = false :=
  ⟨({ mode := .run, nib := { train := [0] } } : State).setFld (F.NIB_STATUS_STATE 0) 3, 0, by decide⟩

theorem test_nibUpkeep_5 : ∃ (s : State) (nib : Nat), s.mode ≠ .off ∧ nib < 48 :=
  ⟨{ mode := .run }, 0, by decide⟩

theorem test_nibUpkeep_6 : ∃ (s : State) (nib : Nat), s.mode ≠ .off ∧ s.mode ≠ .doze :=
  ⟨{ mode := .run }, 0, by decide⟩

theorem test_nibUpkeep_7 : ∃ (s : State) (nib addr : Nat) (bad : Bool), (s.mode = .off || s.mode = .doze || !s.flag (F.NIB_Q_CTRL_SCRUB_EN nib) || s.nibMasked nib) = false :=
  ⟨({ mode := .run } : State).setFld (F.NIB_Q_CTRL_SCRUB_EN 0) 1, 0, 0, true, by decide⟩

theorem test_nibUpkeep_8 : ∃ (s : State) (nib : Nat) (badTargets : List Nat), s.fld (F.NIB_STATUS_STATE nib) = 5 :=
  ⟨({ mode := .run } : State).setFld (F.NIB_STATUS_STATE 0) 5, 0, [], by decide⟩

theorem test_quillWords_1 : ∃ (s : State) (nib ctx : Nat) (q : QIn) (x : QCtx) (f : Fetched) (rest : List Fetched), s.issues nib = some x ∧ x.queue = f :: rest ∧ x.ctx = ctx ∧ mMop f.micro = 0 ∧ (s.tookTurn nib ctx).badWord x f = none :=
  ⟨sCtx (fOf 0 0x1800), 0, 1, {}, xOf (fOf 0 0x1800), fOf 0 0x1800, [], by decide⟩

theorem test_quillWords_2 : ∃ (s : State) (nib ctx : Nat) (q : QIn) (x : QCtx) (f : Fetched) (rest : List Fetched), s.issues nib = some x ∧ x.queue = f :: rest ∧ x.ctx = ctx ∧ mMop f.micro = 1 ∧ (s.tookTurn nib ctx).badWord x f = none :=
  ⟨sCtx (fOf 1 0x1800), 0, 1, {}, xOf (fOf 1 0x1800), fOf 1 0x1800, [], by decide⟩

theorem test_quillWords_3 : ∃ (s : State) (nib ctx : Nat) (q : QIn) (x : QCtx) (f : Fetched) (rest : List Fetched), s.issues nib = some x ∧ x.queue = f :: rest ∧ x.ctx = ctx ∧ mMop f.micro = 2 ∧ (s.tookTurn nib ctx).badWord x f = none :=
  ⟨sCtx (fOf 2 0x1800), 0, 1, {}, xOf (fOf 2 0x1800), fOf 2 0x1800, [], by decide⟩

theorem test_quillWords_4 : ∃ (s : State) (nib ctx : Nat) (q : QIn) (x : QCtx) (f : Fetched) (rest : List Fetched), s.issues nib = some x ∧ x.queue = f :: rest ∧ x.ctx = ctx ∧ mMop f.micro = 3 ∧ (s.tookTurn nib ctx).badWord x f = none :=
  ⟨sCtx (fOf 3 0x1800), 0, 1, {}, xOf (fOf 3 0x1800), fOf 3 0x1800, [], by decide⟩

theorem test_quillWords_5 : ∃ (s : State) (nib ctx : Nat) (q : QIn) (x : QCtx) (f : Fetched) (rest : List Fetched), s.issues nib = some x ∧ x.queue = f :: rest ∧ x.ctx = ctx ∧ mMop f.micro = 5 ∧ (s.tookTurn nib ctx).badWord x f = none :=
  ⟨sCtx (fOf 5 0x1800), 0, 1, {}, xOf (fOf 5 0x1800), fOf 5 0x1800, [], by decide⟩

theorem test_quillWords_6 : ∃ (s : State) (nib ctx : Nat) (q : QIn) (x : QCtx) (f : Fetched) (rest : List Fetched), s.issues nib = some x ∧ x.queue = f :: rest ∧ x.ctx = ctx ∧ mMop f.micro = 6 ∧ (s.tookTurn nib ctx).badWord x f = none :=
  ⟨sCtx (fOf 6 0x1800), 0, 1, {}, xOf (fOf 6 0x1800), fOf 6 0x1800, [], by decide⟩

theorem test_quillWords_7 : ∃ (s : State) (nib ctx : Nat) (q : QIn) (x : QCtx) (f : Fetched) (rest : List Fetched), s.issues nib = some x ∧ x.queue = f :: rest ∧ x.ctx = ctx ∧ mMop f.micro = 7 ∧ (s.tookTurn nib ctx).badWord x f = none :=
  ⟨sCtx (fOf 7 0x1800), 0, 1, {}, xOf (fOf 7 0x1800), fOf 7 0x1800, [], by decide⟩

theorem test_quillWords_8 : ∃ (s : State) (nib ctx : Nat) (q : QIn) (x : QCtx) (f : Fetched) (rest : List Fetched), s.issues nib = some x ∧ x.queue = f :: rest ∧ x.ctx = ctx ∧ mMop f.micro = 8 ∧ (s.tookTurn nib ctx).badWord x f = none :=
  ⟨sCtx (fOf 8 0x1800), 0, 1, {}, xOf (fOf 8 0x1800), fOf 8 0x1800, [], by decide⟩

theorem test_quillWords_9 : ∃ (s : State) (nib ctx : Nat) (q : QIn) (x : QCtx) (f : Fetched) (rest : List Fetched), s.issues nib = some x ∧ x.queue = f :: rest ∧ x.ctx = ctx ∧ mMop f.micro = 9 ∧ (s.tookTurn nib ctx).badWord x f = none :=
  ⟨sCtx (fOf 9 5), 0, 1, {}, xOf (fOf 9 5), fOf 9 5, [], by decide⟩

theorem test_quillWords_10 : ∃ (s : State) (nib ctx : Nat) (q : QIn) (x : QCtx) (f : Fetched) (rest : List Fetched), s.issues nib = some x ∧ x.queue = f :: rest ∧ x.ctx = ctx ∧ mMop f.micro = 4 ∧ (s.tookTurn nib ctx).badWord x f = none ∧ inScr (mTgt f.micro) = true :=
  ⟨sCtx (fOf 4 0x1800), 0, 1, {}, xOf (fOf 4 0x1800), fOf 4 0x1800, [], by decide⟩

theorem test_quillWords_11 : ∃ (s : State) (nib ctx : Nat) (q : QIn) (x : QCtx) (f : Fetched) (rest : List Fetched), s.issues nib = some x ∧ x.queue = f :: rest ∧ x.ctx = ctx ∧ mMop f.micro = 4 ∧ (s.tookTurn nib ctx).badWord x f = none ∧ inScr (mTgt f.micro) = false ∧ mTgt f.micro = 0 :=
  ⟨sCtx (fOf 4 0), 0, 1, {}, xOf (fOf 4 0), fOf 4 0, [], by decide⟩

theorem test_quillWords_12 : ∃ (s : State) (nib ctx : Nat) (q : QIn) (x : QCtx) (f : Fetched) (rest : List Fetched), s.issues nib = some x ∧ x.queue = f :: rest ∧ x.ctx = ctx ∧ mMop f.micro = 4 ∧ (s.tookTurn nib ctx).badWord x f = none ∧ inScr (mTgt f.micro) = false ∧ mTgt f.micro = 1 :=
  ⟨sCtx (fOf 4 1), 0, 1, {}, xOf (fOf 4 1), fOf 4 1, [], by decide⟩

theorem test_quillWords_13 : ∃ (s : State) (nib ctx : Nat) (q : QIn) (x : QCtx) (f : Fetched) (rest : List Fetched), s.issues nib = some x ∧ x.queue = f :: rest ∧ x.ctx = ctx ∧ mMop f.micro = 4 ∧ (s.tookTurn nib ctx).badWord x f = none ∧ inScr (mTgt f.micro) = false ∧ mTgt f.micro = 2 :=
  ⟨sCtx (fOf 4 2), 0, 1, {}, xOf (fOf 4 2), fOf 4 2, [], by decide⟩

theorem test_quillWords_14 : ∃ (s : State) (nib ctx : Nat) (q : QIn) (x : QCtx) (f : Fetched) (rest : List Fetched), s.issues nib = some x ∧ x.queue = f :: rest ∧ x.ctx = ctx ∧ mMop f.micro = 4 ∧ (s.tookTurn nib ctx).badWord x f = none ∧ inScr (mTgt f.micro) = false ∧ 2 < mTgt f.micro :=
  ⟨sCtx (fOf 4 3), 0, 1, {}, xOf (fOf 4 3), fOf 4 3, [], by decide⟩

theorem test_quillWords_15 : ∃ (s : State) (nib ctx : Nat) (q : QIn) (x : QCtx) (f : Fetched) (rest : List Fetched), s.issues nib = some x ∧ x.queue = f :: rest ∧ x.ctx = ctx ∧ mMop f.micro = 10 ∧ (s.tookTurn nib ctx).badWord x f = none :=
  ⟨sCtx (fOf 10 0x1800), 0, 1, {}, xOf (fOf 10 0x1800), fOf 10 0x1800, [], by decide⟩

theorem test_quillWords_16 : ∃ (s : State) (nib ctx : Nat) (x : QCtx) (f : Fetched) (rest : List Fetched) (r : Run) (k : Stroke), s.issues nib = some x ∧ x.queue = f :: rest ∧ x.ctx = ctx ∧ mMop f.micro = 11 ∧ (s.tookTurn nib ctx).badWord x f = none ∧ (((s.tookTurn nib ctx).nanoExec x f.nano 0).1.setCtx ((s.tookTurn nib ctx).nanoExec x f.nano 0).2).nib.runs.find? (fun r => r.nib == ((s.tookTurn nib ctx).nanoExec x f.nano 0).2.nib && r.req == ((s.tookTurn nib ctx).nanoExec x f.nano 0).2.req) = some r ∧ (((s.tookTurn nib ctx).nanoExec x f.nano 0).1.setCtx ((s.tookTurn nib ctx).nanoExec x f.nano 0).2).strokeOf ((s.tookTurn nib ctx).nanoExec x f.nano 0).2.req = some k :=
  ⟨sCtx (fOf 11 0), 0, 1, xOf (fOf 11 0), fOf 11 0, [], { rOf with launched := true }, kOf .script, by decide⟩

theorem test_quillWords_17 : ∃ (s : State) (nib ctx cause : Nat) (q : QIn) (x : QCtx) (f : Fetched) (rest : List Fetched), s.issues nib = some x ∧ x.queue = f :: rest ∧ x.ctx = ctx ∧ (s.tookTurn nib ctx).badWord x f = some cause :=
  ⟨sCtx { fOf 0 0 with micro := 0 }, 0, 1, 4, {}, xOf { fOf 0 0 with micro := 0 }, { fOf 0 0 with micro := 0 }, [], by decide⟩

theorem test_quillWords_18 : ∃ (s : State) (nib ctx c : Nat) (x : QCtx), s.ctxAt nib ctx = some x ∧ x.hold = .wait c ∧ x.abort = true :=
  ⟨sHold (.wait 0) true, 0, 1, 0, { xOf (fOf 0 0) with hold := .wait 0, abort := true }, by decide⟩

theorem test_quillWords_19 : ∃ (s : State) (nib ctx c : Nat) (x : QCtx), s.ctxAt nib ctx = some x ∧ x.hold = .wait c ∧ x.abort = false ∧ s.cond x c = true :=
  ⟨sHold (.wait 0) false, 0, 1, 0, { xOf (fOf 0 0) with hold := .wait 0, abort := false }, by decide⟩

theorem test_quillWords_20 : ∃ (s : State) (nib ctx c : Nat) (x : QCtx), s.ctxAt nib ctx = some x ∧ x.hold = .wline c ∧ x.abort = true :=
  ⟨sHold (.wline 0) true, 0, 1, 0, { xOf (fOf 0 0) with hold := .wline 0, abort := true }, by decide⟩

theorem test_quillWords_21 : ∃ (s : State) (nib ctx c : Nat) (x : QCtx), s.ctxAt nib ctx = some x ∧ x.hold = .wline c ∧ x.abort = false ∧ c ≤ s.rul.lineIdx :=
  ⟨sHold (.wline 0) false, 0, 1, 0, { xOf (fOf 0 0) with hold := .wline 0, abort := false }, by decide⟩

theorem test_quillWords_22 : ∃ (s : State) (nib ctx : Nat) (x : QCtx), s.ctxAt nib ctx = some x ∧ x.tmRun = true ∧ x.tm ≤ s.nowAt (islNib nib) :=
  ⟨sTm, 0, 1, { xOf (fOf 0 0) with tmRun := true }, by decide⟩

theorem test_quillWords_23 : ∃ (s : State) (nib seq : Nat) (par : Par) (r : Run) (k : Stroke), s.runAt nib seq = some r ∧ s.strokeOf r.req = some k ∧ (k.op = .suspend || k.op = .resume || s.nowAt (islNib r.nib) + 64 * nsT < k.due * 256 || s.nib.ctxs.any (fun x => x.req == r.req) || s.fld (F.NIB_STATUS_STATE nib) != 3) = false :=
  ⟨sStroke rOf (kOf .read), 0, 7, .ok, rOf, kOf .read, by decide⟩

theorem test_linkAndResets_1 : ∃ (s : State) (port rate width faulty : Nat) (flit : Bool), (!s.hasPort port || !((s.hp.ports[port]?).map (fun p => p.training)).getD false || s.mode = .off || s.mode = .holdUp) = false :=
  ⟨({ mode := .run, hp := { ports := [{ training := true }, {}] } } : State), 0, 5, 4, 0, false, by decide⟩

theorem test_linkAndResets_2 : ∃ (s : State) (port : Nat) (p : Port), s.hp.ports[port]? = some p ∧ s.hasPort port = true ∧ s.fld (F.HP_LINK_CFG_RETRY_MIN port) ≠ 0 ∧ s.portBelow port = true ∧ s.portBusy port = false ∧ p.tried + s.fld (F.HP_LINK_CFG_RETRY_MIN port) * 60 * secT ≤ s.now :=
  ⟨((({ mode := .run, rul := { a := { count := 256000000000000000000 } } } : State).setFld (F.HP_LINK_STATUS_UP 0) 1).setFld (F.HP_LINK_STATUS_SPEED 0) 1).setFld (F.HP_LINK_CFG_RETRY_MIN 0) 1, 0, {}, by decide⟩

theorem test_linkAndResets_3 : ∃ (s : State) (port : Nat), s.hasPort port = true ∧ s.flag (F.HP_LINK_STATUS_UP port) = true :=
  ⟨({ mode := .run } : State).setFld (F.HP_LINK_STATUS_UP 0) 1, 0, by decide⟩

theorem test_linkAndResets_4 : ∃ (s : State) (port : Nat), s.hasPort port = true ∧ s.flag (F.HP_LINK_STATUS_UP port) = true :=
  ⟨({ mode := .run } : State).setFld (F.HP_LINK_STATUS_UP 0) 1, 0, by decide⟩

theorem test_linkAndResets_5 : ∃ (s : State) (port : Nat) (p : Port), s.hp.ports[port]? = some p ∧ p.perst = false ∧ s.mode ≠ .off ∧ s.hasPort port = true :=
  ⟨{ mode := .run, hp := { ports := [{ perst := false }, {}] } }, 0, { perst := false }, by decide⟩

theorem test_linkAndResets_6 : ∃ (s : State) (port : Nat) (p : Port), s.hp.ports[port]? = some p ∧ (s.mode = .off ∨ s.hasPort port = false) :=
  ⟨{ mode := .off, hp := { ports := [{ perst := false }, {}] } }, 0, { perst := false }, by decide⟩

theorem test_linkAndResets_7 : ∃ (s : State) (port : Nat) (strap : Bool), (s.mode = .off ∨ s.mode = .holdUp) ∧ s.hp.sampled = true :=
  ⟨{ mode := .off, hp := { sampled := true } }, 0, false, by decide⟩

theorem test_linkAndResets_8 : ∃ (s : State) (port : Nat) (strap : Bool), (s.mode = .off || s.mode = .holdUp) = false ∧ s.hp.sampled = true :=
  ⟨{ mode := .run, hp := { sampled := true } }, 0, false, by decide⟩

theorem test_linkAndResets_9 : ∃ (s : State) (strap : Bool), s.mode = .boot ∧ s.hp.sampled = false :=
  ⟨{ mode := .boot, hp := { sampled := false } }, false, by decide⟩

theorem test_linkAndResets_10 : ∃ (s : State) (fn : Nat), s.qe.ctrls.any (fun c => c.id == fn) = true ∧ s.mode ≠ .off :=
  ⟨sRun, 0, by decide⟩

theorem test_linkAndResets_11 : ∃ (s : State) (port : Nat) (cfg : CfgSpace), (!s.hasPort port || !s.flag (F.HP_LINK_STATUS_UP port) || ((s.hp.ports[port]?).map (fun p => p.training)).getD true) = false :=
  ⟨(({ mode := .run } : State).setFld (F.HP_LINK_STATUS_UP 0) 1), 0, {}, by decide⟩

theorem test_hostTransfers_1 : ∃ (s : State) (what : MemRead) (res : MemIn), s.mode ≠ .off ∧ s.mode ≠ .holdUp :=
  ⟨{ mode := .run }, .list .side, { res := .fail }, by decide⟩

theorem test_hostTransfers_2 : ∃ (s : State) (what : MemRead), s.mode ≠ .off ∧ s.mode ≠ .holdUp ∧ s.readLate what = true :=
  ⟨{ mode := .run, hp := { reads := [{ fn := 0, port := 0, what := .list (.host 0 1 1), todo := [], out := [{ no := 0, at_ := 0, page := none }] }] }, rul := { a := { count := 256000000000 } } }, .list (.host 0 1 1), by decide⟩

theorem test_hostTransfers_3 : ∃ (s : State) (port itag fn lo n : Nat) (waits : List (Ref × Nat)), (!s.hasPort port || s.mode = .off || s.mode = .holdUp) = false :=
  ⟨{ mode := .run }, 0, 1, 0, 0, 4, [], by decide⟩

theorem test_hostTransfers_4 : ∃ (s : State) (port : Nat) (v : Inval), s.mode ≠ .off ∧ (s.invalsOpen port).find? (fun v => v.step2.isSome) = some v :=
  ⟨{ mode := .run, hp := { invals := [{ port := 0, itag := 3, fn := 0, lo := 0, n := 1, at_ := 0, waits := [], step2 := some 0 }] } }, 0, { port := 0, itag := 3, fn := 0, lo := 0, n := 1, at_ := 0, waits := [], step2 := some 0 }, by decide⟩

theorem test_hostTransfers_5 : ∃ (s : State) (port fn page xlat issued : Nat), s.mode ≠ .off ∧ s.hp.ats.contains fn = true ∧ s.hp.invals.any (fun v => v.port == port && v.fn == fn && v.lo ≤ page && page < v.lo + v.n && issued < v.at_) = false :=
  ⟨{ mode := .run, hp := { ats := [0] } }, 0, 0, 5, 9, 0, by decide⟩

theorem test_hostTransfers_6 : ∃ (s : State) (port fn page xlat issued : Nat), s.mode ≠ .off ∧ s.hp.ats.contains fn = true ∧ s.hp.invals.any (fun v => v.port == port && v.fn == fn && v.lo ≤ page && page < v.lo + v.n && issued < v.at_) = true :=
  ⟨{ mode := .run, hp := { ats := [0], invals := [{ port := 0, itag := 3, fn := 0, lo := 0, n := 9, at_ := 1, waits := [], step2 := none }] } }, 0, 0, 5, 9, 0, by decide⟩

theorem test_hostTransfers_7 : ∃ (s : State) (port width : Nat) (p : Port), s.hp.ports[port]? = some p ∧ (s.hasPort port && s.flag (F.HP_LINK_STATUS_FLIT port) && s.flag (F.HP_LINK_STATUS_UP port)) = true :=
  ⟨(({ mode := .run } : State).setFld (F.HP_LINK_STATUS_UP 0) 1).setFld (F.HP_LINK_STATUS_FLIT 0) 1, 0, 2, {}, by decide⟩

theorem test_hostTransfers_8 : ∃ (s : State) (fn : Nat), s.qe.ctrls.any (fun c => c.id == fn) = true ∧ s.hp.d3hot.contains fn = false ∧ s.mode ≠ .off :=
  ⟨sRun, 0, by decide⟩

theorem test_hostTransfers_9 : ∃ (s : State) (fn : Nat), s.hp.d3hot.contains fn = true :=
  ⟨{ hp := { d3hot := [0] } }, 0, by decide⟩

theorem test_hostTransfers_10 : ∃ (s : State) (fn : Nat) (vec : MaskWrite), s.qe.ctrls.any (fun c => c.id == fn) = true ∧ maskBitOf fn vec.bit = true ∧ s.mode ≠ .off ∧ s.mode ≠ .holdUp :=
  ⟨sRun, 0, { bit := .msix 4 }, by decide⟩

theorem test_hostTransfers_11 : ∃ (s : State) (pf kind len : Nat), s.qe.ctrls.any (fun c => c.id == pf) = true ∧ pf < 2 ∧ s.hp.doe.getD pf 0 = 0 ∧ s.mode ≠ .off ∧ 65536 < len :=
  ⟨sRun, 0, 1, 65537, by decide⟩

theorem test_hostTransfers_12 : ∃ (s : State) (pf kind len : Nat), s.qe.ctrls.any (fun c => c.id == pf) = true ∧ pf < 2 ∧ s.hp.doe.getD pf 0 = 0 ∧ s.mode ≠ .off ∧ len ≤ 65536 ∧ kind = 0 :=
  ⟨sRun, 0, 0, 64, by decide⟩

theorem test_hostTransfers_13 : ∃ (s : State) (pf kind len : Nat), s.qe.ctrls.any (fun c => c.id == pf) = true ∧ pf < 2 ∧ s.hp.doe.getD pf 0 = 0 ∧ s.mode ≠ .off ∧ len ≤ 65536 ∧ (kind = 1 ∨ kind = 2) :=
  ⟨sRun, 0, 2, 64, by decide⟩

theorem test_hostTransfers_14 : ∃ (s : State) (pf : Nat), pf < 2 :=
  ⟨sRun, 1, by decide⟩

theorem test_hostTransfers_15 : ∃ (s : State) (pf kind len : Nat), s.qe.ctrls.any (fun c => c.id == pf) = true ∧ pf < 2 ∧ s.hp.doe.getD pf 0 = 0 ∧ s.mode ≠ .off ∧ len ≤ 65536 ∧ 2 < kind :=
  ⟨sRun, 0, 3, 64, by decide⟩

theorem test_hostTransfers_16 : ∃ (s : State) (port : Nat), s.hasPort port = true ∧ s.qe.ctrls.any (fun c => c.id == port) = true :=
  ⟨sRun, 0, by decide⟩

theorem test_doorbellsAndArbitration_1 : ∃ (s : State) (ctrl qid value : Nat) (isCq : Bool), (s.mode = .off || s.mode = .holdUp || !s.qe.ctrls.any (fun c => c.id == ctrl) || doorbells ctrl ≤ qid) = false :=
  ⟨sRun, 0, 1, 3, false, by decide⟩

theorem test_doorbellsAndArbitration_2 : ∃ (s : State) (ctrl qid value : Nat) (q : Cq), (s.mode = .off || s.mode = .holdUp || !s.qe.ctrls.any (fun c => c.id == ctrl) || doorbells ctrl ≤ qid) = false ∧ (s.wakeEvent 6).cq ctrl qid = some q ∧ value < q.size :=
  ⟨sQueues, 0, 0, 3, { ctrl := 0, qid := 0, size := 8 }, by decide⟩

theorem test_doorbellsAndArbitration_3 : ∃ (s : State) (ctrl qid value : Nat) (q : Cq), (s.mode = .off || s.mode = .holdUp || !s.qe.ctrls.any (fun c => c.id == ctrl) || doorbells ctrl ≤ qid) = false ∧ (s.wakeEvent 6).cq ctrl qid = some q ∧ q.size ≤ value :=
  ⟨sQueues, 0, 0, 8, { ctrl := 0, qid := 0, size := 8 }, by decide⟩

theorem test_doorbellsAndArbitration_4 : ∃ (s : State) (ctrl qid value : Nat) (q : Sq), (s.mode = .off || s.mode = .holdUp || !s.qe.ctrls.any (fun c => c.id == ctrl) || doorbells ctrl ≤ qid) = false ∧ (s.wakeEvent 6).sq ctrl qid = some q ∧ value < q.size :=
  ⟨sQueues, 0, 0, 3, { ctrl := 0, qid := 0, size := 8 }, by decide⟩

theorem test_doorbellsAndArbitration_5 : ∃ (s : State) (ctrl qid value : Nat) (q : Sq), (s.mode = .off || s.mode = .holdUp || !s.qe.ctrls.any (fun c => c.id == ctrl) || doorbells ctrl ≤ qid) = false ∧ (s.wakeEvent 6).sq ctrl qid = some q ∧ q.size ≤ value :=
  ⟨sQueues, 0, 0, 8, { ctrl := 0, qid := 0, size := 8 }, by decide⟩

theorem test_doorbellsAndArbitration_6 : ∃ (s : State) (ctrl qid value : Nat) (heads : List (Nat × Nat)) (k : Ctrl) (q : Sq), s.ctrl ctrl = some k ∧ s.sq ctrl qid = some q ∧ k.shadowDb = true ∧ q.active = true ∧ s.fetches = true ∧ s.hp.d3hot.contains ctrl = false ∧ value < q.size :=
  ⟨{ sQueues with qe := { ctrls := [{ id := 0, shadowDb := true }], sqs := [{ ctrl := 0, qid := 1, size := 8, active := true }] } }, 0, 1, 3, [], { id := 0, shadowDb := true }, { ctrl := 0, qid := 1, size := 8, active := true }, by decide⟩

theorem test_doorbellsAndArbitration_7 : ∃ (s : State) (ctrl qid value : Nat) (heads : List (Nat × Nat)) (k : Ctrl) (q : Sq), s.ctrl ctrl = some k ∧ s.sq ctrl qid = some q ∧ k.shadowDb = true ∧ q.active = true ∧ s.fetches = true ∧ s.hp.d3hot.contains ctrl = false ∧ q.size ≤ value :=
  ⟨{ sQueues with qe := { ctrls := [{ id := 0, shadowDb := true }], sqs := [{ ctrl := 0, qid := 1, size := 8, active := true }] } }, 0, 1, 8, [], { id := 0, shadowDb := true }, { ctrl := 0, qid := 1, size := 8, active := true }, by decide⟩

theorem test_doorbellsAndArbitration_8 : ∃ (s : State) (ctrl qid : Nat) (k : Ctrl) (q : Sq), s.ctrl ctrl = some k ∧ s.sq ctrl qid = some q ∧ k.shadowDb = true ∧ q.active = true ∧ q.lastNew + 100 * usT ≤ s.now :=
  ⟨{ sQueues with rul := { a := { count := 256000000000 } }, qe := { ctrls := [{ id := 0, shadowDb := true }], sqs := [{ ctrl := 0, qid := 1, size := 8, active := true }] } }, 0, 1, { id := 0, shadowDb := true }, { ctrl := 0, qid := 1, size := 8, active := true }, by decide⟩

theorem test_doorbellsAndArbitration_9 : ∃ (s : State) (c : Nat) (q : Sq), s.fetches = true ∧ s.qe.fetchHold = false ∧ s.freeTags true ≠ 0 ∧ nextAfter s.qe.rrAdmin ((s.qe.sqs.filter (fun q => q.qid == 0 && q.head != q.tail && ((s.ctrl q.ctrl).map s.ctrlFetches).getD false)).map (fun q => q.ctrl)) = some c ∧ s.sq c 0 = some q :=
  ⟨{ sQueues with qe := { sQueues.qe with sqs := [{ ctrl := 0, qid := 0, size := 8, tail := 2 }] } }, 0, { ctrl := 0, qid := 0, size := 8, tail := 2 }, by decide⟩

theorem test_doorbellsAndArbitration_10 : ∃ (s : State) (c : Nat) (k : Ctrl) (q : Sq), s.fetches = true ∧ s.qe.fetchHold = false ∧ ((s.freeTags true = 0 ∨ nextAfter s.qe.rrAdmin ((s.qe.sqs.filter (fun q => q.qid == 0 && q.head != q.tail && ((s.ctrl q.ctrl).map s.ctrlFetches).getD false)).map (fun q => q.ctrl)) = none)) ∧ nextAfter s.qe.rrUrgent ((s.qe.ctrls.filter (fun k => !(s.readyIn k 0).isEmpty)).map (fun k => k.id)) = some c ∧ s.ctrl c = some k ∧ (s.nextSq k 0).bind (s.sq c) = some q :=
  ⟨sUrgent, 0, { id := 0, en := true, rdy := true, ams := 1 }, { ctrl := 0, qid := 1, size := 8, tail := 2 }, by decide⟩

theorem test_doorbellsAndArbitration_11 : ∃ (s : State), s.fetches = true ∧ s.qe.fetchHold = false ∧ ((s.freeTags true = 0 ∨ nextAfter s.qe.rrAdmin ((s.qe.sqs.filter (fun q => q.qid == 0 && q.head != q.tail && ((s.ctrl q.ctrl).map s.ctrlFetches).getD false)).map (fun q => q.ctrl)) = none)) ∧ nextAfter s.qe.rrUrgent ((s.qe.ctrls.filter (fun k => !(s.readyIn k 0).isEmpty)).map (fun k => k.id)) = none :=
  ⟨sQueues, by decide⟩

theorem test_controllersAndQueues_1 : ∃ (s : State) (ctrl asqs acqs : Nat) (ams : CcWrite) (k : Ctrl), s.ctrl ctrl = some k ∧ k.en = false ∧ s.mode ≠ .off ∧ s.mode ≠ .holdUp ∧ (1 ≤ asqs && asqs < 4096 && 1 ≤ acqs && acqs < 4096) = true :=
  ⟨{ mode := .run, qe := { ctrls := [{ id := 0 }] } }, 0, 1, 4095, {}, { id := 0 }, by decide⟩

theorem test_controllersAndQueues_2 : ∃ (s : State) (ctrl asqs acqs : Nat) (ams : CcWrite) (k : Ctrl), s.ctrl ctrl = some k ∧ k.en = false ∧ s.mode ≠ .off ∧ s.mode ≠ .holdUp ∧ (1 ≤ asqs && asqs < 4096 && 1 ≤ acqs && acqs < 4096) = false :=
  ⟨{ mode := .run, qe := { ctrls := [{ id := 0 }] } }, 0, 0, 2, {}, { id := 0 }, by decide⟩

theorem test_controllersAndQueues_3 : ∃ (s : State) (ctrl : Nat) (k : Ctrl), s.ctrl ctrl = some k ∧ k.en = true ∧ s.mode ≠ .off ∧ s.mode ≠ .holdUp :=
  ⟨sRun, 0, { id := 0, en := true, rdy := true }, by decide⟩

theorem test_controllersAndQueues_4 : ∃ (s : State) (ctrl : Nat) (k : Ctrl), s.ctrl ctrl = some k ∧ k.en = true ∧ k.shst = 0 ∧ s.mode ≠ .off ∧ s.mode ≠ .holdUp :=
  ⟨sRun, 0, { id := 0, en := true, rdy := true }, by decide⟩

theorem test_controllersAndQueues_5 : ∃ (s : State) (ctrl : Nat) (k : Ctrl), s.ctrl ctrl = some k ∧ k.en = true ∧ k.shst = 0 ∧ s.mode ≠ .off ∧ s.mode ≠ .holdUp :=
  ⟨sRun, 0, { id := 0, en := true, rdy := true }, by decide⟩

theorem test_controllersAndQueues_6 : ∃ (s : State) (ref : Ref) (qid qsize cqid prio : Nat) (pc : Bool), s.accepts ref = true ∧ pc = false :=
  ⟨sGrant, .host 0 0 1, 1, 7, 1, 0, false, by decide⟩

theorem test_controllersAndQueues_7 : ∃ (s : State) (ref : Ref) (qid qsize cqid prio : Nat), s.accepts ref = true ∧ qidRefused qid (((s.latch ref).ctrl (ctrlIx ref)).getD { id := ctrlIx ref }).grantSq (((s.latch ref).qe.sqs.filter (fun q => q.ctrl == ctrlIx ref)).map (fun q => q.qid)) ((s.latch ref).qe.sqs.map (fun q => q.qid)) = true :=
  ⟨sGrant, .host 0 0 1, 0, 7, 1, 0, by decide⟩

theorem test_controllersAndQueues_8 : ∃ (s : State) (ref : Ref) (qid qsize cqid prio : Nat), s.accepts ref = true ∧ qidRefused qid (((s.latch ref).ctrl (ctrlIx ref)).getD { id := ctrlIx ref }).grantSq (((s.latch ref).qe.sqs.filter (fun q => q.ctrl == ctrlIx ref)).map (fun q => q.qid)) ((s.latch ref).qe.sqs.map (fun q => q.qid)) = false ∧ (qsize = 0 || 65536 ≤ qsize || (((s.latch ref).ctrl (ctrlIx ref)).getD { id := ctrlIx ref }).iosqes != 6) = true :=
  ⟨sGrant, .host 0 0 1, 1, 0, 1, 0, by decide⟩

theorem test_controllersAndQueues_9 : ∃ (s : State) (ref : Ref) (qid qsize cqid prio : Nat), s.accepts ref = true ∧ qidRefused qid (((s.latch ref).ctrl (ctrlIx ref)).getD { id := ctrlIx ref }).grantSq (((s.latch ref).qe.sqs.filter (fun q => q.ctrl == ctrlIx ref)).map (fun q => q.qid)) ((s.latch ref).qe.sqs.map (fun q => q.qid)) = false ∧ (qsize = 0 || 65536 ≤ qsize || (((s.latch ref).ctrl (ctrlIx ref)).getD { id := ctrlIx ref }).iosqes != 6) = false ∧ (cqid = 0 || !(s.latch ref).qe.cqs.any (fun q => q.ctrl == ctrlIx ref && q.qid == cqid)) = true :=
  ⟨sGrant, .host 0 0 1, 1, 7, 2, 0, by decide⟩

theorem test_controllersAndQueues_10 : ∃ (s : State) (ref : Ref) (qid qsize cqid prio : Nat), s.accepts ref = true ∧ qidRefused qid (((s.latch ref).ctrl (ctrlIx ref)).getD { id := ctrlIx ref }).grantSq (((s.latch ref).qe.sqs.filter (fun q => q.ctrl == ctrlIx ref)).map (fun q => q.qid)) ((s.latch ref).qe.sqs.map (fun q => q.qid)) = false ∧ (qsize = 0 || 65536 ≤ qsize || (((s.latch ref).ctrl (ctrlIx ref)).getD { id := ctrlIx ref }).iosqes != 6) = false ∧ (cqid = 0 || !(s.latch ref).qe.cqs.any (fun q => q.ctrl == ctrlIx ref && q.qid == cqid)) = false :=
  ⟨sGrant, .host 0 0 1, 1, 7, 1, 0, by decide⟩

theorem test_controllersAndQueues_11 : ∃ (s : State) (ref : Ref) (qid qsize vector : Nat) (ien : Bool) (pc : Bool), s.accepts ref = true ∧ pc = false :=
  ⟨sGrant, .host 0 0 1, 2, 7, 1, true, false, by decide⟩

theorem test_controllersAndQueues_12 : ∃ (s : State) (ref : Ref) (qid qsize vector : Nat) (ien : Bool), s.accepts ref = true ∧ qidRefused qid (((s.latch ref).ctrl (ctrlIx ref)).getD { id := ctrlIx ref }).grantCq (((s.latch ref).qe.cqs.filter (fun q => q.ctrl == ctrlIx ref)).map (fun q => q.qid)) ((s.latch ref).qe.cqs.map (fun q => q.qid)) = true :=
  ⟨sGrant, .host 0 0 1, 1, 7, 1, true, by decide⟩

theorem test_controllersAndQueues_13 : ∃ (s : State) (ref : Ref) (qid qsize vector : Nat) (ien : Bool), s.accepts ref = true ∧ qidRefused qid (((s.latch ref).ctrl (ctrlIx ref)).getD { id := ctrlIx ref }).grantCq (((s.latch ref).qe.cqs.filter (fun q => q.ctrl == ctrlIx ref)).map (fun q => q.qid)) ((s.latch ref).qe.cqs.map (fun q => q.qid)) = false ∧ (qsize = 0 || 65536 ≤ qsize || (((s.latch ref).ctrl (ctrlIx ref)).getD { id := ctrlIx ref }).iocqes != 4) = true :=
  ⟨sGrant, .host 0 0 1, 2, 65536, 1, true, by decide⟩

theorem test_controllersAndQueues_14 : ∃ (s : State) (ref : Ref) (qid qsize vector : Nat) (ien : Bool), s.accepts ref = true ∧ qidRefused qid (((s.latch ref).ctrl (ctrlIx ref)).getD { id := ctrlIx ref }).grantCq (((s.latch ref).qe.cqs.filter (fun q => q.ctrl == ctrlIx ref)).map (fun q => q.qid)) ((s.latch ref).qe.cqs.map (fun q => q.qid)) = false ∧ (qsize = 0 || 65536 ≤ qsize || (((s.latch ref).ctrl (ctrlIx ref)).getD { id := ctrlIx ref }).iocqes != 4) = false ∧ (ien && (s.latch ref).vectors (ctrlIx ref) ≤ vector) = true :=
  ⟨sGrant, .host 0 0 1, 2, 7, 2048, true, by decide⟩

theorem test_controllersAndQueues_15 : ∃ (s : State) (ref : Ref) (qid qsize vector : Nat) (ien : Bool), s.accepts ref = true ∧ qidRefused qid (((s.latch ref).ctrl (ctrlIx ref)).getD { id := ctrlIx ref }).grantCq (((s.latch ref).qe.cqs.filter (fun q => q.ctrl == ctrlIx ref)).map (fun q => q.qid)) ((s.latch ref).qe.cqs.map (fun q => q.qid)) = false ∧ (qsize = 0 || 65536 ≤ qsize || (((s.latch ref).ctrl (ctrlIx ref)).getD { id := ctrlIx ref }).iocqes != 4) = false ∧ (ien && (s.latch ref).vectors (ctrlIx ref) ≤ vector) = false :=
  ⟨sGrant, .host 0 0 1, 2, 7, 1, false, by decide⟩

theorem test_controllersAndQueues_16 : ∃ (s : State) (ref : Ref) (qid : Nat), s.accepts ref = true ∧ (qid = 0 || !(s.latch ref).qe.sqs.any (fun q => q.ctrl == ctrlIx ref && q.qid == qid)) = true :=
  ⟨sGrant, .host 0 0 1, 0, by decide⟩

theorem test_controllersAndQueues_17 : ∃ (s : State) (ref : Ref) (qid : Nat), s.accepts ref = true ∧ (qid = 0 || !(s.latch ref).qe.sqs.any (fun q => q.ctrl == ctrlIx ref && q.qid == qid)) = false :=
  ⟨{ sGrant with qe := { sGrant.qe with sqs := [{ ctrl := 0, qid := 1, size := 8 }] } }, .host 0 0 1, 1, by decide⟩

theorem test_controllersAndQueues_18 : ∃ (s : State) (ref : Ref) (qid : Nat), s.accepts ref = true ∧ (qid = 0 || !(s.latch ref).qe.cqs.any (fun q => q.ctrl == ctrlIx ref && q.qid == qid)) = true :=
  ⟨sGrant, .host 0 0 1, 0, by decide⟩

theorem test_controllersAndQueues_19 : ∃ (s : State) (ref : Ref) (qid : Nat), s.accepts ref = true ∧ (qid = 0 || !(s.latch ref).qe.cqs.any (fun q => q.ctrl == ctrlIx ref && q.qid == qid)) = false ∧ (s.latch ref).qe.sqs.any (fun q => q.ctrl == ctrlIx ref && q.cqid == qid && q.qid != 0) = true :=
  ⟨{ sGrant with qe := { sGrant.qe with sqs := [{ ctrl := 0, qid := 1, size := 8, cqid := 1 }] } }, .host 0 0 1, 1, by decide⟩

theorem test_controllersAndQueues_20 : ∃ (s : State) (ref : Ref) (qid : Nat), s.accepts ref = true ∧ (qid = 0 || !(s.latch ref).qe.cqs.any (fun q => q.ctrl == ctrlIx ref && q.qid == qid)) = false ∧ (s.latch ref).qe.sqs.any (fun q => q.ctrl == ctrlIx ref && q.cqid == qid && q.qid != 0) = false :=
  ⟨sGrant, .host 0 0 1, 1, by decide⟩

theorem test_logPagesIdentifyAbort_1 : ∃ (s : State) (ref : Ref) (lid off len : Nat) (rae : Bool), s.accepts ref = true ∧ (s.latch ref).logPage lid ((ctrlOf ref).getD 0) (holderOf ref).isSome = none :=
  ⟨sRun, .host 0 0 1, 0x99, 0, 64, false, by decide⟩

theorem test_logPagesIdentifyAbort_2 : ∃ (s : State) (ref : Ref) (lid off len : Nat) (rae : Bool) (f : Fields), s.accepts ref = true ∧ (s.latch ref).logPage lid ((ctrlOf ref).getD 0) (holderOf ref).isSome = some f ∧ (off % 4 != 0 || ((s.latch ref).logSize lid != 0 && (s.latch ref).logSize lid < off)) = true :=
  ⟨sRun, .host 0 0 1, 0xC1, 2, 64, false, sRun.page0xC1, by decide, rfl, by decide⟩

theorem test_logPagesIdentifyAbort_3 : ∃ (s : State) (ref : Ref) (lid off len : Nat) (rae : Bool) (f : Fields), s.accepts ref = true ∧ (s.latch ref).logPage lid ((ctrlOf ref).getD 0) (holderOf ref).isSome = some f ∧ (off % 4 != 0 || ((s.latch ref).logSize lid != 0 && (s.latch ref).logSize lid < off)) = false :=
  ⟨sRun, .host 0 0 1, 0xC1, 4, 60, false, sRun.page0xC1, by decide, rfl, by decide⟩

theorem test_logPagesIdentifyAbort_4 : ∃ (s : State) (ref : Ref) (off len : Nat) (rae : Bool) (f : Fields), s.accepts ref = true ∧ (s.latch ref).logPage 0xC2 ((ctrlOf ref).getD 0) (holderOf ref).isSome = some f ∧ (off % 4 != 0 || ((s.latch ref).logSize 0xC2 != 0 && (s.latch ref).logSize 0xC2 < off)) = true :=
  ⟨sRun, .host 0 0 1, 2, 64, true, sRun.page0xC2, by decide, rfl, by decide⟩

theorem test_logPagesIdentifyAbort_5 : ∃ (s : State) (ref : Ref) (off len : Nat) (rae : Bool) (f : Fields), s.accepts ref = true ∧ (s.latch ref).logPage 0xC2 ((ctrlOf ref).getD 0) (holderOf ref).isSome = some f ∧ (off % 4 != 0 || ((s.latch ref).logSize 0xC2 != 0 && (s.latch ref).logSize 0xC2 < off)) = false :=
  ⟨sRun, .host 0 0 1, 512, 64, true, sRun.page0xC2, by decide, rfl, by decide⟩

theorem test_logPagesIdentifyAbort_6 : ∃ (s : State) (ref : Ref) (cns nsid cntid : Nat) (d : Fields), s.accepts ref = true ∧ (s.latch ref).identify (ctrlIx ref) cns nsid cntid = .ok d :=
  ⟨sRun, .host 0 0 1, 0x13, 0, 0, ctrlList [0] 0, by decide, rfl⟩

theorem test_logPagesIdentifyAbort_7 : ∃ (s : State) (ref : Ref) (cns nsid cntid : Nat) (e : Status), s.accepts ref = true ∧ (s.latch ref).identify (ctrlIx ref) cns nsid cntid = .error e :=
  ⟨sRun, .host 0 0 1, 0x99, 0, 0, .invalidField, by decide, rfl⟩

theorem test_logPagesIdentifyAbort_8 : ∃ (s : State) (ref : Ref) (sqid cid : Nat), s.accepts ref = true ∧ 4 ≤ (((s.latch ref).qe.aborts.filter (fun r => (s.latch ref).qe.tags.contains r)).filter (fun r => ctrlIx r == ctrlIx ref)).length :=
  ⟨{ sRun with qe := { sRun.qe with tags := [.host 0 0 1, .host 0 0 2, .host 0 0 3, .host 0 0 4], aborts := [.host 0 0 1, .host 0 0 2, .host 0 0 3, .host 0 0 4] } }, .host 0 0 9, 1, 1, by decide⟩

theorem test_logPagesIdentifyAbort_9 : ∃ (s : State) (ref : Ref) (sqid cid : Nat) (k : Cmd), s.accepts ref = true ∧ (((s.latch ref).qe.aborts.filter (fun r => (s.latch ref).qe.tags.contains r)).filter (fun r => ctrlIx r == ctrlIx ref)).length < 4 ∧ (s.latch ref).qe.cmds.find? (fun k => k.ref == .host (ctrlIx ref) sqid cid) = some k :=
  ⟨{ sRun with qe := { sRun.qe with cmds := [cFlush] } }, .host 0 0 9, 1, 5, cFlush, by decide⟩

theorem test_logPagesIdentifyAbort_10 : ∃ (s : State) (ref : Ref) (sqid cid : Nat), s.accepts ref = true ∧ (((s.latch ref).qe.aborts.filter (fun r => (s.latch ref).qe.tags.contains r)).filter (fun r => ctrlIx r == ctrlIx ref)).length < 4 ∧ (s.latch ref).qe.cmds.find? (fun k => k.ref == .host (ctrlIx ref) sqid cid) = none ∧ (s.latch ref).qe.aers.contains (ctrlIx ref, .host (ctrlIx ref) sqid cid) = true :=
  ⟨{ sRun with qe := { sRun.qe with aers := [(0, .host 0 0 5)] } }, .host 0 0 9, 0, 5, by decide⟩

theorem test_logPagesIdentifyAbort_11 : ∃ (s : State) (ref : Ref) (sqid cid : Nat), s.accepts ref = true ∧ (((s.latch ref).qe.aborts.filter (fun r => (s.latch ref).qe.tags.contains r)).filter (fun r => ctrlIx r == ctrlIx ref)).length < 4 ∧ (s.latch ref).qe.cmds.find? (fun k => k.ref == .host (ctrlIx ref) sqid cid) = none ∧ (s.latch ref).qe.aers.contains (ctrlIx ref, .host (ctrlIx ref) sqid cid) = false :=
  ⟨sRun, .host 0 0 9, 0, 5, by decide⟩

theorem test_logPagesIdentifyAbort_12 : ∃ (s : State) (ref : Ref) , s.accepts ref = true ∧ 16 ≤ ((s.latch ref).qe.aers.filter (fun r => r.1 == ctrlIx ref)).length :=
  ⟨{ sRun with qe := { sRun.qe with aers := List.replicate 16 (0, .host 0 0 5) } }, .host 0 0 9, by decide⟩

theorem test_logPagesIdentifyAbort_13 : ∃ (s : State) (ref : Ref) , s.accepts ref = true ∧ ((s.latch ref).qe.aers.filter (fun r => r.1 == ctrlIx ref)).length < 16 ∧ (s.latch ref).evu.aenWait.find? (fun w => w.1 == ctrlIx ref && !(s.latch ref).evu.aenOut.contains (ctrlIx ref, w.2.1)) = none :=
  ⟨sRun, .host 0 0 9, by decide⟩

theorem test_logPagesIdentifyAbort_14 : ∃ (s : State) (ref : Ref) (w : Nat × Nat × Nat), s.accepts ref = true ∧ ((s.latch ref).qe.aers.filter (fun r => r.1 == ctrlIx ref)).length < 16 ∧ (s.latch ref).evu.aenWait.find? (fun w => w.1 == ctrlIx ref && !(s.latch ref).evu.aenOut.contains (ctrlIx ref, w.2.1)) = some w :=
  ⟨{ sRun with evu := { aenWait := [(0, 64, 0)] } }, .host 0 0 9, (0, 64, 0), by decide⟩

theorem test_featuresPlain_1 : ∃ (s : State) (ref : Ref) (fid nsid cdw11 data : Nat), s.accepts ref = true ∧ (fid = 0x01 ∨ fid = 0x05 ∨ fid = 0x08 ∨ fid = 0x09 ∨ fid = 0x0A ∨ fid = 0x0B ∨ fid = 0x0F) :=
  ⟨sRun, .host 0 0 1, 1, 0, 3, 0, by decide⟩

theorem test_featuresPlain_2 : ∃ (s : State) (ref : Ref) (fid nsid cdw11 data : Nat), s.accepts ref = true ∧ (fid = 0x01 ∨ fid = 0x02 ∨ fid = 0x04 ∨ fid = 0x05 ∨ fid = 0x07 ∨ fid = 0x08 ∨ fid = 0x09 ∨ fid = 0x0A ∨ fid = 0x0B ∨ fid = 0x0F ∨ fid = 0x1D ∨ fid = 0x1E ∨ fid = 0x81 ∨ fid = 0x82 ∨ fid = 0x83) :=
  ⟨sRun, .host 0 0 1, 0x81, 0, 3, 0, by decide⟩

theorem test_featuresPlain_3 : ∃ (s : State) (ref : Ref) (nsid cdw11 data : Nat), s.accepts ref = true ∧ cdw11.testBit 0 = false :=
  ⟨sRun, .host 0 0 1, 0, 0, 3, by decide⟩

theorem test_featuresPlain_4 : ∃ (s : State) (ref : Ref) (nsid cdw11 data : Nat), s.accepts ref = true ∧ cdw11.testBit 0 = true :=
  ⟨sRun, .host 0 0 1, 0, 1, 3, by decide⟩

theorem test_featuresPlain_5 : ∃ (s : State) (ref : Ref) (nsid cdw11 data : Nat), s.accepts ref = true ∧ ((2 < bitsOf cdw11 16 4 && bitsOf cdw11 16 4 != 15) || 1 < bitsOf cdw11 20 2) = true :=
  ⟨sRun, .host 0 0 1, 0, 0x30000, 0, by decide⟩

theorem test_featuresPlain_6 : ∃ (s : State) (ref : Ref) (nsid cdw11 data : Nat), s.accepts ref = true ∧ ((2 < bitsOf cdw11 16 4 && bitsOf cdw11 16 4 != 15) || 1 < bitsOf cdw11 20 2) = false :=
  ⟨sRun, .host 0 0 1, 0, 350, 0, by decide⟩

theorem test_featuresPlain_7 : ∃ (s : State) (ref : Ref) (fid nsid cdw11 data : Nat) (save : Bool), s.accepts ref = true ∧ (fid = 0x06 ∨ fid = 0x0C ∨ (fid < 0x81 ∧ 0x1E < fid)) :=
  ⟨sRun, .host 0 0 1, 0x0C, 0, 0, 0, false, by decide⟩

theorem test_featuresPlain_8 : ∃ (s : State) (ref : Ref) (cdw11 : Nat) (save : Bool), s.accepts ref = true ∧ save = true :=
  ⟨sRun, .host 0 0 1, 0, true, by decide⟩

theorem test_featuresPlain_9 : ∃ (s : State) (ref : Ref) (cdw11 : Nat), s.accepts ref = true ∧ 4 < cdw11 % 32 :=
  ⟨sRun, .host 0 0 1, 5, by decide⟩

theorem test_featuresPlain_10 : ∃ (s : State) (ref : Ref) (cdw11 : Nat), s.accepts ref = true ∧ cdw11 % 32 ≤ 4 ∧ (s.latch ref).qe.withheld.any (fun h => ctrlIx h.ref == ctrlIx ref) = true :=
  ⟨{ sRun with qe := { sRun.qe with withheld := [⟨.host 0 0 7, .success, 0⟩] } }, .host 0 0 1, 1, by decide⟩

theorem test_featuresPlain_11 : ∃ (s : State) (ref : Ref) (cdw11 : Nat), s.accepts ref = true ∧ cdw11 % 32 ≤ 4 ∧ (s.latch ref).qe.withheld.any (fun h => ctrlIx h.ref == ctrlIx ref) = false :=
  ⟨sRun, .host 0 0 1, 1, by decide⟩

theorem test_featuresPlain_12 : ∃ (s : State) (ref : Ref) (cdw11 : Nat) (save : Bool), s.accepts ref = true ∧ save = true :=
  ⟨sRun, .host 0 0 1, 0, true, by decide⟩

theorem test_featuresPlain_13 : ∃ (s : State) (ref : Ref) (cdw11 : Nat), s.accepts ref = true ∧ (bitsOf cdw11 0 16 = 65535 ∨ bitsOf cdw11 16 16 = 65535) :=
  ⟨sRun, .host 0 0 1, 65535, by decide⟩

theorem test_featuresPlain_14 : ∃ (s : State) (ref : Ref) (cdw11 : Nat), s.accepts ref = true ∧ bitsOf cdw11 0 16 ≠ 65535 ∧ bitsOf cdw11 16 16 ≠ 65535 ∧ ((s.latch ref).qe.sqs.any (fun q => q.ctrl == ctrlIx ref && q.qid != 0) || (s.latch ref).qe.cqs.any (fun q => q.ctrl == ctrlIx ref && q.qid != 0)) = true :=
  ⟨sGrant, .host 0 0 1, 7, by decide⟩

theorem test_featuresPlain_15 : ∃ (s : State) (ref : Ref) (cdw11 : Nat), s.accepts ref = true ∧ bitsOf cdw11 0 16 ≠ 65535 ∧ bitsOf cdw11 16 16 ≠ 65535 ∧ ((s.latch ref).qe.sqs.any (fun q => q.ctrl == ctrlIx ref && q.qid != 0) || (s.latch ref).qe.cqs.any (fun q => q.ctrl == ctrlIx ref && q.qid != 0)) = false :=
  ⟨sRun, .host 0 0 1, 7, by decide⟩

theorem test_featuresPlain_16 : ∃ (s : State) (ref : Ref) (save enable : Bool), s.accepts ref = true ∧ save = true :=
  ⟨sRun, .host 0 0 1, true, true, by decide⟩

theorem test_featuresPlain_17 : ∃ (s : State) (ref : Ref) (enable : Bool), s.accepts ref = true ∧ (s.latch ref).hasNamespace = true :=
  ⟨{ sRun with qe := { sRun.qe with nss := [nsOne] } }, .host 0 0 1, true, by decide⟩

theorem test_featuresPlain_18 : ∃ (s : State) (ref : Ref) (enable : Bool), s.accepts ref = true ∧ (s.latch ref).hasNamespace = false :=
  ⟨sRun, .host 0 0 1, true, by decide⟩

theorem test_featuresVendor_1 : ∃ (s : State) (ref : Ref) (nsid cdw11 : Nat) (save : Bool), s.accepts ref = true ∧ fromVf ref = true :=
  ⟨{ sRun with qe := { ctrls := [{ id := 2, en := true, rdy := true }], fetched := [⟨2, 0, 0, some 1, false⟩] } }, .host 2 0 1, 1, 0, true, by decide⟩

theorem test_featuresVendor_2 : ∃ (s : State) (ref : Ref) (cdw11 : Nat) (save : Bool), s.accepts ref = true ∧ fromVf ref = true :=
  ⟨{ sRun with qe := { ctrls := [{ id := 2, en := true, rdy := true }], fetched := [⟨2, 0, 0, some 1, false⟩] } }, .host 2 0 1, 0, true, by decide⟩

theorem test_featuresVendor_3 : ∃ (s : State) (ref : Ref) (cdw11 : Nat) (save : Bool), s.accepts ref = true ∧ fromVf ref = true :=
  ⟨{ sRun with qe := { ctrls := [{ id := 2, en := true, rdy := true }], fetched := [⟨2, 0, 0, some 1, false⟩] } }, .host 2 0 1, 0, true, by decide⟩

theorem test_featuresVendor_4 : ∃ (s : State) (ref : Ref) (cdw11 : Nat) (save : Bool), s.accepts ref = true ∧ fromVf ref = true :=
  ⟨{ sRun with qe := { ctrls := [{ id := 2, en := true, rdy := true }], fetched := [⟨2, 0, 0, some 1, false⟩] } }, .host 2 0 1, 0, true, by decide⟩

theorem test_featuresVendor_5 : ∃ (s : State) (ref : Ref) (cdw11 : Nat) (save : Bool), s.accepts ref = true ∧ fromVf ref = true :=
  ⟨{ sRun with qe := { ctrls := [{ id := 2, en := true, rdy := true }], fetched := [⟨2, 0, 0, some 1, false⟩] } }, .host 2 0 1, 0, true, by decide⟩

theorem test_featuresVendor_6 : ∃ (s : State) (ref : Ref) (cdw11 : Nat) (save : Bool), s.accepts ref = true ∧ fromVf ref = true :=
  ⟨{ sRun with qe := { ctrls := [{ id := 2, en := true, rdy := true }], fetched := [⟨2, 0, 0, some 1, false⟩] } }, .host 2 0 1, 0, true, by decide⟩

theorem test_featuresVendor_7 : ∃ (s : State) (ref : Ref) (cdw11 : Nat) (save : Bool), s.accepts ref = true ∧ fromVf ref = true :=
  ⟨{ sRun with qe := { ctrls := [{ id := 2, en := true, rdy := true }], fetched := [⟨2, 0, 0, some 1, false⟩] } }, .host 2 0 1, 0, true, by decide⟩

theorem test_featuresVendor_8 : ∃ (s : State) (ref : Ref) (cdw11 : Nat) (token : Option OwnerToken), s.accepts ref = true ∧ fromVf ref = true :=
  ⟨{ sRun with qe := { ctrls := [{ id := 2, en := true, rdy := true }], fetched := [⟨2, 0, 0, some 1, false⟩] } }, .host 2 0 1, 0, none, by decide⟩

theorem test_featuresVendor_9 : ∃ (s : State) (ref : Ref) (nsid cdw11 : Nat) (save : Bool), s.accepts ref = true ∧ fromVf ref = false ∧ (((s.latch ref).qe.nss.filter (fun n => (nsid == 0xFFFFFFFF || n.nsid == nsid) && n.attached.contains (ctrlIx ref))).isEmpty && nsid != 0xFFFFFFFF) = true :=
  ⟨sRun, .host 0 0 1, 1, 0, true, by decide⟩

theorem test_featuresVendor_10 : ∃ (s : State) (ref : Ref) (nsid cdw11 : Nat) (save : Bool), s.accepts ref = true ∧ fromVf ref = false ∧ (((s.latch ref).qe.nss.filter (fun n => (nsid == 0xFFFFFFFF || n.nsid == nsid) && n.attached.contains (ctrlIx ref))).isEmpty && nsid != 0xFFFFFFFF) = false :=
  ⟨{ sRun with qe := { sRun.qe with nss := [nsOne] } }, .host 0 0 1, 1, 1, true, by decide⟩

theorem test_featuresVendor_11 : ∃ (s : State) (ref : Ref) (cdw11 : Nat) (save : Bool), s.accepts ref = true ∧ fromVf ref = false :=
  ⟨sRun, .host 0 0 1, 1, true, by decide⟩

theorem test_featuresVendor_12 : ∃ (s : State) (ref : Ref) (cdw11 : Nat) (save : Bool), s.accepts ref = true ∧ fromVf ref = false :=
  ⟨sRun, .host 0 0 1, 100, true, by decide⟩

theorem test_featuresVendor_13 : ∃ (s : State) (ref : Ref) (cdw11 : Nat) (save : Bool), s.accepts ref = true ∧ fromVf ref = false ∧ wholeRefused 0x100C (cdw11 % 2 ^ 6) = true :=
  ⟨sRun, .host 0 0 1, 5, true, by decide⟩

theorem test_featuresVendor_14 : ∃ (s : State) (ref : Ref) (cdw11 : Nat) (save : Bool), s.accepts ref = true ∧ fromVf ref = false ∧ wholeRefused 0x100C (cdw11 % 2 ^ 6) = false :=
  ⟨sRun, .host 0 0 1, 57, true, by decide⟩

theorem test_featuresVendor_15 : ∃ (s : State) (ref : Ref) (cdw11 : Nat) (save : Bool), s.accepts ref = true ∧ fromVf ref = false ∧ (cdw11 % 2 ^ 9 = 0 ∨ 365 < cdw11 % 2 ^ 9) :=
  ⟨sRun, .host 0 0 1, 366, true, by decide⟩

theorem test_featuresVendor_16 : ∃ (s : State) (ref : Ref) (cdw11 : Nat) (save : Bool), s.accepts ref = true ∧ fromVf ref = false ∧ 1 ≤ cdw11 % 2 ^ 9 ∧ cdw11 % 2 ^ 9 ≤ 365 :=
  ⟨sRun, .host 0 0 1, 365, true, by decide⟩

theorem test_featuresVendor_17 : ∃ (s : State) (ref : Ref) (cdw11 : Nat) (save : Bool), s.accepts ref = true ∧ fromVf ref = false ∧ limitsRefused (cdw11.testBit 31) (cdw11 % 2 ^ 24) = true :=
  ⟨sRun, .host 0 0 1, 0, true, by decide⟩

theorem test_featuresVendor_18 : ∃ (s : State) (ref : Ref) (cdw11 : Nat) (save : Bool), s.accepts ref = true ∧ fromVf ref = false ∧ limitsRefused (cdw11.testBit 31) (cdw11 % 2 ^ 24) = false :=
  ⟨sRun, .host 0 0 1, 0x73645A, true, by decide⟩

theorem test_featuresVendor_19 : ∃ (s : State) (ref : Ref) (cdw11 : Nat) (save : Bool), s.accepts ref = true ∧ fromVf ref = false :=
  ⟨sRun, .host 0 0 1, 1, false, by decide⟩

theorem test_featuresVendor_20 : ∃ (s : State) (ref : Ref) (cdw11 : Nat) (token : Option OwnerToken), s.accepts ref = true ∧ fromVf ref = false ∧ (s.latch ref).lifecycle ≠ 3 :=
  ⟨sRun, .host 0 0 1, 1, none, by decide⟩

theorem test_featuresVendor_21 : ∃ (s : State) (ref : Ref) (cdw11 : Nat) (token : Option OwnerToken), s.accepts ref = true ∧ fromVf ref = false ∧ (s.latch ref).lifecycle = 3 ∧ ((cdw11.testBit 1 && !(s.latch ref).ownerTokenOk token 2) || (!cdw11.testBit 0 && ((s.latch ref).bxl.lock || !cdw11.testBit 1) && !(s.latch ref).ownerTokenOk token 1)) = true :=
  ⟨sOwned, .host 0 0 1, 2, none, by decide⟩

theorem test_featuresVendor_22 : ∃ (s : State) (ref : Ref) (cdw11 : Nat) (token : Option OwnerToken), s.accepts ref = true ∧ fromVf ref = false ∧ (s.latch ref).lifecycle = 3 ∧ ((cdw11.testBit 1 && !(s.latch ref).ownerTokenOk token 2) || (!cdw11.testBit 0 && ((s.latch ref).bxl.lock || !cdw11.testBit 1) && !(s.latch ref).ownerTokenOk token 1)) = false ∧ cdw11.testBit 0 = (s.latch ref).bxl.lock :=
  ⟨{ sOwned with bxl := { lock := true } }, .host 0 0 1, 1, none, by decide⟩

theorem test_featuresVendor_23 : ∃ (s : State) (ref : Ref) (cdw11 : Nat) (token : Option OwnerToken), s.accepts ref = true ∧ fromVf ref = false ∧ (s.latch ref).lifecycle = 3 ∧ ((cdw11.testBit 1 && !(s.latch ref).ownerTokenOk token 2) || (!cdw11.testBit 0 && ((s.latch ref).bxl.lock || !cdw11.testBit 1) && !(s.latch ref).ownerTokenOk token 1)) = false ∧ cdw11.testBit 0 ≠ (s.latch ref).bxl.lock :=
  ⟨sOwned, .host 0 0 1, 1, none, by decide⟩

theorem test_featuresVendor_24 : ∃ (s : State) (ref : Ref) (fid nsid cdw11 : Nat) (sel : Nat), s.accepts ref = true ∧ (!featKnown fid || 3 < sel) = true :=
  ⟨sRun, .host 0 0 1, 0x0C, 0, 0, 0, by decide⟩

theorem test_featuresVendor_25 : ∃ (s : State) (ref : Ref) (fid nsid cdw11 : Nat) (sel : Nat), s.accepts ref = true ∧ (!featKnown fid || 3 < sel) = false ∧ ((fid = 0x82 || fid = 0x83 || fid = 0xC0 || fid = 0x1E) && !(s.latch ref).qe.nss.any (fun n => n.nsid == nsid && n.attached.contains (ctrlIx ref))) = true :=
  ⟨sRun, .host 0 0 1, 0xC0, 0, 0, 0, by decide⟩

theorem test_featuresVendor_26 : ∃ (s : State) (ref : Ref) (fid nsid cdw11 : Nat), s.accepts ref = true ∧ featKnown fid = true ∧ ((fid = 0x82 || fid = 0x83 || fid = 0xC0 || fid = 0x1E) && !(s.latch ref).qe.nss.any (fun n => n.nsid == nsid && n.attached.contains (ctrlIx ref))) = false ∧ fid ≠ 0x81 :=
  ⟨sRun, .host 0 0 1, 7, 0, 0, by decide⟩

theorem test_featuresVendor_27 : ∃ (s : State) (ref : Ref) (nsid cdw11 : Nat), s.accepts ref = true :=
  ⟨sRun, .host 0 0 1, 0, 0, by decide⟩

theorem test_featuresVendor_28 : ∃ (s : State) (ref : Ref) (fid nsid cdw11 : Nat), s.accepts ref = true ∧ featKnown fid = true ∧ ((fid = 0x82 || fid = 0x83 || fid = 0xC0 || fid = 0x1E) && !(s.latch ref).qe.nss.any (fun n => n.nsid == nsid && n.attached.contains (ctrlIx ref))) = false :=
  ⟨sRun, .host 0 0 1, 7, 0, 0, by decide⟩

theorem test_featuresVendor_29 : ∃ (s : State) (ref : Ref) (fid nsid cdw11 : Nat) (f : Feat), s.accepts ref = true ∧ featKnown fid = true ∧ ((fid = 0x82 || fid = 0x83 || fid = 0xC0 || fid = 0x1E) && !(s.latch ref).qe.nss.any (fun n => n.nsid == nsid && n.attached.contains (ctrlIx ref))) = false ∧ (s.latch ref).qe.savedFeats.find? (fun f => f.fid == fid && f.scope == featScope fid nsid cdw11 ref) = some f :=
  ⟨{ sRun with qe := { sRun.qe with savedFeats := [⟨0xC4, 0, 9⟩] } }, .host 0 0 1, 0xC4, 0, 0, ⟨0xC4, 0, 9⟩, by decide⟩

theorem test_featuresVendor_30 : ∃ (s : State) (ref : Ref) (fid nsid cdw11 : Nat), s.accepts ref = true ∧ featKnown fid = true ∧ ((fid = 0x82 || fid = 0x83 || fid = 0xC0 || fid = 0x1E) && !(s.latch ref).qe.nss.any (fun n => n.nsid == nsid && n.attached.contains (ctrlIx ref))) = false ∧ (s.latch ref).qe.savedFeats.find? (fun f => f.fid == fid && f.scope == featScope fid nsid cdw11 ref) = none :=
  ⟨sRun, .host 0 0 1, 0xC4, 0, 0, by decide⟩

theorem test_featuresVendor_31 : ∃ (s : State) (ref : Ref) (fid nsid cdw11 : Nat), s.accepts ref = true ∧ featKnown fid = true ∧ ((fid = 0x82 || fid = 0x83 || fid = 0xC0 || fid = 0x1E) && !(s.latch ref).qe.nss.any (fun n => n.nsid == nsid && n.attached.contains (ctrlIx ref))) = false :=
  ⟨sRun, .host 0 0 1, 0xC4, 0, 0, by decide⟩

theorem test_namespacesAndFormat_1 : ∃ (s : State) (ref : Ref) (sel nsid blocks lbaf : Nat) (handles : List Nat), s.accepts ref = true ∧ fromVf ref = true :=
  ⟨{ sRun with qe := { ctrls := [{ id := 2, en := true, rdy := true }], fetched := [⟨2, 0, 0, some 1, false⟩] } }, .host 2 0 1, 0, 0, 1024, 0, [], by decide⟩

theorem test_namespacesAndFormat_2 : ∃ (s : State) (ref : Ref) (sel nsid blocks lbaf : Nat) (handles : List Nat), s.accepts ref = true ∧ fromVf ref = false ∧ (s.latch ref).map.sanitize.active ≠ 0 :=
  ⟨{ sRun with map := { sanitize := { active := 2 } } }, .host 0 0 1, 0, 0, 1024, 0, [], by decide⟩

theorem test_namespacesAndFormat_3 : ∃ (s : State) (ref : Ref) (sel nsid : Nat) (ctrls : List Nat), s.accepts ref = true ∧ fromVf ref = true :=
  ⟨{ sRun with qe := { ctrls := [{ id := 2, en := true, rdy := true }], fetched := [⟨2, 0, 0, some 1, false⟩] } }, .host 2 0 1, 0, 1, [0], by decide⟩

theorem test_namespacesAndFormat_4 : ∃ (s : State) (ref : Ref) (sel nsid : Nat) (ctrls : List Nat), s.accepts ref = true ∧ fromVf ref = false ∧ (s.latch ref).map.sanitize.active ≠ 0 :=
  ⟨{ sRun with map := { sanitize := { active := 2 } } }, .host 0 0 1, 0, 1, [0], by decide⟩

theorem test_namespacesAndFormat_5 : ∃ (s : State) (ref : Ref) (nsid lbaf ses : Nat), s.accepts ref = true ∧ fromVf ref = true :=
  ⟨{ sRun with qe := { ctrls := [{ id := 2, en := true, rdy := true }], fetched := [⟨2, 0, 0, some 1, false⟩] } }, .host 2 0 1, 1, 0, 0, by decide⟩

theorem test_namespacesAndFormat_6 : ∃ (s : State) (ref : Ref) (nsid lbaf ses : Nat), s.accepts ref = true ∧ fromVf ref = false ∧ (s.latch ref).map.sanitize.active ≠ 0 :=
  ⟨{ sRun with map := { sanitize := { active := 2 } } }, .host 0 0 1, 1, 0, 0, by decide⟩

theorem test_namespacesAndFormat_7 : ∃ (s : State) (ref : Ref) (ause : Bool), s.accepts ref = true ∧ fromVf ref = true :=
  ⟨{ sRun with qe := { ctrls := [{ id := 2, en := true, rdy := true }], fetched := [⟨2, 0, 0, some 1, false⟩] } }, .host 2 0 1, true, by decide⟩

theorem test_namespacesAndFormat_8 : ∃ (s : State) (ref : Ref) (ause : Bool), s.accepts ref = true ∧ fromVf ref = false ∧ (s.latch ref).map.sanitize.active ≠ 0 :=
  ⟨{ sRun with map := { sanitize := { active := 2 } } }, .host 0 0 1, true, by decide⟩

theorem test_namespacesAndFormat_9 : ∃ (s : State) (ref : Ref) (ause : Bool), s.accepts ref = true ∧ fromVf ref = true :=
  ⟨{ sRun with qe := { ctrls := [{ id := 2, en := true, rdy := true }], fetched := [⟨2, 0, 0, some 1, false⟩] } }, .host 2 0 1, true, by decide⟩

theorem test_namespacesAndFormat_10 : ∃ (s : State) (ref : Ref) (ause : Bool), s.accepts ref = true ∧ fromVf ref = false ∧ (s.latch ref).map.sanitize.active ≠ 0 :=
  ⟨{ sRun with map := { sanitize := { active := 2 } } }, .host 0 0 1, true, by decide⟩

theorem test_namespacesAndFormat_11 : ∃ (s : State) (ref : Ref) (sanact : Nat) (ause : Bool), s.accepts ref = true ∧ fromVf ref = true :=
  ⟨{ sRun with qe := { ctrls := [{ id := 2, en := true, rdy := true }], fetched := [⟨2, 0, 0, some 1, false⟩] } }, .host 2 0 1, 1, true, by decide⟩

theorem test_namespacesAndFormat_12 : ∃ (s : State) (ref : Ref) (sanact : Nat) (ause : Bool), s.accepts ref = true ∧ fromVf ref = false ∧ (s.latch ref).map.sanitize.active ≠ 0 :=
  ⟨{ sRun with map := { sanitize := { active := 2 } } }, .host 0 0 1, 1, true, by decide⟩

theorem test_namespacesAndFormat_13 : ∃ (s : State) (ref : Ref) (nsid blocks lbaf : Nat) (handles : List Nat), s.accepts ref = true ∧ fromVf ref = false ∧ (s.latch ref).map.sanitize.active = 0 ∧ (s.latch ref).lifecycle = 5 :=
  ⟨{ sRun with fol := { resolved := [(0, 31)] } }, .host 0 0 1, 0, 1024, 0, [], by decide⟩

theorem test_namespacesAndFormat_14 : ∃ (s : State) (ref : Ref) (nsid blocks lbaf : Nat) (handles : List Nat), s.accepts ref = true ∧ fromVf ref = false ∧ (s.latch ref).map.sanitize.active = 0 ∧ (s.latch ref).lifecycle ≠ 5 ∧ 2 < lbaf :=
  ⟨sRun, .host 0 0 1, 0, 1024, 3, [], by decide⟩

theorem test_namespacesAndFormat_15 : ∃ (s : State) (ref : Ref) (nsid blocks lbaf : Nat) (handles : List Nat), s.accepts ref = true ∧ fromVf ref = false ∧ (s.latch ref).map.sanitize.active = 0 ∧ (s.latch ref).lifecycle ≠ 5 ∧ lbaf ≤ 2 ∧ (blocks = 0 || handles.any (fun h => (s.latch ref).fld F.MAP_WP_CFG_HANDLES ≤ h)) = true :=
  ⟨sRun, .host 0 0 1, 0, 0, 0, [], by decide⟩

theorem test_namespacesAndFormat_16 : ∃ (s : State) (ref : Ref) (nsid blocks lbaf : Nat) (handles : List Nat), s.accepts ref = true ∧ fromVf ref = false ∧ (s.latch ref).map.sanitize.active = 0 ∧ (s.latch ref).lifecycle ≠ 5 ∧ lbaf ≤ 2 ∧ (blocks = 0 || handles.any (fun h => (s.latch ref).fld F.MAP_WP_CFG_HANDLES ≤ h)) = false ∧ (s.latch ref).freeNsids = 0 :=
  ⟨sNsFull, .host 0 0 1, 0, 1024, 0, [], by decide +kernel⟩

theorem test_namespacesAndFormat_17 : ∃ (s : State) (ref : Ref) (nsid blocks lbaf : Nat) (handles : List Nat), s.accepts ref = true ∧ fromVf ref = false ∧ (s.latch ref).map.sanitize.active = 0 ∧ (s.latch ref).lifecycle ≠ 5 ∧ lbaf ≤ 2 ∧ (blocks = 0 || handles.any (fun h => (s.latch ref).fld F.MAP_WP_CFG_HANDLES ≤ h)) = false ∧ (s.latch ref).freeNsids ≠ 0 ∧ (s.latch ref).freeSlots 1 = [] :=
  ⟨sKeysFull, .host 0 0 1, 0, 1024, 0, [], by decide, by decide, by decide, by decide, by decide, by decide, by decide +kernel, sKeysFull_none⟩

theorem test_namespacesAndFormat_18 : ∃ (s : State) (ref : Ref) (nsid blocks lbaf : Nat) (handles : List Nat) (slot : Nat) (more : List Nat), s.accepts ref = true ∧ fromVf ref = false ∧ (s.latch ref).map.sanitize.active = 0 ∧ (s.latch ref).lifecycle ≠ 5 ∧ lbaf ≤ 2 ∧ (blocks = 0 || handles.any (fun h => (s.latch ref).fld F.MAP_WP_CFG_HANDLES ≤ h)) = false ∧ (s.latch ref).freeNsids ≠ 0 ∧ (s.latch ref).freeSlots 1 = slot :: more ∧ (s.latch ref).capacityIus < (s.latch ref).neededIus + ceilDiv (blocks * Ns.blkSectors ({ nsid := (s.latch ref).freeNsid, blocks := blocks, lbaf := lbaf, handles := if handles.isEmpty then [0] else handles, born := (s.latch ref).now } : Ns)) (s.latch ref).iuSectors :=
  ⟨sRun, .host 0 0 1, 0, 1024, 0, [], 0, [], by decide +kernel⟩

theorem test_namespacesAndFormat_19 : ∃ (s : State) (ref : Ref) (nsid blocks lbaf : Nat) (handles : List Nat) (slot : Nat) (more : List Nat), s.accepts ref = true ∧ fromVf ref = false ∧ (s.latch ref).map.sanitize.active = 0 ∧ (s.latch ref).lifecycle ≠ 5 ∧ lbaf ≤ 2 ∧ (blocks = 0 || handles.any (fun h => (s.latch ref).fld F.MAP_WP_CFG_HANDLES ≤ h)) = false ∧ (s.latch ref).freeNsids ≠ 0 ∧ (s.latch ref).freeSlots 1 = slot :: more ∧ (s.latch ref).neededIus + ceilDiv (blocks * Ns.blkSectors ({ nsid := (s.latch ref).freeNsid, blocks := blocks, lbaf := lbaf, handles := if handles.isEmpty then [0] else handles, born := (s.latch ref).now } : Ns)) (s.latch ref).iuSectors ≤ (s.latch ref).capacityIus :=
  ⟨sBandG, .host 0 0 1, 0, 1024, 0, [], 0, [], by decide +kernel⟩

theorem test_namespacesAndFormat_20 : ∃ (s : State) (ref : Ref) (nsid blocks lbaf : Nat) (handles : List Nat), s.accepts ref = true ∧ fromVf ref = false ∧ (s.latch ref).map.sanitize.active = 0 ∧ (((s.latch ref).qe.nss.filter (fun n => nsid == 0xFFFFFFFF || n.nsid == nsid)).isEmpty && nsid != 0xFFFFFFFF) = true :=
  ⟨sRun, .host 0 0 1, 1, 0, 0, [], by decide⟩

theorem test_namespacesAndFormat_21 : ∃ (s : State) (ref : Ref) (nsid blocks lbaf : Nat) (handles : List Nat), s.accepts ref = true ∧ fromVf ref = false ∧ (s.latch ref).map.sanitize.active = 0 ∧ (((s.latch ref).qe.nss.filter (fun n => nsid == 0xFFFFFFFF || n.nsid == nsid)).isEmpty && nsid != 0xFFFFFFFF) = false :=
  ⟨{ sRun with qe := { sRun.qe with nss := [nsOne] } }, .host 0 0 1, 1, 0, 0, [], by decide⟩

theorem test_namespacesAndFormat_22 : ∃ (s : State) (ref : Ref) (sel nsid : Nat) (ctrls : List Nat), s.accepts ref = true ∧ fromVf ref = false ∧ (s.latch ref).map.sanitize.active = 0 ∧ 1 < sel :=
  ⟨sRun, .host 0 0 1, 2, 1, [0], by decide⟩

theorem test_namespacesAndFormat_23 : ∃ (s : State) (ref : Ref) (sel nsid : Nat) (ctrls : List Nat), s.accepts ref = true ∧ fromVf ref = false ∧ (s.latch ref).map.sanitize.active = 0 ∧ sel ≤ 1 ∧ (s.latch ref).ns nsid = none :=
  ⟨sRun, .host 0 0 1, 0, 1, [0], by decide⟩

theorem test_namespacesAndFormat_24 : ∃ (s : State) (ref : Ref) (sel nsid : Nat) (ctrls : List Nat) (n : Ns), s.accepts ref = true ∧ fromVf ref = false ∧ (s.latch ref).map.sanitize.active = 0 ∧ sel ≤ 1 ∧ (s.latch ref).ns nsid = some n ∧ (ctrls.isEmpty || ctrls.any (fun c => ((s.latch ref).ctrl c).isNone)) = true :=
  ⟨{ sRun with qe := { sRun.qe with nss := [nsOne] } }, .host 0 0 1, 0, 1, [], nsOne, by decide⟩

theorem test_namespacesAndFormat_25 : ∃ (s : State) (ref : Ref) (sel nsid : Nat) (ctrls : List Nat) (n : Ns), s.accepts ref = true ∧ fromVf ref = false ∧ (s.latch ref).map.sanitize.active = 0 ∧ sel ≤ 1 ∧ (s.latch ref).ns nsid = some n ∧ (ctrls.isEmpty || ctrls.any (fun c => ((s.latch ref).ctrl c).isNone)) = false ∧ (sel == 0 && ctrls.any n.attached.contains) = true :=
  ⟨{ sRun with qe := { sRun.qe with nss := [nsOne] } }, .host 0 0 1, 0, 1, [0], nsOne, by decide⟩

theorem test_namespacesAndFormat_26 : ∃ (s : State) (ref : Ref) (sel nsid : Nat) (ctrls : List Nat) (n : Ns), s.accepts ref = true ∧ fromVf ref = false ∧ (s.latch ref).map.sanitize.active = 0 ∧ sel ≤ 1 ∧ (s.latch ref).ns nsid = some n ∧ (ctrls.isEmpty || ctrls.any (fun c => ((s.latch ref).ctrl c).isNone)) = false ∧ (sel == 0 && ctrls.any n.attached.contains) = false ∧ (!(sel == 0) && ctrls.any (fun c => !n.attached.contains c)) = true :=
  ⟨{ sRun with qe := { sRun.qe with nss := [{ nsOne with attached := [] }] } }, .host 0 0 1, 1, 1, [0], { nsOne with attached := [] }, by decide⟩

theorem test_namespacesAndFormat_27 : ∃ (s : State) (ref : Ref) (sel nsid : Nat) (ctrls : List Nat) (n : Ns), s.accepts ref = true ∧ fromVf ref = false ∧ (s.latch ref).map.sanitize.active = 0 ∧ sel ≤ 1 ∧ (s.latch ref).ns nsid = some n ∧ (ctrls.isEmpty || ctrls.any (fun c => ((s.latch ref).ctrl c).isNone)) = false ∧ (sel == 0 && ctrls.any n.attached.contains) = false ∧ (!(sel == 0) && ctrls.any (fun c => !n.attached.contains c)) = false :=
  ⟨{ sRun with qe := { sRun.qe with nss := [nsOne] } }, .host 0 0 1, 1, 1, [0], nsOne, by decide⟩

theorem test_namespacesAndFormat_28 : ∃ (s : State) (ref : Ref) (nsid lbaf ses : Nat), s.accepts ref = true ∧ fromVf ref = false ∧ (s.latch ref).map.sanitize.active = 0 ∧ 2 < lbaf :=
  ⟨sRun, .host 0 0 1, 1, 3, 0, by decide⟩

theorem test_namespacesAndFormat_29 : ∃ (s : State) (ref : Ref) (nsid lbaf ses : Nat), s.accepts ref = true ∧ fromVf ref = false ∧ (s.latch ref).map.sanitize.active = 0 ∧ lbaf ≤ 2 ∧ 2 < ses :=
  ⟨sRun, .host 0 0 1, 1, 0, 3, by decide⟩

theorem test_namespacesAndFormat_30 : ∃ (s : State) (ref : Ref) (nsid lbaf ses : Nat), s.accepts ref = true ∧ fromVf ref = false ∧ (s.latch ref).map.sanitize.active = 0 ∧ lbaf ≤ 2 ∧ ses ≤ 2 ∧ (((s.latch ref).qe.nss.filter (fun n => (nsid == 0xFFFFFFFF && n.cut.isNone) || n.nsid == nsid)).isEmpty && nsid != 0xFFFFFFFF) = true :=
  ⟨sRun, .host 0 0 1, 1, 0, 0, by decide⟩

theorem test_namespacesAndFormat_31 : ∃ (s : State) (ref : Ref) (nsid lbaf ses : Nat), s.accepts ref = true ∧ fromVf ref = false ∧ (s.latch ref).map.sanitize.active = 0 ∧ lbaf ≤ 2 ∧ ses ≤ 2 ∧ (((s.latch ref).qe.nss.filter (fun n => (nsid == 0xFFFFFFFF && n.cut.isNone) || n.nsid == nsid)).isEmpty && nsid != 0xFFFFFFFF) = false ∧ ((s.latch ref).qe.nss.filter (fun n => (nsid == 0xFFFFFFFF && n.cut.isNone) || n.nsid == nsid)).any (fun n => n.cut.isSome) = true :=
  ⟨{ sRun with qe := { sRun.qe with nss := [{ nsOne with cut := some 0 }] } }, .host 0 0 1, 1, 0, 0, by decide⟩

theorem test_namespacesAndFormat_32 : ∃ (s : State) (ref : Ref) (nsid lbaf ses : Nat), s.accepts ref = true ∧ fromVf ref = false ∧ (s.latch ref).map.sanitize.active = 0 ∧ lbaf ≤ 2 ∧ ses ≤ 2 ∧ (((s.latch ref).qe.nss.filter (fun n => (nsid == 0xFFFFFFFF && n.cut.isNone) || n.nsid == nsid)).isEmpty && nsid != 0xFFFFFFFF) = false ∧ ((s.latch ref).qe.nss.filter (fun n => (nsid == 0xFFFFFFFF && n.cut.isNone) || n.nsid == nsid)).any (fun n => n.cut.isSome) = false ∧ (s.latch ref).qe.cmds.any (fun c => ((s.latch ref).qe.nss.filter (fun n => (nsid == 0xFFFFFFFF && n.cut.isNone) || n.nsid == nsid)).any (fun n => n.nsid == c.nsid)) = true :=
  ⟨{ sRun with qe := { sRun.qe with nss := [nsOne], cmds := [cFlush] } }, .host 0 0 1, 1, 0, 0, by decide⟩

theorem test_namespacesAndFormat_33 : ∃ (s : State) (ref : Ref) (nsid lbaf ses : Nat), s.accepts ref = true ∧ fromVf ref = false ∧ (s.latch ref).map.sanitize.active = 0 ∧ lbaf ≤ 2 ∧ ses ≤ 2 ∧ (((s.latch ref).qe.nss.filter (fun n => (nsid == 0xFFFFFFFF && n.cut.isNone) || n.nsid == nsid)).isEmpty && nsid != 0xFFFFFFFF) = false ∧ ((s.latch ref).qe.nss.filter (fun n => (nsid == 0xFFFFFFFF && n.cut.isNone) || n.nsid == nsid)).any (fun n => n.cut.isSome) = false ∧ (s.latch ref).qe.cmds.any (fun c => ((s.latch ref).qe.nss.filter (fun n => (nsid == 0xFFFFFFFF && n.cut.isNone) || n.nsid == nsid)).any (fun n => n.nsid == c.nsid)) = false :=
  ⟨{ sRun with qe := { sRun.qe with nss := [nsOne] } }, .host 0 0 1, 1, 1, 0, by decide⟩

theorem test_namespacesAndFormat_34 : ∃ (s : State) (ref : Ref) (ause : Bool), s.accepts ref = true ∧ fromVf ref = false ∧ (s.latch ref).map.sanitize.active = 0 :=
  ⟨sRun, .host 0 0 1, true, by decide⟩

theorem test_namespacesAndFormat_35 : ∃ (s : State) (ref : Ref) (ause : Bool), s.accepts ref = true ∧ fromVf ref = false ∧ (s.latch ref).map.sanitize.active = 0 :=
  ⟨sRun, .host 0 0 1, true, by decide⟩

theorem test_namespacesAndFormat_36 : ∃ (s : State) (ref : Ref) (ause : Bool), s.accepts ref = true ∧ fromVf ref = false ∧ (s.latch ref).map.sanitize.active = 0 ∧ (s.latch ref).map.sanitize.failed = false :=
  ⟨sRun, .host 0 0 1, true, by decide⟩

theorem test_namespacesAndFormat_37 : ∃ (s : State) (ref : Ref) (ause : Bool), s.accepts ref = true ∧ fromVf ref = false ∧ (s.latch ref).map.sanitize.active = 0 ∧ (s.latch ref).map.sanitize.failed = true ∧ (s.latch ref).map.sanitize.ause = false :=
  ⟨{ sRun with map := { sanitize := { failed := true, ause := false } } }, .host 0 0 1, true, by decide⟩

theorem test_namespacesAndFormat_38 : ∃ (s : State) (ref : Ref) (ause : Bool), s.accepts ref = true ∧ fromVf ref = false ∧ (s.latch ref).map.sanitize.active = 0 ∧ (s.latch ref).map.sanitize.failed = true ∧ (s.latch ref).map.sanitize.ause = true :=
  ⟨{ sRun with map := { sanitize := { failed := true, ause := true } } }, .host 0 0 1, true, by decide⟩

theorem test_namespacesAndFormat_39 : ∃ (s : State) (ref : Ref) (sanact : Nat) (ause : Bool), s.accepts ref = true ∧ fromVf ref = false ∧ (s.latch ref).map.sanitize.active = 0 ∧ (sanact = 0 ∨ sanact = 3 ∨ 5 ≤ sanact) :=
  ⟨sRun, .host 0 0 1, 3, true, by decide⟩

theorem test_adminSmall_1 : ∃ (s : State) (ref : Ref) , s.accepts ref = true :=
  ⟨sRun, .host 0 0 1, by decide⟩

theorem test_adminSmall_2 : ∃ (s : State) (ref : Ref) (nsid dtype doper cdw12 : Nat), s.accepts ref = true ∧ ((s.latch ref).ns nsid).any (fun n => n.attached.contains (ctrlIx ref)) = false :=
  ⟨sRun, .host 0 0 1, 1, 0, 1, 513, by decide⟩

theorem test_adminSmall_3 : ∃ (s : State) (ref : Ref) (nsid dtype doper cdw12 : Nat), s.accepts ref = true ∧ ((s.latch ref).ns nsid).any (fun n => n.attached.contains (ctrlIx ref)) = true ∧ (dtype != 0 || doper != 1 || bitsOf cdw12 8 8 != 2 || (cdw12.testBit 0 && !(s.latch ref).map.fdp)) = true :=
  ⟨{ sRun with qe := { sRun.qe with nss := [nsOne] } }, .host 0 0 1, 1, 0, 1, 513, by decide⟩

theorem test_adminSmall_4 : ∃ (s : State) (ref : Ref) (nsid dtype doper cdw12 : Nat), s.accepts ref = true ∧ ((s.latch ref).ns nsid).any (fun n => n.attached.contains (ctrlIx ref)) = true ∧ (dtype != 0 || doper != 1 || bitsOf cdw12 8 8 != 2 || (cdw12.testBit 0 && !(s.latch ref).map.fdp)) = false :=
  ⟨{ sRun with qe := { sRun.qe with nss := [nsOne] } }, .host 0 0 1, 1, 0, 1, 512, by decide⟩

theorem test_adminSmall_5 : ∃ (s : State) (ref : Ref) (nsid dtype doper : Nat), s.accepts ref = true ∧ ((s.latch ref).ns nsid).any (fun n => n.attached.contains (ctrlIx ref)) = false :=
  ⟨sRun, .host 0 0 1, 1, 0, 1, by decide⟩

theorem test_adminSmall_6 : ∃ (s : State) (ref : Ref) (nsid dtype doper : Nat), s.accepts ref = true ∧ ((s.latch ref).ns nsid).any (fun n => n.attached.contains (ctrlIx ref)) = true ∧ (dtype != 0 || doper != 1) = true :=
  ⟨{ sRun with qe := { sRun.qe with nss := [nsOne] } }, .host 0 0 1, 1, 1, 1, by decide⟩

theorem test_adminSmall_7 : ∃ (s : State) (ref : Ref) (nsid dtype doper : Nat), s.accepts ref = true ∧ ((s.latch ref).ns nsid).any (fun n => n.attached.contains (ctrlIx ref)) = true ∧ (dtype != 0 || doper != 1) = false :=
  ⟨{ sRun with qe := { sRun.qe with nss := [nsOne] } }, .host 0 0 1, 1, 0, 1, by decide⟩

theorem test_adminSmall_8 : ∃ (s : State) (ref : Ref) (prp1 prp2 : Nat), s.accepts ref = true ∧ (prp1 % 4096 != 0 || prp2 % 4096 != 0) = true :=
  ⟨sRun, .host 0 0 1, 4096, 8, by decide⟩

theorem test_adminSmall_9 : ∃ (s : State) (ref : Ref) (prp1 prp2 : Nat), s.accepts ref = true ∧ (prp1 % 4096 != 0 || prp2 % 4096 != 0) = false :=
  ⟨sRun, .host 0 0 1, 4096, 8192, by decide⟩

theorem test_firmwareCommands_1 : ∃ (s : State) (ref : Ref) (offset length : Nat) (chunks : List (Nat × PkgChunk)), s.accepts ref = true ∧ (holderOf ref).isNone = true :=
  ⟨{ sRun with qe := { ctrls := [{ id := 2, en := true, rdy := true }], fetched := [⟨2, 0, 0, some 1, false⟩] } }, .host 2 0 1, 0, 65536, [], by decide⟩

theorem test_firmwareCommands_2 : ∃ (s : State) (ref : Ref) (offset length : Nat) (chunks : List (Nat × PkgChunk)), s.accepts ref = true ∧ (holderOf ref).isNone = false ∧ (offset % 65536 != 0 || length % 65536 != 0 || length = 0 || 33554432 < offset + length) = true :=
  ⟨sRun, .host 0 0 1, 0, 100, [], by decide⟩

theorem test_firmwareCommands_3 : ∃ (s : State) (ref : Ref) (offset length : Nat) (chunks : List (Nat × PkgChunk)), s.accepts ref = true ∧ (holderOf ref).isNone = false ∧ (offset % 65536 != 0 || length % 65536 != 0 || length = 0 || 33554432 < offset + length) = false :=
  ⟨sRun, .host 0 0 1, 0, 65536, [], by decide⟩

theorem test_firmwareCommands_4 : ∃ (s : State) (ref : Ref) (slot : Nat), s.accepts ref = true ∧ (holderOf ref).isNone = true :=
  ⟨{ sRun with qe := { ctrls := [{ id := 2, en := true, rdy := true }], fetched := [⟨2, 0, 0, some 1, false⟩] } }, .host 2 0 1, 2, by decide⟩

theorem test_firmwareCommands_5 : ∃ (s : State) (ref : Ref) (slot : Nat), s.accepts ref = true ∧ (holderOf ref).isNone = false ∧ slot ≠ 2 :=
  ⟨sRun, .host 0 0 1, 1, by decide⟩

theorem test_firmwareCommands_6 : ∃ (s : State) (ref : Ref) (reason : Nat), s.accepts ref = true ∧ (holderOf ref).isNone = false ∧ (s.latch ref).commitRefusal (some ref) ((s.latch ref).bootServes (some ref) 0) (((s.latch ref).bxl.staging.manifest.map (fun m => m.svn)).getD 0) = some reason :=
  ⟨{ sRun with bxl := { lock := true } }, .host 0 0 1, 2, by decide⟩

theorem test_firmwareCommands_7 : ∃ (s : State) (ref : Ref) (m : Manifest), s.accepts ref = true ∧ (holderOf ref).isNone = false ∧ (s.latch ref).commitRefusal (some ref) ((s.latch ref).bootServes (some ref) 0) m.svn = none ∧ (s.latch ref).bxl.staging.manifest = some m ∧ (s.latch ref).packageOk 0 (s.latch ref).bxl.staging = true :=
  ⟨sReady0 gPlain, .host 0 0 1, { plain := true, digs := [5] }, by decide⟩

theorem test_firmwareCommands_8 : ∃ (s : State) (ref : Ref) (m : Manifest), s.accepts ref = true ∧ (holderOf ref).isNone = false ∧ (s.latch ref).commitRefusal (some ref) ((s.latch ref).bootServes (some ref) 0) m.svn = none ∧ (s.latch ref).bxl.staging.manifest = some m ∧ (s.latch ref).packageOk 0 (s.latch ref).bxl.staging = false :=
  ⟨sReady, .host 0 0 1, { form := false }, by decide⟩

theorem test_firmwareCommands_9 : ∃ (s : State) (ref : Ref) , s.accepts ref = true ∧ (holderOf ref).isNone = false ∧ (s.latch ref).commitRefusal (some ref) ((s.latch ref).bootServes (some ref) 0) 0 = none ∧ (s.latch ref).bxl.staging.manifest = none :=
  ⟨sReady0 {}, .host 0 0 1, by decide⟩

theorem test_firmwareCommands_10 : ∃ (s : State) (ref : Ref) (slot : Nat), s.accepts ref = true ∧ (holderOf ref).isNone = true :=
  ⟨{ sRun with qe := { ctrls := [{ id := 2, en := true, rdy := true }], fetched := [⟨2, 0, 0, some 1, false⟩] } }, .host 2 0 1, 2, by decide⟩

theorem test_firmwareCommands_11 : ∃ (s : State) (ref : Ref) (slot : Nat), s.accepts ref = true ∧ (holderOf ref).isNone = false ∧ slot ≠ 2 :=
  ⟨sRun, .host 0 0 1, 1, by decide⟩

theorem test_firmwareCommands_12 : ∃ (s : State) (ref : Ref) (reason : Nat), s.accepts ref = true ∧ (holderOf ref).isNone = false ∧ (s.latch ref).commitRefusal (some ref) ((s.latch ref).bootServes (some ref) 1) (((s.latch ref).bxl.staging.manifest.map (fun m => m.svn)).getD 0) = some reason :=
  ⟨{ sRun with bxl := { lock := true } }, .host 0 0 1, 2, by decide⟩

theorem test_firmwareCommands_13 : ∃ (s : State) (ref : Ref) (m : Manifest), s.accepts ref = true ∧ (holderOf ref).isNone = false ∧ (s.latch ref).commitRefusal (some ref) ((s.latch ref).bootServes (some ref) 1) m.svn = none ∧ (s.latch ref).bxl.staging.manifest = some m ∧ (s.latch ref).packageOk 1 (s.latch ref).bxl.staging = true :=
  ⟨sReady0 gPlain, .host 0 0 1, { plain := true, digs := [5] }, by decide⟩

theorem test_firmwareCommands_14 : ∃ (s : State) (ref : Ref) (m : Manifest), s.accepts ref = true ∧ (holderOf ref).isNone = false ∧ (s.latch ref).commitRefusal (some ref) ((s.latch ref).bootServes (some ref) 1) m.svn = none ∧ (s.latch ref).bxl.staging.manifest = some m ∧ (s.latch ref).packageOk 1 (s.latch ref).bxl.staging = false :=
  ⟨sReady, .host 0 0 1, { form := false }, by decide⟩

theorem test_firmwareCommands_15 : ∃ (s : State) (ref : Ref) , s.accepts ref = true ∧ (holderOf ref).isNone = false ∧ (s.latch ref).commitRefusal (some ref) ((s.latch ref).bootServes (some ref) 1) 0 = none ∧ (s.latch ref).bxl.staging.manifest = none :=
  ⟨sReady0 {}, .host 0 0 1, by decide⟩

theorem test_firmwareCommands_16 : ∃ (s : State) (ref : Ref) (action slot : Nat), s.accepts ref = true ∧ (holderOf ref).isNone = true :=
  ⟨{ sRun with qe := { ctrls := [{ id := 2, en := true, rdy := true }], fetched := [⟨2, 0, 0, some 1, false⟩] } }, .host 2 0 1, 2, 2, by decide⟩

theorem test_firmwareCommands_17 : ∃ (s : State) (ref : Ref) (action slot : Nat), s.accepts ref = true ∧ (holderOf ref).isNone = false ∧ action ≠ 2 :=
  ⟨sRun, .host 0 0 1, 3, 2, by decide⟩

theorem test_firmwareCommands_18 : ∃ (s : State) (ref : Ref) (slot : Nat), s.accepts ref = true ∧ (holderOf ref).isNone = false ∧ slot ≠ 2 ∧ slot ≠ 3 :=
  ⟨sRun, .host 0 0 1, 1, by decide⟩

theorem test_firmwareCommands_19 : ∃ (s : State) (ref : Ref) (slot reason : Nat), s.accepts ref = true ∧ (holderOf ref).isNone = false ∧ (slot = 2 ∨ slot = 3) ∧ (s.latch ref).commitRefusal (some ref) false 0 = some reason :=
  ⟨{ sRun with bxl := { lock := true } }, .host 0 0 1, 3, 2, by decide⟩

theorem test_firmwareCommands_20 : ∃ (s : State) (ref : Ref) (slot : Nat), s.accepts ref = true ∧ (holderOf ref).isNone = false ∧ (slot = 2 ∨ slot = 3) ∧ (s.latch ref).commitRefusal (some ref) false 0 = none ∧ ({ (s.latch ref) with bxl := { (s.latch ref).bxl with force := false } } : State).slotAccepted (({ (s.latch ref) with bxl := { (s.latch ref).bxl with force := false } } : State).slot slot) = false :=
  ⟨sReady, .host 0 0 1, 2, by decide⟩

theorem test_firmwareCommands_21 : ∃ (s : State) (ref : Ref) (slot : Nat), s.accepts ref = true ∧ (holderOf ref).isNone = false ∧ (slot = 2 ∨ slot = 3) ∧ (s.latch ref).commitRefusal (some ref) false 0 = none ∧ ({ (s.latch ref) with bxl := { (s.latch ref).bxl with force := false } } : State).slotAccepted (({ (s.latch ref) with bxl := { (s.latch ref).bxl with force := false } } : State).slot slot) = true :=
  ⟨sSlots, .host 0 0 1, 2, by decide⟩

theorem test_cutsAndScriptorium_1 : ∃ (s : State) (ref : Ref) (nsid cdw10 cdw11 cdw12 : Nat), s.accepts ref = true ∧ (holderOf ref).isNone = true :=
  ⟨{ sRun with qe := { ctrls := [{ id := 2, en := true, rdy := true }], fetched := [⟨2, 0, 0, some 1, false⟩] } }, .host 2 0 1, 1, 0, 0, 0, by decide⟩

theorem test_cutsAndScriptorium_2 : ∃ (s : State) (ref : Ref) (nsid cdw10 cdw11 cdw12 : Nat), s.accepts ref = true ∧ (holderOf ref).isNone = false ∧ 2 ≤ cdw12 :=
  ⟨sRun, .host 0 0 1, 1, 0, 0, 2, by decide⟩

theorem test_cutsAndScriptorium_3 : ∃ (s : State) (ref : Ref) (nsid cdw10 cdw11 cdw12 : Nat), s.accepts ref = true ∧ (holderOf ref).isNone = false ∧ cdw12 < 2 ∧ (nsid != 0xFFFFFFFF && (s.ns nsid).isNone) = true :=
  ⟨sRun, .host 0 0 1, 1, 0, 0, 0, by decide⟩

theorem test_cutsAndScriptorium_4 : ∃ (s : State) (ref : Ref) (nsid cdw10 cdw11 cdw12 : Nat) (st : Status) (dw0 : Nat), s.accepts ref = true ∧ (holderOf ref).isNone = false ∧ cdw12 < 2 ∧ (nsid != 0xFFFFFFFF && (s.ns nsid).isNone) = false ∧ (s.latch ref).cutCheck (if ref = .side then 1 else 0) nsid (cdw10 % 2 ^ 32 + 2 ^ 32 * (cdw11 % 2 ^ 32)) (s.nowAt islQueue / 256) = some (st, dw0) :=
  ⟨sRun, .host 0 0 1, 0xFFFFFFFF, 0, 0, 1, .rulingUnsync, 0, by decide⟩

theorem test_cutsAndScriptorium_5 : ∃ (s : State) (ref : Ref) (nsid cdw10 cdw11 cdw12 : Nat), s.accepts ref = true ∧ (holderOf ref).isNone = false ∧ cdw12 < 2 ∧ (nsid != 0xFFFFFFFF && (s.ns nsid).isNone) = false ∧ (s.latch ref).cutCheck (if ref = .side then 1 else 0) nsid (cdw10 % 2 ^ 32 + 2 ^ 32 * (cdw11 % 2 ^ 32)) (s.nowAt islQueue / 256) = none :=
  ⟨{ sRun with rul := { cls := 0 } }, .host 0 0 1, 0xFFFFFFFF, 2000000, 0, 1, by decide +kernel⟩

theorem test_cutsAndScriptorium_6 : ∃ (s : State) (ref : Ref) (cdw10 : Nat), s.accepts ref = true ∧ (holderOf ref).isNone = true :=
  ⟨{ sRun with qe := { ctrls := [{ id := 2, en := true, rdy := true }], fetched := [⟨2, 0, 0, some 1, false⟩] } }, .host 2 0 1, 0, by decide⟩

theorem test_cutsAndScriptorium_7 : ∃ (s : State) (ref : Ref) (cdw10 : Nat), s.accepts ref = true ∧ (holderOf ref).isNone = false ∧ s.ckpt.cuts.any (fun c => c.slot == cdw10 % 16) = false :=
  ⟨sRun, .host 0 0 1, 0, by decide⟩

theorem test_cutsAndScriptorium_8 : ∃ (s : State) (ref : Ref) (cdw10 : Nat), s.accepts ref = true ∧ (holderOf ref).isNone = false ∧ s.ckpt.cuts.any (fun c => c.slot == cdw10 % 16) = true :=
  ⟨{ sRun with ckpt := { cuts := [{ slot := 3, time := 0 }] } }, .host 0 0 1, 3, by decide⟩

theorem test_cutsAndScriptorium_9 : ∃ (s : State) (ref : Ref) (cdw10 cdw11 cdw12 : Nat) (data : List Nat) (digest : Bool), s.accepts ref = true ∧ (holderOf ref).isNone = true :=
  ⟨{ sRun with qe := { ctrls := [{ id := 2, en := true, rdy := true }], fetched := [⟨2, 0, 0, some 1, false⟩] } }, .host 2 0 1, 16, 1, 0, [], true, by decide⟩

theorem test_cutsAndScriptorium_10 : ∃ (s : State) (ref : Ref) (cdw10 cdw11 cdw12 : Nat) (data : List Nat) (digest : Bool) (h : Holder), s.accepts ref = true ∧ (holderOf ref).isNone = false ∧ (s.latch ref).heldAgainst ref = some h :=
  ⟨{ sRun with mgmt := { lock := some .pf1 } }, .host 0 0 1, 16, 1, 0, [], true, .pf1, by decide⟩

theorem test_cutsAndScriptorium_11 : ∃ (s : State) (ref : Ref) (cdw10 cdw11 cdw12 : Nat) (data : List Nat) (digest : Bool), s.accepts ref = true ∧ (holderOf ref).isNone = false ∧ (s.latch ref).heldAgainst ref = none ∧ (s.latch ref).nib.load.isSome = true :=
  ⟨{ sRun with nib := { load := some (.host 1 0 1, {}, []) } }, .host 0 0 1, 16, 1, 0, [], true, by decide⟩

theorem test_cutsAndScriptorium_12 : ∃ (s : State) (ref : Ref) (cdw10 cdw11 cdw12 : Nat) (data : List Nat) (digest : Bool), s.accepts ref = true ∧ (holderOf ref).isNone = false ∧ (s.latch ref).heldAgainst ref = none ∧ (s.latch ref).nib.load.isSome = false ∧ ((s.latch ref).lifecycle = 4 || (s.latch ref).lifecycle = 5) = false ∧ (s.latch ref).bxl.lock = false ∧ ((s.latch ref).mode = .safe || (s.latch ref).mode = .holdUp) = true :=
  ⟨{ sRun with mode := .safe }, .host 0 0 1, 16, 1, 0, [], true, by decide⟩

theorem test_cutsAndScriptorium_13 : ∃ (s : State) (ref : Ref) (cdw10 cdw11 cdw12 : Nat) (data : List Nat) (digest : Bool), s.accepts ref = true ∧ (holderOf ref).isNone = false ∧ (s.latch ref).heldAgainst ref = none ∧ (s.latch ref).nib.load.isSome = false ∧ ((s.latch ref).lifecycle = 4 || (s.latch ref).lifecycle = 5) = true :=
  ⟨{ sRun with fol := { resolved := [(0, 15)] } }, .host 0 0 1, 16, 1, 0, [], true, by decide⟩

theorem test_cutsAndScriptorium_14 : ∃ (s : State) (ref : Ref) (cdw10 cdw11 cdw12 : Nat) (data : List Nat) (digest : Bool), s.accepts ref = true ∧ (holderOf ref).isNone = false ∧ (s.latch ref).heldAgainst ref = none ∧ (s.latch ref).nib.load.isSome = false ∧ ((s.latch ref).lifecycle = 4 || (s.latch ref).lifecycle = 5) = false ∧ (s.latch ref).bxl.lock = true :=
  ⟨{ sRun with bxl := { lock := true } }, .host 0 0 1, 16, 1, 0, [], true, by decide⟩

theorem test_cutsAndScriptorium_15 : ∃ (s : State) (ref : Ref) (cdw10 cdw11 cdw12 : Nat) (data : List Nat) (digest : Bool) (dw0 : Nat), s.accepts ref = true ∧ (holderOf ref).isNone = false ∧ (s.latch ref).heldAgainst ref = none ∧ (s.latch ref).nib.load.isSome = false ∧ ((s.latch ref).lifecycle = 4 || (s.latch ref).lifecycle = 5) = false ∧ (s.latch ref).bxl.lock = false ∧ ((s.latch ref).mode = .safe || (s.latch ref).mode = .holdUp) = false ∧ imgCheck (cdw11 % 2 ^ 32 + 2 ^ 32 * (cdw12 % 2 ^ 16)) cdw12 (4 * cdw10) ((s.latch ref).flag F.DEV_SEAL_SEAL) (if cdw12.testBit 16 then (List.range (min (4 * cdw10) 14912)).map (fun a => (windowByte (s.latch ref).nib.window a).toNat) else data) digest = some dw0 :=
  ⟨sRun, .host 0 0 1, 16, 0, 0, [], true, 0, by decide⟩

theorem test_cutsAndScriptorium_16 : ∃ (s : State) (ref : Ref) (cdw10 cdw11 cdw12 : Nat) (data : List Nat) (digest : Bool), s.accepts ref = true ∧ (holderOf ref).isNone = false ∧ (s.latch ref).heldAgainst ref = none ∧ (s.latch ref).nib.load.isSome = false ∧ ((s.latch ref).lifecycle = 4 || (s.latch ref).lifecycle = 5) = false ∧ (s.latch ref).bxl.lock = false ∧ ((s.latch ref).mode = .safe || (s.latch ref).mode = .holdUp) = false ∧ imgCheck (cdw11 % 2 ^ 32 + 2 ^ 32 * (cdw12 % 2 ^ 16)) cdw12 (4 * cdw10) ((s.latch ref).flag F.DEV_SEAL_SEAL) (if cdw12.testBit 16 then (List.range (min (4 * cdw10) 14912)).map (fun a => (windowByte (s.latch ref).nib.window a).toNat) else data) digest = none :=
  ⟨sRun, .host 0 0 1, 16, 1, 0, [0x31, 0x43, 0x53, 0x51, 1, 0] ++ List.replicate 58 0, true, by decide⟩

theorem test_cutsAndScriptorium_17 : ∃ (s : State) (ref : Ref) (params : Nat) (reports : Bool), s.accepts ref = true ∧ (holderOf ref).isNone = true :=
  ⟨{ sRun with qe := { ctrls := [{ id := 2, en := true, rdy := true }], fetched := [⟨2, 0, 0, some 1, false⟩] } }, .host 2 0 1, 0, true, by decide⟩

theorem test_cutsAndScriptorium_18 : ∃ (s : State) (ref : Ref) (params : Nat) (reports : Bool), s.accepts ref = true ∧ (holderOf ref).isNone = false ∧ params ≠ 0 :=
  ⟨sRun, .host 0 0 1, 1, true, by decide⟩

theorem test_cutsAndScriptorium_19 : ∃ (s : State) (ref : Ref) (reports : Bool) (d : Drill), s.accepts ref = true ∧ (holderOf ref).isNone = false ∧ (s.latch ref).tine.drill = some d :=
  ⟨{ sPair with tine := { drill := some { cause := 3, from_ := false } } }, .host 0 0 1, true, { cause := 3, from_ := false }, by decide⟩

theorem test_cutsAndScriptorium_20 : ∃ (s : State) (ref : Ref) (reports : Bool), s.accepts ref = true ∧ (holderOf ref).isNone = false ∧ (s.latch ref).tine.drill = none ∧ (s.latch ref).tine.paired = false :=
  ⟨sRun, .host 0 0 1, true, by decide⟩

theorem test_cutsAndScriptorium_21 : ∃ (s : State) (ref : Ref) (reports : Bool), s.accepts ref = true ∧ (holderOf ref).isNone = false ∧ (s.latch ref).tine.drill = none ∧ (s.latch ref).tine.paired = true ∧ (s.latch ref).mode = .safe :=
  ⟨{ sPair with mode := .safe }, .host 0 0 1, true, by decide⟩

theorem test_cutsAndScriptorium_22 : ∃ (s : State) (ref : Ref) (reports : Bool), s.accepts ref = true ∧ (holderOf ref).isNone = false ∧ (s.latch ref).tine.drill = none ∧ (s.latch ref).tine.paired = true ∧ (s.latch ref).mode ≠ .safe :=
  ⟨sPair, .host 0 0 1, true, by decide⟩

theorem test_chainLifecycleAuthority_1 : ∃ (s : State) (ref : Ref) (cdw10 : Nat), s.accepts ref = true ∧ (holderOf ref).isNone = true :=
  ⟨{ sRun with qe := { ctrls := [{ id := 2, en := true, rdy := true }], fetched := [⟨2, 0, 0, some 1, false⟩] } }, .host 2 0 1, 0, by decide⟩

theorem test_chainLifecycleAuthority_2 : ∃ (s : State) (ref : Ref) (cdw10 : Nat), s.accepts ref = true ∧ (holderOf ref).isNone = false ∧ cdw10 % 4 ≠ 0 :=
  ⟨sRun, .host 0 0 1, 1, by decide⟩

theorem test_chainLifecycleAuthority_3 : ∃ (s : State) (ref : Ref) (cdw10 : Nat), s.accepts ref = true ∧ (holderOf ref).isNone = false ∧ cdw10 % 4 = 0 ∧ ((s.latch ref).sweeping || ((s.latch ref).bxl.relay.any (fun r => r.ref.isSome))) = true :=
  ⟨{ sRun with bxl := { relay := some { action := 0, chunks := 2, ref := some .side } } }, .host 0 0 1, 0, by decide⟩

theorem test_chainLifecycleAuthority_4 : ∃ (s : State) (ref : Ref) (cdw10 : Nat), s.accepts ref = true ∧ (holderOf ref).isNone = false ∧ cdw10 % 4 = 0 ∧ ((s.latch ref).sweeping || ((s.latch ref).bxl.relay.any (fun r => r.ref.isSome))) = false :=
  ⟨sRun, .host 0 0 1, 0, by decide⟩

theorem test_chainLifecycleAuthority_5 : ∃ (s : State) (ref : Ref) (cdw11 : Nat), s.accepts ref = true ∧ (holderOf ref).isNone = true :=
  ⟨{ sRun with qe := { ctrls := [{ id := 2, en := true, rdy := true }], fetched := [⟨2, 0, 0, some 1, false⟩] } }, .host 2 0 1, 0, by decide⟩

theorem test_chainLifecycleAuthority_6 : ∃ (s : State) (ref : Ref) (cdw11 : Nat), s.accepts ref = true ∧ (holderOf ref).isNone = false ∧ 2 ≤ cdw11 % 8 :=
  ⟨sRun, .host 0 0 1, 2, by decide⟩

theorem test_chainLifecycleAuthority_7 : ∃ (s : State) (ref : Ref) (cdw11 : Nat), s.accepts ref = true ∧ (holderOf ref).isNone = false ∧ cdw11 % 8 < 2 ∧ ((s.latch ref).sweeping || (s.latch ref).bxl.relay.isSome || !(s.latch ref).bxl.staging.whole) = true :=
  ⟨sRun, .host 0 0 1, 0, by decide⟩

theorem test_chainLifecycleAuthority_8 : ∃ (s : State) (ref : Ref) (cdw11 : Nat), s.accepts ref = true ∧ (holderOf ref).isNone = false ∧ cdw11 % 8 < 2 ∧ ((s.latch ref).sweeping || (s.latch ref).bxl.relay.isSome || !(s.latch ref).bxl.staging.whole) = false :=
  ⟨sReady0 gPlain, .host 0 0 1, 0, by decide⟩

theorem test_chainLifecycleAuthority_9 : ∃ (s : State) (ref : Ref) (dest len : Nat) (token : LcToken), s.accepts ref = true ∧ (holderOf ref).isNone = true :=
  ⟨{ sRun with qe := { ctrls := [{ id := 2, en := true, rdy := true }], fetched := [⟨2, 0, 0, some 1, false⟩] } }, .host 2 0 1, 1, 0, {}, by decide⟩

theorem test_chainLifecycleAuthority_10 : ∃ (s : State) (ref : Ref) (dest len : Nat) (token : LcToken) (st : Status) (dw0 : Nat), s.accepts ref = true ∧ (holderOf ref).isNone = false ∧ (s.latch ref).lcCheck ref (dest % 8) len token = some (st, dw0) :=
  ⟨sRun, .host 0 0 1, 3, 0, {}, .invalidField, 1, by decide⟩

theorem test_chainLifecycleAuthority_11 : ∃ (s : State) (ref : Ref) (dest len : Nat) (token : LcToken), s.accepts ref = true ∧ (holderOf ref).isNone = false ∧ (s.latch ref).lcCheck ref (dest % 8) len token = none :=
  ⟨sStore, .host 0 0 1, 1, 3469, { dest := 1 }, by decide⟩

theorem test_chainLifecycleAuthority_12 : ∃ (s : State) (ref : Ref) , s.accepts ref = true ∧ holderOf ref = none :=
  ⟨{ sRun with qe := { ctrls := [{ id := 2, en := true, rdy := true }], fetched := [⟨2, 0, 0, some 1, false⟩] } }, .host 2 0 1, by decide⟩

theorem test_chainLifecycleAuthority_13 : ∃ (s : State) (ref : Ref) , s.accepts ref = true ∧ holderOf ref = none :=
  ⟨{ sRun with qe := { ctrls := [{ id := 2, en := true, rdy := true }], fetched := [⟨2, 0, 0, some 1, false⟩] } }, .host 2 0 1, by decide⟩

theorem test_chainLifecycleAuthority_14 : ∃ (s : State) (ref : Ref) (h o : Holder), s.accepts ref = true ∧ holderOf ref = some h ∧ (s.latch ref).heldAgainst ref = some o :=
  ⟨{ sRun with mgmt := { lock := some .pf1 } }, .host 0 0 1, .pf0, .pf1, by decide⟩

theorem test_chainLifecycleAuthority_15 : ∃ (s : State) (ref : Ref) (h : Holder), s.accepts ref = true ∧ holderOf ref = some h ∧ (s.latch ref).heldAgainst ref = none :=
  ⟨sRun, .host 0 0 1, .pf0, by decide⟩

theorem test_chainLifecycleAuthority_16 : ∃ (s : State) (ref : Ref) (h : Holder), s.accepts ref = true ∧ holderOf ref = some h ∧ ((s.latch ref).mgmt.lock != some h || ((s.latch ref).heldAgainst ref).isSome) = true :=
  ⟨sRun, .host 0 0 1, .pf0, by decide⟩

theorem test_chainLifecycleAuthority_17 : ∃ (s : State) (ref : Ref) (h : Holder), s.accepts ref = true ∧ holderOf ref = some h ∧ ((s.latch ref).mgmt.lock != some h || ((s.latch ref).heldAgainst ref).isSome) = false :=
  ⟨{ sRun with mgmt := { lock := some .pf0 } }, .host 0 0 1, .pf0, by decide⟩

theorem test_writesAndChanges_1 : ∃ (s : State) (ref : Ref) (nsid slba nlb : Nat) (e : Status), s.accepts ref = true ∧ s.ioCheck ref nsid slba nlb .changes = .error e :=
  ⟨sNs, .host 0 1 1, 2, 0, 8, .invalidNamespace, by decide, rfl⟩

theorem test_writesAndChanges_2 : ∃ (s : State) (ref : Ref) (nsid slba nlb : Nat) (e : Status), s.accepts ref = true ∧ s.ioCheck ref nsid slba nlb .changes = .error e :=
  ⟨sNs, .host 0 1 1, 2, 0, 8, .invalidNamespace, by decide, rfl⟩

theorem test_writesAndChanges_3 : ∃ (s : State) (ref : Ref) (nsid slba nlb : Nat) (fua : Bool) (dtype dspec : Nat) (gate : Option Ref) (e : Status), s.accepts ref = true ∧ s.ioCheck ref nsid slba nlb .changes = .error e :=
  ⟨sNs, .host 0 1 1, 2, 0, 8, false, 0, 0, none, .invalidNamespace, by decide, rfl⟩

theorem test_writesAndChanges_4 : ∃ (s : State) (ref : Ref) (nsid slba nlb : Nat) (fua : Bool) (dtype dspec : Nat) (gate : Option Ref) (n : Ns), s.accepts ref = true ∧ s.ioCheck ref nsid slba nlb .changes = .ok n ∧ n.mdtsBlocks < nlb :=
  ⟨sNs, .host 0 1 1, 1, 0, 513, false, 0, 0, none, nsOne, by decide, rfl, by decide⟩

theorem test_writesAndChanges_5 : ∃ (s : State) (ref : Ref) (nsid slba nlb : Nat) (fua : Bool) (dtype dspec : Nat) (gate : Option Ref) (n : Ns), s.accepts ref = true ∧ s.ioCheck ref nsid slba nlb .changes = .ok n ∧ nlb ≤ n.mdtsBlocks ∧ gate.any (fun r => !s.qe.cmds.any (fun c => c.ref == r && c.parked)) = true :=
  ⟨sNs, .host 0 1 1, 1, 0, 8, false, 0, 0, some (.host 0 1 7), nsOne, by decide, rfl, by decide, by decide⟩

theorem test_writesAndChanges_6 : ∃ (s : State) (ref : Ref) (nsid slba nlb : Nat) (fua : Bool) (dtype dspec : Nat) (gate : Option Ref) (n : Ns), s.accepts ref = true ∧ s.ioCheck ref nsid slba nlb .changes = .ok n ∧ nlb ≤ n.mdtsBlocks ∧ gate.any (fun r => !s.qe.cmds.any (fun c => c.ref == r && c.parked)) = false :=
  ⟨{ sNs with qe := { sNs.qe with cmds := [{ ref := .host 0 1 7, kind := .compare, nsid := 1, n := 8, parked := true }] } }, .host 0 1 1, 1, 0, 8, false, 0, 0, some (.host 0 1 7), nsOne, by decide, rfl, by decide, by decide⟩

theorem test_writesAndChanges_7 : ∃ (s : State) (ref : Ref) (nsid slba nlb : Nat) (n : Ns), s.accepts ref = true ∧ s.ioCheck ref nsid slba nlb .changes = .ok n :=
  ⟨sNs, .host 0 1 1, 1, 0, 8, nsOne, by decide, rfl⟩

theorem test_writesAndChanges_8 : ∃ (s : State) (ref : Ref) (nsid slba nlb : Nat) (n : Ns), s.accepts ref = true ∧ s.ioCheck ref nsid slba nlb .changes = .ok n :=
  ⟨sNs, .host 0 1 1, 1, 0, 8, nsOne, by decide, rfl⟩

theorem test_writesAndChanges_9 : ∃ (s : State) (ref : Ref) (nsid : Nat), s.accepts ref = true ∧ s.mode = .safe ∧ s.fld F.EVU_SAFE_MEDIA = 2 :=
  ⟨({ sNs with mode := .safe } : State).setFld F.EVU_SAFE_MEDIA 2, .host 0 1 1, 1, by decide⟩

theorem test_writesAndChanges_10 : ∃ (s : State) (ref : Ref) (nsid : Nat) (e : Status) (more : List Status), s.accepts ref = true ∧ (s.mode = .safe && s.fld F.EVU_SAFE_MEDIA = 2) = false ∧ (if nsid = 0xFFFFFFFF then (s.qe.nss.filter (fun n => n.attached.any (fun c => some c == ctrlOf ref))).map (fun n => n.nsid) else [nsid]).filterMap (fun n => match s.ioCheck ref n 0 0 .settles with | .error e => some e | .ok _ => none) = e :: more :=
  ⟨sNs, .host 0 1 1, 2, .invalidNamespace, [], by decide, by decide, rfl⟩

theorem test_writesAndChanges_11 : ∃ (s : State) (ref : Ref) (nsid : Nat), s.accepts ref = true ∧ (s.mode = .safe && s.fld F.EVU_SAFE_MEDIA = 2) = false ∧ (if nsid = 0xFFFFFFFF then (s.qe.nss.filter (fun n => n.attached.any (fun c => some c == ctrlOf ref))).map (fun n => n.nsid) else [nsid]).filterMap (fun n => match s.ioCheck ref n 0 0 .settles with | .error e => some e | .ok _ => none) = [] :=
  ⟨sNs, .host 0 1 1, 1, by decide, by decide, rfl⟩

theorem test_writesAndChanges_12 : ∃ (s : State) (ref : Ref) (nsid cdw11 : Nat) (ranges : List (Nat × Nat)) (e : Status), s.accepts ref = true ∧ s.dsmCheck ref nsid (if cdw11.testBit 8 && cdw11.testBit 2 then cdw11 - 256 else cdw11) ranges = .error e :=
  ⟨sNs, .host 0 1 1, 2, 4, [], .invalidNamespace, by decide, rfl⟩

theorem test_writesAndChanges_13 : ∃ (s : State) (ref : Ref) (nsid cdw11 : Nat) (ranges : List (Nat × Nat)) (n : Ns), s.accepts ref = true ∧ s.dsmCheck ref nsid (if cdw11.testBit 8 && cdw11.testBit 2 then cdw11 - 256 else cdw11) ranges = .ok n ∧ cdw11.testBit 2 = false :=
  ⟨sNs, .host 0 1 1, 1, 0, [], nsOne, by decide, rfl, by decide⟩

theorem test_writesAndChanges_14 : ∃ (s : State) (ref : Ref) (nsid cdw11 : Nat) (ranges : List (Nat × Nat)) (n : Ns), s.accepts ref = true ∧ s.dsmCheck ref nsid (if cdw11.testBit 8 && cdw11.testBit 2 then cdw11 - 256 else cdw11) ranges = .ok n ∧ cdw11.testBit 2 = true :=
  ⟨sNs, .host 0 1 1, 1, 4, [(0, 8)], nsOne, by decide, rfl, by decide⟩

theorem test_writesAndChanges_15 : ∃ (s : State) (ref : Ref) (nsid cdw11 : Nat) (ranges : List (Nat × Nat)) (e : Status), s.accepts ref = true ∧ s.dsmCheck ref nsid (cdw11 ||| 256) ranges = .error e :=
  ⟨sNs, .host 0 1 1, 1, 0, [], .invalidField, by decide, rfl⟩

theorem test_writesAndChanges_16 : ∃ (s : State) (ref : Ref) (nsid cdw11 : Nat) (ranges : List (Nat × Nat)) (n : Ns), s.accepts ref = true ∧ s.dsmCheck ref nsid (cdw11 ||| 256) ranges = .ok n ∧ s.ticketRoom = none :=
  ⟨sTickets, .host 0 1 1, 1, 4, [(0, 8)], nsOne, by decide, rfl, by decide⟩

theorem test_writesAndChanges_17 : ∃ (s : State) (ref : Ref) (nsid cdw11 : Nat) (ranges : List (Nat × Nat)) (n : Ns) (rest : List Ticket), s.accepts ref = true ∧ s.dsmCheck ref nsid (cdw11 ||| 256) ranges = .ok n ∧ s.ticketRoom = some rest :=
  ⟨sNs.setFld F.MAP_CTRL_SDISC_EN 1, .host 0 1 1, 1, 4, [(0, 8)], nsOne, [], by decide, rfl, by decide⟩

theorem test_readsAndCompares_1 : ∃ (s : State) (ref : Ref) (nsid slba nlb : Nat) (deadline : ReadDue) (e : Status), s.accepts ref = true ∧ s.ioCheck ref nsid slba nlb .reads = .error e :=
  ⟨sNs, .host 0 1 1, 2, 0, 8, {}, .invalidNamespace, by decide, rfl⟩

theorem test_readsAndCompares_2 : ∃ (s : State) (ref : Ref) (nsid slba nlb : Nat) (deadline : ReadDue) (n : Ns), s.accepts ref = true ∧ s.ioCheck ref nsid slba nlb .reads = .ok n ∧ n.mdtsBlocks < nlb :=
  ⟨sNs, .host 0 1 1, 1, 0, 513, {}, nsOne, by decide, rfl, by decide⟩

theorem test_readsAndCompares_3 : ∃ (s : State) (ref : Ref) (nsid slba nlb : Nat) (deadline : ReadDue) (n : Ns), s.accepts ref = true ∧ s.ioCheck ref nsid slba nlb .reads = .ok n ∧ nlb ≤ n.mdtsBlocks ∧ (deadline.us != 0 && s.mode = .safe) = true :=
  ⟨{ sNs with mode := .safe }, .host 0 1 1, 1, 0, 8, { us := 100 }, nsOne, by decide, rfl, by decide, by decide⟩

theorem test_readsAndCompares_4 : ∃ (s : State) (ref : Ref) (nsid slba nlb : Nat) (deadline : ReadDue) (n : Ns), s.accepts ref = true ∧ s.ioCheck ref nsid slba nlb .reads = .ok n ∧ nlb ≤ n.mdtsBlocks ∧ (deadline.us != 0 && s.mode = .safe) = false ∧ (deadline.us != 0 && s.feat 0xC1 ((ctrlOf ref).getD 0) 0x200 % 2 = 0) = true :=
  ⟨sNs, .host 0 1 1, 1, 0, 8, { us := 100 }, nsOne, by decide, rfl, by decide, by decide, by decide⟩

theorem test_readsAndCompares_5 : ∃ (s : State) (ref : Ref) (nsid slba nlb : Nat) (deadline : ReadDue) (n : Ns), s.accepts ref = true ∧ s.ioCheck ref nsid slba nlb .reads = .ok n ∧ nlb ≤ n.mdtsBlocks ∧ (deadline.us != 0 && s.mode = .safe) = false ∧ (deadline.us != 0 && s.feat 0xC1 ((ctrlOf ref).getD 0) 0x200 % 2 = 0) = false ∧ (deadline.us != 0 && 8 * bitsOf (s.feat 0xC1 ((ctrlOf ref).getD 0) 0x200) 4 8 < nlb * n.blkSectors) = true :=
  ⟨sDl, .host 0 1 1, 1, 0, 512, { us := 100 }, nsOne, by decide, rfl, by decide, by decide, by decide, by decide⟩

theorem test_readsAndCompares_6 : ∃ (s : State) (ref : Ref) (nsid slba nlb : Nat) (deadline : ReadDue) (n : Ns), s.accepts ref = true ∧ s.ioCheck ref nsid slba nlb .reads = .ok n ∧ nlb ≤ n.mdtsBlocks ∧ deadline.us = 0 :=
  ⟨sNs, .host 0 1 1, 1, 0, 8, {}, nsOne, by decide, rfl, by decide, by decide⟩

theorem test_readsAndCompares_7 : ∃ (s : State) (ref : Ref) (nsid slba nlb : Nat) (deadline : ReadDue) (n : Ns) (dw0 : Nat), s.accepts ref = true ∧ s.ioCheck ref nsid slba nlb .reads = .ok n ∧ nlb ≤ n.mdtsBlocks ∧ (deadline.us != 0 && s.mode = .safe) = false ∧ (deadline.us != 0 && s.feat 0xC1 ((ctrlOf ref).getD 0) 0x200 % 2 = 0) = false ∧ (deadline.us != 0 && 8 * bitsOf (s.feat 0xC1 ((ctrlOf ref).getD 0) 0x200) 4 8 < nlb * n.blkSectors) = false ∧ deadline.us ≠ 0 ∧ s.admitRead ((s.latch ref).readCmd n { ref := ref, kind := .read, nsid := nsid, slba := slba, n := nlb, latch := s.nowAt islQueue }).2 deadline.us deadline.lag = .error dw0 :=
  ⟨sAdmFull, .host 0 1 1, 1, 0, 8, { us := 100 }, nsOne, 0, by decide, rfl, by decide, by decide, by decide, by decide, by decide, admitRead_full _ _ _ _ (Nat.le_of_eq List.length_replicate.symm)⟩

theorem test_readsAndCompares_8 : ∃ (s : State) (ref : Ref) (nsid slba nlb : Nat) (deadline : ReadDue) (n : Ns) (a : State), s.accepts ref = true ∧ s.ioCheck ref nsid slba nlb .reads = .ok n ∧ nlb ≤ n.mdtsBlocks ∧ (deadline.us != 0 && s.mode = .safe) = false ∧ (deadline.us != 0 && s.feat 0xC1 ((ctrlOf ref).getD 0) 0x200 % 2 = 0) = false ∧ (deadline.us != 0 && 8 * bitsOf (s.feat 0xC1 ((ctrlOf ref).getD 0) 0x200) 4 8 < nlb * n.blkSectors) = false ∧ deadline.us ≠ 0 ∧ s.admitRead ((s.latch ref).readCmd n { ref := ref, kind := .read, nsid := nsid, slba := slba, n := nlb, latch := s.nowAt islQueue }).2 deadline.us deadline.lag = .ok a :=
  ⟨sDl, .host 0 1 1, 1, 0, 8, { us := 100 }, nsOne, (match sDl.admitRead (sDl.latch (.host 0 1 1) |>.readCmd nsOne { ref := .host 0 1 1, kind := .read, nsid := 1, slba := 0, n := 8, latch := sDl.nowAt islQueue }).2 100 0 with | .ok a => a | .error _ => sDl), by decide, rfl, by decide, by decide, by decide, by decide, by decide, rfl⟩

theorem test_readsAndCompares_9 : ∃ (s : State) (ref : Ref) (nsid slba nlb : Nat) (same : Comparison) (e : Status), s.accepts ref = true ∧ s.ioCheck ref nsid slba nlb .reads = .error e :=
  ⟨sNs, .host 0 1 1, 2, 0, 8, {}, .invalidNamespace, by decide, rfl⟩

theorem test_readsAndCompares_10 : ∃ (s : State) (ref : Ref) (nsid slba nlb : Nat) (same : Comparison) (n : Ns), s.accepts ref = true ∧ s.ioCheck ref nsid slba nlb .reads = .ok n ∧ n.mdtsBlocks < nlb :=
  ⟨sNs, .host 0 1 1, 1, 0, 513, {}, nsOne, by decide, rfl, by decide⟩

theorem test_readsAndCompares_11 : ∃ (s : State) (ref : Ref) (nsid slba nlb : Nat) (same : Comparison) (n : Ns), s.accepts ref = true ∧ s.ioCheck ref nsid slba nlb .reads = .ok n ∧ nlb ≤ n.mdtsBlocks ∧ same.fused = false :=
  ⟨sNs, .host 0 1 1, 1, 0, 8, {}, nsOne, by decide, rfl, by decide, by decide⟩

theorem test_readsAndCompares_12 : ∃ (s : State) (ref : Ref) (nsid slba nlb : Nat) (same : Comparison) (n : Ns), s.accepts ref = true ∧ s.ioCheck ref nsid slba nlb .reads = .ok n ∧ nlb ≤ n.mdtsBlocks ∧ same.fused = true :=
  ⟨sNs, .host 0 1 1, 1, 0, 8, { fused := true }, nsOne, by decide, rfl, by decide, by decide⟩

theorem test_reservationCommands_1 : ∃ (s : State) (ref : Ref) (nsid rrega : Nat) (iekey : Bool) (cptpl crkey nrkey : Nat) (e : Status), s.accepts ref = true ∧ s.rsvCheck ref nsid = .error e :=
  ⟨sNs, .host 0 1 1, 1, 0, false, 0, 0, 5, .cmdSeqError, by decide, rfl⟩

theorem test_reservationCommands_2 : ∃ (s : State) (ref : Ref) (nsid : Nat) (eds : Bool) (e : Status), s.accepts ref = true ∧ s.rsvCheck ref nsid = .error e :=
  ⟨sNs, .host 0 1 1, 1, true, .cmdSeqError, by decide, rfl⟩

theorem test_reservationCommands_3 : ∃ (s : State) (ref : Ref) (nsid racqa : Nat) (iekey : Bool) (rtype crkey prkey : Nat) (e : Status), s.accepts ref = true ∧ s.rsvCheck ref nsid = .error e :=
  ⟨sNs, .host 0 1 1, 1, 0, false, 1, 5, 0, .cmdSeqError, by decide, rfl⟩

theorem test_reservationCommands_4 : ∃ (s : State) (ref : Ref) (nsid rrela : Nat) (iekey : Bool) (rtype crkey : Nat) (e : Status), s.accepts ref = true ∧ s.rsvCheck ref nsid = .error e :=
  ⟨sNs, .host 0 1 1, 1, 0, false, 1, 5, .cmdSeqError, by decide, rfl⟩

theorem test_reservationCommands_5 : ∃ (s : State) (ref : Ref) (nsid : Nat) (eds : Bool) (n : Ns) (h : Nat), s.accepts ref = true ∧ s.rsvCheck ref nsid = .ok (n, h) :=
  ⟨sRsv, .host 0 1 1, 1, true, nsRsv, 9, by decide, rfl⟩

theorem test_reservationCommands_6 : ∃ (s : State) (ref : Ref) (nsid : Nat) (iekey : Bool) (cptpl crkey nrkey : Nat) (n : Ns) (h : Nat), s.accepts ref = true ∧ s.rsvCheck ref nsid = .ok (n, h) ∧ n.resv.keyOf h = some nrkey :=
  ⟨sRsv, .host 0 1 1, 1, false, 0, 0, 5, nsRsv, 9, by decide, rfl, by decide⟩

theorem test_reservationCommands_7 : ∃ (s : State) (ref : Ref) (nsid : Nat) (iekey : Bool) (cptpl crkey nrkey : Nat) (n : Ns) (h : Nat), s.accepts ref = true ∧ s.rsvCheck ref nsid = .ok (n, h) ∧ (n.resv.keyOf h).any (fun k => k != nrkey) = true :=
  ⟨sRsv, .host 0 1 1, 1, false, 0, 0, 6, nsRsv, 9, by decide, rfl, by decide⟩

theorem test_reservationCommands_8 : ∃ (s : State) (ref : Ref) (nsid : Nat) (iekey : Bool) (cptpl crkey nrkey : Nat) (n : Ns) (h : Nat), s.accepts ref = true ∧ s.rsvCheck ref nsid = .ok (n, h) ∧ n.resv.keyOf h = none ∧ 64 ≤ n.resv.regs.length :=
  ⟨sRsvFull, .host 0 1 1, 1, false, 0, 0, 6, nsFull, 9, by decide, rfl, by decide, by decide⟩

theorem test_reservationCommands_9 : ∃ (s : State) (ref : Ref) (nsid : Nat) (iekey : Bool) (cptpl crkey nrkey : Nat) (n : Ns) (h : Nat), s.accepts ref = true ∧ s.rsvCheck ref nsid = .ok (n, h) ∧ n.resv.keyOf h = none ∧ n.resv.regs.length < 64 :=
  ⟨sRsv0, .host 0 1 1, 1, false, 0, 0, 6, nsOne, 9, by decide, rfl, by decide, by decide⟩

theorem test_reservationCommands_10 : ∃ (s : State) (ref : Ref) (nsid : Nat) (iekey : Bool) (cptpl crkey nrkey : Nat) (n : Ns) (h : Nat), s.accepts ref = true ∧ s.rsvCheck ref nsid = .ok (n, h) ∧ ((n.resv.keyOf h).isNone || !(iekey || n.resv.keyOf h == some crkey)) = true :=
  ⟨sRsv, .host 0 1 1, 1, false, 0, 6, 0, nsRsv, 9, by decide, rfl, by decide⟩

theorem test_reservationCommands_11 : ∃ (s : State) (ref : Ref) (nsid : Nat) (iekey : Bool) (cptpl crkey nrkey : Nat) (n : Ns) (h : Nat), s.accepts ref = true ∧ s.rsvCheck ref nsid = .ok (n, h) ∧ ((n.resv.keyOf h).isNone || !(iekey || n.resv.keyOf h == some crkey)) = false :=
  ⟨sRsv, .host 0 1 1, 1, false, 0, 5, 0, nsRsv, 9, by decide, rfl, by decide⟩

theorem test_reservationCommands_12 : ∃ (s : State) (ref : Ref) (nsid : Nat) (iekey : Bool) (cptpl crkey nrkey : Nat) (n : Ns) (h : Nat), s.accepts ref = true ∧ s.rsvCheck ref nsid = .ok (n, h) ∧ (!(iekey || n.resv.keyOf h == some crkey) || ((n.resv.keyOf h).isNone && !iekey)) = true :=
  ⟨sRsv, .host 0 1 1, 1, false, 0, 6, 0, nsRsv, 9, by decide, rfl, by decide⟩

theorem test_reservationCommands_13 : ∃ (s : State) (ref : Ref) (nsid : Nat) (iekey : Bool) (cptpl crkey nrkey : Nat) (n : Ns) (h : Nat), s.accepts ref = true ∧ s.rsvCheck ref nsid = .ok (n, h) ∧ (!(iekey || n.resv.keyOf h == some crkey) || ((n.resv.keyOf h).isNone && !iekey)) = false ∧ (n.resv.keyOf h).isNone = true ∧ 64 ≤ n.resv.regs.length :=
  ⟨sRsvFull, .host 0 1 1, 1, true, 0, 0, 6, nsFull, 9, by decide, rfl, by decide, by decide, by decide⟩

theorem test_reservationCommands_14 : ∃ (s : State) (ref : Ref) (nsid : Nat) (iekey : Bool) (cptpl crkey nrkey : Nat) (n : Ns) (h : Nat), s.accepts ref = true ∧ s.rsvCheck ref nsid = .ok (n, h) ∧ (!(iekey || n.resv.keyOf h == some crkey) || ((n.resv.keyOf h).isNone && !iekey)) = false ∧ (n.resv.keyOf h).isNone = true ∧ n.resv.regs.length < 64 :=
  ⟨sRsv0, .host 0 1 1, 1, true, 0, 0, 6, nsOne, 9, by decide, rfl, by decide, by decide, by decide⟩

theorem test_reservationCommands_15 : ∃ (s : State) (ref : Ref) (nsid : Nat) (iekey : Bool) (cptpl crkey nrkey : Nat) (n : Ns) (h : Nat), s.accepts ref = true ∧ s.rsvCheck ref nsid = .ok (n, h) ∧ (!(iekey || n.resv.keyOf h == some crkey) || ((n.resv.keyOf h).isNone && !iekey)) = false ∧ (n.resv.keyOf h).isNone = false :=
  ⟨sRsv, .host 0 1 1, 1, false, 0, 5, 8, nsRsv, 9, by decide, rfl, by decide, by decide⟩

theorem test_reservationCommands_16 : ∃ (s : State) (ref : Ref) (nsid rrega : Nat) (iekey : Bool) (cptpl crkey nrkey : Nat) (n : Ns) (h : Nat), s.accepts ref = true ∧ s.rsvCheck ref nsid = .ok (n, h) ∧ 2 < rrega :=
  ⟨sRsv, .host 0 1 1, 1, 3, false, 0, 5, 8, nsRsv, 9, by decide, rfl, by decide⟩

theorem test_reservationCommands_17 : ∃ (s : State) (ref : Ref) (nsid racqa : Nat) (iekey : Bool) (rtype crkey prkey : Nat) (n : Ns) (h : Nat), s.accepts ref = true ∧ s.rsvCheck ref nsid = .ok (n, h) ∧ (iekey || rtype = 0 || 6 < rtype || 2 < racqa) = true :=
  ⟨sRsv, .host 0 1 1, 1, 0, false, 7, 5, 0, nsRsv, 9, by decide, rfl, by decide⟩

theorem test_reservationCommands_18 : ∃ (s : State) (ref : Ref) (nsid racqa : Nat) (iekey : Bool) (rtype crkey prkey : Nat) (n : Ns) (h : Nat), s.accepts ref = true ∧ s.rsvCheck ref nsid = .ok (n, h) ∧ (iekey || rtype = 0 || 6 < rtype || 2 < racqa) = false ∧ n.resv.keyOf h ≠ some crkey :=
  ⟨sRsv, .host 0 1 1, 1, 0, false, 1, 6, 0, nsRsv, 9, by decide, rfl, by decide, by decide⟩

theorem test_reservationCommands_19 : ∃ (s : State) (ref : Ref) (nsid racqa : Nat) (iekey : Bool) (rtype crkey prkey : Nat) (n : Ns) (h : Nat), s.accepts ref = true ∧ s.rsvCheck ref nsid = .ok (n, h) ∧ (iekey || rtype = 0 || 6 < rtype || 2 < racqa) = false ∧ n.resv.keyOf h = some crkey ∧ racqa = 0 ∧ n.resv.rtype = 0 :=
  ⟨sRsvReg, .host 0 1 1, 1, 0, false, 1, 5, 0, nsReg, 9, by decide, rfl, by decide, by decide, by decide, by decide⟩

theorem test_reservationCommands_20 : ∃ (s : State) (ref : Ref) (nsid racqa : Nat) (iekey : Bool) (rtype crkey prkey : Nat) (n : Ns) (h : Nat), s.accepts ref = true ∧ s.rsvCheck ref nsid = .ok (n, h) ∧ (iekey || rtype = 0 || 6 < rtype || 2 < racqa) = false ∧ n.resv.keyOf h = some crkey ∧ racqa = 0 ∧ n.resv.rtype ≠ 0 ∧ ((n.resv.holder == some h || n.resv.allRegs) && n.resv.rtype = rtype) = true :=
  ⟨sRsv, .host 0 1 1, 1, 0, false, 1, 5, 0, nsRsv, 9, by decide, rfl, by decide, by decide, by decide, by decide, by decide⟩

theorem test_reservationCommands_21 : ∃ (s : State) (ref : Ref) (nsid racqa : Nat) (iekey : Bool) (rtype crkey prkey : Nat) (n : Ns) (h : Nat), s.accepts ref = true ∧ s.rsvCheck ref nsid = .ok (n, h) ∧ (iekey || rtype = 0 || 6 < rtype || 2 < racqa) = false ∧ n.resv.keyOf h = some crkey ∧ racqa = 0 ∧ n.resv.rtype ≠ 0 ∧ ((n.resv.holder == some h || n.resv.allRegs) && n.resv.rtype = rtype) = false :=
  ⟨sRsv, .host 0 1 1, 1, 0, false, 2, 5, 0, nsRsv, 9, by decide, rfl, by decide, by decide, by decide, by decide, by decide⟩

theorem test_reservationCommands_22 : ∃ (s : State) (ref : Ref) (nsid racqa : Nat) (iekey : Bool) (rtype crkey prkey : Nat) (n : Ns) (h : Nat), s.accepts ref = true ∧ s.rsvCheck ref nsid = .ok (n, h) ∧ (iekey || rtype = 0 || 6 < rtype || 2 < racqa) = false ∧ n.resv.keyOf h = some crkey ∧ racqa ≠ 0 ∧ (!(n.resv.rtype != 0 && ((n.resv.allRegs && prkey = 0) || (!n.resv.allRegs && (n.resv.holder.bind n.resv.keyOf) == some prkey))) && ((n.resv.regs.filter (fun g => g.key == prkey && g.host != h)).map (fun g => g.host)).isEmpty && !(n.resv.holder == some h && n.resv.keyOf h == some prkey)) = true :=
  ⟨sRsv, .host 0 1 1, 1, 1, false, 1, 5, 77, nsRsv, 9, by decide, rfl, by decide, by decide, by decide, by decide⟩

theorem test_reservationCommands_23 : ∃ (s : State) (ref : Ref) (nsid racqa : Nat) (iekey : Bool) (rtype crkey prkey : Nat) (n : Ns) (h : Nat), s.accepts ref = true ∧ s.rsvCheck ref nsid = .ok (n, h) ∧ (iekey || rtype = 0 || 6 < rtype || 2 < racqa) = false ∧ n.resv.keyOf h = some crkey ∧ racqa ≠ 0 ∧ (!(n.resv.rtype != 0 && ((n.resv.allRegs && prkey = 0) || (!n.resv.allRegs && (n.resv.holder.bind n.resv.keyOf) == some prkey))) && ((n.resv.regs.filter (fun g => g.key == prkey && g.host != h)).map (fun g => g.host)).isEmpty && !(n.resv.holder == some h && n.resv.keyOf h == some prkey)) = false :=
  ⟨sRsv, .host 0 1 1, 1, 2, false, 1, 5, 5, nsRsv, 9, by decide, rfl, by decide, by decide, by decide, by decide⟩

theorem test_reservationCommands_24 : ∃ (s : State) (ref : Ref) (nsid rrela : Nat) (iekey : Bool) (rtype crkey : Nat) (n : Ns) (h : Nat), s.accepts ref = true ∧ s.rsvCheck ref nsid = .ok (n, h) ∧ (iekey || 1 < rrela) = true :=
  ⟨sRsv, .host 0 1 1, 1, 2, false, 1, 5, nsRsv, 9, by decide, rfl, by decide⟩

theorem test_reservationCommands_25 : ∃ (s : State) (ref : Ref) (nsid rrela : Nat) (iekey : Bool) (rtype crkey : Nat) (n : Ns) (h : Nat), s.accepts ref = true ∧ s.rsvCheck ref nsid = .ok (n, h) ∧ (iekey || 1 < rrela) = false ∧ n.resv.keyOf h ≠ some crkey :=
  ⟨sRsv, .host 0 1 1, 1, 0, false, 1, 6, nsRsv, 9, by decide, rfl, by decide, by decide⟩

theorem test_reservationCommands_26 : ∃ (s : State) (ref : Ref) (nsid rrela : Nat) (iekey : Bool) (rtype crkey : Nat) (n : Ns) (h : Nat), s.accepts ref = true ∧ s.rsvCheck ref nsid = .ok (n, h) ∧ (iekey || 1 < rrela) = false ∧ n.resv.keyOf h = some crkey ∧ rrela = 1 :=
  ⟨sRsv, .host 0 1 1, 1, 1, false, 1, 5, nsRsv, 9, by decide, rfl, by decide, by decide, by decide⟩

theorem test_reservationCommands_27 : ∃ (s : State) (ref : Ref) (nsid rrela : Nat) (iekey : Bool) (rtype crkey : Nat) (n : Ns) (h : Nat), s.accepts ref = true ∧ s.rsvCheck ref nsid = .ok (n, h) ∧ (iekey || 1 < rrela) = false ∧ n.resv.keyOf h = some crkey ∧ rrela = 0 ∧ (n.resv.rtype != 0 && (n.resv.holder == some h || n.resv.allRegs)) = true ∧ rtype ≠ n.resv.rtype :=
  ⟨sRsv, .host 0 1 1, 1, 0, false, 2, 5, nsRsv, 9, by decide, rfl, by decide, by decide, by decide, by decide, by decide⟩

theorem test_reservationCommands_28 : ∃ (s : State) (ref : Ref) (nsid rrela : Nat) (iekey : Bool) (rtype crkey : Nat) (n : Ns) (h : Nat), s.accepts ref = true ∧ s.rsvCheck ref nsid = .ok (n, h) ∧ (iekey || 1 < rrela) = false ∧ n.resv.keyOf h = some crkey ∧ rrela = 0 ∧ (n.resv.rtype != 0 && (n.resv.holder == some h || n.resv.allRegs)) = true ∧ rtype = n.resv.rtype :=
  ⟨sRsv, .host 0 1 1, 1, 0, false, 1, 5, nsRsv, 9, by decide, rfl, by decide, by decide, by decide, by decide, by decide⟩

theorem test_reservationCommands_29 : ∃ (s : State) (ref : Ref) (nsid rrela : Nat) (iekey : Bool) (rtype crkey : Nat) (n : Ns) (h : Nat), s.accepts ref = true ∧ s.rsvCheck ref nsid = .ok (n, h) ∧ (iekey || 1 < rrela) = false ∧ n.resv.keyOf h = some crkey ∧ rrela = 0 ∧ (n.resv.rtype != 0 && (n.resv.holder == some h || n.resv.allRegs)) = false :=
  ⟨sRsvReg, .host 0 1 1, 1, 0, false, 1, 5, nsReg, 9, by decide, rfl, by decide, by decide, by decide, by decide⟩

theorem test_cipherUnits_1 : ∃ (s : State) (ref : Ref) (lba : Nat) (u : UnitEnd) (c : Cmd) (l : Nat), s.cmd ref = some c ∧ s.pickLane = some l ∧ (!s.fetches || !s.unitReady c lba) = false ∧ u.cell.isLost = true :=
  ⟨sXts .read [], .host 0 1 1, 0, { cell := .bank 0 }, cXts .read [], 0, by decide⟩

theorem test_cipherUnits_2 : ∃ (s : State) (ref : Ref) (lba : Nat) (u : UnitEnd) (c : Cmd) (l : Nat), s.cmd ref = some c ∧ s.pickLane = some l ∧ (!s.fetches || !s.unitReady c lba) = false ∧ u.cell.isLost = false ∧ u.pass = true ∧ (c.kind = .read || c.kind = .compare) = true :=
  ⟨sXts .read [], .host 0 1 1, 0, {}, cXts .read [], 0, by decide⟩

theorem test_cipherUnits_3 : ∃ (s : State) (ref : Ref) (lba : Nat) (u : UnitEnd) (c : Cmd) (l : Nat), s.cmd ref = some c ∧ s.pickLane = some l ∧ (!s.fetches || !s.unitReady c lba) = false ∧ u.cell.isLost = false ∧ u.pass = true ∧ (c.kind = .read || c.kind = .compare) = false :=
  ⟨sXts .write [], .host 0 1 1, 0, { cell := .ce 0 }, cXts .write [], 0, by decide⟩

theorem test_cipherUnits_4 : ∃ (s : State) (ref : Ref) (lba : Nat) (u : UnitEnd) (c : Cmd) (l : Nat), s.cmd ref = some c ∧ s.pickLane = some l ∧ (!s.fetches || !s.unitReady c lba) = false ∧ u.cell.isLost = false ∧ u.pass = false ∧ c.retry.contains lba = false :=
  ⟨sXts .read [], .host 0 1 1, 0, { pass := false }, cXts .read [], 0, by decide⟩

theorem test_cipherUnits_5 : ∃ (s : State) (ref : Ref) (lba : Nat) (u : UnitEnd) (c : Cmd) (l : Nat), s.cmd ref = some c ∧ s.pickLane = some l ∧ (!s.fetches || !s.unitReady c lba) = false ∧ u.cell.isLost = false ∧ u.pass = false ∧ c.retry.contains lba = true ∧ (c.kind = .read || c.kind = .compare) = true :=
  ⟨sXts .read [0], .host 0 1 1, 0, { pass := false }, cXts .read [0], 0, by decide⟩

theorem test_cipherUnits_6 : ∃ (s : State) (ref : Ref) (lba : Nat) (u : UnitEnd) (c : Cmd) (l : Nat), s.cmd ref = some c ∧ s.pickLane = some l ∧ (!s.fetches || !s.unitReady c lba) = false ∧ u.cell.isLost = false ∧ u.pass = false ∧ c.retry.contains lba = true ∧ (c.kind = .read || c.kind = .compare) = false :=
  ⟨sXts .write [0], .host 0 1 1, 0, { pass := false }, cXts .write [0], 0, by decide⟩

theorem test_cipherUnits_7 : ∃ (s : State) (lane : Nat), (s.ink.lanes.getD lane {}).testing = true :=
  ⟨{ sRun with ink := { lanes := { testing := true } :: List.replicate 15 {} } }, 0, by decide⟩

theorem test_cipherUnits_8 : ∃ (s : State) (lane : Nat), (s.ink.lanes.getD lane {}).testing = true :=
  ⟨{ sRun with ink := { lanes := { testing := true } :: List.replicate 15 {} } }, 0, by decide⟩

theorem test_cipherUnits_9 : ∃ (s : State) (slot key : Nat), slot < 4096 ∧ s.mode ≠ .off ∧ s.mode ≠ .holdUp :=
  ⟨sRun, 4, 7, by decide⟩

theorem test_cipherUnits_10 : ∃ (s : State) (slot key : Nat), slot < 4096 ∧ s.mode ≠ .off ∧ s.mode ≠ .holdUp :=
  ⟨sRun, 4, 7, by decide⟩

theorem test_cipherUnits_11 : ∃ (s : State) (slot : Nat), s.ink.pendingClear.contains slot = true ∧ s.qe.cmds.any (fun c => !c.retry.isEmpty && ((s.ns c.nsid).bind (fun n => n.key)) == some slot) = false :=
  ⟨{ sRun with ink := { pendingClear := [4] } }, 4, by decide⟩

theorem test_inkwellCommands_1 : ∃ (s : State) (r : CellReq), s.nextGrant = some r ∧ r.what = .work :=
  ⟨sInk .work, rInk .work, by decide⟩

theorem test_inkwellCommands_2 : ∃ (s : State) (r : CellReq) (stream osn : Nat), s.nextGrant = some r ∧ r.what = .tine stream osn :=
  ⟨sInk (.tine 0 1), rInk (.tine 0 1), 0, 1, by decide⟩

theorem test_inkwellCommands_3 : ∃ (s : State) (r : CellReq) (dump : Bool), s.nextGrant = some r ∧ r.what = .row dump :=
  ⟨sInk (.row false), rInk (.row false), false, by decide⟩

theorem test_inkwellCommands_4 : ∃ (s : State) (r : CellReq) (ref : Ref) (head : Nat) (c : Cmd) (d : Chain), s.nextGrant = some r ∧ r.what = .copy ref head ∧ (s.dropWait r).cmd ref = some c ∧ (s.dropWait r).chain head = some d :=
  ⟨{ sInk (.copy (.host 0 1 1) 0) with ink := { waiting := [rInk (.copy (.host 0 1 1) 0)], chains := [dInk] } }, rInk (.copy (.host 0 1 1) 0), .host 0 1 1, 0, cInk, dInk, by decide⟩

theorem test_inkwellCommands_5 : ∃ (s : State) (r : CellReq) (ref : Ref) (lo : Nat) (c : Cmd) (g : Segment), s.nextGrant = some r ∧ r.what = .twin ref lo ∧ (s.dropWait r).cmd ref = some c ∧ c.segs.find? (fun g => g.lo == lo && g.twinDue) = some g :=
  ⟨{ sInk (.twin (.host 0 1 1) 0) with qe := { sNs.qe with cmds := [{ cInk with segs := [{ gInk with twinDue := true }] }] } }, rInk (.twin (.host 0 1 1) 0), .host 0 1 1, 0, { cInk with segs := [{ gInk with twinDue := true }] }, { gInk with twinDue := true }, by decide⟩

theorem test_inkwellCommands_6 : ∃ (s : State) (r : CellReq) (ref : Ref) (lo : Nat) (c : Cmd) (g : Segment), s.nextGrant = some r ∧ r.what = .hostWrite ref lo ∧ (s.dropWait r).cmd ref = some c ∧ c.segs.find? (fun g => g.lo == lo) = some g :=
  ⟨sInk (.hostWrite (.host 0 1 1) 0), rInk (.hostWrite (.host 0 1 1) 0), .host 0 1 1, 0, cInk, gInk, by decide⟩

theorem test_inkwellCommands_7 : ∃ (s : State) (r : CellReq) (ref : Ref) (lo : Nat) (c : Cmd) (g : Segment), s.nextGrant = some r ∧ r.what = .hostRead ref lo ∧ (s.dropWait r).cmd ref = some c ∧ c.segs.find? (fun g => g.lo == lo) = some g :=
  ⟨sInk (.hostRead (.host 0 1 1) 0), rInk (.hostRead (.host 0 1 1) 0), .host 0 1 1, 0, cInk, gInk, by decide⟩

theorem test_inkwellCommands_8 : ∃ (s : State), s.wpRuns = true ∧ s.ink.waiting.any (fun r => r.owner == 0 && r.since + msT ≤ s.now) = true :=
  ⟨{ sInk .work with rul := { a := { count := 1000000000 }, b := { count := 1000000000 } } }, by decide⟩

theorem test_inkwellCommands_9 : ∃ (s : State) (mismatch : Bool), s.flag F.INK_CTRL_AUDIT_EN = true ∧ s.mode ≠ .off ∧ s.mode ≠ .doze :=
  ⟨sRun.setFld F.INK_CTRL_AUDIT_EN 1, true, by decide⟩

theorem test_inkwellCommands_10 : ∃ (s : State) (r : Registration), s.freeOwner = none :=
  ⟨sOwnFull, {}, sOwnFull_none⟩

theorem test_inkwellCommands_11 : ∃ (s : State) (r : Registration) (i : Nat), s.freeOwner = some i ∧ 73728 < s.sumMin + r.min :=
  ⟨sRun, { min := 73729 }, 64, by decide +kernel⟩

theorem test_inkwellCommands_12 : ∃ (s : State) (r : Registration) (i : Nat), s.freeOwner = some i ∧ s.sumMin + r.min ≤ 73728 :=
  ⟨sRun, {}, 64, by decide +kernel⟩

theorem test_bandUpkeep_1 : ∃ (s : State) (found : ScrubFound), (s.mapRuns || (s.mode == .safe && s.fld F.EVU_SAFE_MEDIA != 2)) = true :=
  ⟨sRun, { bad := [(1, 0)] }, by decide⟩

theorem test_bandUpkeep_2 : ∃ (s : State) (wp : Nat), s.mapRuns = true ∧ (s.wp wp).lastIu + s.fld F.MAP_WP_CFG_IDLE_PAD * msT ≤ s.now :=
  ⟨sRun.setFld F.MAP_WP_CFG_IDLE_PAD 0, 8, by decide⟩

theorem test_bandUpkeep_3 : ∃ (s : State) (wp : Nat) (b : Band), wp < 128 ∧ s.wpRuns = true ∧ ((s.map.bands.filter (fun b => b.state == .open && b.wp == some wp)).length) < s.wpWidth wp ∧ (8 ≤ wp && s.freeBands ≤ s.gcBands F.MAP_GC_THRESH_CRIT) = false ∧ s.pickFree wp = some b ∧ 3 ≤ (s.bandMembers b.group b.block).length :=
  ⟨sFree [0, 1, 2], 0, { ix := 0, group := 0, block := 0, state := .free }, by decide⟩

theorem test_bandUpkeep_4 : ∃ (s : State) (wp : Nat) (b : Band), wp < 128 ∧ s.wpRuns = true ∧ ((s.map.bands.filter (fun b => b.state == .open && b.wp == some wp)).length) < s.wpWidth wp ∧ (8 ≤ wp && s.freeBands ≤ s.gcBands F.MAP_GC_THRESH_CRIT) = false ∧ s.pickFree wp = some b ∧ (s.bandMembers b.group b.block).length < 3 :=
  ⟨sFree [0, 1], 0, { ix := 0, group := 0, block := 0, state := .free }, by decide⟩

theorem test_bandUpkeep_5 : ∃ (s : State) (b : Band), s.mapRuns = true ∧ s.pwr.entry.isSome = false ∧ bestBy s.scoresAbove (s.map.bands.filter (fun b => s.isCandidate b && b.valid == 0)) = some b :=
  ⟨sClosed 0 false none, bClosed 0 false none, by decide⟩

theorem test_bandUpkeep_6 : ∃ (s : State) (b : Band), s.mapRuns = true ∧ s.pwr.entry.isSome = false ∧ bestBy s.scoresAbove (s.map.bands.filter (fun b => s.isCandidate b && b.valid == 0)) = none ∧ bestBy (fun x y => decide (x.valid < y.valid)) ((s.map.bands.filter s.isCandidate).filter (fun b => b.exposed)) = some b :=
  ⟨sClosed 1 true none, bClosed 1 true none, by decide⟩

theorem test_bandUpkeep_7 : ∃ (s : State) (b : Band), s.mapRuns = true ∧ s.pwr.entry.isSome = false ∧ bestBy s.scoresAbove (s.map.bands.filter (fun b => s.isCandidate b && b.valid == 0)) = none ∧ bestBy (fun x y => decide (x.valid < y.valid)) ((s.map.bands.filter s.isCandidate).filter (fun b => b.exposed)) = none ∧ (s.map.bands.filter s.isCandidate).find? (fun b => b.refresh.isSome) = some b :=
  ⟨sClosed 1 false (some 2), bClosed 1 false (some 2), by decide⟩

theorem test_bandUpkeep_8 : ∃ (s : State) (b : Band), s.mapRuns = true ∧ s.pwr.entry.isSome = false ∧ bestBy s.scoresAbove (s.map.bands.filter (fun b => s.isCandidate b && b.valid == 0)) = none ∧ bestBy (fun x y => decide (x.valid < y.valid)) ((s.map.bands.filter s.isCandidate).filter (fun b => b.exposed)) = none ∧ (s.map.bands.filter s.isCandidate).find? (fun b => b.refresh.isSome) = none ∧ (s.map.bands.filter (fun b => b.moving == some 1)).length < s.victimLimit ∧ bestBy s.scoresAbove (s.map.bands.filter s.isCandidate) = some b :=
  ⟨sClosed 1 false none, bClosed 1 false none, by decide⟩

theorem test_bandUpkeep_9 : ∃ (s : State) (band : Nat) (b : Band), s.band band = some b ∧ (s.mapRuns && s.isCandidate b && b.valid == 0) = true :=
  ⟨sClosed 0 false none, 0, bClosed 0 false none, by decide⟩

theorem test_bandUpkeep_10 : ∃ (s : State), s.mapRuns = true ∧ s.pwr.entry.isSome = false ∧ s.flag F.MAP_CTRL_WL_EN = true ∧ s.fld F.MAP_WEAR_SPREAD < (s.serviceCounts.foldl max 0) - (s.serviceCounts.foldl min (s.serviceCounts.foldl max 0)) ∧ (s.post F.MAP_EVT_STATUS_SPREAD_OVER noUnit).map.wlBand.isSome = true :=
  ⟨{ sSpread with map := { sSpread.map with wlBand := some 0 } }, by decide⟩

theorem test_bandUpkeep_11 : ∃ (s : State), s.mapRuns = true ∧ s.pwr.entry.isSome = false ∧ s.flag F.MAP_CTRL_WL_EN = true ∧ s.fld F.MAP_WEAR_SPREAD < (s.serviceCounts.foldl max 0) - (s.serviceCounts.foldl min (s.serviceCounts.foldl max 0)) ∧ (s.post F.MAP_EVT_STATUS_SPREAD_OVER noUnit).map.wlBand.isSome = false :=
  ⟨sSpread, by decide⟩

theorem test_checkpointsAndCuts_1 : ∃ (s : State), (s.mode == .run || s.mode == .degraded || s.mode == .trial) = true ∧ (s.fld F.MAP_CKPT_CFG_GIB * 2 ^ 30 ≤ s.ckpt.stamped || s.ckpt.lastStart + s.fld F.MAP_CKPT_CFG_SECS * secT ≤ s.now || 786432 ≤ s.deltaBytes) = true ∧ s.ckpt.running.isSome = true :=
  ⟨{ sRun.setFld F.MAP_CKPT_CFG_GIB 0 with ckpt := { running := some {} } }, by decide⟩

theorem test_checkpointsAndCuts_2 : ∃ (s : State), (s.mode == .run || s.mode == .degraded || s.mode == .trial) = true ∧ (s.fld F.MAP_CKPT_CFG_GIB * 2 ^ 30 ≤ s.ckpt.stamped || s.ckpt.lastStart + s.fld F.MAP_CKPT_CFG_SECS * secT ≤ s.now || 786432 ≤ s.deltaBytes) = true ∧ s.ckpt.running.isSome = false :=
  ⟨sRun.setFld F.MAP_CKPT_CFG_GIB 0, by decide⟩

theorem test_checkpointsAndCuts_3 : ∃ (s : State) (c : Image), s.ckpt.running = some c ∧ s.ckpt.slow = false ∧ s.ckpt.lastStart + 10 * secT ≤ s.now :=
  ⟨{ sLate with ckpt := { running := some {} } }, {}, by decide, by decide, by decide +kernel⟩

theorem test_checkpointsAndCuts_4 : ∃ (s : State) (slot : Nat) (c : CutRec), s.ckpt.cuts.find? (fun c => c.slot == slot && c.state == 1) = some c ∧ ((s.mode == .run || s.mode == .degraded || s.mode == .trial) && c.time * 256 ≤ s.nowAt islQueue) = true :=
  ⟨{ sRun with ckpt := { cuts := [{ slot := 0, time := 0, state := 1 }] } }, 0, { slot := 0, time := 0, state := 1 }, by decide⟩

theorem test_checkpointsAndCuts_5 : ∃ (s : State) (t : Nat) (c : CutRec), s.ckpt.critAt = some t ∧ t + s.fld F.MAP_CUT_CFG_EVICT_S * secT ≤ s.now ∧ s.pinsData = true ∧ s.flag F.MAP_CUT_CFG_EVICT = true ∧ s.map.level = 3 ∧ s.lowestHeld = some c :=
  ⟨sEvict, 0, { slot := 0, time := 0, state := 2 }, by decide, by decide, by decide, by decide, by decide, by decide⟩

theorem test_checkpointsAndCuts_6 : ∃ (s : State) (env : BootEnv), s.mode = .boot ∧ s.pwr.booted = false :=
  ⟨{}, {}, by decide⟩

theorem test_checkpointsAndCuts_7 : ∃ (s : State) (env : BootEnv), s.mode = .boot ∧ s.pwr.booted = true ∧ s.bootDone = true :=
  ⟨sBooted, {}, by decide⟩

theorem test_rebuildsAndPatrol_1 : ∃ (s : State) (id : Nat) (f : Fetch) (ok : Bool), s.fetchAt id = some f ∧ f.rebuild = true ∧ f.peers = 0 ∧ f.nested = false ∧ (f.peerLost || !ok) = true ∧ f.ladder = false :=
  ⟨sFetch (fRb false false), 1, fRb false false, false, by decide⟩

theorem test_rebuildsAndPatrol_2 : ∃ (s : State) (id : Nat) (f : Fetch) (ok : Bool), s.fetchAt id = some f ∧ f.rebuild = true ∧ f.peers = 0 ∧ f.nested = false ∧ (f.peerLost || !ok) = true ∧ f.ladder = true :=
  ⟨sFetch (fRb true false), 1, fRb true false, false, by decide⟩

theorem test_rebuildsAndPatrol_3 : ∃ (s : State) (id : Nat) (f : Fetch), s.fetchAt id = some f ∧ f.rebuild = true ∧ f.peers = 0 ∧ f.nested = false ∧ f.peerLost = false ∧ f.around = true :=
  ⟨sFetch (fRb false true), 1, fRb false true, by decide⟩

theorem test_rebuildsAndPatrol_4 : ∃ (s : State) (id : Nat) (f : Fetch), s.fetchAt id = some f ∧ f.rebuild = true ∧ f.peers = 0 ∧ f.nested = false ∧ f.peerLost = false ∧ f.around = false :=
  ⟨sFetch (fRb false false), 1, fRb false false, by decide⟩

theorem test_rebuildsAndPatrol_5 : ∃ (s : State), s.mapRuns = true ∧ s.pwr.entry.isSome = false ∧ s.flag F.LIG_CTRL_PATROL_EN = true :=
  ⟨sRun.setFld F.LIG_CTRL_PATROL_EN 1, by decide⟩

theorem test_rebuildsAndPatrol_6 : ∃ (s : State) (code : Nat), s.mode ≠ .off ∧ (s.sampled code).blt.test = .idle :=
  ⟨sRun, 100, by decide⟩

theorem test_rebuildsAndPatrol_7 : ∃ (s : State) (code : Nat), s.mode ≠ .off ∧ (s.sampled code).blt.test = .waiting :=
  ⟨sTest .waiting, 3000, by decide⟩

theorem test_rebuildsAndPatrol_8 : ∃ (s : State) (code : Nat), s.mode ≠ .off ∧ (s.sampled code).blt.test = .bleeding :=
  ⟨sTest .bleeding, 3000, by decide⟩

theorem test_rebuildsAndPatrol_9 : ∃ (s : State) (code : Nat), s.mode ≠ .off ∧ (s.sampled code).blt.test = .recharging :=
  ⟨sTest .recharging, 3000, by decide⟩

theorem test_rebuildsAndPatrol_10 : ∃ (s : State), s.monitors = true :=
  ⟨sRun, by decide⟩

theorem test_rebuildsAndPatrol_11 : ∃ (s : State), s.monitors = true ∧ s.blt.test = .idle ∧ s.testDue = true :=
  ⟨sRun, by decide⟩

theorem test_tineCommands_1 : ∃ (s : State) (tine : Bool) (stream osn : Nat) (o : TineOut), (s.tine.st tine = .standby && s.tine.ho.isNone) = true :=
  ⟨sPair, true, 0, 1, {}, by decide⟩

theorem test_tineCommands_2 : ∃ (s : State) (tine : Bool) (stream osn : Nat) (o : TineOut), s.tineDrives tine = true ∧ (s.tine.st tine = .standby && s.tine.ho.isNone) = false ∧ osn ≤ ((s.tine.last.lookup stream).getD 0) :=
  ⟨sPair, false, 0, 0, {}, by decide⟩

theorem test_tineCommands_3 : ∃ (s : State) (tine : Bool) (stream osn : Nat) (o : TineOut), s.tineDrives tine = true ∧ (s.tine.st tine = .standby && s.tine.ho.isNone) = false ∧ osn = ((s.tine.last.lookup stream).getD 0) + 1 :=
  ⟨sPair, false, 0, 1, {}, by decide⟩

theorem test_tineCommands_4 : ∃ (s : State) (tine : Bool) (stream osn : Nat) (o : TineOut), s.tineDrives tine = true ∧ (s.tine.st tine = .standby && s.tine.ho.isNone) = false ∧ ((s.tine.last.lookup stream).getD 0) + 1 < osn ∧ (if s.tine.ho.isNone && s.tine.paired then s.crossCheck tine stream osn o.crc else s).tine.held.any (fun h => h.stream == stream && h.osn == osn) = true :=
  ⟨{ sPair with tine := { sPair.tine with held := [{ stream := 0, osn := 3, at_ := 0 }] } }, false, 0, 3, {}, by decide⟩

theorem test_tineCommands_5 : ∃ (s : State) (tine : Bool) (stream osn : Nat) (o : TineOut), s.tineDrives tine = true ∧ (s.tine.st tine = .standby && s.tine.ho.isNone) = false ∧ ((s.tine.last.lookup stream).getD 0) + 1 < osn ∧ (if s.tine.ho.isNone && s.tine.paired then s.crossCheck tine stream osn o.crc else s).tine.held.any (fun h => h.stream == stream && h.osn == osn) = false :=
  ⟨sPair, false, 0, 3, {}, by decide⟩

theorem test_tineCommands_6 : ∃ (s : State) (stream : Nat), s.tine.held.any (fun h => h.stream == stream && h.at_ + 128 * nsT ≤ s.now) = true :=
  ⟨{ sLate with tine := { sPair.tine with held := [{ stream := 0, osn := 3, at_ := 0 }] } }, 0, by decide⟩

theorem test_tineCommands_7 : ∃ (s : State) (h : Handover), s.tine.ho = some h ∧ h.overlap = true :=
  ⟨sHo true, hHo true, by decide⟩

theorem test_tineCommands_8 : ∃ (s : State) (h : Handover), s.tine.ho = some h ∧ h.overlap = false :=
  ⟨sHo false, hHo false, by decide⟩

theorem test_tineCommands_9 : ∃ (s : State) (tine pass : Bool) (us : Nat), s.tine.st tine = .resigned ∧ s.tine.ready = false ∧ s.tine.ho.isSome = false ∧ s.mode ≠ .boot :=
  ⟨{ sPair with tine := { sPair.tine with b := .resigned } }, true, true, 0, by decide⟩

theorem test_tineCommands_10 : ∃ (s : State), s.tine.ready = true ∧ s.flag F.TINE_CTRL_RESYNC_EN = true ∧ s.tine.ho.isSome = false ∧ s.tineBlocked = false :=
  ⟨({ sPair with tine := { sPair.tine with b := .resigned, ready := true } } : State).setFld F.TINE_CTRL_RESYNC_EN 1, by decide⟩

theorem test_tineCommands_11 : ∃ (s : State) (b : Bool), (if s.tine.a = .joining then false else true) = b ∧ s.tine.st b = .joining ∧ s.mode ≠ .holdUp ∧ s.mode ≠ .off ∧ s.tine.drill = none :=
  ⟨{ sPair with tine := { sPair.tine with b := .joining } }, true, by decide⟩

theorem test_tineCommands_12 : ∃ (s : State) (b : Bool) (d : Drill), (if s.tine.a = .joining then false else true) = b ∧ s.tine.st b = .joining ∧ s.mode ≠ .holdUp ∧ s.mode ≠ .off ∧ s.tine.drill = some d :=
  ⟨{ sPair with tine := { sPair.tine with b := .joining, drill := some { cause := 3, from_ := false } } }, true, { cause := 3, from_ := false }, by decide⟩

theorem test_tineCommands_13 : ∃ (s : State) (reports : Bool), s.flag F.TINE_CTRL_DRILL_EN = true ∧ s.tine.drill.isSome = false ∧ s.mode ≠ .off ∧ (s.tine.due || s.tine.drillAt + s.fld F.TINE_DRILL_PERIOD_H * 3600 * secT ≤ s.now) = true ∧ s.drillFree = true :=
  ⟨sDrill true, true, by decide⟩

theorem test_tineCommands_14 : ∃ (s : State) (reports : Bool), s.flag F.TINE_CTRL_DRILL_EN = true ∧ s.tine.drill.isSome = false ∧ s.mode ≠ .off ∧ (s.tine.due || s.tine.drillAt + s.fld F.TINE_DRILL_PERIOD_H * 3600 * secT ≤ s.now) = true ∧ s.drillFree = false ∧ s.tine.due = false :=
  ⟨{ (sDrill false).setFld F.TINE_DRILL_PERIOD_H 0 with mode := .boot }, true, by decide⟩

theorem test_alertsFolioAndGce_1 : ∃ (s : State) (ctrl group : Nat), (s.evu.aenWait.any (fun w => w.1 == ctrl && w.2.1 == group && w.2.2 + msT ≤ s.now) && s.mode != .off) = true :=
  ⟨{ sLate with evu := { aenWait := [(0, 1, 0)] } }, 0, 1, by decide⟩

theorem test_alertsFolioAndGce_2 : ∃ (s : State), (s.mgmt.alert && !s.mgmt.i3c && s.pwr.vaux) = true :=
  ⟨{ sRun with mgmt := { alert := true } }, by decide⟩

theorem test_alertsFolioAndGce_3 : ∃ (s : State), (s.mgmt.alert && s.mgmt.i3c && s.pwr.vaux) = true :=
  ⟨{ sRun with mgmt := { alert := true, i3c := true } }, by decide⟩

theorem test_alertsFolioAndGce_4 : ∃ (s : State) (r : FolReq) (rest : List FolReq), s.fol.reqs = r :: rest ∧ s.mode ≠ .off ∧ s.mode ≠ .holdUp ∧ r.erase = true :=
  ⟨sFol .run true, folOf true, [], by decide⟩

theorem test_alertsFolioAndGce_5 : ∃ (s : State) (r : FolReq) (rest : List FolReq), s.fol.reqs = r :: rest ∧ s.mode = .holdUp ∧ r.erase = true :=
  ⟨sFol .holdUp true, folOf true, [], by decide⟩

theorem test_alertsFolioAndGce_6 : ∃ (s : State) (r : FolReq) (rest : List FolReq), s.fol.reqs = r :: rest ∧ s.mode ≠ .off ∧ s.mode ≠ .holdUp ∧ r.erase = false :=
  ⟨sFol .run false, folOf false, [], by decide⟩

theorem test_alertsFolioAndGce_7 : ∃ (s : State) (r : FolReq) (rest : List FolReq), s.fol.reqs = r :: rest ∧ s.mode = .holdUp ∧ r.erase = false :=
  ⟨sFol .holdUp false, folOf false, [], by decide⟩

theorem test_alertsFolioAndGce_8 : ∃ (s : State) (r : FolReq) (rest : List FolReq) (status : Nat), s.fol.reqs = r :: rest ∧ s.mode ≠ .off ∧ s.mode ≠ .holdUp ∧ 1 ≤ status ∧ status ≤ 2 :=
  ⟨sFol .run false, folOf false, [], 1, by decide⟩

theorem test_alertsFolioAndGce_9 : ∃ (s : State) (r : FolReq) (rest : List FolReq) (status : Nat), s.fol.reqs = r :: rest ∧ s.mode = .holdUp ∧ 1 ≤ status ∧ status ≤ 2 :=
  ⟨sFol .holdUp false, folOf false, [], 1, by decide⟩

theorem test_alertsFolioAndGce_10 : ∃ (s : State) (r : FolReq) (rest : List FolReq) (status : Nat), s.fol.reqs = r :: rest ∧ s.mode ≠ .off ∧ s.mode ≠ .holdUp ∧ 3 ≤ status ∧ status ≤ 4 :=
  ⟨sFol .run false, folOf false, [], 3, by decide⟩

theorem test_alertsFolioAndGce_11 : ∃ (s : State) (r : FolReq) (rest : List FolReq) (status : Nat), s.fol.reqs = r :: rest ∧ s.mode = .holdUp ∧ 3 ≤ status ∧ status ≤ 4 :=
  ⟨sFol .holdUp false, folOf false, [], 3, by decide⟩

theorem test_alertsFolioAndGce_12 : ∃ (s : State) (words : List (FolCopy × Bool)), s.flag F.FOL_CTRL_SCRUB_EN = true ∧ s.mode ≠ .off ∧ s.mode ≠ .doze ∧ s.mode ≠ .holdUp ∧ s.fol.scrubAt + dayT ≤ s.now :=
  ⟨({ sLate with rul := sDay } : State).setFld F.FOL_CTRL_SCRUB_EN 1, [], by decide, by decide, by decide, by decide, by decide +kernel⟩

theorem test_alertsFolioAndGce_13 : ∃ (s : State) (owner : Nat) (op : GceOp) (handle : Nat) (m1 m2 last : Bool), owner ≠ 0 ∧ owner ≤ 4 ∧ s.mode ≠ .off ∧ s.mode ≠ .doze ∧ (s.gce.owner != 0 && s.gce.owner != owner) = true ∧ s.gce.waiting.any (fun e => e.1 == owner) = true :=
  ⟨{ sRun with gce := { owner := 2, waiting := [(1, 0)] } }, 1, .sha, 0, true, true, false, by decide⟩

theorem test_alertsFolioAndGce_14 : ∃ (s : State) (owner : Nat) (op : GceOp) (handle : Nat) (m1 m2 last : Bool), owner ≠ 0 ∧ owner ≤ 4 ∧ s.mode ≠ .off ∧ s.mode ≠ .doze ∧ (s.gce.owner != 0 && s.gce.owner != owner) = true ∧ s.gce.waiting.any (fun e => e.1 == owner) = false :=
  ⟨{ sRun with gce := { owner := 2 } }, 1, .sha, 0, true, true, false, by decide⟩

theorem test_alertsFolioAndGce_15 : ∃ (s : State) (owner : Nat) (op : GceOp) (handle : Nat) (m1 m2 last : Bool), owner ≠ 0 ∧ owner ≤ 4 ∧ s.mode ≠ .off ∧ s.mode ≠ .doze ∧ (s.gce.owner != 0 && s.gce.owner != owner) = false :=
  ⟨sRun, 1, .sha, 0, true, true, false, by decide⟩

theorem test_alertsFolioAndGce_16 : ∃ (s : State), s.gce.owner ≠ 0 ∧ s.gce.lastReq + 100 * msT ≤ s.now :=
  ⟨{ sLate with gce := { owner := 2 } }, by decide⟩

theorem test_alertsFolioAndGce_17 : ∃ (s : State), s.mode ≠ .off ∧ s.mode ≠ .doze :=
  ⟨sRun, by decide⟩

theorem test_alertsFolioAndGce_18 : ∃ (s : State), s.mode ≠ .off ∧ s.mode ≠ .doze :=
  ⟨sRun, by decide⟩

theorem test_alertsFolioAndGce_19 : ∃ (s : State) (weak w m : Nat) (t : Trans) (rest : List (Nat × Nat)), s.mode ≠ .off ∧ s.mode ≠ .doze ∧ s.mode ≠ .holdUp ∧ s.fol.trans = some t ∧ t.burns = (w, m) :: rest ∧ s.fol.intents.head?.any (fun i => i.iseq == t.intent.iseq) = true :=
  ⟨sTrans, 0, 1, 3, tTrans, [], by decide⟩

theorem test_alertsFolioAndGce_20 : ∃ (s : State) (weak w m : Nat) (rest : List (Nat × Nat)), s.mode ≠ .off ∧ s.mode ≠ .doze ∧ s.mode ≠ .holdUp ∧ s.fol.trans = none ∧ s.fol.svnBurns = (w, m) :: rest ∧ (m &&& weak != 0 && s.fol.svnTries < 3) = true :=
  ⟨{ sRun with fol := { svnBurns := [(54, 3)] } }, 1, 54, 3, [], by decide⟩

theorem test_alertsFolioAndGce_21 : ∃ (s : State) (weak w m : Nat) (rest : List (Nat × Nat)), s.mode ≠ .off ∧ s.mode ≠ .doze ∧ s.mode ≠ .holdUp ∧ s.fol.trans = none ∧ s.fol.svnBurns = (w, m) :: rest ∧ (m &&& weak != 0 && s.fol.svnTries < 3) = false :=
  ⟨{ sRun with fol := { svnBurns := [(54, 3)] } }, 0, 54, 3, [], by decide⟩

theorem test_brynnyxTime_1 : ∃ (s : State) (port : BxlIn) (id : Nat), (s.bxlFrame port 1).2 = false :=
  ⟨sRun, pUp, 3, by decide⟩

theorem test_brynnyxTime_2 : ∃ (s : State) (port : BxlIn) (t1 master hops src cls unc : Nat), (s.bxlFrame port 2).2 = false :=
  ⟨sRun, pUp, 0, 0, 0, 0, 0, 0, by decide⟩

theorem test_brynnyxTime_3 : ∃ (s : State) (port : BxlIn) (t3 : Nat), (s.bxlFrame port 3).2 = false :=
  ⟨sRun, pUp, 0, by decide⟩

theorem test_brynnyxTime_4 : ∃ (s : State) (port : BxlIn) (t4 : Nat), (s.bxlFrame port 4).2 = false :=
  ⟨sRun, pUp, 0, by decide⟩

theorem test_brynnyxTime_5 : ∃ (s : State) (port : BxlIn) (id : Nat), (s.bxlFrame port 5).2 = false :=
  ⟨sRun, pUp, 1, by decide⟩

theorem test_brynnyxTime_6 : ∃ (s : State) (port : BxlIn) (id : Nat), (s.bxlFrame port 6).2 = false :=
  ⟨sRun, pUp, 1, by decide⟩

theorem test_brynnyxTime_7 : ∃ (s : State) (port : BxlIn), (s.bxlFrame port 7).2 = false :=
  ⟨sRun, pUp, by decide⟩

theorem test_brynnyxTime_8 : ∃ (s : State) (port : BxlIn) (id : Nat), (s.bxlFrame port 1).2 = true ∧ port.up = false :=
  ⟨sBxl, pDn, 0, by decide⟩

theorem test_brynnyxTime_9 : ∃ (s : State) (port : BxlIn) (id : Nat), (s.bxlFrame port 1).2 = true ∧ port.up = true ∧ (s.bxlFrame port 1).1.isHead = true :=
  ⟨sBxl.setFld F.BXL_CFG_HEAD 1, pUp, 0, by decide⟩

theorem test_brynnyxTime_10 : ∃ (s : State) (port : BxlIn) (id : Nat), (s.bxlFrame port 1).2 = true ∧ port.up = true ∧ (s.bxlFrame port 1).1.isHead = false ∧ 16383 ≤ id :=
  ⟨sBxl, pUp, 16383, by decide⟩

theorem test_brynnyxTime_11 : ∃ (s : State) (port : BxlIn) (id : Nat), (s.bxlFrame port 1).2 = true ∧ port.up = true ∧ (s.bxlFrame port 1).1.isHead = false ∧ id < 16383 :=
  ⟨sBxl, pUp, 4, by decide⟩

theorem test_brynnyxTime_12 : ∃ (s : State) (port : BxlIn) (t1 master hops src cls unc : Nat), (s.bxlFrame port 2).2 = true ∧ ((s.bxlFrame port 2).1.bxl.toward == some port.up || ((s.bxlFrame port 2).1.bxl.toward.isNone && !(s.bxlFrame port 2).1.bxl.isMaster)) = false :=
  ⟨{ sBxl with bxl := { sBxl.bxl with isMaster := true } }, pUp, 0, 0, 0, 0, 0, 0, by decide⟩

theorem test_brynnyxTime_13 : ∃ (s : State) (port : BxlIn) (t1 master hops src cls unc : Nat), (s.bxlFrame port 2).2 = true ∧ ((s.bxlFrame port 2).1.bxl.toward == some port.up || ((s.bxlFrame port 2).1.bxl.toward.isNone && !(s.bxlFrame port 2).1.bxl.isMaster)) = true :=
  ⟨sBxl, pUp, 0, 0, 0, 0, 0, 0, by decide⟩

theorem test_brynnyxTime_14 : ∃ (s : State) (port : BxlIn) (t3 : Nat), (s.bxlFrame port 3).2 = true ∧ (s.bxlFrame port 3).1.serves port.up = true :=
  ⟨{ sBxl with bxl := { sBxl.bxl with isMaster := true } }, pUp, 0, by decide⟩

theorem test_brynnyxTime_15 : ∃ (s : State) (port : BxlIn) (t3 : Nat), (s.bxlFrame port 3).2 = true ∧ (s.bxlFrame port 3).1.serves port.up = false :=
  ⟨sBxl, pUp, 0, by decide⟩

theorem test_brynnyxTime_16 : ∃ (s : State) (port : BxlIn) (t4 : Nat), (s.bxlFrame port 4).2 = true ∧ (s.bxlFrame port 4).1.bxl.exch = none :=
  ⟨sBxl, pUp, 0, by decide⟩

theorem test_brynnyxTime_17 : ∃ (s : State) (port : BxlIn) (t4 : Nat) (e : Exchange), (s.bxlFrame port 4).2 = true ∧ (s.bxlFrame port 4).1.bxl.exch = some e ∧ (e.up != port.up || e.t2 + msT ≤ s.now) = true :=
  ⟨{ sLate with bxl := { sBxl.bxl with exch := some { up := true, t1 := 0, t2 := 0, t3 := 0 } }, regs := sBxl.regs }, pUp, 0, { up := true, t1 := 0, t2 := 0, t3 := 0 }, by decide⟩

theorem test_brynnyxTime_18 : ∃ (s : State) (port : BxlIn) (t4 : Nat) (e : Exchange), (s.bxlFrame port 4).2 = true ∧ (s.bxlFrame port 4).1.bxl.exch = some e ∧ (e.up != port.up || e.t2 + msT ≤ s.now) = false :=
  ⟨{ sBxl with bxl := { sBxl.bxl with exch := some { up := true, t1 := 0, t2 := 0, t3 := 0 } } }, pUp, 0, { up := true, t1 := 0, t2 := 0, t3 := 0 }, by decide⟩

theorem test_brynnyxTime_19 : ∃ (s : State) (port : BxlIn) (id : Nat), (s.bxlFrame port 5).2 = true ∧ (if ((s.bxlFrame port 5).1.bxlRelay port (.claim id)).bxl.isMaster then some ((s.bxlFrame port 5).1.bxlRelay port (.claim id)).nodeId else ((s.bxlFrame port 5).1.bxlRelay port (.claim id)).bxl.master) = none :=
  ⟨sBxl, pUp, 1, by decide⟩

theorem test_brynnyxTime_20 : ∃ (s : State) (port : BxlIn) (id : Nat) (m : Nat), (s.bxlFrame port 5).2 = true ∧ (if ((s.bxlFrame port 5).1.bxlRelay port (.claim id)).bxl.isMaster then some ((s.bxlFrame port 5).1.bxlRelay port (.claim id)).nodeId else ((s.bxlFrame port 5).1.bxlRelay port (.claim id)).bxl.master) = some m ∧ id < m :=
  ⟨sMast, pUp, 1, 4, by decide⟩

theorem test_brynnyxTime_21 : ∃ (s : State) (port : BxlIn) (id : Nat) (m : Nat), (s.bxlFrame port 5).2 = true ∧ (if ((s.bxlFrame port 5).1.bxlRelay port (.claim id)).bxl.isMaster then some ((s.bxlFrame port 5).1.bxlRelay port (.claim id)).nodeId else ((s.bxlFrame port 5).1.bxlRelay port (.claim id)).bxl.master) = some m ∧ m < id :=
  ⟨sMast, pUp, 7, 4, by decide⟩

theorem test_brynnyxTime_22 : ∃ (s : State) (port : BxlIn) (id : Nat) (m : Nat), (s.bxlFrame port 5).2 = true ∧ (if ((s.bxlFrame port 5).1.bxlRelay port (.claim id)).bxl.isMaster then some ((s.bxlFrame port 5).1.bxlRelay port (.claim id)).nodeId else ((s.bxlFrame port 5).1.bxlRelay port (.claim id)).bxl.master) = some m ∧ id = m :=
  ⟨sMast, pUp, 4, 4, by decide⟩

theorem test_brynnyxTime_23 : ∃ (s : State) (port : BxlIn) (id : Nat), (s.bxlFrame port 6).2 = true ∧ (!(s.bxlFrame port 6).1.hasId || id != (s.bxlFrame port 6).1.nodeId) = true :=
  ⟨sBxl, pUp, 9, by decide⟩

theorem test_brynnyxTime_24 : ∃ (s : State) (port : BxlIn) (id : Nat), (s.bxlFrame port 6).2 = true ∧ (!(s.bxlFrame port 6).1.hasId || id != (s.bxlFrame port 6).1.nodeId) = false :=
  ⟨sBxl, pUp, 3, by decide⟩

theorem test_brynnyxTime_25 : ∃ (s : State) (port : BxlIn), (s.bxlFrame port 7).2 = true :=
  ⟨sBxl, pUp, by decide⟩

theorem test_brynnyxSweepsAndRelay_1 : ∃ (s : State) (port : BxlIn) (time node number : Nat) (all : Bool), (s.bxlFrame port 8).2 = false :=
  ⟨sRun, pUp, 0, 0, 0, true, by decide⟩

theorem test_brynnyxSweepsAndRelay_2 : ∃ (s : State) (port : BxlIn) (issuer : Nat), (s.bxlFrame port 9).2 = false :=
  ⟨sRun, pUp, 0, by decide⟩

theorem test_brynnyxSweepsAndRelay_3 : ∃ (s : State) (port : BxlIn) (part : Nat) (e : SweepEntry), (s.bxlFrame port 10).2 = false :=
  ⟨sRun, pUp, 0, eSweep, by decide⟩

theorem test_brynnyxSweepsAndRelay_4 : ∃ (s : State) (port : BxlIn) (openAfter : Option Nat), (s.bxlFrame port 11).2 = false :=
  ⟨sRun, pUp, none, by decide⟩

theorem test_brynnyxSweepsAndRelay_5 : ∃ (s : State) (port : BxlIn) (action chunks : Nat), (s.bxlFrame port 12).2 = false :=
  ⟨sRun, pUp, 0, 2, by decide⟩

theorem test_brynnyxSweepsAndRelay_6 : ∃ (s : State) (port : BxlIn) (k : Nat) (c : PkgChunk), (s.bxlFrame port 13).2 = false :=
  ⟨sRun, pUp, 1, .body 5, by decide⟩

theorem test_brynnyxSweepsAndRelay_7 : ∃ (s : State) (port : BxlIn) (k : Nat) (pass : Bool), (s.bxlFrame port 14).2 = false :=
  ⟨sRun, pUp, 0, true, by decide⟩

theorem test_brynnyxSweepsAndRelay_8 : ∃ (s : State) (port : BxlIn), (s.bxlFrame port 15).2 = false :=
  ⟨sRun, pUp, by decide⟩

theorem test_brynnyxSweepsAndRelay_9 : ∃ (s : State) (port : BxlIn) (time node number : Nat) (all : Bool), (s.bxlFrame port 8).2 = true ∧ port.up = false :=
  ⟨sBxl, pDn, 0, 0, 0, true, by decide⟩

theorem test_brynnyxSweepsAndRelay_10 : ∃ (s : State) (port : BxlIn) (issuer : Nat), (s.bxlFrame port 9).2 = true ∧ port.up = false :=
  ⟨sBxl, pDn, 0, by decide⟩

theorem test_brynnyxSweepsAndRelay_11 : ∃ (s : State) (port : BxlIn) (action chunks : Nat), (s.bxlFrame port 12).2 = true ∧ port.up = false :=
  ⟨sBxl, pDn, 0, 2, by decide⟩

theorem test_brynnyxSweepsAndRelay_12 : ∃ (s : State) (port : BxlIn) (k : Nat) (c : PkgChunk), (s.bxlFrame port 13).2 = true ∧ port.up = false :=
  ⟨sBxl, pDn, 1, .body 5, by decide⟩

theorem test_brynnyxSweepsAndRelay_13 : ∃ (s : State) (port : BxlIn), (s.bxlFrame port 15).2 = true ∧ port.up = false :=
  ⟨sBxl, pDn, by decide⟩

theorem test_brynnyxSweepsAndRelay_14 : ∃ (s : State) (port : BxlIn) (time node number : Nat) (all : Bool) (st : Status) (dw0 : Nat), (s.bxlFrame port 8).2 = true ∧ port.up = true ∧ ((s.bxlFrame port 8).1.bxlRelay port (.cut time node number all)).cutCheck 2 0xFFFFFFFF time (s.now / 256) = some (st, dw0) :=
  ⟨sBxl, pUp, 0, 0, 0, true, .cutRefused, 10, by decide⟩

theorem test_brynnyxSweepsAndRelay_15 : ∃ (s : State) (port : BxlIn) (time node number : Nat) (all : Bool), (s.bxlFrame port 8).2 = true ∧ port.up = true ∧ ((s.bxlFrame port 8).1.bxlRelay port (.cut time node number all)).cutCheck 2 0xFFFFFFFF time (s.now / 256) = none :=
  ⟨{ sBxl.setFld F.MAP_CUT_CFG_BXL_EN 1 with rul := { cls := 0 } }, pUp, 2000000, 0, 0, true, by decide +kernel⟩

theorem test_brynnyxSweepsAndRelay_16 : ∃ (s : State) (port : BxlIn) (issuer : Nat), (s.bxlFrame port 9).2 = true ∧ port.up = true ∧ ((s.bxlFrame port 9).1.bxlRelay port (.sweepReq issuer)).hasId = false :=
  ⟨{ sBxl with bxl := { sBxl.bxl with idValid := false } }, pUp, 0, by decide⟩

theorem test_brynnyxSweepsAndRelay_17 : ∃ (s : State) (port : BxlIn) (issuer : Nat), (s.bxlFrame port 9).2 = true ∧ port.up = true ∧ ((s.bxlFrame port 9).1.bxlRelay port (.sweepReq issuer)).hasId = true :=
  ⟨sBxl, pUp, 0, by decide⟩

theorem test_brynnyxSweepsAndRelay_18 : ∃ (s : State) (port : BxlIn) (part : Nat) (e : SweepEntry), (s.bxlFrame port 10).2 = true ∧ port.up = true :=
  ⟨sBxl, pUp, 0, eSweep, by decide⟩

theorem test_brynnyxSweepsAndRelay_19 : ∃ (s : State) (port : BxlIn) (part : Nat) (e : SweepEntry), (s.bxlFrame port 10).2 = true ∧ port.up = false ∧ (s.bxlFrame port 10).1.sweeping = false :=
  ⟨sBxl, pDn, 0, eSweep, by decide⟩

theorem test_brynnyxSweepsAndRelay_20 : ∃ (s : State) (port : BxlIn) (part : Nat) (e : SweepEntry) (r : Report), (s.bxlFrame port 10).2 = true ∧ port.up = false ∧ (s.bxlFrame port 10).1.sweeping = true ∧ (s.bxlFrame port 10).1.bxl.report = some r :=
  ⟨sSweep 3, pDn, 0, eSweep, rSweep 3, by decide⟩

theorem test_brynnyxSweepsAndRelay_21 : ∃ (s : State) (port : BxlIn) (openAfter : Option Nat), (s.bxlFrame port 11).2 = true ∧ port.up = true :=
  ⟨sBxl, pUp, none, by decide⟩

theorem test_brynnyxSweepsAndRelay_22 : ∃ (s : State) (port : BxlIn) (openAfter : Option Nat), (s.bxlFrame port 11).2 = true ∧ port.up = false ∧ (s.bxlFrame port 11).1.sweeping = true :=
  ⟨sSweep 3, pDn, none, by decide⟩

theorem test_brynnyxSweepsAndRelay_23 : ∃ (s : State) (port : BxlIn) (openAfter : Option Nat), (s.bxlFrame port 11).2 = true ∧ port.up = false ∧ (s.bxlFrame port 11).1.sweeping = false :=
  ⟨sBxl, pDn, none, by decide⟩

theorem test_brynnyxSweepsAndRelay_24 : ∃ (s : State) (port : BxlIn) (action chunks : Nat), (s.bxlFrame port 12).2 = true ∧ port.up = true ∧ (s.bxlFrame port 12).1.flag F.BXL_CFG_RELAY_EN = false :=
  ⟨sBxl.setFld F.BXL_CFG_RELAY_EN 0, pUp, 0, 2, by decide⟩

theorem test_brynnyxSweepsAndRelay_25 : ∃ (s : State) (port : BxlIn) (action chunks : Nat), (s.bxlFrame port 12).2 = true ∧ port.up = true ∧ (s.bxlFrame port 12).1.flag F.BXL_CFG_RELAY_EN = true :=
  ⟨sBxl.setFld F.BXL_CFG_RELAY_EN 1, pUp, 0, 2, by decide⟩

theorem test_brynnyxSweepsAndRelay_26 : ∃ (s : State) (port : BxlIn) (k : Nat) (c : PkgChunk), (s.bxlFrame port 13).2 = true ∧ port.up = true ∧ (s.bxlFrame port 13).1.flag F.BXL_CFG_RELAY_EN = false :=
  ⟨sBxl.setFld F.BXL_CFG_RELAY_EN 0, pUp, 0, .body 5, by decide⟩

theorem test_brynnyxSweepsAndRelay_27 : ∃ (s : State) (port : BxlIn) (k : Nat) (c : PkgChunk), (s.bxlFrame port 13).2 = true ∧ port.up = true ∧ (s.bxlFrame port 13).1.flag F.BXL_CFG_RELAY_EN = true ∧ (s.bxlFrame port 13).1.bxl.recv = none :=
  ⟨sBxl.setFld F.BXL_CFG_RELAY_EN 1, pUp, 1, .body 5, by decide⟩

theorem test_brynnyxSweepsAndRelay_28 : ∃ (s : State) (port : BxlIn) (k : Nat) (c : PkgChunk) (action chunks : Nat), (s.bxlFrame port 13).2 = true ∧ port.up = true ∧ (s.bxlFrame port 13).1.flag F.BXL_CFG_RELAY_EN = true ∧ (s.bxlFrame port 13).1.bxl.recv = some (action, chunks) ∧ (s.bxlFrame port 13).1.chunkPasses chunks k c = true :=
  ⟨sRecv, pUp, 1, .body 5, 0, 2, by decide⟩

theorem test_brynnyxSweepsAndRelay_29 : ∃ (s : State) (port : BxlIn) (k : Nat) (c : PkgChunk) (action chunks : Nat), (s.bxlFrame port 13).2 = true ∧ port.up = true ∧ (s.bxlFrame port 13).1.flag F.BXL_CFG_RELAY_EN = true ∧ (s.bxlFrame port 13).1.bxl.recv = some (action, chunks) ∧ (s.bxlFrame port 13).1.chunkPasses chunks k c = false :=
  ⟨sRecv, pUp, 1, .body 6, 0, 2, by decide⟩

theorem test_brynnyxSweepsAndRelay_30 : ∃ (s : State) (port : BxlIn) (k : Nat) (pass : Bool), (s.bxlFrame port 14).2 = true ∧ (s.bxlFrame port 14).1.bxl.relay = none :=
  ⟨sBxl, pUp, 0, true, by decide⟩

theorem test_brynnyxSweepsAndRelay_31 : ∃ (s : State) (port : BxlIn) (k : Nat) (pass : Bool) (r : Relay), (s.bxlFrame port 14).2 = true ∧ (s.bxlFrame port 14).1.bxl.relay = some r ∧ (port.up || !r.out.any (fun c => c.k == k)) = true :=
  ⟨sRel 0, pUp, 0, true, rRel 0, by decide⟩

theorem test_brynnyxSweepsAndRelay_32 : ∃ (s : State) (port : BxlIn) (k : Nat) (r : Relay), (s.bxlFrame port 14).2 = true ∧ (s.bxlFrame port 14).1.bxl.relay = some r ∧ (port.up || !r.out.any (fun c => c.k == k)) = false :=
  ⟨sRel 0, pDn, 0, rRel 0, by decide⟩

theorem test_brynnyxSweepsAndRelay_33 : ∃ (s : State) (port : BxlIn) (k : Nat) (r : Relay), (s.bxlFrame port 14).2 = true ∧ (s.bxlFrame port 14).1.bxl.relay = some r ∧ (port.up || !r.out.any (fun c => c.k == k)) = false :=
  ⟨sRel 0, pDn, 0, rRel 0, by decide⟩

theorem test_brynnyxSweepsAndRelay_34 : ∃ (s : State) (port : BxlIn), (s.bxlFrame port 15).2 = true ∧ port.up = true ∧ ((s.bxlFrame port 15).1.bxlRelay port .relayAbort).bxl.recv.isNone = true :=
  ⟨sBxl, pUp, by decide⟩

theorem test_brynnyxSweepsAndRelay_35 : ∃ (s : State) (port : BxlIn), (s.bxlFrame port 15).2 = true ∧ port.up = true ∧ ((s.bxlFrame port 15).1.bxlRelay port .relayAbort).bxl.recv.isNone = false :=
  ⟨sRecv, pUp, by decide⟩

theorem test_brynnyxTimers_1 : ∃ (s : State) (up : Bool), s.mode ≠ .off ∧ s.bxlEnabled up = true :=
  ⟨sBxl, true, by decide⟩

theorem test_brynnyxTimers_2 : ∃ (s : State), s.mode ≠ .off ∧ (s.bxl.port true).linked = true ∧ (s.bxl.port true).lastAt + 10 * usT ≤ s.now :=
  ⟨({ sBxl with rul := sLate.rul } : State), by decide⟩

theorem test_brynnyxTimers_3 : ∃ (s : State), s.mode ≠ .off ∧ (s.bxl.port false).linked = true ∧ (s.bxl.port false).lastAt + 10 * usT ≤ s.now ∧ (s.portDown false).sweeping = true :=
  ⟨({ sSweep 3 with rul := sLate.rul } : State), by decide⟩

theorem test_brynnyxTimers_4 : ∃ (s : State) (t : Nat), s.mode ≠ .off ∧ (s.bxl.port false).linked = true ∧ (s.bxl.port false).lastAt + 10 * usT ≤ s.now ∧ (s.portDown false).sweeping = false ∧ (s.portDown false).bxl.asked = some (t, false) :=
  ⟨({ sBxl with rul := sLate.rul, bxl := { sBxl.bxl with asked := some (0, false) } } : State), 0, by decide⟩

theorem test_brynnyxTimers_5 : ∃ (s : State), s.mode ≠ .off ∧ (s.bxl.port false).linked = true ∧ (s.bxl.port false).lastAt + 10 * usT ≤ s.now ∧ (s.portDown false).sweeping = false ∧ (s.portDown false).bxl.asked.all (fun a => a.2) = true :=
  ⟨({ sBxl with rul := sLate.rul } : State), by decide⟩

theorem test_brynnyxTimers_6 : ∃ (s : State), s.bxl.exchAt + s.fld F.BXL_TIME_PERIOD * msT ≤ s.now ∧ s.mode ≠ .off ∧ s.mode ≠ .doze ∧ s.mode ≠ .holdUp :=
  ⟨{ sLate with regs := sBxl.regs, bxl := sBxl.bxl }, by decide⟩

theorem test_brynnyxTimers_7 : ∃ (s : State) (e : Exchange), s.bxl.exch = some e ∧ e.t2 + msT ≤ s.now :=
  ⟨{ sLate with bxl := { exch := some { up := true, t1 := 0, t2 := 0, t3 := 0 } } }, { up := true, t1 := 0, t2 := 0, t3 := 0 }, by decide⟩

theorem test_brynnyxTimers_8 : ∃ (s : State), (s.bxl.claimAt != 0 && s.now < s.bxl.claimAt + secT) = false ∧ s.mayClaim = true :=
  ⟨sClaim, by decide⟩

theorem test_brynnyxTimers_9 : ∃ (s : State), (s.bxl.claimAt != 0 && s.now < s.bxl.claimAt + secT) = false ∧ s.mayClaim = false ∧ s.bxl.isMaster = true :=
  ⟨{ sBxl with bxl := { sBxl.bxl with isMaster := true } }, by decide⟩

theorem test_brynnyxTimers_10 : ∃ (s : State) (r : Report), s.bxl.report = some r ∧ r.status = 3 ∧ r.at_ + 10 * secT ≤ s.now :=
  ⟨({ sSweep 3 with rul := sLate.rul } : State), rSweep 3, by decide⟩

theorem test_brynnyxTimers_11 : ∃ (s : State) (r : Report), s.bxl.report = some r ∧ s.isHead = true ∧ r.status = 2 ∧ s.bxl.retries < s.fld F.BXL_SWEEP_RETRIES ∧ s.bxl.dn.linked = true ∧ (s.mode == .run || s.mode == .degraded || s.mode == .trial || s.mode == .safe) = true :=
  ⟨((sSweep 2).setFld F.BXL_CFG_HEAD 1).setFld F.BXL_SWEEP_RETRIES 2, rSweep 2, by decide⟩

theorem test_brynnyxTimers_12 : ∃ (s : State) (e : SweepEntry) (t : Nat), s.bxl.held = some (e, t) ∧ t + 60 * secT ≤ s.now :=
  ⟨{ sLate with bxl := { held := some (eSweep, 0) } }, eSweep, 0, by decide⟩

theorem test_brynnyxTimers_13 : ∃ (s : State) (k : Nat) (r : Relay), s.bxl.relay = some r ∧ r.out.any (fun c => c.k == k && c.at_ + 5 * msT ≤ s.now) = true :=
  ⟨({ sRel 0 with rul := sLate.rul } : State), 0, rRel 0, by decide⟩

theorem test_brynnyxTimers_14 : ∃ (s : State) (env : BootEnv), s.mode = .trial ∧ s.wdLeft = 0 ∧ s.tineBlocked = false ∧ 7 < s.rankNow :=
  ⟨{ sLate with mode := .trial }, {}, by decide⟩

theorem test_brynnyxTimers_15 : ∃ (s : State) (env : BootEnv), s.mode = .trial ∧ s.wdLeft = 0 ∧ s.tineBlocked = false ∧ s.rankNow ≤ 7 :=
  ⟨{ sLate with mode := .trial, pwr := { bootWait := some { cause := 2, env := {} } } }, {}, by decide⟩

theorem test_brynnyxTimers_16 : ∃ (s : State), s.suiteReady = true ∧ 7 < s.rankNow :=
  ⟨{ sRun with mode := .trial, ckpt := { newest := some {} } }, by decide⟩

theorem test_brynnyxTimers_17 : ∃ (s : State), s.suiteReady = true ∧ s.rankNow ≤ 7 :=
  ⟨{ sRun with mode := .trial, ckpt := { newest := some {} }, pwr := { asserted := true } }, by decide⟩

theorem test_brynnyxTimers_18 : ∃ (s : State), s.fol.svnBurns = [] ∧ s.bxl.rcd.rotStep ≠ 0 ∧ s.mode ≠ .off ∧ s.mode ≠ .doze ∧ s.mode ≠ .holdUp :=
  ⟨{ sRun with bxl := { rcd := { rotStep := 1 } } }, by decide⟩

theorem test_managementGate_1 : ∃ (s : State) (eid : Nat), s.pwr.vaux = true ∧ s.mode ≠ .doze ∧ (s.wakeEvent 8).miServes .powerOn = false :=
  ⟨{ mode := .holdUp }, 8, by decide⟩

theorem test_managementGate_2 : ∃ (s : State) (eid : Nat), s.pwr.vaux = true ∧ s.mode ≠ .doze ∧ (s.wakeEvent 8).miServes .powerOff = false :=
  ⟨{ mode := .holdUp }, 8, by decide⟩

theorem test_managementGate_3 : ∃ (s : State) (eid : Nat) (env : BootEnv), s.pwr.vaux = true ∧ s.mode ≠ .doze ∧ (s.wakeEvent 8).miServes .full = false :=
  ⟨{ mode := .holdUp }, 8, {}, by decide⟩

theorem test_managementGate_4 : ∃ (s : State) (eid off dwords : Nat), s.pwr.vaux = true ∧ s.mode ≠ .doze ∧ (s.wakeEvent 8).miServes .window = false :=
  ⟨{ mode := .holdUp }, 8, 0, 1, by decide⟩

theorem test_managementGate_5 : ∃ (s : State) (eid off : Nat) (values : List Nat) (env : BootEnv), s.pwr.vaux = true ∧ s.mode ≠ .doze ∧ (s.wakeEvent 8).miServes .window = false :=
  ⟨{ mode := .holdUp }, 8, 0, [0], {}, by decide⟩

theorem test_managementGate_6 : ∃ (s : State) (eid : Nat), s.pwr.vaux = true ∧ s.mode ≠ .doze ∧ (s.wakeEvent 8).miServes .lock = false :=
  ⟨{ mode := .holdUp }, 8, by decide⟩

theorem test_managementGate_7 : ∃ (s : State) (eid : Nat), s.pwr.vaux = true ∧ s.mode ≠ .doze ∧ (s.wakeEvent 8).miServes .lock = false :=
  ⟨{ mode := .holdUp }, 8, by decide⟩

theorem test_managementGate_8 : ∃ (s : State) (eid dtyp id : Nat), s.pwr.vaux = true ∧ s.mode ≠ .doze ∧ (s.wakeEvent 8).miServes .info = false :=
  ⟨{ mode := .holdUp }, 8, 0, 0, by decide⟩

theorem test_managementGate_9 : ∃ (s : State) (eid id : Nat), s.pwr.vaux = true ∧ s.mode ≠ .doze ∧ (s.wakeEvent 8).miServes .full = false :=
  ⟨{ mode := .holdUp }, 8, 1, by decide⟩

theorem test_managementGate_10 : ∃ (s : State) (eid id value : Nat), s.pwr.vaux = true ∧ s.mode ≠ .doze ∧ (s.wakeEvent 8).miServes .full = false :=
  ⟨{ mode := .holdUp }, 8, 1, 2, by decide⟩

theorem test_managementGate_11 : ∃ (s : State) (eid off len : Nat), s.pwr.vaux = true ∧ s.mode ≠ .doze ∧ (s.wakeEvent 8).miServes .vpd = false :=
  ⟨{ mode := .holdUp }, 8, 0, 16, by decide⟩

theorem test_managementGate_12 : ∃ (s : State) (eid : Nat) (env : BootEnv), s.pwr.vaux = true ∧ s.mode ≠ .doze ∧ (s.wakeEvent 8).miServes .full = false :=
  ⟨{ mode := .holdUp }, 8, {}, by decide⟩

theorem test_managementGate_13 : ∃ (s : State) (eid : Nat), s.pwr.vaux = true ∧ s.mode = .doze :=
  ⟨{ mode := .doze }, 8, by decide⟩

theorem test_managementGate_14 : ∃ (s : State) (eid : Nat), s.pwr.vaux = true ∧ s.mode = .doze :=
  ⟨{ mode := .doze }, 8, by decide⟩

theorem test_managementGate_15 : ∃ (s : State) (eid : Nat) (env : BootEnv), s.pwr.vaux = true ∧ s.mode = .doze :=
  ⟨{ mode := .doze }, 8, {}, by decide⟩

theorem test_managementGate_16 : ∃ (s : State) (eid off dwords : Nat), s.pwr.vaux = true ∧ s.mode = .doze :=
  ⟨{ mode := .doze }, 8, 0, 1, by decide⟩

theorem test_managementGate_17 : ∃ (s : State) (eid off : Nat) (values : List Nat) (env : BootEnv), s.pwr.vaux = true ∧ s.mode = .doze :=
  ⟨{ mode := .doze }, 8, 0, [0], {}, by decide⟩

theorem test_managementGate_18 : ∃ (s : State) (eid : Nat), s.pwr.vaux = true ∧ s.mode = .doze :=
  ⟨{ mode := .doze }, 8, by decide⟩

theorem test_managementGate_19 : ∃ (s : State) (eid : Nat), s.pwr.vaux = true ∧ s.mode = .doze :=
  ⟨{ mode := .doze }, 8, by decide⟩

theorem test_managementGate_20 : ∃ (s : State) (eid dtyp id : Nat), s.pwr.vaux = true ∧ s.mode = .doze :=
  ⟨{ mode := .doze }, 8, 0, 0, by decide⟩

theorem test_managementGate_21 : ∃ (s : State) (eid : Nat), s.pwr.vaux = true ∧ s.mode = .doze :=
  ⟨{ mode := .doze }, 8, by decide⟩

theorem test_managementGate_22 : ∃ (s : State) (eid ctrl : Nat), s.pwr.vaux = true ∧ s.mode = .doze :=
  ⟨{ mode := .doze }, 8, 0, by decide⟩

theorem test_managementGate_23 : ∃ (s : State) (eid id : Nat), s.pwr.vaux = true ∧ s.mode = .doze :=
  ⟨{ mode := .doze }, 8, 1, by decide⟩

theorem test_managementGate_24 : ∃ (s : State) (eid id value : Nat), s.pwr.vaux = true ∧ s.mode = .doze :=
  ⟨{ mode := .doze }, 8, 1, 2, by decide⟩

theorem test_managementGate_25 : ∃ (s : State) (eid off len : Nat), s.pwr.vaux = true ∧ s.mode = .doze :=
  ⟨{ mode := .doze }, 8, 0, 16, by decide⟩

theorem test_managementGate_26 : ∃ (s : State) (eid : Nat) (env : BootEnv), s.pwr.vaux = true ∧ s.mode = .doze :=
  ⟨{ mode := .doze }, 8, {}, by decide⟩

theorem test_managementGate_27 : ∃ (s : State) (op eid : Nat), s.pwr.vaux = true ∧ s.mode = .doze :=
  ⟨{ mode := .doze }, 0, 8, by decide⟩

theorem test_managementGate_28 : ∃ (s : State), s.pwr.vaux = true ∧ s.mode = .doze :=
  ⟨{ mode := .doze }, by decide⟩

theorem test_managementGate_29 : ∃ (s : State), s.pwr.vaux = true ∧ s.mode = .doze :=
  ⟨{ mode := .doze }, by decide⟩

theorem test_managementGate_30 : ∃ (s : State) (kind : Nat), s.pwr.vaux = true ∧ s.mode = .doze :=
  ⟨{ mode := .doze }, 0, by decide⟩

theorem test_managementGate_31 : ∃ (s : State), s.pwr.vaux = true ∧ s.mode = .doze :=
  ⟨{ mode := .doze }, by decide⟩

theorem test_managementGate_32 : ∃ (s : State) (eid req resp : Nat) (page : Option Nat), s.pwr.vaux = true ∧ s.mode = .doze :=
  ⟨{ mode := .doze }, 8, 64, 64, none, by decide⟩

theorem test_managementPower_1 : ∃ (s : State) (eid : Nat) (h : Holder), s.pwr.vaux = true ∧ s.mode ≠ .doze ∧ (s.wakeEvent 8).miServes .powerOn = true ∧ ((s.wakeEvent 8).miTouch eid).sideHeld eid = some h :=
  ⟨{ sRun with mgmt := { lock := some .pf1 } }, 8, .pf1, by decide⟩

theorem test_managementPower_2 : ∃ (s : State) (eid : Nat) (h : Holder), s.pwr.vaux = true ∧ s.mode ≠ .doze ∧ (s.wakeEvent 8).miServes .powerOff = true ∧ ((s.wakeEvent 8).miTouch eid).sideHeld eid = some h :=
  ⟨{ sRun with mgmt := { lock := some .pf1 } }, 8, .pf1, by decide⟩

theorem test_managementPower_3 : ∃ (s : State) (eid : Nat) (env : BootEnv) (h : Holder), s.pwr.vaux = true ∧ s.mode ≠ .doze ∧ (s.wakeEvent 8).miServes .full = true ∧ ((s.wakeEvent 8).miTouch eid).sideHeld eid = some h :=
  ⟨{ sRun with mgmt := { lock := some .pf1 } }, 8, {}, .pf1, by decide⟩

theorem test_managementPower_4 : ∃ (s : State) (eid : Nat), s.pwr.vaux = true ∧ s.mode ≠ .doze ∧ (s.wakeEvent 8).miServes .powerOn = true ∧ ((s.wakeEvent 8).miTouch eid).sideHeld eid = none ∧ ((s.wakeEvent 8).miTouch eid).mode = .off :=
  ⟨{ mode := .off }, 8, by decide⟩

theorem test_managementPower_5 : ∃ (s : State) (eid : Nat), s.pwr.vaux = true ∧ s.mode ≠ .doze ∧ (s.wakeEvent 8).miServes .powerOn = true ∧ ((s.wakeEvent 8).miTouch eid).sideHeld eid = none ∧ ((s.wakeEvent 8).miTouch eid).mode ≠ .off :=
  ⟨sRun, 8, by decide⟩

theorem test_managementPower_6 : ∃ (s : State) (eid : Nat), s.pwr.vaux = true ∧ s.mode ≠ .doze ∧ (s.wakeEvent 8).miServes .powerOff = true ∧ ((s.wakeEvent 8).miTouch eid).sideHeld eid = none :=
  ⟨sRun, 8, by decide⟩

theorem test_managementPower_7 : ∃ (s : State) (eid : Nat) (env : BootEnv), s.pwr.vaux = true ∧ s.mode ≠ .doze ∧ (s.wakeEvent 8).miServes .full = true ∧ ((s.wakeEvent 8).miTouch eid).sideHeld eid = none :=
  ⟨sRun, 8, {}, by decide⟩

theorem test_managementPower_8 : ∃ (s : State) (eid : Nat) (env : BootEnv), s.pwr.vaux = true ∧ s.mode ≠ .doze ∧ (s.wakeEvent 8).miServes .full = true :=
  ⟨sRun, 8, {}, by decide⟩

theorem test_managementPower_9 : ∃ (s : State) (eid off dwords : Nat), s.pwr.vaux = true ∧ s.mode ≠ .doze ∧ (s.wakeEvent 8).miServes .window = true ∧ windowOk off dwords = false :=
  ⟨sRun, 8, 2, 1, by decide⟩

theorem test_managementPower_10 : ∃ (s : State) (eid off dwords : Nat), s.pwr.vaux = true ∧ s.mode ≠ .doze ∧ (s.wakeEvent 8).miServes .window = true ∧ windowOk off dwords = true ∧ ((s.wakeEvent 8).miTouch eid).windowServes off dwords = false :=
  ⟨{ mode := .boot }, 8, 0, 1, by decide⟩

theorem test_managementPower_11 : ∃ (s : State) (eid off dwords : Nat), s.pwr.vaux = true ∧ s.mode ≠ .doze ∧ (s.wakeEvent 8).miServes .window = true ∧ windowOk off dwords = true ∧ ((s.wakeEvent 8).miTouch eid).windowServes off dwords = true :=
  ⟨sRun, 8, 0, 1, by decide⟩

theorem test_managementPower_12 : ∃ (s : State) (eid off : Nat) (values : List Nat) (env : BootEnv), s.pwr.vaux = true ∧ s.mode ≠ .doze ∧ (s.wakeEvent 8).miServes .window = true ∧ windowOk off values.length = false :=
  ⟨sRun, 8, 2, [0], {}, by decide⟩

theorem test_managementPower_13 : ∃ (s : State) (eid off : Nat) (values : List Nat) (env : BootEnv), s.pwr.vaux = true ∧ s.mode ≠ .doze ∧ (s.wakeEvent 8).miServes .window = true ∧ windowOk off values.length = true ∧ ((s.wakeEvent 8).miTouch eid).windowServes off values.length = false :=
  ⟨{ mode := .boot }, 8, 0, [0], {}, by decide⟩

theorem test_managementPower_14 : ∃ (s : State) (eid off : Nat) (values : List Nat) (env : BootEnv) (h : Holder), s.pwr.vaux = true ∧ s.mode ≠ .doze ∧ (s.wakeEvent 8).miServes .window = true ∧ windowOk off values.length = true ∧ ((s.wakeEvent 8).miTouch eid).windowServes off values.length = true ∧ ((s.wakeEvent 8).miTouch eid).sideHeld eid = some h :=
  ⟨{ sRun with mgmt := { lock := some .pf1 } }, 8, 0, [0], {}, .pf1, by decide⟩

theorem test_managementPower_15 : ∃ (s : State) (eid off : Nat) (values : List Nat) (env : BootEnv), s.pwr.vaux = true ∧ s.mode ≠ .doze ∧ (s.wakeEvent 8).miServes .window = true ∧ windowOk off values.length = true ∧ ((s.wakeEvent 8).miTouch eid).windowServes off values.length = true ∧ ((s.wakeEvent 8).miTouch eid).sideHeld eid = none :=
  ⟨sRun, 8, 0, [0], {}, by decide⟩

theorem test_managementPower_16 : ∃ (s : State) (eid : Nat) (h : Holder), s.pwr.vaux = true ∧ s.mode ≠ .doze ∧ (s.wakeEvent 8).miServes .lock = true ∧ ((s.wakeEvent 8).miTouch eid).sideHeld eid = some h :=
  ⟨{ sRun with mgmt := { lock := some .pf1 } }, 8, .pf1, by decide⟩

theorem test_managementPower_17 : ∃ (s : State) (eid : Nat), s.pwr.vaux = true ∧ s.mode ≠ .doze ∧ (s.wakeEvent 8).miServes .lock = true ∧ ((s.wakeEvent 8).miTouch eid).sideHeld eid = none :=
  ⟨sRun, 8, by decide⟩

theorem test_managementPower_18 : ∃ (s : State) (eid : Nat), s.pwr.vaux = true ∧ s.mode ≠ .doze ∧ (s.wakeEvent 8).miServes .lock = true ∧ (((s.wakeEvent 8).miTouch eid).mgmt.lock != some .mgmt || (((s.wakeEvent 8).miTouch eid).sideHeld eid).isSome) = true :=
  ⟨sRun, 8, by decide⟩

theorem test_managementPower_19 : ∃ (s : State) (eid : Nat), s.pwr.vaux = true ∧ s.mode ≠ .doze ∧ (s.wakeEvent 8).miServes .lock = true ∧ (((s.wakeEvent 8).miTouch eid).mgmt.lock != some .mgmt || (((s.wakeEvent 8).miTouch eid).sideHeld eid).isSome) = false :=
  ⟨{ sRun with mgmt := { lock := some .mgmt, lockEid := 8 } }, 8, by decide⟩

theorem test_managementPower_20 : ∃ (s : State), (s.mgmt.lock.isSome && !s.mgmt.lockTemp && s.mgmt.lockAt + 60 * secT ≤ s.now) = true :=
  ⟨{ sLate with mgmt := { lock := some .pf0 } }, by decide⟩

theorem test_managementReads_1 : ∃ (s : State) (eid id : Nat), s.pwr.vaux = true ∧ s.mode ≠ .doze ∧ (s.wakeEvent 8).miServes .info = true :=
  ⟨sRun, 8, 0, by decide⟩

theorem test_managementReads_2 : ∃ (s : State) (eid id : Nat), s.pwr.vaux = true ∧ s.mode ≠ .doze ∧ (s.wakeEvent 8).miServes .info = true ∧ id < 2 + bit (((s.wakeEvent 8).miTouch eid).flag F.HP_CFG_DUAL) :=
  ⟨sRun, 8, 0, by decide⟩

theorem test_managementReads_3 : ∃ (s : State) (eid id : Nat), s.pwr.vaux = true ∧ s.mode ≠ .doze ∧ (s.wakeEvent 8).miServes .info = true ∧ 2 + bit (((s.wakeEvent 8).miTouch eid).flag F.HP_CFG_DUAL) ≤ id :=
  ⟨sRun, 8, 9, by decide⟩

theorem test_managementReads_4 : ∃ (s : State) (eid id : Nat), s.pwr.vaux = true ∧ s.mode ≠ .doze ∧ (s.wakeEvent 8).miServes .info = true :=
  ⟨sRun, 8, 0, by decide⟩

theorem test_managementReads_5 : ∃ (s : State) (eid id : Nat) (k : Ctrl), s.pwr.vaux = true ∧ s.mode ≠ .doze ∧ (s.wakeEvent 8).miServes .info = true ∧ ((s.wakeEvent 8).miTouch eid).ctrl id = some k :=
  ⟨sRun, 8, 0, { id := 0, en := true, rdy := true }, by decide⟩

theorem test_managementReads_6 : ∃ (s : State) (eid id : Nat), s.pwr.vaux = true ∧ s.mode ≠ .doze ∧ (s.wakeEvent 8).miServes .info = true ∧ ((s.wakeEvent 8).miTouch eid).ctrl id = none :=
  ⟨sRun, 8, 1, by decide⟩

theorem test_managementReads_7 : ∃ (s : State) (eid id : Nat), s.pwr.vaux = true ∧ s.mode ≠ .doze ∧ (s.wakeEvent 8).miServes .info = true :=
  ⟨sRun, 8, 0, by decide⟩

theorem test_managementReads_8 : ∃ (s : State) (eid dtyp id : Nat), s.pwr.vaux = true ∧ s.mode ≠ .doze ∧ (s.wakeEvent 8).miServes .info = true ∧ 4 < dtyp :=
  ⟨sRun, 8, 5, 0, by decide⟩

theorem test_managementReads_9 : ∃ (s : State) (eid : Nat), s.pwr.vaux = true ∧ s.mode ≠ .doze ∧ (s.wakeEvent 8).miServes .poll = true :=
  ⟨sRun, 8, by decide⟩

theorem test_managementReads_10 : ∃ (s : State) (eid ctrl : Nat), s.pwr.vaux = true ∧ s.mode ≠ .doze ∧ (s.wakeEvent 8).miServes .poll = true ∧ ((s.wakeEvent 8).miTouch eid).fromCache = true :=
  ⟨{ mode := .boot }, 8, 0, by decide⟩

theorem test_managementReads_11 : ∃ (s : State) (eid ctrl : Nat) (k : Ctrl), s.pwr.vaux = true ∧ s.mode ≠ .doze ∧ (s.wakeEvent 8).miServes .poll = true ∧ ((s.wakeEvent 8).miTouch eid).fromCache = false ∧ ((s.wakeEvent 8).miTouch eid).ctrl ctrl = some k :=
  ⟨sRun, 8, 0, { id := 0, en := true, rdy := true }, by decide⟩

theorem test_managementReads_12 : ∃ (s : State) (eid ctrl : Nat), s.pwr.vaux = true ∧ s.mode ≠ .doze ∧ (s.wakeEvent 8).miServes .poll = true ∧ ((s.wakeEvent 8).miTouch eid).fromCache = false ∧ ((s.wakeEvent 8).miTouch eid).ctrl ctrl = none :=
  ⟨sRun, 8, 1, by decide⟩

theorem test_managementReads_13 : ∃ (s : State) (eid id : Nat), s.pwr.vaux = true ∧ s.mode ≠ .doze ∧ (s.wakeEvent 8).miServes .full = true ∧ (1 ≤ id && id ≤ 3) = true :=
  ⟨sRun, 8, 1, by decide⟩

theorem test_managementReads_14 : ∃ (s : State) (eid id : Nat), s.pwr.vaux = true ∧ s.mode ≠ .doze ∧ (s.wakeEvent 8).miServes .full = true ∧ (1 ≤ id && id ≤ 3) = false :=
  ⟨sRun, 8, 0, by decide⟩

theorem test_managementReads_15 : ∃ (s : State) (eid id value : Nat), s.pwr.vaux = true ∧ s.mode ≠ .doze ∧ (s.wakeEvent 8).miServes .full = true ∧ ((id = 1 && 1 ≤ value && value ≤ 3) || id = 2 || (id = 3 && value = 64)) = true :=
  ⟨sRun, 8, 1, 2, by decide⟩

theorem test_managementReads_16 : ∃ (s : State) (eid id value : Nat), s.pwr.vaux = true ∧ s.mode ≠ .doze ∧ (s.wakeEvent 8).miServes .full = true ∧ ((id = 1 && 1 ≤ value && value ≤ 3) || id = 2 || (id = 3 && value = 64)) = false :=
  ⟨sRun, 8, 1, 4, by decide⟩

theorem test_managementReads_17 : ∃ (s : State) (eid off len : Nat), s.pwr.vaux = true ∧ s.mode ≠ .doze ∧ (s.wakeEvent 8).miServes .vpd = true ∧ 512 < off + len :=
  ⟨sRun, 8, 512, 1, by decide⟩

theorem test_managementReads_18 : ∃ (s : State) (eid off len : Nat), s.pwr.vaux = true ∧ s.mode ≠ .doze ∧ (s.wakeEvent 8).miServes .vpd = true ∧ off + len ≤ 512 :=
  ⟨sRun, 8, 0, 16, by decide⟩

theorem test_managementReads_19 : ∃ (s : State) (eid req resp : Nat), s.pwr.vaux = true ∧ (s.mode = .off || s.mode = .boot) = true :=
  ⟨{ mode := .boot }, 8, 64, 64, by decide⟩

theorem test_managementReads_20 : ∃ (s : State) (eid req resp : Nat), s.pwr.vaux = true ∧ (s.mode = .off || s.mode = .boot) = true :=
  ⟨{ mode := .boot }, 8, 64, 64, by decide⟩

theorem test_managementReads_21 : ∃ (s : State) (eid req resp : Nat) (page : Option Nat), s.pwr.vaux = true ∧ (s.mode = .off || s.mode = .boot) = true ∧ page ≠ some 0xC2 ∧ page ≠ some 0xC0 :=
  ⟨{ mode := .boot }, 8, 64, 64, none, by decide⟩

theorem test_managementReads_22 : ∃ (s : State) (eid req resp : Nat) (page : Option Nat), s.pwr.vaux = true ∧ s.mode ≠ .doze ∧ (s.mode = .off || s.mode = .boot) = false ∧ (s.wakeEvent 8).miServes .full = false :=
  ⟨{ mode := .holdUp }, 8, 64, 64, none, by decide⟩

theorem test_managementReads_23 : ∃ (s : State) (eid req resp : Nat) (page : Option Nat), s.pwr.vaux = true ∧ s.mode ≠ .doze ∧ (s.mode = .off || s.mode = .boot) = false ∧ (s.wakeEvent 8).miServes .full = true ∧ 2 ≤ ((s.wakeEvent 8).miTouch eid).mgmt.tunnels :=
  ⟨{ sRun with mgmt := { tunnels := 2 } }, 8, 64, 64, none, by decide⟩

theorem test_managementReads_24 : ∃ (s : State) (eid req resp : Nat) (page : Option Nat), s.pwr.vaux = true ∧ s.mode ≠ .doze ∧ (s.mode = .off || s.mode = .boot) = false ∧ (s.wakeEvent 8).miServes .full = true ∧ ((s.wakeEvent 8).miTouch eid).mgmt.tunnels < 2 ∧ (4096 < req || 4096 < resp) = true :=
  ⟨sRun, 8, 5000, 64, none, by decide⟩

theorem test_managementReads_25 : ∃ (s : State) (eid req resp : Nat) (page : Option Nat), s.pwr.vaux = true ∧ s.mode ≠ .doze ∧ (s.mode = .off || s.mode = .boot) = false ∧ (s.wakeEvent 8).miServes .full = true ∧ ((s.wakeEvent 8).miTouch eid).mgmt.tunnels < 2 ∧ (4096 < req || 4096 < resp) = false :=
  ⟨sRun, 8, 64, 64, none, by decide⟩

theorem test_managementReads_26 : ∃ (s : State) (op eid : Nat), s.pwr.vaux = true ∧ s.mode ≠ .doze ∧ (1 < op || eid = 0 || 255 ≤ eid) = true :=
  ⟨sRun, 2, 8, by decide⟩

theorem test_managementReads_27 : ∃ (s : State) (op eid : Nat), s.pwr.vaux = true ∧ s.mode ≠ .doze ∧ (1 < op || eid = 0 || 255 ≤ eid) = false :=
  ⟨sRun, 0, 8, by decide⟩

theorem test_managementReads_28 : ∃ (s : State), s.pwr.vaux = true ∧ s.mode ≠ .doze :=
  ⟨sRun, by decide⟩

theorem test_managementReads_29 : ∃ (s : State), s.pwr.vaux = true ∧ s.mode ≠ .doze :=
  ⟨sRun, by decide⟩

theorem test_managementReads_30 : ∃ (s : State) (kind : Nat), s.pwr.vaux = true ∧ s.mode ≠ .doze ∧ (kind = 0xFF || mctpTypes.contains kind) = true :=
  ⟨sRun, 0, by decide⟩

theorem test_managementReads_31 : ∃ (s : State) (kind : Nat), s.pwr.vaux = true ∧ s.mode ≠ .doze ∧ (kind = 0xFF || mctpTypes.contains kind) = false :=
  ⟨sRun, 1, by decide⟩

theorem test_managementReads_32 : ∃ (s : State), s.pwr.vaux = true ∧ s.mode ≠ .doze :=
  ⟨sRun, by decide⟩

theorem test_managementReads_33 : ∃ (s : State) (addr : Nat), (s.pwr.vaux && addr < 128) = true :=
  ⟨sRun, 9, by decide⟩

theorem test_managementReads_34 : ∃ (s : State) (addr dyn : Nat), (s.pwr.vaux && addr = s.staticAddr && dyn < 128) = true :=
  ⟨sRun, 0x1D, 9, by decide⟩

theorem test_managementReads_35 : ∃ (s : State), s.pwr.vaux = true :=
  ⟨sRun, by decide⟩

theorem test_spdmNegotiation_1 : ∃ (s : State) (p : Party), s.spdmServes p = true :=
  ⟨sSpdm 0, .mctp 8, by decide⟩

theorem test_spdmNegotiation_2 : ∃ (s : State) (p : Party), s.spdmServes p = true ∧ ((s.spdmTold p).conn p).stage < 1 :=
  ⟨sSpdm 0, .mctp 8, by decide⟩

theorem test_spdmNegotiation_3 : ∃ (s : State) (p : Party) (offered : Bool), s.spdmServes p = true ∧ ((s.spdmTold p).conn p).stage < 2 :=
  ⟨sSpdm 0, .mctp 8, true, by decide⟩

theorem test_spdmNegotiation_4 : ∃ (s : State) (p : Party), s.spdmServes p = true ∧ ((s.spdmTold p).conn p).stage < 3 :=
  ⟨sSpdm 0, .mctp 8, by decide⟩

theorem test_spdmNegotiation_5 : ∃ (s : State) (p : Party) (slot off len : Nat), s.spdmServes p = true ∧ ((s.spdmTold p).conn p).stage < 3 :=
  ⟨sSpdm 0, .mctp 8, 0, 0, 16, by decide⟩

theorem test_spdmNegotiation_6 : ∃ (s : State) (p : Party) (slot : Nat), s.spdmServes p = true ∧ ((s.spdmTold p).conn p).stage < 3 :=
  ⟨sSpdm 0, .mctp 8, 0, by decide⟩

theorem test_spdmNegotiation_7 : ∃ (s : State) (p : Party) (index : Nat), s.spdmServes p = true ∧ ((s.spdmTold p).conn p).stage < 3 :=
  ⟨sSpdm 0, .mctp 8, 0, by decide⟩

theorem test_spdmNegotiation_8 : ∃ (s : State) (p : Party), s.spdmServes p = true ∧ 1 ≤ ((s.spdmTold p).conn p).stage :=
  ⟨sSpdm 3, .mctp 8, by decide⟩

theorem test_spdmNegotiation_9 : ∃ (s : State) (p : Party), s.spdmServes p = true ∧ 2 ≤ ((s.spdmTold p).conn p).stage :=
  ⟨sSpdm 3, .mctp 8, by decide⟩

theorem test_spdmNegotiation_10 : ∃ (s : State) (p : Party), s.spdmServes p = true ∧ 2 ≤ ((s.spdmTold p).conn p).stage :=
  ⟨sSpdm 3, .mctp 8, by decide⟩

theorem test_spdmNegotiation_11 : ∃ (s : State) (p : Party), s.spdmServes p = true ∧ 3 ≤ ((s.spdmTold p).conn p).stage :=
  ⟨sSpdm 3, .mctp 8, by decide⟩

theorem test_spdmNegotiation_12 : ∃ (s : State) (p : Party) (slot off len : Nat), s.spdmServes p = true ∧ 3 ≤ ((s.spdmTold p).conn p).stage ∧ (slot != 0 || !(s.spdmTold p).certified) = true :=
  ⟨sSpdm 3, .mctp 8, 0, 0, 16, by decide⟩

theorem test_spdmNegotiation_13 : ∃ (s : State) (p : Party) (slot off len : Nat), s.spdmServes p = true ∧ 3 ≤ ((s.spdmTold p).conn p).stage ∧ (slot != 0 || !(s.spdmTold p).certified) = false :=
  ⟨sCert, .mctp 8, 0, 0, 16, by decide⟩

theorem test_spdmNegotiation_14 : ∃ (s : State) (p : Party) (slot : Nat), s.spdmServes p = true ∧ 3 ≤ ((s.spdmTold p).conn p).stage ∧ (slot != 0 || !(s.spdmTold p).certified) = true :=
  ⟨sSpdm 3, .mctp 8, 0, by decide⟩

theorem test_spdmNegotiation_15 : ∃ (s : State) (p : Party) (slot : Nat), s.spdmServes p = true ∧ 3 ≤ ((s.spdmTold p).conn p).stage ∧ (slot != 0 || !(s.spdmTold p).certified) = false :=
  ⟨sCert, .mctp 8, 0, by decide⟩

theorem test_spdmNegotiation_16 : ∃ (s : State) (p : Party), s.spdmServes p = true ∧ 3 ≤ ((s.spdmTold p).conn p).stage :=
  ⟨sSpdm 3, .mctp 8, by decide⟩

theorem test_spdmNegotiation_17 : ∃ (s : State) (p : Party), s.spdmServes p = true ∧ 3 ≤ ((s.spdmTold p).conn p).stage :=
  ⟨sSpdm 3, .mctp 8, by decide⟩

theorem test_spdmNegotiation_18 : ∃ (s : State) (p : Party) (index : Nat) (d : List Nat), s.spdmServes p = true ∧ 3 ≤ ((s.spdmTold p).conn p).stage ∧ index ≠ 0 ∧ index ≠ 0xFF ∧ (s.spdmTold p).measurement index = some d :=
  ⟨sSpdm 3, .mctp 8, 1, (((sSpdm 3).spdmTold (.mctp 8)).measurement 1).getD [], by decide, by decide, by decide, by decide, rfl⟩

theorem test_spdmNegotiation_19 : ∃ (s : State) (p : Party) (index : Nat), s.spdmServes p = true ∧ 3 ≤ ((s.spdmTold p).conn p).stage ∧ index ≠ 0 ∧ index ≠ 0xFF ∧ (s.spdmTold p).measurement index = none :=
  ⟨sSpdm 3, .mctp 8, 7, by decide⟩

theorem test_spdmSessions_1 : ∃ (s : State) (p : Party) (slot : Nat), s.spdmServes p = true ∧ ((s.spdmTold p).conn p).stage < 3 :=
  ⟨sSpdm 0, .mctp 8, 0, by decide⟩

theorem test_spdmSessions_2 : ∃ (s : State) (p : Party) (slot : Nat), s.spdmServes p = true ∧ 3 ≤ ((s.spdmTold p).conn p).stage ∧ (slot != 0 || !(s.spdmTold p).certified) = true :=
  ⟨sSpdm 3, .mctp 8, 0, by decide⟩

theorem test_spdmSessions_3 : ∃ (s : State) (p : Party) (slot : Nat), s.spdmServes p = true ∧ 3 ≤ ((s.spdmTold p).conn p).stage ∧ (slot != 0 || !(s.spdmTold p).certified) = false :=
  ⟨sCert, .mctp 8, 0, by decide⟩

theorem test_spdmSessions_4 : ∃ (s : State) (p : Party) (session : Nat) (ok : Bool), s.spdmServes p = true ∧ ((s.spdmTold p).conn p).sessions.find? (fun e => e.1 == session && e.2.1 == false) = none :=
  ⟨sSpdm 3, .mctp 8, 9, true, by decide⟩

theorem test_spdmSessions_5 : ∃ (s : State) (p : Party) (session : Nat), s.spdmServes p = true ∧ ((s.spdmTold p).conn p).sessions.find? (fun e => e.1 == session && e.2.1 == true) = none :=
  ⟨sSpdm 3, .mctp 8, 9, by decide⟩

theorem test_spdmSessions_6 : ∃ (s : State) (p : Party) (session : Nat) (op : Nat), s.spdmServes p = true ∧ ((s.spdmTold p).conn p).sessions.find? (fun e => e.1 == session && e.2.1 == true) = none :=
  ⟨sSpdm 3, .mctp 8, 9, 1, by decide⟩

theorem test_spdmSessions_7 : ∃ (s : State) (p : Party) (session : Nat), s.spdmServes p = true ∧ ((s.spdmTold p).conn p).sessions.find? (fun e => e.1 == session && e.2.1 == true) = none :=
  ⟨sSpdm 3, .mctp 8, 9, by decide⟩

theorem test_spdmSessions_8 : ∃ (s : State) (p : Party) (session : Nat) (g : Nat), s.spdmServes p = true ∧ ((s.spdmTold p).conn p).sessions.find? (fun e => e.1 == session && e.2.1 == false) = some (session, false, g) :=
  ⟨sSess false, .mctp 8, 1, 0, by decide⟩

theorem test_spdmSessions_9 : ∃ (s : State) (p : Party) (session : Nat) (g : Nat), s.spdmServes p = true ∧ ((s.spdmTold p).conn p).sessions.find? (fun e => e.1 == session && e.2.1 == false) = some (session, false, g) :=
  ⟨sSess false, .mctp 8, 1, 0, by decide⟩

theorem test_spdmSessions_10 : ∃ (s : State) (p : Party) (session : Nat) (g : Nat), s.spdmServes p = true ∧ ((s.spdmTold p).conn p).sessions.find? (fun e => e.1 == session && e.2.1 == true) = some (session, true, g) :=
  ⟨sSess true, .mctp 8, 1, 0, by decide⟩

theorem test_spdmSessions_11 : ∃ (s : State) (p : Party) (session : Nat) (op : Nat) (g : Nat), s.spdmServes p = true ∧ ((s.spdmTold p).conn p).sessions.find? (fun e => e.1 == session && e.2.1 == true) = some (session, true, g) ∧ (op = 1 ∨ op = 2) :=
  ⟨sSess true, .mctp 8, 1, 1, 0, by decide⟩

theorem test_spdmSessions_12 : ∃ (s : State) (p : Party) (session : Nat) (g : Nat), s.spdmServes p = true ∧ ((s.spdmTold p).conn p).sessions.find? (fun e => e.1 == session && e.2.1 == true) = some (session, true, g) :=
  ⟨sSess true, .mctp 8, 1, 0, by decide⟩

theorem test_spdmSessions_13 : ∃ (s : State) (p : Party) (session : Nat) (op : Nat) (g : Nat), s.spdmServes p = true ∧ ((s.spdmTold p).conn p).sessions.find? (fun e => e.1 == session && e.2.1 == true) = some (session, true, g) ∧ op ≠ 1 ∧ op ≠ 2 ∧ op ≠ 3 :=
  ⟨sSess true, .mctp 8, 1, 4, 0, by decide⟩

theorem test_spdmSessions_14 : ∃ (s : State) (p : Party) (session : Nat) (g : Nat), s.spdmServes p = true ∧ ((s.spdmTold p).conn p).sessions.find? (fun e => e.1 == session && e.2.1 == true) = some (session, true, g) :=
  ⟨sSess true, .mctp 8, 1, 0, by decide⟩

theorem test_spdmSessions_15 : ∃ (s : State) (pf : Nat), s.spdmServes (.doe pf) = false :=
  ⟨sRun, 0, by decide⟩

theorem test_spdmSessions_16 : ∃ (s : State) (pf : Nat), s.spdmServes (.doe pf) = false :=
  ⟨sRun, 0, by decide⟩

theorem test_spdmSessions_17 : ∃ (s : State) (pf : Nat) (offered : Bool), s.spdmServes (.doe pf) = false :=
  ⟨sRun, 0, true, by decide⟩

theorem test_spdmSessions_18 : ∃ (s : State) (pf : Nat), s.spdmServes (.doe pf) = false :=
  ⟨sRun, 0, by decide⟩

theorem test_spdmSessions_19 : ∃ (s : State) (pf : Nat) (slot off len : Nat), s.spdmServes (.doe pf) = false :=
  ⟨sRun, 0, 0, 0, 0, by decide⟩

theorem test_spdmSessions_20 : ∃ (s : State) (pf : Nat) (slot : Nat), s.spdmServes (.doe pf) = false :=
  ⟨sRun, 0, 0, by decide⟩

theorem test_spdmSessions_21 : ∃ (s : State) (pf : Nat) (index : Nat), s.spdmServes (.doe pf) = false :=
  ⟨sRun, 0, 0, by decide⟩

theorem test_spdmSessions_22 : ∃ (s : State) (pf : Nat) (slot : Nat), s.spdmServes (.doe pf) = false :=
  ⟨sRun, 0, 0, by decide⟩

theorem test_spdmSessions_23 : ∃ (s : State) (pf : Nat) (session : Nat) (ok : Bool), s.spdmServes (.doe pf) = false :=
  ⟨sRun, 0, 0, true, by decide⟩

theorem test_spdmSessions_24 : ∃ (s : State) (pf : Nat) (session : Nat), s.spdmServes (.doe pf) = false :=
  ⟨sRun, 0, 0, by decide⟩

theorem test_spdmSessions_25 : ∃ (s : State) (pf : Nat) (session op : Nat), s.spdmServes (.doe pf) = false :=
  ⟨sRun, 0, 0, 0, by decide⟩

theorem test_spdmSessions_26 : ∃ (s : State) (pf : Nat) (session : Nat), s.spdmServes (.doe pf) = false :=
  ⟨sRun, 0, 0, by decide⟩

theorem test_registerCommands_1 : ∃ (s : State) (pf off len : Nat) (d : WriteData), s.barReached pf = true ∧ d.poison = false :=
  ⟨sBar none, 0, 0, 4, { value := 1 }, by decide⟩

theorem test_registerCommands_2 : ∃ (s : State) (pf off len : Nat) (d : WriteData), s.barReached pf = true ∧ d.poison = true :=
  ⟨sBar none, 0, 0, 4, { value := 1, poison := true }, by decide⟩

theorem test_registerCommands_3 : ∃ (s : State) (pf off len : Nat) (d : WriteData), s.barReached pf = false :=
  ⟨sRun, 0, 0, 4, { value := 1 }, by decide⟩

theorem test_registerCommands_4 : ∃ (s : State), s.mode ≠ .off ∧ s.mode ≠ .holdUp :=
  ⟨sRun, by decide⟩

theorem test_registerCommands_5 : ∃ (s : State) (pf : Nat) (env : BootEnv), s.barReached pf = true ∧ ((s.wakeEvent 6).mgmt.lock.isSome && (s.wakeEvent 6).mgmt.lock = holderOf (.host pf 0 0)) = true :=
  ⟨sBar (some .pf0), 0, {}, by decide⟩

theorem test_registerCommands_6 : ∃ (s : State) (pf : Nat) (env : BootEnv), s.barReached pf = true ∧ ((s.wakeEvent 6).mgmt.lock.isSome && (s.wakeEvent 6).mgmt.lock = holderOf (.host pf 0 0)) = false :=
  ⟨sBar none, 0, {}, by decide⟩

theorem test_registerCommands_7 : ∃ (s : State) (pf : Nat) (env : BootEnv), s.barReached pf = false :=
  ⟨sRun, 0, {}, by decide⟩

theorem test_stepRunsTheFrontCommand_1 : ∃ (s : State), s.pending = [] :=
  ⟨{}, by decide⟩

theorem test_registerFields_1 : ∃ (s : State) (f : Fld) (v : Nat), f.lo + f.w ≤ 32 :=
  ⟨{}, F.STK_AGE_CEIL, 1, by decide⟩

theorem test_registerFields_2 : ∃ (s : State) (f g : Fld) (v : Nat), f.lo + f.w ≤ 32 ∧ g.key = f.key ∧ (f.lo + f.w ≤ g.lo ∨ g.lo + g.w ≤ f.lo) :=
  ⟨{}, F.STK_AGE_CEIL, F.STK_AGE_STEP, 1, by decide⟩

theorem test_registerFields_3 : ∃ (s : State) (f : Fld) (v k : Nat), k ≠ f.key :=
  ⟨{}, F.STK_AGE_CEIL, 1, 0, by decide⟩

theorem test_hostRegisterWrites_1 : ∃ (s : State) (v : Nat), s.flag F.DEV_SEAL_SEAL = false :=
  ⟨{}, 5, by decide⟩

theorem test_hostRegisterWrites_2 : ∃ (s : State) (v : Nat), s.flag F.DEV_SEAL_SEAL = true ∧ (v % 2 ^ 32 % 2 ^ 16 != s.fld F.STK_AGE_STEP || v % 2 ^ 32 / 2 ^ 16 % 2 ^ 3 != s.fld F.STK_AGE_CEIL) = true :=
  ⟨({} : State).setFld F.DEV_SEAL_SEAL 1, 5, by decide⟩

theorem test_hostRegisterWrites_3 : ∃ (s : State) (v : Nat), s.flag F.DEV_SEAL_SEAL = true ∧ (v % 2 ^ 32 % 2 ^ 16 != s.fld F.STK_AGE_STEP || v % 2 ^ 32 / 2 ^ 16 % 2 ^ 3 != s.fld F.STK_AGE_CEIL) = false :=
  ⟨({} : State).setFld F.DEV_SEAL_SEAL 1, 0x207D0, by decide⟩

theorem test_hostRegisterWrites_4 : ∃ (s : State) (pf off v : Nat), off % 8 = 0 ∧ off < 0x3FFF8 :=
  ⟨{}, 0, 8, 0, by decide⟩

theorem test_hostRegisterWrites_5 : ∃ (s : State) (pf off len v : Nat), off + len < 0x40000 ∧ (len ≠ 8 ∨ off % 8 ≠ 0) ∧ 4 < off % 4 + len :=
  ⟨{}, 0, 2, 4, 0, by decide⟩

theorem test_reservedOffsets_1 : ∃ (s : State) (off be v : Nat), regDesc off = none ∧ (off < 0x40000 ∨ 0x80000 ≤ off) :=
  ⟨{}, 0x0FF0, 15, 7, by decide⟩

theorem test_reservedOffsets_2 : ∃ (off : Nat), ((0xE000 ≤ off ∧ off ≤ 0xFFFF) ∨ (0x80000 ≤ off ∧ off ≤ 0xFFFFF)) :=
  ⟨0xE000, by decide⟩

theorem test_reservedOffsets_3 : ∃ (s : State) (pf off len v : Nat), s.barReached pf = true ∧ 1 ≤ len ∧ off % 4 + len ≤ 4 ∧ regDesc (off / 4 * 4) = none ∧ (off + 4 < 0x40000 ∨ 0x80000 ≤ off) :=
  ⟨sBar none, 0, 0x0FF0, 4, 7, by decide⟩

theorem test_scriptoriumWindow_1 : ∃ (s : State) (off n v a : Nat), s.flag F.DEV_SEAL_SEAL = false ∧ 0x40000 ≤ off :=
  ⟨{}, 0x40000, 4, 7, 0, by decide⟩

theorem test_scriptoriumWindow_2 : ∃ (s : State) (off n v : Nat), Memory.wf s.nib.window = true :=
  ⟨{}, 0x40000, 4, 7, by decide⟩

theorem test_scriptoriumWindow_3 : ∃ (s : State) (off n v : Nat), s.flag F.DEV_SEAL_SEAL = true :=
  ⟨({} : State).setFld F.DEV_SEAL_SEAL 1, 0x40000, 4, 7, by decide⟩

theorem test_eventPosting_1 : ∃ (s : State) (f : Fld) (unit src : Nat), sourceOf f.key f.lo = some src ∧ src < 512 ∧ (s.mode = .run ∨ s.mode = .degraded ∨ s.mode = .trial ∨ s.mode = .safe) ∧ s.flag f = false :=
  ⟨sRun, F.TINE_EVT_STATUS_DRILL, 0, 232, by decide⟩

theorem test_eventPosting_2 : ∃ (s : State) (f : Fld) (unit src : Nat) (e : LogEntry), sourceOf f.key f.lo = some src ∧ src < 512 ∧ (s.mode = .run ∨ s.mode = .degraded ∨ s.mode = .trial ∨ s.mode = .safe) ∧ s.flag f = true ∧ s.evu.log.find? (fun e => e.source == src) = some e ∧ e.cls = (if classOf f = 0 then 0xFF else classOf f) :=
  ⟨sPosted, F.TINE_EVT_STATUS_DRILL, 0, 232, eLog, by decide⟩

theorem test_eventPosting_3 : ∃ (s : State) (f : Fld) (unit src : Nat), sourceOf f.key f.lo = some src ∧ src < 512 ∧ (s.mode = .run ∨ s.mode = .degraded ∨ s.mode = .trial ∨ s.mode = .safe) ∧ s.flag f = true ∧ s.evu.log.find? (fun e => e.source == src) = none :=
  ⟨sRun.setFld F.TINE_EVT_STATUS_DRILL 1, F.TINE_EVT_STATUS_DRILL, 0, 232, by decide⟩

theorem test_eventPosting_4 : ∃ (s : State) (f : Fld) (unit src : Nat) (e : LogEntry), sourceOf f.key f.lo = some src ∧ src < 512 ∧ (s.mode = .run ∨ s.mode = .degraded ∨ s.mode = .trial ∨ s.mode = .safe) ∧ s.flag f = true ∧ s.evu.log.find? (fun e => e.source == src) = some e ∧ e.cls ≠ (if classOf f = 0 then 0xFF else classOf f) :=
  ⟨sPosted2, F.TINE_EVT_STATUS_DRILL, 0, 232, eLog2, by decide⟩

theorem test_eventPosting_5 : ∃ (s : State) (f : Fld) (unit src : Nat), s.mode = .off ∧ sourceOf f.key f.lo = some src ∧ (((src / 32 = 9 ∨ src / 32 = 10) → s.sourceSet f src = true)) :=
  ⟨{ mode := .off }, F.TINE_EVT_STATUS_DRILL, 0, 232, by decide⟩

theorem test_eventPosting_6 : ∃ (s : State) (f : Fld) (unit src : Nat), s.mode = .off ∧ sourceOf f.key f.lo = some src ∧ (src / 32 = 9 ∨ src / 32 = 10) ∧ s.sourceSet f src = false :=
  ⟨{ mode := .off }, F.PWR_EVT_STATUS_THERM_HOLD, 0, (sourceOf F.PWR_EVT_STATUS_THERM_HOLD.key F.PWR_EVT_STATUS_THERM_HOLD.lo).getD 0, by decide⟩

theorem test_eventPosting_7 : ∃ (s : State) (f : Fld) (unit src : Nat), s.mode = .doze ∧ sourceOf f.key f.lo = some src ∧ src / 32 ≠ 9 ∧ src / 32 ≠ 10 ∧ src ≠ 416 ∧ src ≠ 417 :=
  ⟨{ mode := .doze }, F.TINE_EVT_STATUS_DRILL, 0, 232, by decide⟩

theorem test_eventPosting_8 : ∃ (s : State) (src cls unit detail : Nat), s.inv = true ∧ (s.evu.log.length < 1024 ∨ s.evu.wasRead = true) :=
  ⟨{}, 0, 0, 0, 0, by decide⟩

theorem test_eventPosting_9 : ∃ (s : State) (src cls unit detail : Nat), s.evu.log.length = 1024 ∧ s.evu.wasRead = false :=
  ⟨{ evu := { log := List.replicate 1024 eLog } }, 0, 0, 0, 0, by decide +kernel⟩

theorem test_strokeAgeing_1 : ∃ (s : State) (k : Stroke), k ∈ s.stk.strokes ∧ k.phase = .waiting ∧ 4 ≤ k.cls0 ∧ s.fld F.STK_AGE_CEIL < k.cls ∧ k.since + s.fld F.STK_AGE_STEP * usT ≤ s.now :=
  ⟨sAged, kAge 5, by decide⟩

theorem test_strokeAgeing_2 : ∃ (s t : State) (req : Nat) (k : Stroke), exec (.strokeAgePromote req) s = .next t ∧ k ∈ t.stk.strokes :=
  ⟨sAge 5, sAge 5, 1, kAge 5, by rfl, by decide⟩

theorem test_strokeAgeing_3 : ∃ (s : State) (req : Nat), s.stk.strokes.all (fun k => k.req != req || s.now < k.since + s.fld F.STK_AGE_STEP * usT) = true :=
  ⟨sAge 5, 1, by decide⟩

theorem test_mergeGap_1 : ∃ (s : State) (stream : Nat), s.tine.held.any (fun h => h.stream == stream && h.at_ + 128 * nsT ≤ s.now) = true :=
  ⟨{ sLate with tine := { sPair.tine with held := [{ stream := 0, osn := 3, at_ := 0 }] } }, 0, by decide⟩

theorem test_mergeGap_2 : ∃ (s : State) (stream : Nat), s.tine.held.any (fun h => h.stream == stream && h.at_ + 128 * nsT ≤ s.now) = false :=
  ⟨sPair, 0, by decide⟩

theorem test_invalidDoorbells_1 : ∃ (s : State) (ctrl qid value : Nat) (q : Sq), s.mode ≠ .off ∧ s.mode ≠ .holdUp ∧ s.qe.ctrls.any (fun c => c.id == ctrl) = true ∧ qid < doorbells ctrl ∧ (s.wakeEvent 6).sq ctrl qid = some q ∧ q.size ≤ value :=
  ⟨sQueues, 0, 0, 8, { ctrl := 0, qid := 0, size := 8 }, by decide⟩

theorem test_invalidDoorbells_2 : ∃ (s : State) (ctrl qid value : Nat) (q : Cq), s.mode ≠ .off ∧ s.mode ≠ .holdUp ∧ s.qe.ctrls.any (fun c => c.id == ctrl) = true ∧ qid < doorbells ctrl ∧ (s.wakeEvent 6).cq ctrl qid = some q ∧ q.size ≤ value :=
  ⟨sQueues, 0, 0, 8, { ctrl := 0, qid := 0, size := 8 }, by decide⟩

theorem test_invalidDoorbells_3 : ∃ (s : State) (ctrl qid value : Nat) (heads : List (Nat × Nat)) (k : Ctrl) (q : Sq), s.ctrl ctrl = some k ∧ s.sq ctrl qid = some q ∧ k.shadowDb = true ∧ q.active = true ∧ s.fetches = true ∧ s.hp.d3hot.contains ctrl = false ∧ q.size ≤ value :=
  ⟨{ sQueues with qe := { ctrls := [{ id := 0, shadowDb := true }], sqs := [{ ctrl := 0, qid := 1, size := 8, active := true }], cqs := [{ ctrl := 0, qid := 1, size := 8 }] } }, 0, 1, 8, [], { id := 0, shadowDb := true }, { ctrl := 0, qid := 1, size := 8, active := true }, by decide⟩

theorem test_invalidDoorbells_4 : ∃ (s : State) (ctrl qid value : Nat) (q : Cq), s.qe.cqs.find? (fun k => k.ctrl == ctrl && k.qid == qid) = some q ∧ q.size ≤ value :=
  ⟨{ sQueues with qe := { ctrls := [{ id := 0, shadowDb := true }], sqs := [{ ctrl := 0, qid := 1, size := 8, active := true }], cqs := [{ ctrl := 0, qid := 1, size := 8 }] } }, 0, 1, 8, { ctrl := 0, qid := 1, size := 8 }, by decide⟩

theorem test_everyStepKeepsTheInvariant_1 : ∃ (s t : State), s.inv = true ∧ step s = .next t :=
  ⟨State.reset, State.reset, by decide, rfl⟩

theorem test_stepTakesOnlyTheFront_1 : ∃ (s t : State), s.inv = true ∧ step s = .next t :=
  ⟨State.reset, State.reset, by decide, rfl⟩

theorem test_bootSeqNeverGoesBack_1 : ∃ (s t : State), s.inv = true ∧ step s = .next t :=
  ⟨State.reset, State.reset, by decide, rfl⟩

theorem test_inkTimes_1 : ∃ (s : State) (c k : Cmd) (bs : Nat), k ∈ (s.stampCmd c bs).qe.cmds ∧ k.ref = c.ref :=
  ⟨sWaits, cFlush, { cFlush with ink := some 1, wet := true }, 1, by decide⟩

theorem test_inkTimes_2 : ∃ (fuel : Nat) (s : State) (k : Cmd), k ∈ (s.stampReady fuel).qe.cmds :=
  ⟨1, sWaits, cFlush, by decide⟩

end Sys2Proof.Tests
end

section
/-! The shared operations of a controller's queues, one equation per outcome, and the statement about controllers and
their queues (R5, R147, R152 to R154, R161, R201, R202, R260). -/

namespace Sys2Proof.Machine

/-! ### Enabling, resetting and shutting down a controller -/

section Controller

variable {s : State} {c : Nat} {k : Ctrl}

/-- The guard of enabling and of shutting down: in a mode that takes register writes only its own condition `b` is left. -/
theorem ccGuard_eq (b : Bool) (hoff : s.mode ≠ .off) (hhold : s.mode ≠ .holdUp) :
    (b || s.mode = .off || s.mode = .holdUp) = b := by
  rw [decide_eq_false hoff, decide_eq_false hhold, Bool.or_false, Bool.or_false]

theorem shutdown_of_ready (shn : Nat) (hk : s.ctrl c = some k) (hen : k.en = true) (hshst : k.shst = 0)
    (hoff : s.mode ≠ .off) (hhold : s.mode ≠ .holdUp) :
    s.shutdown c shn =
      let t := (s.wakeEvent 6).updCtrl c (fun k => { k with shst := 1, shn := shn })
      (if shn = 1 && s.wpRuns then ((t.map.wps.map (fun w => w.ix)).foldl State.padWp t).pump else t).shutStep := by
  have hgo : (!k.en || k.shst != 0) = false := by rw [hen, hshst]; rfl
  simp only [State.shutdown, hk, ccGuard_eq _ hoff hhold, hgo, Bool.false_eq_true, if_false]

theorem execControllerReset_of_enabled (hk : s.ctrl c = some k) (hen : k.en = true)
    (hoff : s.mode ≠ .off) (hhold : s.mode ≠ .holdUp) :
    execControllerReset c s = .next ((s.wakeEvent 6).endCtrls [c]) := by
  have hgo : (k.en && s.mode != .off && s.mode != .holdUp) = true := by
    rw [hen, bne_iff_ne.mpr hoff, bne_iff_ne.mpr hhold]; rfl
  simp only [execControllerReset, hk, hgo, if_true]

/-- A controller that is not enabled, in a mode that takes register writes, takes over `CC`; `ok` is the check of AQA's sizes. -/
theorem execControllerEnable_of_disabled {asqs acqs : Nat} {cc : CcWrite} {ok : Bool} (hk : s.ctrl c = some k)
    (hen : k.en = false) (hoff : s.mode ≠ .off) (hhold : s.mode ≠ .holdUp)
    (hok : (1 ≤ asqs && asqs < 4096 && 1 ≤ acqs && acqs < 4096) = ok) :
    execControllerEnable c asqs acqs cc s =
      .next (let t := (s.wakeEvent 6).updCtrl c (fun _ =>
          { id := c, en := true, rdy := ok && s.mode != .boot, ams := if cc.ams = 1 then 1 else 0, iosqes := cc.iosqes,
            iocqes := cc.iocqes, asqs := asqs, acqs := acqs, asq := cc.asq, acq := cc.acq })
        (if ok then ({ t with qe := { t.qe with
          sqs := t.qe.sqs ++ [({ ctrl := c, qid := 0, size := asqs + 1, base := some cc.asq } : Sq)]
          cqs := t.qe.cqs ++ [({ ctrl := c, qid := 0, size := acqs + 1, ien := true } : Cq)] } } : State) else t).psEval) := by
  subst hok
  simp only [execControllerEnable, hk, ccGuard_eq _ hoff hhold, hen, Bool.false_eq_true, if_false]

end Controller

/-! ### Creating and deleting I/O queues: the checks in their order (R153, R154) -/

section Queues

variable {s : State} {ref : Ref} {qid qsize : Nat}

/-- The identifier of a new submission queue is refused: 0, in use, beyond the controller's grant, or the pool is empty. -/
def State.sqIdRefused (s : State) (ref : Ref) (qid : Nat) : Bool :=
  qidRefused qid ((s.ctrl (ctrlIx ref)).getD { id := ctrlIx ref }).grantSq
    ((s.qe.sqs.filter (fun q => q.ctrl == ctrlIx ref)).map (fun q => q.qid)) (s.qe.sqs.map (fun q => q.qid))

/-- The size of a new submission queue is refused: outside 2 to 65,536, or CC's entry size is not 64 bytes. -/
def State.sqSizeRefused (s : State) (ref : Ref) (qsize : Nat) : Bool :=
  qsize = 0 || 65536 ≤ qsize || ((s.ctrl (ctrlIx ref)).getD { id := ctrlIx ref }).iosqes != 6

/-- The identifier of a new completion queue is refused. -/
def State.cqIdRefused (s : State) (ref : Ref) (qid : Nat) : Bool :=
  qidRefused qid ((s.ctrl (ctrlIx ref)).getD { id := ctrlIx ref }).grantCq
    ((s.qe.cqs.filter (fun q => q.ctrl == ctrlIx ref)).map (fun q => q.qid)) (s.qe.cqs.map (fun q => q.qid))

/-- The size of a new completion queue is refused: outside 2 to 65,536, or CC's entry size is not 16 bytes. -/
def State.cqSizeRefused (s : State) (ref : Ref) (qsize : Nat) : Bool :=
  qsize = 0 || 65536 ≤ qsize || ((s.ctrl (ctrlIx ref)).getD { id := ctrlIx ref }).iocqes != 4

/-- The command's controller has no I/O submission queue of this identifier. -/
def State.noIoSq (s : State) (ref : Ref) (qid : Nat) : Bool :=
  qid = 0 || !s.qe.sqs.any (fun q => q.ctrl == ctrlIx ref && q.qid == qid)

/-- The command's controller has no I/O completion queue of this identifier. -/
def State.noIoCq (s : State) (ref : Ref) (qid : Nat) : Bool :=
  qid = 0 || !s.qe.cqs.any (fun q => q.ctrl == ctrlIx ref && q.qid == qid)

/-- An I/O submission queue of the command's controller completes into this queue. -/
def State.cqInUse (s : State) (ref : Ref) (qid : Nat) : Bool :=
  s.qe.sqs.any (fun q => q.ctrl == ctrlIx ref && q.cqid == qid && q.qid != 0)

theorem exec_createIoSq_of_accepts {cqid prio : Nat} {pc : Bool} (hacc : s.accepts ref = true) :
    exec (.createIoSq ref qid qsize cqid prio pc) s = .next ((s.latch ref).createSq ref qid qsize cqid prio pc) := by
  rw [exec_createIoSq, execCreateIoSq, begin_accepted _ hacc]

theorem exec_createIoCq_of_accepts {vector : Nat} {ien pc : Bool} (hacc : s.accepts ref = true) :
    exec (.createIoCq ref qid qsize vector ien pc) s = .next ((s.latch ref).createCq ref qid qsize vector ien pc) := by
  rw [exec_createIoCq, execCreateIoCq, begin_accepted _ hacc]

theorem exec_deleteIoSq_of_accepts (hacc : s.accepts ref = true) :
    exec (.deleteIoSq ref qid) s = .next ((s.latch ref).deleteSq ref qid) := by
  rw [exec_deleteIoSq, execDeleteIoSq, begin_accepted _ hacc]

theorem exec_deleteIoCq_of_accepts (hacc : s.accepts ref = true) :
    exec (.deleteIoCq ref qid) s = .next ((s.latch ref).deleteCq ref qid) := by
  rw [exec_deleteIoCq, execDeleteIoCq, begin_accepted _ hacc]

theorem createSq_discontiguous {cqid prio : Nat} :
    s.createSq ref qid qsize cqid prio false = s.complete ref .invalidField 0 := rfl

/-- The checks of a contiguous submission queue, by name. -/
theorem createSq_eq_checks {cqid prio : Nat} :
    s.createSq ref qid qsize cqid prio true =
      if s.sqIdRefused ref qid then s.complete ref .invalidQueueId 0
      else if s.sqSizeRefused ref qsize then s.complete ref .invalidQueueSize 0
      else if s.noIoCq ref cqid then s.complete ref .completionQueueInvalid 0
      else ({ s with qe := { s.qe with sqs := s.qe.sqs ++ [({ ctrl := ctrlIx ref, qid := qid, size := qsize + 1, prio := prio % 4, cqid := cqid, base := ((s.hp.ptrs.lookup ref).bind (fun e => e.2.head?)).map Prod.fst } : Sq)] } }).complete ref .success 0 :=
  rfl

theorem createCq_discontiguous {vector : Nat} {ien : Bool} :
    s.createCq ref qid qsize vector ien false = s.complete ref .invalidField 0 := rfl

/-- The checks of a contiguous completion queue, by name. -/
theorem createCq_eq_checks {vector : Nat} {ien : Bool} :
    s.createCq ref qid qsize vector ien true =
      if s.cqIdRefused ref qid then s.complete ref .invalidQueueId 0
      else if s.cqSizeRefused ref qsize then s.complete ref .invalidQueueSize 0
      else if ien && s.vectors (ctrlIx ref) ≤ vector then s.complete ref .invalidVector 0
      else ({ s with qe := { s.qe with cqs := s.qe.cqs ++ [({ ctrl := ctrlIx ref, qid := qid, size := qsize + 1, vector := vector, ien := ien } : Cq)] } }).complete ref .success 0 :=
  rfl

/-- The submission queue leaves with its entries, its holds and its tags, after its commands have been aborted. -/
theorem deleteSq_eq_checks :
    s.deleteSq ref qid =
      if s.noIoSq ref qid then s.complete ref .invalidQueueId 0
      else
        let t := (s.qe.cmds.filter (fun k => onQueue (ctrlIx ref) qid k.ref)).foldl State.abortSqCmd s
        ({ t with qe := { t.qe with
          sqs := t.qe.sqs.filter (fun q => !(q.ctrl == ctrlIx ref && q.qid == qid))
          fetched := t.qe.fetched.filter (fun e => !(e.ctrl == ctrlIx ref && e.sq == qid))
          full := t.qe.full.filter (fun h => !onQueue (ctrlIx ref) qid h.ref)
          tags := t.qe.tags.filter (fun r => !onQueue (ctrlIx ref) qid r) } }).complete ref .success 0 :=
  rfl

theorem deleteCq_eq_checks :
    s.deleteCq ref qid =
      if s.noIoCq ref qid then s.complete ref .invalidQueueId 0
      else if s.cqInUse ref qid then s.complete ref .invalidQueueDeletion 0
      else ({ s with qe := { s.qe with cqs := s.qe.cqs.filter (fun q => !(q.ctrl == ctrlIx ref && q.qid == qid)) } }).complete ref .success 0 :=
  rfl

end Queues

/-- Settles O18: enabling, reset and shutdown by the equations of their operations; creating and deleting a queue by the
first of the ordered checks that refuses, or by none. -/
theorem controllersAndQueues : Obligations.ControllersAndQueues := by
  unfold Obligations.ControllersAndQueues
  refine ⟨?enable, ?enableBadSize, ?reset, ?normal, ?abrupt,
    ?sqContiguous, ?sqId, ?sqSize, ?sqCq, ?sqAdded, ?cqContiguous, ?cqId, ?cqSize, ?cqVector, ?cqAdded,
    ?delSqUnknown, ?delSq, ?delCqUnknown, ?delCqInUse, ?delCq⟩
  case enable =>
    intro s c asqs acqs cc k hk hen hoff hhold hok
    exact execControllerEnable_of_disabled hk hen hoff hhold hok
  case enableBadSize =>
    intro s c asqs acqs cc k hk hen hoff hhold hok
    exact execControllerEnable_of_disabled hk hen hoff hhold hok
  case reset =>
    intro s c k hk hen hoff hhold
    exact execControllerReset_of_enabled hk hen hoff hhold
  case normal =>
    intro s c k hk hen hshst hoff hhold
    exact congrArg _ (shutdown_of_ready 1 hk hen hshst hoff hhold)
  case abrupt =>
    intro s c k hk hen hshst hoff hhold
    exact congrArg _ (shutdown_of_ready 2 hk hen hshst hoff hhold)
  case sqContiguous =>
    rintro s ref qid qsize cqid prio _ hacc rfl
    rw [exec_createIoSq_of_accepts hacc, createSq_discontiguous]
  case sqId =>
    intro s ref qid qsize cqid prio hacc (hid : (s.latch ref).sqIdRefused ref qid = true)
    rw [exec_createIoSq_of_accepts hacc, createSq_eq_checks, if_pos hid]
  case sqSize =>
    intro s ref qid qsize cqid prio hacc
      (hid : (s.latch ref).sqIdRefused ref qid = false)
      (hsize : (s.latch ref).sqSizeRefused ref qsize = true)
    rw [exec_createIoSq_of_accepts hacc, createSq_eq_checks,
      if_neg (ne_true_of_eq_false hid), if_pos hsize]
  case sqCq =>
    intro s ref qid qsize cqid prio hacc
      (hid : (s.latch ref).sqIdRefused ref qid = false)
      (hsize : (s.latch ref).sqSizeRefused ref qsize = false)
      (hcq : (s.latch ref).noIoCq ref cqid = true)
    rw [exec_createIoSq_of_accepts hacc, createSq_eq_checks,
      if_neg (ne_true_of_eq_false hid), if_neg (ne_true_of_eq_false hsize), if_pos hcq]
  case sqAdded =>
    intro s ref qid qsize cqid prio hacc
      (hid : (s.latch ref).sqIdRefused ref qid = false)
      (hsize : (s.latch ref).sqSizeRefused ref qsize = false)
      (hcq : (s.latch ref).noIoCq ref cqid = false)
    rw [exec_createIoSq_of_accepts hacc, createSq_eq_checks,
      if_neg (ne_true_of_eq_false hid), if_neg (ne_true_of_eq_false hsize), if_neg (ne_true_of_eq_false hcq)]
  case cqContiguous =>
    rintro s ref qid qsize vector ien _ hacc rfl
    rw [exec_createIoCq_of_accepts hacc, createCq_discontiguous]
  case cqId =>
    intro s ref qid qsize vector ien hacc (hid : (s.latch ref).cqIdRefused ref qid = true)
    rw [exec_createIoCq_of_accepts hacc, createCq_eq_checks, if_pos hid]
  case cqSize =>
    intro s ref qid qsize vector ien hacc
      (hid : (s.latch ref).cqIdRefused ref qid = false)
      (hsize : (s.latch ref).cqSizeRefused ref qsize = true)
    rw [exec_createIoCq_of_accepts hacc, createCq_eq_checks,
      if_neg (ne_true_of_eq_false hid), if_pos hsize]
  case cqVector =>
    intro s ref qid qsize vector ien hacc
      (hid : (s.latch ref).cqIdRefused ref qid = false)
      (hsize : (s.latch ref).cqSizeRefused ref qsize = false) hvec
    rw [exec_createIoCq_of_accepts hacc, createCq_eq_checks,
      if_neg (ne_true_of_eq_false hid), if_neg (ne_true_of_eq_false hsize), if_pos hvec]
  case cqAdded =>
    intro s ref qid qsize vector ien hacc
      (hid : (s.latch ref).cqIdRefused ref qid = false)
      (hsize : (s.latch ref).cqSizeRefused ref qsize = false) hvec
    rw [exec_createIoCq_of_accepts hacc, createCq_eq_checks,
      if_neg (ne_true_of_eq_false hid), if_neg (ne_true_of_eq_false hsize), if_neg (ne_true_of_eq_false hvec)]
  case delSqUnknown =>
    intro s ref qid hacc (hno : (s.latch ref).noIoSq ref qid = true)
    rw [exec_deleteIoSq_of_accepts hacc, deleteSq_eq_checks, if_pos hno]
  case delSq =>
    intro s ref qid hacc (hno : (s.latch ref).noIoSq ref qid = false)
    rw [exec_deleteIoSq_of_accepts hacc, deleteSq_eq_checks, if_neg (ne_true_of_eq_false hno)]
  case delCqUnknown =>
    intro s ref qid hacc (hno : (s.latch ref).noIoCq ref qid = true)
    rw [exec_deleteIoCq_of_accepts hacc, deleteCq_eq_checks, if_pos hno]
  case delCqInUse =>
    intro s ref qid hacc
      (hno : (s.latch ref).noIoCq ref qid = false)
      (huse : (s.latch ref).cqInUse ref qid = true)
    rw [exec_deleteIoCq_of_accepts hacc, deleteCq_eq_checks,
      if_neg (ne_true_of_eq_false hno), if_pos huse]
  case delCq =>
    intro s ref qid hacc
      (hno : (s.latch ref).noIoCq ref qid = false)
      (huse : (s.latch ref).cqInUse ref qid = false)
    rw [exec_deleteIoCq_of_accepts hacc, deleteCq_eq_checks,
      if_neg (ne_true_of_eq_false hno), if_neg (ne_true_of_eq_false huse)]

end Sys2Proof.Machine
end

section
/-! The commands of checkpoints and of cuts in time, and the end of BOOT: what each does when its event is due
(R5, R289, R292, R309, R312, R530). -/

namespace Sys2Proof.Machine

section Due

variable {s : State}

/-- A checkpoint that is due starts, or is noted behind the one that runs. -/
theorem execCheckpointStart_of_due (hmode : (s.mode == .run || s.mode == .degraded || s.mode == .trial) = true)
    (hdue : (s.fld F.MAP_CKPT_CFG_GIB * 2 ^ 30 ≤ s.ckpt.stamped ||
      s.ckpt.lastStart + s.fld F.MAP_CKPT_CFG_SECS * secT ≤ s.now || 786432 ≤ s.deltaBytes) = true) :
    execCheckpointStart s =
      .next (if s.ckpt.running.isSome then { s with ckpt := { s.ckpt with again := true } } else s.startCheckpoint) := by
  simp only [execCheckpointStart, hmode, hdue, Bool.not_true, Bool.or_self, Bool.false_eq_true, if_false, next_ite]

theorem execCheckpointSlow_of_late {c : Image} (hrun : s.ckpt.running = some c) (hslow : s.ckpt.slow = false)
    (hlate : s.ckpt.lastStart + 10 * secT ≤ s.now) :
    execCheckpointSlow s =
      .next (({ s with ckpt := { s.ckpt with slow := true } }).post F.MAP_CP_EVT_STATUS_CKPT_SLOW noUnit) := by
  have hgo : (s.ckpt.slow || s.now < s.ckpt.lastStart + 10 * secT) = false := by
    rw [hslow, decide_eq_false (Nat.not_lt.mpr hlate)]; rfl
  simp only [execCheckpointSlow, hrun, hgo, Bool.false_eq_true, if_false]

theorem execCutHold_of_reached {slot : Nat} {c : CutRec}
    (hcut : s.ckpt.cuts.find? (fun c => c.slot == slot && c.state == 1) = some c)
    (hline : ((s.mode == .run || s.mode == .degraded || s.mode == .trial) && c.time * 256 ≤ s.nowAt islQueue) = true) :
    execCutHold slot s = .next (s.holdCut c) := by
  simp only [execCutHold, hcut, hline, if_true]

theorem execCutEvict_of_due {t : Nat} {c : CutRec} (hcrit : s.ckpt.critAt = some t)
    (hdue : t + s.fld F.MAP_CUT_CFG_EVICT_S * secT ≤ s.now) (hpins : s.pinsData = true)
    (hevict : s.flag F.MAP_CUT_CFG_EVICT = true) (hlevel : s.map.level = 3) (hlow : s.lowestHeld = some c) :
    execCutEvict s =
      .next ((({ s with ckpt := { s.ckpt with critAt := some s.now } } : State).releaseCut c.slot).post F.MAP_CP_EVT_STATUS_CUT_EVICT c.slot) := by
  have hlevel' : (s.map.level != 3) = false := by rw [hlevel]; rfl
  simp only [execCutEvict, hcrit, decide_eq_true hdue, hpins, hevict, hlevel', hlow, Bool.not_true, Bool.or_self,
    Bool.false_eq_true, if_false]

theorem execCstsRdySet_of_notBooted (env : BootEnv) (hmode : s.mode = .boot) (hbooted : s.pwr.booted = false) :
    execCstsRdySet env s = .next (s.enterBoot 0 env) := by
  have hboot : (s.mode != .boot) = false := by rw [hmode]; rfl
  simp only [execCstsRdySet, hboot, hbooted, Bool.false_eq_true, if_false, Bool.not_false, if_true]

theorem execCstsRdySet_of_bootDone (env : BootEnv) (hmode : s.mode = .boot) (hbooted : s.pwr.booted = true)
    (hdone : s.bootDone = true) : execCstsRdySet env s = .next s.bootEnds := by
  have hboot : (s.mode != .boot) = false := by rw [hmode]; rfl
  simp only [execCstsRdySet, hboot, hbooted, hdone, Bool.not_true, Bool.false_eq_true, if_false]

end Due

/-- Settles O33: each command's equation in the state in which its event is due. -/
theorem checkpointsAndCuts : Obligations.CheckpointsAndCuts := by
  unfold Obligations.CheckpointsAndCuts
  refine ⟨?follows, ?starts, ?slow, ?hold, ?evict, ?boots, ?ends⟩
  case follows =>
    intro s hmode hdue hrun
    exact (execCheckpointStart_of_due hmode hdue).trans (congrArg _ (if_pos hrun))
  case starts =>
    intro s hmode hdue hrun
    exact (execCheckpointStart_of_due hmode hdue).trans (congrArg _ (if_neg (ne_true_of_eq_false hrun)))
  case slow =>
    intro s c hrun hslow hlate
    exact execCheckpointSlow_of_late hrun hslow hlate
  case hold =>
    intro s slot c hcut hline
    exact execCutHold_of_reached hcut hline
  case evict =>
    intro s t c hcrit hdue hpins hevict hlevel hlow
    exact execCutEvict_of_due hcrit hdue hpins hevict hlevel hlow
  case boots =>
    intro s env hmode hbooted
    exact execCstsRdySet_of_notBooted env hmode hbooted
  case ends =>
    intro s env hmode hbooted hdone
    exact execCstsRdySet_of_bootDone env hmode hbooted hdone

end Sys2Proof.Machine
end

section
/-! The Ordering Point: what one stamp and one round of a pass do to the ink times, and the statement about ink times
(R22, R164, R166). -/

namespace Sys2Proof.Machine

section InkTimes

variable {s : State} {c k : Cmd} {bs fuel : Nat}

/-- What stands in an updated list was there before, or is an update of what the condition holds of. -/
theorem mem_updWhere {α : Type} {p : α → Bool} {f : α → α} {l : List α} {x : α} (h : x ∈ updWhere p f l) :
    (∃ y ∈ l, p y = true ∧ x = f y) ∨ (x ∈ l ∧ p x = false) := by
  obtain ⟨y, hy, rfl⟩ := List.mem_map.mp h
  cases hp : p y with
  | true => exact .inl ⟨y, hy, hp, if_pos rfl⟩
  | false => exact .inr ⟨hy, hp⟩

/-- The newest ink time after a stamp is the one just given: opening records and changing entries move none. -/
theorem stampCmd_lastInk (s : State) (c : Cmd) (bs : Nat) :
    (s.stampCmd c bs).map.lastInk = max (s.nowAt islQueue) (s.map.lastInk + 1) :=
  (stampFold_ink _ _ _ _ _ _ _ _).1

theorem lastInk_lt_stampCmd (s : State) (c : Cmd) (bs : Nat) : s.map.lastInk < (s.stampCmd c bs).map.lastInk := by
  rw [stampCmd_lastInk]
  omega

/-- A stamp gives the commands of its name the newest ink time and leaves the others as they were. -/
theorem mem_stampCmd (h : k ∈ (s.stampCmd c bs).qe.cmds) :
    (k.ref = c.ref ∧ k.ink = some (s.stampCmd c bs).map.lastInk) ∨ (k ∈ s.qe.cmds ∧ k.ref ≠ c.ref) := by
  rw [stampCmd_lastInk]
  unfold State.stampCmd at h
  dsimp only at h
  rw [(stampFold_ink _ _ _ _ _ _ _ _).2] at h
  obtain ⟨_, -, -, rfl⟩ | ⟨hk, hne⟩ := mem_updWhere h
  · exact .inl ⟨rfl, rfl⟩
  · exact .inr ⟨hk, by simpa using hne⟩

/-- One round of the pass: the fused compare of the write is formed, and the write is stamped. -/
def State.stampRound (s : State) (c : Cmd) (bs : Nat) : State := (s.formCompare c).stampCmd c bs

theorem stampReady_succ_cases (fuel : Nat) (s : State) :
    s.stampReady (fuel + 1) = s ∨ ∃ c bs, s.stampReady (fuel + 1) = (s.stampRound c bs).stampReady fuel := by
  rw [State.stampReady]
  split
  · exact .inl rfl
  · dsimp only
    split
    · exact .inr ⟨_, _, rfl⟩
    · exact .inl rfl

theorem lastInk_lt_stampRound (s : State) (c : Cmd) (bs : Nat) : s.map.lastInk < (s.stampRound c bs).map.lastInk :=
  (formCompare_ink s c).1 ▸ lastInk_lt_stampCmd (s.formCompare c) c bs

/-- After a round a command has the ink time that the round gave, or the one it had before under its name. -/
theorem mem_stampRound (h : k ∈ (s.stampRound c bs).qe.cmds) :
    (∃ k2 ∈ s.qe.cmds, k2.ref = k.ref ∧ k2.ink = k.ink) ∨ k.ink = some (s.stampRound c bs).map.lastInk := by
  obtain ⟨-, hink⟩ | ⟨hk, -⟩ := mem_stampCmd h
  · exact .inr hink
  · exact .inl ((formCompare_ink s c).2 k hk)

theorem lastInk_le_stampReady (fuel : Nat) (s : State) : s.map.lastInk ≤ (s.stampReady fuel).map.lastInk := by
  induction fuel generalizing s with
  | zero => exact Nat.le_refl _
  | succ fuel ih =>
    obtain hstop | ⟨c, bs, hround⟩ := stampReady_succ_cases fuel s
    · exact Nat.le_of_eq (congrArg (fun t => t.map.lastInk) hstop.symm)
    · rw [hround]
      exact Nat.le_trans (Nat.le_of_lt (lastInk_lt_stampRound s c bs)) (ih _)

/-- What a pass stamps lies above every ink time given before it; the rest keeps its ink time. -/
theorem mem_stampReady (h : k ∈ (s.stampReady fuel).qe.cmds) :
    (∃ k2 ∈ s.qe.cmds, k2.ref = k.ref ∧ k2.ink = k.ink) ∨
      ∃ i, k.ink = some i ∧ s.map.lastInk < i ∧ i ≤ (s.stampReady fuel).map.lastInk := by
  induction fuel generalizing s with
  | zero => exact .inl ⟨k, h, rfl, rfl⟩
  | succ fuel ih =>
    obtain hstop | ⟨c, bs, hround⟩ := stampReady_succ_cases fuel s
    · exact .inl ⟨k, hstop ▸ h, rfl, rfl⟩
    · rw [hround] at h ⊢
      have hlt := lastInk_lt_stampRound s c bs
      obtain ⟨k2, hk2, href, hink⟩ | ⟨i, hi, hlo, hhi⟩ := ih h
      · obtain ⟨k3, hk3, href3, hink3⟩ | hnew := mem_stampRound hk2
        · exact .inl ⟨k3, hk3, href3.trans href, hink3.trans hink⟩
        · exact .inr ⟨_, hink.symm.trans hnew, hlt, lastInk_le_stampReady fuel _⟩
      · exact .inr ⟨i, hi, Nat.lt_trans hlt hlo, hhi⟩

end InkTimes

/-- Settles O60: a stamp raises the newest ink time to the one it gives, and the rounds of a pass by induction. -/
theorem inkTimes : Obligations.InkTimes := by
  unfold Obligations.InkTimes
  refine ⟨stampCmd_lastInk, ?stamped, ?pass, lastInk_le_stampReady⟩
  case stamped =>
    intro s c k bs hk href
    obtain ⟨-, hink⟩ | ⟨-, hne⟩ := mem_stampCmd hk
    · rw [hink, stampCmd_lastInk]
    · exact absurd href hne
  case pass =>
    intro fuel s k hk
    exact mem_stampReady hk

end Sys2Proof.Machine
end

section
/-! Read and Compare (R31, R98, R166, R175 to R177): the checks of a command in their order, by name, and the statement about
both. -/

namespace Sys2Proof.Machine

section Reads

variable {s : State} {ref : Ref} {nsid slba nlb : Nat} {d : ReadDue} {n : Ns}

/-- A read with a deadline comes in SAFE. -/
def State.deadlineInSafe (s : State) (d : ReadDue) : Bool := d.us != 0 && s.mode = .safe

/-- A read comes with a deadline that its controller has not enabled. -/
def State.deadlineOff (s : State) (ref : Ref) (d : ReadDue) : Bool :=
  d.us != 0 && s.feat 0xC1 ((ctrlOf ref).getD 0) 0x200 % 2 = 0

/-- A read with a deadline is longer than MAXLEN. -/
def State.deadlineTooLong (s : State) (ref : Ref) (nlb : Nat) (n : Ns) (d : ReadDue) : Bool :=
  d.us != 0 && 8 * bitsOf (s.feat 0xC1 ((ctrlOf ref).getD 0) 0x200) 4 8 < nlb * n.blkSectors

/-- A read without a deadline passes the checks of deadlines. -/
theorem deadline_checks_of_none (h : d.us = 0) :
    s.deadlineInSafe d = false ∧ s.deadlineOff ref d = false ∧ s.deadlineTooLong ref nlb n d = false := by
  have hnone : (d.us != 0) = false := by rw [h]; rfl
  simp only [State.deadlineInSafe, State.deadlineOff, State.deadlineTooLong, hnone, Bool.false_and, and_self]

/-- A deadline that is turned away: 0x80 with its DW0, counted (R98). -/
def State.refuseDeadline (s : State) (ref : Ref) (dw0 : Nat) : State :=
  ({ s.latch ref with stk := { s.stk with nRefused := s.stk.nRefused + 1 } } : State).complete ref .deadlineNotAdmissible dw0

/-- A read or compare enters execution and asks for its cells. -/
def State.enterRead (s : State) (ref : Ref) (c : Cmd) : State :=
  (({ s with qe := { s.qe with cmds := s.qe.cmds ++ [c] } } : State).askReads (c.segs.length + 1) ref).settleCmds

/-- A Read at its latch, with its sources held. -/
def State.heldRead (s : State) (ref : Ref) (nsid slba nlb : Nat) (n : Ns) : State × Cmd :=
  (s.latch ref).readCmd n { ref := ref, kind := .read, nsid := nsid, slba := slba, n := nlb, latch := s.nowAt islQueue }

/-- A Read that its checks let through: without a deadline it is served, with one its admission decides. -/
def State.serveRead (s : State) (ref : Ref) (nsid slba nlb : Nat) (n : Ns) (d : ReadDue) : Res :=
  let p := s.heldRead ref nsid slba nlb n
  if d.us = 0 then .next (p.1.enterRead ref p.2)
  else
    match s.admitRead p.2 d.us d.lag with
    | .error dw0 => .next (s.refuseDeadline ref dw0)
    | .ok a => .next (({ p.1 with stk := a.stk } : State).enterRead ref
        { p.2 with deadline := some (p.2.latch / 256 + d.us * 1000) })

theorem exec_read_of_error {e : Status} (hacc : s.accepts ref = true) (herr : s.ioCheck ref nsid slba nlb .reads = .error e) :
    exec (.read ref nsid slba nlb d) s = .next ((s.latch ref).complete ref e 0) := by
  simp only [exec_read, execRead, hacc, herr, Bool.not_true, Bool.false_eq_true, if_false, State.refuse]

/-- The checks of a Read after those of every I/O command, in their order. -/
theorem exec_read_eq_checks (hacc : s.accepts ref = true) (hok : s.ioCheck ref nsid slba nlb .reads = .ok n) :
    exec (.read ref nsid slba nlb d) s =
      if n.mdtsBlocks < nlb then s.refuse ref .invalidField
      else if s.deadlineInSafe d then .next (s.refuseDeadline ref 0)
      else if s.deadlineOff ref d then s.refuse ref .invalidField
      else if s.deadlineTooLong ref nlb n d then .next (s.refuseDeadline ref 0)
      else s.serveRead ref nsid slba nlb n d := by
  simp only [exec_read, execRead, hacc, hok, Bool.not_true, Bool.false_eq_true, if_false, State.deadlineInSafe,
    State.deadlineOff, State.deadlineTooLong, State.refuseDeadline, State.enterRead, State.serveRead, State.heldRead]
  generalize (s.latch ref).readCmd n _ = p
  rfl

theorem exec_read_of_checks (hacc : s.accepts ref = true) (hok : s.ioCheck ref nsid slba nlb .reads = .ok n)
    (hlen : nlb ≤ n.mdtsBlocks) (hsafe : s.deadlineInSafe d = false) (hoff : s.deadlineOff ref d = false)
    (hlong : s.deadlineTooLong ref nlb n d = false) :
    exec (.read ref nsid slba nlb d) s = s.serveRead ref nsid slba nlb n d := by
  rw [exec_read_eq_checks hacc hok, if_neg (Nat.not_lt.mpr hlen), if_neg (ne_true_of_eq_false hsafe),
    if_neg (ne_true_of_eq_false hoff), if_neg (ne_true_of_eq_false hlong)]

theorem serveRead_of_no_deadline (h : d.us = 0) :
    s.serveRead ref nsid slba nlb n d =
      .next ((s.heldRead ref nsid slba nlb n).1.enterRead ref (s.heldRead ref nsid slba nlb n).2) :=
  if_pos h

theorem serveRead_of_refused {dw0 : Nat} (h : d.us ≠ 0)
    (hadm : s.admitRead (s.heldRead ref nsid slba nlb n).2 d.us d.lag = .error dw0) :
    s.serveRead ref nsid slba nlb n d = .next (s.refuseDeadline ref dw0) := by
  simp only [State.serveRead, if_neg h, hadm]

theorem serveRead_of_admitted {a : State} (h : d.us ≠ 0)
    (hadm : s.admitRead (s.heldRead ref nsid slba nlb n).2 d.us d.lag = .ok a) :
    s.serveRead ref nsid slba nlb n d =
      .next (({ (s.heldRead ref nsid slba nlb n).1 with stk := a.stk } : State).enterRead ref
        { (s.heldRead ref nsid slba nlb n).2 with
          deadline := some ((s.heldRead ref nsid slba nlb n).2.latch / 256 + d.us * 1000) }) := by
  simp only [State.serveRead, if_neg h, hadm]

end Reads

section Compares

variable {s : State} {ref : Ref} {nsid slba nlb : Nat} {same : Comparison} {n : Ns}

/-- A Compare at its latch, before it has looked for its sources; a fused one waits for its write's stamp (R166). -/
def State.latchedCompare (s : State) (ref : Ref) (nsid slba nlb : Nat) (equal fused : Bool) : Cmd :=
  { ref := ref, kind := .compare, nsid := nsid, slba := slba, n := nlb, latch := s.nowAt islQueue, same := equal, parked := fused }

theorem exec_compare_of_error {e : Status} (hacc : s.accepts ref = true)
    (herr : s.ioCheck ref nsid slba nlb .reads = .error e) :
    exec (.compare ref nsid slba nlb same) s = .next ((s.latch ref).complete ref e 0) := by
  simp only [exec_compare, execCompare, hacc, herr, Bool.not_true, Bool.false_eq_true, if_false, State.refuse]

theorem exec_compare_of_too_long (hacc : s.accepts ref = true) (hok : s.ioCheck ref nsid slba nlb .reads = .ok n)
    (hlen : n.mdtsBlocks < nlb) :
    exec (.compare ref nsid slba nlb same) s = .next ((s.latch ref).complete ref .invalidField 0) := by
  simp only [exec_compare, execCompare, hacc, hok, Bool.not_true, Bool.false_eq_true, if_false, if_pos hlen, State.refuse]

theorem exec_compare_of_fused (hacc : s.accepts ref = true) (hok : s.ioCheck ref nsid slba nlb .reads = .ok n)
    (hlen : nlb ≤ n.mdtsBlocks) (hfused : same.fused = true) :
    exec (.compare ref nsid slba nlb same) s =
      .next ((s.latch ref).enterRead ref (s.latchedCompare ref nsid slba nlb same.same true)) := by
  simp only [exec_compare, execCompare, hacc, hok, Bool.not_true, Bool.false_eq_true, if_false, if_neg (Nat.not_lt.mpr hlen), hfused,
    if_true]
  rfl

theorem exec_compare_of_unfused (hacc : s.accepts ref = true) (hok : s.ioCheck ref nsid slba nlb .reads = .ok n)
    (hlen : nlb ≤ n.mdtsBlocks) (hfused : same.fused = false) :
    exec (.compare ref nsid slba nlb same) s =
      .next (let p := (s.latch ref).readCmd n (s.latchedCompare ref nsid slba nlb same.same false)
        p.1.enterRead ref p.2) := by
  simp only [exec_compare, execCompare, hacc, hok, Bool.not_true, Bool.false_eq_true, if_false, if_neg (Nat.not_lt.mpr hlen), hfused,
    State.latchedCompare, State.enterRead]

end Compares

/-- Settles O28: the first of the ordered checks that refuses a read, or what it asks for when none does; a compare by its
being fused or not. -/
theorem readsAndCompares : Obligations.ReadsAndCompares := by
  unfold Obligations.ReadsAndCompares
  refine ⟨?refused, ?tooLong, ?inSafe, ?off, ?overMax, ?plain, ?notAdmitted, ?admitted,
    ?cmpRefused, ?cmpTooLong, ?cmpUnfused, ?cmpFused⟩
  case refused =>
    intro s ref nsid slba nlb d e hacc herr
    exact exec_read_of_error hacc herr
  case tooLong =>
    intro s ref nsid slba nlb d n hacc hok hlen
    rw [exec_read_eq_checks hacc hok, if_pos hlen, State.refuse]
  case inSafe =>
    intro s ref nsid slba nlb d n hacc hok hlen (hsafe : s.deadlineInSafe d = true)
    rw [exec_read_eq_checks hacc hok, if_neg (Nat.not_lt.mpr hlen), if_pos hsafe, State.refuseDeadline]
  case off =>
    intro s ref nsid slba nlb d n hacc hok hlen
      (hsafe : s.deadlineInSafe d = false) (hoff : s.deadlineOff ref d = true)
    rw [exec_read_eq_checks hacc hok, if_neg (Nat.not_lt.mpr hlen), if_neg (ne_true_of_eq_false hsafe), if_pos hoff, State.refuse]
  case overMax =>
    intro s ref nsid slba nlb d n hacc hok hlen
      (hsafe : s.deadlineInSafe d = false) (hoff : s.deadlineOff ref d = false)
      (hlong : s.deadlineTooLong ref nlb n d = true)
    rw [exec_read_eq_checks hacc hok, if_neg (Nat.not_lt.mpr hlen), if_neg (ne_true_of_eq_false hsafe),
      if_neg (ne_true_of_eq_false hoff), if_pos hlong, State.refuseDeadline]
  case plain =>
    intro s ref nsid slba nlb d n hacc hok hlen hnone
    obtain ⟨hsafe, hoff, hlong⟩ := deadline_checks_of_none (s := s) (ref := ref) (nlb := nlb) (n := n) hnone
    rw [exec_read_of_checks hacc hok hlen hsafe hoff hlong, serveRead_of_no_deadline hnone]
    simp only [State.enterRead, State.heldRead]
  case notAdmitted =>
    intro s ref nsid slba nlb d n dw0 hacc hok hlen
      (hsafe : s.deadlineInSafe d = false) (hoff : s.deadlineOff ref d = false)
      (hlong : s.deadlineTooLong ref nlb n d = false) hsome
      (hadm : s.admitRead (s.heldRead ref nsid slba nlb n).2 d.us d.lag = .error dw0)
    rw [exec_read_of_checks hacc hok hlen hsafe hoff hlong, serveRead_of_refused hsome hadm, State.refuseDeadline]
  case admitted =>
    intro s ref nsid slba nlb d n a hacc hok hlen
      (hsafe : s.deadlineInSafe d = false) (hoff : s.deadlineOff ref d = false)
      (hlong : s.deadlineTooLong ref nlb n d = false) hsome
      (hadm : s.admitRead (s.heldRead ref nsid slba nlb n).2 d.us d.lag = .ok a)
    rw [exec_read_of_checks hacc hok hlen hsafe hoff hlong, serveRead_of_admitted hsome hadm]
    simp only [State.enterRead, State.heldRead]
  case cmpRefused =>
    intro s ref nsid slba nlb same e hacc herr
    exact exec_compare_of_error hacc herr
  case cmpTooLong =>
    intro s ref nsid slba nlb same n hacc hok hlen
    exact exec_compare_of_too_long hacc hok hlen
  case cmpUnfused =>
    intro s ref nsid slba nlb same n hacc hok hlen hfused
    rw [exec_compare_of_unfused hacc hok hlen hfused]
    simp only [State.enterRead, State.latchedCompare]
  case cmpFused =>
    intro s ref nsid slba nlb same n hacc hok hlen hfused
    rw [exec_compare_of_fused hacc hok hlen hfused]
    simp only [State.enterRead, State.latchedCompare]

end Sys2Proof.Machine
end

section
/-! The Ruling's tick, its line pulse and the announcements of lines, one equation per outcome, and the statement about
them (R36, R41, R43 to R45, R70, R88). -/

namespace Sys2Proof.Machine

section Ticks

variable {s : State} {u : Upset}

/-! ### The tick -/

/-- The state after the checks of a tick (R36 to R40). -/
def State.checkedTick (s : State) (u : Upset) : State := ({ s with rul := s.rul.upset u }).checkCounters

theorem execRulingTick_of_stopped (hrun : s.rul.running = false) : execRulingTick u s = .next s := by
  simp only [execRulingTick, hrun, Bool.false_eq_true, if_false]

theorem execRulingTick_of_checks_stop (hrun : s.rul.running = true) (hstop : (s.checkedTick u).rul.running = false) :
    execRulingTick u s = .next (s.checkedTick u) := by
  rw [execRulingTick, if_pos hrun]
  exact if_neg (ne_true_of_eq_false hstop)

/-- Both counters of a running Ruling take the same increment (R36), and the islands tick behind them. -/
theorem execRulingTick_of_checks_pass (hrun : s.rul.running = true) (hpass : (s.checkedTick u).rul.running = true) :
    execRulingTick u s =
      .next (let t := s.checkedTick u
        let v : State := { t with rul := { t.rul with
          a := t.rul.a.advance t.rul.increment.1, b := t.rul.b.advance t.rul.increment.1, acc := t.rul.increment.2 } }
        ((v.syncOutAt t.now).islandTicks).background) := by
  rw [execRulingTick, if_pos hrun]
  exact if_pos hpass

/-! ### The line pulse -/

/-- An island at a line pulse: it takes its announced count and is told the line two ahead (R44, R45). -/
def State.islandAtPulse (s : State) (e : Nat × Island) : Nat × Island :=
  (e.1, { e.2.atLine (s.rul.lineIdx + 1) with
    fifo := (e.2.atLine (s.rul.lineIdx + 1)).fifo ++ [(s.rul.lineIdx + 1 + 2, s.lineCount 2)] })

/-- The Ruling at a line pulse (R43): the line index advances and the next line lies one pitch on. -/
def State.pulseLine (s : State) : State :=
  { s with rul := { s.rul with
    a := if s.rul.maskA then s.rul.a else s.rul.a.nextLine
    b := if s.rul.maskB then s.rul.b else s.rul.b.nextLine
    nextLine := s.rul.nextLine + s.pitchNs * 256
    islands := s.rul.islands.map s.islandAtPulse } }

theorem execLinePulse_of_due (hrun : s.rul.running = true) (hdue : s.rul.nextLine ≤ s.now) :
    execLinePulse s = .next s.pulseLine.horizonAdvance.capWatch := by
  have hgo : (s.rul.running && decide (s.rul.nextLine ≤ s.now)) = true := by
    rw [hrun, decide_eq_true hdue]; rfl
  rw [execLinePulse, if_pos hgo]
  rfl

theorem execLinePulse_of_early (hearly : s.now < s.rul.nextLine) : execLinePulse s = .next s := by
  simp only [execLinePulse, decide_eq_false (Nat.not_le.mpr hearly), Bool.and_false, Bool.false_eq_true, if_false]

theorem execLinePulse_of_stopped (hrun : s.rul.running = false) : execLinePulse s = .next s := by
  simp only [execLinePulse, hrun, Bool.false_and, Bool.false_eq_true, if_false]

/-! ### The announcements -/

variable {island count k sent : Nat} {x : Island} {rest : List (Nat × Nat)}

/-- The island `x` takes `count` as that of line `k`, and `rest` stays in its FIFO (R44). -/
def State.takeAnnouncement (s : State) (island : Nat) (x : Island) (k count : Nat) (rest : List (Nat × Nat)) : State :=
  { s with rul := { s.rul with islands := s.rul.islands.map (fun e =>
    if e.1 = island then (island, { x with fifo := rest, taken := x.taken ++ [(k, count)], last := some count }) else e) } }

theorem execLineAnnouncement_of_empty (hx : s.rul.islands.lookup island = some x) (hfifo : x.fifo = []) :
    execLineAnnouncement island count s = .next s := by
  simp only [execLineAnnouncement, hx, hfifo]

/-- The oldest announcement is taken whether or not it has the count its line should have; the check only reports. -/
theorem execLineAnnouncement_of_cons (hx : s.rul.islands.lookup island = some x) (hfifo : x.fifo = (k, sent) :: rest) :
    execLineAnnouncement island count s =
      .next (if (s.expectedLine x k).all (· == count) then s.takeAnnouncement island x k count rest
        else (s.takeAnnouncement island x k count rest).post F.RUL_EVT_STATUS_ANN_FAULT island) := by
  simp only [execLineAnnouncement, hx, hfifo, State.takeAnnouncement]

end Ticks

/-- Settles O7: a tick by what its checks leave running, a line pulse by whether its line is due, an announcement by the
island's FIFO. -/
theorem rulingTicks : Obligations.RulingTicks := by
  unfold Obligations.RulingTicks
  refine ⟨?tick, ?checksStop, ?pulse, ?early, ?taken, ?reported, ?empty, ?stopped⟩
  case tick =>
    intro s u hrun (hpass : (s.checkedTick u).rul.running = true)
    exact execRulingTick_of_checks_pass hrun hpass
  case checksStop =>
    intro s u hrun (hstop : (s.checkedTick u).rul.running = false)
    exact execRulingTick_of_checks_stop hrun hstop
  case pulse =>
    intro s hrun hdue
    exact execLinePulse_of_due hrun hdue
  case early =>
    intro s hearly
    exact execLinePulse_of_early hearly
  case taken =>
    intro s island count k sent x rest hx hfifo hright
    rw [exec_lineAnnouncement, execLineAnnouncement_of_cons hx hfifo, if_pos hright, State.takeAnnouncement]
  case reported =>
    intro s island count k sent x rest hx hfifo hwrong
    rw [exec_lineAnnouncement, execLineAnnouncement_of_cons hx hfifo, if_neg (ne_true_of_eq_false hwrong),
      State.takeAnnouncement]
  case empty =>
    intro s island count x hx hfifo
    exact execLineAnnouncement_of_empty hx hfifo
  case stopped =>
    intro s u hrun
    exact ⟨execRulingTick_of_stopped hrun, execLinePulse_of_stopped hrun⟩

end Sys2Proof.Machine
end

section
/-! The samples of the Ruling's sources, one equation per mode of SYNC_IN and per outcome of a PTM dialog, and the
statement about them (R49, R53, R55, R143, R144). -/

namespace Sys2Proof.Machine

section Sources

variable {s : State} {port : Nat}

/-! ### SYNC_IN -/

/-- The edge that arrives now is noted, with the seconds that it has. -/
def State.noteEdge (s : State) (sec : Option Nat) : State :=
  { s with rul := { s.rul with lastEdge := some s.now, todSec := sec } }

/-- The phase sample of an edge that begins second `v` of the reference (R53). -/
def State.secondSample (s : State) (v : Nat) : State :=
  s.sample .sync (((v * secT + s.fld F.RUL_SYNC_DELAY_DELAY : Nat) : Int) - s.now)

/-- What a noted edge is a sample of (R53): of the phase with seconds, of the interval from an earlier edge without. -/
def State.sampleEdge (s : State) (toEdge : Option Int) : Res :=
  match s.rul.todSec with
  | some v => .next (s.secondSample v)
  | none =>
    match toEdge with
    | some d => .next (s.sample .sync d)
    | none => .next s

/-- How far the second after the edge `e` lies ahead of now. -/
def State.toSecond (s : State) (e : Nat) : Int := ((e + secT : Nat) : Int) - (s.now : Int)

/-- No TOD_ARM is old enough for this edge to take its seconds (R53). -/
def State.noSecondsDue (s : State) : Bool := s.rul.tod.all (fun e => decide (s.now - e.2 ≤ 100 * msT))

/-- This edge lies more than 1 µs off the second after the last one (R49). -/
def State.edgeOffSecond (s : State) : Bool := s.rul.lastEdge.any (fun e => decide (usT < (s.toSecond e).natAbs))

theorem edgeOffSecond_of_near (hnear : (s.rul.lastEdge.all (fun e => decide ((s.toSecond e).natAbs ≤ usT))) = true) :
    ¬ s.edgeOffSecond = true := by
  cases hlast : s.rul.lastEdge with
  | none => simp [State.edgeOffSecond, hlast]
  | some e => simpa [State.edgeOffSecond, hlast] using hnear

/-- A PPS edge that takes no armed seconds, noted with the next second of those the source has. -/
def State.nextEdge (s : State) : State := s.noteEdge (s.rul.todSec.map (· + 1))

/-- An edge off its instant breaks the row of samples (R49). -/
def State.brokenEdge (s : State) : State :=
  { s.nextEdge with rul := { s.nextEdge.rul with sync := { s.rul.sync with bad := s.rul.sync.bad + 1, recent := [] } } }

/-- The edges of a disciplined PPS or 10 MHz input are looked at. -/
theorem syncInEdge_guard {m : Nat} (hdisc : s.disciplined = true) (h0 : m ≠ 0) (h3 : m ≠ 3) :
    (!s.disciplined || decide (m = 0) || decide (m = 3)) = false := by
  rw [hdisc, decide_eq_false h0, decide_eq_false h3]; rfl

/-- The armed seconds are taken from an edge wherever it lies: the second after the last edge is not asked for. -/
theorem execSyncInEdge_of_armed {v at' : Nat} (hdisc : s.disciplined = true) (hpps : s.fld F.RUL_SYNC_CFG_MODE = 1)
    (htod : s.rul.tod = some (v, at')) (hold : 100 * msT < s.now - at') :
    execSyncInEdge s =
      .next (({ s with rul := { s.rul with lastEdge := some s.now, todSec := some v, tod := none } } : State).secondSample v) := by
  have hgo := syncInEdge_guard (m := 1) hdisc (by decide) (by decide)
  cases hlast : s.rul.lastEdge <;>
    simp only [execSyncInEdge, hpps, hgo, htod, hold, hlast, Option.map_some, Option.map_none, reduceIte, decide_true,
      beq_self_eq_true, Bool.and_self, Bool.not_true, Bool.and_false, Bool.false_eq_true] <;> rfl

/-- A PPS edge that takes no armed seconds goes by its distance from the second after the last one (R49, R53); what is armed and
which edge came before are the two choices that the model's answer makes on the way. -/
theorem execSyncInEdge_of_pps (hdisc : s.disciplined = true) (hpps : s.fld F.RUL_SYNC_CFG_MODE = 1)
    (hnone : s.noSecondsDue = true) :
    execSyncInEdge s =
      if s.edgeOffSecond then .next (if 2 ≤ s.rul.sync.bad + 1 then s.brokenEdge.loseSource .sync else s.brokenEdge)
      else s.nextEdge.sampleEdge (s.rul.lastEdge.map s.toSecond) := by
  have hgo := syncInEdge_guard (m := 1) hdisc (by decide) (by decide)
  have hyoung : ∀ p, s.rul.tod = some p → decide (100 * msT < s.now - p.2) = false := by
    intro p htod
    simpa [State.noSecondsDue, htod] using hnone
  cases htod : s.rul.tod <;> cases hlast : s.rul.lastEdge <;>
    simp only [execSyncInEdge, State.edgeOffSecond, State.nextEdge, State.brokenEdge, State.noteEdge, hpps, hgo, htod, hlast,
      hyoung, Option.map_some, Option.map_none, Option.any_some, Option.any_none, reduceIte, decide_true, beq_self_eq_true,
      Bool.true_and, Bool.and_true, Bool.and_false, Bool.not_false, Bool.false_eq_true] <;> rfl

/-- The 10 MHz input has no seconds and no instant to keep: an edge is noted, and is a sample from the second one on. -/
theorem execSyncInEdge_of_tenMHz (hdisc : s.disciplined = true) (hmode : s.fld F.RUL_SYNC_CFG_MODE = 2) :
    execSyncInEdge s =
      (s.noteEdge none).sampleEdge (s.rul.lastEdge.map (fun e => ((e + 100 * msT : Nat) : Int) - (s.now : Int))) := by
  have hgo := syncInEdge_guard (m := 2) hdisc (by decide) (by decide)
  have hnotPps : ¬ (2 = 1) := by decide
  cases htod : s.rul.tod <;> cases hlast : s.rul.lastEdge <;>
    simp only [execSyncInEdge, State.noteEdge, hmode, hgo, htod, hlast, Option.map_some, Option.map_none, hnotPps, Nat.reduceBEq,
      if_false, Bool.false_and, Bool.false_eq_true] <;> rfl

theorem execSyncInLossTimeout_of_late (hdisc : s.disciplined = true)
    (hlate : max (s.rul.lastEdge.getD 0) s.rul.resumedAt + (if s.fld F.RUL_SYNC_CFG_MODE = 2 then usT else 1100 * msT) ≤ s.now) :
    execSyncInLossTimeout s = .next (s.loseSource .sync) := by
  simp only [execSyncInLossTimeout, hdisc, hlate, decide_true, Bool.and_self, if_true]

/-! ### The PTM dialogs -/

theorem execPtmDialogStart_of_due (hused : s.ptmUsed = true) (hdisc : s.disciplined = true)
    (hdue : (s.rul.dialogAt = 0 || s.rul.dialogAt + s.fld F.RUL_PTM_CFG_PERIOD * msT ≤ s.now) = true)
    (hfree : s.rul.dialog.contains s.ptmPort = false) :
    execPtmDialogStart s =
      .next (({ s with rul := { s.rul with dialog := s.ptmPort :: s.rul.dialog, dialogAt := s.now } }).emit (.ptmRequest s.ptmPort)) := by
  simp only [execPtmDialogStart, hused, hdisc, hdue, hfree, Bool.true_or, Bool.and_self, Bool.not_false, if_true]

/-- The dialog of a port ends. -/
def State.endDialog (s : State) (port : Nat) : State := { s with rul := { s.rul with dialog := s.rul.dialog.erase port } }

/-- Whether PTM serves the Ruling, and whether the discipline runs, does not depend on the dialogs. -/
theorem endDialog_served (hused : s.ptmUsed = true) (hdisc : s.disciplined = true) :
    ((s.endDialog port).ptmUsed && (s.endDialog port).disciplined) = true := by
  have hused' : (s.endDialog port).ptmUsed = true := hused
  have hdisc' : (s.endDialog port).disciplined = true := hdisc
  rw [hused', hdisc']; rfl

theorem execPtmResponse_of_inTime {master : Int} (hopen : s.rul.dialog.contains port = true)
    (htime : s.now ≤ s.rul.dialogAt + msT) (hused : s.ptmUsed = true) (hdisc : s.disciplined = true) :
    execPtmResponse port master s =
      .next ((s.endDialog port).sample .ptm (master + 256 * (s.endDialog port).ptmOffset - s.now)) := by
  rw [execPtmResponse, hopen, decide_eq_true htime]
  exact if_pos (endDialog_served hused hdisc)

theorem execPtmDialogTimeout_of_open (hlate : s.rul.dialogAt + msT ≤ s.now) (hopen : s.rul.dialog.contains port = true) :
    execPtmDialogTimeout port s =
      .next (let t : State := { s with rul := { s.rul with
          dialog := s.rul.dialog.erase port, ptm := { s.rul.ptm with bad := s.rul.ptm.bad + 1, recent := [] } } }
        if 3 ≤ s.rul.ptm.bad + 1 then t.loseSource .ptm else t) := by
  simp only [execPtmDialogTimeout, if_neg (Nat.not_lt.mpr hlate), State.dialogFails, hopen, Bool.not_true, Bool.false_eq_true, if_false]

end Sources

/-- Settles O8: an edge by the mode of SYNC_IN, the arming and the edge before it; the dialogs and TOD_ARM by their equations. -/
theorem rulingSources : Obligations.RulingSources := by
  unfold Obligations.RulingSources
  refine ⟨?armed, ?off, ?phase, ?interval, ?first, ?firstTenMHz, ?tenMHz, ?loss, ?start, ?response, ?timeout, ?arm⟩
  case armed =>
    intro s v at' hdisc hpps htod hold
    exact execSyncInEdge_of_armed hdisc hpps htod hold
  case off =>
    intro s e hdisc hpps (hnone : s.noSecondsDue = true) hlast (hfar : usT < (s.toSecond e).natAbs)
    have hoff : s.edgeOffSecond = true := by
      simpa only [State.edgeOffSecond, hlast, Option.any_some] using decide_eq_true hfar
    rw [exec_syncInEdge, execSyncInEdge_of_pps hdisc hpps hnone, if_pos hoff]
    rfl
  case phase =>
    intro s v hdisc hpps (hnone : s.noSecondsDue = true) hnear hsec
    rw [exec_syncInEdge, execSyncInEdge_of_pps hdisc hpps hnone, if_neg (edgeOffSecond_of_near hnear),
      State.nextEdge, hsec]
    rfl
  case interval =>
    intro s e hdisc hpps (hnone : s.noSecondsDue = true) hlast (hnear : (s.toSecond e).natAbs ≤ usT) hsec
    have hon : ¬ s.edgeOffSecond = true := edgeOffSecond_of_near (by rw [hlast]; exact decide_eq_true hnear)
    rw [exec_syncInEdge, execSyncInEdge_of_pps hdisc hpps hnone, if_neg hon, State.nextEdge, hlast, hsec]
    rfl
  case first =>
    intro s hdisc hpps (hnone : s.noSecondsDue = true) hlast hsec
    have hon : ¬ s.edgeOffSecond = true := edgeOffSecond_of_near (by rw [hlast]; rfl)
    rw [exec_syncInEdge, execSyncInEdge_of_pps hdisc hpps hnone, if_neg hon, State.nextEdge, hlast, hsec]
    exact congrArg (fun sec => Host.Outcome.next (s.noteEdge sec)) hsec.symm
  case firstTenMHz =>
    intro s hdisc hmode hlast
    rw [exec_syncInEdge, execSyncInEdge_of_tenMHz hdisc hmode, hlast]
    rfl
  case tenMHz =>
    intro s e hdisc hmode hlast
    rw [exec_syncInEdge, execSyncInEdge_of_tenMHz hdisc hmode, hlast]
    rfl
  case loss =>
    intro s hdisc hlate
    exact execSyncInLossTimeout_of_late hdisc hlate
  case start =>
    intro s hused hdisc hdue hfree
    exact execPtmDialogStart_of_due hused hdisc hdue hfree
  case response =>
    intro s port master hopen htime hused hdisc
    exact execPtmResponse_of_inTime hopen htime hused hdisc
  case timeout =>
    intro s port hlate hopen
    exact execPtmDialogTimeout_of_open hlate hopen
  case arm =>
    intro s
    exact exec_todArm s

end Sys2Proof.Machine
end

section
/-! Set Features of the vendor features, one equation per command, Get Features, one per selector, and the statement about
them (R48, R92, R167, R175, R191 to R193, R577, R610). -/

namespace Sys2Proof.Machine

section VendorFeatures

variable {s : State} {ref : Ref} {cdw11 : Nat} {save : Bool}

/-! ### Set Features: what a VF and what a PF gets -/

section Guard

variable {i : Instr} {k : State → State}

/-- A command that is the Set of a vendor feature is refused from a VF (R191). -/
theorem vendorSet_refused_of_vf (hi : exec i s = s.begin ref (fun t => t.vendorSet ref k)) (hacc : s.accepts ref = true)
    (hvf : fromVf ref = true) : exec i s = .next ((s.latch ref).complete ref .invalidField 0) := by
  rw [hi, begin_accepted _ hacc, State.vendorSet, if_pos hvf]

/-- From a PF it does its work `k`. -/
theorem vendorSet_done_of_pf (hi : exec i s = s.begin ref (fun t => t.vendorSet ref k)) (hacc : s.accepts ref = true)
    (hpf : fromVf ref = false) : exec i s = .next (k (s.latch ref)) := by
  rw [hi, begin_accepted _ hacc, State.vendorSet, if_neg (ne_true_of_eq_false hpf)]

end Guard

/-! ### Set Features from a PF -/

/-- The namespaces that a Completion Policy is for (R167). -/
def State.policyNss (s : State) (ref : Ref) (nsid : Nat) : List Ns :=
  s.qe.nss.filter (fun n => (nsid == 0xFFFFFFFF || n.nsid == nsid) && n.attached.contains (ctrlIx ref))

/-- The policies that a Completion Policy sets. -/
def State.policies (s : State) (ref : Ref) (nsid cdw11 : Nat) : List Feat :=
  (s.policyNss ref nsid).map (fun n => ⟨0xC0, n.nsid, cdw11 % 2⟩)

theorem exec_setFeaturesCompletionPolicy_of_pf {nsid : Nat} (hacc : s.accepts ref = true) (hpf : fromVf ref = false) :
    exec (.setFeaturesCompletionPolicy ref nsid save cdw11) s =
      .next (if ((s.latch ref).policyNss ref nsid).isEmpty && nsid != 0xFFFFFFFF
        then (s.latch ref).complete ref .invalidNamespace 0
        else (((s.latch ref).policies ref nsid cdw11).foldl (fun (s : State) f => s.setFeat f.fid f.scope f.cur) (s.latch ref)).featEnd ref
          (if save then (s.latch ref).policies ref nsid cdw11 else [])) :=
  (vendorSet_done_of_pf rfl hacc hpf).trans rfl

theorem exec_setFeaturesRulingPriority_of_pf (hacc : s.accepts ref = true) (hpf : fromVf ref = false) :
    exec (.setFeaturesRulingPriority ref save cdw11) s =
      .next (if wholeRefused 0x100C (cdw11 % 2 ^ 6) then (s.latch ref).complete ref .invalidField 0
        else ((((s.latch ref).setFld F.RUL_SRC_PRIO_P1 (bitsOf (cdw11 % 2 ^ 6) 0 2)).setFld F.RUL_SRC_PRIO_P2 (bitsOf (cdw11 % 2 ^ 6) 2 2)).setFld
          F.RUL_SRC_PRIO_P3 (bitsOf (cdw11 % 2 ^ 6) 4 2)).featSet ref save 0xC3 0 (cdw11 % 2 ^ 6)) :=
  (vendorSet_done_of_pf rfl hacc hpf).trans rfl

theorem exec_setFeaturesPatrolPeriod_of_pf (hacc : s.accepts ref = true) (hpf : fromVf ref = false) :
    exec (.setFeaturesPatrolPeriod ref save cdw11) s =
      .next (if cdw11 % 2 ^ 9 = 0 || 365 < cdw11 % 2 ^ 9 then (s.latch ref).complete ref .invalidField 0
        else (s.latch ref).featSet ref save 0xC4 0 (cdw11 % 2 ^ 9)) :=
  (vendorSet_done_of_pf rfl hacc hpf).trans rfl

theorem exec_setFeaturesThermalLimits_of_pf (hacc : s.accepts ref = true) (hpf : fromVf ref = false) :
    exec (.setFeaturesThermalLimits ref save cdw11) s =
      .next (if limitsRefused (cdw11.testBit 31) (cdw11 % 2 ^ 24) then (s.latch ref).complete ref .invalidField 0
        else ((s.latch ref).setFld (if cdw11.testBit 31 then F.THM_LIMIT_N_N1_N3 else F.THM_LIMIT_J_J1_J3) (cdw11 % 2 ^ 24)).featSet
          ref save 0xC5 (bit (cdw11.testBit 31)) (cdw11 % 2 ^ 24)) :=
  (vendorSet_done_of_pf rfl hacc hpf).trans rfl

/-- Arming FORCE, or clearing LOCK, lacks the token that it asks for (R577). -/
def State.ownerTokenMissing (s : State) (cdw11 : Nat) (token : Option OwnerToken) : Bool :=
  (cdw11.testBit 1 && !s.ownerTokenOk token 2) ||
    (!cdw11.testBit 0 && (s.bxl.lock || !cdw11.testBit 1) && !s.ownerTokenOk token 1)

/-- FORCE as the command writes it. -/
def State.setForce (s : State) (cdw11 : Nat) : State := { s with bxl := { s.bxl with force := cdw11.testBit 1 } }

theorem exec_setFeaturesOwnerUpdateLock_of_pf {token : Option OwnerToken} (hacc : s.accepts ref = true) (hpf : fromVf ref = false) :
    exec (.setFeaturesOwnerUpdateLock ref cdw11 token) s =
      .next (if (s.latch ref).lifecycle != 3 then (s.latch ref).complete ref .cmdSeqError 0
        else if (s.latch ref).ownerTokenMissing cdw11 token then (s.latch ref).complete ref .invalidField 0
        else if cdw11.testBit 0 = (s.latch ref).bxl.lock then ((s.latch ref).setForce cdw11).complete ref .success 0
        else ((s.latch ref).setForce cdw11).folio { job := .owner (cdw11.testBit 0), erase := true, ref := some ref }) :=
  (vendorSet_done_of_pf rfl hacc hpf).trans rfl

/-- In OWNED the command comes to its tokens, and with them to its LOCK bit. -/
theorem exec_setFeaturesOwnerUpdateLock_of_owned {token : Option OwnerToken} (hacc : s.accepts ref = true) (hpf : fromVf ref = false)
    (howned : (s.latch ref).lifecycle = 3) :
    exec (.setFeaturesOwnerUpdateLock ref cdw11 token) s =
      .next (if (s.latch ref).ownerTokenMissing cdw11 token then (s.latch ref).complete ref .invalidField 0
        else if cdw11.testBit 0 = (s.latch ref).bxl.lock then ((s.latch ref).setForce cdw11).complete ref .success 0
        else ((s.latch ref).setForce cdw11).folio { job := .owner (cdw11.testBit 0), erase := true, ref := some ref }) := by
  have hstate : ¬ ((s.latch ref).lifecycle != 3) = true := by simp [howned]
  rw [exec_setFeaturesOwnerUpdateLock_of_pf hacc hpf, if_neg hstate]

end VendorFeatures

/-! ### Get Features -/

section GetFeatures

variable {s : State} {ref : Ref} {fid nsid sel cdw11 : Nat}

/-- A feature of a namespace is asked for one that is not attached to the command's controller. -/
def State.nsUnattached (s : State) (ref : Ref) (fid nsid : Nat) : Bool :=
  (fid = 0x82 || fid = 0x83 || fid = 0xC0 || fid = 0x1E) && !s.qe.nss.any (fun n => n.nsid == nsid && n.attached.contains (ctrlIx ref))

theorem exec_getFeatures_of_accepts (hacc : s.accepts ref = true) :
    exec (.getFeatures ref fid nsid sel cdw11) s = .next ((s.latch ref).getFeature ref fid nsid sel cdw11) := by
  rw [exec_getFeatures, execGetFeatures, begin_accepted _ hacc]

theorem getFeature_of_unknown (hbad : (!featKnown fid || 3 < sel) = true) :
    s.getFeature ref fid nsid sel cdw11 = s.complete ref .invalidField 0 :=
  if_pos hbad

theorem getFeature_of_unattached (hgood : (!featKnown fid || 3 < sel) = false) (hns : s.nsUnattached ref fid nsid = true) :
    s.getFeature ref fid nsid sel cdw11 = s.complete ref .invalidNamespace 0 :=
  (if_neg (ne_true_of_eq_false hgood)).trans (if_pos hns)

/-- The selectors 0 to 3 of a known feature pass the first check. -/
theorem selector_good (hknown : featKnown fid = true) (hsel : sel ≤ 3) : (!featKnown fid || decide (3 < sel)) = false := by
  rw [hknown, decide_eq_false (Nat.not_lt.mpr hsel)]; rfl

/-- What Get Features answers, by its selector, once its checks have passed (R191). -/
def State.featAnswer (s : State) (ref : Ref) (fid nsid sel cdw11 : Nat) : State :=
  match sel with
  | 0 =>
    if fid = 0x81 then
      (s.emit (.data ref 0x0A fid 0 16 [(0, 16, ((s.ctrl (ctrlIx ref)).bind (fun k => k.hostId)).getD 0)])).complete ref .success 0
    else s.complete ref .success (s.featShown fid nsid cdw11 ref)
  | 1 => s.complete ref .success (featDefault fid (featScope fid nsid cdw11 ref))
  | 2 =>
    match s.qe.savedFeats.find? (fun f => f.fid == fid && f.scope == featScope fid nsid cdw11 ref) with
    | some f => s.complete ref .success f.cur
    | none => s.complete ref .success (featDefault fid (featScope fid nsid cdw11 ref))
  | _ => s.complete ref .success (bit (featSaveable fid) + 2 * bit (fid = 0x82 || fid = 0x83 || fid = 0xC0 || fid = 0x1E) + 4)

theorem exec_getFeatures_of_admitted (hacc : s.accepts ref = true) (hknown : featKnown fid = true) (hsel : sel ≤ 3)
    (hns : (s.latch ref).nsUnattached ref fid nsid = false) :
    exec (.getFeatures ref fid nsid sel cdw11) s = .next ((s.latch ref).featAnswer ref fid nsid sel cdw11) := by
  rw [exec_getFeatures_of_accepts hacc]
  exact congrArg _ ((if_neg (ne_true_of_eq_false (selector_good hknown hsel))).trans (if_neg (ne_true_of_eq_false hns)))

end GetFeatures

/-- Settles O21: each vendor feature by who sets it and by its own check, Get Features by its checks and its selector. -/
theorem featuresVendor : Obligations.FeaturesVendor := by
  unfold Obligations.FeaturesVendor
  refine ⟨?policyVf, ?deadlineVf, ?capVf, ?prioVf, ?limitsVf, ?patrolVf, ?inkVf, ?lockVf, ?policyNone, ?policy, ?deadline,
    ?cap, ?prioBad, ?prio, ?patrolBad, ?patrol, ?limitsBad, ?limits, ?ink, ?lockState, ?lockTokens, ?lockKept, ?lockMoved,
    ?getUnknown, ?getUnattached, ?getCurrent, ?getHostId, ?getDefault, ?getSaved, ?getUnsaved, ?getCapable⟩
  case policyVf | deadlineVf | capVf | prioVf | limitsVf | patrolVf | inkVf | lockVf =>
    intros
    exact vendorSet_refused_of_vf rfl (by assumption) (by assumption)
  case policyNone =>
    intro s ref nsid cdw11 save hacc hpf hnone
    exact (exec_setFeaturesCompletionPolicy_of_pf hacc hpf).trans (congrArg _ (if_pos hnone))
  case policy =>
    intro s ref nsid cdw11 save hacc hpf hsome
    exact (exec_setFeaturesCompletionPolicy_of_pf hacc hpf).trans (congrArg _ (if_neg (ne_true_of_eq_false hsome)))
  case deadline =>
    intro s ref cdw11 save hacc hpf
    exact (vendorSet_done_of_pf rfl hacc hpf).trans rfl
  case cap =>
    intro s ref cdw11 save hacc hpf
    exact (vendorSet_done_of_pf rfl hacc hpf).trans rfl
  case prioBad =>
    intro s ref cdw11 save hacc hpf hbad
    rw [exec_setFeaturesRulingPriority_of_pf hacc hpf, if_pos hbad]
  case prio =>
    intro s ref cdw11 save hacc hpf hgood
    rw [exec_setFeaturesRulingPriority_of_pf hacc hpf, if_neg (ne_true_of_eq_false hgood)]
  case patrolBad =>
    intro s ref cdw11 save hacc hpf hbad
    rw [exec_setFeaturesPatrolPeriod_of_pf hacc hpf, if_pos (by simpa using hbad)]
  case patrol =>
    intro s ref cdw11 save hacc hpf hlo hhi
    rw [exec_setFeaturesPatrolPeriod_of_pf hacc hpf, if_neg (by simp; omega)]
  case limitsBad =>
    intro s ref cdw11 save hacc hpf hbad
    rw [exec_setFeaturesThermalLimits_of_pf hacc hpf, if_pos hbad]
  case limits =>
    intro s ref cdw11 save hacc hpf hgood
    rw [exec_setFeaturesThermalLimits_of_pf hacc hpf, if_neg (ne_true_of_eq_false hgood)]
  case ink =>
    intro s ref cdw11 save hacc hpf
    exact (vendorSet_done_of_pf rfl hacc hpf).trans rfl
  case lockState =>
    intro s ref cdw11 token hacc hpf hstate
    rw [exec_setFeaturesOwnerUpdateLock_of_pf hacc hpf, if_pos (bne_iff_ne.mpr hstate)]
  case lockTokens =>
    intro s ref cdw11 token hacc hpf howned hmissing
    exact (exec_setFeaturesOwnerUpdateLock_of_owned hacc hpf howned).trans (congrArg _ (if_pos hmissing))
  case lockKept =>
    intro s ref cdw11 token hacc hpf howned htokens hsame
    exact (exec_setFeaturesOwnerUpdateLock_of_owned hacc hpf howned).trans
      (congrArg _ ((if_neg (ne_true_of_eq_false htokens)).trans (if_pos hsame)))
  case lockMoved =>
    intro s ref cdw11 token hacc hpf howned htokens hdiff
    exact (exec_setFeaturesOwnerUpdateLock_of_owned hacc hpf howned).trans
      (congrArg _ ((if_neg (ne_true_of_eq_false htokens)).trans (if_neg hdiff)))
  case getUnknown =>
    intro s ref fid nsid cdw11 sel hacc hbad
    rw [exec_getFeatures_of_accepts hacc, getFeature_of_unknown hbad]
  case getUnattached =>
    intro s ref fid nsid cdw11 sel hacc hgood (hns : (s.latch ref).nsUnattached ref fid nsid = true)
    rw [exec_getFeatures_of_accepts hacc, getFeature_of_unattached hgood hns]
  case getCurrent =>
    intro s ref fid nsid cdw11 hacc hknown hns hfid
    exact (exec_getFeatures_of_admitted hacc hknown (by decide) hns).trans (congrArg _ (if_neg hfid))
  case getHostId =>
    intro s ref nsid cdw11 hacc
    exact exec_getFeatures_of_admitted hacc (by decide) (by decide) rfl
  case getDefault =>
    intro s ref fid nsid cdw11 hacc hknown hns
    exact exec_getFeatures_of_admitted hacc hknown (by decide) hns
  case getSaved =>
    intro s ref fid nsid cdw11 f hacc hknown hns hsaved
    rw [exec_getFeatures_of_admitted hacc hknown (by decide) hns]
    simp only [State.featAnswer, hsaved]
  case getUnsaved =>
    intro s ref fid nsid cdw11 hacc hknown hns hsaved
    rw [exec_getFeatures_of_admitted hacc hknown (by decide) hns]
    simp only [State.featAnswer, hsaved]
  case getCapable =>
    intro s ref fid nsid cdw11 hacc hknown hns
    exact exec_getFeatures_of_admitted hacc hknown (by decide) hns

end Sys2Proof.Machine
end

section
/-! The Stroke Scheduler: promotion by age, the completion of a stroke, the overrun and the 1 s window, one equation per outcome,
and the statements about stroke ageing and stroke scheduling (R78, R79, R81, R82, R86, R87, R103, R104, R106, R190). -/

namespace Sys2Proof.Machine

/-! ### Promotion by age (R79) -/

section Ageing

variable {s : State} {req : Nat} {k : Stroke}

/-- STROKE_AGE_PROMOTE for `req` promotes this stroke: it waits, was requested in class 4 or 5, is still above CEIL and has
waited a STEP. -/
def State.promotes (s : State) (req : Nat) (k : Stroke) : Bool :=
  k.req == req && k.phase == .waiting && 4 ≤ k.cls0 && s.fld F.STK_AGE_CEIL < k.cls &&
    k.since + s.fld F.STK_AGE_STEP * usT ≤ s.now

/-- A stroke promoted by one class; its next STEP runs from the end of this one. -/
def State.promoted (s : State) (k : Stroke) : Stroke :=
  { k with cls := k.cls - 1, since := k.since + s.fld F.STK_AGE_STEP * usT }

/-- The state after a promotion. -/
def State.agePromote (s : State) (req : Nat) : State :=
  { s with stk := { s.stk with strokes := updWhere (s.promotes req) s.promoted s.stk.strokes } }

theorem exec_strokeAgePromote_eq (s : State) (req : Nat) : exec (.strokeAgePromote req) s = .next (s.agePromote req) := rfl

theorem promotes_iff :
    s.promotes req k = true ↔ k.req = req ∧ k.phase = .waiting ∧ 4 ≤ k.cls0 ∧ s.fld F.STK_AGE_CEIL < k.cls ∧
      k.since + s.fld F.STK_AGE_STEP * usT ≤ s.now := by
  simp only [State.promotes, Bool.and_eq_true, beq_iff_eq, decide_eq_true_eq, and_assoc]

/-- A promotion starts above CEIL, so it does not pass it. -/
theorem ceil_le_promoted (h : s.promotes req k = true) : s.fld F.STK_AGE_CEIL ≤ (s.promoted k).cls := by
  obtain ⟨-, -, -, habove, -⟩ := promotes_iff.mp h
  exact Nat.le_sub_one_of_lt habove

/-- An update whose condition holds of no member of a list leaves the list. -/
theorem updWhere_eq_self {α : Type} {p : α → Bool} {f : α → α} {l : List α} (h : ∀ x ∈ l, p x = false) : updWhere p f l = l :=
  (List.map_congr_left fun x hx => if_neg (ne_true_of_eq_false (h x hx))).trans (List.map_id' l)

theorem agePromote_eq_self (h : ∀ k ∈ s.stk.strokes, s.promotes req k = false) : s.agePromote req = s := by
  rw [State.agePromote, updWhere_eq_self h]

end Ageing

/-- Settles O53: the promoted stroke stands in the updated list; a stroke of that list was there before or has been promoted,
which starts above CEIL; and before the STEP is over the update meets no stroke. -/
theorem strokeAgeing : Obligations.StrokeAgeing := by
  unfold Obligations.StrokeAgeing
  refine ⟨?promoted, ?ceiling, ?early⟩
  case promoted =>
    intro s k hk hwait hcls0 habove hstep
    have hpro : s.promotes k.req k = true := promotes_iff.mpr ⟨rfl, hwait, hcls0, habove, hstep⟩
    exact ⟨_, exec_strokeAgePromote_eq s k.req, List.mem_map.mpr ⟨k, hk, if_pos hpro⟩⟩
  case ceiling =>
    intro s t req k hexec hk
    obtain rfl : s.agePromote req = t := Host.Outcome.next.inj hexec
    obtain ⟨o, -, hpro, rfl⟩ | ⟨hold, -⟩ := mem_updWhere hk
    · exact .inr (ceil_le_promoted hpro)
    · exact .inl hold
  case early =>
    intro s req hearly
    rw [exec_strokeAgePromote_eq, agePromote_eq_self]
    intro k hk
    have hwaits : k.req ≠ req ∨ s.now < k.since + s.fld F.STK_AGE_STEP * usT := by
      simpa using List.all_eq_true.mp hearly k hk
    refine Bool.eq_false_iff.mpr fun hpro => ?_
    obtain ⟨hreq, -, -, -, hstep⟩ := promotes_iff.mp hpro
    exact hwaits.elim (· hreq) (fun hnow => Nat.not_lt.mpr hstep hnow)

/-! ### Placement, completion, overrun and the window -/

section Scheduling

variable {s : State} {nib req : Nat} {c : Comp} {k : Stroke}

/-- The Nib's ring without the completion `c`: the consumer has read it. -/
def State.consumeComp (s : State) (nib : Nat) (c : Comp) : State :=
  { s with nib := { s.nib with
    comps := s.nib.comps.filter (fun x => !(x.nib == nib && x.seq == c.seq && x.req == c.req)) } }

theorem execStrokeComplete_of_unknown (hc : s.nib.comps.find? (fun c => c.nib == nib) = some c) (hk : s.strokeOf c.req = none) :
    execStrokeComplete nib s = .next (s.consumeComp nib c) := by
  have hk' : (s.consumeComp nib c).strokeOf c.req = none := hk
  rw [State.consumeComp] at hk'
  simp only [execStrokeComplete, hc, hk', State.consumeComp]

/-- A stroke whose line was missed or whose LUN was busy waits again; of any other the completion acts (R82, R87). -/
theorem execStrokeComplete_of_stroke (hc : s.nib.comps.find? (fun c => c.nib == nib) = some c) (hk : s.strokeOf c.req = some k) :
    execStrokeComplete nib s =
      .next (let t := s.consumeComp nib c
        if c.status = 4 then ((t.post F.STK_EVT_STATUS_LINE_MISSED k.lun).waitAgain k.req).settle
        else if c.status = 5 then ((t.post F.STK_EVT_STATUS_LUN_BUSY k.lun).waitAgain k.req).settle
        else ((t.countBusy k c).actOn k c).pump.settle) := by
  have hk' : (s.consumeComp nib c).strokeOf c.req = some k := hk
  rw [State.consumeComp] at hk'
  simp only [execStrokeComplete, hc, hk', next_ite, State.consumeComp]

/-- The first overrun of a stroke is counted for its LUN and in all, and reported; that of a SUSPEND is late too (R86, R383). -/
theorem execStrokeOverrun_of_late
    (hk : s.stk.strokes.find? (fun k => k.req == req && k.phase == .launched && !k.overran && segsMax k.segs < s.busyOf k) = some k) :
    execStrokeOverrun req s =
      .next (let u := if k.op = .suspend then s.post (F.NIB_EVT_STATUS_SUSP_LATE (chanOf k.lun)) k.lun else s
        let t := u.setStat { s.stat k.lun with overran := (s.stat k.lun).overran + 1 }
        ({ t with stk := { t.stk with
          nOverrun := t.stk.nOverrun + 1
          strokes := updWhere (fun o => o.req == req) (fun o => { o with overran := true }) t.stk.strokes } }).post
            F.STK_EVT_STATUS_OVERRUN k.lun) := by
  simp only [execStrokeOverrun, hk]

end Scheduling

/-- Settles O10: placement, promotion and the window by the equations of their commands, a completion by whether its stroke is
known, an overrun by the stroke that is late. -/
theorem strokeScheduling : Obligations.StrokeScheduling := by
  unfold Obligations.StrokeScheduling
  refine ⟨?place, ?promote, ?complete, ?unknown, ?overrun, ?window⟩
  case place =>
    intro s
    exact exec_strokePlace s
  case promote =>
    intro s req
    exact exec_strokeAgePromote_eq s req
  case complete =>
    intro s nib c k hc hk
    exact execStrokeComplete_of_stroke hc hk
  case unknown =>
    intro s nib c hc hk
    exact execStrokeComplete_of_unknown hc hk
  case overrun =>
    intro s req k hk
    exact execStrokeOverrun_of_late hk
  case window =>
    intro s
    exact exec_slowWindowEnd s

end Sys2Proof.Machine
end

section
/-! Doorbells, shadow doorbells and the arbitration of fetching, one equation per outcome, and the statement about them
(R106, R155 to R157, R159 to R164). -/

namespace Sys2Proof.Machine

/-! ### Doorbells (R155 to R157) -/

section Doorbells

variable {s : State} {ctrl qid value : Nat}

/-- A doorbell write reaches no doorbell: BAR0 is not served, the controller is not there, or the number lies above its doorbells. -/
def State.doorbellDead (s : State) (ctrl qid : Nat) : Bool :=
  s.mode = .off || s.mode = .holdUp || !s.qe.ctrls.any (fun c => c.id == ctrl) || doorbells ctrl ≤ qid

theorem execDoorbellWrite_of_poison (isCq : Bool) (hlive : s.doorbellDead ctrl qid = false) :
    execDoorbellWrite ctrl qid isCq value true s = .next ((s.wakeEvent 6).poisonIn ctrl) :=
  (if_neg (ne_true_of_eq_false hlive)).trans (if_pos rfl)

/-- A head is taken over and lets held completions go, unless it lies outside its queue. -/
theorem execDoorbellWrite_head {q : Cq} (hlive : s.doorbellDead ctrl qid = false) (hq : (s.wakeEvent 6).cq ctrl qid = some q) :
    execDoorbellWrite ctrl qid true value false s =
      .next (if q.size ≤ value then (s.wakeEvent 6).aenTo 65 ctrl
        else ((s.wakeEvent 6).updCq ctrl qid (fun q => { q with head := value })).drainFull ctrl) := by
  unfold State.doorbellDead at hlive
  simp only [execDoorbellWrite, hlive, hq, next_ite, State.badDoorbell, Bool.false_eq_true, if_false, if_true]

/-- A tail is taken over and makes its queue active, unless it lies outside the queue. -/
theorem execDoorbellWrite_tail {q : Sq} (hlive : s.doorbellDead ctrl qid = false) (hq : (s.wakeEvent 6).sq ctrl qid = some q) :
    execDoorbellWrite ctrl qid false value false s =
      .next (if q.size ≤ value then (s.wakeEvent 6).aenTo 65 ctrl
        else (s.wakeEvent 6).updSq ctrl qid (fun q => { q with tail := value, active := true, lastNew := s.now })) := by
  unfold State.doorbellDead at hlive
  simp only [execDoorbellWrite, hlive, hq, next_ite, State.badDoorbell, Bool.false_eq_true, if_false]

/-- The shadow heads whose reads are under way come in (R157). -/
def State.takeHeads (s : State) (ctrl : Nat) (heads : List (Nat × Nat)) : State :=
  heads.foldl (fun (s : State) h => s.memRead (.head ctrl h.1 h.2) .ok []) s

/-- The poll of an active queue takes the heads first, and then the tail unless it lies outside the queue. -/
theorem execShadowTailPoll_of_active {heads : List (Nat × Nat)} {k : Ctrl} {q : Sq} (hk : s.ctrl ctrl = some k)
    (hq : s.sq ctrl qid = some q) (hshadow : k.shadowDb = true) (hactive : q.active = true) (hfetches : s.fetches = true)
    (hd3 : s.hp.d3hot.contains ctrl = false) :
    execShadowTailPoll ctrl qid value heads s =
      .next (if q.size ≤ value then (s.takeHeads ctrl heads).aenTo 65 ctrl
        else (s.takeHeads ctrl heads).updSq ctrl qid (fun q => { q with tail := value })) := by
  simp only [execShadowTailPoll, hk, hq, hshadow, hactive, hfetches, hd3, next_ite, State.takeHeads, State.badDoorbell,
    Bool.not_true, Bool.or_self, Bool.false_eq_true, if_false]

theorem execSqIdleTimeout_of_late {k : Ctrl} {q : Sq} (hk : s.ctrl ctrl = some k) (hq : s.sq ctrl qid = some q)
    (hshadow : k.shadowDb = true) (hactive : q.active = true) (hlate : q.lastNew + 100 * usT ≤ s.now) :
    execSqIdleTimeout ctrl qid s = .next (s.updSq ctrl qid (fun q => { q with active := false, eventIdx := q.tail })) := by
  simp only [execSqIdleTimeout, hk, hq, hshadow, hactive, hlate, decide_true, Bool.and_self, if_true]

end Doorbells

/-! ### Arbitration (R159 to R163) -/

section Arbitration

variable {s : State} {c : Nat} {q : Sq}

/-- The controller whose Admin queue is next in round robin. -/
def State.nextAdmin (s : State) : Option Nat :=
  nextAfter s.qe.rrAdmin ((s.qe.sqs.filter (fun q =>
    q.qid == 0 && q.head != q.tail && ((s.ctrl q.ctrl).map s.ctrlFetches).getD false)).map (fun q => q.ctrl))

/-- The controller that is next in round robin among those with a ready Urgent queue. -/
def State.nextUrgent (s : State) : Option Nat :=
  nextAfter s.qe.rrUrgent ((s.qe.ctrls.filter (fun k => !(s.readyIn k 0).isEmpty)).map (fun k => k.id))

/-- The controller whose Admin queue the grant serves: none without a tag that an Admin entry may hold (R158). -/
def State.adminGrant (s : State) : Option Nat := if s.freeTags true = 0 then none else s.nextAdmin

theorem adminGrant_eq_none (h : s.freeTags true = 0 ∨ s.nextAdmin = none) : s.adminGrant = none := by
  unfold State.adminGrant
  split
  case isTrue => rfl
  case isFalse htags => exact h.resolve_left htags

/-- Where fetching goes on, a grant is not withheld (R106). -/
theorem fetchGuard (hfetches : s.fetches = true) (hhold : s.qe.fetchHold = false) : (!s.fetches || s.qe.fetchHold) = false := by
  rw [hfetches, hhold]; rfl

theorem execSqFetchGrant_of_admin (hfetches : s.fetches = true) (hhold : s.qe.fetchHold = false)
    (hgrant : s.adminGrant = some c) (hq : s.sq c 0 = some q) :
    execSqFetchGrant s = .next (({ s with qe := { s.qe with rrAdmin := c } } : State).fetchFrom q) := by
  unfold State.adminGrant State.nextAdmin at hgrant
  simp only [execSqFetchGrant, fetchGuard hfetches hhold, hgrant, hq, Bool.false_eq_true, if_false]

theorem execSqFetchGrant_of_urgent {k : Ctrl} (hfetches : s.fetches = true) (hhold : s.qe.fetchHold = false)
    (hgrant : s.adminGrant = none) (hurgent : s.nextUrgent = some c) (hk : s.ctrl c = some k)
    (hq : (s.nextSq k 0).bind (s.sq c) = some q) :
    execSqFetchGrant s =
      .next (let t := s.updCtrl c (fun k => { k with lastSq := (0, q.qid) :: k.lastSq.filter (fun e => e.1 != 0) })
        ({ t with qe := { t.qe with rrUrgent := c } } : State).fetchFrom q) := by
  unfold State.adminGrant State.nextAdmin at hgrant
  unfold State.nextUrgent at hurgent
  simp only [execSqFetchGrant, fetchGuard hfetches hhold, hgrant, hurgent, hk, hq, Bool.false_eq_true, if_false]

theorem execSqFetchGrant_of_neither (hfetches : s.fetches = true) (hhold : s.qe.fetchHold = false)
    (hgrant : s.adminGrant = none) (hurgent : s.nextUrgent = none) : execSqFetchGrant s = .next s.grantWrr := by
  unfold State.adminGrant State.nextAdmin at hgrant
  unfold State.nextUrgent at hurgent
  simp only [execSqFetchGrant, fetchGuard hfetches hhold, hgrant, hurgent, Bool.false_eq_true, if_false]

end Arbitration

/-- Settles O17: a doorbell or a poll by whether its value lies in the queue, a grant by the first of the arbitration's steps that
finds a queue. -/
theorem doorbellsAndArbitration : Obligations.DoorbellsAndArbitration := by
  unfold Obligations.DoorbellsAndArbitration
  refine ⟨?poison, ?head, ?badHead, ?tail, ?badTail, ?poll, ?badPoll, ?idle, ?admin, ?urgent, ?weighted, ?ordering⟩
  case poison =>
    intro s ctrl qid value isCq hlive
    exact execDoorbellWrite_of_poison isCq hlive
  case head =>
    intro s ctrl qid value q hlive hq hin
    rw [exec_doorbellWrite, execDoorbellWrite_head hlive hq, if_neg (Nat.not_le.mpr hin)]
  case badHead =>
    intro s ctrl qid value q hlive hq hout
    rw [exec_doorbellWrite, execDoorbellWrite_head hlive hq, if_pos hout]
  case tail =>
    intro s ctrl qid value q hlive hq hin
    rw [exec_doorbellWrite, execDoorbellWrite_tail hlive hq, if_neg (Nat.not_le.mpr hin)]
  case badTail =>
    intro s ctrl qid value q hlive hq hout
    rw [exec_doorbellWrite, execDoorbellWrite_tail hlive hq, if_pos hout]
  case poll =>
    intro s ctrl qid value heads k q hk hq hshadow hactive hfetches hd3 hin
    rw [exec_shadowTailPoll, execShadowTailPoll_of_active hk hq hshadow hactive hfetches hd3, if_neg (Nat.not_le.mpr hin)]
    rfl
  case badPoll =>
    intro s ctrl qid value heads k q hk hq hshadow hactive hfetches hd3 hout
    rw [exec_shadowTailPoll, execShadowTailPoll_of_active hk hq hshadow hactive hfetches hd3, if_pos hout]
    rfl
  case idle =>
    intro s ctrl qid k q hk hq hshadow hactive hlate
    exact execSqIdleTimeout_of_late hk hq hshadow hactive hlate
  case admin =>
    intro s c q hfetches hhold htags hnext hq
    exact execSqFetchGrant_of_admin hfetches hhold ((if_neg htags).trans hnext) hq
  case urgent =>
    intro s c k q hfetches hhold hnone hurgent hk hq
    exact execSqFetchGrant_of_urgent hfetches hhold (adminGrant_eq_none hnone) hurgent hk hq
  case weighted =>
    intro s hfetches hhold hnone hurgent
    exact execSqFetchGrant_of_neither hfetches hhold (adminGrant_eq_none hnone) hurgent
  case ordering =>
    intro s
    exact exec_orderingPointStamp s

end Sys2Proof.Machine
end

section
/-! One step from a good state: what it keeps, and the statement that the invariant is kept
(R111, R229, R516, R605, R638). -/

namespace Sys2Proof.Machine

theorem step_of_idle {s : State} (hq : s.pending = []) : step s = .next s := by
  rw [step, hq]

theorem step_of_waiting {s : State} {c : Instr} {q : List Instr} (hq : s.pending = c :: q) :
    step s = exec c (s.withPending q) := by
  rw [step, hq]

theorem withPending_pending (s : State) : s.withPending s.pending = s := rfl

/-- The invariant does not look at the queue. -/
theorem withPending_inv (s : State) (q : List Instr) : (s.withPending q).inv = s.inv := rfl

/-- A step from a good state keeps, of the state without its front command, all that a command keeps. -/
theorem step_keeps {s t : State} (hs : s.inv = true) (h : step s = .next t) : Keeps (s.withPending s.pending.tail) t := by
  match hq : s.pending with
  | [] =>
    obtain rfl : s = t := Host.Outcome.next.inj ((step_of_idle hq).symm.trans h)
    have hself : s.withPending [] = s := by rw [← hq, withPending_pending]
    rw [List.tail_nil, hself]
    exact keeps_refl hs
  | c :: q => exact exec_keeps c (keeps_refl ((withPending_inv s q).trans hs)) t ((step_of_waiting hq).symm.trans h)

/-- Settles O57: a step runs the front command on the queue's rest, or idles, and every command keeps a good state good. -/
theorem everyStepKeepsTheInvariant : Obligations.EveryStepKeepsTheInvariant := by
  unfold Obligations.EveryStepKeepsTheInvariant
  intro s t hs h
  exact (step_keeps hs h).inv

end Sys2Proof.Machine
end

section
/-! SPDM: what a request does that is served, or that is not, at each stage of the negotiation and within a session, and the
statements about negotiation and sessions (R145, R539, R540, R552, R625). -/

namespace Sys2Proof.Machine

section Requests

variable {s : State} {p : Party} {n : Nat} {i : Request} {k : State → State}

theorem spdmReq_of_served (hserved : s.spdmServes p = true) : s.spdmReq i p k = .next (k (s.spdmTold p)) :=
  if_pos hserved

/-- A request that is not served leaves a DOE mailbox and all else as it was. -/
theorem spdmReq_doe_of_unserved {pf : Nat} (hserved : s.spdmServes (.doe pf) = false) : s.spdmReq i (.doe pf) k = .next s :=
  if_neg (ne_true_of_eq_false hserved)

/-- Before its stage a request is answered with UnexpectedRequest, -/
theorem spdmReq_of_early (hserved : s.spdmServes p = true) (hstage : ((s.spdmTold p).conn p).stage < n) :
    s.spdmReq i p (fun t => t.atStage p n k) = .next ((s.spdmTold p).spdmError p 4) :=
  (spdmReq_of_served hserved).trans (congrArg _ (if_pos hstage))

/-- and from its stage on it runs. -/
theorem spdmReq_of_stage (hserved : s.spdmServes p = true) (hstage : n ≤ ((s.spdmTold p).conn p).stage) :
    s.spdmReq i p (fun t => t.atStage p n k) = .next (k (s.spdmTold p)) :=
  (spdmReq_of_served hserved).trans (congrArg _ (if_neg (Nat.not_lt.mpr hstage)))

variable {up : Bool} {f : State → Nat → State}

/-- A request for a session that is not there is answered with InvalidSession, -/
theorem spdmReq_of_noSession (hserved : s.spdmServes p = true)
    (hnone : ((s.spdmTold p).conn p).sessions.find? (fun e => e.1 == n && e.2.1 == up) = none) :
    s.spdmReq i p (fun t => t.inSession p n up f) = .next ((s.spdmTold p).spdmError p 2) := by
  rw [spdmReq_of_served hserved, State.inSession, hnone]

/-- and one for a session that is there runs with the session's key generation. -/
theorem spdmReq_of_session {g : Nat} (hserved : s.spdmServes p = true)
    (hsome : ((s.spdmTold p).conn p).sessions.find? (fun e => e.1 == n && e.2.1 == up) = some (n, up, g)) :
    s.spdmReq i p (fun t => t.inSession p n up f) = .next (f (s.spdmTold p) g) := by
  rw [spdmReq_of_served hserved, State.inSession, hsome]

end Requests

/-- A measurement that is neither the number of blocks nor all of them: its one block, or an error where there is none. -/
theorem execGetMeasurements_of_index {s : State} {p : Party} {index : Nat} (hserved : s.spdmServes p = true)
    (hstage : 3 ≤ ((s.spdmTold p).conn p).stage) (hnumber : index ≠ 0) (hall : index ≠ 0xFF) :
    execGetMeasurements p index s =
      .next (((s.spdmTold p).measurement index).elim ((s.spdmTold p).spdmError p 1)
        (fun d => (s.spdmTold p).spdmSend p 0x60 (1 :: d))) := by
  rw [execGetMeasurements, spdmReq_of_stage hserved hstage, if_neg hnumber, if_neg hall]
  cases (s.spdmTold p).measurement index <;> rfl

/-- Settles O43: each request by the stage that the negotiation has reached, and then by the slot or the index it asks for. -/
theorem spdmNegotiation : Obligations.SpdmNegotiation := by
  unfold Obligations.SpdmNegotiation
  refine ⟨?version, ?capabilitiesEarly, ?algorithmsEarly, ?digestsEarly, ?certificateEarly, ?challengeEarly, ?measurementsEarly,
    ?capabilities, ?algorithms, ?notOffered, ?digests, ?certificateNoSlot, ?certificate, ?challengeNoSlot, ?challenge,
    ?number, ?all, ?measured, ?unmeasured⟩
  case version =>
    intro s p hserved
    exact (exec_getVersion p s).trans (spdmReq_of_served hserved)
  case capabilitiesEarly =>
    intro s p hserved hstage
    exact spdmReq_of_early hserved hstage
  case algorithmsEarly =>
    intro s p offered hserved hstage
    exact spdmReq_of_early hserved hstage
  case digestsEarly =>
    intro s p hserved hstage
    exact spdmReq_of_early hserved hstage
  case certificateEarly =>
    intro s p slot off len hserved hstage
    exact spdmReq_of_early hserved hstage
  case challengeEarly =>
    intro s p slot hserved hstage
    exact spdmReq_of_early hserved hstage
  case measurementsEarly =>
    intro s p index hserved hstage
    exact spdmReq_of_early hserved hstage
  case capabilities =>
    intro s p hserved hstage
    exact spdmReq_of_stage hserved hstage
  case algorithms =>
    intro s p hserved hstage
    exact spdmReq_of_stage hserved hstage
  case notOffered =>
    intro s p hserved hstage
    exact spdmReq_of_stage hserved hstage
  case digests =>
    intro s p hserved hstage
    exact spdmReq_of_stage hserved hstage
  case certificateNoSlot =>
    intro s p slot off len hserved hstage hslot
    exact (spdmReq_of_stage hserved hstage).trans (congrArg _ (if_pos hslot))
  case certificate =>
    intro s p slot off len hserved hstage hslot
    exact (spdmReq_of_stage hserved hstage).trans (congrArg _ (if_neg (ne_true_of_eq_false hslot)))
  case challengeNoSlot =>
    intro s p slot hserved hstage hslot
    exact (spdmReq_of_stage hserved hstage).trans (congrArg _ (if_pos hslot))
  case challenge =>
    intro s p slot hserved hstage hslot
    exact (spdmReq_of_stage hserved hstage).trans (congrArg _ (if_neg (ne_true_of_eq_false hslot)))
  case number =>
    intro s p hserved hstage
    exact spdmReq_of_stage hserved hstage
  case all =>
    intro s p hserved hstage
    exact spdmReq_of_stage hserved hstage
  case measured =>
    intro s p index d hserved hstage hnumber hall hd
    rw [exec_getMeasurements, execGetMeasurements_of_index hserved hstage hnumber hall, hd, Option.elim_some]
  case unmeasured =>
    intro s p index hserved hstage hnumber hall hd
    rw [exec_getMeasurements, execGetMeasurements_of_index hserved hstage hnumber hall, hd, Option.elim_none]

/-- Settles O44: a key exchange by its stage and its slot, a request within a session by whether the session is there, and one
that is not served over DOE by the gate of all requests. -/
theorem spdmSessions : Obligations.SpdmSessions := by
  unfold Obligations.SpdmSessions
  refine ⟨?exchangeEarly, ?exchangeNoSlot, ?exchange, ?finishNone, ?heartbeatNone, ?updateNone, ?endNone,
    ?finish, ?finishFails, ?heartbeat, ?newKeys, ?verifyKeys, ?updateInvalid, ?ends, ?doeUnserved⟩
  case exchangeEarly =>
    intro s p slot hserved hstage
    exact spdmReq_of_early hserved hstage
  case exchangeNoSlot =>
    intro s p slot hserved hstage hslot
    exact (spdmReq_of_stage hserved hstage).trans (congrArg _ (if_pos hslot))
  case exchange =>
    intro s p slot hserved hstage hslot
    exact (spdmReq_of_stage hserved hstage).trans (congrArg _ (if_neg (ne_true_of_eq_false hslot)))
  case finishNone =>
    intro s p session ok hserved hnone
    exact spdmReq_of_noSession hserved hnone
  case heartbeatNone =>
    intro s p session hserved hnone
    exact spdmReq_of_noSession hserved hnone
  case updateNone =>
    intro s p session op hserved hnone
    exact spdmReq_of_noSession hserved hnone
  case endNone =>
    intro s p session hserved hnone
    exact spdmReq_of_noSession hserved hnone
  case finish =>
    intro s p session g hserved hsome
    exact spdmReq_of_session hserved hsome
  case finishFails =>
    intro s p session g hserved hsome
    exact spdmReq_of_session hserved hsome
  case heartbeat =>
    intro s p session g hserved hsome
    exact spdmReq_of_session hserved hsome
  case newKeys =>
    intro s p session op g hserved hsome hop
    exact (spdmReq_of_session hserved hsome).trans (congrArg _ (if_pos (by simpa using hop)))
  case verifyKeys =>
    intro s p session g hserved hsome
    exact spdmReq_of_session hserved hsome
  case updateInvalid =>
    intro s p session op g hserved hsome h1 h2 h3
    have hnew : ¬(op = 1 || op = 2) = true := by simp [h1, h2]
    exact (spdmReq_of_session hserved hsome).trans (congrArg _ ((if_neg hnew).trans (if_neg h3)))
  case ends =>
    intro s p session g hserved hsome
    exact spdmReq_of_session hserved hsome
  case doeUnserved =>
    exact ⟨fun _ _ h => (exec_getVersion ..).trans (spdmReq_doe_of_unserved h),
      fun _ _ h => (exec_getCapabilities ..).trans (spdmReq_doe_of_unserved h),
      fun _ _ _ h => (exec_negotiateAlgorithms ..).trans (spdmReq_doe_of_unserved h),
      fun _ _ h => (exec_getDigests ..).trans (spdmReq_doe_of_unserved h),
      fun _ _ _ _ _ h => (exec_getCertificate ..).trans (spdmReq_doe_of_unserved h),
      fun _ _ _ h => (exec_challenge ..).trans (spdmReq_doe_of_unserved h),
      fun _ _ _ h => (exec_getMeasurements ..).trans (spdmReq_doe_of_unserved h),
      fun _ _ _ h => (exec_keyExchange ..).trans (spdmReq_doe_of_unserved h),
      fun _ _ _ _ h => (exec_finish ..).trans (spdmReq_doe_of_unserved h),
      fun _ _ _ h => (exec_heartbeat ..).trans (spdmReq_doe_of_unserved h),
      fun _ _ _ _ h => (exec_keyUpdate ..).trans (spdmReq_doe_of_unserved h),
      fun _ _ _ h => (exec_endSession ..).trans (spdmReq_doe_of_unserved h)⟩

end Sys2Proof.Machine
end

section
/-! The Host Port's transfers, one equation per outcome, and the statement about them (R118, R120, R127 to R145). -/

namespace Sys2Proof.Machine

section Transfers

variable {s : State}

/-- The guard of what arrives over a link is open, whatever else it asks for (`b`). -/
theorem linkGuard_open {b : Bool} (hb : b = false) (hoff : s.mode ≠ .off) (hhold : s.mode ≠ .holdUp) :
    ¬(b || s.mode = .off || s.mode = .holdUp) = true :=
  ne_true_of_eq_false ((ccGuard_eq b hoff hhold).trans hb)

/-! ### Reads -/

theorem execMemoryReadCompletion_of_live {what : MemRead} {res : MemIn} (hoff : s.mode ≠ .off) (hhold : s.mode ≠ .holdUp) :
    execMemoryReadCompletion what res s =
      .next (((s.wakeEvent 6).linkNews (fnOfRead what) res).memRead what res.res res.metas) :=
  if_neg (linkGuard_open rfl hoff hhold)

/-- A read that is late is logged and fails (R132, R134, R136). -/
theorem execCompletionTimeout_of_late {what : MemRead} (hoff : s.mode ≠ .off) (hhold : s.mode ≠ .holdUp)
    (hlate : s.readLate what = true) :
    execCompletionTimeout what s = .next ((s.aerPost (fnOfRead what) .completionTimeout).memRead what .fail []) := by
  simp only [execCompletionTimeout, hoff, hhold, hlate, decide_false, Bool.not_true, Bool.or_self, Bool.false_eq_true, if_false]

/-! ### Translations (R139 to R141) -/

/-- An Invalidate Request drops the translations it covers and waits for the requests that used them (R140). -/
theorem execInvalidateRequest_of_served {port : Nat} (itag fn lo n : Nat) (waits : List (Ref × Nat))
    (hlive : (!s.hasPort port || s.mode = .off || s.mode = .holdUp) = false) :
    execInvalidateRequest port itag fn lo n waits s =
      .next (let t := s.wakeEvent 6
        let w := t.covered port fn lo n waits
        let v : Inval := { port := port, itag := itag, fn := fn, lo := lo, n := n, at_ := s.now, waits := w, step2 := if w.isEmpty then some s.now else none }
        { t with hp := { t.hp with
          atc := t.hp.atc.filter (fun x => !(x.port == port && x.fn == fn && lo ≤ x.page && x.page < lo + n)), invals := t.hp.invals ++ [v] } }) :=
  if_neg (ne_true_of_eq_false hlive)

/-- The oldest invalidation whose reads have ended is answered, and reported where that is late. -/
theorem execInvalidateCompletion_of_ended {port : Nat} {v : Inval} (hoff : s.mode ≠ .off)
    (hv : (s.invalsOpen port).find? (fun v => v.step2.isSome) = some v) :
    execInvalidateCompletion port s =
      .next (let t := ({ s with hp := { s.hp with
          invals := s.hp.invals.modify (s.hp.invals.findIdx (· == v)) (fun v => { v with sent := true }) } }).emit (.invalidated port v.itag)
        if v.step2.getD 0 + 100 * usT < s.now then t.post F.HP_EVT_STATUS_INV_LATE port else t) := by
  simp only [execInvalidateCompletion, hoff, hv, if_false, next_ite]

/-- An Invalidate Request received since the translation was asked for, at count `issued`, covers it (R141). -/
def State.xlatStale (s : State) (port fn page issued : Nat) : Bool :=
  s.hp.invals.any (fun v => v.port == port && v.fn == fn && v.lo ≤ page && page < v.lo + v.n && issued < v.at_)

/-- An answer to a function with ATS: a stale one is asked for again, any other fills the cache. -/
theorem execTranslationCompletion_of_ats (port : Nat) {fn : Nat} (page xlat issued : Nat) (hoff : s.mode ≠ .off)
    (hats : s.hp.ats.contains fn = true) :
    execTranslationCompletion port fn page xlat issued s =
      .next (if s.xlatStale port fn page issued then (s.wakeEvent 6).emit (.translate port fn page) else
        let t := (s.wakeEvent 6).fillAtc port fn page xlat
        if t.touchesBar (xlat * 4096) 4096 then ((t.hp.reads.filter (fun a => a.waitsFor port fn page)).foldl State.refuseAcc t).issueReads
        else ({ t with hp := { t.hp with
          reads := updWhere (fun a => a.waitsFor port fn page) (fun a => { a with asked := false }) t.hp.reads } }).issueReads) := by
  simp only [execTranslationCompletion, State.xlatStale, hoff, hats, decide_false, Bool.not_true, Bool.or_self, Bool.false_eq_true,
    if_false, next_ite, apply_ite State.issueReads]

/-! ### Link width, D3hot, masks and DOE -/

/-- The partner's change of width is honoured in FLIT mode, up to the width settled at training (R118, R119). -/
theorem execL0pRequest_of_flit {port : Nat} {p : Port} (width : Nat) (hp : s.hp.ports[port]? = some p)
    (hflit : (s.hasPort port && s.flag (F.HP_LINK_STATUS_FLIT port) && s.flag (F.HP_LINK_STATUS_UP port)) = true) :
    execL0pRequest port width s =
      .next (let w := min p.settled.2 (widthOf (s.flag F.HP_CFG_DUAL) width)
        (s.setFld (F.HP_LINK_STATUS_WIDTH port) w).setFld (F.HP_LINK_STATUS_L0P port) (bit (w < p.settled.2))) := by
  simp only [execL0pRequest, hp, hflit, if_true]

theorem execD3hotEntry_of_d0 {fn : Nat} (hctrl : s.qe.ctrls.any (fun c => c.id == fn) = true)
    (hd0 : s.hp.d3hot.contains fn = false) (hoff : s.mode ≠ .off) :
    execD3hotEntry fn s = .next { (s.wakeEvent 6) with hp := { (s.wakeEvent 6).hp with d3hot := fn :: s.hp.d3hot } } := by
  simp only [execD3hotEntry, hctrl, hd0, hoff, decide_false, Bool.not_true, Bool.or_self, Bool.false_eq_true, if_false]

theorem execD3hotExit_of_d3hot {fn : Nat} (hd3 : s.hp.d3hot.contains fn = true) :
    execD3hotExit fn s =
      .next ((((({ (s.wakeEvent 6) with hp := { (s.wakeEvent 6).hp with d3hot := s.hp.d3hot.filter (· != fn) } } : State).issueReads).drainFull fn).sendPending fn).settleCmds) := by
  simp only [execD3hotExit, hd3, Bool.not_true, Bool.false_eq_true, if_false]

theorem execVectorUnmask_of_live {fn : Nat} {vec : MaskWrite} (hctrl : s.qe.ctrls.any (fun c => c.id == fn) = true)
    (hbit : maskBitOf fn vec.bit = true) (hoff : s.mode ≠ .off) (hhold : s.mode ≠ .holdUp) :
    execVectorUnmask fn vec s = .next (((s.wakeEvent 6).setMask fn vec).sendPending fn) :=
  if_neg (linkGuard_open (by rw [hctrl, hbit]; rfl) hoff hhold)

/-- What an object in an idle mailbox does, by its length and its kind (R145). -/
theorem execDoeDataObject_of_idle {pf : Nat} (kind len : Nat) (hctrl : s.qe.ctrls.any (fun c => c.id == pf) = true) (hpf : pf < 2)
    (hidle : s.hp.doe.getD pf 0 = 0) (hoff : s.mode ≠ .off) :
    execDoeDataObject pf kind len s =
      .next (if 65536 < len then (s.wakeEvent 6).setDoe pf 2
        else if kind = 0 then (s.wakeEvent 6).emit (.doe pf 0)
        else if kind ≤ 2 then (s.wakeEvent 6).setDoe pf 1
        else s.wakeEvent 6) := by
  simp only [execDoeDataObject, hctrl, Nat.not_le.mpr hpf, hidle, hoff, decide_false, Bool.not_true, bne_self_eq_false, Bool.or_self,
    Bool.false_eq_true, if_false, next_ite]

theorem execPtmDisabledByHost_enables {port : Nat} (hport : s.hasPort port = true)
    (hctrl : s.qe.ctrls.any (fun c => c.id == port) = true) :
    execPtmDisabledByHost port true s = .next { s with hp := { s.hp with ptm := s.hp.ptm.filter (· != port) ++ [port] } } := by
  simp only [execPtmDisabledByHost, hport, hctrl, Bool.and_self, if_true]

end Transfers

/-- Settles O16: each transfer by the equation of its command where its guard is open; a translation by whether it is stale, a DOE
object by its length and its kind. -/
theorem hostTransfers : Obligations.HostTransfers := by
  unfold Obligations.HostTransfers
  refine ⟨?read, ?timeout, ?invalidate, ?invalidated, ?translated, ?stale, ?width, ?sleeps, ?wakes, ?unmask,
    ?doeTooLong, ?doeDiscovery, ?doeSpdm, ?doeAbort, ?doeOther, ?ptmOn, ?ptmOff⟩
  case read =>
    intro s what res hoff hhold
    exact execMemoryReadCompletion_of_live hoff hhold
  case timeout =>
    intro s what hoff hhold hlate
    exact execCompletionTimeout_of_late hoff hhold hlate
  case invalidate =>
    intro s port itag fn lo n waits hlive
    exact execInvalidateRequest_of_served itag fn lo n waits hlive
  case invalidated =>
    intro s port v hoff hv
    exact execInvalidateCompletion_of_ended hoff hv
  case translated =>
    intro s port fn page xlat issued hoff hats (hfresh : s.xlatStale port fn page issued = false)
    rw [exec_translationCompletion, execTranslationCompletion_of_ats port page xlat issued hoff hats,
      if_neg (ne_true_of_eq_false hfresh)]
  case stale =>
    intro s port fn page xlat issued hoff hats (hstale : s.xlatStale port fn page issued = true)
    rw [exec_translationCompletion, execTranslationCompletion_of_ats port page xlat issued hoff hats, if_pos hstale]
  case width =>
    intro s port width p hp hflit
    exact execL0pRequest_of_flit width hp hflit
  case sleeps =>
    intro s fn hctrl hd0 hoff
    exact execD3hotEntry_of_d0 hctrl hd0 hoff
  case wakes =>
    intro s fn hd3
    exact execD3hotExit_of_d3hot hd3
  case unmask =>
    intro s fn vec hctrl hbit hoff hhold
    exact execVectorUnmask_of_live hctrl hbit hoff hhold
  case doeTooLong =>
    intro s pf kind len hctrl hpf hidle hoff hlen
    rw [exec_doeDataObject, execDoeDataObject_of_idle kind len hctrl hpf hidle hoff, if_pos hlen]
  case doeDiscovery =>
    intro s pf kind len hctrl hpf hidle hoff hlen hkind
    rw [exec_doeDataObject, execDoeDataObject_of_idle kind len hctrl hpf hidle hoff, if_neg (Nat.not_lt.mpr hlen), if_pos hkind]
  case doeSpdm =>
    intro s pf kind len hctrl hpf hidle hoff hlen hkind
    have hnot : kind ≠ 0 := by omega
    have hspdm : kind ≤ 2 := by omega
    rw [exec_doeDataObject, execDoeDataObject_of_idle kind len hctrl hpf hidle hoff, if_neg (Nat.not_lt.mpr hlen), if_neg hnot,
      if_pos hspdm]
  case doeAbort =>
    intro s pf hpf
    exact if_pos hpf
  case doeOther =>
    intro s pf kind len hctrl hpf hidle hoff hlen hkind
    rw [exec_doeDataObject, execDoeDataObject_of_idle kind len hctrl hpf hidle hoff, if_neg (Nat.not_lt.mpr hlen),
      if_neg (Nat.ne_zero_of_lt hkind), if_neg (Nat.not_le.mpr hkind)]
  case ptmOn =>
    intro s port hport hctrl
    exact execPtmDisabledByHost_enables hport hctrl
  case ptmOff =>
    intro s port
    exact exec_ptmDisabledByHost port false s

end Sys2Proof.Machine
end

section
/-! Writes to BAR2 and its two writes of their own, the seal and the device reset, and the statement about them
(R123, R128, R636, R639 to R641, R643). -/

namespace Sys2Proof.Machine

section BarWrites

variable {s : State} {pf : Nat}

/-- Where BAR2 cannot be reached a write has no effect. -/
theorem execRegisterWrite_of_unreached {off len : Nat} {d : WriteData} (hbar : s.barReached pf = false) :
    execRegisterWrite pf off len d s = .next s := by
  simp only [execRegisterWrite, hbar, Bool.not_false, if_true]

/-- A write that reaches BAR2 is discarded and reported if poisoned, and else reaches its register (R128, R636). -/
theorem execRegisterWrite_of_reached {off len : Nat} {d : WriteData} (hbar : s.barReached pf = true) :
    execRegisterWrite pf off len d s =
      .next (if d.poison then (s.wakeEvent 6).poisonIn pf else (s.wakeEvent 6).barWrite pf off len d.value) := by
  simp only [execRegisterWrite, hbar, Bool.not_true, Bool.false_eq_true, if_false, next_ite]

theorem execDevSealWrite_of_live (hoff : s.mode ≠ .off) (hhold : s.mode ≠ .holdUp) :
    execDevSealWrite s = .next (s.wakeEvent 6).sealSet :=
  if_neg (linkGuard_open rfl hoff hhold)

/-- A physical function holds the management lock (R643). -/
def State.lockedBy (s : State) (pf : Nat) : Bool := s.mgmt.lock.isSome && s.mgmt.lock = holderOf (.host pf 0 0)

theorem execDevResetWrite_of_unreached {env : BootEnv} (hbar : s.barReached pf = false) : execDevResetWrite pf env s = .next s := by
  simp only [execDevResetWrite, hbar, Bool.not_false, if_true]

/-- A device reset that reaches BAR2 runs for the lock's holder, and is reported for anyone else. -/
theorem execDevResetWrite_of_reached {env : BootEnv} (hbar : s.barReached pf = true) :
    execDevResetWrite pf env s =
      .next (if (s.wakeEvent 6).lockedBy pf then (s.wakeEvent 6).deviceReset 1 env
        else (s.wakeEvent 6).post F.DEV_EVT_STATUS_RST_DENIED noUnit) :=
  if_neg (by rw [hbar]; decide)

end BarWrites

/-- Settles O45: a register write by whether it reaches BAR2 and is poisoned, a device reset by whether it does and its writer holds
the lock. -/
theorem registerCommands : Obligations.RegisterCommands := by
  unfold Obligations.RegisterCommands
  refine ⟨?write, ?poisoned, ?unreached, ?seals, ?reset, ?denied, ?resetUnreached⟩
  case write =>
    intro s pf off len d hbar hclean
    exact (execRegisterWrite_of_reached hbar).trans (congrArg _ (if_neg (ne_true_of_eq_false hclean)))
  case poisoned =>
    intro s pf off len d hbar hpoison
    exact (execRegisterWrite_of_reached hbar).trans (congrArg _ (if_pos hpoison))
  case unreached =>
    intro s pf off len d hbar
    exact execRegisterWrite_of_unreached hbar
  case seals =>
    intro s hoff hhold
    exact execDevSealWrite_of_live hoff hhold
  case reset =>
    intro s pf env hbar hmine
    exact (execDevResetWrite_of_reached hbar).trans (congrArg _ (if_pos hmine))
  case denied =>
    intro s pf env hbar hother
    exact (execDevResetWrite_of_reached hbar).trans (congrArg _ (if_neg (ne_true_of_eq_false hother)))
  case resetUnreached =>
    intro s pf env hbar
    exact execDevResetWrite_of_unreached hbar

end Sys2Proof.Machine
end

section
/-! How the commands of the queues begin: a command that its controller accepts does its work on the state in which it holds its
tag, and the statement about doorbell values outside their queue (R155 to R158). -/

namespace Sys2Proof.Machine

section Latch

variable {s : State} {ref : Ref} {i : Instr}

/-- A command that starts by `State.begin`, once it is accepted, does its work on the latched state. -/
theorem exec_of_begin {k : State → State} {t : State} (hi : exec i s = s.begin ref k) (hacc : s.accepts ref = true)
    (hk : k (s.latch ref) = t) : exec i s = .next t := by
  rw [hi, begin_accepted k hacc, hk]

/-- A command that asks for its acceptance itself goes on from there. -/
theorem exec_of_guard {r t : Res} (hi : exec i s = if !s.accepts ref then .next s else r) (hacc : s.accepts ref = true)
    (hr : r = t) : exec i s = t := by
  rw [hi, if_neg (by rw [hacc]; decide), hr]

end Latch

section BadDoorbells

variable {s : State} {ctrl qid value : Nat}

/-- A doorbell of a controller that is there, in a mode that serves BAR0, is reached. -/
theorem doorbellDead_of_served (hoff : s.mode ≠ .off) (hhold : s.mode ≠ .holdUp)
    (hctrl : s.qe.ctrls.any (fun c => c.id == ctrl) = true) (hqid : qid < doorbells ctrl) : s.doorbellDead ctrl qid = false := by
  simp only [State.doorbellDead, hoff, hhold, hctrl, Nat.not_le.mpr hqid, decide_false, Bool.not_true, Bool.or_false]

/-- A shadow head outside its queue is reported, and the queue's EventIdx is the head that it keeps (R157). -/
theorem headGot_of_outside {q : Cq} (hq : s.cq ctrl qid = some q) (hout : q.size ≤ value) :
    s.headGot ctrl qid value =
      (s.aenTo 65 ctrl).updCq ctrl qid (fun k => if k.isFull then { k with eventIdx := k.head } else k) := by
  unfold State.cq at hq
  simp only [State.headGot, hq, if_pos hout, State.badDoorbell, State.updCq]

/-- An asynchronous event moves no submission queue. -/
theorem aenTo_sqs (group : Nat) : (s.aenTo group ctrl).qe.sqs = s.qe.sqs := by
  unfold State.aenTo
  split
  · rfl
  · split
    · exact complete_sqs ..
    · split <;> rfl

end BadDoorbells

/-- Settles O55: a value outside the queue takes the refusing branch of each doorbell's equation, under the group of the base's
errors. -/
theorem invalidDoorbells : Obligations.InvalidDoorbells := by
  unfold Obligations.InvalidDoorbells
  refine ⟨65, ?tail, ?head, ?shadowTail, ?shadowHead, ?kept⟩
  case tail =>
    intro s ctrl qid value q hoff hhold hctrl hqid hq hout
    exact (execDoorbellWrite_tail (doorbellDead_of_served hoff hhold hctrl hqid) hq).trans (congrArg _ (if_pos hout))
  case head =>
    intro s ctrl qid value q hoff hhold hctrl hqid hq hout
    exact (execDoorbellWrite_head (doorbellDead_of_served hoff hhold hctrl hqid) hq).trans (congrArg _ (if_pos hout))
  case shadowTail =>
    intro s ctrl qid value heads k q hk hq hshadow hactive hfetches hd3 hout
    exact (execShadowTailPoll_of_active hk hq hshadow hactive hfetches hd3).trans (congrArg _ (if_pos hout))
  case shadowHead =>
    intro s ctrl qid value q hq hout
    exact headGot_of_outside hq hout
  case kept =>
    intro s group ctrl
    exact aenTo_sqs group

end Sys2Proof.Machine
end

section
/-! Get Log Page, Identify, Abort and Asynchronous Event Request, one equation per outcome of their operations, and the statement
about them (R181 to R184, R189, R512, R514). -/

namespace Sys2Proof.Machine

/-! ### Get Log Page and Identify -/

section LogPages

variable {s : State} {ref : Ref} {lid off len : Nat} {rae : Bool} {f : Fields}

/-- An offset that is not in 4-byte units or lies behind the page (R189). -/
def State.badOffset (s : State) (lid off : Nat) : Bool := off % 4 != 0 || (s.logSize lid != 0 && s.logSize lid < off)

theorem getLogPage_of_unknown (hpage : s.logPage lid ((ctrlOf ref).getD 0) (holderOf ref).isSome = none) :
    s.getLogPage ref lid off len rae = s.complete ref .invalidLogPage 0 := by
  simp only [State.getLogPage, hpage]

/-- A known page is returned, with the effects of its reading, unless the offset is bad. -/
theorem getLogPage_of_known (hpage : s.logPage lid ((ctrlOf ref).getD 0) (holderOf ref).isSome = some f) :
    s.getLogPage ref lid off len rae =
      if s.badOffset lid off then s.complete ref .invalidField 0
      else ((s.emit (.data ref 2 lid off len f)).pageRead lid (ctrlOf ref) off len rae).complete ref .success 0 := by
  simp only [State.getLogPage, hpage]
  rfl

end LogPages

/-! ### Abort (R183) -/

section Aborts

variable {s : State} {ref : Ref} {sqid cid : Nat}

/-- The Abort commands that are outstanding. -/
def State.liveAborts (s : State) : List Ref := s.qe.aborts.filter (fun r => s.qe.tags.contains r)

/-- How many of them the command's controller has. -/
def State.abortCount (s : State) (ref : Ref) : Nat := (s.liveAborts.filter (fun r => ctrlIx r == ctrlIx ref)).length

/-- One more Abort is outstanding. -/
def State.noteAbort (s : State) (ref : Ref) : State := { s with qe := { s.qe with aborts := ref :: s.liveAborts } }

theorem abort_of_limit (hfull : 4 ≤ s.abortCount ref) : s.abort ref sqid cid = s.complete ref .abortLimit 0 :=
  if_pos hfull

/-- Below the limit, an Abort that names a command in execution ends it where none of its work has reached the medium. -/
theorem abort_of_command {k : Cmd} (hroom : s.abortCount ref < 4)
    (hk : s.qe.cmds.find? (fun k => k.ref == .host (ctrlIx ref) sqid cid) = some k) :
    s.abort ref sqid cid =
      if (s.noteAbort ref).abortable k then ((s.noteAbort ref).abortCmd k).complete ref .success 0
      else (s.noteAbort ref).complete ref .success 1 := by
  refine (if_neg (Nat.not_le.mpr hroom)).trans ?_
  simp only [hk]
  rfl

/-- One that names no command in execution ends an Asynchronous Event Request, or nothing. -/
theorem abort_of_no_command (hroom : s.abortCount ref < 4)
    (hk : s.qe.cmds.find? (fun k => k.ref == .host (ctrlIx ref) sqid cid) = none) :
    s.abort ref sqid cid =
      let t := s.noteAbort ref
      if s.qe.aers.contains (ctrlIx ref, .host (ctrlIx ref) sqid cid) then
        (({ t with qe := { t.qe with aers := t.qe.aers.erase (ctrlIx ref, .host (ctrlIx ref) sqid cid) } } : State).complete
          (.host (ctrlIx ref) sqid cid) .abortRequested 0).complete ref .success 0
      else t.complete ref .success 1 := by
  refine (if_neg (Nat.not_le.mpr hroom)).trans ?_
  simp only [hk]
  rfl

end Aborts

/-! ### Asynchronous Event Request (R184, R514) -/

section Events

variable {s : State} {ref : Ref}

/-- How many requests the command's controller has outstanding. -/
def State.aerCount (s : State) (ref : Ref) : Nat := (s.qe.aers.filter (fun r => r.1 == ctrlIx ref)).length

/-- One more request is outstanding. -/
def State.noteAer (s : State) (ref : Ref) : State := { s with qe := { s.qe with aers := s.qe.aers ++ [(ctrlIx ref, ref)] } }

/-- The event of the command's controller that has waited longest in a group with none outstanding. -/
def State.waitingEvent (s : State) (ref : Ref) : Option (Nat × Nat × Nat) :=
  s.evu.aenWait.find? (fun w => w.1 == ctrlIx ref && !s.evu.aenOut.contains (ctrlIx ref, w.2.1))

theorem asyncEvent_of_limit (hfull : 16 ≤ s.aerCount ref) : s.asyncEvent ref = s.complete ref .aerLimit 0 :=
  if_pos hfull

theorem asyncEvent_of_quiet (hroom : s.aerCount ref < 16) (hnone : s.waitingEvent ref = none) :
    s.asyncEvent ref = s.noteAer ref := by
  unfold State.waitingEvent at hnone
  refine (if_neg (Nat.not_le.mpr hroom)).trans ?_
  simp only [hnone]
  rfl

theorem asyncEvent_of_waiting {w : Nat × Nat × Nat} (hroom : s.aerCount ref < 16) (hw : s.waitingEvent ref = some w) :
    s.asyncEvent ref =
      ({ s.noteAer ref with evu := { s.evu with aenWait := s.evu.aenWait.erase w } } : State).aenTo w.2.1 (ctrlIx ref) := by
  unfold State.waitingEvent at hw
  refine (if_neg (Nat.not_le.mpr hroom)).trans ?_
  simp only [hw]
  rfl

end Events

/-- Settles O19: a log page by its being known and its offset, Identify by what its CNS answers, an Abort by its count and what it
names, an event request by its count and the event that waits. -/
theorem logPagesIdentifyAbort : Obligations.LogPagesIdentifyAbort := by
  unfold Obligations.LogPagesIdentifyAbort
  refine ⟨?unknown, ?badOffset, ?page, ?healthOffset, ?health, ?identified, ?refused, ?abortLimit, ?abortCmd, ?abortEvent,
    ?abortNothing, ?aerLimit, ?quiet, ?waiting⟩
  case unknown =>
    intro s ref lid off len rae hacc hpage
    exact exec_of_guard (exec_getLogPage ..) hacc (congrArg _ (getLogPage_of_unknown hpage))
  case badOffset =>
    intro s ref lid off len rae f hacc hpage hbad
    exact exec_of_guard (exec_getLogPage ..) hacc (congrArg _ ((getLogPage_of_known hpage).trans (if_pos hbad)))
  case page =>
    intro s ref lid off len rae f hacc hpage hgood
    exact exec_of_guard (exec_getLogPage ..) hacc
      (congrArg _ ((getLogPage_of_known hpage).trans (if_neg (ne_true_of_eq_false hgood))))
  case healthOffset =>
    intro s ref off len rae f hacc hpage hbad
    exact exec_of_guard (exec_getLogPageHealth ..) hacc (congrArg _ ((getLogPage_of_known hpage).trans (if_pos hbad)))
  case health =>
    intro s ref off len rae f hacc hpage hgood
    exact exec_of_guard (exec_getLogPageHealth ..) hacc
      (congrArg _ ((getLogPage_of_known hpage).trans (if_neg (ne_true_of_eq_false hgood))))
  case identified | refused =>
    intro s ref cns nsid cntid answer hacc hans
    exact exec_of_begin (exec_identify ..) hacc (by simp only [hans])
  case abortLimit =>
    intro s ref sqid cid hacc hfull
    exact exec_of_begin (exec_abort ..) hacc (abort_of_limit hfull)
  case abortCmd =>
    intro s ref sqid cid k hacc hroom hk
    exact exec_of_begin (exec_abort ..) hacc (abort_of_command hroom hk)
  case abortEvent =>
    intro s ref sqid cid hacc hroom hk haer
    exact exec_of_begin (exec_abort ..) hacc ((abort_of_no_command hroom hk).trans (if_pos haer))
  case abortNothing =>
    intro s ref sqid cid hacc hroom hk haer
    exact exec_of_begin (exec_abort ..) hacc ((abort_of_no_command hroom hk).trans (if_neg (ne_true_of_eq_false haer)))
  case aerLimit =>
    intro s ref hacc hfull
    exact exec_of_begin (exec_asyncEventRequest ..) hacc (asyncEvent_of_limit hfull)
  case quiet =>
    intro s ref hacc hroom hnone
    exact exec_of_begin (exec_asyncEventRequest ..) hacc (asyncEvent_of_quiet hroom hnone)
  case waiting =>
    intro s ref w hacc hroom hw
    exact exec_of_begin (exec_asyncEventRequest ..) hacc (asyncEvent_of_waiting hroom hw)

end Sys2Proof.Machine
end

section
/-! Set Features of the base's features, one equation per outcome, and the statement about them (R153, R178 to R181, R191, R195,
R262, R597, R611). -/

namespace Sys2Proof.Machine

section Features

variable {s : State} {ref : Ref} {cdw11 : Nat}

/-! ### Saving -/

theorem unsaved_of_save (k : State → State) : s.unsaved ref true k = s.complete ref .featureNotSaveable 0 := if_pos rfl

theorem unsaved_of_current (k : State → State) : s.unsaved ref false k = k s := if_neg (by decide)

/-! ### Features by their identifiers -/

section Identifiers

variable {fid nsid data : Nat} {save : Bool}

/-- The features of the base that are stored for a controller as written. -/
theorem exec_setFeatures_of_stored (hacc : s.accepts ref = true)
    (hfid : fid = 0x01 ∨ fid = 0x05 ∨ fid = 0x08 ∨ fid = 0x09 ∨ fid = 0x0A ∨ fid = 0x0B ∨ fid = 0x0F) :
    exec (.setFeatures ref fid nsid cdw11 save data) s =
      .next ((s.latch ref).unsaved ref save (fun t => (t.setFeat fid (ctrlIx ref) cdw11).complete ref .success 0)) := by
  rcases hfid with rfl | rfl | rfl | rfl | rfl | rfl | rfl <;> exact exec_of_begin (exec_setFeatures ..) hacc rfl

/-- No feature of the base is saveable. -/
theorem exec_setFeatures_of_save (hacc : s.accepts ref = true)
    (hfid : fid = 0x01 ∨ fid = 0x02 ∨ fid = 0x04 ∨ fid = 0x05 ∨ fid = 0x07 ∨ fid = 0x08 ∨ fid = 0x09 ∨ fid = 0x0A ∨
      fid = 0x0B ∨ fid = 0x0F ∨ fid = 0x1D ∨ fid = 0x1E ∨ fid = 0x81 ∨ fid = 0x82 ∨ fid = 0x83) :
    exec (.setFeatures ref fid nsid cdw11 true data) s = .next ((s.latch ref).complete ref .featureNotSaveable 0) := by
  rcases hfid with rfl | rfl | rfl | rfl | rfl | rfl | rfl | rfl | rfl | rfl | rfl | rfl | rfl | rfl | rfl <;>
    exact exec_of_begin (exec_setFeatures ..) hacc (unsaved_of_save _)

/-- An identifier below the vendor's range that the drive does not list is an invalid field. -/
theorem exec_setFeatures_of_unlisted (hacc : s.accepts ref = true)
    (hfid : fid = 0x06 ∨ fid = 0x0C ∨ (fid < 0x81 ∧ 0x1E < fid)) :
    exec (.setFeatures ref fid nsid cdw11 save data) s = .next ((s.latch ref).complete ref .invalidField 0) := by
  refine exec_of_begin (exec_setFeatures ..) hacc ?_
  split
  any_goals omega
  rfl

end Identifiers

/-! ### The checks of single features -/

theorem setHostId_of_short {data : Nat} (hbits : cdw11.testBit 0 = false) :
    s.setHostId ref cdw11 data = s.complete ref .invalidField 0 :=
  if_pos (by rw [hbits]; rfl)

theorem setHostId_of_extended {data : Nat} (hbits : cdw11.testBit 0 = true) :
    s.setHostId ref cdw11 data =
      (s.updCtrl (ctrlIx ref) (fun k => { k with hostId := if data = 0 then none else some (data % 2 ^ 128) })).complete ref
        .success 0 :=
  if_neg (by rw [hbits]; decide)

/-- A power state above 4 is refused, and so is a change while the completion of an earlier one is withheld (R597). -/
theorem setPower_of_unknown (hps : 4 < cdw11 % 32) : s.setPower ref cdw11 = s.complete ref .invalidField 0 := if_pos hps

theorem setPower_of_withheld (hps : cdw11 % 32 ≤ 4) (hheld : s.qe.withheld.any (fun h => ctrlIx h.ref == ctrlIx ref) = true) :
    s.setPower ref cdw11 = s.complete ref .cmdSeqError 0 :=
  (if_neg (Nat.not_lt.mpr hps)).trans (if_pos hheld)

theorem setPower_of_free (hps : cdw11 % 32 ≤ 4) (hheld : s.qe.withheld.any (fun h => ctrlIx h.ref == ctrlIx ref) = false) :
    s.setPower ref cdw11 =
      let t := s.updCtrl (ctrlIx ref) (fun k => { k with ps := cdw11 % 32 })
      if 3 ≤ cdw11 % 32 && t.dozeWanted
      then ({ t with qe := { t.qe with withheld := t.qe.withheld ++ [(⟨ref, .success, 0⟩ : HeldCqe)] } } : State).dozeStart
      else t.psEval.complete ref .success (t.psEval.fld F.PWR_STATUS_PS) :=
  (if_neg (Nat.not_lt.mpr hps)).trans (if_neg (ne_true_of_eq_false hheld))

/-- A request of 65,536 queues, 0's based, is the base's invalid one. -/
theorem setQueues_of_all (hall : bitsOf cdw11 0 16 = 65535 ∨ bitsOf cdw11 16 16 = 65535) :
    s.setQueues ref cdw11 = s.complete ref .invalidField 0 :=
  if_pos (by simpa using hall)

/-- The controller has an I/O queue. -/
def State.hasIoQueue (s : State) (ref : Ref) : Bool :=
  s.qe.sqs.any (fun q => q.ctrl == ctrlIx ref && q.qid != 0) || s.qe.cqs.any (fun q => q.ctrl == ctrlIx ref && q.qid != 0)

/-- Another request is granted up to the controller's maximum, before its first I/O queue only (R153). -/
theorem setQueues_of_some (hsq : bitsOf cdw11 0 16 ≠ 65535) (hcq : bitsOf cdw11 16 16 ≠ 65535) :
    s.setQueues ref cdw11 =
      if s.hasIoQueue ref then s.complete ref .cmdSeqError 0
      else
        let gs := min (bitsOf cdw11 0 16 + 1) (if ctrlIx ref < 2 then 7679 else 1535)
        let gc := min (bitsOf cdw11 16 16 + 1) (if ctrlIx ref < 2 then 7679 else 1535)
        (s.updCtrl (ctrlIx ref) (fun k => { k with grantSq := gs, grantCq := gc })).complete ref .success
          (gs - 1 + 2 ^ 16 * (gc - 1)) :=
  if_neg (by simp [hsq, hcq])

end Features

/-- Settles O20: a stored feature by its identifier, every other by the first of its checks that refuses it. -/
theorem featuresPlain : Obligations.FeaturesPlain := by
  unfold Obligations.FeaturesPlain
  refine ⟨?stored, ?unsaveable, ?hostIdShort, ?hostId, ?tempBad, ?temp, ?unlisted, ?powerSave, ?powerUnknown, ?powerWithheld, ?power,
    ?queuesSave, ?queuesAll, ?queuesLate, ?queues, ?fdpSave, ?fdpLate, ?fdp⟩
  case stored =>
    intro s ref fid nsid cdw11 data hacc hfid
    rw [exec_setFeatures_of_stored hacc hfid, unsaved_of_current]
  case unsaveable =>
    intro s ref fid nsid cdw11 data hacc hfid
    exact exec_setFeatures_of_save hacc hfid
  case hostIdShort =>
    intro s ref nsid cdw11 data hacc hbits
    exact exec_of_begin (exec_setFeatures ..) hacc ((unsaved_of_current _).trans (setHostId_of_short hbits))
  case hostId =>
    intro s ref nsid cdw11 data hacc hbits
    exact exec_of_begin (exec_setFeatures ..) hacc ((unsaved_of_current _).trans (setHostId_of_extended hbits))
  case tempBad =>
    intro s ref nsid cdw11 data hacc hbad
    exact exec_of_begin (exec_setFeatures ..) hacc ((unsaved_of_current _).trans (if_pos hbad))
  case temp =>
    intro s ref nsid cdw11 data hacc hgood
    exact exec_of_begin (exec_setFeatures ..) hacc ((unsaved_of_current _).trans (if_neg (ne_true_of_eq_false hgood)))
  case unlisted =>
    intro s ref fid nsid cdw11 data save hacc hfid
    exact exec_setFeatures_of_unlisted hacc hfid
  case powerSave =>
    rintro s ref cdw11 _ hacc rfl
    exact exec_of_begin (exec_setFeaturesPowerMgmt ..) hacc (unsaved_of_save _)
  case powerUnknown =>
    intro s ref cdw11 hacc hps
    exact exec_of_begin (exec_setFeaturesPowerMgmt ..) hacc ((unsaved_of_current _).trans (setPower_of_unknown hps))
  case powerWithheld =>
    intro s ref cdw11 hacc hps hheld
    exact exec_of_begin (exec_setFeaturesPowerMgmt ..) hacc ((unsaved_of_current _).trans (setPower_of_withheld hps hheld))
  case power =>
    intro s ref cdw11 hacc hps hheld
    exact exec_of_begin (exec_setFeaturesPowerMgmt ..) hacc ((unsaved_of_current _).trans (setPower_of_free hps hheld))
  case queuesSave =>
    rintro s ref cdw11 _ hacc rfl
    exact exec_of_begin (exec_setFeaturesNumQueues ..) hacc (unsaved_of_save _)
  case queuesAll =>
    intro s ref cdw11 hacc hall
    exact exec_of_begin (exec_setFeaturesNumQueues ..) hacc ((unsaved_of_current _).trans (setQueues_of_all hall))
  case queuesLate =>
    intro s ref cdw11 hacc hsq hcq hlate
    exact exec_of_begin (exec_setFeaturesNumQueues ..) hacc
      ((unsaved_of_current _).trans ((setQueues_of_some hsq hcq).trans (if_pos hlate)))
  case queues =>
    intro s ref cdw11 hacc hsq hcq hfirst
    exact exec_of_begin (exec_setFeaturesNumQueues ..) hacc
      ((unsaved_of_current _).trans ((setQueues_of_some hsq hcq).trans (if_neg (ne_true_of_eq_false hfirst))))
  case fdpSave =>
    rintro s ref _ enable hacc rfl
    exact exec_of_begin (exec_setFeaturesFdp ..) hacc (unsaved_of_save _)
  case fdpLate =>
    intro s ref enable hacc hns
    exact exec_of_begin (exec_setFeaturesFdp ..) hacc ((unsaved_of_current _).trans (if_pos hns))
  case fdp =>
    intro s ref enable hacc hns
    exact exec_of_begin (exec_setFeaturesFdp ..) hacc ((unsaved_of_current _).trans (if_neg (ne_true_of_eq_false hns)))

end Sys2Proof.Machine
end

section
/-! Keep Alive, the directives and Doorbell Buffer Config, one equation per directive command, and the statement about them (R155,
R181, R264). -/

namespace Sys2Proof.Machine

section Directives

variable {s : State} {ref : Ref} {nsid dtype doper cdw12 : Nat}

/-- The command's controller has the namespace attached. -/
def State.nsAttached (s : State) (ref : Ref) (nsid : Nat) : Bool := (s.ns nsid).any (fun n => n.attached.contains (ctrlIx ref))

theorem directiveSend_of_unattached (hns : s.nsAttached ref nsid = false) :
    s.directiveSend ref nsid dtype doper cdw12 = s.complete ref .invalidNamespace 0 :=
  if_pos (congrArg (!·) hns)

/-- Enable Directive is taken for the Data Placement directive, which flexible data placement offers. -/
theorem directiveSend_of_attached (hns : s.nsAttached ref nsid = true) :
    s.directiveSend ref nsid dtype doper cdw12 =
      if dtype != 0 || doper != 1 || bitsOf cdw12 8 8 != 2 || (cdw12.testBit 0 && !s.map.fdp) then s.complete ref .invalidField 0
      else
        let rest := s.qe.dirs.filter (fun d => !(d.1 == ctrlIx ref && d.2 == nsid))
        ({ s with qe := { s.qe with dirs := if cdw12.testBit 0 then (ctrlIx ref, nsid) :: rest else rest } } : State).complete ref
          .success 0 :=
  if_neg (ne_true_of_eq_false (congrArg (!·) hns))

theorem directiveReceive_of_unattached (hns : s.nsAttached ref nsid = false) :
    s.directiveReceive ref nsid dtype doper = s.complete ref .invalidNamespace 0 :=
  if_pos (congrArg (!·) hns)

/-- Return Parameters shows what is supported and what is enabled. -/
theorem directiveReceive_of_attached (hns : s.nsAttached ref nsid = true) :
    s.directiveReceive ref nsid dtype doper =
      if dtype != 0 || doper != 1 then s.complete ref .invalidField 0
      else (s.emit (.data ref 0x1A 0 0 4096 [(0, 32, 1 + 4 * bit s.map.fdp),
        (32, 32, 1 + 4 * bit (s.qe.dirs.contains (ctrlIx ref, nsid)))])).complete ref .success 0 :=
  if_neg (ne_true_of_eq_false (congrArg (!·) hns))

end Directives

/-- Settles O23: Keep Alive has one outcome; a directive goes by its namespace and then its fields, Doorbell Buffer Config by the
alignment of its pages. -/
theorem adminSmall : Obligations.AdminSmall := by
  unfold Obligations.AdminSmall
  refine ⟨?keepAlive, ?sendUnattached, ?sendBad, ?send, ?receiveUnattached, ?receiveBad, ?receive, ?misaligned, ?shadowed⟩
  case keepAlive =>
    intro s ref hacc
    exact exec_of_begin (exec_keepAlive ..) hacc rfl
  case sendUnattached =>
    intro s ref nsid dtype doper cdw12 hacc hns
    exact exec_of_begin (exec_directiveSend ..) hacc (directiveSend_of_unattached hns)
  case sendBad =>
    intro s ref nsid dtype doper cdw12 hacc hns hbad
    exact exec_of_begin (exec_directiveSend ..) hacc ((directiveSend_of_attached hns).trans (if_pos hbad))
  case send =>
    intro s ref nsid dtype doper cdw12 hacc hns hgood
    exact exec_of_begin (exec_directiveSend ..) hacc
      ((directiveSend_of_attached hns).trans (if_neg (ne_true_of_eq_false hgood)))
  case receiveUnattached =>
    intro s ref nsid dtype doper hacc hns
    exact exec_of_begin (exec_directiveReceive ..) hacc (directiveReceive_of_unattached hns)
  case receiveBad =>
    intro s ref nsid dtype doper hacc hns hbad
    exact exec_of_begin (exec_directiveReceive ..) hacc ((directiveReceive_of_attached hns).trans (if_pos hbad))
  case receive =>
    intro s ref nsid dtype doper hacc hns hgood
    exact exec_of_begin (exec_directiveReceive ..) hacc
      ((directiveReceive_of_attached hns).trans (if_neg (ne_true_of_eq_false hgood)))
  case misaligned =>
    intro s ref prp1 prp2 hacc hbad
    exact exec_of_begin (exec_doorbellBufferConfig ..) hacc (if_pos hbad)
  case shadowed =>
    intro s ref prp1 prp2 hacc hgood
    exact exec_of_begin (exec_doorbellBufferConfig ..) hacc (if_neg (ne_true_of_eq_false hgood))

end Sys2Proof.Machine
end

section
/-! Namespace Management and Attachment, Format NVM and Sanitize, by the conditions that refuse them in their order, and the
statement about them (R181, R203, R234 to R236, R263, R279 to R281, R310, R313). -/

namespace Sys2Proof.Machine

/-! ### Who may send them, and when -/

section PfCommands

variable {s t : State} {ref : Ref} {i : Instr} {k : State → State}

/-- A command of the PFs and the management port is unknown to a VF (R181). -/
theorem pfCommand_of_vf (hi : exec i s = s.pfOnly ref k) (hacc : s.accepts ref = true) (hvf : fromVf ref = true) :
    exec i s = .next ((s.latch ref).complete ref .invalidOpcode 0) := by
  rw [hi, State.pfOnly, begin_accepted _ hacc, if_pos hvf]

/-- A running sanitize stops it (R281). -/
theorem pfCommand_of_sanitizing (hi : exec i s = s.pfOnly ref (fun t => t.notSanitizing ref k)) (hacc : s.accepts ref = true)
    (hpf : fromVf ref = false) (hactive : (s.latch ref).map.sanitize.active ≠ 0) :
    exec i s = .next ((s.latch ref).complete ref .sanitizeInProgress 0) := by
  rw [hi, State.pfOnly, begin_accepted _ hacc, if_neg (ne_true_of_eq_false hpf), State.notSanitizing,
    if_pos (bne_iff_ne.mpr hactive)]

/-- Otherwise it does its work `k`. -/
theorem pfCommand_of_idle (hi : exec i s = s.pfOnly ref (fun t => t.notSanitizing ref k)) (hacc : s.accepts ref = true)
    (hpf : fromVf ref = false) (hidle : (s.latch ref).map.sanitize.active = 0) (hk : k (s.latch ref) = t) : exec i s = .next t := by
  rw [hi, State.pfOnly, begin_accepted _ hacc, if_neg (ne_true_of_eq_false hpf), State.notSanitizing,
    if_neg (by rw [hidle]; decide), hk]

end PfCommands

/-! ### Creating a namespace (R203, R235, R263) -/

section Create

variable {s : State} {ref : Ref} {blocks lbaf : Nat} {handles : List Nat}

/-- The namespace that a create forms, before it has its key. -/
def State.newNs (s : State) (blocks lbaf : Nat) (handles : List Nat) : Ns :=
  { nsid := s.freeNsid, blocks := blocks, lbaf := lbaf, handles := if handles.isEmpty then [0] else handles, born := s.now }

/-- It has no blocks, or names a handle that the drive does not have. -/
def State.createFieldsBad (s : State) (blocks : Nat) (handles : List Nat) : Bool :=
  blocks = 0 || handles.any (fun h => s.fld F.MAP_WP_CFG_HANDLES ≤ h)

/-- The drive with a new namespace, its key in a slot and in the key table. -/
def State.addNs (s : State) (n : Ns) (slot : Nat) : State :=
  { s with
    qe := { s.qe with nss := s.qe.nss ++ [{ n with key := some slot }] }
    ink := { s.ink with keys := ⟨slot, s.fol.nextKey⟩ :: s.ink.keys }
    fol := { s.fol with
      nextKey := s.fol.nextKey + 1
      keyTab := (n.nsid, s.fol.nextKey) :: s.fol.keyTab.filter (fun e => e.1 != n.nsid) } }

theorem nsCreate_of_retired (hlc : s.lifecycle = 5) : s.nsCreate ref blocks lbaf handles = s.complete ref .cmdSeqError 0 :=
  if_pos hlc

theorem nsCreate_of_format (hlc : s.lifecycle ≠ 5) (hlbaf : 2 < lbaf) :
    s.nsCreate ref blocks lbaf handles = s.complete ref .invalidFormat 0 :=
  (if_neg hlc).trans (if_pos hlbaf)

theorem nsCreate_of_fields (hlc : s.lifecycle ≠ 5) (hlbaf : lbaf ≤ 2) (hbad : s.createFieldsBad blocks handles = true) :
    s.nsCreate ref blocks lbaf handles = s.complete ref .invalidField 0 :=
  (if_neg hlc).trans ((if_neg (Nat.not_lt.mpr hlbaf)).trans (if_pos hbad))

/-- What a create with good fields comes to: the free NSIDs, the free key slots and then the capacity decide. -/
def State.placeNs (s : State) (ref : Ref) (n : Ns) : State :=
  if s.freeNsids = 0 then s.complete ref .nsIdUnavailable 0
  else
    match s.freeSlots 1 with
    | [] => (s.post F.INK_EVT_STATUS_KEY_FULL noUnit).complete ref .nsIdUnavailable 0
    | slot :: _ =>
      if s.capacityIus < s.neededIus + ceilDiv (n.blocks * n.blkSectors) s.iuSectors then
        s.complete ref .nsInsufficientCapacity 0
      else (s.addNs n slot).folio { job := .keys false, erase := true, ref := some ref, dw0 := n.nsid }

theorem nsCreate_of_good_fields (hlc : s.lifecycle ≠ 5) (hlbaf : lbaf ≤ 2) (hgood : s.createFieldsBad blocks handles = false) :
    s.nsCreate ref blocks lbaf handles = s.placeNs ref (s.newNs blocks lbaf handles) := by
  unfold State.createFieldsBad at hgood
  simp only [State.nsCreate, State.placeNs, if_neg hlc, if_neg (Nat.not_lt.mpr hlbaf), hgood, Bool.false_eq_true, if_false]
  cases s.freeSlots 1 <;> rfl

theorem placeNs_of_no_nsid {n : Ns} (hids : s.freeNsids = 0) : s.placeNs ref n = s.complete ref .nsIdUnavailable 0 :=
  if_pos hids

theorem placeNs_of_no_slot {n : Ns} (hids : s.freeNsids ≠ 0) (hslots : s.freeSlots 1 = []) :
    s.placeNs ref n = (s.post F.INK_EVT_STATUS_KEY_FULL noUnit).complete ref .nsIdUnavailable 0 := by
  simp only [State.placeNs, if_neg hids, hslots]

theorem placeNs_of_slot {n : Ns} {slot : Nat} {more : List Nat} (hids : s.freeNsids ≠ 0) (hslots : s.freeSlots 1 = slot :: more) :
    s.placeNs ref n =
      if s.capacityIus < s.neededIus + ceilDiv (n.blocks * n.blkSectors) s.iuSectors then s.complete ref .nsInsufficientCapacity 0
      else (s.addNs n slot).folio { job := .keys false, erase := true, ref := some ref, dw0 := n.nsid } := by
  simp only [State.placeNs, if_neg hids, hslots]

end Create

/-! ### Attachment (R181) -/

section Attach

variable {s : State} {ref : Ref} {on : Bool} {nsid : Nat} {ctrls : List Nat} {n : Ns}

/-- The controllers named hear of their namespace, and its change is in their log (R189). -/
def State.tellAttached (s : State) (ref : Ref) (nsid : Nat) (ctrls : List Nat) : State :=
  let new := (ctrls.map (fun c => (c, nsid))).filter (fun e => !s.qe.nsLog.contains e)
  (ctrls.foldl (fun (s : State) c => if (s.ctrl c).any (fun k => k.en) then s.aenTo 64 c else s)
    ({ s with qe := { s.qe with nsLog := s.qe.nsLog ++ new.eraseDups } } : State)).complete ref .success 0

theorem attach_of_absent (hn : s.ns nsid = none) : s.attach ref on nsid ctrls = s.complete ref .invalidNamespace 0 := by
  simp only [State.attach, hn]

/-- The checks of an attachment to a namespace that is there, in their order. -/
theorem attach_of_present (hn : s.ns nsid = some n) :
    s.attach ref on nsid ctrls =
      if ctrls.isEmpty || ctrls.any (fun c => (s.ctrl c).isNone) then s.complete ref .controllerListInvalid 0
      else if on && ctrls.any n.attached.contains then s.complete ref .nsAlreadyAttached 0
      else if !on && ctrls.any (fun c => !n.attached.contains c) then s.complete ref .nsNotAttached 0
      else (s.updNs nsid (fun n => { n with
        attached := if on then n.attached ++ ctrls.eraseDups else n.attached.filter (fun c => !ctrls.contains c) })).tellAttached
          ref nsid ctrls := by
  simp only [State.attach, hn]
  rfl

end Attach

/-! ### Format (R181, R234, R310) -/

section Format

variable {s : State} {ref : Ref} {nsid lbaf ses : Nat}

/-- The namespaces that a Format names: 0xFFFFFFFF names every one that is no snapshot. -/
def State.formatted (s : State) (nsid : Nat) : List Ns :=
  s.qe.nss.filter (fun n => (nsid == 0xFFFFFFFF && n.cut.isNone) || n.nsid == nsid)

/-- The checks of a Format whose format and secure erase are supported, in their order. -/
theorem format_of_supported (hlbaf : lbaf ≤ 2) (hses : ses ≤ 2) :
    s.format ref nsid lbaf ses =
      if (s.formatted nsid).isEmpty && nsid != 0xFFFFFFFF then s.complete ref .invalidNamespace 0
      else if (s.formatted nsid).any (fun n => n.cut.isSome) then s.complete ref .writeProtected 0
      else if s.qe.cmds.any (fun c => (s.formatted nsid).any (fun n => n.nsid == c.nsid)) then s.complete ref .cmdSeqError 0
      else
        let t := (s.formatted nsid).foldl (fun (s : State) n => s.formatNs lbaf ses n) s
        if ses = 0 || (s.formatted nsid).isEmpty then t.complete ref .success 0
        else t.folio { job := .keys false, erase := true, ref := some ref } :=
  (if_neg (Nat.not_lt.mpr hlbaf)).trans (if_neg (Nat.not_lt.mpr hses))

end Format

/-- Settles O22: each command by its sender, the running sanitize, and then the first of its own conditions that refuses it. -/
theorem namespacesAndFormat : Obligations.NamespacesAndFormat := by
  unfold Obligations.NamespacesAndFormat
  refine ⟨?manageVf, ?manageBusy, ?attachVf, ?attachBusy, ?formatVf, ?formatBusy, ?blockVf, ?blockBusy, ?cryptoVf, ?cryptoBusy,
    ?exitVf, ?exitBusy, ?createRetired, ?createFormat, ?createFields, ?createNoNsid, ?createNoSlot, ?createFull, ?create,
    ?deleteNone, ?delete, ?attachSel, ?attachAbsent, ?attachList, ?attachTwice, ?detachNone, ?attach, ?formatLbaf, ?formatSes,
    ?formatNone, ?formatSnapshot, ?formatInUse, ?format, ?block, ?crypto, ?exitNoFailure, ?exitRefused, ?exit, ?unsupported⟩
  case manageVf =>
    intro s ref sel nsid blocks lbaf handles hacc hvf
    exact pfCommand_of_vf (exec_namespaceManagement ..) hacc hvf
  case manageBusy =>
    intro s ref sel nsid blocks lbaf handles hacc hpf hactive
    exact pfCommand_of_sanitizing (exec_namespaceManagement ..) hacc hpf hactive
  case attachVf =>
    intro s ref sel nsid ctrls hacc hvf
    exact pfCommand_of_vf (exec_namespaceAttachment ..) hacc hvf
  case attachBusy =>
    intro s ref sel nsid ctrls hacc hpf hactive
    exact pfCommand_of_sanitizing (exec_namespaceAttachment ..) hacc hpf hactive
  case formatVf =>
    intro s ref nsid lbaf ses hacc hvf
    exact pfCommand_of_vf (exec_formatNvm ..) hacc hvf
  case formatBusy =>
    intro s ref nsid lbaf ses hacc hpf hactive
    exact pfCommand_of_sanitizing (exec_formatNvm ..) hacc hpf hactive
  case blockVf =>
    intro s ref ause hacc hvf
    exact pfCommand_of_vf (exec_sanitizeBlockErase ..) hacc hvf
  case blockBusy =>
    intro s ref ause hacc hpf hactive
    exact pfCommand_of_sanitizing (exec_sanitizeBlockErase ..) hacc hpf hactive
  case cryptoVf =>
    intro s ref ause hacc hvf
    exact pfCommand_of_vf (exec_sanitizeCryptoErase ..) hacc hvf
  case cryptoBusy =>
    intro s ref ause hacc hpf hactive
    exact pfCommand_of_sanitizing (exec_sanitizeCryptoErase ..) hacc hpf hactive
  case exitVf =>
    intro s ref sanact ause hacc hvf
    exact pfCommand_of_vf (exec_sanitizeExitFailure ..) hacc hvf
  case exitBusy =>
    intro s ref sanact ause hacc hpf hactive
    exact pfCommand_of_sanitizing (exec_sanitizeExitFailure ..) hacc hpf hactive
  case createRetired =>
    intro s ref nsid blocks lbaf handles hacc hpf hidle hlc
    exact pfCommand_of_idle (exec_namespaceManagement ..) hacc hpf hidle (nsCreate_of_retired hlc)
  case createFormat =>
    intro s ref nsid blocks lbaf handles hacc hpf hidle hlc hlbaf
    exact pfCommand_of_idle (exec_namespaceManagement ..) hacc hpf hidle (nsCreate_of_format hlc hlbaf)
  case createFields =>
    intro s ref nsid blocks lbaf handles hacc hpf hidle hlc hlbaf hbad
    exact pfCommand_of_idle (exec_namespaceManagement ..) hacc hpf hidle (nsCreate_of_fields hlc hlbaf hbad)
  case createNoNsid =>
    intro s ref nsid blocks lbaf handles hacc hpf hidle hlc hlbaf hgood hids
    exact pfCommand_of_idle (exec_namespaceManagement ..) hacc hpf hidle
      ((nsCreate_of_good_fields hlc hlbaf hgood).trans (placeNs_of_no_nsid hids))
  case createNoSlot =>
    intro s ref nsid blocks lbaf handles hacc hpf hidle hlc hlbaf hgood hids hslots
    exact pfCommand_of_idle (exec_namespaceManagement ..) hacc hpf hidle
      ((nsCreate_of_good_fields hlc hlbaf hgood).trans (placeNs_of_no_slot hids hslots))
  case createFull =>
    intro s ref nsid blocks lbaf handles slot more hacc hpf hidle hlc hlbaf hgood hids hslots hfull
    exact pfCommand_of_idle (exec_namespaceManagement ..) hacc hpf hidle
      ((nsCreate_of_good_fields hlc hlbaf hgood).trans ((placeNs_of_slot hids hslots).trans (if_pos hfull)))
  case create =>
    intro s ref nsid blocks lbaf handles slot more hacc hpf hidle hlc hlbaf hgood hids hslots hfits
    exact pfCommand_of_idle (exec_namespaceManagement ..) hacc hpf hidle
      ((nsCreate_of_good_fields hlc hlbaf hgood).trans ((placeNs_of_slot hids hslots).trans (if_neg (Nat.not_lt.mpr hfits))))
  case deleteNone =>
    intro s ref nsid blocks lbaf handles hacc hpf hidle hnone
    exact pfCommand_of_idle (exec_namespaceManagement ..) hacc hpf hidle (if_pos hnone)
  case delete =>
    intro s ref nsid blocks lbaf handles hacc hpf hidle hsome
    exact pfCommand_of_idle (exec_namespaceManagement ..) hacc hpf hidle (if_neg (ne_true_of_eq_false hsome))
  case attachSel =>
    intro s ref sel nsid ctrls hacc hpf hidle hsel
    exact pfCommand_of_idle (exec_namespaceAttachment ..) hacc hpf hidle (if_pos hsel)
  case attachAbsent =>
    intro s ref sel nsid ctrls hacc hpf hidle hsel hn
    exact pfCommand_of_idle (exec_namespaceAttachment ..) hacc hpf hidle
      ((if_neg (Nat.not_lt.mpr hsel)).trans (attach_of_absent hn))
  case attachList =>
    intro s ref sel nsid ctrls n hacc hpf hidle hsel hn hlist
    exact pfCommand_of_idle (exec_namespaceAttachment ..) hacc hpf hidle
      ((if_neg (Nat.not_lt.mpr hsel)).trans ((attach_of_present hn).trans (if_pos hlist)))
  case attachTwice =>
    intro s ref sel nsid ctrls n hacc hpf hidle hsel hn hlist htwice
    exact pfCommand_of_idle (exec_namespaceAttachment ..) hacc hpf hidle
      ((if_neg (Nat.not_lt.mpr hsel)).trans ((attach_of_present hn).trans
        ((if_neg (ne_true_of_eq_false hlist)).trans (if_pos htwice))))
  case detachNone =>
    intro s ref sel nsid ctrls n hacc hpf hidle hsel hn hlist htwice hnone
    exact pfCommand_of_idle (exec_namespaceAttachment ..) hacc hpf hidle
      ((if_neg (Nat.not_lt.mpr hsel)).trans ((attach_of_present hn).trans
        ((if_neg (ne_true_of_eq_false hlist)).trans ((if_neg (ne_true_of_eq_false htwice)).trans (if_pos hnone)))))
  case attach =>
    intro s ref sel nsid ctrls n hacc hpf hidle hsel hn hlist htwice hnone
    exact pfCommand_of_idle (exec_namespaceAttachment ..) hacc hpf hidle
      ((if_neg (Nat.not_lt.mpr hsel)).trans ((attach_of_present hn).trans
        ((if_neg (ne_true_of_eq_false hlist)).trans ((if_neg (ne_true_of_eq_false htwice)).trans
          (if_neg (ne_true_of_eq_false hnone))))))
  case formatLbaf =>
    intro s ref nsid lbaf ses hacc hpf hidle hlbaf
    exact pfCommand_of_idle (exec_formatNvm ..) hacc hpf hidle (if_pos hlbaf)
  case formatSes =>
    intro s ref nsid lbaf ses hacc hpf hidle hlbaf hses
    exact pfCommand_of_idle (exec_formatNvm ..) hacc hpf hidle ((if_neg (Nat.not_lt.mpr hlbaf)).trans (if_pos hses))
  case formatNone =>
    intro s ref nsid lbaf ses hacc hpf hidle hlbaf hses hnone
    exact pfCommand_of_idle (exec_formatNvm ..) hacc hpf hidle ((format_of_supported hlbaf hses).trans (if_pos hnone))
  case formatSnapshot =>
    intro s ref nsid lbaf ses hacc hpf hidle hlbaf hses hsome hcut
    exact pfCommand_of_idle (exec_formatNvm ..) hacc hpf hidle
      ((format_of_supported hlbaf hses).trans ((if_neg (ne_true_of_eq_false hsome)).trans (if_pos hcut)))
  case formatInUse =>
    intro s ref nsid lbaf ses hacc hpf hidle hlbaf hses hsome hcut hused
    exact pfCommand_of_idle (exec_formatNvm ..) hacc hpf hidle
      ((format_of_supported hlbaf hses).trans ((if_neg (ne_true_of_eq_false hsome)).trans
        ((if_neg (ne_true_of_eq_false hcut)).trans (if_pos hused))))
  case format =>
    intro s ref nsid lbaf ses hacc hpf hidle hlbaf hses hsome hcut hused
    exact pfCommand_of_idle (exec_formatNvm ..) hacc hpf hidle
      ((format_of_supported hlbaf hses).trans ((if_neg (ne_true_of_eq_false hsome)).trans
        ((if_neg (ne_true_of_eq_false hcut)).trans (if_neg (ne_true_of_eq_false hused)))))
  case block =>
    intro s ref ause hacc hpf hidle
    exact pfCommand_of_idle (exec_sanitizeBlockErase ..) hacc hpf hidle rfl
  case crypto =>
    intro s ref ause hacc hpf hidle
    exact pfCommand_of_idle (exec_sanitizeCryptoErase ..) hacc hpf hidle rfl
  case exitNoFailure =>
    intro s ref ause hacc hpf hidle hfailed
    exact pfCommand_of_idle (exec_sanitizeExitFailure ..) hacc hpf hidle (if_pos (congrArg (!·) hfailed))
  case exitRefused =>
    intro s ref ause hacc hpf hidle hfailed hause
    exact pfCommand_of_idle (exec_sanitizeExitFailure ..) hacc hpf hidle
      ((if_neg (ne_true_of_eq_false (congrArg (!·) hfailed))).trans (if_pos (congrArg (!·) hause)))
  case exit =>
    intro s ref ause hacc hpf hidle hfailed hause
    exact pfCommand_of_idle (exec_sanitizeExitFailure ..) hacc hpf hidle
      ((if_neg (ne_true_of_eq_false (congrArg (!·) hfailed))).trans (if_neg (ne_true_of_eq_false (congrArg (!·) hause))))
  case unsupported =>
    intro s ref sanact ause hacc hpf hidle hsanact
    refine pfCommand_of_idle (exec_sanitizeExitFailure ..) hacc hpf hidle ?_
    split
    any_goals omega
    rfl

end Sys2Proof.Machine
end

section
/-! Firmware Image Download and Firmware Commit, one equation per outcome of a commit, and the statement about them (R185, R186,
R572 to R577). -/

namespace Sys2Proof.Machine

section Firmware

variable {s : State} {ref : Ref} {i : Instr}

/-- The override FORCE falls with every commit that is checked (R577). -/
def State.dropForce (s : State) : State := { s with bxl := { s.bxl with force := false } }

/-! ### Download (R572) -/

/-- The pieces lie outside the staging, or are not whole. -/
def downloadBad (offset length : Nat) : Bool :=
  offset % 65536 != 0 || length % 65536 != 0 || length = 0 || 33554432 < offset + length

/-- The staging takes the pieces one by one. -/
def State.stagePieces (s : State) (offset length : Nat) (chunks : List (Nat × PkgChunk)) : State :=
  { s with bxl := { s.bxl with
    staging := (List.range (length / 65536)).foldl (stagePiece chunks (offset / 65536)) s.bxl.staging } }

/-- A PF's download goes into the staging, unless its pieces are bad. -/
theorem exec_firmwareImageDownload_of_pf {offset length : Nat} {chunks : List (Nat × PkgChunk)} (hacc : s.accepts ref = true)
    (hpf : (holderOf ref).isNone = false) :
    exec (.firmwareImageDownload ref offset length chunks) s =
      if downloadBad offset length then .next ((s.latch ref).complete ref .invalidField 0)
      else .next (((s.latch ref).stagePieces offset length chunks).complete ref .success 0) :=
  exec_of_guard (exec_firmwareImageDownload ..) hacc (if_neg (ne_true_of_eq_false hpf))

/-! ### A commit of the staged package (R185, R186, R573 to R576) -/

section Commit

variable {action slot : Nat}

theorem firmwareCommit_of_vf (hi : exec i s = s.firmwareCommit ref action slot) (hacc : s.accepts ref = true)
    (hvf : (holderOf ref).isNone = true) : exec i s = .next ((s.latch ref).complete ref .invalidOpcode 0) :=
  exec_of_guard hi hacc (if_pos hvf)

theorem firmwareCommit_of_slot (hi : exec i s = s.firmwareCommit ref action slot) (hacc : s.accepts ref = true)
    (hpf : (holderOf ref).isNone = false) (hslot : slot ≠ 2) :
    exec i s = .next ((s.latch ref).dropForce.complete ref .invalidFwSlot 0) :=
  exec_of_guard hi hacc ((if_neg (ne_true_of_eq_false hpf)).trans (if_pos (bne_iff_ne.mpr hslot)))

/-- A commit into slot 2 comes to its package. -/
theorem firmwareCommit_of_package {t : State} (hi : exec i s = s.firmwareCommit ref action 2) (hacc : s.accepts ref = true)
    (hpf : (holderOf ref).isNone = false) (hpkg : (s.latch ref).commitPackage (some ref) action = t) : exec i s = .next t :=
  exec_of_guard hi hacc ((if_neg (ne_true_of_eq_false hpf)).trans ((if_neg (by decide)).trans (congrArg _ hpkg)))

theorem commitPackage_of_refused {reason : Nat}
    (hrefused : s.commitRefusal (some ref) (s.bootServes (some ref) action) ((s.bxl.staging.manifest.map (fun m => m.svn)).getD 0) =
      some reason) :
    s.commitPackage (some ref) action = (s.dropForce.noteRefusal reason).complete ref .updateRefused reason := by
  simp only [State.commitPackage, hrefused, State.dropForce]

/-- A package with a manifest that no reason refuses starts where it verifies, and fails otherwise. -/
theorem commitPackage_of_manifest {m : Manifest} (hm : s.bxl.staging.manifest = some m)
    (hserved : s.commitRefusal (some ref) (s.bootServes (some ref) action) m.svn = none) :
    s.commitPackage (some ref) action =
      if s.packageOk action s.bxl.staging then s.dropForce.startCommit { ref := some ref, action := action, manifest := m }
      else s.dropForce.complete ref .invalidFwImage 0 := by
  simp only [State.commitPackage, hm, Option.map_some, Option.getD_some, hserved, State.dropForce]

theorem commitPackage_of_no_manifest (hm : s.bxl.staging.manifest = none)
    (hserved : s.commitRefusal (some ref) (s.bootServes (some ref) action) 0 = none) :
    s.commitPackage (some ref) action = s.dropForce.complete ref .invalidFwImage 0 := by
  simp only [State.commitPackage, hm, Option.map_none, Option.getD_none, hserved, State.dropForce]

end Commit

/-! ### Making a slot pending (R575 to R577) -/

/-- The slots that an activation may name pass its check. -/
theorem slotChoice_good {slot : Nat} (hslot : slot = 2 ∨ slot = 3) : (slot != 2 && slot != 3) = false := by
  rcases hslot with rfl | rfl <;> rfl

section Activate

variable {action slot : Nat} (hacc : s.accepts ref = true) (hpf : (holderOf ref).isNone = false)
include hacc hpf

theorem exec_firmwareCommitSlotActivate_of_action (haction : action ≠ 2) :
    exec (.firmwareCommitSlotActivate ref action slot) s = .next ((s.latch ref).dropForce.complete ref .invalidField 0) :=
  exec_of_guard (exec_firmwareCommitSlotActivate ..) hacc
    ((if_neg (ne_true_of_eq_false hpf)).trans (if_pos (bne_iff_ne.mpr haction)))

theorem exec_firmwareCommitSlotActivate_of_slot (h2 : slot ≠ 2) (h3 : slot ≠ 3) :
    exec (.firmwareCommitSlotActivate ref 2 slot) s = .next ((s.latch ref).dropForce.complete ref .invalidFwSlot 0) :=
  exec_of_guard (exec_firmwareCommitSlotActivate ..) hacc
    ((if_neg (ne_true_of_eq_false hpf)).trans ((if_neg (by decide)).trans (if_pos (by simp [h2, h3]))))

theorem exec_firmwareCommitSlotActivate_of_refused {reason : Nat} (hslot : slot = 2 ∨ slot = 3)
    (hrefused : (s.latch ref).commitRefusal (some ref) false 0 = some reason) :
    exec (.firmwareCommitSlotActivate ref 2 slot) s =
      .next (((s.latch ref).dropForce.noteRefusal reason).complete ref .updateRefused reason) := by
  refine exec_of_guard (exec_firmwareCommitSlotActivate ..) hacc
    ((if_neg (ne_true_of_eq_false hpf)).trans
      ((if_neg (by decide)).trans ((if_neg (ne_true_of_eq_false (slotChoice_good hslot))).trans ?_)))
  simp only [hrefused]
  rfl

/-- A slot whose image is accepted becomes pending in the slot record. -/
theorem exec_firmwareCommitSlotActivate_of_served (hslot : slot = 2 ∨ slot = 3)
    (hserved : (s.latch ref).commitRefusal (some ref) false 0 = none) :
    exec (.firmwareCommitSlotActivate ref 2 slot) s =
      if !(s.latch ref).dropForce.slotAccepted ((s.latch ref).dropForce.slot slot) then
        .next ((s.latch ref).dropForce.complete ref .invalidFwImage 0)
      else .next (((s.latch ref).dropForce.lockFor ref).slotRecord
        (fun r => { r with pending := slot, tried := false, confirmed := false }) (some ref)) := by
  refine exec_of_guard (exec_firmwareCommitSlotActivate ..) hacc
    ((if_neg (ne_true_of_eq_false hpf)).trans
      ((if_neg (by decide)).trans ((if_neg (ne_true_of_eq_false (slotChoice_good hslot))).trans ?_)))
  simp only [hserved]
  rfl

end Activate

end Firmware

/-- Settles O24: a download by its sender and its pieces; a commit by its sender, its slot, the reasons that refuse it, and the
verification of its package or of its slot's image. -/
theorem firmwareCommands : Obligations.FirmwareCommands := by
  unfold Obligations.FirmwareCommands
  refine ⟨?downloadVf, ?downloadBad, ?download, ?storeVf, ?storeSlot, ?storeRefused, ?store, ?storeFails, ?storeEmpty,
    ?activateVf, ?activateSlot, ?activateRefused, ?activate, ?activateFails, ?activateEmpty,
    ?slotVf, ?slotAction, ?slotSlot, ?slotRefused, ?slotFails, ?slot⟩
  case downloadVf =>
    intro s ref offset length chunks hacc hvf
    exact exec_of_guard (exec_firmwareImageDownload ..) hacc (if_pos hvf)
  case downloadBad =>
    intro s ref offset length chunks hacc hpf hbad
    exact (exec_firmwareImageDownload_of_pf hacc hpf).trans (if_pos hbad)
  case download =>
    intro s ref offset length chunks hacc hpf hgood
    exact (exec_firmwareImageDownload_of_pf hacc hpf).trans (if_neg (ne_true_of_eq_false hgood))
  case storeVf =>
    intro s ref slot hacc hvf
    exact firmwareCommit_of_vf (exec_firmwareCommitStore ..) hacc hvf
  case storeSlot =>
    intro s ref slot hacc hpf hslot
    exact firmwareCommit_of_slot (exec_firmwareCommitStore ..) hacc hpf hslot
  case storeRefused =>
    intro s ref reason hacc hpf hrefused
    exact firmwareCommit_of_package (exec_firmwareCommitStore ..) hacc hpf (commitPackage_of_refused hrefused)
  case store =>
    intro s ref m hacc hpf hserved hm hok
    exact firmwareCommit_of_package (exec_firmwareCommitStore ..) hacc hpf
      ((commitPackage_of_manifest hm hserved).trans (if_pos hok))
  case storeFails =>
    intro s ref m hacc hpf hserved hm hbad
    exact firmwareCommit_of_package (exec_firmwareCommitStore ..) hacc hpf
      ((commitPackage_of_manifest hm hserved).trans (if_neg (ne_true_of_eq_false hbad)))
  case storeEmpty =>
    intro s ref hacc hpf hserved hm
    exact firmwareCommit_of_package (exec_firmwareCommitStore ..) hacc hpf (commitPackage_of_no_manifest hm hserved)
  case activateVf =>
    intro s ref slot hacc hvf
    exact firmwareCommit_of_vf (exec_firmwareCommitActivate ..) hacc hvf
  case activateSlot =>
    intro s ref slot hacc hpf hslot
    exact firmwareCommit_of_slot (exec_firmwareCommitActivate ..) hacc hpf hslot
  case activateRefused =>
    intro s ref reason hacc hpf hrefused
    exact firmwareCommit_of_package (exec_firmwareCommitActivate ..) hacc hpf (commitPackage_of_refused hrefused)
  case activate =>
    intro s ref m hacc hpf hserved hm hok
    exact firmwareCommit_of_package (exec_firmwareCommitActivate ..) hacc hpf
      ((commitPackage_of_manifest hm hserved).trans (if_pos hok))
  case activateFails =>
    intro s ref m hacc hpf hserved hm hbad
    exact firmwareCommit_of_package (exec_firmwareCommitActivate ..) hacc hpf
      ((commitPackage_of_manifest hm hserved).trans (if_neg (ne_true_of_eq_false hbad)))
  case activateEmpty =>
    intro s ref hacc hpf hserved hm
    exact firmwareCommit_of_package (exec_firmwareCommitActivate ..) hacc hpf (commitPackage_of_no_manifest hm hserved)
  case slotVf =>
    intro s ref action slot hacc hvf
    exact exec_of_guard (exec_firmwareCommitSlotActivate ..) hacc (if_pos hvf)
  case slotAction =>
    intro s ref action slot hacc hpf haction
    exact exec_firmwareCommitSlotActivate_of_action hacc hpf haction
  case slotSlot =>
    intro s ref slot hacc hpf h2 h3
    exact exec_firmwareCommitSlotActivate_of_slot hacc hpf h2 h3
  case slotRefused =>
    intro s ref slot reason hacc hpf hslot hrefused
    exact exec_firmwareCommitSlotActivate_of_refused hacc hpf hslot hrefused
  case slotFails =>
    intro s ref slot hacc hpf hslot hserved hbad
    exact (exec_firmwareCommitSlotActivate_of_served hacc hpf hslot hserved).trans (if_pos (congrArg (!·) hbad))
  case slot =>
    intro s ref slot hacc hpf hslot hserved hok
    exact (exec_firmwareCommitSlotActivate_of_served hacc hpf hslot hserved).trans
      (if_neg (ne_true_of_eq_false (congrArg (!·) hok)))

end Sys2Proof.Machine
end

section
/-! Chain Sweep, Lifecycle Transition and the management lock, by the conditions that refuse them in their order, and the statement
about them (R188, R194, R542 to R545, R566, R570, R630, R631). -/

namespace Sys2Proof.Machine

/-! ### Sweeps (R566, R570) -/

section Sweeps

variable {s : State} {ref : Ref}

/-- A sweep runs, or a relay that a command has started. -/
def State.sweepBusy (s : State) : Bool := s.sweeping || s.bxl.relay.any (fun r => r.ref.isSome)

/-- A measuring sweep from a PF runs unless its fields or the sweep that runs refuse it. -/
theorem exec_chainSweepMeasure_of_pf {cdw10 : Nat} (hacc : s.accepts ref = true) (hpf : (holderOf ref).isNone = false)
    (hop : cdw10 % 4 = 0) :
    exec (.chainSweepMeasure ref cdw10) s =
      if (s.latch ref).sweepBusy then .next ((s.latch ref).complete ref .cmdSeqError 0)
      else .next (({ s.latch ref with bxl := { (s.latch ref).bxl with retries := 0 } } : State).issueSweep (some ref) 0) :=
  exec_of_guard (exec_chainSweepMeasure ..) hacc ((if_neg (ne_true_of_eq_false hpf)).trans (if_neg (by rw [hop]; decide)))

/-- A relay cannot begin: a sweep or a relay runs, or staging lacks a piece. -/
def State.relayBlocked (s : State) : Bool := s.sweeping || s.bxl.relay.isSome || !s.bxl.staging.whole

/-- The chunks of the package in staging, its manifest included. -/
def State.stagedChunks (s : State) : Nat := 1 + (s.bxl.staging.manifest.map (fun m => m.chunks)).getD 0

/-- The relay of the package in staging begins (R570). -/
def State.startRelay (s : State) (ref : Ref) (action : Nat) : State :=
  let r : Relay := { action := action, chunks := s.stagedChunks, ref := some ref, pkg := s.bxl.staging }
  let t : State := { s with bxl := { s.bxl with relay := some r } }
  if !t.bxl.dn.linked then t.relayEnd false else (t.bxlSend false (.relayStart action s.stagedChunks)).relaySend

theorem exec_chainSweepRelay_of_pf {cdw11 : Nat} (hacc : s.accepts ref = true) (hpf : (holderOf ref).isNone = false)
    (haction : cdw11 % 8 < 2) :
    exec (.chainSweepRelay ref cdw11) s =
      if (s.latch ref).relayBlocked then .next ((s.latch ref).complete ref .cmdSeqError 0)
      else .next ((s.latch ref).startRelay ref (cdw11 % 8)) := by
  refine exec_of_guard (exec_chainSweepRelay ..) hacc
    ((if_neg (ne_true_of_eq_false hpf)).trans ((if_neg (Nat.not_le.mpr haction)).trans ?_))
  rw [State.startRelay, ← next_ite]
  rfl

end Sweeps

/-! ### Lifecycle transitions (R543, R544) -/

section Lifecycle

variable {s : State} {ref : Ref} {dest len : Nat} {token : LcToken} (hacc : s.accepts ref = true)
  (hpf : (holderOf ref).isNone = false)
include hacc hpf

theorem exec_lifecycleTransition_of_refused {st : Status} {dw0 : Nat}
    (hcheck : (s.latch ref).lcCheck ref (dest % 8) len token = some (st, dw0)) :
    exec (.lifecycleTransition ref dest len token) s = .next ((s.latch ref).complete ref st dw0) := by
  refine exec_of_guard (exec_lifecycleTransition ..) hacc ((if_neg (ne_true_of_eq_false hpf)).trans ?_)
  simp only [hcheck, State.done]

/-- The record of a transition's intent, one above the newest that the Folio holds (R544). -/
def State.intentFor (s : State) (dest : Nat) (token : LcToken) : Intent :=
  { iseq := (s.fol.intents.head?.map (fun i => i.iseq)).getD 0 + 1, from_ := s.lifecycle, dest := dest, stamp := s.stamp
    owner := if dest = 3 then token.ownerHash else 0 }

/-- A transition that passes its checks takes the lock and has its intent written before anything else. -/
theorem exec_lifecycleTransition_of_passed (hcheck : (s.latch ref).lcCheck ref (dest % 8) len token = none) :
    exec (.lifecycleTransition ref dest len token) s =
      .next (let it := (s.latch ref).intentFor (dest % 8) token
        let t := (s.latch ref).lockFor ref
        ({ t with fol := { t.fol with
          trans := some { intent := it, ref := some ref, burns := lcBurns (dest % 8) it.owner } } } : State).folio
            { job := .intent 0 }) := by
  refine exec_of_guard (exec_lifecycleTransition ..) hacc ((if_neg (ne_true_of_eq_false hpf)).trans ?_)
  simp only [hcheck]
  rfl

end Lifecycle

/-! ### The management lock (R188, R630, R631) -/

section Authority

variable {s : State} {ref : Ref} {h : Holder} (hacc : s.accepts ref = true)
include hacc

theorem exec_authorityAcquire_of_vf (hvf : holderOf ref = none) :
    exec (.authorityAcquire ref) s = .next ((s.latch ref).complete ref .invalidOpcode 0) :=
  exec_of_begin (exec_authorityAcquire ..) hacc (by simp only [hvf])

theorem exec_authorityAcquire_of_elsewhere {o : Holder} (hh : holderOf ref = some h)
    (helse : (s.latch ref).heldAgainst ref = some o) :
    exec (.authorityAcquire ref) s = .next ((s.latch ref).complete ref .authorityElsewhere o.code) :=
  exec_of_begin (exec_authorityAcquire ..) hacc (by simp only [hh, helse])

theorem exec_authorityAcquire_of_free (hh : holderOf ref = some h) (hfree : (s.latch ref).heldAgainst ref = none) :
    exec (.authorityAcquire ref) s =
      .next (((s.latch ref).takeLock h (s.latch ref).mgmt.tunnelEid).complete ref .success 0) :=
  exec_of_begin (exec_authorityAcquire ..) hacc (by simp only [hh, hfree])

theorem exec_authorityRelease_of_vf (hvf : holderOf ref = none) :
    exec (.authorityRelease ref) s = .next ((s.latch ref).complete ref .invalidOpcode 0) :=
  exec_of_begin (exec_authorityRelease ..) hacc (by simp only [hvf])

/-- The lock is released by the party that holds it, and by no other. -/
theorem exec_authorityRelease_of_party (hh : holderOf ref = some h) :
    exec (.authorityRelease ref) s =
      .next (if (s.latch ref).mgmt.lock != some h || ((s.latch ref).heldAgainst ref).isSome
        then (s.latch ref).complete ref .cmdSeqError 0 else (s.latch ref).giveLock.complete ref .success 0) :=
  exec_of_begin (exec_authorityRelease ..) hacc (by simp only [hh])

end Authority

/-- Settles O26: a sweep or a transition by its sender and the first of its checks that refuses it, the lock by who sends the
command and who holds it. -/
theorem chainLifecycleAuthority : Obligations.ChainLifecycleAuthority := by
  unfold Obligations.ChainLifecycleAuthority
  refine ⟨?measureVf, ?measureOp, ?measureBusy, ?measure, ?relayVf, ?relayAction, ?relayBusy, ?relay,
    ?lifecycleVf, ?lifecycleRefused, ?lifecycle, ?acquireVf, ?releaseVf, ?acquireElsewhere, ?acquire, ?releaseRefused, ?release⟩
  case measureVf =>
    intro s ref cdw10 hacc hvf
    exact exec_of_guard (exec_chainSweepMeasure ..) hacc (if_pos hvf)
  case measureOp =>
    intro s ref cdw10 hacc hpf hop
    exact exec_of_guard (exec_chainSweepMeasure ..) hacc
      ((if_neg (ne_true_of_eq_false hpf)).trans (if_pos (bne_iff_ne.mpr hop)))
  case measureBusy =>
    intro s ref cdw10 hacc hpf hop hbusy
    exact (exec_chainSweepMeasure_of_pf hacc hpf hop).trans (if_pos hbusy)
  case measure =>
    intro s ref cdw10 hacc hpf hop hfree
    exact (exec_chainSweepMeasure_of_pf hacc hpf hop).trans (if_neg (ne_true_of_eq_false hfree))
  case relayVf =>
    intro s ref cdw11 hacc hvf
    exact exec_of_guard (exec_chainSweepRelay ..) hacc (if_pos hvf)
  case relayAction =>
    intro s ref cdw11 hacc hpf haction
    exact exec_of_guard (exec_chainSweepRelay ..) hacc ((if_neg (ne_true_of_eq_false hpf)).trans (if_pos haction))
  case relayBusy =>
    intro s ref cdw11 hacc hpf haction hbusy
    exact (exec_chainSweepRelay_of_pf hacc hpf haction).trans (if_pos hbusy)
  case relay =>
    intro s ref cdw11 hacc hpf haction hfree
    exact (exec_chainSweepRelay_of_pf hacc hpf haction).trans (if_neg (ne_true_of_eq_false hfree))
  case lifecycleVf =>
    intro s ref dest len token hacc hvf
    exact exec_of_guard (exec_lifecycleTransition ..) hacc (if_pos hvf)
  case lifecycleRefused =>
    intro s ref dest len token st dw0 hacc hpf hcheck
    exact exec_lifecycleTransition_of_refused hacc hpf hcheck
  case lifecycle =>
    intro s ref dest len token hacc hpf hcheck
    exact exec_lifecycleTransition_of_passed hacc hpf hcheck
  case acquireVf =>
    intro s ref hacc hvf
    exact exec_authorityAcquire_of_vf hacc hvf
  case releaseVf =>
    intro s ref hacc hvf
    exact exec_authorityRelease_of_vf hacc hvf
  case acquireElsewhere =>
    intro s ref h o hacc hh helse
    exact exec_authorityAcquire_of_elsewhere hacc hh helse
  case acquire =>
    intro s ref h hacc hh hfree
    exact exec_authorityAcquire_of_free hacc hh hfree
  case releaseRefused =>
    intro s ref h hacc hh hother
    exact (exec_authorityRelease_of_party hacc hh).trans (congrArg _ (if_pos hother))
  case release =>
    intro s ref h hacc hh hmine
    exact (exec_authorityRelease_of_party hacc hh).trans (congrArg _ (if_neg (ne_true_of_eq_false hmine)))

end Sys2Proof.Machine
end

section
/-! Flush, Write and the commands that change the map, by the checks of an I/O command and then by their own, and the statement
about them (R164 to R166, R168, R173, R174, R219, R252, R274 to R276). -/

namespace Sys2Proof.Machine

/-! ### Commands on one range (R165, R166, R252, R274) -/

section Ranges

variable {s : State} {ref : Ref} {nsid slba nlb : Nat} {n : Ns} {e : Status} (hacc : s.accepts ref = true)
include hacc

theorem exec_writeUncorrectable_of_error (herr : s.ioCheck ref nsid slba nlb .changes = .error e) :
    exec (.writeUncorrectable ref nsid slba nlb) s = .next ((s.latch ref).complete ref e 0) :=
  exec_of_guard (exec_writeUncorrectable ..) hacc (by simp only [herr, State.refuse])

theorem exec_writeUncorrectable_of_ok (hok : s.ioCheck ref nsid slba nlb .changes = .ok n) :
    exec (.writeUncorrectable ref nsid slba nlb) s =
      .next ((s.latch ref).enter
        { ref := ref, kind := .writeUncorr, nsid := nsid, slba := slba, n := nlb, latch := s.nowAt islQueue, wunc := true,
          wp := 8 + n.handles.headD 0 }) :=
  exec_of_guard (exec_writeUncorrectable ..) hacc (by simp only [hok])

theorem exec_writeZeroes_of_error (herr : s.ioCheck ref nsid slba nlb .changes = .error e) :
    exec (.writeZeroes ref nsid slba nlb) s = .next ((s.latch ref).complete ref e 0) :=
  exec_of_guard (exec_writeZeroes ..) hacc (by simp only [herr, State.refuse])

theorem exec_writeZeroes_of_ok (hok : s.ioCheck ref nsid slba nlb .changes = .ok n) :
    exec (.writeZeroes ref nsid slba nlb) s =
      .next ((s.latch ref).enter
        { ref := ref, kind := .writeZeroes, nsid := nsid, slba := slba, n := nlb, latch := s.nowAt islQueue, zero := true,
          wp := 8 + n.handles.headD 0 }) :=
  exec_of_guard (exec_writeZeroes ..) hacc (by simp only [hok])

variable {fua : Bool} {dtype dspec : Nat} {gate : Option Ref}

/-- A write is fused to a compare that no longer waits for it. -/
def State.gateGone (s : State) (gate : Option Ref) : Bool := gate.any (fun r => !s.qe.cmds.any (fun c => c.ref == r && c.parked))

/-- A write that is refused ends, and with it the compare that it is fused to (R166). -/
def State.turnAway (s : State) (ref : Ref) (gate : Option Ref) (e : Status) : Res :=
  .next (((s.endCompare gate).latch ref).complete ref e 0)

theorem exec_write_of_error (herr : s.ioCheck ref nsid slba nlb .changes = .error e) :
    exec (.write ref nsid slba nlb fua dtype dspec gate) s = s.turnAway ref gate e :=
  exec_of_guard (exec_write ..) hacc (by simp only [herr, State.refuse, State.turnAway])

/-- A write that the checks of an I/O command let through is placed and enters execution, unless it is too long or its compare is
gone. -/
theorem exec_write_of_ok (hok : s.ioCheck ref nsid slba nlb .changes = .ok n) :
    exec (.write ref nsid slba nlb fua dtype dspec gate) s =
      if n.mdtsBlocks < nlb then s.turnAway ref gate .invalidField
      else if s.gateGone gate then s.turnAway ref gate .failedFused
      else .next (((s.latch ref).placement n dtype dspec).1.enter
        { ref := ref, kind := .write, nsid := nsid, slba := slba, n := nlb, latch := s.nowAt islQueue, fua := fua,
          wp := ((s.latch ref).placement n dtype dspec).2, gate := gate }) := by
  refine exec_of_guard (exec_write ..) hacc ?_
  simp only [hok]
  generalize (s.latch ref).placement n dtype dspec = p
  rfl

end Ranges

/-! ### Flush (R174) -/

section Flush

variable {s : State} {ref : Ref} {nsid : Nat}

/-- The namespaces that a Flush is checked against: the one it names, or each that is attached to its controller. -/
def State.flushTargets (s : State) (ref : Ref) (nsid : Nat) : List Nat :=
  if nsid = 0xFFFFFFFF then (s.qe.nss.filter (fun n => n.attached.any (fun c => some c == ctrlOf ref))).map (fun n => n.nsid)
  else [nsid]

/-- What refuses it there. -/
def State.flushFails (s : State) (ref : Ref) (nsid : Nat) : List Status :=
  (s.flushTargets ref nsid).filterMap (fun n => match s.ioCheck ref n 0 0 .settles with | .error e => some e | .ok _ => none)

/-- SAFE with the media halted (R165). -/
def State.mediaHalted (s : State) : Bool := s.mode = .safe && s.fld F.EVU_SAFE_MEDIA = 2

/-- A Flush ends with the first status that refuses it, or enters execution. -/
def State.flushOutcome (s : State) (ref : Ref) (nsid : Nat) : List Status → Res
  | e :: _ => s.refuse ref e
  | [] => .next ((s.latch ref).enter { ref := ref, kind := .flush, nsid := nsid, latch := s.nowAt islQueue })

theorem exec_flush_of_accepts (hacc : s.accepts ref = true) :
    exec (.flush ref nsid) s =
      s.flushOutcome ref nsid ((if s.mediaHalted then [.namespaceNotReady] else []) ++ s.flushFails ref nsid) :=
  exec_of_guard (exec_flush ..) hacc rfl

theorem exec_flush_of_halted (hacc : s.accepts ref = true) (hhalted : s.mediaHalted = true) :
    exec (.flush ref nsid) s = .next ((s.latch ref).complete ref .namespaceNotReady 0) := by
  rw [exec_flush_of_accepts hacc, if_pos hhalted]
  rfl

/-- With the media served, what refuses the Flush at its namespaces decides. -/
theorem exec_flush_of_live (hacc : s.accepts ref = true) (hlive : s.mediaHalted = false) {fails : List Status}
    (hfails : s.flushFails ref nsid = fails) : exec (.flush ref nsid) s = s.flushOutcome ref nsid fails := by
  rw [exec_flush_of_accepts hacc, if_neg (ne_true_of_eq_false hlive), List.nil_append, hfails]

end Flush

/-! ### Dataset Management and Secure Discard (R173, R274 to R276) -/

section Datasets

variable {s : State} {ref : Ref} {nsid cdw11 : Nat} {ranges : List (Nat × Nat)} {n : Ns} {e : Status}
  (hacc : s.accepts ref = true)
include hacc

/-- CDW11 of a Dataset Management that is no Secure Discard. -/
def plainDsm (cdw11 : Nat) : Nat := if cdw11.testBit 8 && cdw11.testBit 2 then cdw11 - 256 else cdw11

theorem exec_datasetManagement_of_error (herr : s.dsmCheck ref nsid (plainDsm cdw11) ranges = .error e) :
    exec (.datasetManagement ref nsid cdw11 ranges) s = .next ((s.latch ref).complete ref e 0) := by
  unfold plainDsm at herr
  exact exec_of_guard (exec_datasetManagement ..) hacc (by simp only [herr, State.refuse])

/-- One that passes its checks changes something only with Deallocate. -/
theorem exec_datasetManagement_of_ok (hok : s.dsmCheck ref nsid (plainDsm cdw11) ranges = .ok n) :
    exec (.datasetManagement ref nsid cdw11 ranges) s =
      if !cdw11.testBit 2 then .next ((s.latch ref).complete ref .success 0)
      else .next ((s.latch ref).enter
        { ref := ref, kind := .deallocate, nsid := nsid, ranges := ranges, latch := s.nowAt islQueue, zero := true,
          wp := 8 + n.handles.headD 0 }) := by
  unfold plainDsm at hok
  exact exec_of_guard (exec_datasetManagement ..) hacc (by simp only [hok, State.refuse])

theorem exec_secureDiscard_of_error (herr : s.dsmCheck ref nsid (cdw11 ||| 256) ranges = .error e) :
    exec (.secureDiscard ref nsid cdw11 ranges) s = .next ((s.latch ref).complete ref e 0) :=
  exec_of_guard (exec_secureDiscard ..) hacc (by simp only [herr, State.refuse])

theorem exec_secureDiscard_of_no_ticket (hok : s.dsmCheck ref nsid (cdw11 ||| 256) ranges = .ok n) (hroom : s.ticketRoom = none) :
    exec (.secureDiscard ref nsid cdw11 ranges) s = .next ((s.latch ref).complete ref .commandInterrupted 0) :=
  exec_of_guard (exec_secureDiscard ..) hacc (by simp only [hok, hroom, State.refuse])

/-- The ticket of a Secure Discard, over every IU that its ranges touch. -/
def State.discardTicket (s : State) (nsid : Nat) (ranges : List (Nat × Nat)) (n : Ns) : Ticket :=
  { ticket := s.map.nextTicket, nsid := nsid, ranges := ranges.filterMap (discardRange s.iuSectors n.blkSectors)
    seq := s.map.nextTicket }

/-- The latched state with the ticket opened. -/
def State.openTicket (s : State) (ref : Ref) (rest : List Ticket) (t : Ticket) : State :=
  { s.latch ref with map := { (s.latch ref).map with
    tickets := rest ++ [t], nextTicket := max 1 ((s.map.nextTicket + 1) % 2 ^ 32) } }

theorem exec_secureDiscard_of_ticket {rest : List Ticket} (hok : s.dsmCheck ref nsid (cdw11 ||| 256) ranges = .ok n)
    (hroom : s.ticketRoom = some rest) :
    exec (.secureDiscard ref nsid cdw11 ranges) s =
      .next (((s.openTicket ref rest (s.discardTicket nsid ranges n)).enter
        { ref := ref, kind := .deallocate, nsid := nsid, ranges := ranges, latch := s.nowAt islQueue, zero := true,
          ticket := some s.map.nextTicket, wp := 8 + n.handles.headD 0 }).ticketPump) :=
  exec_of_guard (exec_secureDiscard ..) hacc (by simp only [hok, hroom, State.openTicket, State.discardTicket])

end Datasets

/-- Settles O27: each command by the checks of an I/O command, and one that they let through by its own. -/
theorem writesAndChanges : Obligations.WritesAndChanges := by
  unfold Obligations.WritesAndChanges
  refine ⟨?uncorrRefused, ?zeroesRefused, ?writeRefused, ?writeTooLong, ?writeUngated, ?write, ?uncorr, ?zeroes,
    ?flushHalted, ?flushRefused, ?flush, ?dsmRefused, ?dsmHint, ?dsm, ?discardRefused, ?discardFull, ?discard⟩
  case uncorrRefused =>
    intro s ref nsid slba nlb e hacc herr
    exact exec_writeUncorrectable_of_error hacc herr
  case zeroesRefused =>
    intro s ref nsid slba nlb e hacc herr
    exact exec_writeZeroes_of_error hacc herr
  case writeRefused =>
    intro s ref nsid slba nlb fua dtype dspec gate e hacc herr
    exact exec_write_of_error hacc herr
  case writeTooLong =>
    intro s ref nsid slba nlb fua dtype dspec gate n hacc hok hlong
    exact (exec_write_of_ok hacc hok).trans (if_pos hlong)
  case writeUngated =>
    intro s ref nsid slba nlb fua dtype dspec gate n hacc hok hlen hgone
    exact (exec_write_of_ok hacc hok).trans ((if_neg (Nat.not_lt.mpr hlen)).trans (if_pos hgone))
  case write =>
    intro s ref nsid slba nlb fua dtype dspec gate n hacc hok hlen hgate
    exact (exec_write_of_ok hacc hok).trans ((if_neg (Nat.not_lt.mpr hlen)).trans (if_neg (ne_true_of_eq_false hgate)))
  case uncorr =>
    intro s ref nsid slba nlb n hacc hok
    exact exec_writeUncorrectable_of_ok hacc hok
  case zeroes =>
    intro s ref nsid slba nlb n hacc hok
    exact exec_writeZeroes_of_ok hacc hok
  case flushHalted =>
    intro s ref nsid hacc hsafe hmedia
    exact exec_flush_of_halted hacc (by simp [State.mediaHalted, hsafe, hmedia])
  case flushRefused =>
    intro s ref nsid e more hacc hlive hfails
    exact exec_flush_of_live hacc hlive hfails
  case flush =>
    intro s ref nsid hacc hlive hfails
    exact exec_flush_of_live hacc hlive hfails
  case dsmRefused =>
    intro s ref nsid cdw11 ranges e hacc herr
    exact exec_datasetManagement_of_error hacc herr
  case dsmHint =>
    intro s ref nsid cdw11 ranges n hacc hok hhint
    exact (exec_datasetManagement_of_ok hacc hok).trans (if_pos (congrArg (!·) hhint))
  case dsm =>
    intro s ref nsid cdw11 ranges n hacc hok hdealloc
    exact (exec_datasetManagement_of_ok hacc hok).trans (if_neg (ne_true_of_eq_false (congrArg (!·) hdealloc)))
  case discardRefused =>
    intro s ref nsid cdw11 ranges e hacc herr
    exact exec_secureDiscard_of_error hacc herr
  case discardFull =>
    intro s ref nsid cdw11 ranges n hacc hok hroom
    exact exec_secureDiscard_of_no_ticket hacc hok hroom
  case discard =>
    intro s ref nsid cdw11 ranges n rest hacc hok hroom
    exact exec_secureDiscard_of_ticket hacc hok hroom

end Sys2Proof.Machine
end

section
/-! The reservation commands, by the checks that they share and then by the action that they name, and the statement about them
(R195 to R200). -/

namespace Sys2Proof.Machine

section Reservations

variable {s : State} {ref : Ref} {nsid : Nat} {iekey : Bool} {crkey : Nat} {n : Ns} {h : Nat}

/-! ### What they share -/

/-- A namespace's reservation changes: the hosts affected are told, and the command ends by R199. -/
def State.rsvPut (s : State) (ref : Ref) (nsid type : Nat) (was now : Resv) (hosts : List Nat) : State :=
  (((s.latch ref).updNs nsid (fun n => { n with resv := now })).rsvNotify nsid type hosts).rsvEnd ref nsid was now

/-- The other registrants. -/
def Resv.others (r : Resv) (h : Nat) : List Nat := (r.regs.filter (fun g => g.host != h)).map (fun g => g.host)

section Refused

variable {e : Status} (hacc : s.accepts ref = true) (herr : s.rsvCheck ref nsid = .error e)
include hacc herr

theorem exec_reservationRegister_of_error {rrega cptpl nrkey : Nat} :
    exec (.reservationRegister ref nsid rrega iekey cptpl crkey nrkey) s = .next ((s.latch ref).complete ref e 0) :=
  exec_of_guard (exec_reservationRegister ..) hacc (by simp only [herr, State.refuse])

theorem exec_reservationReport_of_error {eds : Bool} :
    exec (.reservationReport ref nsid eds) s = .next ((s.latch ref).complete ref e 0) :=
  exec_of_guard (exec_reservationReport ..) hacc (by simp only [herr, State.refuse])

theorem exec_reservationAcquire_of_error {racqa rtype prkey : Nat} :
    exec (.reservationAcquire ref nsid racqa iekey rtype crkey prkey) s = .next ((s.latch ref).complete ref e 0) :=
  exec_of_guard (exec_reservationAcquire ..) hacc (by simp only [herr, State.refuse])

theorem exec_reservationRelease_of_error {rrela rtype : Nat} :
    exec (.reservationRelease ref nsid rrela iekey rtype crkey) s = .next ((s.latch ref).complete ref e 0) :=
  exec_of_guard (exec_reservationRelease ..) hacc (by simp only [herr, State.refuse])

end Refused

variable (hacc : s.accepts ref = true) (hok : s.rsvCheck ref nsid = .ok (n, h))
include hacc hok

theorem exec_reservationReport_of_ok {eds : Bool} :
    exec (.reservationReport ref nsid eds) s =
      .next (((s.latch ref).emit (.rsvReport ref n.resv)).complete ref .success 0) :=
  exec_of_guard (exec_reservationReport ..) hacc (by simp only [hok])

/-! ### Register (R196, R199) -/

section Register

variable {cptpl nrkey : Nat}

/-- The reservation with Persist Through Power Loss as CPTPL sets it. -/
def Resv.persist (r : Resv) (was : Resv) (cptpl : Nat) : Resv :=
  { r with ptpl := if cptpl = 2 then false else if cptpl = 3 then true else was.ptpl }

/-- The reservation with one more registrant. -/
def Resv.enroll (r : Resv) (h key : Nat) : Resv := { r with regs := r.regs ++ [⟨h, key⟩], gen := (r.gen + 1) % 2 ^ 32 }

/-- The reservation with a registrant's key replaced. -/
def Resv.rekey (r : Resv) (h key : Nat) : Resv :=
  { r with regs := updWhere (fun g => g.host == h) (fun g => { g with key := key }) r.regs, gen := (r.gen + 1) % 2 ^ 32 }

/-- The key that a command gives is not the host's, and is not to be ignored. -/
def Resv.keyWrong (r : Resv) (h : Nat) (iekey : Bool) (crkey : Nat) : Bool := !(iekey || r.keyOf h == some crkey)

/-- A host registers again under its own key, -/
theorem exec_reservationRegister_of_same (hmine : n.resv.keyOf h = some nrkey) :
    exec (.reservationRegister ref nsid 0 iekey cptpl crkey nrkey) s =
      .next (s.rsvPut ref nsid 2 n.resv (n.resv.persist n.resv cptpl) []) :=
  exec_of_guard (exec_reservationRegister ..) hacc
    (by simp only [hok, hmine, if_true, State.rsvPut, Resv.persist])

/-- and under no other. -/
theorem exec_reservationRegister_of_other {k : Nat} (hmine : n.resv.keyOf h = some k) (hkey : k ≠ nrkey) :
    exec (.reservationRegister ref nsid 0 iekey cptpl crkey nrkey) s = s.refuse ref .reservationConflict :=
  exec_of_guard (exec_reservationRegister ..) hacc (by simp only [hok, hmine, if_neg hkey])

/-- A new registrant finds room for 64. -/
theorem exec_reservationRegister_of_new (hmine : n.resv.keyOf h = none) :
    exec (.reservationRegister ref nsid 0 iekey cptpl crkey nrkey) s =
      if 64 ≤ n.resv.regs.length then s.refuse ref .invalidField
      else .next (s.rsvPut ref nsid 2 n.resv ((n.resv.enroll h nrkey).persist n.resv cptpl) []) :=
  exec_of_guard (exec_reservationRegister ..) hacc
    (by simp only [hok, hmine, State.rsvPut, Resv.persist, Resv.enroll])

/-- The hosts that are told of a registrant's leaving: the others, where the reservation went with it. -/
def Resv.leftBehind (r : Resv) (h : Nat) : List Nat :=
  if (r.unregister h).rtype = r.rtype then [] else (r.unregister h).regs.map (fun g => g.host)

theorem exec_reservationRegister_unregister :
    exec (.reservationRegister ref nsid 1 iekey cptpl crkey nrkey) s =
      if (n.resv.keyOf h).isNone || n.resv.keyWrong h iekey crkey then s.refuse ref .reservationConflict
      else .next (s.rsvPut ref nsid 2 n.resv ((n.resv.unregister h).persist n.resv cptpl) (n.resv.leftBehind h)) := by
  refine exec_of_guard (exec_reservationRegister ..) hacc ?_
  simp only [hok, State.rsvPut, Resv.persist, Resv.leftBehind]
  rfl

theorem exec_reservationRegister_replace :
    exec (.reservationRegister ref nsid 2 iekey cptpl crkey nrkey) s =
      if n.resv.keyWrong h iekey crkey || ((n.resv.keyOf h).isNone && !iekey) then s.refuse ref .reservationConflict
      else if (n.resv.keyOf h).isNone then
        if 64 ≤ n.resv.regs.length then s.refuse ref .invalidField
        else .next (s.rsvPut ref nsid 2 n.resv ((n.resv.enroll h nrkey).persist n.resv cptpl) [])
      else .next (s.rsvPut ref nsid 2 n.resv ((n.resv.rekey h nrkey).persist n.resv cptpl) []) := by
  refine exec_of_guard (exec_reservationRegister ..) hacc ?_
  simp only [hok, State.rsvPut, Resv.persist, Resv.enroll, Resv.rekey]
  rfl

theorem exec_reservationRegister_of_unlisted {rrega : Nat} (hrrega : 2 < rrega) :
    exec (.reservationRegister ref nsid rrega iekey cptpl crkey nrkey) s = s.refuse ref .invalidField := by
  refine exec_of_guard (exec_reservationRegister ..) hacc ?_
  simp only [hok]
  split
  any_goals omega
  rfl

end Register

/-! ### Acquire (R197, R198) -/

section Acquire

variable {racqa rtype prkey : Nat}

/-- An Acquire ignores the key, or names no type or no action. -/
def acquireBad (iekey : Bool) (rtype racqa : Nat) : Bool := iekey || rtype = 0 || 6 < rtype || 2 < racqa

/-- PRKEY names the reservation itself. -/
def Resv.takenBy (r : Resv) (prkey : Nat) : Bool :=
  r.rtype != 0 && ((r.allRegs && prkey = 0) || (!r.allRegs && (r.holder.bind r.keyOf) == some prkey))

/-- The other registrants with PRKEY. -/
def Resv.victims (r : Resv) (h prkey : Nat) : List Nat :=
  (r.regs.filter (fun g => g.key == prkey && g.host != h)).map (fun g => g.host)

/-- PRKEY names neither the reservation, nor another registrant, nor the holder that gives it. -/
def Resv.vain (r : Resv) (h prkey : Nat) : Bool :=
  !r.takenBy prkey && (r.victims h prkey).isEmpty && !(r.holder == some h && r.keyOf h == some prkey)

/-- The registrants that a preempt removes. -/
def Resv.preempted (r : Resv) (h prkey : Nat) : List Nat :=
  if r.allRegs && prkey = 0 then r.others h else r.victims h prkey

/-- The reservation after a preempt. -/
def Resv.preempt (r : Resv) (h rtype prkey : Nat) : Resv :=
  let regs := r.regs.filter (fun g => !(r.preempted h prkey).contains g.host)
  if r.takenBy prkey then { r with regs := regs, rtype := rtype, holder := some h, gen := (r.gen + 1) % 2 ^ 32 }
  else { r with regs := regs, gen := (r.gen + 1) % 2 ^ 32 }

theorem exec_reservationAcquire_of_bad (hbad : acquireBad iekey rtype racqa = true) :
    exec (.reservationAcquire ref nsid racqa iekey rtype crkey prkey) s = s.refuse ref .invalidField := by
  refine exec_of_guard (exec_reservationAcquire ..) hacc ?_
  simp only [hok]
  exact if_pos hbad

variable (hgood : acquireBad iekey rtype racqa = false)
include hgood

theorem exec_reservationAcquire_of_key (hkey : n.resv.keyOf h ≠ some crkey) :
    exec (.reservationAcquire ref nsid racqa iekey rtype crkey prkey) s = s.refuse ref .reservationConflict := by
  refine exec_of_guard (exec_reservationAcquire ..) hacc ?_
  simp only [hok]
  exact (if_neg (ne_true_of_eq_false hgood)).trans (if_pos (bne_iff_ne.mpr hkey))

variable (hkey : n.resv.keyOf h = some crkey)
include hkey

/-- A registrant acquires a free reservation, and finds its own as it is. -/
theorem exec_reservationAcquire_acquire (hracqa : racqa = 0) :
    exec (.reservationAcquire ref nsid racqa iekey rtype crkey prkey) s =
      if n.resv.rtype = 0 then .next (s.rsvPut ref nsid 1 n.resv { n.resv with rtype := rtype, holder := some h } [])
      else if (n.resv.holder == some h || n.resv.allRegs) && n.resv.rtype = rtype then .next (s.rsvPut ref nsid 1 n.resv n.resv [])
      else s.refuse ref .reservationConflict := by
  refine exec_of_guard (exec_reservationAcquire ..) hacc ?_
  simp only [hok]
  exact (if_neg (ne_true_of_eq_false hgood)).trans ((if_neg (by simp [hkey])).trans (if_pos hracqa))

/-- A preempt removes the registrants with PRKEY, and with racqa 2 ends their reads. -/
theorem exec_reservationAcquire_preempt (hracqa : racqa ≠ 0) :
    exec (.reservationAcquire ref nsid racqa iekey rtype crkey prkey) s =
      if n.resv.vain h prkey then s.refuse ref .reservationConflict
      else
        let v := n.resv.preempt h rtype prkey
        let t := ((s.latch ref).updNs nsid (fun n => { n with resv := v })).rsvNotify nsid 1 (n.resv.preempted h prkey)
        .next ((if decide (racqa = 2) then t.preemptAbort nsid (n.resv.preempted h prkey) else t).rsvEnd ref nsid n.resv v) := by
  refine exec_of_guard (exec_reservationAcquire ..) hacc ?_
  simp only [hok]
  exact (if_neg (ne_true_of_eq_false hgood)).trans ((if_neg (by simp [hkey])).trans (if_neg hracqa))

end Acquire

/-! ### Release (R197) -/

section Release

variable {rrela rtype : Nat}

/-- The reservation when it is cleared. -/
def Resv.cleared (r : Resv) : Resv := { r with regs := [], rtype := 0, holder := none, gen := (r.gen + 1) % 2 ^ 32 }

/-- A host holds the reservation. -/
def Resv.heldBy (r : Resv) (h : Nat) : Bool := r.rtype != 0 && (r.holder == some h || r.allRegs)

theorem exec_reservationRelease_of_bad (hbad : (iekey || 1 < rrela) = true) :
    exec (.reservationRelease ref nsid rrela iekey rtype crkey) s = s.refuse ref .invalidField := by
  refine exec_of_guard (exec_reservationRelease ..) hacc ?_
  simp only [hok]
  exact if_pos hbad

variable (hgood : (iekey || 1 < rrela) = false)
include hgood

theorem exec_reservationRelease_of_key (hkey : n.resv.keyOf h ≠ some crkey) :
    exec (.reservationRelease ref nsid rrela iekey rtype crkey) s = s.refuse ref .reservationConflict := by
  refine exec_of_guard (exec_reservationRelease ..) hacc ?_
  simp only [hok]
  exact (if_neg (ne_true_of_eq_false hgood)).trans (if_pos (bne_iff_ne.mpr hkey))

variable (hkey : n.resv.keyOf h = some crkey)
include hkey

/-- A clear removes the reservation and every registrant. -/
theorem exec_reservationRelease_clear (hrrela : rrela = 1) :
    exec (.reservationRelease ref nsid rrela iekey rtype crkey) s =
      .next (s.rsvPut ref nsid 3 n.resv n.resv.cleared (n.resv.others h)) := by
  refine exec_of_guard (exec_reservationRelease ..) hacc ?_
  simp only [hok]
  refine (if_neg (ne_true_of_eq_false hgood)).trans ((if_neg (by simp [hkey])).trans ((if_pos hrrela).trans ?_))
  rw [if_pos hrrela]
  rfl

/-- A release ends the reservation that its holder names by its type. -/
theorem exec_reservationRelease_release (hrrela : rrela = 0) :
    exec (.reservationRelease ref nsid rrela iekey rtype crkey) s =
      if n.resv.heldBy h then
        if rtype != n.resv.rtype then s.refuse ref .invalidField
        else .next (s.rsvPut ref nsid 2 n.resv { n.resv with rtype := 0, holder := none } (n.resv.others h))
      else .next (s.rsvPut ref nsid 2 n.resv n.resv []) := by
  subst hrrela
  refine exec_of_guard (exec_reservationRelease ..) hacc ?_
  simp only [hok]
  exact (if_neg (ne_true_of_eq_false hgood)).trans ((if_neg (by simp [hkey])).trans (if_neg (by decide)))

end Release

end Reservations

/-- Settles O29: each command by its shared checks, and then by its action, the host's key and the reservation that it meets. -/
theorem reservationCommands : Obligations.ReservationCommands := by
  unfold Obligations.ReservationCommands
  refine ⟨?registerRefused, ?reportRefused, ?acquireRefused, ?releaseRefused, ?report, ?registerSame, ?registerOther,
    ?registerFull, ?registerNew, ?unregisterConflict, ?unregister, ?replaceConflict, ?replaceFull, ?replaceNew, ?replace,
    ?registerUnlisted, ?acquireBad, ?acquireKey, ?acquireFree, ?acquireOwn, ?acquireTaken, ?preemptVain, ?preempt,
    ?releaseBad, ?releaseKey, ?clear, ?releaseType, ?release, ?releaseNone⟩
  case registerRefused =>
    intro s ref nsid rrega iekey cptpl crkey nrkey e hacc herr
    exact exec_reservationRegister_of_error hacc herr
  case reportRefused =>
    intro s ref nsid eds e hacc herr
    exact exec_reservationReport_of_error hacc herr
  case acquireRefused =>
    intro s ref nsid racqa iekey rtype crkey prkey e hacc herr
    exact exec_reservationAcquire_of_error hacc herr
  case releaseRefused =>
    intro s ref nsid rrela iekey rtype crkey e hacc herr
    exact exec_reservationRelease_of_error hacc herr
  case report =>
    intro s ref nsid eds n h hacc hok
    exact exec_reservationReport_of_ok hacc hok
  case registerSame =>
    intro s ref nsid iekey cptpl crkey nrkey n h hacc hok hmine
    exact exec_reservationRegister_of_same hacc hok hmine
  case registerOther =>
    intro s ref nsid iekey cptpl crkey nrkey n h hacc hok hother
    obtain ⟨k, hmine, hkey⟩ := (Option.any_eq_true ..).mp hother
    exact exec_reservationRegister_of_other hacc hok hmine (bne_iff_ne.mp hkey)
  case registerFull =>
    intro s ref nsid iekey cptpl crkey nrkey n h hacc hok hmine hfull
    exact (exec_reservationRegister_of_new hacc hok hmine).trans (if_pos hfull)
  case registerNew =>
    intro s ref nsid iekey cptpl crkey nrkey n h hacc hok hmine hroom
    exact (exec_reservationRegister_of_new hacc hok hmine).trans (if_neg (Nat.not_le.mpr hroom))
  case unregisterConflict =>
    intro s ref nsid iekey cptpl crkey nrkey n h hacc hok hbad
    exact (exec_reservationRegister_unregister hacc hok).trans (if_pos hbad)
  case unregister =>
    intro s ref nsid iekey cptpl crkey nrkey n h hacc hok hgood
    exact (exec_reservationRegister_unregister hacc hok).trans (if_neg (ne_true_of_eq_false hgood))
  case replaceConflict =>
    intro s ref nsid iekey cptpl crkey nrkey n h hacc hok hbad
    exact (exec_reservationRegister_replace hacc hok).trans (if_pos hbad)
  case replaceFull =>
    intro s ref nsid iekey cptpl crkey nrkey n h hacc hok hgood hnew hfull
    exact (exec_reservationRegister_replace hacc hok).trans
      ((if_neg (ne_true_of_eq_false hgood)).trans ((if_pos hnew).trans (if_pos hfull)))
  case replaceNew =>
    intro s ref nsid iekey cptpl crkey nrkey n h hacc hok hgood hnew hroom
    exact (exec_reservationRegister_replace hacc hok).trans
      ((if_neg (ne_true_of_eq_false hgood)).trans ((if_pos hnew).trans (if_neg (Nat.not_le.mpr hroom))))
  case replace =>
    intro s ref nsid iekey cptpl crkey nrkey n h hacc hok hgood hmine
    exact (exec_reservationRegister_replace hacc hok).trans
      ((if_neg (ne_true_of_eq_false hgood)).trans (if_neg (ne_true_of_eq_false hmine)))
  case registerUnlisted =>
    intro s ref nsid rrega iekey cptpl crkey nrkey n h hacc hok hrrega
    exact exec_reservationRegister_of_unlisted hacc hok hrrega
  case acquireBad =>
    intro s ref nsid racqa iekey rtype crkey prkey n h hacc hok hbad
    exact exec_reservationAcquire_of_bad hacc hok hbad
  case acquireKey =>
    intro s ref nsid racqa iekey rtype crkey prkey n h hacc hok hgood hkey
    exact exec_reservationAcquire_of_key hacc hok hgood hkey
  case acquireFree =>
    intro s ref nsid racqa iekey rtype crkey prkey n h hacc hok hgood hkey hracqa hfree
    exact (exec_reservationAcquire_acquire hacc hok hgood hkey hracqa).trans (if_pos hfree)
  case acquireOwn =>
    intro s ref nsid racqa iekey rtype crkey prkey n h hacc hok hgood hkey hracqa htaken hmine
    exact (exec_reservationAcquire_acquire hacc hok hgood hkey hracqa).trans ((if_neg htaken).trans (if_pos hmine))
  case acquireTaken =>
    intro s ref nsid racqa iekey rtype crkey prkey n h hacc hok hgood hkey hracqa htaken hother
    exact (exec_reservationAcquire_acquire hacc hok hgood hkey hracqa).trans
      ((if_neg htaken).trans (if_neg (ne_true_of_eq_false hother)))
  case preemptVain =>
    intro s ref nsid racqa iekey rtype crkey prkey n h hacc hok hgood hkey hracqa hvain
    exact (exec_reservationAcquire_preempt hacc hok hgood hkey hracqa).trans (if_pos hvain)
  case preempt =>
    intro s ref nsid racqa iekey rtype crkey prkey n h hacc hok hgood hkey hracqa hnamed
    exact (exec_reservationAcquire_preempt hacc hok hgood hkey hracqa).trans (if_neg (ne_true_of_eq_false hnamed))
  case releaseBad =>
    intro s ref nsid rrela iekey rtype crkey n h hacc hok hbad
    exact exec_reservationRelease_of_bad hacc hok hbad
  case releaseKey =>
    intro s ref nsid rrela iekey rtype crkey n h hacc hok hgood hkey
    exact exec_reservationRelease_of_key hacc hok hgood hkey
  case clear =>
    intro s ref nsid rrela iekey rtype crkey n h hacc hok hgood hkey hrrela
    exact exec_reservationRelease_clear hacc hok hgood hkey hrrela
  case releaseType =>
    intro s ref nsid rrela iekey rtype crkey n h hacc hok hgood hkey hrrela hheld htype
    exact (exec_reservationRelease_release hacc hok hgood hkey hrrela).trans
      ((if_pos hheld).trans (if_pos (bne_iff_ne.mpr htype)))
  case release =>
    intro s ref nsid rrela iekey rtype crkey n h hacc hok hgood hkey hrrela hheld htype
    exact (exec_reservationRelease_release hacc hok hgood hkey hrrela).trans
      ((if_pos hheld).trans (if_neg (by simp [htype])))
  case releaseNone =>
    intro s ref nsid rrela iekey rtype crkey n h hacc hok hgood hkey hrrela hheld
    exact (exec_reservationRelease_release hacc hok hgood hkey hrrela).trans (if_neg (ne_true_of_eq_false hheld))

end Sys2Proof.Machine
end

section
/-! The lanes of the Inline Cipher and its key slots, one equation per outcome, and the statement about them
(R206, R230 to R236). -/

namespace Sys2Proof.Machine

/-! ### A lane ends a data unit (R206, R230 to R232) -/

section LaneEnds

variable {s : State} {ref : Ref} {lba l : Nat} {u : UnitEnd} {c : Cmd}

/-- The turn passes to the lane after `l`, and the errors of the cells that the unit was read from are taken in. -/
def State.laneEnds (s : State) (l : Nat) (u : UnitEnd) : State :=
  ({ s with ink := { s.ink with nextLane := (l + 1) % 16 } } : State).cellErr u.cell

/-- The command takes its data from the cells to the host. -/
def Cmd.readsCells (c : Cmd) : Bool := c.kind = .read || c.kind = .compare

variable (hcmd : s.cmd ref = some c) (hlane : s.pickLane = some l) (hready : (!s.fetches || !s.unitReady c lba) = false)
include hcmd hlane hready

/-- Lost cells come first, then the outcome of the lane; a unit that fails is processed again once, and then its command ends. -/
theorem execXtsUnitDone_of_ready :
    execXtsUnitDone ref lba u s =
      let t := s.laneEnds l u
      if u.cell.isLost then .next t.settleCmds
      else if u.pass then
        if c.readsCells then
          .next (t.updCmd ref (fun c => { c with left := c.left.erase lba, retry := c.retry.erase lba })).settleCmds
        else .next (t.verifyBlock c lba)
      else if !c.retry.contains lba then
        .next ((t.laneMismatch l).updCmd ref (fun c => { c with retry := lba :: c.retry }))
      else if c.readsCells then .next ((t.laneMismatch l).failRead ref .internalError)
      else .next ((t.laneMismatch l).failWrite ref .internalError) := by
  rw [execXtsUnitDone, hcmd, hlane]
  exact if_neg (ne_true_of_eq_false hready)

theorem execXtsUnitDone_of_pass (hcells : u.cell.isLost = false) (hpass : u.pass = true) :
    execXtsUnitDone ref lba u s =
      if c.readsCells then
        .next (((s.laneEnds l u).updCmd ref
          (fun c => { c with left := c.left.erase lba, retry := c.retry.erase lba })).settleCmds)
      else .next ((s.laneEnds l u).verifyBlock c lba) :=
  (execXtsUnitDone_of_ready hcmd hlane hready).trans ((if_neg (ne_true_of_eq_false hcells)).trans (if_pos hpass))

theorem execXtsUnitDone_of_fail (hcells : u.cell.isLost = false) (hfail : u.pass = false) :
    execXtsUnitDone ref lba u s =
      if !c.retry.contains lba then
        .next (((s.laneEnds l u).laneMismatch l).updCmd ref (fun c => { c with retry := lba :: c.retry }))
      else if c.readsCells then .next (((s.laneEnds l u).laneMismatch l).failRead ref .internalError)
      else .next (((s.laneEnds l u).laneMismatch l).failWrite ref .internalError) :=
  (execXtsUnitDone_of_ready hcmd hlane hready).trans
    ((if_neg (ne_true_of_eq_false hcells)).trans (if_neg (ne_true_of_eq_false hfail)))

end LaneEnds

/-! ### The known-answer test and the key slots (R232 to R236) -/

section Slots

variable {s : State} {slot : Nat}

theorem execLaneKatDone_of_testing {lane : Nat} (pass : Bool) (htest : (s.ink.lanes.getD lane {}).testing = true) :
    execLaneKatDone lane pass s =
      if pass then .next (s.updLane lane (fun x => { x with inService := true, testing := false }))
      else .next (s.maskLane lane) := by
  rw [execLaneKatDone, htest]
  rfl

/-- A load empties the slot; a key fills it only if its halves differ. -/
theorem execKeySlotLoad_of_slot (key : Nat) (equalHalves : Bool) (hslot : slot < 4096) (hoff : s.mode ≠ .off)
    (hhold : s.mode ≠ .holdUp) :
    execKeySlotLoad slot key equalHalves s =
      .next { s with ink := { s.ink with
        keys := if equalHalves then s.ink.keys.filter (fun k => k.slot != slot)
          else ⟨slot, key⟩ :: s.ink.keys.filter (fun k => k.slot != slot) } } := by
  rw [execKeySlotLoad, ccGuard_eq _ hoff hhold, decide_eq_false (Nat.not_le.mpr hslot), if_neg Bool.false_ne_true]

/-- A unit under this slot's key is still to be processed again, so a lane holds it. -/
def State.slotInLane (s : State) (slot : Nat) : Bool :=
  s.qe.cmds.any (fun c => !c.retry.isEmpty && ((s.ns c.nsid).bind (fun n => n.key)) == some slot)

theorem execKeySlotClear_of_idle (hpend : s.ink.pendingClear.contains slot = true) (hidle : s.slotInLane slot = false) :
    execKeySlotClear slot s =
      .next { s with ink := { s.ink with
        keys := s.ink.keys.filter (fun k => k.slot != slot)
        pendingClear := s.ink.pendingClear.filter (· != slot) } } := by
  have hgo : (!s.ink.pendingClear.contains slot || s.slotInLane slot) = false := by rw [hpend, hidle]; rfl
  exact if_neg (ne_true_of_eq_false hgo)

end Slots

/-- Settles O30: a unit's end by what its cells, its lane and its command's kind say; a lane's test, a load and a clear by
their equations. -/
theorem cipherUnits : Obligations.CipherUnits := by
  unfold Obligations.CipherUnits
  refine ⟨?lost, ?passRead, ?passWrite, ?failFirst, ?failRead, ?failWrite, ?katPass, ?katFail, ?load, ?loadEqual, ?clear⟩
  case lost =>
    intro s ref lba u c l hcmd hlane hready hlost
    exact (execXtsUnitDone_of_ready hcmd hlane hready).trans (if_pos hlost)
  case passRead =>
    intro s ref lba u c l hcmd hlane hready hcells hpass (hread : c.readsCells = true)
    exact (execXtsUnitDone_of_pass hcmd hlane hready hcells hpass).trans (if_pos hread)
  case passWrite =>
    intro s ref lba u c l hcmd hlane hready hcells hpass (hwrite : c.readsCells = false)
    exact (execXtsUnitDone_of_pass hcmd hlane hready hcells hpass).trans (if_neg (ne_true_of_eq_false hwrite))
  case failFirst =>
    intro s ref lba u c l hcmd hlane hready hcells hfail hfirst
    exact (execXtsUnitDone_of_fail hcmd hlane hready hcells hfail).trans (if_pos (by rw [hfirst]; rfl))
  case failRead =>
    intro s ref lba u c l hcmd hlane hready hcells hfail hagain (hread : c.readsCells = true)
    exact (execXtsUnitDone_of_fail hcmd hlane hready hcells hfail).trans
      ((if_neg (by rw [hagain]; decide)).trans (if_pos hread))
  case failWrite =>
    intro s ref lba u c l hcmd hlane hready hcells hfail hagain (hwrite : c.readsCells = false)
    exact (execXtsUnitDone_of_fail hcmd hlane hready hcells hfail).trans
      ((if_neg (by rw [hagain]; decide)).trans (if_neg (ne_true_of_eq_false hwrite)))
  case katPass =>
    intro s lane htest
    exact execLaneKatDone_of_testing true htest
  case katFail =>
    intro s lane htest
    exact execLaneKatDone_of_testing false htest
  case load =>
    intro s slot key hslot hoff hhold
    exact execKeySlotLoad_of_slot key false hslot hoff hhold
  case loadEqual =>
    intro s slot key hslot hoff hhold
    exact execKeySlotLoad_of_slot key true hslot hoff hhold
  case clear =>
    intro s slot hpend hidle
    exact execKeySlotClear_of_idle hpend hidle

end Sys2Proof.Machine
end

section
/-! The Inkwell's commands, one equation per outcome, and the statement about grants, pads, the audit and the owners
(R210 to R223). -/

namespace Sys2Proof.Machine

/-! ### Grants, by what waits for the cells (R214, R215, R219) -/

section Grants

variable {s : State} {r : CellReq} (hnext : s.nextGrant = some r)
include hnext

theorem execInkwellGrant_of_work (hwhat : r.what = .work) :
    execInkwellGrant s = .next ((s.dropWait r).alloc r.owner r.last r.n).1 := by
  simp only [execInkwellGrant, hnext, hwhat]

theorem execInkwellGrant_of_tine {stream osn : Nat} (hwhat : r.what = .tine stream osn) :
    execInkwellGrant s =
      .next (((s.dropWait r).alloc r.owner r.last r.n).1.inkServed stream osn
        ((s.dropWait r).alloc r.owner r.last r.n).2) := by
  simp only [execInkwellGrant, hnext, hwhat]

/-- The pages of a Blotter row are placed with the request still in the queue, which leaves it then if placing did not take it. -/
theorem execInkwellGrant_of_row {dump : Bool} (hwhat : r.what = .row dump) :
    execInkwellGrant s =
      .next (if s.placePages.ink.waiting.any (fun x => x.order == r.order) then s.placePages.dropWait r
        else s.placePages) := by
  simp only [execInkwellGrant, hnext, hwhat]

variable {ref : Ref} {c : Cmd} (hcmd : (s.dropWait r).cmd ref = some c)
include hcmd

theorem execInkwellGrant_of_copy {head : Nat} {d : Chain} (hwhat : r.what = .copy ref head)
    (hchain : (s.dropWait r).chain head = some d) :
    execInkwellGrant s =
      .next (((s.dropWait r).copyChain d r.owner).1.updCmd ref
        (fun c => { c with holds := ((s.dropWait r).copyChain d r.owner).2 :: c.holds })) := by
  simp only [execInkwellGrant, hnext, hwhat, hcmd, hchain]

variable {lo : Nat} {g : Segment}

theorem execInkwellGrant_of_twin (hwhat : r.what = .twin ref lo)
    (hseg : c.segs.find? (fun g => g.lo == lo && g.twinDue) = some g) :
    execInkwellGrant s =
      .next ((s.dropWait r).giveTwin c g (g.chain.getD 0) ((s.dropWait r).cmdBs c) r.order).settleCmds := by
  simp only [execInkwellGrant, hnext, hwhat, hcmd, hseg]

variable (hseg : c.segs.find? (fun g => g.lo == lo) = some g)
include hseg

theorem execInkwellGrant_of_hostWrite (hwhat : r.what = .hostWrite ref lo) :
    execInkwellGrant s =
      .next (((s.dropWait r).giveWriteSeg c g ((s.dropWait r).cmdBs c)).askSegs (c.segs.length + 1) ref).settleCmds := by
  simp only [execInkwellGrant, hnext, hwhat, hcmd, hseg]

/-- The segment of a read holds the chain whose head is `h`. -/
def State.giveReadSeg (s : State) (ref : Ref) (lo h : Nat) : State :=
  s.updCmd ref (fun c => c.updSeg lo (fun g => { g with started := true, chain := some h }))

theorem execInkwellGrant_of_hostRead (hwhat : r.what = .hostRead ref lo) :
    execInkwellGrant s =
      .next (
        let a := (s.dropWait r).alloc 1 1 r.n
        let t := a.1.giveReadSeg ref lo a.2
        let ius := (t.segIus c g ((s.dropWait r).cmdBs c)).filter (fun q => !q.started)
        ((ius.foldl (fun (s : State) q => s.startIu c q (some a.2)) t).askReads (c.segs.length + 1) ref).settleCmds) := by
  simp only [execInkwellGrant, hnext, hwhat, hcmd, hseg, State.giveReadSeg]

end Grants

/-! ### Pads and the audit: their guards (R220 to R223) -/

section Guards

variable {s : State}

/-- A host request has waited 1 ms. -/
def State.hostWaits (s : State) : Bool := s.ink.waiting.any (fun r => r.owner == 0 && r.since + msT ≤ s.now)

theorem waitPad_guard_eq_false (hruns : s.wpRuns = true) (hwaits : s.hostWaits = true) :
    (!s.wpRuns || !s.hostWaits) = false := by
  rw [hruns, hwaits]; rfl

theorem auditPass_guard_eq_false (hen : s.flag F.INK_CTRL_AUDIT_EN = true) (hoff : s.mode ≠ .off) (hdoze : s.mode ≠ .doze) :
    (!s.flag F.INK_CTRL_AUDIT_EN || s.mode = .off || s.mode = .doze) = false := by
  rw [hen, decide_eq_false hoff, decide_eq_false hdoze]; rfl

end Guards

/-! ### Owners (R210, R212, R213)

The command is unfolded as it stands: its equation would have the search for a free ID run over all 1,024. -/

section Owners

variable {s : State} {r : Registration}

/-- The owner under which work runs that could not register. -/
def fallbackOwner (r : Registration) : Nat := if r.reclaim then 4 else 8

/-- The owner `i` with its limits: its minimum, 4,096 cells or the minimum above it, and 10 s. -/
def State.addOwner (s : State) (i min : Nat) : State :=
  ((({ s with ink := { s.ink with owners := s.ink.owners ++ [{ id := i, dynamic := true }] } } : State).setFld
    (F.INK_OWNER_MIN_MIN i) min).setFld (F.INK_OWNER_MAX_MAX i) (max min 4096)).setFld (F.INK_OWNER_AGE_LIMIT i) 1000

theorem execOwnerRegister_of_full (hfree : s.freeOwner = none) :
    execOwnerRegister r none s = .next ((s.post F.INK_EVT_STATUS_OWNER_FULL noUnit).askWork (fallbackOwner r) r.cells) := by
  unfold execOwnerRegister fallbackOwner
  simp only [hfree]

/-- A free ID is given if the minima fit. -/
theorem execOwnerRegister_of_free {i : Nat} (hfree : s.freeOwner = some i) :
    execOwnerRegister r none s =
      if 73728 < s.sumMin + r.min then .next ((s.post F.INK_EVT_STATUS_MIN_REJ i).askWork (fallbackOwner r) r.cells)
      else .next ((s.addOwner i r.min).askWork i r.cells) := by
  unfold execOwnerRegister fallbackOwner State.addOwner
  simp only [hfree]

end Owners

/-- Settles O31: a grant by the equation of what waited for it, the pad and the audit by their guards, an owner by the free
ID and the minima. -/
theorem inkwellCommands : Obligations.InkwellCommands := by
  unfold Obligations.InkwellCommands
  refine ⟨?work, ?tine, ?row, ?copy, ?twin, ?hostWrite, ?hostRead, ?waitPad, ?audit, ?workEnds, ?full, ?minima, ?registered⟩
  case work =>
    intro s r hnext hwhat
    exact execInkwellGrant_of_work hnext hwhat
  case tine =>
    intro s r stream osn hnext hwhat
    exact execInkwellGrant_of_tine hnext hwhat
  case row =>
    intro s r dump hnext hwhat
    exact execInkwellGrant_of_row hnext hwhat
  case copy =>
    intro s r ref head c d hnext hwhat hcmd hchain
    exact execInkwellGrant_of_copy hnext hcmd hwhat hchain
  case twin =>
    intro s r ref lo c g hnext hwhat hcmd hseg
    exact execInkwellGrant_of_twin hnext hcmd hwhat hseg
  case hostWrite =>
    intro s r ref lo c g hnext hwhat hcmd hseg
    exact execInkwellGrant_of_hostWrite hnext hcmd hseg hwhat
  case hostRead =>
    intro s r ref lo c g hnext hwhat hcmd hseg
    exact execInkwellGrant_of_hostRead hnext hcmd hseg hwhat
  case waitPad =>
    intro s hruns hwaits
    exact if_neg (ne_true_of_eq_false (waitPad_guard_eq_false hruns hwaits))
  case audit =>
    intro s mismatch hen hoff hdoze
    exact if_neg (ne_true_of_eq_false (auditPass_guard_eq_false hen hoff hdoze))
  case workEnds =>
    intro s r o
    rfl
  case full =>
    intro s r hfree
    rw [exec_ownerRegister]
    exact execOwnerRegister_of_full hfree
  case minima =>
    intro s r i hfree hover
    rw [exec_ownerRegister]
    exact (execOwnerRegister_of_free hfree).trans (if_pos hover)
  case registered =>
    intro s r i hfree hfit
    rw [exec_ownerRegister]
    exact (execOwnerRegister_of_free hfree).trans (if_neg (Nat.not_lt.mpr hfit))

end Sys2Proof.Machine
end

section
/-! The upkeep of bands: opening, reclaim, erasing, wear spreading, scrubbing and idle pads, one equation per outcome, and
the statement about them (R251, R258, R260, R261, R266, R267, R270, R272). -/

namespace Sys2Proof.Machine

/-! ### Opening a band (R258, R261) -/

section Opening

/-- The open bands of a write point. -/
def State.openOf (s : State) (wp : Nat) : List Band := s.map.bands.filter (fun b => b.state == .open && b.wp == some wp)

/-- A host write point opens no band while the free count is at or below the critical threshold. -/
def State.hostStarved (s : State) (wp : Nat) : Bool := 8 ≤ wp && s.freeBands ≤ s.gcBands F.MAP_GC_THRESH_CRIT

/-- The free band `b` opens on a write point with the members it has in service and the next BOS. -/
def State.openBand (s : State) (wp : Nat) (b : Band) : State :=
  let t := (s.cacheCounts b (s.bandMembers b.group b.block)).updBand b.ix (fun b => { b with
    state := .open, wp := some wp, members := s.bandMembers b.group b.block, bos := s.map.nextBos
    lost := [], unprot := [], wl := 0, pos := 0, fill := [], pbands := [], padded := false, newest := 0, valid := 0 })
  ({ t with map := { t.map with nextBos := t.map.nextBos + 1 } } : State).refreshLevel.runWritePoints

variable {s : State} {wp : Nat} {b : Band}

theorem bandOpen_guard_eq_false (hwp : wp < 128) (hruns : s.wpRuns = true) (hroom : (s.openOf wp).length < s.wpWidth wp)
    (hfree : s.hostStarved wp = false) :
    (128 ≤ wp || !s.wpRuns || s.wpWidth wp ≤ (s.openOf wp).length || s.hostStarved wp) = false := by
  rw [decide_eq_false (Nat.not_le.mpr hwp), decide_eq_false (Nat.not_le.mpr hroom), hruns, hfree]; rfl

/-- A write point that has room takes the band that is picked if it would have at least three members. -/
theorem execBandOpen_of_picked (hwp : wp < 128) (hruns : s.wpRuns = true) (hroom : (s.openOf wp).length < s.wpWidth wp)
    (hfree : s.hostStarved wp = false) (hpick : s.pickFree wp = some b) :
    execBandOpen wp s =
      if (s.bandMembers b.group b.block).length < 3 then
        .next (s.updBand b.ix (fun b => { b with state := .retired })).refreshLevel
      else .next (s.openBand wp b) := by
  have hgo := ne_true_of_eq_false (bandOpen_guard_eq_false hwp hruns hroom hfree)
  unfold execBandOpen
  refine (if_neg hgo).trans ?_
  simp only [hpick, State.openBand]

end Opening

/-! ### Reclaim: the kinds of victim in their order (R266, R267)

The victims are abbreviations, so that a hypothesis about one rewrites the command's own search. -/

section Reclaim

/-- The bands that reclaim may move. -/
abbrev State.candidates (s : State) : List Band := s.map.bands.filter s.isCandidate

/-- The best candidate with no valid IU, which is erased. -/
abbrev State.emptyVictim (s : State) : Option Band :=
  bestBy s.scoresAbove (s.map.bands.filter (fun b => s.isCandidate b && b.valid == 0))

/-- The exposed candidate with the fewest valid IUs. -/
abbrev State.exposedVictim (s : State) : Option Band :=
  bestBy (fun x y => decide (x.valid < y.valid)) (s.candidates.filter (fun b => b.exposed))

/-- The first candidate queued for refresh. -/
abbrev State.refreshVictim (s : State) : Option Band := s.candidates.find? (fun b => b.refresh.isSome)

/-- The ordinary victims in progress: a move with no write point of its own stands under point 1. -/
abbrev State.movingVictims (s : State) : List Band := s.map.bands.filter (fun b => b.moving == some 1)

/-- The class of an ordinary victim's strokes. -/
def State.victimClass (s : State) : Nat := if 2 ≤ s.map.level then 3 else 4

variable {s : State} {b : Band}

theorem mapWork_guard_eq_false (hruns : s.mapRuns = true) (hentry : s.pwr.entry.isSome = false) :
    (!s.mapRuns || s.pwr.entry.isSome) = false := by
  rw [hruns, hentry]; rfl

variable (hruns : s.mapRuns = true) (hentry : s.pwr.entry.isSome = false)
include hruns hentry

theorem execReclaimVictimPick_of_empty (hempty : s.emptyVictim = some b) :
    execReclaimVictimPick s = .next (s.startErase b.ix) := by
  simp only [execReclaimVictimPick, mapWork_guard_eq_false hruns hentry, hempty, Bool.false_eq_true, if_false]

variable (hempty : s.emptyVictim = none)
include hempty

theorem execReclaimVictimPick_of_exposed (hexposed : s.exposedVictim = some b) :
    execReclaimVictimPick s = .next (s.startMoves b.ix (some 5) 4) := by
  simp only [execReclaimVictimPick, mapWork_guard_eq_false hruns hentry, hempty, hexposed, Bool.false_eq_true, if_false]

variable (hexposed : s.exposedVictim = none)
include hexposed

theorem execReclaimVictimPick_of_refresh (hrefresh : s.refreshVictim = some b) :
    execReclaimVictimPick s = .next (s.startMoves b.ix (some 4) (b.refresh.getD 4)) := by
  simp only [execReclaimVictimPick, mapWork_guard_eq_false hruns hentry, hempty, hexposed, hrefresh, Bool.false_eq_true,
    if_false]

theorem execReclaimVictimPick_of_best (hrefresh : s.refreshVictim = none)
    (hlimit : s.movingVictims.length < s.victimLimit) (hbest : bestBy s.scoresAbove s.candidates = some b) :
    execReclaimVictimPick s = .next (s.startMoves b.ix none s.victimClass) := by
  simp only [execReclaimVictimPick, mapWork_guard_eq_false hruns hentry, hempty, hexposed, hrefresh,
    if_neg (Nat.not_le.mpr hlimit), hbest, State.victimClass, Bool.false_eq_true, if_false]

end Reclaim

/-! ### Erasing (R270) -/

theorem execBandEraseStart_of_empty {s : State} {band : Nat} {b : Band} (hband : s.band band = some b)
    (hempty : (s.mapRuns && s.isCandidate b && b.valid == 0) = true) :
    execBandEraseStart band s = .next (s.startErase band) := by
  simp only [execBandEraseStart, hband, hempty, if_true]

/-! ### Wear spreading (R272) -/

section Wear

/-- The highest erase count in service. -/
def State.wearHigh (s : State) : Nat := s.serviceCounts.foldl max 0

/-- The highest erase count in service less the lowest. -/
def State.wearSpan (s : State) : Nat := s.wearHigh - s.serviceCounts.foldl min s.wearHigh

/-- The number of blocks over which a band's mean erase count is taken. -/
def State.groupSize (s : State) (b : Band) : Nat := max 1 ((s.map.groups.getD b.group []).length)

/-- A lower mean erase count, the older newest ink time on a tie; the means are compared without division. -/
def State.lessWorn (s : State) (x y : Band) : Bool :=
  decide (s.bandErases x * s.groupSize y < s.bandErases y * s.groupSize x) ||
    (s.bandErases x * s.groupSize y == s.bandErases y * s.groupSize x && decide (x.newest < y.newest))

/-- The band `b` moves for wear levelling, or is done at once when it holds no valid IU. -/
def State.levelBand (s : State) (b : Band) : State :=
  let t := ({ s with map := { s.map with wlBand := some b.ix } } : State).startMoves b.ix (some 3) 4
  if (s.validIn b).isEmpty then t.moveDone b.ix else t

/-- The candidate that is best by `better` moves for wear levelling, if there is one. -/
def State.levelBest (s : State) (better : Band → Band → Bool) : State :=
  ((bestBy better s.candidates).map s.levelBand).getD s

variable {s : State} (hruns : s.mapRuns = true) (hentry : s.pwr.entry.isSome = false)
  (hen : s.flag F.MAP_CTRL_WL_EN = true) (hover : s.fld F.MAP_WEAR_SPREAD < s.wearSpan)
include hruns hentry hen hover

theorem wearSpread_guard_eq_false :
    (!s.mapRuns || s.pwr.entry.isSome || !s.flag F.MAP_CTRL_WL_EN || s.wearSpan ≤ s.fld F.MAP_WEAR_SPREAD) = false := by
  rw [mapWork_guard_eq_false hruns hentry, hen, decide_eq_false (Nat.not_le.mpr hover)]; rfl

/-- Above the limit SPREAD_OVER is set, and a band moves unless one moves already. -/
theorem execWearSpreadCheck_of_over :
    execWearSpreadCheck s =
      if (s.post F.MAP_EVT_STATUS_SPREAD_OVER noUnit).map.wlBand.isSome then
        .next (s.post F.MAP_EVT_STATUS_SPREAD_OVER noUnit)
      else .next ((s.post F.MAP_EVT_STATUS_SPREAD_OVER noUnit).levelBest s.lessWorn) := by
  have hgo := ne_true_of_eq_false (wearSpread_guard_eq_false hruns hentry hen hover)
  unfold execWearSpreadCheck
  refine (if_neg hgo).trans (ite_congr rfl (fun _ => rfl) (fun _ => ?_))
  generalize s.post F.MAP_EVT_STATUS_SPREAD_OVER noUnit = t
  change (match bestBy s.lessWorn t.candidates with | none => _ | some b => _) = _
  unfold State.levelBest
  cases bestBy s.lessWorn t.candidates with
  | none => rfl
  | some b => exact next_ite _ _

end Wear

/-! ### Scrubbing and idle pads: their guards (R251, R260) -/

theorem mapPageScrub_guard_eq_false {s : State}
    (hserves : (s.mapRuns || (s.mode == .safe && s.fld F.EVU_SAFE_MEDIA != 2)) = true) :
    (!(s.mapRuns || (s.mode == .safe && s.fld F.EVU_SAFE_MEDIA != 2))) = false := by
  rw [hserves]; rfl

theorem idlePad_guard_eq_false {s : State} {due : Nat} (hruns : s.mapRuns = true) (hdue : due ≤ s.now) :
    (!s.mapRuns || s.now < due) = false := by
  rw [hruns, decide_eq_false (Nat.not_lt.mpr hdue)]; rfl

/-- Settles O32: a scrub and an idle pad by their guards, a band's opening by the members of the one that is picked, a
victim by the first kind there is, and wear spreading by whether a band moves already. -/
theorem bandUpkeep : Obligations.BandUpkeep := by
  unfold Obligations.BandUpkeep
  refine ⟨?scrub, ?idlePad, ?opened, ?retired, ?empty, ?exposed, ?refresh, ?best, ?erase, ?spreadMoving, ?spread⟩
  case scrub =>
    intro s found hserves
    exact if_neg (ne_true_of_eq_false (mapPageScrub_guard_eq_false hserves))
  case idlePad =>
    intro s wp hruns hdue
    exact if_neg (ne_true_of_eq_false (idlePad_guard_eq_false hruns hdue))
  case opened =>
    intro s wp b hwp hruns hroom hfree hpick hmembers
    rw [exec_bandOpen]
    exact (execBandOpen_of_picked hwp hruns hroom hfree hpick).trans (if_neg (Nat.not_lt.mpr hmembers))
  case retired =>
    intro s wp b hwp hruns hroom hfree hpick hmembers
    rw [exec_bandOpen]
    exact (execBandOpen_of_picked hwp hruns hroom hfree hpick).trans (if_pos hmembers)
  case empty =>
    intro s b hruns hentry hempty
    exact execReclaimVictimPick_of_empty hruns hentry hempty
  case exposed =>
    intro s b hruns hentry hempty hexposed
    exact execReclaimVictimPick_of_exposed hruns hentry hempty hexposed
  case refresh =>
    intro s b hruns hentry hempty hexposed hrefresh
    exact execReclaimVictimPick_of_refresh hruns hentry hempty hexposed hrefresh
  case best =>
    intro s b hruns hentry hempty hexposed hrefresh hlimit hbest
    exact execReclaimVictimPick_of_best hruns hentry hempty hexposed hrefresh hlimit hbest
  case erase =>
    intro s band b hband hempty
    exact execBandEraseStart_of_empty hband hempty
  case spreadMoving =>
    intro s hruns hentry hen hover hmoving
    exact (execWearSpreadCheck_of_over hruns hentry hen hover).trans (if_pos hmoving)
  case spread =>
    intro s hruns hentry hen hover hidle
    exact (execWearSpreadCheck_of_over hruns hentry hen hover).trans (if_neg (ne_true_of_eq_false hidle))

end Sys2Proof.Machine
end

section
/-! Cut Create, Cut Release, Scriptorium Load and Role Drill, by the conditions that refuse them in their order, and the statement
about them (R303 to R305, R313, R316, R422, R423, R491, R492). -/

namespace Sys2Proof.Machine

/-! ### Cuts (R303 to R305, R316) -/

section Cuts

variable {s : State} {ref : Ref} {nsid cdw10 cdw11 cdw12 : Nat}

/-- The interface that a cut comes from: the sideband, or a queue of the host. -/
def cutOrigin (ref : Ref) : Nat := if ref = .side then 1 else 0

/-- The cut time in CDW10 and CDW11. -/
def cutTime (cdw10 cdw11 : Nat) : Nat := cdw10 % 2 ^ 32 + 2 ^ 32 * (cdw11 % 2 ^ 32)

/-- R304's check of a cut, on the state in which the command holds its tag. -/
def State.cutVerdict (s : State) (ref : Ref) (nsid cdw10 cdw11 : Nat) : Option (Status × Nat) :=
  (s.latch ref).cutCheck (cutOrigin ref) nsid (cutTime cdw10 cdw11) (s.nowAt islQueue / 256)

/-- The state with the cut sent to the chain and its outcome noted, where the command says BCAST (R305, R316). -/
def State.castCut (s : State) (ref : Ref) (nsid cdw10 cdw11 cdw12 : Nat) (r : Option (Status × Nat)) : State :=
  let no := s.bxl.cutIssued + 1
  if cdw12 % 2 == 1 then
    ((({ (s.latch ref) with bxl := { (s.latch ref).bxl with cutIssued := no } } : State).bxlSend false
      (.cut (cutTime cdw10 cdw11) s.nodeId no (nsid == 0xFFFFFFFF))).noteCut no r)
  else s.latch ref

/-- A cut is refused or accepted by its verdict, after the chain has it (R304, R305). -/
def State.judgeCut (s : State) (ref : Ref) (nsid cdw10 cdw11 cdw12 : Nat) : Res :=
  let r := s.cutVerdict ref nsid cdw10 cdw11
  let t := s.castCut ref nsid cdw10 cdw11 cdw12 r
  match r with
  | some (st, dw0) => .next ((t.refuseCut (st, dw0)).complete ref st dw0)
  | none => .next ((if cutOrigin ref = 1 then t.lockFor ref else t).acceptCut (cutOrigin ref) nsid (cutTime cdw10 cdw11)
      (cdw12 % 2 == 1) (some ref))

theorem judgeCut_of_refused {st : Status} {dw0 : Nat} (hcheck : s.cutVerdict ref nsid cdw10 cdw11 = some (st, dw0)) :
    s.judgeCut ref nsid cdw10 cdw11 cdw12 =
      .next (((s.castCut ref nsid cdw10 cdw11 cdw12 (some (st, dw0))).refuseCut (st, dw0)).complete ref st dw0) := by
  simp only [State.judgeCut, hcheck]

theorem judgeCut_of_passed (hcheck : s.cutVerdict ref nsid cdw10 cdw11 = none) :
    s.judgeCut ref nsid cdw10 cdw11 cdw12 =
      .next (let t := s.castCut ref nsid cdw10 cdw11 cdw12 none
        (if cutOrigin ref = 1 then t.lockFor ref else t).acceptCut (cutOrigin ref) nsid (cutTime cdw10 cdw11)
          (cdw12 % 2 == 1) (some ref)) := by
  simp only [State.judgeCut, hcheck]

theorem exec_cutCreate_of_bits (hacc : s.accepts ref = true) (hpf : (holderOf ref).isNone = false) (hbits : 2 ≤ cdw12) :
    exec (.cutCreate ref nsid cdw10 cdw11 cdw12) s = .next ((s.latch ref).complete ref .invalidField 0) :=
  exec_of_guard (exec_cutCreate ..) hacc ((if_neg (ne_true_of_eq_false hpf)).trans (if_pos hbits))

section Named

variable (hacc : s.accepts ref = true) (hpf : (holderOf ref).isNone = false) (hbits : cdw12 < 2)
include hacc hpf hbits

theorem exec_cutCreate_of_namespace (hns : (nsid != 0xFFFFFFFF && (s.ns nsid).isNone) = true) :
    exec (.cutCreate ref nsid cdw10 cdw11 cdw12) s = .next ((s.latch ref).complete ref .invalidNamespace 0) :=
  exec_of_guard (exec_cutCreate ..) hacc
    ((if_neg (ne_true_of_eq_false hpf)).trans ((if_neg (Nat.not_le.mpr hbits)).trans (if_pos hns)))

/-- A cut of every namespace, or of one that is there, comes to R304's verdict. -/
theorem exec_cutCreate_of_named (hns : (nsid != 0xFFFFFFFF && (s.ns nsid).isNone) = false) :
    exec (.cutCreate ref nsid cdw10 cdw11 cdw12) s = s.judgeCut ref nsid cdw10 cdw11 cdw12 :=
  exec_of_guard (exec_cutCreate ..) hacc
    ((if_neg (ne_true_of_eq_false hpf)).trans
      ((if_neg (Nat.not_le.mpr hbits)).trans (if_neg (ne_true_of_eq_false hns))))

end Named

/-- A PF's release frees a cut ID that is in use, and is refused for one that is free (R313). -/
theorem exec_cutRelease_of_pf (hacc : s.accepts ref = true) (hpf : (holderOf ref).isNone = false) :
    exec (.cutRelease ref cdw10) s =
      if !s.ckpt.cuts.any (fun c => c.slot == cdw10 % 16) then .next ((s.latch ref).complete ref .invalidField 0)
      else .next (((s.latch ref).releaseCut (cdw10 % 16)).complete ref .success 0) :=
  exec_of_guard (exec_cutRelease ..) hacc (if_neg (ne_true_of_eq_false hpf))

end Cuts

/-! ### Scriptorium Load (R422, R423) -/

section ScriptoriumLoad

variable {s : State} {ref : Ref} {cdw10 cdw11 cdw12 : Nat} {data : List Nat} {digest : Bool}

/-- The Nibs that a load names in CDW11 and CDW12. -/
def loadMask (cdw11 cdw12 : Nat) : Nat := cdw11 % 2 ^ 32 + 2 ^ 32 * (cdw12 % 2 ^ 16)

/-- The image of a load: the bytes of the SCR window, or the data of the command. -/
def State.loadBytes (s : State) (cdw10 cdw12 : Nat) (data : List Nat) : List Nat :=
  if cdw12.testBit 16 then (List.range (min (4 * cdw10) 14912)).map (fun a => (windowByte s.nib.window a).toNat) else data

/-- The check of a load's image. -/
def State.loadVerdict (s : State) (cdw10 cdw11 cdw12 : Nat) (data : List Nat) (digest : Bool) : Option Nat :=
  imgCheck (loadMask cdw11 cdw12) cdw12 (4 * cdw10) (s.flag F.DEV_SEAL_SEAL) (s.loadBytes cdw10 cdw12 data) digest

/-- An accepted load takes the lock and has the new set written to the Folio. -/
def State.startLoad (s : State) (ref : Ref) (cdw10 cdw11 cdw12 : Nat) (data : List Nat) : State :=
  let nibs := (List.range 48).filter (fun n => (loadMask cdw11 cdw12).testBit n)
  let t := s.lockFor ref
  ({ t with nib := { t.nib with
    load := some (ref, s.scrSet.withImage (imgOf (s.loadBytes cdw10 cdw12 data)) nibs, nibs) } } : State).folio
      { job := .scriptorium false, erase := true }

/-- A load whose state allows it is refused for its image, or starts. -/
def State.loadChecked (s : State) (ref : Ref) (cdw10 cdw11 cdw12 : Nat) (data : List Nat) (digest : Bool) : Res :=
  match s.loadVerdict cdw10 cdw11 cdw12 data digest with
  | some dw0 => .next (s.complete ref .invalidField dw0)
  | none => .next (s.startLoad ref cdw10 cdw11 cdw12 data)

theorem loadChecked_of_refused {dw0 : Nat} (himg : s.loadVerdict cdw10 cdw11 cdw12 data digest = some dw0) :
    s.loadChecked ref cdw10 cdw11 cdw12 data digest = .next (s.complete ref .invalidField dw0) := by
  simp only [State.loadChecked, himg]

theorem loadChecked_of_passed (himg : s.loadVerdict cdw10 cdw11 cdw12 data digest = none) :
    s.loadChecked ref cdw10 cdw11 cdw12 data digest = .next (s.startLoad ref cdw10 cdw11 cdw12 data) := by
  simp only [State.loadChecked, himg]

variable (hacc : s.accepts ref = true) (hpf : (holderOf ref).isNone = false)
include hacc hpf

theorem exec_scriptoriumLoad_of_elsewhere {h : Holder} (helse : (s.latch ref).heldAgainst ref = some h) :
    exec (.scriptoriumLoad ref cdw10 cdw11 cdw12 data digest) s =
      .next ((s.latch ref).complete ref .authorityElsewhere h.code) := by
  refine exec_of_guard (exec_scriptoriumLoad ..) hacc ((if_neg (ne_true_of_eq_false hpf)).trans ?_)
  simp only [helse, State.done]

/-- A load that no other party's lock stops meets the device's own conditions in their order, and then the check of its image. -/
theorem exec_scriptoriumLoad_of_free (hfree : (s.latch ref).heldAgainst ref = none) :
    exec (.scriptoriumLoad ref cdw10 cdw11 cdw12 data digest) s =
      if (s.latch ref).nib.load.isSome then .next ((s.latch ref).complete ref .cmdSeqError 0)
      else if (s.latch ref).lifecycle = 4 || (s.latch ref).lifecycle = 5 then
        .next ((s.latch ref).complete ref .updateRefused 1)
      else if (s.latch ref).bxl.lock then .next ((s.latch ref).complete ref .updateRefused 2)
      else if (s.latch ref).mode = .safe || (s.latch ref).mode = .holdUp then
        .next ((s.latch ref).complete ref .cmdSeqError 0)
      else (s.latch ref).loadChecked ref cdw10 cdw11 cdw12 data digest := by
  refine exec_of_guard (exec_scriptoriumLoad ..) hacc ((if_neg (ne_true_of_eq_false hpf)).trans ?_)
  simp only [hfree]
  rfl

/-- Where no condition of the device refuses it, a load comes to the check of its image. -/
theorem exec_scriptoriumLoad_of_ready (hfree : (s.latch ref).heldAgainst ref = none)
    (hidle : (s.latch ref).nib.load.isSome = false)
    (hlife : ((s.latch ref).lifecycle = 4 || (s.latch ref).lifecycle = 5) = false) (hlock : (s.latch ref).bxl.lock = false)
    (hmode : ((s.latch ref).mode = .safe || (s.latch ref).mode = .holdUp) = false) :
    exec (.scriptoriumLoad ref cdw10 cdw11 cdw12 data digest) s =
      (s.latch ref).loadChecked ref cdw10 cdw11 cdw12 data digest := by
  rw [exec_scriptoriumLoad_of_free hacc hpf hfree]
  simp only [hidle, hlife, hlock, hmode, Bool.false_eq_true, if_false]

end ScriptoriumLoad

/-! ### Role Drill (R491, R492) -/

section RoleDrills

variable {s : State} {ref : Ref} {reports : Bool} (hacc : s.accepts ref = true) (hpf : (holderOf ref).isNone = false)
include hacc hpf

theorem exec_roleDrill_of_params {params : Nat} (hparams : params ≠ 0) :
    exec (.roleDrill ref params reports) s = .next ((s.latch ref).complete ref .invalidField 0) :=
  exec_of_guard (exec_roleDrill ..) hacc ((if_neg (ne_true_of_eq_false hpf)).trans (if_pos (bne_iff_ne.mpr hparams)))

theorem exec_roleDrill_of_running {d : Drill} (hdrill : (s.latch ref).tine.drill = some d) :
    exec (.roleDrill ref 0 reports) s =
      .next { (s.latch ref) with tine := { (s.latch ref).tine with drill := some { d with refs := d.refs ++ [ref] } } } := by
  refine exec_of_guard (exec_roleDrill ..) hacc ((if_neg (ne_true_of_eq_false hpf)).trans ((if_neg (by decide)).trans ?_))
  simp only [hdrill]

/-- While no drill runs, a command is refused without a pair and in SAFE, and otherwise waits for its turn. -/
theorem exec_roleDrill_of_idle (hdrill : (s.latch ref).tine.drill = none) :
    exec (.roleDrill ref 0 reports) s =
      if !(s.latch ref).tine.paired then .next ((s.latch ref).complete ref .cmdSeqError 2)
      else if (s.latch ref).mode = .safe then .next ((s.latch ref).complete ref .cmdSeqError 3)
      else .next (({ (s.latch ref) with tine := { (s.latch ref).tine with
        waiting := (s.latch ref).tine.waiting ++ [({ ref := ref, at_ := s.now, reports := reports } : RoleDrill)] } } :
          State).drillPump) := by
  refine exec_of_guard (exec_roleDrill ..) hacc ((if_neg (ne_true_of_eq_false hpf)).trans ((if_neg (by decide)).trans ?_))
  simp only [hdrill, State.done]

end RoleDrills

/-- Settles O25: each command by its sender and the first of its checks that refuses it, a cut by R304's verdict, a load by its
image, a drill by the one that runs. -/
theorem cutsAndScriptorium : Obligations.CutsAndScriptorium := by
  unfold Obligations.CutsAndScriptorium
  refine ⟨?cutVf, ?cutBits, ?cutNamespace, ?cutRefused, ?cut, ?releaseVf, ?releaseFree, ?release, ?loadVf, ?loadElsewhere,
    ?loadBusy, ?loadMode, ?loadLifecycle, ?loadLocked, ?loadImage, ?load, ?drillVf, ?drillParams, ?drillJoins,
    ?drillUnpaired, ?drillSafe, ?drill⟩
  case cutVf =>
    intro s ref nsid cdw10 cdw11 cdw12 hacc hvf
    exact exec_of_guard (exec_cutCreate ..) hacc (if_pos hvf)
  case cutBits =>
    intro s ref nsid cdw10 cdw11 cdw12 hacc hpf hbits
    exact exec_cutCreate_of_bits hacc hpf hbits
  case cutNamespace =>
    intro s ref nsid cdw10 cdw11 cdw12 hacc hpf hbits hns
    exact exec_cutCreate_of_namespace hacc hpf hbits hns
  case cutRefused =>
    intro s ref nsid cdw10 cdw11 cdw12 st dw0 hacc hpf hbits hns hcheck
    exact (exec_cutCreate_of_named hacc hpf hbits hns).trans (judgeCut_of_refused hcheck)
  case cut =>
    intro s ref nsid cdw10 cdw11 cdw12 hacc hpf hbits hns hcheck
    exact (exec_cutCreate_of_named hacc hpf hbits hns).trans (judgeCut_of_passed hcheck)
  case releaseVf =>
    intro s ref cdw10 hacc hvf
    exact exec_of_guard (exec_cutRelease ..) hacc (if_pos hvf)
  case releaseFree =>
    intro s ref cdw10 hacc hpf hfree
    exact (exec_cutRelease_of_pf hacc hpf).trans (if_pos (congrArg (!·) hfree))
  case release =>
    intro s ref cdw10 hacc hpf hused
    exact (exec_cutRelease_of_pf hacc hpf).trans (if_neg (ne_true_of_eq_false (congrArg (!·) hused)))
  case loadVf =>
    intro s ref cdw10 cdw11 cdw12 data digest hacc hvf
    exact exec_of_guard (exec_scriptoriumLoad ..) hacc (if_pos hvf)
  case loadElsewhere =>
    intro s ref cdw10 cdw11 cdw12 data digest h hacc hpf helse
    exact exec_scriptoriumLoad_of_elsewhere hacc hpf helse
  case loadBusy =>
    intro s ref cdw10 cdw11 cdw12 data digest hacc hpf hfree hbusy
    exact (exec_scriptoriumLoad_of_free hacc hpf hfree).trans (if_pos hbusy)
  case loadMode =>
    intro s ref cdw10 cdw11 cdw12 data digest hacc hpf hfree hidle hlife hlock hmode
    rw [exec_scriptoriumLoad_of_free hacc hpf hfree]
    simp only [hidle, hlife, hlock, hmode, Bool.false_eq_true, if_false, if_true]
  case loadLifecycle =>
    intro s ref cdw10 cdw11 cdw12 data digest hacc hpf hfree hidle hlife
    rw [exec_scriptoriumLoad_of_free hacc hpf hfree]
    simp only [hidle, hlife, Bool.false_eq_true, if_false, if_true]
  case loadLocked =>
    intro s ref cdw10 cdw11 cdw12 data digest hacc hpf hfree hidle hlife hlock
    rw [exec_scriptoriumLoad_of_free hacc hpf hfree]
    simp only [hidle, hlife, hlock, Bool.false_eq_true, if_false, if_true]
  case loadImage =>
    intro s ref cdw10 cdw11 cdw12 data digest dw0 hacc hpf hfree hidle hlife hlock hmode himg
    exact (exec_scriptoriumLoad_of_ready hacc hpf hfree hidle hlife hlock hmode).trans
      (loadChecked_of_refused himg)
  case load =>
    intro s ref cdw10 cdw11 cdw12 data digest hacc hpf hfree hidle hlife hlock hmode himg
    exact (exec_scriptoriumLoad_of_ready hacc hpf hfree hidle hlife hlock hmode).trans
      (loadChecked_of_passed himg)
  case drillVf =>
    intro s ref params reports hacc hvf
    exact exec_of_guard (exec_roleDrill ..) hacc (if_pos hvf)
  case drillParams =>
    intro s ref params reports hacc hpf hparams
    exact exec_roleDrill_of_params hacc hpf hparams
  case drillJoins =>
    intro s ref reports d hacc hpf hdrill
    exact exec_roleDrill_of_running hacc hpf hdrill
  case drillUnpaired =>
    intro s ref reports hacc hpf hdrill hpair
    exact (exec_roleDrill_of_idle hacc hpf hdrill).trans (if_pos (congrArg (!·) hpair))
  case drillSafe =>
    intro s ref reports hacc hpf hdrill hpair hsafe
    exact (exec_roleDrill_of_idle hacc hpf hdrill).trans
      ((if_neg (ne_true_of_eq_false (congrArg (!·) hpair))).trans (if_pos hsafe))
  case drill =>
    intro s ref reports hacc hpf hdrill hpair hmode
    exact (exec_roleDrill_of_idle hacc hpf hdrill).trans
      ((if_neg (ne_true_of_eq_false (congrArg (!·) hpair))).trans (if_neg hmode))

end Sys2Proof.Machine
end

section
/-! Brynnyx frames of cuts, sweeps and the relay: a frame is handled where the port takes it and from the side it travels from, and the
statement about them (R305, R316, R559, R565 to R568, R570, R586). -/

namespace Sys2Proof.Machine

section Frames

variable {s : State} {i : Instr} {f : State × Bool} {k : State → Res} {t : Res} {up : Bool}

/-- A frame that the port does not take for handling leaves its arrival and nothing more (R559, R584). -/
theorem exec_of_frame_dropped (hi : exec i s = match f with | (s1, false) => .next s1 | (s1, true) => k s1)
    (hdrop : f.2 = false) : exec i s = .next f.1 := by
  obtain ⟨s1, taken⟩ := f
  cases hdrop
  exact hi

/-- A frame that the port takes does its work on the state in which it has arrived. -/
theorem exec_of_frame (hi : exec i s = match f with | (s1, false) => .next s1 | (s1, true) => k s1)
    (htake : f.2 = true) (hk : k f.1 = t) : exec i s = t := by
  obtain ⟨s1, taken⟩ := f
  cases htake
  exact hi.trans hk

/-- A frame that travels DN does its work when it comes in at UP. -/
theorem exec_of_frame_at_up
    (hi : exec i s = match f with | (s1, false) => .next s1 | (s1, true) => if !up then .next s1 else k s1)
    (htake : f.2 = true) (hup : up = true) (hk : k f.1 = t) : exec i s = t :=
  exec_of_frame hi htake ((if_neg (ne_true_of_eq_false (congrArg (!·) hup))).trans hk)

/-- A frame that travels DN does nothing when it comes in at DN. -/
theorem exec_of_frame_at_dn
    (hi : exec i s = match f with | (s1, false) => .next s1 | (s1, true) => if !up then .next s1 else k s1)
    (htake : f.2 = true) (hup : up = false) : exec i s = .next f.1 :=
  exec_of_frame hi htake (if_pos (congrArg (!·) hup))

end Frames

/-! ### Cuts (R305, R316) -/

section Cuts

variable {s : State} {port : BxlIn} {time node number : Nat} {all : Bool} (htake : (s.bxlFrame port 8).2 = true)
  (hup : port.up = true)
include htake hup

theorem exec_cut_of_refused {reason : Status × Nat}
    (hcheck : ((s.bxlFrame port 8).1.bxlRelay port (.cut time node number all)).cutCheck 2 0xFFFFFFFF time (s.now / 256) =
      some reason) :
    exec (.cut port time node number all) s =
      .next ((((s.bxlFrame port 8).1.bxlRelay port (.cut time node number all)).noteCut number (some reason)).refuseCut
        reason) :=
  exec_of_frame_at_up (exec_cut ..) htake hup (by simp only [hcheck])

theorem exec_cut_of_passed
    (hcheck : ((s.bxlFrame port 8).1.bxlRelay port (.cut time node number all)).cutCheck 2 0xFFFFFFFF time (s.now / 256) =
      none) :
    exec (.cut port time node number all) s =
      .next ((((s.bxlFrame port 8).1.bxlRelay port (.cut time node number all)).noteCut number none).acceptCut 2 0xFFFFFFFF
        time false none) :=
  exec_of_frame_at_up (exec_cut ..) htake hup (by simp only [hcheck])

end Cuts

/-! ### Sweeps (R566 to R568) -/

section SweepFrames

variable {s : State} {port : BxlIn} {part issuer : Nat} {e : SweepEntry} {openAfter : Option Nat}

/-- A node without an ID only relays a sweep request; one with an ID answers with its entry. -/
theorem exec_sweepReq_at_up (htake : (s.bxlFrame port 9).2 = true) (hup : port.up = true) :
    exec (.sweepReq port issuer) s =
      let t := (s.bxlFrame port 9).1.bxlRelay port (.sweepReq issuer)
      if !t.hasId then .next t
      else .next (({ t with bxl := { t.bxl with asked := some (s.now, !t.bxl.dn.linked), askedBy := issuer } } : State).sendEntry
        t.sweepEntry) :=
  exec_of_frame_at_up (exec_sweepReq ..) htake hup rfl

/-- The report with one more third of an entry; the third that completes the entry adds it to the report (R568). -/
def Report.withThird (r : Report) (part : Nat) (e : SweepEntry) : Report :=
  let parts := (e.node, part % 3) :: r.parts.filter (fun p => p != (e.node, part % 3))
  if (List.range 3).all (fun k => parts.contains (e.node, k)) then
    { r with entries := insertEntry e r.entries, parts := parts.filter (fun p => p.1 != e.node) }
  else { r with parts := parts }

theorem exec_sweepEnt_of_relayed (htake : (s.bxlFrame port 10).2 = true) (hdn : port.up = false)
    (hother : (s.bxlFrame port 10).1.sweeping = false) :
    exec (.sweepEnt port part e) s = .next ((s.bxlFrame port 10).1.bxlRelay port (.sweepEnt e part)) :=
  exec_of_frame (exec_sweepEnt ..) htake
    ((if_neg (ne_true_of_eq_false hdn)).trans (if_pos (congrArg (!·) hother)))

theorem exec_sweepEnt_of_issuer {r : Report} (htake : (s.bxlFrame port 10).2 = true) (hdn : port.up = false)
    (hsweep : (s.bxlFrame port 10).1.sweeping = true) (hr : (s.bxlFrame port 10).1.bxl.report = some r) :
    exec (.sweepEnt port part e) s =
      .next { (s.bxlFrame port 10).1 with bxl := { (s.bxlFrame port 10).1.bxl with report := some (r.withThird part e) } } := by
  refine exec_of_frame (exec_sweepEnt ..) htake
    ((if_neg (ne_true_of_eq_false hdn)).trans ((if_neg (ne_true_of_eq_false (congrArg (!·) hsweep))).trans ?_))
  simp only [hr]
  rfl

/-- The end of a sweep closes the issuer's report; any other node marks its own part done and relays the end. -/
theorem exec_sweepEnd_at_dn (htake : (s.bxlFrame port 11).2 = true) (hdn : port.up = false) :
    exec (.sweepEnd port openAfter) s =
      let t := (s.bxlFrame port 11).1
      if t.sweeping then .next (t.closeReport openAfter)
      else .next (({ t with bxl := { t.bxl with asked := t.bxl.asked.map (fun a => (a.1, true)) } } : State).bxlRelay port
        (.sweepEnd openAfter)) :=
  exec_of_frame (exec_sweepEnd ..) htake (if_neg (ne_true_of_eq_false hdn))

end SweepFrames

/-! ### The relay (R570, R586) -/

section RelayFrames

variable {s : State} {port : BxlIn} {n action chunks : Nat} {c : PkgChunk} {r : Relay}

/-- A session opens with its staging empty, and goes on where DN is linked (R570). -/
def State.openSession (s : State) (port : BxlIn) (action chunks : Nat) : State :=
  let on := s.bxl.dn.linked
  let t : State := { s with bxl := { s.bxl with
    recv := some (action, chunks), staging := {}, relay := if on then some { action := action, chunks := chunks } else none } }
  let u := ((t.setFld F.BXL_RELAY_STATE 1).setFld F.BXL_RELAY_CHUNKS 0).setFld F.BXL_RELAY_REASON 0
  if on then u.bxlRelay port (.relayStart action chunks) else u

/-- Without RELAY_EN nothing is received; with it a session opens. -/
theorem exec_relayStart_at_up (htake : (s.bxlFrame port 12).2 = true) (hup : port.up = true) :
    exec (.relayStart port action chunks) s =
      let s1 := (s.bxlFrame port 12).1
      if !s1.flag F.BXL_CFG_RELAY_EN then .next { s1 with bxl := { s1.bxl with recv := none } }
      else .next (s1.openSession port action chunks) :=
  exec_of_frame_at_up (exec_relayStart ..) htake hup rfl

section Chunks

variable (htake : (s.bxlFrame port 13).2 = true) (hup : port.up = true)
include htake hup

theorem exec_chunk_of_disabled (hen : (s.bxlFrame port 13).1.flag F.BXL_CFG_RELAY_EN = false) :
    exec (.chunk port n c) s =
      .next (if n = 0 then (s.bxlFrame port 13).1.bxlSend true (.ack 0 false) else (s.bxlFrame port 13).1) :=
  exec_of_frame_at_up (exec_chunk ..) htake hup (if_pos (congrArg (!·) hen))

variable (hen : (s.bxlFrame port 13).1.flag F.BXL_CFG_RELAY_EN = true)
include hen

/-- Outside a session a chunk is only acknowledged, where staging holds it. -/
theorem exec_chunk_of_no_session (hrecv : (s.bxlFrame port 13).1.bxl.recv = none) :
    exec (.chunk port n c) s =
      .next (if ((s.bxlFrame port 13).1.bxl.staging.chunk n).isSome then (s.bxlFrame port 13).1.bxlSend true (.ack n true)
        else (s.bxlFrame port 13).1) := by
  refine exec_of_frame_at_up (exec_chunk ..) htake hup ((if_neg (ne_true_of_eq_false (congrArg (!·) hen))).trans ?_)
  simp only [hrecv]

/-- In a session a chunk is kept or refused, as its verification says. -/
theorem exec_chunk_of_session (hrecv : (s.bxlFrame port 13).1.bxl.recv = some (action, chunks)) :
    exec (.chunk port n c) s =
      if (s.bxlFrame port 13).1.chunkPasses chunks n c then .next ((s.bxlFrame port 13).1.chunkPassed action chunks n c)
      else .next (((s.bxlFrame port 13).1.post F.BXL_EVT_STATUS_CHUNK_BAD noUnit).bxlSend true (.ack n false)) := by
  refine exec_of_frame_at_up (exec_chunk ..) htake hup ((if_neg (ne_true_of_eq_false (congrArg (!·) hen))).trans ?_)
  simp only [hrecv]

end Chunks

section Acks

variable {pass : Bool} (htake : (s.bxlFrame port 14).2 = true)
include htake

theorem exec_ack_of_no_relay (hrelay : (s.bxlFrame port 14).1.bxl.relay = none) :
    exec (.ack port n pass) s = .next (s.bxlFrame port 14).1 :=
  exec_of_frame (exec_ack ..) htake (by simp only [hrelay])

/-- The session after the acknowledgement of a chunk that is out. -/
def Relay.acked (r : Relay) (n : Nat) : Relay :=
  { r with out := r.out.filter (fun c => c.k != n), last := some (max n (r.last.getD 0)) }

/-- An acknowledgement counts at DN and for a chunk that is out: a refused chunk goes again, an accepted one makes room or ends the
session. -/
theorem exec_ack_of_relay (hrelay : (s.bxlFrame port 14).1.bxl.relay = some r) :
    exec (.ack port n pass) s =
      let t : State := { (s.bxlFrame port 14).1 with bxl := { (s.bxlFrame port 14).1.bxl with relay := some (r.acked n) } }
      if port.up || !r.out.any (fun c => c.k == n) then .next (s.bxlFrame port 14).1
      else if !pass then .next ((s.bxlFrame port 14).1.relayAgain n)
      else if (r.acked n).out.isEmpty && (r.acked n).chunks ≤ (r.acked n).next then .next (t.relayEnd false)
      else .next t.relaySend := by
  refine exec_of_frame (exec_ack ..) htake ?_
  simp only [hrelay]
  rfl

end Acks

/-- An abort goes on; it ends the session of a node that still receives. -/
theorem exec_relayAbort_at_up (htake : (s.bxlFrame port 15).2 = true) (hup : port.up = true) :
    exec (.relayAbort port) s =
      let t := (s.bxlFrame port 15).1.bxlRelay port .relayAbort
      if t.bxl.recv.isNone then .next t
      else .next ((({ t with bxl := { t.bxl with recv := none, staging := {}, relay := none } } : State).setFld
        F.BXL_RELAY_STATE 5).post F.BXL_EVT_STATUS_RELAY_ABORT noUnit) :=
  exec_of_frame_at_up (exec_relayAbort ..) htake hup rfl

end RelayFrames

/-- Settles O38: a frame by whether the port takes it, by the side it comes in at, and then by what the node holds of the cut, the
sweep or the session it belongs to. -/
theorem brynnyxSweepsAndRelay : Obligations.BrynnyxSweepsAndRelay := by
  unfold Obligations.BrynnyxSweepsAndRelay
  refine ⟨?cutDropped, ?reqDropped, ?entDropped, ?endDropped, ?startDropped, ?chunkDropped, ?ackDropped, ?abortDropped,
    ?cutDn, ?reqDn, ?startDn, ?chunkDn, ?abortDn, ?cutRefused, ?cut, ?reqNoId, ?req, ?entUp, ?entRelayed, ?ent,
    ?endUp, ?endIssuer, ?endRelayed, ?startDisabled, ?start, ?chunkDisabled, ?chunkNoSession, ?chunk, ?chunkBad,
    ?ackNoRelay, ?ackOther, ?ackRefused, ?ack, ?abortIdle, ?abort⟩
  case cutDropped =>
    intro s port time node number all hdrop
    exact exec_of_frame_dropped (exec_cut ..) hdrop
  case reqDropped =>
    intro s port issuer hdrop
    exact exec_of_frame_dropped (exec_sweepReq ..) hdrop
  case entDropped =>
    intro s port part e hdrop
    exact exec_of_frame_dropped (exec_sweepEnt ..) hdrop
  case endDropped =>
    intro s port openAfter hdrop
    exact exec_of_frame_dropped (exec_sweepEnd ..) hdrop
  case startDropped =>
    intro s port action chunks hdrop
    exact exec_of_frame_dropped (exec_relayStart ..) hdrop
  case chunkDropped =>
    intro s port k c hdrop
    exact exec_of_frame_dropped (exec_chunk ..) hdrop
  case ackDropped =>
    intro s port k pass hdrop
    exact exec_of_frame_dropped (exec_ack ..) hdrop
  case abortDropped =>
    intro s port hdrop
    exact exec_of_frame_dropped (exec_relayAbort ..) hdrop
  case cutDn =>
    intro s port time node number all htake hdn
    exact exec_of_frame_at_dn (exec_cut ..) htake hdn
  case reqDn =>
    intro s port issuer htake hdn
    exact exec_of_frame_at_dn (exec_sweepReq ..) htake hdn
  case startDn =>
    intro s port action chunks htake hdn
    exact exec_of_frame_at_dn (exec_relayStart ..) htake hdn
  case chunkDn =>
    intro s port k c htake hdn
    exact exec_of_frame_at_dn (exec_chunk ..) htake hdn
  case abortDn =>
    intro s port htake hdn
    exact exec_of_frame_at_dn (exec_relayAbort ..) htake hdn
  case cutRefused =>
    intro s port time node number all st dw0 htake hup hcheck
    exact exec_cut_of_refused htake hup hcheck
  case cut =>
    intro s port time node number all htake hup hcheck
    exact exec_cut_of_passed htake hup hcheck
  case reqNoId =>
    intro s port issuer htake hup hid
    exact (exec_sweepReq_at_up htake hup).trans (if_pos (congrArg (!·) hid))
  case req =>
    intro s port issuer htake hup hid
    exact (exec_sweepReq_at_up htake hup).trans (if_neg (ne_true_of_eq_false (congrArg (!·) hid)))
  case entUp =>
    intro s port part e htake hup
    exact exec_of_frame (exec_sweepEnt ..) htake (if_pos hup)
  case entRelayed =>
    intro s port part e htake hdn hother
    exact exec_sweepEnt_of_relayed htake hdn hother
  case ent =>
    intro s port part e r htake hdn hsweep hr
    exact exec_sweepEnt_of_issuer htake hdn hsweep hr
  case endUp =>
    intro s port openAfter htake hup
    exact exec_of_frame (exec_sweepEnd ..) htake (if_pos hup)
  case endIssuer =>
    intro s port openAfter htake hdn hsweep
    exact (exec_sweepEnd_at_dn htake hdn).trans (if_pos hsweep)
  case endRelayed =>
    intro s port openAfter htake hdn hother
    exact (exec_sweepEnd_at_dn htake hdn).trans (if_neg (ne_true_of_eq_false hother))
  case startDisabled =>
    intro s port action chunks htake hup hen
    exact (exec_relayStart_at_up htake hup).trans (if_pos (congrArg (!·) hen))
  case start =>
    intro s port action chunks htake hup hen
    exact (exec_relayStart_at_up htake hup).trans (if_neg (ne_true_of_eq_false (congrArg (!·) hen)))
  case chunkDisabled =>
    intro s port k c htake hup hen
    exact exec_chunk_of_disabled htake hup hen
  case chunkNoSession =>
    intro s port k c htake hup hen hrecv
    exact exec_chunk_of_no_session htake hup hen hrecv
  case chunk =>
    intro s port k c action chunks htake hup hen hrecv hok
    exact (exec_chunk_of_session htake hup hen hrecv).trans (if_pos hok)
  case chunkBad =>
    intro s port k c action chunks htake hup hen hrecv hbad
    exact (exec_chunk_of_session htake hup hen hrecv).trans (if_neg (ne_true_of_eq_false hbad))
  case ackNoRelay =>
    intro s port k pass htake hrelay
    exact exec_ack_of_no_relay htake hrelay
  case ackOther =>
    intro s port k pass r htake hrelay hother
    exact (exec_ack_of_relay htake hrelay).trans (if_pos hother)
  case ackRefused =>
    intro s port k r htake hrelay hout
    exact (exec_ack_of_relay htake hrelay).trans ((if_neg (ne_true_of_eq_false hout)).trans (if_pos rfl))
  case ack =>
    intro s port k r htake hrelay hout
    exact (exec_ack_of_relay htake hrelay).trans
      ((if_neg (ne_true_of_eq_false hout)).trans ((if_neg (by decide)).trans (next_ite ..)))
  case abortIdle =>
    intro s port htake hup hidle
    exact (exec_relayAbort_at_up htake hup).trans (if_pos hidle)
  case abort =>
    intro s port htake hup hrecv
    exact (exec_relayAbort_at_up htake hup).trans (if_neg (ne_true_of_eq_false hrecv))

end Sys2Proof.Machine
end

section
/-! The end of a rebuild, the patrol window, the energy store's samples and its self-test: one equation per outcome, and the
statement about them (R341 to R343, R351, R352, R434 to R436, R439). -/

namespace Sys2Proof.Machine

/-! ### The end of a rebuild (R341 to R343, R353) -/

section Rebuild

/-- The map entry over which a rebuilt unit takes effect: the one that the read's lookup found, or the place that was read. -/
def State.expected (s : State) (f : Fetch) : MapEntry :=
  if f.kind = 0 && f.expect != .unmapped then f.expect else .mapped (s.target f).addr

/-- A rebuild that was no choice of the read: in BOOT its reaction is put off, otherwise the unit is written again, unless the
mode writes nothing or a move places it, and is a finding; the rebuild counts in both. -/
def State.rebuildKept (s : State) (f : Fetch) : State :=
  let t := s.post F.LIG_EVT_STATUS_REBUILT (lunOf f.addr)
  if t.mode = .boot then
    { t.countRebuild (lunOf f.addr) (s.blockOf f.addr) with map.deferred := t.map.deferred ++ [((s.target f).addr, 3, true)] }
  else
    let u := if t.writesBack && !(f.users.any User.isMove) then t.writeRebuilt (s.target f) (s.expected f) else t
    (u.countRebuild (lunOf f.addr) (s.blockOf f.addr)).finding f.addr 3

variable {s : State} {id : Nat} {f : Fetch}

theorem rebuildDone_guard_eq_false (hrebuild : f.rebuild = true) (hpeers : f.peers = 0) (hnested : f.nested = false) :
    (!f.rebuild || f.peers != 0 || f.nested) = false := by
  rw [hrebuild, hpeers, hnested]; rfl

variable (hfetch : s.fetchAt id = some f) (hrebuild : f.rebuild = true) (hpeers : f.peers = 0) (hnested : f.nested = false)
include hfetch hrebuild hpeers hnested

/-- A rebuild that fails leaves the read to a ladder that still runs; otherwise the unit is lost. -/
theorem execUnitRebuildDone_of_failed {ok : Bool} (hfail : (f.peerLost || !ok) = true) :
    execUnitRebuildDone id ok s =
      if f.ladder then .next (s.updFetch id (fun f => { f with rebuild := false })) else .next (s.unitLost f) := by
  simp only [execUnitRebuildDone, hfetch, rebuildDone_guard_eq_false hrebuild hpeers hnested, hfail, Bool.false_eq_true,
    if_false, if_true]

/-- A rebuild that passes gives the unit to everyone that waits, after what a rebuild that was no choice of the read keeps. -/
theorem execUnitRebuildDone_of_passed (hpeer : f.peerLost = false) :
    execUnitRebuildDone id true s =
      .next ((if f.around then s.post F.LIG_EVT_STATUS_REBUILT (lunOf f.addr)
        else s.rebuildKept f).giveAll f false) := by
  simp only [execUnitRebuildDone, hfetch, rebuildDone_guard_eq_false hrebuild hpeers hnested, hpeer, Bool.not_true,
    Bool.or_self, Bool.false_eq_true, if_false]
  rfl

end Rebuild

/-! ### The patrol window (R351, R352) -/

theorem patrolWindow_guard_eq_false {s : State} (hruns : s.mapRuns = true) (hentry : s.pwr.entry.isSome = false)
    (hen : s.flag F.LIG_CTRL_PATROL_EN = true) :
    (!s.mapRuns || s.pwr.entry.isSome || !s.flag F.LIG_CTRL_PATROL_EN) = false := by
  rw [mapWork_guard_eq_false hruns hentry, hen]; rfl

/-! ### A sample of the store, by the phase of its self-test (R434 to R436) -/

section Sample

/-- The store voltage of a code, as far as its register holds it. -/
def State.sampleV (s : State) (code : Nat) : Nat := min 4095 (s.storeV code)

/-- The wet bytes that the budgets admit at 85 % of VF, to which the self-test bleeds the store. -/
def State.testRoom (s : State) : Nat :=
  let budgets := s.budgets (s.fld F.PWR_ES_MEAS_VFULL * 85 / 100) true
  (budgets.1 + budgets.2) * 1048576

/-- The self-test's bleed starts. -/
def State.startBleed (s : State) (at_ : Nat) : State :=
  { s with blt := { s.blt with bleed := true, test := .bleeding, testAt := at_ } }

/-- The bleed ends at the voltage `v`, from which the charge curve rises. -/
def State.startRecharge (s : State) (v at_ : Nat) : State :=
  { s with blt := { s.blt with bleed := false, test := .recharging, testAt := at_, rise := [(v, at_)] } }

/-- The self-test ends with the capacitance that the charge curve gives, which passes from CMIN on. -/
def State.chargeResult (s : State) : State :=
  let t := s.measureC (s.fld F.PWR_ES_MEAS_VFULL)
  t.testResult (10 * t.fld F.PWR_ES_CFG2_CMIN ≤ t.fld F.PWR_ES_MEAS_C_UF)

variable {s : State} {code : Nat} (hon : s.mode ≠ .off)
include hon

theorem execVstoreSample_of_idle (htest : (s.sampled code).blt.test = .idle) :
    execVstoreSample code s = .next (s.sampled code) := by
  simp only [execVstoreSample, if_neg hon, htest]

theorem execVstoreSample_of_waiting (htest : (s.sampled code).blt.test = .waiting) :
    execVstoreSample code s =
      .next (if (s.sampled code).wetBytes ≤ (s.sampled code).testRoom then (s.sampled code).startBleed s.now
        else s.sampled code) := by
  simp only [execVstoreSample, if_neg hon, htest, next_ite]
  rfl

theorem execVstoreSample_of_bleeding (htest : (s.sampled code).blt.test = .bleeding) :
    execVstoreSample code s =
      .next (if 2 * secT < s.now - (s.sampled code).blt.testAt then (s.sampled code).testResult false
        else if s.sampleV code * 100 < (s.sampled code).fld F.PWR_ES_MEAS_VFULL * 85 then
          (s.sampled code).startRecharge (s.sampleV code) s.now
        else s.sampled code) := by
  simp only [execVstoreSample, if_neg hon, htest, next_ite]
  rfl

theorem execVstoreSample_of_recharging (htest : (s.sampled code).blt.test = .recharging) :
    execVstoreSample code s =
      .next (if 2 * secT < s.now - (s.sampled code).blt.testAt then (s.sampled code).testResult false
        else if (s.sampled code).fld F.PWR_ES_MEAS_VFULL * 95 ≤ s.sampleV code * 100 then (s.sampled code).chargeResult
        else s.sampled code) := by
  simp only [execVstoreSample, if_neg hon, htest, next_ite]
  rfl

end Sample

/-! ### The self-test falls due (R436) -/

theorem selfTest_guard_eq_true {s : State} (hmon : s.monitors = true) (hidle : s.blt.test = .idle)
    (hdue : s.testDue = true) : (s.monitors && s.blt.test = .idle && s.testDue) = true := by
  rw [hmon, hidle, hdue]; rfl

/-- Settles O34: a rebuild's end by whether it fails, whether a ladder runs and whether it was read around; the patrol window
and the two monitors by their guards; a sample by the phase of the self-test. -/
theorem rebuildsAndPatrol : Obligations.RebuildsAndPatrol := by
  unfold Obligations.RebuildsAndPatrol
  refine ⟨?lost, ?ladder, ?around, ?kept, ?patrol, ?idle, ?waiting, ?bleeding, ?recharging, ?budgets, ?selfTest⟩
  case lost =>
    intro s id f ok hfetch hrebuild hpeers hnested hfail hladder
    exact (execUnitRebuildDone_of_failed hfetch hrebuild hpeers hnested hfail).trans (if_neg (ne_true_of_eq_false hladder))
  case ladder =>
    intro s id f ok hfetch hrebuild hpeers hnested hfail hladder
    exact (execUnitRebuildDone_of_failed hfetch hrebuild hpeers hnested hfail).trans (if_pos hladder)
  case around =>
    intro s id f hfetch hrebuild hpeers hnested hpeer haround
    rw [exec_unitRebuildDone, execUnitRebuildDone_of_passed hfetch hrebuild hpeers hnested hpeer, if_pos haround]
  case kept =>
    intro s id f hfetch hrebuild hpeers hnested hpeer haround
    rw [exec_unitRebuildDone, execUnitRebuildDone_of_passed hfetch hrebuild hpeers hnested hpeer,
      if_neg (ne_true_of_eq_false haround)]
    rfl
  case patrol =>
    intro s hruns hentry hen
    simp only [exec_patrolWindow, execPatrolWindow, patrolWindow_guard_eq_false hruns hentry hen, Bool.false_eq_true,
      if_false]
  case idle =>
    intro s code hon htest
    exact execVstoreSample_of_idle hon htest
  case waiting =>
    intro s code hon htest
    exact execVstoreSample_of_waiting hon htest
  case bleeding =>
    intro s code hon htest
    exact execVstoreSample_of_bleeding hon htest
  case recharging =>
    intro s code hon htest
    exact execVstoreSample_of_recharging hon htest
  case budgets =>
    intro s hmon
    exact if_pos hmon
  case selfTest =>
    intro s hmon hidle hdue
    exact if_pos (selfTest_guard_eq_true hmon hidle hdue)

end Sys2Proof.Machine
end

section
/-! A Nib's descriptors and due lines, one equation per outcome, and the statement about them (R369 to R371, R388). -/

namespace Sys2Proof.Machine

/-! ### A descriptor arrives (R369, R370, R388) -/

section Descriptors

variable {s : State} {nib seq : Nat}

theorem execDescriptorAccept_of_repeated {l : Nat} (hlast : s.nib.lastSeq.lookup nib = some l) (hold : seqLater seq l = false) :
    execDescriptorAccept nib seq s =
      .next (if s.mode = .off then s else s.post (F.NIB_EVT_STATUS_DUP_DESC nib) nib) := by
  simp only [execDescriptorAccept, hlast, hold, Bool.not_false, if_true]

/-- A descriptor is a repeat where it does not follow the last one of its Nib (R370). -/
def repeatsSeq (seq : Nat) (last : Option Nat) : Bool :=
  match last with
  | some l => !seqLater seq l
  | none => false

theorem repeatsSeq_eq_false {last : Option Nat} (hnew : last.all (fun l => seqLater seq l) = true) :
    repeatsSeq seq last = false := by
  cases last with
  | none => rfl
  | some l => simpa only [repeatsSeq, Bool.not_eq_false', Option.all_some] using hnew

/-- The run that the descriptor of stroke `k` starts. -/
def State.newRun (s : State) (nib seq : Nat) (k : Stroke) : Run :=
  { nib := nib, req := k.req, seq := seq, lun := k.lun, accAt := s.nowAt (islNib nib) }

/-- The Nib takes the descriptor of stroke `k` and starts its run. -/
def State.takeDescriptor (s : State) (nib seq : Nat) (k : Stroke) : State :=
  let t := s.updStroke k.req (fun k => { k with accepted := true })
  { t with nib := { t.nib with
    lastSeq := (nib, seq) :: t.nib.lastSeq.filter (fun e => e.1 != nib), runs := t.nib.runs ++ [s.newRun nib seq k] } }

theorem execDescriptorAccept_of_placed {k : Stroke} (hnew : (s.nib.lastSeq.lookup nib).all (fun l => seqLater seq l) = true)
    (hplaced : s.stk.strokes.find?
      (fun k => chanOf k.lun == nib && k.phase == .placed && !k.accepted && k.seq == seq) = some k) :
    execDescriptorAccept nib seq s =
      .next (if s.nibMasked nib then (s.takeDescriptor nib seq k).endRun (s.newRun nib seq k) 0x0C 0
        else s.takeDescriptor nib seq k) := by
  rw [execDescriptorAccept, hplaced]
  exact if_neg (ne_true_of_eq_false (repeatsSeq_eq_false hnew))

end Descriptors

/-! ### The due line: the checks in their order (R371) -/

section DueLine

/-- The bus is not free at the due line: an earlier segment holds it, or an earlier descriptor has the same due line. -/
def State.busTaken (s : State) (nib seq : Nat) (busHeld : Bool) (k : Stroke) : Bool :=
  busHeld || s.nib.runs.any (fun y => y.nib == nib && y.seq != seq && seqLater seq y.seq &&
    ((s.strokeOf y.req).map (fun o => o.due == k.due)).getD false)

variable {s : State} {nib seq : Nat} {r : Run} {k : Stroke} (ofs : Int) (busHeld : Bool)
  (hrun : s.runAt nib seq = some r) (hstroke : s.strokeOf r.req = some k)
  (hdue : (r.launched || s.nowAt (islNib nib) < k.due * 256 || s.fld (F.NIB_STATUS_STATE nib) != 3) = false)
include hrun hstroke hdue

/-- At the due line the LUN, the mode and WP_N come first, then the late descriptor, the busy LUN and the bus. -/
theorem execStrokeDueLine_of_due :
    execStrokeDueLine nib seq ofs busHeld s =
      if (s.lun r.lun).state = .unresponsive || (s.lun r.lun).retired then .next (s.endRun r 0x08 0)
      else if s.modeForbids k then .next (s.endRun r 0x0C 0)
      else if k.writes && s.wpLow nib then .next (s.endRun r 0x0C 0)
      else if k.due * 256 < r.accAt then .next (s.endRun r 0x04 0)
      else if s.lunBusyFor r k then .next (s.endRun r 0x05 0)
      else if s.busTaken nib seq busHeld k then
        .next ((s.post (F.NIB_EVT_STATUS_BUS_CONFLICT nib) r.lun).endRun r 0x06 0)
      else .next (s.launch r k ofs) := by
  simp only [execStrokeDueLine, hrun, hstroke, hdue, Bool.false_eq_true, if_false]
  rfl

variable (hserves : ((s.lun r.lun).state = .unresponsive || (s.lun r.lun).retired) = false)
include hserves

theorem execStrokeDueLine_of_forbidden (hmode : s.modeForbids k = true) :
    execStrokeDueLine nib seq ofs busHeld s = .next (s.endRun r 0x0C 0) :=
  (execStrokeDueLine_of_due ofs busHeld hrun hstroke hdue).trans
    ((if_neg (ne_true_of_eq_false hserves)).trans (if_pos hmode))

theorem execStrokeDueLine_of_protected (hmode : s.modeForbids k = false) (hwp : (k.writes && s.wpLow nib) = true) :
    execStrokeDueLine nib seq ofs busHeld s = .next (s.endRun r 0x0C 0) :=
  (execStrokeDueLine_of_due ofs busHeld hrun hstroke hdue).trans
    ((if_neg (ne_true_of_eq_false hserves)).trans ((if_neg (ne_true_of_eq_false hmode)).trans (if_pos hwp)))

/-- A stroke that its LUN, the mode and WP_N admit goes through the ordered checks. -/
theorem execStrokeDueLine_of_admitted (hmode : s.modeForbids k = false) (hwp : (k.writes && s.wpLow nib) = false) :
    execStrokeDueLine nib seq ofs busHeld s =
      if k.due * 256 < r.accAt then .next (s.endRun r 0x04 0)
      else if s.lunBusyFor r k then .next (s.endRun r 0x05 0)
      else if s.busTaken nib seq busHeld k then
        .next ((s.post (F.NIB_EVT_STATUS_BUS_CONFLICT nib) r.lun).endRun r 0x06 0)
      else .next (s.launch r k ofs) :=
  (execStrokeDueLine_of_due ofs busHeld hrun hstroke hdue).trans ((if_neg (ne_true_of_eq_false hserves)).trans
    ((if_neg (ne_true_of_eq_false hmode)).trans (if_neg (ne_true_of_eq_false hwp))))

end DueLine

/-- Settles O11: a descriptor by whether it is a repeat; the due line by the first of its checks that fails. -/
theorem nibDescriptors : Obligations.NibDescriptors := by
  unfold Obligations.NibDescriptors
  refine ⟨?repeated, ?placed, ?gone, ?forbidden, ?writeProtected, ?late, ?busy, ?conflict, ?launches⟩
  case repeated =>
    intro s nib seq l hlast hold
    exact execDescriptorAccept_of_repeated hlast hold
  case placed =>
    intro s nib seq k hnew hplaced
    exact execDescriptorAccept_of_placed hnew hplaced
  case gone =>
    intro s nib seq ofs busHeld r k hrun hstroke hdue hgone
    exact (execStrokeDueLine_of_due ofs busHeld hrun hstroke hdue).trans (if_pos hgone)
  case forbidden =>
    intro s nib seq ofs busHeld r k hrun hstroke hdue hserves hmode
    exact execStrokeDueLine_of_forbidden ofs busHeld hrun hstroke hdue hserves hmode
  case writeProtected =>
    intro s nib seq ofs busHeld r k hrun hstroke hdue hserves hmode hwp
    exact execStrokeDueLine_of_protected ofs busHeld hrun hstroke hdue hserves hmode hwp
  case late =>
    intro s nib seq ofs busHeld r k hrun hstroke hdue hserves hmode hwp hlate
    exact (execStrokeDueLine_of_admitted ofs busHeld hrun hstroke hdue hserves hmode hwp).trans (if_pos (of_eq_true hlate))
  case busy =>
    intro s nib seq ofs busHeld r k hrun hstroke hdue hserves hmode hwp hintime hbusy
    exact (execStrokeDueLine_of_admitted ofs busHeld hrun hstroke hdue hserves hmode hwp).trans
      ((if_neg (of_eq_false hintime)).trans (if_pos hbusy))
  case conflict =>
    intro s nib seq ofs busHeld r k hrun hstroke hdue hserves hmode hwp hintime hidle
      (htaken : s.busTaken nib seq busHeld k = true)
    exact (execStrokeDueLine_of_admitted ofs busHeld hrun hstroke hdue hserves hmode hwp).trans
      ((if_neg (of_eq_false hintime)).trans ((if_neg (ne_true_of_eq_false hidle)).trans (if_pos htaken)))
  case launches =>
    intro s nib seq ofs busHeld r k hrun hstroke hdue hserves hmode hwp hintime hidle
      (hfree : s.busTaken nib seq busHeld k = false)
    exact (execStrokeDueLine_of_admitted ofs busHeld hrun hstroke hdue hserves hmode hwp).trans
      ((if_neg (of_eq_false hintime)).trans
        ((if_neg (ne_true_of_eq_false hidle)).trans (if_neg (ne_true_of_eq_false hfree))))

end Sys2Proof.Machine
end

section
/-! The runs on a Nib, one equation per outcome of a timeout, a transfer and a decoded codeword, and the statement about
them (R374 to R377, R380, R385 to R387, R404, R414). -/

namespace Sys2Proof.Machine

/-! ### A stroke past its limit (R385, R386, R414) -/

section Timeouts

/-- The Scriptorium context that runs the stroke, unless its service is polling the LUN. -/
def State.watchedCtx (s : State) (r : Run) (k : Stroke) : Option QCtx :=
  s.nib.ctxs.find? (fun x => x.req == r.req && k.op == .script && x.hold != .svc 0)

/-- TIMEOUT is posted, and the LUN keeps the count and the time of its timeouts. -/
def State.timedOut (s : State) (nib lun : Nat) : State :=
  (s.post (F.NIB_EVT_STATUS_TIMEOUT nib) lun).updLun lun (fun x =>
    { x with tmoCnt := min 255 (x.tmoCnt + 1), tmoAt := some s.now })

/-- The LUN is reset, and the run waits for the reset's end. -/
def State.resetForRun (s : State) (nib seq : Nat) (r : Run) : State :=
  (s.resetLun r.lun r.req).updRun nib seq (fun r => { r with resetWait := true, reset := true })

/-- The last timeout was no more than an hour ago. -/
def State.withinHour (s : State) (last : Option Nat) : Bool :=
  match last with
  | some t => decide (s.now ≤ t + 3600 * secT)
  | none => false

variable {s : State} {nib seq : Nat} {r : Run} {k : Stroke} (hrun : s.runAt nib seq = some r)
  (hstroke : s.strokeOf r.req = some k)
  (hlate : (!r.launched || r.ready || r.resetWait || r.busyAt (s.nowAt (islNib r.nib)) ≤ s.timeLimit k) = false)
include hrun hstroke hlate

theorem execStrokeTimeout_of_watched {c : QCtx} (hctx : s.watchedCtx r k = some c) :
    execStrokeTimeout nib seq s =
      .next ((s.timedOut nib r.lun).machineCheck nib 6 c.ctx ((c.queue.head?.map (fun f => f.addr)).getD 0)) := by
  rw [State.watchedCtx] at hctx
  simp only [execStrokeTimeout, hrun, hstroke, hlate, hctx, Bool.false_eq_true, if_false, State.timedOut]

/-- Without a watched context the LUN is unresponsive at a second timeout within the hour, and otherwise reset. -/
theorem execStrokeTimeout_of_unwatched {again : Bool} (hctx : s.watchedCtx r k = none)
    (hagain : s.withinHour (s.lun r.lun).tmoAt = again) :
    execStrokeTimeout nib seq s =
      if again then .next ((s.timedOut nib r.lun).unresponsive r.lun).settle
      else .next ((s.timedOut nib r.lun).resetForRun nib seq r) := by
  rw [State.watchedCtx] at hctx
  subst hagain
  simp only [execStrokeTimeout, hrun, hstroke, hlate, hctx, Bool.false_eq_true, if_false]
  rfl

end Timeouts

/-! ### The end of a background transfer (R380, R387, R404, R407) -/

section Transfers

variable {s : State} {nib seq : Nat} {r : Run} {k : Stroke} (data : Nat) (cell : CellErr) (hrun : s.runAt nib seq = some r)
  (hstroke : s.strokeOf r.req = some k) (hlaunched : r.launched = true)
include hrun hstroke hlaunched

/-- A program is confirmed unless its trims read back differently or its data is lost. -/
theorem execBusTransferDone_of_program (hop : k.op = .program) :
    execBusTransferDone nib seq data cell s =
      if s.trimsDue k && data % 2 ^ 32 != s.reg (F.NIB_PTRIM_P1_P4 nib r.rband).key then
        .next (((s.cellErr cell).post (F.NIB_EVT_STATUS_PTRIM_FAIL nib) r.lun).endRun r 0x0E 0)
      else if cell.isLost then
        .next ((((s.cellErr cell).post (F.NIB_EVT_STATUS_SRC_ERR nib) r.lun).resetLun r.lun r.req).endRun r 0x0D 0)
      else
        .next (((s.cellErr cell).updRun nib seq (fun r => { r with xfer := true })).updLun r.lun
          (fun x => { x with pgmBand := some r.rband })) := by
  simp only [execBusTransferDone, hrun, hstroke, hlaunched, hop, Bool.not_true, Bool.false_eq_true, if_false]

theorem execBusTransferDone_of_feature (hop : k.op = .feature) :
    execBusTransferDone nib seq data cell s =
      .next (if r.ready then (s.cellErr cell).endRun { r with xfer := true } 0x00 (data % 2 ^ 32)
        else (s.cellErr cell).updRun nib seq (fun r => { r with xfer := true, result := data % 2 ^ 32 })) := by
  simp only [execBusTransferDone, hrun, hstroke, hlaunched, hop, Bool.not_true, Bool.false_eq_true, if_false, next_ite]

theorem execBusTransferDone_of_script (hop : k.op = .script) :
    execBusTransferDone nib seq data cell s =
      .next { s.cellErr cell with nib := { (s.cellErr cell).nib with
        ctxs := updWhere (fun x => x.req == r.req) (fun x => { x with xbusy := false }) (s.cellErr cell).nib.ctxs } } := by
  simp only [execBusTransferDone, hrun, hstroke, hlaunched, hop, Bool.not_true, Bool.false_eq_true, if_false]

theorem execBusTransferDone_of_read (hop : k.op = .read ∨ k.op = .readSoft) :
    execBusTransferDone nib seq data cell s =
      .next ((s.cellErr cell).updRun nib seq (fun r => { r with xfer := true })) := by
  obtain hop | hop := hop <;>
    simp only [execBusTransferDone, hrun, hstroke, hlaunched, hop, Bool.not_true, Bool.false_eq_true, if_false]

end Transfers

/-! ### A decoded codeword (R374 to R376, R404) -/

section Codewords

variable {s : State} {nib seq : Nat} {r : Run} {k : Stroke} (ok : Bool) (bits unsat : Nat) (mis : Bool) (pband : Nat)
  (hrun : s.runAt nib seq = some r) (hstroke : s.strokeOf r.req = some k)
include hrun hstroke

/-- The last codeword of a read completes it. -/
theorem execCodewordDecodeDone_of_read (hop : k.op ≠ .script) (hleft : (r.cwLeft = 0 || !r.ready || !r.xfer) = false) :
    execCodewordDecodeDone nib seq ok bits unsat mis pband s =
      .next (let r' := r.decoded ok bits unsat mis pband
        if r'.cwLeft = 0 then (s.updRun nib seq (fun _ => r')).endRun r' (if r'.bad then 0x01 else 0x00) r'.result
        else s.updRun nib seq (fun _ => r')) := by
  simp only [execCodewordDecodeDone, hrun, hstroke, hop, hleft, Bool.false_eq_true, if_false, next_ite]

/-- The last codeword of a context lets its SVC_READOUT return. -/
theorem execCodewordDecodeDone_of_script {x : QCtx} (hop : k.op = .script)
    (hctx : s.nib.ctxs.find? (fun x => x.req == r.req) = some x) (hleft : 0 < x.decoding) :
    execCodewordDecodeDone nib seq ok bits unsat mis pband s =
      .next (let y : QCtx := { x with decoding := x.decoding - 1, dpass := x.dpass && ok }
        let t := (s.updRun nib seq (fun r => r.decoded ok bits unsat mis pband)).setCtx y
        if y.decoding = 0 && y.hold = .svc 1 then t.serviceReturn { y with xbusy := false } none else t) := by
  simp only [execCodewordDecodeDone, hrun, hstroke, hop, hctx, Nat.ne_of_gt hleft, if_true, if_false, next_ite]

end Codewords

/-- Settles O12: a poll by its guard; a timeout by whether a context is watched and by the LUN's last timeout; a transfer by
its stroke's operation; a codeword by whether a read or a context takes it. -/
theorem nibRuns : Obligations.NibRuns := by
  unfold Obligations.NibRuns
  refine ⟨?poll, ?noPoll, ?ready, ?watched, ?second, ?firstEver, ?firstInHour, ?notReady, ?trims, ?lostData, ?program,
    ?feature, ?script, ?read, ?decodedRead, ?decodedScript⟩
  case poll =>
    intro s lun sr hdue hroom
    exact if_pos (by rw [hdue, hroom]; rfl)
  case noPoll =>
    intro s lun sr hno
    exact if_neg (ne_true_of_eq_false hno)
  case ready =>
    intro s lun sr
    exact exec_rbNRise lun sr s
  case watched =>
    intro s nib seq r k c hrun hstroke hlate hctx
    exact execStrokeTimeout_of_watched hrun hstroke hlate hctx
  case second =>
    intro s nib seq r k t hrun hstroke hlate hctx hlast hhour
    have hagain : s.withinHour (s.lun r.lun).tmoAt = true := by rw [hlast]; exact decide_eq_true hhour
    exact (execStrokeTimeout_of_unwatched hrun hstroke hlate hctx hagain).trans (if_pos rfl)
  case firstEver =>
    intro s nib seq r k hrun hstroke hlate hctx hlast
    have hagain : s.withinHour (s.lun r.lun).tmoAt = false := by rw [hlast]; rfl
    exact (execStrokeTimeout_of_unwatched hrun hstroke hlate hctx hagain).trans (if_neg Bool.false_ne_true)
  case firstInHour =>
    intro s nib seq r k t hrun hstroke hlate hctx hlast hlong
    have hagain : s.withinHour (s.lun r.lun).tmoAt = false := by
      rw [hlast]; exact decide_eq_false (Nat.not_le.mpr hlong)
    exact (execStrokeTimeout_of_unwatched hrun hstroke hlate hctx hagain).trans (if_neg Bool.false_ne_true)
  case notReady =>
    intro s lun hreset hlate
    exact if_pos (by rw [decide_eq_true hreset, decide_eq_true hlate]; rfl)
  case trims =>
    intro s nib seq data cell r k hrun hstroke hlaunched hop htrims
    exact (execBusTransferDone_of_program data cell hrun hstroke hlaunched hop).trans (if_pos htrims)
  case lostData =>
    intro s nib seq data c r k hrun hstroke hlaunched hop htrims
    exact (execBusTransferDone_of_program data (.ue c) hrun hstroke hlaunched hop).trans
      ((if_neg (ne_true_of_eq_false htrims)).trans (if_pos rfl))
  case program =>
    intro s nib seq data cell r k hrun hstroke hlaunched hop htrims hkept
    exact (execBusTransferDone_of_program data cell hrun hstroke hlaunched hop).trans
      ((if_neg (ne_true_of_eq_false htrims)).trans (if_neg (ne_true_of_eq_false hkept)))
  case feature =>
    intro s nib seq data cell r k hrun hstroke hlaunched hop
    exact execBusTransferDone_of_feature data cell hrun hstroke hlaunched hop
  case script =>
    intro s nib seq data cell r k hrun hstroke hlaunched hop
    exact execBusTransferDone_of_script data cell hrun hstroke hlaunched hop
  case read =>
    intro s nib seq data cell r k hrun hstroke hlaunched hop
    exact execBusTransferDone_of_read data cell hrun hstroke hlaunched hop
  case decodedRead =>
    intro s nib seq ok bits unsat mis pband r k hrun hstroke hop hleft
    exact execCodewordDecodeDone_of_read ok bits unsat mis pband hrun hstroke hop hleft
  case decodedScript =>
    intro s nib seq ok bits unsat mis pband r k x hrun hstroke hop hctx hleft
    exact execCodewordDecodeDone_of_script ok bits unsat mis pband hrun hstroke hop hctx hleft

end Sys2Proof.Machine
end

section
/-! A Nib's temperatures, retraining, known-answer tests and restart, one equation per outcome, and the statement about them
(R378, R381, R386, R388, R413, R415, R420). -/

namespace Sys2Proof.Machine

/-! ### Temperatures (R378) -/

section Temperatures

/-- The Nib was asked for its temperatures less than its period ago. -/
def State.tempEarly (s : State) (nib : Nat) : Bool :=
  match s.nib.tempAsked.lookup nib with
  | some t => decide (s.nowAt (islNib nib) < t + s.fld (F.NIB_TEMP_PERIOD nib) * msT)
  | none => false

/-- The time at which the Nib is asked is noted. -/
def State.noteTempAsked (s : State) (nib : Nat) : State :=
  { s with nib := { s.nib with
    tempAsked := (nib, s.nowAt (islNib nib)) :: s.nib.tempAsked.filter (fun e => e.1 != nib) } }

/-- The Nib's LUNs are held at band 2, and TEMP_STALE is set the first time. -/
def State.holdBands (s : State) (nib : Nat) : State :=
  let t := (s.lunsOf nib).foldl (fun (s : State) x => s.setBand x.lun 2) s
  if s.nib.noTemp.contains nib then t
  else ({ t with nib := { t.nib with noTemp := nib :: t.nib.noTemp } } : State).post (F.NIB_EVT_STATUS_TEMP_STALE nib) nib

/-- Each LUN of the Nib that serves gets a FEATURE stroke of class 4. -/
def State.askTemps (s : State) (nib : Nat) : State :=
  ((s.lunsOf nib).filter (fun x => s.lunServes x.lun)).foldl (fun (s : State) x =>
    s.newStroke (mkStroke .feature 4 x.lun false .temp)) s

variable {s : State} {nib : Nat}

theorem execNibTempRead_of_due (hruns : (s.mode = .off || s.mode = .doze || s.mode = .holdUp || s.nibMasked nib) = false)
    (hperiod : s.tempEarly nib = false) :
    execNibTempRead nib s =
      .next (if s.fld (F.NIB_TEMP_FADDR nib) = 0 then (s.noteTempAsked nib).holdBands nib
        else (s.noteTempAsked nib).askTemps nib) := by
  have hgo : ((s.mode = .off || s.mode = .doze || s.mode = .holdUp || s.nibMasked nib) || s.tempEarly nib) = false := by
    rw [hruns, hperiod]; rfl
  rw [← next_ite]
  exact if_neg (ne_true_of_eq_false hgo)

end Temperatures

/-! ### Retraining and the known-answer test (R381, R388) -/

section Upkeep

variable {s : State} {nib : Nat}

theorem retrain_guard_eq_false {due idle off doze holdUp : Bool} (hdue : due = true)
    (hruns : (idle || off || doze || holdUp) = false) : (!due || idle || off || doze || holdUp) = false := by
  rw [hdue, Bool.not_true, Bool.false_or, hruns]

theorem execNibCtrlRetrain_of_on (hon : s.mode ≠ .off) (hnib : nib < 48) :
    execNibCtrlRetrain nib s = .next ((s.setFld (F.NIB_CTRL_RETRAIN nib) 1).trainDue nib) := by
  simp only [execNibCtrlRetrain, hon, Nat.not_le.mpr hnib, decide_false, Bool.or_self, Bool.false_eq_true, if_false]

theorem execDecoderKat_of_fail (hon : s.mode ≠ .off) (hawake : s.mode ≠ .doze) :
    execDecoderKat nib false s = .next (s.maskNib nib).settle := by
  simp only [execDecoderKat, hon, hawake, decide_false, Bool.or_self, Bool.false_eq_true, if_false]

theorem execQuillScrubRead_of_enabled (addr : Nat) (bad : Bool)
    (hscrubs : (s.mode = .off || s.mode = .doze || !s.flag (F.NIB_Q_CTRL_SCRUB_EN nib) || s.nibMasked nib) = false) :
    execQuillScrubRead nib addr bad s = .next (if bad then s.machineCheck nib 7 0 addr else s) := by
  obtain ⟨hmode, hmasked⟩ := Bool.or_eq_false_iff.mp hscrubs
  cases bad <;>
    simp only [execQuillScrubRead, hmode, hmasked, Bool.not_true, Bool.not_false, Bool.or_true, Bool.or_false,
      Bool.false_eq_true, if_true, if_false]

end Upkeep

/-- Settles O13: a temperature read by whether there is a feature address; each other command by its guard. -/
theorem nibUpkeep : Obligations.NibUpkeep := by
  unfold Obligations.NibUpkeep
  refine ⟨?holds, ?asks, ?stale, ?retrain, ?askRetrain, ?katFail, ?katPass, ?scrub, ?restart⟩
  case holds =>
    intro s nib hruns hperiod haddr
    exact (execNibTempRead_of_due hruns hperiod).trans (congrArg _ (if_pos haddr))
  case asks =>
    intro s nib hruns hperiod haddr
    exact (execNibTempRead_of_due hruns hperiod).trans (congrArg _ (if_neg haddr))
  case stale =>
    intro s lun hstale
    exact if_neg (ne_true_of_eq_false hstale)
  case retrain =>
    intro s nib hdue hruns
    exact if_neg (ne_true_of_eq_false (retrain_guard_eq_false hdue hruns))
  case askRetrain =>
    intro s nib hon hnib
    exact execNibCtrlRetrain_of_on hon hnib
  case katFail =>
    intro s nib hon hawake
    exact execDecoderKat_of_fail hon hawake
  case katPass =>
    intro s nib
    simp only [exec_decoderKat, execDecoderKat, Bool.true_or, if_true]
  case scrub =>
    intro s nib addr bad hscrubs
    exact execQuillScrubRead_of_enabled addr bad hscrubs
  case restart =>
    intro s nib badTargets hrestarts
    exact if_neg (ne_true_of_eq_false (bne_eq_false_iff_eq.mpr hrestarts))

end Sys2Proof.Machine
end

section
/-! Every command and every step goes on, a step takes the front command and no boot back, and the statements about them
(R530, R532, the opcode table). -/

namespace Sys2Proof.Machine

/-- The block never stops: its front command answers a next state, and without one it idles. -/
theorem step_goes (s : State) : s.goesOn := by
  match hq : s.pending with
  | [] => exact ⟨s, step_of_idle hq⟩
  | c :: q =>
    obtain ⟨t, ht⟩ := exec_goes c (s.withPending q)
    exact ⟨t, (step_of_waiting hq).trans ht⟩

/-- Settles O56: a command by the law of its arm, a step by whether a command waits. -/
theorem everyCommandGoesOn : Obligations.EveryCommandGoesOn := by
  unfold Obligations.EveryCommandGoesOn
  exact ⟨exec_goes, step_goes⟩

/-- Settles O46: the front command and the queue's rest are what a step takes apart. -/
theorem stepRunsTheFrontCommand : Obligations.StepRunsTheFrontCommand := by
  unfold Obligations.StepRunsTheFrontCommand
  refine ⟨?runs, ?idles⟩
  case runs =>
    intro s c q
    exact step_of_waiting (s.withPending_pending (c :: q))
  case idles =>
    intro s hq
    exact step_of_idle hq

/-- Settles O58: a command leaves the queue that it meets, which is the queue without its front command. -/
theorem stepTakesOnlyTheFront : Obligations.StepTakesOnlyTheFront := by
  unfold Obligations.StepTakesOnlyTheFront
  intro s t hs h
  exact (step_keeps hs h).queue.trans (s.withPending_pending _)

/-- Settles O59: a command takes no boot back, and the queue's front is no part of the count. -/
theorem bootSeqNeverGoesBack : Obligations.BootSeqNeverGoesBack := by
  unfold Obligations.BootSeqNeverGoesBack
  intro s t hs h
  have hcount : (s.withPending s.pending.tail).fol = s.fol := s.withPending_fol _
  exact hcount ▸ (step_keeps hs h).boots

end Sys2Proof.Machine
end

section
/-! Register fields, offsets that no table lists, and the Scriptorium window, and the statements about them (R124, R422, R636
to R638). -/

namespace Sys2Proof.Machine

/-! ### Fields (R636, R638) -/

/-- A field reads what was stored, modulo its width. -/
theorem State.fld_setFld_same (s : State) (f : Fld) (v : Nat) (hfits : f.lo + f.w ≤ 32) : (s.setFld f v).fld f = v % 2 ^ f.w := by
  rw [State.fld, s.reg_setFld f v hfits, bitsOf_bitsPut_eq]

/-- A field of the same register that shares no bit with the stored one keeps its value. -/
theorem State.fld_setFld_of_disjoint (s : State) {f g : Fld} (v : Nat) (hfits : f.lo + f.w ≤ 32) (hkey : g.key = f.key)
    (hapart : f.lo + f.w ≤ g.lo ∨ g.lo + g.w ≤ f.lo) : (s.setFld f v).fld g = s.fld g := by
  rw [State.fld, State.fld, hkey, s.reg_setFld f v hfits, bitsOf_bitsPut_ne _ _ _ _ _ _ hapart]

/-- Settles O48: a field by the laws of bit fields, another register by the law of the store. -/
theorem registerFields : Obligations.RegisterFields := by
  unfold Obligations.RegisterFields
  refine ⟨?same, ?disjoint, ?otherReg, ?rest⟩
  case same =>
    intro s f v hfits
    exact s.fld_setFld_same f v hfits
  case disjoint =>
    intro s f g v hfits hkey hapart
    exact s.fld_setFld_of_disjoint v hfits hkey hapart
  case otherReg =>
    intro s f v k hkey
    exact s.reg_setReg_ne _ hkey
  case rest =>
    intro s f v
    rfl

/-! ### Reserved offsets (R124, R637) -/

section Reserved

variable {s : State} {off : Nat} (hnone : regDesc off = none)
include hnone

/-- A write to an offset that no table lists is discarded. -/
theorem regWrite_of_reserved (be v : Nat) : s.regWrite off be v = s := by
  rw [State.regWrite, hnone]

/-- A read of an offset that no table lists, outside the window, returns 0. -/
theorem regRead_of_reserved (hout : off < 0x40000 ∨ 0x80000 ≤ off) : s.regRead off = 0 := by
  have hwindow : ¬ (decide (0x40000 ≤ off) && decide (off < 0x80000)) = true := by
    simp only [Bool.and_eq_true, decide_eq_true_eq]
    omega
  rw [State.regRead, if_neg hwindow, hnone]

end Reserved

/-- No table lists an offset of the last two blocks below the Nibs, or past the window. -/
theorem regDesc_of_past_tables {off : Nat} (hpast : off / 0x1000 = 14 ∨ off / 0x1000 = 15 ∨ 0x40 ≤ off / 0x1000) :
    regDesc off = none := by
  have hnib : ¬ (decide (0x10 ≤ off / 0x1000) && decide (off / 0x1000 < 0x40)) = true := by
    simp only [Bool.and_eq_true, decide_eq_true_eq]
    omega
  unfold regDesc
  split
  case h_15 => exact if_neg hnib
  all_goals omega

/-- An access to a part of one register outside the window writes that register. -/
theorem barWrite_of_one_register {s : State} {pf off len v : Nat} (hlen : 1 ≤ len) (hin : off % 4 + len ≤ 4)
    (hout : off + 4 < 0x40000 ∨ 0x80000 ≤ off) :
    s.barWrite pf off len v =
      s.regWrite (off / 4 * 4) ((2 ^ len - 1) * 2 ^ (off % 4)) (v * 2 ^ (8 * (off % 4)) % 2 ^ 32) := by
  have hwindow : ¬ (decide (off + len ≤ 0x80000) && decide (0x40000 ≤ off) && decide (len ≤ 8)) = true := by
    simp only [Bool.and_eq_true, decide_eq_true_eq]
    omega
  have hpair : ¬ (decide (len = 8) && decide (off % 8 = 0)) = true := by
    simp only [Bool.and_eq_true, decide_eq_true_eq]
    omega
  have hone : (decide (1 ≤ len) && decide (off % 4 + len ≤ 4)) = true := by
    simp only [hlen, hin, decide_true, Bool.and_self]
  exact (if_neg hwindow).trans ((if_neg hpair).trans (if_pos hone))

/-- Settles O50: reads and writes by the missing row, the two ranges by their blocks, an access by the one register it is in. -/
theorem reservedOffsets : Obligations.ReservedOffsets := by
  unfold Obligations.ReservedOffsets
  refine ⟨?access, ?ranges, ?command⟩
  case access =>
    intro s off be v hnone hout
    exact ⟨regWrite_of_reserved hnone be v, regRead_of_reserved hnone hout⟩
  case ranges =>
    intro off hrange
    exact regDesc_of_past_tables (by omega)
  case command =>
    intro s pf off len v hreach hlen hin hnone hout
    rw [exec_registerWrite, execRegisterWrite_of_reached hreach, if_neg Bool.false_ne_true,
      barWrite_of_one_register hlen hin hout, regWrite_of_reserved hnone]

/-! ### The Scriptorium window (R422) -/

/-- The window after a store of `n` bytes from the address `base` up, byte `i` taken from `byte`. -/
def windowFill (m : List Host.Cell) (base n : Nat) (byte : Nat → Byte) : List Host.Cell :=
  (List.range n).foldl (fun m i => windowPut m (base + i) (byte i)) m

theorem windowFill_succ (m : List Host.Cell) (base n : Nat) (byte : Nat → Byte) :
    windowFill m base (n + 1) byte = windowPut (windowFill m base n byte) (base + n) (byte n) := by
  rw [windowFill, List.range_succ, List.foldl_append]
  rfl

/-- Each stored byte is read back at its place, and every other byte stays. -/
theorem windowByte_fill (m : List Host.Cell) (base n : Nat) (byte : Nat → Byte) (a : Nat) :
    windowByte (windowFill m base n byte) a = if base ≤ a ∧ a < base + n then byte (a - base) else windowByte m a := by
  induction n with
  | zero => exact (if_neg (by omega)).symm
  | succ n ih =>
    rw [windowFill_succ, windowByte_put, ih]
    by_cases hlast : a = base + n
    · rw [if_pos hlast, if_pos (by omega), hlast, Nat.add_sub_cancel_left]
    · rw [if_neg hlast]
      exact ite_congr (propext (by omega)) (fun _ => rfl) (fun _ => rfl)

/-- The stores keep the window in its canonical form. -/
theorem windowFill_wf {m : List Host.Cell} (base n : Nat) (byte : Nat → Byte) (hm : Memory.wf m = true) :
    Memory.wf (windowFill m base n byte) = true := by
  induction n with
  | zero => exact hm
  | succ n ih =>
    rw [windowFill_succ]
    exact swf_sset _ _ _ _ ih

/-- Unsealed, a write of the window stores its bytes. -/
theorem scrWrite_of_open {s : State} (off n v : Nat) (hopen : s.flag F.DEV_SEAL_SEAL = false) :
    (s.scrWrite off n v).nib.window =
      windowFill s.nib.window (off - 0x40000) n (fun i => BitVec.ofNat 8 (v / 2 ^ (8 * i))) := by
  rw [State.scrWrite, if_neg (ne_true_of_eq_false hopen)]
  rfl

/-- Sealed, a write of the window is discarded. -/
theorem scrWrite_of_sealed {s : State} (off n v : Nat) (hsealed : s.flag F.DEV_SEAL_SEAL = true) : s.scrWrite off n v = s :=
  if_pos hsealed

/-- Settles O51: a write by the seal, and an open one by its bytes. -/
theorem scriptoriumWindow : Obligations.ScriptoriumWindow := by
  unfold Obligations.ScriptoriumWindow
  refine ⟨?bytes, ?canonical, ?discarded⟩
  case bytes =>
    intro s off n v a hopen _
    rw [scrWrite_of_open off n v hopen, windowByte_fill]
  case canonical =>
    intro s off n v hwf
    cases hseal : s.flag F.DEV_SEAL_SEAL with
    | true => rwa [scrWrite_of_sealed off n v hseal]
    | false =>
      rw [scrWrite_of_open off n v hseal]
      exact windowFill_wf _ _ _ hwf
  case discarded =>
    intro s off n v hsealed
    exact scrWrite_of_sealed off n v hsealed

end Sys2Proof.Machine
end

section
/-! PFAIL_N, the rails and VAUX_33, one outcome of each command by its guard, and the statement about them (R451, R590, R592,
R613, R622, R662). -/

namespace Sys2Proof.Machine

/-- Settles O1: each command by the guard that its event opens, a level taken as low by where the power-down stands. -/
theorem pfailAndRequests : Obligations.PfailAndRequests := by
  unfold Obligations.PfailAndRequests
  refine ⟨?fall, ?low, ?glitch, ?rise, ?qualified, ?released, ?rail, ?railOff, ?vauxLoss, ?vauxGood⟩
  case fall =>
    intro s hvaux hhigh
    exact if_neg (by rw [hvaux, hhigh]; decide)
  case low =>
    intro s hdeglitch hlow hlate
    refine (if_neg (by rw [hdeglitch, hlow, hlate]; decide)).trans ?_
    simp only [next_ite]
  case glitch =>
    intro s hvaux hlow hdeglitch
    exact (if_neg (by rw [hvaux, hlow]; decide)).trans (if_pos hdeglitch)
  case rise =>
    intro s hvaux hlow hdeglitch
    exact (if_neg (by rw [hvaux, hlow]; decide)).trans (if_neg (ne_true_of_eq_false hdeglitch))
  case qualified =>
    intro s hqualify hhigh
    exact if_pos (by rw [hqualify, hhigh]; rfl)
  case released =>
    intro s src hheld hcool
    simp only [exec_thermalHoldRelease, execThermalHoldRelease, hheld, hcool, Bool.false_eq_true, if_false]
  case rail =>
    intro s hvaux hrail hoff hhold hstep
    exact (if_neg (by rw [hvaux, hrail]; decide)).trans ((if_neg hoff).trans
      (if_neg (by rw [decide_eq_false (Nat.not_lt.mpr hstep), decide_eq_false hhold]; decide)))
  case railOff =>
    intro s hvaux hrail hoff
    exact (if_neg (by rw [hvaux, hrail]; decide)).trans (if_pos hoff)
  case vauxLoss =>
    intro s
    rfl
  case vauxGood =>
    intro s straps hvaux hstraps
    rw [exec_vaux33Good, execVaux33Good, hvaux, if_neg Bool.false_ne_true, Nat.mod_eq_of_lt hstraps]

end Sys2Proof.Machine
end

section
/-! The power sequencer: a step that ends, a rail that does not come up, and the minimum off time, and the statement about them
(R591 to R593, R661). -/

namespace Sys2Proof.Machine

section PowerUp

variable {s : State} {k : Nat} {env : BootEnv} (hvaux : s.pwr.vaux = true) (hlo : 1 ≤ k) (hhi : k ≤ 12)
  (hstep : s.fld F.PWR_STATUS_STEP = k)
include hvaux hlo hhi hstep

theorem powerUp_guard_eq_false : (!s.pwr.vaux || k = 0 || 12 < k || s.fld F.PWR_STATUS_STEP != k) = false := by
  rw [hvaux, hstep, bne_self_eq_false, decide_eq_false (Nat.ne_of_gt hlo), decide_eq_false (Nat.not_lt.mpr hhi)]
  rfl

/-- Without an off request a power-up step hands over to the next one, the last one to BOOT (R591). -/
theorem execPowerUpStepDone_of_no_offReq (hoff : (s.puDone k).pwr.offReq = none) :
    execPowerUpStepDone k env s =
      .next (if k = 12 then ((s.puDone k).setFld F.PWR_STATUS_STEP 0).enterBoot 0 env
        else (s.puDone k).setFld F.PWR_STATUS_STEP (k + 1)) := by
  simp only [execPowerUpStepDone, powerUp_guard_eq_false hvaux hlo hhi hstep, hoff, Bool.false_eq_true, if_false, next_ite]

/-- A latched off request turns a power-up at the mirror of its step (R592). -/
theorem execPowerUpStepDone_of_offReq {src : Nat} (hoff : (s.puDone k).pwr.offReq = some src) :
    execPowerUpStepDone k env s =
      .next ((({ s.puDone k with pwr := { (s.puDone k).pwr with offReq := none, cause := src } }).lastWake src 3 0).setFld
        F.PWR_STATUS_STEP (25 - k)) := by
  simp only [execPowerUpStepDone, powerUp_guard_eq_false hvaux hlo hhi hstep, hoff, Bool.false_eq_true, if_false]

end PowerUp

/-- Without a power-up request a power-down step hands over to the next one, the last one to OFF (R591). -/
theorem execPowerDownStepDone_of_no_onReq {s : State} {j : Nat} (hvaux : s.pwr.vaux = true) (hlo : 1 ≤ j) (hhi : j ≤ 12)
    (hstep : s.fld F.PWR_STATUS_STEP = 12 + j)
    (hquiet : j ≠ 1 ∨ s.mode = .off ∨ s.mode = .holdUp ∨ s.pwr.quiesce = 3)
    (hdrained : j ≠ 5 ∨ s.mode = .off ∨ s.fol.reqs.isEmpty = true) (hon : (s.pdDone j).pwr.onReq = none) :
    execPowerDownStepDone j s =
      .next (if j < 12 then (s.pdDone j).setFld F.PWR_STATUS_STEP (13 + j)
        else ({ (s.pdDone j).enterOff with pwr := { (s.pdDone j).enterOff.pwr with minOff := true } }).setFld
          F.PWR_STATUS_STEP 0) := by
  have hgo : (!s.pwr.vaux || j = 0 || 12 < j || s.fld F.PWR_STATUS_STEP != 12 + j) = false := by
    rw [hvaux, hstep, bne_self_eq_false, decide_eq_false (Nat.ne_of_gt hlo), decide_eq_false (Nat.not_lt.mpr hhi)]
    rfl
  have hquiet' : (j = 1 && s.mode != .off && s.mode != .holdUp && s.pwr.quiesce != 3) = false := by
    obtain h | h | h | h := hquiet <;> simp [h]
  have hdrained' : (j = 5 && s.mode != .off && !s.fol.reqs.isEmpty) = false := by
    obtain h | h | h := hdrained <;> simp [h]
  simp only [execPowerDownStepDone, hgo, hquiet', hdrained', hon, Bool.false_eq_true, if_false, next_ite]

/-- The minimum off time ends: a power-up request that waits begins PU1, or waits on for a thermal hold (R592). -/
theorem execMinOffTimeExpire_of_onReq {s : State} {src : Nat} (hmin : s.pwr.minOff = true) (hon : s.pwr.onReq = some src)
    (hcool : s.thermalHold = false) :
    execMinOffTimeExpire s =
      .next (({ s with pwr := { s.pwr with minOff := false, onReq := none, source := src } }).setFld F.PWR_STATUS_STEP 1) := by
  simp only [execMinOffTimeExpire, hmin, hon, Bool.not_true, Bool.false_eq_true, if_false]
  exact congrArg _ (if_neg (ne_true_of_eq_false hcool))

/-- Settles O2: a step that ends by the request that is latched, the minimum off time by the request that waits, a rail by the
steps that enable one. -/
theorem powerSequencerSteps : Obligations.PowerSequencerSteps := by
  unfold Obligations.PowerSequencerSteps
  refine ⟨?up, ?boot, ?turned, ?down, ?off, ?waiting, ?idle, ?rail⟩
  case up =>
    intro s k env hvaux hlo hhi hstep hoff
    exact (execPowerUpStepDone_of_no_offReq hvaux hlo (Nat.le_of_lt hhi) hstep hoff).trans (congrArg _ (if_neg (Nat.ne_of_lt hhi)))
  case boot =>
    intro s env hvaux hstep hoff
    exact execPowerUpStepDone_of_no_offReq hvaux (by decide) (by decide) hstep hoff
  case turned =>
    intro s k src env hvaux hlo hhi hstep hoff
    exact execPowerUpStepDone_of_offReq hvaux hlo hhi hstep hoff
  case down =>
    intro s j hvaux hlo hhi hstep hquiet hdrained hon
    exact (execPowerDownStepDone_of_no_onReq hvaux hlo (Nat.le_of_lt hhi) hstep hquiet hdrained hon).trans (congrArg _ (if_pos hhi))
  case off =>
    intro s hvaux hstep hon
    exact execPowerDownStepDone_of_no_onReq hvaux (by decide) (by decide) hstep (.inl (by decide)) (.inl (by decide)) hon
  case waiting =>
    intro s src hmin hon hcool
    exact execMinOffTimeExpire_of_onReq hmin hon hcool
  case idle =>
    intro s hmin hon
    simp only [exec_minOffTimeExpire, execMinOffTimeExpire, hmin, hon, Bool.not_true, Bool.false_eq_true, if_false]
  case rail =>
    intro s k hstep henables
    subst hstep
    exact if_pos (by simpa only [Bool.or_eq_true, decide_eq_true_eq, or_assoc] using henables)

end Sys2Proof.Machine
end

section
/-! Core voltage changes over AVSBus, and the statement about them (R603, R604). -/

namespace Sys2Proof.Machine

/-- A read-back is kept, and one off the setpoint with no change out is reported and the setpoint requested again (R604). -/
theorem execAvsReadbackPoll_of_on {s : State} {vread : Nat} (hoff : s.mode ≠ .off) (hhold : s.mode ≠ .holdUp) (hcode : vread < 256) :
    execAvsReadbackPoll vread s =
      .next (if s.flag F.PWR_AVS_STATUS_PEND || avsNear vread (s.fld F.PWR_AVS_STATUS_VSET) then
          s.setFld F.PWR_AVS_STATUS_VREAD vread
        else ((s.setFld F.PWR_AVS_STATUS_VREAD vread).post F.PWR_EVT_STATUS_AVS_MISMATCH noUnit).avsRequest
          (s.fld F.PWR_AVS_STATUS_VSET)) := by
  have hgo : (s.mode = .off || s.mode = .holdUp || 256 ≤ vread) = false := by
    rw [decide_eq_false hoff, decide_eq_false hhold, decide_eq_false (Nat.not_le.mpr hcode)]
    rfl
  simp only [execAvsReadbackPoll, hgo, Bool.false_eq_true, if_false, next_ite]

/-- Settles O3: a timeout by the retries that are left, a read-back by its distance from the setpoint. -/
theorem coreVoltage : Obligations.CoreVoltage := by
  unfold Obligations.CoreVoltage
  refine ⟨?again, ?givesUp, ?mismatch, ?near, ?acknowledged⟩
  case again =>
    intro s hpend htries
    exact (if_neg (by rw [hpend]; decide)).trans (if_pos htries)
  case givesUp =>
    intro s hpend htries
    exact (if_neg (by rw [hpend]; decide)).trans (if_neg (Nat.not_lt.mpr htries))
  case mismatch =>
    intro s vread hoff hhold hcode hpend hfar
    exact (execAvsReadbackPoll_of_on hoff hhold hcode).trans (congrArg _ (if_neg (by rw [hpend, hfar]; decide)))
  case near =>
    intro s vread hoff hhold hcode hkept
    exact (execAvsReadbackPoll_of_on hoff hhold hcode).trans (congrArg _ (if_pos (Bool.or_eq_true_iff.mpr hkept)))
  case acknowledged =>
    intro s vread hpend hnear
    exact if_neg (by rw [hpend, hnear]; decide)

end Sys2Proof.Machine
end

section
/-! HOLD-UP and its dump, commit groups and aged units of the Blotter, and the statement about them (R447, R450, R452, R453,
R455, R456). -/

namespace Sys2Proof.Machine

/-- Outside BOOT and SAFE an entry to HOLD-UP starts the class 0 dump, from DOZE with the Ruling resumed (R452, R453). -/
theorem execHoldupEntry_of_dump {s : State} {clk : AonClock} {ticks : Nat} (hdue : s.pwr.asserted = true)
    (hoff : s.mode ≠ .off) (hhold : s.mode ≠ .holdUp) (hboot : s.mode ≠ .boot) (hsafe : s.mode ≠ .safe)
    (hstep : s.fld F.PWR_STATUS_STEP ≤ 19) :
    execHoldupEntry clk ticks s =
      .next (((((if s.mode = .doze then s.rulResume clk ticks else s).setFld F.PWR_STATUS_STEP 0).enterHoldUp.lose
        s.losers).logLost).startDump 1) := by
  have hgo : (!s.pwr.asserted || s.mode = .off || s.mode = .holdUp || 19 < s.fld F.PWR_STATUS_STEP) = false := by
    rw [hdue, decide_eq_false hoff, decide_eq_false hhold, decide_eq_false (Nat.not_lt.mpr hstep)]
    rfl
  simp only [execHoldupEntry, hgo, hboot, hsafe, decide_false, Bool.false_and, Bool.or_self, Bool.false_eq_true, if_false]

/-- With every dump stroke ended the record is written; the dump of HOLD-UP goes on to the power-down, that of SAFE does not. -/
theorem execHoldupDumpComplete_of_ended {s : State} (hdump : s.blt.dumping ≠ 0)
    (hended : s.blt.pages.any (fun p => p.phase == .programming || (p.phase == .closed && !s.blt.dumpStop)) = false)
    (hrows : ((s.closeRows true).blt.rows.any (fun r => r.parity != 2) && !(s.closeRows true).blt.dumpStop) = false) :
    execHoldupDumpComplete s =
      .next (let safe : Bool := s.blt.dumping == 2
        let u := (s.closeRows true).countLost.dumpRate.shutRecord (if safe then 4 else if s.blt.dumpStop then 3 else 2)
        let v : State := { u with blt := { u.blt with dumping := 0 } }
        if safe then v.shutSafe else ({ v with pwr := { v.pwr with cause := 3 } }).setFld F.PWR_STATUS_STEP 13) := by
  simp only [execHoldupDumpComplete, hdump, hended, hrows, Bool.false_eq_true, if_false, next_ite]

/-- The write points that hold data of the page's unreleased units. -/
def State.unreleasedWps (s : State) (p : BltPage) : List Nat :=
  ((p.units.filter (fun u => u.btype == 0 && !u.released)).filterMap
    (fun u => (u.idx.bind s.recAt).map (fun r => r.wp))).eraseDups

/-- No new group enters the slot that holds a page. -/
def State.stopSlotOf (s : State) (p : BltPage) : State :=
  match p.row with
  | some (set, slot, _) => s.updSet set (fun t => { t with stop := t.stop.set slot true })
  | none => s

/-- A unit unreleased for an hour has its wordlines padded, and no new group enters its slot (R450). -/
theorem execBlotterUnitAge_of_aged {s : State} {group : Nat} {p : BltPage}
    (hpage : s.blt.pages.find? (fun p => p.group == group && p.phase == .passed) = some p)
    (hold : p.openedAt + 3600 * secT ≤ s.now) (hleft : p.units.any (fun u => u.btype == 0 && !u.released) = true)
    (hopen : s.groupsOpen = true) :
    execBlotterUnitAge group s = .next ((s.unreleasedWps p).foldl State.padWp (s.stopSlotOf p).runWritePoints).pump := by
  have hsome : (p.units.filter (fun u => u.btype == 0 && !u.released)).isEmpty = false := by
    simpa using hleft
  have hgo : (s.now < p.openedAt + 3600 * secT || (p.units.filter (fun u => u.btype == 0 && !u.released)).isEmpty ||
      !s.groupsOpen) = false := by
    rw [decide_eq_false (Nat.not_lt.mpr hold), hsome, hopen]
    rfl
  simp only [execBlotterUnitAge, hpage, hgo, Bool.false_eq_true, if_false]
  rfl

/-- Settles O4: an entry by the mode it comes from, the dump's deadline and end by their guards, a commit group and an aged unit by
the page they find. -/
theorem holdUpSequence : Obligations.HoldUpSequence := by
  unfold Obligations.HoldUpSequence
  refine ⟨?entry, ?dozeEntry, ?deadline, ?complete, ?safeComplete, ?commit, ?aged, ?agedRow⟩
  case entry =>
    intro s clk ns hdue hmode hstep
    obtain h | h | h := hmode <;>
      exact (execHoldupEntry_of_dump hdue (by simp [h]) (by simp [h]) (by simp [h]) (by simp [h]) hstep).trans
        (by rw [if_neg (by simp [h])])
  case dozeEntry =>
    intro s clk ns hdue hmode hstep
    exact (execHoldupEntry_of_dump hdue (by simp [hmode]) (by simp [hmode]) (by simp [hmode]) (by simp [hmode]) hstep).trans
      (by rw [if_pos hmode])
  case deadline =>
    intro s hmode hdump hstop hlate
    exact if_neg (by rw [hmode, hdump, hstop, decide_eq_false (Nat.not_lt.mpr hlate)]; decide)
  case complete =>
    intro s hdump hstop hended hrows
    rw [exec_holdupDumpComplete, execHoldupDumpComplete_of_ended (by rw [hdump]; decide) hended (by rw [hrows]; rfl), hdump, hstop]
    rfl
  case safeComplete =>
    intro s hdump hended hrows
    rw [exec_holdupDumpComplete, execHoldupDumpComplete_of_ended (by rw [hdump]; decide) hended hrows, hdump]
    rfl
  case commit =>
    intro s group p hpage hdue hopen
    simp only [exec_commitGroupTimeout, execCommitGroupTimeout, hpage, hopen, Nat.not_lt.mpr hdue, decide_false, Bool.not_true,
      Bool.or_self, Bool.false_eq_true, if_false]
  case aged =>
    intro s group p hpage hold hrow hleft hopen
    rw [exec_blotterUnitAge, execBlotterUnitAge_of_aged hpage hold hleft hopen, State.stopSlotOf, hrow]
    rfl
  case agedRow =>
    intro s group p set slot row hpage hold hrow hleft hopen
    rw [exec_blotterUnitAge, execBlotterUnitAge_of_aged hpage hold hleft hopen, State.stopSlotOf, hrow]
    rfl

end Sys2Proof.Machine
end

section
/-! Thermal samples, the fall of the throttle level and the rate of rise, and the statement about them (R605, R607 to R609). -/

namespace Sys2Proof.Machine

/-- A choice between three next states is the next state of the choice. -/
theorem next_ite_ite {c d : Prop} [Decidable c] [Decidable d] (x y z : State) :
    (if c then Host.Outcome.next x else if d then Host.Outcome.next y else Host.Outcome.next z :
      Host.Outcome State Fault Refusal) = .next (if c then x else if d then y else z) := by
  rw [next_ite, next_ite]

/-- Settles O5: a sample by the mode, the level's fall and the rate of rise by their guards. -/
theorem thermalCommands : Obligations.ThermalCommands := by
  unfold Obligations.ThermalCommands
  refine ⟨?offSample, ?quiet, ?sample, ?fall, ?rise⟩
  case offSample =>
    intro s temps hvaux htemps hmode
    simp only [exec_thermalSensorSample, execThermalSensorSample, hvaux, htemps, hmode, Bool.not_true, bne_self_eq_false,
      Bool.or_self, Bool.false_eq_true, if_false]
  case quiet =>
    intro s temps hmode
    rw [exec_thermalSensorSample, execThermalSensorSample]
    obtain h | h := hmode <;> rw [h, ite_self]
  case sample =>
    intro s temps hvaux htemps hmode
    refine (if_neg (by rw [hvaux, htemps]; decide)).trans ?_
    obtain h | h | h | h | h := hmode <;> simp only [h]
  case fall =>
    intro s t hcool hdue
    simp only [exec_throttleLevelFall, execThrottleLevelFall, hcool, hdue, Bool.false_eq_true, if_false]
  case rise =>
    intro s hmode
    exact (if_neg (ne_true_of_eq_false hmode)).trans (next_ite_ite ..)

end Sys2Proof.Machine
end

section
/-! The entry to DOZE, its abort points and retry, and the always-on loop, and the statement about them (R597 to R601). -/

namespace Sys2Proof.Machine

/-! ### Delays (R597) -/

section Delays

variable {s : State} {e : DozeEntry}

/-- The entry after a delay of `us` µs, with no island asked again yet. -/
def State.delayEnded (s : State) (e : DozeEntry) (us : Nat) : State :=
  { s with pwr := { s.pwr with entry := some { e with sum := e.sum + us * 1000, delay := false } } }

theorem execDozeIslandDelayExpire_of_delay {us : Nat} (hentry : s.pwr.entry = some e) (hdelay : e.delay = true) :
    execDozeIslandDelayExpire us s =
      .next (if s.fld F.PWR_DOZE_MAX_DELAY * 1000000 < e.sum + us * 1000 then (s.delayEnded e us).dozeRefuse
        else (s.delayEnded e us).dozeAsk) := by
  simp only [execDozeIslandDelayExpire, hentry, hdelay, Bool.not_true, Bool.false_eq_true, if_false, next_ite]
  rfl

/-- Islands that are asked again either refuse, which ends the entry, or say whether they need a delay. -/
theorem delayEnded_dozeAsk (s : State) (e : DozeEntry) (us : Nat) :
    (s.delayEnded e us).dozeAsk =
      if (s.delayEnded e us).dozeRefused then (s.delayEnded e us).dozeRefuse
      else { s with pwr := { s.pwr with entry := some { e with
        sum := e.sum + us * 1000, delay := (s.delayEnded e us).dozeDelayed } } } := rfl

end Delays

/-! ### Abort points (R598, R599) -/

section AbortPoints

variable {s : State} {e : DozeEntry} (hentry : s.pwr.entry = some e)
  (hready : (e.delay || !s.dozeReady (s.fld F.PWR_STATUS_AP + 1)) = false)
include hentry hready

theorem execDozeAbortPoint_of_wake {src : Nat} (hwake : s.pwr.wake = some src) :
    execDozeAbortPoint s = .next (s.dozeAbandon src) := by
  simp only [execDozeAbortPoint, hentry, hready, hwake, Bool.false_eq_true, if_false]

theorem execDozeAbortPoint_of_no_wake (hwake : s.pwr.wake = none) :
    execDozeAbortPoint s =
      .next (if s.fld F.PWR_STATUS_AP + 1 = 6 then s.dozeEnter e.level
        else (s.setFld F.PWR_STATUS_AP (s.fld F.PWR_STATUS_AP + 1)).dozeWork (s.fld F.PWR_STATUS_AP + 1)) := by
  simp only [execDozeAbortPoint, hentry, hready, hwake, Bool.false_eq_true, if_false, next_ite]

end AbortPoints

theorem abortPoint_guard_eq_false {delay ready : Bool} (hdelay : delay = false) (hready : ready = true) :
    (delay || !ready) = false := by
  rw [hdelay, hready]
  rfl

/-! ### The always-on loop (R601) -/

section Loop

variable {s : State} {clk : AonClock} {ticks : Nat} {temps : List Int} {vnow : Nat}

/-- A turn of the loop is counted. -/
def State.loopTurn (s : State) : State := { s with pwr := { s.pwr with periods := s.pwr.periods + 1 } }

variable (hmode : s.mode = .doze) (hup : s.pwr.asserted = false)
include hmode hup

/-- An event other than sideband activity wakes the WY48 whatever the samples read. -/
theorem execDozeLoopWake_of_event {src : Nat} (hwake : s.pwr.wake = some src) (hevent : src ≠ 8) :
    execDozeLoopWake clk ticks temps vnow s = .next (s.loopTurn.dozeWake src clk ticks).serveHeld := by
  refine (if_neg (by rw [hmode, hup]; decide)).trans ?_
  rw [hwake]
  dsimp only
  split
  case h_1 => exact absurd (Option.some.inj ‹_›) hevent
  case h_2 => cases ‹some src = _›; rfl
  all_goals contradiction

/-- Without such an event a reading outside its window wakes the WY48 under its own source. -/
theorem execDozeLoopWake_of_sample {src : Nat} (hwake : s.pwr.wake = none ∨ s.pwr.wake = some 8)
    (hout : (s.loopTurn.noteSample temps vnow).outOfWindow = some src) :
    execDozeLoopWake clk ticks temps vnow s =
      .next ((s.loopTurn.noteSample temps vnow).dozeWake src clk ticks).serveHeld := by
  refine (if_neg (by rw [hmode, hup]; decide)).trans ?_
  unfold State.loopTurn at hout ⊢
  dsimp only at hout ⊢
  rw [hout]
  obtain h | h := hwake
  · rw [h]
  · rw [h]; rfl

/-- With its readings inside their windows a turn wakes at sideband activity, and otherwise keeps the samples and sleeps on. -/
theorem execDozeLoopWake_of_in_window (hwake : s.pwr.wake = none ∨ s.pwr.wake = some 8)
    (hin : (s.loopTurn.noteSample temps vnow).outOfWindow = none) :
    execDozeLoopWake clk ticks temps vnow s =
      .next (if s.pwr.wake = some 8 then (s.loopTurn.dozeWake 8 clk ticks).serveHeld
        else s.loopTurn.noteSample temps vnow) := by
  refine (if_neg (by rw [hmode, hup]; decide)).trans ?_
  unfold State.loopTurn at hin ⊢
  dsimp only at hin ⊢
  rw [hin]
  obtain h | h := hwake <;> rw [h] <;> rfl

end Loop

/-- Settles O6: the end of a delay by its sum and the islands' answer, an abort point by a wake event, a turn of the loop by what
woke it and what its samples read. -/
theorem dozeEntryAndWake : Obligations.DozeEntryAndWake := by
  unfold Obligations.DozeEntryAndWake
  refine ⟨?asked, ?refused, ?abandoned, ?passed, ?retry, ?event, ?sample, ?sideband, ?sleeps⟩
  case asked =>
    intro s us e hentry hdelay hsum hleave
    refine (execDozeIslandDelayExpire_of_delay hentry hdelay).trans (congrArg _ ((if_neg (Nat.not_lt.mpr hsum)).trans ?_))
    exact (delayEnded_dozeAsk s e us).trans (if_neg (ne_true_of_eq_false hleave))
  case refused =>
    intro s us e hentry hdelay hrefused
    refine (execDozeIslandDelayExpire_of_delay hentry hdelay).trans (congrArg _ ?_)
    by_cases hlong : s.fld F.PWR_DOZE_MAX_DELAY * 1000000 < e.sum + us * 1000
    · exact if_pos hlong
    · exact (if_neg hlong).trans ((delayEnded_dozeAsk s e us).trans (if_pos (hrefused.resolve_left hlong)))
  case abandoned =>
    intro s e src hentry hdelay hready hwake
    exact execDozeAbortPoint_of_wake hentry (abortPoint_guard_eq_false hdelay hready) hwake
  case passed =>
    intro s e hentry hdelay hready hwake
    exact execDozeAbortPoint_of_no_wake hentry (abortPoint_guard_eq_false hdelay hready) hwake
  case retry =>
    intro s hretry hdue hwanted hidle hleave
    exact if_neg (by rw [hretry, decide_eq_false (Nat.not_lt.mpr hdue), hwanted, hidle, hleave]; decide)
  case event =>
    intro s clk ticks temps vnow src hmode hup hwake hevent
    exact execDozeLoopWake_of_event hmode hup hwake hevent
  case sample =>
    intro s clk ticks temps vnow src hmode hup hwake hout
    exact execDozeLoopWake_of_sample hmode hup hwake hout
  case sideband =>
    intro s clk ticks temps vnow hmode hup hwake hin
    exact (execDozeLoopWake_of_in_window hmode hup (.inr hwake) hin).trans (congrArg _ (if_pos hwake))
  case sleeps =>
    intro s clk ticks temps vnow hmode hup hwake hin
    exact (execDozeLoopWake_of_in_window hmode hup (.inl hwake) hin).trans (congrArg _ (if_neg (by rw [hwake]; decide)))

end Sys2Proof.Machine
end

section
/-! The Tines: outputs and their order, the handover, self-test, resynchronisation and drills, and the statements about them
(R467, R468, R473 to R475, R477, R479, R483, R484, R488, R489, R493). -/

namespace Sys2Proof.Machine

/-! ### Outputs (R468, R473, R474) -/

section Outputs

variable {s : State} {tine : Bool} {stream osn : Nat} {o : TineOut}

/-- The state in which an output of a driving Tine meets the merge rule: with a pair and no handover, cross-checked (R475). -/
def State.offered (s : State) (tine : Bool) (stream osn : Nat) (o : TineOut) : State :=
  if s.tine.ho.isNone && s.tine.paired then s.crossCheck tine stream osn o.crc else s

/-- The last number that the stream's outputs went out under. -/
def State.lastOsn (s : State) (stream : Nat) : Nat := (s.tine.last.lookup stream).getD 0

/-- An output of a driving Tine by its number: one that has gone out or is held is a duplicate, the next one goes out with those
that follow it, any other one is held. -/
theorem execTineOutputOffer_of_drives (hstandby : (s.tine.st tine = .standby && s.tine.ho.isNone) = false)
    (hdrives : s.tineDrives tine = true) :
    execTineOutputOffer tine stream osn o s =
      let t := s.offered tine stream osn o
      if osn ≤ s.lastOsn stream then .next t.dupOutput
      else if osn = s.lastOsn stream + 1 then
        .next ((t.forward stream osn o.ask).forwardHeld (t.tine.held.length + 1) stream)
      else if t.tine.held.any (fun h => h.stream == stream && h.osn == osn) then .next t.dupOutput
      else .next { t with tine := { t.tine with held :=
        { stream := stream, osn := osn, ask := o.ask, at_ := s.now } :: t.tine.held } } :=
  (if_neg (ne_true_of_eq_false hstandby)).trans (if_neg (ne_true_of_eq_false (congrArg (!·) hdrives)))

/-- An output held for 128 ns stops both Tines and enters SAFE with media halted (R474). -/
theorem execMergeGapTimeout_of_gap
    (hgap : s.tine.held.any (fun h => h.stream == stream && h.at_ + 128 * nsT ≤ s.now) = true) :
    execMergeGapTimeout stream s =
      .next ((({ s with tine := { s.tine with dead := true } }).post F.TINE_EVT_STATUS_MERGE_GAP stream).enterSafe 0x0B true) :=
  if_pos hgap

/-- Without such an output nothing happens. -/
theorem execMergeGapTimeout_of_no_gap
    (hnone : s.tine.held.any (fun h => h.stream == stream && h.at_ + 128 * nsT ≤ s.now) = false) :
    execMergeGapTimeout stream s = .next s :=
  if_neg (ne_true_of_eq_false hnone)

end Outputs

/-! ### The handover (R479, R480) -/

theorem execOverlapClose_of_overlap {s : State} {h : Handover} (hho : s.tine.ho = some h) (hopen : h.overlap = true) :
    execOverlapClose s =
      .next { s with tine := { s.tine with ho := some { h with overlap := false, ovl := min 64 ((s.now - h.at_) / nsT) } } } := by
  simp only [execOverlapClose, hho, hopen, Bool.not_true, Bool.false_eq_true, if_false]

/-! ### Resynchronisation (R484) -/

theorem resyncComplete_guard_eq_false {s : State} {b : Bool} (hjoins : s.tine.st b = .joining) (hhold : s.mode ≠ .holdUp)
    (hoff : s.mode ≠ .off) : (s.tine.st b != .joining || s.mode = .holdUp || s.mode = .off) = false := by
  rw [hjoins, bne_self_eq_false, decide_eq_false hhold, decide_eq_false hoff]
  rfl

/-! ### Drills (R488) -/

/-- A drill that falls due starts where the pair is free, and is otherwise deferred once. -/
theorem execDrillDue_of_due {s : State} {reports : Bool} (hen : s.flag F.TINE_CTRL_DRILL_EN = true)
    (hidle : s.tine.drill.isSome = false) (hoff : s.mode ≠ .off)
    (hdue : (s.tine.due || s.tine.drillAt + s.fld F.TINE_DRILL_PERIOD_H * 3600 * secT ≤ s.now) = true) :
    execDrillDue reports s =
      if s.drillFree then .next (s.startDrill reports)
      else if s.tine.due then .next s
      else .next (({ s with tine := { s.tine with due := true } }).post F.TINE_EVT_STATUS_DRILL_DEFER noUnit) :=
  if_neg (by rw [hen, hidle, decide_eq_false hoff, hdue]; decide)

/-- Settles O35: an output by its number and what is held, each other command by its guard. -/
theorem tineCommands : Obligations.TineCommands := by
  unfold Obligations.TineCommands
  refine ⟨?mismatch, ?stateError, ?standby, ?dup, ?forward, ?heldDup, ?held, ?gap, ?overlap, ?handover, ?selfTest, ?resync,
    ?joined, ?drilled, ?drill, ?deferred⟩
  case mismatch =>
    intro s tine
    rfl
  case stateError =>
    intro s tine
    rfl
  case standby =>
    intro s tine stream osn o hstandby
    exact if_pos hstandby
  case dup =>
    intro s tine stream osn o hdrives hstandby hosn
    exact (execTineOutputOffer_of_drives hstandby hdrives).trans (if_pos hosn)
  case forward =>
    intro s tine stream osn o hdrives hstandby hosn
    exact (execTineOutputOffer_of_drives hstandby hdrives).trans
      ((if_neg (Nat.not_le.mpr (hosn ▸ Nat.lt_succ_self _))).trans (if_pos hosn))
  case heldDup =>
    intro s tine stream osn o hdrives hstandby hosn hheld
    exact (execTineOutputOffer_of_drives hstandby hdrives).trans
      ((if_neg (Nat.not_le.mpr (Nat.lt_of_succ_lt hosn))).trans ((if_neg (Nat.ne_of_gt hosn)).trans (if_pos hheld)))
  case held =>
    intro s tine stream osn o hdrives hstandby hosn hheld
    exact (execTineOutputOffer_of_drives hstandby hdrives).trans
      ((if_neg (Nat.not_le.mpr (Nat.lt_of_succ_lt hosn))).trans
        ((if_neg (Nat.ne_of_gt hosn)).trans (if_neg (ne_true_of_eq_false hheld))))
  case gap =>
    intro s stream hgap
    exact execMergeGapTimeout_of_gap hgap
  case overlap =>
    intro s h hho hopen
    exact execOverlapClose_of_overlap hho hopen
  case handover =>
    intro s h hho hclosed
    simp only [exec_handoverComplete, execHandoverComplete, hho, hclosed, Bool.false_eq_true, if_false]
  case selfTest =>
    intro s tine pass us hresigned hready hho hboot
    refine (if_neg (by rw [hresigned, hready, hho, decide_eq_false hboot]; decide)).trans ?_
    exact next_ite ..
  case resync =>
    intro s hready hen hho hfree
    exact if_neg (by rw [hready, hen, hho, hfree]; exact Bool.false_ne_true)
  case joined =>
    intro s b hb hjoins hhold hoff hdrill
    subst hb
    simp only [exec_resyncComplete, execResyncComplete, resyncComplete_guard_eq_false hjoins hhold hoff, hdrill,
      Bool.false_eq_true, if_false]
  case drilled =>
    intro s b d hb hjoins hhold hoff hdrill
    subst hb
    simp only [exec_resyncComplete, execResyncComplete, resyncComplete_guard_eq_false hjoins hhold hoff, hdrill,
      Bool.false_eq_true, if_false]
  case drill =>
    intro s reports hen hidle hoff hdue hfree
    exact (execDrillDue_of_due hen hidle hoff hdue).trans (if_pos hfree)
  case deferred =>
    intro s reports hen hidle hoff hdue hbusy hfirst
    exact (execDrillDue_of_due hen hidle hoff hdue).trans
      ((if_neg (ne_true_of_eq_false hbusy)).trans (if_neg (ne_true_of_eq_false hfirst)))

/-- Settles O54: an output held for 128 ns stops both Tines, which is the flag that the statement leaves open. -/
theorem mergeGap : Obligations.MergeGap := by
  unfold Obligations.MergeGap
  refine ⟨?gap, ?none⟩
  case gap =>
    intro s stream hgap
    exact ⟨true, execMergeGapTimeout_of_gap hgap⟩
  case none =>
    intro s stream hnone
    exact execMergeGapTimeout_of_no_gap hnone

end Sys2Proof.Machine
end

section
/-! Alerts, the Folio's queue and scrub, the General Cipher Engine and the fuses, and the statement about them (R514, R520, R522,
R523, R545, R548, R551, R579, R621, R633). -/

namespace Sys2Proof.Machine

/-! ### The head of the Folio's queue (R522, R523) -/

section FolioQueue

variable {s : State} {r : FolReq} {rest : List FolReq} {status : Nat}

/-- The Folio with the head of its queue taken off. -/
def State.folTaken (s : State) (rest : List FolReq) : State := { s with fol := { s.fol with reqs := rest } }

/-- An erase that passes leaves its program at the head of the queue; an entry of two sectors erases both. -/
def State.folHeadErased (s : State) (r : FolReq) : State :=
  let two : Bool := match r.job with | .event => s.fol.entries.head?.any (fun e => decide (e.secs = 2)) | _ => false
  let t := s.folErased (s.folSector r.job)
  let u := if two then t.folErased (13376 + (s.fol.evtPos + 1) % 1024) else t
  { u with fol := { u.fol with reqs := { r with erase := false } :: u.fol.reqs } }

/-- What the status of the head makes of it: it passes, it fails, or its sector is erased first. -/
def State.folOutcome (s : State) (r : FolReq) (rest : List FolReq) (status : Nat) : State :=
  if status = 0 then if r.erase then (s.folTaken rest).folHeadErased r else (s.folTaken rest).folPassed r
  else if status ≤ 2 then (s.folTaken rest).folFailed r
  else { s.folTaken rest with fol := { (s.folTaken rest).fol with reqs := { r with erase := true } :: rest } }

theorem folOutcome_of_erased (herase : r.erase = true) : s.folOutcome r rest 0 = (s.folTaken rest).folHeadErased r :=
  (if_pos rfl).trans (if_pos herase)

theorem folOutcome_of_passed (hprogram : r.erase = false) : s.folOutcome r rest 0 = (s.folTaken rest).folPassed r :=
  (if_pos rfl).trans (if_neg (ne_true_of_eq_false hprogram))

theorem folOutcome_of_failed (hlo : 1 ≤ status) (hhi : status ≤ 2) :
    s.folOutcome r rest status = (s.folTaken rest).folFailed r :=
  (if_neg (Nat.ne_of_gt hlo)).trans (if_pos hhi)

theorem folOutcome_of_nothing_programmed (hlo : 3 ≤ status) :
    s.folOutcome r rest status =
      { s.folTaken rest with fol := { (s.folTaken rest).fol with reqs := { r with erase := true } :: rest } } :=
  (if_neg (by omega)).trans (if_neg (by omega))

variable (hreqs : s.fol.reqs = r :: rest) (hstatus : status ≤ 4)
include hreqs hstatus

theorem execFolioRequestComplete_of_head (hoff : s.mode ≠ .off) :
    execFolioRequestComplete status s =
      .next (if s.mode = .holdUp then { s.folOutcome r rest status with fol := { (s.folOutcome r rest status).fol with reqs := [] } }
        else s.folOutcome r rest status) := by
  have hgo : (s.mode = .off || 4 < status) = false := by
    rw [decide_eq_false hoff, decide_eq_false (Nat.not_lt.mpr hstatus)]
    rfl
  simp only [execFolioRequestComplete, hreqs, hgo, Bool.false_eq_true, if_false]
  rfl

/-- Outside HOLD-UP the queue goes on. -/
theorem execFolioRequestComplete_of_on {t : State} (hoff : s.mode ≠ .off) (hhold : s.mode ≠ .holdUp)
    (ht : s.folOutcome r rest status = t) : execFolioRequestComplete status s = .next t :=
  (execFolioRequestComplete_of_head hreqs hstatus hoff).trans (congrArg _ ((if_neg hhold).trans ht))

/-- In HOLD-UP nothing follows the current request (R552). -/
theorem execFolioRequestComplete_of_holdUp {t : State} (hhold : s.mode = .holdUp) (ht : s.folOutcome r rest status = t) :
    execFolioRequestComplete status s = .next { t with fol := { t.fol with reqs := [] } } := by
  subst ht
  exact (execFolioRequestComplete_of_head hreqs hstatus (by rw [hhold]; decide)).trans (congrArg _ (if_pos hhold))

end FolioQueue

/-! ### The engine (R548 to R551) -/

section Engine

variable {s : State} {owner : Nat} {op : GceOp} {handle : Nat} {m1 m2 last : Bool} (hlo : owner ≠ 0) (hhi : owner ≤ 4)
  (hoff : s.mode ≠ .off) (hdoze : s.mode ≠ .doze)

theorem engine_guard_eq_false (hoff : s.mode ≠ .off) (hdoze : s.mode ≠ .doze) :
    ¬ (s.mode = .off || s.mode = .doze) = true := by
  rw [decide_eq_false hoff, decide_eq_false hdoze]
  decide

include hlo hhi hoff hdoze

theorem gceRequest_guard_eq_false : ¬ (owner = 0 || 4 < owner || s.mode = .off || s.mode = .doze) = true := by
  rw [decide_eq_false hlo, decide_eq_false (Nat.not_lt.mpr hhi), decide_eq_false hoff, decide_eq_false hdoze]
  decide

/-- At a lock that another owner holds a request waits once. -/
theorem execGceRequest_of_locked (hlocked : (s.gce.owner != 0 && s.gce.owner != owner) = true) :
    execGceRequest owner op handle m1 m2 last s =
      if s.gce.waiting.any (fun e => e.1 == owner) then .next s
      else .next { s with gce := { s.gce with waiting := gceWait owner s.now s.gce.waiting } } :=
  (if_neg (gceRequest_guard_eq_false hlo hhi hoff hdoze)).trans (if_pos hlocked)

/-- At a lock that is free or its own, the owner takes it and runs. -/
theorem execGceRequest_of_unlocked (hfree : (s.gce.owner != 0 && s.gce.owner != owner) = false) :
    execGceRequest owner op handle m1 m2 last s =
      .next (let t := ({ s with gce := { s.gce with owner := owner, lastReq := s.now } } : State).gceRun op handle m1 m2
        if last then t.gceNext else t) :=
  (if_neg (gceRequest_guard_eq_false hlo hhi hoff hdoze)).trans (if_neg (ne_true_of_eq_false hfree))

end Engine

/-! ### Burns (R545, R579) -/

section Burns

variable {s : State} {weak w m : Nat} {rest : List (Nat × Nat)}
  (hruns : (s.mode = .off || s.mode = .doze || s.mode = .holdUp) = false)
include hruns

theorem execFuseProgramComplete_of_transition {t : Trans} (htrans : s.fol.trans = some t) (hburns : t.burns = (w, m) :: rest)
    (hwritten : s.fol.intents.head?.any (fun i => i.iseq == t.intent.iseq) = true) :
    execFuseProgramComplete weak s = .next (s.lcBurn t w m weak rest) := by
  simp only [execFuseProgramComplete, hruns, htrans, hburns, hwritten, Bool.false_eq_true, if_false, if_true]

/-- A burn of the security version is made again while bits of it stay weak, and the last one resolves the fuses again. -/
theorem execFuseProgramComplete_of_svn (hidle : s.fol.trans = none) (hburns : s.fol.svnBurns = (w, m) :: rest) :
    execFuseProgramComplete weak s =
      if m &&& weak != 0 && s.fol.svnTries < 3 then
        .next { (s.burn w m weak) with fol :=
          { (s.burn w m weak).fol with svnBurns := (w, m &&& weak) :: rest, svnTries := s.fol.svnTries + 1 } }
      else .next (let t : State := { (s.burn w m weak) with fol := { (s.burn w m weak).fol with svnBurns := rest, svnTries := 0 } }
        if rest.isEmpty then t.resolveAgain 54 else t) := by
  simp only [execFuseProgramComplete, hruns, hidle, hburns, Bool.false_eq_true, if_false]

end Burns

/-- Outside OFF, DOZE and HOLD-UP a burn can end. -/
theorem burn_guard_eq_false {s : State} (hoff : s.mode ≠ .off) (hdoze : s.mode ≠ .doze) (hhold : s.mode ≠ .holdUp) :
    (s.mode = .off || s.mode = .doze || s.mode = .holdUp) = false := by
  rw [decide_eq_false hoff, decide_eq_false hdoze, decide_eq_false hhold]
  rfl

/-- Settles O36: alerts by their guards, the head of the Folio's queue by its status and whether HOLD-UP ends the queue, the engine
by its lock, a burn by whether a transition runs. -/
theorem alertsFolioAndGce : Obligations.AlertsFolioAndGce := by
  unfold Obligations.AlertsFolioAndGce
  refine ⟨?aen, ?alert, ?ibi, ?erased, ?erasedHold, ?passed, ?passedHold, ?failed, ?failedHold, ?unprogrammed,
    ?unprogrammedHold, ?scrub, ?waits, ?queues, ?runs, ?timeout, ?entropyFail, ?entropyPass, ?burn, ?svnAgain, ?svn⟩
  case aen =>
    intro s ctrl group hwaited
    exact if_pos hwaited
  case alert =>
    intro s halert
    exact if_pos halert
  case ibi =>
    intro s halert
    exact if_pos halert
  case erased =>
    intro s r rest hreqs hoff hhold herase
    exact execFolioRequestComplete_of_on hreqs (by decide) hoff hhold (folOutcome_of_erased herase)
  case erasedHold =>
    intro s r rest hreqs hhold herase
    exact execFolioRequestComplete_of_holdUp hreqs (by decide) hhold (folOutcome_of_erased herase)
  case passed =>
    intro s r rest hreqs hoff hhold hprogram
    exact execFolioRequestComplete_of_on hreqs (by decide) hoff hhold (folOutcome_of_passed hprogram)
  case passedHold =>
    intro s r rest hreqs hhold hprogram
    exact execFolioRequestComplete_of_holdUp hreqs (by decide) hhold (folOutcome_of_passed hprogram)
  case failed =>
    intro s r rest status hreqs hoff hhold hlo hhi
    exact execFolioRequestComplete_of_on hreqs (by omega) hoff hhold (folOutcome_of_failed hlo hhi)
  case failedHold =>
    intro s r rest status hreqs hhold hlo hhi
    exact execFolioRequestComplete_of_holdUp hreqs (by omega) hhold (folOutcome_of_failed hlo hhi)
  case unprogrammed =>
    intro s r rest status hreqs hoff hhold hlo hhi
    exact execFolioRequestComplete_of_on hreqs hhi hoff hhold (folOutcome_of_nothing_programmed hlo)
  case unprogrammedHold =>
    intro s r rest status hreqs hhold hlo hhi
    exact execFolioRequestComplete_of_holdUp hreqs hhi hhold (folOutcome_of_nothing_programmed hlo)
  case scrub =>
    intro s words hen hoff hdoze hhold hdue
    exact if_neg (by
      rw [hen, decide_eq_false hoff, decide_eq_false hdoze, decide_eq_false hhold, decide_eq_false (Nat.not_lt.mpr hdue)]
      decide)
  case waits =>
    intro s owner op handle m1 m2 last hlo hhi hoff hdoze hlocked hwaiting
    exact (execGceRequest_of_locked hlo hhi hoff hdoze hlocked).trans (if_pos hwaiting)
  case queues =>
    intro s owner op handle m1 m2 last hlo hhi hoff hdoze hlocked hnew
    exact (execGceRequest_of_locked hlo hhi hoff hdoze hlocked).trans (if_neg (ne_true_of_eq_false hnew))
  case runs =>
    intro s owner op handle m1 m2 last hlo hhi hoff hdoze hfree
    exact execGceRequest_of_unlocked hlo hhi hoff hdoze hfree
  case timeout =>
    intro s howner hlate
    exact if_neg (by rw [decide_eq_false howner, decide_eq_false (Nat.not_lt.mpr hlate)]; decide)
  case entropyFail =>
    intro s hoff hdoze
    exact if_neg (engine_guard_eq_false hoff hdoze)
  case entropyPass =>
    intro s hoff hdoze
    exact if_neg (engine_guard_eq_false hoff hdoze)
  case burn =>
    intro s weak w m t rest hoff hdoze hhold htrans hburns hwritten
    exact execFuseProgramComplete_of_transition (burn_guard_eq_false hoff hdoze hhold) htrans hburns hwritten
  case svnAgain =>
    intro s weak w m rest hoff hdoze hhold hidle hburns hweak
    exact (execFuseProgramComplete_of_svn (burn_guard_eq_false hoff hdoze hhold) hidle hburns).trans (if_pos hweak)
  case svn =>
    intro s weak w m rest hoff hdoze hhold hidle hburns hdone
    exact (execFuseProgramComplete_of_svn (burn_guard_eq_false hoff hdoze hhold) hidle hburns).trans
      (if_neg (ne_true_of_eq_false hdone))

end Sys2Proof.Machine
end

section
/-! The microwords of the Quill, and the statement about them (R401, R403 to R405, R409 to R412, R414, R418 to R420). -/

namespace Sys2Proof.Machine

/-! ### A service that is called (R418, R419) -/

section Services

variable {s : State} {nib ctx : Nat} {q : QIn} {x : QCtx} {f : Fetched} {rest : List Fetched}

/-- The state behind the nanoword of the head word, with its context stored. -/
def State.behindNano (s : State) (nib ctx : Nat) (x : QCtx) (f : Fetched) (sr : Nat) : State :=
  ((s.tookTurn nib ctx).nanoExec x f.nano sr).1.setCtx ((s.tookTurn nib ctx).nanoExec x f.nano sr).2

/-- The context behind the nanoword of the head word. -/
def State.ctxBehindNano (s : State) (nib ctx : Nat) (x : QCtx) (f : Fetched) (sr : Nat) : QCtx :=
  ((s.tookTurn nib ctx).nanoExec x f.nano sr).2

variable (hissue : s.issues nib = some x) (hqueue : x.queue = f :: rest) (hctx : x.ctx = ctx)
  (hok : (s.tookTurn nib ctx).badWord x f = none)
include hissue hqueue hctx hok

/-- A CALL into the Scriptorium goes on behind the word. -/
theorem exec_call_of_scriptorium (hmop : mMop f.micro = 4) (hscr : inScr (mTgt f.micro) = true) :
    exec (.call nib ctx q) s = .next ((s.behindNano nib ctx x f q.sr).advance (s.ctxBehindNano nib ctx x f q.sr) q.par) :=
  congrArg _ ((microword_run s 4 nib ctx q _ x f rest hissue hqueue hctx hmop hok).trans (if_pos hscr))

/-- A CALL of a service goes by the service's number. -/
theorem exec_call_of_service (hmop : mMop f.micro = 4) (hscr : inScr (mTgt f.micro) = false) :
    exec (.call nib ctx q) s =
      .next (let t := s.behindNano nib ctx x f q.sr
        let y := s.ctxBehindNano nib ctx x f q.sr
        match mTgt f.micro with
        | 0 => t.setCtx { y with queue := [f], hold := .svc 0 }
        | 1 => t.setCtx { y with
            queue := [f], hold := .svc 1, xbusy := true, decoding := ((t.strokeOf y.req).map Stroke.codewords).getD 1 }
        | 2 => t.setCtx { y with queue := [f], hold := .svc 2 }
        | _ => t.serviceReturn y none) :=
  congrArg _ ((microword_run s 4 nib ctx q _ x f rest hissue hqueue hctx hmop hok).trans
    (if_neg (ne_true_of_eq_false hscr)))

/-- A DONE of a stroke that runs ends it with the nanoword's STAT; a special erase stands for its ERASE. -/
theorem exec_done_of_run {r : Run} {k : Stroke} (hmop : mMop f.micro = 11)
    (hrun : (s.behindNano nib ctx x f 0).nib.runs.find? (fun r =>
      r.nib == (s.ctxBehindNano nib ctx x f 0).nib && r.req == (s.ctxBehindNano nib ctx x f 0).req) = some r)
    (hstroke : (s.behindNano nib ctx x f 0).strokeOf (s.ctxBehindNano nib ctx x f 0).req = some k) :
    exec (.done nib ctx) s =
      .next (let t := s.behindNano nib ctx x f 0
        if k.writes && (bitsOf f.nano 54 4 = 0 || bitsOf f.nano 54 4 = 3) then
          t.endErase { r with ready := true, readyAt := t.nowAt (islNib r.nib) } k (bitsOf f.nano 54 4 == 3)
        else t.endRun { r with ready := true, readyAt := t.nowAt (islNib r.nib) } (bitsOf f.nano 54 4) r.result) := by
  unfold State.behindNano State.ctxBehindNano at *
  refine congrArg _ ((microword_run s 11 nib ctx {} _ x f rest hissue hqueue hctx hmop hok).trans ?_)
  simp only [hrun, hstroke]

end Services

/-! ### Releases and the timer (R401, R404, R410) -/

section Releases

variable {s : State} {nib ctx : Nat} {x : QCtx} (hctx : s.ctxAt nib ctx = some x)
include hctx

theorem execWaitRelease_of_wait {c : Nat} (hhold : x.hold = .wait c) :
    execWaitRelease nib ctx s =
      if x.abort then .next (s.abandon x) else if s.cond x c then .next (s.advance x .ok) else .next s := by
  simp only [execWaitRelease, hctx, hhold]

theorem execWlineRelease_of_wline {c : Nat} (hhold : x.hold = .wline c) :
    execWlineRelease nib ctx s =
      if x.abort then .next (s.abandon x) else if c ≤ s.rul.lineIdx then .next (s.advance x .ok) else .next s := by
  simp only [execWlineRelease, hctx, hhold]

theorem execTmExpire_of_expired (hruns : x.tmRun = true) (hdue : x.tm ≤ s.nowAt (islNib nib)) :
    execTmExpire nib ctx s = .next (s.setCtx { x with tm := 0, tmRun := false }) := by
  simp only [execTmExpire, hctx, hruns, hdue, decide_true, Bool.and_self, if_true]

end Releases

/-- Settles O14: a microword by the shared part of all of them, a CALL then by its target; a release by what the context holds for. -/
theorem quillWords : Obligations.QuillWords := by
  unfold Obligations.QuillWords
  refine ⟨?next, ?jump, ?br, ?brn, ?ret, ?loop, ?ldlc, ?wait, ?wline, ?callScr, ?svc0, ?svc1, ?svc2, ?svcBus, ?scribe, ?done,
    ?bad, ?waitAbort, ?waitGoes, ?wlineAbort, ?wlineGoes, ?timer, ?start⟩
  case next =>
    intro s nib ctx q x f rest hissue hqueue hctx hmop hok
    exact congrArg _ (microword_run s 0 nib ctx q _ x f rest hissue hqueue hctx hmop hok)
  case jump =>
    intro s nib ctx q x f rest hissue hqueue hctx hmop hok
    exact congrArg _ (microword_run s 1 nib ctx q _ x f rest hissue hqueue hctx hmop hok)
  case br =>
    intro s nib ctx q x f rest hissue hqueue hctx hmop hok
    exact congrArg _ (microword_run s 2 nib ctx q _ x f rest hissue hqueue hctx hmop hok)
  case brn =>
    intro s nib ctx q x f rest hissue hqueue hctx hmop hok
    exact congrArg _ (microword_run s 3 nib ctx q _ x f rest hissue hqueue hctx hmop hok)
  case ret =>
    intro s nib ctx q x f rest hissue hqueue hctx hmop hok
    exact congrArg _ (microword_run s 5 nib ctx q _ x f rest hissue hqueue hctx hmop hok)
  case loop =>
    intro s nib ctx q x f rest hissue hqueue hctx hmop hok
    exact congrArg _ (microword_run s 6 nib ctx q _ x f rest hissue hqueue hctx hmop hok)
  case ldlc =>
    intro s nib ctx q x f rest hissue hqueue hctx hmop hok
    exact congrArg _ (microword_run s 7 nib ctx q _ x f rest hissue hqueue hctx hmop hok)
  case wait =>
    intro s nib ctx q x f rest hissue hqueue hctx hmop hok
    exact congrArg _ (microword_run s 8 nib ctx q _ x f rest hissue hqueue hctx hmop hok)
  case wline =>
    intro s nib ctx q x f rest hissue hqueue hctx hmop hok
    exact congrArg _ (microword_run s 9 nib ctx q _ x f rest hissue hqueue hctx hmop hok)
  case callScr =>
    intro s nib ctx q x f rest hissue hqueue hctx hmop hok hscr
    exact exec_call_of_scriptorium hissue hqueue hctx hok hmop hscr
  case svc0 =>
    intro s nib ctx q x f rest hissue hqueue hctx hmop hok hscr hsvc
    rw [exec_call_of_service hissue hqueue hctx hok hmop hscr, hsvc]
    rfl
  case svc1 =>
    intro s nib ctx q x f rest hissue hqueue hctx hmop hok hscr hsvc
    rw [exec_call_of_service hissue hqueue hctx hok hmop hscr, hsvc]
    rfl
  case svc2 =>
    intro s nib ctx q x f rest hissue hqueue hctx hmop hok hscr hsvc
    rw [exec_call_of_service hissue hqueue hctx hok hmop hscr, hsvc]
    rfl
  case svcBus =>
    intro s nib ctx q x f rest hissue hqueue hctx hmop hok hscr hsvc
    obtain ⟨n, hn⟩ : ∃ n, mTgt f.micro = n + 3 := ⟨mTgt f.micro - 3, by omega⟩
    rw [exec_call_of_service hissue hqueue hctx hok hmop hscr, hn]
    rfl
  case scribe =>
    intro s nib ctx q x f rest hissue hqueue hctx hmop hok
    exact congrArg _ (microword_run s 10 nib ctx q _ x f rest hissue hqueue hctx hmop hok)
  case done =>
    intro s nib ctx x f rest r k hissue hqueue hctx hmop hok hrun hstroke
    exact exec_done_of_run hissue hqueue hctx hok hmop hrun hstroke
  case bad =>
    intro s nib ctx cause q x f rest hissue hqueue hctx hbad
    have hcheck (m : Nat) (q : QIn) (k : State → QCtx → Fetched → State) (hmop : mMop f.micro = m) :
        (Host.Outcome.next (s.microword m nib ctx q k) : Res) =
          .next ((s.tookTurn nib ctx).machineCheck nib cause ctx f.addr) :=
      congrArg _ (microword_bad s m nib ctx cause q k x f rest hissue hqueue hctx hmop hbad)
    exact ⟨hcheck 0 q _, hcheck 1 q _, hcheck 2 q _, hcheck 3 q _, hcheck 4 q _, hcheck 5 q _, hcheck 6 q _, hcheck 7 q _,
      hcheck 8 q _, hcheck 9 q _, hcheck 10 q _, hcheck 11 {} _⟩
  case waitAbort =>
    intro s nib ctx c x hctx hhold habort
    exact (execWaitRelease_of_wait hctx hhold).trans (if_pos habort)
  case waitGoes =>
    intro s nib ctx c x hctx hhold habort hcond
    exact (execWaitRelease_of_wait hctx hhold).trans ((if_neg (ne_true_of_eq_false habort)).trans (if_pos hcond))
  case wlineAbort =>
    intro s nib ctx c x hctx hhold habort
    exact (execWlineRelease_of_wline hctx hhold).trans (if_pos habort)
  case wlineGoes =>
    intro s nib ctx c x hctx hhold habort hline
    exact (execWlineRelease_of_wline hctx hhold).trans ((if_neg (ne_true_of_eq_false habort)).trans (if_pos hline))
  case timer =>
    intro s nib ctx x hctx hruns hdue
    exact execTmExpire_of_expired hctx hruns hdue
  case start =>
    intro s nib seq par r k hrun hstroke hgo
    simp only [exec_quillContextStart, execQuillContextStart, hrun, hstroke, hgo, Bool.false_eq_true, if_false, next_ite]

end Sys2Proof.Machine
end

section
/-! Posts of the Event Unit by mode and by the source's bit, and the statement about them (R501, R511 to R513, R515, R516, R633). -/

namespace Sys2Proof.Machine

section Posts

variable {s : State} {f : Fld} {unit src : Nat} (hsrc : sourceOf f.key f.lo = some src)

/-- Below the Nibs' sources the status is the source's own bit. -/
theorem sourceSet_of_group (hgroup : src < 512) : s.sourceSet f src = s.flag f := by
  have hnib : ¬ (decide (512 ≤ src) && decide ((src - 512) % 16 = 15)) = true := by
    rw [decide_eq_false (Nat.not_le.mpr hgroup)]
    exact Bool.false_ne_true
  exact if_neg hnib

/-- The modes in which a source posts at once. -/
theorem posts_at_once (hmode : s.mode = .run ∨ s.mode = .degraded ∨ s.mode = .trial ∨ s.mode = .safe) :
    s.mode ≠ .off ∧ s.mode ≠ .doze := by
  obtain h | h | h | h := hmode <;> rw [h] <;> decide

/-- A source that belongs neither to the power and thermal groups nor to the links cannot set in DOZE. -/
theorem alwaysOn_eq_false (hpwr : src / 32 ≠ 9) (hthm : src / 32 ≠ 10) (hup : src ≠ 416) (hdn : src ≠ 417) :
    alwaysOn src = false := by
  simp only [alwaysOn, beq_eq_false_iff_ne.mpr hpwr, beq_eq_false_iff_ne.mpr hthm, beq_eq_false_iff_ne.mpr hup,
    beq_eq_false_iff_ne.mpr hdn, Bool.or_self]

section AtOnce

variable (hgroup : src < 512) (hmode : s.mode = .run ∨ s.mode = .degraded ∨ s.mode = .trial ∨ s.mode = .safe)
include hsrc hgroup hmode

/-- A source whose bit is 0 sets it and posts, and one of the catalogue is a wake event (R501). -/
theorem post_of_clear (hclear : s.flag f = false) :
    s.post f unit =
      (let t := (s.setFld f 1).freshPost f src (classOf f) (classAer (classOf f)) unit
        if classOf f = 0 then t else t.wakeEvent 15) := by
  obtain ⟨hoff, hdoze⟩ := posts_at_once hmode
  simp only [State.post, State.postAs, hsrc, hoff, hdoze, decide_false, Bool.false_and, sourceSet_of_group hgroup, hclear,
    Bool.not_false, Bool.false_eq_true, if_false, if_true]

/-- A source whose bit is 1 adds to its newest entry, or posts anew where that one shows another class (R512). -/
theorem post_of_listed {e : LogEntry} (hset : s.flag f = true) (hlast : s.evu.log.find? (fun e => e.source == src) = some e) :
    s.post f unit =
      if e.cls != (if classOf f = 0 then 0xFF else classOf f) then
        (s.setFld f 1).freshPost f src (classOf f) (classAer (classOf f)) unit
      else (s.setFld f 1).foldEntry src := by
  obtain ⟨hoff, hdoze⟩ := posts_at_once hmode
  simp only [State.post, State.postAs, hsrc, hoff, hdoze, decide_false, Bool.false_and, sourceSet_of_group hgroup, hset,
    Bool.not_true, Bool.false_eq_true, if_false, State.setFld_evu, hlast]

/-- A source whose bit is 1 and whose entry has been overwritten writes a new one (R512). -/
theorem post_of_unlisted (hset : s.flag f = true) (hnone : s.evu.log.find? (fun e => e.source == src) = none) :
    s.post f unit =
      if sourceClass src != 0 || s.flag (F.EVU_ROUTE_LOG_EN src) then
        ((s.setFld f 1).logEntry src (classOf f) unit ((s.setFld f 1).reg f.key)).sendOwn (s.setFld f 1)
      else s.setFld f 1 := by
  obtain ⟨hoff, hdoze⟩ := posts_at_once hmode
  simp only [State.post, State.postAs, hsrc, hoff, hdoze, decide_false, Bool.false_and, sourceSet_of_group hgroup, hset,
    Bool.not_true, Bool.false_eq_true, if_false, State.setFld_evu, hnone]

end AtOnce

/-- In OFF a source sets and raises its alert where it is always on and its bit is 0. -/
theorem post_of_off (hsrc : sourceOf f.key f.lo = some src) (hoff : s.mode = .off) :
    s.post f unit =
      if (src / 32 == 9 || src / 32 == 10) && !s.sourceSet f src then
        (alertsOf ((s.setFld f 1).msgsFor src (classOf f) (classAer (classOf f)))).foldl State.sendMsg (s.setFld f 1)
      else s := by
  simp only [State.post, State.postAs, hsrc, hoff, if_true]

/-- In DOZE a source that is not always on waits for the wake. -/
theorem post_of_deferred (hsrc : sourceOf f.key f.lo = some src) (hdoze : s.mode = .doze) (hcore : alwaysOn src = false) :
    s.post f unit = { s with evu := { s.evu with deferred := s.evu.deferred ++ [(f.key, f.lo, unit)] } } := by
  have hoff : s.mode ≠ .off := by rw [hdoze]; decide
  simp only [State.post, State.postAs, hsrc, hcore, decide_eq_true hdoze, Bool.not_false, Bool.true_or, Bool.and_self,
    Bool.false_eq_true, if_neg hoff, if_false, if_true]

end Posts

/-! ### Entries of the ring (R516) -/

section Ring

variable {s : State} (src cls unit detail : Nat)

/-- An entry that overwrites nothing unread is written and nothing more. -/
theorem logEntry_of_room (hroom : s.evu.log.length < 1024 ∨ s.evu.wasRead = true) :
    s.logEntry src cls unit detail = s.ringEntry src cls unit detail := by
  have hwrap : ¬ (s.evu.log.length == 1024 && !s.evu.wasRead) = true := by
    obtain h | h := hroom
    · rw [beq_eq_false_iff_ne.mpr (Nat.ne_of_lt h)]; exact Bool.false_ne_true
    · rw [h, Bool.not_true, Bool.and_false]; exact Bool.false_ne_true
  exact if_neg hwrap

/-- The ring holds 1,024 entries. -/
theorem ringEntry_length (hring : s.evu.log.length ≤ 1024) :
    (s.ringEntry src cls unit detail).evu.log.length = min 1024 (s.evu.log.length + 1) := by
  simp only [State.ringEntry, List.length_cons, List.length_take]
  omega

/-- A good state's ring holds no more than 1,024 entries. -/
theorem inv_ring (hinv : s.inv = true) : s.evu.log.length ≤ 1024 := by
  obtain ⟨_, _, _, hring, _⟩ := keeps_refl hinv
  exact hring

end Ring

/-- Settles O52: an occurrence by the mode, by its bit and by its newest entry; a ring entry by whether it overwrites one unread. -/
theorem eventPosting : Obligations.EventPosting := by
  unfold Obligations.EventPosting
  refine ⟨?clear, ?folds, ?gone, ?anew, ?off, ?offAlert, ?deferred, ?room, ?wraps⟩
  case clear =>
    intro s f unit src hsrc hgroup hmode hclear
    exact post_of_clear hsrc hgroup hmode hclear
  case folds =>
    intro s f unit src e hsrc hgroup hmode hset hlast hcls
    exact (post_of_listed hsrc hgroup hmode hset hlast).trans (if_neg (ne_true_of_eq_false (bne_eq_false_iff_eq.mpr hcls)))
  case gone =>
    intro s f unit src hsrc hgroup hmode hset hnone
    exact post_of_unlisted hsrc hgroup hmode hset hnone
  case anew =>
    intro s f unit src e hsrc hgroup hmode hset hlast hcls
    exact (post_of_listed hsrc hgroup hmode hset hlast).trans (if_pos (bne_iff_ne.mpr hcls))
  case off =>
    intro s f unit src hoff hsrc hset
    refine (post_of_off hsrc hoff).trans (if_neg ?_)
    simpa only [Bool.and_eq_true, Bool.or_eq_true, beq_iff_eq, Bool.not_eq_true', not_and, Bool.not_eq_false] using hset
  case offAlert =>
    intro s f unit src hoff hsrc hgroup hclear
    refine (post_of_off hsrc hoff).trans (if_pos ?_)
    simpa only [hclear, Bool.not_false, Bool.and_true, Bool.or_eq_true, beq_iff_eq] using hgroup
  case deferred =>
    intro s f unit src hdoze hsrc hpwr hthm hup hdn
    exact post_of_deferred hsrc hdoze (alwaysOn_eq_false hpwr hthm hup hdn)
  case room =>
    intro s src cls unit detail hinv hroom
    rw [logEntry_of_room src cls unit detail hroom]
    exact ⟨ringEntry_length src cls unit detail (inv_ring hinv), rfl, rfl⟩
  case wraps =>
    intro s src cls unit detail hfull hunread
    exact if_pos (by rw [hfull, hunread]; rfl)

end Sys2Proof.Machine
end

section
/-! Brynnyx frames of enumeration, time exchanges and the master, and the statement about them (R557, R559 to R564). -/

namespace Sys2Proof.Machine

section TimeFrames

variable {s : State} {port : BxlIn}

/-! ### Enumeration (R560, R561) -/

/-- An ENUM that comes in at UP ends at the head and at the last ID, and otherwise gives this node the next ID and goes on. -/
theorem exec_enum_at_up {id : Nat} (htake : (s.bxlFrame port 1).2 = true) (hup : port.up = true) :
    exec (.enum port id) s =
      let t := (s.bxlFrame port 1).1
      if t.isHead then .next (t.post F.BXL_EVT_STATUS_ENUM_LIMIT noUnit)
      else if 16383 ≤ id then
        .next (({ t with bxl := { t.bxl with idValid := false, limited := true } } : State).post F.BXL_EVT_STATUS_ENUM_LIMIT noUnit)
      else .next ((({ t with bxl := { t.bxl with id := id + 1, idValid := true, idStale := false, limited := false } } : State).post
        F.BXL_EVT_STATUS_ENUM_DONE noUnit).bxlSend false (.enum (id + 1))) :=
  exec_of_frame_at_up (exec_enum ..) htake hup rfl

/-! ### Time exchanges (R562) -/

/-- A SYNC counts from the master's side, and from either side while no master is known. -/
def State.takesSync (s : State) (up : Bool) : Bool := s.bxl.toward == some up || (s.bxl.toward.isNone && !s.bxl.isMaster)

/-- A SYNC that counts takes the master's data and answers with the client's own request. -/
theorem exec_sync_of_frame {t1 master hops src cls unc : Nat} (htake : (s.bxlFrame port 2).2 = true) :
    exec (.sync port t1 master hops src cls unc) s =
      if !(s.bxlFrame port 2).1.takesSync port.up then .next (s.bxlFrame port 2).1
      else .next (let t := (s.bxlFrame port 2).1.follow master port.up
        ({ t with
          bxl := { t.bxl with masterSrc := src, masterCls := cls, masterUnc := unc, exch := some { up := port.up, t1 := t1, t2 := s.now, t3 := s.now } }
          rul := { t.rul with hops := hops + 1 } } : State).bxlSend port.up (.dreq s.now)) :=
  exec_of_frame (exec_sync ..) htake rfl

/-- A DREQ is answered by the server of its port. -/
theorem exec_dreq_of_frame {t3 : Nat} (htake : (s.bxlFrame port 3).2 = true) :
    exec (.dreq port t3) s =
      if (s.bxlFrame port 3).1.serves port.up then .next ((s.bxlFrame port 3).1.bxlSend port.up (.dresp s.now))
      else .next (s.bxlFrame port 3).1 :=
  exec_of_frame (exec_dreq ..) htake rfl

section Dresp

variable {t4 : Nat} (htake : (s.bxlFrame port 4).2 = true)
include htake

theorem exec_dresp_of_no_exchange (hexch : (s.bxlFrame port 4).1.bxl.exch = none) :
    exec (.dresp port t4) s = .next (s.bxlFrame port 4).1 :=
  exec_of_frame (exec_dresp ..) htake (by simp only [hexch])

variable {e : Exchange} (hexch : (s.bxlFrame port 4).1.bxl.exch = some e)
include hexch

/-- A DRESP of another port, or one that is late, is not used. -/
theorem exec_dresp_of_unused (hunused : (e.up != port.up || e.t2 + msT ≤ s.now) = true) :
    exec (.dresp port t4) s = .next (s.bxlFrame port 4).1 :=
  exec_of_frame (exec_dresp ..) htake (by simp only [hexch, hunused, if_true])

/-- A DRESP in time ends the exchange with its offset and delay, which is a sample where the master is usable. -/
theorem exec_dresp_of_exchange (hused : (e.up != port.up || e.t2 + msT ≤ s.now) = false) :
    exec (.dresp port t4) s =
      .next (let ms : Int := (t4 : Int) - (e.t3 : Int)
        let sm : Int := (e.t2 : Int) - (e.t1 : Int)
        let off := (ms - sm) / 2 + signedOf 16 ((s.bxlFrame port 4).1.fld (if port.up then F.BXL_ASYM_UP else F.BXL_ASYM_DN))
        let delay := (clampInt 0 65535 ((sm + ms) / 2 / 16)).toNat
        let t := ({ (s.bxlFrame port 4).1 with bxl := { (s.bxlFrame port 4).1.bxl with exch := none } } : State).setFld
          (if port.up then F.BXL_DELAY_UP else F.BXL_DELAY_DN) delay
        if !t.disciplined then t else if t.bxlUsable then t.sample .bxl off
        else if t.rul.bxl.qual then (t.loseSource .bxl).bxlSend (!port.up) .noMaster else t.loseSource .bxl) :=
  exec_of_frame (exec_dresp ..) htake (by simp only [hexch, hused, Bool.false_eq_true, if_false])

end Dresp

/-! ### The master (R563, R564) -/

section Claim

variable {id : Nat} (htake : (s.bxlFrame port 5).2 = true)
include htake

/-- The master that this node knows, itself where it has the role. -/
def State.knownMaster (s : State) : Option Nat := if s.bxl.isMaster then some s.nodeId else s.bxl.master

theorem exec_claim_of_no_master (hnone : ((s.bxlFrame port 5).1.bxlRelay port (.claim id)).knownMaster = none) :
    exec (.claim port id) s = .next (((s.bxlFrame port 5).1.bxlRelay port (.claim id)).follow id port.up) := by
  rw [State.knownMaster] at hnone
  exact exec_of_frame (exec_claim ..) htake (by simp only [hnone])

/-- A CLAIM is settled against the master known here: the lower ID is followed, the higher one contended. -/
theorem exec_claim_of_master {m : Nat}
    (hmaster : ((s.bxlFrame port 5).1.bxlRelay port (.claim id)).knownMaster = some m) :
    exec (.claim port id) s =
      let t := (s.bxlFrame port 5).1.bxlRelay port (.claim id)
      if id < m then .next (t.follow id port.up)
      else if m < id then .next (t.bxlSend port.up (.contended id))
      else .next t := by
  rw [State.knownMaster] at hmaster
  exact exec_of_frame (exec_claim ..) htake (by simp only [hmaster])

end Claim

/-- A CONTENDED of another node goes on; the claimant leaves the role and keeps following the master. -/
theorem exec_contended_of_frame {id : Nat} (htake : (s.bxlFrame port 6).2 = true) :
    exec (.contended port id) s =
      let t := (s.bxlFrame port 6).1
      if !t.hasId || id != t.nodeId then .next (t.bxlRelay port (.contended id))
      else .next (({ t with bxl := { t.bxl with
        contended := true, isMaster := false, master := if t.bxl.isMaster then none else t.bxl.master,
        toward := if t.bxl.isMaster then some port.up else t.bxl.toward } } : State).post F.BXL_EVT_STATUS_CONTENDED noUnit) :=
  exec_of_frame (exec_contended ..) htake rfl

end TimeFrames

/-- Settles O37: a frame by whether the port takes it, and then by the side it comes in at, the exchange it belongs to or the master
that is known here. -/
theorem brynnyxTime : Obligations.BrynnyxTime := by
  unfold Obligations.BrynnyxTime
  refine ⟨?idle, ?enumDropped, ?syncDropped, ?dreqDropped, ?drespDropped, ?claimDropped, ?contendedDropped, ?nomasterDropped,
    ?enumDn, ?enumHead, ?enumLast, ?enum, ?syncOther, ?sync, ?dreq, ?dreqOther, ?drespNone, ?drespUnused, ?dresp, ?claimFree,
    ?claimLower, ?claimHigher, ?claimSame, ?contendedOther, ?contended, ?nomaster⟩
  case idle =>
    intro s port
    rfl
  case enumDropped =>
    intro s port id hdrop
    exact exec_of_frame_dropped (exec_enum ..) hdrop
  case syncDropped =>
    intro s port t1 master hops src cls unc hdrop
    exact exec_of_frame_dropped (exec_sync ..) hdrop
  case dreqDropped =>
    intro s port t3 hdrop
    exact exec_of_frame_dropped (exec_dreq ..) hdrop
  case drespDropped =>
    intro s port t4 hdrop
    exact exec_of_frame_dropped (exec_dresp ..) hdrop
  case claimDropped =>
    intro s port id hdrop
    exact exec_of_frame_dropped (exec_claim ..) hdrop
  case contendedDropped =>
    intro s port id hdrop
    exact exec_of_frame_dropped (exec_contended ..) hdrop
  case nomasterDropped =>
    intro s port hdrop
    exact exec_of_frame_dropped (exec_nomaster ..) hdrop
  case enumDn =>
    intro s port id htake hdn
    exact exec_of_frame_at_dn (exec_enum ..) htake hdn
  case enumHead =>
    intro s port id htake hup hhead
    exact (exec_enum_at_up htake hup).trans (if_pos hhead)
  case enumLast =>
    intro s port id htake hup hinner hlast
    exact (exec_enum_at_up htake hup).trans ((if_neg (ne_true_of_eq_false hinner)).trans (if_pos hlast))
  case enum =>
    intro s port id htake hup hinner hid
    exact (exec_enum_at_up htake hup).trans ((if_neg (ne_true_of_eq_false hinner)).trans (if_neg (Nat.not_le.mpr hid)))
  case syncOther =>
    intro s port t1 master hops src cls unc htake hother
    exact (exec_sync_of_frame htake).trans (if_pos (congrArg (!·) hother))
  case sync =>
    intro s port t1 master hops src cls unc htake hcounts
    exact (exec_sync_of_frame htake).trans (if_neg (ne_true_of_eq_false (congrArg (!·) hcounts)))
  case dreq =>
    intro s port t3 htake hserves
    exact (exec_dreq_of_frame htake).trans (if_pos hserves)
  case dreqOther =>
    intro s port t3 htake hother
    exact (exec_dreq_of_frame htake).trans (if_neg (ne_true_of_eq_false hother))
  case drespNone =>
    intro s port t4 htake hexch
    exact exec_dresp_of_no_exchange htake hexch
  case drespUnused =>
    intro s port t4 e htake hexch hunused
    exact exec_dresp_of_unused htake hexch hunused
  case dresp =>
    intro s port t4 e htake hexch hused
    exact exec_dresp_of_exchange htake hexch hused
  case claimFree =>
    intro s port id htake hnone
    exact exec_claim_of_no_master htake hnone
  case claimLower =>
    intro s port id m htake hmaster hlower
    exact (exec_claim_of_master htake hmaster).trans (if_pos hlower)
  case claimHigher =>
    intro s port id m htake hmaster hhigher
    exact (exec_claim_of_master htake hmaster).trans ((if_neg (Nat.lt_asymm hhigher)).trans (if_pos hhigher))
  case claimSame =>
    intro s port id m htake hmaster hsame
    subst hsame
    exact (exec_claim_of_master htake hmaster).trans ((if_neg (Nat.lt_irrefl id)).trans (if_neg (Nat.lt_irrefl id)))
  case contendedOther =>
    intro s port id htake hother
    exact (exec_contended_of_frame htake).trans (if_pos hother)
  case contended =>
    intro s port id htake hmine
    exact (exec_contended_of_frame htake).trans (if_neg (ne_true_of_eq_false hmine))
  case nomaster =>
    intro s port htake
    exact exec_of_frame (exec_nomaster ..) htake rfl

end Sys2Proof.Machine
end

section
/-! Brynnyx ports and timers, the end of a trial and the rotation, and the statement about them (R558, R559, R561, R562, R564,
R566, R569, R570, R579 to R582). -/

namespace Sys2Proof.Machine

/-! ### A port without frames (R559, R561, R569) -/

section PortLoss

variable {s : State} {up : Bool} (hoff : s.mode ≠ .off) (hlinked : (s.bxl.port up).linked = true)
  (hsilent : (s.bxl.port up).lastAt + 10 * usT ≤ s.now)
include hoff hlinked hsilent

theorem portLoss_guard_eq_false :
    (s.mode = .off || !(s.bxl.port up).linked || s.now < (s.bxl.port up).lastAt + 10 * usT) = false := by
  rw [decide_eq_false hoff, hlinked, decide_eq_false (Nat.not_lt.mpr hsilent)]
  rfl

end PortLoss

section DnLoss

variable {s : State} (hoff : s.mode ≠ .off) (hlinked : (s.bxl.port false).linked = true)
  (hsilent : (s.bxl.port false).lastAt + 10 * usT ≤ s.now)
include hoff hlinked hsilent

/-- A lost DN closes the issuer's own report. -/
theorem execBxlPortLoss_of_sweeping (hsweep : (s.portDown false).sweeping = true) :
    execBxlPortLoss false s = .next ((s.portDown false).closeReport (some (s.portDown false).nodeId)) := by
  simp only [execBxlPortLoss, portLoss_guard_eq_false hoff hlinked hsilent, hsweep, Bool.false_eq_true, if_false, if_true]

variable (hidle : (s.portDown false).sweeping = false)
include hidle

/-- A node that has been asked ends the sweep in the place of those behind the lost DN. -/
theorem execBxlPortLoss_of_asked {t : Nat} (hasked : (s.portDown false).bxl.asked = some (t, false)) :
    execBxlPortLoss false s =
      .next (let u : State := { (s.portDown false) with bxl := { (s.portDown false).bxl with asked := some (t, true) } }
        if s.now < t + 10 * secT then u.bxlSend true (.sweepEnd (some u.nodeId)) else u) := by
  simp only [execBxlPortLoss, portLoss_guard_eq_false hoff hlinked hsilent, hidle, hasked, Bool.false_eq_true, if_false]

/-- Without a sweep to end nothing follows. -/
theorem execBxlPortLoss_of_done (hdone : (s.portDown false).bxl.asked.all (fun a => a.2) = true) :
    execBxlPortLoss false s = .next (s.portDown false) := by
  simp only [execBxlPortLoss, portLoss_guard_eq_false hoff hlinked hsilent, hidle, Bool.false_eq_true, if_false]
  match hasked : (s.portDown false).bxl.asked with
  | none => rfl
  | some (t, true) => rfl
  | some (t, false) => rw [hasked] at hdone; exact absurd hdone Bool.false_ne_true

end DnLoss

/-! ### Sweeps, held entries and chunks (R566, R569, R570) -/

section SweepTimers

variable {s : State} {r : Report} (hreport : s.bxl.report = some r)
include hreport

theorem execSweepTimeout_of_late (hruns : r.status = 3) (hlate : r.at_ + 10 * secT ≤ s.now) :
    execSweepTimeout s = .next (s.closeReport (some ((r.entries.map (fun e => e.node)).foldl max s.nodeId))) := by
  simp only [execSweepTimeout, hreport, hruns, Nat.not_lt.mpr hlate, bne_self_eq_false, decide_false, Bool.or_self,
    Bool.false_eq_true, if_false]

/-- The modes in which a sweep goes out. -/
def State.sweepsOut (s : State) : Bool := s.mode == .run || s.mode == .degraded || s.mode == .trial || s.mode == .safe

theorem execSweepRetry_of_open (hhead : s.isHead = true) (hopen : r.status = 2)
    (hleft : s.bxl.retries < s.fld F.BXL_SWEEP_RETRIES) (hlinked : s.bxl.dn.linked = true) (hlive : s.sweepsOut = true) :
    execSweepRetry s =
      .next (({ s with bxl := { s.bxl with retries := s.bxl.retries + 1 } } : State).issueSweep none (s.bxl.retries + 1)) := by
  have hgo : (!s.isHead || r.status != 2 || s.fld F.BXL_SWEEP_RETRIES ≤ s.bxl.retries || !s.bxl.dn.linked || !s.sweepsOut) =
      false := by
    rw [hhead, hopen, decide_eq_false (Nat.not_le.mpr hleft), hlinked, hlive]
    rfl
  rw [State.sweepsOut] at hgo
  simp only [execSweepRetry, hreport, hgo, Bool.false_eq_true, if_false]

end SweepTimers

/-! ### The trial (R579, R580, R582) -/

section TrialEnds

variable {s : State}

/-- The state after the fallback's entries, before BOOT follows (R580). -/
def State.fellBack (s : State) : State :=
  let t := (s.colophon 3 1 s.bxl.runSlot 0).slotRecord (fun r => { r with pending := 0, tried := false }) none
  let u := t.post F.BXL_EVT_STATUS_FALLBACK noUnit
  { u with bxl := { u.bxl with lastOut := 2 }, fol := u.fol.tallied 3 }

theorem execTrialWatchdogExpire_of_late {env : BootEnv} (hmode : s.mode = .trial) (hleft : s.wdLeft = 0)
    (hfree : s.tineBlocked = false) :
    execTrialWatchdogExpire env s =
      if s.rankNow ≤ 7 then .next (s.lose 1) else .next (s.fellBack.deviceReset 3 env) :=
  if_neg (by rw [hmode, hleft, hfree]; decide)

end TrialEnds

/-- Settles O39: a lost port by its side and the sweep it interrupts, each timer by its guard, the end of a trial by the rank of the
transition in progress. -/
theorem brynnyxTimers : Obligations.BrynnyxTimers := by
  unfold Obligations.BrynnyxTimers
  refine ⟨?badFrame, ?upLoss, ?dnSweep, ?dnAsked, ?dnDone, ?exchange, ?dresp, ?claim, ?unclaim, ?sweepLate, ?sweepRetry, ?held,
    ?chunk, ?fallback, ?fallbackLoses, ?confirm, ?confirmLoses, ?rotation⟩
  case badFrame =>
    intro s up hoff hen
    exact if_neg (by rw [decide_eq_false hoff, hen]; decide)
  case upLoss =>
    intro s hoff hlinked hsilent
    exact (if_neg (ne_true_of_eq_false (portLoss_guard_eq_false hoff hlinked hsilent))).trans (if_pos rfl)
  case dnSweep =>
    intro s hoff hlinked hsilent hsweep
    exact execBxlPortLoss_of_sweeping hoff hlinked hsilent hsweep
  case dnAsked =>
    intro s t hoff hlinked hsilent hidle hasked
    exact execBxlPortLoss_of_asked hoff hlinked hsilent hidle hasked
  case dnDone =>
    intro s hoff hlinked hsilent hidle hdone
    exact execBxlPortLoss_of_done hoff hlinked hsilent hidle hdone
  case exchange =>
    intro s hdue hoff hdoze hhold
    exact if_neg (by
      rw [decide_eq_false (Nat.not_lt.mpr hdue), decide_eq_false hoff, decide_eq_false hdoze, decide_eq_false hhold]
      decide)
  case dresp =>
    intro s e hexch hlate
    simp only [exec_bxlDrespTimeout, execBxlDrespTimeout, hexch, hlate, if_true]
  case claim =>
    intro s hdue hmay
    exact (if_neg (ne_true_of_eq_false hdue)).trans ((if_pos hmay).trans (next_ite ..))
  case unclaim =>
    intro s hdue hmay hmaster
    exact (if_neg (ne_true_of_eq_false hdue)).trans ((if_neg (ne_true_of_eq_false hmay)).trans (if_pos hmaster))
  case sweepLate =>
    intro s r hreport hruns hlate
    exact execSweepTimeout_of_late hreport hruns hlate
  case sweepRetry =>
    intro s r hreport hhead hopen hleft hlinked hlive
    exact execSweepRetry_of_open hreport hhead hopen hleft hlinked hlive
  case held =>
    intro s e t hheld hold
    simp only [exec_heldEntryExpire, execHeldEntryExpire, hheld, hold, if_true]
  case chunk =>
    intro s k r hrelay hlate
    simp only [exec_chunkAckTimeout, execChunkAckTimeout, hrelay, hlate, if_true]
  case fallback =>
    intro s env hmode hleft hfree hrank
    exact (execTrialWatchdogExpire_of_late hmode hleft hfree).trans (if_neg (Nat.not_le.mpr hrank))
  case fallbackLoses =>
    intro s env hmode hleft hfree hrank
    exact (execTrialWatchdogExpire_of_late hmode hleft hfree).trans (if_pos hrank)
  case confirm =>
    intro s hready hrank
    exact (if_neg (by rw [hready]; decide)).trans (if_neg (Nat.not_le.mpr hrank))
  case confirmLoses =>
    intro s hready hrank
    exact (if_neg (by rw [hready]; decide)).trans (if_pos hrank)
  case rotation =>
    intro s hburns hrot hoff hdoze hhold
    exact if_neg (by
      rw [hburns, decide_eq_false hrot, decide_eq_false hoff, decide_eq_false hdoze, decide_eq_false hhold]
      decide)

end Sys2Proof.Machine
end

section
/-! What the management port serves in each mode, the NVMe-MI reads and settings, MCTP control and I3C, and the statements about
them (R621 to R624, R627, R628, R634). -/

namespace Sys2Proof.Machine

/-! ### A management request by the mode (R627, R628, R634) -/

section Gate

variable {s : State} {i : Request} {eid : Nat} {x : Service} {k : State → State} (hvaux : s.pwr.vaux = true)
include hvaux

/-- An MCTP message outside DOZE is answered at once. -/
theorem mctp_of_awake (hmode : s.mode ≠ .doze) : s.mctp i k = .next (k (s.wakeEvent 8)) :=
  (if_neg (by rw [hvaux]; decide)).trans (if_neg hmode)

/-- In DOZE it waits for the wake. -/
theorem mctp_of_doze (hmode : s.mode = .doze) : s.mctp i k = .next (s.holdMsg false i) :=
  (if_neg (by rw [hvaux]; decide)).trans (if_pos hmode)

/-- An MI request outside DOZE by whether the mode serves it. -/
theorem mi_of_awake (hmode : s.mode ≠ .doze) :
    s.mi i eid x k =
      .next (if (s.wakeEvent 8).miServes x then k ((s.wakeEvent 8).miTouch eid)
        else (s.wakeEvent 8).emit (.mi 0xE0 [(s.wakeEvent 8).mode.code])) :=
  (if_neg (by rw [hvaux, decide_eq_false hmode]; decide)).trans (mctp_of_awake hvaux hmode)

theorem mi_of_served (hmode : s.mode ≠ .doze) (hserves : (s.wakeEvent 8).miServes x = true) :
    s.mi i eid x k = .next (k ((s.wakeEvent 8).miTouch eid)) :=
  (mi_of_awake hvaux hmode).trans (congrArg _ (if_pos hserves))

theorem mi_of_unserved (hmode : s.mode ≠ .doze) (hserves : (s.wakeEvent 8).miServes x = false) :
    s.mi i eid x k = .next ((s.wakeEvent 8).emit (.mi 0xE0 [(s.wakeEvent 8).mode.code])) :=
  (mi_of_awake hvaux hmode).trans (congrArg _ (if_neg (ne_true_of_eq_false hserves)))

/-- An MI request in DOZE waits in a command slot, and is discarded with both in use. -/
theorem mi_of_doze (hmode : s.mode = .doze) :
    s.mi i eid x k = .next (if 2 ≤ s.slotsUsed then s.wakeEvent 8 else s.holdMsg true i) :=
  if_pos (by rw [hvaux, decide_eq_true hmode]; rfl)

end Gate

/-- Settles O40: every request by the port's own rule for its mode. -/
theorem managementGate : Obligations.ManagementGate := by
  unfold Obligations.ManagementGate
  refine ⟨?powerOn, ?powerOff, ?deviceReset, ?windowRead, ?windowWrite, ?acquire, ?release, ?dataStructure, ?configGet,
    ?configSet,
    ?vpd, ?miReset, ?dozePowerOn, ?dozePowerOff, ?dozeDeviceReset, ?dozeWindowRead, ?dozeWindowWrite, ?dozeAcquire,
    ?dozeRelease, ?dozeStructure, ?dozeHealth, ?dozeCtrlHealth, ?dozeConfigGet, ?dozeConfigSet, ?dozeVpd, ?dozeMiReset,
    ?dozeSetEid, ?dozeGetEid, ?dozeUuid, ?dozeVersions, ?dozeTypes, ?dozeTunnel⟩
  case powerOn => exact fun s eid hvaux hmode hserves => (exec_powerOn ..).trans (mi_of_unserved hvaux hmode hserves)
  case powerOff => exact fun s eid hvaux hmode hserves => (exec_powerOff ..).trans (mi_of_unserved hvaux hmode hserves)
  case deviceReset => exact fun s eid env hvaux hmode hserves => (exec_deviceReset ..).trans (mi_of_unserved hvaux hmode hserves)
  case windowRead => exact fun s eid off dwords hvaux hmode hserves =>
    (exec_registerWindowRead ..).trans (mi_of_unserved hvaux hmode hserves)
  case windowWrite => exact fun s eid off values env hvaux hmode hserves =>
    (exec_registerWindowWrite ..).trans (mi_of_unserved hvaux hmode hserves)
  case acquire => exact fun s eid hvaux hmode hserves => (exec_miAuthorityAcquire ..).trans (mi_of_unserved hvaux hmode hserves)
  case release => exact fun s eid hvaux hmode hserves => (exec_miAuthorityRelease ..).trans (mi_of_unserved hvaux hmode hserves)
  case dataStructure => exact fun s eid dtyp id hvaux hmode hserves =>
    (exec_readNvmeMiDataStructure ..).trans (mi_of_unserved hvaux hmode hserves)
  case configGet => exact fun s eid id hvaux hmode hserves =>
    (exec_configurationGet ..).trans (mi_of_unserved hvaux hmode hserves)
  case configSet => exact fun s eid id value hvaux hmode hserves =>
    (exec_configurationSet ..).trans (mi_of_unserved hvaux hmode hserves)
  case vpd => exact fun s eid off len hvaux hmode hserves => (exec_vpdRead ..).trans (mi_of_unserved hvaux hmode hserves)
  case miReset => exact fun s eid env hvaux hmode hserves => (exec_miReset ..).trans (mi_of_unserved hvaux hmode hserves)
  case dozePowerOn => exact fun s eid hvaux hmode => (exec_powerOn ..).trans (mi_of_doze hvaux hmode)
  case dozePowerOff => exact fun s eid hvaux hmode => (exec_powerOff ..).trans (mi_of_doze hvaux hmode)
  case dozeDeviceReset => exact fun s eid env hvaux hmode => (exec_deviceReset ..).trans (mi_of_doze hvaux hmode)
  case dozeWindowRead => exact fun s eid off dwords hvaux hmode => (exec_registerWindowRead ..).trans (mi_of_doze hvaux hmode)
  case dozeWindowWrite => exact fun s eid off values env hvaux hmode =>
    (exec_registerWindowWrite ..).trans (mi_of_doze hvaux hmode)
  case dozeAcquire => exact fun s eid hvaux hmode => (exec_miAuthorityAcquire ..).trans (mi_of_doze hvaux hmode)
  case dozeRelease => exact fun s eid hvaux hmode => (exec_miAuthorityRelease ..).trans (mi_of_doze hvaux hmode)
  case dozeStructure => exact fun s eid dtyp id hvaux hmode => (exec_readNvmeMiDataStructure ..).trans (mi_of_doze hvaux hmode)
  case dozeHealth => exact fun s eid hvaux hmode => (exec_nvmSubsystemHealthStatusPoll ..).trans (mi_of_doze hvaux hmode)
  case dozeCtrlHealth => exact fun s eid ctrl hvaux hmode => (exec_controllerHealthStatusPoll ..).trans (mi_of_doze hvaux hmode)
  case dozeConfigGet => exact fun s eid id hvaux hmode => (exec_configurationGet ..).trans (mi_of_doze hvaux hmode)
  case dozeConfigSet => exact fun s eid id value hvaux hmode => (exec_configurationSet ..).trans (mi_of_doze hvaux hmode)
  case dozeVpd => exact fun s eid off len hvaux hmode => (exec_vpdRead ..).trans (mi_of_doze hvaux hmode)
  case dozeMiReset => exact fun s eid env hvaux hmode => (exec_miReset ..).trans (mi_of_doze hvaux hmode)
  case dozeSetEid => exact fun s op eid hvaux hmode => (exec_setEndpointId ..).trans (mctp_of_doze hvaux hmode)
  case dozeGetEid => exact fun s hvaux hmode => (exec_getEndpointId ..).trans (mctp_of_doze hvaux hmode)
  case dozeUuid => exact fun s hvaux hmode => (exec_getEndpointUuid ..).trans (mctp_of_doze hvaux hmode)
  case dozeVersions => exact fun s kind hvaux hmode => (exec_getMctpVersionSupport ..).trans (mctp_of_doze hvaux hmode)
  case dozeTypes => exact fun s hvaux hmode => (exec_getMessageTypeSupport ..).trans (mctp_of_doze hvaux hmode)
  case dozeTunnel =>
    intro s eid req resp page hvaux hmode
    exact (if_neg (by rw [hmode]; decide)).trans (mi_of_doze hvaux hmode)

/-! ### What the requests answer (R621 to R624, R628) -/

section Answers

variable {s : State} {eid : Nat} (hvaux : s.pwr.vaux = true)
include hvaux

section Served

variable (hmode : s.mode ≠ .doze)
include hmode

/-- A data structure by its type, and its identifier where it has one. -/
theorem exec_readNvmeMiDataStructure_of_served {dtyp id : Nat} (hserves : (s.wakeEvent 8).miServes .info = true) :
    exec (.readNvmeMiDataStructure eid dtyp id) s =
      .next (let t := (s.wakeEvent 8).miTouch eid
        match dtyp with
        | 0 => t.emit (.mi 0 [bit (t.flag F.HP_CFG_DUAL) + 1, 2])
        | 1 => if id < 2 + bit (t.flag F.HP_CFG_DUAL) then t.emit (.mi 0 [id, 64]) else t.emit (.mi 4 [])
        | 2 => t.emit (.mi 0 (t.qe.ctrls.map (fun k => k.id)))
        | 3 => match t.ctrl id with
          | some k => t.emit (.mi 0 [k.id, t.portOf k.id])
          | none => t.emit (.mi 4 [])
        | 4 => t.emit (.mi 0 [0xC0, 0xC1, 0xC2, 0xC3, 0xC4, 0xC5])
        | _ => t.emit (.mi 4 [])) :=
  (exec_readNvmeMiDataStructure ..).trans (mi_of_served hvaux hmode hserves)

/-- A controller's health comes from the cache alone, or from the controller where the core serves it. -/
theorem exec_controllerHealthStatusPoll_of_core {ctrl : Nat} (hserves : (s.wakeEvent 8).miServes .poll = true)
    (hcore : ((s.wakeEvent 8).miTouch eid).fromCache = false) :
    exec (.controllerHealthStatusPoll eid ctrl) s =
      .next (let t := (s.wakeEvent 8).miTouch eid
        match t.ctrl ctrl with
        | some k => t.emit (.mi 0 (t.aonCache ++
            [ctrl, bit k.rdy + 2 * bit k.cfs + 4 * k.shst, t.critical ctrl, t.smartTemps.1]))
        | none => t.emit (.mi 4 [])) :=
  (exec_controllerHealthStatusPoll ..).trans
    ((mi_of_served hvaux hmode hserves).trans (congrArg _ (if_neg (ne_true_of_eq_false hcore))))

end Served

section Tunnel

variable {req resp : Nat} {page : Option Nat}

/-- In OFF and BOOT a tunnelled command is answered with the header of two log pages, and otherwise refused. -/
theorem exec_tunnelledAdminCommand_of_cache (hmode : (s.mode = .off || s.mode = .boot) = true) :
    exec (.tunnelledAdminCommand eid req resp page) s =
      .next (let t := s.wakeEvent 8
        match page with
        | some 0xC2 => t.emit (.data .side 2 0xC2 0 64 t.healthHeader)
        | some 0xC0 => t.emit (.data .side 2 0xC0 0 72 [(0, 8, t.mgmt.bootSeq), (24, 48, t.mgmt.digest)])
        | _ => t.emit (.mi 0xE0 [t.mode.code])) := by
  have hawake : s.mode ≠ .doze := by
    intro hdoze
    rw [hdoze] at hmode
    exact absurd hmode (by decide)
  exact (if_pos hmode).trans (mctp_of_awake hvaux hawake)

variable (hcore : (s.mode = .off || s.mode = .boot) = false) (hmode : s.mode ≠ .doze)
include hcore hmode

theorem exec_tunnelledAdminCommand_of_unserved (hserves : (s.wakeEvent 8).miServes .full = false) :
    exec (.tunnelledAdminCommand eid req resp page) s =
      .next ((s.wakeEvent 8).emit (.mi 0xE0 [(s.wakeEvent 8).mode.code])) :=
  (if_neg (ne_true_of_eq_false hcore)).trans (mi_of_unserved hvaux hmode hserves)

/-- A tunnelled command takes one of two slots, with its data within 4,096 bytes. -/
theorem exec_tunnelledAdminCommand_of_served (hserves : (s.wakeEvent 8).miServes .full = true) :
    exec (.tunnelledAdminCommand eid req resp page) s =
      .next (let t := (s.wakeEvent 8).miTouch eid
        if 2 ≤ t.mgmt.tunnels then t
        else if 4096 < req || 4096 < resp then t.emit (.mi 6 [])
        else { t with mgmt := { t.mgmt with tunnels := t.mgmt.tunnels + 1, tunnelEid := eid } }) :=
  (if_neg (ne_true_of_eq_false hcore)).trans (mi_of_served hvaux hmode hserves)

end Tunnel

end Answers

/-- Settles O42: a request that the mode serves by what it asks for; a tunnelled command in OFF and BOOT by its log page. -/
theorem managementReads : Obligations.ManagementReads := by
  unfold Obligations.ManagementReads
  refine ⟨?subsystem, ?port, ?noPort, ?ctrls, ?ctrl, ?noCtrl, ?optional, ?unknown, ?health, ?cached, ?ctrlHealth, ?noHealth,
    ?get, ?getNone, ?set, ?setNone, ?vpdOut, ?vpd, ?tunnelC2, ?tunnelC0, ?tunnelOther, ?tunnelUnserved, ?tunnelFull, ?tunnelLong,
    ?tunnel, ?badEid, ?setEid, ?getEid, ?uuid, ?versions, ?noVersions, ?types, ?entdaa, ?setdasa, ?rstdaa⟩
  case subsystem =>
    intro s eid id hvaux hmode hserves
    exact exec_readNvmeMiDataStructure_of_served hvaux hmode hserves
  case port =>
    intro s eid id hvaux hmode hserves hport
    exact (exec_readNvmeMiDataStructure_of_served hvaux hmode hserves).trans (congrArg _ (if_pos hport))
  case noPort =>
    intro s eid id hvaux hmode hserves hport
    exact (exec_readNvmeMiDataStructure_of_served hvaux hmode hserves).trans (congrArg _ (if_neg (Nat.not_lt.mpr hport)))
  case ctrls =>
    intro s eid id hvaux hmode hserves
    exact exec_readNvmeMiDataStructure_of_served hvaux hmode hserves
  case ctrl =>
    intro s eid id k hvaux hmode hserves hctrl
    simp only [exec_readNvmeMiDataStructure_of_served hvaux hmode hserves, hctrl]
  case noCtrl =>
    intro s eid id hvaux hmode hserves hctrl
    simp only [exec_readNvmeMiDataStructure_of_served hvaux hmode hserves, hctrl]
  case optional =>
    intro s eid id hvaux hmode hserves
    exact exec_readNvmeMiDataStructure_of_served hvaux hmode hserves
  case unknown =>
    intro s eid dtyp id hvaux hmode hserves hdtyp
    obtain ⟨n, rfl⟩ : ∃ n, dtyp = n + 5 := ⟨dtyp - 5, by omega⟩
    exact exec_readNvmeMiDataStructure_of_served hvaux hmode hserves
  case health =>
    intro s eid hvaux hmode hserves
    rw [exec_nvmSubsystemHealthStatusPoll, execNvmSubsystemHealthStatusPoll, mi_of_served hvaux hmode hserves]
  case cached =>
    intro s eid ctrl hvaux hmode hserves hcache
    rw [exec_controllerHealthStatusPoll, execControllerHealthStatusPoll, mi_of_served hvaux hmode hserves, if_pos hcache]
  case ctrlHealth =>
    intro s eid ctrl k hvaux hmode hserves hcore hctrl
    simp only [exec_controllerHealthStatusPoll_of_core hvaux hmode hserves hcore, hctrl]
  case noHealth =>
    intro s eid ctrl hvaux hmode hserves hcore hctrl
    simp only [exec_controllerHealthStatusPoll_of_core hvaux hmode hserves hcore, hctrl]
  case get =>
    intro s eid id hvaux hmode hserves hid
    rw [exec_configurationGet, execConfigurationGet, mi_of_served hvaux hmode hserves, if_pos hid]
  case getNone =>
    intro s eid id hvaux hmode hserves hid
    rw [exec_configurationGet, execConfigurationGet, mi_of_served hvaux hmode hserves, if_neg (ne_true_of_eq_false hid)]
  case set =>
    intro s eid id value hvaux hmode hserves hallowed
    rw [exec_configurationSet, execConfigurationSet, mi_of_served hvaux hmode hserves, if_pos hallowed]
  case setNone =>
    intro s eid id value hvaux hmode hserves hbad
    rw [exec_configurationSet, execConfigurationSet, mi_of_served hvaux hmode hserves, if_neg (ne_true_of_eq_false hbad)]
  case vpdOut =>
    intro s eid off len hvaux hmode hserves hout
    rw [exec_vpdRead, execVpdRead, mi_of_served hvaux hmode hserves, if_pos hout]
  case vpd =>
    intro s eid off len hvaux hmode hserves hin
    rw [exec_vpdRead, execVpdRead, mi_of_served hvaux hmode hserves, if_neg (Nat.not_lt.mpr hin)]
  case tunnelC2 =>
    intro s eid req resp hvaux hmode
    exact exec_tunnelledAdminCommand_of_cache hvaux hmode
  case tunnelC0 =>
    intro s eid req resp hvaux hmode
    exact exec_tunnelledAdminCommand_of_cache hvaux hmode
  case tunnelOther =>
    intro s eid req resp page hvaux hmode hc2 hc0
    rw [exec_tunnelledAdminCommand_of_cache hvaux hmode]
    dsimp only
    split
    case h_1 => exact absurd rfl hc2
    case h_2 => exact absurd rfl hc0
    case h_3 => rfl
  case tunnelUnserved =>
    intro s eid req resp page hvaux hmode hcore hserves
    exact exec_tunnelledAdminCommand_of_unserved hvaux hcore hmode hserves
  case tunnelFull =>
    intro s eid req resp page hvaux hmode hcore hserves hfull
    exact (exec_tunnelledAdminCommand_of_served hvaux hcore hmode hserves).trans (congrArg _ (if_pos hfull))
  case tunnelLong =>
    intro s eid req resp page hvaux hmode hcore hserves hroom hlong
    exact (exec_tunnelledAdminCommand_of_served hvaux hcore hmode hserves).trans
      (congrArg _ ((if_neg (Nat.not_le.mpr hroom)).trans (if_pos hlong)))
  case tunnel =>
    intro s eid req resp page hvaux hmode hcore hserves hroom hshort
    exact (exec_tunnelledAdminCommand_of_served hvaux hcore hmode hserves).trans
      (congrArg _ ((if_neg (Nat.not_le.mpr hroom)).trans (if_neg (ne_true_of_eq_false hshort))))
  case badEid =>
    intro s op eid hvaux hmode hbad
    rw [exec_setEndpointId, execSetEndpointId, mctp_of_awake hvaux hmode, if_pos hbad]
  case setEid =>
    intro s op eid hvaux hmode hgood
    rw [exec_setEndpointId, execSetEndpointId, mctp_of_awake hvaux hmode, if_neg (ne_true_of_eq_false hgood)]
  case getEid =>
    intro s hvaux hmode
    rw [exec_getEndpointId, execGetEndpointId, mctp_of_awake hvaux hmode]
  case uuid =>
    intro s hvaux hmode
    rw [exec_getEndpointUuid, execGetEndpointUuid, mctp_of_awake hvaux hmode]
  case versions =>
    intro s kind hvaux hmode hkind
    rw [exec_getMctpVersionSupport, execGetMctpVersionSupport, mctp_of_awake hvaux hmode, if_pos hkind]
  case noVersions =>
    intro s kind hvaux hmode hkind
    rw [exec_getMctpVersionSupport, execGetMctpVersionSupport, mctp_of_awake hvaux hmode, if_neg (ne_true_of_eq_false hkind)]
  case types =>
    intro s hvaux hmode
    rw [exec_getMessageTypeSupport, execGetMessageTypeSupport, mctp_of_awake hvaux hmode]
  case entdaa =>
    intro s addr hgood
    exact if_pos hgood
  case setdasa =>
    intro s addr dyn hgood
    exact if_pos hgood
  case rstdaa =>
    intro s hvaux
    exact if_pos hvaux

end Sys2Proof.Machine
end
